-- ==== Sys2Proof/Word.lean ====
section
/-! DEFINITION. The word types of the SN9512 and the index types of spec/00_scope.md R1 (Table 0-3). -/

namespace Sys2Proof

/-- An 8-bit byte of host or device memory (R8). -/
abbrev Byte := BitVec 8
/-- A 32-bit register or ring word. -/
abbrev Word := BitVec 32
/-- A 64-bit register: a timestamp, a mask, an address. -/
abbrev DWord := BitVec 64
/-- A 128-bit value: a barge vector register, a collector status word. -/
abbrev Quad := BitVec 128

/-- A cell (channel) `c`, 0 to 511 (R1). -/
abbrev CellIx := Fin 512
/-- A block `b`, 0 to 63 (R1). -/
abbrev BlockIx := Fin 64
/-- A region (island) `g`, 0 to 7 (R1). -/
abbrev RegionIx := Fin 8
/-- A barge `e`, 0 to 63 (R1). -/
abbrev BargeIx := Fin 64
/-- A converter slice `k`, 0 to 31 (R1). -/
abbrev SliceIx := Fin 32
/-- A towpath `t`, 0 to 15 (R1). -/
abbrev TowIx := Fin 16
/-- A fault collector: 0 to 7 the regions, 8 the chip (Table 17-8). -/
abbrev CollIx := Fin 9
/-- A lock table: 0 to 7 the regions, 8 the chip (Table 11-10). -/
abbrev TableIx := Fin 9
/-- A ring id (R248 ff.): 20 bits. -/
abbrev RingIx := BitVec 20

end Sys2Proof
end

