-- ==== Sys2Proof/Syntax.lean ====
section
/-! DEFINITION. The commands the block takes, whole: one constructor per row of spec/opcode_table.json, and the records their
operands are made of. -/

namespace Sys2Proof

/-- How a strait word arrives (R21). -/
inductive WordQuality where
  | good | corrected | uncorrectable
  deriving DecidableEq, Repr

/-- The two ends of a strait (R22). -/
inductive StraitEnd where
  | island | central
  deriving DecidableEq, Repr

/-- A cabinet link. -/
inductive Link where
  | a | b
  deriving DecidableEq, Repr

/-- One comparator (R113, R115). -/
inductive CmpSel where
  | ilo (c : CellIx)
  | ihi (c : CellIx)
  | isc (c : CellIx)
  | vlo (b : BlockIx)
  | vhi (b : BlockIx)
  deriving DecidableEq, Repr

/-- The comparators that share a filter divider: the three of a cell, the two VIN comparators of a block (R120). -/
inductive CmpGroup where
  | cell (c : CellIx)
  | vin (b : BlockIx)
  deriving DecidableEq, Repr

/-- Where a comparator input lies against its band (R113). -/
inductive CmpLevel where
  | above | inside | below
  deriving DecidableEq, Repr

/-- A trip message of a cabinet link (R101). -/
structure TripMsg where
  pos : Fin 8
  region : Fin 8
  bit : Bool
  seq : BitVec 16
  cell : CellIx
  cause : BitVec 5
  time : DWord
  deriving DecidableEq, Repr

/-- What the modulators give a block at a decimation boundary (R135, R161): the filter outputs before any coefficient, 24-bit
scale, signed; bits 0 to 7 and 8 of `after16`: at least 16 modulator clocks have passed since the last restart or OSR commit
of the lane or of VIN; `osr16`: the same since the OSR commit. -/
structure BlockInputs where
  i : List Word
  v : List Word
  vin : Word
  after16 : BitVec 9
  osr16 : Bool
  deriving DecidableEq, Repr

/-- The valid fast VIN samples inside the counted interval of an auxiliary result (R170): mean, least and greatest, mV. -/
structure VinSpan where
  mean : BitVec 16
  lo : BitVec 16
  hi : BitVec 16
  deriving DecidableEq, Repr

/-- A lock entry (Table 8-13). -/
structure LockEntry where
  time : DWord
  action : Byte
  kind : BitVec 4
  region : Fin 8
  lateDrop : Bool
  notify : Bool
  devMask : Byte
  /-- REPEAT: further firings. -/
  further : BitVec 16
  tag : BitVec 16
  period : Word
  param : Word
  target : DWord
  deriving DecidableEq, Repr

/-- A POS training frame (R191): the position it carries, whether this device sent it, and the ring size once it is closed. -/
structure PosFrame where
  pos : Fin 8
  own : Bool
  closed : Option (Fin 8)
  deriving DecidableEq, Repr

/-- A SYNC frame (R193): the sender's TB_TIME at departure and hop count. -/
structure SyncFrame where
  time : DWord
  hops : Fin 8
  deriving DecidableEq, Repr

/-- Lane layouts of vector registers (R206): eight 16-bit lanes or four 32-bit lanes. -/
inductive VType where
  | h8 | w4
  deriving DecidableEq, Repr

/-- What a memory's error correction finds on an access (R214). -/
inductive EccRes where
  | ok | corrected | uncorrectable
  deriving DecidableEq, Repr

/-- A command descriptor (Table 11-6) and the ring it came from: FENCE, CMD_ID, TKIND, TINDEX, whether a reserved bit of its
header is 1, and the parameter words from offset 0x0C on (words not listed are 0). -/
structure Desc where
  ring : RingIx
  fence : Bool
  cmdId : Word
  tkind : BitVec 3
  tindex : BitVec 16
  rsv : Bool
  params : List Word
  deriving DecidableEq, Repr

/-- A ring context as host software wrote it to the table (Table 11-4); `rsv`: ACTIVE, an RO field or a reserved field is
not 0. -/
structure CtxImage where
  base : DWord
  kind : BitVec 3
  log2 : BitVec 5
  pin : Bool
  irqEn : Bool
  bound : RingIx
  vector : BitVec 11
  credits : BitVec 16
  coalCount : BitVec 16
  coalTime : BitVec 16
  wb : DWord
  user : DWord
  rsv : Bool
  deriving DecidableEq, Repr

/-- What a failed device read was for (R249). -/
inductive ReadKind where
  | descriptor | lock | context | other
  deriving DecidableEq, Repr

/-- What a step of a long operation gets from outside (Table 12-7): nothing (its own step, or a 1 ms tick of a wait), a window
of the calibration run with its uncorrected value, the span end of a cell, a chunk read from host memory as bytes or as basin
entries, whether a slot write, an erase or a program ended the work, the outcome of a verification, or of a target probe (none:
arbitration was lost after its retries). -/
inductive StepIn where
  | none
  | window (xf : Word) (complete : Bool)
  | span (c : CellIx)
  | bytes (l : List Byte) (ok : Bool)
  | entries (l : List (List Word)) (ok : Bool)
  | last
  | verified (ok : Bool)
  | probe (addr : BitVec 7) (ack : Option Bool)
  deriving DecidableEq, Repr

/-- What the reserve unit measures (R358, RV_MEAS): bus, rail and pack in mV, pack current in mA, pack temperature in 1/64
degC. -/
structure RvMeas where
  bus : BitVec 16
  vsys : BitVec 16
  pack : BitVec 16
  ma : Word
  t : BitVec 16
  deriving DecidableEq, Repr

/-- What starts a hand-over (R348): the loss of the source, reverse voltage over the input path, the rail below the pack. -/
inductive HandTrigger where
  | loss | reverse | rail
  deriving DecidableEq, Repr

/-- How a transaction of a towpath ends (R369, R370): its last byte passed, with the bytes the target sent (a count first) and
the PEC byte read; a NACK to byte `byte`; at a byte boundary after an ABORT. -/
inductive TowEnd where
  | done (rx : List Byte) (pec : Option Byte)
  | nack (byte : Byte)
  | aborted (rx : List Byte)
  deriving DecidableEq, Repr

/-- A port that holds SCL for a wake (R375, R381). -/
inductive WakePort where
  | towpath (t : TowIx)
  | mgmt
  deriving DecidableEq, Repr

/-- A recovery as TOWPATH_RECOVER sees it (R366): SDA high at the first sample, released by the pulses, or stuck. -/
inductive Recovery where
  | high | released | stuck
  deriving DecidableEq, Repr

/-- Why a supervisor frame is discarded (R383, Table 16-14). -/
inductive FrameError where
  | crc | length | command
  deriving DecidableEq, Repr

/-- The supplies (R408, Table 18-1). -/
inductive Supply where
  | vsys | vdda | vddi | vddc | vddio | vddpx
  deriving DecidableEq, Repr

/-- A domain whose power-on reset is released (R410): the always-on domain with the reserve unit, an island, the central die,
the host port. -/
inductive PorDomain where
  | alwaysOn
  | island (g : RegionIx)
  | central
  | hostPort
  deriving DecidableEq, Repr

/-- What an island finds at bring-up (R413): a copy of the factory trim is valid; cells and VIN comparators of blocks that fail
their test, by lane 8 i + l and block i of the region. -/
structure BringUp where
  trim : Bool
  cells : DWord
  vin : Byte
  deriving DecidableEq, Repr

/-- Wake sources (Table 18-6): the region, towpath or regions concerned. -/
inductive WakeSource where
  | comparator (g : RegionIx)
  | towpath (t : TowIx)
  | mgmt
  | supervisor
  | bar (regions : Byte)
  | linkTrip (g : RegionIx)
  | reserve
  | collector
  deriving DecidableEq, Repr

/-- Where a register write goes (R451, R442, Table 9-15): BAR0, BAR4, the BG_ page of a barge, or the MSI-X control word of
configuration space (bit 0 enable, bit 1 function mask). -/
inductive RegTarget where
  | bar0 (off : BitVec 24)
  | bar4 (off : BitVec 16)
  | barge (e : BargeIx) (off : BitVec 16)
  | msixControl
  deriving DecidableEq, Repr

/-- The commands of the block: one constructor per row of spec/opcode_table.json, in its order. -/
inductive Instr where
  /-- STRAIT_WORD_RECEIVE (R21): A 128-bit strait queue word is received: corrected and counted, or discarded if uncorrectable. -/
  | straitWordReceive (g : RegionIx) (e : StraitEnd) (q : WordQuality)
  /-- IDLE_WORD_SEND (R22): A strait end that has had nothing to send for 0.5 us sends an idle word. -/
  | idleWordSend (g : RegionIx) (e : StraitEnd)
  /-- STRAIT_LOSS_TIMEOUT (R22): No valid word for the loss detection time: the end declares its strait lost. -/
  | straitLossTimeout (g : RegionIx) (e : StraitEnd)
  /-- CENTRAL_RESET_INDICATION (R22): The central die asserts its reset indication and the island end declares the strait lost. -/
  | centralResetIndication (g : RegionIx)
  /-- AUTONOMY_TIMER_EXPIRY (R26): The autonomy timer reaches T_AUTO_MS while the strait is lost, and the sampled policy is applied once in the episode. -/
  | autonomyTimerExpiry (g : RegionIx)
  /-- STOP_RANK_STEP (R26): Under the STOP policy, the next occupied stop rank goes OFF 1 ms after the previous one. -/
  | stopRankStep (g : RegionIx)
  /-- STRAIT_RESTORE (R27): After 100 us of valid words the island end considers the strait restored, the autonomy timer stops and deferred central fault reports are delivered. -/
  | straitRestore (g : RegionIx)
  /-- REJOIN_REQUEST (R27): A write of RGN_AUTONOMY.REJOIN = 1 asks the region to rejoin; it has no effect before the region is ready. -/
  | rejoinRequest (g : RegionIx)
  /-- REGION_REJOIN (R28): A ready region rejoins: it sends the snapshot, EV_REGION_REJOIN and the held events, and the central end resends grants and delivers held cancels and deferred locks. -/
  | regionRejoin (g : RegionIx)
  /-- ISLAND_CLOCK_FAIL (R30): The island analog watchdog detects a failed island clock: it pulls gates down, asserts the region's trip lines and drives ISLAND_SAFE; the region becomes FATAL. -/
  | islandClockFail (g : RegionIx)
  /-- SAMPLE_MIRROR_WRITE (R34): A block frame arrives at the central end, is written to the sample mirror, SAMPLE_READY is raised and the frame is passed to the basin. -/
  | sampleMirrorWrite (b : BlockIx)
  /-- ISLAND_LOAD_REPLY (R36): At cycle 64 an island-window load is answered with its reply, or with 0 and ISLAND_ACCESS_FAIL. -/
  | islandLoadReply (e : BargeIx) (replied : Bool)
  /-- STRONG_PULLDOWN_END (R44): The strong pull-down ends after GATE - OUT falls below 1.0 V or 5 us pass, and the controlled pull-down holds. -/
  | strongPulldownEnd (c : CellIx)
  /-- GATE_HEADROOM (R48): GATE - OUT stays below 9 V for 100 us in ON with no limiter holding, and the cell trips with GATE_HEADROOM. -/
  | gateHeadroom (c : CellIx) (also : BitVec 16)
  /-- CP_FAIL (R49): The pump reservoir check fails within 50 us, or the pump clock stops: block FATAL CP_FAIL, and all eight gates are held down. -/
  | cpFail (b : BlockIx) (cell : Option (Fin 8))
  /-- PASSIVE_HOLD_RELEASE (R51): The passive hold is released once the controlled pull-down has been active for 10 us. -/
  | passiveHoldRelease (c : CellIx)
  /-- VIN_UVLO (R52): VIN[b] falls below the falling gate-drive threshold: gate drive is disabled and cells in INRUSH, ON or LIMIT trip VIN_UVLO. -/
  | vinUvlo (b : BlockIx) (also : BitVec 16)
  /-- GATE_DRIVE_ENABLE (R58): VIN[b] rises above the rising gate-drive threshold and the block gate drive is enabled. -/
  | gateDriveEnable (b : BlockIx)
  /-- SENSE_OPEN (R56): SNSP or SNSN lies below VIN by the sense-open threshold for 10 us, and the cell trips SENSE_OPEN. -/
  | senseOpen (c : CellIx) (also : BitVec 16)
  /-- PROBE_PULSE_START (R59): At the probe period boundary a pulse starts if OUT is at or below 3.0 V; otherwise a START_HIGH result is recorded. -/
  | probePulseStart (c : CellIx) (outMv : BitVec 16)
  /-- CLAMPED (R59): OUT reaches V_c during a probe pulse; t_c is recorded and CLAMPED is set. -/
  | clamped (c : CellIx) (tcUs : BitVec 20)
  /-- PROBE_PULSE_END (R61): A probe pulse ends after T; the R/C estimate and the probe result record are formed and the result is classified as present or absent. -/
  | probePulseEnd (c : CellIx) (vh vt : BitVec 16)
  /-- DEBOUNCE_EXPIRY (R73): The debounce timer started on entry to PROBE expires. -/
  | debounceExpiry (c : CellIx)
  /-- PRECHECK_WAIT_EXPIRY (R75): The VIN check has not passed within p_precheck_wait_ms; precheck fails with reason 1. -/
  | precheckWaitExpiry (c : CellIx)
  /-- GRANT_TIMEOUT (R78): The cell is still in WAIT_GRANT after p_grant_timeout_ms and raises EV_GRANT_TIMEOUT once. -/
  | grantTimeout (c : CellIx)
  /-- REMOVAL (R76): The current stays below p_absent_ma for p_absent_ms in ON; the cell goes OFF and raises EV_PRESENCE removed. -/
  | removal (c : CellIx)
  /-- SOA_TICK (R88): At every whole microsecond the SOA tracker updates each cell's poles, Tj_est and I_soa. -/
  | soaTick (b : BlockIx) (headroom : BitVec 8)
  /-- LIMIT_ENTRY (R81): A limiter starts to hold current in ON; the cell enters LIMIT, starts its fault timer and raises EV_LIMIT. -/
  | limitEntry (c : CellIx)
  /-- LIMIT_RELEASE (R83): No limiter has held and headroom has been met for p_limit_exit_us; the cell returns to ON. -/
  | limitRelease (c : CellIx)
  /-- POWER_GOOD (R82): The power-good conditions hold for p_pgood_dwell_us; the cell goes to ON, releases its reservation and raises EV_POWER_GOOD. -/
  | powerGood (c : CellIx)
  /-- INRUSH_TIMEOUT (R85): The inrush timer expires and the cell trips INRUSH_TIMEOUT or LIMIT_TIMEOUT_THERMAL. -/
  | inrushTimeout (c : CellIx) (also : BitVec 16)
  /-- LIMIT_TIMEOUT (R85): The fault timer expires in LIMIT and the cell trips LIMIT_TIMEOUT or LIMIT_TIMEOUT_THERMAL. -/
  | limitTimeout (c : CellIx) (also : BitVec 16)
  /-- OUT_OV (R86): OUT exceeds p_out_ov_mv for p_out_ov_time_us and the cell trips OUT_OV. -/
  | outOv (c : CellIx) (also : BitVec 16)
  /-- OUT_UV (R86): OUT stays below p_out_uv_mv for p_out_uv_time_us in ON and the cell trips OUT_UV. -/
  | outUv (c : CellIx) (also : BitVec 16)
  /-- SHORT_CIRCUIT (R123): A qualified I_SC output while armed starts the strong pull-down and trips the cell SHORT_CIRCUIT, or in TRIPPED only restarts the pull-down. -/
  | shortCircuit (c : CellIx) (edge : DWord) (also : BitVec 16)
  /-- RULE_EVALUATION (R105): After gate discharge and 10 us in TRIPPED the retry rule is evaluated to retry, latch or no retry, or a held CH_ON is applied. -/
  | ruleEvaluation (c : CellIx)
  /-- RETRY_RELEASE (R69): COOLDOWN ends when backoff, temperature and voltage conditions all hold; the cell goes to WAIT_GRANT, or to INRUSH in autonomy. -/
  | retryRelease (c : CellIx)
  /-- CLASS_WINDOW_EXPIRY (R104): A classification window expires and its counter returns to 0. -/
  | classWindowExpiry (c : CellIx) (m : Fin 8)
  /-- RETRY_COUNT_CLEAR (R106): A cell stays in ON or LIMIT for STABLE_S without a trip, and its retry count is cleared. -/
  | retryCountClear (c : CellIx)
  /-- TRIP_HOLD_EXPIRY (R98): t_trip_min passes after a trip, and the cell's trip-line source ends if it has left the hold states or early release is set. -/
  | tripHoldExpiry (c : CellIx)
  /-- TRIP_FORCE_WRITE (R97): A write of RGN_TRIP_FORCE sets or drops the FORCE sources on trip lines and slice fault inputs. -/
  | tripForceWrite (g : RegionIx) (v : Word)
  /-- EXT_TRIP_LINE (R100): An external assertion of a trip line is observed in LEVEL and EXT_SEEN only. -/
  | extTripLine (g : RegionIx) (n : Fin 8) (low : Bool)
  /-- TRIP_MESSAGE_REPEAT (R101): While the broadcast bit is 1, the trip message is repeated every 100 us. -/
  | tripMessageRepeat (g : RegionIx)
  /-- TRIP_MESSAGE_RECEIVE (R102): A received trip message is forwarded, the mirror bit is updated and EV_LINK_TRIP is raised on a change. -/
  | tripMessageReceive (link : Link) (m : TripMsg)
  /-- MIRROR_STALE (R102): A set mirror bit receives no message for 1 ms and is marked stale. -/
  | mirrorStale (pos : Fin 8) (r : Fin 8)
  /-- FORWARD_MEMORY_EXPIRY (R102): A remembered (position, sequence) pair is forgotten after 100 us. -/
  | forwardMemoryExpiry (pos : Fin 8) (q : BitVec 16)
  /-- LINK_TRIP_CLEAR (R102): A write of RGN_LINK_TRIP.CLEAR = 1 clears every selected mirror bit and stale mark. -/
  | linkTripClear (g : RegionIx) (v : Word)
  /-- GRANT_REQUEST (R109): A grant request arrives at the sluice and is queued in its supply group with a microsecond request time. -/
  | grantRequest (c : CellIx)
  /-- GRANT_WITHDRAW (R77): A cell's withdrawal of its pending request reaches the sluice. -/
  | grantWithdraw (c : CellIx)
  /-- GRANT_ROUND (R110): Every microsecond the sluice runs a grant round in each group and sends grants. -/
  | grantRound
  /-- GRANT_RECEIVE (R111): A grant reaches a cell, which enters INRUSH if still in WAIT_GRANT and otherwise returns the grant unused. -/
  | grantReceive (c : CellIx)
  /-- RESERVATION_RELEASE (R111): A release or return reaches the sluice and frees the reservation for the next round. -/
  | reservationRelease (c : CellIx)
  /-- COMPARATOR_CROSSING (R113): A comparator input crosses its threshold or leaves its band, and the raw output changes or BAND_INIT clears. -/
  | comparatorCrossing (x : CmpSel) (l : CmpLevel)
  /-- COMPARATOR_FILTER_SAMPLE (R120): Every D island clocks the majority filter samples, and the filtered output, window position and synchronous checks update. -/
  | comparatorFilterSample (x : CmpGroup)
  /-- EV_WINDOW_HOLDOFF_EXPIRY (R128): The 100 us event holdoff ends and the coalesced window changes are raised as one event. -/
  | evWindowHoldoffExpiry (x : CmpGroup)
  /-- MODE_SETTLED (R116): t_up passes after a change to a faster comparator mode; the new mode applies and MODE_PENDING clears. -/
  | modeSettled (x : CmpSel)
  /-- COMPARATOR_WAKE (R127): With the island clock stopped, a raw comparator output qualified for 1 us wakes the region. -/
  | comparatorWake (x : CmpSel)
  /-- EDGE_DATA_READ (R125): A 128-bit load of RGN_EDGE_DATA returns and removes the oldest edge record. -/
  | edgeDataRead (b : BlockIx)
  /-- COMPARATOR_SELFTEST_END (R130): A comparator self-test ends; on failure SELFTEST_FAIL and block FATAL CMP_SELFTEST_FAIL follow, otherwise precheck may proceed. -/
  | comparatorSelftestEnd (x : CmpGroup) (pass : Bool)
  /-- DECIMATION_BOUNDARY (R135): Every OSR modulator clocks the block's fast filters output samples, the frame is assembled, and settle and commit rules apply. -/
  | decimationBoundary (b : BlockIx) (x : BlockInputs)
  /-- WINDOW_END (R146): An integrating window ends; the corrected value and record are written, averaging groups and spans complete, and telemetry may be sent. -/
  | windowEnd (x : CmpGroup) (iOnes vOnes clocks : BitVec 25)
  /-- LANE_RESTART (R151): A gated lane restarts 14 sample periods before a probe pulse, or when a state change requires it. -/
  | laneRestart (c : CellIx)
  /-- LANE_STOP (R152): A gated lane stops 8 sample periods after a probe pulse ends, aborting its integrating window. -/
  | laneStop (c : CellIx) (clocks : BitVec 25)
  /-- AUX_CONVERSION_END (R153): An auxiliary conversion completes and its result is stored; reference, temperature and plausibility checks follow. -/
  | auxConversionEnd (g : RegionIx) (x : Word) (vin : Option VinSpan)
  /-- AUX_URGENT_WRITE (R156): A write of RGN_AUX_URGENT requests an urgent conversion, which aborts the scan, is queued or is dropped. -/
  | auxUrgentWrite (g : RegionIx) (v : Word)
  /-- AUX_MASK_WRITE (R154): A write of RGN_AUX_MASK changes the scan set at the next switch and clears VALID of removed inputs. -/
  | auxMaskWrite (g : RegionIx) (v : Word)
  /-- TREND_LOG_APPEND (R169): The runtime appends the first qualified R_PATH after each TREND_S interval to the cell's trend log. -/
  | trendLogAppend (c : CellIx)
  /-- CAL_LOAD (R177): After boot the runtime loads each island's valid calibration slot, or raises CAL_CRC, and sets ISLAND_CAL. -/
  | calLoad (g : RegionIx)
  /-- TB_TIME_READ (R179): A 32-bit read of the low half of TB_TIME latches the upper half. -/
  | tbTimeRead
  /-- TB_RATE_WRITE (R178): A write of TB_RATE sets the free-run trim while SRC = 0 and is otherwise ignored with ADJ_REFUSED. -/
  | tbRateWrite (v : Word)
  /-- TB_ADJ (R183): A write of TB_ADJ steps or slews the timebase while SRC = 0, and is otherwise refused. -/
  | tbAdj (v : Word)
  /-- TB_SOURCE_SELECT (R182): A write to SRC or ALT_SRC takes effect at once and enters ACQUIRE. -/
  | tbSourceSelect (v : Word)
  /-- DISCIPLINE_MEASUREMENT (R181): A source offset measurement feeds the servo, may step the timebase and moves the discipline state machine. -/
  | disciplineMeasurement (src : BitVec 3) (offset : DWord)
  /-- TB_HOLDOVER (R181): Four measurement intervals pass without a measurement and the timebase enters HOLDOVER. -/
  | tbHoldover
  /-- ALT_SOURCE_SWITCH (R182): HOLDOVER lasts ALT_AFTER_S and the active source becomes ALT_SRC in ACQUIRE. -/
  | altSourceSwitch
  /-- SYNC_OUT_PPS (R205): With PPS_OUT set, SYNC_OUT gives a 1 us pulse at each whole second of TB_TIME. -/
  | syncOutPps
  /-- DISCIPLINE_WORD (R185): A TMARK with its discipline word reaches the island; the replica servo trims, steps or relocks. -/
  | disciplineWord (g : RegionIx) (err : Word)
  /-- POS_FRAME (R191): A POS training frame is received; the device takes its position and forwards it, or the master closes the ring. -/
  | posFrame (link : Link) (f : PosFrame)
  /-- SYNC_FRAME (R193): A SYNC frame is received and disciplines a device whose source is that link. -/
  | syncFrame (link : Link) (f : SyncFrame)
  /-- SYNC_FRAME_SEND (R193): Every 10 us the master, or a disciplined device on its other link, sends a SYNC frame. -/
  | syncFrameSend
  /-- DELAY_MEASUREMENT (R192): Every 1 ms a link measures its two-way hop delay. -/
  | delayMeasurement (link : Link) (ns : Word)
  /-- LINK_FRAME_CRC_ERROR (R190): A link frame with a CRC error is discarded and counted; 16 in 1 ms put the link in FAULT. -/
  | linkFrameCrcError (link : Link)
  /-- LINK_FAULT_EXIT (R190): A link in FAULT goes 10 ms without a frame error and returns to TRAINING. -/
  | linkFaultExit (link : Link)
  /-- LOCK_FRAME_RECEIVE (R196): Three LOCK frames deliver a lock entry, which is forwarded and inserted if the device's position bit is set. -/
  | lockFrameReceive (link : Link) (e : LockEntry)
  /-- LOCK_FETCH (R197): A lock ring head enters the look-ahead and is fetched, checked and sent to its tables or to the links. -/
  | lockFetch (n : Fin 16) (e : LockEntry)
  /-- LOCK_INSERT (R198): A lock copy enters its table once an entry is free, or is deferred; a late copy is fired or dropped. -/
  | lockInsert (t : TableIx)
  /-- LOCK_FIRE (R205): A lock copy reaches its time; commits apply, actions fire, EV_LOCK_FIRED is raised if asked, and a repeat advances. -/
  | lockFire (t : TableIx)
  /-- TRIP_ASSERT_END (R97): The hold time of a TRIP_ASSERT lock ends and its source lets go of the line. -/
  | tripAssertEnd (g : RegionIx) (tag : BitVec 16)
  /-- SYNC_PULSE_END (R195): The SYNC_PULSE width elapses and SYNC_OUT returns low. -/
  | syncPulseEnd
  /-- RELEASE_ANNOUNCE (R235): The chip lock keeper's announcement of the earliest TASK_RELEASE time reaches a barge and sets NEXT. -/
  | releaseAnnounce (e : BargeIx) (slot : Fin 16) (time : Option DWord)
  /-- ADD (R209): Instruction add: 32-bit wrapping sum. -/
  | addR (e : BargeIx) (d a b : Fin 32)
  /-- SUB (R209): Instruction sub: 32-bit wrapping difference. -/
  | subR (e : BargeIx) (d a b : Fin 32)
  /-- AND (R209): Instruction and. -/
  | andR (e : BargeIx) (d a b : Fin 32)
  /-- OR (R209): Instruction or. -/
  | orR (e : BargeIx) (d a b : Fin 32)
  /-- XOR (R209): Instruction xor. -/
  | xorR (e : BargeIx) (d a b : Fin 32)
  /-- SHL (R209): Instruction shl: logical left shift by b[4:0]. -/
  | shl (e : BargeIx) (d a b : Fin 32)
  /-- SHR (R209): Instruction shr: logical right shift. -/
  | shr (e : BargeIx) (d a b : Fin 32)
  /-- SRA (R209): Instruction sra: arithmetic right shift. -/
  | sra (e : BargeIx) (d a b : Fin 32)
  /-- LT (R209): Instruction lt: signed less-than. -/
  | lt (e : BargeIx) (d a b : Fin 32)
  /-- LTU (R209): Instruction ltu: unsigned less-than. -/
  | ltu (e : BargeIx) (d a b : Fin 32)
  /-- MIN (R209): Instruction min: signed minimum. -/
  | minS (e : BargeIx) (d a b : Fin 32)
  /-- MAX (R209): Instruction max: signed maximum. -/
  | maxS (e : BargeIx) (d a b : Fin 32)
  /-- MINU (R209): Instruction minu: unsigned minimum. -/
  | minu (e : BargeIx) (d a b : Fin 32)
  /-- MAXU (R209): Instruction maxu: unsigned maximum. -/
  | maxu (e : BargeIx) (d a b : Fin 32)
  /-- CLZ (R209): Instruction clz: count of leading zeros. -/
  | clz (e : BargeIx) (d a : Fin 32)
  /-- ADDS (R209): Instruction adds: signed saturating sum. -/
  | adds (e : BargeIx) (d a b : Fin 32)
  /-- SUBS (R209): Instruction subs: signed saturating difference. -/
  | subs (e : BargeIx) (d a b : Fin 32)
  /-- ADD_I (R209): Instruction add.i with a sign-extended constant; also nop. -/
  | addI (e : BargeIx) (d a : Fin 32) (imm : BitVec 13)
  /-- AND_I (R209): Instruction and.i. -/
  | andI (e : BargeIx) (d a : Fin 32) (imm : BitVec 13)
  /-- OR_I (R209): Instruction or.i. -/
  | orI (e : BargeIx) (d a : Fin 32) (imm : BitVec 13)
  /-- XOR_I (R209): Instruction xor.i. -/
  | xorI (e : BargeIx) (d a : Fin 32) (imm : BitVec 13)
  /-- LT_I (R209): Instruction lt.i. -/
  | ltI (e : BargeIx) (d a : Fin 32) (imm : BitVec 13)
  /-- LTU_I (R209): Instruction ltu.i. -/
  | ltuI (e : BargeIx) (d a : Fin 32) (imm : BitVec 13)
  /-- SHL_I (R209): Instruction shl.i: constant left shift. -/
  | shlI (e : BargeIx) (d a : Fin 32) (sh : Fin 32)
  /-- SHR_I (R209): Instruction shr.i: constant logical right shift. -/
  | shrI (e : BargeIx) (d a : Fin 32) (sh : Fin 32)
  /-- SRA_I (R209): Instruction sra.i: constant arithmetic right shift. -/
  | sraI (e : BargeIx) (d a : Fin 32) (sh : Fin 32)
  /-- MOVH (R209): Instruction movh: d := imm21 << 11. -/
  | movh (e : BargeIx) (d : Fin 32) (imm : BitVec 21)
  /-- ADRH (R209): Instruction adrh: d := pc + (imm21 << 11). -/
  | adrh (e : BargeIx) (d : Fin 32) (imm : BitVec 21)
  /-- MUL (R209): Instruction mul: low 32 bits of the product. -/
  | mulR (e : BargeIx) (d a b : Fin 32)
  /-- MULH_S (R209): Instruction mulh.s: high 32 bits of the signed product. -/
  | mulhS (e : BargeIx) (d a b : Fin 32)
  /-- MULH_U (R209): Instruction mulh.u: high 32 bits of the unsigned product. -/
  | mulhU (e : BargeIx) (d a b : Fin 32)
  /-- DIV_S (R209): Instruction div.s: signed quotient, saturating on division by zero. -/
  | divS (e : BargeIx) (d a b : Fin 32)
  /-- DIV_U (R209): Instruction div.u: unsigned quotient. -/
  | divU (e : BargeIx) (d a b : Fin 32)
  /-- REM_S (R209): Instruction rem.s: signed remainder. -/
  | remS (e : BargeIx) (d a b : Fin 32)
  /-- REM_U (R209): Instruction rem.u: unsigned remainder. -/
  | remU (e : BargeIx) (d a b : Fin 32)
  /-- LD_B (R210): Instruction ld.b: sign-extended byte load. -/
  | ldB (e : BargeIx) (d base : Fin 32) (imm : BitVec 13)
  /-- LD_BU (R210): Instruction ld.bu: zero-extended byte load. -/
  | ldBu (e : BargeIx) (d base : Fin 32) (imm : BitVec 13)
  /-- LD_H (R210): Instruction ld.h: sign-extended half-word load. -/
  | ldH (e : BargeIx) (d base : Fin 32) (imm : BitVec 13)
  /-- LD_HU (R210): Instruction ld.hu: zero-extended half-word load. -/
  | ldHu (e : BargeIx) (d base : Fin 32) (imm : BitVec 13)
  /-- LD_W (R210): Instruction ld.w: word load, checked, forwarded or queued. -/
  | ldW (e : BargeIx) (d base : Fin 32) (imm : BitVec 13)
  /-- LD_D (R210): Instruction ld.d: 64-bit load into a scalar pair. -/
  | ldD (e : BargeIx) (d base : Fin 32) (imm : BitVec 13)
  /-- VLD_Q (R210): Instruction vld.q: 128-bit vector load. -/
  | vldQ (e : BargeIx) (v : Fin 16) (base : Fin 32) (imm : BitVec 13)
  /-- ST_B (R218): Instruction st.b: byte store into the store buffer. -/
  | stB (e : BargeIx) (src base : Fin 32) (imm : BitVec 13)
  /-- ST_H (R218): Instruction st.h: half-word store. -/
  | stH (e : BargeIx) (src base : Fin 32) (imm : BitVec 13)
  /-- ST_W (R218): Instruction st.w: word store. -/
  | stW (e : BargeIx) (src base : Fin 32) (imm : BitVec 13)
  /-- ST_D (R218): Instruction st.d: scalar-pair store. -/
  | stD (e : BargeIx) (src base : Fin 32) (imm : BitVec 13)
  /-- VST_Q (R218): Instruction vst.q: 128-bit vector store. -/
  | vstQ (e : BargeIx) (v : Fin 16) (base : Fin 32) (imm : BitVec 13)
  /-- LOAD_RESULT (R210): An outstanding load writes its result at its latency, or raises ECC_UNCORRECTED. -/
  | loadResult (e : BargeIx) (n : Fin 4) (ecc : EccRes)
  /-- STORE_DRAIN (R218): The head store-buffer entry leaves after its drain time and becomes visible, or enters the IRAM patch queue. -/
  | storeDrain (e : BargeIx)
  /-- FETCH_LINE_FILL (R215): A demand fill of a code-flash fetch line completes after 12 cycles. -/
  | fetchLineFill (e : BargeIx)
  /-- PREFETCH_COMPLETE (R216): A prefetch of the next flash line into the other buffer completes. -/
  | prefetchComplete (e : BargeIx)
  /-- DATA_LINE_FILL (R212): A code-flash data line-buffer miss fill completes and the load returns. -/
  | dataLineFill (e : BargeIx)
  /-- B_EQ (R217): Instruction b.eq: branch if equal. -/
  | bEq (e : BargeIx) (a b : Fin 32) (imm : BitVec 13)
  /-- B_NE (R217): Instruction b.ne: branch if not equal. -/
  | bNe (e : BargeIx) (a b : Fin 32) (imm : BitVec 13)
  /-- B_LT (R217): Instruction b.lt: branch if signed less. -/
  | bLt (e : BargeIx) (a b : Fin 32) (imm : BitVec 13)
  /-- B_GE (R217): Instruction b.ge: branch if signed greater or equal. -/
  | bGe (e : BargeIx) (a b : Fin 32) (imm : BitVec 13)
  /-- B_LTU (R217): Instruction b.ltu: branch if unsigned less. -/
  | bLtu (e : BargeIx) (a b : Fin 32) (imm : BitVec 13)
  /-- B_GEU (R217): Instruction b.geu: branch if unsigned greater or equal. -/
  | bGeu (e : BargeIx) (a b : Fin 32) (imm : BitVec 13)
  /-- JMP (R217): Instruction jmp: pc-relative jump with link. -/
  | jmp (e : BargeIx) (d : Fin 32) (imm : BitVec 21)
  /-- JMPR (R217): Instruction jmpr: register jump with link. -/
  | jmpr (e : BargeIx) (d base : Fin 32) (imm : BitVec 13)
  /-- DRAIN (R218): Instruction drain: waits until the store buffer and the load queue are empty. -/
  | drain (e : BargeIx)
  /-- SYNC_I (R222): Instruction sync.i: drains, applies the IRAM patches and clears the fetch buffers and BTB. -/
  | syncI (e : BargeIx)
  /-- WAIT_I (R225): Instruction wait.i: waits for an eligible interrupt and makes the barge a candidate for dispatch. -/
  | waitI (e : BargeIx)
  /-- RET_X (R228): Instruction ret.x: returns from a handler or exception, or makes a chained entry. -/
  | retX (e : BargeIx)
  /-- TRAP (R229): Instruction trap: raises exception TRAP, the runtime service call. -/
  | trap (e : BargeIx)
  /-- BRK (R437): Instruction brk: halts the barge under debug with BRK_HALT, otherwise raises exception BRK. -/
  | brk (e : BargeIx)
  /-- DI (R224): Instruction di: GIE := 0 at issue. -/
  | di (e : BargeIx)
  /-- EI (R224): Instruction ei: GIE := 1 at issue. -/
  | ei (e : BargeIx)
  /-- ILLEGAL (R208): An illegal word reaches issue and raises ILLEGAL. -/
  | illegal (e : BargeIx)
  /-- VADD (R209): Instruction vadd: lane-wise wrapping add. -/
  | vadd (e : BargeIx) (t : VType) (vd va vb : Fin 16)
  /-- VSUB (R209): Instruction vsub: lane-wise wrapping subtract. -/
  | vsub (e : BargeIx) (t : VType) (vd va vb : Fin 16)
  /-- VADDS (R209): Instruction vadds: lane-wise saturating add. -/
  | vadds (e : BargeIx) (t : VType) (vd va vb : Fin 16)
  /-- VSUBS (R209): Instruction vsubs: lane-wise saturating subtract. -/
  | vsubs (e : BargeIx) (t : VType) (vd va vb : Fin 16)
  /-- VMIN (R209): Instruction vmin: lane-wise signed minimum. -/
  | vmin (e : BargeIx) (t : VType) (vd va vb : Fin 16)
  /-- VMAX (R209): Instruction vmax: lane-wise signed maximum. -/
  | vmax (e : BargeIx) (t : VType) (vd va vb : Fin 16)
  /-- VABS (R209): Instruction vabs: lane-wise saturating absolute value. -/
  | vabs (e : BargeIx) (t : VType) (vd va : Fin 16)
  /-- VAND (R209): Instruction vand: bitwise and. -/
  | vand (e : BargeIx) (vd va vb : Fin 16)
  /-- VOR (R209): Instruction vor: bitwise or. -/
  | vor (e : BargeIx) (vd va vb : Fin 16)
  /-- VXOR (R209): Instruction vxor: bitwise xor. -/
  | vxor (e : BargeIx) (vd va vb : Fin 16)
  /-- VMOV (R209): Instruction vmov: vd := va. -/
  | vmov (e : BargeIx) (vd va : Fin 16)
  /-- VSLL (R209): Instruction vsll: lane-wise logical left shift by scalar s. -/
  | vsll (e : BargeIx) (t : VType) (vd va : Fin 16) (r : Fin 32)
  /-- VSRL (R209): Instruction vsrl: lane-wise logical right shift. -/
  | vsrl (e : BargeIx) (t : VType) (vd va : Fin 16) (r : Fin 32)
  /-- VSRA (R209): Instruction vsra: lane-wise arithmetic right shift. -/
  | vsra (e : BargeIx) (t : VType) (vd va : Fin 16) (r : Fin 32)
  /-- VCMPGT (R209): Instruction vcmpgt: lane mask of va > vb into a scalar. -/
  | vcmpgt (e : BargeIx) (t : VType) (r : Fin 32) (va vb : Fin 16)
  /-- VCMPEQ (R209): Instruction vcmpeq: lane mask of va = vb into a scalar. -/
  | vcmpeq (e : BargeIx) (t : VType) (r : Fin 32) (va vb : Fin 16)
  /-- VSEL (R209): Instruction vsel: lane select by a scalar mask. -/
  | vsel (e : BargeIx) (t : VType) (vd va vb : Fin 16) (r : Fin 32)
  /-- VMUL_H8 (R209): Instruction vmul.h8: low 16 bits of each lane product. -/
  | vmulH8 (e : BargeIx) (vd va vb : Fin 16)
  /-- VMULH_H8 (R209): Instruction vmulh.h8: Q15 lane product. -/
  | vmulhH8 (e : BargeIx) (vd va vb : Fin 16)
  /-- VMAC_H8 (R211): Instruction vmac.h8: lane multiply-accumulate into a vector pair. -/
  | vmacH8 (e : BargeIx) (vd va vb : Fin 16)
  /-- VMACS_H8 (R211): Instruction vmacs.h8: lane multiply by a scalar and accumulate into a pair. -/
  | vmacsH8 (e : BargeIx) (vd va : Fin 16) (r : Fin 32)
  /-- VMUL_W4 (R209): Instruction vmul.w4: low 32 bits of each 32 x 32 lane product. -/
  | vmulW4 (e : BargeIx) (vd va vb : Fin 16)
  /-- VPACK_H8 (R209): Instruction vpack.h8: round, shift and saturate a pair into 16-bit lanes. -/
  | vpackH8 (e : BargeIx) (vd va n : Fin 16)
  /-- VWIDEN_H8 (R209): Instruction vwiden.h8: sign-extend lanes into a pair. -/
  | vwidenH8 (e : BargeIx) (vd va : Fin 16)
  /-- VEXT_H (R209): Instruction vext.h: extract a 16-bit lane to a scalar. -/
  | vextH (e : BargeIx) (r : Fin 32) (va lane : Fin 16)
  /-- VEXT_W (R209): Instruction vext.w: extract a 32-bit lane to a scalar. -/
  | vextW (e : BargeIx) (r : Fin 32) (va lane : Fin 16)
  /-- VINS_H (R209): Instruction vins.h: insert a scalar into a 16-bit lane. -/
  | vinsH (e : BargeIx) (vd lane : Fin 16) (r : Fin 32)
  /-- VINS_W (R209): Instruction vins.w: insert a scalar into a 32-bit lane. -/
  | vinsW (e : BargeIx) (vd lane : Fin 16) (r : Fin 32)
  /-- VBCAST_H (R209): Instruction vbcast.h: broadcast a scalar to the 16-bit lanes. -/
  | vbcastH (e : BargeIx) (vd : Fin 16) (r : Fin 32)
  /-- VBCAST_W (R209): Instruction vbcast.w: broadcast a scalar to the 32-bit lanes. -/
  | vbcastW (e : BargeIx) (vd : Fin 16) (r : Fin 32)
  /-- VREDADD_H8 (R209): Instruction vredadd.h8: sum of the eight lanes into a scalar. -/
  | vredaddH8 (e : BargeIx) (r : Fin 32) (va : Fin 16)
  /-- INTERRUPT_ENTRY (R225): A source becomes eligible; the entry flushes, commits at cycle 8 and issues the handler at cycle 12. -/
  | interruptEntry (e : BargeIx) (vecEcc : Bool)
  /-- TIMER_COMPARE (R231): BG_CYCLE reaches BG_TMR_CMP[n] and sets the timer source pending once. -/
  | timerCompare (e : BargeIx) (n : Fin 2)
  /-- IRQ_SET (R224): A write of BG_IRQ_SET sets the named sources pending. -/
  | irqSet (e : BargeIx) (v : DWord)
  /-- IRQ_CLR (R224): A write of BG_IRQ_CLR clears the named pending sources. -/
  | irqClr (e : BargeIx) (v : DWord)
  /-- BG_LOW_WORD_READ (R231): A 32-bit read of the low word of a 64-bit barge-private register latches its high word. -/
  | bgLowWordRead (e : BargeIx) (off : BitVec 16)
  /-- TQ_PUSH (R238): A store of the high half of BG_TQ_PUSH pushes a token to the target queue, or discards it when the queue is full. -/
  | tqPush (e : BargeIx) (n : Fin 8) (hi : DWord)
  /-- POKE (R240): A store to BG_TQ_POKE sets POKE sources pending on the named barges. -/
  | poke (e : BargeIx) (m : Byte)
  /-- DISPATCH (R241): In an idle cycle with no eligible source, the barge takes its own head token or steals one that fits the horizon. -/
  | dispatch (e : BargeIx)
  /-- LOOSE_OVERRUN (R245): A loose task reaches WCET_CYC: source 21, OVR_LOOSE and TASK_OVERRUN. -/
  | looseOverrun (e : BargeIx)
  /-- MOORED_OVERRUN (R246): A moored handler reaches its WCET_CYC: source 22, OVR_MOORED and TASK_OVERRUN. -/
  | mooredOverrun (e : BargeIx)
  /-- DOORBELL (R257): A doorbell write to BAR2 is checked and stored, or discarded; moderation is re-armed and waiting reservations retry. -/
  | doorbell (ring : RingIx) (v : Word) (word : Bool)
  /-- CONTEXT_FETCH (R252): A ring context missing from the cache is read in and displaces an unpinned context, writing it back if changed. -/
  | contextFetch (ring : RingIx) (valid : Bool)
  /-- CTX_FLUSH (R252): A write of HP_CTRL.CTX_FLUSH writes back every changed context. -/
  | ctxFlush
  /-- HP_ENABLE (R254): HP_CTRL.EN changes from 0 to 1 and rings 0 and 1 are built afresh. -/
  | hpEnable
  /-- DESCRIPTOR_FETCH (R258): A command or lock entry covered by an accepted doorbell is read from host memory. -/
  | descriptorFetch (opcode : BitVec 16) (d : Desc)
  /-- HOST_READ_ERROR (R249): A device read completes with an error or has no completion within 50 ms: EV_RING_ERROR, or ST_FETCH_ERROR for a descriptor. -/
  | hostReadError (ring : RingIx) (k : ReadKind)
  /-- COMMAND_ADMIT (R260): A command is admitted when a credit is free, copied into a slot and pushed as a token to its barge. -/
  | commandAdmit (ring : RingIx)
  /-- BACKPRESSURE_WITHDRAW (R264): A token not taken within 150 us of admission is withdrawn, and its command completes with ST_BACKPRESSURE. -/
  | backpressureWithdraw (ring : RingIx) (cmdId : Word)
  /-- COMPLETION_WRITE (R260): A completion is written to its ring once an entry is free, followed by the writeback. -/
  | completionWrite (ring : RingIx)
  /-- EVENT_WRITE (R267): An event reaches the host port and is routed to its ring, dropped or counted as unrouted. -/
  | eventWrite
  /-- TELEMETRY_WRITE (R263): A telemetry record reaches the host port and is written as two units, or dropped whole. -/
  | telemetryWrite
  /-- MODERATION_CHECK (R270): Each microsecond, and after each entry, an armed ring with pending entries sends its MSI-X message when the count or time is reached. -/
  | moderationCheck (ring : RingIx) (us : BitVec 17)
  /-- MSIX_UNMASK (R269): A masked MSI-X vector is unmasked and its pending message is sent. -/
  | msixUnmask (v : Option (BitVec 11))
  /-- HEARTBEAT_KICK (R271): A write of HP_HB_KICK restarts the heartbeat watchdog and, after a loss, raises EV_HOST_RETURN. -/
  | heartbeatKick
  /-- HOST_LOSS (R271): No kick for TIMEOUT_MS: host loss is declared, HOST_NOTICE is raised and the policy is sent to the regions. -/
  | hostLoss
  /-- LINK_DOWN (R271): The PCI Express link goes down, which declares host loss when LINK_LOSS = 1. -/
  | linkDown
  /-- FUNCTION_LEVEL_RESET (R273): A Function Level Reset resets the host port, deactivates the rings, discards admitted commands and cancels operations. -/
  | functionLevelReset
  /-- PERST_N (R418): The host asserts PERST_N and resets the link, the configuration space and the host port. -/
  | perstN
  /-- RING_CREATE (R251): Command RING_CREATE checks a context and activates the ring. -/
  | ringCreate (d : Desc) (ctx : Option CtxImage)
  /-- RING_MODIFY (R473): Command RING_MODIFY changes the selected class L fields of an active ring. -/
  | ringModify (d : Desc)
  /-- RING_DESTROY (R253): Command RING_DESTROY deactivates a ring and writes its context back. -/
  | ringDestroy (d : Desc)
  /-- RING_QUERY (R473): Command RING_QUERY returns a ring context and its indices. -/
  | ringQuery (d : Desc) (bufOk : Bool)
  /-- DEV_INFO (R283): Command DEV_INFO returns the runtime version, region masks and free handles. -/
  | devInfo (d : Desc)
  /-- CH_ENABLE (R67): Command CH_ENABLE moves DISABLED cells to OFF. -/
  | chEnable (d : Desc)
  /-- CH_DISABLE (R67): Command CH_DISABLE moves cells to DISABLED through the controlled pull-down. -/
  | chDisable (d : Desc)
  /-- CH_ON (R67): Command CH_ON moves OFF or PROBE cells to PRECHECK, or TRIPPED cells to COOLDOWN. -/
  | chOn (d : Desc)
  /-- CH_OFF (R67): Command CH_OFF moves cells to OFF and sets HOLD_OFF. -/
  | chOff (d : Desc)
  /-- CH_RESET (R67): Command CH_RESET moves cells to OFF and clears retry and classification counts. -/
  | chReset (d : Desc)
  /-- CH_STATUS (R280): Command CH_STATUS writes the cell status buffer. -/
  | chStatus (d : Desc) (bufOk : Bool)
  /-- PROFILE_WRITE (R281): Command PROFILE_WRITE writes masked profile words after a whole-candidate check. -/
  | profileWrite (d : Desc) (image : Option (List Word))
  /-- PROFILE_PATCH (R281): Command PROFILE_PATCH writes masked bits of up to four profile words. -/
  | profilePatch (d : Desc)
  /-- PROFILE_READ (R282): Command PROFILE_READ returns the profile in effect and the pending profile. -/
  | profileRead (d : Desc) (bufOk : Bool)
  /-- TREND_READ (R283): Command TREND_READ writes a cell's trend log. -/
  | trendRead (d : Desc) (bufOk : Bool)
  /-- BANK_SEQUENCE (R294): Command BANK_SEQUENCE starts a long operation that switches on a list of cells. -/
  | bankSequence (d : Desc) (list : Option (List Word))
  /-- SURVEY (R167): Command SURVEY starts a long on-path resistance fit for a region. -/
  | survey (d : Desc)
  /-- CAL_RUN (R175): Command CAL_RUN starts a calibration run in mode EXT_ZERO, EXT_SPAN or INT_ZERO. -/
  | calRun (d : Desc)
  /-- CAL_STORE (R176): Command CAL_STORE writes the region's calibration to the other slot. -/
  | calStore (d : Desc)
  /-- LOCK_CANCEL (R204): Command LOCK_CANCEL removes every copy with a LOCK_TAG from reachable tables and deferred lists. -/
  | lockCancel (d : Desc)
  /-- TASK_INSTALL (R284): Command TASK_INSTALL installs a customer moored task and allocates its registers. -/
  | taskInstall (d : Desc)
  /-- TASK_REMOVE (R284): Command TASK_REMOVE disables a customer slot and frees its registers. -/
  | taskRemove (d : Desc)
  /-- FLASH_UPDATE (R297): Command FLASH_UPDATE writes and verifies a new image in the inactive slot. -/
  | flashUpdate (d : Desc)
  /-- OP_SUSPEND (R287): Command OP_SUSPEND sets a suspend request on an operation. -/
  | opSuspend (d : Desc)
  /-- OP_RESUME (R288): Command OP_RESUME resumes a suspended operation, or clears a suspend request. -/
  | opResume (d : Desc)
  /-- OP_CANCEL (R289): Command OP_CANCEL moves an operation to CANCELLING, with optional rollback. -/
  | opCancel (d : Desc)
  /-- OP_QUERY (R290): Command OP_QUERY returns an operation's state and steps done. -/
  | opQuery (d : Desc)
  /-- OP_STEP (R286): A long operation reaches a step boundary and runs its next step, suspends, enters SUSPENDED_BP, rolls back or finishes. -/
  | opStep (n : BitVec 6) (x : StepIn)
  /-- BASIN_ENABLE (R301): BZ_CTRL.EN changes 0 to 1: the segment table is read, W is reset and recording starts. -/
  | basinEnable
  /-- SEG_TABLE_LOAD (R301): The segment table read completes, or fails and sets SEG_ERR. -/
  | segTableLoad (table : Option (List DWord))
  /-- BASIN_DISABLE (R301): BZ_CTRL.EN changes to 0: staged entries and the writeback are written, and the basin stops. -/
  | basinDisable
  /-- BASIN_FRAME (R302): A frame reaches the basin engine and is recorded, decimated out or dropped; a trip frame may trigger a freeze. -/
  | basinFrame
  /-- BASIN_ENTRY_WRITE (R300): A staged entry is written to its segment in host memory. -/
  | basinEntryWrite
  /-- GAP_RECORD (R307): A drop episode closes when 64 KiB are free; a gap record is written and EV_BASIN_DROP is raised. -/
  | gapRecord
  /-- BASIN_WRITEBACK (R303): Every 100 us while W changes, the basin writeback is written. -/
  | basinWriteback
  /-- BASIN_FROZEN (R308): The post-trigger count is reached: recording stops, FROZEN is set and EV_BASIN_FROZEN is raised. -/
  | basinFrozen
  /-- BASIN_FREEZE (R308): Command BASIN_FREEZE triggers a freeze with a post count. -/
  | basinFreeze (d : Desc)
  /-- BASIN_RELEASE (R309): Command BASIN_RELEASE clears FROZEN or abandons a pending freeze and resumes recording. -/
  | basinRelease (d : Desc)
  /-- BASIN_MARK (R305): Command BASIN_MARK records a mark record. -/
  | basinMark (d : Desc)
  /-- CAPTURE_EXPORT (R310): Command CAPTURE_EXPORT starts a chunked export of a frozen range. -/
  | captureExport (d : Desc)
  /-- PERIOD_EDGE (R322): A slice period edge: LS falls, shadows latch, and soft-start, cut and skip decisions are made. -/
  | periodEdge (k : SliceIx) (us : Word)
  /-- HS_RISE (R315): DT_LH after the edge, HS rises unless the pulse is skipped or cut. -/
  | hsRise (k : SliceIx)
  /-- ON_INTERVAL_END (R315): The on interval ends at T_ON, TON_MAX or the soft-start limit; HS falls. -/
  | onIntervalEnd (k : SliceIx)
  /-- LS_RISE (R320): DT_HL after HS falls, LS rises unless the low-side pulse is omitted. -/
  | lsRise (k : SliceIx)
  /-- PEAK_CROSSING (R316): CS crosses the PEAK threshold after blanking and ends the on interval. -/
  | peakCrossing (k : SliceIx) (early : Bool)
  /-- VALLEY_CROSSING (R316): CS crosses the VALLEY threshold after blanking, making the period edge or ending the LS pulse. -/
  | valleyCrossing (k : SliceIx) (us : Word) (early : Bool)
  /-- PER_MAX_EDGE (R317): No edge by PER_MAX: an edge is forced and PER_FORCED_SEEN is set. -/
  | perMaxEdge (k : SliceIx) (us : Word)
  /-- SLICE_FAULT_INPUT (R324): The slice fault input is asserted or released, cutting or uncutting the outputs. -/
  | sliceFaultInput (k : SliceIx)
  /-- FB_SAMPLE (R328): A feedback decimation sample is formed, FB_OV is evaluated and the sample is sent to the central end. -/
  | fbSample (k : SliceIx) (v : BitVec 16)
  /-- SLICE_SAMPLE_RELEASE (R329): The central end releases a slice sample record to region RAM and sets SLICE_SAMPLE pending. -/
  | sliceSampleRelease (k : SliceIx) (late : Bool)
  /-- CONTROL_WORD (R322): A control word reaches CS_SHD and restarts the slice watchdog. -/
  | controlWord (k : SliceIx) (v : Word)
  /-- SOFT_START (R326): CS_CTRL.EN changes 0 to 1 and the slice enters SOFT_START. -/
  | softStart (k : SliceIx)
  /-- SOFT_STOP (R327): CS_CTRL.EN changes 1 to 0 and the slice enters SOFT_STOP. -/
  | softStop (k : SliceIx)
  /-- KILL (R327): A write of CS_CTRL.KILL = 1 drives both outputs low, sets OFF and clears EN. -/
  | kill (k : SliceIx)
  /-- CONTROL_WORD_WATCHDOG (R332): No control word within WD_US: LOSS_ACTION is applied and WD_FIRED is set. -/
  | controlWordWatchdog (k : SliceIx)
  /-- SLICE_LOOP_SET (R329): Command SLICE_LOOP_SET installs the runtime voltage loop for a slice. -/
  | sliceLoopSet (d : Desc)
  /-- SLICE_START (R326): Command SLICE_START sets EN := 1 on an OFF slice. -/
  | sliceStart (d : Desc)
  /-- SLICE_STOP (R327): Command SLICE_STOP soft-stops or kills a slice. -/
  | sliceStop (d : Desc)
  /-- SLICE_STATUS (R334): Command SLICE_STATUS returns CS_STAT and CS_CNT without clearing. -/
  | sliceStatus (d : Desc)
  /-- CHARGE_ENABLE (R339): A write of CHG_EN = 1 is checked and leaves DISABLED for WAIT, or is ignored. -/
  | chargeEnable
  /-- CHARGER_PHASE_CHANGE (R340): Run conditions or pack voltage thresholds change and the charger moves between WAIT, PRECHARGE, CC and CV. -/
  | chargerPhaseChange (x : RvMeas)
  /-- CHARGE_TERMINATION (R340): The current stays below I_TERM_MA for 1 s in CV and the charger goes to TOPOFF or DONE. -/
  | chargeTermination
  /-- TOPOFF_END (R340): TOPOFF_MIN elapses and the charger goes to DONE. -/
  | topoffEnd
  /-- RECHARGE_START (R340): In DONE the pack stays below the recharge level for 1 s and a new cycle begins. -/
  | rechargeStart (x : RvMeas)
  /-- SAFETY_TIMER_STEP (R345): A 100 ms safety timer step counts; reaching the limit latches CHG_TIMEOUT and disables the charger. -/
  | safetyTimerStep (inReg thReg below : Bool)
  /-- OPERATING_POINT_PAUSE (R342): An operating-point pause starts at phase entry or every TRACK_S and turns the charger output off. -/
  | operatingPointPause
  /-- PAUSE_END (R342): After 20 ms V_OC and V_REG are set and charging resumes. -/
  | pauseEnd (voc : BitVec 16)
  /-- SURPLUS_START (R343): BUS_SNS exceeds V_SURPLUS_MV for 100 us and surplus absorption starts. -/
  | surplusStart
  /-- SURPLUS_END (R343): BUS_SNS falls 500 mV below V_SURPLUS_MV and surplus absorption ends. -/
  | surplusEnd
  /-- NTC_ZONE_CHANGE (R346): The pack temperature crosses a zone boundary, or the ratio leaves the table and latches NTC_FAULT. -/
  | ntcZoneChange (ratio : BitVec 16)
  /-- PACK_OV (R357): Pack above 1.02 x CELLS x V_CV for 10 ms latches PACK_OV. -/
  | packOv (live : Bool)
  /-- CHG_OC (R357): Pack overcurrent for 1 ms, or 64 peak-limited cycles, latches CHG_OC. -/
  | chgOc (live : Bool)
  /-- HANDOVER (R348): Source loss, reverse voltage or rail below pack starts hand-over: the input path turns off and the ideal diode is armed. -/
  | handover (trig : HandTrigger) (busMv : BitVec 16)
  /-- HANDOVER_COMPLETE (R349): The input path is off and the ideal diode enhanced; the path goes to RESERVE or QUALIFY. -/
  | handoverComplete
  /-- IN_PATH_FAIL (R349): The input path is not off 20 us after the trigger and IN_PATH_FAIL is latched. -/
  | inPathFail (live : Bool)
  /-- DIO_FAIL (R349): The ideal-diode gate is not enhanced 10 us after conduction and DIO_FAIL is latched. -/
  | dioFail (live : Bool)
  /-- SOURCE_PRESENT (R350): The source becomes present after hand-over completion and qualification starts. -/
  | sourcePresent
  /-- BOUNCE (R350): The source is lost between hand-over start and hand-back: BOUNCE_COUNT and EV_HANDOVER_BOUNCE. -/
  | bounce
  /-- HANDBACK (R351): T_QUAL_MS of steady presence ends qualification and hand-back starts. -/
  | handback
  /-- IDEAL_DIODE_OFF (R351): The rail passes PACK + 10 mV during hand-back and the ideal-diode switch turns off. -/
  | idealDiodeOff
  /-- HANDBACK_COMPLETE (R351): IN_GATE - IN_SRC reaches 9 V; the path becomes SOURCE and EV_HANDBACK is raised. -/
  | handbackComplete
  /-- STOP_SEQUENCE (R352): RIDE_MS after hand-over the stop table is handed to the lock unit. -/
  | stopSequence
  /-- PACK_CUTOFF (R353): The pack is below cutoff for 10 ms on reserve and the depleted latch is set. -/
  | packCutoff
  /-- DEPLETED_DISCONNECT (R353): 10 ms after PACK_CUTOFF, DIO_GATE and SHIP_GATE turn off. -/
  | depletedDisconnect
  /-- SHIP_ENTRY (R354): The ship delay ends and the device enters ship mode, or aborts with EV_SHIP. -/
  | shipEntry
  /-- SHIP_WAKE (R355): SHIP_WAKE_N held low for about 2 s clears the ship latch and starts the device. -/
  | shipWake
  /-- SOURCE_WAKE (R355): BUS_SNS above 8 V for 32 ms clears the ship or depleted latch and cold-starts the device. -/
  | sourceWake
  /-- RV_WD_KICK (R356): A write of RV_WD_KICK restarts the reserve watchdog and clears SAFE_VALUES. -/
  | rvWdKick
  /-- RESERVE_WD_EXPIRY (R356): No kick within WD_S: WD_EXPIRED is latched and safe charging values apply. -/
  | reserveWdExpiry
  /-- RV_SAFE_WRITE (R356): The first write of RV_SAFE after chip reset is taken; later writes are ignored. -/
  | rvSafeWrite (v : Word)
  /-- RV_FAULT_READ (R357): A read of RV_FAULT returns the latched bits and clears those whose condition has ended. -/
  | rvFaultRead
  /-- RSV_STATUS (R357): Command RSV_STATUS writes the reserve status buffer and clears RV_FAULT and RV_HO. -/
  | rsvStatus (d : Desc) (bufOk : Bool)
  /-- RSV_CHARGE (R339): Command RSV_CHARGE sets CHG_EN. -/
  | rsvCharge (d : Desc)
  /-- RSV_KICK (R356): Command RSV_KICK kicks the reserve watchdog. -/
  | rsvKick (d : Desc)
  /-- RSV_SHIP (R354): Command RSV_SHIP arms or disarms ship mode. -/
  | rsvShip (d : Desc)
  /-- RSV_STOP_LOAD (R352): Command RSV_STOP_LOAD loads the stop table. -/
  | rsvStopLoad (d : Desc) (table : Option (List LockEntry))
  /-- TOWPATH_ENABLE (R366): TW_CFG.EN changes to 1 and the towpath samples SDA, running recovery if SDA is low. -/
  | towpathEnable (t : TowIx) (sda : Bool)
  /-- RECOVERY_END (R366): Bus recovery ends with STOP and RECOVERED, or with SDA_STUCK and OUT_OF_SERVICE. -/
  | recoveryEnd (t : TowIx) (ok : Bool)
  /-- SLOT_START (R368): A TW_CTRL.START bit queues a slot, or merges with it. -/
  | slotStart (t : TowIx) (mask : Byte)
  /-- TOWPATH_ABORT (R368): TW_CTRL.ABORT ends the running slot at the next byte boundary and clears queued slots. -/
  | towpathAbort (t : TowIx)
  /-- CLR_STUCK (R366): TW_CTRL.CLR_STUCK clears OUT_OF_SERVICE and reruns recovery. -/
  | clrStuck (t : TowIx) (sda : Bool)
  /-- TGT_POP (R374): TW_CTRL.TGT_POP removes the oldest target record. -/
  | tgtPop (t : TowIx)
  /-- TRANSACTION_START (R368): The bus is idle for t_BUF and the queue head starts on the bus. -/
  | transactionStart (t : TowIx)
  /-- TRANSACTION_END (R370): A controller transaction ends with its result, raising EV_TOWPATH_DONE if enabled. -/
  | transactionEnd (t : TowIx) (x : TowEnd)
  /-- ARB_LOST (R371): The towpath loses arbitration: it releases SDA, records the loss and retries later. -/
  | arbLost (t : TowIx) (byte : Byte) (bit : Fin 8)
  /-- SCL_LOW_TIMEOUT (R365): SCL is held low for 25 + SCL_TO ms and the transaction is abandoned. -/
  | sclLowTimeout (t : TowIx) (rx : List Byte) (sda : Bool)
  /-- SDA_LOW_TIMEOUT (R365): SDA is held low for 25 + SDA_TO ms: SDA_LOW_TO and EV_TOWPATH_BUS. -/
  | sdaLowTimeout (t : TowIx)
  /-- HOST_NOTIFY (R373): A Host Notify to address 0x08 ends with STOP and is stored, or is NACKed when the queue is full. -/
  | hostNotify (t : TowIx) (addr lo hi : Byte)
  /-- TARGET_WRITE (R374): A Block Write to TADDR ends with STOP and is stored as a target record. -/
  | targetWrite (t : TowIx) (cmd : Byte) (data : List Byte) (pec : Option Byte)
  /-- NOTIFY_READ (R373): A 128-bit load of TW_NOTIFY returns and removes the oldest notify record. -/
  | notifyRead (t : TowIx)
  /-- TOWPATH_WAKE (R375): An address match with the island asleep is ACKed, SCL is stretched and a wake is requested. -/
  | towpathWake (p : WakePort)
  /-- WAKE_FAIL (R375): The island clock is not running 20 ms after the match; SCL is released and WAKE_FAIL is set. -/
  | wakeFail (p : WakePort)
  /-- TOWPATH_PREPARE (R379): Command TOWPATH_PREPARE loads a slot and its write data. -/
  | towpathPrepare (d : Desc) (data : Option (List Byte))
  /-- TOWPATH_XFER (R379): Command TOWPATH_XFER loads and starts slot 6. -/
  | towpathXfer (d : Desc) (data : Option (List Byte))
  /-- TOWPATH_SLOT_READ (R379): Command TOWPATH_SLOT_READ returns a slot's buffer and status. -/
  | towpathSlotRead (d : Desc) (bufOk : Bool)
  /-- TOWPATH_NOTIFY_READ (R379): Command TOWPATH_NOTIFY_READ drains the notify queue. -/
  | towpathNotifyRead (d : Desc) (bufOk : Bool)
  /-- TOWPATH_TARGET_READ (R379): Command TOWPATH_TARGET_READ drains the target queue. -/
  | towpathTargetRead (d : Desc) (bufOk : Bool)
  /-- TOWPATH_RECOVER (R366): Command TOWPATH_RECOVER clears OUT_OF_SERVICE and reruns recovery. -/
  | towpathRecover (d : Desc) (r : Recovery)
  /-- TOWPATH_SCAN (R380): Command TOWPATH_SCAN starts a long address scan through slot 7. -/
  | towpathScan (d : Desc)
  /-- MGMT_REPLY (R379): Command MGMT_REPLY sets the management mailbox reply. -/
  | mgmtReply (d : Desc) (data : Option (List Byte))
  /-- MGMT_MBOX_READ (R379): Command MGMT_MBOX_READ returns and frees the management mailbox. -/
  | mgmtMboxRead (d : Desc) (bufOk : Bool)
  /-- STATUS_IMAGE_REFRESH (R381): Every 1 ms the chip refreshes the management status image. -/
  | statusImageRefresh
  /-- MG_ID (R382): Management command MG_ID returns identification. -/
  | mgId
  /-- MG_SUMMARY (R382): Management command MG_SUMMARY returns the summary. -/
  | mgSummary
  /-- MG_TEMP (R382): Management command MG_TEMP returns region temperatures. -/
  | mgTemp
  /-- MG_RESERVE (R382): Management command MG_RESERVE returns reserve status. -/
  | mgReserve
  /-- MG_CELL_SEL (R382): Management command MG_CELL_SEL selects the cell for MG_CELL. -/
  | mgCellSel (v : BitVec 16) (pec : Option Byte)
  /-- MG_CELL (R382): Management command MG_CELL fetches a cell's status from its island. -/
  | mgCell
  /-- MG_MBOX_WRITE (R382): Management command MG_MBOX_WRITE stores a mailbox message and raises EV_MGMT_MAILBOX. -/
  | mgMboxWrite (data : List Byte) (pec : Option Byte)
  /-- MG_MBOX_READ (R382): Management command MG_MBOX_READ returns the last reply. -/
  | mgMboxRead
  /-- SUPERVISOR_READ (R383): Supervisor frame command READ exchanges the status image and kicks the watchdog. -/
  | supervisorRead (seq : Byte) (stale : Bool)
  /-- REGION_SAFE (R384): Supervisor frame command REGION_SAFE raises SUPERVISOR_SAFE for the named regions. -/
  | regionSafe (seq mask : Byte) (stale : Bool)
  /-- CHIP_SAFE (R384): Supervisor frame command CHIP_SAFE raises SUPERVISOR_SAFE with the chip safe reaction. -/
  | chipSafe (seq : Byte) (stale : Bool)
  /-- SUPERVISOR_CLEAR (R384): Supervisor frame command CLEAR clears the sticky bits and counters of SV_STAT. -/
  | supervisorClear (seq : Byte) (stale : Bool)
  /-- SUPERVISOR_LOSS (R385): No executed frame for WD_MS: WD_EXPIRED and SUPERVISOR_LOSS. -/
  | supervisorLoss
  /-- FAULT_EVENT (R390): A collector source becomes active and is latched, counted, classified, reacted to and logged. -/
  | faultEvent (k : CollIx) (src : BitVec 7) (info : Word) (inj : Bool)
  /-- FAULT_CLEAR (R398): A level source becomes inactive; its entry is closed or a clear record appended. -/
  | faultClear (k : CollIx) (src : BitVec 7)
  /-- RULE_WINDOW_EXPIRY (R390): A rule slot window end passes and its counter returns to 0. -/
  | ruleWindowExpiry (k : CollIx) (n : Byte)
  /-- REGION_REPORT (R389): A forwarded region report reaches the chip collector and sets REGION_FAULT or REGION_FATAL. -/
  | regionReport
  /-- CHIP_SAFE_REQUEST (R394): A chip safe request reaches a region over the strait and the region takes REGION_SAFE. -/
  | chipSafeRequest (g : RegionIx)
  /-- FAULT_INJECT (R400): A write of FC_RINJ or FC_CINJ with GO produces an injected event. -/
  | faultInject (k : CollIx) (v : Word)
  /-- LATCHED_CLEAR (R395): A W1C write of FC_RSTAT or FC_CSTAT clears latched bits whose source is not live and not FATAL. -/
  | latchedClear (k : CollIx) (mask : Quad)
  /-- HISTORY_READ (R397): A 128-bit load of FC_RHIST or FC_CHIST removes and returns the oldest entry. -/
  | historyRead (k : CollIx)
  /-- FIRST_ERROR_CLEAR (R399): A write of FC_RFE_CLR or FC_CFE_CLR clears the first-error record. -/
  | firstErrorClear (k : CollIx)
  /-- ERR_CLR (R402): A write of FC_ERR.ERR_CLR releases ERR_N, waits for PULSE_MS or is ignored under FATAL_HOLD. -/
  | errClr
  /-- ERR_N_PULSE_END (R402): PULSE_MS elapses after ERR_N assertion and a waiting clear takes effect. -/
  | errNPulseEnd
  /-- ERR_N_TOGGLE (R403): In ALIVE mode ERR_N toggles every 500 us while not asserted. -/
  | errNToggle
  /-- ALIVE_MONITOR (R403): The always-on monitor sees no toggle for 2 ms and pulls ERR_N low. -/
  | aliveMonitor
  /-- FC_STATUS (R407): Command FC_STATUS writes collector status. -/
  | fcStatus (d : Desc) (bufOk : Bool)
  /-- FC_HISTORY_READ (R397): Command FC_HISTORY_READ drains the history queue. -/
  | fcHistoryRead (d : Desc) (bufOk : Bool)
  /-- FC_CLEAR (R395): Command FC_CLEAR clears masked latched bits, the first-error record and HISTORY_LOST. -/
  | fcClear (d : Desc)
  /-- FC_INJECT (R400): Command FC_INJECT injects an event on a source. -/
  | fcInject (d : Desc)
  /-- FC_COUNT_READ (R396): Command FC_COUNT_READ returns and clears the source counts. -/
  | fcCountRead (d : Desc) (bufOk : Bool)
  /-- FC_ERR_CLEAR (R402): Command FC_ERR_CLEAR clears ERR_N as ERR_CLR does. -/
  | fcErrClear (d : Desc)
  /-- SUPPLY_GOOD (R408): A supply rises above its rising threshold. -/
  | supplyGood (x : Supply)
  /-- SUPPLY_LOSS (R408): A supply stays below its falling threshold for 2 us and its domains enter reset. -/
  | supplyLoss (x : Supply)
  /-- POWER_ON_RESET_RELEASE (R410): 1 ms after a domain's last supply is good its power-on reset is released. -/
  | powerOnResetRelease (x : PorDomain)
  /-- RST_N (R411): RST_N held low externally for 1 us causes a chip reset, released 10 us after it rises. -/
  | rstN
  /-- CHIP_RST_CTRL (R418): A write of CHIP_RST_CTRL with the key causes a chip reset. -/
  | chipRstCtrl (v : Word)
  /-- ISLAND_BRINGUP (R413): At island reset release the oscillator, collector, trim, self-test and scans are brought up and ISLAND_UP is set. -/
  | islandBringup (g : RegionIx) (x : BringUp)
  /-- STRAIT_TRAINING (R414): Strait training completes, D_g is measured, LINK_UP is set and the first rejoin follows. -/
  | straitTraining (g : RegionIx)
  /-- STRAIT_TRAINING_TIMEOUT (R414): Training has not completed after 10 ms and STRAIT_LOSS[g] is raised. -/
  | straitTrainingTimeout (g : RegionIx)
  /-- BOOT (R416): The boot engine verifies the image slots and starts the runtime and customer images, or sets RT_FAIL or CUST_FAIL. -/
  | boot (trim : Bool)
  /-- CHIP_BARGE_RST (R420): A write of CHIP_BARGE_RST resets the named barges. -/
  | chipBargeRst (mask : DWord)
  /-- REGION_EN_WRITE (R421): A write of RGN_CTRL.EN takes the region in or out of service, or is ignored. -/
  | regionEnWrite (g : RegionIx) (en : Bool)
  /-- ISLAND_RESET (R421): A write of RGN_CTRL.RESET = 1 with EN = 0 resets the island. -/
  | islandReset (g : RegionIx)
  /-- POWER_MODE_WRITE (R424): A write of PWR_CTRL.MODE changes the power mode, or refuses STANDBY with a reason. -/
  | powerModeWrite (mode : BitVec 2)
  /-- REGION_SLEEP (R422): The sleep conditions hold for 10 ms in IDLE and the region stops its clock and parks its strait. -/
  | regionSleep (g : RegionIx)
  /-- WAKE (R425): A wake source ends STANDBY or wakes a sleeping region and sets PWR_WAKE_CAUSE. -/
  | wake (x : WakeSource)
  /-- TBCLK_LOSS (R466): TBCLK_IN is lost for over 2 us: the timebase PLL unlocks and TB_PLL_UNLOCK is raised. -/
  | tbclkLoss
  /-- ID_READ (R430): Debug operation ID_READ returns CHIP_ID and status. -/
  | idRead
  /-- STATUS (R430): Debug operation STATUS returns DBG_STAT. -/
  | dbgStatus
  /-- CHAL_READ (R429): Debug operation CHAL_READ returns a fresh challenge. -/
  | chalRead
  /-- AUTH (R429): Debug operation AUTH opens the port on a correct HMAC, or counts a failure. -/
  | dbgAuth (v : Quad)
  /-- MEM_READ (R431): Debug operation MEM_READ reads words in a space. -/
  | memRead (space : Byte) (addr : Word) (count : Byte)
  /-- MEM_WRITE (R431): Debug operation MEM_WRITE writes words in a space. -/
  | memWrite (space : Byte) (addr : Word) (words : List Word)
  /-- MEM_PEEK (R431): Debug operation MEM_PEEK reads without side effects. -/
  | memPeek (space : Byte) (addr : Word) (count : Byte)
  /-- HALT (R434): Debug operation HALT requests a halt of the named barges. -/
  | dbgHalt (mask : DWord)
  /-- RESUME (R436): Debug operation RESUME releases the named barges together. -/
  | dbgResume (mask : DWord)
  /-- STEP (R436): Debug operation STEP executes one instruction on each named barge. -/
  | dbgStep (mask : DWord)
  /-- BARGE_RESET (R420): Debug operation BARGE_RESET resets the named barges. -/
  | bargeReset (mask : DWord)
  /-- CHIP_RESET (R418): Debug operation CHIP_RESET causes a chip reset with LAST_RESET = 3. -/
  | chipReset (key : Word)
  /-- FLASH_ERASE (R432): Debug operation FLASH_ERASE erases a 4 KiB sector of the code areas. -/
  | flashErase (space : Byte) (addr : Word)
  /-- FLASH_PROG (R432): Debug operation FLASH_PROG programs erased flash. -/
  | flashProg (space : Byte) (addr : Word) (words : List Word)
  /-- NDL_LINK_RESET (R430): The probe drives NDIO high for 64 cycles and resets the link to idle. -/
  | ndlLinkReset
  /-- BARGE_HALTED (R434): A halt request completes at an instruction boundary and the barge is HALTED. -/
  | bargeHalted (e : BargeIx)
  /-- BREAKPOINT (R437): An instruction breakpoint matches and the barge halts before issue. -/
  | breakpoint (e : BargeIx)
  /-- XTRIG_HALT (R438): 2 cycles after a barge halts, the barges in its XTRIG_OUT mask receive halt requests. -/
  | xtrigHalt (e : BargeIx)
  /-- DBG_HALT_REQ (R438): A write of DBG_HALT_REQ halts the masked barges while the port is OPEN. -/
  | dbgHaltReq (mask : DWord)
  /-- DBG_RESUME_REQ (R438): A write of DBG_RESUME_REQ resumes the masked barges while the port is OPEN. -/
  | dbgResumeReq (mask : DWord)
  /-- HOST_GRANT (R428): A write of DBG_CTRL.HOST_GRANT opens or closes the debug port. -/
  | hostGrant (on : Bool)
  /-- DENY (R428): A write of DBG_CTRL.DENY = 1 forces LOCKED until chip reset. -/
  | dbgDeny
  /-- DBG_KEY (R429): The write-once DBG_KEY is set when its fourth word is written. -/
  | dbgKey (k0 k1 k2 k3 : DWord)
  /-- BYPASS (R440): TAP instruction BYPASS. -/
  | bypass
  /-- IDCODE (R440): TAP instruction IDCODE returns 0x1951_264B. -/
  | idcode
  /-- SAMPLE_PRELOAD (R440): TAP instruction SAMPLE/PRELOAD. -/
  | samplePreload (v : Quad)
  /-- EXTEST (R441): TAP instruction EXTEST drives the controllable balls only. -/
  | extest (v : Quad)
  /-- CLAMP (R441): TAP instruction CLAMP. -/
  | clamp
  /-- HIGHZ (R441): TAP instruction HIGHZ. -/
  | highz
  /-- TRST_N (R440): TRST_N resets the TAP. -/
  | trstN
  /-- ON (R445): Legacy mailbox ON applies CH_ON to a channel or all channels. -/
  | lvOn (n : BlockIx)
  /-- OFF (R445): Legacy mailbox OFF applies CH_OFF. -/
  | lvOff (n : BlockIx)
  /-- RESET (R445): Legacy mailbox RESET applies CH_RESET. -/
  | lvReset (n : BlockIx)
  /-- ENABLE (R445): Legacy mailbox ENABLE applies CH_ENABLE. -/
  | lvEnable (n : BlockIx)
  /-- DISABLE (R445): Legacy mailbox DISABLE applies CH_DISABLE. -/
  | lvDisable (n : BlockIx)
  /-- SET_ILIM (R445): Legacy mailbox SET_ILIM patches p_ilim_on_ma. -/
  | setIlim (n : BlockIx)
  /-- SET_FAULT_TIME (R445): Legacy mailbox SET_FAULT_TIME patches p_fault_time_us. -/
  | setFaultTime (n : BlockIx)
  /-- READ_ENERGY (R445): Legacy mailbox READ_ENERGY returns forward energy in mJ. -/
  | readEnergy (n : BlockIx)
  /-- CLEAR_FLAGS (R445): Legacy mailbox CLEAR_FLAGS clears TRIPPED_SEEN in the node image. -/
  | clearFlags (n : BlockIx)
  /-- MAILBOX_COMPLETION (R446): The host port writes the mailbox result, sets DONE or ERROR, sets HP_LV_DONE and sends the MSI-X. -/
  | mailboxCompletion (n : BlockIx)
  /-- NODE_IMAGE_REFRESH (R443): Every 1 ms the home barge refreshes node image n. -/
  | nodeImageRefresh (n : BlockIx)
  /-- NODE_IMAGE_STALE (R444): No refresh for 5 ms sets STALE. -/
  | nodeImageStale (n : BlockIx)
  /-- REGION_WINDOW_WRITE_APPLY (R456): A BAR0 region-window write crosses the strait and takes effect in the island, or fails and sets RGN_FAIL. -/
  | regionWindowWriteApply (off : BitVec 24) (bytes : Byte) (v : DWord)
  /-- REGISTER_WRITE (R453): A write to a setup or barge register without its own row is applied under its commit class and R7, or ignored and counted. -/
  | registerWrite (x : RegTarget) (bytes : Byte) (v : DWord)
  /-- PUMP_RESERVOIR_READY (R49): The cell's pump reservoir reaches 10 V above OUT after pump start, and the first source current of INRUSH may flow. -/
  | pumpReservoirReady (c : CellIx)
  /-- TBCLK_IN_RETURN (R466): A valid TBCLK_IN reference arrives or returns, so the timebase PLL locks again, TB_PLL_UNLOCK ends and the central die can leave reset. -/
  | tbclkInReturn
  /-- LINK_TRAINING_END (R190): A cabinet link completes training and moves from TRAINING to UP. -/
  | linkTrainingEnd (link : Link)
  /-- CABINET_LINK_LOSS (R190): A cabinet link loses its partner or its received stream and leaves UP for DOWN. -/
  | cabinetLinkLoss (link : Link)
  /-- PERST_N_RELEASE (R427): The host releases PERST_N; the link trains and the endpoint begins answering configuration requests within 20 ms. -/
  | perstNRelease
  /-- BUS_MASTER_ENABLE (R249): Host software sets or clears Bus Master Enable in configuration space, which stops or resumes every device access to host memory. -/
  | busMasterEnable (en : Bool)
  /-- RST_N_RELEASE (R411): An externally held RST_N rises, and the chip reset is released 10 us later. -/
  | rstNRelease
  /-- PACK_HOT (R346): While the path is RESERVE, the pack temperature rises above T_DIS_HOT, and PACK_HOT is latched and EV_RESERVE_FAULT is raised. -/
  | packHot (live : Bool)
  /-- BATT_REMOVAL (R355): The cell stack is removed from BATT, which clears the wake circuit's hold flag and its latches. -/
  | battRemoval
  /-- EV_HANDOVER_BOUNCE_HOLDOFF_EXPIRY (R350): The 1 ms bounce event interval ends, and one EV_HANDOVER_BOUNCE carries the bounces counted since the previous event. -/
  | evHandoverBounceHoldoffExpiry
  /-- SUPERVISOR_FRAME_DISCARD (R383): A supervisor frame with a bad CRC, a wrong length, nonzero reserved bytes or an unknown command is discarded, and RESULT and CRC_ERRORS or LEN_ERRORS are updated. -/
  | supervisorFrameDiscard (e : FrameError)
  /-- MGMT_COMMAND_NACK (R382): A management port transaction with an unknown command code, a wrong protocol or a bad PEC is NACKed or discarded, and NACK_COUNT or PEC_ERR_SEEN is updated. -/
  | mgmtCommandNack (pec : Bool)
  deriving DecidableEq, Repr

end Sys2Proof
end

