-- ==== Sys2Proof/Decode.lean ====
section
/-! DEFINITION. The commands that a word of spec/opcode_table.json spells. The table gives no row any bits: the rows are
events and commands told by their name and operands, so no word spells one (log 3). Instruction words of the barges, which
the debug STEP decodes (R436), are decoded in Machine/BargeDecode.lean. -/

namespace Sys2Proof

/-- The command whose bits are `w`, of `nbits` bits: none, since no row of the table has bits. Log 3 (DESIGN CHOICE, safe). -/
def decodeTableWord (_nbits _w : Nat) : Option Instr := none

end Sys2Proof
end

