-- ==== Sys2Proof/Machine/Bits.lean ====
section
/-! DEFINITION. Bit fields of registers, records and descriptors: [hi:lo] as the spec writes them, bit 0 least significant. -/

namespace Sys2Proof.Machine

/-- The field of `len` bits at bit `lo`, as a number. -/
def Bits.fld {n : Nat} (w : BitVec n) (lo len : Nat) : Nat := (w.toNat >>> lo) % 2 ^ len

/-- Bit `i` of a number. -/
def Bits.nbit (w i : Nat) : Bool := (w >>> i) % 2 == 1

/-- Bit `i` of a word. -/
def Bits.bit {n : Nat} (w : BitVec n) (i : Nat) : Bool := w.getLsbD i

/-- `w` with the field of `len` bits at bit `lo` replaced by `v` (reduced to `len` bits). -/
def Bits.put {n : Nat} (w : BitVec n) (lo len v : Nat) : BitVec n :=
  let m := BitVec.ofNat n ((2 ^ len - 1) <<< lo)
  (w &&& ~~~ m) ||| BitVec.ofNat n ((v % 2 ^ len) <<< lo)

/-- 1 for true, 0 for false. -/
def Bits.b2n (b : Bool) : Nat := if b then 1 else 0

/-- A mask of `len` ones at bit `lo`, in 32 bits. -/
def Bits.mask (lo len : Nat) : Word := BitVec.ofNat 32 ((2 ^ len - 1) <<< lo)

/-- `new` where the mask has ones, `old` elsewhere. -/
def Bits.merge {n : Nat} (old new mask : BitVec n) : BitVec n := (old &&& ~~~ mask) ||| (new &&& mask)

/-- The signed value of the low `len` bits of a number (two's complement). -/
def Bits.sext (len v : Nat) : Int :=
  let u := v % 2 ^ len
  if u < 2 ^ (len - 1) then (u : Int) else (u : Int) - (2 ^ len : Nat)

/-- A signed value as `len` bits (two's complement). -/
def Bits.ofInt (len : Nat) (v : Int) : Nat := (v % (2 ^ len : Nat)).toNat

/-- A signed value limited to `len` bits. -/
def Bits.sat (len : Nat) (v : Int) : Int := max (-(2 ^ (len - 1) : Nat)) (min ((2 ^ (len - 1) : Nat) - 1) v)

/-- A count limited at `m`: counters that saturate. -/
def Bits.satAdd (m v d : Nat) : Nat := min m (v + d)

/-- The low and high words of a 64-bit number. -/
def Bits.words2 (v : Nat) : List Word := [BitVec.ofNat 32 v, BitVec.ofNat 32 (v >>> 32)]

/-- Four little-endian words of a 128-bit number. -/
def Bits.words4 (v : Nat) : List Word := Bits.words2 v ++ Bits.words2 (v >>> 64)

/-- The number of ones in the low `len` bits. -/
def Bits.popcount : Nat → Nat → Nat
  | 0, _ => 0
  | k + 1, v => v % 2 + Bits.popcount k (v / 2)

/-- The indices below `n` whose bit is set in `v`, in ascending order. -/
def Bits.ones (n v : Nat) : List Nat := (List.range n).filter (Bits.nbit v)

end Sys2Proof.Machine
end

