-- ==== Sys2Proof/Machine/RegMap.lean ====
section
/-! DEFINITION. Where each setup register lies (spec/21, R451, Tables 21-1 to 21-6), the reset word it reads, and which of its
bits software writes under which commit class (R2 to R4). Offsets are BAR0 byte offsets of 32-bit words. -/

namespace Sys2Proof.Machine

/-- One 32-bit register word: reset value and the RW bits of class L, S and H. Bits of other types (RO, WO, W1C, RC) have no
bit here: what they do is in the unit that owns them. -/
structure RegInfo where
  reset : Word := 0
  l : Word := 0
  s : Word := 0
  h : Word := 0
  /-- The offset is listed in Tables 21-2 to 21-7. -/
  listed : Bool := true

/-- Offset of the window of region `g`. -/
def RegMap.window (g : Nat) : Nat := 0x00400000 + 0x00100000 * g
/-- Offset of a register of the block page of block `b` (Table 21-5). -/
def RegMap.block (b off : Nat) : Nat := RegMap.window (b / 8) + 0x10000 * (b % 8) + off
/-- Offset of a lane register of cell `c` (Table 21-5). -/
def RegMap.cell (c off : Nat) : Nat := RegMap.block (c / 8) (0x100 * (c % 8) + off)
/-- Offset of a region unit register (Table 21-6). -/
def RegMap.unit (g off : Nat) : Nat := RegMap.window g + 0x80000 + off
/-- Offset of a central-side region register (Table 21-4). -/
def RegMap.central (g off : Nat) : Nat := 0x000B0000 + 0x100 * g + off

def RegMap.rgnCtrl (g : Nat) : Nat := RegMap.central g 0x00
def RegMap.rgnAutonomy (g : Nat) : Nat := RegMap.central g 0x04
def RegMap.rgnStraitStat (g : Nat) : Nat := RegMap.central g 0x08
def RegMap.vinCmp (b : Nat) : Nat := RegMap.block b 0x0000
def RegMap.vinFilt (b : Nat) : Nat := RegMap.block b 0x0004
def RegMap.cmpEdge (b : Nat) : Nat := RegMap.block b 0x0008
def RegMap.cmpIrq (b : Nat) : Nat := RegMap.block b 0x000C
def RegMap.cmpWake (b : Nat) : Nat := RegMap.block b 0x0010
def RegMap.cmpEvt (b : Nat) : Nat := RegMap.block b 0x0014
def RegMap.convCfg (b : Nat) : Nat := RegMap.block b 0x001C
def RegMap.mtrCfg (b : Nat) : Nat := RegMap.block b 0x0020
def RegMap.calVin (b : Nat) : Nat := RegMap.block b 0x0050
def RegMap.calCell (c : Nat) : Nat := RegMap.cell c 0x1080
def RegMap.tripForce (g : Nat) : Nat := RegMap.unit g 0x1004
def RegMap.linkTrip (g : Nat) : Nat := RegMap.unit g 0x1008
def RegMap.ruleA (g s : Nat) : Nat := RegMap.unit g (0x1040 + 16 * s)
def RegMap.ruleB (g s : Nat) : Nat := RegMap.unit g (0x1044 + 16 * s)
def RegMap.ruleC (g s : Nat) : Nat := RegMap.unit g (0x1048 + 16 * s)
def RegMap.auxCfg (g : Nat) : Nat := RegMap.unit g 0x2000
def RegMap.auxMask (g : Nat) : Nat := RegMap.unit g 0x2004
def RegMap.auxNtc (g m : Nat) : Nat := RegMap.unit g (0x2040 + 4 * m)
def RegMap.calAux (g i : Nat) : Nat := RegMap.unit g (0x2100 + 8 * i)
def RegMap.plausCfg (g : Nat) : Nat := RegMap.unit g 0x3000
def RegMap.fcRSrc (g s : Nat) : Nat := RegMap.unit g (0x0400 + 4 * s)
def RegMap.fcRRule (g n : Nat) : Nat := RegMap.unit g (0x0800 + 4 * n)
def RegMap.cs (k off : Nat) : Nat := RegMap.unit (k / 4) (0x4000 + 0x100 * (k % 4) + off)
def RegMap.tw (t off : Nat) : Nat := RegMap.unit (t / 2) (0x5000 + 0x1000 * (t % 2) + off)
def RegMap.pwrCtrl : Nat := 0x00010000
def RegMap.pwrWakeEn : Nat := 0x00010008
def RegMap.hpCtrl : Nat := 0x00020000
def RegMap.hpCtxBase : Nat := 0x00020008
def RegMap.hpCtxCfg : Nat := 0x00020010
def RegMap.hpAdminSq : Nat := 0x00020018
def RegMap.hpAdminCq : Nat := 0x00020020
def RegMap.hpAdminCfg : Nat := 0x00020028
def RegMap.hpHbCfg : Nat := 0x00020030
def RegMap.hpLvCfg : Nat := 0x00020040
def RegMap.hpRoute (s : Nat) : Nat := 0x00021000 + 4 * s
def RegMap.tbRate : Nat := 0x00030008
def RegMap.tbDiscCfg : Nat := 0x00030010
def RegMap.tbSrcCfg : Nat := 0x00030014
def RegMap.tbSyncFreq : Nat := 0x00030018
def RegMap.tbLinkCfg : Nat := 0x00030020
def RegMap.lkCfg : Nat := 0x00040000
def RegMap.lkRingId (n : Nat) : Nat := 0x00040040 + 4 * n
def RegMap.slBudget (n : Nat) : Nat := 0x00050000 + 4 * n
def RegMap.slCfg (n : Nat) : Nat := 0x00050040 + 4 * n
def RegMap.bzCtrl : Nat := 0x00060000
def RegMap.bzSegBase : Nat := 0x00060008
def RegMap.bzSegCfg : Nat := 0x00060010
def RegMap.bzWbAddr : Nat := 0x00060018
def RegMap.bzTrigBlocks : Nat := 0x00060020
def RegMap.bzTrigPost : Nat := 0x00060028
def RegMap.bzBlockCfg (b : Nat) : Nat := 0x00060100 + 4 * b
def RegMap.rv (off : Nat) : Nat := 0x00070000 + off
def RegMap.mgCfg : Nat := 0x00080000
def RegMap.svCfg : Nat := 0x00080100
def RegMap.fcErr : Nat := 0x0009002C
def RegMap.fcCSrc (s : Nat) : Nat := 0x00090400 + 4 * s
def RegMap.fcCRule (n : Nat) : Nat := 0x00090600 + 4 * n
def RegMap.dbgCtrl : Nat := 0x000A0000
def RegMap.dbgKey : Nat := 0x000A0020
def RegMap.chipId : Nat := 0

/-! ### Fault source tables (Tables 17-2 and 17-3): class, REACT_LO, REACT_HI, rule slot -/

/-- A source word from class, masks and an optional rule slot (Table 17-7, FC_RSRC). -/
def RegMap.srcWord (cls lo hi : Nat) (rule : Option Nat) : Word :=
  BitVec.ofNat 32 (cls + lo * 4 + hi * 512 + (match rule with | none => 0 | some r => 65536 + r * 131072))

/-- Reset word of FC_RSRC[g][s] (Table 17-2). Letters L E C B R X N are bits 0 to 6. -/
def RegMap.regionSrc (s : Nat) : Word :=
  let w := RegMap.srcWord
  if s < 64 then
    match s % 8 with
    | 0 => w 2 0x03 0x4B none
    | 1 => w 2 0x03 0x4B none
    | 2 => w 2 0x03 0x4B none
    | 3 => w 1 0x03 0x43 none
    | 4 => w 1 0x03 0x43 none
    | 5 => w 0 0x01 0x43 (some 0)
    | 6 => w 1 0x47 0x47 none
    | _ => 0
  else
    match s with
    | 64 => w 1 0x01 0x43 (some 1)
    | 65 => w 1 0x01 0x01 none
    | 66 => w 1 0x03 0x43 none
    | 67 => w 1 0x03 0x43 none
    | 68 => w 1 0x53 0x53 none
    | 69 => w 2 0x03 0x53 none
    | 70 => w 1 0x03 0x03 none
    | 71 => w 0 0x01 0x43 (some 0)
    | 72 => w 1 0x03 0x43 none
    | 73 => w 1 0x43 0x43 none
    | 74 => w 1 0x03 0x43 none
    | 75 => w 0 0x01 0x03 none
    | 76 => w 0 0x01 0x43 (some 0)
    | 77 => w 1 0x03 0x43 none
    | 78 => w 1 0x03 0x43 none
    | 79 => w 1 0x03 0x03 none
    | 80 => w 1 0x03 0x43 none
    | 81 => w 1 0x43 0x43 none
    | _ => 0

/-- Reset word of FC_CSRC[s] (Table 17-3). -/
def RegMap.chipSrc (s : Nat) : Word :=
  let w := RegMap.srcWord
  if s < 8 then w 1 0x43 0x43 none
  else if s < 16 then w 2 0x03 0x43 none
  else if s < 24 then w 1 0x01 0x43 none
  else if s < 32 then w 2 0x03 0x43 none
  else match s with
    | 32 => w 0 0x01 0x43 (some 0)
    | 33 => w 1 0x03 0x43 none
    | 34 => w 0 0x01 0x43 (some 0)
    | 35 => w 1 0x03 0x43 none
    | 36 => w 1 0x01 0x43 (some 1)
    | 37 => w 0 0x01 0x03 none
    | 38 => w 1 0x43 0x43 none
    | 39 => w 1 0x03 0x03 none
    | 40 => w 1 0x03 0x43 none
    | 41 => w 1 0x03 0x43 none
    | 42 => w 1 0x03 0x43 none
    | 43 => w 1 0x43 0x43 none
    | 44 => w 1 0x03 0x43 none
    | 45 => w 1 0x03 0x43 none
    | 46 => w 1 0x03 0x43 none
    | 47 => w 1 0x43 0x43 none
    | 48 => w 1 0x43 0x43 none
    | 49 => w 1 0x43 0x43 none
    | 50 => w 1 0x03 0x43 none
    | 51 => w 1 0x43 0x43 none
    | 52 => w 1 0x43 0x43 none
    | 53 => w 1 0x03 0x43 none
    | 54 => w 1 0x43 0x43 none
    | 55 => w 1 0x43 0x43 none
    | 56 => w 2 0x03 0x63 none
    | _ => 0

/-- Reset word of a rule slot (Table 17-7): N = 16, WIN 1000 for slot 0; N = 4, WIN 60 000 for slot 1; N = 0, WIN 1000. -/
def RegMap.ruleSlot (n : Nat) : Word := if n = 0 then 0x0003E810 else if n = 1 then 0x00EA6004 else 0x0003E800

/-- Reset word of an NTC table entry m (Tables 6-9 and 15-9): RATIO 65535 - 4096 m, TEMP -2560 + 640 m. -/
def RegMap.ntcEntry (m : Nat) : Word := BitVec.ofInt 32 ((65535 - 4096 * m : Int) + ((-2560 + 640 * m : Int) % 65536) * 65536)

/-! ### Register words -/

/-- Nothing is listed at the offset (R455). -/
def RegMap.unlisted : RegInfo := { listed := false }

/-- A source word: a FATAL source reads class 2 and ignores writes of its class and rule fields (Table 17-7). -/
def RegMap.srcInfo (w : Word) : RegInfo :=
  { reset := w, l := if Bits.fld w 0 2 = 2 then 0x01FFFFFC else 0x01FFFFFF }

/-- Chip unit pages from BZ_ on (Table 21-3). -/
def RegMap.chipInfo2 (off : Nat) : RegInfo :=
  if off < 0x70000 then
    match off with
    | 0x60000 => { l := 1, h := 2 }
    | 0x60008 => { h := 0xFFFFFFF8 } | 0x6000C => { h := 0xFFFFFFFF } | 0x60010 => { reset := 1, h := 0x1FFF }
    | 0x60018 => { h := 0xFFFFFFE0 } | 0x6001C => { h := 0xFFFFFFFF }
    | 0x60020 => { l := 0xFFFFFFFF } | 0x60024 => { l := 0xFFFFFFFF } | 0x60028 => { l := 0xFFFFFFFF }
    | _ =>
      if 0x60030 ≤ off ∧ off < 0x60054 then {}
      else if 0x60100 ≤ off ∧ off < 0x60200 then { l := 0x7F } else RegMap.unlisted
  else if off < 0x80000 then
    match off with
    | 0x70000 => { reset := 4, l := 7 } | 0x70004 => { reset := 0x4E23FF40, h := 0xFFFFFFFF }
    | 0x70008 => { s := 0xFFFFFFFF } | 0x7000C => { s := 0xFFFFFFFF } | 0x70010 => { s := 0xFFFFFFFF }
    | 0x70014 => { s := 0x007FFFFF } | 0x70018 => { reset := 0x0002583C, s := 0x000FFFFF }
    | 0x7001C => { reset := 0x33E81068, l := 0xFFFFFFFF } | 0x70020 => { reset := 0x02D03C20, l := 0x03FFFFFF }
    | 0x70024 => { reset := 0xFFFF, l := 0xFFFF } | 0x70028 => { reset := 0x372D0A00, s := 0xFFFFFFFF }
    | 0x7002C => { reset := 0x3C2D, s := 0xFF, l := 0xFF00 } | 0x70030 => { reset := 0x14, l := 0x003F3FFF }
    | 0x70034 => { reset := 0x03CA01F4, l := 0x03FFFFFF } | 0x70038 => { reset := 0xA0, l := 0xFF }
    | _ =>
      if (0x7003C ≤ off ∧ off < 0x70058) ∨ (0x70060 ≤ off ∧ off < 0x70074) then {}
      else if 0x70080 ≤ off ∧ off < 0x700C0 then { reset := RegMap.ntcEntry ((off - 0x70080) / 4), l := 0xFFFFFFFF }
      else RegMap.unlisted
  else if off < 0x90000 then
    match off with
    | 0x80000 => { reset := 1, l := 7 } | 0x80004 => {} | 0x80100 => { l := 0xFF0F } | 0x80104 => {}
    | _ => RegMap.unlisted
  else if off < 0xA0000 then
    match off with
    | 0x90020 => {} | 0x90024 => {} | 0x90028 => {} | 0x9002C => { reset := 0x14, l := 0xFF }
    | _ =>
      if off < 0x90020 ∨ (0x90040 ≤ off ∧ off < 0x90080) then {}
      else if 0x90400 ≤ off ∧ off < 0x90600 then RegMap.srcInfo (RegMap.chipSrc ((off - 0x90400) / 4))
      else if 0x90600 ≤ off ∧ off < 0x90800 then { reset := RegMap.ruleSlot ((off - 0x90600) / 4), l := 0x3FFFFFFF }
      else if 0x90800 ≤ off ∧ off < 0x90A00 then {} else RegMap.unlisted
  else if off < 0xA0040 then (if off = 0xA0000 then { l := 0xC } else {})
  else RegMap.unlisted

/-- Chip unit pages up to SL_ (Table 21-3). -/
def RegMap.chipInfo (off : Nat) : RegInfo :=
  if off < 0x20000 then
    match off with
    | 0x0000 => { reset := 0x00B09512 }
    | 0x0004 => {} | 0x0008 => {} | 0x0010 => {} | 0x0014 => {} | 0x0018 => {}
    | 0x10000 => { l := 3 } | 0x10004 => {} | 0x10008 => { l := 0xC } | 0x1000C => {}
    | _ => RegMap.unlisted
  else if off < 0x30000 then
    match off with
    | 0x20000 => { l := 1 } | 0x20004 => {}
    | 0x20008 => { h := 0xFFFFF000 } | 0x2000C => { h := 0xFFFFFFFF }
    | 0x20010 => { reset := 4, h := 0x1F }
    | 0x20018 => { h := 0xFFFFF000 } | 0x2001C => { h := 0xFFFFFFFF }
    | 0x20020 => { h := 0xFFFFF000 } | 0x20024 => { h := 0xFFFFFFFF }
    | 0x20028 => { reset := 0x002000E6, h := 0x003FFFFF }
    | 0x20030 => { l := 0x3FFF } | 0x20034 => {} | 0x20038 => {}
    | 0x20040 => { reset := 0x1000, l := 0xFFC00007, h := 0x003F7F00 } | 0x20048 => {} | 0x2004C => {}
    | _ => if 0x21000 ≤ off ∧ off < 0x21400 then { l := 0x001FFFFF } else RegMap.unlisted
  else if off < 0x40000 then
    match off with
    | 0x30000 => {} | 0x30004 => {} | 0x30008 => {} | 0x3000C => {}
    | 0x30010 => { reset := 0x06440A00, l := 0xFFFFFF7F } | 0x30014 => { reset := 0x0000000A, l := 0xFFFF03FF }
    | 0x30018 => { reset := 0x00989680, l := 0x00FFFFFF } | 0x3001C => {} | 0x30020 => { l := 7 } | 0x30024 => {}
    | _ => if 0x30040 ≤ off ∧ off < 0x30080 then {} else RegMap.unlisted
  else if off < 0x50000 then
    match off with
    | 0x40000 => { reset := 0x000A0000, l := 0x3FFF0001 } | 0x40004 => {}
    | _ => if 0x40040 ≤ off ∧ off < 0x40080 then { h := 0x800FFFFF }
           else if 0x40080 ≤ off ∧ off < 0x400A4 then {} else RegMap.unlisted
  else if off < 0x60000 then
    if off < 0x50040 then { reset := 0x00FFFFFF, l := 0x00FFFFFF }
    else if off < 0x50080 then { reset := 0x00000800, l := 0x03FFFF01 }
    else if off < 0x50100 then {} else RegMap.unlisted
  else RegMap.chipInfo2 off

/-- A calibration coefficient word: offset words reset to 0, gain words to 2^30 (Table 7-6). -/
def RegMap.calWord (gain : Bool) : RegInfo := { reset := if gain then 0x40000000 else 0, s := 0xFFFFFFFF }

/-- Block page of a region window (Table 21-5), by offset in the page. -/
def RegMap.blockInfo (o : Nat) : RegInfo :=
  if o < 0x1000 then
    match o with
    | 0x00 => { reset := 0x052FFC00, l := 0x0FFFFFFF, s := 0 }
    | 0x04 => { reset := 0x11, l := 0xFFFF }
    | 0x08 => { l := 0x1FFFFFFF } | 0x0C => { l := 0x1FFFFFFF } | 0x10 => { l := 0x1FFFFFFF } | 0x14 => { l := 0x1FFFFFFF }
    | 0x18 => {}
    | 0x1C => { reset := 0x00440051, l := 0xC, s := 0x00FFFFF3 }
    | 0x20 => { reset := 0x3C6, l := 0xFFF7 }
    | 0x24 => {}
    | 0x50 => RegMap.calWord false | 0x54 => RegMap.calWord true
    | _ => if (0x30 ≤ o ∧ o < 0x50) ∨ (0x60 ≤ o ∧ o < 0x80) then {} else RegMap.unlisted
  else if o < 0x1800 then
    let r := o % 0x100
    if r = 0 ∨ (0x20 ≤ r ∧ r < 0x50) then {}
    else if 0x80 ≤ r ∧ r < 0xA0 then RegMap.calWord (r % 8 == 4)
    else if r = 0xA0 then { s := 0xFFFFFFFF } else if r = 0xA4 then { s := 1 }
    else if 0xA8 ≤ r ∧ r < 0xB0 then {} else RegMap.unlisted
  else RegMap.unlisted

/-- Region unit pages (Table 21-6), by offset from window offset 0x0008_0000. -/
def RegMap.unitInfo (o : Nat) : RegInfo :=
  if o < 0x1000 then
    if o = 0x20 ∨ o = 0x24 ∨ o = 0x28 ∨ o < 0x20 ∨ (0x40 ≤ o ∧ o < 0x80) then {}
    else if 0x400 ≤ o ∧ o < 0x600 then RegMap.srcInfo (RegMap.regionSrc ((o - 0x400) / 4))
    else if 0x800 ≤ o ∧ o < 0xC00 then { reset := RegMap.ruleSlot ((o - 0x800) / 4), l := 0x3FFFFFFF }
    else if 0xC00 ≤ o ∧ o < 0xE00 then {} else RegMap.unlisted
  else if o < 0x2000 then
    match o with
    | 0x1000 => {} | 0x1004 => { l := 0xFFF } | 0x1008 => { l := 0x00FFFFFF }
    | _ =>
      if 0x1040 ≤ o ∧ o < 0x10C0 then
        match o % 16 with
        | 0 => { reset := 0x003E8000, l := 0xFFFFF3FF }
        | 4 => { reset := 0x000927C0, l := 0xFFFFFFFF }
        | 8 => { reset := 0x0003E800, l := 0x3FFFFFFF }
        | _ => RegMap.unlisted
      else RegMap.unlisted
  else if o < 0x3000 then
    match o with
    | 0x2000 => { reset := 5, l := 0xFF07 } | 0x2004 => { reset := 0x00FF00FF, l := 0x00FFFFFF }
    | 0x2008 => {} | 0x200C => {}
    | _ =>
      if 0x2040 ≤ o ∧ o < 0x2080 then { reset := RegMap.ntcEntry ((o - 0x2040) / 4), l := 0xFFFFFFFF }
      else if 0x2080 ≤ o ∧ o < 0x20E0 then {}
      else if 0x2100 ≤ o ∧ o < 0x2140 then RegMap.calWord (o % 8 == 4) else RegMap.unlisted
  else if o < 0x4000 then
    match o with
    | 0x3000 => { reset := 0xC815, l := 0x03FFFFFF } | 0x3004 => {}
    | _ => RegMap.unlisted
  else if o < 0x4400 then
    match o % 0x100 with
    | 0x00 => { l := 1 }
    | 0x04 => { reset := 0x14100108, l := 0xFFFF0300, h := 0x1CFF }
    | 0x08 => { reset := 0x04020080, s := 0x0FFFFFFF }
    | 0x0C => { reset := 0x04000100, s := 0xFFFFFFFF }
    | 0x10 => { reset := 0x00000900, s := 0xFFFF }
    | 0x14 => { reset := 0x32000500, s := 0xFFFFFFFF }
    | 0x18 => { reset := 0x000003FF, s := 0xFFFFF }
    | 0x1C => { s := 0xFFFFFF }
    | 0x20 => { reset := 0x3E8, l := 0xFFFF }
    | 0x24 => { reset := 0x07D0FFFF, l := 0xFFFFFFFF }
    | 0x28 => { s := 0xFFFF } | 0x2C => { s := 0xFFFF }
    | 0x30 => { l := 0x1FFFF1 }
    | 0x34 => {} | 0x38 => {}
    | _ => RegMap.unlisted
  else if 0x5000 ≤ o ∧ o < 0x7000 then
    let r := o % 0x1000
    if r = 0 then { reset := 0x00025540, l := 1, h := 0x07FFFFFE }
    else if r < 0x0C ∨ (0x10 ≤ r ∧ r < 0x50) ∨ (0xC0 ≤ r ∧ r < 0xE0) ∨ 0x800 ≤ r then {}
    else if 0x80 ≤ r ∧ r < 0xC0 then (if r % 8 = 0 then { reset := 0xC000, h := 0xFF03FF7F } else { h := 0xFFFF })
    else RegMap.unlisted
  else RegMap.unlisted

/-- Central-side region registers (Table 21-4). -/
def RegMap.centralInfo (o : Nat) : RegInfo :=
  match o with
  | 0 => { reset := 1, l := 5 } | 4 => { reset := 0x000603E8, l := 0x000FFFFF } | 8 => {}
  | _ => RegMap.unlisted

/-- The word registered at an offset (R451). Offsets are of whole words. -/
def RegMap.info (off : Nat) : RegInfo :=
  if off < 0x000B0000 then RegMap.chipInfo off
  else if off < 0x000B0800 then RegMap.centralInfo ((off - 0x000B0000) % 0x100)
  else if 0x00400000 ≤ off ∧ off < 0x00C00000 then
    let w := (off - 0x00400000) % 0x00100000
    if w < 0x80000 then RegMap.blockInfo (w % 0x10000) else RegMap.unitInfo (w - 0x80000)
  else RegMap.unlisted

/-- What an unwritten register word reads: its reset value. -/
def RegMap.reset (off : Nat) : Word := (RegMap.info off).reset

/-- Reset words of the channel profile (Table 3-9), by word index 0 to 63. -/
def RegMap.profReset (w : Nat) : Word :=
  match w with
  | 0 => 0x01000314
  | 1 => 10000
  | 2 => 1000
  | 3 => 0x00FFFFFF
  | 4 => 0x00FFFFFF
  | 5 => 0x00640064
  | 6 => 10000
  | 7 => 0x03E801F4
  | 8 => 0x0000FFFF
  | 9 => 0x0064000A
  | 10 => 0xEA601194
  | 11 => 0x006403E8
  | 12 => 1000
  | 13 => 10000
  | 15 => 10000
  | 16 => 0x00320064
  | 17 => 0x03E80000
  | 18 => 1000
  | 19 => 0x3FFFFC00
  | 20 => 0x00110085
  | 21 => 0x00640000
  | 23 => 0x3E
  | 24 => 0x29402580
  | 25 => 0x0C801680
  | 26 => 0x0100001F
  | w => if 35 ≤ w ∧ w < 43 then 0xFFFFFFFF else 0

end Sys2Proof.Machine
end

