-- ==== Sys2Proof/Config.lean ====
section
/-! DEFINITION. What an implementation fixes and the free values: constants without a body, so that nothing in Lean can
evaluate them (assumption log 2). A statement about one of them holds for every value it could have. -/

namespace Sys2Proof

/-- The value the spec leaves open, at the `n`-th draw of a run (`State.freeCount`). Log 2 (DESIGN CHOICE, safe). -/
opaque Config.freeNat : Nat → Nat
/-- The open 32-bit value at the `n`-th draw of a run. -/
opaque Config.freeWord : Nat → Word
/-- The trimmed internal divider R_OUT of a cell in milliohms, held in the factory calibration area (02, R61). -/
opaque Config.rOutMohm : Nat → Nat
/-- Factory trim (R173), in the units of R161: the offset of quantity 0 to 2 (current of cell `ix` in range 0 to 2),
3 (OUT of cell `ix`) or 4 (VIN of block `ix`). Log 63 (DESIGN CHOICE, safe). -/
opaque Config.trimOfs : (quantity ix : Nat) → Int
/-- Factory trim (R173): the gain of the same quantities, 2^30 for 1.0. -/
opaque Config.trimGain : (quantity ix : Nat) → Nat
/-- Minor version and build number of the runtime firmware (R283): bits [23:0] of RESULT0 of DEV_INFO. -/
opaque Config.fwMinorBuild : BitVec 24
/-- The level of the address straps ADDR_2 to ADDR_0 (16, R381). -/
opaque Config.mgStrap : BitVec 3

end Sys2Proof
end

