-- ==== Sys2Proof/Machine/Sparse.lean ====
section
/-! DEFINITION. Sparse maps in one canonical form: keys strictly rising, no entry equal to what an unlisted key reads as.
Every indexed object of the machine (cells, blocks, barges, registers, memories) is held in one, so that the state is
plain data and equal contents are equal data. What an unlisted key reads as is the function `d` given to each operation. -/

namespace Sys2Proof.Machine

/-- A sparse map: (key, value) pairs. -/
abbrev Sparse (α : Type) := List (Nat × α)

/-- The value at a key; an unlisted key reads as `d key`. -/
def Sparse.get {α : Type} (d : Nat → α) : Sparse α → Nat → α
  | [], k => d k
  | (j, v) :: m, k => if j = k then v else Sparse.get d m k

/-- Remove a key. -/
def Sparse.erase {α : Type} : Sparse α → Nat → Sparse α
  | [], _ => []
  | (j, v) :: m, k => if j = k then Sparse.erase m k else (j, v) :: Sparse.erase m k

/-- Insert a key before the first greater one. -/
def Sparse.insert {α : Type} : Sparse α → Nat → α → Sparse α
  | [], k, v => [(k, v)]
  | (j, w) :: m, k, v => if k < j then (k, v) :: (j, w) :: m else (j, w) :: Sparse.insert m k v

/-- Write a key. A value equal to what the unlisted key reads as removes the entry. -/
def Sparse.set {α : Type} [DecidableEq α] (d : Nat → α) (m : Sparse α) (k : Nat) (v : α) : Sparse α :=
  if v = d k then Sparse.erase m k else Sparse.insert (Sparse.erase m k) k v

/-- Change the value at a key by a function. -/
def Sparse.modify {α : Type} [DecidableEq α] (d : Nat → α) (m : Sparse α) (k : Nat) (f : α → α) : Sparse α :=
  Sparse.set d m k (f (Sparse.get d m k))

/-- Change every listed value by a function; a value that becomes what the unlisted key reads as leaves no entry. -/
def Sparse.mapv {α : Type} [DecidableEq α] (d : Nat → α) (f : Nat → α → α) : Sparse α → Sparse α
  | [] => []
  | (k, v) :: m => if f k v = d k then Sparse.erase (Sparse.mapv d f m) k else (k, f k v) :: Sparse.mapv d f m

/-- The canonical form: keys strictly rising and no entry equal to its default. -/
def Sparse.wf {α : Type} [DecidableEq α] (d : Nat → α) : Sparse α → Bool
  | [] => true
  | [(k, v)] => decide (v ≠ d k)
  | (k, v) :: (j, w) :: m => decide (v ≠ d k) && decide (k < j) && Sparse.wf d ((j, w) :: m)

end Sys2Proof.Machine
end

