-- ==== Sys2Proof/Machine/State.lean ====
section
/-! DEFINITION. The state of the SN9512 as plain data: everything the spec gives the device, the queue of waiting commands,
and what has left the device. Each record's docstring names the chapter of spec/ that gives it. -/

namespace Sys2Proof.Machine

/-- The reasons a step may stop with a fault. The spec gives every row of the table an effect, and a row whose conditions do
not hold leaves the state as it is (assumption log 1), so no meaning raises one; the constructor is kept so that the
interface has a fault type. Safe. Log 9 (DEDUCED, safe). -/
inductive Fault where
  /-- Raised by no meaning. Safe: a step that stopped here would only make claims unprovable. -/
  | none
  deriving DecidableEq, Repr

/-- The reasons a step may be refused. -/
inductive Refusal where
  /-- A command without a meaning in this model, by its mnemonic: raised by Dispatch only. Safe. -/
  | notModelled (mnemonic : String)
  deriving DecidableEq, Repr

/-! ## Cells (02 to 05) -/

/-- Channel states, Table 3-1. -/
inductive CellState where
  | disabled | off | probe | precheck | waitGrant | inrush | on | limit | tripped | cooldown | latched | safe
  deriving DecidableEq, Repr

/-- HOLDER of the cell status word, Table 3-4. -/
inductive Holder where
  | commandedOff | commandedOn | dvdt | currentLimit | powerLimit | soa | trip | safeOrSupply
  deriving DecidableEq, Repr

/-- What drives GATE (02, Tables 2-2 and 2-3). -/
inductive GateDrive where
  /-- No supply: the passive hold alone. -/
  | passive
  /-- Controlled pull-down. -/
  | controlled
  /-- Strong pull-down of a trip, before the controlled pull-down. -/
  | strong
  /-- Source current at a code 0 to 15. -/
  | source (code : Nat)
  /-- Regulation amplifier sinking, source current at a code. -/
  | regulated (code : Nat)
  deriving DecidableEq, Repr

/-- Probe result record, Table 2-5a. Log 158 (DESIGN CHOICE, safe). -/
structure ProbeRec where
  rMohm : Nat := 0xFFFFFFFF
  cNf : Nat := 0
  v0 : Nat := 0
  clamped : Bool := false
  lowSignal : Bool := false
  startHigh : Bool := false
  aborted : Bool := false
  code : Nat := 0
  tc : Nat := 0
  deriving DecidableEq, Repr

/-- A probe pulse that runs (R59): the values in effect at its start. -/
structure Pulse where
  v0 : Nat
  code : Nat
  tUs : Nat
  clampUs : Option Nat := none
  /-- The short-check pulse of PRECHECK step 3 (R75). -/
  precheck : Bool := false
  deriving DecidableEq, Repr

/-- Trip record, Table 4-2. -/
structure TripRec where
  time : Nat := 0
  cell : Nat := 0
  stateAt : Nat := 0
  primary : Nat := 0
  cls : Nat := 0
  holder : Nat := 0
  autonomous : Bool := false
  secondary : Nat := 0
  retryCount : Nat := 0
  classCount : Nat := 0
  iSample : Nat := 0
  outMv : Nat := 0
  vinMv : Nat := 0
  tjEst : Nat := 0
  deriving DecidableEq, Repr

/-- The trip-line and slice-fault source a cell holds (R98). -/
structure TripSource where
  lines : Nat
  slices : Nat
  holdUs : Nat
  early : Bool
  bcast : Bool
  start : Nat
  /-- t_trip_min has passed. -/
  minPassed : Bool := false
  deriving DecidableEq, Repr

/-- A classification counter with its window (R104). -/
structure ClassCtr where
  opened : Bool := false
  count : Nat := 0
  winMs : Nat := 0
  openedAt : Nat := 0
  deriving DecidableEq, Repr

/-- Comparator modes (05, Table 5-2 codes 0 to 3). -/
inductive CmpMode where
  | fast | medium | low | off
  deriving DecidableEq, Repr

/-- A comparator (05): its raw output, the mode in effect, a mode waiting for t_up, band state, filter history (newest
first) and filtered output. Log 44 (DESIGN CHOICE, unsafe). -/
structure Cmp where
  /-- Where the input lies against the band, as last told. -/
  level : CmpLevel
  raw : Bool := false
  mode : CmpMode
  pendingMode : Option CmpMode := none
  bandInit : Bool := false
  hist : List Bool := []
  out : Bool := false
  deriving DecidableEq, Repr

/-- The window-event bookkeeping of a cell or block (R128). -/
structure WinEv where
  /-- The outputs have been sampled once since reset release (Table 5-4). -/
  sampled : Bool := false
  changes : Nat := 0
  holdoff : Bool := false
  last : Nat := 0
  deriving DecidableEq, Repr

/-- One cell: its channel state machine (03), front end (02), trip state (04) and comparators (05). -/
structure Cell where
  state : CellState := .disabled
  /-- Replica time of entry to the state. -/
  entered : Nat := 0
  holder : Holder := .safeOrSupply
  gate : GateDrive := .passive
  /-- The passive hold is engaged (R51). -/
  passiveHold : Bool := true
  pgood : Bool := false
  present : Bool := false
  holdOff : Bool := false
  ambFallback : Bool := false
  /-- SAFE was entered from TRIPPED, COOLDOWN or LATCHED (R98). -/
  safeFromHold : Bool := false
  /-- The pump reservoir has passed its check since the cell left OFF (R49). -/
  pumpReady : Bool := false
  pulse : Option Pulse := none
  probe : ProbeRec := {}
  /-- Debounce of PROBE (R73): expired; presence confirmed in this stay. -/
  debExpired : Bool := false
  confirmed : Bool := false
  /-- PRECHECK (R75): VIN and back-feed steps passed; the short check passed or skipped. -/
  pcVin : Bool := false
  pcShort : Bool := false
  /-- The VIN and OUT means of 8 fast samples, newest sample first (R75). -/
  outHist : List Nat := []
  /-- Grant request (R77): request time in whole microseconds, timeout event raised, applied grant number. -/
  reqTime : Nat := 0
  grantLate : Bool := false
  lastGrant : Option Nat := none
  reserved : Bool := false
  reservedMa : Nat := 0
  reservedGroup : Nat := 0
  /-- Inrush and fault timers, remaining microseconds (R84). -/
  inrushUs : Nat := 0
  faultUs : Nat := 0
  /-- Limiter references of the last tick (R80); none is no limit. -/
  iPlim : Option Nat := none
  iAlim : Option Nat := none
  iSoa : Option Nat := none
  refCode : Nat := 4095
  /-- The amplifier sinks; the SOA limiter held GATE in the last microsecond (R81, R85). -/
  sinking : Bool := false
  soaHeld : Bool := false
  /-- GATE - OUT is at or above the headroom level, as last reported (R48). -/
  headroomOk : Bool := false
  /-- SOA poles in nK and the junction estimate in 1/64 degC (R88). -/
  theta0 : Nat := 0
  theta1 : Nat := 0
  theta2 : Nat := 0
  theta3 : Nat := 0
  tjEst : Int := 0
  /-- Latest valid fast samples: current (raw) and OUT (mV). -/
  iSmp : Int := 0
  outMv : Nat := 0
  /-- Trips (04). -/
  trip : TripRec := {}
  src : Option TripSource := none
  evaluated : Bool := false
  /-- A CH_ON in OFF that waits for the replica after a wake (R423). -/
  wakeOn : Bool := false
  /-- A CH_ON held until the evaluation point (R107). -/
  heldOn : Bool := false
  /-- The commands whose completion waits for the held CH_ON: ring and CMD_ID. -/
  heldCmds : List (Nat × Nat) := []
  backoffMs : Nat := 0
  /-- Time at which the retry release conditions held in autonomous mode (R24). -/
  readyAt : Option Nat := none
  /-- The INRUSH runs without a reservation (R24). -/
  autoInrush : Bool := false
  retryCount : Nat := 0
  classes : Sparse ClassCtr := []
  /-- Rule set that applied at the latest trip (R106). -/
  tripRule : Nat := 0
  /-- Comparators (05). -/
  ilo : Cmp := { level := .above, mode := .medium }
  ihi : Cmp := { level := .below, mode := .medium }
  isc : Cmp := { level := .below, mode := .fast }
  iscQual : Bool := false
  selftestRun : Bool := false
  selftestFail : Bool := false
  win : WinEv := {}
  deriving DecidableEq, Repr

/-- Edge record, Table 5-8. -/
structure EdgeRec where
  time : Nat
  lane : Nat
  src : Nat
  dir : Bool
  async : Bool
  trip : Bool
  seq : Nat
  lost : Nat
  deriving DecidableEq, Repr

/-! ## Sluice (04) -/

/-- A pending grant request (R109). -/
structure GrantReq where
  cell : Nat
  group : Nat
  prio : Nat
  ma : Nat
  time : Nat
  passed : Nat := 0
  frozen : Bool := false
  deriving DecidableEq, Repr

/-- A reservation held against a group (R110). -/
structure Reservation where
  cell : Nat
  group : Nat
  ma : Nat
  /-- Grant number; the grant has been answered by a return or a release. -/
  seq : Nat
  frozen : Bool := false
  deriving DecidableEq, Repr

/-- A grant on its way to a cell (R111). -/
structure Grant where
  cell : Nat
  ma : Nat
  group : Nat
  seq : Nat
  deriving DecidableEq, Repr

/-- A message of an island to the sluice, URGENT class (Table 1-4). -/
inductive SlMsg where
  | request (r : GrantReq)
  | withdraw (cell : Nat)
  | release (cell : Nat)
  /-- A grant returned unused, with its number. -/
  | giveBack (cell seq : Nat)
  deriving DecidableEq, Repr

/-- The sluice: pending requests, reservations held, OVERSIZE_SEEN bits, the next grant number. -/
structure Sluice where
  pend : List GrantReq := []
  held : List Reservation := []
  oversize : Nat := 0
  seq : Nat := 0
  deriving DecidableEq, Repr

/-! ## Events, completions and what leaves the device (11) -/

/-- An event on its way to the host port (Tables 11-9 and 11-10): stream, code, object, flag and six payload words. -/
structure Event where
  stream : Nat
  code : Nat
  obj : Nat := 0
  flag : Bool := false
  payload : List Word := []
  deriving DecidableEq, Repr

/-- A completion on its way to its ring (Table 11-7). -/
structure Completion where
  cmdRing : Nat
  cmdId : Nat
  opcode : Nat
  status : Nat
  handle : Nat := 0
  r0 : Word := 0
  r1 : Word := 0
  final : Bool := true
  chunk : Option Nat := none
  /-- The first completion of its command (R260). -/
  first : Bool := true
  /-- It has a reserved entry (R291). -/
  reserved : Bool := false
  deriving DecidableEq, Repr

/-- A channel command on a block whose completion waits for held CH_ON lanes (R279): lane masks.
Log 94 (DESIGN CHOICE, unsafe). -/
structure LaneWait where
  ring : Nat
  cmdId : Nat
  opcode : Nat
  ok : Nat
  bad : Nat
  held : Nat
  deriving DecidableEq, Repr

/-! ## Fault collectors (17) -/

/-- History entry, Table 17-4. -/
structure HistEntry where
  assertTime : Nat := 0
  clearTime : Nat := 0
  source : Nat := 0
  kindClear : Bool := false
  real : Bool := false
  injected : Bool := false
  opened : Bool := false
  deferred : Bool := false
  fallback : Bool := false
  key : Nat := 0
  react : Nat := 0
  ruleCount : Nat := 0
  info : Nat := 0
  count : Nat := 0
  seq : Nat := 0
  deriving DecidableEq, Repr

/-- A rule slot counter and its window (R390). -/
structure RuleCtr where
  opened : Bool := false
  winEnd : Nat := 0
  ctr : Nat := 0
  deriving DecidableEq, Repr

/-- What a standing safe request covers (R394). -/
inductive SafeScope where
  | cell (c : Nat)
  | block (b : Nat)
  | region (g : Nat)
  | chip
  deriving DecidableEq, Repr

/-- A standing safe request: the source that caused it. -/
structure SafeReq where
  source : Nat
  scope : SafeScope
  fatal : Bool
  deriving DecidableEq, Repr

/-- A central source that waits for the strait (R388). -/
structure Deferred where
  source : Nat
  count : Nat
  first : Nat
  info : Nat
  deriving DecidableEq, Repr

/-- A region report on its way to the chip collector (R389). -/
structure Report where
  region : Nat
  source : Nat
  key : Nat
  react : Nat
  time : Nat
  deriving DecidableEq, Repr

/-- One fault collector. -/
structure Coll where
  latched : Quad := 0
  live : Quad := 0
  /-- Latched bits set by a real FATAL event (R395, R405). -/
  fatalReal : Quad := 0
  counts : Sparse Nat := []
  /-- The entry of the latest real event of each source, written or not, for the clear (R398). -/
  last : Sparse HistEntry := []
  rules : Sparse RuleCtr := []
  hist : List HistEntry := []
  lastRead : HistEntry := {}
  firstErr : Option HistEntry := none
  overflow : Nat := 0
  testCount : Nat := 0
  historyLost : Bool := false
  countFailed : Bool := false
  seq : Nat := 0
  standing : List SafeReq := []
  /-- Region collectors: central sources that wait for the strait (R388); reports latched during a loss (R389); sources
  whose CHIP_SAFE request waits for the strait (R394); latched sources that hold REGION_FAULT of the chip live. -/
  deferred : List Deferred := []
  unsent : List Report := []
  chipSafeHeld : List Nat := []
  severe : Quad := 0
  deriving DecidableEq, Repr

/-- ERR_N (R401 to R404). -/
structure ErrN where
  /-- Held low by a reaction. -/
  asserted : Bool := false
  /-- PULSE_MS has not yet passed since the assertion. -/
  pulse : Bool := false
  clearWaits : Bool := false
  /-- Level of the ALIVE toggle; the always-on monitor pulls the pin low. -/
  alive : Bool := true
  monitorLow : Bool := false
  deriving DecidableEq, Repr

/-! ## Straits and autonomy (01) -/

/-- An episode of autonomy (R26). -/
structure Episode where
  entry : Nat
  policy : Nat
  retryAuto : Bool
  rejoinAuto : Bool
  tAutoMs : Nat
  /-- The policy has been applied or begun (once per episode). -/
  begun : Bool := false
  /-- An acting policy (SHED, STOP, ALL_OFF) began. -/
  applied : Bool := false
  /-- Stop ranks still to step (R26). -/
  ranks : List Nat := []
  deriving DecidableEq, Repr

/-- A trip line held by a lock (R97, R195). -/
structure LockLine where
  tag : Nat
  lines : Nat
  slices : Nat
  deriving DecidableEq, Repr

/-- The states of an island replica (08, Table 8-6): value 0 of spare. -/
inductive ReplicaState where
  | acquire | locked | holdover
  deriving DecidableEq, Repr

/-- One region: its strait (01), autonomy, island, trip routing and broadcast (04). -/
structure Region where
  /-- Central end: the strait is valid (LINK_UP). -/
  linkUp : Bool := false
  /-- AUTONOMOUS of RGN_STRAIT_STAT. -/
  autonomous : Bool := false
  holdover : Bool := false
  lossSeen : Bool := false
  lossCount : Nat := 0
  corrCount : Nat := 0
  /-- Consecutive uncorrectable words, island end and central end (R22). -/
  badIsland : Nat := 0
  badCentral : Nat := 0
  /-- Island end: loss declared; restored (R27); the region has rejoined since its last loss or reset. -/
  islandLost : Bool := false
  restored : Bool := false
  rejoined : Bool := false
  rejoinReq : Bool := false
  /-- Stop ranks still to step of a host-loss policy (R272). -/
  hostRanks : List Nat := []
  /-- RGN_AUTONOMY as last received by the island (R458). -/
  autoWord : Word := 0x000603E8
  episode : Option Episode := none
  /-- Event hold queue and its count of events not held (R472). -/
  evHold : List Event := []
  evHoldLost : Nat := 0
  /-- Sluice messages held in the island during a loss (R25). -/
  heldMsgs : List SlMsg := []
  /-- The power-on reset of the island has been released (R410). -/
  released : Bool := false
  /-- The island is out of reset, and its bring-up is complete (R413). -/
  islandRun : Bool := false
  islandUp : Bool := false
  /-- System calibration loaded (R415). -/
  islandCal : Bool := false
  /-- ASLEEP (R422); a wake whose replica is not yet LOCKED (R423). -/
  asleep : Bool := false
  woke : Bool := false
  /-- The island analog watchdog has acted (R30): held until VSYS and VDDA are cycled. -/
  clkFail : Bool := false
  /-- Trip lines held by locks; FORCE is in the register bank; the mirror held while the strait is lost (R103). -/
  lockLines : List LockLine := []
  mirrorHeld : Option (Nat × Nat) := none
  /-- Lines another driver of the board pulls low, and EXT_SEEN (Table 4-4). -/
  extLines : Nat := 0
  extSeen : Nat := 0
  /-- Cell, cause and time of the latest trip that set the broadcast bit (R101). -/
  bcastCell : Nat := 0
  bcastCause : Nat := 0
  bcastTime : Nat := 0
  /-- Island timebase replica (08). -/
  replica : ReplicaState := .acquire
  replicaOff : Int := 0
  deriving DecidableEq, Repr

/-- One block (02, 05). -/
structure Block where
  /-- Gate drive enabled (R58). -/
  gateDrive : Bool := false
  /-- Latest valid fast VIN sample in mV, and the last 8, newest first. -/
  vinMv : Nat := 0
  vinHist : List Nat := []
  cpFail : Bool := false
  vlo : Cmp := { level := .above, mode := .medium }
  vhi : Cmp := { level := .below, mode := .medium }
  vtestFail : Bool := false
  vtestRun : Bool := false
  /-- Replica time of the last VIN comparator test. -/
  vtestAt : Option Nat := none
  vwin : WinEv := {}
  /-- Edge queue (R125). -/
  edges : List EdgeRec := []
  edgeSeq : Nat := 0
  edgeDropped : Nat := 0
  edgeLost : Nat := 0
  deriving DecidableEq, Repr
/-! ## Barges (09, 10) and their debug state (19) -/

/-- Where a load writes its result (Table 9-4). -/
inductive LdDest where
  | s (r : Nat)
  | pair (r : Nat)
  | v (r : Nat)
  deriving DecidableEq, Repr

/-- A load in the load queue (R210): its data once it has been read. -/
structure LoadEnt where
  dest : LdDest
  addr : Nat
  size : Nat
  signed : Bool := false
  data : Option Nat := none
  /-- A code-flash load that missed the data line buffer (R212). -/
  miss : Bool := false
  deriving DecidableEq, Repr

/-- A buffered store or an IRAM patch (R218, R221): address, bytes, little-endian value. -/
structure StoreEnt where
  addr : Nat
  size : Nat
  data : Nat
  deriving DecidableEq, Repr

/-- A BTB entry (R217). -/
structure BtbEnt where
  valid : Bool := false
  tag : Nat := 0
  target : Nat := 0
  deriving DecidableEq, Repr

/-- A data watchpoint (Table 19-5). -/
structure Watch where
  addr : Nat := 0
  ctl : Word := 0
  deriving DecidableEq, Repr

/-- The task queue unit of a barge (10). -/
structure TaskUnit where
  /-- BG_TQ_CFG (Table 10-6). -/
  cfg : Nat := 8
  queue : List Quad := []
  running : Option Quad := none
  runStart : Nat := 0
  runStopped : Nat := 0
  /-- The overrun of the running task has been reported (R245). -/
  overrun : Bool := false
  ovrLoose : Bool := false
  ovrMoored : Bool := false
  pushFull : Bool := false
  relMerged : Bool := false
  relDropped : Bool := false
  ovrSlot : Nat := 0
  steals : Nat := 0
  lent : Nat := 0
  pushLow : Sparse DWord := []
  moorCfg : Sparse Word := []
  moorNext : Sparse Nat := []
  /-- Scalar and vector registers allocated to a moored slot, as masks (R284). -/
  moorS : Sparse Nat := []
  moorV : Sparse Nat := []
  deriving DecidableEq, Repr

/-- The debug state of a barge (19, Table 19-5). -/
structure BargeDbg where
  halted : Bool := false
  /-- A halt request, with its cause, that waits for loads and stores to finish (R434). -/
  haltReq : Option Nat := none
  cause : Nat := 0
  unit : Nat := 0
  haltCycle : Nat := 0
  waddr : Nat := 0
  xtrig : DWord := 0
  bps : Sparse Word := []
  wps : Sparse Watch := []
  /-- The instruction at the program counter issues once without matching a breakpoint (R437). -/
  skipBp : Bool := false
  /-- A STEP runs: the barge halts again after one instruction (R436). -/
  stepping : Bool := false
  /-- A cross-trigger waits (R438). -/
  xreq : Bool := false
  deriving DecidableEq, Repr

/-- One barge. -/
structure Barge where
  /-- The barge has been started (R416) and runs code. -/
  run : Bool := false
  pc : Nat := 0
  s : Sparse Word := []
  v : Sparse Quad := []
  iram : Sparse Byte := []
  dram : Sparse Byte := []
  sb : List StoreEnt := []
  lq : List LoadEnt := []
  patches : List StoreEnt := []
  /-- IRAM stores issued since the last sync.i (R223). -/
  patchCount : Nat := 0
  /-- Flash lines held by the two fetch line buffers, newest first; the prefetch in progress; the data line (R212, R215). -/
  lines : List Nat := []
  prefetch : Option Nat := none
  dline : Option Nat := none
  btb : Sparse BtbEnt := []
  level : Nat := 0
  xcpt : Bool := false
  gie : Bool := false
  depth : Nat := 0
  accFail : Bool := false
  eccSeen : Bool := false
  xcause : Nat := 0
  xaddr : Nat := 0
  xepc : Nat := 0
  xstat : Nat := 0
  vtbase : Nat := 0x10000
  epc : Sparse Nat := []
  estat : Sparse Nat := []
  /-- Source of the handler of each level (BG_IRQ_ACTIVE). -/
  srcAt : Sparse Nat := []
  /-- Pending interrupt sources (R224), enables, levels. -/
  pend : DWord := 0
  en : DWord := 0
  prio : Sparse Word := []
  /-- BG_TMR_CMP (all ones at reset) and whether each has been reached since it was written. -/
  tmr : Sparse Nat := []
  tmrHit : Nat := 0
  /-- High word latched by a 32-bit read of a low word (R231). -/
  latch : Word := 0
  /-- Core cycle of barge reset release (BG_CYCLE). -/
  cycle0 : Nat := 0
  waiting : Bool := false
  seized : Bool := false
  tq : TaskUnit := {}
  dbg : BargeDbg := {}
  deriving DecidableEq, Repr

/-! ## Conversion and metering (06, 07) -/

/-- Integrating record, Table 6-5. -/
structure IntRec where
  endTime : Nat := 0
  winSeq : Nat := 0
  clocks : Nat := 0
  aborted : Bool := false
  iOvr : Bool := false
  vOvr : Bool := false
  avgNew : Bool := false
  iVal : Int := 0
  vVal : Int := 0
  iAvg : Int := 0
  vAvg : Int := 0
  deriving DecidableEq, Repr

/-- An integrating window in progress with its averaging group (R144 to R149). -/
structure Window where
  running : Bool := true
  start : Nat := 0
  /-- RGN_CONV_CFG as in effect for this window (R148). -/
  cfg : Word := 0x00440051
  iOvr : Bool := false
  vOvr : Bool := false
  n : Nat := 0
  iSum : Int := 0
  vSum : Int := 0
  deriving DecidableEq, Repr

/-- A span in progress (R165): sums of window values, squared codes, peak, energy at its start. Log 57 (DEDUCED, unsafe). -/
structure Span where
  windows : Nat := 0
  start : Nat := 0
  iSum : Int := 0
  vSum : Int := 0
  vinSum : Int := 0
  /-- Every window so far ended with a VIN window of the block, in ON (R168). -/
  rOk : Bool := true
  sq : Nat := 0
  n : Nat := 0
  peak : Int := 0
  gaps : Nat := 0
  iOvr : Bool := false
  vOvr : Bool := false
  fwd0 : Nat := 0
  rev0 : Nat := 0
  /-- Samples of the window in progress, folded in when it ends complete (R165). -/
  wSq : Nat := 0
  wN : Nat := 0
  wPeak : Int := 0
  wGaps : Nat := 0
  wOn : Bool := true
  deriving DecidableEq, Repr

/-- A trend log entry (R169). -/
structure Trend where
  time : Nat
  rUohm : Nat
  tj : Nat
  mean10mA : Nat
  deriving DecidableEq, Repr

/-- The lane of one cell: fast filters, window, energy, span, trend log. -/
structure Lane where
  /-- Settle count of the next sample (R138); the filters wait for a reset; the next frame is the first after a reset. -/
  settle : Nat := 3
  resetPend : Bool := true
  fresh : Bool := false
  /-- Stopped by gating, as tags show it; a probe pulse keeps the lane running (R151). -/
  stopped : Bool := false
  forPulse : Bool := false
  /-- Low 10 bits of the tag of the latest frame (Table 6-2). -/
  tag : Nat := 0x00A3
  rcd : IntRec := {}
  win : Window := {}
  /-- Latest valid current code (R163); the interval since a stop belongs to the first valid sample. -/
  gap : Bool := false
  eTime : Option Nat := none
  accFwd : Nat := 0
  accRev : Nat := 0
  eFwd : Nat := 0
  eRev : Nat := 0
  span : Span := {}
  abortSeen : Bool := false
  telGap : Bool := false
  /-- R_PATH_UOHM, mean current (uA) and end time of the latest span (R168, R169). -/
  rPath : Option Nat := none
  /-- Current (uA) and voltage drop (uV) of the latest span, when it meets R168 apart from PATH_OFS_VALID (R167). -/
  spanPt : Option (Int × Int) := none
  meanUa : Int := 0
  spanEnd : Nat := 0
  trend : List Trend := []
  deriving DecidableEq, Repr

/-- A block frame (Table 13-1). -/
structure Frame where
  time : Nat
  valid : Nat
  settle : Nat
  trip : Nat
  block : Nat
  seq : Nat
  i : List Nat
  v : List Nat
  deriving DecidableEq, Repr

/-- The conversion paths of one block (06). -/
structure Conv where
  /-- The ratio the filters use; a committed ratio waits for its reset boundary (R139). -/
  osr : Nat := 1
  osrPend : Bool := false
  seq : Nat := 0
  /-- Cells that entered TRIPPED since the last frame (R299). -/
  trip : Nat := 0
  vinSettle : Nat := 3
  vinReset : Bool := true
  vinTag : Nat := 0x0023
  vinRec : IntRec := {}
  vinWin : Window := {}
  /-- Frames on their way over the strait (R34). -/
  frames : List Frame := []
  /-- Sample mirror: 64 slots (R33), by slot number. -/
  mirror : Sparse Frame := []
  deriving DecidableEq, Repr

/-- An auxiliary result (Table 6-14). -/
structure AuxRes where
  value : Nat := 0
  valid : Bool := false
  urgent : Bool := false
  rangeErr : Bool := false
  pass : Nat := 0
  deriving DecidableEq, Repr

/-- The auxiliary converter of a region (06) and its plausibility state (07). -/
structure Aux where
  current : Option Nat := none
  lastInput : Nat := 0
  inUrgent : Bool := false
  queued : Option Nat := none
  resume : Option Nat := none
  urgentDone : Bool := false
  overrun : Bool := false
  overruns : Nat := 0
  scans : Nat := 0
  res : Sparse AuxRes := []
  /-- Plausibility (R170 to R172), bit a each: FAIL, FAIL_SEEN, awaiting confirmation; the counts; passes since FAIL. -/
  fail : Nat := 0
  failSeen : Nat := 0
  confirm : Nat := 0
  mismatches : Nat := 0
  unsteady : Nat := 0
  passes : Sparse Nat := []
  deriving DecidableEq, Repr

/-- A record on its way to a telemetry stream (Table 11-13). -/
structure Tel where
  stream : Nat
  words : List Word
  deriving DecidableEq, Repr

/-- A system calibration slot (R176): its sequence number and the coefficient words that differ from reset, by offset.
Log 15 (DESIGN CHOICE, unsafe). -/
structure CalSlot where
  seq : Nat
  words : Sparse Word
  deriving DecidableEq, Repr

/-! ## Timebase, links and locks (08) -/

/-- Discipline states (R181). -/
inductive TbState where
  | free | acquire | locked | holdover
  deriving DecidableEq, Repr

/-- The timebase master (R178 to R183). -/
structure Timebase where
  /-- The timebase PLL has locked since power-on (R179); it holds over while TBCLK_IN is absent (R466). -/
  running : Bool := false
  /-- Rate trim in effect; the trim of TB_RATE; the 32-bit fraction. -/
  rate : Int := 0
  free : Int := 0
  frac : Nat := 0
  /-- Offset still to be slewed after TB_ADJ, in rate units summed over ticks (R183). -/
  slew : Int := 0
  /-- Upper half latched by a 32-bit read (R179). -/
  latch : Word := 0
  state : TbState := .free
  active : Nat := 0
  good : Nat := 0
  bad : Nat := 0
  /-- Consecutive measurements of SRC while ALT_SRC is active (R182). -/
  srcGood : Nat := 0
  slewing : Bool := false
  stepSeen : Bool := false
  adjRefused : Bool := false
  offset : Int := 0
  /-- SYNC_OUT is high. -/
  syncOut : Bool := false
  deriving DecidableEq, Repr

/-- Cabinet link states (R190). -/
inductive LinkState where
  | down | training | up | fault
  deriving DecidableEq, Repr

/-- One cabinet link. -/
structure CabLink where
  state : LinkState := .down
  hops : Nat := 0
  delay : Nat := 0
  /-- Times of the CRC errors of the last millisecond, elapsed ns (R190). -/
  errors : List Nat := []
  /-- SYNC frames of the measurement in progress and their offset sum (Table 8-4). -/
  syncN : Nat := 0
  syncSum : Int := 0
  deriving DecidableEq, Repr

/-- The ring (R191). -/
structure Ring where
  posValid : Bool := false
  size : Nat := 0
  closed : Bool := false
  conflict : Bool := false
  crcErrors : Nat := 0
  deriving DecidableEq, Repr

/-- The servo of an island replica (R185 to R188). -/
structure Replica where
  /-- Marks of the average in progress and their error sum, 0.1 ns. -/
  marks : Nat := 0
  sum : Int := 0
  err : Int := 0
  stepped : Bool := false
  lastStep : Int := 0
  /-- A step of the timebase that the next discipline word carries. -/
  stepPend : Nat := 0
  /-- The first word after reset or a large step sets the replica (R186). -/
  fresh : Bool := true
  deriving DecidableEq, Repr

/-- A lock copy in a table (R197 to R202). -/
structure LockCopy where
  e : LockEntry
  late : Bool := false
  deriving DecidableEq, Repr

/-- A copy that waits to enter its table, with the lock ring it came from (R198). -/
structure LockWait where
  table : Nat
  e : LockEntry
  ring : Option Nat
  deriving DecidableEq, Repr

/-- One lock table and, for a region, its deferred list and held cancels (R203, R204). -/
structure LockTable where
  copies : List LockCopy := []
  high : Nat := 0
  fullSeen : Bool := false
  deferred : List LockEntry := []
  cancels : List Nat := []
  deriving DecidableEq, Repr

/-- The lock unit: its tables, the copies that wait for one, and the counters of LK_STAT (Table 8-19). -/
structure LockUnit where
  tables : Sparse LockTable := []
  waits : List LockWait := []
  late : Nat := 0
  bad : Nat := 0
  deferLost : Nat := 0
  refused : Nat := 0
  deriving DecidableEq, Repr


/-! ## Converter slices (14) -/

/-- Slice states, Table 14-3. -/
inductive SliceState where
  | off | softStart | run | softStop
  deriving DecidableEq, Repr

/-- Where a slice stands in its period: before HS rises, the on interval, before LS rises, the low-side part. -/
inductive SlicePhase where
  | rest | deadHigh | on | deadLow | low
  deriving DecidableEq, Repr

/-- One converter slice: run state, the values latched at the latest period edge, cut state, counters and feedback. -/
structure Slice where
  state : SliceState := .off
  phase : SlicePhase := .rest
  hs : Bool := false
  ls : Bool := false
  /-- Replica time of entry to the state; SS_US as sampled at entry to SOFT_START. -/
  entered : Nat := 0
  ssUs : Nat := 1000
  /-- TON_LIM as evaluated at the latest edge; its value at entry to SOFT_STOP. -/
  tonLim : Nat := 103
  tonLim0 : Nat := 103
  /-- Latched at the edge: CTRL, SP, the on interval in FU (none while a comparator decides it). -/
  ctrl : Nat := 0
  sp : Nat := 0
  ton : Option Nat := none
  skip : Bool := false
  lsOmit : Bool := false
  limited : Bool := false
  /-- The period has been counted in PULSE_SKIP; a peak crossing before T_ON_MIN ends the on interval at T_ON_MIN (R316). -/
  counted : Bool := false
  peakHeld : Bool := false
  /-- An edge asked for before PER_MIN (R317). -/
  edgeAsked : Bool := false
  /-- A lock has named the slice since the latest edge (R323). -/
  lockNamed : Bool := false
  /-- Fault input, FB_OV, the cut in progress with its whole periods (R324, R325). -/
  fault : Bool := false
  fbOv : Bool := false
  cut : Bool := false
  cutPeriods : Nat := 0
  pulseSkip : Nat := 0
  ilim : Nat := 0
  cutCount : Nat := 0
  skipRun : Nat := 0
  skipRaised : Bool := false
  wdFired : Bool := false
  lossApplied : Bool := false
  faultSeen : Bool := false
  perForced : Bool := false
  /-- Feedback path (R328): samples still invalid, latest code, PGOOD, sample count. -/
  fbSettle : Nat := 3
  fb : Nat := 0
  pgood : Bool := false
  samples : Nat := 0
  /-- The runtime voltage loop: local barge, slot, KP, KI, CTRL minimum and maximum (Table 14-8). -/
  loop : Option (Nat × Nat × Word × Word × Nat × Nat) := none
  deriving DecidableEq, Repr

/-- A slice sample on its way to region RAM (R329): slice, the three defined words of Table 14-4 without LATE, its TIME. -/
structure SliceRec where
  slice : Nat
  fb : Nat
  flags : Nat
  time : Nat
  deriving DecidableEq, Repr

/-! ## Host port (11) -/

/-- A ring context as the device holds it (Table 11-4), with its moderation state (R270). -/
structure RingCtx where
  active : Bool := false
  kind : Nat := 0
  log2 : Nat := 0
  pin : Bool := false
  irqEn : Bool := false
  bound : Nat := 0
  vector : Nat := 0
  credits : Nat := 0
  coalCount : Nat := 0
  coalTime : Nat := 0
  base : Nat := 0
  wb : Nat := 0
  user : Nat := 0
  dev : Nat := 0
  host : Nat := 0
  drop : Nat := 0
  seq : Nat := 0
  phase : Bool := false
  armed : Bool := false
  /-- Entries (records, for telemetry) since the last message; microseconds since the first of them. -/
  n : Nat := 0
  timer : Nat := 0
  /-- Events were dropped since the previous written entry (R268). -/
  dropBefore : Bool := false
  deriving DecidableEq, Repr

/-- A descriptor that has been read and waits for admission (R260). -/
structure Fetched where
  opcode : Nat
  d : Desc
  deriving DecidableEq, Repr

/-- A command slot (R260, R264): an admitted command without its first completion. -/
structure CmdSlot where
  ring : Nat
  cmdId : Nat
  opcode : Nat
  barge : Nat
  token : Quad
  /-- The host port still holds the token (R238). -/
  held : Bool
  /-- Its first completion is ready. -/
  answered : Bool := false
  deriving DecidableEq, Repr

/-- The host port. -/
structure HostPort where
  /-- The link is up; Bus Master Enable; MSI-X enabled; the MSI-X function mask (Table 11-1). -/
  linkUp : Bool := false
  perst : Bool := true
  bme : Bool := false
  msixEn : Bool := false
  msixMask : Bool := false
  /-- Rings 0 and 1 are built (READY). -/
  ready : Bool := false
  dbBad : Nat := 0
  unrouted : Nat := 0
  rings : Sparse RingCtx := []
  /-- The context cache, most recently used first, and the contexts changed since they were written back (R252). -/
  cached : List Nat := []
  dirty : List Nat := []
  /-- The last accepted doorbell value of every ring. -/
  doorbells : Sparse Word := []
  fetched : List Fetched := []
  slots : List CmdSlot := []
  /-- MSI-X table words by 4 v + w (the mask bit of word 3 is 1 at reset); pending bits. -/
  msixTable : Sparse Word := []
  pba : Sparse Bool := []
  hbRunning : Bool := false
  hostLost : Bool := false
  policyRan : Bool := false
  lossCount : Nat := 0
  /-- A loss without its return: time, policy code, whether the policy ran (R272). -/
  loss : Option (Nat × Nat × Bool) := none
  deriving DecidableEq, Repr

/-! ## Long operations (12) -/

/-- Operation states, Table 12-4; DONE frees the handle. -/
inductive OpState where
  | running | suspended | suspendedBp | cancelling
  deriving DecidableEq, Repr

/-- A bank sequence entry in progress (Table 12-5, R294): applied, and its outcome code once fixed. -/
structure BankEnt where
  cell : Nat
  wait : Nat
  delay : Nat
  applied : Bool := false
  outcome : Option Nat := none
  deriving DecidableEq, Repr

/-- A bank sequence (R293 to R295). -/
structure BankSeq where
  ents : List BankEnt
  stopOnFail : Bool
  maxInflight : Nat
  outAddr : Nat
  /-- The entry under way; its delay has been started, with the ms that remain; it has been tried. -/
  k : Nat := 0
  delay : Option Nat := none
  tried : Bool := false
  stopped : Bool := false
  /-- Entries still to roll back, in order. -/
  undo : List Nat := []
  deriving DecidableEq, Repr

/-- The points of one cell of a survey, as sums (R167): count, I, V, I I, I V, V V, least and greatest I. -/
structure SurveySum where
  n : Nat := 0
  si : Int := 0
  sv : Int := 0
  sii : Int := 0
  siv : Int := 0
  svv : Int := 0
  lo : Int := 0
  hi : Int := 0
  deriving DecidableEq, Repr

/-- What an operation does (Tables 12-7, R297). -/
inductive OpBody where
  | bank (b : BankSeq)
  /-- Region, result buffer, cells, milliseconds left, apply, whether the region was autonomous meanwhile; the points by cell. -/
  | survey (g addr cells leftMs : Nat) (apply wasAuto : Bool) (pts : Sparse SurveySum)
  /-- Target kind and index, mode, quantity, auxiliary input, store, reference; good windows and their sum, all windows. -/
  | cal (tkind tindex mode qty aux : Nat) (store : Bool) (ref : Int) (n : Nat) (sum : Int) (all : Nat)
  /-- Region, and the results to report when the store ends a CAL_RUN. -/
  | calStore (g : Nat) (r0 r1 : Word)
  /-- DEST, next position, positions left, BLOCK_MASK, DEST_LEN, output pages so far, chunk number. -/
  | capture (dest next left mask destLen page chunk : Nat)
  /-- Source, LENGTH, area, bytes read, chunk number; 0 reading, 1 erasing and programming, 2 verifying; the header held back. -/
  | flash (src len area done chunk phase : Nat) (hdr : List Byte)
  /-- Bus, buffer, RECEIVE, next and last address, found mask; addresses whose probe is repeated, whether one failed again. -/
  | scan (t addr : Nat) (receive : Bool) (next last found : Nat) (lost : List Nat) (failed : Bool)
  /-- Its work is done: the final completion that waits for its reservation. -/
  | done (status r0 r1 : Nat) (chunk : Option Nat)
  deriving DecidableEq, Repr

/-- A long operation in its handle slot (R285). Log 102 (DEDUCED, unsafe). -/
structure Op where
  opcode : Nat
  ring : Nat
  cmdId : Nat
  state : OpState := .running
  steps : Nat := 0
  suspendReq : Bool := false
  rollback : Bool := false
  /-- A CANCELLING operation still waits for the reservation it stopped for. -/
  bpWait : Bool := false
  /-- It holds a reserved completion entry (R291). -/
  reserved : Bool := false
  /-- Its final completion waits to be written (then DONE). -/
  ended : Bool := false
  body : OpBody
  deriving DecidableEq, Repr

/-! ## Basin recorder (13) -/

/-- A drop episode (R307): first and last frame time, frames, blocks. -/
structure DropEpisode where
  first : Nat
  last : Nat
  count : Nat
  blocks : DWord
  deriving DecidableEq, Repr

/-- The basin engine. -/
structure Basin where
  /-- Recording (EN = 1 and the segment table read); the table is being read. -/
  recording : Bool := false
  loading : Bool := false
  segs : List DWord := []
  segErr : Bool := false
  w : Nat := 0
  /-- Staged entries: position and twelve words. -/
  staged : List (Nat × List Word) := []
  drop : Option DropEpisode := none
  dropTotal : Nat := 0
  markSeq : Nat := 0
  markLost : Nat := 0
  post : Option Nat := none
  postDone : Nat := 0
  frozen : Bool := false
  trigPos : Nat := 2 ^ 64 - 1
  trigTime : Nat := 0
  trigSrc : Nat := 0
  trigCell : Nat := 0
  trigTag : Nat := 0
  trigIgnored : Nat := 0
  /-- Frames on their way to the engine (R34), W as last written back. -/
  inbox : List Frame := []
  wbW : Nat := 0
  /-- EN was cleared while host memory could not be reached: the staged entries are still to be written (R301). -/
  stopping : Bool := false
  deriving DecidableEq, Repr
/-! ## Reserve and power path (15) -/

/-- The reserve unit and the wake circuit. Charger and path states by their codes (Tables 15-3 and 15-4). -/
structure Reserve where
  chg : Nat := 0
  path : Nat := 0
  /-- Precharge and charge timers, ms (R345). -/
  preMs : Nat := 0
  chgMs : Nat := 0
  waitReason : Nat := 0
  /-- An operating-point pause runs, or waits for surplus absorption to end (R342); the regulation level. -/
  pause : Bool := false
  pauseDue : Bool := false
  surplus : Bool := false
  inReg : Bool := false
  thReg : Bool := false
  half : Bool := false
  zone : Nat := 0
  /-- The ratio of the pack thermistor is outside the table (R346). -/
  ntcBad : Bool := false
  vReg : Nat := 0
  /-- RV_FAULT and RV_FAULT_LIVE. -/
  latched : Nat := 0
  live : Nat := 0
  /-- BUS_SNS is present (R347). -/
  present : Bool := false
  /-- The input path is on; the ideal diode is armed, and enhanced; the ship disconnect is on. -/
  inOn : Bool := true
  dioArmed : Bool := false
  dioOn : Bool := false
  shipOn : Bool := true
  handovers : Nat := 0
  bounces : Nat := 0
  hoTime : Nat := 0
  hoTrig : Nat := 0
  hoBus : Nat := 0
  /-- Bounces of the episode, and since the last EV_HANDOVER_BOUNCE, whose hold-off runs (R350). -/
  episode : Nat := 0
  fresh : Nat := 0
  bounceHold : Bool := false
  lastBounce : Nat := 0
  /-- The stop table; the sequence has run for this hand-over, and STOP_RAN (R352). -/
  stop : List LockEntry := []
  stopDone : Bool := false
  stopRan : Bool := false
  /-- SAFE_VALUES; the safe values act; RV_SAFE has been written (R356). -/
  safe : Bool := false
  safeActs : Bool := false
  safeWritten : Bool := false
  /-- Ship mode (R354): armed, its delay in seconds. -/
  shipArmed : Bool := false
  shipDelay : Nat := 0
  /-- The wake circuit (R355): ship and depleted latches, wake cause, hold flag. -/
  shipLatch : Bool := false
  depleted : Bool := false
  cause : Nat := 0
  hold : Bool := false
  /-- The latest measurement, and V_OC (RV_MEAS). -/
  meas : RvMeas := { bus := 0, vsys := 0, pack := 0, ma := 0, t := 0 }
  voc : Nat := 0
  deriving DecidableEq, Repr

/-! ## Towpaths, management port, supervisor port (16) -/

/-- The result of a prepared slot (Table 16-6). -/
structure SlotStat where
  result : Nat := 15
  done : Bool := false
  byLock : Bool := false
  xfer : Nat := 0
  failByte : Nat := 0
  failBit : Nat := 0
  tries : Nat := 0
  deriving DecidableEq, Repr

/-- A target record (R374). -/
structure TgtRec where
  time : Nat
  cmd : Nat
  pec : Bool
  data : List Byte
  deriving DecidableEq, Repr

/-- One towpath. -/
structure Towpath where
  /-- The start queue: slots with BY_LOCK; the slot on the bus; the slot of RUN_SLOT. -/
  queue : List (Nat × Bool) := []
  run : Option (Nat × Bool) := none
  last : Nat := 0
  stats : Sparse SlotStat := []
  idle : Bool := false
  /-- Recovery runs (R366); an ABORT waits for the next byte boundary. -/
  recovering : Bool := false
  aborting : Bool := false
  oos : Bool := false
  stuck : Bool := false
  sdaLow : Bool := false
  sclLow : Bool := false
  wakeFail : Bool := false
  merged : Bool := false
  notifyNacked : Bool := false
  tgtNacked : Bool := false
  arbLost : Nat := 0
  buf : Sparse Byte := []
  notify : List Quad := []
  notifySeq : Nat := 0
  tgt : List TgtRec := []
  /-- SCL is held low for a wake (R375). -/
  stretch : Bool := false
  deriving DecidableEq, Repr

/-- The management port: mailbox, reply, selected cell, status bits, and the status image as last refreshed (R381). -/
structure Mgmt where
  mbox : Option (List Byte) := none
  reply : List Byte := []
  cell : Nat := 0
  pecErr : Bool := false
  wakeFail : Bool := false
  stretch : Bool := false
  nacks : Nat := 0
  seq : Nat := 0
  id : List Byte := []
  summary : List Byte := []
  temp : List Byte := []
  reserve : List Byte := []
  deriving DecidableEq, Repr

/-- The supervisor port. -/
structure Supervisor where
  seq : Nat := 0
  result : Nat := 6
  undelivered : Nat := 0
  wdExpired : Bool := false
  safeSeen : Bool := false
  crcErrors : Nat := 0
  lenErrors : Nat := 0
  deriving DecidableEq, Repr

/-! ## Start-up, reset and power modes (18) -/

/-- Supplies, reset and boot status, and power modes. -/
structure Power where
  /-- Supplies that are good (Table 18-1), and a valid TBCLK_IN. -/
  vsys : Bool := false
  vdda : Bool := false
  vddi : Bool := false
  vddc : Bool := false
  vddio : Bool := false
  vddpx : Bool := false
  tbclk : Bool := false
  /-- Power-on resets released (R410): the always-on domain, the central die, the host port. -/
  aoUp : Bool := false
  centralUp : Bool := false
  hostUp : Bool := false
  /-- The central die is out of reset; RST_N is held low from outside. -/
  core : Bool := false
  rstLow : Bool := false
  /-- CHIP_BOOT_STAT (Table 18-7). -/
  trimOk : Bool := false
  rtUp : Bool := false
  rtFail : Bool := false
  custUp : Bool := false
  custFail : Bool := false
  lastReset : Nat := 0
  /-- Mode in effect, ENTRY_REFUSED with its reason, PWR_WAKE_CAUSE. -/
  mode : Nat := 0
  refused : Bool := false
  reason : Nat := 0
  cause : Nat := 0
  /-- Timebase ticks spent in STANDBY, in which the core clock stops. -/
  stopped : Nat := 0
  deriving DecidableEq, Repr

/-! ## Debug port and TAP (19) -/

/-- The access level and the link (R428 to R430). -/
structure DebugPort where
  /-- OPEN came from HOST_GRANT, or from AUTH; DENY. -/
  granted : Bool := false
  authed : Bool := false
  deny : Bool := false
  key : Option (List DWord) := none
  /-- The challenge that an AUTH may answer. -/
  chal : Option Quad := none
  fails : Nat := 0
  /-- Elapsed time, ns, until which AUTH is answered WAIT. -/
  waitTo : Nat := 0
  seen : Bool := false
  reason : Nat := 0
  deriving DecidableEq, Repr

/-- TAP instructions (R440). -/
inductive TapInstr where
  | bypass | idcode | sample | extest | clamp | highz
  deriving DecidableEq, Repr

/-- The TAP: the instruction in effect and the value preloaded for the controllable balls. -/
structure Tap where
  instr : TapInstr := .idcode
  preload : Quad := 0
  deriving DecidableEq, Repr

/-! ## Legacy node view (20) -/

/-- Mailbox states, LN_STATUS.MBOX. -/
inductive MboxState where
  | idle | busy | done | error
  deriving DecidableEq, Repr

/-- A command latched by a doorbell: LN_CMD and arguments, its number, its token; whether a barge has taken it. -/
structure MboxCmd where
  cmd : Word
  arg0 : Word
  arg1 : Word
  token : Quad
  held : Bool
  taken : Bool := false
  deriving DecidableEq, Repr

/-- One channel of a node image (Table 20-2), with the valid frames of the interval: count, sums of I and V codes. -/
structure NodeChan where
  stat : Nat := 0
  i : Nat := 0
  v : Nat := 0
  tj : Nat := 0
  n : Nat := 0
  iSum : Int := 0
  vSum : Int := 0
  deriving DecidableEq, Repr

/-- One node of the legacy view. -/
structure Node where
  cmd : Word := 0
  arg0 : Word := 0
  arg1 : Word := 0
  mbox : MboxState := .idle
  flight : Option MboxCmd := none
  stale : Bool := false
  overrun : Bool := false
  seq : Nat := 0
  result : Word := 0
  result2 : Word := 0
  time : Nat := 0
  chans : Sparse NodeChan := []
  /-- Lanes with TRIPPED_SEEN; replica time of the latest refresh. -/
  seen : Nat := 0
  last : Nat := 0
  deriving DecidableEq, Repr


/-! ## What leaves the device -/

/-- One thing that leaves the device, in the order it leaves (log 6). Log 6 (DESIGN CHOICE, safe). -/
inductive Out where
  /-- An idle word of a strait end (R22). -/
  | idleWord (region : Nat) (island : Bool)
  /-- The rejoin snapshot: the states of the 64 cells (R28). -/
  | snapshot (region : Nat) (states : List CellState)
  /-- A trip message on both cabinet links, or on one when it is forwarded (R101, R102). -/
  | tripMsg (links : List Nat) (pos region : Nat) (bit : Bool) (seq cell cause time : Nat)
  /-- A POS frame out of link A (R191). -/
  | posFrame (pos : Nat)
  /-- A SYNC frame on the links listed (R193). -/
  | syncFrame (links : List Nat) (time hops : Nat)
  /-- A lock in three LOCK frames on the links listed (R196). -/
  | lockFrames (links : List Nat) (e : LockEntry)
  /-- A pulse on SYNC_OUT of a width in ns (R205, Table 8-15). -/
  | syncPulse (ns : Nat)
  /-- A write to host memory: address and words (R258). -/
  | hostWrite (addr : Nat) (words : List Word)
  /-- The same for a number of bytes that may end inside a word. -/
  | hostBytes (addr : Nat) (bytes : List Byte)
  /-- An MSI-X message (R269). -/
  | msix (vector : Nat)
  /-- Bytes a serial port shifts out: management port 0, supervisor port 1, debug port 2, TAP 3. -/
  | serial (port : Nat) (bytes : List Byte)
  /-- Words a read returns to its reader: host, barge or port. -/
  | readData (words : List Word)
  deriving DecidableEq, Repr

/-! ## The machine -/

/-- The state of the whole device: everything but the queue of waiting commands. -/
structure Dev where
  /-- Draws of free values so far (the model's own field, log 2). -/
  freeCount : Nat := 0
  /-- Timebase ticks since power-on (R178). -/
  ticks : Nat := 0
  tbTime : Nat := 0
  tb : Timebase := {}
  linkA : CabLink := {}
  linkB : CabLink := {}
  ring : Ring := {}
  replicas : Sparse Replica := []
  lk : LockUnit := {}
  cells : Sparse Cell := []
  blocks : Sparse Block := []
  regions : Sparse Region := []
  barges : Sparse Barge := []
  /-- Central SRAM, region RAM by 2^21 g + offset, code flash by physical offset (Tables 1-11, 18-3). -/
  sram : Sparse Byte := []
  rram : Sparse Byte := []
  flash : Sparse Byte := []
  /-- Slots booted: runtime, customer. -/
  rtSlot : Nat := 0
  custSlot : Nat := 0
  dbg : DebugPort := {}
  tap : Tap := {}
  /-- Nodes of the legacy view by node index; HP_LV_DONE. -/
  nodes : Sparse Node := []
  lvDone : DWord := 0
  /-- CHIP_ACC_STAT (Table 21-2). -/
  rgnFail : Byte := 0
  badSize : Bool := false
  rsvdWrites : Nat := 0
  slices : Sparse Slice := []
  /-- Slice samples on their way to region RAM (R329). -/
  sliceQ : List SliceRec := []
  lanes : Sparse Lane := []
  convs : Sparse Conv := []
  auxs : Sparse Aux := []
  /-- Valid calibration slots by 2 g + slot (R176). -/
  calSlots : Sparse CalSlot := []
  /-- Setup registers by BAR0 offset, and the pending class S values with their masks. -/
  regs : Sparse Word := []
  regsPend : Sparse (Word × Word) := []
  /-- Channel profile words by 64 c + w, and the pending class S values with their masks (R92, R93). -/
  prof : Sparse Word := []
  profPend : Sparse (Word × Word) := []
  colls : Sparse Coll := []
  err : ErrN := {}
  sluice : Sluice := {}
  slMsgs : List SlMsg := []
  grants : List Grant := []
  /-- Mirror bits and stale marks by 8 position + region (R102), the forwarded pairs, the next message number. -/
  mirror : Nat := 0
  mirrorStale : Nat := 0
  fwdMem : List (Nat × Nat) := []
  tripSeq : Nat := 0
  /-- Cabinet-ring position of this device (08, R191). -/
  ringPos : Nat := 0
  hp : HostPort := {}
  /-- Long operations by handle slot, and the generation count of each slot (R285). -/
  ops : Sparse (Option Op) := []
  opGen : Sparse Nat := []
  bz : Basin := {}
  rv : Reserve := {}
  tows : Sparse Towpath := []
  mg : Mgmt := {}
  sv : Supervisor := {}
  pwr : Power := {}
  evq : List Event := []
  complq : List Completion := []
  laneWaits : List LaneWait := []
  reports : List Report := []
  telq : List Tel := []
  out : List Out := []
  deriving DecidableEq, Repr

/-- The machine: the commands that wait, first in, first out, and the device. -/
structure State where
  pending : List Instr := []
  dev : Dev := {}
  deriving DecidableEq, Repr

/-- The machine right after power-on reset: no supply is good yet, every register reads its reset value, nothing waits.
Log 7 (DEDUCED, safe); log 8 (DESIGN CHOICE, unsafe). -/
def State.reset : State := {}

end Sys2Proof.Machine
end

