-- ==== Sys2Proof/Machine/Ops.lean ====
section
/-! DEFINITION. The named operations over the state: reading and changing one indexed object, register and profile fields,
clocks, free values, and what leaves the device. -/

namespace Sys2Proof.Machine

/-- What a step answers. -/
abbrev Outcome := Host.Outcome State Fault Refusal
/-- What a command does to the device. -/
abbrev Result := Host.Outcome Dev Fault Refusal

/-- A command acts on the device; the queue of waiting commands stays as it is. -/
def State.on (s : State) (f : Dev → Result) : Outcome :=
  match f s.dev with
  | .next d => .next { s with dev := d }
  | .fault x => .fault x
  | .refused x => .refused x

/-! ### Indexed objects -/

def Dev.cell (s : Dev) (c : Nat) : Cell := Sparse.get (fun _ => {}) s.cells c
def Dev.setCell (s : Dev) (c : Nat) (v : Cell) : Dev := { s with cells := Sparse.set (fun _ => {}) s.cells c v }
def Dev.modCell (s : Dev) (c : Nat) (f : Cell → Cell) : Dev := s.setCell c (f (s.cell c))

def Dev.block (s : Dev) (b : Nat) : Block := Sparse.get (fun _ => {}) s.blocks b
def Dev.setBlock (s : Dev) (b : Nat) (v : Block) : Dev := { s with blocks := Sparse.set (fun _ => {}) s.blocks b v }
def Dev.modBlock (s : Dev) (b : Nat) (f : Block → Block) : Dev := s.setBlock b (f (s.block b))

def Dev.region (s : Dev) (g : Nat) : Region := Sparse.get (fun _ => {}) s.regions g
def Dev.setRegion (s : Dev) (g : Nat) (v : Region) : Dev :=
  { s with regions := Sparse.set (fun _ => {}) s.regions g v }
def Dev.modRegion (s : Dev) (g : Nat) (f : Region → Region) : Dev := s.setRegion g (f (s.region g))

def Dev.barge (s : Dev) (e : Nat) : Barge := Sparse.get (fun _ => {}) s.barges e
def Dev.setBarge (s : Dev) (e : Nat) (v : Barge) : Dev := { s with barges := Sparse.set (fun _ => {}) s.barges e v }
def Dev.modBarge (s : Dev) (e : Nat) (f : Barge → Barge) : Dev := s.setBarge e (f (s.barge e))

def Dev.coll (s : Dev) (k : Nat) : Coll := Sparse.get (fun _ => {}) s.colls k
def Dev.setColl (s : Dev) (k : Nat) (v : Coll) : Dev := { s with colls := Sparse.set (fun _ => {}) s.colls k v }
def Dev.modColl (s : Dev) (k : Nat) (f : Coll → Coll) : Dev := s.setColl k (f (s.coll k))

/-- The region of a cell (R1). -/
def regionOf (c : Nat) : Nat := c / 64
/-- The block of a cell (R1). -/
def blockOf (c : Nat) : Nat := c / 8

/-! ### Registers -/

/-- The value in effect of a register word (R5). -/
def Dev.reg (s : Dev) (off : Nat) : Word := Sparse.get RegMap.reset s.regs off
def Dev.setReg (s : Dev) (off : Nat) (v : Word) : Dev := { s with regs := Sparse.set RegMap.reset s.regs off v }
/-- A field of a register word. -/
def Dev.rf (s : Dev) (off lo len : Nat) : Nat := Bits.fld (s.reg off) lo len
/-- A bit of a register word. -/
def Dev.rb (s : Dev) (off i : Nat) : Bool := Bits.bit (s.reg off) i
/-- Replace a field of a register word. -/
def Dev.putReg (s : Dev) (off lo len v : Nat) : Dev := s.setReg off (Bits.put (s.reg off) lo len v)

/-- Hold the class S bits of a register write pending (R4, R5): a later write replaces the earlier bits. -/
def Dev.pendReg (s : Dev) (off : Nat) (v mask : Word) : Dev :=
  let old := Sparse.get (fun _ => (0, 0)) s.regsPend off
  { s with regsPend := Sparse.set (fun _ => (0, 0)) s.regsPend off (Bits.merge old.1 v mask, old.2 ||| mask) }

/-- The commit point of one register word: its pending bits take effect (R5). -/
def Dev.commitReg (s : Dev) (off : Nat) : Dev :=
  let p := Sparse.get (fun _ => (0, 0)) s.regsPend off
  let s := s.setReg off (Bits.merge (s.reg off) p.1 p.2)
  { s with regsPend := Sparse.erase s.regsPend off }

/-! ### Channel profiles (R92, R93) -/

/-- Word `w` of the profile in effect of cell `c`. -/
def Dev.pword (s : Dev) (c w : Nat) : Word := Sparse.get (fun k => RegMap.profReset (k % 64)) s.prof (64 * c + w)
def Dev.setPword (s : Dev) (c w : Nat) (v : Word) : Dev :=
  { s with prof := Sparse.set (fun k => RegMap.profReset (k % 64)) s.prof (64 * c + w) v }
/-- A field of the profile in effect: byte offset of the word, lowest bit, length (Table 3-9). -/
def Dev.pf (s : Dev) (c byte lo len : Nat) : Nat := Bits.fld (s.pword c (byte / 4)) lo len
def Dev.pb (s : Dev) (c byte i : Nat) : Bool := Bits.bit (s.pword c (byte / 4)) i

/-- The pending class S bits of a profile word and their mask. -/
def Dev.ppend (s : Dev) (c w : Nat) : Word × Word := Sparse.get (fun _ => (0, 0)) s.profPend (64 * c + w)

def Dev.pendPword (s : Dev) (c w : Nat) (v mask : Word) : Dev :=
  let old := s.ppend c w
  { s with profPend := Sparse.set (fun _ => (0, 0)) s.profPend (64 * c + w) (Bits.merge old.1 v mask, old.2 ||| mask) }

/-- Apply a list of pending (key, (value, mask)) entries to the profile words in effect. -/
def Prof.apply (prof : Sparse Word) : Sparse (Word × Word) → Sparse Word
  | [] => prof
  | (k, p) :: m =>
    Prof.apply (Sparse.modify (fun k => RegMap.profReset (k % 64)) prof k (fun w => Bits.merge w p.1 p.2)) m

/-- The pending entries of cell `c`. -/
def Dev.profMine (s : Dev) (c : Nat) : Sparse (Word × Word) := s.profPend.filter (fun p => p.1 / 64 == c)

/-- The commit point of a cell's profile (R93): every pending value takes effect together (R5). New filter values fill the
filter histories of the cell with the current output (R121); mode fields are live, so they do not commit here. -/
def Dev.commitProf (s : Dev) (c : Nat) : Dev :=
  let mine := s.profMine c
  let newFilt := mine.any (fun p => p.1 % 64 == 20)
  let s := { s with prof := Prof.apply s.prof mine, profPend := s.profPend.filter (fun p => p.1 / 64 != c) }
  if newFilt then
    let n := max 1 (s.pf c 0x50 20 4)
    s.modCell c (fun x => { x with
      ilo := { x.ilo with hist := List.replicate n x.ilo.out }
      ihi := { x.ihi with hist := List.replicate n x.ihi.out }
      isc := { x.isc with hist := List.replicate n x.isc.out } })
  else s

/-! ### Clocks and free values -/

/-- The island replica of region `g`, in timebase nanoseconds (R189). -/
def Dev.rtime (s : Dev) (g : Nat) : Nat := Bits.ofInt 64 ((s.tbTime : Int) + (s.region g).replicaOff)
/-- Elapsed time in nanoseconds, which no step of the timebase changes (R180). -/
def Dev.elapsed (s : Dev) : Nat := s.ticks * 4
/-- Elapsed core clock cycles at 400 MHz: 8 in 5 timebase ticks of 4 ns, none in STANDBY (Table 18-5). -/
def Dev.coreCycles (s : Dev) : Nat := (s.ticks - s.pwr.stopped) * 8 / 5

/-- Draw the next free value as a number (log 2). -/
def Dev.drawNat (s : Dev) : Nat × Dev := (Config.freeNat s.freeCount, { s with freeCount := s.freeCount + 1 })
/-- Draw the next free value as a word (log 2). -/
def Dev.drawWord (s : Dev) : Word × Dev := (Config.freeWord s.freeCount, { s with freeCount := s.freeCount + 1 })

/-! ### What leaves the device -/

def Dev.emit (s : Dev) (o : Out) : Dev := { s with out := s.out ++ [o] }

/-- Run one operation for every element of a list, in order. -/
def Dev.forEach {α : Type} (l : List α) (f : Dev → α → Dev) (s : Dev) : Dev := l.foldl f s

/-! ### Autonomy of a region -/

/-- The region behaves as autonomous: from its loss, or its island reset, until it rejoins (R23, R414).
Log 48 (DEDUCED, unsafe). -/
def Dev.auto (s : Dev) (g : Nat) : Bool := !(s.region g).rejoined

/-- The strait carries words both ways. -/
def Dev.straitUp (s : Dev) (g : Nat) : Bool := (s.region g).linkUp && !(s.region g).islandLost

/-! ### Events (R262, R472) -/

/-- An event raised on the central die: it goes to the host port. -/
def Dev.raise (s : Dev) (e : Event) : Dev := { s with evq := s.evq ++ [e] }

/-- An event raised in island `g`. While the region is autonomous the events of R472 are held, up to 512, and counted beyond;
every other event is not raised. -/
def Dev.raiseIsland (s : Dev) (g : Nat) (hold : Bool) (e : Event) : Dev :=
  if s.auto g then
    if hold then
      s.modRegion g (fun r =>
        if r.evHold.length < 512 then { r with evHold := r.evHold ++ [e] }
        else { r with evHoldLost := Bits.satAdd 65535 r.evHoldLost 1 })
    else s
  else s.raise e

/-- An event whose object is cell `c`: stream 0x40 + block (Table 11-13). -/
def Event.ofCell (c code : Nat) (flag : Bool) (payload : List Word) : Event :=
  { stream := 0x40 + c / 8, code := code, obj := c, flag := flag, payload := payload }

/-! ### Completions -/

/-- A completion is ready for its ring (R258). -/
def Dev.complete (s : Dev) (k : Completion) : Dev := { s with complq := s.complq ++ [k] }

/-- A held CH_ON of cell `c` is decided (R107): its own completion, or its lane of a block command (R279).
Log 46 (DEDUCED, unsafe). -/
def Dev.decideHeld (s : Dev) (c : Nat) (bad : Bool) (cmd : Nat × Nat) : Dev :=
  match s.laneWaits.find? (fun w => w.ring == cmd.1 && w.cmdId == cmd.2) with
  | none => s.complete { cmdRing := cmd.1, cmdId := cmd.2, opcode := 0x0102, status := if bad then 0x0011 else 0 }
  | some w =>
    let bit := 1 <<< (c % 8)
    let w' := { w with
      held := w.held &&& (255 ^^^ bit), ok := if bad then w.ok else w.ok ||| bit, bad := if bad then w.bad ||| bit else w.bad }
    let rest := s.laneWaits.filter (fun v => v != w)
    if w'.held = 0 then
      ({ s with laneWaits := rest }).complete
        { cmdRing := w.ring, cmdId := w.cmdId, opcode := w.opcode, status := 0, r0 := BitVec.ofNat 32 (w'.ok + w'.bad * 256) }
    else { s with laneWaits := rest ++ [w'] }

/-- Every command that waits for the held CH_ON of cell `c` is answered. -/
def Dev.endHeldOn (s : Dev) (c : Nat) (bad : Bool) : Dev :=
  let l := (s.cell c).heldCmds
  let s := s.modCell c (fun x => { x with heldOn := false, heldCmds := [] })
  s.forEach l (fun s k => s.decideHeld c bad k)

/-! ### Barge interrupt sources (R224, Table 10-1) -/

/-- Source `n` of barge `e` becomes pending. -/
def Dev.irq (s : Dev) (e n : Nat) : Dev :=
  s.modBarge e (fun k => { k with pend := k.pend ||| (1#64 <<< n) })

/-- A source delivered to every barge of region `g`. -/
def Dev.irqRegion (s : Dev) (g n : Nat) : Dev := s.forEach (List.range 8) (fun s i => s.irq (8 * g + i) n)

/-- A source delivered to all barges. -/
def Dev.irqAll (s : Dev) (n : Nat) : Dev := s.forEach (List.range 64) (fun s e => s.irq e n)

/-- A source of island `g` for barge `e`: not raised while the strait is lost (R131, Table 10-1). -/
def Dev.irqIsland (s : Dev) (g e n : Nat) : Dev := if s.straitUp g then s.irq e n else s

/-! ### Codes of enumerations -/

/-- Dev codes, Table 3-1. -/
def CellState.code : CellState → Nat
  | .disabled => 0 | .off => 1 | .probe => 2 | .precheck => 3 | .waitGrant => 4 | .inrush => 5
  | .on => 6 | .limit => 7 | .tripped => 8 | .cooldown => 9 | .latched => 10 | .safe => 11

/-- HOLDER codes, Table 3-4. -/
def Holder.code : Holder → Nat
  | .commandedOff => 0 | .commandedOn => 1 | .dvdt => 2 | .currentLimit => 3 | .powerLimit => 4 | .soa => 5
  | .trip => 6 | .safeOrSupply => 7

/-- Comparator mode codes, Table 5-3. -/
def CmpMode.ofCode : Nat → CmpMode
  | 0 => .fast | 1 => .medium | 2 => .low | _ => .off

def CmpMode.code : CmpMode → Nat
  | .fast => 0 | .medium => 1 | .low => 2 | .off => 3

/-- The probe result record as four words (Table 2-5a). -/
def ProbeRec.words (r : ProbeRec) : List Word :=
  [BitVec.ofNat 32 r.rMohm, BitVec.ofNat 32 r.cNf,
   BitVec.ofNat 32 (r.v0 % 65536 + Bits.b2n r.clamped * 2 ^ 16 + Bits.b2n r.lowSignal * 2 ^ 17 +
     Bits.b2n r.startHigh * 2 ^ 18 + Bits.b2n r.aborted * 2 ^ 19 + r.code % 8 * 2 ^ 24),
   BitVec.ofNat 32 r.tc]

/-- The trip record as six words (Table 4-2). -/
def TripRec.words (r : TripRec) : List Word :=
  Bits.words2 r.time ++
  [BitVec.ofNat 32 (r.cell % 512 + r.stateAt % 16 * 2 ^ 12 + r.primary % 32 * 2 ^ 16 + r.cls % 8 * 2 ^ 21 +
     r.holder % 8 * 2 ^ 24 + Bits.b2n r.autonomous * 2 ^ 27),
   BitVec.ofNat 32 (r.secondary % 65536 + r.retryCount % 256 * 2 ^ 16 + r.classCount % 256 * 2 ^ 24),
   BitVec.ofNat 32 (r.iSample % 65536 + r.outMv % 65536 * 2 ^ 16),
   BitVec.ofNat 32 (r.vinMv % 65536 + r.tjEst % 65536 * 2 ^ 16)]

end Sys2Proof.Machine
end

