-- ==== Sys2Proof/Machine/Lanes.lean ====
section
/-! DEFINITION. The lane of a cell on the conversion paths (spec/06): access to its records, restarts of its modulators (R134,
R138), the abort of an integrating window (R147), and low-power gating (R151, R152). -/

namespace Sys2Proof.Machine

def Dev.lane (s : Dev) (c : Nat) : Lane := Sparse.get (fun _ => {}) s.lanes c
def Dev.setLane (s : Dev) (c : Nat) (v : Lane) : Dev := { s with lanes := Sparse.set (fun _ => {}) s.lanes c v }
def Dev.modLane (s : Dev) (c : Nat) (f : Lane → Lane) : Dev := s.setLane c (f (s.lane c))

def Dev.conv (s : Dev) (b : Nat) : Conv := Sparse.get (fun _ => {}) s.convs b
def Dev.setConv (s : Dev) (b : Nat) (v : Conv) : Dev := { s with convs := Sparse.set (fun _ => {}) s.convs b v }
def Dev.modConv (s : Dev) (b : Nat) (f : Conv → Conv) : Dev := s.setConv b (f (s.conv b))

def Dev.aux (s : Dev) (g : Nat) : Aux := Sparse.get (fun _ => {}) s.auxs g
def Dev.setAux (s : Dev) (g : Nat) (v : Aux) : Dev := { s with auxs := Sparse.set (fun _ => {}) s.auxs g v }
def Dev.modAux (s : Dev) (g : Nat) (f : Aux → Aux) : Dev := s.setAux g (f (s.aux g))

/-- Plausibility refuses precheck and retry of the block (R172). -/
def Dev.plausOk (s : Dev) (b : Nat) : Bool :=
  !(s.rb (RegMap.plausCfg (b / 8)) 1 && Bits.nbit (s.aux (b / 8)).fail (b % 8))

/-- Some bits of a register word reach their commit point (R5); the others stay pending. -/
def Dev.commitBits (s : Dev) (off : Nat) (mask : Word) : Dev :=
  let p := Sparse.get (fun _ => (0, 0)) s.regsPend off
  let s := s.setReg off (Bits.merge (s.reg off) p.1 (p.2 &&& mask))
  { s with regsPend := Sparse.set (fun _ => (0, 0)) s.regsPend off (p.1 &&& ~~~ mask, p.2 &&& ~~~ mask) }

/-- Bits of RGN_CONV_CFG that belong to the integrating path (R139, R148). -/
def Conv.winBits : Word := 0x00FFFFF0

/-- The integrating path is on (WIN_MODE not 3, R144). -/
def Conv.winOn (cfg : Word) : Bool := decide (Bits.fld cfg 4 2 ≠ 3)

/-- A window that starts at `t` under a configuration; the averaging group goes on only if it is given. -/
def Window.begin (t : Nat) (cfg : Word) (n : Nat) (iSum vSum : Int) : Window :=
  { running := Conv.winOn cfg, start := t, cfg := cfg, n := n, iSum := iSum, vSum := vSum }

/-- The record of an aborted window (R147): averages stay as they are. -/
def IntRec.abort (r : IntRec) (t clocks : Nat) : IntRec :=
  { r with endTime := t, winSeq := (r.winSeq + 1) % 2 ^ 32, clocks := clocks, aborted := true, iOvr := false
           vOvr := false, avgNew := false, iVal := 0, vVal := 0 }

/-- Abort the window of cell `c` with the clocks counted so far and start another, or none (R147, R152). The averaging group
and the span in progress lose what they had formed (R147, R165). Log 58 (DESIGN CHOICE, safe). -/
def Dev.abortWindow (s : Dev) (c clocks : Nat) (again : Bool) : Dev :=
  let t := s.rtime (c / 64)
  let cfg := s.reg (RegMap.convCfg (c / 8))
  s.modLane c (fun l =>
    if l.win.running then
      let w := Window.begin t cfg 0 0 0
      { l with
        rcd := l.rcd.abort t clocks
        win := { w with running := w.running && again }
        abortSeen := true
        span := { start := t, fwd0 := l.eFwd, rev0 := l.eRev } }
    else if again then { l with win := Window.begin t cfg 0 0 0, span := { start := t, fwd0 := l.eFwd, rev0 := l.eRev } }
    else l)

/-- Abort the window of VIN of block `b` and start another (R147). -/
def Dev.abortVin (s : Dev) (b clocks : Nat) : Dev :=
  let t := s.rtime (b / 8)
  let w := Window.begin t (s.reg (RegMap.convCfg b)) 0 0 0
  s.modConv b (fun k =>
    { k with vinRec := if k.vinWin.running then k.vinRec.abort t clocks else k.vinRec, vinWin := w })

/-- A modulator of a running lane is restarted (R134): its filters wait for a reset, its window is aborted. -/
def Dev.restartLane (s : Dev) (c clocks : Nat) : Dev :=
  (s.abortWindow c clocks true).modLane c (fun l => { l with resetPend := true })

/-- The lane stops (R152). -/
def Dev.stopLane (s : Dev) (c clocks : Nat) : Dev :=
  if (s.lane c).stopped then s
  else (s.abortWindow c clocks false).modLane c (fun l =>
    { l with stopped := true, settle := 3, resetPend := false, fresh := false, gap := true })

/-- A stopped lane runs again (R151): it reads as stopped until its filters have been reset. -/
def Dev.startLane (s : Dev) (c : Nat) : Dev :=
  if (s.lane c).stopped && !(s.lane c).resetPend then
    (s.abortWindow c 0 true).modLane c (fun l => { l with settle := 3, resetPend := true })
  else s

/-- Gating stops the lane in the cell's state, pulses apart (R151). -/
def Dev.gated (s : Dev) (c : Nat) : Bool :=
  match s.rf (RegMap.convCfg (c / 8)) 2 2, (s.cell c).state with
  | 0, _ => false
  | _, .disabled => true
  | 1, _ => false
  | _, .off | _, .probe => !(s.lane c).forPulse
  | _, _ => false

/-- Stop or start the lane as gating asks (R151). `clocks` are those its window had counted. -/
def Dev.gateLane (s : Dev) (c clocks : Nat) : Dev :=
  if s.gated c then s.stopLane c clocks else s.startLane c

end Sys2Proof.Machine
end

