-- ==== Sys2Proof/Machine/Slices.lean ====
section
/-! DEFINITION. Converter slices (spec/14): the switching period, minimum pulses, cuts, soft start and stop, the feedback path
and the control-word watchdog. -/

namespace Sys2Proof.Machine

def Dev.slice (s : Dev) (k : Nat) : Slice := Sparse.get (fun _ => {}) s.slices k
def Dev.setSlice (s : Dev) (k : Nat) (v : Slice) : Dev := { s with slices := Sparse.set (fun _ => {}) s.slices k v }
def Dev.modSlice (s : Dev) (k : Nat) (f : Slice → Slice) : Dev := s.setSlice k (f (s.slice k))

/-! ### Codes and settings (Tables 14-3 and 14-6, R313, R334) -/

def SliceState.code : SliceState → Nat
  | .off => 0 | .softStart => 1 | .run => 2 | .softStop => 3

/-- The soft states, in which LS stays low (Table 14-3). -/
def SliceState.soft : SliceState → Bool
  | .softStart | .softStop => true
  | _ => false

def Cs.tOnMin : Nat := 103
def Cs.tOffMin : Nat := 154
def Cs.tLsMin : Nat := 103

/-- A field limited to its range. -/
def Cs.clamp (lo hi v : Nat) : Nat := max lo (min hi v)

def Dev.csCfg (s : Dev) (k i : Nat) : Bool := s.rb (RegMap.cs k 0x04) i
/-- CARRIER COFF. -/
def Dev.csCoff (s : Dev) (k : Nat) : Bool := s.csCfg k 0
/-- CTRL_KIND CURRENT. -/
def Dev.csCurrent (s : Dev) (k : Nat) : Bool := s.csCfg k 1
def Dev.csDtLh (s : Dev) (k : Nat) : Nat := Cs.clamp 0 512 (s.rf (RegMap.cs k 0x08) 0 10)
def Dev.csDtHl (s : Dev) (k : Nat) : Nat := Cs.clamp 0 512 (s.rf (RegMap.cs k 0x08) 10 10)
def Dev.csTon (s : Dev) (k : Nat) : Nat := Cs.clamp 103 12800 (s.rf (RegMap.cs k 0x0C) 0 16)
def Dev.csTonMax (s : Dev) (k : Nat) : Nat := Cs.clamp 103 12800 (s.rf (RegMap.cs k 0x0C) 16 16)
def Dev.csToff (s : Dev) (k : Nat) : Nat := Cs.clamp 154 12800 (s.rf (RegMap.cs k 0x10) 0 16)
def Dev.csSp (s : Dev) (k : Nat) : Nat := s.rf (RegMap.cs k 0x2C) 0 16
def Dev.csEn (s : Dev) (k : Nat) : Bool := s.rb (RegMap.cs k 0x00) 0

/-- Events of a slice (R335): not raised while the strait is lost; the source 28 + (k & 3) of the region's barges. -/
def Dev.sliceEvent (s : Dev) (k code : Nat) (flag : Bool) (payload : List Word) : Dev :=
  let g := k / 4
  if s.straitUp g then
    (s.raiseIsland g false { stream := 0x80 + g, code := code, obj := k, flag := flag,
                             payload := Bits.words2 (s.rtime g) ++ payload }).irqRegion g (28 + k % 4)
  else s

/-- EV_SLICE_STATE on a change of state. -/
def Dev.sliceGoto (s : Dev) (k : Nat) (st : SliceState) (cause : Nat) : Dev :=
  let x := s.slice k
  if x.state = st then s
  else
    let s := s.setSlice k { x with state := st, entered := s.rtime (k / 4) }
    s.sliceEvent k 0x181 false [BitVec.ofNat 32 (st.code + x.state.code * 8 + cause * 256)]

/-- The class S registers of a slice other than CS_SHD (R323). -/
def Cs.classS : List Nat := [0x08, 0x0C, 0x10, 0x14, 0x18, 0x1C, 0x2C]

/-- Commit every class S field (a slice that is OFF takes them at once, R323). -/
def Dev.commitCs (s : Dev) (k : Nat) : Dev :=
  s.forEach Cs.classS (fun s o => s.commitReg (RegMap.cs k o))

/-! ### Cuts (R324, R325) -/

/-- A cut is due: the fault input, or FB_OV. -/
def Slice.cutDue (x : Slice) : Bool := x.fault || x.fbOv

/-- EV_SLICE_CUT. -/
def Dev.cutEvent (s : Dev) (k : Nat) (begins : Bool) : Dev :=
  let x := s.slice k
  s.sliceEvent k 0x182 begins
    [BitVec.ofNat 32 (Bits.b2n x.fault + Bits.b2n x.fbOv * 2), BitVec.ofNat 32 (if begins then 0 else x.cutPeriods)]

/-- The cut state after a change of its causes: a cut begins at once; it ends at the next edge, or at once while OFF. -/
def Dev.cutUpdate (s : Dev) (k : Nat) : Dev :=
  let x := s.slice k
  if x.cutDue && !x.cut then
    (s.setSlice k { x with cut := true, cutPeriods := 0, faultSeen := true, hs := false, ls := false }).cutEvent k true
  else if x.cut && !x.cutDue && decide (x.state = .off) then
    ({ s with slices := Sparse.set (fun _ => {}) s.slices k { x with cut := false } }).cutEvent k false
  else s

/-! ### OFF, soft stop and LOSS_ACTION (R327, R332) -/

/-- KILL: both outputs low, OFF, EN cleared. -/
def Dev.killSlice (s : Dev) (k cause : Nat) : Dev :=
  let s := s.modSlice k (fun x => { x with hs := false, ls := false, phase := .rest })
  let s := s.putReg (RegMap.cs k 0x00) 0 1 0
  let s := ((s.sliceGoto k .off cause).commitCs k).commitReg (RegMap.cs k 0x28)
  s.cutUpdate k

/-- Soft stop from SOFT_START or RUN (R327). -/
def Dev.softStop (s : Dev) (k cause : Nat) : Dev :=
  let x := s.slice k
  match x.state with
  | .run => (s.setSlice k { x with tonLim := s.csTonMax k, tonLim0 := s.csTonMax k, ls := false }).sliceGoto k .softStop cause
  | .softStart => (s.setSlice k { x with tonLim0 := x.tonLim }).sliceGoto k .softStop cause
  | _ => s

/-- LOSS_ACTION (R332). Log 42 (DEDUCED, unsafe); log 112 (DEDUCED, unsafe). -/
def Dev.lossAction (s : Dev) (k cause : Nat) : Dev :=
  match s.rf (RegMap.cs k 0x04) 8 2 with
  | 0 => s
  | 2 => s.killSlice k cause
  | _ => s.softStop k cause

/-- R332: the island end declares its strait lost. -/
def Dev.slicesLost (s : Dev) (g : Nat) : Dev :=
  s.forEach (List.range 4) (fun s i =>
    let k := 4 * g + i
    (s.lossAction k 3).modSlice k (fun x => { x with lossApplied := true }))

/-- The slices of a region go OFF as KILL does (R327, Table 17-1 R). -/
def Dev.killSlices (s : Dev) (g : Nat) : Dev := s.forEach (List.range 4) (fun s i => s.killSlice (4 * g + i) 4)

/-! ### The period edge (R315 to R323, R326, R327) -/

/-- TON_LIM `us` after entry to the state (R326, R327). Log 109 (DEDUCED, unsafe). -/
def Dev.tonLimAt (s : Dev) (k us : Nat) : Nat :=
  let x := s.slice k
  let span := s.csTonMax k - Cs.tOnMin
  match x.state with
  | .softStart => Cs.tOnMin + span * us / max 1 x.ssUs
  | .softStop => max Cs.tOnMin (x.tonLim0 - span * us / max 1 x.ssUs)
  | _ => s.csTonMax k

/-- The on interval asked for at the edge, before the limits; none where CS[k] decides it (Table 14-2, R318). -/
def Dev.tonAsked (s : Dev) (k : Nat) : Option Nat :=
  if s.csCoff k then (if s.csCurrent k then none else some (s.rf (RegMap.cs k 0x28) 0 16))
  else if s.csCfg k 2 then
    let vin := max 1000 (s.block (8 * (k / 4) + s.rf (RegMap.cs k 0x04) 10 3)).vinMv
    some (s.rf (RegMap.cs k 0x1C) 0 24 * s.csSp k / (vin * 256))
  else some (s.csTon k)

/-- The low-side pulse would be shorter than T_LS_MIN (R320); a valley decides it in COT CURRENT.
Log 110 (UNVERIFIED, unsafe). -/
def Dev.lsShort (s : Dev) (k : Nat) : Bool :=
  let off := if s.csCoff k then some (max (s.csToff k) (s.csDtLh k))
    else if s.csCurrent k then none else some (max (max (s.rf (RegMap.cs k 0x28) 0 16) Cs.tOffMin) (s.csDtLh k))
  match off with
  | some t => decide (t < Cs.tLsMin + s.csDtHl k + s.csDtLh k)
  | none => false

/-- PULSE_SKIP and the skip run after a period whose HS pulse is skipped or stretched (`short`) or whose LS pulse is omitted;
EV_SLICE_SKIP_RUN when a run reaches SKIP_RUN_N (R321). Log 111 (DEDUCED, unsafe). -/
def Dev.skipCount (s : Dev) (k : Nat) (short omitted : Bool) : Dev :=
  let x := s.slice k
  let x := if (short || omitted) && !x.counted then { x with pulseSkip := Bits.satAdd 65535 x.pulseSkip 1, counted := true } else x
  let n := s.rf (RegMap.cs k 0x04) 16 8
  if !short then s.setSlice k { x with skipRun := 0, skipRaised := false }
  else
    let run := Bits.satAdd 65535 x.skipRun 1
    let raise := decide (n ≠ 0) && decide (run = n) && !x.skipRaised
    let s := s.setSlice k { x with skipRun := run, skipRaised := x.skipRaised || raise }
    if raise then s.sliceEvent k 0x180 false [BitVec.ofNat 32 (run + Bits.b2n (s.csCfg k 4) * 2 ^ 16)] else s

/-- With FAULT_SS, a cut that has ended and covered a whole period is followed by a soft start (R325). -/
def Dev.restarts (s : Dev) (k : Nat) : Bool :=
  let x := s.slice k
  x.cut && !x.cutDue && decide (1 ≤ x.cutPeriods) && s.csCfg k 7

/-- An on interval whose end was not known at the edge (COFF CURRENT) and that no early crossing ended was a full HS pulse: it ends
the skip run (R321). -/
def Slice.pulseEnd (x : Slice) : Slice :=
  if decide (x.phase = .on) && x.ton.isNone && !x.peakHeld then { x with skipRun := 0, skipRaised := false } else x

/-- The state decisions of an edge: the end of a ramp, and the soft start after a cut with FAULT_SS. -/
def Dev.edgeState (s : Dev) (k us : Nat) : Dev :=
  let x := s.slice k
  let cutOver := x.cut && !x.cutDue
  let again := s.restarts k
  let s := if cutOver then (s.setSlice k { x with cut := false }).cutEvent k false else s
  match x.state with
  | .softStart =>
    if again then s.modSlice k (fun x => { x with entered := s.rtime (k / 4) })
    else if x.ssUs ≤ us then s.sliceGoto k .run 1 else s
  | .run =>
    if again then
      (s.modSlice k (fun x => { x with ssUs := Cs.clamp 10 65535 (s.rf (RegMap.cs k 0x20) 0 16) })).sliceGoto k .softStart 5
    else s
  | .softStop =>
    if x.tonLim ≤ Cs.tOnMin then
      (((s.modSlice k (fun x => { x with hs := false, ls := false, phase := .rest })).sliceGoto k .off 1).commitCs k).cutUpdate k
    else s
  | .off => s

/-- The values a new period takes (R322): commits, on interval, skip and omission, cut count. -/
def Dev.edgeLatch (s : Dev) (k us : Nat) : Dev :=
  let x := s.slice k
  let s := s.commitReg (RegMap.cs k 0x28)
  let s := if !s.csCfg k 6 || x.lockNamed then s.commitCs k else s
  let lim := s.tonLimAt k us
  let top := min (s.csTonMax k) lim
  let asked := s.tonAsked k
  let on := asked.map (fun t => min t top)
  let short := match on with
    | some t => decide (t < Cs.tOnMin)
    | none => false
  let stretch := s.csCfg k 4
  let omitted := decide (x.state = .run) && s.csCfg k 3 && s.lsShort k
  let limited := match asked with
    | some t => decide (top < t)
    | none => false
  let s := s.modSlice k (fun x => { x with
    phase := .deadHigh, lockNamed := false, edgeAsked := false, peakHeld := false, counted := false
    tonLim := lim, ctrl := s.rf (RegMap.cs k 0x28) 0 16, sp := s.csSp k
    ton := on.map (fun t => max t Cs.tOnMin), skip := short && !stretch, lsOmit := omitted, limited := limited })
  if (s.slice k).cut then
    s.modSlice k (fun x => { x with cutCount := Bits.satAdd 65535 x.cutCount 1, cutPeriods := Bits.satAdd (2 ^ 32 - 1) x.cutPeriods 1 })
  else if on.isNone then (if omitted then s.skipCount k false true else s)
  else s.skipCount k short omitted

/-- A period edge (R322): LS falls, an on interval still running ends, the states and then the values of the new period. -/
def Dev.periodEdge (s : Dev) (k us : Nat) : Dev :=
  if (s.slice k).state = .off then s
  else
    let s := s.modSlice k (fun x => { x.pulseEnd with hs := false, ls := false })
    let before := (s.slice k).state
    let again := s.restarts k && decide (before = .softStart)
    let s := s.edgeState k us
    let x := s.slice k
    if x.state = .off then s else s.edgeLatch k (if x.state = before ∧ again = false then us else 0)

/-- R322: the edge a timer makes, or one that waited for PER_MIN. In COT CURRENT only a valley asks for one (Table 14-2).
Log 108 (DEDUCED, unsafe). -/
def execPeriodEdge (k : SliceIx) (us : Word) (s : State) : Outcome := s.on fun s =>
  let x := s.slice k
  if !s.csCoff k && s.csCurrent k && !x.edgeAsked && decide (x.phase ≠ .rest) then .next s
  else .next (s.periodEdge k us.toNat)

/-- R317: a forced edge. -/
def execPerMaxEdge (k : SliceIx) (us : Word) (s : State) : Outcome := s.on fun s =>
  if (s.slice k).state = .off then .next s
  else .next ((s.modSlice k (fun x => { x with perForced := true })).periodEdge k us.toNat)

/-- The outputs of the slice may be driven: island running, its watchdog quiet (R312, R333). -/
def Dev.slicePower (s : Dev) (k : Nat) : Bool := (s.region (k / 4)).islandRun && !(s.region (k / 4)).clkFail

/-- R315. -/
def execHsRise (k : SliceIx) (s : State) : Outcome := s.on fun s =>
  let x := s.slice k
  if x.phase ≠ .deadHigh then .next s
  else .next (s.setSlice k { x with phase := .on, hs := s.slicePower k && !x.skip && !x.cut && !x.ls })

/-- R315: the on interval ends at T_ON, TON_MAX, the soft-start limit, or at T_ON_MIN after an early crossing. -/
def execOnIntervalEnd (k : SliceIx) (s : State) : Outcome := s.on fun s =>
  let x := s.slice k
  if x.phase ≠ .on then .next s
  else .next (s.setSlice k { x.pulseEnd with
    phase := .deadLow, hs := false, limited := x.limited || (x.ton.isNone && !x.peakHeld) })

/-- R320, R314: LS rises in RUN with SYNC, unless omitted or cut. -/
def execLsRise (k : SliceIx) (s : State) : Outcome := s.on fun s =>
  let x := s.slice k
  if x.phase ≠ .deadLow then .next s
  else .next (s.setSlice k { x with
    phase := .low
    ls := s.slicePower k && decide (x.state = .run) && s.csCfg k 3 && !x.lsOmit && !x.cut && !x.hs })

/-- R316: a PEAK crossing after blanking; `early` when T_ON_MIN or LEB still runs, so that the interval ends there. -/
def execPeakCrossing (k : SliceIx) (early : Bool) (s : State) : Outcome := s.on fun s =>
  let x := s.slice k
  if x.phase ≠ .on then .next s
  else
    let x := if early then { x with peakHeld := true } else { x with phase := .deadLow, hs := false }
    if s.csCoff k && s.csCurrent k then .next ((s.setSlice k x).skipCount k early false)
    else .next (s.setSlice k { x with ilim := Bits.satAdd 65535 x.ilim 1 })

/-- R316: a VALLEY crossing after blanking; `early` when PER_MIN has not passed (R317). -/
def execValleyCrossing (k : SliceIx) (us : Word) (early : Bool) (s : State) : Outcome := s.on fun s =>
  let x := s.slice k
  if x.phase ≠ .deadLow ∧ x.phase ≠ .low then .next s
  else if !s.csCoff k && s.csCurrent k then
    if early then .next (s.setSlice k { x with edgeAsked := true }) else .next (s.periodEdge k us.toNat)
  else if s.csCfg k 5 ∧ x.phase = .low then .next (s.setSlice k { x with ls := false })
  else .next s

/-- R324: the fault input follows the trip routing matrix (R97). -/
def Dev.sliceFault (s : Dev) (k : Nat) (level : Bool) : Dev :=
  (s.modSlice k (fun x => { x with fault := level })).cutUpdate k

/-! ### Feedback (R328, R329) -/

/-- A sample of the feedback filter, after factory trim. Log 113 (DEDUCED, unsafe). -/
def execFbSample (k : SliceIx) (v : BitVec 16) (s : State) : Outcome := s.on fun s =>
  let g := k.val / 4
  let x := s.slice k
  if !(s.region g).islandRun then .next s
  else if 0 < x.fbSettle then .next (s.setSlice k { x with fbSettle := x.fbSettle - 1 })
  else
    let w := RegMap.cs k 0x24
    let ov := s.rf w 0 16
    let sp := s.csSp k
    let s := s.setSlice k { x with
      fb := v.toNat
      fbOv := decide (ov ≠ 0xFFFF) && decide (min 65535 (sp + ov) < v.toNat)
      pgood := decide (sp ≤ v.toNat + s.rf w 16 16), samples := (x.samples + 1) % 256 }
    let s := s.cutUpdate k
    let y := s.slice k
    if s.rb (RegMap.cs k 0x30) 0 && s.straitUp g then
      let flags := y.sp + Bits.b2n y.state.soft * 2 ^ 16 + Bits.b2n y.cut * 2 ^ 17 + Bits.b2n y.limited * 2 ^ 18 +
        x.samples % 256 * 2 ^ 24
      .next { s with sliceQ := s.sliceQ ++ [{ slice := k.val, fb := v.toNat, flags := flags, time := s.rtime g }] }
    else .next s

/-! ### Control words, start and stop -/

/-- R322, R332: a control word at CS_SHD; at once while the slice is OFF. -/
def Dev.controlWord (s : Dev) (k : Nat) (v : Word) : Dev :=
  let s := s.pendReg (RegMap.cs k 0x28) v 0xFFFF
  if (s.slice k).state = .off then s.commitReg (RegMap.cs k 0x28) else s

def execControlWord (k : SliceIx) (v : Word) (s : State) : Outcome := s.on fun s => .next (s.controlWord k v)

/-- EN 0 to 1 (R326): an OFF slice enters SOFT_START and samples SS_US. -/
def Dev.softStart (s : Dev) (k : Nat) : Dev :=
  if s.csEn k then s
  else
    let s := s.putReg (RegMap.cs k 0x00) 0 1 1
    if (s.slice k).state = .off then
      (s.modSlice k (fun x => { x with
        ssUs := Cs.clamp 10 65535 (s.rf (RegMap.cs k 0x20) 0 16), tonLim := Cs.tOnMin, phase := .rest })).sliceGoto k .softStart 0
    else s

def execSoftStart (k : SliceIx) (s : State) : Outcome := s.on fun s => .next (s.softStart k)

/-- EN 1 to 0 (R327). -/
def Dev.sliceDisable (s : Dev) (k : Nat) : Dev :=
  if s.csEn k then (s.putReg (RegMap.cs k 0x00) 0 1 0).softStop k 0 else s

def execSoftStop (k : SliceIx) (s : State) : Outcome := s.on fun s => .next (s.sliceDisable k)

def execKill (k : SliceIx) (s : State) : Outcome := s.on fun s => .next (s.killSlice k 4)

/-- A SLICE_SETPOINT lock writes the SP shadow and names the slice (R323). -/
def Dev.sliceSetpoint (s : Dev) (k v : Nat) : Dev :=
  let s := s.pendReg (RegMap.cs k 0x2C) (BitVec.ofNat 32 v) 0xFFFF
  if (s.slice k).state = .off then s.commitReg (RegMap.cs k 0x2C)
  else s.modSlice k (fun x => { x with lockNamed := true })

/-- A lock names the slice (R199, R323). -/
def Dev.commitSlice (s : Dev) (k : Nat) : Dev := s.modSlice k (fun x => { x with lockNamed := true })

/-- CS_STAT and CS_CNT (Table 14-6). -/
def Slice.stat (x : Slice) : Word :=
  BitVec.ofNat 32 (x.state.code + Bits.b2n x.cut * 8 + Bits.b2n x.fbOv * 16 + Bits.b2n x.pgood * 32 + Bits.b2n x.limited * 64 +
    Bits.b2n x.wdFired * 128 + Bits.b2n x.lossApplied * 256 + Bits.b2n x.faultSeen * 512 + Bits.b2n x.perForced * 1024 +
    x.pulseSkip % 65536 * 2 ^ 16)
def Slice.cnt (x : Slice) : Word := BitVec.ofNat 32 (x.ilim % 65536 + x.cutCount % 65536 * 2 ^ 16)

/-- The slices of a region at island reset. -/
def Dev.resetSlices (s : Dev) (g : Nat) : Dev :=
  { s with slices := s.slices.filter (fun p => p.1 / 4 != g), sliceQ := s.sliceQ.filter (fun r => r.slice / 4 != g) }

end Sys2Proof.Machine
end

