-- ==== Sys2Proof/Machine/Cells.lean ====
section
/-! DEFINITION. The channel state machine of a cell (spec/03) and its front end (spec/02): one operation takes a cell to
another state with everything that goes with it; the meanings of this family are at the end. -/

namespace Sys2Proof.Machine

/-! ### Messages to the sluice (R25, R77) -/

/-- A message of island `g` to the sluice: held in the island until rejoin while the region is autonomous. -/
def Dev.sendSl (s : Dev) (g : Nat) (m : SlMsg) : Dev :=
  if s.auto g then s.modRegion g (fun r => { r with heldMsgs := r.heldMsgs ++ [m] })
  else { s with slMsgs := s.slMsgs ++ [m] }

/-! ### Trip broadcast (R101) -/

/-- The broadcast bit of a region: a cell with p_link_bcast at its trip holds a trip-line source. -/
def Dev.bcastBit (s : Dev) (g : Nat) : Bool :=
  s.cells.any (fun p => p.1 / 64 == g && (match p.2.src with | some t => t.bcast | none => false))

/-- Send the trip message of a region on both links; a region whose strait is lost sends none (R103). -/
def Dev.sendTrip (s : Dev) (g : Nat) (bit : Bool) : Dev :=
  if s.straitUp g then
    let r := s.region g
    let s := s.emit (.tripMsg [0, 1] s.ringPos g bit s.tripSeq r.bcastCell r.bcastCause r.bcastTime)
    { s with tripSeq := (s.tripSeq + 1) % 65536 }
  else s

/-- Run an operation and send a trip message if it changed the broadcast bit of region `g` (R101). -/
def Dev.withBcast (s : Dev) (g : Nat) (f : Dev → Dev) : Dev :=
  let before := s.bcastBit g
  let s := f s
  let now := s.bcastBit g
  if before = now then s else s.sendTrip g now

/-! ### What a state means for GATE -/

/-- States in which the limiters act and trips are armed (R79, Table 3-5). -/
def CellState.armed : CellState → Bool
  | .inrush | .on | .limit => true
  | _ => false

/-- The hold states of a trip-line source, SAFE apart (R98). -/
def CellState.holds : CellState → Bool
  | .tripped | .cooldown | .latched => true
  | _ => false

/-- The states a policy acts on (R26). -/
def CellState.policyActs : CellState → Bool
  | .precheck | .waitGrant | .inrush | .on | .limit | .tripped | .cooldown => true
  | _ => false

/-- The states in which the probe source may be on (R59). -/
def CellState.probes : CellState → Bool
  | .off | .probe | .precheck => true
  | _ => false

/-- Source current and the regulation amplifier are available to the cell (Table 2-3, R49, R30). -/
def Dev.driveAvail (s : Dev) (c : Nat) : Bool :=
  let b := s.block (c / 8)
  b.gateDrive && !b.cpFail && !(s.region (c / 64)).clkFail

/-- What drives GATE on entry to a state (Tables 2-2, 2-3 and 3-2). A strong pull-down is never cut short (R47). -/
def Dev.gateFor (s : Dev) (c : Nat) (st : CellState) : GateDrive :=
  let x := s.cell c
  match st with
  | .tripped => .strong
  | .inrush => if s.driveAvail c && x.pumpReady then .source (s.pf c 0 4 4) else .controlled
  | .on => if s.driveAvail c then .source 15 else .controlled
  | .limit => if s.driveAvail c then .regulated (s.pf c 0 4 4) else .controlled
  | _ => if x.gate = .strong then .strong else .controlled

/-- HOLDER on entry to a state (Table 3-4); a limiter that holds in LIMIT is set by the entry itself. -/
def Dev.holderFor (s : Dev) (c : Nat) (st : CellState) : Holder :=
  match st with
  | .tripped => .trip
  | .safe => .safeOrSupply
  | .inrush => if s.driveAvail c then .dvdt else .safeOrSupply
  | .on => if s.driveAvail c then .commandedOn else .safeOrSupply
  | .limit => if s.driveAvail c then .currentLimit else .safeOrSupply
  | _ => .commandedOff

/-! ### Cell events -/

/-- An event of a cell that p_event_mask gates (Table 3-9, 0x5C). -/
def Dev.cellEvent (s : Dev) (c maskBit code : Nat) (flag : Bool) (payload : List Word) : Dev :=
  if s.pb c 0x5C maskBit then s.raiseIsland (c / 64) false (Event.ofCell c code flag payload) else s

/-- EV_PRESENCE with the latest probe record (R73, R76). -/
def Dev.presenceEvent (s : Dev) (c : Nat) (inserted : Bool) : Dev :=
  s.cellEvent c 1 0x011 inserted (Bits.words2 (s.rtime (c / 64)) ++ (s.cell c).probe.words)

/-! ### Probe pulses -/

/-- The record of a pulse that ended early (Table 2-5a, ABORTED). -/
def Pulse.abort (p : Pulse) : ProbeRec := { v0 := p.v0, aborted := true, code := p.code, tc := p.tUs }

/-- End a pulse that runs, with an aborted record (Table 2-6). -/
def Dev.abortPulse (s : Dev) (c : Nat) : Dev :=
  match (s.cell c).pulse with
  | none => s
  | some p => s.modCell c (fun x => { x with pulse := none, probe := p.abort })

/-! ### The transition -/

/-- The self-tests that entry to PRECHECK starts (R129): the cell's comparators, and the block's VIN comparators when their
last test is more than 1 s old and no cell of the block is in INRUSH, ON or LIMIT. -/
def Dev.startTests (s : Dev) (c : Nat) : Dev :=
  let b := c / 8
  let now := s.rtime (c / 64)
  let old := match (s.block b).vtestAt with
    | none => true
    | some t => decide (t + 1000000000 < now)
  let busy := (List.range 8).any (fun i => (s.cell (8 * b + i)).state.armed)
  let s := s.modCell c (fun x => { x with selftestRun := true })
  if old && !busy then s.modBlock b (fun k => { k with vtestRun := true }) else s

/-- The fields of a cell on entry to a state at replica time `t`: timers, presence and precheck progress, evaluation. -/
def Dev.entryFields (s : Dev) (c : Nat) (st : CellState) (t : Nat) (x : Cell) : Cell :=
  let x := { x with
    state := st, entered := t, gate := s.gateFor c st, holder := s.holderFor c st
    safeFromHold := decide (st = .safe) && x.state.holds
    sinking := false, soaHeld := false, pgood := false, readyAt := none, autoInrush := false }
  match st with
  | .disabled | .off => { x with pumpReady := false }
  | .probe => { x with debExpired := false, confirmed := false }
  | .precheck => { x with pcVin := false, pcShort := false }
  | .waitGrant => { x with reqTime := t / 1000, grantLate := false }
  | .inrush => { x with inrushUs := s.pf c 0x14 0 16 * 1000 }
  | .limit => { x with faultUs := s.pf c 0x18 0 24 }
  | .tripped => { x with evaluated := false }
  | _ => x

/-- The source of a cell ends with its exit from the hold states when t_trip_min has passed (R98). -/
def Dev.holdExit (s : Dev) (c : Nat) : Dev :=
  let x := s.cell c
  match x.src with
  | some t =>
    if t.minPassed && !(x.state.holds || x.safeFromHold) then s.modCell c (fun x => { x with src := none }) else s
  | none => s

/-- Take cell `c` to state `st` (Table 3-2): the commit point of its class S values (R93), the withdrawal of a pending
request and the release of a reservation (R77), the end of a probe pulse (Table 2-6), the entry fields, the end of a
trip-line source (R98), the grant request of WAIT_GRANT, and EV_STATE. Nothing happens when the cell is in `st` already. -/
def Dev.goto (s : Dev) (c : Nat) (st : CellState) : Dev :=
  let old := (s.cell c).state
  if old = st then s
  else
    let g := c / 64
    let s := s.commitProf c
    let s := if old = .waitGrant ∧ st ≠ .inrush then s.sendSl g (.withdraw c) else s
    let s := if old = .inrush ∧ (s.cell c).reserved then
        (s.sendSl g (.release c)).modCell c (fun x => { x with reserved := false })
      else s
    let s := if st = .precheck ∨ old = .precheck ∨ st.probes = false then s.abortPulse c else s
    let s := if old = .tripped then s.endHeldOn c false else s
    let t := s.rtime g
    let s := s.withBcast g (fun s => (s.modCell c (s.entryFields c st t)).holdExit c)
    let s := if st = .waitGrant then
        s.sendSl g (.request { cell := c, group := s.pf c 0 12 4, prio := s.pf c 0 16 3,
                               ma := s.pf c 8 0 24, time := t / 1000 })
      else s
    let s := if st = .precheck then s.startTests c else s
    let s := if st = .tripped then s.modConv (c / 8) (fun k => { k with trip := k.trip ||| (1 <<< (c % 8)) }) else s
    let (clocks, s) := if s.gated c && !(s.lane c).stopped then s.drawNat else (0, s)
    let s := s.gateLane c clocks
    let s := s.modLane c (fun l => { l with span := { l.span with wOn := false } })
    s.cellEvent c 0 0x010 false (Bits.words2 t ++ [BitVec.ofNat 32 (st.code + old.code * 16)])

/-- SAFE (Table 3-2): the cell enters SAFE from any state (R393, R394). -/
def Dev.enterSafe (s : Dev) (c : Nat) : Dev := s.goto c .safe

/-- A policy switches a cell off, as CH_OFF does, if its state is one R26 names. -/
def Dev.policyOff (s : Dev) (c : Nat) : Dev :=
  if (s.cell c).state.policyActs then
    (s.goto c .off).modCell c (fun x => { x with holdOff := true })
  else s

end Sys2Proof.Machine
end

