-- ==== Sys2Proof/Machine/Faults.lean ====
section
/-! DEFINITION. The nine fault collectors (spec/17): one operation for an event of a source, one for its clear, one for the
clearing of a latched bit, and ERR_N. Collectors 0 to 7 are the regions, 8 is the chip. -/

namespace Sys2Proof.Machine

/-! ### Sources -/

/-- The source is reserved (Tables 17-2 and 17-3). -/
def Fc.reserved (k src : Nat) : Bool :=
  if k < 8 then (if src < 64 then src % 8 == 7 else decide (81 < src)) else decide (56 < src)

/-- The source is a level source: its row states a live condition (R387). -/
def Fc.level (k src : Nat) : Bool :=
  if k < 8 then
    if src < 64 then [3, 4, 6].contains (src % 8) else [65, 67, 68, 73, 79, 81].contains src
  else
    decide (src < 8) || (decide (16 ≤ src) && decide (src < 24)) ||
    [38, 39, 40, 42, 43, 45, 46, 47, 48, 49, 50, 52, 53, 54, 55].contains src

/-- The source is raised at the central end of the strait (Table 17-2, "central"). -/
def Fc.isCentral (src : Nat) : Bool := [71, 72, 73, 74, 76, 77].contains src

/-- COUNT_UNIT_FAIL of a collector. -/
def Fc.countUnit (k : Nat) : Nat := if k < 8 then 81 else 55

/-- The configuration word FC_RSRC or FC_CSRC of a source. -/
def Dev.fsrc (s : Dev) (k src : Nat) : Word := s.reg (if k < 8 then RegMap.fcRSrc k src else RegMap.fcCSrc src)
/-- The rule slot word. -/
def Dev.frule (s : Dev) (k n : Nat) : Word := s.reg (if k < 8 then RegMap.fcRRule k n else RegMap.fcCRule n)

/-- Class of a source: 0 CORRECTED, 1 CONTAINED, 2 FATAL; 3 acts as 1 (Table 17-7). -/
def Dev.fclass (s : Dev) (k src : Nat) : Nat :=
  match Bits.fld (s.fsrc k src) 0 2 with
  | 3 => 1
  | n => n

/-- Time of a collector: replica time at a region, TB_TIME at the chip (Table 17-4). -/
def Dev.ctime (s : Dev) (k : Nat) : Nat := if k < 8 then s.rtime k else s.tbTime

/-- One clock of the collector, in whole nanoseconds (log 12). Log 12 (DESIGN CHOICE, unsafe). -/
def Fc.oneClock (k : Nat) : Nat := if k < 8 then 6 else 2

/-- Window of a rule slot in ms: 0 acts as 1, above 3 600 000 as 3 600 000 (Table 17-7). -/
def Fc.winMs (w : Word) : Nat := max 1 (min 3600000 (Bits.fld w 8 22))

/-! ### Keys (R390) -/

/-- Key codes of Table 17-4. -/
def Fc.keyFatal : Nat := 2
def Fc.keyMinor : Nat := 3
def Fc.keySevere : Nat := 4

/-- The rule that counts events of a source, if one does (R390): rule enabled, the counting unit sound, N not 0. -/
def Dev.ruleOf (s : Dev) (k src : Nat) : Option Nat :=
  let w := s.fsrc k src
  let n := Bits.fld w 17 8
  let slots := if k < 8 then 256 else 128
  if Bits.bit w 16 && !(s.coll k).countFailed && decide (src ≠ Fc.countUnit k) && decide (n < slots) &&
     decide (Bits.fld (s.frule k n) 0 8 ≠ 0) then some n else none

/-- The counter of a rule slot after one more event at elapsed time `t` (R390). -/
def RuleCtr.count (r : RuleCtr) (w : Word) (t : Nat) : RuleCtr :=
  if !r.opened || decide (r.winEnd ≤ t) then
    { opened := true, winEnd := t + Fc.winMs w * 1000000, ctr := 1 }
  else { r with ctr := Bits.satAdd 255 r.ctr 1 }

/-- The key of a real event of a source, its rule count, and the state with the rule counter advanced. -/
def Dev.faultKey (s : Dev) (k src : Nat) : Nat × Nat × Dev :=
  if s.fclass k src = 2 then (Fc.keyFatal, 0, s)
  else match s.ruleOf k src with
    | none => (s.fclass k src, 0, s)
    | some n =>
      let w := s.frule k n
      let r := RuleCtr.count (Sparse.get (fun _ => {}) (s.coll k).rules n) w s.elapsed
      let s := s.modColl k (fun x => { x with rules := Sparse.set (fun _ => {}) x.rules n r })
      (if Bits.fld w 0 8 ≤ r.ctr then Fc.keySevere else Fc.keyMinor, r.ctr, s)

/-- The reaction mask of an event (R393). -/
def Dev.faultMask (s : Dev) (k src key : Nat) : Nat :=
  let w := s.fsrc k src
  let m := if key = Fc.keySevere ∨ key = Fc.keyFatal then Bits.fld w 9 7 else Bits.fld w 2 7
  if key = Fc.keyFatal then
    let safe := if k < 8 then (if src < 64 then 8 else 16)
      else if (8 ≤ src ∧ src < 16) ∨ (24 ≤ src ∧ src < 32) then 0 else 32
    m ||| 1 ||| 64 ||| safe
  else m

/-! ### History (R397 to R399) -/

/-- The word at 0x10 of a history entry. -/
def HistEntry.word10 (e : HistEntry) : Word :=
  BitVec.ofNat 32 (e.source % 128 + Bits.b2n e.kindClear * 2 ^ 7 + Bits.b2n e.real * 2 ^ 8 + Bits.b2n e.injected * 2 ^ 9 +
    Bits.b2n e.opened * 2 ^ 10 + Bits.b2n e.deferred * 2 ^ 11 + Bits.b2n e.fallback * 2 ^ 12 + e.key % 8 * 2 ^ 13 +
    e.react % 128 * 2 ^ 16 + e.ruleCount % 256 * 2 ^ 24)

/-- A history entry as eight words (Table 17-4). -/
def HistEntry.words (e : HistEntry) : List Word :=
  Bits.words2 e.assertTime ++ Bits.words2 e.clearTime ++
  [e.word10, BitVec.ofNat 32 e.info, BitVec.ofNat 32 (e.count % 65536), BitVec.ofNat 32 e.seq]

/-- An event of collector `k`: stream 0x80 + g or 0x89, object g or 8 (Tables 11-13 and 17-8). -/
def Dev.collEvent (s : Dev) (k code : Nat) (flag : Bool) (payload : List Word) : Dev :=
  let e : Event := { stream := if k < 8 then 0x80 + k else 0x89, code := code, obj := k, flag := flag, payload := payload }
  if k < 8 then s.raiseIsland k false e else s.raise e

/-- The EVENT reaction for an entry: REGION_FAULT or CHIP_FAULT of the barges (Table 10-1) and EV_FAULT (Table 17-8). -/
def Dev.faultEvent (s : Dev) (k : Nat) (flag : Bool) (e : HistEntry) : Dev :=
  let s := if flag then (if k < 8 then (if s.straitUp k then s.irqRegion k 34 else s) else s.irqAll 35) else s
  s.collEvent k 0x100 flag (Bits.words2 (if flag then e.assertTime else e.clearTime) ++
    [e.word10, BitVec.ofNat 32 e.info, BitVec.ofNat 32 (e.count % 65536), BitVec.ofNat 32 e.seq])

/-- Entries the history queue of collector `k` holds. -/
def Fc.depth (k : Nat) : Nat := if k < 8 then 16 else 32

/-- Write a history entry (R397): a full queue drops it, consumes its SEQ, and EV_HISTORY_LOST is raised at the first drop.
Log 136 (DEDUCED, unsafe). -/
def Dev.history (s : Dev) (k : Nat) (e : HistEntry) : Dev :=
  let x := s.coll k
  if x.hist.length < Fc.depth k then
    s.setColl k { x with hist := x.hist ++ [e], seq := (x.seq + 1) % 2 ^ 32 }
  else
    let first := !x.historyLost
    let s := s.setColl k { x with historyLost := true, overflow := Bits.satAdd 255 x.overflow 1, seq := (x.seq + 1) % 2 ^ 32 }
    if first then s.collEvent k 0x101 false (Bits.words2 (s.ctime k) ++ [BitVec.ofNat 32 e.seq]) else s

/-! ### ERR_N (R401 to R404) -/

/-- FATAL_HOLD: a chip source has a latched bit set by a real FATAL event (R404). -/
def Dev.fatalHold (s : Dev) : Bool := decide ((s.coll 8).fatalReal ≠ 0)

/-- EV_ERR_N (Table 17-8). -/
def Dev.errEvent (s : Dev) : Dev :=
  s.collEvent 8 0x102 false (Bits.words2 s.tbTime ++
    [BitVec.ofNat 32 (Bits.b2n s.err.asserted + s.rf RegMap.fcErr 0 1 * 2 + Bits.b2n s.fatalHold * 4)])

/-- An ERR_N reaction (R401, R402): it cancels a waiting clear; the pulse counts from the assertion that took ERR_N low. -/
def Dev.errAssert (s : Dev) : Dev :=
  if s.err.asserted then { s with err := { s.err with clearWaits := false } }
  else ({ s with err := { s.err with asserted := true, pulse := true, clearWaits := false } }).errEvent

/-- Release ERR_N. -/
def Dev.errRelease (s : Dev) : Dev :=
  ({ s with err := { s.err with asserted := false, pulse := false, clearWaits := false } }).errEvent

/-- ERR_CLR or FC_ERR_CLEAR (R402 to R404). -/
def Dev.errClear (s : Dev) : Dev :=
  if s.fatalHold || !s.err.asserted then s
  else if s.rf RegMap.fcErr 0 1 = 0 ∧ s.err.pulse then { s with err := { s.err with clearWaits := true } }
  else s.errRelease

/-! ### A level source becomes inactive (R398) -/

/-- The source becomes inactive: its entry is closed or a clear record appended, EV_FAULT with FLAG 0.
Log 135 (DEDUCED, unsafe). -/
def Dev.unoccur (s : Dev) (k src : Nat) : Dev :=
  let x := s.coll k
  if !x.live.getLsbD src then s
  else
    let t := s.ctime k
    let e := Sparse.get (fun _ => {}) x.last src
    let mine := fun (q : HistEntry) => decide (q.seq = e.seq) && decide (q.source = src) && q.opened && !q.kindClear
    let queued := x.hist.any mine
    let closed := { e with opened := false, clearTime := t }
    let clearRec := { closed with kindClear := true, seq := x.seq }
    let appends := !queued && Bits.nbit e.react 0
    let s := s.setColl k { x with
      live := x.live &&& ~~~ (1#128 <<< src)
      hist := x.hist.map (fun q => if mine q then { q with opened := false, clearTime := t } else q)
      firstErr := x.firstErr.map (fun q => if q.source = src ∧ q.opened then { q with opened := false, clearTime := t } else q) }
    let s := if appends then s.history k clearRec else s
    if Bits.nbit e.react 1 then s.faultEvent k false (if appends then clearRec else closed) else s

/-- CELL_LATCHED of a block ends when none of its cells is LATCHED (Table 17-2). -/
def Dev.latchedCheck (s : Dev) (b : Nat) : Dev :=
  if (List.range 8).any (fun i => decide ((s.cell (8 * b + i)).state = .latched)) then s
  else s.unoccur (b / 8) (8 * (b % 8) + 3)

/-! ### Safe reactions (R394) -/

/-- Every cell of a list enters SAFE. -/
def Dev.safeCells (s : Dev) (l : List Nat) : Dev :=
  s.forEach l (fun s c =>
    let was := decide ((s.cell c).state = .latched)
    let s := s.enterSafe c
    if was then s.latchedCheck (c / 8) else s)

/-- REGION_SAFE: every cell of the region enters SAFE and every slice goes OFF as KILL does. -/
def Dev.regionSafe (s : Dev) (g : Nat) : Dev :=
  (s.safeCells ((List.range 64).map (fun i => 64 * g + i))).killSlices g

/-- BLOCK_SAFE: the eight cells of a block. -/
def Dev.blockSafe (s : Dev) (b : Nat) : Dev := s.safeCells ((List.range 8).map (fun i => 8 * b + i))

/-- A safe request stands until its source's latched bit is clear; one request per source and scope. -/
def Dev.stand (s : Dev) (k src : Nat) (scope : SafeScope) (fatal : Bool) : Dev :=
  let r : SafeReq := { source := src, scope := scope, fatal := fatal }
  s.modColl k (fun x => if x.standing.contains r then x else { x with standing := x.standing ++ [r] })

/-- The scope covers the cell. -/
def SafeScope.covers (c : Nat) : SafeScope → Bool
  | .cell d => c == d
  | .block b => c / 8 == b
  | .region g => c / 64 == g
  | .chip => true

/-- A safe request that covers the cell still stands (R394). -/
def Dev.safeStands (s : Dev) (c : Nat) : Bool :=
  (s.coll (c / 64)).standing.any (fun r => r.scope.covers c) || (s.coll 8).standing.any (fun r => r.scope.covers c)

/-- The cell a source names, if it names one (Table 17-2 INFO). 0x1FF of CP_FAIL and CMP_SELFTEST_FAIL names none. -/
def Fc.cellOf (k src info : Nat) : Option Nat :=
  if k < 8 ∧ src < 64 then
    match src % 8 with
    | 0 | 1 => if info = 0x1FF then none else some info
    | 2 | 3 | 5 | 6 => some info
    | _ => none
  else none

/-- The block a source names: its own, or the home block of the barge a central source names (Table 17-1 B). -/
def Fc.blockOf (k src info : Nat) : Option Nat :=
  if k < 8 then
    if src < 64 then some (8 * k + src / 8)
    else if Fc.isCentral src ∧ info < 64 then some info else none
  else none

/-- The number under which a region source's request is kept at the chip collector. -/
def Fc.forwarded (g src : Nat) : Nat := 1000 * (g + 1) + src

/-- The safe reactions of a mask (Table 17-1 C, B, R, X). -/
def Dev.safeReact (s : Dev) (k src info mask : Nat) (fatal : Bool) : Dev :=
  let s := if Bits.nbit mask 2 then
      match Fc.cellOf k src info with
      | some c => (s.stand k src (.cell c) fatal).safeCells [c]
      | none => s
    else s
  let s := if Bits.nbit mask 3 then
      match Fc.blockOf k src info with
      | some b => (s.stand k src (.block b) fatal).blockSafe b
      | none => s
    else s
  let s := if Bits.nbit mask 4 then
      if k < 8 then (s.stand k src (.region k) fatal).regionSafe k
      else if src < 32 then (s.stand 8 src (.region (src % 8)) fatal).regionSafe (src % 8) else s
    else s
  if Bits.nbit mask 5 then
    if k < 8 then
      let s := (s.stand k src (.region k) fatal).regionSafe k
      if s.straitUp k then s
      else s.modColl k (fun x => { x with chipSafeHeld := x.chipSafeHeld ++ [src] })
    else s.stand 8 src .chip fatal
  else s

/-! ### An event of a source (R390 to R399) -/

/-- The region's report of an event goes to the chip collector, or is kept until rejoin when its key sets a chip source and
it is the first of its source in the loss (R389). -/
def Dev.report (s : Dev) (g : Nat) (r : Report) : Dev :=
  if s.auto g then
    if (r.key = 1 ∨ r.key = 2 ∨ r.key = 4) ∧ !(s.coll g).unsent.any (fun q => q.source == r.source) then
      s.modColl g (fun x => { x with unsent := x.unsent ++ [r] })
    else s
  else { s with reports := s.reports ++ [r] }

/-- An event is noted: latched, live when its source is a level source, counted. A COUNT_UNIT_FAIL ends the counting (R392). -/
def Dev.noteEvent (s : Dev) (k src n : Nat) (inj : Bool) : Dev :=
  let x := s.coll k
  let bit : Quad := 1#128 <<< src
  s.setColl k { x with
    latched := x.latched ||| bit
    live := if Fc.level k src then x.live ||| bit else x.live
    counts := Sparse.set (fun _ => 0) x.counts src (Bits.satAdd 65535 (Sparse.get (fun _ => 0) x.counts src) n)
    countFailed := x.countFailed || decide (src = Fc.countUnit k)
    testCount := if inj then Bits.satAdd 255 x.testCount 1 else x.testCount }

/-- A noted event is classified, logged and reacted to (R390 to R399). -/
def Dev.reactEvent (s : Dev) (k src info t : Nat) (deferred inj : Bool) : Dev :=
  let bit : Quad := 1#128 <<< src
  let lvl := Fc.level k src
  let (key, rc, s) := s.faultKey k src
  let x := s.coll k
  let mask := s.faultMask k src key
  let fatal := decide (key = Fc.keyFatal)
  let e : HistEntry := {
    assertTime := t, clearTime := if lvl then 0 else t + Fc.oneClock k, source := src, real := true, injected := inj
    opened := lvl, deferred := deferred, fallback := x.countFailed, key := key, react := mask
    ruleCount := rc, info := info, count := Sparse.get (fun _ => 0) x.counts src, seq := x.seq }
  let s := s.modColl k (fun x => { x with
    fatalReal := if fatal then x.fatalReal ||| bit else x.fatalReal
    severe := if key = 1 ∨ key = 4 then x.severe ||| bit else x.severe
    last := Sparse.set (fun _ => {}) x.last src e
    firstErr := if Bits.nbit mask 0 && x.firstErr.isNone then some e else x.firstErr })
  let s := if Bits.nbit mask 0 then s.history k e else s
  let s := if Bits.nbit mask 1 then s.faultEvent k true e else s
  let s := if Bits.nbit mask 6 && decide (k = 8) then s.errAssert else s
  let s := if k < 8 then s.report k { region := k, source := src, key := key, react := mask, time := t } else s
  s.safeReact k src info mask fatal

/-- One real event of a source. `n` occurrences, first at `t`, for a deferred report (R388); `inj` when an injected event
shares the clock (R400). A level source that is live already has no new event. -/
def Dev.occurAt (s : Dev) (k src info n t : Nat) (deferred inj : Bool) : Dev :=
  if Fc.reserved k src then s
  else if Fc.level k src && (s.coll k).live.getLsbD src then s
  else (s.noteEvent k src n inj).reactEvent k src info t deferred inj

/-- One real event of a source at the collector's time. -/
def Dev.occur (s : Dev) (k src info : Nat) : Dev := s.occurAt k src info 1 (s.ctime k) false false

/-- A central source of region `g` (R388): it crosses the strait, or waits for it. -/
def Dev.occurCentral (s : Dev) (g src info : Nat) : Dev :=
  if s.straitUp g then s.occur g src info
  else
    let x := s.coll g
    if x.deferred.any (fun d => d.source == src) then
      s.setColl g { x with deferred := x.deferred.map (fun d =>
        if d.source = src then { d with count := Bits.satAdd 65535 d.count 1 } else d) }
    else s.setColl g { x with deferred := x.deferred ++ [{ source := src, count := 1, first := s.tbTime, info := info }] }

/-- An event of any source by the row of the table: a central source of a region by R388, any other at once. -/
def Dev.occurAny (s : Dev) (k src info : Nat) (inj : Bool) : Dev :=
  if k < 8 ∧ Fc.isCentral src ∧ !s.straitUp k then s.occurCentral k src info
  else s.occurAt k src info 1 (s.ctime k) false inj

/-! ### Clearing latched bits (R395) -/

/-- The bits of a mask that may be cleared: not live, and not set by a real FATAL event. -/
def Coll.clearable (x : Coll) (mask : Quad) : Quad := mask &&& ~~~ x.live &&& ~~~ x.fatalReal

/-- A write of 1 to latched bits: those that may clear do, and the safe requests of their sources end (R394). -/
def Dev.clearLatched (s : Dev) (k : Nat) (mask : Quad) : Dev :=
  let x := s.coll k
  let c := x.clearable mask
  let s := s.setColl k { x with
    latched := x.latched &&& ~~~ c
    severe := x.severe &&& ~~~ c
    standing := x.standing.filter (fun r => r.fatal || decide (1000 ≤ r.source) || !c.getLsbD r.source) }
  if k < 8 then
    let s := s.modColl 8 (fun y => { y with
      standing := y.standing.filter (fun r =>
        r.fatal || decide (r.source / 1000 ≠ k + 1) || !c.getLsbD (r.source % 1000)) })
    if (s.coll k).severe = 0 then s.unoccur 8 (16 + k) else s
  else s

/-! ### Injection (R400) -/

/-- An injected event: latched, logged when REACT_LO has LOG, counted in TEST_COUNT, EV_FAULT when REACT_LO has EVENT. -/
def Dev.inject (s : Dev) (k src : Nat) : Dev :=
  let t := s.ctime k
  let lo := Bits.fld (s.fsrc k src) 2 7
  let x := s.coll k
  let e : HistEntry := {
    assertTime := t, clearTime := t + Fc.oneClock k, source := src, injected := true, key := 7, react := lo &&& 3
    info := 0xFFFFFFFF, count := Sparse.get (fun _ => 0) x.counts src, seq := x.seq }
  let s := s.setColl k { x with latched := x.latched ||| (1#128 <<< src), testCount := Bits.satAdd 255 x.testCount 1 }
  let s := if Bits.nbit lo 0 then s.history k e else s
  if Bits.nbit lo 1 then s.faultEvent k true e else s

/-- CFG_WRITE_IGNORED in the collector of the level that holds the register (R7): INFO is the register offset. -/
def Dev.cfgIgnored (s : Dev) (off : Nat) : Dev :=
  if 0x00400000 ≤ off ∧ off < 0x00C00000 then
    let g := (off - 0x00400000) / 0x00100000
    s.occur g 75 (off % 0x00100000)
  else s.occur 8 37 off

end Sys2Proof.Machine
end

