-- ==== Sys2Proof/Machine/Trips.lean ====
section
/-! DEFINITION. Trips, their consequences and the retry rules (spec/03 R84 to R87, spec/04 R95 to R108). -/

namespace Sys2Proof.Machine

/-! ### Causes (Table 4-1) and the checks armed per state (Table 3-5) -/

/-- Trip class m of a cause code. -/
def Trip.cls : Nat → Nat
  | 1 => 0 | 2 => 5 | 3 => 4 | 4 => 3 | 5 => 3 | 6 => 2 | 7 => 2 | 8 => 1 | 9 => 6 | 10 => 5 | 11 => 6 | 12 => 7 | 13 => 7
  | _ => 0

/-- Cause codes in the order in which the primary cause is chosen (R87). -/
def Trip.order : List Nat := [1, 13, 2, 3, 4, 5, 6, 7, 8, 9, 10, 11, 12]

/-- The check of a cause is armed in the cell's state and profile (Table 3-5, R86). -/
def Dev.checkArmed (s : Dev) (c cause : Nat) : Bool :=
  let st := (s.cell c).state
  match cause with
  | 1 | 13 | 2 | 4 => st.armed
  | 3 => st.armed && s.pb c 0 25
  | 10 => st.armed && s.pb c 0 24
  | 9 => st.armed && decide (s.pf c 0x20 0 16 ≠ 65535)
  | 5 => decide (st = .inrush) || decide (st = .limit)
  | 6 => decide (st = .inrush)
  | 7 => decide (st = .limit)
  | 8 => decide (st = .on) || decide (st = .limit)
  | 11 => decide (st = .on) && decide (s.pf c 0x20 16 16 ≠ 0)
  | 12 => decide (st = .on)
  | _ => false

/-- The armed causes of a mask (bit n is cause code n), in the order of R87. -/
def Dev.armedCauses (s : Dev) (c mask : Nat) : List Nat :=
  Trip.order.filter (fun n => Bits.nbit mask n && s.checkArmed c n)

/-- The rule set that p_rule_map selects for a class (R95). -/
def Dev.ruleSet (s : Dev) (c m : Nat) : Nat := s.pf c 0x58 (4 * m) 3

/-- LATCH_WIN_MS of a rule set: 0 acts as 1, above 3 600 000 as 3 600 000 (Table 4-9). -/
def Dev.latchWin (s : Dev) (g set : Nat) : Nat := max 1 (min 3600000 (s.rf (RegMap.ruleC g set) 8 22))

/-- The classification counter of a class after one more trip (R104). -/
def ClassCtr.bump (k : ClassCtr) (winMs t : Nat) : ClassCtr :=
  if k.opened then { k with count := Bits.satAdd 255 k.count 1 }
  else { opened := true, count := 1, winMs := winMs, openedAt := t }

/-! ### Entry to TRIPPED (R96, R98, R104) -/

/-- The trip of cell `c` with the armed causes of a mask: nothing when none is armed. The class S values commit first
(Table 3-6), then the record, the classification counter, the trip-line source, EV_TRIP. `time` is TRIP_TIME. -/
def Dev.tripAt (s : Dev) (c mask time : Nat) : Dev :=
  match s.armedCauses c mask with
  | [] => s
  | prim :: rest =>
    let g := c / 64
    let x := s.cell c
    let oldLines := s.pf c 0x54 0 8
    let oldSlices := s.pf c 0x54 8 4
    let s := s.commitProf c
    let m := Trip.cls prim
    let set := s.ruleSet c m
    let ctr := ClassCtr.bump (Sparse.get (fun _ => {}) x.classes m) (s.latchWin g set) (s.rtime g)
    let rec0 : TripRec := {
      time := time, cell := c, stateAt := x.state.code, primary := prim, cls := m, holder := x.holder.code
      autonomous := s.auto g, secondary := rest.foldl (fun a n => a ||| (1 <<< n)) 0, retryCount := x.retryCount
      classCount := ctr.count, iSample := Bits.ofInt 16 x.iSmp, outMv := x.outMv, vinMv := (s.block (c / 8)).vinMv
      tjEst := Bits.ofInt 16 x.tjEst }
    let src : TripSource := {
      lines := if prim = 1 then s.pf c 0x54 0 8 ||| oldLines else s.pf c 0x54 0 8
      slices := if prim = 1 then s.pf c 0x54 8 4 ||| oldSlices else s.pf c 0x54 8 4
      holdUs := s.pf c 0x54 16 16, early := s.pb c 0x54 13, bcast := s.pb c 0x54 12, start := s.rtime g }
    let s := s.goto c .tripped
    let s := s.modCell c (fun y => { y with
      trip := rec0, classes := Sparse.set (fun _ => {}) y.classes m ctr, tripRule := set })
    let s := if src.bcast then
        s.modRegion g (fun r => { r with bcastCell := c, bcastCause := prim, bcastTime := time })
      else s
    let s := s.withBcast g (fun s => s.modCell c (fun y => { y with src := some src }))
    s.raiseIsland g true (Event.ofCell c 0x016 false rec0.words)

/-- The trip of a check the sequencer decides: TRIP_TIME is the replica time (Table 4-2). -/
def Dev.tripNow (s : Dev) (c mask : Nat) : Dev := s.tripAt c mask (s.rtime (c / 64))

/-- The checks whose level is already active at entry to a state (R86): filtered outputs, gate drive, Tj_est. -/
def Dev.levelMask (s : Dev) (c : Nat) : Nat :=
  let x := s.cell c
  let b := s.block (c / 8)
  Bits.b2n (!b.gateDrive) * 2 ^ 2 + Bits.b2n x.ilo.out * 2 ^ 3 +
  Bits.b2n (decide (Bits.sext 16 (s.pf c 0x60 16 16) ≤ x.tjEst)) * 2 ^ 4 +
  Bits.b2n x.ihi.out * 2 ^ 8 + Bits.b2n (b.vlo.out || b.vhi.out) * 2 ^ 10

/-- A cell that enters INRUSH, ON or LIMIT with an armed check already active trips at once (R86). -/
def Dev.levelTrips (s : Dev) (c : Nat) : Dev := s.tripNow c (s.levelMask c)

/-! ### Autonomous INRUSH order (R24) -/

/-- The cells of region `g` that wait in COOLDOWN, ready to retry, with the time they became ready. -/
def Dev.readyCells (s : Dev) (g : Nat) : List (Nat × Nat) :=
  s.cells.filterMap (fun p => if p.1 / 64 = g ∧ p.2.state = .cooldown then p.2.readyAt.map (fun t => (t, p.1)) else none)

/-- The earliest of a list of (time, cell) pairs, the lower cell index first among equals. -/
def Trip.earliest : List (Nat × Nat) → Option (Nat × Nat)
  | [] => none
  | p :: l => match Trip.earliest l with
    | none => some p
    | some q => if q.1 < p.1 ∨ (q.1 = p.1 ∧ q.2 < p.2) then some q else some p

/-- In autonomous mode the next ready cell enters INRUSH when no cell of the region is in INRUSH (R24). -/
def Dev.autoNext (s : Dev) (g : Nat) : Dev :=
  if s.auto g && !s.cells.any (fun p => p.1 / 64 == g && decide (p.2.state = .inrush)) then
    match Trip.earliest (s.readyCells g) with
    | none => s
    | some (_, c) =>
      let s := s.goto c .inrush
      let s := s.modCell c (fun x => { x with autoInrush := true })
      s.levelTrips c
  else s

/-! ### Rule evaluation (R105, R107, R108) -/

/-- What an evaluation decides. -/
inductive RuleOutcome where
  | retry (backoffMs count : Nat)
  | latch (exhausted : Bool)
  | noRetry
  deriving DecidableEq, Repr

/-- A backoff field: 0 acts as 1, above 600 000 as 600 000 (Tables 4-7 and 4-8). -/
def Trip.backoff (v : Nat) : Nat := max 1 (min 600000 v)

/-- The outcome of R105 for a cell at its evaluation point. -/
def Dev.ruleOutcome (s : Dev) (c : Nat) : RuleOutcome :=
  let g := c / 64
  let x := s.cell c
  let m := x.trip.cls
  let set := s.ruleSet c m
  let a := RegMap.ruleA g set
  let count := (Sparse.get (fun _ => {}) x.classes m).count
  let latchN := s.rf (RegMap.ruleC g set) 0 8
  let max := s.rf a 0 8
  if latchN ≠ 0 ∧ latchN ≤ count then .latch false
  else if max = 255 ∨ x.retryCount < max then
    let n := Bits.satAdd 255 x.retryCount 1
    let base := Trip.backoff (s.rf a 12 20)
    .retry (if s.rb a 8 then min (Trip.backoff (s.rf (RegMap.ruleB g set) 0 20)) (base * 2 ^ (n - 1)) else base) n
  else if s.rb a 9 then .latch true
  else .noRetry

/-- RETRY_AUTO = 0 of the episode in force (R108). -/
def Dev.noAutoRetry (s : Dev) (g : Nat) : Bool :=
  match (s.region g).episode with
  | some e => !e.retryAuto
  | none => false

/-- The cell enters LATCHED: EV_LATCHED and CELL_LATCHED of its block. -/
def Dev.latchCell (s : Dev) (c reason : Nat) : Dev :=
  let g := c / 64
  let x := s.cell c
  let s := s.goto c .latched
  let s := s.raiseIsland g true (Event.ofCell c 0x017 false (Bits.words2 (s.rtime g) ++
    [BitVec.ofNat 32 (x.trip.primary % 32 + reason * 256 +
      (Sparse.get (fun _ => {}) x.classes x.trip.cls).count % 256 * 2 ^ 16)]))
  s.occur g (8 * (c / 8 % 8) + 3) c

/-- COOLDOWN with a backoff (R68). -/
def Dev.cooldown (s : Dev) (c backoffMs : Nat) : Dev :=
  (s.goto c .cooldown).modCell c (fun x => { x with backoffMs := backoffMs })

/-- The evaluation at the end of TRIPPED. -/
def Dev.evaluateRule (s : Dev) (c : Nat) : Dev :=
  let g := c / 64
  let x := s.cell c
  if x.state = .tripped ∧ x.evaluated = false then
    match s.ruleOutcome c with
    | .latch exhausted =>
      let s := s.endHeldOn c true
      s.latchCell c (if exhausted then 2 else 1)
    | .retry backoff count =>
      if x.heldOn then (s.endHeldOn c false).cooldown c 0
      else if s.noAutoRetry g then s.modCell c (fun y => { y with evaluated := true })
      else (s.modCell c (fun y => { y with retryCount := count })).cooldown c backoff
    | .noRetry =>
      if x.heldOn then (s.endHeldOn c false).cooldown c 0
      else
        let s := s.modCell c (fun y => { y with evaluated := true })
        s.raiseIsland g true (Event.ofCell c 0x018 false (Bits.words2 (s.rtime g) ++
          [BitVec.ofNat 32 (x.trip.primary % 32 + x.retryCount % 256 * 256)]))
  else s

/-! ### The trip routing matrix (R97, R98) -/

/-- The mirror of remote broadcasts as region `g` sees it: held as it was while its strait is lost (R103). -/
def Dev.mirrorOf (s : Dev) (g : Nat) : Nat × Nat := (s.region g).mirrorHeld.getD (s.mirror, s.mirrorStale)

/-- The mirror bits (by 8 position + region) that a region's masks select (Table 4-6). -/
def Dev.linkSelect (s : Dev) (g : Nat) : Nat :=
  let w := RegMap.linkTrip g
  ((List.range 64).filter (fun i => s.rb w (8 + i / 8) && s.rb w (16 + i % 8))).foldl (fun a i => a ||| (1 <<< i)) 0

/-- MATCH: a selected mirror bit is set. -/
def Dev.linkMatch (s : Dev) (g : Nat) : Bool := decide ((s.mirrorOf g).1 &&& s.linkSelect g ≠ 0)
/-- STALE: a selected mirror bit is stale. -/
def Dev.linkStale (s : Dev) (g : Nat) : Bool := decide ((s.mirrorOf g).2 &&& s.linkSelect g ≠ 0)

/-- The lines of region `g` that at least one source holds, as 8 bits (R97, DRIVEN of Table 4-4), all of them before bring-up
is complete while VDDI is good (Table 18-2). -/
def Dev.driven (s : Dev) (g : Nat) : Nat :=
  let r := s.region g
  let cells := s.cells.foldl (fun a p =>
    if p.1 / 64 = g then (match p.2.src with | some t => a ||| t.lines | none => a) else a) 0
  let locks := r.lockLines.foldl (fun a l => a ||| l.lines) 0
  cells ||| locks ||| s.rf (RegMap.tripForce g) 0 8 |||
    (if s.linkMatch g then s.rf (RegMap.linkTrip g) 0 8 else 0) |||
    (if r.clkFail || (s.pwr.vddi && !r.islandUp) then 255 else 0)

/-- The slice fault inputs of region `g` that a source holds, as 4 bits (R97). -/
def Dev.sliceFaults (s : Dev) (g : Nat) : Nat :=
  let cells := s.cells.foldl (fun a p =>
    if p.1 / 64 = g then (match p.2.src with | some t => a ||| t.slices | none => a) else a) 0
  let locks := (s.region g).lockLines.foldl (fun a l => a ||| l.slices) 0
  cells ||| locks ||| s.rf (RegMap.tripForce g) 8 4

/-- EXT_SEEN: set for every line another driver pulls low while no source of the device holds it (Table 4-4, R100). -/
def Dev.extUpdate (s : Dev) (g : Nat) : Dev :=
  s.modRegion g (fun r => { r with extSeen := r.extSeen ||| (r.extLines &&& (255 ^^^ s.driven g)) })

/-! ### Policies (Table 1-5) -/

/-- The cells of region `g`. -/
def cellsOf (g : Nat) : List Nat := (List.range 64).map (fun i => 64 * g + i)

/-- Cells of a stop rank (R26). -/
def Dev.ofRank (s : Dev) (g rank : Nat) : List Nat := (cellsOf g).filter (fun c => s.pf c 0 20 4 == rank)

/-- The stop ranks that hold a cell a policy acts on, ascending (R26). -/
def Dev.occupiedRanks (s : Dev) (g : Nat) : List Nat :=
  (List.range 16).filter (fun r => (cellsOf g).any (fun c => s.pf c 0 20 4 == r && (s.cell c).state.policyActs))

/-- Switch a list of cells off by policy. -/
def Dev.policyCells (s : Dev) (l : List Nat) : Dev := s.forEach l Dev.policyOff

/-- A policy of Table 1-5: the cells that go at once, and the stop ranks still to step. -/
def Dev.policy (s : Dev) (g code : Nat) : List Nat × Dev :=
  match code with
  | 0 => ([], s)
  | 1 => ([], s.policyCells ((cellsOf g).filter (fun c => s.pb c 0 19)))
  | 2 => match s.occupiedRanks g with
    | [] => ([], s)
    | r :: rest => (rest, s.policyCells (s.ofRank g r))
  | _ => ([], s.policyCells (cellsOf g))

end Sys2Proof.Machine
end

