-- ==== Sys2Proof/Machine/Probe.lean ====
section
/-! DEFINITION. The presence probe: the estimate of R61, the classification of its result (R72), presence (R73) and the steps
of PRECHECK (R75). -/

namespace Sys2Proof.Machine

/-- Probe current in microamperes by code (Table 2-4). -/
def Probe.current : Nat → Nat
  | 1 => 100 | 2 => 200 | 3 => 500 | 4 => 1000 | 5 => 2000 | 6 => 5000 | 7 => 10000 | _ => 0

/-- L[j] = round(-ln(j / 64) * 65536), j = 0 to 63; L[0] is not used (R61). -/
def Probe.lnTable : List Nat :=
  [0, 272557, 227130, 200558, 181704, 167080, 155132, 145029] ++
  [136278, 128559, 121654, 115408, 109706, 104460, 99603, 95082] ++
  [90852, 86879, 83133, 79590, 76228, 73031, 69982, 67069] ++
  [64280, 61604, 59034, 56561, 54177, 51877, 49656, 47507] ++
  [45426, 43409, 41453, 39553, 37707, 35911, 34164, 32461] ++
  [30802, 29184, 27605, 26063, 24556, 23083, 21643, 20233] ++
  [18854, 17502, 16178, 14880, 13608, 12360, 11135, 9932] ++
  [8751, 7591, 6451, 5331, 4230, 3146, 2081, 1032]

/-- -ln(x) in units of 2^-16 for a 10-bit fraction, with linear interpolation (R61). -/
def Probe.nln (x10 : Nat) : Nat :=
  let j := x10 / 16
  let f := x10 % 16
  let a := Probe.lnTable.getD j 0
  let b := Probe.lnTable.getD (j + 1) 0
  a - (a - b) * f / 16

/-- An unmeasurable resistance reads all ones (Table 2-5a). -/
def Probe.unmeasurable : Nat := 0xFFFFFFFF

/-- Remove the internal divider in parallel with the load (R61). -/
def Probe.correct (rOut r : Nat) : Nat :=
  if r < rOut then min Probe.unmeasurable (r * rOut / (rOut - r)) else Probe.unmeasurable

/-- The estimate of R61 for a pulse of `T` us at code `code`: R in milliohm, C in nF, LOW_SIGNAL. Voltages in mV.
Log 14 (DEDUCED, unsafe). -/
def Probe.estimate (rOut code tUs v0 vh vt : Nat) (clampUs : Option Nat) : Nat × Nat × Bool :=
  let ip := Probe.current code
  let d1 : Int := (vh : Int) - v0
  let d2 : Int := (vt : Int) - v0
  match clampUs with
  | some tc => (Probe.unmeasurable, ip * tc / (3900 - v0), false)
  | none =>
    if d2 < 20 then
      (Probe.correct rOut ((d2 * 1000000).tdiv ip).toNat, 0, true)
    else
      let d2n := d2.toNat
      if d1 ≤ 0 then (Probe.unmeasurable, ip * tUs / d2n, false)
      else
        let d1n := d1.toNat
        -- x = d2 / d1 - 1 is compared exactly with 0.95 and 0.05 (log 14)
        if 19 * d1 ≤ 20 * (d2 - d1) then (Probe.unmeasurable, ip * tUs / d2n, false)
        else if 20 * (d2 - d1) ≤ d1 then (Probe.correct rOut (d2n * 1000000 / ip), 0, false)
        else
          let x10 := (d2n - d1n) * 1024 / d1n
          let tau := tUs * 65536 / (2 * Probe.nln x10)
          let rPar := d1n * 1024 * 1000000 / ((1024 - x10) * ip)
          (Probe.correct rOut rPar, tau * 1000000 / rPar, false)

/-- A result is present (R72). -/
def Dev.isPresent (s : Dev) (c : Nat) (r : ProbeRec) : Bool :=
  !r.aborted && (r.startHigh || decide ((s.pword c 13).toNat ≤ r.cNf) ||
    (decide (r.rMohm ≤ (s.pword c 14).toNat) && decide (r.rMohm ≠ Probe.unmeasurable)))

/-- Mean of the newest 8 samples of a history. Log 45 (DEDUCED, safe). -/
def meanOf8 (l : List Nat) : Nat := (l.take 8).foldl (· + ·) 0 / 8

/-- A failed precheck: OFF with HOLD_OFF set, and EV_PRECHECK_FAIL with the reason (R75). -/
def Dev.precheckFail (s : Dev) (c reason : Nat) : Dev :=
  let v := meanOf8 (s.block (c / 8)).vinHist
  let o := meanOf8 (s.cell c).outHist
  let s := (s.goto c .off).modCell c (fun x => { x with holdOff := true })
  s.cellEvent c 2 0x012 false (Bits.words2 (s.rtime (c / 64)) ++
    [BitVec.ofNat 32 reason, BitVec.ofNat 32 (v % 65536 + o % 65536 * 65536)])

/-- All checks of PRECHECK have passed and its self-test has ended: WAIT_GRANT, or the cell waits in autonomy (R23, R129). -/
def Dev.precheckDone (s : Dev) (c : Nat) : Dev :=
  let x := s.cell c
  if x.state = .precheck ∧ x.pcVin ∧ x.pcShort ∧ !x.selftestRun ∧ !s.auto (c / 64) then s.goto c .waitGrant else s

/-- The short check of step 3 runs: a probe code is set and p_rshort_mohm does not disable it (R75, Table 3-9). -/
def Dev.shortCheck (s : Dev) (c : Nat) : Bool :=
  decide (s.pf c 0 8 3 ≠ 0) && decide (s.pword c 12 ≠ 0)

/-- Steps 1 and 2 of PRECHECK on a new fast sample (R75): VIN mean in range with the gate drive enabled and no plausibility
failure of the block (`plausOk`, R172), then back-feed. -/
def Dev.precheckStep (s : Dev) (c : Nat) (plausOk : Bool) : Dev :=
  let x := s.cell c
  let b := s.block (c / 8)
  if x.state = .precheck ∧ x.pcVin = false ∧ 8 ≤ b.vinHist.length ∧ 8 ≤ x.outHist.length then
    let v := meanOf8 b.vinHist
    if s.pf c 0x28 0 16 ≤ v ∧ v ≤ s.pf c 0x28 16 16 ∧ b.gateDrive ∧ plausOk then
      if meanOf8 x.outHist + s.pf c 0x2C 0 16 ≤ v then
        let short := s.shortCheck c
        (s.modCell c (fun y => { y with pcVin := true, pcShort := !short })).precheckDone c
      else s.precheckFail c 2
    else s
  else s

/-- The end of a pulse in PRECHECK (R75 step 3): refusal, removal, or the check passes. -/
def Dev.shortResult (s : Dev) (c : Nat) : Dev :=
  let r := (s.cell c).probe
  if r.rMohm ≤ (s.pword c 12).toNat ∧ r.rMohm ≠ Probe.unmeasurable then s.precheckFail c 3
  else if !s.isPresent c r ∧ s.pf c 0 0 2 ≠ 0 then
    let s := (s.goto c .off).modCell c (fun x => { x with holdOff := false, present := false })
    s.presenceEvent c false
  else (s.modCell c (fun x => { x with pcShort := true })).precheckDone c

/-- What a completed probe result does in the cell's state (R72 to R75). -/
def Dev.probeResult (s : Dev) (c : Nat) : Dev :=
  let x := s.cell c
  let present := s.isPresent c x.probe
  let mode := s.pf c 0 0 2
  match x.state with
  | .off =>
    if present then (if mode ≠ 0 then s.goto c .probe else s)
    else s.modCell c (fun y => { y with present := false, holdOff := false })
  | .probe =>
    if present then
      if x.debExpired && !x.confirmed then
        let s := s.modCell c (fun y => { y with present := true, confirmed := true })
        let s := s.presenceEvent c true
        if mode = 2 ∧ !x.holdOff then s.goto c .precheck else s
      else s
    else
      let was := x.present
      let s := (s.goto c .off).modCell c (fun y => { y with present := false, holdOff := false })
      if was then s.presenceEvent c false else s
  | .precheck => if x.pcVin && !x.pcShort then s.shortResult c else s
  | _ => s

/-- A probe pulse may start (R59, R74, R75): the source is free, and periodic pulses are wanted or step 3 waits for one. -/
def Dev.pulseWanted (s : Dev) (c : Nat) : Bool :=
  let x := s.cell c
  x.pulse.isNone && decide (s.pf c 0 8 3 ≠ 0) && decide (x.gate = .controlled) &&
  (match x.state with
   | .off => decide (s.pf c 0 0 2 ≠ 0)
   | .probe => true
   | .precheck => x.pcVin && !x.pcShort
   | _ => false)

end Sys2Proof.Machine
end

