-- ==== Sys2Proof/Machine/CellRows.lean ====
section
/-! DEFINITION. The meanings of the cell events: front end (02), channel control (03), trips and retries (04). Each row tells
that its time has passed or its level was crossed; the meaning acts when the state conditions of the rule hold, and leaves
the state as it is otherwise (log 1). -/

namespace Sys2Proof.Machine

/-- A check of a cell fires, with the other causes of the same clock (R86, R87); in autonomy the next ready cell follows. -/
def Dev.checkFires (s : Dev) (c mask : Nat) : Dev := (s.tripNow c mask).autoNext (c / 64)

/-! ### Front end (02) -/

/-- R44: the controlled pull-down takes over from the strong one. -/
def execStrongPulldownEnd (c : CellIx) (s : State) : Outcome := s.on fun s =>
  .next (s.modCell c (fun x => if x.gate = .strong then { x with gate := .controlled } else x))

/-- R48. -/
def execGateHeadroom (c : CellIx) (also : BitVec 16) (s : State) : Outcome := s.on fun s =>
  .next (s.checkFires c (also.toNat ||| 1 <<< 12))

/-- R49: the block's eight gates go to the controlled pull-down, after a strong one that runs (R47), and CP_FAIL is raised.
Log 43 (DEDUCED, unsafe). -/
def execCpFail (b : BlockIx) (cell : Option (Fin 8)) (s : State) : Outcome := s.on fun s =>
  let s := s.modBlock b (fun k => { k with cpFail := true })
  let s := s.forEach (List.range 8) (fun s i =>
    s.modCell (8 * b + i) (fun x => if x.gate = .strong then x else { x with gate := .controlled }))
  let info := match cell with | some l => 8 * b.val + l.val | none => 0x1FF
  .next (s.occur (b / 8) (8 * (b % 8)) info)

/-- R51: the passive hold is released under an active controlled pull-down while the island runs. -/
def execPassiveHoldRelease (c : CellIx) (s : State) : Outcome := s.on fun s =>
  if (s.region (c / 64)).islandRun ∧ (s.cell c).gate = .controlled then
    .next (s.modCell c (fun x => { x with passiveHold := false }))
  else .next s

/-- R52, R58: the block gate drive is disabled; its driven gates go to the controlled pull-down and their cells trip. -/
def execVinUvlo (b : BlockIx) (also : BitVec 16) (s : State) : Outcome := s.on fun s =>
  let s := s.modBlock b (fun k => { k with gateDrive := false })
  .next ((s.forEach (List.range 8) (fun s i => s.tripNow (8 * b + i) (also.toNat ||| 1 <<< 2))).autoNext (b / 8))

/-- R58. -/
def execGateDriveEnable (b : BlockIx) (s : State) : Outcome := s.on fun s =>
  .next (s.modBlock b (fun k => { k with gateDrive := true }))

/-- R56. -/
def execSenseOpen (c : CellIx) (also : BitVec 16) (s : State) : Outcome := s.on fun s =>
  .next (s.checkFires c (also.toNat ||| 1 <<< 13))

/-- R59, R60: a pulse starts at or below 3.0 V; otherwise the result is START_HIGH. -/
def execProbePulseStart (c : CellIx) (outMv : BitVec 16) (s : State) : Outcome := s.on fun s =>
  if s.pulseWanted c then
    let code := s.pf c 0 8 3
    let t := s.pf c 0x3C 0 20
    if outMv.toNat ≤ 3000 then
      .next (s.modCell c (fun x => { x with
        pulse := some { v0 := outMv.toNat, code := code, tUs := t, precheck := decide (x.state = .precheck) } }))
    else
      .next ((s.modCell c (fun x => { x with
        probe := { v0 := outMv.toNat, startHigh := true, code := code, tc := t } })).probeResult c)
  else .next s

/-- R59: t_c is recorded at the first crossing of V_c. -/
def execClamped (c : CellIx) (tcUs : BitVec 20) (s : State) : Outcome := s.on fun s =>
  .next (s.modCell c (fun x => { x with
    pulse := x.pulse.map (fun p => if p.clampUs.isNone then { p with clampUs := some tcUs.toNat } else p) }))

/-- R61, R63, R72 to R75: the record of the pulse and what its result does. -/
def execProbePulseEnd (c : CellIx) (vh vt : BitVec 16) (s : State) : Outcome := s.on fun s =>
  match (s.cell c).pulse with
  | none => .next s
  | some p =>
    let e := Probe.estimate (Config.rOutMohm c) p.code p.tUs p.v0 vh.toNat vt.toNat p.clampUs
    let r : ProbeRec := {
      rMohm := e.1, cNf := e.2.1, v0 := p.v0, clamped := p.clampUs.isSome, lowSignal := e.2.2, code := p.code
      tc := p.clampUs.getD p.tUs }
    .next ((s.modCell c (fun x => { x with pulse := none, probe := r })).probeResult c)

/-- R49: the reservoir is ready, so the first source current of INRUSH flows. -/
def execPumpReservoirReady (c : CellIx) (s : State) : Outcome := s.on fun s =>
  let s := s.modCell c (fun x => { x with pumpReady := true })
  .next (if (s.cell c).state = .inrush ∧ s.driveAvail c then
      s.modCell c (fun x => { x with gate := .source (s.pf c 0 4 4), holder := .dvdt })
    else s)

/-! ### Presence and precheck (03) -/

/-- R73. -/
def execDebounceExpiry (c : CellIx) (s : State) : Outcome := s.on fun s =>
  .next (s.modCell c (fun x => if x.state = .probe then { x with debExpired := true } else x))

/-- R75: reason 1 when the VIN check has not passed. Log 1 (DESIGN CHOICE, unsafe). -/
def execPrecheckWaitExpiry (c : CellIx) (s : State) : Outcome := s.on fun s =>
  let x := s.cell c
  .next (if x.state = .precheck ∧ x.pcVin = false then s.precheckFail c 1 else s)

/-- R78: EV_GRANT_TIMEOUT once per wait. -/
def execGrantTimeout (c : CellIx) (s : State) : Outcome := s.on fun s =>
  let x := s.cell c
  if x.state = .waitGrant ∧ x.grantLate = false ∧ s.pf c 0x48 0 16 ≠ 0 then
    let s := s.modCell c (fun x => { x with grantLate := true })
    .next (s.cellEvent c 3 0x013 false (Bits.words2 (s.rtime (c / 64)) ++ Bits.words2 x.entered ++
      [BitVec.ofNat 32 (s.pf c 0 12 4 + s.pf c 0 16 3 * 16)]))
  else .next s

/-- R76: removal in ON. -/
def execRemoval (c : CellIx) (s : State) : Outcome := s.on fun s =>
  if (s.cell c).state = .on ∧ s.pf c 0x44 0 16 ≠ 0 ∧ s.pf c 0 0 2 ≠ 0 then
    let s := (s.goto c .off).modCell c (fun x => { x with present := false })
    .next (s.presenceEvent c false)
  else .next s

/-! ### Limiters and power good (03) -/

/-- Which requester holds GATE while the amplifier sinks (R45, R80). -/
def Dev.sinkHolder (s : Dev) (c : Nat) : Holder :=
  let x := s.cell c
  let iState := match x.state with
    | .inrush => some (s.pf c 8 0 24)
    | _ => if s.pf c 0xC 0 24 = 0xFFFFFF then none else some (s.pf c 0xC 0 24)
  let soaFirst := match x.iSoa, x.iAlim with
    | some a, some b => decide (a ≤ b)
    | some _, none => true
    | none, _ => false
  if soaFirst then .soa
  else match x.iPlim, iState with
    | some p, some i => if p < i then .powerLimit else .currentLimit
    | some _, none => .powerLimit
    | none, _ => .currentLimit

/-- R81: a limiter holds current in ON; the cell enters LIMIT with its holder, and EV_LIMIT is raised. -/
def execLimitEntry (c : CellIx) (s : State) : Outcome := s.on fun s =>
  let x := s.cell c
  if x.state = .on ∧ s.driveAvail c ∧ (x.iSoa.isSome ∨ x.iAlim.isSome) then
    let s := s.goto c .limit
    let h := s.sinkHolder c
    let s := s.modCell c (fun x => { x with holder := h, sinking := true, soaHeld := decide (h = .soa) })
    let s := s.cellEvent c 5 0x015 false (Bits.words2 (s.rtime (c / 64)) ++ [BitVec.ofNat 32 h.code])
    .next ((s.levelTrips c).autoNext (c / 64))
  else .next s

/-- R83. -/
def execLimitRelease (c : CellIx) (s : State) : Outcome := s.on fun s =>
  if (s.cell c).state = .limit then .next (((s.goto c .on).levelTrips c).autoNext (c / 64)) else .next s

/-- R82: ON, the reservation released (R77) and EV_POWER_GOOD with the time in INRUSH. -/
def execPowerGood (c : CellIx) (s : State) : Outcome := s.on fun s =>
  let x := s.cell c
  if x.state = .inrush then
    let s := s.goto c .on
    let s := s.cellEvent c 4 0x014 false (Bits.words2 (s.rtime (c / 64)) ++
      [BitVec.ofNat 32 ((s.rtime (c / 64) - x.entered) / 1000)])
    .next ((s.levelTrips c).autoNext (c / 64))
  else .next s

/-- R85: the cause is thermal when the SOA limiter held GATE in the last microsecond. -/
def execInrushTimeout (c : CellIx) (also : BitVec 16) (s : State) : Outcome := s.on fun s =>
  let n := if (s.cell c).soaHeld then 5 else 6
  .next (if (s.cell c).state = .inrush then s.checkFires c (also.toNat ||| 1 <<< n) else s)

/-- R85. -/
def execLimitTimeout (c : CellIx) (also : BitVec 16) (s : State) : Outcome := s.on fun s =>
  let n := if (s.cell c).soaHeld then 5 else 7
  .next (if (s.cell c).state = .limit then s.checkFires c (also.toNat ||| 1 <<< n) else s)

/-- R86. -/
def execOutOv (c : CellIx) (also : BitVec 16) (s : State) : Outcome := s.on fun s =>
  .next (s.checkFires c (also.toNat ||| 1 <<< 9))

/-- R86. -/
def execOutUv (c : CellIx) (also : BitVec 16) (s : State) : Outcome := s.on fun s =>
  .next (s.checkFires c (also.toNat ||| 1 <<< 11))

/-! ### Retries (04) -/

/-- R105, at the evaluation point of R68. -/
def execRuleEvaluation (c : CellIx) (s : State) : Outcome := s.on fun s => .next (s.evaluateRule c)

/-- The retry release conditions beside the backoff: junction, VIN and back-feed (R69), and plausibility (R172). -/
def Dev.retryOk (s : Dev) (c : Nat) : Bool :=
  let x := s.cell c
  let v := (s.block (c / 8)).vinMv
  decide (x.tjEst < Bits.sext 16 (s.pf c 0x64 0 16)) && decide (s.pf c 0x28 0 16 ≤ v) &&
  decide (v ≤ s.pf c 0x28 16 16) && decide (x.outMv + s.pf c 0x2C 0 16 ≤ v) && s.plausOk (c / 8)

/-- R69, R24: COOLDOWN ends in WAIT_GRANT, or in INRUSH in the order of R24 in autonomous mode. -/
def execRetryRelease (c : CellIx) (s : State) : Outcome := s.on fun s =>
  let x := s.cell c
  let g := c.val / 64
  if x.state = .cooldown ∧ s.retryOk c then
    if s.auto g then
      let t := s.rtime g
      let s := s.modCell c (fun x => if x.readyAt.isNone then { x with readyAt := some t } else x)
      .next (if s.noAutoRetry g then s else s.autoNext g)
    else .next (s.goto c .waitGrant)
  else .next s

/-- R104: the window closes and the count returns to 0. -/
def execClassWindowExpiry (c : CellIx) (m : Fin 8) (s : State) : Outcome := s.on fun s =>
  .next (s.modCell c (fun x => { x with classes := Sparse.set (fun _ => {}) x.classes m {} }))

/-- R106: STABLE_S of the rule set of the latest trip is not 0 and the cell is in ON or LIMIT. -/
def execRetryCountClear (c : CellIx) (s : State) : Outcome := s.on fun s =>
  let x := s.cell c
  .next (if (x.state = .on ∨ x.state = .limit) ∧ s.rf (RegMap.ruleB (c / 64) x.tripRule) 20 12 ≠ 0 then
      s.modCell c (fun x => { x with retryCount := 0 })
    else s)

/-! ### Trip lines (04) -/

/-- R98: t_trip_min passes; the source ends early, or with the exit from the hold states. -/
def execTripHoldExpiry (c : CellIx) (s : State) : Outcome := s.on fun s =>
  let g := c.val / 64
  let s := s.withBcast g (fun s => s.modCell c (fun x => match x.src with
    | none => x
    | some t =>
      if t.early || !(x.state.holds || x.safeFromHold) then { x with src := none }
      else { x with src := some { t with minPassed := true } }))
  .next (s.extUpdate g)

/-- R97: the FORCE sources (Table 4-5). -/
def Dev.writeTripForce (s : Dev) (g : Nat) (v : Word) : Dev :=
  (s.setReg (RegMap.tripForce g) (v &&& 0xFFF)).extUpdate g

def execTripForceWrite (g : RegionIx) (v : Word) (s : State) : Outcome := s.on fun s => .next (s.writeTripForce g v)

/-- R100: an external assertion is seen in LEVEL and EXT_SEEN only. -/
def execExtTripLine (g : RegionIx) (i : Fin 8) (low : Bool) (s : State) : Outcome := s.on fun s =>
  let s := s.modRegion g (fun r => { r with
    extLines := if low then r.extLines ||| (1 <<< i.val) else r.extLines &&& (255 ^^^ (1 <<< i.val)) })
  .next (s.extUpdate g)

/-- R101: repeated while the bit is 1. -/
def execTripMessageRepeat (g : RegionIx) (s : State) : Outcome := s.on fun s =>
  .next (if s.bcastBit g then s.sendTrip g true else s)

/-- R102: EV_LINK_TRIP on a change of a mirror bit. -/
def Dev.linkTripEvent (s : Dev) (m : TripMsg) (stale : Bool) : Dev :=
  s.raise { stream := 0x8D, code := 0x0C0, payload := Bits.words2 m.time.toNat ++
    [BitVec.ofNat 32 (m.pos.val + m.region.val * 8 + Bits.b2n m.bit * 64 + Bits.b2n stale * 128 + m.cell.val * 256 +
      m.cause.toNat * 2 ^ 17)] }

/-- R102: forward, mirror, event. A message of this device is discarded. -/
def execTripMessageReceive (link : Link) (m : TripMsg) (s : State) : Outcome := s.on fun s =>
  if m.pos.val = s.ringPos then .next s
  else
    let key := (m.pos.val, m.seq.toNat)
    let known := s.fwdMem.contains key
    let full := decide (64 ≤ (s.fwdMem.filter (fun p => p.1 == m.pos.val)).length)
    let s := if known && !full then s
      else
        let s := s.emit (.tripMsg [if link = .a then 1 else 0] m.pos m.region m.bit m.seq.toNat m.cell m.cause.toNat
          m.time.toNat)
        if full then s else { s with fwdMem := s.fwdMem ++ [key] }
    let i := 8 * m.pos.val + m.region.val
    let was := Bits.nbit s.mirror i
    let off := 2 ^ 64 - 1 - 2 ^ i
    let stale := Bits.nbit s.mirrorStale i
    let s := { s with
      mirror := if m.bit then s.mirror ||| (1 <<< i) else s.mirror &&& off
      mirrorStale := s.mirrorStale &&& off }
    let s := s.forEach (List.range 8) Dev.extUpdate
    .next (if was = m.bit then s else s.linkTripEvent m stale)

/-- R102: a set bit without a message for 1 ms is stale. -/
def execMirrorStale (pos r : Fin 8) (s : State) : Outcome := s.on fun s =>
  let i := 8 * pos.val + r.val
  .next (if Bits.nbit s.mirror i then { s with mirrorStale := s.mirrorStale ||| (1 <<< i) } else s)

/-- R102: a remembered pair is forgotten. -/
def execForwardMemoryExpiry (pos : Fin 8) (q : BitVec 16) (s : State) : Outcome := s.on fun s =>
  .next { s with fwdMem := s.fwdMem.filter (fun p => p != (pos.val, q.toNat)) }

/-- A write of RGN_LINK_TRIP: the masks, and CLEAR of every mirror bit and stale mark they select (Table 4-6). -/
def Dev.writeLinkTrip (s : Dev) (g : Nat) (v : Word) : Dev :=
  let s := s.setReg (RegMap.linkTrip g) (v &&& 0xFFFFFF)
  let s := if Bits.bit v 24 then
      let keep := 2 ^ 64 - 1 - s.linkSelect g
      { s with mirror := s.mirror &&& keep, mirrorStale := s.mirrorStale &&& keep }
    else s
  s.extUpdate g

def execLinkTripClear (g : RegionIx) (v : Word) (s : State) : Outcome := s.on fun s => .next (s.writeLinkTrip g v)

end Sys2Proof.Machine
end

