-- ==== Sys2Proof/Machine/Comparators.lean ====
section
/-! DEFINITION. Window monitors and comparators (spec/05): outputs and modes, majority filters, edge capture, routing of edges,
window events, self-test, and the SHORT_CIRCUIT trip of the asynchronous path. -/

namespace Sys2Proof

def CmpSel.block : CmpSel → Nat
  | .ilo c | .ihi c | .isc c => c.val / 8
  | .vlo b | .vhi b => b.val

def CmpGroup.block : CmpGroup → Nat
  | .cell c => c.val / 8
  | .vin b => b.val

/-- Active-low comparators (R113, R115). -/
def CmpSel.activeLow : CmpSel → Bool
  | .ilo _ | .vlo _ => true
  | _ => false

/-- The raw output a level gives (R113): inside the band it holds. -/
def CmpLevel.raw (low old : Bool) : CmpLevel → Bool
  | .above => !low
  | .below => low
  | .inside => old

/-- Lane, source number and bit of the routing registers of a comparator (Tables 5-7 and 5-8). -/
def CmpSel.route : CmpSel → Nat × Nat × Nat
  | .ilo c => (c % 8, 0, c % 8)
  | .ihi c => (c % 8, 1, 8 + c % 8)
  | .isc c => (c % 8, 2, 16 + c % 8)
  | .vlo _ => (0, 3, 24)
  | .vhi _ => (0, 4, 25)

/-- The group whose window position a comparator feeds; I_SC feeds none. -/
def CmpSel.group : CmpSel → Option CmpGroup
  | .ilo c | .ihi c => some (.cell c)
  | .isc _ => none
  | .vlo b | .vhi b => some (.vin b)

end Sys2Proof

namespace Sys2Proof.Machine

/-! ### Selecting a comparator -/

def Dev.cmp (s : Dev) : CmpSel → Cmp
  | .ilo c => (s.cell c).ilo
  | .ihi c => (s.cell c).ihi
  | .isc c => (s.cell c).isc
  | .vlo b => (s.block b).vlo
  | .vhi b => (s.block b).vhi

def Dev.setCmp (s : Dev) (x : CmpSel) (k : Cmp) : Dev :=
  match x with
  | .ilo c => s.modCell c (fun y => { y with ilo := k })
  | .ihi c => s.modCell c (fun y => { y with ihi := k })
  | .isc c => s.modCell c (fun y => { y with isc := k })
  | .vlo b => s.modBlock b (fun y => { y with vlo := k })
  | .vhi b => s.modBlock b (fun y => { y with vhi := k })

/-! ### Window position (R119) -/

def Cmp.winPos (lo hi : Cmp) (sampled : Bool) : Nat :=
  if !sampled || lo.bandInit || hi.bandInit then 3 else if hi.out then 2 else if lo.out then 1 else 0

def Dev.winPos (s : Dev) : CmpGroup → Nat
  | .cell c => Cmp.winPos (s.cell c).ilo (s.cell c).ihi (s.cell c).win.sampled
  | .vin b => Cmp.winPos (s.block b).vlo (s.block b).vhi (s.block b).vwin.sampled

def Dev.winEv (s : Dev) : CmpGroup → WinEv
  | .cell c => (s.cell c).win
  | .vin b => (s.block b).vwin

def Dev.setWinEv (s : Dev) (x : CmpGroup) (w : WinEv) : Dev :=
  match x with
  | .cell c => s.modCell c (fun y => { y with win := w })
  | .vin b => s.modBlock b (fun y => { y with vwin := w })

/-- EV_WINDOW or EV_VIN_WINDOW with the changes since the last one (R128, Table 11-10). -/
def Dev.sendWindow (s : Dev) (x : CmpGroup) : Dev :=
  let w := s.winEv x
  let g := x.block / 8
  let payload := Bits.words2 w.last ++ [BitVec.ofNat 32 (s.winPos x + w.changes % 256 * 256)]
  let e : Event := match x with
    | .cell c => Event.ofCell c 0x019 false payload
    | .vin b => { stream := 0x40 + b, code := 0x01A, obj := b, payload := payload }
  (s.setWinEv x { w with changes := 0, holdoff := true }).raiseIsland g false e

/-- The window event of the group is selected in RGN_CMP_EVT (R128). -/
def Dev.windowOn (s : Dev) (x : CmpGroup) : Bool :=
  let w := RegMap.cmpEvt x.block
  match x with
  | .cell c => s.rb w (c % 8) || s.rb w (8 + c % 8)
  | .vin _ => s.rb w 24 || s.rb w 25

/-- A change of the window position: counted, and raised unless one was raised in the last 100 us (R128).
Log 50 (DEDUCED, unsafe). -/
def Dev.windowChange (s : Dev) (x : CmpGroup) (before : Nat) : Dev :=
  if s.winPos x = before ∨ s.windowOn x = false then s
  else
    let w := s.winEv x
    let s := s.setWinEv x { w with changes := Bits.satAdd 255 w.changes 1, last := s.rtime (x.block / 8) }
    if w.holdoff then s else s.sendWindow x

/-! ### Edges (R124 to R126) -/

/-- Append an edge record to a block's queue, or drop and count it (R125). Log 51 (DEDUCED, unsafe). -/
def Dev.captureEdge (s : Dev) (b lane src : Nat) (dir async trip : Bool) (time : Nat) : Dev :=
  let k := s.block b
  let q := (k.edgeSeq + 1) % 65536
  if k.edges.length < 32 then
    let e : EdgeRec := { time := time / 4 * 4, lane := lane, src := src, dir := dir, async := async, trip := trip
                         seq := k.edgeSeq, lost := min 65535 k.edgeDropped }
    s.setBlock b { k with edges := k.edges ++ [e], edgeSeq := q, edgeDropped := 0 }
  else s.setBlock b { k with edgeSeq := q, edgeDropped := k.edgeDropped + 1, edgeLost := Bits.satAdd 255 k.edgeLost 1 }

/-- A routing register selects an edge of a comparator in a direction (Table 5-7). -/
def Dev.edgeSel (s : Dev) (w : Nat) (x : CmpSel) (dir : Bool) : Bool :=
  s.rb w x.route.2.2 && (match s.rf w 26 2 with
    | 0 => dir
    | 1 => !dir
    | _ => true)

/-- The consequences of an edge of a filtered output: edge queue and barge interrupt (R124, R126). -/
def Dev.filteredEdge (s : Dev) (x : CmpSel) (dir trip : Bool) : Dev :=
  let b := x.block
  let w := RegMap.cmpEdge b
  let async := match x with | .isc _ => s.rb w 28 | _ => false
  let s := if s.edgeSel w x dir && !async then
      s.captureEdge b x.route.1 x.route.2.1 dir false trip (s.rtime (b / 8))
    else s
  if s.edgeSel (RegMap.cmpIrq b) x dir then s.irqIsland (b / 8) b 17 else s

/-! ### Filter samples (R120) -/

/-- One sample of a majority filter: `k` of the last `n`. -/
def Cmp.sample (x : Cmp) (k n : Nat) : Cmp :=
  let h := (x.raw :: x.hist).take n
  { x with hist := h, out := decide (k ≤ (h.filter id).length) }

/-- Sample one comparator and act on its edge; `trip` marks an edge that trips the cell. -/
def Dev.sampleCmp (s : Dev) (x : CmpSel) (k n : Nat) (trip : Bool) : Dev :=
  let old := s.cmp x
  let new := if old.mode = .off then old else old.sample k n
  let s := s.setCmp x new
  if new.out = old.out then s else s.filteredEdge x new.out (trip && new.out)

/-- k and n of a cell's filters (p_filt_k, p_filt_n) or of a block's (RGN_VIN_FILT). -/
def Dev.filterKN (s : Dev) : CmpGroup → Nat × Nat
  | .cell c => (max 1 (s.pf c 0x50 16 4), max 1 (s.pf c 0x50 20 4))
  | .vin b =>
    let n := max 1 (s.rf (RegMap.vinFilt b) 4 4)
    (min n (max 1 (s.rf (RegMap.vinFilt b) 0 4)), n)

/-- A filter sample of the three comparators of a cell: outputs, window position and event, synchronous trips. -/
def Dev.cellCmpSample (s : Dev) (c : CellIx) : Dev :=
  let x : CmpGroup := .cell c
  let kn := s.filterKN x
  let before := s.winPos x
  let hiTrips := s.checkArmed c 8
  let loTrips := s.checkArmed c 3
  let s := s.sampleCmp (.ilo c) kn.1 kn.2 loTrips
  let s := s.sampleCmp (.ihi c) kn.1 kn.2 hiTrips
  let s := s.sampleCmp (.isc c) kn.1 kn.2 false
  let s := s.modCell c (fun y => { y with iscQual := y.iscQual && y.isc.raw })
  let s := s.setWinEv x { s.winEv x with sampled := true }
  let s := s.windowChange x before
  let y := s.cell c
  s.checkFires c (Bits.b2n y.ihi.out * 2 ^ 8 + Bits.b2n y.ilo.out * 2 ^ 3)

/-- The same for the two VIN comparators of a block; an output beyond its window trips the block's cells. -/
def Dev.vinCmpSample (s : Dev) (b : BlockIx) : Dev :=
  let x : CmpGroup := .vin b
  let kn := s.filterKN x
  let before := s.winPos x
  let trips := (List.range 8).any (fun i => s.checkArmed (8 * b + i) 10)
  let s := s.sampleCmp (.vlo b) kn.1 kn.2 trips
  let s := s.sampleCmp (.vhi b) kn.1 kn.2 trips
  let s := s.setWinEv x { s.winEv x with sampled := true }
  let s := s.windowChange x before
  let y := s.block b
  if y.vlo.out || y.vhi.out then
    (s.forEach (List.range 8) (fun s i => s.tripNow (8 * b + i) (1 <<< 10))).autoNext (b / 8)
  else s

/-- R120, R119, R124, R126, R128 and the synchronous trips of R86 and R115: while a self-test runs every value holds (R130). -/
def execComparatorFilterSample (x : CmpGroup) (s : State) : Outcome := s.on fun s =>
  match x with
  | .cell c => .next (if (s.cell c).selftestRun then s else s.cellCmpSample c)
  | .vin b => .next (if (s.block b).vtestRun then s else s.vinCmpSample b)

/-! ### Crossings and modes (R113, R116 to R118) -/

/-- R113, R118: the input crosses the threshold or leaves its band. A comparator in off only notes where its input lies. -/
def execComparatorCrossing (x : CmpSel) (l : CmpLevel) (s : State) : Outcome := s.on fun s =>
  let k := s.cmp x
  let k := if k.mode = .off then { k with level := l }
    else { k with level := l, raw := l.raw x.activeLow k.raw, bandInit := k.bandInit && decide (l = .inside) }
  .next (s.setCmp x k)

/-- A mode field of a comparator changes to `m` (R116, R117): slower at once, off at once without an edge, faster after t_up. -/
def Dev.setMode (s : Dev) (x : CmpSel) (m : CmpMode) : Dev :=
  let k := s.cmp x
  if m = k.mode then s.setCmp x { k with pendingMode := none }
  else if m = .off then
    let before := x.group.map s.winPos
    let s := s.setCmp x { k with mode := .off, pendingMode := none, raw := false, out := false, bandInit := false
                                 hist := k.hist.map (fun _ => false) }
    match x.group, before with
    | some gr, some p => s.windowChange gr p
    | _, _ => s
  else if k.mode.code < m.code then s.setCmp x { k with mode := m, pendingMode := none }
  else s.setCmp x { k with pendingMode := some m }

/-- R116, R118: t_up has passed. A comparator that leaves off starts inactive; inside its band it sets BAND_INIT. -/
def execModeSettled (x : CmpSel) (s : State) : Outcome := s.on fun s =>
  let k := s.cmp x
  match k.pendingMode with
  | none => .next s
  | some m =>
    let k := if k.mode = .off then
        { k with mode := m, pendingMode := none, bandInit := decide (k.level = .inside)
                 raw := k.level.raw x.activeLow false }
      else { k with mode := m, pendingMode := none }
    .next (s.setCmp x k)

/-- R128: the 100 us end; coalesced changes are raised as one event. -/
def execEvWindowHoldoffExpiry (x : CmpGroup) (s : State) : Outcome := s.on fun s =>
  let w := s.winEv x
  let s := s.setWinEv x { w with holdoff := false }
  .next (if w.changes = 0 then s else s.sendWindow x)

/-! ### Edge queue (R125) -/

/-- An edge record as four words (Table 5-8). -/
def EdgeRec.words (e : EdgeRec) : List Word :=
  Bits.words2 e.time ++
  [BitVec.ofNat 32 (e.lane % 8 + e.src % 8 * 8 + Bits.b2n e.dir * 64 + Bits.b2n e.async * 128 + Bits.b2n e.trip * 256 +
     e.seq % 65536 * 65536), BitVec.ofNat 32 (e.lost % 65536)]

/-- The oldest record and the queue without it; an empty queue reads zeros. -/
def Dev.popEdge (s : Dev) (b : Nat) : List Word × Dev :=
  match (s.block b).edges with
  | [] => ([0, 0, 0, 0], s)
  | e :: l => (e.words, s.modBlock b (fun k => { k with edges := l }))

def execEdgeDataRead (b : BlockIx) (s : State) : Outcome := s.on fun s =>
  let (w, s) := s.popEdge b
  .next (s.emit (.readData w))

/-! ### Asynchronous path (R122, R123) -/

/-- R123: a qualified output trips an armed cell, restarts the strong pull-down in TRIPPED, and does nothing elsewhere. The
edge is captured when RGN_CMP_EDGE selects the qualified output. `edge` is the comparator edge's own time (R124). -/
def execShortCircuit (c : CellIx) (edge : DWord) (also : BitVec 16) (s : State) : Outcome := s.on fun s =>
  let x := s.cell c
  let g := c.val / 64
  let t := edge.toNat / 4 * 4
  if x.isc.mode = .off then .next s
  else if x.state.armed || decide (x.state = .tripped) then
    let w := RegMap.cmpEdge (c / 8)
    let s := s.modCell c (fun y => { y with iscQual := true })
    let s := if s.rb w 28 && s.edgeSel w (.isc c) true then
        s.captureEdge (c / 8) (c % 8) 2 true true x.state.armed t
      else s
    if x.state.armed then .next ((s.tripAt c (also.toNat ||| 2) t).autoNext g)
    else .next (s.modCell c (fun y => { y with gate := .strong }))
  else .next s

/-! ### Self-test (R129, R130) -/

/-- R130: the test ends. A failure sets SELFTEST_FAIL, holds the block's gates off, after a strong pull-down that
runs (R47), and raises CMP_SELFTEST_FAIL; a pass lets
PRECHECK go on (R129). -/
def execComparatorSelftestEnd (x : CmpGroup) (pass : Bool) (s : State) : Outcome := s.on fun s =>
  let b := x.block
  let g := b / 8
  let running := match x with
    | .cell c => (s.cell c).selftestRun
    | .vin b => (s.block b).vtestRun
  if !running then .next s
  else
    let s := match x with
      | .cell c => s.modCell c (fun y => { y with selftestRun := false, selftestFail := y.selftestFail || !pass })
      | .vin b => s.modBlock b (fun y => { y with vtestRun := false, vtestFail := y.vtestFail || !pass
                                                  vtestAt := some (s.rtime g) })
    if pass then
      match x with
      | .cell c => .next (s.precheckDone c)
      | .vin _ => .next s
    else
      let s := s.forEach (List.range 8) (fun s i =>
        s.modCell (8 * b + i) (fun y => if y.gate = .strong then y else { y with gate := .controlled }))
      let info := match x with | .cell c => c.val | .vin _ => 0x1FF
      .next (s.occur g (8 * (b % 8) + 1) info)

end Sys2Proof.Machine
end

