-- ==== Sys2Proof/Machine/Conversion.lean ====
section
/-! DEFINITION. The conversion paths (spec/06): corrected values (R161), fast samples, tags and frames, integrating windows,
low-power gating, the SOA tick (spec/03 R80 to R90) and the auxiliary converter; energy, spans and plausibility of spec/07 at
the point where their samples arise. -/

namespace Sys2Proof

def VinSpan.steady (x : VinSpan) (tol : Nat) : Bool := decide (x.hi.toNat - x.lo.toNat ≤ tol)

end Sys2Proof

namespace Sys2Proof.Machine

/-! ### Corrected values (R161, R137) -/

/-- One correction of R161: the limited value, and whether the limit acted. -/
def Conv.correct (x ofs : Int) (gain : Nat) : Int × Bool :=
  let y := ((x - ofs) * gain + 2 ^ 29) / 2 ^ 30
  if 8388607 < y then (8388607, true) else if y < -8388607 then (-8388607, true) else (y, false)

/-- Factory trim, then the system coefficients of the words at `off` (offset) and `off + 4` (gain). -/
def Dev.corrected (s : Dev) (quantity ix off : Nat) (x : Int) : Int × Bool :=
  let a := Conv.correct x (Config.trimOfs quantity ix) (Config.trimGain quantity ix)
  let b := Conv.correct a.1 (s.reg off).toInt (s.reg (off + 4)).toNat
  (b.1, a.2 || b.2)

/-- p_isense_range and its full scale in microvolts (R53). -/
def Dev.range (s : Dev) (c : Nat) : Nat := s.pf c 0 2 2
def Dev.fsUv (s : Dev) (c : Nat) : Nat := 25000 * 2 ^ s.range c

/-- Corrected current and voltage of a cell from raw values; voltages are 0 and above. -/
def Dev.correctedI (s : Dev) (c : Nat) (x : Int) : Int × Bool :=
  s.corrected (s.range c) c (RegMap.calCell c + 8 * s.range c) x
def Dev.correctedV (s : Dev) (c : Nat) (x : Int) : Int :=
  max 0 (s.corrected 3 c (RegMap.calCell c + 0x18) x).1
def Dev.correctedVin (s : Dev) (b : Nat) (x : Int) : Int := max 0 (s.corrected 4 b (RegMap.calVin b) x).1

/-- The fast current code and SAT (R137): x * 32768 / FS in the internal scale, rounded. -/
def Conv.iCode (x : Int × Bool) : Int × Bool :=
  if x.2 then (if 0 ≤ x.1 then (32767, true) else (-32768, true))
  else (max (-32767) (min 32766 ((x.1 + 128) / 256)), false)

/-- The fast voltage code in mV and SAT (R137). -/
def Conv.vCode (x : Int) : Nat × Bool :=
  let r := ((x + 64) / 128).toNat
  if 65535 < r then (65535, true) else (r, false)

/-- Microamperes of a fast code (R162). -/
def Dev.codeUa (s : Dev) (c : Nat) (i : Int) : Int :=
  (i * (s.fsUv c) * 1000000).tdiv (32768 * (s.pword c 1).toNat)
/-- Microamperes of an integrating value (R146). -/
def Dev.valueUa (s : Dev) (c : Nat) (v : Int) : Int :=
  (v * (s.fsUv c) * 1000000).tdiv (8388608 * (s.pword c 1).toNat)

/-! ### Energy and span samples (R162, R163, R165) -/

/-- One sample: `i`, `v` are the codes used, `t` the frame time, `ua` the current in microamperes. -/
def Lane.sample (l : Lane) (t : Nat) (i ua : Int) (v : Nat) (bridged iSat vSat : Bool) : Lane :=
  let dt := match l.eTime with | some p => t - p | none => 0
  let e : Int := (v : Int) * ua * dt
  let f := l.accFwd + (max 0 e).toNat
  let r := l.accRev + (max 0 (-e)).toNat
  { l with
    eTime := some t, gap := false
    accFwd := f % 10 ^ 12, accRev := r % 10 ^ 12
    eFwd := (l.eFwd + f / 10 ^ 12) % 2 ^ 64, eRev := (l.eRev + r / 10 ^ 12) % 2 ^ 64
    win := { l.win with iOvr := l.win.iOvr || iSat, vOvr := l.win.vOvr || vSat }
    span := { l.span with
      wSq := l.span.wSq + (i * i).toNat, wN := l.span.wN + 1
      wPeak := if l.span.wPeak.natAbs < i.natAbs then i else l.span.wPeak
      wGaps := l.span.wGaps + Bits.b2n bridged } }

/-! ### Fast samples and frames (R135 to R142) -/

/-- The settle count after a sample (R138). -/
def Conv.nextSettle (settle : Nat) (reset wait : Bool) : Nat :=
  if reset then 3 else if wait && decide (settle = 3) then 3 else settle - 1

/-- The tag of a lane's sample without SEQ6 (Table 6-2). Log 55 (DEDUCED, unsafe). -/
def Lane.tagOf (l : Lane) (osr range : Nat) (sat : Bool) : Nat :=
  l.settle + Bits.b2n (decide (l.settle = 0) && !l.stopped) * 4 + Bits.b2n sat * 8 + Bits.b2n l.stopped * 16 +
    osr * 32 + range * 128

/-- One lane at a decimation boundary: its sample, tag, energy and settle count. Log 56 (DEDUCED, unsafe). -/
def Dev.laneSample (s : Dev) (c t osr : Nat) (xi xv : Int) (after16 : Bool) : Dev :=
  let l := s.lane c
  let x := s.cell c
  let i := Conv.iCode (s.correctedI c xi)
  let v := Conv.vCode (s.correctedV c xv)
  let valid := decide (l.settle = 0) && !l.stopped
  let sat := (i.2 || v.2) && !l.stopped
  let s := if valid then
      s.modCell c (fun x => { x with iSmp := i.1, outMv := v.1, outHist := (v.1 :: x.outHist).take 8 })
    else s.modCell c (fun x => { x with outHist := [] })
  let ui := if valid then i.1 else x.iSmp
  let uv := if valid then v.1 else x.outMv
  let ua := s.codeUa c ui
  let reset := l.resetPend && after16
  s.modLane c (fun l =>
    let tag := l.tagOf osr (s.range c) sat
    let l := if l.stopped || (l.gap && !valid) then l else l.sample t ui ua uv (!valid) (valid && i.2) (valid && v.2)
    { l with
      tag := tag, settle := if l.stopped && !reset then 3 else Conv.nextSettle l.settle reset l.resetPend
      fresh := reset, stopped := l.stopped && !reset, resetPend := l.resetPend && !reset })

/-- The calibration words of a block, its cells and its region's auxiliary balls reach their commit point (R174).
Log 60 (DEDUCED, unsafe). -/
def Dev.commitCal (s : Dev) (b : Nat) : Dev :=
  let mine := fun (k : Nat) =>
    (decide (RegMap.calVin b ≤ k) && decide (k < RegMap.calVin b + 8)) ||
    (List.range 8).any (fun l => decide (RegMap.calCell (8 * b + l) ≤ k) && decide (k < RegMap.calCell (8 * b + l) + 48)) ||
    (decide (RegMap.calAux (b / 8) 0 ≤ k) && decide (k < RegMap.calAux (b / 8) 8))
  s.forEach ((s.regsPend.map (·.1)).filter mine) Dev.commitReg

/-- Commit a pending OSR (R139): every filter of the block then waits for its reset. -/
def Dev.commitOsr (s : Dev) (b : Nat) : Dev :=
  let old := s.rf (RegMap.convCfg b) 0 2
  let s := s.commitBits (RegMap.convCfg b) 3
  if s.rf (RegMap.convCfg b) 0 2 = old then s
  else
    let s := s.modConv b (fun k => { k with osrPend := true, vinReset := true })
    s.forEach (List.range 8) (fun s l => s.modLane (8 * b + l) (fun y => if y.stopped then y else { y with resetPend := true }))

/-- The VIN sample of a boundary. -/
def Dev.vinSample (s : Dev) (b osr : Nat) (x : Int) (after16 : Bool) : Dev :=
  let k := s.conv b
  let v := Conv.vCode (s.correctedVin b x)
  let valid := decide (k.vinSettle = 0)
  let reset := k.vinReset && after16
  let s := if valid then s.modBlock b (fun y => { y with vinMv := v.1, vinHist := (v.1 :: y.vinHist).take 8 })
    else s.modBlock b (fun y => { y with vinHist := [] })
  s.modConv b (fun k => { k with
    vinTag := k.vinSettle + Bits.b2n valid * 4 + Bits.b2n v.2 * 8 + osr * 32 + k.seq % 64 * 1024
    vinWin := { k.vinWin with vOvr := k.vinWin.vOvr || (valid && v.2) }
    vinSettle := Conv.nextSettle k.vinSettle reset k.vinReset, vinReset := k.vinReset && !reset })

/-- The codes a frame carries for a lane: as computed, or 0 for a stopped lane (R141). -/
def Dev.frameCodes (s : Dev) (c : Nat) (xi xv : Int) : Nat × Nat :=
  if (s.lane c).stopped then (0, 0)
  else (Bits.ofInt 16 (Conv.iCode (s.correctedI c xi)).1, (Conv.vCode (s.correctedV c xv)).1)

/-- The frame of a boundary (R141), from the state before its samples are taken. -/
def Dev.frameOf (s : Dev) (b t : Nat) (x : BlockInputs) : Frame :=
  let lanes := List.range 8
  let codes := lanes.map (fun l => s.frameCodes (8 * b + l) (x.i.getD l 0).toInt (x.v.getD l 0).toInt)
  let mask := fun (f : Lane → Bool) => lanes.foldl (fun a l => if f (s.lane (8 * b + l)) then a ||| (1 <<< l) else a) 0
  { time := t, valid := mask (fun l => decide (l.settle = 0) && !l.stopped)
    settle := mask (fun l => l.fresh && decide (l.settle = 3) && !l.stopped)
    trip := (s.conv b).trip, block := b, seq := (s.conv b).seq, i := codes.map (·.1), v := codes.map (·.2) }

/-- R135 to R142, R162, R75: calibration commits first; then the samples, tags and the frame of the boundary; then the OSR
commit, which never resets at its own boundary (R139). -/
def execDecimationBoundary (b : BlockIx) (x : BlockInputs) (s : State) : Outcome := s.on fun s =>
  let g := b.val / 8
  let t := s.rtime g / 4 * 4
  let s := s.commitCal b
  let k := s.conv b
  let frame := s.frameOf b t x
  let s := s.vinSample b k.osr x.vin.toInt (x.after16.getLsbD 8)
  let s := s.forEach (List.range 8) (fun s l =>
    s.laneSample (8 * b + l) t k.osr (x.i.getD l 0).toInt (x.v.getD l 0).toInt (x.after16.getLsbD l))
  let s := s.forEach (List.range 8) (fun s l =>
    s.modLane (8 * b + l) (fun y => { y with tag := y.tag % 1024 + k.seq % 64 * 1024 }))
  let switch := k.osrPend && x.osr16
  let s := s.modConv b (fun k => { k with
    seq := (k.seq + 1) % 2 ^ 32, trip := 0, osrPend := k.osrPend && !switch
    osr := if switch then s.rf (RegMap.convCfg b) 0 2 else k.osr })
  let s := if s.straitUp g then s.modConv b (fun k => { k with frames := k.frames ++ [frame] }) else s
  let s := s.commitOsr b
  let ok := s.plausOk b
  .next (s.forEach (List.range 8) (fun s l => s.precheckStep (8 * b + l) ok))

/-! ### Spans and telemetry (R165 to R168) -/

/-- The integer square root, truncated, of a number below 4^k. -/
def Conv.isqrtFrom : Nat → Nat → Nat → Nat
  | 0, _, r => r
  | k + 1, n, r => Conv.isqrtFrom k n (if (r + 2 ^ k) * (r + 2 ^ k) ≤ n then r + 2 ^ k else r)
def Conv.isqrt (n : Nat) : Nat := Conv.isqrtFrom 40 n 0

/-- Current in uA and voltage drop in uV of a completed span, when every condition of R168 but PATH_OFS_VALID holds. -/
def Dev.spanPoint (s : Dev) (c : Nat) (p : Span) (meanUa meanUv : Int) : Option (Int × Int) :=
  let b := c / 8
  let vinUv := (p.vinSum.tdiv p.windows * 125).tdiv 16
  let ofs := (s.reg (RegMap.calCell c + 0x20)).toInt
  let limit : Int := ((s.fsUv c * 1000000 / (16 * (s.pword c 1).toNat) : Nat) : Int)
  if s.rb (RegMap.mtrCfg b) 2 && p.rOk && !p.iOvr && !p.vOvr && decide (limit ≤ meanUa) && decide (0 < meanUa) &&
     decide (0 ≤ vinUv - meanUv - ofs) then some (meanUa, vinUv - meanUv)
  else none

/-- R_PATH_UOHM of a completed span, when every condition of R168 holds. -/
def Dev.rPath (s : Dev) (c : Nat) (p : Span) (meanUa meanUv : Int) : Option Nat :=
  match s.spanPoint c p meanUa meanUv with
  | some (i, dv) =>
    if s.rb (RegMap.calCell c + 0x24) 0 then
      some (((dv - (s.reg (RegMap.calCell c + 0x20)).toInt) * 1000000).tdiv i).toNat
    else none
  | none => none

/-- The telemetry record of Table 7-2. -/
def Dev.telRecord (s : Dev) (c : Nat) (l : Lane) (p : Span) (group : Bool) (t : Nat) (meanUa meanUv : Int)
    (r : Option Nat) : List Word :=
  let ns := t - p.start
  let mp := (((l.eFwd : Int) - p.fwd0 - ((l.eRev : Int) - p.rev0)) * 1000000).tdiv ns
  let w := fun (v : Int) => BitVec.ofInt 32 v
  Bits.words2 t ++
  [BitVec.ofNat 32 l.rcd.winSeq,
   BitVec.ofNat 32 (c % 512 + Bits.b2n group * 2 ^ 9 + Bits.b2n l.abortSeen * 2 ^ 10 + Bits.b2n p.iOvr * 2 ^ 11 +
     Bits.b2n p.vOvr * 2 ^ 12 + Bits.b2n l.telGap * 2 ^ 13 + (s.cell c).state.code * 2 ^ 14),
   w meanUa, w meanUv, w (s.codeUa c (Conv.isqrt (p.sq / p.n))), w (s.codeUa c p.peak)] ++
  Bits.words2 l.eFwd ++ Bits.words2 l.eRev ++
  [w mp, BitVec.ofNat 32 (r.getD 0xFFFFFFFF),
   BitVec.ofNat 32 (Bits.ofInt 16 (s.cell c).tjEst + min 65535 p.n * 65536), BitVec.ofNat 32 (min 65535 p.gaps)]

/-- The end of a span (R165, R166, R168): R_PATH, the record when TELEM asks and the strait is up, and a new span. -/
def Dev.spanEnd (s : Dev) (c t : Nat) (group : Bool) : Dev :=
  let l := s.lane c
  let p := l.span
  let meanUa := s.valueUa c (p.iSum.tdiv p.windows)
  let meanUv := (p.vSum.tdiv p.windows * 125).tdiv 16
  let r := s.rPath c p meanUa meanUv
  let send := decide (s.rf (RegMap.mtrCfg (c / 8)) 0 2 ≠ 0) && s.straitUp (c / 64)
  let s := if send then { s with telq := s.telq ++ [{ stream := c / 8, words := s.telRecord c l p group t meanUa meanUv r }] }
    else s
  s.modLane c (fun l => { l with
    rPath := r, spanPt := s.spanPoint c p meanUa meanUv, meanUa := meanUa, spanEnd := t
    abortSeen := l.abortSeen && !send, telGap := l.telGap && !send
    span := { start := t, fwd0 := l.eFwd, rev0 := l.eRev, wOn := decide ((s.cell c).state = .on) } })

/-! ### Integrating windows (R144 to R150) -/

/-- The value of a window (R146). -/
def Conv.windowValue (n m : Nat) : Int :=
  max (-8388607) (min 8388607 ((((2 * n : Nat) : Int) - m) * 8388608 |>.tdiv m))

/-- Averaging group length and shift of a configuration (R149). -/
def Conv.group (cfg : Word) : Nat := 2 ^ min 8 (Bits.fld cfg 16 4)
def Conv.avgShift (cfg : Word) : Nat := min 8 (Bits.fld cfg 20 4)

/-- The record and the next window after a complete window (R146, R148, R149). -/
def Window.finish (w : Window) (r : IntRec) (t clocks : Nat) (iv vv : Int) (next : Word) : IntRec × Window :=
  let si := w.iSum + iv
  let sv := w.vSum + vv
  let full := decide (Conv.group w.cfg ≤ w.n + 1)
  let keep := !full && decide (Bits.fld w.cfg 16 8 = Bits.fld next 16 8)
  ({ endTime := t, winSeq := (r.winSeq + 1) % 2 ^ 32, clocks := clocks, iOvr := w.iOvr, vOvr := w.vOvr, avgNew := full
     iVal := iv, vVal := vv
     iAvg := if full then si / 2 ^ Conv.avgShift w.cfg else r.iAvg
     vAvg := if full then sv / 2 ^ Conv.avgShift w.cfg else r.vAvg },
   Window.begin t next (if keep then w.n + 1 else 0) (if keep then si else 0) (if keep then sv else 0))

/-- The window of a cell joins its span (R165, R168). -/
def Span.add (p : Span) (w : Window) (iv vv : Int) (vin : Option Int) : Span :=
  { p with
    windows := p.windows + 1, iSum := p.iSum + iv, vSum := p.vSum + vv, vinSum := p.vinSum + vin.getD 0
    rOk := p.rOk && p.wOn && vin.isSome, sq := p.sq + p.wSq, n := p.n + p.wN
    peak := if p.peak.natAbs < p.wPeak.natAbs then p.wPeak else p.peak, gaps := p.gaps + p.wGaps
    iOvr := p.iOvr || w.iOvr, vOvr := p.vOvr || w.vOvr, wSq := 0, wN := 0, wPeak := 0, wGaps := 0 }

/-- R146 to R150, R165 to R168. The window fields commit at the end of each window (R148). Of windows that end in one clock
that of VIN is told first, so that a cell's window finds the VIN window of its END_TIME (R168). Log 54 (DEDUCED, safe). -/
def execWindowEnd (x : CmpGroup) (iOnes vOnes clocks : BitVec 25) (s : State) : Outcome := s.on fun s =>
  let b := x.block
  let t := s.rtime (b / 8)
  let m := clocks.toNat
  let vv := Conv.windowValue vOnes.toNat m
  match x with
  | .vin _ =>
    if (s.conv b).vinWin.running ∧ 0 < m then
      let v := s.correctedVin b vv
      let s := s.commitBits (RegMap.convCfg b) Conv.winBits
      let next := s.reg (RegMap.convCfg b)
      .next (s.modConv b (fun k =>
        let r := k.vinWin.finish k.vinRec t m 0 v next
        { k with vinRec := r.1, vinWin := r.2 }))
    else .next s
  | .cell c =>
    if (s.lane c).win.running ∧ 0 < m then
      let iv := (s.correctedI c (Conv.windowValue iOnes.toNat m)).1
      let v := s.correctedV c vv
      let s := s.commitBits (RegMap.convCfg b) Conv.winBits
      let next := s.reg (RegMap.convCfg b)
      let vr := (s.conv b).vinRec
      let vin := if vr.endTime = t ∧ !vr.aborted then some vr.vVal else none
      let on := decide ((s.cell c).state = .on)
      let s := s.modLane c (fun l =>
        let r := l.win.finish l.rcd t m iv v next
        { l with rcd := r.1, win := r.2, span := { l.span.add l.win iv v vin with wOn := on } })
      let l := s.lane c
      let perWindow := decide (s.rf (RegMap.mtrCfg b) 0 2 = 1)
      .next (if perWindow || l.rcd.avgNew then s.spanEnd c t (!perWindow)
        else if l.win.n = 0 then s.modLane c (fun l => { l with span := { start := t, fwd0 := l.eFwd, rev0 := l.eRev, wOn := on } })
        else s)
    else .next s

/-- A lock restarts the integration of a block, or the path is switched on (R145, R147). -/
def Dev.restartWindows (s : Dev) (b : Nat) : Dev :=
  let (clocks, s) := s.drawNat
  let s := s.abortVin b clocks
  s.forEach (List.range 8) (fun s l => if (s.lane (8 * b + l)).stopped then s else s.abortWindow (8 * b + l) clocks true)

/-- A lock naming a block commits its fast and integrating paths and its VIN calibration (Table 8-15). -/
def Dev.commitBlock (s : Dev) (b : Nat) : Dev :=
  let s := s.commitOsr b
  let was := Conv.winOn (s.reg (RegMap.convCfg b))
  let s := s.commitBits (RegMap.convCfg b) Conv.winBits
  let s := (s.commitReg (RegMap.calVin b)).commitReg (RegMap.calVin b + 4)
  if !was && Conv.winOn (s.reg (RegMap.convCfg b)) then s.restartWindows b else s

/-! ### Low-power gating (R151, R152) -/

/-- R151: a lane that gating stopped runs for a probe pulse. -/
def execLaneRestart (c : CellIx) (s : State) : Outcome := s.on fun s =>
  if (s.lane c).stopped then .next ((s.modLane c (fun l => { l with forPulse := true })).startLane c) else .next s

/-- R151, R152: the lane stops after the pulse, in the states gating names. -/
def execLaneStop (c : CellIx) (clocks : BitVec 25) (s : State) : Outcome := s.on fun s =>
  let s := s.modLane c (fun l => { l with forPulse := false })
  .next (if s.gated c then s.stopLane c clocks.toNat else s)

/-- A write of RGN_CONV_CFG: GATING is live (Table 6-6). -/
def Dev.writeConvCfg (s : Dev) (b : Nat) (v : Word) : Dev :=
  let off := RegMap.convCfg b
  let s := (s.putReg off 2 2 (Bits.fld v 2 2)).pendReg off v 0x00FFFFF3
  s.forEach (List.range 8) (fun s l =>
    let c := 8 * b + l
    let (clocks, s) := if s.gated c && !(s.lane c).stopped then s.drawNat else (0, s)
    s.gateLane c clocks)

/-! ### SOA tick (R80, R84, R88 to R90) -/

/-- T_amb and AMB_FALLBACK of a cell (R89). -/
def Dev.ambient (s : Dev) (c : Nat) : Int × Bool :=
  let g := c / 64
  let a := s.pf c 0x68 0 5
  let r := Sparse.get (fun _ => {}) (s.aux g).res a
  if a < 8 ∨ 19 < a ∨ (a < 16 ∧ s.rb (RegMap.auxCfg g) a = false) ∨ s.rb (RegMap.auxMask g) a = false ∨ r.valid = false then
    (Bits.sext 16 (s.pf c 0x64 16 16), true)
  else (Bits.sext 16 r.value, false)

/-- One pole (R88): the product and sum are exact. Log 52 (DEDUCED, unsafe). -/
def Soa.pole (theta tgt alpha : Nat) : Nat :=
  ((theta : Int) + ((((tgt : Int) - theta) * alpha + 2 ^ 31) / 2 ^ 32)).toNat

/-- Entry m of p_soa_tbl (Table 3-9: two 16-bit entries per word from 0x6C). -/
def Dev.soaTbl (s : Dev) (c m : Nat) : Nat := s.pf c (0x8C + 4 * (m / 2)) (16 * (m % 2)) 16

/-- The allowed current in units of 10 mA; none is no limit (R90). -/
def Dev.soaAllowed (s : Dev) (c : Nat) (tj : Int) : Option Nat :=
  let lim := fun (v : Nat) => if v = 0xFFFF then none else some v
  let margin := Bits.sext 16 (s.pf c 0x60 0 16) - tj
  let step := s.pf c 0x68 16 16
  if margin ≤ 0 then lim (s.soaTbl c 0)
  else
    let m := margin.toNat / step
    let f := margin.toNat - m * step
    if 15 ≤ m then lim (s.soaTbl c 15)
    else
      let a := s.soaTbl c m
      let b := s.soaTbl c (m + 1)
      if a = 0xFFFF then none
      else if b = 0xFFFF then some a
      else some (((a : Int) + (((b : Int) - a) * f).tdiv step).toNat)

/-- The lesser of two limits. -/
def Soa.least : Option Nat → Option Nat → Option Nat
  | none, y => y
  | x, none => x
  | some x, some y => some (min x y)

/-- The power limit in mA (R80). -/
def Dev.powerLimit (s : Dev) (c : Nat) : Option Nat :=
  let p := s.pf c 0x10 0 24
  let dv := (s.block (c / 8)).vinMv - (s.cell c).outMv
  if dv < 100 ∨ p = 0xFFFFFF then none else some (p * 1000 / dv)

/-- The reference code of the regulation amplifier (R80): rounded down, at most the top code. -/
def Dev.refCodeOf (s : Dev) (c : Nat) (limit : Option Nat) : Nat :=
  match limit with
  | none => 4095
  | some ma => min 4095 (ma * (s.pword c 1).toNat * 2048 / (s.fsUv c * 1000))

/-- The power-good conditions of R82. -/
def Dev.pgoodNow (s : Dev) (c : Nat) (headroom sinking : Bool) : Bool :=
  headroom && !sinking && decide ((s.block (c / 8)).vinMv ≤ (s.cell c).outMv + s.pf c 0x1C 0 16)

/-- One SOA tick of one cell: temperature, limits, the holder of GATE, the inrush and fault timers. -/
def Dev.soaCell (s : Dev) (c : Nat) (headroom : Bool) : Dev :=
  let x := s.cell c
  let iMa := max 0 ((x.iSmp * (s.fsUv c) * 1000).tdiv (32768 * (s.pword c 1).toNat))
  let p := min 16777215 (((s.block (c / 8)).vinMv - x.outMv) * iMa.toNat / 1000)
  let pole := fun (th n : Nat) => Soa.pole th (p * (s.pword c (31 + n)).toNat) (s.pword c (27 + n)).toNat
  let t0 := pole x.theta0 0
  let t1 := pole x.theta1 1
  let t2 := pole x.theta2 2
  let t3 := pole x.theta3 3
  let amb := s.ambient c
  let tj := Bits.sat 16 (amb.1 + (((t0 + t1 + t2 + t3) * 64 / 1000000000 : Nat) : Int))
  let iSoa := (s.soaAllowed c tj).map (· * 10)
  let iPlim := s.powerLimit c
  let iState := if x.state = .inrush then some (s.pf c 8 0 24)
    else if s.pf c 0xC 0 24 = 0xFFFFFF then none else some (s.pf c 0xC 0 24)
  let iAlim := Soa.least iState iPlim
  let ref := s.refCodeOf c (Soa.least iSoa iAlim)
  let armed := x.state.armed && s.driveAvail c
  let sinking := armed && decide (ref < 4095) && decide ((16 * ref : Int) < x.iSmp)
  let s := s.modCell c (fun x => { x with
    theta0 := t0, theta1 := t1, theta2 := t2, theta3 := t3, tjEst := tj, ambFallback := amb.2
    iSoa := iSoa, iPlim := iPlim, iAlim := iAlim, refCode := ref, sinking := sinking, headroomOk := headroom
    pgood := s.pgoodNow c headroom sinking
    inrushUs := if x.state = .inrush then x.inrushUs - 1 else x.inrushUs
    faultUs := if x.state = .limit ∧ (sinking ∨ !headroom) then x.faultUs - 1 else x.faultUs })
  let h := if sinking then s.sinkHolder c
    else match x.state with
      | .inrush => .dvdt
      | .on | .limit => .commandedOn
      | _ => x.holder
  s.modCell c (fun x => { x with
    holder := if armed then h else x.holder, soaHeld := decide (h = .soa) && armed })

/-- R88, R80: the tick of the eight cells of a block, then the THERMAL check (Table 3-5). Bit l of `headroom`: GATE - OUT of
lane l is at or above the headroom level (R48). Log 53 (DEDUCED, unsafe). -/
def execSoaTick (b : BlockIx) (headroom : BitVec 8) (s : State) : Outcome := s.on fun s =>
  let s := s.forEach (List.range 8) (fun s l => s.soaCell (8 * b + l) (headroom.getLsbD l))
  .next (s.forEach (List.range 8) (fun s l =>
    let c := 8 * b + l
    if Bits.sext 16 (s.pf c 0x60 16 16) ≤ (s.cell c).tjEst then s.checkFires c (1 <<< 4) else s))

/-! ### Auxiliary converter (R153 to R158) -/

def Aux.result (x : Aux) (a : Nat) : AuxRes := Sparse.get (fun _ => {}) x.res a
def Aux.setResult (x : Aux) (a : Nat) (r : AuxRes) : Aux := { x with res := Sparse.set (fun _ => {}) x.res a r }

/-- The next input of the scan above `a`, or the lowest; `first` starts a pass. -/
def Aux.scanNext (mask : Word) (a : Nat) : Option Nat :=
  match (List.range 24).filter (fun i => decide (a < i) && Bits.bit mask i) with
  | i :: _ => some i
  | [] => ((List.range 24).filter (fun i => Bits.bit mask i)).head?

/-- The multiplexer switches after a conversion, or when an idle converter gets work (R154, R156). Log 62 (DEDUCED, unsafe). -/
def Dev.auxNext (s : Dev) (g : Nat) : Dev :=
  let mask := s.reg (RegMap.auxMask g)
  let x := s.aux g
  match x.queued with
  | some a => s.setAux g { x with current := some a, inUrgent := true, queued := none }
  | none =>
    if !s.rb (RegMap.auxCfg g) 2 then s.setAux g { x with current := none, inUrgent := false }
    else
      let n := match x.resume with
        | some r => if Bits.bit mask r then some r else Aux.scanNext mask r
        | none => Aux.scanNext mask x.lastInput
      s.setAux g { x with current := n, inUrgent := false, resume := none }

/-- An idle converter that has work starts. -/
def Dev.auxWake (s : Dev) (g : Nat) : Dev :=
  if (s.aux g).current.isNone && (s.region g).islandRun then s.auxNext g else s

/-- An urgent request for input `a` (R156). -/
def Dev.auxUrgent (s : Dev) (g a : Nat) : Dev :=
  let x := s.aux g
  let drop := { x with overrun := true, overruns := Bits.satAdd 255 x.overruns 1 }
  if !s.rb (RegMap.auxCfg g) 2 then s.setAux g drop
  else if x.inUrgent then
    (if x.queued.isNone then s.setAux g { x with queued := some a } else s.setAux g drop)
  else s.setAux g { x with current := some a, inUrgent := true, resume := x.current.or x.resume }

/-- R156, Table 6-12: inputs 24 to 31 are ignored. -/
def execAuxUrgentWrite (g : RegionIx) (v : Word) (s : State) : Outcome := s.on fun s =>
  .next (if Bits.fld v 0 5 < 24 then s.auxUrgent g (Bits.fld v 0 5) else s)

/-- R154: VALID of removed inputs clears at once; the scan set is taken at the next switch. -/
def Dev.writeAuxMask (s : Dev) (g : Nat) (v : Word) : Dev :=
  let s := s.setReg (RegMap.auxMask g) (v &&& 0x00FFFFFF)
  let s := s.modAux g (fun x => (List.range 24).foldl (fun x a =>
    if Bits.bit v a then x else x.setResult a { x.result a with valid := false }) x)
  s.auxWake g

def execAuxMaskWrite (g : RegionIx) (v : Word) (s : State) : Outcome := s.on fun s => .next (s.writeAuxMask g v)

/-- NTC point m: ratio and temperature (Table 6-9). -/
def Dev.ntcPoint (s : Dev) (g m : Nat) : Nat × Int :=
  (s.rf (RegMap.auxNtc g m) 0 16, Bits.sext 16 (s.rf (RegMap.auxNtc g m) 16 16))

/-- Linear interpolation between two NTC points, truncating toward zero (R155). -/
def Aux.between (a b : Nat × Int) (q : Nat) : Int :=
  if a.1 = b.1 then a.2 else a.2 + ((b.2 - a.2) * ((a.1 : Int) - q)).tdiv ((a.1 : Int) - b.1)

/-- Temperature of a ratio along the points from m on; `none` below the last point (R155). -/
def Dev.ntcSearch (s : Dev) (g q : Nat) : Nat → Nat → Option Int
  | 0, _ => none
  | k + 1, m =>
    let b := s.ntcPoint g (m + 1)
    if b.1 ≤ q then some (Aux.between (s.ntcPoint g m) b q) else s.ntcSearch g q k (m + 1)

/-- A temperature from a ratio: value and whether it lies in the table (R155). -/
def Dev.ntcTemp (s : Dev) (g q : Nat) : Int × Bool :=
  if (s.ntcPoint g 0).1 < q then ((s.ntcPoint g 0).2, false)
  else match s.ntcSearch g q 15 0 with
    | some t => (t, true)
    | none => ((s.ntcPoint g 15).2, false)

/-- A value limited to a range, and whether it lay inside. -/
def Aux.limit (lo hi x : Int) : Int × Bool := (max lo (min hi x), decide (lo ≤ x) && decide (x ≤ hi))

/-- The stored value of input `a` in the unit of Table 6-8, and whether it is in range (R153, R155). `x` is the trimmed result:
7.8125 uV per unit, or 1/64 degC for the die sensors. Log 59 (DEDUCED, unsafe). -/
def Dev.auxValue (s : Dev) (g a : Nat) (x : Int) : Int × Bool :=
  if a < 8 then Aux.limit 0 65535 (x.tdiv 128)
  else if a < 16 then
    let off := RegMap.calAux g (a - 8)
    let y := max 0 (Conv.correct x (s.reg off).toInt (s.reg (off + 4)).toNat).1
    if s.rb (RegMap.auxCfg g) a then s.ntcTemp g (y * 65536 / 320000).toNat
    else Aux.limit 0 50000 ((y * 5) / 32)
  else if a < 20 then Aux.limit (-32768) 32767 x
  else Aux.limit 0 65535 ((x * 5).tdiv 32)

/-- Nominal results of the reference inputs (Table 6-8). -/
def Aux.nominal : Nat → Int
  | 20 => 24000 | 21 => 25000 | 22 => 18000 | _ => 0

/-- A die temperature source with its two levels (Table 17-2, 67 and 68). -/
def Dev.dieCheck (s : Dev) (g a src : Nat) (t hi lo : Int) : Dev :=
  let s := if hi ≤ t then s.occur g src a else s
  if [16, 17, 18, 19].all (fun i => decide (Bits.sext 16 ((s.aux g).result i).value < lo)) then s.unoccur g src else s

/-- The plausibility decision of a stored result of input `a` (R170, R171). Log 61 (DEDUCED, unsafe). -/
def Dev.plausible (s : Dev) (g a : Nat) (value : Nat) (vin : Option VinSpan) : Dev :=
  let cfg := RegMap.plausCfg g
  let bit := 1 <<< a
  let x := s.aux g
  if !s.rb cfg 0 then s
  else
    let tol := fun (v : VinSpan) => s.rf cfg 10 16 + v.mean.toNat * s.rf cfg 2 8 / 1000
    let clear := x.confirm &&& (2 ^ 64 - 1 - bit)
    let steady := match vin with | some v => v.steady (tol v) | none => false
    if !steady then s.setAux g { x with unsteady := Bits.satAdd 255 x.unsteady 1, confirm := clear }
    else
      let ok := match vin with
        | some v => decide (((value : Int) - v.mean.toNat).natAbs ≤ tol v)
        | none => false
      let fails := Bits.nbit x.fail a
      if ok then
        let n := Sparse.get (fun _ => 0) x.passes a + 1
        if fails && decide (4 ≤ n) then
          (s.setAux g { x with confirm := clear, fail := x.fail &&& (2 ^ 64 - 1 - bit)
                               passes := Sparse.set (fun _ => 0) x.passes a 0 }).unoccur g (8 * a + 4)
        else s.setAux g { x with confirm := clear, passes := Sparse.set (fun _ => 0) x.passes a (if fails then n else 0) }
      else
        let x := { x with mismatches := Bits.satAdd 255 x.mismatches 1, passes := Sparse.set (fun _ => 0) x.passes a 0 }
        if fails then s.setAux g x
        else if Bits.nbit x.confirm a then
          (s.setAux g { x with confirm := clear, fail := x.fail ||| bit, failSeen := x.failSeen ||| bit }).occur g (8 * a + 4)
            0xFFFFFFFF
        else (s.setAux g { x with confirm := x.confirm ||| bit }).auxUrgent g a

/-- R153, R155 to R158, R170 to R172: the result of the running conversion is stored, the multiplexer switches, and the result
is checked. -/
def execAuxConversionEnd (g : RegionIx) (x : Word) (vin : Option VinSpan) (s : State) : Outcome := s.on fun s =>
  let k := s.aux g
  match k.current with
  | none => .next s
  | some a =>
    let v := s.auxValue g a x.toInt
    let mask := s.reg (RegMap.auxMask g)
    let inTable := v.2 || !(decide (8 ≤ a) && decide (a < 16) && s.rb (RegMap.auxCfg g) a)
    let r : AuxRes := {
      value := Bits.ofInt 16 v.1, valid := (k.inUrgent || Bits.bit mask a) && inTable, urgent := k.inUrgent
      rangeErr := !v.2, pass := k.scans }
    let last := ((List.range 24).filter (fun i => Bits.bit mask i)).getLast?
    let s := s.setAux g { k.setResult a r with
      scans := if !k.inUrgent && decide (last = some a) then (k.scans + 1) % 256 else k.scans
      lastInput := if k.inUrgent then k.lastInput else a
      current := none, inUrgent := false, urgentDone := k.urgentDone || k.inUrgent }
    let s := if k.inUrgent && s.straitUp g then s.irqRegion g 18 else s
    let s := if 20 ≤ a ∧ 1000 < (v.1 - Aux.nominal a).natAbs then s.occur g 66 a else s
    let s := if 16 ≤ a ∧ a < 20 then (s.dieCheck g a 67 v.1 8000 7680).dieCheck g a 68 v.1 8960 8320 else s
    let s := s.auxNext g
    .next (if a < 8 then s.plausible g a r.value vin else s)

end Sys2Proof.Machine
end

