-- ==== Sys2Proof/Machine/Metering.lean ====
section
/-! DEFINITION. The trend log (spec/07 R169) and the system calibration slots (R176, R177). -/

namespace Sys2Proof.Machine

/-- R169: the first qualified R_PATH after the interval; the oldest of 64 entries is overwritten; none while autonomous. -/
def execTrendLogAppend (c : CellIx) (s : State) : Outcome := s.on fun s =>
  let l := s.lane c
  match l.rPath with
  | none => .next s
  | some r =>
    if s.auto (c / 64) then .next s
    else
      let e : Trend := { time := l.spanEnd, rUohm := r, tj := Bits.ofInt 16 (s.cell c).tjEst
                         mean10mA := min 65535 (l.meanUa.toNat / 10000) }
      .next (s.modLane c (fun l => { l with trend := (if l.trend.length < 64 then l.trend else l.trend.drop 1) ++ [e] }))

/-- The offsets of the coefficient words of region `g` in a slot (Table 7-7): cells, VIN, auxiliary balls. -/
def Cal.offsets (g : Nat) : List Nat :=
  (List.range 64).flatMap (fun i => (List.range 10).map (fun w => RegMap.calCell (64 * g + i) + 4 * w)) ++
  (List.range 8).flatMap (fun i => [RegMap.calVin (8 * g + i), RegMap.calVin (8 * g + i) + 4]) ++
  (List.range 8).flatMap (fun i => [RegMap.calAux g i, RegMap.calAux g i + 4])

/-- The valid slot with the higher sequence number: its key in `calSlots` (R177). -/
def Dev.calNewest (s : Dev) (g : Nat) : Option (Nat × CalSlot) :=
  match s.calSlots.filter (fun p => p.1 / 2 == g) with
  | [] => none
  | [p] => some p
  | p :: q :: _ => if p.2.seq < q.2.seq then some q else some p

/-- Store the coefficients in effect of a region in the slot that does not hold the newer copy (R176). -/
def Dev.calStore (s : Dev) (g : Nat) : Dev :=
  let (key, seq) := match s.calNewest g with
    | none => (2 * g, 1)
    | some p => (4 * g + 1 - p.1, p.2.seq + 1)
  let words : Sparse Word := (Cal.offsets g).filterMap (fun o => if s.reg o = RegMap.reset o then none else some (o, s.reg o))
  { s with calSlots := Sparse.insert (Sparse.erase s.calSlots key) key { seq := seq % 2 ^ 32, words := words } }

/-- R177, R415: the newer valid slot is loaded, or CAL_CRC is raised and the reset coefficients stay; ISLAND_CAL is set. -/
def execCalLoad (g : RegionIx) (s : State) : Outcome := s.on fun s =>
  if !(s.region g).islandUp || (s.region g).islandCal then .next s
  else
    let s := match s.calNewest g with
      | none => s.occur g 70 0xFFFFFFFF
      | some p => s.forEach p.2.words (fun s w => s.setReg w.1 w.2)
    .next (s.modRegion g (fun r => { r with islandCal := true }))

end Sys2Proof.Machine
end

