-- ==== Sys2Proof/Machine/Timebase.lean ====
section
/-! DEFINITION. The timebase, its discipline, the island replicas and the cabinet links (spec/08 R178 to R194). -/

namespace Sys2Proof.Machine

def Dev.replica (s : Dev) (g : Nat) : Replica := Sparse.get (fun _ => {}) s.replicas g
def Dev.setReplica (s : Dev) (g : Nat) (v : Replica) : Dev :=
  { s with replicas := Sparse.set (fun _ => {}) s.replicas g v }
def Dev.lockTable (s : Dev) (t : Nat) : LockTable := Sparse.get (fun _ => {}) s.lk.tables t
def Dev.setLockTable (s : Dev) (t : Nat) (v : LockTable) : Dev :=
  { s with lk := { s.lk with tables := Sparse.set (fun _ => {}) s.lk.tables t v } }
def Dev.modLockTable (s : Dev) (t : Nat) (f : LockTable → LockTable) : Dev := s.setLockTable t (f (s.lockTable t))

/-! ### The count (R178, R179) -/

/-- Largest rate trim, 500 ppm (R178). -/
def Tb.maxRate : Int := 2147484

/-- A value limited to the legal rate range. -/
def Tb.limitRate (v : Int) : Int := max (-Tb.maxRate) (min Tb.maxRate v)

/-- The replicas that do not follow a tick of the timebase of `d` ns: one of a sleeping island stands still (R423), one of a
running island counts on while the timebase does not run. -/
def Dev.tickReplicas (s : Dev) (d : Int) : Dev :=
  { s with regions := Sparse.mapv (fun _ => {}) (fun _ x =>
      if !x.islandRun then x
      else if x.asleep then { x with replicaOff := x.replicaOff - d }
      else if s.tb.running then x else { x with replicaOff := x.replicaOff + 4 }) s.regions }

/-- One tick of the timebase domain (R178): the trim and any slew go into the accumulator; 8, 0 or 4 ns. -/
def Dev.tick (s : Dev) : Dev :=
  let tb := s.tb
  let s := { s with ticks := s.ticks + 1 }
  let s := if s.pwr.mode = 2 then { s with pwr := { s.pwr with stopped := s.pwr.stopped + 1 } } else s
  if !tb.running then s.tickReplicas 0
  else
    let k := Tb.limitRate tb.slew
    let f := (tb.frac : Int) + tb.rate + k
    let d : Nat := if 2 ^ 32 ≤ f then 8 else if f < 0 then 0 else 4
    { s.tickReplicas d with
      tbTime := (s.tbTime + d) % 2 ^ 64
      tb := { tb with frac := Bits.ofInt 32 f, slew := tb.slew - k
                      slewing := if tb.state = .free then decide (Tb.maxRate ≤ tb.slew.natAbs) else tb.slewing } }

/-- R179: the low half latches the upper. -/
def Dev.readTbLow (s : Dev) : Word × Dev :=
  (BitVec.ofNat 32 (s.tbTime / 4 * 4), { s with tb := { s.tb with latch := BitVec.ofNat 32 (s.tbTime >>> 32) } })

def execTbTimeRead (s : State) : Outcome := s.on fun s =>
  let (w, s) := s.readTbLow
  .next (s.emit (.readData [w]))

/-! ### Discipline (R181 to R184) -/

def TbState.code : TbState → Nat
  | .free => 0 | .acquire => 1 | .locked => 2 | .holdover => 3

/-- SRC of TB_DISC_CFG: 6 and 7 act as 0 (Table 8-5). -/
def Dev.tbSrc (s : Dev) : Nat :=
  let n := s.rf RegMap.tbDiscCfg 0 3
  if 5 < n then 0 else n
def Dev.tbAlt (s : Dev) : Nat :=
  let n := s.rf RegMap.tbDiscCfg 3 3
  if 5 < n then 0 else n

/-- LOCK_NS: 0 acts as 1. -/
def Dev.lockNs (s : Dev) : Nat := max 1 (s.rf RegMap.tbDiscCfg 20 12)

/-- A change of the discipline state raises EV_TB_STATE (R181, Table 11-10). -/
def Dev.tbGoto (s : Dev) (n : TbState) (active : Nat) : Dev :=
  let old := s.tb.state
  let s := { s with tb := { s.tb with state := n, active := active, good := 0, bad := 0 } }
  if old = n then s
  else s.raise { stream := 0x88, code := 0x080, payload := Bits.words2 s.tbTime ++
    [BitVec.ofNat 32 (n.code + old.code * 8 + active * 64), BitVec.ofInt 32 s.tb.offset] }

/-- A forward step of the timebase (R183, R184): the replicas stay until their discipline words carry the step, and the
chip-table copies it passes over are late. -/
def Dev.tbStep (s : Dev) (n : Nat) : Dev :=
  let now := s.tbTime + n
  let s := { s with tbTime := now % 2 ^ 64, tb := { s.tb with stepSeen := true } }
  let s := s.forEach (List.range 8) (fun s g =>
    let s := s.setReplica g { s.replica g with stepPend := (s.replica g).stepPend + n }
    s.modRegion g (fun r => { r with replicaOff := r.replicaOff - n }))
  s.modLockTable 8 (fun t => { t with copies := t.copies.map (fun k =>
    if k.e.time.toNat < now then { k with late := true } else k) })

/-- The rate a servo leaves: the spec gives its time constant and its limit, not its arithmetic, so the trim and whether it is
at its limit are free values (log 2). Log 64 (DESIGN CHOICE, safe). -/
def Dev.tbServo (s : Dev) : Dev :=
  let (r, s) := s.drawWord
  let (l, s) := s.drawNat
  { s with tb := { s.tb with rate := Tb.limitRate r.toInt, slewing := l % 2 == 1 } }

/-- One measurement of the active source (R181, R183). `off` is TB_TIME less the source's time, in ns; ppb for source 5. -/
def Dev.measured (s : Dev) (off : Int) : Dev :=
  let s := { s with tb := { s.tb with offset := max (-4194303) (min 4194303 off) } }
  let src := s.tb.active
  match s.tb.state with
  | .free => s
  | .holdover => s.tbGoto .acquire src
  | .acquire =>
    let s := if off < -1000000 ∧ src ≠ 5 then s.tbStep (-off).toNat else s.tbServo
    let good := if off.natAbs < s.lockNs then s.tb.good + 1 else 0
    let s := { s with tb := { s.tb with good := good } }
    if 8 ≤ good then s.tbGoto .locked src else s
  | .locked =>
    let s := s.tbServo
    let bad := if 4 * s.lockNs < off.natAbs then s.tb.bad + 1 else 0
    let s := { s with tb := { s.tb with bad := bad } }
    if 4 ≤ bad then s.tbGoto .acquire src else s

/-- A measurement of source `src`: the active one feeds the servo; 8 of SRC while ALT_SRC is active bring SRC back (R182). -/
def Dev.discipline (s : Dev) (src : Nat) (off : Int) : Dev :=
  if src = 0 ∨ 5 < src then s
  else if src = s.tb.active then s.measured off
  else if src = s.tbSrc then
    let n := s.tb.srcGood + 1
    if 8 ≤ n then ({ s with tb := { s.tb with srcGood := 0 } }).tbGoto .acquire src
    else { s with tb := { s.tb with srcGood := n } }
  else s

def execDisciplineMeasurement (src : BitVec 3) (offset : DWord) (s : State) : Outcome := s.on fun s =>
  .next (s.discipline src.toNat offset.toInt)

/-- HOLDOVER from ACQUIRE or LOCKED: the last rate trim is held (R181). -/
def Dev.tbHold (s : Dev) : Dev :=
  if s.tb.state = .acquire ∨ s.tb.state = .locked then s.tbGoto .holdover s.tb.active else s

/-- R181: four intervals without a measurement. -/
def execTbHoldover (s : State) : Outcome := s.on fun s => .next s.tbHold

/-- R182. -/
def execAltSourceSwitch (s : State) : Outcome := s.on fun s =>
  .next (if s.tb.state = .holdover ∧ s.tbAlt ≠ 0 then
      ({ s with tb := { s.tb with srcGood := 0 } }).tbGoto .acquire s.tbAlt
    else s)

/-- A write of TB_DISC_CFG (R182): a new SRC or ALT_SRC takes effect at once in ACQUIRE, or in FREE without a source; the rate
trim of TB_RATE holds in FREE (R181). Log 65 (DEDUCED, unsafe). -/
def Dev.writeDiscCfg (s : Dev) (v : Word) : Dev :=
  let changed := decide (s.rf RegMap.tbDiscCfg 0 6 ≠ Bits.fld v 0 6)
  let s := s.setReg RegMap.tbDiscCfg (v &&& 0xFFFFFF7F)
  if !changed then s
  else
    let s := { s with tb := { s.tb with srcGood := 0, slew := 0, slewing := false } }
    if s.tbSrc = 0 then ({ s with tb := { s.tb with rate := s.tb.free } }).tbGoto .free 0
    else s.tbGoto .acquire s.tbSrc

def execTbSourceSelect (v : Word) (s : State) : Outcome := s.on fun s => .next (s.writeDiscCfg v)

/-- TB_RATE (Table 8-2): the trim while SRC = 0, otherwise ignored with ADJ_REFUSED (Table 8-8). Log 66 (DEDUCED, unsafe). -/
def Dev.writeTbRate (s : Dev) (v : Word) : Dev :=
  if s.tbSrc = 0 then
    let r := Tb.limitRate v.toInt
    { s with tb := { s.tb with rate := r, free := r } }
  else { s with tb := { s.tb with adjRefused := true } }

def execTbRateWrite (v : Word) (s : State) : Outcome := s.on fun s => .next (s.writeTbRate v)

/-- TB_ADJ (R183): at least 1 000 000 ns steps, every other value slews at up to 500 ppm. -/
def Dev.writeTbAdj (s : Dev) (v : Word) : Dev :=
  if s.tbSrc ≠ 0 then { s with tb := { s.tb with adjRefused := true } }
  else if 1000000 ≤ v.toInt then s.tbStep v.toInt.toNat
  else { s with tb := { s.tb with slew := s.tb.slew + v.toInt * 2 ^ 30 } }

def execTbAdj (v : Word) (s : State) : Outcome := s.on fun s => .next (s.writeTbAdj v)

/-- PPS_OUT (Table 8-5). -/
def execSyncOutPps (s : State) : Outcome := s.on fun s =>
  .next (if s.rb RegMap.tbDiscCfg 6 then ({ s with tb := { s.tb with syncOut := true } }).emit (.syncPulse 1000) else s)

/-- SYNC_OUT returns low. -/
def execSyncPulseEnd (s : State) : Outcome := s.on fun s => .next { s with tb := { s.tb with syncOut := false } }

/-! ### Island replicas (R185 to R188) -/

/-- The replica of region `g` steps by `n` ns; copies of its table that it passes over are late (R187, R201). -/
def Dev.replicaStep (s : Dev) (g : Nat) (n : Int) : Dev :=
  let s := s.modRegion g (fun r => { r with replicaOff := r.replicaOff + n })
  let now := s.rtime g
  let s := s.setReplica g { s.replica g with stepped := true, lastStep := max (-2147483647) (min 2147483647 n) }
  if n < 0 then s
  else s.modLockTable g (fun t => { t with copies := t.copies.map (fun k =>
    if k.e.time.toNat < now then { k with late := true } else k) })

/-- The cells whose CH_ON waited for the replica after a wake go to PRECHECK (R423). Log 47 (DEDUCED, unsafe). -/
def Dev.wakeRelease (s : Dev) (g : Nat) : Dev :=
  if !(s.region g).woke then s
  else
    (s.modRegion g (fun r => { r with woke := false })).forEach ((List.range 64).map (fun i => 64 * g + i)) (fun s c =>
      let x := s.cell c
      if !x.wakeOn then s
      else
        let s := s.modCell c (fun x => { x with wakeOn := false })
        if x.state = .off ∧ !x.holdOff then s.goto c .precheck else s)

/-- The state of a replica, mirrored by HOLDOVER of RGN_STRAIT_STAT (R186). -/
def Dev.replicaState (s : Dev) (g : Nat) (st : ReplicaState) : Dev :=
  let s := s.modRegion g (fun r => { r with replica := st, holdover := decide (st = .holdover) })
  if st = .locked then s.wakeRelease g else s

/-- A sleeping region wakes (R423, R425): its clock runs, its replica enters ACQUIRE, and SCL stretched for the wake is let
go. Log 36 (DEDUCED, unsafe). -/
def Dev.wakeRegion (s : Dev) (g : Nat) : Dev :=
  if !(s.region g).asleep then s
  else
    let s := (s.modRegion g (fun r => { r with asleep := false, woke := true })).replicaState g .acquire
    let s := s.setReplica g { s.replica g with fresh := true, marks := 0, sum := 0 }
    { s with tows := Sparse.mapv (fun _ => {}) (fun k x => if k / 2 = g then { x with stretch := false } else x) s.tows }

/-- PWR_WAKE_CAUSE (Table 18-6). -/
def Dev.wakeCause (s : Dev) (bit : Nat) : Dev := { s with pwr := { s.pwr with cause := s.pwr.cause ||| 1 <<< bit } }

/-- The core wakes: STANDBY ends in IDLE (R425). Log 38 (DEDUCED, unsafe). -/
def Dev.wakeCore (s : Dev) : Dev :=
  if s.pwr.mode = 2 then { s with pwr := { s.pwr with mode := 1 }, mg := { s.mg with stretch := false } } else s

/-- An access from the host wakes the core and the region it addresses (Table 18-6, bit 4). Log 37 (DEDUCED, unsafe). -/
def Dev.wakeAccess (s : Dev) (g : Option Nat) : Dev :=
  let sleeps := match g with
    | some g => (s.region g).asleep
    | none => false
  if sleeps || decide (s.pwr.mode = 2) then
    let s := (s.wakeCause 4).wakeCore
    match g with
    | some g => s.wakeRegion g
    | none => s
  else s

/-- The average of 64 marks (R185, R186, R188): LOCKED below 1 ns; in HOLDOVER an offset above 2 us is stepped, a smaller one
slewed. -/
def Dev.replicaAverage (s : Dev) (g : Nat) (mean : Int) : Dev :=
  let s := s.setReplica g { s.replica g with marks := 0, sum := 0, err := mean }
  if mean.natAbs < 10 then
    (s.modRegion g (fun r => { r with replicaOff := 0 })).replicaState g .locked
  else if (s.region g).replica = .holdover ∧ 20000 < mean.natAbs then
    let n := -(mean.tdiv 10)
    let s := s.modRegion g (fun r => { r with replicaOff := -n })
    let s := (s.replicaStep g n).replicaState g .acquire
    s.setReplica g { s.replica g with fresh := true }
  else s.modRegion g (fun r => { r with replicaOff := mean.tdiv 10 })

/-- R185 to R188. `err` is the recorded replica value less D_g and the mark, signed, 0.1 ns. A word that carries a step steps
the replica first; a step above 2 us enters ACQUIRE, whose first word sets the replica. Log 67 (DEDUCED, safe). -/
def execDisciplineWord (g : RegionIx) (err : Word) (s : State) : Outcome := s.on fun s =>
  if !s.straitUp g || !(s.region g).islandRun then .next s
  else
    let n := (s.replica g).stepPend
    let s := if n = 0 then s
      else
        let s := (s.setReplica g { s.replica g with stepPend := 0 }).replicaStep g n
        if 2000 < n then
          let s := s.replicaState g .acquire
          s.setReplica g { s.replica g with fresh := true, marks := 0, sum := 0 }
        else s
    let r := s.replica g
    if (s.region g).replica = .acquire ∧ r.fresh then
      let s := s.modRegion g (fun x => { x with replicaOff := 0 })
      .next (s.setReplica g { r with fresh := false, marks := 0, sum := 0 })
    else
      let sum := r.sum + err.toInt
      if 64 ≤ r.marks + 1 then .next (s.replicaAverage g (sum.tdiv 64))
      else .next (s.setReplica g { r with marks := r.marks + 1, sum := sum })

/-! ### Cabinet links (R190 to R193) -/

def Dev.cabLink (s : Dev) : Link → CabLink
  | .a => s.linkA
  | .b => s.linkB
def Dev.setCabLink (s : Dev) (l : Link) (v : CabLink) : Dev :=
  match l with
  | .a => { s with linkA := v }
  | .b => { s with linkB := v }

def LinkState.code : LinkState → Nat
  | .down => 0 | .training => 1 | .up => 2 | .fault => 3

/-- The links that carry frames. -/
def Dev.linksUp (s : Dev) : List Nat :=
  (if s.linkA.state = .up then [0] else []) ++ (if s.linkB.state = .up then [1] else [])

/-- R191: a device takes the position plus one and passes the frame on; the master closes the ring on link B; a master that
receives another master's frame sees a conflict. -/
def execPosFrame (link : Link) (f : PosFrame) (s : State) : Outcome := s.on fun s =>
  if s.rb RegMap.tbLinkCfg 2 then
    if f.own then
      .next (if link = .b ∧ !s.ring.conflict then
          { s with ring := { s.ring with closed := true, size := f.pos.val, posValid := true }, ringPos := 0 }
        else s)
    else .next { s with ring := { s.ring with conflict := true, posValid := false, closed := false } }
  else
    let p := (f.pos.val + 1) % 8
    let s := { s with ringPos := p, ring := { s.ring with posValid := true } }
    let s := match f.closed with
      | some n => { s with ring := { s.ring with closed := true, size := n.val } }
      | none => s
    .next (s.emit (.posFrame p))

/-- The source code of a link (Table 8-4). -/
def Tb.linkSrc : Link → Nat
  | .a => 2
  | .b => 3

/-- R193: the hop count through the link, and a measurement from the mean of 100 frames (Table 8-4). -/
def execSyncFrame (link : Link) (f : SyncFrame) (s : State) : Outcome := s.on fun s =>
  let l := s.cabLink link
  let sum := l.syncSum + ((s.tbTime : Int) - (f.time.toNat + l.delay : Nat))
  let full := decide (100 ≤ l.syncN + 1)
  let s := s.setCabLink link { l with
    hops := min 7 (f.hops.val + 1), syncN := if full then 0 else l.syncN + 1, syncSum := if full then 0 else sum }
  .next (if full then s.discipline (Tb.linkSrc link) (sum.tdiv 100) else s)

/-- R193: the master on both links with hop count 0; a device disciplined from a link on the other one. -/
def execSyncFrameSend (s : State) : Outcome := s.on fun s =>
  if s.rb RegMap.tbLinkCfg 2 then .next (s.emit (.syncFrame s.linksUp s.tbTime 0))
  else if s.tb.state = .locked ∨ s.tb.state = .acquire then
    if s.tb.active = 2 then
      .next (if s.linkB.state = .up then s.emit (.syncFrame [1] s.tbTime s.linkA.hops) else s)
    else if s.tb.active = 3 then
      .next (if s.linkA.state = .up then s.emit (.syncFrame [0] s.tbTime s.linkB.hops) else s)
    else .next s
  else .next s

/-- R192: the mean of both directions. -/
def execDelayMeasurement (link : Link) (ns : Word) (s : State) : Outcome := s.on fun s =>
  .next (s.setCabLink link { s.cabLink link with delay := ns.toNat })

/-- R190: the frame is discarded and counted; the sixteenth error within 1 ms puts the link in FAULT, the
level source LINK_FAULT (Table 17-3). -/
def execLinkFrameCrcError (link : Link) (s : State) : Outcome := s.on fun s =>
  let l := s.cabLink link
  let recent := (l.errors.filter (fun t => decide (s.elapsed < t + 1000000))) ++ [s.elapsed]
  let fault := decide (16 ≤ recent.length) && decide (l.state ≠ .down)
  let s := { s with ring := { s.ring with crcErrors := Bits.satAdd 255 s.ring.crcErrors 1 } }
  let s := s.setCabLink link { l with errors := if fault then [] else recent, state := if fault then .fault else l.state }
  .next (if fault then s.occur 8 39 (match link with | .a => 0 | .b => 1) else s)

/-- R190: 10 ms without a frame error. -/
def execLinkFaultExit (link : Link) (s : State) : Outcome := s.on fun s =>
  let l := s.cabLink link
  .next (if l.state = .fault then
      let s := s.setCabLink link { l with state := .training, errors := [] }
      if s.linkA.state = .fault ∨ s.linkB.state = .fault then s else s.unoccur 8 39
    else s)

end Sys2Proof.Machine
end

