-- ==== Sys2Proof/Machine/CellCmds.lean ====
section
/-! DEFINITION. The channel commands of Table 3-3 as operations on one cell, shared by the command rows, locks and sequences. -/

namespace Sys2Proof.Machine

/-- How a cell takes a channel command: ST_OK, ST_BAD_STATE, or held until the evaluation point (R107). -/
inductive CmdRes where
  | ok | bad | held
  deriving DecidableEq, Repr

/-- CH_ENABLE (Table 3-3): refused while the region is disabled (R421). -/
def Dev.chEnable (s : Dev) (c : Nat) : CmdRes × Dev :=
  if !s.rb (RegMap.rgnCtrl (c / 64)) 0 then (.bad, s)
  else match (s.cell c).state with
  | .disabled => (.ok, s.goto c .off)
  | .latched | .safe => (.bad, s)
  | _ => (.ok, s)

/-- CH_DISABLE. -/
def Dev.chDisable (s : Dev) (c : Nat) : CmdRes × Dev :=
  match (s.cell c).state with
  | .latched | .safe => (.bad, s)
  | _ => (.ok, (s.goto c .disabled).autoNext (c / 64))

/-- CH_ON: HOLD_OFF clears; after a wake it waits for the replica (R423); in TRIPPED it acts at the evaluation point, or at once after an outcome of no retry (R107). -/
def Dev.chOn (s : Dev) (c : Nat) : CmdRes × Dev :=
  match (s.cell c).state with
  | .disabled | .latched | .safe => (.bad, s)
  | .off | .probe =>
    if (s.region (c / 64)).woke then (.ok, s.modCell c (fun x => { x with holdOff := false, wakeOn := true }))
    else (.ok, (s.modCell c (fun x => { x with holdOff := false })).goto c .precheck)
  | .tripped =>
    let s := s.modCell c (fun x => { x with holdOff := false })
    if (s.cell c).evaluated then (.ok, s.cooldown c 0) else (.held, s.modCell c (fun x => { x with heldOn := true }))
  | _ => (.ok, s.modCell c (fun x => { x with holdOff := false }))

/-- CH_OFF. -/
def Dev.chOff (s : Dev) (c : Nat) : CmdRes × Dev :=
  match (s.cell c).state with
  | .latched | .safe => (.bad, s)
  | .disabled | .off | .probe => (.ok, s.modCell c (fun x => { x with holdOff := true }))
  | _ => (.ok, ((s.goto c .off).modCell c (fun x => { x with holdOff := true })).autoNext (c / 64))

/-- CH_RESET: retry and classification counts, HOLD_OFF and the latched status clear (Table 3-3, R106). -/
def Dev.chReset (s : Dev) (c : Nat) : CmdRes × Dev :=
  let st := (s.cell c).state
  if st = .disabled then (.ok, s)
  else if st = .safe ∧ s.safeStands c then (.bad, s)
  else
    let s := s.modCell c (fun x => { x with retryCount := 0, classes := [], holdOff := false })
    let s := s.goto c .off
    let s := if st = .latched then s.latchedCheck (c / 8) else s
    (.ok, s.autoNext (c / 64))

end Sys2Proof.Machine
end

