-- ==== Sys2Proof/Machine/Operands.lean ====
section
/-! DEFINITION. Operand forms of the barge instructions (spec/09): scalar and vector registers, pairs, lanes, constants, and the
little-endian bytes of a memory. -/

namespace Sys2Proof.Machine

/-! ### Registers (R206) -/

/-- Scalar register; s0 reads 0. -/
def Barge.sreg (k : Barge) (r : Nat) : Word := if r = 0 then 0 else Sparse.get (fun _ => 0) k.s r
/-- Write a scalar register; a write to s0 is discarded. -/
def Barge.setS (k : Barge) (r : Nat) (v : Word) : Barge :=
  if r = 0 then k else { k with s := Sparse.set (fun _ => 0) k.s r v }
/-- Scalar pair: low word in the even register. -/
def Barge.spair (k : Barge) (r : Nat) : Nat := (k.sreg r).toNat + (k.sreg (r + 1)).toNat * 2 ^ 32
def Barge.setPair (k : Barge) (r v : Nat) : Barge :=
  (k.setS r (BitVec.ofNat 32 v)).setS (r + 1) (BitVec.ofNat 32 (v >>> 32))
/-- Vector register. -/
def Barge.vreg (k : Barge) (r : Nat) : Quad := Sparse.get (fun _ => 0) k.v r
def Barge.setV (k : Barge) (r : Nat) (v : Quad) : Barge := { k with v := Sparse.set (fun _ => 0) k.v r v }

/-! ### Lanes -/

/-- Width of a lane in bits. -/
def VLane.width : VType → Nat
  | .h8 => 16 | .w4 => 32
/-- Lanes of a type. -/
def VLane.count : VType → Nat
  | .h8 => 8 | .w4 => 4

/-- The unsigned lanes of a value, `n` of `w` bits, lane 0 first. -/
def VLane.list (w n : Nat) (q : Nat) : List Nat := (List.range n).map (fun l => (q >>> (w * l)) % 2 ^ w)
/-- The signed lanes. -/
def VLane.signed (w n : Nat) (q : Nat) : List Int := (VLane.list w n q).map (Bits.sext w)
/-- A value from lanes of `w` bits, lane 0 first. -/
def VLane.pack (w : Nat) : List Int → Nat
  | [] => 0
  | x :: l => Bits.ofInt w x + VLane.pack w l * 2 ^ w

/-- Lane-wise signed operation on two registers. -/
def VLane.map2 (t : VType) (f : Int → Int → Int) (a b : Quad) : Quad :=
  let w := VLane.width t
  let n := VLane.count t
  BitVec.ofNat 128 (VLane.pack w (List.zipWith f (VLane.signed w n a.toNat) (VLane.signed w n b.toNat)))

/-- Lane-wise operation on one register, on unsigned lanes. -/
def VLane.map1 (t : VType) (f : Nat → Int) (a : Quad) : Quad :=
  let w := VLane.width t
  BitVec.ofNat 128 (VLane.pack w ((VLane.list w (VLane.count t) a.toNat).map f))

/-- A vector pair as one value of eight 32-bit lanes (R206). -/
def Barge.vpair (k : Barge) (r : Nat) : Nat := (k.vreg r).toNat + (k.vreg (r + 1)).toNat * 2 ^ 128
def Barge.setVPair (k : Barge) (r v : Nat) : Barge :=
  (k.setV r (BitVec.ofNat 128 v)).setV (r + 1) (BitVec.ofNat 128 (v >>> 128))

/-! ### Constants (Table 9-1) -/

/-- The address of a load or store: base plus the signed byte offset. -/
def Barge.ea (k : Barge) (base : Nat) (imm : BitVec 13) : Nat := (k.sreg base + imm.signExtend 32).toNat

/-- A constant in place of b. -/
def Imm.word (imm : BitVec 13) : Word := imm.signExtend 32
/-- imm21 << 11. -/
def Imm.high (imm : BitVec 21) : Word := BitVec.ofNat 32 (imm.toNat <<< 11)

/-! ### Little-endian bytes -/

/-- `n` bytes from address `a`, as a number. -/
def Mem.read (d : Byte) (m : Sparse Byte) (a : Nat) : Nat → Nat
  | 0 => 0
  | n + 1 => (Sparse.get (fun _ => d) m a).toNat + Mem.read d m (a + 1) n * 256

/-- Write the `n` low bytes of `v` at address `a`. -/
def Mem.write (d : Byte) (m : Sparse Byte) (a : Nat) : Nat → Nat → Sparse Byte
  | 0, _ => m
  | n + 1, v => Mem.write d (Sparse.set (fun _ => d) m a (BitVec.ofNat 8 v)) (a + 1) n (v / 256)

/-- A block frame as a little-endian number of 48 bytes (Table 13-1). -/
def Frame.value (f : Frame) : Nat :=
  let lanes := fun (l : List Nat) => l.foldr (fun x a => x % 65536 + a * 65536) 0
  f.time % 2 ^ 64 + f.valid % 256 * 2 ^ 64 + f.settle % 256 * 2 ^ 72 + f.trip % 256 * 2 ^ 80 + f.block % 256 * 2 ^ 88 +
    f.seq % 2 ^ 32 * 2 ^ 96 + lanes f.i * 2 ^ 128 + lanes f.v * 2 ^ 256

/-- `n` bytes of a number from byte `o`. -/
def Mem.slice (v o n : Nat) : Nat := (v >>> (8 * o)) % 2 ^ (8 * n)

end Sys2Proof.Machine
end

