-- ==== Sys2Proof/Machine/Flags.lean ====
section
/-! DEFINITION. The computations of Tables 9-3 and 9-6 on words and lanes: saturation, comparison masks, division corners. The
barge has no arithmetic flags; what an instruction reports of a comparison it writes into a register. -/

namespace Sys2Proof.Machine

/-- Signed saturating sum and difference (Table 9-3). -/
def Alu.adds (a b : Word) : Word := BitVec.ofInt 32 (Bits.sat 32 (a.toInt + b.toInt))
def Alu.subs (a b : Word) : Word := BitVec.ofInt 32 (Bits.sat 32 (a.toInt - b.toInt))
/-- 1 if the comparison holds, else 0. -/
def Alu.test (p : Bool) : Word := if p then 1 else 0
def Alu.lt (a b : Word) : Word := Alu.test (a.slt b)
def Alu.ltu (a b : Word) : Word := Alu.test (a.ult b)
def Alu.min (a b : Word) : Word := if b.slt a then b else a
def Alu.max (a b : Word) : Word := if a.slt b then b else a
def Alu.minu (a b : Word) : Word := if b.ult a then b else a
def Alu.maxu (a b : Word) : Word := if a.ult b then b else a
/-- Shifts by the low five bits. -/
def Alu.shl (a b : Word) : Word := a <<< (b.toNat % 32)
def Alu.shr (a b : Word) : Word := a >>> (b.toNat % 32)
def Alu.sra (a b : Word) : Word := a.sshiftRight (b.toNat % 32)
/-- Leading zeros, 32 for 0. -/
def Alu.clz (a : Word) : Word := BitVec.ofNat 32 (((List.range 32).find? (fun i => a.getLsbD (31 - i))).getD 32)
def Alu.mulhs (a b : Word) : Word := BitVec.ofInt 32 ((a.toInt * b.toInt) / 2 ^ 32)
def Alu.mulhu (a b : Word) : Word := BitVec.ofNat 32 (a.toNat * b.toNat / 2 ^ 32)
/-- Signed quotient: by zero it saturates in the direction of the dividend; -2^31 by -1 gives 0x7FFFFFFF. -/
def Alu.divs (a b : Word) : Word :=
  if b = 0 then (if a.toInt < 0 then 0x80000000 else 0x7FFFFFFF)
  else BitVec.ofInt 32 (Bits.sat 32 (a.toInt.tdiv b.toInt))
def Alu.divu (a b : Word) : Word := if b = 0 then 0xFFFFFFFF else BitVec.ofNat 32 (a.toNat / b.toNat)
/-- The remainder equals the dividend of a division by zero. -/
def Alu.rems (a b : Word) : Word := if b = 0 then a else BitVec.ofInt 32 (a.toInt.tmod b.toInt)
def Alu.remu (a b : Word) : Word := if b = 0 then a else BitVec.ofNat 32 (a.toNat % b.toNat)

/-! ### Lanes (Table 9-6) -/

/-- Saturation to the lane width. -/
def VAlu.sat (t : VType) (x : Int) : Int := Bits.sat (VLane.width t) x
/-- The mask of the lanes for which a signed comparison holds. -/
def VAlu.mask (t : VType) (p : Int → Int → Bool) (a b : Quad) : Word :=
  let w := VLane.width t
  let n := VLane.count t
  let l := List.zipWith p (VLane.signed w n a.toNat) (VLane.signed w n b.toNat)
  BitVec.ofNat 32 (VLane.pack 1 (l.map (fun x => if x then 1 else 0)))
/-- Lane l of a where bit l of the scalar is set, else lane l of b. -/
def VAlu.select (t : VType) (m : Word) (a b : Quad) : Quad :=
  let w := VLane.width t
  let n := VLane.count t
  let l := List.zipWith (fun (i : Nat) (p : Int × Int) => if m.getLsbD i then p.1 else p.2) (List.range n)
    ((VLane.signed w n a.toNat).zip (VLane.signed w n b.toNat))
  BitVec.ofNat 128 (VLane.pack w l)
/-- Shift amount of a lane shift: bits [3:0] for .h8 and [4:0] for .w4. -/
def VAlu.amount (t : VType) (s : Word) : Nat := s.toNat % VLane.width t
def VAlu.sll (t : VType) (s : Word) (a : Quad) : Quad := VLane.map1 t (fun x => (x * 2 ^ VAlu.amount t s : Nat)) a
def VAlu.srl (t : VType) (s : Word) (a : Quad) : Quad := VLane.map1 t (fun x => (x / 2 ^ VAlu.amount t s : Nat)) a
def VAlu.sra (t : VType) (s : Word) (a : Quad) : Quad :=
  VLane.map1 t (fun x => Bits.sext (VLane.width t) x / 2 ^ VAlu.amount t s) a
/-- Q15 product. -/
def VAlu.q15 (a b : Int) : Int := Bits.sat 16 ((a * b + 2 ^ 14) / 2 ^ 15)
/-- Multiply-accumulate into a pair of eight 32-bit lanes. -/
def VAlu.mac (acc : Nat) (p : List Int) : Nat :=
  VLane.pack 32 (List.zipWith (fun x y => Bits.sat 32 (x + y)) (VLane.signed 32 8 acc) p)
/-- The products of the 16-bit lanes of two registers. -/
def VAlu.products (a b : Quad) : List Int :=
  List.zipWith (· * ·) (VLane.signed 16 8 a.toNat) (VLane.signed 16 8 b.toNat)
/-- vpack.h8: round, shift, saturate. -/
def VAlu.packH (pair n : Nat) : Quad :=
  let r : Int := if n = 0 then 0 else 2 ^ (n - 1)
  BitVec.ofNat 128 (VLane.pack 16 ((VLane.signed 32 8 pair).map (fun x => Bits.sat 16 ((x + r) / 2 ^ n))))
/-- vwiden.h8: eight lanes sign-extended into a pair. -/
def VAlu.widen (a : Quad) : Nat := VLane.pack 32 (VLane.signed 16 8 a.toNat)
/-- Lane `l` of `w` bits, sign-extended to a scalar. -/
def VAlu.extract (w l : Nat) (a : Quad) : Word := BitVec.ofInt 32 (Bits.sext w (a.toNat >>> (w * l)))
/-- Replace lane `l` of `w` bits. -/
def VAlu.insert (w l : Nat) (a : Quad) (s : Word) : Quad := Bits.put a (w * l) w s.toNat
/-- Every lane := the scalar. -/
def VAlu.bcast (t : VType) (s : Word) : Quad :=
  BitVec.ofNat 128 (VLane.pack (VLane.width t) (List.replicate (VLane.count t) (s.toNat : Int)))
/-- The sum of the eight sign-extended lanes. -/
def VAlu.redadd (a : Quad) : Word := BitVec.ofInt 32 ((VLane.signed 16 8 a.toNat).foldl (· + ·) 0)

end Sys2Proof.Machine
end

