-- ==== Sys2Proof/Machine/Barge.lean ====
section
/-! DEFINITION. The barge engine (spec/09): status, exceptions, halting, the issue of an instruction, its memories and the
checks of an access. -/

namespace Sys2Proof.Machine

/-! ### Clocks and status -/

/-- BG_CYCLE: core cycles since barge reset release. -/
def Dev.bgCycle (s : Dev) (e : Nat) : Nat := s.coreCycles - (s.barge e).cycle0

/-- BG_STATUS [8:0] (Table 9-15). -/
def Barge.status (k : Barge) : Nat := k.level % 8 + Bits.b2n k.xcpt * 8 + Bits.b2n k.gie * 16 + k.depth % 16 * 32

/-- Restore BG_STATUS [8:0]. -/
def Barge.setStatus (k : Barge) (w : Nat) : Barge :=
  { k with level := w % 8, xcpt := Bits.nbit w 3, gie := Bits.nbit w 4, depth := w / 32 % 16 }

/-- Read `n` bytes of own IRAM, the newest patch of each byte first (R221). -/
def Barge.iramByte (k : Barge) (a : Nat) : Byte :=
  match k.patches.reverse.find? (fun p => decide (p.addr ≤ a) && decide (a < p.addr + p.size)) with
  | some p => BitVec.ofNat 8 (p.data >>> (8 * (a - p.addr)))
  | none => Sparse.get (fun _ => 0) k.iram a

def Barge.iramLoad (k : Barge) (a : Nat) : Nat → Nat
  | 0 => 0
  | n + 1 => (k.iramByte a).toNat + k.iramLoad (a + 1) n * 256

/-- A vector word, read from IRAM or DRAM (R225, R229). -/
def Barge.vector (k : Barge) (off : Nat) : Nat :=
  let a := k.vtbase + off
  (if a < 0x10000 then Mem.read 0 k.iram a 4 else Mem.read 0 k.dram (a - 0x10000) 4) / 4 * 4

/-! ### Halting (R434 to R438) -/

/-- Barges a halt of `e` cross-triggers, unless its cause is a cross-trigger (R438); they halt at XTRIG_HALT. -/
def Dev.bargeHalted (s : Dev) (e cause : Nat) : Dev :=
  let now := s.bgCycle e
  let s := s.modBarge e (fun k => { k with dbg := { k.dbg with
    halted := true, haltReq := none, cause := cause, haltCycle := now, stepping := false, skipBp := decide (cause = 2)
    xreq := false } })
  if cause = 5 then s
  else s.forEach (Bits.ones 64 (s.barge e).dbg.xtrig.toNat) (fun s f =>
    s.modBarge f (fun k => { k with dbg := { k.dbg with xreq := true } }))

/-- A halt request is HALTED once the loads have written and the store buffer is empty (R434). Log 76 (DEDUCED, safe). -/
def Dev.haltSettle (s : Dev) (e : Nat) : Dev :=
  let k := s.barge e
  match k.dbg.haltReq with
  | none => s
  | some c => if k.lq.isEmpty && k.sb.isEmpty then s.bargeHalted e c else s

/-- Request a halt of barge `e` with a cause; a barge already HALTED stays as it is. -/
def Dev.haltBarge (s : Dev) (e cause : Nat) : Dev :=
  let k := s.barge e
  if k.dbg.halted || k.dbg.haltReq.isSome then s
  else (s.modBarge e (fun k => { k with dbg := { k.dbg with haltReq := some cause } })).haltSettle e

/-! ### Exceptions (R229, R230) -/

/-- BARGE_SEIZED: the barge stops fetching (R230). -/
def Dev.seize (s : Dev) (e : Nat) : Dev :=
  (s.modBarge e (fun k => { k with seized := true, waiting := false })).occurCentral (e / 8) 73 e

/-- An exception entry: code, return address and BG_XADDR of Table 9-10. While XCPT is 1 it seizes the barge. -/
def Dev.exception (s : Dev) (e code ret addr : Nat) : Dev :=
  let k := s.barge e
  if k.xcpt then s.seize e
  else s.setBarge e { k with
    xepc := ret / 4 * 4, xstat := k.status, xcause := code, xaddr := addr, xcpt := true, waiting := false
    pc := k.vector 0x100 }

/-! ### Issue (R207, R209, R210, R215, R216) -/

/-- Fetch is possible from own IRAM and from the runtime and customer areas of code flash (R207). -/
def Barge.fetchable (a : Nat) : Bool := decide (a < 0x10000) || (decide (0x20000000 ≤ a) && decide (a < 0x20E00000))
/-- The address lies in code flash. -/
def Barge.inFlash (a : Nat) : Bool := decide (0x20000000 ≤ a) && decide (a < 0x21000000)

/-- The barge may issue: started, not seized, not halted, not in wait.i. -/
def Barge.mayIssue (k : Barge) : Bool := k.run && !k.seized && !k.dbg.halted && k.dbg.haltReq.isNone && !k.waiting

/-- Registers that await a load result (R209): scalars, vectors. -/
def Barge.awaitsS (k : Barge) (r : Nat) : Bool :=
  k.lq.any (fun l => match l.dest with | .s d => d == r | .pair d => d == r || d + 1 == r | .v _ => false)
def Barge.awaitsV (k : Barge) (r : Nat) : Bool :=
  k.lq.any (fun l => match l.dest with | .v d => d == r | _ => false)

/-- The enabled breakpoint that matches the program counter (R437). -/
def Barge.breakAt (k : Barge) : Option Nat :=
  if k.dbg.skipBp then none
  else (List.range 4).find? (fun n =>
    let w := Sparse.get (fun _ => 0) k.dbg.bps n
    Bits.bit w 0 && decide (w.toNat / 4 * 4 = k.pc))

/-- What fetch does as the instruction at the program counter issues from flash: the line is held, and the prefetch of the next
line starts (R216). -/
def Barge.fetched (k : Barge) : Barge :=
  if !Barge.inFlash k.pc then k
  else
    let l := k.pc / 32
    if k.lines.contains (l + 1) then k else { k with prefetch := some (l + 1) }

/-- After an instruction: a STEP halts again (R436). -/
def Dev.afterIssue (s : Dev) (e : Nat) : Dev :=
  if (s.barge e).dbg.stepping then
    s.modBarge e (fun k => { k with dbg := { k.dbg with stepping := false, haltReq := some 1 } }) |>.haltSettle e
  else s

/-- One instruction reaches issue: nothing while the barge may not issue, in STANDBY, or while a register it names awaits a load (R209); a
breakpoint halts (R437); a fetch out of range raises FETCH_RANGE (R207); otherwise `f` acts. Log 73 (DEDUCED, safe). -/
def Dev.issue (s : Dev) (e : Nat) (regs vregs : List Nat) (f : Dev → Dev) : Dev :=
  let k := s.barge e
  if !k.mayIssue || decide (s.pwr.mode = 2) then s
  else match k.breakAt with
    | some n => (s.modBarge e (fun k => { k with dbg := { k.dbg with unit := n } })).haltBarge e 2
    | none =>
      if !Barge.fetchable k.pc then (s.exception e 2 k.pc k.pc).afterIssue e
      else if regs.any k.awaitsS || vregs.any k.awaitsV then s
      else
        let s := s.modBarge e (fun k => { k.fetched with dbg := { k.dbg with skipBp := false } })
        (f s).afterIssue e

/-- The program counter moves to the next instruction. -/
def Barge.step (k : Barge) : Barge := { k with pc := (k.pc + 4) % 2 ^ 32 }

/-- An instruction that changes registers only and goes on to the next. -/
def Dev.issueReg (s : Dev) (e : Nat) (regs vregs : List Nat) (f : Barge → Barge) : Dev :=
  s.issue e regs vregs (fun s => s.modBarge e (fun k => (f k).step))

/-- An instruction whose pair operands or lane index are legal, or ILLEGAL (R208). -/
def Dev.issueIf (s : Dev) (e : Nat) (legal : Bool) (regs vregs : List Nat) (f : Barge → Barge) : Dev :=
  if legal then s.issueReg e regs vregs f
  else s.issue e [] [] (fun s => s.exception e 1 (s.barge e).pc 0)

/-! ### Memory classes (Tables 1-11 and 9-7) -/

/-- Memory classes of Table 9-7. -/
inductive MemClass where
  | iram | dram | rram | mirror | sram | flash | island | chip | bg
  deriving DecidableEq, Repr

def Mem.classOf (a : Nat) : Option MemClass :=
  if a < 0x10000 then some .iram
  else if a < 0x20000 then some .dram
  else if 0x01000000 ≤ a ∧ a < 0x011F8000 then some .rram
  else if 0x011F8000 ≤ a ∧ a < 0x01200000 then some .mirror
  else if 0x10000000 ≤ a ∧ a < 0x11000000 then some .sram
  else if 0x20000000 ≤ a ∧ a < 0x21000000 then some .flash
  else if 0x40000000 ≤ a ∧ a < 0x40100000 then some .island
  else if 0xF0000000 ≤ a ∧ a < 0xF1000000 then some .chip
  else if 0xFFFF0000 ≤ a ∧ a < 0x100000000 then some .bg
  else none

/-- Offset in the chip registers (BAR0), and in the barge-private page. -/
def Mem.chipOff (a : Nat) : Nat := a - 0xF0000000
def Mem.bgOff (a : Nat) : Nat := a - 0xFFFF0000
/-- A chip-register address past the chip part of BAR0: nothing answers there. -/
def Mem.pastChip (a : Nat) : Bool := decide (0xF0400000 ≤ a)

/-- Sizes in bytes a class accepts. -/
def MemClass.accepts (n : Nat) : MemClass → Bool
  | .mirror | .chip => n == 4 || n == 8 || n == 16
  | .island => n == 4 || n == 16
  | .bg => n == 4 || n == 8
  | _ => true

/-- The exception code an access raises at issue, if one (R213). Log 75 (DEDUCED, unsafe). -/
def Mem.check (a n : Nat) (store : Bool) : Option Nat :=
  match Mem.classOf a with
  | none => some 3
  | some c =>
    if store && (c == .flash || c == .mirror) then some 4
    else if !c.accepts n then some 5
    else if a % n ≠ 0 then some 6
    else none

/-- Physical flash offset of an address of the barge map: the booted slot first in each area (R416, Table 18-3). -/
def Dev.flashPhys (s : Dev) (a : Nat) : Nat :=
  let o := a - 0x20000000
  if o < 0x800000 then (o + s.rtSlot * 0x400000) % 0x800000
  else if o < 0xE00000 then 0x800000 + (o - 0x800000 + s.custSlot * 0x300000) % 0x600000
  else o

def Dev.flashRead (s : Dev) (phys n : Nat) : Nat := Mem.read 0xFF s.flash phys n

/-- `n` bytes of a memory as barge `e` reads it: every class but the registers. Log 5 (DESIGN CHOICE, unsafe). -/
def Dev.memLoad (s : Dev) (e a n : Nat) : Nat :=
  match Mem.classOf a with
  | some .iram => (s.barge e).iramLoad a n
  | some .dram => Mem.read 0 (s.barge e).dram (a - 0x10000) n
  | some .rram => Mem.read 0 s.rram (e / 8 * 0x200000 + (a - 0x01000000)) n
  | some .mirror =>
    let o := a - 0x011F8000
    let f := Sparse.get (fun _ => { time := 0, valid := 0, settle := 0, trip := 0, block := 0, seq := 0, i := [], v := [] })
      (s.conv (e / 8 * 8 + o / 0x1000)).mirror (o % 0x1000 / 64)
    Mem.slice f.value (o % 64) n
  | some .sram => Mem.read 0 s.sram (a - 0x10000000) n
  | some .flash => s.flashRead (s.flashPhys a) n
  | _ => 0

/-- Write `n` bytes of a memory at an address of barge `e`'s map; other classes are left. -/
def Dev.memStore (s : Dev) (e a n v : Nat) : Dev :=
  match Mem.classOf a with
  | some .iram => s.modBarge e (fun k => { k with iram := Mem.write 0 k.iram a n v })
  | some .dram => s.modBarge e (fun k => { k with dram := Mem.write 0 k.dram (a - 0x10000) n v })
  | some .rram => { s with rram := Mem.write 0 s.rram (e / 8 * 0x200000 + (a - 0x01000000)) n v }
  | some .sram => { s with sram := Mem.write 0 s.sram (a - 0x10000000) n v }
  | _ => s

/-- The range [a, a + n) of an entry overlaps that of an access (R219). -/
def StoreEnt.overlaps (x : StoreEnt) (a n : Nat) : Bool := decide (x.addr < a + n) && decide (a < x.addr + x.size)

/-- Loads from the island window and from chip unit registers are never forwarded (R220). Log 74 (DEDUCED, unsafe). -/
def Mem.ordered (a : Nat) : Bool := Mem.classOf a == some .island || Mem.classOf a == some .chip

/-! ### Watchpoints (R437) -/

/-- The watchpoint that matches an access. -/
def Barge.watchAt (k : Barge) (a : Nat) (store : Bool) : Option Nat :=
  (List.range 2).find? (fun n =>
    let w := Sparse.get (fun _ => {}) k.dbg.wps n
    let len := Bits.fld w.ctl 0 16
    Bits.bit w.ctl (if store then 17 else 16) && decide (w.addr ≤ a) && decide (a < w.addr + len))

/-- A matching watchpoint halts the barge after the instruction, with the access address (R437). -/
def Dev.watch (s : Dev) (e a : Nat) (store : Bool) : Dev :=
  match (s.barge e).watchAt a store with
  | none => s
  | some n => (s.modBarge e (fun k => { k with dbg := { k.dbg with unit := n, waddr := a } })).haltBarge e 3

/-! ### Errors of a memory (R214) -/

/-- A corrected word sets ECC_CORR_SEEN and raises BARGE_ECC_CORR. -/
def Dev.eccCorrected (s : Dev) (e : Nat) : Dev :=
  (s.modBarge e (fun k => { k with eccSeen := true })).occurCentral (e / 8) 71 e

/-! ### Interrupt sources (R224) -/

/-- Level of a source (Table 9-16). -/
def Barge.levelOf (k : Barge) (n : Nat) : Nat := Bits.fld (Sparse.get (fun _ => 0) k.prio (n / 8)) (4 * (n % 8)) 3

/-- Sources pending and enabled. -/
def Barge.ready (k : Barge) : List Nat := Bits.ones 64 (k.pend &&& k.en).toNat

/-- Among sources, the highest level wins, then the lowest number. -/
def Barge.best (k : Barge) : List Nat → Option Nat
  | [] => none
  | n :: l => match k.best l with
    | none => some n
    | some m => if k.levelOf n < k.levelOf m then some m else some n

/-- The source that wins above a level; `none` stands for base level, below 0. -/
def Barge.winner (k : Barge) (above : Option Nat) : Option Nat :=
  k.best (k.ready.filter (fun n => match above with | none => true | some l => decide (l < k.levelOf n)))

/-- The running level: none at base. -/
def Barge.running (k : Barge) : Option Nat := if k.depth = 0 then none else some k.level

/-- The eligible source that an entry would take (R224). -/
def Barge.eligible (k : Barge) : Option Nat := if k.gie && !k.xcpt then k.winner k.running else none

end Sys2Proof.Machine
end

