-- ==== Sys2Proof/Machine/BargeAlu.lean ====
section
/-! DEFINITION. Arithmetic instructions of the barge (spec/09, Tables 9-3 and 9-6). Each reads its operands before it writes. -/

namespace Sys2Proof.Machine

/-! ### Scalar, register forms (Table 9-3) -/

/-- d := f a b. -/
def Dev.alu (s : Dev) (e : Nat) (d a b : Nat) (f : Word → Word → Word) : Dev :=
  s.issueReg e [d, a, b] [] (fun k => k.setS d (f (k.sreg a) (k.sreg b)))

/-- d := f a constant. -/
def Dev.aluI (s : Dev) (e : Nat) (d a : Nat) (imm : Word) (f : Word → Word → Word) : Dev :=
  s.issueReg e [d, a] [] (fun k => k.setS d (f (k.sreg a) imm))

def execAddR (e : BargeIx) (d a b : Fin 32) (s : State) : Outcome := s.on fun s => .next (s.alu e d a b (· + ·))
def execSubR (e : BargeIx) (d a b : Fin 32) (s : State) : Outcome := s.on fun s => .next (s.alu e d a b (· - ·))
def execAndR (e : BargeIx) (d a b : Fin 32) (s : State) : Outcome := s.on fun s => .next (s.alu e d a b (· &&& ·))
def execOrR (e : BargeIx) (d a b : Fin 32) (s : State) : Outcome := s.on fun s => .next (s.alu e d a b (· ||| ·))
def execXorR (e : BargeIx) (d a b : Fin 32) (s : State) : Outcome := s.on fun s => .next (s.alu e d a b (· ^^^ ·))
def execShl (e : BargeIx) (d a b : Fin 32) (s : State) : Outcome := s.on fun s => .next (s.alu e d a b Alu.shl)
def execShr (e : BargeIx) (d a b : Fin 32) (s : State) : Outcome := s.on fun s => .next (s.alu e d a b Alu.shr)
def execSra (e : BargeIx) (d a b : Fin 32) (s : State) : Outcome := s.on fun s => .next (s.alu e d a b Alu.sra)
def execLt (e : BargeIx) (d a b : Fin 32) (s : State) : Outcome := s.on fun s => .next (s.alu e d a b Alu.lt)
def execLtu (e : BargeIx) (d a b : Fin 32) (s : State) : Outcome := s.on fun s => .next (s.alu e d a b Alu.ltu)
def execMinS (e : BargeIx) (d a b : Fin 32) (s : State) : Outcome := s.on fun s => .next (s.alu e d a b Alu.min)
def execMaxS (e : BargeIx) (d a b : Fin 32) (s : State) : Outcome := s.on fun s => .next (s.alu e d a b Alu.max)
def execMinu (e : BargeIx) (d a b : Fin 32) (s : State) : Outcome := s.on fun s => .next (s.alu e d a b Alu.minu)
def execMaxu (e : BargeIx) (d a b : Fin 32) (s : State) : Outcome := s.on fun s => .next (s.alu e d a b Alu.maxu)
def execAdds (e : BargeIx) (d a b : Fin 32) (s : State) : Outcome := s.on fun s => .next (s.alu e d a b Alu.adds)
def execSubs (e : BargeIx) (d a b : Fin 32) (s : State) : Outcome := s.on fun s => .next (s.alu e d a b Alu.subs)
def execMulR (e : BargeIx) (d a b : Fin 32) (s : State) : Outcome := s.on fun s => .next (s.alu e d a b (· * ·))
def execMulhS (e : BargeIx) (d a b : Fin 32) (s : State) : Outcome := s.on fun s => .next (s.alu e d a b Alu.mulhs)
def execMulhU (e : BargeIx) (d a b : Fin 32) (s : State) : Outcome := s.on fun s => .next (s.alu e d a b Alu.mulhu)
def execDivS (e : BargeIx) (d a b : Fin 32) (s : State) : Outcome := s.on fun s => .next (s.alu e d a b Alu.divs)
def execDivU (e : BargeIx) (d a b : Fin 32) (s : State) : Outcome := s.on fun s => .next (s.alu e d a b Alu.divu)
def execRemS (e : BargeIx) (d a b : Fin 32) (s : State) : Outcome := s.on fun s => .next (s.alu e d a b Alu.rems)
def execRemU (e : BargeIx) (d a b : Fin 32) (s : State) : Outcome := s.on fun s => .next (s.alu e d a b Alu.remu)
def execClz (e : BargeIx) (d a : Fin 32) (s : State) : Outcome := s.on fun s => .next (s.alu e d a 0 (fun x _ => Alu.clz x))

/-! ### Scalar, constant forms -/

def execAddI (e : BargeIx) (d a : Fin 32) (imm : BitVec 13) (s : State) : Outcome := s.on fun s =>
  .next (s.aluI e d a (Imm.word imm) (· + ·))
def execAndI (e : BargeIx) (d a : Fin 32) (imm : BitVec 13) (s : State) : Outcome := s.on fun s =>
  .next (s.aluI e d a (Imm.word imm) (· &&& ·))
def execOrI (e : BargeIx) (d a : Fin 32) (imm : BitVec 13) (s : State) : Outcome := s.on fun s =>
  .next (s.aluI e d a (Imm.word imm) (· ||| ·))
def execXorI (e : BargeIx) (d a : Fin 32) (imm : BitVec 13) (s : State) : Outcome := s.on fun s =>
  .next (s.aluI e d a (Imm.word imm) (· ^^^ ·))
def execLtI (e : BargeIx) (d a : Fin 32) (imm : BitVec 13) (s : State) : Outcome := s.on fun s =>
  .next (s.aluI e d a (Imm.word imm) Alu.lt)
def execLtuI (e : BargeIx) (d a : Fin 32) (imm : BitVec 13) (s : State) : Outcome := s.on fun s =>
  .next (s.aluI e d a (Imm.word imm) Alu.ltu)
def execShlI (e : BargeIx) (d a : Fin 32) (sh : Fin 32) (s : State) : Outcome := s.on fun s =>
  .next (s.aluI e d a (BitVec.ofNat 32 sh) Alu.shl)
def execShrI (e : BargeIx) (d a : Fin 32) (sh : Fin 32) (s : State) : Outcome := s.on fun s =>
  .next (s.aluI e d a (BitVec.ofNat 32 sh) Alu.shr)
def execSraI (e : BargeIx) (d a : Fin 32) (sh : Fin 32) (s : State) : Outcome := s.on fun s =>
  .next (s.aluI e d a (BitVec.ofNat 32 sh) Alu.sra)
/-- d := imm21 << 11. -/
def execMovh (e : BargeIx) (d : Fin 32) (imm : BitVec 21) (s : State) : Outcome := s.on fun s =>
  .next (s.issueReg e [d] [] (fun k => k.setS d (Imm.high imm)))
/-- d := pc + (imm21 << 11). -/
def execAdrh (e : BargeIx) (d : Fin 32) (imm : BitVec 21) (s : State) : Outcome := s.on fun s =>
  .next (s.issueReg e [d] [] (fun k => k.setS d (BitVec.ofNat 32 k.pc + Imm.high imm)))

/-! ### Vector forms (Table 9-6) -/

/-- vd := f va vb. -/
def Dev.valu (s : Dev) (e : Nat) (vd va vb : Nat) (f : Quad → Quad → Quad) : Dev :=
  s.issueReg e [] [vd, va, vb] (fun k => k.setV vd (f (k.vreg va) (k.vreg vb)))

def execVadd (e : BargeIx) (t : VType) (vd va vb : Fin 16) (s : State) : Outcome := s.on fun s =>
  .next (s.valu e vd va vb (VLane.map2 t (· + ·)))
def execVsub (e : BargeIx) (t : VType) (vd va vb : Fin 16) (s : State) : Outcome := s.on fun s =>
  .next (s.valu e vd va vb (VLane.map2 t (· - ·)))
def execVadds (e : BargeIx) (t : VType) (vd va vb : Fin 16) (s : State) : Outcome := s.on fun s =>
  .next (s.valu e vd va vb (VLane.map2 t (fun x y => VAlu.sat t (x + y))))
def execVsubs (e : BargeIx) (t : VType) (vd va vb : Fin 16) (s : State) : Outcome := s.on fun s =>
  .next (s.valu e vd va vb (VLane.map2 t (fun x y => VAlu.sat t (x - y))))
def execVmin (e : BargeIx) (t : VType) (vd va vb : Fin 16) (s : State) : Outcome := s.on fun s =>
  .next (s.valu e vd va vb (VLane.map2 t min))
def execVmax (e : BargeIx) (t : VType) (vd va vb : Fin 16) (s : State) : Outcome := s.on fun s =>
  .next (s.valu e vd va vb (VLane.map2 t max))
def execVabs (e : BargeIx) (t : VType) (vd va : Fin 16) (s : State) : Outcome := s.on fun s =>
  .next (s.valu e vd va va (VLane.map2 t (fun x _ => VAlu.sat t (x.natAbs : Int))))
def execVand (e : BargeIx) (vd va vb : Fin 16) (s : State) : Outcome := s.on fun s => .next (s.valu e vd va vb (· &&& ·))
def execVor (e : BargeIx) (vd va vb : Fin 16) (s : State) : Outcome := s.on fun s => .next (s.valu e vd va vb (· ||| ·))
def execVxor (e : BargeIx) (vd va vb : Fin 16) (s : State) : Outcome := s.on fun s => .next (s.valu e vd va vb (· ^^^ ·))
def execVmov (e : BargeIx) (vd va : Fin 16) (s : State) : Outcome := s.on fun s => .next (s.valu e vd va va (fun x _ => x))

/-- vd := f va, shifted by scalar r. -/
def Dev.vshift (s : Dev) (e : Nat) (vd va r : Nat) (f : Word → Quad → Quad) : Dev :=
  s.issueReg e [r] [vd, va] (fun k => k.setV vd (f (k.sreg r) (k.vreg va)))

def execVsll (e : BargeIx) (t : VType) (vd va : Fin 16) (r : Fin 32) (s : State) : Outcome := s.on fun s =>
  .next (s.vshift e vd va r (VAlu.sll t))
def execVsrl (e : BargeIx) (t : VType) (vd va : Fin 16) (r : Fin 32) (s : State) : Outcome := s.on fun s =>
  .next (s.vshift e vd va r (VAlu.srl t))
def execVsra (e : BargeIx) (t : VType) (vd va : Fin 16) (r : Fin 32) (s : State) : Outcome := s.on fun s =>
  .next (s.vshift e vd va r (VAlu.sra t))

/-- Scalar r := f va vb. -/
def Dev.vtoS (s : Dev) (e : Nat) (r va vb : Nat) (f : Quad → Quad → Word) : Dev :=
  s.issueReg e [r] [va, vb] (fun k => k.setS r (f (k.vreg va) (k.vreg vb)))

def execVcmpgt (e : BargeIx) (t : VType) (r : Fin 32) (va vb : Fin 16) (s : State) : Outcome := s.on fun s =>
  .next (s.vtoS e r va vb (VAlu.mask t (fun x y => decide (y < x))))
def execVcmpeq (e : BargeIx) (t : VType) (r : Fin 32) (va vb : Fin 16) (s : State) : Outcome := s.on fun s =>
  .next (s.vtoS e r va vb (VAlu.mask t (fun x y => decide (x = y))))
def execVsel (e : BargeIx) (t : VType) (vd va vb : Fin 16) (r : Fin 32) (s : State) : Outcome := s.on fun s =>
  .next (s.issueReg e [r] [vd, va, vb] (fun k => k.setV vd (VAlu.select t (k.sreg r) (k.vreg va) (k.vreg vb))))
/-- vredadd.h8. -/
def execVredaddH8 (e : BargeIx) (r : Fin 32) (va : Fin 16) (s : State) : Outcome := s.on fun s =>
  .next (s.vtoS e r va va (fun x _ => VAlu.redadd x))

/-! ### Vector multiplies -/

def execVmulH8 (e : BargeIx) (vd va vb : Fin 16) (s : State) : Outcome := s.on fun s => .next (s.valu e vd va vb (VLane.map2 .h8 (· * ·)))
def execVmulhH8 (e : BargeIx) (vd va vb : Fin 16) (s : State) : Outcome := s.on fun s => .next (s.valu e vd va vb (VLane.map2 .h8 VAlu.q15))
def execVmulW4 (e : BargeIx) (vd va vb : Fin 16) (s : State) : Outcome := s.on fun s => .next (s.valu e vd va vb (VLane.map2 .w4 (· * ·)))
/-- R211: the accumulations apply in program order. -/
def execVmacH8 (e : BargeIx) (vd va vb : Fin 16) (s : State) : Outcome := s.on fun s =>
  .next (s.issueIf e (vd.val % 2 == 0) [] [vd, vd + 1, va, vb] (fun k =>
    k.setVPair vd (VAlu.mac (k.vpair vd) (VAlu.products (k.vreg va) (k.vreg vb)))))
def execVmacsH8 (e : BargeIx) (vd va : Fin 16) (r : Fin 32) (s : State) : Outcome := s.on fun s =>
  .next (s.issueIf e (vd.val % 2 == 0) [r] [vd, vd + 1, va] (fun k =>
    k.setVPair vd (VAlu.mac (k.vpair vd)
      ((VLane.signed 16 8 (k.vreg va).toNat).map (· * Bits.sext 16 (k.sreg r).toNat)))))

/-! ### Lanes -/

def execVpackH8 (e : BargeIx) (vd va n : Fin 16) (s : State) : Outcome := s.on fun s =>
  .next (s.issueIf e (va.val % 2 == 0) [] [vd, va, va + 1] (fun k => k.setV vd (VAlu.packH (k.vpair va) n)))
def execVwidenH8 (e : BargeIx) (vd va : Fin 16) (s : State) : Outcome := s.on fun s =>
  .next (s.issueIf e (vd.val % 2 == 0) [] [vd, vd + 1, va] (fun k => k.setVPair vd (VAlu.widen (k.vreg va))))
def execVextH (e : BargeIx) (r : Fin 32) (va lane : Fin 16) (s : State) : Outcome := s.on fun s =>
  .next (s.issueIf e (lane.val < 8) [r] [va] (fun k => k.setS r (VAlu.extract 16 lane (k.vreg va))))
def execVextW (e : BargeIx) (r : Fin 32) (va lane : Fin 16) (s : State) : Outcome := s.on fun s =>
  .next (s.issueIf e (lane.val < 4) [r] [va] (fun k => k.setS r (VAlu.extract 32 lane (k.vreg va))))
def execVinsH (e : BargeIx) (vd lane : Fin 16) (r : Fin 32) (s : State) : Outcome := s.on fun s =>
  .next (s.issueIf e (lane.val < 8) [r] [vd] (fun k => k.setV vd (VAlu.insert 16 lane (k.vreg vd) (k.sreg r))))
def execVinsW (e : BargeIx) (vd lane : Fin 16) (r : Fin 32) (s : State) : Outcome := s.on fun s =>
  .next (s.issueIf e (lane.val < 4) [r] [vd] (fun k => k.setV vd (VAlu.insert 32 lane (k.vreg vd) (k.sreg r))))
def execVbcastH (e : BargeIx) (vd : Fin 16) (r : Fin 32) (s : State) : Outcome := s.on fun s =>
  .next (s.issueReg e [r] [vd] (fun k => k.setV vd (VAlu.bcast .h8 (k.sreg r))))
def execVbcastW (e : BargeIx) (vd : Fin 16) (r : Fin 32) (s : State) : Outcome := s.on fun s =>
  .next (s.issueReg e [r] [vd] (fun k => k.setV vd (VAlu.bcast .w4 (k.sreg r))))

end Sys2Proof.Machine
end

