-- ==== Sys2Proof/Machine/BargeCtl.lean ====
section
/-! DEFINITION. Barge control: tasks and dispatch (spec/10), loads and stores up to the store buffer, branches, system
instructions, interrupts, timers and the barge-private registers (spec/09). -/

namespace Sys2Proof.Machine

/-! ### Moored releases (R233 to R235) -/

def Barge.moorCfg (k : Barge) (n : Nat) : Word := Sparse.get (fun _ => 0) k.tq.moorCfg n
def Barge.allOnes : Nat := 2 ^ 64 - 1
def Barge.tmrCmp (k : Barge) (n : Nat) : Nat := Sparse.get (fun _ => Barge.allOnes) k.tmr n

/-- BIND of a slot (Table 10-3). -/
def Barge.bind (k : Barge) (n : Nat) : Nat := Bits.fld (k.moorCfg n) 1 3

/-- NEXT of a slot (R235). -/
def Barge.moorNext (k : Barge) (cycle n : Nat) : Nat :=
  match k.bind n with
  | 2 => k.tmrCmp 0
  | 3 => k.tmrCmp 1
  | 0 => Sparse.get (fun _ => Barge.allOnes) k.tq.moorNext n
  | _ => if Bits.fld (k.moorCfg n) 20 12 = 0 then cycle else Sparse.get (fun _ => Barge.allOnes) k.tq.moorNext n

/-- The horizon: the smallest NEXT of the enabled slots (R235). -/
def Barge.horizon (k : Barge) (cycle : Nat) : Nat :=
  (List.range 16).foldl (fun a n => if Bits.bit (k.moorCfg n) 0 then min a (k.moorNext cycle n) else a) Barge.allOnes

/-- A release of moored slot `n` (R234): whether the slot took it. -/
def Dev.releaseMoored (s : Dev) (e n : Nat) : Bool × Dev :=
  let k := s.barge e
  if !Bits.bit (k.moorCfg n) 0 then (false, s.setBarge e { k with tq := { k.tq with relDropped := true } })
  else (true, s.setBarge e { k with
    pend := k.pend ||| (1#64 <<< n), tq := { k.tq with relMerged := k.tq.relMerged || k.pend.getLsbD n } })

/-- A hardware event releases every slot bound to it, and predicts its next occurrence (R233, R235). -/
def Dev.boundEvent (s : Dev) (e bind : Nat) : Dev :=
  s.forEach (List.range 16) (fun s n =>
    let k := s.barge e
    if k.bind n = bind then
      let next := s.bgCycle e + Bits.fld (k.moorCfg n) 20 12
      let s := if bind = 2 ∨ bind = 3 then s
        else s.setBarge e { k with tq := { k.tq with moorNext := Sparse.set (fun _ => Barge.allOnes) k.tq.moorNext n next } }
      (s.releaseMoored e n).2
    else s)

/-- R235: NEXT of a lock-only slot from the announced TIME, or all ones when no copy is held. -/
def execReleaseAnnounce (e : BargeIx) (slot : Fin 16) (time : Option DWord) (s : State) : Outcome := s.on fun s =>
  let k := s.barge e
  if k.bind slot ≠ 0 then .next s
  else
    let next := match time with
      | none => Barge.allOnes
      | some t =>
        let d : Int := (t.toNat : Int) - s.tbTime - 20
        ((s.bgCycle e : Int) + (d * 2046) / 5120).toNat % 2 ^ 64
    .next (s.setBarge e { k with tq := { k.tq with moorNext := Sparse.set (fun _ => Barge.allOnes) k.tq.moorNext slot next } })

/-! ### Loose tasks (R237 to R245) -/

def Token.wcet (t : Quad) : Nat := Bits.fld t 32 16
def Token.noSteal (t : Quad) : Bool := Bits.bit t 48
def Token.xRegion (t : Quad) : Bool := Bits.bit t 49

/-- The barge is idle (R241). -/
def Barge.idle (k : Barge) : Bool :=
  k.run && k.waiting && decide (k.depth = 0) && !k.xcpt && k.gie && Bits.nbit k.tq.cfg 0 && k.sb.isEmpty && k.lq.isEmpty &&
  !k.dbg.halted && k.dbg.haltReq.isNone && !k.seized

/-- A running loose task ends when its barge is idle (R244). -/
def Dev.taskEnd (s : Dev) (e : Nat) : Dev :=
  let k := s.barge e
  if k.idle && k.tq.running.isSome then
    let c := min 65535 (s.bgCycle e - k.tq.runStart)
    s.setBarge e { k with tq := { k.tq with running := none, runStopped := c } }
  else s

/-- The token fits the horizon of barge `e` (R241). Log 80 (DEDUCED, unsafe). -/
def Dev.fits (s : Dev) (e : Nat) (t : Quad) : Bool :=
  let c := s.bgCycle e
  let h := (s.barge e).horizon c
  decide (Token.wcet t + 64 < h - c)

/-- The head of barge `q` may be taken by `e`, from another region with `x` (R241). -/
def Dev.stealable (s : Dev) (e q : Nat) (x : Bool) : Bool :=
  match (s.barge q).tq.queue with
  | [] => false
  | t :: _ => Bits.nbit (s.barge q).tq.cfg 3 && !Token.noSteal t && (!x || Token.xRegion t) && s.fits e t

/-- The same for the token of a mailbox command (R446). -/
def Dev.pushMailbox (s : Dev) (q : Nat) : Dev :=
  let first := s.rf RegMap.hpLvCfg 16 6
  match s.nodes.find? (fun p => first + p.1 == q && (match p.2.flight with | some m => m.held | none => false)) with
  | none => s
  | some (n, x) => match x.flight with
    | none => s
    | some m =>
      if 32 ≤ (s.barge q).tq.queue.length then s
      else
        let s := s.modBarge q (fun k => { k with tq := { k.tq with queue := k.tq.queue ++ [m.token] } })
        { s with nodes := Sparse.set (fun _ => {}) s.nodes n { x with flight := some { m with held := false } } }

/-- A command token that the host port holds enters its queue once there is room (R238). -/
def Dev.pushHeld (s : Dev) (q : Nat) : Dev :=
  match s.hp.slots.find? (fun x => x.held && x.barge == q) with
  | none => s.pushMailbox q
  | some x =>
    if 32 ≤ (s.barge q).tq.queue.length then s
    else
      let s := s.modBarge q (fun k => { k with tq := { k.tq with queue := k.tq.queue ++ [x.token] } })
      { s with hp := { s.hp with slots := s.hp.slots.map (fun y => if y = x then { y with held := false } else y) } }

/-- take (R242): the head of queue `q` runs on barge `e`. -/
def Dev.take (s : Dev) (e q : Nat) : Dev :=
  match (s.barge q).tq.queue with
  | [] => s
  | t :: rest =>
    let s := s.modBarge q (fun k => { k with tq := { k.tq with
      queue := rest, lent := if e = q then k.tq.lent else Bits.satAdd 255 k.tq.lent 1 } })
    let s := s.pushHeld q
    let now := s.bgCycle e
    s.modBarge e (fun k =>
      let k := ((k.setS 28 (BitVec.ofNat 32 t.toNat)).setS 29 (BitVec.ofNat 32 (t.toNat >>> 32)))
      let k := (k.setS 30 (BitVec.ofNat 32 (t.toNat >>> 64))).setS 31 (BitVec.ofNat 32 (t.toNat >>> 96))
      { k with
        pc := Bits.fld t 0 32 / 4 * 4, waiting := false
        tq := { k.tq with running := some t, runStart := now, overrun := false
                          steals := if e = q then k.tq.steals else Bits.satAdd 255 k.tq.steals 1 } })

/-- The queue the dispatcher takes from (R241): own head, a peer in order, then another region when all of its own are empty. -/
def Dev.dispatchFrom (s : Dev) (e : Nat) : Option Nat :=
  let g := e / 8
  let i := e % 8
  let k := s.barge e
  match k.tq.queue with
  | t :: _ => if s.fits e t then some e else none
  | [] =>
    if !Bits.nbit k.tq.cfg 1 then none
    else
      match ((List.range 7).map (fun n => 8 * g + (i + n + 1) % 8)).find? (fun q => s.stealable e q false) with
      | some q => some q
      | none =>
        if Bits.nbit k.tq.cfg 2 && (List.range 8).all (fun m => (s.barge (8 * g + m)).tq.queue.isEmpty) then
          ((List.range 7).flatMap (fun r => (List.range 8).map (fun m => 8 * ((g + r + 1) % 8) + m))).find?
            (fun q => s.stealable e q true)
        else none

/-- R241 to R244: an idle cycle without an eligible source. -/
def execDispatch (e : BargeIx) (s : State) : Outcome := s.on fun s =>
  let s := s.taskEnd e
  let k := s.barge e
  if !k.idle || k.eligible.isSome || decide (s.pwr.mode = 2) then .next s
  else match s.dispatchFrom e with
    | none => .next s
    | some q => .next (s.take e q)

/-- Push a token to the tail of a queue; a full queue discards it (R238). -/
def Dev.pushToken (s : Dev) (q : Nat) (t : Quad) : Bool × Dev :=
  let k := s.barge q
  if k.tq.queue.length < 32 then (true, s.setBarge q { k with tq := { k.tq with queue := k.tq.queue ++ [t] } })
  else (false, s)

/-- The store of the high half of BG_TQ_PUSH[i] by barge `e` (R238). -/
def Dev.tqPush (s : Dev) (e i : Nat) (hi : DWord) : Dev :=
  let low := Sparse.get (fun _ => 0) (s.barge e).tq.pushLow i
  let (ok, s) := s.pushToken (e / 8 * 8 + i) (hi ++ low)
  if ok then s else s.modBarge e (fun k => { k with tq := { k.tq with pushFull := true } })

def execTqPush (e : BargeIx) (i : Fin 8) (hi : DWord) (s : State) : Outcome := s.on fun s => .next (s.tqPush e i hi)

/-- R240. Log 81 (DEDUCED, unsafe). -/
def Dev.poke (s : Dev) (e : Nat) (m : Byte) : Dev :=
  s.forEach (Bits.ones 8 m.toNat) (fun s i => s.irq (e / 8 * 8 + i) (40 + e % 8))

def execPoke (e : BargeIx) (m : Byte) (s : State) : Outcome := s.on fun s => .next (s.poke e m)

/-- R245. -/
def execLooseOverrun (e : BargeIx) (s : State) : Outcome := s.on fun s =>
  let k := s.barge e
  match k.tq.running with
  | none => .next s
  | some _ =>
    if k.tq.overrun then .next s
    else
      let s := s.setBarge e { k with tq := { k.tq with overrun := true, ovrLoose := true } }
      .next ((s.irq e 21).occurCentral (e / 8) 74 e)

/-- R246: the handler that runs belongs to a moored slot with a budget. -/
def execMooredOverrun (e : BargeIx) (s : State) : Outcome := s.on fun s =>
  let k := s.barge e
  let n := Sparse.get (fun _ => 0) k.srcAt k.level
  if k.depth = 0 ∨ 16 ≤ n ∨ Bits.fld (k.moorCfg n) 4 16 = 0 then .next s
  else
    let s := s.setBarge e { k with tq := { k.tq with ovrMoored := true, ovrSlot := n } }
    .next ((s.irq e 22).occurCentral (e / 8) 74 e)

/-! ### Loads and stores at issue (R213, R218 to R220, R223) -/

/-- A 64-bit barge-private register read as its words: the low word latches the high one (R231). -/
def Barge.read64 (k : Barge) (v hi size : Nat) : Nat × Barge :=
  if size = 8 then (v, k)
  else if hi = 0 then (v % 2 ^ 32, { k with latch := BitVec.ofNat 32 (v >>> 32) })
  else (k.latch.toNat, k)

/-- BG_TQ_STAT (Table 10-7). -/
def TaskUnit.stat (t : TaskUnit) : Nat :=
  t.queue.length % 64 + Bits.b2n t.running.isSome * 2 ^ 6 + Bits.b2n t.ovrLoose * 2 ^ 7 + Bits.b2n t.ovrMoored * 2 ^ 8 +
  Bits.b2n t.pushFull * 2 ^ 9 + Bits.b2n t.relMerged * 2 ^ 10 + Bits.b2n t.relDropped * 2 ^ 11 + t.ovrSlot % 16 * 2 ^ 12 +
  t.steals % 256 * 2 ^ 16 + t.lent % 256 * 2 ^ 24

/-- BG_IRQ_ACTIVE (Table 9-13). -/
def Barge.active (k : Barge) : Nat :=
  if 0 < k.depth ∧ !k.xcpt then Sparse.get (fun _ => 0) k.srcAt k.level % 64 + 64 else 0

/-- A read of a barge-private register: value and side effects (Tables 9-13 and 10-5). `keep` reads without side effects. -/
def Dev.bgRead (s : Dev) (e off size : Nat) : Nat × Dev :=
  let k := s.barge e
  let cyc := s.bgCycle e
  let wide := fun (v base : Nat) =>
    let r := k.read64 v (off - base) size
    (r.1, s.setBarge e r.2)
  let word := fun (off : Nat) =>
    if 0x40 ≤ off ∧ off < 0x80 then
      Sparse.get (fun _ => 0) (if off % 8 = 0 then k.epc else k.estat) ((off - 0x40) / 8)
    else if 0xA0 ≤ off ∧ off < 0xC0 then (Sparse.get (fun _ => 0) k.prio ((off - 0xA0) / 4)).toNat
    else match off with
      | 0x0000 => e % 64 + e / 8 * 64
      | 0x0004 => k.status + Bits.b2n k.accFail * 2 ^ 9 + Bits.b2n k.eccSeen * 2 ^ 10
      | 0x0008 => k.xcause
      | 0x000C => k.xaddr
      | 0x0010 => k.xepc
      | 0x0014 => k.xstat
      | 0x0018 => k.vtbase
      | 0x00C0 => k.active
      | 0x1000 => k.tq.cfg
      | 0x1004 => k.tq.stat
      | 0x1018 => match k.tq.running with
        | some _ => min 65535 (cyc - k.tq.runStart)
        | none => k.tq.runStopped
      | off => if 0x1100 ≤ off ∧ off < 0x1200 ∧ off % 16 = 0 then (k.moorCfg ((off - 0x1100) / 16)).toNat else 0
  let base := off / 8 * 8
  if base = 0x20 then wide cyc 0x20
  else if base = 0x28 then
    let (n, s) := s.drawNat
    let r := k.read64 (s.tbTime - 4 * (n % 6)) (off - base) size
    (r.1, s.setBarge e r.2)
  else if base = 0x30 then wide (k.tmrCmp 0) base
  else if base = 0x38 then wide (k.tmrCmp 1) base
  else if base = 0x80 then wide k.pend.toNat base
  else if base = 0x88 then wide k.en.toNat base
  else if base = 0x1010 then wide (k.horizon cyc) base
  else if 0x1108 ≤ base ∧ base < 0x1208 ∧ base % 16 = 8 then wide (k.moorNext cyc ((base - 0x1108) / 16)) base
  else
    let v := if size = 8 then word base + word (base + 4) * 2 ^ 32 else word off
    let rc := decide (off ≤ 0x1004) && decide (0x1004 < off + size)
    (v, if rc then s.setBarge e { k with tq := { k.tq with steals := 0, lent := 0 } } else s)

/-- R231: a 32-bit read of the low word of a 64-bit register latches its high word. -/
def execBgLowWordRead (e : BargeIx) (off : BitVec 16) (s : State) : Outcome := s.on fun s =>
  let (v, s) := s.bgRead e (off.toNat / 8 * 8) 4
  .next (s.emit (.readData [BitVec.ofNat 32 v]))

/-- Sources set or cleared by software (R224); source 39 is never pending (Table 10-1). -/
def Dev.irqSet (s : Dev) (e : Nat) (v : DWord) : Dev :=
  s.modBarge e (fun k => { k with pend := k.pend ||| (v &&& ~~~ (1#64 <<< 39)) })
def Dev.irqClr (s : Dev) (e : Nat) (v : DWord) : Dev := s.modBarge e (fun k => { k with pend := k.pend &&& ~~~ v })

def execIrqSet (e : BargeIx) (v : DWord) (s : State) : Outcome := s.on fun s => .next (s.irqSet e v)
def execIrqClr (e : BargeIx) (v : DWord) (s : State) : Outcome := s.on fun s => .next (s.irqClr e v)

/-- Merge a 32-bit half into a 64-bit value. -/
def Barge.half (old : Nat) (hi : Bool) (v : Nat) : Nat :=
  if hi then old % 2 ^ 32 + v % 2 ^ 32 * 2 ^ 32 else old / 2 ^ 32 * 2 ^ 32 + v % 2 ^ 32

/-- A 32-bit write of a barge-private register (Tables 9-13, 10-5 to 10-7). -/
def Dev.bgWrite32 (s : Dev) (e off v : Nat) : Dev :=
  let k := s.barge e
  let hi := decide (off % 8 = 4)
  let shifted := v % 2 ^ 32 * (if hi then 2 ^ 32 else 1)
  if 0x40 ≤ off ∧ off < 0x80 then
    let p := (off - 0x40) / 8
    s.setBarge e (if hi then { k with estat := Sparse.set (fun _ => 0) k.estat p (v % 512) }
      else { k with epc := Sparse.set (fun _ => 0) k.epc p (v / 4 * 4) })
  else if 0xA0 ≤ off ∧ off < 0xC0 then
    s.setBarge e { k with prio := Sparse.set (fun _ => 0) k.prio ((off - 0xA0) / 4) (BitVec.ofNat 32 v &&& 0x77777777) }
  else if 0x30 ≤ off ∧ off < 0x40 then
    let n := (off - 0x30) / 8
    s.setBarge e { k with
      tmr := Sparse.set (fun _ => Barge.allOnes) k.tmr n (Barge.half (k.tmrCmp n) hi v)
      tmrHit := k.tmrHit &&& (3 - (1 <<< n)) }
  else if 0x1040 ≤ off ∧ off < 0x10C0 then
    let i := (off - 0x1040) / 16
    let o := off % 16
    if o < 8 then
      let old := (Sparse.get (fun _ => 0) k.tq.pushLow i).toNat
      s.setBarge e { k with tq := { k.tq with
        pushLow := Sparse.set (fun _ => 0) k.tq.pushLow i (BitVec.ofNat 64 (Barge.half old hi v)) } }
    else s
  else if 0x1100 ≤ off ∧ off < 0x1200 ∧ off % 16 = 0 then
    s.setBarge e { k with tq := { k.tq with
      moorCfg := Sparse.set (fun _ => 0) k.tq.moorCfg ((off - 0x1100) / 16) (BitVec.ofNat 32 v) } }
  else match off with
    | 0x0004 => s.setBarge e { k with accFail := k.accFail && !Bits.nbit v 9, eccSeen := k.eccSeen && !Bits.nbit v 10 }
    | 0x0010 => s.setBarge e { k with xepc := v / 4 * 4 }
    | 0x0014 => s.setBarge e { k with xstat := v % 512 }
    | 0x0018 => s.setBarge e { k with vtbase := v % 0x20000 / 0x400 * 0x400 }
    | 0x0088 | 0x008C => s.setBarge e { k with en := BitVec.ofNat 64 (Barge.half k.en.toNat hi v) }
    | 0x0090 | 0x0094 => s.irqSet e (BitVec.ofNat 64 shifted)
    | 0x0098 | 0x009C => s.irqClr e (BitVec.ofNat 64 shifted)
    | 0x1000 => s.setBarge e { k with tq := { k.tq with cfg := v % 16 } }
    | 0x1004 => s.setBarge e { k with tq := { k.tq with
        ovrLoose := k.tq.ovrLoose && !Bits.nbit v 7, ovrMoored := k.tq.ovrMoored && !Bits.nbit v 8
        pushFull := k.tq.pushFull && !Bits.nbit v 9, relMerged := k.tq.relMerged && !Bits.nbit v 10
        relDropped := k.tq.relDropped && !Bits.nbit v 11 } }
    | 0x1008 => s.poke e (BitVec.ofNat 8 v)
    | _ => s

/-- A write that leaves the store buffer for a barge-private register (R218, R231). -/
def Dev.bgWrite (s : Dev) (e off size v : Nat) : Dev :=
  if size = 8 then
    if 0x1048 ≤ off ∧ off < 0x10C8 ∧ off % 16 = 8 then s.tqPush e ((off - 0x1048) / 16) (BitVec.ofNat 64 v)
    else (s.bgWrite32 e off v).bgWrite32 e (off + 4) (v >>> 32)
  else s.bgWrite32 e off v

/-- Sign or zero extension of a scalar load. -/
def LoadEnt.value (l : LoadEnt) (d : Nat) : Nat := if l.signed then Bits.ofInt 32 (Bits.sext (8 * l.size) d) else d

/-- Registers a destination names. -/
def LdDest.regs : LdDest → List Nat × List Nat
  | .s r => ([r], []) | .pair r => ([r, r + 1], []) | .v r => ([], [r])

/-- A load enters the load queue; the instruction has issued. -/
def Dev.pushLoad (s : Dev) (e : Nat) (l : LoadEnt) : Dev :=
  (s.modBarge e (fun k => Barge.step { k with lq := k.lq ++ [l] })).watch e l.addr false

/-- A load without an older store in its way, by its memory class: memories and barge registers are read at issue, chip
registers and the island window when they answer. -/
def Dev.loadClass (s : Dev) (e : Nat) (l : LoadEnt) : Dev :=
  match Mem.classOf l.addr with
  | some .chip => s.pushLoad e l
  | some .island => s.pushLoad e l
  | some .bg =>
    let (v, s) := s.bgRead e (Mem.bgOff l.addr) l.size
    s.pushLoad e { l with data := some v }
  | some .flash =>
    s.pushLoad e { l with data := some (s.memLoad e l.addr l.size), miss := (s.barge e).dline ≠ some (l.addr / 32) }
  | _ => s.pushLoad e { l with data := some (s.memLoad e l.addr l.size) }

/-- A load at issue: checked (R213), compared with the store buffer (R219, R220), read or queued (R210). -/
def Dev.load (s : Dev) (e : Nat) (dest : LdDest) (base size : Nat) (imm : BitVec 13) (signed : Bool) : Dev :=
  let a := (s.barge e).ea base imm
  s.issue e (base :: dest.regs.1) dest.regs.2 (fun s =>
    match Mem.check a size false with
    | some code => s.exception e code (s.barge e).pc a
    | none =>
      let k := s.barge e
      let l : LoadEnt := { dest := dest, addr := a, size := size, signed := signed }
      if 4 ≤ k.lq.length then s
      else if Mem.ordered a && k.sb.any (fun x => Mem.ordered x.addr) then s
      else match k.sb.reverse.find? (fun x => x.overlaps a size) with
        | some x =>
          if Mem.ordered a then s.pushLoad e l
          else if x.addr = a ∧ x.size = size then s.pushLoad e { l with data := some x.data } else s
        | none => s.loadClass e l)

/-- A store at issue: checked, refused past eight IRAM stores (R223), or appended to the store buffer (R218). -/
def Dev.store (s : Dev) (e : Nat) (base size : Nat) (imm : BitVec 13) (regs vregs : List Nat) (val : Barge → Nat) : Dev :=
  let k := s.barge e
  let a := k.ea base imm
  s.issue e (base :: regs) vregs (fun s =>
    let k := s.barge e
    match Mem.check a size true with
    | some code => s.exception e code k.pc a
    | none =>
      let iram := decide (a < 0x10000)
      if iram ∧ 8 ≤ k.patchCount then s.exception e 8 k.pc a
      else if 4 ≤ k.sb.length then s
      else
        let x : StoreEnt := { addr := a, size := size, data := val k % 2 ^ (8 * size) }
        (s.setBarge e ({ k with sb := k.sb ++ [x], patchCount := k.patchCount + Bits.b2n iram }).step).watch e a true)

def execLdB (e : BargeIx) (d base : Fin 32) (imm : BitVec 13) (s : State) : Outcome := s.on fun s => .next (s.load e (.s d) base 1 imm true)
def execLdBu (e : BargeIx) (d base : Fin 32) (imm : BitVec 13) (s : State) : Outcome := s.on fun s => .next (s.load e (.s d) base 1 imm false)
def execLdH (e : BargeIx) (d base : Fin 32) (imm : BitVec 13) (s : State) : Outcome := s.on fun s => .next (s.load e (.s d) base 2 imm true)
def execLdHu (e : BargeIx) (d base : Fin 32) (imm : BitVec 13) (s : State) : Outcome := s.on fun s => .next (s.load e (.s d) base 2 imm false)
def execLdW (e : BargeIx) (d base : Fin 32) (imm : BitVec 13) (s : State) : Outcome := s.on fun s => .next (s.load e (.s d) base 4 imm false)
/-- An odd pair register is ILLEGAL (R208). -/
def Dev.oddPair (s : Dev) (e : Nat) : Dev := s.issue e [] [] (fun s => s.exception e 1 (s.barge e).pc 0)
def execLdD (e : BargeIx) (d base : Fin 32) (imm : BitVec 13) (s : State) : Outcome := s.on fun s =>
  .next (if d.val % 2 = 0 then s.load e (.pair d) base 8 imm false else s.oddPair e)
def execVldQ (e : BargeIx) (v : Fin 16) (base : Fin 32) (imm : BitVec 13) (s : State) : Outcome := s.on fun s =>
  .next (s.load e (.v v) base 16 imm false)

def execStB (e : BargeIx) (src base : Fin 32) (imm : BitVec 13) (s : State) : Outcome := s.on fun s =>
  .next (s.store e base 1 imm [src] [] (fun k => (k.sreg src).toNat))
def execStH (e : BargeIx) (src base : Fin 32) (imm : BitVec 13) (s : State) : Outcome := s.on fun s =>
  .next (s.store e base 2 imm [src] [] (fun k => (k.sreg src).toNat))
def execStW (e : BargeIx) (src base : Fin 32) (imm : BitVec 13) (s : State) : Outcome := s.on fun s =>
  .next (s.store e base 4 imm [src] [] (fun k => (k.sreg src).toNat))
def execStD (e : BargeIx) (src base : Fin 32) (imm : BitVec 13) (s : State) : Outcome := s.on fun s =>
  .next (if src.val % 2 = 0 then s.store e base 8 imm [src, src + 1] [] (fun k => k.spair src) else s.oddPair e)
def execVstQ (e : BargeIx) (v : Fin 16) (base : Fin 32) (imm : BitVec 13) (s : State) : Outcome := s.on fun s =>
  .next (s.store e base 16 imm [] [v] (fun k => (k.vreg v).toNat))

/-! ### Fetch lines (R215, R216) -/

/-- R215, R216: the line of the program counter is filled; a prefetch in progress is cancelled. -/
def execFetchLineFill (e : BargeIx) (s : State) : Outcome := s.on fun s =>
  let k := s.barge e
  let l := k.pc / 32
  .next (if Barge.inFlash k.pc && !k.lines.contains l then
      s.setBarge e { k with lines := (l :: k.lines).take 2, prefetch := none }
    else s)

/-- R216: the next line is in the buffer that does not hold the line being run. -/
def execPrefetchComplete (e : BargeIx) (s : State) : Outcome := s.on fun s =>
  let k := s.barge e
  match k.prefetch with
  | none => .next s
  | some l => .next (s.setBarge e { k with lines := (l :: k.lines.filter (· == l - 1)).take 2, prefetch := none })

/-! ### Branches (R217) -/

/-- The BTB after a branch at `pc`. -/
def Barge.btbAfter (k : Barge) (pc : Nat) (taken : Option Nat) : Barge :=
  let i := pc / 4 % 32
  let x := Sparse.get (fun _ => {}) k.btb i
  match taken with
  | some t => { k with btb := Sparse.set (fun _ => {}) k.btb i { valid := true, tag := pc / 128, target := t } }
  | none => if x.valid && x.tag == pc / 128 then { k with btb := Sparse.set (fun _ => {}) k.btb i {} } else k

/-- A conditional branch: pc + 4 x imm13 when `p` holds. -/
def Dev.branch (s : Dev) (e : Nat) (a b : Nat) (imm : BitVec 13) (p : Word → Word → Bool) : Dev :=
  s.issue e [a, b] [] (fun s => s.modBarge e (fun k =>
    let t := (BitVec.ofNat 32 k.pc + imm.signExtend 32 * 4).toNat
    if p (k.sreg a) (k.sreg b) then { k.btbAfter k.pc (some t) with pc := t } else (k.btbAfter k.pc none).step))

def execBEq (e : BargeIx) (a b : Fin 32) (imm : BitVec 13) (s : State) : Outcome := s.on fun s => .next (s.branch e a b imm (fun x y => x == y))
def execBNe (e : BargeIx) (a b : Fin 32) (imm : BitVec 13) (s : State) : Outcome := s.on fun s => .next (s.branch e a b imm (fun x y => x != y))
def execBLt (e : BargeIx) (a b : Fin 32) (imm : BitVec 13) (s : State) : Outcome := s.on fun s => .next (s.branch e a b imm BitVec.slt)
def execBGe (e : BargeIx) (a b : Fin 32) (imm : BitVec 13) (s : State) : Outcome := s.on fun s =>
  .next (s.branch e a b imm (fun x y => !x.slt y))
def execBLtu (e : BargeIx) (a b : Fin 32) (imm : BitVec 13) (s : State) : Outcome := s.on fun s => .next (s.branch e a b imm BitVec.ult)
def execBGeu (e : BargeIx) (a b : Fin 32) (imm : BitVec 13) (s : State) : Outcome := s.on fun s =>
  .next (s.branch e a b imm (fun x y => !x.ult y))

/-- A jump with link to the address `t` gives. -/
def Dev.jump (s : Dev) (e d : Nat) (regs : List Nat) (t : Barge → Nat) : Dev :=
  s.issue e regs [] (fun s => s.modBarge e (fun k =>
    let n := t k
    { (k.btbAfter k.pc (some n)).setS d (BitVec.ofNat 32 (k.pc + 4)) with pc := n }))

def execJmp (e : BargeIx) (d : Fin 32) (imm : BitVec 21) (s : State) : Outcome := s.on fun s =>
  .next (s.jump e d [d] (fun k => (BitVec.ofNat 32 k.pc + imm.signExtend 32 * 4).toNat))
def execJmpr (e : BargeIx) (d base : Fin 32) (imm : BitVec 13) (s : State) : Outcome := s.on fun s =>
  .next (s.jump e d [d, base] (fun k => k.ea base imm / 4 * 4))

/-! ### System instructions (Table 9-5) -/

/-- R218: it waits until the store buffer and the load queue are empty. -/
def execDrain (e : BargeIx) (s : State) : Outcome := s.on fun s =>
  .next (s.issue e [] [] (fun s =>
    let k := s.barge e
    if k.sb.isEmpty && k.lq.isEmpty then s.setBarge e k.step else s))

/-- The patches written into IRAM in order (R222). -/
def Barge.applyPatches (m : Sparse Byte) : List StoreEnt → Sparse Byte
  | [] => m
  | p :: l => Barge.applyPatches (Mem.write 0 m p.addr p.size p.data) l

/-- R222: it waits for the store buffer; patches go into IRAM; the fetch and data line buffers and the BTB clear. -/
def execSyncI (e : BargeIx) (s : State) : Outcome := s.on fun s =>
  .next (s.issue e [] [] (fun s =>
    let k := s.barge e
    if k.sb.isEmpty then
      s.setBarge e ({ k with iram := Barge.applyPatches k.iram k.patches, patches := [], patchCount := 0, lines := []
                             prefetch := none, dline := none, btb := [] }).step
    else s))

/-- R225: the barge waits; its return address is the instruction after. A loose task that ran ends once it is idle (R244). -/
def execWaitI (e : BargeIx) (s : State) : Outcome := s.on fun s =>
  .next ((s.issue e [] [] (fun s => s.modBarge e (fun k => { k.step with waiting := true }))).taskEnd e)

/-- R229. -/
def execTrap (e : BargeIx) (s : State) : Outcome := s.on fun s => .next (s.issue e [] [] (fun s => s.exception e 9 (s.barge e).pc 0))

/-- The debug port is OPEN (R428): by grant or by AUTH, unless DENY is set. -/
def Dev.debugOpen (s : Dev) : Bool := !s.dbg.deny && (s.dbg.granted || s.dbg.authed)

/-- R437: brk halts under debug with BRK_HALT, otherwise raises BRK. -/
def execBrk (e : BargeIx) (s : State) : Outcome := s.on fun s =>
  .next (s.issue e [] [] (fun s =>
    if s.debugOpen && s.rb RegMap.dbgCtrl 2 then s.haltBarge e 4 else s.exception e 10 (s.barge e).pc 0))

/-- R224: effective in the issue cycle. -/
def execDi (e : BargeIx) (s : State) : Outcome := s.on fun s => .next (s.issueReg e [] [] (fun k => { k with gie := false }))
def execEi (e : BargeIx) (s : State) : Outcome := s.on fun s => .next (s.issueReg e [] [] (fun k => { k with gie := true }))

/-- R208. -/
def execIllegal (e : BargeIx) (s : State) : Outcome := s.on fun s => .next (s.issue e [] [] (fun s => s.exception e 1 (s.barge e).pc 0))

/-! ### Interrupt entry and return (R225 to R228) -/

/-- Accept source `n`: pending clears, the slot of its level takes `ret` and `stat`, LEVEL and the handler address. -/
def Barge.accept (k : Barge) (n ret stat depth : Nat) : Barge :=
  let p := k.levelOf n
  { k with
    pend := k.pend &&& ~~~ (1#64 <<< n)
    epc := Sparse.set (fun _ => 0) k.epc p ret, estat := Sparse.set (fun _ => 0) k.estat p stat
    srcAt := Sparse.set (fun _ => 0) k.srcAt p n, level := p, depth := depth, waiting := false, pc := k.vector (4 * n) }

/-- The commit of an entry (R225): the winner of the eligible sources, or nothing. An uncorrectable vector word seizes. A step
with STEP_IRQ = 0 takes none, and one with STEP_IRQ = 1 halts after it (R436). -/
def Dev.entry (s : Dev) (e : Nat) (vecEcc : Bool) : Dev :=
  let k := s.barge e
  match k.eligible with
  | none => s
  | some n =>
    if s.pwr.mode = 2 || !k.run || k.seized || k.dbg.halted || k.dbg.haltReq.isSome || (k.dbg.stepping && !s.rb RegMap.dbgCtrl 3) then s
    else
      let s := s.setBarge e (k.accept n k.pc k.status (k.depth + 1))
      (if vecEcc then (s.seize e).occurCentral (e / 8) 72 e else s).afterIssue e

def execInterruptEntry (e : BargeIx) (vecEcc : Bool) (s : State) : Outcome := s.on fun s => .next (s.entry e vecEcc)

/-- Leave a handler: saved status `stat` and address `ret`; a source above the level returned to is entered at once (R228),
unless `gie0`: a step treats GIE as 0 (R436). -/
def Barge.leave (k : Barge) (gie0 : Bool) (ret stat : Nat) : Barge :=
  let back := { k with pc := ret }.setStatus stat
  match (if back.gie && !gie0 && !back.xcpt then back.winner back.running else none) with
  | none => back
  | some n => back.accept n ret stat (back.depth + 1)

/-- R228, R229: from an exception through XEPC and XSTAT, from a handler through the slot of its level. -/
def execRetX (e : BargeIx) (s : State) : Outcome := s.on fun s =>
  .next ((s.issue e [] [] (fun s => s.modBarge e (fun k =>
    let gie0 := k.dbg.stepping && !s.rb RegMap.dbgCtrl 3
    if k.xcpt then k.leave gie0 k.xepc k.xstat
    else k.leave gie0 (Sparse.get (fun _ => 0) k.epc k.level) (Sparse.get (fun _ => 0) k.estat k.level)))).taskEnd e)

/-! ### Timers (R231) -/

/-- A timer source is set pending once when BG_CYCLE first equals or passes the value written; slots bound to it are
released (R233). -/
def execTimerCompare (e : BargeIx) (n : Fin 2) (s : State) : Outcome := s.on fun s =>
  let k := s.barge e
  if Bits.nbit k.tmrHit n ∨ s.bgCycle e < k.tmrCmp n then .next s
  else
    let s := s.setBarge e { k with tmrHit := k.tmrHit ||| (1 <<< n.val) }
    .next ((s.irq e (19 + n)).boundEvent e (2 + n))

end Sys2Proof.Machine
end

