-- ==== Sys2Proof/Machine/Sluice.lean ====
section
/-! DEFINITION. The sluice (spec/04 R109 to R112): requests and releases as they arrive, the grant round, and grants as they
reach their cells. -/

namespace Sys2Proof.Machine

/-! ### The order of requests (R110) -/

/-- `a` stands before `b`: priority descending, then request time, then cell ascending. -/
def GrantReq.before (a b : GrantReq) : Bool :=
  decide (b.prio < a.prio) || (decide (a.prio = b.prio) &&
    (decide (a.time < b.time) || (decide (a.time = b.time) && decide (a.cell < b.cell))))

/-- Insert a request at its place. -/
def Sluice.place (r : GrantReq) : List GrantReq → List GrantReq
  | [] => [r]
  | q :: l => if r.before q then r :: q :: l else q :: Sluice.place r l

/-- The requests of a group in the order of R110, frozen ones left out (R25). -/
def Sluice.ordered (p : Sluice) (n : Nat) : List GrantReq :=
  (p.pend.filter (fun r => r.group == n && !r.frozen)).foldr Sluice.place []

/-- RESERVED_MA of a group, exact. -/
def Sluice.reserved (p : Sluice) (n : Nat) : Nat := ((p.held.filter (fun r => r.group == n)).map Reservation.ma).sum

/-- Reservations held in a group. -/
def Sluice.active (p : Sluice) (n : Nat) : Nat := (p.held.filter (fun r => r.group == n)).length

/-- The settings of a group (Tables 4-11 and 4-12). -/
structure GroupCfg where
  budget : Nat
  bypass : Bool
  bypassMax : Nat
  maxGrants : Nat

def Dev.groupCfg (s : Dev) (n : Nat) : GroupCfg :=
  { budget := s.rf (RegMap.slBudget n) 0 24, bypass := s.rb (RegMap.slCfg n) 0
    bypassMax := max 1 (s.rf (RegMap.slCfg n) 8 8), maxGrants := s.rf (RegMap.slCfg n) 16 10 }

/-- Grant a request: the reservation is held and the grant sent with the next number. -/
def Sluice.grant (p : Sluice) (n : Nat) (k : GroupCfg) (r : GrantReq) : Sluice × Grant :=
  ({ p with
      pend := p.pend.filter (fun q => q.cell != r.cell)
      held := p.held ++ [{ cell := r.cell, group := n, ma := r.ma, seq := p.seq }]
      oversize := if k.budget < r.ma then p.oversize ||| (1 <<< n) else p.oversize
      seq := p.seq + 1 },
   { cell := r.cell, ma := r.ma, group := n, seq := p.seq })

/-- One more grant has passed the blocked request of a cell. -/
def Sluice.pass (p : Sluice) (cell : Nat) : Sluice :=
  { p with pend := p.pend.map (fun q => if q.cell = cell then { q with passed := q.passed + 1 } else q) }

/-- The grant round of group `n` over its requests in order; `blocked` is the first that did not fit, with its passed
count (R110). Log 49 (DEDUCED, safe). -/
def Sluice.round (n : Nat) (k : GroupCfg) : List GrantReq → Option (Nat × Nat) → Sluice → List Grant → Sluice × List Grant
  | [], _, p, acc => (p, acc)
  | r :: l, blocked, p, acc =>
    if k.maxGrants ≠ 0 ∧ k.maxGrants ≤ p.active n then (p, acc)
    else if p.reserved n + r.ma ≤ k.budget ∨ p.reserved n = 0 ∨ k.budget = 0xFFFFFF then
      match blocked with
      | none =>
        let (p, a) := p.grant n k r
        Sluice.round n k l none p (acc ++ [a])
      | some (cell, passed) =>
        if k.bypassMax ≤ passed then (p, acc)
        else
          let (p, a) := (p.pass cell).grant n k r
          Sluice.round n k l (some (cell, passed + 1)) p (acc ++ [a])
    else match blocked with
      | some b => Sluice.round n k l (some b) p acc
      | none => if k.bypass then Sluice.round n k l (some (r.cell, r.passed)) p acc else (p, acc)

/-- The grant round of one group. -/
def Dev.roundOf (s : Dev) (n : Nat) : Dev :=
  let (p, a) := Sluice.round n (s.groupCfg n) (s.sluice.ordered n) none s.sluice []
  { s with sluice := p, grants := s.grants ++ a }

/-! ### Freezing (R25) -/

/-- The central end of a lost strait freezes the region's requests and reservations; grants still on their way count as not
delivered. -/
def Dev.freezeSluice (s : Dev) (g : Nat) : Dev :=
  { s with
    sluice := { s.sluice with
      pend := s.sluice.pend.map (fun (r : GrantReq) => if r.cell / 64 = g then { r with frozen := true } else r)
      held := s.sluice.held.map (fun (r : Reservation) => if r.cell / 64 = g then { r with frozen := true } else r) }
    grants := s.grants.filter (fun a => a.cell / 64 != g) }

/-- At rejoin: unfrozen, every unanswered grant is sent again with its number, and the messages held in the island are sent. -/
def Dev.thawSluice (s : Dev) (g : Nat) : Dev :=
  let again := (s.sluice.held.filter (fun r => r.cell / 64 == g && r.frozen)).map (fun r =>
    ({ cell := r.cell, ma := r.ma, group := r.group, seq := r.seq } : Grant))
  let msgs := (s.region g).heldMsgs
  let s := { s with
    sluice := { s.sluice with
      pend := s.sluice.pend.map (fun (r : GrantReq) => if r.cell / 64 = g then { r with frozen := false } else r)
      held := s.sluice.held.map (fun (r : Reservation) => if r.cell / 64 = g then { r with frozen := false } else r) }
    grants := s.grants ++ again
    slMsgs := s.slMsgs ++ msgs }
  s.modRegion g (fun r => { r with heldMsgs := [] })

/-! ### Messages in transit -/

/-- The first element that meets a test, and the list without it. -/
def takeFirst {α : Type} (f : α → Bool) : List α → Option (α × List α)
  | [] => none
  | a :: l => if f a then some (a, l) else (takeFirst f l).map (fun p => (p.1, a :: p.2))

def SlMsg.isRequest (c : Nat) : SlMsg → Bool
  | .request r => r.cell == c
  | _ => false
def SlMsg.isWithdraw (c : Nat) : SlMsg → Bool
  | .withdraw d => d == c
  | _ => false
def SlMsg.isRelease (c : Nat) : SlMsg → Bool
  | .release d => d == c
  | .giveBack d _ => d == c
  | _ => false

/-! ### Meanings -/

/-- R109: a request arrives and is pending in its group. -/
def execGrantRequest (c : CellIx) (s : State) : Outcome := s.on fun s =>
  match takeFirst (SlMsg.isRequest c) s.slMsgs with
  | some (.request r, rest) =>
    .next { s with slMsgs := rest
                   sluice := { s.sluice with pend := s.sluice.pend.filter (fun q => q.cell != c.val) ++ [r] } }
  | _ => .next s

/-- R77: a withdrawal arrives. -/
def execGrantWithdraw (c : CellIx) (s : State) : Outcome := s.on fun s =>
  match takeFirst (SlMsg.isWithdraw c) s.slMsgs with
  | some (_, rest) =>
    .next { s with slMsgs := rest
                   sluice := { s.sluice with pend := s.sluice.pend.filter (fun q => q.cell != c.val) } }
  | none => .next s

/-- R110: a round in each of the sixteen groups. -/
def execGrantRound (s : State) : Outcome := s.on fun s => .next (s.forEach (List.range 16) Dev.roundOf)

/-- R111, R25, R49, R86: a grant reaches its cell. A repeat of the grant it applied is ignored; a cell in WAIT_GRANT enters
INRUSH; any other returns it unused. -/
def execGrantReceive (c : CellIx) (s : State) : Outcome := s.on fun s =>
  match takeFirst (fun (a : Grant) => a.cell == c.val) s.grants with
  | none => .next s
  | some (a, rest) =>
    let s := { s with grants := rest }
    let x := s.cell c
    if x.lastGrant = some a.seq then .next s
    else if x.state = .waitGrant then
      let s := s.goto c .inrush
      let s := s.modCell c (fun x => { x with reserved := true, lastGrant := some a.seq })
      .next (s.levelTrips c)
    else .next (s.sendSl (c / 64) (.giveBack c a.seq))

/-- R111: a release or a return frees the reservation. -/
def execReservationRelease (c : CellIx) (s : State) : Outcome := s.on fun s =>
  match takeFirst (SlMsg.isRelease c) s.slMsgs with
  | some (m, rest) =>
    let keep := fun (r : Reservation) => match m with
      | .giveBack _ q => r.cell != c.val || r.seq != q
      | _ => r.cell != c.val
    .next { s with slMsgs := rest, sluice := { s.sluice with held := s.sluice.held.filter keep } }
  | none => .next s

end Sys2Proof.Machine
end

