-- ==== Sys2Proof/Machine/HostPort.lean ====
section
/-! DEFINITION. The host port (spec/11): rings and contexts, doorbells, admission, completions, events, telemetry, moderation,
MSI-X and the host heartbeat; and the state changes of long operations (spec/12 R290, R291) that they bring about. -/

namespace Sys2Proof

/-- The objects of a target kind; 1 for a chip or an operation handle, whose index is 0. -/
def Desc.limit (d : Desc) : Nat :=
  match d.tkind.toNat with
  | 1 => 512 | 2 => 64 | 3 => 8 | 4 => 32 | 5 => 16 | 7 => 0 | _ => 1

/-- The header is well formed: no reserved bit, TKIND not 7, TINDEX in range (Table 11-6). -/
def Desc.headOk (d : Desc) : Bool := !d.rsv && decide (d.tindex.toNat < d.limit)

/-- The barge a command goes to (R264). -/
def Desc.barge (d : Desc) : Nat :=
  let i := d.tindex.toNat
  match d.tkind.toNat with
  | 1 => i / 8 % 64 | 2 => i % 64 | 3 => 8 * (i % 8) | 4 => 8 * (i / 4 % 8) | 5 => 8 * (i / 2 % 8)
  | _ => 8 * (d.ring.toNat % 8)

end Sys2Proof

namespace Sys2Proof.Machine

/-! ### Rings and contexts (R250 to R252, Table 11-4) -/

def Dev.ringAt (s : Dev) (r : Nat) : RingCtx := Sparse.get (fun _ => {}) s.hp.rings r
/-- Replace a context; it is changed since its last write-back. -/
def Dev.setRing (s : Dev) (r : Nat) (v : RingCtx) : Dev :=
  { s with hp := { s.hp with
      rings := Sparse.set (fun _ => {}) s.hp.rings r v
      dirty := if s.hp.dirty.contains r then s.hp.dirty else s.hp.dirty ++ [r] } }
def Dev.modRing (s : Dev) (r : Nat) (f : RingCtx → RingCtx) : Dev := s.setRing r (f (s.ringAt r))

def RingCtx.size (k : RingCtx) : Nat := 2 ^ k.log2
/-- A COMMAND or LOCK ring (Table 11-3). -/
def RingCtx.toDevice (k : RingCtx) : Bool := k.kind == 0 || k.kind == 4
/-- (a − b) mod S. -/
def RingCtx.dist (k : RingCtx) (a b : Nat) : Nat := (a + k.size - b % k.size) % k.size
/-- Free entries of a device-to-host ring (R250). -/
def RingCtx.free (k : RingCtx) : Nat := k.size - 1 - k.dist k.dev k.host
/-- Entries a host-to-device ring holds that have not been read. -/
def RingCtx.waiting (k : RingCtx) : Nat := k.dist k.host k.dev

/-- The context as sixteen words (Table 11-4). -/
def RingCtx.words (k : RingCtx) : List Word :=
  let w := BitVec.ofNat 32
  Bits.words2 k.base ++
  [w (k.kind + k.log2 * 8 + Bits.b2n k.pin * 2 ^ 8 + Bits.b2n k.irqEn * 2 ^ 9 + Bits.b2n k.active * 2 ^ 10 + k.bound * 2 ^ 12),
   w (k.vector + k.credits * 2 ^ 16), w (k.coalCount + k.coalTime * 2 ^ 16), w (k.dev + k.host * 2 ^ 16), w k.drop, w k.seq] ++
  Bits.words2 k.wb ++ [w (Bits.b2n k.phase + Bits.b2n k.armed * 2), 0] ++ Bits.words2 k.user ++ [0, 0]

/-- A 64-bit setup register as a number. -/
def Dev.reg64 (s : Dev) (off : Nat) : Nat := (s.reg off).toNat + (s.reg (off + 4)).toNat * 2 ^ 32

/-- Address of a context in the table. -/
def Dev.ctxAddr (s : Dev) (r : Nat) : Nat := s.reg64 RegMap.hpCtxBase + 64 * r

/-- The device reaches host memory (R249). Log 85 (DEDUCED, unsafe). -/
def Dev.hostReach (s : Dev) : Bool := s.hp.linkUp && s.hp.bme

/-- Rings operate: HP_CTRL.EN. -/
def Dev.hpEn (s : Dev) : Bool := s.rb RegMap.hpCtrl 0

/-- Write a changed context back. -/
def Dev.ctxWrite (s : Dev) (r : Nat) : Dev :=
  if s.hp.dirty.contains r then
    ({ s with hp := { s.hp with dirty := s.hp.dirty.erase r } }).emit (.hostWrite (s.ctxAddr r) (s.ringAt r).words)
  else s

/-- A context of the cache becomes the most recently used. Log 82 (DEDUCED, unsafe). -/
def Dev.ctxUse (s : Dev) (r : Nat) : Dev :=
  if s.hp.cached.contains r then { s with hp := { s.hp with cached := r :: s.hp.cached.erase r } } else s

/-- A context is pinned (rings 0 and 1 always). -/
def Dev.pinned (s : Dev) (r : Nat) : Bool := decide (r < 2) || (s.ringAt r).pin

/-- Put a context into the cache; a full cache displaces its least recently used unpinned context (R252). -/
def Dev.ctxInsert (s : Dev) (r : Nat) : Dev :=
  if s.hp.cached.contains r then s.ctxUse r
  else
    let s := if s.hp.cached.length < 4096 then s
      else match s.hp.cached.reverse.find? (fun q => !s.pinned q) with
        | some q =>
          let s := s.ctxWrite q
          { s with hp := { s.hp with cached := s.hp.cached.erase q } }
        | none => s
    { s with hp := { s.hp with cached := r :: s.hp.cached } }

/-- EV_RING_ERROR (Table 11-10). -/
def Dev.ringError (s : Dev) (r reason : Nat) (v : Word) : Dev :=
  s.raise { stream := 0x8C, code := 0x200, payload := Bits.words2 s.tbTime ++ [BitVec.ofNat 32 (r + reason * 2 ^ 20), v] }

/-- R252: a context that is not cached is read from the table, or is found invalid. -/
def execContextFetch (ring : RingIx) (valid : Bool) (s : State) : Outcome := s.on fun s =>
  let r := ring.toNat
  if s.hp.cached.contains r || !(s.ringAt r).active || !s.hostReach then .next s
  else if valid then .next (s.ctxInsert r) else .next (s.ringError r 2 0)

/-- R252: every changed context is written back. -/
def Dev.ctxFlush (s : Dev) : Dev := s.forEach s.hp.dirty (fun s r => s.ctxWrite r)

/-- Log 87 (DEDUCED, safe). -/
def execCtxFlush (s : State) : Outcome := s.on fun s => if s.hostReach then .next s.ctxFlush else .next s

/-- R256: the index writeback of a ring. -/
def Dev.writeback (s : Dev) (r : Nat) : Dev :=
  let k := s.ringAt r
  if k.wb = 0 then s
  else s.emit (.hostWrite k.wb [BitVec.ofNat 32 (k.dev + Bits.b2n k.phase * 2 ^ 16), BitVec.ofNat 32 k.drop])

/-- The device index after `n` entries, and the phase inverted at a wrap (R255). -/
def RingCtx.advance (k : RingCtx) (n : Nat) : RingCtx :=
  { k with dev := (k.dev + n) % k.size, phase := if k.size ≤ k.dev + n then !k.phase else k.phase }

/-! ### MSI-X and moderation (R269, R270) -/

def Msix.word (k : Nat) : Word := if k % 4 = 3 then 1 else 0
def Dev.msixWord (s : Dev) (k : Nat) : Word := Sparse.get Msix.word s.hp.msixTable k
def Dev.msixPending (s : Dev) (v : Nat) : Bool := Sparse.get (fun _ => false) s.hp.pba v
def Dev.setPending (s : Dev) (v : Nat) (b : Bool) : Dev :=
  { s with hp := { s.hp with pba := Sparse.set (fun _ => false) s.hp.pba v b } }

/-- Send or hold a message of vector `v`; with MSI-X disabled nothing leaves (R269). -/
def Dev.sendMsix (s : Dev) (v : Nat) : Dev :=
  if !s.hp.msixEn then s
  else if s.hp.msixMask || Bits.bit (s.msixWord (4 * v + 3)) 0 then s.setPending v true
  else s.emit (.msix v)

/-- The check of R270. -/
def Dev.moderate (s : Dev) (r : Nat) : Dev :=
  let k := s.ringAt r
  if k.armed && k.irqEn && decide (1 ≤ k.n) && (decide (max 1 k.coalCount ≤ k.n) || decide (k.coalTime ≤ k.timer)) then
    (s.sendMsix k.vector).modRing r (fun k => { k with armed := false, n := 0 })
  else s

/-- After an entry (or record) has been written: the writeback, then moderation. -/
def Dev.entryDone (s : Dev) (r : Nat) : Dev :=
  let s := s.writeback r
  let s := s.modRing r (fun k => { k with n := k.n + 1, timer := if k.n = 0 then 0 else k.timer })
  (s.moderate r).ctxUse r

/-- R270: a microsecond check; `us` since the timer was reset. -/
def execModerationCheck (ring : RingIx) (us : BitVec 17) (s : State) : Outcome := s.on fun s =>
  let k := s.ringAt ring.toNat
  if !k.active || k.toDevice then .next s
  else .next ((s.modRing ring.toNat (fun k => { k with timer := us.toNat })).moderate ring.toNat)

/-- A vector's mask bit, or the function mask, clears: messages that wait are sent (R269). -/
def Dev.msixFlush (s : Dev) (l : List Nat) : Dev :=
  s.forEach l (fun s v => if s.msixPending v then (s.setPending v false).sendMsix v else s)

def execMsixUnmask (v : Option (BitVec 11)) (s : State) : Outcome := s.on fun s =>
  match v with
  | some v =>
    let k := 4 * v.toNat + 3
    let s := { s with hp := { s.hp with msixTable := Sparse.set Msix.word s.hp.msixTable k (s.msixWord k &&& 0xFFFFFFFE) } }
    .next (s.msixFlush [v.toNat])
  | none =>
    let s := { s with hp := { s.hp with msixMask := false } }
    .next (s.msixFlush (s.hp.pba.map (·.1)))

/-! ### Long operations: states and reservations (R285, R290, R291) -/

def OpState.code : OpState → Nat
  | .running => 0 | .suspended => 1 | .suspendedBp => 2 | .cancelling => 3

def Dev.op (s : Dev) (n : Nat) : Option Op := Sparse.get (fun _ => none) s.ops n
def Dev.setOp (s : Dev) (n : Nat) (o : Option Op) : Dev := { s with ops := Sparse.set (fun _ => none) s.ops n o }
/-- OP_HANDLE of a slot: slot and generation (R285). -/
def Dev.handle (s : Dev) (n : Nat) : Nat := n + Sparse.get (fun _ => 0) s.opGen n % 2 ^ 26 * 64

/-- EV_OP_STATE (R290). -/
def Dev.opEvent (s : Dev) (n : Nat) (o : Op) (new old : Nat) : Dev :=
  s.raise { stream := 0x8F, code := 0x240, payload := Bits.words2 s.tbTime ++
    [BitVec.ofNat 32 (s.handle n), BitVec.ofNat 32 (o.opcode + new * 2 ^ 16 + old * 2 ^ 19), BitVec.ofNat 32 o.steps,
     BitVec.ofNat 32 o.cmdId] }

/-- Take an operation to a state, with its event. Log 89 (DEDUCED, unsafe). -/
def Dev.opGoto (s : Dev) (n : Nat) (o : Op) (st : OpState) : Dev :=
  let s := s.setOp n (some { o with state := st })
  if o.state = st then s else s.opEvent n o st.code o.state.code

/-- DONE: the handle is freed. -/
def Dev.opDone (s : Dev) (n : Nat) : Dev :=
  match s.op n with
  | some o => (s.opEvent n o 4 o.state.code).setOp n none
  | none => s

/-- The completion ring of a command ring. -/
def Dev.boundOf (s : Dev) (r : Nat) : Nat := (s.ringAt r).bound

/-- Entries of completion ring `q` that are reserved (R291). -/
def Dev.reservedOn (s : Dev) (q : Nat) : Nat :=
  (s.ops.filter (fun p => match p.2 with
    | some o => o.reserved && s.boundOf o.ring == q
    | none => false)).length +
  (s.complq.filter (fun k => k.reserved && s.boundOf k.cmdRing == q)).length

/-- Commands admitted on rings bound to `q` and still without a first completion (R291). -/
def Dev.admittedOn (s : Dev) (q : Nat) : Nat := (s.hp.slots.filter (fun x => s.boundOf x.ring == q)).length

/-- A reservation on ring `q` succeeds. -/
def Dev.canReserve (s : Dev) (q : Nat) : Bool :=
  decide (s.admittedOn q + 1 + s.reservedOn q ≤ (s.ringAt q).free)

/-- Operations that wait for a reservation on `q` try again, in slot order (R291). -/
def Dev.opRetry (s : Dev) (q : Nat) : Dev :=
  s.forEach (List.range 64) (fun s n =>
    match s.op n with
    | none => s
    | some o =>
      if s.boundOf o.ring = q ∧ (o.state = .suspendedBp ∨ o.bpWait) ∧ s.canReserve q then
        let o := { o with reserved := true, bpWait := false }
        if o.state = .cancelling then s.setOp n (some o)
        else if o.suspendReq then s.opGoto n { o with suspendReq := false } .suspended
        else s.opGoto n o .running
      else s)

/-! ### Doorbells (R257) -/

/-- A kick of the host heartbeat (R271, R272): the watchdog runs; after a loss EV_HOST_RETURN is raised and HOST_LOST ends.
Log 92 (DEDUCED, unsafe). -/
def Dev.hbKick (s : Dev) : Dev :=
  let s := { s with hp := { s.hp with hbRunning := s.hp.hbRunning || decide (s.rf RegMap.hpHbCfg 0 10 ≠ 0) } }
  match s.hp.loss with
  | none => s
  | some (t, policy, ran) =>
    let s := { s with hp := { s.hp with loss := none } }
    let s := s.raise { stream := 0x8C, code := 0x201, payload := Bits.words2 t ++ Bits.words2 s.tbTime ++
      [BitVec.ofNat 32 (policy + Bits.b2n ran * 4)] }
    s.unoccur 8 40

def execHeartbeatKick (s : State) : Outcome := s.on fun s => .next s.hbKick

/-- A doorbell is acceptable (R257). -/
def RingCtx.accepts (k : RingCtx) (v : Word) (word : Bool) : Bool :=
  let ix := Bits.fld v 0 16
  word && k.active && decide (Bits.fld v 16 15 = 0) && (!Bits.bit v 31 || !k.toDevice) && decide (ix < k.size) &&
  (if k.toDevice then decide (k.dist ix k.host ≤ k.size - 1 - k.dist k.host k.dev)
   else decide (k.dist ix k.host ≤ k.dist k.dev k.host))

/-- A doorbell write: accepted, or discarded and counted. -/
def execDoorbell (ring : RingIx) (v : Word) (word : Bool) (s : State) : Outcome := s.on fun s =>
  let r := ring.toNat
  let k := s.ringAt r
  if !k.accepts v word then
    .next (({ s with hp := { s.hp with dbBad := Bits.satAdd 255 s.hp.dbBad 1 } }).ringError r 1 v)
  else
    let ix := Bits.fld v 0 16
    let moved := !k.toDevice && decide (ix ≠ k.host)
    let k := { k with host := ix }
    let left := k.dist k.dev ix
    let k := if Bits.bit v 31 then { k with armed := true, n := if k.kind = 3 then left / 2 else left, timer := 0 } else k
    let s := s.setRing r k
    let s := ({ s with hp := { s.hp with doorbells := Sparse.set (fun _ => 0) s.hp.doorbells r v } }).ctxUse r
    let s := if s.rb RegMap.hpHbCfg 12 then s.hbKick else s
    .next (if moved then s.opRetry r else s)

/-! ### Admin rings (R254) -/

/-- Rings 0 and 1 are built afresh from the admin registers. -/
def Dev.buildAdmin (s : Dev) : Dev :=
  let cfg := RegMap.hpAdminCfg
  let sq := max 4 (min 12 (s.rf cfg 0 5))
  let cq := max 7 (min 12 (s.rf cfg 5 5))
  let r0 : RingCtx := {
    active := true, kind := 0, log2 := sq, pin := true, bound := 1, credits := min 64 (2 ^ sq - 1), phase := true, armed := true
    base := s.reg64 RegMap.hpAdminSq }
  let r1 : RingCtx := {
    active := true, kind := 1, log2 := cq, pin := true, irqEn := s.rb cfg 21, vector := s.rf cfg 10 11, coalCount := 1
    phase := true, armed := true, base := s.reg64 RegMap.hpAdminCq }
  let s := (s.setRing 0 r0).setRing 1 r1
  let s := { s with hp := { s.hp with
    ready := true, fetched := s.hp.fetched.filter (fun f => f.d.ring != 0)
    doorbells := Sparse.erase (Sparse.erase s.hp.doorbells 0) 1 } }
  ((s.ctxInsert 0).ctxInsert 1).ctxWrite 0 |>.ctxWrite 1

/-- A write of HP_CTRL.EN. -/
def Dev.hpEnable (s : Dev) (en : Bool) : Dev :=
  if en then (if s.hpEn then s else (s.putReg RegMap.hpCtrl 0 1 1).buildAdmin)
  else
    let s := s.putReg RegMap.hpCtrl 0 1 0
    { s with hp := { s.hp with ready := false } }

def execHpEnable (s : State) : Outcome := s.on fun s => .next (s.hpEnable true)

/-! ### Descriptors and admission (R258, R260, R264, R265) -/

/-- Opcode, target and parameters of a command ring entry are read; the consumer index passes it. Log 84 (DEDUCED, unsafe). -/
def execDescriptorFetch (opcode : BitVec 16) (d : Desc) (s : State) : Outcome := s.on fun s =>
  let r := d.ring.toNat
  let k := s.ringAt r
  if !s.hpEn || !s.hostReach || !k.active || decide (k.kind ≠ 0) || decide (k.waiting = 0) then .next s
  else
    let s := s.setRing r { k with dev := (k.dev + 1) % k.size }
    let s := { s with hp := { s.hp with fetched := s.hp.fetched ++ [({ opcode := opcode.toNat, d := d } : Fetched)] } }
    .next ((s.writeback r).ctxUse r)

/-- R249: EV_RING_ERROR; a descriptor that could not be read is passed and completed with ST_FETCH_ERROR and CMD_ID 0.
Log 86 (DEDUCED, unsafe). -/
def execHostReadError (ring : RingIx) (k : ReadKind) (s : State) : Outcome := s.on fun s =>
  let r := ring.toNat
  let c := s.ringAt r
  let s := s.ringError r 3 0
  if k = .descriptor ∧ c.active ∧ c.kind = 0 ∧ c.waiting ≠ 0 then
    let s := s.setRing r { c with dev := (c.dev + 1) % c.size }
    .next (s.complete { cmdRing := r, cmdId := 0, opcode := 0, status := 5, first := false })
  else .next s

/-- The token of a command (R264, Table 10-4): ORIGIN 1; the spec gives no entry, budget or slot address, so they are free.
Log 79 (DESIGN CHOICE, safe). -/
def Dev.commandToken (s : Dev) (xRegion : Bool) : Quad × Dev :=
  let (a, s) := s.drawWord
  let (b, s) := s.drawWord
  let (c, s) := s.drawWord
  let (d, s) := s.drawWord
  (BitVec.ofNat 128 (a.toNat / 4 * 4 + (b.toNat % 65535 + 1) * 2 ^ 32 + Bits.b2n xRegion * 2 ^ 49 + 2 ^ 50 +
     c.toNat * 2 ^ 64 + d.toNat * 2 ^ 96), s)

/-- The opcodes of Table 12-2 and of the chapters it names (R275). -/
def Cmd.opcodes : List Nat :=
  [0x0001, 0x0002, 0x0003, 0x0004, 0x0010, 0x0100, 0x0101, 0x0102, 0x0103, 0x0104, 0x0105, 0x0110, 0x0111, 0x0112, 0x0120,
   0x0180, 0x0181, 0x0200, 0x0201, 0x0300, 0x0400, 0x0401, 0x0402, 0x0480, 0x0500, 0x0501, 0x0502, 0x0503] ++
  [0x0600, 0x0601, 0x0602, 0x0603, 0x0604, 0x0700, 0x0701, 0x0702, 0x0703, 0x0704, 0x0705, 0x0710, 0x0711, 0x0780, 0x0800,
   0x0801, 0x0802, 0x0803, 0x0804, 0x0805, 0x0901, 0x0902, 0x0980, 0x0F00, 0x0F01, 0x0F02, 0x0F03]

/-- R260: the oldest descriptor read from ring `r` is admitted when a credit is free, and behind a FENCE only when every
earlier command has its first completion; it is copied into a slot and its token pushed, or held by the host port.
Log 83 (DEDUCED, unsafe); log 96 (DEDUCED, unsafe). -/
def execCommandAdmit (ring : RingIx) (s : State) : Outcome := s.on fun s =>
  let r := ring.toNat
  let k := s.ringAt r
  let mine := s.hp.slots.filter (fun x => x.ring == r)
  match takeFirst (fun (f : Fetched) => f.d.ring == ring) s.hp.fetched with
  | none => .next s
  | some (f, rest) =>
    if !s.hpEn || !k.active || decide (k.credits ≤ mine.length) || decide (4096 ≤ s.hp.slots.length) ||
       (f.d.fence && !mine.isEmpty) then .next s
    else
      let s := { s with hp := { s.hp with fetched := rest } }
      let e := f.d.barge
      let slot : CmdSlot := { ring := r, cmdId := f.d.cmdId.toNat, opcode := f.opcode, barge := e, token := 0, held := false }
      if !f.d.headOk then
        let s := { s with hp := { s.hp with slots := s.hp.slots ++ [{ slot with answered := true }] } }
        .next (s.complete { cmdRing := r, cmdId := f.d.cmdId.toNat, opcode := f.opcode, status := 4 })
      else if !Cmd.opcodes.contains f.opcode then
        let s := { s with hp := { s.hp with slots := s.hp.slots ++ [{ slot with answered := true }] } }
        .next (s.complete { cmdRing := r, cmdId := f.d.cmdId.toNat, opcode := f.opcode, status := 3 })
      else
        let (t, s) := s.commandToken (f.d.tkind == 0 || f.d.tkind == 6)
        let (ok, s) := s.pushToken e t
        .next { s with hp := { s.hp with slots := s.hp.slots ++ [{ slot with token := t, held := !ok }] } }

/-- The token of a slot has not been taken: the host port holds it, or it stands in its queue. -/
def Dev.untaken (s : Dev) (x : CmdSlot) : Bool := !x.answered && (x.held || (s.barge x.barge).tq.queue.contains x.token)

/-- R264: a token not taken within 150 µs of admission is withdrawn. Log 93 (DEDUCED, safe). -/
def execBackpressureWithdraw (ring : RingIx) (cmdId : Word) (s : State) : Outcome := s.on fun s =>
  match s.hp.slots.find? (fun x => x.ring == ring.toNat && x.cmdId == cmdId.toNat && s.untaken x) with
  | none => .next s
  | some x =>
    let s := s.modBarge x.barge (fun k => { k with tq := { k.tq with queue := k.tq.queue.erase x.token } })
    let s := { s with hp := { s.hp with
      slots := s.hp.slots.map (fun y => if y = x then { y with answered := true, held := false } else y) } }
    .next (s.complete { cmdRing := x.ring, cmdId := x.cmdId, opcode := x.opcode, status := 2 })

/-! ### Entries (R258 to R263, R267, R268) -/

/-- A completion entry (Table 11-7). -/
def Dev.completionWords (s : Dev) (k : Completion) (phase : Bool) : List Word :=
  let w := BitVec.ofNat 32
  [w k.cmdId, w (k.status + k.opcode * 2 ^ 16), w k.cmdRing,
   w ((s.ringAt k.cmdRing).dev + k.chunk.getD 0 * 2 ^ 16), w k.handle, k.r0, k.r1,
   w (Bits.b2n phase + Bits.b2n k.final * 2 + Bits.b2n k.chunk.isSome * 4)]

/-- R260: the oldest completion of ring `q` that has room is written; then writeback, moderation, and what the first or final
completion of a command brings about. -/
def execCompletionWrite (ring : RingIx) (s : State) : Outcome := s.on fun s =>
  let q := ring.toNat
  let k := s.ringAt q
  let room := fun (c : Completion) => if c.reserved then decide (1 ≤ k.free) else decide (s.reservedOn q < k.free)
  if !k.active || decide (k.kind ≠ 1) || !s.hostReach then .next s
  else match takeFirst (fun (c : Completion) => s.boundOf c.cmdRing == q && room c) s.complq with
    | none => .next s
    | some (c, rest) =>
      let s := ({ s with complq := rest }).emit (.hostWrite (k.base + 32 * k.dev) (s.completionWords c k.phase))
      let s := (s.setRing q (k.advance 1)).entryDone q
      let s := if c.first then
          { s with hp := { s.hp with slots := s.hp.slots.filter (fun x => !(x.ring == c.cmdRing && x.cmdId == c.cmdId)) } }
        else s
      let s := if c.final ∧ c.handle ≠ 0 then s.opDone (c.handle % 64) else s
      .next (if c.first then s.opRetry q else s)

/-- The route in effect of a stream: its ring, when it is routed to an active ring of the kind (R267). -/
def Dev.routeOf (s : Dev) (stream kind : Nat) : Option Nat :=
  let w := RegMap.hpRoute stream
  let r := s.rf w 0 20
  if stream < 0x90 ∧ s.rb w 20 ∧ (s.ringAt r).active ∧ (s.ringAt r).kind = kind ∧ 2 ≤ r then some r else none

def Dev.unrouted (s : Dev) : Dev := { s with hp := { s.hp with unrouted := Bits.satAdd 255 s.hp.unrouted 1 } }

/-- The words of an event entry (Table 11-9). -/
def Event.words (e : Event) (seq : Nat) (phase dropBefore : Bool) : List Word :=
  (e.payload ++ List.replicate 6 0).take 6 ++ [BitVec.ofNat 32 seq,
    BitVec.ofNat 32 (Bits.b2n phase + Bits.b2n dropBefore * 2 + Bits.b2n e.flag * 4 + e.code * 16 + e.obj * 2 ^ 16)]

/-- R267, R268: the oldest event is routed, dropped or counted as unrouted. -/
def execEventWrite (s : State) : Outcome := s.on fun s =>
  match s.evq with
  | [] => .next s
  | e :: rest =>
    match s.routeOf e.stream 2 with
    | none => .next ({ s with evq := rest }).unrouted
    | some r =>
      let k := s.ringAt r
      if !s.hostReach then .next s
      else
        let s := { s with evq := rest }
        let seq := (k.seq + 1) % 2 ^ 32
        if k.free = 0 then
          .next (s.setRing r { k with seq := seq, drop := Bits.satAdd (2 ^ 32 - 1) k.drop 1, dropBefore := true })
        else
          let s := s.emit (.hostWrite (k.base + 32 * k.dev) (e.words k.seq k.phase k.dropBefore))
          .next ((s.setRing r { k.advance 1 with seq := seq, dropBefore := false }).entryDone r)

/-- R263: the oldest telemetry record is written as two units, or dropped whole. -/
def execTelemetryWrite (s : State) : Outcome := s.on fun s =>
  match s.telq with
  | [] => .next s
  | t :: rest =>
    match s.routeOf t.stream 3 with
    | none => .next ({ s with telq := rest }).unrouted
    | some r =>
      let k := s.ringAt r
      if !s.hostReach then .next s
      else
        let s := { s with telq := rest }
        if k.free < 2 then .next (s.setRing r { k with drop := Bits.satAdd (2 ^ 32 - 1) k.drop 1 })
        else
          let s := s.emit (.hostWrite (k.base + 32 * k.dev) t.words)
          .next ((s.setRing r (k.advance 2)).entryDone r)

/-! ### Host loss (R271, R272) -/

/-- The host-loss policy in every region whose strait is up and that is not autonomous; whether it acted. -/
def Dev.hostPolicy (s : Dev) (code : Nat) : Bool × Dev :=
  let gs := (List.range 8).filter (fun g => s.straitUp g && !s.auto g)
  (decide (code ≠ 0) && !gs.isEmpty, s.forEach gs (fun s g =>
     let (ranks, s) := s.policy g code
     s.modRegion g (fun r => { r with hostRanks := ranks })))

/-- A declaration of host loss. Log 88 (DEDUCED, unsafe). -/
def Dev.hostLoss (s : Dev) : Dev :=
  let code := s.rf RegMap.hpHbCfg 10 2
  let t := s.tbTime
  let s := (s.irqAll 37).occur 8 40 0xFFFFFFFF
  let (ran, s) := s.hostPolicy code
  { s with hp := { s.hp with
      hbRunning := false, hostLost := true, lossCount := Bits.satAdd 255 s.hp.lossCount 1
      policyRan := s.hp.policyRan || ran, loss := some (t, code, ran) } }

def execHostLoss (s : State) : Outcome := s.on fun s =>
  if s.hp.hbRunning ∧ s.rf RegMap.hpHbCfg 0 10 ≠ 0 then .next s.hostLoss else .next s

/-- R271: the link goes down. -/
def Dev.linkDown (s : Dev) : Dev :=
  if !s.hp.linkUp then s
  else
    let s := { s with hp := { s.hp with linkUp := false } }
    if s.rb RegMap.hpHbCfg 13 then s.hostLoss else s

def execLinkDown (s : State) : Outcome := s.on fun s => .next s.linkDown

/-! ### Lock rings (R197) -/

/-- A lock ring holds an entry its doorbell covers. -/
def Dev.lockRingReady (s : Dev) (r : Nat) : Bool :=
  let k := s.ringAt r
  s.hpEn && s.hostReach && k.active && decide (k.kind = 4) && decide (k.waiting ≠ 0)

/-- The consumer index of a lock ring passes one entry. Log 70 (DEDUCED, unsafe). -/
def Dev.lockRingAdvance (s : Dev) (r : Nat) : Dev :=
  let s := s.modRing r (fun k => { k with dev := (k.dev + 1) % k.size })
  (s.writeback r).ctxUse r

end Sys2Proof.Machine
end

