-- ==== Sys2Proof/Machine/Cmds.lean ====
section
/-! DEFINITION. What every host command shares (spec/12 R274 to R279), the ring commands (spec/11 R251, R253, R473) and the
short channel and device commands (R280 to R284). -/

namespace Sys2Proof

/-- Parameter word `i`, at offset 0x0C + 4 i. -/
def Desc.par (d : Desc) (i : Nat) : Nat := (d.params.getD i 0).toNat
/-- A 64-bit parameter from word `i` on. -/
def Desc.par64 (d : Desc) (i : Nat) : Nat := d.par i + d.par (i + 1) * 2 ^ 32
/-- Field of a parameter word. -/
def Desc.pf (d : Desc) (i lo len : Nat) : Nat := (d.par i >>> lo) % 2 ^ len

/-- The descriptor is accepted (R275, R276): header, a TKIND listed for the opcode, no reserved parameter bit. -/
def Desc.check (d : Desc) (kinds : List Nat) (masks : List Nat) : Bool :=
  d.headOk && kinds.contains d.tkind.toNat && decide (d.params.length ≤ 13) &&
  (List.range 13).all (fun i => (d.par i ||| masks.getD i 0) == masks.getD i 0)

/-- The region the target lies in. -/
def Desc.region (d : Desc) : Option Nat :=
  let i := d.tindex.toNat
  match d.tkind.toNat with
  | 1 => some (i / 64) | 2 => some (i / 8) | 3 => some i | 4 => some (i / 4) | 5 => some (i / 2) | _ => none

end Sys2Proof

namespace Sys2Proof.Machine

/-- Status codes of Table 12-1. -/
def St.badOpcode : Nat := 0x03
def St.badDescriptor : Nat := 0x04
def St.badParam : Nat := 0x10
def St.badState : Nat := 0x11
def St.busy : Nat := 0x12
def St.cfgBusy : Nat := 0x13
def St.noResource : Nat := 0x14
def St.autonomous : Nat := 0x15
def St.badHandle : Nat := 0x16
def St.hostError : Nat := 0x19
def Cmd.all : Nat := 0xFFFFFFFF

/-- The slot of a command has been taken and its first completion is on its way. -/
def Dev.answer (s : Dev) (d : Desc) : Dev :=
  { s with hp := { s.hp with slots := s.hp.slots.map (fun x =>
      if x.ring = d.ring.toNat ∧ x.cmdId = d.cmdId.toNat then { x with answered := true, held := false } else x) } }

/-- The completion of a short command (R260). -/
def Dev.reply (s : Dev) (d : Desc) (op status : Nat) (r0 r1 : Nat) : Dev :=
  (s.answer d).complete { cmdRing := d.ring.toNat, cmdId := d.cmdId.toNat, opcode := op, status := status
                          r0 := BitVec.ofNat 32 r0, r1 := BitVec.ofNat 32 r1 }

/-- A status without results. -/
def Dev.fail (s : Dev) (d : Desc) (op status : Nat) : Dev := s.reply d op status 0 0

/-- The target's region is autonomous (R29). -/
def Dev.cmdAuto (s : Dev) (d : Desc) : Bool :=
  match d.region with
  | some g => s.auto g
  | none => false

/-- A command: descriptor check, autonomy check, the wake of a sleeping region it addresses (R425), then its own (R277).
Log 13 (DEDUCED, safe). -/
def Dev.cmd (s : Dev) (d : Desc) (op : Nat) (kinds masks : List Nat) (f : Dev → Dev) : Result :=
  .next (if !d.check kinds masks then s.fail d op St.badDescriptor
    else if s.cmdAuto d then s.fail d op St.autonomous else f (s.wakeAccess d.region))

/-- A write to a host buffer (R278): whole, or failed with ST_HOST_ERROR and results 0. Log 95 (DEDUCED, unsafe). -/
def Dev.bufReply (s : Dev) (d : Desc) (op addr : Nat) (words : List Word) (ok : Bool) (r0 r1 : Nat) : Dev :=
  if ok then (s.emit (.hostWrite addr words)).reply d op 0 r0 r1 else s.fail d op St.hostError

/-! ### Ring commands (R251, R253, R473) -/

/-- Ring commands are accepted on ring 0 only, for a ring of the table. -/
def Dev.ringCmd (s : Dev) (d : Desc) (op : Nat) (masks : List Nat) (f : Dev → Nat → Dev) : Result :=
  .next (if d.ring ≠ 0 then s.fail d op St.badOpcode
    else if !d.check [0] masks then s.fail d op St.badDescriptor
    else
      let r := d.pf 0 0 20
      if 2 ^ max 4 (min 20 (s.rf RegMap.hpCtxCfg 0 5)) ≤ r then s.fail d op St.badParam else f s r)

/-- The active COMMAND rings, with their contexts. -/
def Dev.commandRings (s : Dev) : List (Nat × RingCtx) := s.hp.rings.filter (fun p => p.2.active && p.2.kind == 0)

/-- The fields of a context are in range (R251, R254, Table 11-4). The table may hold what the device itself wrote for an ACTIVE
ring, its RO fields included. -/
def Dev.ctxOk (s : Dev) (r : Nat) (x : CtxImage) : Bool :=
  let k := x.kind.toNat
  let b := s.ringAt x.bound.toNat
  (!x.rsv || (s.ringAt r).active) && decide (k ≤ 4) && decide (4 ≤ x.log2.toNat) && decide (x.log2.toNat ≤ 16) && decide (x.base.toNat % 4096 = 0) &&
  decide (x.wb.toNat % 8 = 0) && (!(k == 3 || k == 4) || decide (x.wb ≠ 0)) &&
  (if k = 0 then decide (1 ≤ x.credits.toNat) && decide (x.credits.toNat ≤ 4096) && b.active && b.kind == 1 &&
      decide (r = 0 ∨ x.bound.toNat ≠ 1)
   else x.credits == 0 && x.bound == 0)

/-- Pins and credits are free for the ring (R252, R260). -/
def Dev.ctxFits (s : Dev) (x : CtxImage) : Bool :=
  let pins := (s.hp.rings.filter (fun p => p.2.active && (p.2.pin || decide (p.1 < 2)))).length
  let sum := fun (l : List (Nat × RingCtx)) => l.foldl (fun a p => a + p.2.credits) 0
  (!x.pin || decide (pins < 1024)) &&
  (x.kind != 0 ||
    (decide (sum s.commandRings + x.credits.toNat ≤ 4096) &&
     decide (sum (s.commandRings.filter (fun p => p.2.bound == x.bound.toNat)) + x.credits.toNat <
       (s.ringAt x.bound.toNat).size)))

/-- R251: the context read from the table is checked and the ring activated; none when the read fails. R277 orders the faults.
Log 91 (DEDUCED, unsafe). -/
def execRingCreate (d : Desc) (ctx : Option CtxImage) (s : State) : Outcome := s.on fun s =>
  s.ringCmd d 0x0001 [0xFFFFF] (fun s r =>
    match ctx with
      | none => s.fail d 0x0001 (if (s.ringAt r).active then St.busy else St.hostError)
      | some x =>
        if !s.ctxOk r x then s.fail d 0x0001 St.badParam
        else if (s.ringAt r).active then s.fail d 0x0001 St.busy
        else if !s.ctxFits x then s.fail d 0x0001 St.noResource
        else
          let s := s.setRing r {
            active := true, kind := x.kind.toNat, log2 := x.log2.toNat, pin := x.pin, irqEn := x.irqEn, bound := x.bound.toNat
            vector := x.vector.toNat, credits := x.credits.toNat, coalCount := x.coalCount.toNat, coalTime := x.coalTime.toNat
            base := x.base.toNat, wb := x.wb.toNat, user := x.user.toNat, phase := true, armed := true }
          let s := { s with hp := { s.hp with doorbells := Sparse.erase s.hp.doorbells r } }
          (s.ctxInsert r).reply d 0x0001 0 r 0)

/-- R473: class L fields selected by MASK. Log 90 (DEDUCED, unsafe). -/
def execRingModify (d : Desc) (s : State) : Outcome := s.on fun s =>
  s.ringCmd d 0x0002 [0xFFFFF, 0x1F, 0x107FF, Cmd.all, Cmd.all, Cmd.all] (fun s r =>
    let k := s.ringAt r
    let m := d.par 1
    if m ≠ 0 ∧ !k.active ∨ m % 16 ≠ 0 ∧ k.toDevice then s.fail d 0x0002 St.badParam
    else
      let k := if Bits.nbit m 0 then { k with irqEn := Bits.nbit (d.par 2) 16 } else k
      let k := if Bits.nbit m 1 then { k with vector := d.pf 2 0 11 } else k
      let k := if Bits.nbit m 2 then { k with coalCount := d.pf 3 0 16 } else k
      let k := if Bits.nbit m 3 then { k with coalTime := d.pf 3 16 16 } else k
      let k := if Bits.nbit m 4 then { k with user := d.par64 4 } else k
      ((if m = 0 then s else s.setRing r k).ctxUse r).reply d 0x0002 0 m 0)

/-- A COMMAND ring holds a command without its final completion, or an operation not DONE (R253). -/
def Dev.ringHolds (s : Dev) (r : Nat) : Bool :=
  s.hp.slots.any (fun x => x.ring == r) || s.hp.fetched.any (fun f => f.d.ring.toNat == r) ||
  s.complq.any (fun k => k.cmdRing == r) || s.laneWaits.any (fun w => w.ring == r) ||
  s.cells.any (fun p => p.2.heldCmds.any (fun h => h.1 == r)) ||
  s.ops.any (fun p => match p.2 with
    | some o => o.ring == r
    | none => false)

/-- R253: ACTIVE clears and the context is written back; routes that name an EVENT or TELEMETRY ring are disabled. -/
def execRingDestroy (d : Desc) (s : State) : Outcome := s.on fun s =>
  s.ringCmd d 0x0003 [0xFFFFF] (fun s r =>
    let k := s.ringAt r
    if r < 2 then s.fail d 0x0003 St.badParam
    else if k.active && (k.kind == 0 && s.ringHolds r || k.kind == 1 && s.commandRings.any (fun p => p.2.bound == r)) then
      s.fail d 0x0003 St.busy
    else if !k.active then s.reply d 0x0003 0 0 0
    else
      let s := (s.setRing r { k with active := false }).ctxWrite r
      let s := { s with hp := { s.hp with cached := s.hp.cached.erase r } }
      let s := if k.kind = 2 ∨ k.kind = 3 then
          s.forEach (List.range 256) (fun s i =>
            let w := RegMap.hpRoute i
            if s.rb w 20 && decide (s.rf w 0 20 = r) then s.putReg w 20 1 0 else s)
        else s
      s.reply d 0x0003 0 0 0)

/-- R473: the context as the device holds it. -/
def execRingQuery (d : Desc) (bufOk : Bool) (s : State) : Outcome := s.on fun s =>
  s.ringCmd d 0x0004 [0xFFFFF, Cmd.all, Cmd.all] (fun s r =>
    let k := s.ringAt r
    let a := d.par64 1
    let r0 := k.dev + k.host * 65536
    if a % 64 ≠ 0 then s.fail d 0x0004 St.badParam
    else if a = 0 then s.reply d 0x0004 0 r0 k.drop
    else s.bufReply d 0x0004 a k.words bufOk r0 k.drop)

/-! ### Channel commands (R67, R277, R279) -/

/-- Nodes the legacy view serves (20, R442): from FIRST_BLOCK on, 16 to 64, none beyond block 63. -/
def Dev.lvNodes (s : Dev) : Nat := min (max 16 (min 64 (s.rf RegMap.hpLvCfg 8 7))) (64 - s.rf RegMap.hpLvCfg 16 6)

/-- NATIVE_BLOCK refuses native channel commands to block `b` (R449). -/
def Dev.lvBlocked (s : Dev) (b : Nat) : Bool :=
  let first := s.rf RegMap.hpLvCfg 16 6
  s.rb RegMap.hpLvCfg 0 && s.rb RegMap.hpLvCfg 1 && decide (first ≤ b) && decide (b < first + s.lvNodes)

/-- The block a command on a cell or a block names. -/
def Cmd.block (d : Desc) : Nat := if d.tkind = 1 then d.tindex.toNat / 8 else d.tindex.toNat

/-- A command waits for the held CH_ON of a cell (R107). -/
def Dev.holdLane (s : Dev) (who : Nat × Nat) (c : Nat) : Dev :=
  s.modCell c (fun x => { x with heldCmds := x.heldCmds ++ [who] })

/-- One lane of a block command: OK and bad lanes, held lanes, the device (R279). -/
def Dev.chanLane (who : Nat × Nat) (i : Nat) (f : Dev → Nat → CmdRes × Dev) (p : Nat × Nat × Nat × Dev) (l : Nat) :
    Nat × Nat × Nat × Dev :=
  let c := 8 * i + l
  let bit := 1 <<< l
  match f p.2.2.2 c with
  | (.ok, t) => (p.1 + (if (t.cell c).state = (p.2.2.2.cell c).state then 0 else bit), p.2.1, p.2.2.1, t)
  | (.bad, _) => (p.1, p.2.1 + bit, p.2.2)
  | (.held, t) => (p.1, p.2.1, p.2.2.1 + bit, t.holdLane who c)

/-- The completion of a channel command. -/
def Dev.chanDone (s : Dev) (who : Nat × Nat) (op status r0 : Nat) : Dev :=
  s.complete { cmdRing := who.1, cmdId := who.2, opcode := op, status := status, r0 := BitVec.ofNat 32 r0 }

/-- A channel command on cell `i`, or on the eight cells of block `i` (R279). `who` is the ring and CMD_ID that its completion
names. -/
def Dev.chanRun (s : Dev) (who : Nat × Nat) (op : Nat) (one : Bool) (i : Nat) (f : Dev → Nat → CmdRes × Dev) : Dev :=
  if one then
    match f s i with
    | (.ok, t) => t.chanDone who op 0 0
    | (.bad, _) => s.chanDone who op St.badState 0
    | (.held, t) => t.holdLane who i
  else
    let (ok, bad, held, s) := (List.range 8).foldl (Dev.chanLane who i f) (0, 0, 0, s)
    if held = 0 then s.chanDone who op 0 (ok + bad * 256)
    else { s with laneWaits := s.laneWaits ++ [({ ring := who.1, cmdId := who.2, opcode := op, ok := ok, bad := bad
                                                  held := held } : LaneWait)] }

/-- A channel command of a ring. -/
def Dev.chanCmd (s : Dev) (d : Desc) (op : Nat) (f : Dev → Nat → CmdRes × Dev) : Result :=
  s.cmd d op [1, 2] [] (fun s =>
    if s.lvBlocked (Cmd.block d) then s.fail d op St.busy
    else (s.answer d).chanRun (d.ring.toNat, d.cmdId.toNat) op (d.tkind == 1) d.tindex.toNat f)

/-- CH_ENABLE (Table 3-3). -/
def execChEnable (d : Desc) (s : State) : Outcome := s.on fun s => s.chanCmd d 0x0100 Dev.chEnable
/-- CH_DISABLE. -/
def execChDisable (d : Desc) (s : State) : Outcome := s.on fun s => s.chanCmd d 0x0101 Dev.chDisable
/-- CH_ON. -/
def execChOn (d : Desc) (s : State) : Outcome := s.on fun s => s.chanCmd d 0x0102 Dev.chOn
/-- CH_OFF. -/
def execChOff (d : Desc) (s : State) : Outcome := s.on fun s => s.chanCmd d 0x0103 Dev.chOff
/-- CH_RESET. -/
def execChReset (d : Desc) (s : State) : Outcome := s.on fun s => s.chanCmd d 0x0104 Dev.chReset

/-- The cell status word (Tables 3-4 and 5-4). -/
def Dev.cellStatus (s : Dev) (c : Nat) : Word :=
  let x := s.cell c
  let b := Bits.b2n
  BitVec.ofNat 32 (x.state.code + x.holder.code * 2 ^ 4 + b x.pgood * 2 ^ 7 + b x.present * 2 ^ 8 + b x.holdOff * 2 ^ 9 +
    b x.ambFallback * 2 ^ 10 + b x.ilo.out * 2 ^ 16 + b x.ihi.out * 2 ^ 17 + b x.isc.out * 2 ^ 18 + b x.iscQual * 2 ^ 19 +
    b x.ilo.bandInit * 2 ^ 20 + b x.ihi.bandInit * 2 ^ 21 + b x.isc.bandInit * 2 ^ 22 +
    (if h : c < 512 then s.winPos (.cell ⟨c, h⟩) else 3) * 2 ^ 23 +
    b (x.ilo.pendingMode.isSome || x.ihi.pendingMode.isSome || x.isc.pendingMode.isSome) * 2 ^ 25 +
    b x.selftestRun * 2 ^ 26 + b x.selftestFail * 2 ^ 27)

/-- The CH_STATUS buffer (Table 12-3). Log 98 (DEDUCED, unsafe). -/
def Dev.statusBuffer (s : Dev) (c : Nat) : List Word :=
  let x := s.cell c
  [s.cellStatus c, BitVec.ofNat 32 (x.retryCount % 256 + Bits.ofInt 16 x.tjEst * 2 ^ 16)] ++ x.trip.words ++ x.probe.words ++
  Bits.words2 x.entered ++ [BitVec.ofNat 32 (if x.state = .cooldown then x.backoffMs else 0), 0] ++
  Bits.words2 ((List.range 8).foldl (fun a m => a + (Sparse.get (fun _ => {}) x.classes m).count % 256 * 2 ^ (8 * m)) 0) ++
  List.replicate 14 0

/-- R280. -/
def execChStatus (d : Desc) (bufOk : Bool) (s : State) : Outcome := s.on fun s =>
  s.cmd d 0x0105 [1] [Cmd.all, Cmd.all] (fun s =>
    let c := d.tindex.toNat
    if d.par64 0 % 64 ≠ 0 then s.fail d 0x0105 St.badParam
    else s.bufReply d 0x0105 (d.par64 0) (s.statusBuffer c) bufOk (s.cellStatus c).toNat ((s.cell c).retryCount % 256))

/-! ### Profiles (R92, R93, R281, R282) -/

/-- The class L, S and H bits of a profile word (Table 3-9); other bits are reserved. -/
def Prof.masks (w : Nat) : Word × Word × Word :=
  let all : Word := 0xFFFFFFFF
  match w with
  | 0 => (0x00F80000, 0x0307F7F3, 0xC)
  | 1 => (0, 0, all)
  | 2 | 6 => (0, 0x00FFFFFF, 0)
  | 3 | 4 => (0x00FFFFFF, 0, 0)
  | 8 | 9 | 17 => (all, 0, 0)
  | 15 => (0, 0x000FFFFF, 0)
  | 18 => (0, 0xFFFF, 0)
  | 19 => (0x3FFFFFFF, 0, 0)
  | 20 => (0x3FFF, 0xFFFF0000, 0)
  | 21 => (0, 0xFFFF3FFF, 0)
  | 22 => (0, 0x77777777, 0)
  | 23 => (0x3F, 0, 0)
  | 26 => (0, 0xFFFF001F, 0)
  | w => if 43 ≤ w ∧ w < 60 then (0, 0, 0) else if 60 ≤ w then (all, 0, 0) else (0, all, 0)

/-- Every field of a profile is in its legal range and the cross-field rules hold (R93, Table 3-9). -/
def Prof.legal (p : Nat → Word) : Bool :=
  let f := fun (byte lo len : Nat) => Bits.fld (p (byte / 4)) lo len
  let t := fun (byte lo : Nat) => Bits.sext 16 (f byte lo 16)
  let rng := fun (lo hi v : Nat) => decide (lo ≤ v) && decide (v ≤ hi)
  let tj := fun (v : Int) => decide (-2560 ≤ v) && decide (v ≤ 12800)
  let amb := f 0x68 0 5
  let cap := fun (ma : Nat) => decide (ma * f 4 0 32 ≤ 2 * (25000 * 2 ^ f 0 2 2) * 1000)
  f 0 0 2 != 3 && f 0 2 2 != 3 && rng 100 1000000 (f 4 0 32) && rng 10 16000000 (f 8 0 24) && rng 10 0xFFFFFF (f 0x0C 0 24) &&
  rng 1000 0xFFFFFF (f 0x10 0 24) && rng 1 10000 (f 0x14 0 16) && rng 1 10000 (f 0x14 16 16) && rng 10 10000000 (f 0x18 0 24) &&
  rng 50 5000 (f 0x1C 0 16) && rng 10 65535 (f 0x1C 16 16) && rng 1 65535 (f 0x24 0 16) && rng 1 65535 (f 0x24 16 16) &&
  rng 4500 60000 (f 0x28 0 16) && rng 4500 60000 (f 0x28 16 16) && rng 100 10000 (f 0x2C 0 16) && rng 0 60000 (f 0x2C 16 16) &&
  rng 100 100000 (f 0x3C 0 20) && rng 10 10000 (f 0x40 0 16) && rng 10 500 (f 0x40 16 16) && rng 1 60000 (f 0x44 16 16) &&
  rng 0 60000 (f 0x48 0 16) && rng 1 15 (f 0x50 16 4) && rng 1 15 (f 0x50 20 4) && rng 1 10000 (f 0x54 16 16) &&
  tj (t 0x60 0) && tj (t 0x60 16) && tj (t 0x64 0) && tj (t 0x64 16) && (rng 8 19 amb || amb == 31) &&
  rng 64 2560 (f 0x68 16 16) &&
  decide (t 0x64 0 < t 0x60 0) && decide (t 0x60 0 ≤ t 0x60 16) && decide (f 0x28 0 16 < f 0x28 16 16) &&
  (f 0x20 0 16 == 65535 || f 0x20 16 16 == 0 || decide (f 0x20 16 16 < f 0x20 0 16)) &&
  decide (f 0x50 16 4 ≤ f 0x50 20 4) && cap (f 8 0 24) && (f 0x0C 0 24 == 0xFFFFFF || cap (f 0x0C 0 24))

/-- A profile word as the next commit point would make it. -/
def Dev.nextPword (s : Dev) (c w : Nat) : Word :=
  let p := s.ppend c w
  Bits.merge (s.pword c w) p.1 p.2

/-- A profile write: word index, mask of the written bits, values. -/
abbrev ProfEdit := Nat × Word × Word

/-- The candidate profile (R281): in effect, then pending, then written. -/
def Dev.candidate (s : Dev) (c : Nat) (l : List ProfEdit) (w : Nat) : Word :=
  let m := Prof.masks w
  l.foldl (fun a e => if e.1 = w then Bits.merge a e.2.2 (e.2.1 &&& (m.1 ||| m.2.1 ||| m.2.2)) else a) (s.nextPword c w)

/-- The write changes a class H field while the cell is not stopped (R6, R7). -/
def Dev.profBusy (s : Dev) (c : Nat) (l : List ProfEdit) : Bool :=
  decide ((s.cell c).state ≠ .disabled) &&
  (List.range 64).any (fun w => ((s.candidate c l w ^^^ s.pword c w) &&& (Prof.masks w).2.2) != 0)

/-- The mode fields of a cell act when they are written (R116). -/
def Dev.applyModes (s : Dev) (c : Nat) : Dev :=
  if h : c < 512 then
    let m := fun (lo : Nat) => CmpMode.ofCode (s.pf c 0x50 lo 2)
    (((s.setMode (.ilo ⟨c, h⟩) (m 0)).setMode (.ihi ⟨c, h⟩) (m 2)).setMode (.isc ⟨c, h⟩) (m 4))
  else s

/-- Write a checked profile (R281): class L and H bits take effect, class S bits become pending. Answers the words with a
class L change and those with a pending value afterwards. Log 157 (DESIGN CHOICE, safe). -/
def Dev.writeProf (s : Dev) (c : Nat) (l : List ProfEdit) : Nat × Nat × Dev :=
  let step := fun (p : Nat × Dev) (w : Nat) =>
    let s := p.2
    let m := Prof.masks w
    let new := s.candidate c l w
    let eff := s.pword c w
    let written := (l.filter (fun e => e.1 == w)).foldl (fun a e => a ||| e.2.1) 0
    let pend := (s.ppend c w).2
    let smask := written &&& m.2.1 &&& ((new ^^^ eff) ||| pend)
    let now := Bits.merge eff new ((m.1 ||| m.2.2) &&& written)
    let s := if now = eff then s else s.setPword c w now
    let s := if smask = 0 then s else s.pendPword c w new smask
    (p.1 + (if (now ^^^ eff) &&& m.1 = 0 then 0 else 1), s)
  let range := s.pf c 0 2 2
  let modes := s.pf c 0x50 0 6
  let (n, s) := (List.range 64).foldl step (0, s)
  let s := if s.pf c 0x50 0 6 = modes then s else s.applyModes c
  let (k, s) := if s.pf c 0 2 2 = range then (0, s) else s.drawNat
  let s := if s.pf c 0 2 2 = range then s else s.restartLane c k
  (n, (s.profMine c).length, s)

/-- Check and write the profiles of the target's cells (R277, R281). -/
def Dev.profCmd (s : Dev) (d : Desc) (op : Nat) (l : List ProfEdit) : Dev :=
  let i := d.tindex.toNat
  let cs := if d.tkind = 1 then [i] else (List.range 8).map (fun n => 8 * i + n)
  if !cs.all (fun c => Prof.legal (s.candidate c l)) then s.fail d op St.badParam
  else if s.lvBlocked (Cmd.block d) then s.fail d op St.busy
  else if cs.any (fun c => s.profBusy c l) then s.fail d op St.cfgBusy
  else
    let step := fun (p : Nat × Nat × Dev) (c : Nat) =>
      let r := p.2.2.writeProf c l
      (p.1 + r.1, p.2.1 + r.2.1, r.2.2)
    let (n, k, s) := cs.foldl step (0, 0, s)
    s.reply d op 0 (n + k * 65536) 0

/-- PROFILE_WRITE: the image read from host memory, none when the read fails. -/
def execProfileWrite (d : Desc) (image : Option (List Word)) (s : State) : Outcome := s.on fun s =>
  s.cmd d 0x0110 [1, 2] [Cmd.all, Cmd.all, Cmd.all, Cmd.all] (fun s =>
    if d.par64 0 % 64 ≠ 0 then s.fail d 0x0110 St.badParam
    else match image with
      | none => s.fail d 0x0110 St.hostError
      | some ws => s.profCmd d 0x0110 ((Bits.ones 64 (d.par64 2)).map (fun w => (w, 0xFFFFFFFF, ws.getD w 0))))

/-- PROFILE_PATCH: up to four masked words; entries beyond N are reserved. -/
def execProfilePatch (d : Desc) (s : State) : Outcome := s.on fun s =>
  let n := min 4 (d.pf 0 0 3)
  s.cmd d 0x0111 [1, 2] ([7] ++ (List.range n).flatMap (fun _ => [0x3F, Cmd.all, Cmd.all])) (fun s =>
    if d.pf 0 0 3 < 1 ∨ 4 < d.pf 0 0 3 then s.fail d 0x0111 St.badParam
    else s.profCmd d 0x0111 ((List.range n).map (fun i =>
      (d.pf (1 + 3 * i) 0 6, BitVec.ofNat 32 (d.par (2 + 3 * i)), BitVec.ofNat 32 (d.par (3 + 3 * i))))))

/-- R282. -/
def execProfileRead (d : Desc) (bufOk : Bool) (s : State) : Outcome := s.on fun s =>
  s.cmd d 0x0112 [1] [Cmd.all, Cmd.all] (fun s =>
    let c := d.tindex.toNat
    let mask := (s.profMine c).foldl (fun a p => a ||| (1 <<< (p.1 % 64))) 0
    if d.par64 0 % 64 ≠ 0 then s.fail d 0x0112 St.badParam
    else s.bufReply d 0x0112 (d.par64 0) ((List.range 64).map (s.pword c) ++ (List.range 64).map (s.nextPword c)) bufOk
      (mask % 2 ^ 32) (mask >>> 32))

/-! ### Device, trend and task commands (R283, R284) -/

def execDevInfo (d : Desc) (s : State) : Outcome := s.on fun s =>
  s.cmd d 0x0010 [0] [] (fun s =>
    let mask := fun (f : Region → Bool) => (List.range 8).foldl (fun a g => a + Bits.b2n (f (s.region g)) * 2 ^ g) 0
    let free := 64 - (s.ops.filter (fun p => p.2.isSome)).length
    s.reply d 0x0010 0 (3 * 2 ^ 24 + Config.fwMinorBuild.toNat) (mask (·.linkUp) + mask (·.autonomous) * 256 + free * 65536))

/-- A trend log entry as four words (R169). -/
def Trend.words (e : Trend) : List Word :=
  Bits.words2 e.time ++ [BitVec.ofNat 32 e.rUohm, BitVec.ofNat 32 (e.tj % 65536 + e.mean10mA * 65536)]

/-- R283: the trend log lies in region RAM, so an autonomous region answers too. -/
def execTrendRead (d : Desc) (bufOk : Bool) (s : State) : Outcome := s.on fun s =>
  let l := (s.lane d.tindex.toNat).trend
  .next (if !d.check [1] [Cmd.all, Cmd.all] then s.fail d 0x0120 St.badDescriptor
    else if d.par64 0 % 64 ≠ 0 then s.fail d 0x0120 St.badParam
    else s.bufReply d 0x0120 (d.par64 0) (l.flatMap Trend.words ++ List.replicate (4 * (64 - l.length)) 0) bufOk l.length 0)

/-- A handler address lies in the customer IRAM or customer flash range (Table 10-8, R207). -/
def Cmd.customerCode (a : Nat) : Bool :=
  a % 4 == 0 && ((decide (0x8000 ≤ a) && decide (a < 0x10000)) || (decide (0x20800000 ≤ a) && decide (a < 0x20E00000)))

/-- Any `n` of the free registers of a list: the spec does not say which, so the list is turned by a free number.
Log 97 (DESIGN CHOICE, safe). -/
def Dev.pickFree (s : Dev) (l : List Nat) (n : Nat) : List Nat × Dev :=
  let (k, s) := s.drawNat
  let r := k % max 1 l.length
  ((l.drop r ++ l.take r).take n, s)

/-- R284. -/
def execTaskInstall (d : Desc) (s : State) : Outcome := s.on fun s =>
  s.cmd d 0x0901 [0] [0x7F3F, Cmd.all, Cmd.all, 0xFF] (fun s =>
    let e := d.pf 0 0 6
    let n := d.pf 0 8 4
    let level := d.pf 0 12 3
    let ns := d.pf 3 0 4
    let nv := d.pf 3 4 4
    let k := s.barge e
    if n < 8 ∨ 4 < level ∨ !Cmd.customerCode (d.par 2) ∨ 8 < ns ∨ 4 < nv then s.fail d 0x0901 St.badParam
    else if Bits.bit (k.moorCfg n) 0 then s.fail d 0x0901 St.busy
    else
      let taken := fun (m : Sparse Nat) => m.foldl (fun a p => a ||| p.2) 0
      let fs := ((List.range 16).map (· + 12)).filter (fun r => !Bits.nbit (taken k.tq.moorS) r)
      let fv := ((List.range 8).map (· + 8)).filter (fun r => !Bits.nbit (taken k.tq.moorV) r)
      if fs.length < ns ∨ fv.length < nv then s.fail d 0x0901 St.noResource
      else
        let (ls, s) := s.pickFree fs ns
        let (lv, s) := s.pickFree fv nv
        let bits := fun (l : List Nat) => l.foldl (fun a r => a ||| (1 <<< r)) 0
        let s := s.memStore e ((s.barge e).vtbase + 4 * n) 4 (d.par 2)
        let s := s.modBarge e (fun k =>
          let w := n / 8
          let old := Sparse.get (fun _ => 0) k.prio w
          { k with
            prio := Sparse.set (fun _ => 0) k.prio w (Bits.put old (4 * (n % 8)) 4 level)
            tq := { k.tq with
              moorCfg := Sparse.set (fun _ => 0) k.tq.moorCfg n (BitVec.ofNat 32 (d.par 1))
              moorS := Sparse.set (fun _ => 0) k.tq.moorS n (bits ls)
              moorV := Sparse.set (fun _ => 0) k.tq.moorV n (bits lv) } })
        s.reply d 0x0901 0 (bits ls) (bits lv))

/-- R284: EN clears and the slot's registers are free; the vector word stays. -/
def execTaskRemove (d : Desc) (s : State) : Outcome := s.on fun s =>
  s.cmd d 0x0902 [0] [0xF3F] (fun s =>
    let e := d.pf 0 0 6
    let n := d.pf 0 8 4
    if n < 8 then s.fail d 0x0902 St.badParam
    else
      let s := s.modBarge e (fun k => { k with tq := { k.tq with
        moorCfg := Sparse.set (fun _ => 0) k.tq.moorCfg n (Bits.put (k.moorCfg n) 0 1 0)
        moorS := Sparse.erase k.tq.moorS n, moorV := Sparse.erase k.tq.moorV n } })
      s.reply d 0x0902 0 0 0)

end Sys2Proof.Machine
end

