-- ==== Sys2Proof/Machine/Basin.lean ====
section
/-! DEFINITION. The basin recorder (spec/13) and the sample mirror (spec/01 R33, R34). -/

namespace Sys2Proof.Machine

/-- Entries a segment holds (R300). -/
def Bz.perSegment : Nat := 1398101
/-- Entries the staging buffer holds (R307). -/
def Bz.staging : Nat := 10922

def Dev.bzNseg (s : Dev) : Nat := max 1 (min 4096 (s.rf RegMap.bzSegCfg 0 13))
/-- C: entries of the store. -/
def Dev.bzCap (s : Dev) : Nat := s.bzNseg * Bz.perSegment

def Dev.modBz (s : Dev) (f : Basin → Basin) : Dev := { s with bz := f s.bz }

/-- The basin records: enabled, not frozen, the post count not yet reached (R302, R308). -/
def Basin.active (z : Basin) : Bool := z.recording && !z.frozen && decide (z.post ≠ some 0)

/-- POST_RUNNING. -/
def Basin.postRunning (z : Basin) : Bool := z.post.isSome

/-- Host address of entry `p` (R300). -/
def Dev.bzAddr (s : Dev) (p : Nat) : Nat :=
  (s.bz.segs.getD (p / Bz.perSegment % s.bzNseg) 0).toNat + 48 * (p % Bz.perSegment)

/-- Write every staged entry (R258). -/
def Dev.bzDrain (s : Dev) : Dev :=
  let l := s.bz.staged
  (s.forEach l (fun s e => s.emit (.hostWrite (s.bzAddr e.1) e.2))).modBz (fun z => { z with staged := [] })

/-- The 32-byte writeback, after the entries it counts (R303). -/
def Dev.bzWriteback (s : Dev) : Dev :=
  let a := s.reg64 RegMap.bzWbAddr / 32 * 32
  if !s.hostReach then s.modBz (fun z => { z with wbW := 2 ^ 64 })
  else
    let s := s.bzDrain
    let z := s.bz
    let s := if a = 0 then s
      else s.emit (.hostWrite a (Bits.words2 z.w ++ Bits.words2 z.trigPos ++
        [BitVec.ofNat 32 z.dropTotal, BitVec.ofNat 32 (Bits.b2n z.frozen + Bits.b2n z.postRunning * 2), 0, 0]))
    s.modBz (fun z => { z with wbW := z.w })

/-- A basin event (Table 13-5). -/
def Dev.bzEvent (s : Dev) (code : Nat) (payload : List Word) : Dev := s.raise { stream := 0x8B, code := code, payload := payload }

/-- Record one entry at W. -/
def Dev.bzPut (s : Dev) (words : List Word) : Dev :=
  s.modBz (fun z => { z with
    staged := z.staged ++ [(z.w, words)], w := z.w + 1
    post := z.post.map (· - 1), postDone := if z.post.isSome then z.postDone + 1 else z.postDone })

/-- The staging buffer takes no further frame: full, or a drop episode is open (R307). -/
def Basin.blocked (z : Basin) : Bool := z.drop.isSome || decide (Bz.staging ≤ z.staged.length)

/-- A mark (R305): recorded, or counted in MARK_LOST; it consumes its number. Log 104 (DEDUCED, unsafe). -/
def Dev.bzMark (s : Dev) (src code tag time : Nat) : Dev :=
  let z := s.bz
  let words := Bits.words2 time ++ [BitVec.ofNat 32 (src + 0xFE * 2 ^ 24), BitVec.ofNat 32 z.markSeq, BitVec.ofNat 32 code,
    BitVec.ofNat 32 tag] ++ List.replicate 6 0
  let s := if z.active && !z.blocked then s.bzPut words
    else s.modBz (fun z => { z with markLost := Bits.satAdd 255 z.markLost 1 })
  s.modBz (fun z => { z with markSeq := (z.markSeq + 1) % 2 ^ 32 })

/-- A BASIN_MARK lock (R305). -/
def Dev.basinMark (s : Dev) (code tag time : Nat) : Dev := s.bzMark 1 code tag time

/-- A freeze trigger (R308, R309): whether it is accepted. `pos` is the position of the trigger frame, if it was recorded.
Log 105 (DESIGN CHOICE, safe). -/
def Dev.bzTrigger (s : Dev) (src post time cell tag : Nat) (pos : Option Nat) : Bool × Dev :=
  let z := s.bz
  if !z.recording || z.frozen || z.postRunning then
    (false, s.modBz (fun z => { z with trigIgnored := Bits.satAdd 255 z.trigIgnored 1 }))
  else
    let (free, s) := if src = 3 then s.drawNat else (0, s)
    let s := s.modBz (fun z => { z with
      trigPos := if src = 3 then free % 2 ^ 64 else pos.getD z.w
      trigTime := time, trigSrc := src, trigCell := cell, trigTag := tag, postDone := 0 })
    let s := if src = 3 then s else s.bzMark 2 (src + cell * 4) 0 s.tbTime
    (true, s.modBz (fun z => { z with post := some (min post (s.bzCap - 1)), postDone := 0 }))

/-- A BASIN_FREEZE lock (R308). -/
def Dev.basinFreeze (s : Dev) (post tag time : Nat) : Dev := (s.bzTrigger 1 post time 0 tag none).2

/-- W reaches C with ONE_SHOT (R308). -/
def Dev.bzFull (s : Dev) : Dev :=
  if s.rb RegMap.bzCtrl 1 && decide (s.bz.w = s.bzCap) then (s.bzTrigger 3 0 s.tbTime 0 0 none).2 else s

/-- R301: EN 0 to 1, the segment table is being read. -/
def Dev.bzEnable (s : Dev) : Dev :=
  if s.rb RegMap.bzCtrl 0 then s
  else (s.putReg RegMap.bzCtrl 0 1 1).modBz (fun z => { z with loading := true })

def execBasinEnable (s : State) : Outcome := s.on fun s => .next s.bzEnable

/-- R301: the table is read, and recording starts afresh; or SEG_ERR. -/
def execSegTableLoad (table : Option (List DWord)) (s : State) : Outcome := s.on fun s =>
  if !s.bz.loading then .next s
  else
    let bad := (s.putReg RegMap.bzCtrl 0 1 0).modBz (fun z => { z with loading := false, segErr := true })
    match table with
    | none => .next bad
    | some l =>
      if l.length < s.bzNseg ∨ (l.take s.bzNseg).any (fun a => decide (a.toNat % 4096 ≠ 0)) then .next bad
      else .next (s.modBz (fun z => { z with
        loading := false, recording := true, stopping := false, segs := l.take s.bzNseg, w := 0, staged := [], drop := none
        dropTotal := 0, markSeq := 0, post := none, postDone := 0, frozen := false, trigPos := 2 ^ 64 - 1, trigTime := 0
        trigSrc := 0, trigCell := 0, trigTag := 0, wbW := 0 }))

/-- R301: EN 1 to 0. -/
def Dev.bzDisable (s : Dev) : Dev :=
  if !s.rb RegMap.bzCtrl 0 then s
  else
    let s := (s.putReg RegMap.bzCtrl 0 1 0).modBz (fun z => { z with recording := false, loading := false })
    if s.hostReach then s.bzWriteback else s.modBz (fun z => { z with stopping := true })

def execBasinDisable (s : State) : Outcome := s.on fun s => .next s.bzDisable

/-- The twelve words of a frame (Table 13-1). -/
def Frame.words (f : Frame) : List Word := (List.range 12).map (fun i => BitVec.ofNat 32 (Mem.slice f.value (4 * i) 4))

/-- The lowest cell of a frame's TRIP byte. -/
def Frame.lowCell (f : Frame) : Nat := 8 * f.block + ((Bits.ones 8 f.trip).headD 0)

/-- R302, R307, R308: a frame reaches the engine. -/
def execBasinFrame (s : State) : Outcome := s.on fun s =>
  match s.bz.inbox with
  | [] => .next s
  | f :: rest =>
    let s := s.modBz (fun z => { z with inbox := rest })
    let w := RegMap.bzBlockCfg f.block
    let want := s.bz.active && s.rb w 0 && (decide (f.seq % (s.rf w 1 6 + 1) = 0) || decide (f.trip ≠ 0))
    let drop := want && s.bz.blocked
    let pos := if want && !drop then some s.bz.w else none
    let s := if drop then s.modBz (fun z => { z with
        dropTotal := Bits.satAdd (2 ^ 32 - 1) z.dropTotal 1
        drop := some (match z.drop with
          | some e => { e with last := f.time, count := Bits.satAdd (2 ^ 32 - 1) e.count 1, blocks := e.blocks ||| (1#64 <<< f.block) }
          | none => { first := f.time, last := f.time, count := 1, blocks := 1#64 <<< f.block }) })
      else if want then (s.bzPut f.words).bzFull else s
    let trig := decide (f.trip ≠ 0) && Bits.nbit (s.reg64 RegMap.bzTrigBlocks) f.block
    .next (if trig then (s.bzTrigger 2 (s.reg RegMap.bzTrigPost).toNat f.time f.lowCell 0 pos).2 else s)

/-- R300: the oldest staged entry is written. -/
def execBasinEntryWrite (s : State) : Outcome := s.on fun s =>
  if !s.hostReach then .next s
  else match s.bz.staged with
    | [] => if s.bz.stopping then .next (s.bzWriteback.modBz (fun z => { z with stopping := false })) else .next s
    | e :: rest => .next ((s.emit (.hostWrite (s.bzAddr e.1) e.2)).modBz (fun z => { z with staged := rest }))

/-- R307: 64 KiB are free, and the episode closes with a gap record. -/
def execGapRecord (s : State) : Outcome := s.on fun s =>
  match s.bz.drop with
  | none => .next s
  | some e =>
    if !s.bz.active || decide (524288 < 48 * s.bz.staged.length + 65536) then .next s
    else
      let words := Bits.words2 e.first ++ [BitVec.ofNat 32 (0xFD * 2 ^ 24), BitVec.ofNat 32 e.count] ++
        Bits.words2 e.blocks.toNat ++ Bits.words2 e.last ++ List.replicate 4 0
      let s := (s.modBz (fun z => { z with drop := none })).bzPut words
      .next (s.bzFull.bzEvent 0x1E1 (Bits.words2 e.first ++ [BitVec.ofNat 32 e.count, 0] ++ Bits.words2 e.blocks.toNat))

/-- R303. -/
def execBasinWriteback (s : State) : Outcome := s.on fun s =>
  if s.bz.wbW = s.bz.w ∨ !s.hostReach then .next s else .next s.bzWriteback

/-- R308: the post-trigger count is reached. -/
def execBasinFrozen (s : State) : Outcome := s.on fun s =>
  if s.bz.post ≠ some 0 then .next s
  else
    let z := s.bz
    let s := (s.modBz (fun z => { z with post := none, frozen := true })).bzWriteback
    let s := s.bzEvent 0x1E0 (Bits.words2 z.trigTime ++ Bits.words2 z.trigPos ++
      [BitVec.ofNat 32 (z.trigSrc + z.trigCell * 4 + z.trigTag * 65536), BitVec.ofNat 32 z.postDone])
    .next (s.forEach (List.range 64) (fun s e => if (s.barge e).en.getLsbD 38 then s.irq e 38 else s))

/-- BASIN_FREEZE (Table 13-4). Log 107 (DEDUCED, unsafe). -/
def execBasinFreeze (d : Desc) (s : State) : Outcome := s.on fun s =>
  s.cmd d 0x0400 [0] [Cmd.all] (fun s =>
    if !s.bz.recording then s.fail d 0x0400 St.badState
    else
      let (ok, s) := s.bzTrigger 0 (d.par 0) s.tbTime 0 0 none
      s.reply d 0x0400 0 (Bits.b2n ok) 0)

/-- An export is not DONE (R310). -/
def Dev.exporting (s : Dev) : Bool := s.ops.any (fun p => match p.2 with
  | some o => o.opcode == 0x0480
  | none => false)

/-- BASIN_RELEASE (R309). Log 106 (DEDUCED, unsafe). -/
def execBasinRelease (d : Desc) (s : State) : Outcome := s.on fun s =>
  s.cmd d 0x0401 [0] [] (fun s =>
    if s.exporting then s.fail d 0x0401 St.busy
    else if s.bz.frozen || s.bz.postRunning then
      let s := s.modBz (fun z => { z with frozen := false, post := none })
      (s.bzMark 3 0 0 s.tbTime).bzWriteback.reply d 0x0401 0 0 0
    else s.reply d 0x0401 0 0 0)

/-- BASIN_MARK (R305). -/
def execBasinMark (d : Desc) (s : State) : Outcome := s.on fun s =>
  s.cmd d 0x0402 [0] [Cmd.all] (fun s =>
    let q := s.bz.markSeq
    ((s.bzMark 0 (d.par 0) 0 s.tbTime).bzFull).reply d 0x0402 0 q 0)

/-! ### The sample mirror (R33, R34) -/

/-- A frame as the refresh of a served node will read it (R443): the valid lanes' codes are summed. -/
def Node.addFrame (x : Node) (f : Frame) : Node :=
  { x with chans := (Bits.ones 8 f.valid).foldl (fun m l =>
      Sparse.modify (fun _ => {}) m l (fun (k : NodeChan) => { k with
        n := k.n + 1, iSum := k.iSum + Bits.sext 16 (f.i.getD l 0), vSum := k.vSum + f.v.getD l 0 })) x.chans }

def Dev.lvFrame (s : Dev) (b : Nat) (f : Frame) : Dev :=
  let first := s.rf RegMap.hpLvCfg 16 6
  if s.rb RegMap.hpLvCfg 0 && decide (first ≤ b) && decide (b < first + s.lvNodes) then
    { s with nodes := Sparse.modify (fun _ => {}) s.nodes (b - first) (fun x => Node.addFrame x f) }
  else s

/-- A block frame arrives at the central end: mirror slot SEQ mod 64, SAMPLE_READY, and the frame passed to the basin. -/
def execSampleMirrorWrite (b : BlockIx) (s : State) : Outcome := s.on fun s =>
  match (s.conv b).frames with
  | [] => .next s
  | f :: rest =>
    let s := s.modConv b (fun k => { k with frames := rest })
    if !s.straitUp (b / 8) then .next s
    else
      let s := s.modConv b (fun k => { k with
        mirror := Sparse.set (fun _ => { time := 0, valid := 0, settle := 0, trip := 0, block := 0, seq := 0, i := [], v := [] })
          k.mirror (f.seq % 64) f })
      let s := ((s.irq b 16).boundEvent b 1).lvFrame b f
      .next (s.modBz (fun z => { z with inbox := z.inbox ++ [f] }))

end Sys2Proof.Machine
end

