-- ==== Sys2Proof/Machine/SliceCmds.lean ====
section
/-! DEFINITION. The slice rows that reach outside the slice: the fault input, the release of samples to region RAM (R329) and
the slice commands (Table 14-8). -/

namespace Sys2Proof.Machine

/-- R324: the fault input takes the level the trip routing matrix gives it (R97). -/
def execSliceFaultInput (k : SliceIx) (s : State) : Outcome := s.on fun s =>
  .next (s.sliceFault k (Bits.nbit (s.sliceFaults (k.val / 4)) (k.val % 4)))

/-- R332: the watchdog applies LOSS_ACTION and sets WD_FIRED, which raises SLICE_WD (Table 17-2). -/
def execControlWordWatchdog (k : SliceIx) (s : State) : Outcome := s.on fun s =>
  let x := s.slice k
  if (x.state = .softStart ∨ x.state = .run) ∧ s.rf (RegMap.cs k 0x04) 24 8 ≠ 0 then
    .next (((s.setSlice k { x with wdFired := true }).lossAction k 2).occur (k.val / 4) 80 k.val)
  else .next s

/-- R329: the record of Table 14-4 is written to region RAM, then SLICE_SAMPLE is set pending. -/
def execSliceSampleRelease (k : SliceIx) (late : Bool) (s : State) : Outcome := s.on fun s =>
  let g := k.val / 4
  match takeFirst (fun (r : SliceRec) => r.slice == k.val) s.sliceQ with
  | none => .next s
  | some (r, rest) =>
    let s := { s with sliceQ := rest }
    let v := r.fb % 65536 + (r.flags % 2 ^ 32 + Bits.b2n late * 2 ^ 19) * 2 ^ 32 + r.time % 2 ^ 64 * 2 ^ 64
    let off := s.rf (RegMap.cs k 0x30) 4 17 * 16
    let s := { s with rram := Mem.write 0 s.rram (g * 0x200000 + off) 16 v }
    let s := s.irqRegion g (24 + k.val % 4)
    .next (s.forEach (List.range 8) (fun s i => s.boundEvent (8 * g + i) (4 + k.val % 4)))

/-- SLICE_LOOP_SET: the runtime loop in a free runtime slot of the barge, bound to SLICE_SAMPLE; EN = 0 removes it.
Log 114 (DEDUCED, unsafe). -/
def execSliceLoopSet (d : Desc) (s : State) : Outcome := s.on fun s =>
  s.cmd d 0x0500 [4] [0xF, Cmd.all, Cmd.all, Cmd.all, 0xFFFF] (fun s =>
    let k := d.tindex.toNat
    let e := 8 * (k / 4) + d.pf 0 0 3
    let lo := d.pf 3 0 16
    let hi := d.pf 3 16 16
    let x := s.slice k
    let clear := fun (s : Dev) =>
      match x.loop with
      | none => s
      | some (i, n, _) => s.modBarge (8 * (k / 4) + i) (fun b => { b with tq := { b.tq with
          moorCfg := Sparse.set (fun _ => 0) b.tq.moorCfg n (Bits.put (b.moorCfg n) 0 1 0) } })
    if hi < lo then s.fail d 0x0500 St.badParam
    else if !Bits.nbit (d.par 0) 3 then
      ((clear s).modSlice k (fun x => { x with loop := none })).reply d 0x0500 0 0 0
    else if x.loop.isSome then s.fail d 0x0500 St.busy
    else match (List.range 8).find? (fun n => !Bits.bit ((s.barge e).moorCfg n) 0) with
      | none => s.fail d 0x0500 St.noResource
      | some n =>
        let (w, s) := s.drawWord
        let cfg := Bits.put (Bits.put w 0 1 1) 1 3 (4 + k % 4)
        let s := s.modBarge e (fun b => { b with tq := { b.tq with moorCfg := Sparse.set (fun _ => 0) b.tq.moorCfg n cfg } })
        let s := s.modSlice k (fun x => { x with
          loop := some (d.pf 0 0 3, n, BitVec.ofNat 32 (d.par 1), BitVec.ofNat 32 (d.par 2), lo, hi) })
        let s := s.pendReg (RegMap.cs k 0x2C) (BitVec.ofNat 32 (d.par 4)) 0xFFFF
        let s := if (s.slice k).state = .off then s.commitReg (RegMap.cs k 0x2C) else s
        s.reply d 0x0500 0 0 0)

/-- SLICE_START: EN := 1 on an OFF slice. -/
def execSliceStart (d : Desc) (s : State) : Outcome := s.on fun s =>
  s.cmd d 0x0501 [4] [] (fun s =>
    let k := d.tindex.toNat
    if (s.slice k).state ≠ .off then s.fail d 0x0501 St.badState
    else ((s.putReg (RegMap.cs k 0x00) 0 1 0).softStart k).reply d 0x0501 0 0 0)

/-- SLICE_STOP: soft stop, or KILL. -/
def execSliceStop (d : Desc) (s : State) : Outcome := s.on fun s =>
  s.cmd d 0x0502 [4] [1] (fun s =>
    let k := d.tindex.toNat
    (if Bits.nbit (d.par 0) 0 then s.killSlice k 4 else s.sliceDisable k).reply d 0x0502 0 0 0)

/-- SLICE_STATUS: read without clearing. -/
def execSliceStatus (d : Desc) (s : State) : Outcome := s.on fun s =>
  s.cmd d 0x0503 [4] [] (fun s =>
    let x := s.slice d.tindex.toNat
    s.reply d 0x0503 0 x.stat.toNat x.cnt.toNat)

end Sys2Proof.Machine
end

