-- ==== Sys2Proof/Machine/Reserve.lean ====
section
/-! DEFINITION. The reserve unit (spec/15): charger, safety timers, pack temperature, hand-over and hand-back, reserve watchdog
and reserve faults. What removes or restores the supply is in Power. -/

namespace Sys2Proof.Machine

def Dev.modRv (s : Dev) (f : Reserve → Reserve) : Dev := { s with rv := f s.rv }
/-- A field of a reserve register in effect. -/
def Dev.rvf (s : Dev) (off lo len : Nat) : Nat := s.rf (RegMap.rv off) lo len

/-- A reserve event: stream 0x8A, OBJECT 0, and RESERVE of every barge (Table 15-7). -/
def Dev.rvEvent (s : Dev) (code : Nat) (flag : Bool) (payload : List Word) : Dev :=
  (s.raise { stream := 0x8A, code := code, flag := flag, payload := Bits.words2 s.tbTime ++ payload }).irqAll 36

/-! ### Faults (R357) -/

/-- Faults that stop charging (Table 15-5). -/
def Rv.stops : Nat := 0x6B

/-- The charger goes to a state (Table 15-3): class S values commit, and safe values that no longer apply end (R356, R358). -/
def Dev.chgGoto (s : Dev) (new reason : Nat) : Dev :=
  let old := s.rv.chg
  if old = new then s.modRv (fun r => { r with waitReason := if new = 1 then reason else 0 })
  else
    let s := s.forEach [0x08, 0x0C, 0x10, 0x14, 0x18, 0x28, 0x2C] (fun s o => s.commitReg (RegMap.rv o))
    let cycle := decide (old = 0 ∨ old = 6)
    let charging := decide (2 ≤ new ∧ new ≤ 5)
    let s := s.modRv (fun r => { r with
      chg := new, waitReason := if new = 1 then reason else 0, safeActs := r.safe && r.safeActs
      preMs := if cycle then 0 else r.preMs, chgMs := if cycle then 0 else r.chgMs
      inReg := charging && r.inReg, thReg := charging && r.thReg, half := charging && r.half })
    s.rvEvent 0x140 false [BitVec.ofNat 32 (new + old * 8 + s.rv.waitReason * 64)]

/-- The charger output stops: a charging state goes to WAIT. -/
def Dev.chgWait (s : Dev) (reason : Nat) : Dev :=
  if 2 ≤ s.rv.chg ∧ s.rv.chg ≤ 5 then s.chgGoto 1 reason else s

/-- A live condition of Table 15-5 arises: latched, EV_RESERVE_FAULT and the chip source of the fault. -/
def Dev.rvFault (s : Dev) (n : Nat) : Dev :=
  let s := s.modRv (fun r => { r with latched := r.latched ||| 1 <<< n, live := if n = 2 then r.live else r.live ||| 1 <<< n })
  let s := (s.rvEvent 0x144 false [BitVec.ofNat 32 (1 <<< n)]).occur 8 (42 + n) 0xFFFFFFFF
  if Bits.nbit Rv.stops n ∧ n ≠ 0 then s.chgWait 3 else s

/-- A live condition ends. -/
def Dev.rvFaultEnd (s : Dev) (n : Nat) : Dev :=
  (s.modRv (fun r => { r with live := r.live &&& (511 ^^^ 1 <<< n) })).unoccur 8 (42 + n)

/-- A live condition arises or ends. -/
def Dev.rvLive (s : Dev) (n : Nat) (live : Bool) : Dev :=
  if live = Bits.nbit s.rv.live n then s else if live then s.rvFault n else s.rvFaultEnd n

/-- A read of RV_FAULT: CHG_TIMEOUT is live until it is read; bits whose condition has ended clear. -/
def Dev.rvFaultRead (s : Dev) : Word × Dev :=
  let v := s.rv.latched
  let s := if Bits.nbit v 0 then s.rvFaultEnd 0 else s
  (BitVec.ofNat 32 v, s.modRv (fun r => { r with latched := r.latched &&& r.live }))

def execRvFaultRead (s : State) : Outcome := s.on fun s =>
  let (v, s) := s.rvFaultRead
  .next (s.emit (.readData [v]))

/-- R357: the conditions of PACK_OV and CHG_OC. -/
def execPackOv (live : Bool) (s : State) : Outcome := s.on fun s => .next (s.rvLive 1 live)
def execChgOc (live : Bool) (s : State) : Outcome := s.on fun s => .next (s.rvLive 5 live)

/-- R346: above T_DIS_HOT while the path is RESERVE. -/
def execPackHot (live : Bool) (s : State) : Outcome := s.on fun s =>
  if live ∧ s.rv.path ≠ 2 then .next s else .next (s.rvLive 4 live)

/-- R349. -/
def execInPathFail (live : Bool) (s : State) : Outcome := s.on fun s =>
  if live ∧ s.rv.path = 0 then .next s else .next (s.rvLive 6 live)
def execDioFail (live : Bool) (s : State) : Outcome := s.on fun s =>
  if live ∧ !s.rv.dioArmed then .next s else .next (s.rvLive 7 live)

/-! ### Configuration (R339) -/

/-- A register word as the next commit point makes it. -/
def Dev.nextReg (s : Dev) (off : Nat) : Word :=
  let p := Sparse.get (fun _ => (0, 0)) s.regsPend off
  Bits.merge (s.reg off) p.1 p.2

/-- Every charger field is legal (R339, R346, Table 15-2), the values taken as the next transition commits them.
Log 116 (DEDUCED, unsafe). -/
def Dev.rvLegal (s : Dev) : Bool :=
  let f := fun (o lo len : Nat) => Bits.fld (s.nextReg (RegMap.rv o)) lo len
  let t := fun (o lo : Nat) => Bits.sext 8 (f o lo 8)
  let rng := fun (lo hi v : Nat) => decide (lo ≤ v) && decide (v ≤ hi)
  let cells := f 0x04 2 4
  let cv := f 0x08 0 16
  let rech := f 0x08 16 16
  let pre := f 0x0C 0 16
  let cut := f 0x0C 16 16
  (match f 0x04 0 2 with
   | 1 => rng 2 10 cells && rng 4000 4400 cv && rng 3700 4300 rech && rng 2500 3200 pre && rng 2500 3200 cut
   | 2 => rng 2 12 cells && rng 3400 3650 cv && rng 3200 3550 rech && rng 2000 2800 pre && rng 2000 2800 cut
   | 3 => cells == 1 && rng 5000 45000 cv && rng (90 * cv) (99 * cv) (100 * rech) && decide (2 * pre ≤ cv) &&
          decide (2 * cut ≤ cv)
   | _ => false) &&
  rng 500 16383 (f 0x04 18 14) && decide (cut < pre) && decide (pre < rech) && decide (rech < cv) &&
  decide (cells * cv ≤ 45000) && rng 50 8000 (f 0x10 0 16) && rng 50 2000 (f 0x10 16 16) && rng 20 2000 (f 0x14 0 16) &&
  decide (f 0x14 0 16 < f 0x10 0 16) && decide (f 0x10 16 16 ≤ f 0x10 0 16) && decide (f 0x14 16 7 ≤ 120) &&
  decide (1 ≤ f 0x18 0 8) && decide (10 ≤ f 0x18 8 12) &&
  decide (t 0x28 0 < t 0x28 8) && decide (t 0x28 8 < t 0x28 16) && decide (t 0x28 16 ≤ t 0x2C 0) && decide (t 0x2C 0 < t 0x28 24)

/-- CHG_EN := 0: DISABLED. -/
def Dev.chgOff (s : Dev) : Dev := (s.putReg (RegMap.rv 0) 0 1 0).chgGoto 0 0

/-- The reason the charger waits, by Table 15-6; 0 when every run condition holds (R340). -/
def Dev.chgReason (s : Dev) (x : RvMeas) : Nat :=
  if s.rv.path ≠ 0 then 1 else if s.rv.zone = 0 ∨ s.rv.zone = 4 then 2 else if s.rv.latched &&& Rv.stops ≠ 0 then 3
  else if x.vsys.toNat < x.pack.toNat + 3000 then 4 else if s.rv.pause then 5 else 0

/-- A write of CHG_EN = 1 (R339, R345, R355). A valid one ends the hold of the wake circuit and closes SHIP_GATE. -/
def Dev.chgOn (s : Dev) : Dev :=
  if Bits.nbit s.rv.latched 0 then s
  else if !s.rvLegal then s.cfgIgnored (RegMap.rv 0)
  else
    let s := (s.putReg (RegMap.rv 0) 0 1 1).modRv (fun r => { r with hold := false, shipOn := true })
    if s.rv.chg = 0 then s.chgGoto 1 (s.chgReason s.rv.meas) else s

def execChargeEnable (s : State) : Outcome := s.on fun s => .next s.chgOn

/-! ### The charger (R340 to R345) -/

/-- CELLS × V_CV_MV as it acts: the safe values (R356), and the WARM reduction of Table 15-2. -/
def Dev.rvVcv (s : Dev) : Nat :=
  let cv := s.rvf 0x08 0 16
  let cv := if s.rv.safeActs then cv * s.rvf 0x34 16 10 / 1000 else cv
  let cv := if s.rv.zone = 3 then (if s.rvf 0x04 0 2 = 3 then cv - cv * 2 / 100 else cv - 100) else cv
  s.rvf 0x04 2 4 * cv

/-- The charging phase the pack voltage selects (R340). -/
def Dev.chgPhase (s : Dev) (pack : Nat) : Nat :=
  if pack < s.rvf 0x04 2 4 * s.rvf 0x0C 0 16 then 2 else if pack < s.rvVcv then 3 else 4

/-- R340: run conditions and pack thresholds for a new measurement. A pause holds WAIT but does not end a charging state. -/
def execChargerPhaseChange (x : RvMeas) (s : State) : Outcome := s.on fun s =>
  let s := s.modRv (fun r => { r with meas := x })
  let why := s.chgReason x
  let pack := x.pack.toNat
  .next (match s.rv.chg with
    | 1 => if why = 0 then s.chgGoto (s.chgPhase pack) 0 else s.chgGoto 1 why
    | 0 | 6 => s
    | n =>
      if why ≠ 0 ∧ why ≠ 5 then s.chgGoto 1 why
      else if n = 2 ∧ s.rvf 0x04 2 4 * (s.rvf 0x0C 0 16 + 50) ≤ pack then s.chgGoto 3 0
      else if n = 3 ∧ s.rvVcv ≤ pack then s.chgGoto 4 0
      else s)

def execChargeTermination (s : State) : Outcome := s.on fun s =>
  if s.rv.chg ≠ 4 then .next s else .next (s.chgGoto (if s.rvf 0x14 16 7 = 0 then 6 else 5) 0)

def execTopoffEnd (s : State) : Outcome := s.on fun s => if s.rv.chg ≠ 5 then .next s else .next (s.chgGoto 6 0)

/-- R340: a new cycle from DONE. Log 118 (DEDUCED, unsafe). -/
def execRechargeStart (x : RvMeas) (s : State) : Outcome := s.on fun s =>
  let s := s.modRv (fun r => { r with meas := x })
  if s.rv.chg ≠ 6 ∨ s.rvf 0x04 2 4 * s.rvf 0x08 16 16 ≤ x.pack.toNat then .next s
  else
    let why := s.chgReason x
    .next (s.chgGoto (if why = 0 then s.chgPhase x.pack.toNat else 1) why)

/-- CHG_TIMEOUT (R345): latched, CHG_EN cleared, DISABLED. Log 119 (DESIGN CHOICE, unsafe). -/
def Dev.chgTimeout (s : Dev) : Dev := (s.rvFault 0).chgOff

/-- Surplus absorption ends; a deferred pause runs while the charger still charges. -/
def Dev.surplusOff (s : Dev) : Dev :=
  s.modRv (fun r => { r with
    surplus := false, pauseDue := false, pause := r.pause || (r.pauseDue && decide (2 ≤ r.chg ∧ r.chg ≤ 5)) })

/-- R345: one step of 100 ms; safe values act from here on (R356), and with them surplus absorption ends. `below`: the held current is below half of I_set. -/
def execSafetyTimerStep (inReg thReg below : Bool) (s : State) : Outcome := s.on fun s =>
  let on := decide (3 ≤ s.rv.chg ∧ s.rv.chg ≤ 5)
  let half := on && (inReg || thReg) && below
  let d := if s.rv.pause then 0 else if half then 50 else 100
  let s := s.modRv (fun r => { r with
    inReg := on && inReg, thReg := on && thReg, half := half, safeActs := r.safeActs || r.safe
    preMs := if r.chg = 2 then r.preMs + d else r.preMs
    chgMs := if r.chg = 3 ∨ r.chg = 4 then r.chgMs + d else r.chgMs })
  let s := if s.rv.safeActs && s.rv.surplus then s.surplusOff else s
  .next (if (s.rv.chg = 2 ∧ d ≠ 0 ∧ s.rvf 0x18 0 8 * 60000 ≤ s.rv.preMs) ∨
            ((s.rv.chg = 3 ∨ s.rv.chg = 4) ∧ d ≠ 0 ∧ s.rvf 0x18 8 12 * 60000 ≤ s.rv.chgMs) then s.chgTimeout else s)

/-- R342: a pause starts while the charger charges with TRACK_EN, or is deferred by surplus absorption.
Log 115 (DEDUCED, unsafe). -/
def execOperatingPointPause (s : State) : Outcome := s.on fun s =>
  if !s.rb (RegMap.rv 0) 2 ∨ s.rv.chg < 2 ∨ s.rv.chg = 6 ∨ s.rv.pause then .next s
  else .next (s.modRv (fun r => if r.surplus then { r with pauseDue := true } else { r with pause := true }))

/-- TRACK_K as it acts (R356). -/
def Dev.trackK (s : Dev) : Nat := if s.rv.safeActs then 80 else s.rvf 0x20 19 7

/-- R342: V_OC and V_REG. -/
def execPauseEnd (voc : BitVec 16) (s : State) : Outcome := s.on fun s =>
  if !s.rv.pause then .next s
  else .next (s.modRv (fun r => { r with pause := false, voc := voc.toNat, vReg := s.trackK * voc.toNat / 100 }))

/-- R343: surplus absorption, with SURPLUS_EN unless the safe values act. Log 120 (DEDUCED, unsafe). -/
def execSurplusStart (s : State) : Outcome := s.on fun s =>
  if !s.rb (RegMap.rv 0) 1 ∨ s.rv.safeActs ∨ s.rvf 0x24 0 16 = 65535 then .next s
  else .next (s.modRv (fun r => { r with surplus := true }))

def execSurplusEnd (s : State) : Outcome := s.on fun s => if s.rv.surplus then .next s.surplusOff else .next s

/-! ### Pack temperature (R346) -/

def Dev.rvPoint (s : Dev) (m : Nat) : Nat × Int := (s.rvf (0x80 + 4 * m) 0 16, Bits.sext 16 (s.rvf (0x80 + 4 * m) 16 16))

def Dev.rvSearch (s : Dev) (q : Nat) : Nat → Nat → Option Int
  | 0, _ => none
  | k + 1, m =>
    let b := s.rvPoint (m + 1)
    if b.1 ≤ q then some (Aux.between (s.rvPoint m) b q) else s.rvSearch q k (m + 1)

/-- The temperature of a ratio, 1/64 degC; none outside the table. -/
def Dev.rvTemp (s : Dev) (q : Nat) : Option Int := if (s.rvPoint 0).1 < q then none else s.rvSearch q 15 0

/-- The number of zone boundaries that lie at or below a temperature, each lowered by `h` degC; HOT begins above T_HOT.
Log 117 (DEDUCED, unsafe). -/
def Dev.zoneAt (s : Dev) (t : Int) (h : Int) : Nat :=
  let b := fun (i : Nat) => (Bits.sext 8 (s.rvf 0x28 (8 * i) 8) - h) * 64
  if b 3 < t then 4 else if b 2 ≤ t then 3 else if b 1 ≤ t then 2 else if b 0 ≤ t then 1 else 0

/-- R346: a boundary is passed upwards where it stands and downwards 2 degC below. -/
def execNtcZoneChange (ratio : BitVec 16) (s : State) : Outcome := s.on fun s =>
  match s.rvTemp ratio.toNat with
  | none => .next ((s.modRv (fun r => { r with ntcBad := true, zone := 4 })).rvLive 3 true |>.chgWait 2)
  | some t =>
    let up := s.zoneAt t 0
    let down := s.zoneAt t 2
    let zone := if s.rv.ntcBad then up else if s.rv.zone < up then up else if down < s.rv.zone then down else s.rv.zone
    let s := (s.modRv (fun r => { r with
      ntcBad := false, zone := zone, meas := { r.meas with t := BitVec.ofInt 16 t } })).rvLive 3 false
    .next (if zone = 0 ∨ zone = 4 then s.chgWait 2 else s)

/-! ### The power path (R347 to R351) -/

/-- Trigger codes of EV_HANDOVER (Table 15-7). -/
def Rv.trigger : HandTrigger → Nat
  | .loss => 1 | .reverse => 2 | .rail => 3

/-- R348. -/
def execHandover (trig : HandTrigger) (busMv : BitVec 16) (s : State) : Outcome := s.on fun s =>
  if s.rv.path ≠ 0 ∧ s.rv.path ≠ 4 then .next s
  else
    let s := s.modRv (fun r => { r with
      path := 1, inOn := false, dioArmed := true, present := r.present && decide (trig ≠ .loss)
      handovers := Bits.satAdd 65535 r.handovers 1, hoTime := s.tbTime, hoTrig := (Rv.trigger trig), hoBus := busMv.toNat
      episode := 0, stopDone := false })
    .next ((s.chgWait 1).rvEvent 0x141 true [BitVec.ofNat 32 (Rv.trigger trig), BitVec.ofNat 32 busMv.toNat])

/-- R349. -/
def execHandoverComplete (s : State) : Outcome := s.on fun s =>
  if s.rv.path ≠ 1 then .next s
  else
    let s := s.modRv (fun r => { r with path := if r.present then 3 else 2, dioOn := true })
    .next (s.rvEvent 0x141 false [BitVec.ofNat 32 s.rv.hoTrig, BitVec.ofNat 32 s.rv.hoBus])

/-- R347, R350: qualification starts in RESERVE; in HANDOVER the presence counts from its completion. -/
def execSourcePresent (s : State) : Outcome := s.on fun s =>
  .next (s.modRv (fun r => { r with present := true, path := if r.path = 2 then 3 else r.path }))

/-- EV_HANDOVER_BOUNCE with the bounces since the previous one. -/
def Dev.bounceEvent (s : Dev) : Dev :=
  let n := s.rv.fresh
  ((s.modRv (fun r => { r with fresh := 0, bounceHold := true })).raise
    { stream := 0x8A, code := 0x143, payload := Bits.words2 s.rv.lastBounce ++ [BitVec.ofNat 32 (n % 65536)] }).irqAll 36

/-- R350. -/
def execBounce (s : State) : Outcome := s.on fun s =>
  if !s.rv.present ∨ s.rv.path = 0 ∨ s.rv.path = 4 then .next s
  else
    let s := s.modRv (fun r => { r with
      present := false, path := if r.path = 3 then 2 else r.path, bounces := Bits.satAdd 65535 r.bounces 1
      episode := Bits.satAdd 65535 r.episode 1, fresh := r.fresh + 1, lastBounce := s.tbTime })
    .next (if s.rv.bounceHold then s else s.bounceEvent)

def execEvHandoverBounceHoldoffExpiry (s : State) : Outcome := s.on fun s =>
  if s.rv.fresh = 0 then .next (s.modRv (fun r => { r with bounceHold := false })) else .next s.bounceEvent

/-- R351. -/
def execHandback (s : State) : Outcome := s.on fun s =>
  if s.rv.path ≠ 3 ∨ !s.rv.present then .next s else .next (s.modRv (fun r => { r with path := 4, inOn := true }))

def execIdealDiodeOff (s : State) : Outcome := s.on fun s =>
  if s.rv.path ≠ 4 then .next s else .next (s.modRv (fun r => { r with dioOn := false }))

def execHandbackComplete (s : State) : Outcome := s.on fun s =>
  if s.rv.path ≠ 4 then .next s
  else
    let s := s.modRv (fun r => { r with path := 0, dioArmed := false, dioOn := false })
    .next (s.rvEvent 0x142 false (Bits.words2 s.rv.hoTime ++ [BitVec.ofNat 32 s.rv.episode]))

/-! ### Watchdog (R356) -/

def Dev.rvKick (s : Dev) : Dev := (s.modRv (fun r => { r with safe := false })).rvLive 8 false

def execRvWdKick (s : State) : Outcome := s.on fun s => .next s.rvKick

def execReserveWdExpiry (s : State) : Outcome := s.on fun s =>
  if s.rvf 0x38 0 8 = 0 then .next s else .next ((s.modRv (fun r => { r with safe := true })).rvLive 8 true)

/-- R356: the first write after chip reset. -/
def Dev.rvSafe (s : Dev) (v : Word) : Dev :=
  if s.rv.safeWritten then s.cfgIgnored (RegMap.rv 0x34)
  else (s.setReg (RegMap.rv 0x34) (v &&& 0x03FFFFFF)).modRv (fun r => { r with safeWritten := true })

def execRvSafeWrite (v : Word) (s : State) : Outcome := s.on fun s => .next (s.rvSafe v)

/-! ### Registers and commands (Tables 15-6 and 15-8) -/

def Dev.rvStat (s : Dev) : Word :=
  let r := s.rv
  let b := Bits.b2n
  BitVec.ofNat 32 (r.chg + r.path * 8 + b r.surplus * 2 ^ 6 + b r.inReg * 2 ^ 7 + b r.thReg * 2 ^ 8 + b r.half * 2 ^ 9 +
    r.zone * 2 ^ 10 + b r.safe * 2 ^ 13 + b r.stopRan * 2 ^ 14 + b r.shipArmed * 2 ^ 15 + r.cause * 2 ^ 16 + r.waitReason * 2 ^ 18)

/-- RV_MEAS. -/
def Dev.rvMeas (s : Dev) : List Word :=
  let m := s.rv.meas
  let w := BitVec.ofNat 32
  [w (m.bus.toNat + m.vsys.toNat * 65536), w (m.pack.toNat + m.ma.toNat % 65536 * 65536),
   w (m.ma.toNat / 65536 + m.t.toNat * 65536), w s.rv.voc]

def Dev.rvTimers (s : Dev) : Word := BitVec.ofNat 32 (min 65535 (s.rv.preMs / 1000) + min 65535 (s.rv.chgMs / 1000) * 65536)

/-- A read of RV_HO: both counters clear. -/
def Dev.rvHoRead (s : Dev) : Word × Dev :=
  (BitVec.ofNat 32 (s.rv.handovers + s.rv.bounces * 65536), s.modRv (fun r => { r with handovers := 0, bounces := 0 }))

/-- A read of word `o` of the reserve page that is not in the register bank. -/
def Dev.rvRead (s : Dev) (o : Nat) : Word × Dev :=
  if o = 0x44 then s.rvFaultRead else if o = 0x4C then s.rvHoRead
  else (match o with
    | 0x3C => 0 | 0x40 => s.rvStat | 0x48 => BitVec.ofNat 32 s.rv.live
    | 0x50 => BitVec.ofNat 32 s.rv.hoTime | 0x54 => BitVec.ofNat 32 (s.rv.hoTime >>> 32)
    | 0x60 => s.rvMeas.getD 0 0 | 0x64 => s.rvMeas.getD 1 0 | 0x68 => s.rvMeas.getD 2 0 | 0x6C => s.rvMeas.getD 3 0
    | 0x70 => s.rvTimers | _ => s.reg (RegMap.rv o), s)

/-- A write of RV_CTRL. Log 122 (DEDUCED, unsafe). -/
def Dev.rvCtrl (s : Dev) (v : Word) : Dev :=
  let s := s.putReg (RegMap.rv 0) 1 2 (Bits.fld v 1 2)
  let s := if Bits.bit v 1 || !s.rv.surplus then s else s.surplusOff
  if Bits.bit v 0 then s.chgOn else s.chgOff

/-- R357: the buffer of RSV_STATUS. Log 121 (DEDUCED, unsafe). -/
def execRsvStatus (d : Desc) (bufOk : Bool) (s : State) : Outcome := s.on fun s =>
  s.cmd d 0x0600 [0] [Cmd.all, Cmd.all] (fun s =>
    if d.par64 0 % 64 ≠ 0 then s.fail d 0x0600 St.badParam
    else
      let stat := s.rvStat
      let live := BitVec.ofNat 32 s.rv.live
      let (fault, s) := s.rvFaultRead
      let (ho, s) := s.rvHoRead
      s.bufReply d 0x0600 (d.par64 0) ([stat, fault, live, ho] ++ Bits.words2 s.rv.hoTime ++ s.rvMeas ++ [s.rvTimers] ++
        List.replicate 5 0) bufOk 0 0)

def execRsvCharge (d : Desc) (s : State) : Outcome := s.on fun s =>
  s.cmd d 0x0601 [0] [1] (fun s =>
    if !Bits.nbit (d.par 0) 0 then s.chgOff.reply d 0x0601 0 0 0
    else if !s.rvLegal then s.fail d 0x0601 St.badParam
    else if Bits.nbit s.rv.latched 0 then s.fail d 0x0601 St.badState
    else s.chgOn.reply d 0x0601 0 0 0)

def execRsvKick (d : Desc) (s : State) : Outcome := s.on fun s => s.cmd d 0x0602 [0] [] (fun s => s.rvKick.reply d 0x0602 0 0 0)

/-- R354. -/
def execRsvShip (d : Desc) (s : State) : Outcome := s.on fun s =>
  s.cmd d 0x0603 [0] [0x7F] (fun s =>
    let arm := Bits.nbit (d.par 0) 0
    let n := d.pf 0 1 6
    if arm ∧ (n < 1 ∨ 60 < n) then s.fail d 0x0603 St.badParam
    else
      let s := s.modRv (fun r => { r with shipArmed := arm, shipDelay := if arm then n else r.shipDelay })
      (s.rvEvent 0x146 false [if arm then 1 else 2]).reply d 0x0603 0 0 0)

/-- R352: the table read from host memory; none when the read fails. -/
def execRsvStopLoad (d : Desc) (table : Option (List LockEntry)) (s : State) : Outcome := s.on fun s =>
  s.cmd d 0x0604 [0] [Cmd.all, Cmd.all, 0x3F] (fun s =>
    let n := d.pf 2 0 6
    if 32 < n ∨ d.par64 0 % 64 ≠ 0 then s.fail d 0x0604 St.badParam
    else match table with
      | none => s.fail d 0x0604 St.hostError
      | some l => (s.modRv (fun r => { r with stop := l.take n })).reply d 0x0604 0 0 0)

end Sys2Proof.Machine
end

