-- ==== Sys2Proof/Machine/Towpath.lean ====
section
/-! DEFINITION. The towpaths (spec/16 R360 to R379): enable and recovery, prepared slots, controller transactions, target
operation and the towpath commands. TOWPATH_SCAN is with the long operations. -/

namespace Sys2Proof.Machine

def Dev.tow (s : Dev) (t : Nat) : Towpath := Sparse.get (fun _ => {}) s.tows t
def Dev.setTow (s : Dev) (t : Nat) (v : Towpath) : Dev := { s with tows := Sparse.set (fun _ => {}) s.tows t v }
def Dev.modTow (s : Dev) (t : Nat) (f : Towpath → Towpath) : Dev := s.setTow t (f (s.tow t))

/-- The island of region `g` is out of reset, awake, and its watchdog has not acted. -/
def Dev.islandClk (s : Dev) (g : Nat) : Bool :=
  let r := s.region g
  r.islandRun && !r.asleep && !r.clkFail

def RegMap.twCfg (t : Nat) : Nat := RegMap.tw t 0x00
def RegMap.slotA (t n : Nat) : Nat := RegMap.tw t (0x80 + 8 * n)
def RegMap.slotB (t n : Nat) : Nat := RegMap.tw t (0x84 + 8 * n)

def Dev.twEn (s : Dev) (t : Nat) : Bool := s.rb (RegMap.twCfg t) 0

def Towpath.stat (w : Towpath) (n : Nat) : SlotStat := Sparse.get (fun _ => {}) w.stats n
def Towpath.setStat (w : Towpath) (n : Nat) (v : SlotStat) : Towpath := { w with stats := Sparse.set (fun _ => {}) w.stats n v }
/-- A slot is queued or running (R367). -/
def Towpath.queued (w : Towpath) (n : Nat) : Bool := w.queue.any (fun q => q.1 == n)
def Towpath.running (w : Towpath) (n : Nat) : Bool :=
  match w.run with
  | some q => q.1 == n
  | none => false
def Towpath.inUse (w : Towpath) (n : Nat) : Bool := w.queued n || w.running n

/-- TOWPATH_x of every barge of the region (R378). -/
def Dev.twIrq (s : Dev) (t : Nat) : Dev := if s.straitUp (t / 2) then s.irqRegion (t / 2) (32 + t % 2) else s

/-- A towpath event: stream 0x8E, OBJECT t (R378). -/
def Dev.twEvent (s : Dev) (t code : Nat) (flag : Bool) (payload : List Word) : Dev :=
  s.raiseIsland (t / 2) false
    { stream := 0x8E, code := code, obj := t, flag := flag, payload := Bits.words2 (s.rtime (t / 2)) ++ payload }

/-- EV_TOWPATH_BUS with its cause. Log 129 (DEDUCED, unsafe). -/
def Dev.twBus (s : Dev) (t cause : Nat) : Dev := (s.twEvent t 0x1C2 false [BitVec.ofNat 32 cause]).twIrq t

/-! ### Recovery (R366) -/

/-- The towpath samples SDA: idle when it is high, else recovery. -/
def Dev.twSample (s : Dev) (t : Nat) (sda : Bool) : Dev :=
  s.modTow t (fun w => { w with idle := sda, recovering := !sda })

/-- A write of TW_CFG.EN = 1. -/
def Dev.twEnable (s : Dev) (t : Nat) (sda : Bool) : Dev :=
  if s.twEn t then s else (s.putReg (RegMap.twCfg t) 0 1 1).twSample t sda

def execTowpathEnable (t : TowIx) (sda : Bool) (s : State) : Outcome := s.on fun s => .next (s.twEnable t sda)

/-- TOWPATH_STUCK of the region ends when neither of its towpaths is stuck (Table 17-2). -/
def Dev.stuckCheck (s : Dev) (g : Nat) : Dev :=
  if (s.tow (2 * g)).stuck || (s.tow (2 * g + 1)).stuck then s else s.unoccur g 79

/-- The outcome of the pulses. -/
def Dev.twRecovered (s : Dev) (t : Nat) (ok : Bool) : Dev :=
  if ok then (s.modTow t (fun w => { w with recovering := false, idle := true })).twBus t 2
  else
    let s := s.modTow t (fun w => { w with recovering := false, idle := false, stuck := true, oos := true })
    (s.twBus t 1).occur (t / 2) 79 t

def execRecoveryEnd (t : TowIx) (ok : Bool) (s : State) : Outcome := s.on fun s =>
  if (s.tow t).recovering then .next (s.twRecovered t ok) else .next s

/-- CLR_STUCK: both flags clear and the recovery runs again. -/
def Dev.twClear (s : Dev) (t : Nat) (sda : Bool) : Dev :=
  let s := (s.modTow t (fun w => { w with stuck := false, oos := false })).stuckCheck (t / 2)
  if s.twEn t then s.twSample t sda else s

def execClrStuck (t : TowIx) (sda : Bool) (s : State) : Outcome := s.on fun s => .next (s.twClear t sda)

/-! ### Slots (R367, R368) -/

/-- A run of slot `n` ends with a result; EV_TOWPATH_DONE with EV_EN (Table 16-4). -/
def Dev.twEnd (s : Dev) (t n result : Nat) (byLock : Bool) : Dev :=
  let w := s.tow t
  let x := { w.stat n with result := result, done := true, byLock := byLock }
  let s := s.setTow t { w.setStat n x with
    aborting := w.aborting && !w.running n, run := if w.running n then none else w.run }
  if s.rb (RegMap.slotA t n) 13 then
    (s.twEvent t 0x1C0 byLock [BitVec.ofNat 32 (n + result * 2 ^ 4 + x.failByte * 2 ^ 8 + x.failBit * 2 ^ 16 +
      x.tries % 16 * 2 ^ 19 + x.xfer * 2 ^ 23)]).twIrq t
  else s

/-- A start request of slot `n` (R368): merged, ended at once, or queued. -/
def Dev.twStart (s : Dev) (t n : Nat) (byLock : Bool) : Dev :=
  let w := s.tow t
  if w.inUse n then s.setTow t { w with merged := true }
  else
    let s := s.setTow t (w.setStat n { w.stat n with tries := 0, xfer := 0 })
    if w.oos then s.twEnd t n 8 byLock
    else if 10 ≤ s.rf (RegMap.slotA t n) 8 4 then s.twEnd t n 9 byLock
    else s.modTow t (fun w => { w with queue := w.queue ++ [(n, byLock)] })

/-- A TOWPATH_START lock. Log 128 (DEDUCED, unsafe). -/
def Dev.towStart (s : Dev) (t n : Nat) (byLock : Bool) : Bool × Dev := (true, s.twStart t (n % 8) byLock)

/-- START bits, in ascending slot order. -/
def Dev.twStarts (s : Dev) (t : Nat) (mask : Byte) : Dev :=
  s.forEach (Bits.ones 8 mask.toNat) (fun s n => s.twStart t n false)

def execSlotStart (t : TowIx) (mask : Byte) (s : State) : Outcome := s.on fun s => .next (s.twStarts t mask)

/-- ABORT: queued slots end ABORTED; the running slot ends at the next byte boundary (Table 16-8). -/
def Dev.twAbort (s : Dev) (t : Nat) : Dev :=
  let q := (s.tow t).queue
  let s := s.modTow t (fun w => { w with queue := [], aborting := w.run.isSome })
  s.forEach q (fun s x => s.twEnd t x.1 7 x.2)

def execTowpathAbort (t : TowIx) (s : State) : Outcome := s.on fun s => .next (s.twAbort t)

/-- EN written 0: as ABORT, then both lines are released (Table 16-8). -/
def Dev.twDisable (s : Dev) (t : Nat) : Dev :=
  ((s.twAbort t).putReg (RegMap.twCfg t) 0 1 0).modTow t (fun w => { w with idle := false, recovering := false })

def Dev.tgtPop (s : Dev) (t : Nat) : Dev := s.modTow t (fun w => { w with tgt := w.tgt.drop 1 })

def execTgtPop (t : TowIx) (s : State) : Outcome := s.on fun s => .next (s.tgtPop t)

/-- R368: the queue head starts on the bus. TRIES of a sixteenth start is free: its field has four bits. -/
def execTransactionStart (t : TowIx) (s : State) : Outcome := s.on fun s =>
  let w := s.tow t
  match w.run, w.queue with
  | none, (n, l) :: rest =>
    if !s.twEn t || w.oos || w.recovering || !s.islandClk (t / 2) then .next s
    else
      let x := w.stat n
      let (k, s) := if x.tries = 15 then (let (k, s) := s.drawNat; (16 + k % 16, s)) else (x.tries + 1, s)
      .next (s.setTow t { w.setStat n { x with tries := k, byLock := l } with
        run := some (n, l), queue := rest, last := n, idle := false })
  | _, _ => .next s

/-! ### Transactions (R369, R370) -/

/-- One bit of CRC-8, x^8 + x^2 + x + 1. -/
def Pec.shift (c : Nat) : Nat := if 128 ≤ c then ((c * 2) ^^^ 7) % 256 else c * 2

/-- PEC over a list of bytes (R369). -/
def Pec.crc (l : List Nat) : Nat :=
  l.foldl (fun c b => (List.range 8).foldl (fun c _ => Pec.shift c) (c ^^^ b)) 0

/-- The bytes on the bus, in order, without the PEC (Table 16-5), and the index of the second address byte. -/
def Tow.sequence (proto addr cmd : Nat) (wr rx : List Nat) : List Nat × Option Nat :=
  let aw := 2 * addr
  let ar := 2 * addr + 1
  match proto with
  | 0 => ([aw], none)
  | 1 => ([ar], none)
  | 2 => ([aw, cmd], none)
  | 3 => ([ar] ++ rx, none)
  | 4 => ([aw, cmd] ++ wr, none)
  | 5 | 7 => ([aw, cmd, ar] ++ rx, some 2)
  | 6 => ([aw, cmd, wr.length] ++ wr, none)
  | 8 => ([aw, cmd] ++ wr.take 2 ++ [ar] ++ rx, some (2 + (wr.take 2).length))
  | _ => ([aw, cmd, wr.length] ++ wr ++ [ar] ++ rx, some (3 + wr.length))

/-- The protocol returns a count before its data, or data of a fixed number (Table 16-5). -/
def Tow.counted (proto : Nat) : Bool := proto == 7 || proto == 9
def Tow.fixed (proto rlen : Nat) : Nat := match proto with | 3 => 1 | 5 => rlen | 8 => 2 | _ => 0

/-- Bytes `[0, len)` of the area of slot `n`. -/
def Towpath.area (w : Towpath) (n len : Nat) : List Byte :=
  (List.range len).map (fun i => Sparse.get (fun _ => 0) w.buf (256 * n + i))

/-- Store bytes in the area of slot `n` from an offset on; none beyond offset 255. -/
def Towpath.fill (w : Towpath) (n off : Nat) (l : List Byte) : Towpath :=
  let put := fun (b : Sparse Byte) (i : Nat) => Sparse.set (fun _ => 0) b (256 * n + off + i) (l.getD i 0)
  { w with buf := (List.range (min l.length (256 - off))).foldl put w.buf }

/-- The data bytes of a read, stored from offset WLEN; `none` for a count that is refused (R370). -/
def Dev.towData (s : Dev) (t n : Nat) (rx : List Byte) : Option (List Byte) :=
  let proto := s.rf (RegMap.slotA t n) 8 4
  let wlen := s.rf (RegMap.slotB t n) 0 8
  let rlen := s.rf (RegMap.slotB t n) 8 8
  if Tow.counted proto then
    match rx with
    | [] => some []
    | c :: l => if c.toNat = 0 ∨ rlen < c.toNat ∨ 256 < wlen + c.toNat then none else some (l.take c.toNat)
  else some (rx.take (Tow.fixed proto rlen))

/-- What a run read is in the buffer. Log 126 (DEDUCED, unsafe). -/
def Dev.towStore (s : Dev) (t n : Nat) (l : List Byte) : Dev :=
  s.modTow t (fun w => (w.fill n (s.rf (RegMap.slotB t n) 0 8) l).setStat n { w.stat n with xfer := l.length % 256 })

def Dev.towFailAt (s : Dev) (t n byte bit : Nat) : Dev :=
  s.modTow t (fun w => w.setStat n { w.stat n with failByte := byte % 256, failBit := bit })

/-- A controller transaction has ended with STOP: result, data and failure position. -/
def Dev.towResult (s : Dev) (t n : Nat) (l : Bool) (x : TowEnd) : Dev :=
  let a := RegMap.slotA t n
  let w := s.tow t
  let wr := (w.area n (s.rf (RegMap.slotB t n) 0 8)).map BitVec.toNat
  let sq := fun (rx : List Byte) => Tow.sequence (s.rf a 8 4) (s.rf a 0 7) (s.rf a 24 8) wr (rx.map BitVec.toNat)
  match x with
  | .aborted rx => (s.towStore t n ((s.towData t n rx).getD [])).twEnd t n 7 l
  | .nack byte =>
    let addr := byte = 0 || (sq []).2 == some byte.toNat
    (s.towFailAt t n byte.toNat 0).twEnd t n (if addr then 1 else 2) l
  | .done rx pec =>
    match s.towData t n rx with
    | none => s.twEnd t n 6 l
    | some data =>
      let s := s.towStore t n data
      let reads := Tow.counted (s.rf a 8 4) || decide (0 < Tow.fixed (s.rf a 8 4) (s.rf (RegMap.slotB t n) 8 8))
      let head := if Tow.counted (s.rf a 8 4) then rx.take 1 else []
      let bytes := (sq (head ++ data)).1
      if s.rb a 12 ∧ reads ∧ pec.map BitVec.toNat ≠ some (Pec.crc bytes) then (s.towFailAt t n bytes.length 0).twEnd t n 4 l
      else s.twEnd t n 0 l

/-- R370. An ABORT that waits ends the run at the byte boundary. -/
def execTransactionEnd (t : TowIx) (x : TowEnd) (s : State) : Outcome := s.on fun s =>
  match (s.tow t).run with
  | none => .next s
  | some (n, l) =>
    let early := match x with | .aborted _ => !(s.tow t).aborting | _ => false
    if early then .next s
    else .next ((s.towResult t n l x).modTow t (fun w => { w with idle := s.twEn t }))

/-- R371: the slot starts again after the bus is next idle, up to RETRY times. Log 125 (DEDUCED, unsafe). -/
def execArbLost (t : TowIx) (byte : Byte) (bit : Fin 8) (s : State) : Outcome := s.on fun s =>
  match (s.tow t).run with
  | none => .next s
  | some (n, l) =>
    let s := (s.towFailAt t n byte.toNat bit).modTow t (fun w => { w with arbLost := Bits.satAdd 255 w.arbLost 1 })
    let w := s.tow t
    if w.aborting then .next (s.twEnd t n 7 l)
    else if (w.stat n).tries ≤ s.rf (RegMap.slotA t n) 14 4 then
      .next (s.setTow t { w with run := none, queue := (n, l) :: w.queue })
    else .next (s.twEnd t n 3 l)

/-- R365: the transaction is abandoned; as controller SDA is sampled after STOP (R366). -/
def execSclLowTimeout (t : TowIx) (rx : List Byte) (sda : Bool) (s : State) : Outcome := s.on fun s =>
  if !s.islandClk (t / 2) then .next s
  else
    let s := (s.modTow t (fun w => { w with sclLow := true })).twBus t 4
    match (s.tow t).run with
    | none => .next s
    | some (n, l) =>
      let s := (s.towStore t n ((s.towData t n rx).getD [])).twEnd t n 5 l
      if s.twEn t then .next (s.twSample t sda) else .next s

/-- R365, R366: recovery follows while the towpath holds no transaction. -/
def execSdaLowTimeout (t : TowIx) (s : State) : Outcome := s.on fun s =>
  if !s.islandClk (t / 2) then .next s
  else
    let s := (s.modTow t (fun w => { w with sdaLow := true })).twBus t 3
    let w := s.tow t
    if s.twEn t ∧ w.run.isNone ∧ !w.oos ∧ !w.recovering then .next (s.twSample t false) else .next s

/-! ### Target operation (R372 to R375) -/

/-- The towpath answers as a target. -/
def Dev.towAnswers (s : Dev) (t : Nat) : Bool := s.twEn t && !(s.tow t).oos && s.islandClk (t / 2)

/-- R373. SEQ is never 0: it counts on from 65535 to 1. Log 131 (DEDUCED, unsafe). -/
def execHostNotify (t : TowIx) (addr lo hi : Byte) (s : State) : Outcome := s.on fun s =>
  let w := s.tow t
  if !s.towAnswers t || !s.rb (RegMap.twCfg t) 17 then .next s
  else if 16 ≤ w.notify.length then .next (s.setTow t { w with notifyNacked := true })
  else
    let n := if 65535 ≤ w.notifySeq then 1 else w.notifySeq + 1
    let src := addr.toNat / 2
    let data := lo.toNat + hi.toNat * 256
    let q : Quad := BitVec.ofNat 128 (s.rtime (t / 2) + src * 2 ^ 64 + data * 2 ^ 72 + n * 2 ^ 96)
    let s := s.setTow t { w with notify := w.notify ++ [q], notifySeq := n, idle := w.run.isNone }
    .next ((s.twEvent t 0x1C1 false [BitVec.ofNat 32 (src + data * 256), BitVec.ofNat 32 n]).twIrq t)

/-- TADDR is a legal target address (R372). -/
def Tow.legalTarget (a : Nat) : Bool := decide (9 ≤ a) && decide (a ≤ 0x77) && a != 0x0C && a != 0x61

/-- R374: a Block Write to TADDR. With TPEC = 0 a byte after the data is refused and the write stands.
Log 130 (DEDUCED, unsafe). -/
def execTargetWrite (t : TowIx) (cmd : Byte) (data : List Byte) (pec : Option Byte) (s : State) : Outcome := s.on fun s =>
  let w := s.tow t
  let cfg := RegMap.twCfg t
  let a := s.rf cfg 20 7
  let tpec := s.rb cfg 18
  let crc := Pec.crc ([2 * a, cmd.toNat, data.length] ++ data.map BitVec.toNat)
  if !s.towAnswers t || !s.rb cfg 16 || !Tow.legalTarget a then .next s
  else if 4 ≤ w.tgt.length then .next (s.setTow t { w with tgtNacked := true })
  else if data.length < 1 ∨ 32 < data.length ∨ (tpec ∧ pec.map BitVec.toNat ≠ some crc) then .next s
  else
    let r : TgtRec := { time := s.rtime (t / 2), cmd := cmd.toNat, pec := tpec, data := data }
    let s := s.setTow t { w with tgt := w.tgt ++ [r], idle := w.run.isNone }
    .next ((s.twEvent t 0x1C3 false [BitVec.ofNat 32 (cmd.toNat + data.length * 256)]).twIrq t)

/-- A 128-bit load of TW_NOTIFY: the oldest record, or zeros. -/
def Dev.popNotify (s : Dev) (t : Nat) : List Word × Dev :=
  match (s.tow t).notify with
  | [] => ([0, 0, 0, 0], s)
  | q :: l => (Bits.words4 q.toNat, s.modTow t (fun w => { w with notify := l }))

def execNotifyRead (t : TowIx) (s : State) : Outcome := s.on fun s =>
  let (l, s) := s.popNotify t
  .next (s.emit (.readData l))

/-- Bytes as little-endian words. -/
def Bytes.words : List Byte → List Word
  | [] => []
  | [a] => [BitVec.ofNat 32 a.toNat]
  | [a, b] => [BitVec.ofNat 32 (a.toNat + b.toNat * 256)]
  | [a, b, c] => [BitVec.ofNat 32 (a.toNat + b.toNat * 256 + c.toNat * 65536)]
  | a :: b :: c :: d :: l => BitVec.ofNat 32 (a.toNat + b.toNat * 256 + c.toNat * 65536 + d.toNat * 2 ^ 24) :: Bytes.words l

/-- A target record as twelve words (R374). -/
def TgtRec.words (r : TgtRec) : List Word :=
  Bits.words2 r.time ++ [BitVec.ofNat 32 (r.cmd + r.data.length * 256 + Bits.b2n r.pec * 65536), 0] ++
    Bytes.words ((r.data ++ List.replicate 32 0).take 32)

/-! ### Registers -/

/-- TW_SLOT_STAT (Table 16-6). -/
def Dev.slotStat (s : Dev) (t n : Nat) : Word :=
  let w := s.tow t
  let x := w.stat n
  let b := Bits.b2n
  BitVec.ofNat 32 (x.result + b (w.queued n) * 2 ^ 4 + b (w.running n) * 2 ^ 5 + b x.done * 2 ^ 6 + b x.byLock * 2 ^ 7 +
    x.xfer * 2 ^ 8 + x.failByte * 2 ^ 16 + x.failBit * 2 ^ 24 + x.tries % 16 * 2 ^ 27)

/-- TW_STAT (Table 16-10). -/
def Dev.towStat (s : Dev) (t : Nat) : Word :=
  let w := s.tow t
  let b := Bits.b2n
  BitVec.ofNat 32 (b w.idle + b w.run.isSome * 2 + w.last * 4 + b w.oos * 2 ^ 5 + b w.stuck * 2 ^ 6 + b w.sdaLow * 2 ^ 7 +
    b w.sclLow * 2 ^ 8 + b w.wakeFail * 2 ^ 9 + b w.merged * 2 ^ 10 + b w.notifyNacked * 2 ^ 11 + b w.tgtNacked * 2 ^ 12 +
    w.tgt.length * 2 ^ 13 + w.notify.length * 2 ^ 16 + w.arbLost * 2 ^ 24)

/-- A read of word `o` of a towpath's page. -/
def Dev.towRead (s : Dev) (t o : Nat) : Word × Dev :=
  let w := s.tow t
  if o = 0x04 then (0, s)
  else if o = 0x08 then (s.towStat t, s.modTow t (fun w => { w with arbLost := 0 }))
  else if 0x20 ≤ o ∧ o < 0x50 then
    ((match w.tgt with | [] => [] | r :: _ => r.words).getD ((o - 0x20) / 4) 0, s)
  else if 0xC0 ≤ o ∧ o < 0xE0 then (s.slotStat t ((o - 0xC0) / 4), s)
  else if 0x800 ≤ o then
    (BitVec.ofNat 32 (Mem.read 0 w.buf (o - 0x800) 4), s)
  else (s.reg (RegMap.tw t o), s)

/-! ### Commands (Table 16-12) -/

/-- Load a slot and its write data (R379): BUSY while it is queued or running. -/
def Dev.towLoad (s : Dev) (d : Desc) (op i n addr : Nat) (data : Option (List Byte)) (f : Dev → Dev) : Dev :=
  let t := d.tindex.toNat
  if addr % 64 ≠ 0 then s.fail d op St.badParam
  else if (s.tow t).inUse n then s.fail d op St.busy
  else if addr ≠ 0 ∧ data.isNone then s.fail d op St.hostError
  else
    let s := (s.setReg (RegMap.slotA t n) (BitVec.ofNat 32 (d.par i))).setReg (RegMap.slotB t n) (BitVec.ofNat 32 (d.par (i + 1)))
    let wlen := d.pf (i + 1) 0 8
    let s := if addr = 0 then s else s.modTow t (fun w => w.fill n 0 ((data.getD []).take wlen))
    f s

def Tow.maskA : Nat := 0xFF03FF7F

def execTowpathPrepare (d : Desc) (data : Option (List Byte)) (s : State) : Outcome := s.on fun s =>
  s.cmd d 0x0700 [5] [7, Tow.maskA, 0xFFFF, Cmd.all, Cmd.all] (fun s =>
    let n := d.pf 0 0 3
    if 5 < n then s.fail d 0x0700 St.badParam
    else s.towLoad d 0x0700 1 n (d.par64 3) data (fun s => s.reply d 0x0700 0 0 0))

def execTowpathXfer (d : Desc) (data : Option (List Byte)) (s : State) : Outcome := s.on fun s =>
  s.cmd d 0x0701 [5] [Tow.maskA, 0xFFFF, Cmd.all, Cmd.all] (fun s =>
    s.towLoad d 0x0701 0 6 (d.par64 2) data (fun s => (s.twStart d.tindex.toNat 6 false).reply d 0x0701 0 0 0))

def execTowpathSlotRead (d : Desc) (bufOk : Bool) (s : State) : Outcome := s.on fun s =>
  s.cmd d 0x0702 [5] [7, Cmd.all, Cmd.all] (fun s =>
    let t := d.tindex.toNat
    let n := d.pf 0 0 3
    if d.par64 1 % 64 ≠ 0 then s.fail d 0x0702 St.badParam
    else
      let st := s.slotStat t n
      let words := Bytes.words ((s.tow t).area n 256)
      let s := s.modTow t (fun w => w.setStat n { w.stat n with done := false })
      s.bufReply d 0x0702 (d.par64 1) words bufOk st.toNat 0)

def execTowpathNotifyRead (d : Desc) (bufOk : Bool) (s : State) : Outcome := s.on fun s =>
  s.cmd d 0x0703 [5] [Cmd.all, Cmd.all] (fun s =>
    let t := d.tindex.toNat
    let l := (s.tow t).notify
    if d.par64 0 % 64 ≠ 0 then s.fail d 0x0703 St.badParam
    else (s.modTow t (fun w => { w with notify := [] })).bufReply d 0x0703 (d.par64 0)
      (l.flatMap (fun q => Bits.words4 q.toNat) ++ List.replicate (4 * (16 - l.length)) 0) bufOk l.length 0)

def execTowpathTargetRead (d : Desc) (bufOk : Bool) (s : State) : Outcome := s.on fun s =>
  s.cmd d 0x0704 [5] [Cmd.all, Cmd.all] (fun s =>
    let t := d.tindex.toNat
    let l := (s.tow t).tgt
    if d.par64 0 % 64 ≠ 0 then s.fail d 0x0704 St.badParam
    else (s.modTow t (fun w => { w with tgt := [] })).bufReply d 0x0704 (d.par64 0)
      (l.flatMap TgtRec.words ++ List.replicate (12 * (4 - l.length)) 0) bufOk l.length 0)

/-- R366: as CLR_STUCK; completed when the recovery has ended. -/
def execTowpathRecover (d : Desc) (r : Recovery) (s : State) : Outcome := s.on fun s =>
  s.cmd d 0x0705 [5] [] (fun s =>
    let t := d.tindex.toNat
    let s := s.twClear t (r == .high)
    let s := if (s.tow t).recovering then s.twRecovered t (r == .released) else s
    s.reply d 0x0705 0 (Bits.b2n (s.tow t).idle) 0)

end Sys2Proof.Machine
end

