-- ==== Sys2Proof/Machine/Ports.lean ====
section
/-! DEFINITION. The management port and the supervisor port (spec/16 R381 to R385), and an address match with the clock of its
port stopped (R375). -/

namespace Sys2Proof.Machine

def Dev.modMg (s : Dev) (f : Mgmt → Mgmt) : Dev := { s with mg := f s.mg }
def Dev.modSv (s : Dev) (f : Supervisor → Supervisor) : Dev := { s with sv := f s.sv }

/-! ### Address match with the clock stopped (R375, R381) -/

/-- The address byte is acknowledged and SCL held low; the wake it asks for is its own row (WAKE). -/
def execTowpathWake (p : WakePort) (s : State) : Outcome := s.on fun s =>
  match p with
  | .towpath t =>
    if s.twEn t ∧ s.rb (RegMap.twCfg t) 19 ∧ (s.region (t / 2)).asleep ∧ !(s.tow t).oos then
      .next (s.modTow t (fun w => { w with stretch := true }))
    else .next s
  | .mgmt =>
    if s.rb RegMap.mgCfg 0 ∧ s.pwr.mode = 2 ∧ s.rb RegMap.pwrWakeEn 2 then .next (s.modMg (fun m => { m with stretch := true }))
    else .next s

/-- R375: SCL is released and the next byte is not acknowledged. -/
def execWakeFail (p : WakePort) (s : State) : Outcome := s.on fun s =>
  match p with
  | .towpath t =>
    if !(s.tow t).stretch then .next s
    else .next ((s.modTow t (fun w => { w with stretch := false, wakeFail := true })).twBus t 5)
  | .mgmt =>
    if !s.mg.stretch then .next s else .next (s.modMg (fun m => { m with stretch := false, wakeFail := true }))

/-! ### Status image (R381, Table 16-13) -/

/-- The bytes of a number, low byte first. -/
def Bytes.le (n v : Nat) : List Byte := (List.range n).map (fun i => BitVec.ofNat 8 (v >>> (8 * i)))

/-- A mask over the regions. -/
def Dev.regionMask (s : Dev) (f : Region → Bool) : Nat :=
  (List.range 8).foldl (fun a g => a + Bits.b2n (f (s.region g)) * 2 ^ g) 0

/-- Regions whose collector, or whose mirror at the chip, holds a real FATAL event. -/
def Dev.fatalRegions (s : Dev) : Nat :=
  (List.range 8).foldl (fun a g => a + Bits.b2n ((s.coll 8).fatalReal.getLsbD (8 + g) || (s.coll 8).fatalReal.getLsbD (24 + g)) * 2 ^ g) 0

/-- Byte 0 of MG_SUMMARY. -/
def Dev.summaryFlags (s : Dev) : Nat :=
  let b := Bits.b2n
  b s.err.asserted + b s.hp.hostLost * 2 + b ((s.coll 8).fatalReal.getLsbD 56) * 4 + b (decide (s.fatalRegions ≠ 0)) * 8 +
    b (decide (s.tb.state = .locked)) * 16 + b s.bz.frozen * 32

/-- The highest die temperature of region `g`, 1/64 degC; 0x8000 while it is autonomous. -/
def Dev.dieTemp (s : Dev) (g : Nat) : Nat :=
  if s.auto g then 0x8000
  else
    let t := fun (a : Nat) => Bits.sext 16 (Sparse.get (fun _ => {}) (s.aux g).res a).value
    Bits.ofInt 16 (max (max (t 16) (t 17)) (max (t 18) (t 19)))

/-- R381: the image is refreshed. Log 134 (DEDUCED, unsafe). -/
def execStatusImageRefresh (s : State) : Outcome := s.on fun s =>
  let seq := (s.mg.seq + 1) % 2 ^ 32
  let m := s.rv.meas
  .next (s.modMg (fun g => { g with
    seq := seq
    id := Bytes.le 2 0x9512 ++ [0xB0, 3, BitVec.ofNat 8 (Config.fwMinorBuild.toNat / 65536)] ++
      Bytes.le 1 (s.regionMask (·.linkUp)) ++ Bytes.le 1 (s.regionMask (·.autonomous)) ++ [0]
    summary := Bytes.le 1 s.summaryFlags ++ Bytes.le 1 (s.regionMask (·.clkFail)) ++ Bytes.le 1 s.rv.path ++ Bytes.le 1 s.rv.chg ++
      Bytes.le 2 s.rv.live ++ Bytes.le 4 (s.tbTime >>> 20) ++ Bytes.le 4 seq ++ [0, 0]
    temp := (List.range 8).flatMap (fun g => Bytes.le 2 (s.dieTemp g))
    reserve := Bytes.le 4 s.rvStat.toNat ++ Bytes.le 2 s.rv.live ++ Bytes.le 2 m.bus.toNat ++ Bytes.le 2 m.vsys.toNat ++
      Bytes.le 2 m.pack.toNat }))

/-! ### Management commands (R382) -/

/-- A Block Read: count and data, while the address is answered. -/
def Dev.mgRead (s : Dev) (l : List Byte) : Result :=
  if s.rb RegMap.mgCfg 0 then .next (s.emit (.serial 0 (BitVec.ofNat 8 l.length :: l))) else .next s

def execMgId (s : State) : Outcome := s.on fun s => s.mgRead s.mg.id
def execMgSummary (s : State) : Outcome := s.on fun s => s.mgRead s.mg.summary
def execMgTemp (s : State) : Outcome := s.on fun s => s.mgRead s.mg.temp
def execMgReserve (s : State) : Outcome := s.on fun s => s.mgRead s.mg.reserve

/-- The PEC of a write to the port satisfies PEC_REQ. -/
def Dev.mgPec (s : Dev) (bytes : List Nat) (pec : Option Byte) : Bool :=
  !s.rb RegMap.mgCfg 1 || decide (pec.map BitVec.toNat = some (Pec.crc ((0x80 + 2 * Config.mgStrap.toNat) :: bytes)))

def Dev.mgNack (s : Dev) : Dev := s.modMg (fun m => { m with nacks := Bits.satAdd 255 m.nacks 1 })
def Dev.mgPecBad (s : Dev) : Dev := s.modMg (fun m => { m with pecErr := true })

/-- Log 133 (DEDUCED, unsafe). -/
def execMgCellSel (v : BitVec 16) (pec : Option Byte) (s : State) : Outcome := s.on fun s =>
  if !s.rb RegMap.mgCfg 0 then .next s
  else if !s.mgPec [4, v.toNat % 256, v.toNat / 256] pec then .next s.mgPecBad
  else if 512 ≤ v.toNat then .next s.mgNack
  else .next (s.modMg (fun m => { m with cell := v.toNat }))

/-- The status of the selected cell, fetched from its island. -/
def execMgCell (s : State) : Outcome := s.on fun s =>
  let c := s.mg.cell
  let x := s.cell c
  s.mgRead (if s.auto (c / 64) then List.replicate 8 0xFF
    else Bytes.le 4 (s.cellStatus c).toNat ++ Bytes.le 1 x.trip.primary ++ [0] ++ Bytes.le 2 (Bits.ofInt 16 x.tjEst))

/-- EV_MGMT_MAILBOX follows, raised by the runtime. -/
def execMgMboxWrite (data : List Byte) (pec : Option Byte) (s : State) : Outcome := s.on fun s =>
  if !s.rb RegMap.mgCfg 0 then .next s
  else if !s.rb RegMap.mgCfg 2 || s.mg.mbox.isSome || decide (data.length < 1) || decide (32 < data.length) then .next s.mgNack
  else if !s.mgPec ([0x10, data.length] ++ data.map BitVec.toNat) pec then .next s.mgPecBad
  else .next ((s.modMg (fun m => { m with mbox := some data })).raise
    { stream := 0x8E, code := 0x1D0, obj := 16, payload := Bits.words2 s.tbTime ++ [BitVec.ofNat 32 data.length] })

def execMgMboxRead (s : State) : Outcome := s.on fun s => s.mgRead s.mg.reply

/-- R382: an unknown code, another protocol or a bad PEC. -/
def execMgmtCommandNack (pec : Bool) (s : State) : Outcome := s.on fun s =>
  if !s.rb RegMap.mgCfg 0 then .next s else if pec then .next s.mgPecBad else .next s.mgNack

/-- MG_STAT (Table 16-15). -/
def Dev.mgStat (s : Dev) : Word :=
  let m := s.mg
  BitVec.ofNat 32 (0x40 + Config.mgStrap.toNat + Bits.b2n m.mbox.isSome * 2 ^ 7 + Bits.b2n m.pecErr * 2 ^ 8 +
    Bits.b2n m.wakeFail * 2 ^ 9 + m.nacks * 2 ^ 16)

/-- MGMT_REPLY: the reply read from host memory. -/
def execMgmtReply (d : Desc) (data : Option (List Byte)) (s : State) : Outcome := s.on fun s =>
  s.cmd d 0x0710 [0] [0x3F, Cmd.all, Cmd.all] (fun s =>
    let n := d.pf 0 0 6
    if 32 < n ∨ d.par64 1 % 64 ≠ 0 then s.fail d 0x0710 St.badParam
    else if n = 0 then (s.modMg (fun m => { m with reply := [] })).reply d 0x0710 0 0 0
    else match data with
      | none => s.fail d 0x0710 St.hostError
      | some l => (s.modMg (fun m => { m with reply := l.take n })).reply d 0x0710 0 0 0)

/-- MGMT_MBOX_READ: the mailbox is freed. -/
def execMgmtMboxRead (d : Desc) (bufOk : Bool) (s : State) : Outcome := s.on fun s =>
  s.cmd d 0x0711 [0] [Cmd.all, Cmd.all] (fun s =>
    let l := s.mg.mbox.getD []
    if d.par64 0 % 64 ≠ 0 then s.fail d 0x0711 St.badParam
    else (s.modMg (fun m => { m with mbox := none })).bufReply d 0x0711 (d.par64 0)
      (Bytes.words ((l ++ List.replicate 32 0).take 32)) bufOk l.length 0)

/-! ### Supervisor port (R383 to R385) -/

/-- The image a frame shifts out (Table 16-14), bytes 0x00 to 0x1D; the CRC of the last two bytes is checked by its reader. -/
def Dev.svImage (s : Dev) (stale : Bool) : List Byte :=
  let v := s.sv
  [(if stale then 0x5A else 0xA5 : Byte)] ++ Bytes.le 1 v.seq ++ Bytes.le 1 v.result ++
  Bytes.le 1 (s.summaryFlags % 32 + Bits.b2n v.wdExpired * 32) ++ Bytes.le 1 (s.regionMask (·.linkUp)) ++
  Bytes.le 1 (s.regionMask (·.autonomous)) ++ Bytes.le 1 (s.regionMask (·.clkFail)) ++ Bytes.le 1 s.fatalRegions ++
  Bytes.le 1 (s.rv.path + s.rv.chg * 8) ++ Bytes.le 2 s.rv.live ++ Bytes.le 4 (s.tbTime >>> 20) ++ Bytes.le 1 v.undelivered ++
  List.replicate 14 0

/-- One bit of CRC-16, polynomial 0x1021. -/
def Crc.shift (c : Nat) : Nat := if 0x8000 ≤ c then ((c * 2) ^^^ 0x1021) % 65536 else c * 2

/-- CRC-16 over bytes, initial value 0xFFFF (R383). -/
def Crc.crc16 (l : List Nat) : Nat :=
  l.foldl (fun c b => (List.range 8).foldl (fun c _ => Crc.shift c) (c ^^^ (b * 256))) 0xFFFF

/-- A frame of 32 bytes with a correct CRC: it is shifted out against, then executed unless the image was stale. Every executed
frame kicks the watchdog and ends SUPERVISOR_LOSS; EV_SUPERVISOR reports it. Log 132 (DEDUCED, unsafe). -/
def Dev.svFrame (s : Dev) (cmd : Nat) (seq : Byte) (mask : Nat) (stale : Bool) (f : Dev → Nat × Dev) : Result :=
  if !s.rb RegMap.svCfg 0 then .next s
  else
    let img := s.svImage stale
    let crc := Crc.crc16 (img.map BitVec.toNat)
    let s := s.emit (.serial 1 (img ++ Bytes.le 2 crc))
    if stale then .next s
    else
      let (result, s) := f (s.unoccur 8 52)
      let s := s.modSv (fun v => { v with seq := seq.toNat, result := result })
      .next (s.raise { stream := 0x8E, code := 0x1D8, obj := 17, flag := cmd == 1 || cmd == 2
                       payload := Bits.words2 s.tbTime ++ [BitVec.ofNat 32 (cmd + result * 256 + mask * 65536)] })

def execSupervisorRead (seq : Byte) (stale : Bool) (s : State) : Outcome := s.on fun s => s.svFrame 0 seq 0 stale (fun s => (0, s))

/-- R384, R406: SUPERVISOR_SAFE, and the region safe reaction in each named region whose strait is up. -/
def execRegionSafe (seq mask : Byte) (stale : Bool) (s : State) : Outcome := s.on fun s =>
  s.svFrame 1 seq mask.toNat stale (fun s =>
    if !s.rb RegMap.svCfg 2 then (4, s)
    else
      let named := Bits.ones 8 mask.toNat
      let lost := named.filter (fun g => !s.straitUp g)
      let s := (s.occur 8 51 mask.toNat).modSv (fun v => { v with
        safeSeen := true, undelivered := lost.foldl (fun a g => a + 2 ^ g) 0 })
      let s := s.forEach (named.filter (fun g => s.straitUp g)) (fun s g => (s.stand 8 51 (.region g) false).regionSafe g)
      (if lost.isEmpty then 0 else 5, s))

/-- R384: SUPERVISOR_SAFE with the chip safe reaction. -/
def execChipSafe (seq : Byte) (stale : Bool) (s : State) : Outcome := s.on fun s =>
  s.svFrame 2 seq 0 stale (fun s =>
    if !s.rb RegMap.svCfg 3 then (4, s)
    else (0, ((s.occur 8 51 0xFF).modSv (fun v => { v with safeSeen := true })).stand 8 51 .chip false))

/-- R384: the sticky bits and counters of SV_STAT clear. -/
def execSupervisorClear (seq : Byte) (stale : Bool) (s : State) : Outcome := s.on fun s =>
  s.svFrame 3 seq 0 stale (fun s =>
    (0, s.modSv (fun v => { v with wdExpired := false, safeSeen := false, crcErrors := 0, lenErrors := 0 })))

/-- R385. -/
def execSupervisorLoss (s : State) : Outcome := s.on fun s =>
  if s.rf RegMap.svCfg 8 8 = 0 then .next s
  else .next ((s.modSv (fun v => { v with wdExpired := true })).occur 8 52 0xFFFFFFFF)

/-- R383: a frame that is discarded, with the result of Table 16-14. -/
def execSupervisorFrameDiscard (e : FrameError) (s : State) : Outcome := s.on fun s =>
  if !s.rb RegMap.svCfg 0 then .next s
  else .next (s.modSv (fun v => match e with
    | .crc => { v with result := 1, crcErrors := Bits.satAdd 255 v.crcErrors 1 }
    | .length => { v with result := 2, lenErrors := Bits.satAdd 255 v.lenErrors 1 }
    | .command => { v with result := 3 }))

/-- SV_STAT (Table 16-15). -/
def Dev.svStat (s : Dev) : Word :=
  let v := s.sv
  BitVec.ofNat 32 (Bits.b2n v.wdExpired + Bits.b2n v.safeSeen * 2 + v.crcErrors * 2 ^ 8 + v.lenErrors * 2 ^ 16 + v.seq * 2 ^ 24)

/-- A write of SV_CFG: read-only once LOCK is 1 (R385). -/
def Dev.svWrite (s : Dev) (v : Word) : Dev :=
  if s.rb RegMap.svCfg 1 then s.cfgIgnored RegMap.svCfg else s.setReg RegMap.svCfg (v &&& 0xFF0F)

end Sys2Proof.Machine
end

