-- ==== Sys2Proof/Machine/Collector.lean ====
section
/-! DEFINITION. The rows and commands of the fault collectors (spec/17): events and clears of sources, rule windows, reports to
the chip, injection, clearing, histories and ERR_N. -/

namespace Sys2Proof.Machine

/-- R390: a source of a collector becomes active; `inj` when an injected event shares the clock (R400). -/
def execFaultEvent (k : CollIx) (src : BitVec 7) (info : Word) (inj : Bool) (s : State) : Outcome := s.on fun s =>
  .next (s.occurAny k src.toNat info.toNat inj)

/-- R398. -/
def execFaultClear (k : CollIx) (src : BitVec 7) (s : State) : Outcome := s.on fun s => .next (s.unoccur k src.toNat)

/-- R390: the window of a rule slot ends. -/
def execRuleWindowExpiry (k : CollIx) (n : Byte) (s : State) : Outcome := s.on fun s =>
  .next (s.modColl k (fun x => { x with rules := Sparse.erase x.rules n.toNat }))

/-- A report of region `g` at the chip (R389): REGION_FAULT or REGION_FATAL by its key; ERR_N and CHIP_SAFE of its mask. -/
def Dev.takeReport (s : Dev) (r : Report) : Dev :=
  let s := if Bits.nbit r.react 5 then s.stand 8 (Fc.forwarded r.region r.source) .chip (r.key == Fc.keyFatal) else s
  let s := if Bits.nbit r.react 6 then s.errAssert else s
  if r.key = 2 then s.occur 8 (24 + r.region) r.source
  else if r.key = 1 ∨ r.key = 4 then s.occur 8 (16 + r.region) r.source
  else s

/-- The oldest report reaches the chip collector. -/
def execRegionReport (s : State) : Outcome := s.on fun s =>
  match s.reports with
  | [] => .next s
  | r :: rest => .next (({ s with reports := rest }).takeReport r)

/-- A chip safe request stands at the chip collector (R394). -/
def Dev.chipSafeStands (s : Dev) : Bool := (s.coll 8).standing.any (fun r => r.scope == .chip)

/-- R394: the request reaches region `g`. -/
def execChipSafeRequest (g : RegionIx) (s : State) : Outcome := s.on fun s =>
  if s.chipSafeStands ∧ s.straitUp g then .next (s.regionSafe g) else .next s

/-! ### Injection and clearing (R395, R399, R400) -/

/-- BAR0 offset of FC_RINJ or FC_CINJ. -/
def RegMap.fcInj (k : Nat) : Nat := if k < 8 then RegMap.unit k 0x20 else 0x90020

/-- A write of FC_RINJ or FC_CINJ. -/
def Dev.fcInject (s : Dev) (k : Nat) (v : Word) : Dev :=
  if !Bits.bit v 31 then s
  else if Fc.reserved k (Bits.fld v 0 7) then s.cfgIgnored (RegMap.fcInj k)
  else s.inject k (Bits.fld v 0 7)

def execFaultInject (k : CollIx) (v : Word) (s : State) : Outcome := s.on fun s => .next (s.fcInject k v)

def execLatchedClear (k : CollIx) (mask : Quad) (s : State) : Outcome := s.on fun s => .next (s.clearLatched k mask)

/-- A 128-bit load of the history: the oldest entry is removed (R397). -/
def Dev.popHistory (s : Dev) (k : Nat) : List Word × Dev :=
  match (s.coll k).hist with
  | [] => ([0, 0, 0, 0], s)
  | e :: l => (e.words.take 4, s.modColl k (fun x => { x with hist := l, lastRead := e }))

def execHistoryRead (k : CollIx) (s : State) : Outcome := s.on fun s =>
  let (l, s) := s.popHistory k
  .next (s.emit (.readData l))

def Dev.clearFirst (s : Dev) (k : Nat) : Dev := s.modColl k (fun x => { x with firstErr := none })

def execFirstErrorClear (k : CollIx) (s : State) : Outcome := s.on fun s => .next (s.clearFirst k)

/-! ### ERR_N (R401 to R404) -/

def execErrClr (s : State) : Outcome := s.on fun s => .next s.errClear

/-- PULSE_MS has passed since the assertion; a clear that waits takes effect. Log 137 (DEDUCED, safe). -/
def execErrNPulseEnd (s : State) : Outcome := s.on fun s =>
  if !s.err.asserted || !s.err.pulse then .next s
  else
    let s := { s with err := { s.err with pulse := false } }
    .next (if s.err.clearWaits ∧ !s.fatalHold then s.errRelease else s)

/-- R403. -/
def execErrNToggle (s : State) : Outcome := s.on fun s =>
  if s.rb RegMap.fcErr 0 ∧ !s.err.asserted then .next { s with err := { s.err with alive := !s.err.alive, monitorLow := false } }
  else .next s

/-- R403: no toggle for 2 ms. -/
def execAliveMonitor (s : State) : Outcome := s.on fun s =>
  if s.rb RegMap.fcErr 0 then .next { s with err := { s.err with monitorLow := true } } else .next s

/-- A write of FC_ERR. -/
def Dev.fcErrWrite (s : Dev) (v : Word) : Dev :=
  let s := s.putReg RegMap.fcErr 0 8 (Bits.fld v 0 8)
  let s := if Bits.bit v 0 then s else { s with err := { s.err with monitorLow := false } }
  if Bits.bit v 8 then s.errClear else s

/-- FC_ERR (Table 17-7). -/
def Dev.fcErrRead (s : Dev) : Word :=
  BitVec.ofNat 32 (s.rf RegMap.fcErr 0 8 + Bits.b2n s.err.asserted * 2 ^ 9 + Bits.b2n s.fatalHold * 2 ^ 10)

/-! ### Registers (Table 17-7) -/

/-- FC_RHSTAT or FC_CHSTAT. -/
def Dev.fcHstat (s : Dev) (k : Nat) : Word :=
  let x := s.coll k
  let p := if k < 8 then 5 else 6
  BitVec.ofNat 32 (x.hist.length + Bits.b2n x.historyLost * 2 ^ p + Bits.b2n x.firstErr.isSome * 2 ^ (p + 1) +
    Bits.b2n x.countFailed * 2 ^ (p + 2) + x.overflow * 2 ^ 16 + x.testCount * 2 ^ 24)

/-- A read of FC_RHSTAT or FC_CHSTAT: OVERFLOW and TEST_COUNT clear. -/
def Dev.fcHstatRead (s : Dev) (k : Nat) : Word × Dev :=
  (s.fcHstat k, s.modColl k (fun x => { x with overflow := 0, testCount := 0 }))

def Dev.fcHstatWrite (s : Dev) (k : Nat) (v : Word) : Dev :=
  if Bits.bit v (if k < 8 then 5 else 6) then s.modColl k (fun x => { x with historyLost := false }) else s

/-- A source count, cleared by its read (R396). -/
def Dev.fcCountRead (s : Dev) (k src : Nat) : Word × Dev :=
  (BitVec.ofNat 32 (Sparse.get (fun _ => 0) (s.coll k).counts src),
   s.modColl k (fun x => { x with counts := Sparse.erase x.counts src }))

/-- The first-error record as words. -/
def Coll.firstWords (x : Coll) : List Word := (x.firstErr.getD {}).words

/-- A write of FC_RSRC or FC_CSRC: a RULE beyond the chip's slots is ignored, the other fields act (R407). -/
def Dev.fcSrcWrite (s : Dev) (k src : Nat) (v : Word) : Dev :=
  let off := if k < 8 then RegMap.fcRSrc k src else RegMap.fcCSrc src
  let m := (RegMap.info off).l
  if k = 8 ∧ m = 0x01FFFFFF ∧ 128 ≤ Bits.fld v 17 8 then
    (s.setReg off (Bits.merge (s.reg off) v (m &&& 0x0001FFFF))).cfgIgnored off
  else s.setReg off (Bits.merge (s.reg off) v m)

/-! ### Commands (Table 17-9) -/

/-- The collector a command names. -/
def Cmd.coll (d : Desc) : Nat := if d.tkind = 3 then d.tindex.toNat else 8

/-- FC_STATUS: the words of its buffer, nothing cleared. -/
def execFcStatus (d : Desc) (bufOk : Bool) (s : State) : Outcome := s.on fun s =>
  s.cmd d 0x0800 [0, 3] [Cmd.all, Cmd.all] (fun s =>
    let k := Cmd.coll d
    let x := s.coll k
    if d.par64 0 % 64 ≠ 0 then s.fail d 0x0800 St.badParam
    else s.bufReply d 0x0800 (d.par64 0) (Bits.words4 x.latched.toNat ++ Bits.words4 x.live.toNat ++ x.firstWords ++
      [s.fcHstat k] ++ List.replicate 15 0) bufOk 0 0)

/-- R397: the queue is drained, oldest first; unused entries of the buffer are zeros. -/
def execFcHistoryRead (d : Desc) (bufOk : Bool) (s : State) : Outcome := s.on fun s =>
  s.cmd d 0x0801 [0, 3] [Cmd.all, Cmd.all] (fun s =>
    let k := Cmd.coll d
    let x := s.coll k
    if d.par64 0 % 64 ≠ 0 then s.fail d 0x0801 St.badParam
    else
      let s := s.modColl k (fun x => { x with hist := [], overflow := 0, lastRead := x.hist.getLast?.getD x.lastRead })
      s.bufReply d 0x0801 (d.par64 0) (x.hist.flatMap HistEntry.words ++ List.replicate (8 * (32 - x.hist.length)) 0) bufOk
        x.hist.length (x.overflow + Bits.b2n x.historyLost * 256))

/-- R395: RESULT0 counts the bits of the mask that stay set. -/
def execFcClear (d : Desc) (s : State) : Outcome := s.on fun s =>
  s.cmd d 0x0802 [0, 3] [Cmd.all, Cmd.all, Cmd.all, Cmd.all, 3] (fun s =>
    let k := Cmd.coll d
    let mask : Quad := BitVec.ofNat 128 (d.par64 0 + d.par64 2 * 2 ^ 64)
    let s := s.clearLatched k mask
    let s := if Bits.nbit (d.par 4) 0 then s.clearFirst k else s
    let s := if Bits.nbit (d.par 4) 1 then s.modColl k (fun x => { x with historyLost := false }) else s
    s.reply d 0x0802 0 (Bits.popcount 128 ((s.coll k).latched &&& mask).toNat) 0)

/-- R400. -/
def execFcInject (d : Desc) (s : State) : Outcome := s.on fun s =>
  s.cmd d 0x0803 [0, 3] [0x7F] (fun s =>
    let k := Cmd.coll d
    if Fc.reserved k (d.pf 0 0 7) then s.fail d 0x0803 St.badParam else (s.inject k (d.pf 0 0 7)).reply d 0x0803 0 0 0)

/-- R396: the 128 counts, two in a word. -/
def execFcCountRead (d : Desc) (bufOk : Bool) (s : State) : Outcome := s.on fun s =>
  s.cmd d 0x0804 [0, 3] [Cmd.all, Cmd.all] (fun s =>
    let k := Cmd.coll d
    let c := fun (i : Nat) => Sparse.get (fun _ => 0) (s.coll k).counts i
    if d.par64 0 % 64 ≠ 0 then s.fail d 0x0804 St.badParam
    else (s.modColl k (fun x => { x with counts := [] })).bufReply d 0x0804 (d.par64 0)
      ((List.range 64).map (fun i => BitVec.ofNat 32 (c (2 * i) + c (2 * i + 1) * 65536))) bufOk 0 0)

def execFcErrClear (d : Desc) (s : State) : Outcome := s.on fun s =>
  s.cmd d 0x0805 [0] [] (fun s =>
    let s := s.errClear
    s.reply d 0x0805 0 (Bits.b2n s.err.asserted) 0)

end Sys2Proof.Machine
end

