-- ==== Sys2Proof/Machine/Sha.lean ====
section
/-! DEFINITION. SHA-256 and HMAC-SHA-256 as R416 and R429 name them, and CRC-32 of the firmware headers. Bytes are numbers
below 256. -/

namespace Sys2Proof.Machine

/-- The sixty-four round constants. -/
def Sha.k : List Word :=
  ([0x428a2f98, 0x71374491, 0xb5c0fbcf, 0xe9b5dba5, 0x3956c25b, 0x59f111f1, 0x923f82a4, 0xab1c5ed5,
    0xd807aa98, 0x12835b01, 0x243185be, 0x550c7dc3, 0x72be5d74, 0x80deb1fe, 0x9bdc06a7, 0xc19bf174] : List Word) ++
  [0xe49b69c1, 0xefbe4786, 0x0fc19dc6, 0x240ca1cc, 0x2de92c6f, 0x4a7484aa, 0x5cb0a9dc, 0x76f988da,
   0x983e5152, 0xa831c66d, 0xb00327c8, 0xbf597fc7, 0xc6e00bf3, 0xd5a79147, 0x06ca6351, 0x14292967] ++
  [0x27b70a85, 0x2e1b2138, 0x4d2c6dfc, 0x53380d13, 0x650a7354, 0x766a0abb, 0x81c2c92e, 0x92722c85,
   0xa2bfe8a1, 0xa81a664b, 0xc24b8b70, 0xc76c51a3, 0xd192e819, 0xd6990624, 0xf40e3585, 0x106aa070] ++
  [0x19a4c116, 0x1e376c08, 0x2748774c, 0x34b0bcb5, 0x391c0cb3, 0x4ed8aa4a, 0x5b9cca4f, 0x682e6ff3,
   0x748f82ee, 0x78a5636f, 0x84c87814, 0x8cc70208, 0x90befffa, 0xa4506ceb, 0xbef9a3f7, 0xc67178f2]

/-- The initial hash words. -/
def Sha.init : List Word :=
  [0x6a09e667, 0xbb67ae85, 0x3c6ef372, 0xa54ff53a, 0x510e527f, 0x9b05688c, 0x1f83d9ab, 0x5be0cd19]

def Sha.rot (x : Word) (n : Nat) : Word := x.rotateRight n

/-- The message schedule, newest word first, from its first sixteen words; `n` words still to add. -/
def Sha.schedule : Nat → List Word → List Word
  | 0, w => w
  | n + 1, w =>
    let a := w.getD 14 0
    let b := w.getD 1 0
    let s0 := Sha.rot a 7 ^^^ Sha.rot a 18 ^^^ (a >>> 3)
    let s1 := Sha.rot b 17 ^^^ Sha.rot b 19 ^^^ (b >>> 10)
    Sha.schedule n ((w.getD 15 0 + s0 + w.getD 6 0 + s1) :: w)

/-- One round: working words a to h, round constant and schedule word. -/
def Sha.round (h : List Word) (kw : Word × Word) : List Word :=
  let g := fun (i : Nat) => h.getD i 0
  let s1 := Sha.rot (g 4) 6 ^^^ Sha.rot (g 4) 11 ^^^ Sha.rot (g 4) 25
  let ch := (g 4 &&& g 5) ^^^ (~~~ (g 4) &&& g 6)
  let t1 := g 7 + s1 + ch + kw.1 + kw.2
  let s0 := Sha.rot (g 0) 2 ^^^ Sha.rot (g 0) 13 ^^^ Sha.rot (g 0) 22
  let maj := (g 0 &&& g 1) ^^^ (g 0 &&& g 2) ^^^ (g 1 &&& g 2)
  [t1 + s0 + maj, g 0, g 1, g 2, g 3 + t1, g 4, g 5, g 6]

/-- A big-endian word of four bytes. -/
def Sha.word (l : List Nat) : Word := BitVec.ofNat 32 (l.foldl (fun a b => a * 256 + b) 0)

/-- One block of sixty-four bytes. -/
def Sha.block (h : List Word) (l : List Nat) : List Word :=
  let w := (List.range 16).map (fun i => Sha.word ((l.drop (4 * i)).take 4))
  let sched := (Sha.schedule 48 w.reverse).reverse
  List.zipWith (· + ·) h ((List.zip Sha.k sched).foldl Sha.round h)

/-- `n` blocks of a padded message. -/
def Sha.blocks : Nat → List Word → List Nat → List Word
  | 0, h, _ => h
  | n + 1, h, l => Sha.blocks n (Sha.block h (l.take 64)) (l.drop 64)

/-- A number as `n` big-endian bytes. -/
def Sha.bytes (n v : Nat) : List Nat := (List.range n).map (fun i => (v >>> (8 * (n - 1 - i))) % 256)

/-- SHA-256 of a list of bytes: 32 bytes. Log 159 (PRESUMED, unsafe). -/
def Sha.sha256 (l : List Nat) : List Nat :=
  let pad := (119 - l.length % 64) % 64
  let m := l ++ [0x80] ++ List.replicate pad 0 ++ Sha.bytes 8 (8 * l.length)
  (Sha.blocks (m.length / 64) Sha.init m).flatMap (fun w => Sha.bytes 4 w.toNat)

/-- HMAC-SHA-256 with a key of at most 64 bytes. -/
def Sha.hmac (key l : List Nat) : List Nat :=
  let k := key ++ List.replicate (64 - key.length) 0
  let x := fun (p : Nat) => k.map (fun b => b ^^^ p)
  Sha.sha256 (x 0x5C ++ Sha.sha256 (x 0x36 ++ l))

/-- The little-endian bytes of a number. -/
def Sha.le (n v : Nat) : List Nat := (List.range n).map (fun i => (v >>> (8 * i)) % 256)
/-- The number of a list of little-endian bytes. -/
def Sha.ofLe (l : List Nat) : Nat := l.foldr (fun b a => b + 256 * a) 0

/-- One bit of CRC-32, polynomial 0x04C11DB7 reflected. -/
def Crc32.shift (c : Nat) : Nat := if c % 2 = 1 then (c / 2) ^^^ 0xEDB88320 else c / 2

/-- CRC-32, initial value and final XOR all ones, reflected. -/
def Crc32.crc (l : List Nat) : Nat :=
  (l.foldl (fun c b => (List.range 8).foldl (fun c _ => Crc32.shift c) (c ^^^ b)) 0xFFFFFFFF) ^^^ 0xFFFFFFFF

end Sys2Proof.Machine
end

