-- ==== Sys2Proof/Machine/Debug.lean ====
section
/-! DEFINITION. The debug port (spec/19): access levels and authentication, halting, resuming and cross-triggering of barges,
and the TAP. The operations that read and write memories stand in Ndl, STEP in BargeDecode. -/

namespace Sys2Proof.Machine

def Dev.modDbg (s : Dev) (f : DebugPort → DebugPort) : Dev := { s with dbg := f s.dbg }

/-! ### Link (R430, Tables 19-2 to 19-4) -/

/-- ACK codes of Table 19-2. -/
def Ndl.ok : Nat := 1
def Ndl.wait : Nat := 2
def Ndl.fault : Nat := 4
def Ndl.locked : Nat := 8
def Ndl.badOp : Nat := 0x20

/-- Bytes of 32-bit words, low byte first. -/
def Bytes.ofWords (l : List Word) : List Byte := l.flatMap (fun w => Bytes.le 4 w.toNat)

/-- The reply of the device: ACK and data, followed on the line by its CRC-16 (R430). Log 138 (DESIGN CHOICE, safe). -/
def Dev.ndl (s : Dev) (ack : Nat) (data : List Word) : Dev :=
  s.emit (.serial 2 (BitVec.ofNat 8 ack :: Bytes.ofWords data))

/-- FAULT with its reason in DBG_STAT. -/
def Dev.ndlFault (s : Dev) (reason : Nat) : Dev := (s.modDbg (fun d => { d with reason := reason })).ndl Ndl.fault []

/-- A request that has arrived: PROBE_SEEN; while LOCKED only the operations with `locked` are accepted (R428). -/
def Dev.ndlReq (s : Dev) (locked : Bool) (f : Dev → Dev) : Result :=
  let s := s.modDbg (fun d => { d with seen := true })
  .next (if locked || s.debugOpen then f s else s.ndl Ndl.locked [])

/-- DBG_STAT (Table 19-4). -/
def Dev.dbgStat (s : Dev) : Word :=
  BitVec.ofNat 32 (Bits.b2n s.debugOpen + Bits.b2n s.dbg.key.isSome * 2 + Bits.b2n s.dbg.seen * 4 +
    min 8 s.dbg.fails * 8 + s.dbg.reason % 16 * 128)

def execIdRead (s : State) : Outcome := s.on fun s => s.ndlReq true (fun s => s.ndl Ndl.ok [s.reg RegMap.chipId, s.dbgStat])
def execDbgStatus (s : State) : Outcome := s.on fun s => s.ndlReq true (fun s => s.ndl Ndl.ok [s.dbgStat])

/-- R430: no request or reply is under way between two rows, so the link is idle before and after. -/
def execNdlLinkReset (s : State) : Outcome := s.on fun s => .next s

/-! ### Access (R428, R429) -/

/-- R429: a fresh challenge; the entropy source gives any value. Log 141 (DESIGN CHOICE, safe). -/
def execChalRead (s : State) : Outcome := s.on fun s =>
  s.ndlReq true (fun s =>
    let (a, s) := s.drawWord
    let (b, s) := s.drawWord
    let (c, s) := s.drawWord
    let (d, s) := s.drawWord
    let q : Quad := d ++ c ++ b ++ a
    (s.modDbg (fun x => { x with chal := some q })).ndl Ndl.ok [a, b, c, d])

/-- The answer that opens the port: the first 16 bytes of HMAC-SHA-256 of the challenge under the key (R429). -/
def Dbg.answer (key : List DWord) (chal : Quad) : Nat :=
  Sha.ofLe ((Sha.hmac (key.flatMap (fun k => Sha.le 8 k.toNat)) (Sha.le 16 chal.toNat)).take 16)

/-- An AUTH carries the right answer. Log 140 (DEDUCED, unsafe). -/
def DebugPort.accepts (d : DebugPort) (v : Quad) : Bool :=
  match d.key, d.chal with
  | some k, some c => decide (v.toNat = Dbg.answer k c)
  | _, _ => false

/-- DENY = 1 forces LOCKED until chip reset (R428). -/
def Dev.dbgDenied (s : Dev) : Dev := s.modDbg (fun d => { d with deny := true, granted := false, authed := false })

/-- R429. A challenge serves one AUTH; failure n is followed by 2^n ms of WAIT, and the eighth sets DENY. -/
def Dev.dbgTry (s : Dev) (v : Quad) : Dev :=
  if s.dbg.deny then s.ndl Ndl.locked []
  else if s.elapsed < s.dbg.waitTo then s.ndl Ndl.wait []
  else
    let good := s.dbg.accepts v
    let s := s.modDbg (fun d => { d with chal := none })
    if good then (s.modDbg (fun d => { d with authed := true })).ndl Ndl.ok []
    else
      let n := min 8 (s.dbg.fails + 1)
      let s := s.modDbg (fun d => { d with fails := n, waitTo := s.elapsed + 2 ^ n * 1000000 })
      (if n = 8 then s.dbgDenied else s).ndlFault 6

/-- Log 139 (DEDUCED, unsafe). -/
def execDbgAuth (v : Quad) (s : State) : Outcome := s.on fun s => s.ndlReq true (fun s => s.dbgTry v)

/-- R428. -/
def Dev.dbgGrant (s : Dev) (on : Bool) : Dev := s.modDbg (fun d => { d with granted := on && !d.deny })

def execHostGrant (on : Bool) (s : State) : Outcome := s.on fun s => .next (s.dbgGrant on)

def execDbgDeny (s : State) : Outcome := s.on fun s => .next s.dbgDenied

/-- R429: written once. -/
def Dev.dbgSetKey (s : Dev) (k : List DWord) : Dev :=
  if s.dbg.key.isSome then s.cfgIgnored RegMap.dbgKey else s.modDbg (fun d => { d with key := some k })

def execDbgKey (k0 k1 k2 k3 : DWord) (s : State) : Outcome := s.on fun s => .next (s.dbgSetKey [k0, k1, k2, k3])

/-! ### Halt and resume (R433 to R438) -/

/-- Barges of a mask. -/
def Dbg.barges (mask : DWord) : List Nat := Bits.ones 64 mask.toNat

/-- A halt request to every barge of a mask. -/
def Dev.haltMask (s : Dev) (mask : DWord) : Dev := s.forEach (Dbg.barges mask) (fun s e => s.haltBarge e 0)

/-- What a barge forgets as it resumes or steps (R433). -/
def Barge.refetch (k : Barge) : Barge := { k with lines := [], prefetch := none, dline := none, btb := [] }

/-- A HALTED barge continues from DBG_PC (R436). -/
def Dev.resumeBarge (s : Dev) (e : Nat) : Dev :=
  s.modBarge e (fun k => if k.dbg.halted then { k.refetch with dbg := { k.dbg with halted := false } } else k)

def Dev.resumeMask (s : Dev) (mask : DWord) : Dev := s.forEach (Dbg.barges mask) Dev.resumeBarge

def execDbgHalt (mask : DWord) (s : State) : Outcome := s.on fun s => s.ndlReq false (fun s => (s.haltMask mask).ndl Ndl.ok [])
def execDbgResume (mask : DWord) (s : State) : Outcome := s.on fun s => s.ndlReq false (fun s => (s.resumeMask mask).ndl Ndl.ok [])

/-- R438: writes of DBG_HALT_REQ and DBG_RESUME_REQ are ignored while LOCKED. -/
def Dev.dbgHaltReq (s : Dev) (mask : DWord) : Dev := if s.debugOpen then s.haltMask mask else s
def Dev.dbgResumeReq (s : Dev) (mask : DWord) : Dev := if s.debugOpen then s.resumeMask mask else s

def execDbgHaltReq (mask : DWord) (s : State) : Outcome := s.on fun s => .next (s.dbgHaltReq mask)
def execDbgResumeReq (mask : DWord) (s : State) : Outcome := s.on fun s => .next (s.dbgResumeReq mask)

/-- R434: loads have written and the store buffer has drained. -/
def execBargeHalted (e : BargeIx) (s : State) : Outcome := s.on fun s => .next (s.haltSettle e)

/-- R437: the breakpoint at the next instruction halts the barge before it issues. -/
def execBreakpoint (e : BargeIx) (s : State) : Outcome := s.on fun s =>
  let k := s.barge e
  match k.breakAt with
  | some n =>
    if k.mayIssue then .next ((s.modBarge e (fun k => { k with dbg := { k.dbg with unit := n } })).haltBarge e 2) else .next s
  | none => .next s

/-- R438: the cross-trigger reaches the barge. -/
def execXtrigHalt (e : BargeIx) (s : State) : Outcome := s.on fun s =>
  if (s.barge e).dbg.xreq then
    .next ((s.modBarge e (fun k => { k with dbg := { k.dbg with xreq := false } })).haltBarge e 5)
  else .next s

/-- A BARGE_HALT lock on one barge: refused while LOCKED (R428, R438). -/
def Dev.lockHalt (s : Dev) (e : Nat) : Bool × Dev := if s.debugOpen then (true, s.haltBarge e 6) else (false, s)

/-- DBG_HALTED. -/
def Dev.dbgHalted (s : Dev) : Nat := (List.range 64).foldl (fun a e => a + Bits.b2n (s.barge e).dbg.halted * 2 ^ e) 0

/-! ### TAP (R440, R441) -/

/-- The controllable balls carry the preloaded value in EXTEST and CLAMP; in HIGHZ nothing drives them (R441). GATE, HS, LS and
the reserve gate outputs are never among them. -/
def Tap.drives (t : Tap) : Bool := t.instr == .extest || t.instr == .clamp

def Dev.tapInstr (s : Dev) (i : TapInstr) : Dev := { s with tap := { s.tap with instr := i } }

def execBypass (s : State) : Outcome := s.on fun s => .next (s.tapInstr .bypass)
/-- R440: version 1, part 0x9512, manufacturer 0x325. -/
def execIdcode (s : State) : Outcome := s.on fun s => .next ((s.tapInstr .idcode).emit (.serial 3 (Bytes.le 4 0x1951264B)))
/-- Log 144 (DEDUCED, unsafe). -/
def execSamplePreload (v : Quad) (s : State) : Outcome := s.on fun s => .next { s with tap := { instr := .sample, preload := v } }
def execExtest (v : Quad) (s : State) : Outcome := s.on fun s => .next { s with tap := { instr := .extest, preload := v } }
def execClamp (s : State) : Outcome := s.on fun s => .next (s.tapInstr .clamp)
def execHighz (s : State) : Outcome := s.on fun s => .next (s.tapInstr .highz)
def execTrstN (s : State) : Outcome := s.on fun s => .next (s.tapInstr .idcode)

end Sys2Proof.Machine
end

