-- ==== Sys2Proof/Machine/BargeDecode.lean ====
section
/-! DEFINITION. The encodings of the barge instructions (spec/09 Tables 9-1 to 9-6, R208), and the debug operation STEP, which
fetches, decodes and executes one instruction on each named barge (spec/19 R436). -/

namespace Sys2Proof.Machine

/-- A field of an instruction word as a register number. -/
def Enc.r (w : Word) (lo : Nat) : Fin 32 := ⟨Bits.fld w lo 5, Nat.mod_lt _ (by decide)⟩
/-- A field of an instruction word as a vector register number or lane index. -/
def Enc.v (w : Word) (lo : Nat) : Fin 16 := ⟨Bits.fld w lo 4, Nat.mod_lt _ (by decide)⟩
def Enc.imm13 (w : Word) : BitVec 13 := BitVec.ofNat 13 (Bits.fld w 19 13)
def Enc.imm21 (w : Word) : BitVec 21 := BitVec.ofNat 21 (Bits.fld w 11 21)

/-- The instruction, or ILLEGAL when a field it does not use is not 0 (R208). -/
def Enc.guard (e : BargeIx) (ok : Bool) (i : Instr) : Instr := if ok then i else .illegal e

/-- Group 0x00, format Z (Table 9-5). -/
def Enc.system (e : BargeIx) (w : Word) : Instr :=
  if Bits.fld w 11 21 ≠ 0 then .illegal e
  else match Bits.fld w 6 5 with
    | 1 => .drain e | 2 => .syncI e | 3 => .waitI e | 4 => .retX e | 5 => .trap e | 6 => .brk e | 7 => .di e | 8 => .ei e
    | _ => .illegal e

/-- Group 0x01, format A (Table 9-3). -/
def Enc.alu (e : BargeIx) (w : Word) : Instr :=
  let d := Enc.r w 6
  let a := Enc.r w 11
  let b := Enc.r w 16
  match Bits.fld w 21 11 with
  | 0 => .addR e d a b | 1 => .subR e d a b | 2 => .andR e d a b | 3 => .orR e d a b | 4 => .xorR e d a b
  | 5 => .shl e d a b | 6 => .shr e d a b | 7 => .sra e d a b | 8 => .lt e d a b | 9 => .ltu e d a b
  | 10 => .minS e d a b | 11 => .maxS e d a b | 12 => .minu e d a b | 13 => .maxu e d a b
  | 14 => Enc.guard e (b == 0) (.clz e d a)
  | 15 => .adds e d a b | 16 => .subs e d a b
  | _ => .illegal e

/-- Group 0x02, format K (Table 9-3). -/
def Enc.aluImm (e : BargeIx) (w : Word) : Instr :=
  let d := Enc.r w 6
  let a := Enc.r w 11
  let i := Enc.imm13 w
  match Bits.fld w 16 3 with
  | 0 => .addI e d a i | 1 => .andI e d a i | 2 => .orI e d a i | 3 => .xorI e d a i | 4 => .ltI e d a i | 5 => .ltuI e d a i
  | 6 =>
    if Bits.fld w 26 6 ≠ 0 then .illegal e
    else match Bits.fld w 24 2 with
      | 0 => .shlI e d a (Enc.r w 19) | 1 => .shrI e d a (Enc.r w 19) | 2 => .sraI e d a (Enc.r w 19)
      | _ => .illegal e
  | _ => .illegal e

/-- Group 0x03, format A (Table 9-3). -/
def Enc.mulDiv (e : BargeIx) (w : Word) : Instr :=
  let d := Enc.r w 6
  let a := Enc.r w 11
  let b := Enc.r w 16
  match Bits.fld w 21 11 with
  | 0 => .mulR e d a b | 1 => .mulhS e d a b | 2 => .mulhU e d a b
  | 4 => .divS e d a b | 5 => .divU e d a b | 6 => .remS e d a b | 7 => .remU e d a b
  | _ => .illegal e

/-- Groups 0x08 to 0x0A, format M (Table 9-4). -/
def Enc.memory (e : BargeIx) (w : Word) : Instr :=
  let d := Enc.r w 6
  let b := Enc.r w 11
  let i := Enc.imm13 w
  match Bits.fld w 0 6, Bits.fld w 16 3 with
  | 8, 0 => .ldB e d b i | 8, 1 => .ldBu e d b i | 8, 2 => .ldH e d b i | 8, 3 => .ldHu e d b i | 8, 4 => .ldW e d b i
  | 8, 5 => .ldD e d b i
  | 9, 0 => .stB e d b i | 9, 2 => .stH e d b i | 9, 4 => .stW e d b i | 9, 5 => .stD e d b i
  | 10, 0 => Enc.guard e (!Bits.bit w 10) (.vldQ e (Enc.v w 6) b i)
  | 10, 1 => Enc.guard e (!Bits.bit w 10) (.vstQ e (Enc.v w 6) b i)
  | _, _ => .illegal e

/-- Group 0x10, format C (Table 9-5). -/
def Enc.branch (e : BargeIx) (w : Word) : Instr :=
  let a := Enc.r w 6
  let b := Enc.r w 11
  let i := Enc.imm13 w
  match Bits.fld w 16 3 with
  | 0 => .bEq e a b i | 1 => .bNe e a b i | 2 => .bLt e a b i | 3 => .bGe e a b i | 4 => .bLtu e a b i | 5 => .bGeu e a b i
  | _ => .illegal e

/-- TYPE of a vector word; 2 and 3 are illegal. -/
def Enc.type (w : Word) : Option VType :=
  match Bits.fld w 30 2 with
  | 0 => some .h8 | 1 => some .w4 | _ => none

/-- Group 0x18, format V (Table 9-6). -/
def Enc.vecAlu (e : BargeIx) (w : Word) : Instr :=
  let vd := Enc.v w 6
  let va := Enc.v w 10
  let vb := Enc.v w 14
  let s := Enc.r w 18
  let s0 := s == 0
  match Enc.type w with
  | none => .illegal e
  | some t =>
    let h := t == .h8
    match Bits.fld w 23 7 with
    | 0 => Enc.guard e s0 (.vadd e t vd va vb) | 1 => Enc.guard e s0 (.vsub e t vd va vb)
    | 2 => Enc.guard e s0 (.vadds e t vd va vb) | 3 => Enc.guard e s0 (.vsubs e t vd va vb)
    | 4 => Enc.guard e s0 (.vmin e t vd va vb) | 5 => Enc.guard e s0 (.vmax e t vd va vb)
    | 6 => Enc.guard e (s0 && vb == 0) (.vabs e t vd va)
    | 7 => Enc.guard e (s0 && h) (.vand e vd va vb) | 8 => Enc.guard e (s0 && h) (.vor e vd va vb)
    | 9 => Enc.guard e (s0 && h) (.vxor e vd va vb)
    | 10 => Enc.guard e (vb == 0) (.vsll e t vd va s) | 11 => Enc.guard e (vb == 0) (.vsrl e t vd va s)
    | 12 => Enc.guard e (vb == 0) (.vsra e t vd va s)
    | 13 => Enc.guard e (vd == 0) (.vcmpgt e t s va vb) | 14 => Enc.guard e (vd == 0) (.vcmpeq e t s va vb)
    | 15 => .vsel e t vd va vb s
    | 16 => Enc.guard e (s0 && h && vb == 0) (.vmov e vd va)
    | _ => .illegal e

/-- Group 0x19, format V. -/
def Enc.vecMul (e : BargeIx) (w : Word) : Instr :=
  let vd := Enc.v w 6
  let va := Enc.v w 10
  let vb := Enc.v w 14
  let s := Enc.r w 18
  match Bits.fld w 30 2, Bits.fld w 23 7 with
  | 0, 0 => Enc.guard e (s == 0) (.vmulH8 e vd va vb) | 0, 1 => Enc.guard e (s == 0) (.vmulhH8 e vd va vb)
  | 0, 2 => Enc.guard e (s == 0) (.vmacH8 e vd va vb) | 0, 3 => Enc.guard e (vb == 0) (.vmacsH8 e vd va s)
  | 1, 4 => Enc.guard e (s == 0) (.vmulW4 e vd va vb)
  | _, _ => .illegal e

/-- Group 0x1A, format V; TYPE is 0. -/
def Enc.vecLane (e : BargeIx) (w : Word) : Instr :=
  let vd := Enc.v w 6
  let va := Enc.v w 10
  let vb := Enc.v w 14
  let s := Enc.r w 18
  match Bits.fld w 23 9 with
  | 0 => Enc.guard e (s == 0) (.vpackH8 e vd va vb) | 1 => Enc.guard e (s == 0 && vb == 0) (.vwidenH8 e vd va)
  | 2 => Enc.guard e (vd == 0) (.vextH e s va vb) | 3 => Enc.guard e (vd == 0) (.vextW e s va vb)
  | 4 => Enc.guard e (va == 0) (.vinsH e vd vb s) | 5 => Enc.guard e (va == 0) (.vinsW e vd vb s)
  | 6 => Enc.guard e (va == 0 && vb == 0) (.vbcastH e vd s) | 7 => Enc.guard e (va == 0 && vb == 0) (.vbcastW e vd s)
  | 8 => Enc.guard e (vd == 0 && vb == 0) (.vredaddH8 e s va)
  | _ => .illegal e

/-- The instruction of a word, for barge `e` (Table 9-2, R208). Log 78 (DESIGN CHOICE, unsafe). -/
def Barge.decode (e : BargeIx) (w : Word) : Instr :=
  match Bits.fld w 0 6 with
  | 0x00 => Enc.system e w
  | 0x01 => Enc.alu e w
  | 0x02 => Enc.aluImm e w
  | 0x03 => Enc.mulDiv e w
  | 0x04 => .movh e (Enc.r w 6) (Enc.imm21 w)
  | 0x05 => .adrh e (Enc.r w 6) (Enc.imm21 w)
  | 0x08 | 0x09 | 0x0A => Enc.memory e w
  | 0x10 => Enc.branch e w
  | 0x11 => .jmp e (Enc.r w 6) (Enc.imm21 w)
  | 0x12 => Enc.guard e (Bits.fld w 16 3 == 0) (.jmpr e (Enc.r w 6) (Enc.r w 11) (Enc.imm13 w))
  | 0x18 => Enc.vecAlu e w
  | 0x19 => Enc.vecMul e w
  | 0x1A => Enc.vecLane e w
  | _ => .illegal e

/-- The word at the program counter: IRAM as it stands without its patches (R221), or code flash. -/
def Dev.fetchWord (s : Dev) (e : Nat) : Word :=
  let k := s.barge e
  BitVec.ofNat 32 (if k.pc < 0x10000 then Mem.read 0 k.iram k.pc 4
    else if Barge.inFlash k.pc then s.flashRead (s.flashPhys k.pc) 4 else 0)

/-- What a barge instruction does, by its own row's meaning. Log 77 (DEDUCED, unsafe). -/
def Dev.runBarge (s : Dev) (i : Instr) : Outcome :=
  match i with
  | .addR e d a b => execAddR e d a b { dev := s }
  | .subR e d a b => execSubR e d a b { dev := s }
  | .andR e d a b => execAndR e d a b { dev := s }
  | .orR e d a b => execOrR e d a b { dev := s }
  | .xorR e d a b => execXorR e d a b { dev := s }
  | .shl e d a b => execShl e d a b { dev := s }
  | .shr e d a b => execShr e d a b { dev := s }
  | .sra e d a b => execSra e d a b { dev := s }
  | .lt e d a b => execLt e d a b { dev := s }
  | .ltu e d a b => execLtu e d a b { dev := s }
  | .minS e d a b => execMinS e d a b { dev := s }
  | .maxS e d a b => execMaxS e d a b { dev := s }
  | .minu e d a b => execMinu e d a b { dev := s }
  | .maxu e d a b => execMaxu e d a b { dev := s }
  | .clz e d a => execClz e d a { dev := s }
  | .adds e d a b => execAdds e d a b { dev := s }
  | .subs e d a b => execSubs e d a b { dev := s }
  | .addI e d a imm => execAddI e d a imm { dev := s }
  | .andI e d a imm => execAndI e d a imm { dev := s }
  | .orI e d a imm => execOrI e d a imm { dev := s }
  | .xorI e d a imm => execXorI e d a imm { dev := s }
  | .ltI e d a imm => execLtI e d a imm { dev := s }
  | .ltuI e d a imm => execLtuI e d a imm { dev := s }
  | .shlI e d a sh => execShlI e d a sh { dev := s }
  | .shrI e d a sh => execShrI e d a sh { dev := s }
  | .sraI e d a sh => execSraI e d a sh { dev := s }
  | .movh e d imm => execMovh e d imm { dev := s }
  | .adrh e d imm => execAdrh e d imm { dev := s }
  | .mulR e d a b => execMulR e d a b { dev := s }
  | .mulhS e d a b => execMulhS e d a b { dev := s }
  | .mulhU e d a b => execMulhU e d a b { dev := s }
  | .divS e d a b => execDivS e d a b { dev := s }
  | .divU e d a b => execDivU e d a b { dev := s }
  | .remS e d a b => execRemS e d a b { dev := s }
  | .remU e d a b => execRemU e d a b { dev := s }
  | .ldB e d base imm => execLdB e d base imm { dev := s }
  | .ldBu e d base imm => execLdBu e d base imm { dev := s }
  | .ldH e d base imm => execLdH e d base imm { dev := s }
  | .ldHu e d base imm => execLdHu e d base imm { dev := s }
  | .ldW e d base imm => execLdW e d base imm { dev := s }
  | .ldD e d base imm => execLdD e d base imm { dev := s }
  | .vldQ e v base imm => execVldQ e v base imm { dev := s }
  | .stB e src base imm => execStB e src base imm { dev := s }
  | .stH e src base imm => execStH e src base imm { dev := s }
  | .stW e src base imm => execStW e src base imm { dev := s }
  | .stD e src base imm => execStD e src base imm { dev := s }
  | .vstQ e v base imm => execVstQ e v base imm { dev := s }
  | .bEq e a b imm => execBEq e a b imm { dev := s }
  | .bNe e a b imm => execBNe e a b imm { dev := s }
  | .bLt e a b imm => execBLt e a b imm { dev := s }
  | .bGe e a b imm => execBGe e a b imm { dev := s }
  | .bLtu e a b imm => execBLtu e a b imm { dev := s }
  | .bGeu e a b imm => execBGeu e a b imm { dev := s }
  | .jmp e d imm => execJmp e d imm { dev := s }
  | .jmpr e d base imm => execJmpr e d base imm { dev := s }
  | .drain e => execDrain e { dev := s }
  | .syncI e => execSyncI e { dev := s }
  | .waitI e => execWaitI e { dev := s }
  | .retX e => execRetX e { dev := s }
  | .trap e => execTrap e { dev := s }
  | .brk e => execBrk e { dev := s }
  | .di e => execDi e { dev := s }
  | .ei e => execEi e { dev := s }
  | .illegal e => execIllegal e { dev := s }
  | .vadd e t vd va vb => execVadd e t vd va vb { dev := s }
  | .vsub e t vd va vb => execVsub e t vd va vb { dev := s }
  | .vadds e t vd va vb => execVadds e t vd va vb { dev := s }
  | .vsubs e t vd va vb => execVsubs e t vd va vb { dev := s }
  | .vmin e t vd va vb => execVmin e t vd va vb { dev := s }
  | .vmax e t vd va vb => execVmax e t vd va vb { dev := s }
  | .vabs e t vd va => execVabs e t vd va { dev := s }
  | .vand e vd va vb => execVand e vd va vb { dev := s }
  | .vor e vd va vb => execVor e vd va vb { dev := s }
  | .vxor e vd va vb => execVxor e vd va vb { dev := s }
  | .vmov e vd va => execVmov e vd va { dev := s }
  | .vsll e t vd va r => execVsll e t vd va r { dev := s }
  | .vsrl e t vd va r => execVsrl e t vd va r { dev := s }
  | .vsra e t vd va r => execVsra e t vd va r { dev := s }
  | .vcmpgt e t r va vb => execVcmpgt e t r va vb { dev := s }
  | .vcmpeq e t r va vb => execVcmpeq e t r va vb { dev := s }
  | .vsel e t vd va vb r => execVsel e t vd va vb r { dev := s }
  | .vmulH8 e vd va vb => execVmulH8 e vd va vb { dev := s }
  | .vmulhH8 e vd va vb => execVmulhH8 e vd va vb { dev := s }
  | .vmacH8 e vd va vb => execVmacH8 e vd va vb { dev := s }
  | .vmacsH8 e vd va r => execVmacsH8 e vd va r { dev := s }
  | .vmulW4 e vd va vb => execVmulW4 e vd va vb { dev := s }
  | .vpackH8 e vd va n => execVpackH8 e vd va n { dev := s }
  | .vwidenH8 e vd va => execVwidenH8 e vd va { dev := s }
  | .vextH e r va lane => execVextH e r va lane { dev := s }
  | .vextW e r va lane => execVextW e r va lane { dev := s }
  | .vinsH e vd lane r => execVinsH e vd lane r { dev := s }
  | .vinsW e vd lane r => execVinsW e vd lane r { dev := s }
  | .vbcastH e vd r => execVbcastH e vd r { dev := s }
  | .vbcastW e vd r => execVbcastW e vd r { dev := s }
  | .vredaddH8 e r va => execVredaddH8 e r va { dev := s }
  | _ => .next { dev := s }

/-- One instruction of barge `e`: fetched, decoded and executed. -/
def Dev.runOne (s : Dev) (e : BargeIx) : Dev :=
  match s.runBarge (Barge.decode e (s.fetchWord e)) with
  | .next t => t.dev
  | _ => s

/-- R436: a HALTED barge steps; with STEP_IRQ an eligible source is entered instead. A seized barge executes nothing. -/
def Dev.stepBarge (s : Dev) (e : BargeIx) : Dev :=
  let k := s.barge e
  if !k.dbg.halted || k.seized then s
  else
    let s := s.setBarge e { k.refetch with dbg := { k.dbg with halted := false, stepping := true } }
    if s.rb RegMap.dbgCtrl 3 && k.eligible.isSome then s.entry e false else s.runOne e

def execDbgStep (mask : DWord) (s : State) : Outcome := s.on fun s =>
  s.ndlReq false (fun s => (s.forEach ((List.finRange 64).filter (fun (e : BargeIx) => mask.getLsbD e.val)) Dev.stepBarge).ndl Ndl.ok [])

end Sys2Proof.Machine
end

