-- ==== Sys2Proof/Machine/Locks.lean ====
section
/-! DEFINITION. Locks (spec/08 R195 to R205): checking, look-ahead, insertion, late and repeating copies, firing. -/

namespace Sys2Proof.Machine

/-! ### Entries (Tables 8-13 to 8-15) -/

/-- The next firing time of a copy. -/
def Lock.time (e : LockEntry) : Nat := e.time.toNat

/-- Bits [1:0] of the TIME that an entry gives are ignored (Table 8-13); periods then add exactly (R202).
Log 69 (DEDUCED, unsafe). -/
def Lock.aligned (e : LockEntry) : LockEntry := { e with time := BitVec.ofNat 64 (e.time.toNat / 4 * 4) }

/-- Region actions, held by the regions' tables; the others by the chip table (Table 8-15). -/
def Lock.regional (e : LockEntry) : Bool := decide (e.action.toNat ≤ 9)

/-- The target kinds an action accepts. -/
def Lock.kinds : Nat → List Nat
  | 1 | 2 | 3 => [1] | 4 => [1, 2, 3] | 5 => [2] | 6 => [7] | 7 => [4] | 8 => [3] | 9 => [5] | 0xA => [6] | 0xD => [6]
  | _ => [0]

/-- Width of a target kind in bits. -/
def Lock.width : Nat → Nat
  | 0 => 0 | 3 => 32 | 5 => 16 | 7 => 8 | _ => 64

/-- PARAM lies in the range of the action (Table 8-15). -/
def Lock.paramOk (action p : Nat) : Bool :=
  match action with
  | 6 => decide (p < 24)
  | 7 => decide (1 ≤ p) && decide (p ≤ 10000000)
  | 8 => decide (p < 65536)
  | 9 => decide (p < 8)
  | 0xA => decide (p < 16)
  | 0xB | 0xC => true
  | 0xE => decide (100 ≤ p) && decide (p ≤ 1000000)
  | _ => decide (p = 0)

/-- The reason an entry is malformed, 0 for none (R195). -/
def Dev.lockReason (s : Dev) (e : LockEntry) : Nat :=
  let a := e.action.toNat
  let k := e.kind.toNat
  let t := e.target.toNat
  if a < 1 ∨ 0xE < a then 1
  else if !(Lock.kinds a).contains k then 2
  else if k ≠ 0 ∧ t = 0 then 3
  else if 2 ^ Lock.width k ≤ t then 4
  else if !Lock.paramOk a e.param.toNat then 5
  else if e.further ≠ 0 ∧ e.period.toNat < 1000 then 6
  else if e.devMask ≠ 0 ∧ !s.ring.posValid then 7
  else 0

/-- EV_LOCK_BAD and BAD_COUNT (R195, R196). -/
def Dev.lockBad (s : Dev) (e : LockEntry) (reason : Nat) (kept : Bool) (ring : Nat) : Dev :=
  let s := { s with lk := { s.lk with bad := Bits.satAdd 255 s.lk.bad 1 } }
  s.raise { stream := 0x88, code := 0x083, payload := Bits.words2 s.tbTime ++
    [BitVec.ofNat 32 (e.tag.toNat + reason * 65536 + Bits.b2n kept * 2 ^ 19), BitVec.ofNat 32 ring] }

/-- The indices a target set names, within one table (Table 8-14): cells, blocks, slices, lines, towpaths and barges are
split over the regions; a region mask names the region itself. -/
def Lock.targets (e : LockEntry) (table : Nat) : List Nat :=
  let bits := Bits.ones 64 e.target.toNat
  match e.kind.toNat with
  | 1 => if e.region.val = table then bits.map (fun n => 64 * e.region.val + n) else []
  | 2 => bits.filter (fun n => n / 8 == table)
  | 3 => bits.filter (fun n => n / 4 == table)
  | 4 => bits.filter (fun n => n / 8 == table)
  | 5 => bits.filter (fun n => n / 2 == table)
  | 7 => bits.filter (fun n => n == table)
  | _ => bits

/-- The tables an entry touches (R195). -/
def Lock.tables (e : LockEntry) : List Nat :=
  if Lock.regional e then (List.range 8).filter (fun g => !(Lock.targets e g).isEmpty) else [8]

/-! ### Late copies and repeats (R201, R202) -/

/-- Clock of a table (R201). -/
def Dev.lockClock (s : Dev) (t : Nat) : Nat := if t < 8 then s.rtime t else s.tbTime

/-- The copy after one used occurrence; none when it leaves its table. -/
def Lock.next (e : LockEntry) : Option LockEntry :=
  if e.further = 0 then none
  else some { e with
    time := BitVec.ofNat 64 (Lock.time e + e.period.toNat)
    further := if e.further = 65535 then e.further else e.further - 1 }

/-- Occurrences of a copy at or before the clock `now`, all of them in the past or due. -/
def Lock.passed (e : LockEntry) (now : Nat) : Nat :=
  if now < Lock.time e then 0
  else
    let n := if e.period = 0 then 1 else (now - Lock.time e) / e.period.toNat + 1
    if e.further = 65535 then n else min n (e.further.toNat + 1)

/-- The copy after `n` used occurrences (R202). -/
def Lock.skip (e : LockEntry) (n : Nat) : Option LockEntry :=
  if n = 0 then some e
  else if e.further ≠ 65535 ∧ e.further.toNat < n then none
  else if e.further = 0 then none
  else some { e with
    time := BitVec.ofNat 64 (Lock.time e + n * e.period.toNat)
    further := if e.further = 65535 then e.further else e.further - BitVec.ofNat 16 n }

/-- EV_LOCK_LATE and LATE_COUNT (R201). -/
def Dev.lockLate (s : Dev) (t : Nat) (e : LockEntry) (dropped removed : Bool) (missed : Nat) : Dev :=
  let s := { s with lk := { s.lk with late := Bits.satAdd 255 s.lk.late 1 } }
  let ev : Event := { stream := 0x88, code := 0x082, payload := Bits.words2 e.time.toNat ++ Bits.words2 (s.lockClock t) ++
    [BitVec.ofNat 32 (e.tag.toNat + t * 65536 + Bits.b2n dropped * 2 ^ 20 + Bits.b2n removed * 2 ^ 21),
     BitVec.ofNat 32 (min 65535 missed)] }
  if t < 8 then s.raiseIsland t true ev else s.raise ev

/-! ### Firing (R199, R200, Table 8-15) -/

/-- The pending class S values of the objects a lock names take effect (R199). -/
def Dev.lockCommit (s : Dev) (t : Nat) (e : LockEntry) : Dev :=
  s.forEach (Lock.targets e t) (fun s n =>
    match e.kind.toNat with
    | 1 => s.forEach (List.range 10) (fun s w => s.commitReg (RegMap.calCell n + 4 * w)) |>.commitProf n
    | 2 => s.commitBlock n
    | 3 => s.commitSlice n
    | _ => s)

/-- Count a cell command as acted on or refused. -/
def Lock.count (r : CmdRes × Dev) : Bool × Dev := (decide (r.1 ≠ .bad), r.2)

/-- The action of a lock on one target: whether the target took it. -/
def Dev.lockAct (s : Dev) (e : LockEntry) (n : Nat) : Bool × Dev :=
  let p := e.param.toNat
  match e.action.toNat with
  | 1 => Lock.count (s.chOn n)
  | 2 => Lock.count (s.chOff n)
  | 3 => Lock.count (s.chReset n)
  | 5 => (true, s.restartWindows n)
  | 6 => (true, s.auxUrgent n p)
  | 7 =>
    let s := s.modRegion (n / 8) (fun r => { r with
      lockLines := r.lockLines ++ [{ tag := e.tag.toNat, lines := 1 <<< (n % 8), slices := 0 }] })
    (true, s.extUpdate (n / 8))
  | 8 => (true, s.sliceSetpoint n p)
  | 9 => s.towStart n p true
  | 0xA => s.releaseMoored n p
  | 0xD => s.lockHalt n
  | _ => (true, s)

/-- The actions without a target. -/
def Dev.lockChip (s : Dev) (e : LockEntry) : Dev :=
  let now := s.tbTime / 4 * 4
  match e.action.toNat with
  | 0xB => (s.basinMark e.param.toNat e.tag.toNat now).bzFull
  | 0xC => (s.basinFreeze e.param.toNat e.tag.toNat now).bzFull
  | 0xE => ({ s with tb := { s.tb with syncOut := true } }).emit (.syncPulse e.param.toNat)
  | _ => s

/-- One firing of a copy in table `t`: its actions, refused targets counted, EV_LOCK_FIRED if asked (Table 8-15). -/
def Dev.lockFireOne (s : Dev) (t : Nat) (e : LockEntry) (late : Bool) : Dev :=
  let now := s.lockClock t / 4 * 4
  let step := fun (p : Nat × Nat × Dev) (n : Nat) =>
    let r := p.2.2.lockAct e n
    (p.1 + Bits.b2n r.1, p.2.1 + Bits.b2n (!r.1), r.2)
  let (acted, refused, s) := (Lock.targets e t).foldl step (0, 0, s)
  let s := if e.kind = 0 then s.lockChip e else s
  let s := { s with lk := { s.lk with refused := Bits.satAdd 255 s.lk.refused refused } }
  if e.notify then
    let ev : Event := { stream := 0x88, code := 0x081, payload := Bits.words2 now ++
      [BitVec.ofNat 32 (e.tag.toNat + t * 65536 + Bits.b2n late * 2 ^ 20), BitVec.ofNat 32 (acted + refused * 65536),
       BitVec.ofNat 32 e.further.toNat] }
    if t < 8 then s.raiseIsland t true ev else s.raise ev
  else s

/-- What is left of a late copy, and the occurrence that fires, if one does (R201, R202). -/
def Lock.lateSplit (e : LockEntry) (now : Nat) : Option LockEntry × Option LockEntry × Nat :=
  let n := max 1 (Lock.passed e now)
  let rest := Lock.skip e n
  if e.lateDrop then (rest, none, n) else (rest, Lock.skip e (n - 1), n - 1)

/-- Put a copy into a table. -/
def Dev.lockPut (s : Dev) (t : Nat) (e : LockEntry) : Dev :=
  s.modLockTable t (fun k =>
    let l := k.copies ++ [{ e := e }]
    { k with copies := l, high := max k.high l.length })

/-- A late copy (R201, R202): EV_LOCK_LATE, at most one firing, and the copy stays for occurrences to come. -/
def Dev.lockLateCopy (s : Dev) (t : Nat) (e : LockEntry) : Dev :=
  let (rest, fire, missed) := Lock.lateSplit e (s.lockClock t)
  let s := s.lockLate t e fire.isNone rest.isNone missed
  let s := match rest with
    | some r => s.lockPut t r
    | none => s
  match fire with
  | some f => (s.lockCommit t f).lockFireOne t f true
  | none => s

/-- Insert a copy in ascending order of action code (R200). -/
def Lock.sorted : List LockEntry → LockEntry → List LockEntry
  | [], e => [e]
  | a :: l, e => if e.action.toNat < a.action.toNat then e :: a :: l else a :: Lock.sorted l e

/-- R205, R199 to R202: every copy of the table whose time has come leaves it; commits come first, then the actions in
ascending action code, then the late copies; each copy with occurrences left goes back. A region whose clock has failed fires
none (R30). Log 71 (DEDUCED, safe). -/
def execLockFire (t : TableIx) (s : State) : Outcome := s.on fun s =>
  let now := s.lockClock t
  let k := s.lockTable t
  if t.val < 8 ∧ (!(s.region t).islandRun ∨ (s.region t).clkFail) then .next s
  else
    let due := k.copies.filter (fun c => !c.late && decide (Lock.time c.e ≤ now))
    let late := k.copies.filter (fun c => c.late)
    let s := s.setLockTable t { k with copies := k.copies.filter (fun c => !c.late && decide (now < Lock.time c.e)) }
    let fire := (due.map (·.e)).foldl Lock.sorted []
    let s := s.forEach fire (fun s e => s.lockCommit t e)
    let s := s.forEach fire (fun s e => s.lockFireOne t e false)
    let s := s.forEach fire (fun s e =>
      match Lock.next e with
      | none => s
      | some n => if Lock.time n ≤ now then s.lockLateCopy t n else s.lockPut t n)
    .next (s.forEach late (fun s c => s.lockLateCopy t c.e))

/-! ### Look-ahead, insertion, deferral (R196 to R198, R203) -/

/-- Entries of a table (R198). -/
def Lock.capacity (t : Nat) : Nat := if t < 8 then 1024 else 256

/-- A checked entry is split into copies for its tables (R195). -/
def Dev.lockSplit (s : Dev) (e : LockEntry) (ring : Option Nat) : Dev :=
  { s with lk := { s.lk with
    waits := s.lk.waits ++ (Lock.tables e).map (fun t => { table := t, e := Lock.aligned e, ring := ring }) } }

/-- This device's position bit is set (R196). -/
def Dev.lockMine (s : Dev) (e : LockEntry) : Bool := e.devMask == 0 || Bits.bit e.devMask s.ringPos

/-- An entry that reaches the lock unit is checked, sent on the cabinet ring if it names devices, and split (R195 to R197). -/
def Dev.lockAccept (s : Dev) (e : LockEntry) (source : Option Nat) (ring : Nat) : Dev :=
  let reason := s.lockReason e
  if reason ≠ 0 then s.lockBad e reason false ring
  else if e.devMask = 0 then s.lockSplit e source
  else
    let up := s.linksUp
    let s := if up.isEmpty then s.lockBad e 7 (s.lockMine e) ring else s.emit (.lockFrames up e)
    if s.lockMine e then s.lockSplit e source else s

/-- R352: RIDE_MS after a hand-over began; the first STOP_COUNT entries go to the lock unit, once per hand-over; none
while the core clock is absent. Log 124 (DEDUCED, unsafe). -/
def execStopSequence (s : State) : Outcome := s.on fun s =>
  let r := s.rv
  if r.path = 0 ∨ 3 < r.path ∨ r.stopDone then .next s
  else
    let start := s.tbTime
    let s := s.modRv (fun r => { r with stopDone := true, stopRan := true })
    let l := if s.pwr.core then (r.stop.take (s.rf (RegMap.rv 0x30) 16 6)).map (fun e =>
      { e with time := BitVec.ofNat 64 (start + e.time.toNat) }) else []
    let good := (l.filter (fun e => decide (s.lockReason e = 0))).length
    .next ((s.forEach l (fun s e => s.lockAccept e none 0)).rvEvent 0x145 false [BitVec.ofNat 32 good])

/-- R197, R195, R196: the head of lock ring `n` within the look-ahead is checked, sent on the ring if it names devices, and
split; the ring waits while a copy of its last entry waits. -/
def execLockFetch (n : Fin 16) (e : LockEntry) (s : State) : Outcome := s.on fun s =>
  let w := RegMap.lkRingId n
  let ring := s.rf w 0 20
  let ahead := max 1 (min 10000 (s.rf RegMap.lkCfg 16 14)) * 1000000
  if !s.rb RegMap.lkCfg 0 || !s.rb w 31 || s.lk.waits.any (fun x => x.ring == some n.val) ||
     decide (s.tbTime + ahead < Lock.time (Lock.aligned e)) || !s.lockRingReady ring then .next s
  else
    .next ((s.lockRingAdvance ring).lockAccept e (some n.val) ring)

/-- R196: forwarded on the other link, and inserted if this device's bit is set. Log 68 (DEDUCED, safe). -/
def execLockFrameReceive (link : Link) (e : LockEntry) (s : State) : Outcome := s.on fun s =>
  if !s.ring.posValid then .next s
  else
    let s := s.emit (.lockFrames [if link = .a then 1 else 0] e)
    .next (if s.lockMine e then
        (let reason := s.lockReason e
         if reason ≠ 0 then s.lockBad e reason false 0 else s.lockSplit e none)
      else s)

/-- R198, R201, R203: the oldest waiting copy of a table enters it, is deferred, or is late. -/
def Dev.lockInsert (s : Dev) (t : Nat) : Dev :=
  match takeFirst (fun (w : LockWait) => w.table == t) s.lk.waits with
  | none => s
  | some (w, rest) =>
    let take := { s with lk := { s.lk with waits := rest } }
    if t < 8 ∧ !s.straitUp t then
      if (s.lockTable t).deferred.length < 1024 then
        take.modLockTable t (fun k => { k with deferred := k.deferred ++ [w.e] })
      else
        let s := { take with lk := { take.lk with deferLost := Bits.satAdd 255 take.lk.deferLost 1 } }
        let s := { s with lk := { s.lk with late := Bits.satAdd 255 s.lk.late 1 } }
        s.raise { stream := 0x88, code := 0x082, payload := Bits.words2 w.e.time.toNat ++ Bits.words2 s.tbTime ++
          [BitVec.ofNat 32 (w.e.tag.toNat + t * 65536 + 3 * 2 ^ 20),
           BitVec.ofNat 32 (min 65535 (w.e.further.toNat + 1))] }
    else if (s.lockTable t).copies.length < Lock.capacity t then
      if Lock.time w.e ≤ s.lockClock t then take.lockLateCopy t w.e else take.lockPut t w.e
    else s.modLockTable t (fun k => { k with fullSeen := true })

def execLockInsert (t : TableIx) (s : State) : Outcome := s.on fun s => .next (s.lockInsert t)

/-- A cancel (R204): every copy with the tag leaves the tables it reaches, the deferred lists and the copies that wait.
Log 72 (DEDUCED, unsafe). -/
def Dev.lockCancel (s : Dev) (tag : Nat) : Dev :=
  let keep := fun (e : LockEntry) => decide (e.tag.toNat ≠ tag)
  let s := { s with lk := { s.lk with waits := s.lk.waits.filter (fun w => keep w.e) } }
  s.forEach (List.range 9) (fun s t =>
    s.modLockTable t (fun k =>
      let k := { k with deferred := k.deferred.filter keep }
      if t < 8 ∧ !s.straitUp t then { k with cancels := k.cancels ++ [tag] }
      else { k with copies := k.copies.filter (fun c => keep c.e) }))

/-- At rejoin (R203, R204): the held cancels, then the deferred list in order, each copy late or not. -/
def Dev.lockRejoin (s : Dev) (g : Nat) : Dev :=
  let k := s.lockTable g
  let s := s.setLockTable g { k with
    cancels := [], deferred := [], copies := k.copies.filter (fun c => !k.cancels.contains c.e.tag.toNat) }
  let s := { s with lk := { s.lk with
    waits := k.deferred.map (fun e => ({ table := g, e := e, ring := none } : LockWait)) ++ s.lk.waits } }
  s.forEach k.deferred (fun s _ => s.lockInsert g)

/-- R97: the hold of a TRIP_ASSERT lock ends and its source lets go of the lines. -/
def execTripAssertEnd (g : RegionIx) (tag : BitVec 16) (s : State) : Outcome := s.on fun s =>
  let s := s.modRegion g (fun r => { r with lockLines := r.lockLines.filter (fun l => l.tag != tag.toNat) })
  .next (s.extUpdate g)

end Sys2Proof.Machine
end

