-- ==== Sys2Proof/Machine/Flash.lean ====
section
/-! DEFINITION. Code flash: image slots, their headers and when a slot is valid (spec/18 R416, R417, Table 18-3). -/

namespace Sys2Proof.Machine

/-- Size of a slot of an area: 0 runtime, 1 customer tasks. -/
def Flash.slotSize (area : Nat) : Nat := if area = 0 then 0x400000 else 0x300000
/-- Physical offset of a slot. -/
def Flash.slotBase (area slot : Nat) : Nat := (if area = 0 then 0 else 0x800000) + slot * Flash.slotSize area

/-- `n` bytes of flash from a physical offset, as numbers. -/
def Dev.flashBytes (s : Dev) (phys n : Nat) : List Nat :=
  (List.range n).map (fun i => (Sparse.get (fun _ => 0xFF) s.flash (phys + i)).toNat)

/-- Write bytes into flash. -/
def Dev.flashWrite (s : Dev) (phys : Nat) (l : List Byte) : Dev :=
  { s with flash := (l.foldl (fun (p : Nat × Sparse Byte) b => (p.1 + 1, Sparse.set (fun _ => 0xFF) p.2 p.1 b)) (phys, s.flash)).2 }

/-- Erase `n` bytes: each reads 0xFF. -/
def Dev.flashErase (s : Dev) (phys n : Nat) : Dev :=
  { s with flash := s.flash.filter (fun p => decide (p.1 < phys) || decide (phys + n ≤ p.1)) }

/-- A little-endian word of a header. -/
def Header.word (h : List Nat) (o : Nat) : Nat := Sha.ofLe ((h.drop o).take 4)

/-- LENGTH of a header. -/
def Header.length (h : List Nat) : Nat := Header.word h 0x10

/-- MAGIC, FORMAT, AREA, LENGTH and HDR_CRC of a header are correct (R416). -/
def Header.ok (area : Nat) (h : List Nat) : Bool :=
  decide (Header.word h 0 = 0x4D444541) && decide (Header.word h 4 = 1 + area * 256) && decide (Header.length h % 4096 = 0) &&
  decide (Header.length h ≤ Flash.slotSize area - 4096) && decide (Crc32.crc (h.take 0xFC) = Header.word h 0xFC)

/-- The body at a slot has the digest of a header (R416). -/
def Dev.bodyOk (s : Dev) (base : Nat) (h : List Nat) : Bool :=
  Sha.sha256 (s.flashBytes (base + 0x1000) (Header.length h)) == (h.drop 0x18).take 32

/-- A slot is valid (R416). -/
def Dev.slotValid (s : Dev) (area slot : Nat) : Bool :=
  let b := Flash.slotBase area slot
  let h := s.flashBytes b 256
  Header.ok area h && s.bodyOk b h

/-- SEQ of a slot. -/
def Dev.slotSeq (s : Dev) (area slot : Nat) : Nat := Header.word (s.flashBytes (Flash.slotBase area slot) 256) 0x0C

/-- The slot an area boots: the valid one with the higher SEQ, slot 0 if they are equal (R416). -/
def Dev.bootSlot (s : Dev) (area : Nat) : Option Nat :=
  match s.slotValid area 0, s.slotValid area 1 with
  | true, true => if s.slotSeq area 0 < s.slotSeq area 1 then some 1 else some 0
  | true, false => some 0
  | false, true => some 1
  | false, false => none

/-- A header with SEQ replaced and its CRC formed again (R417). -/
def Header.renumber (h : List Byte) (seq : Nat) : List Byte :=
  let b := h.take 0x0C ++ Bytes.le 4 seq ++ (h.drop 0x10).take 0xEC
  b ++ Bytes.le 4 (Crc32.crc (b.map BitVec.toNat))

end Sys2Proof.Machine
end

