-- ==== Sys2Proof/Machine/Longops.lean ====
section
/-! DEFINITION. Long operations (spec/12 R285 to R297): start, steps, suspension, cancellation, backpressure, and what each
operation does. -/

namespace Sys2Proof.Machine

def St.accepted : Nat := 0x01
def St.cancelled : Nat := 0x17
def St.partly : Nat := 0x18
def St.calUnstable : Nat := 0x20
def St.calRange : Nat := 0x21
def St.flashVerify : Nat := 0x22

/-! ### Start (R285) -/

/-- Any operation that is not DONE satisfies `p`. -/
def Dev.anyOp (s : Dev) (p : OpBody → Bool) : Bool :=
  s.ops.any (fun q => match q.2 with | some o => p o.body | none => false)

/-- A free handle slot. -/
def Dev.freeSlot (s : Dev) : Option Nat := (List.range 64).find? (fun n => (s.op n).isNone)

/-- The next generation of a slot: 26 bits, never one that gives handle 0. -/
def Dev.nextGen (s : Dev) (n : Nat) : Nat :=
  let g := (Sparse.get (fun _ => 0) s.opGen n + 1) % 2 ^ 26
  if n = 0 ∧ g = 0 then 1 else g

/-- The start of an operation: ST_NO_RESOURCE without a free slot, or ST_ACCEPTED with its handle. -/
def Dev.opStart (s : Dev) (d : Desc) (op : Nat) (body : OpBody) : Dev :=
  match s.freeSlot with
  | none => s.fail d op St.noResource
  | some n =>
    let s := { s with opGen := Sparse.set (fun _ => 0) s.opGen n (s.nextGen n) }
    let s := s.setOp n (some { opcode := op, ring := d.ring.toNat, cmdId := d.cmdId.toNat, body := body })
    (s.answer d).complete { cmdRing := d.ring.toNat, cmdId := d.cmdId.toNat, opcode := op, status := St.accepted
                            handle := s.handle n, final := false }

/-! ### Ends and boundaries (R287, R290, R291) -/

/-- The final completion, or the wait for its reservation. -/
def Dev.opFinish (s : Dev) (n : Nat) (o : Op) (status r0 r1 : Nat) (chunk : Option Nat) : Dev :=
  if o.reserved || s.canReserve (s.boundOf o.ring) then
    let s := s.setOp n (some { o with ended := true, reserved := false, body := .done status r0 r1 chunk })
    s.complete {
      cmdRing := o.ring, cmdId := o.cmdId, opcode := o.opcode, status := status, handle := s.handle n
      r0 := BitVec.ofNat 32 r0, r1 := BitVec.ofNat 32 r1, final := true, chunk := chunk, first := false, reserved := true }
  else
    let o := { o with body := .done status r0 r1 chunk }
    if o.state = .cancelling then s.setOp n (some { o with bpWait := true }) else s.opGoto n o .suspendedBp

/-- A step boundary: a suspend request acts (R287). -/
def Dev.opBoundary (s : Dev) (n : Nat) (o : Op) : Dev :=
  let o := { o with steps := o.steps + 1 }
  if o.suspendReq then s.opGoto n { o with suspendReq := false } .suspended else s.setOp n (some o)

/-- A step that ends in a completion (R291): it starts once its entry is reserved. -/
def Dev.opReserved (s : Dev) (n : Nat) (o : Op) (f : Op → Dev) : Dev :=
  if o.reserved || s.canReserve (s.boundOf o.ring) then f { o with reserved := true } else s.opGoto n o .suspendedBp

/-- The completion of a chunk that is not the last (R292). -/
def Dev.opChunk (s : Dev) (n : Nat) (o : Op) (chunk bytes page : Nat) : Dev :=
  let s := s.complete {
    cmdRing := o.ring, cmdId := o.cmdId, opcode := o.opcode, status := 0, handle := s.handle n
    r0 := BitVec.ofNat 32 bytes, r1 := BitVec.ofNat 32 page, final := false, chunk := some chunk, first := false
    reserved := true }
  s.opBoundary n { o with reserved := false }

/-! ### Bank sequences (R293 to R295) -/

/-- A cell is in PRECHECK, WAIT_GRANT or INRUSH. -/
def Dev.unsettled (s : Dev) (c : Nat) : Bool := [CellState.precheck, .waitGrant, .inrush].contains (s.cell c).state

/-- The outcome of a settled cell (R294, R295). -/
def Bank.outcome : CellState → Nat
  | .on | .limit => 1
  | .tripped | .cooldown | .latched => 3
  | .off | .probe => 4
  | _ => 6

/-- Outcomes of applied entries whose cells have settled are fixed. -/
def Dev.bankFix (s : Dev) (l : List BankEnt) : List BankEnt :=
  l.map (fun e => if e.applied && e.outcome.isNone && !s.unsettled e.cell then
    { e with outcome := some (Bank.outcome (s.cell e.cell).state) } else e)

def BankEnt.failed (e : BankEnt) : Bool := match e.outcome with | some k => k != 1 | none => false

/-- The outcome byte of an entry. -/
def BankEnt.byte (e : BankEnt) : Byte :=
  BitVec.ofNat 8 (match e.outcome with | some k => k | none => if e.applied then 7 else 0)

/-- The end of a bank sequence: outcome bytes, then the final completion (R295). -/
def Dev.bankEnd (s : Dev) (n : Nat) (o : Op) (b : BankSeq) (cancelled : Bool) : Dev :=
  let count := fun (p : BankEnt → Bool) => (b.ents.filter p).length
  let on := count (fun e => e.outcome == some 1)
  let s := if b.outAddr = 0 then s else s.emit (.hostBytes b.outAddr (b.ents.map BankEnt.byte))
  let status := if cancelled then St.cancelled else if on = b.ents.length then 0 else St.partly
  s.opFinish n { o with body := .bank b } status (on + count BankEnt.failed * 65536) (count (·.applied)) none

/-- The entry after `k`; STOP_ON_FAIL ends the applications (R294). -/
def BankSeq.advance (b : BankSeq) : BankSeq :=
  let e := b.ents.getD b.k { cell := 0, wait := 0, delay := 0 }
  { b with k := b.k + 1, delay := none, tried := false, stopped := b.stopOnFail && e.failed }

/-- Apply entry `k` (R294). -/
def Dev.bankApply (s : Dev) (b : BankSeq) (e : BankEnt) : BankSeq × Dev :=
  let put := fun (e : BankEnt) => { b with ents := b.ents.set b.k e, tried := true }
  if s.auto (e.cell / 64) then (put { e with outcome := some 5 }, s)
  else match s.chOn e.cell with
    | (.bad, _) => (put { e with outcome := some 2 }, s)
    | (_, s) => (put { e with applied := true }, s)

/-- The wait of an entry has ended. -/
def Dev.bankWaited (s : Dev) (e : BankEnt) : Bool :=
  !e.applied || (match e.wait with
    | 1 => !([CellState.precheck, .waitGrant].contains (s.cell e.cell).state)
    | 2 => !s.unsettled e.cell
    | _ => true)

/-- One step of a bank sequence: an application, or a 1 ms tick of a delay or a wait (R294). -/
def Dev.bankStep (s : Dev) (n : Nat) (o : Op) (b : BankSeq) : Dev :=
  let b := { b with ents := s.bankFix b.ents }
  if b.stopped || decide (b.ents.length ≤ b.k) then
    if b.ents.any (fun e => e.applied && e.outcome.isNone) then s.opBoundary n { o with body := .bank b }
    else s.bankEnd n o b false
  else
    let e := b.ents.getD b.k { cell := 0, wait := 0, delay := 0 }
    if b.tried then
      s.opBoundary n { o with body := .bank (if s.bankWaited e then b.advance else b) }
    else
      let left := match b.delay with | none => e.delay | some d => d - 1
      let inflight := (b.ents.filter (fun e => e.applied && s.unsettled e.cell)).length
      if 0 < left ∨ (b.maxInflight ≠ 0 ∧ b.maxInflight ≤ inflight) then
        s.opBoundary n { o with body := .bank { b with delay := some left } }
      else
        let (b, s) := s.bankApply { b with delay := some 0 } e
        let b := { b with ents := s.bankFix b.ents }
        let e := b.ents.getD b.k e
        s.opBoundary n { o with body := .bank (if s.bankWaited e then b.advance else b) }

/-- Entries of Table 12-5. Log 99 (DEDUCED, unsafe). -/
def Bank.entry (w : Nat) : BankEnt := { cell := w % 512, wait := w / 512 % 4, delay := w / 65536 % 65536 }

def execBankSequence (d : Desc) (list : Option (List Word)) (s : State) : Outcome := s.on fun s =>
  let count := d.pf 0 0 10
  let indirect := Bits.nbit (d.par 0) 10
  let masks := if indirect then [Cmd.all, Cmd.all] else List.replicate (min 10 count) 0xFFFF07FF
  s.cmd d 0x0180 [0] ([0x01FF0FFF, Cmd.all, Cmd.all] ++ masks) (fun s =>
    let words := if indirect then (list.getD []).map BitVec.toNat else (List.range 10).map (fun i => d.par (3 + i))
    let ents := (words.take count).map Bank.entry
    let cells := ents.map (·.cell)
    if count < 1 ∨ 512 < count ∨ (!indirect ∧ 10 < count) ∨ d.par64 1 % 64 ≠ 0 ∨ (indirect ∧ d.par64 3 % 4 ≠ 0) then
      s.fail d 0x0180 St.badParam
    else if indirect ∧ list.isNone then s.fail d 0x0180 St.hostError
    else if cells.length ≠ cells.eraseDups.length ∨ ents.any (fun e => e.wait == 3) then s.fail d 0x0180 St.badParam
    else if s.anyOp (fun b => match b with | .bank q => q.ents.any (fun e => cells.contains e.cell) | _ => false) then
      s.fail d 0x0180 St.busy
    else s.opStart d 0x0180 (.bank {
      ents := ents, stopOnFail := Bits.nbit (d.par 0) 11, maxInflight := d.pf 0 16 9, outAddr := d.par64 1 }))

/-! ### SURVEY (R167, R297) -/

def SurveySum.add (p : SurveySum) (i v : Int) : SurveySum :=
  { n := p.n + 1, si := p.si + i, sv := p.sv + v, sii := p.sii + i * i, siv := p.siv + i * v, svv := p.svv + v * v
    lo := if p.n = 0 then i else min p.lo i, hi := if p.n = 0 then i else max p.hi i }

/-- The fit of one cell: slope (uohm), offset (uV), rms residual (uV), truncating. Log 101 (DEDUCED, unsafe). -/
def SurveySum.fit (p : SurveySum) : Int × Int × Nat :=
  let n : Int := p.n
  let dd := n * p.sii - p.si * p.si
  let num := n * p.siv - p.si * p.sv
  let sse := (n * p.svv - p.sv * p.sv) * dd - num * num
  ((num * 1000000).tdiv dd, (p.sv * p.sii - p.si * p.siv).tdiv dd, Conv.isqrt (sse.tdiv (dd * n * n)).toNat)

/-- 0 OK, 1 LOW_SPREAD, 2 FEW_POINTS (R297). -/
def Dev.surveyCode (s : Dev) (c : Nat) (p : SurveySum) : Nat :=
  let spread : Int := ((s.fsUv c * 1000000 / (8 * max 1 (s.pword c 1).toNat) : Nat) : Int)
  if p.n < 16 then 2 else if p.hi - p.lo < spread then 1 else 0

/-- The entry of a cell in the result buffer. Slope, offset and residual of a cell without a fit are free. -/
def Dev.surveyEntry (s : Dev) (c : Nat) (p : SurveySum) : List Word × Dev :=
  let code := s.surveyCode c p
  let pc := BitVec.ofNat 32 (min 65535 p.n + code * 65536)
  if code = 0 then
    let (r, o, e) := p.fit
    ([BitVec.ofInt 32 r, BitVec.ofInt 32 o, pc, BitVec.ofNat 32 e], s)
  else
    let (a, s) := s.drawWord
    let (b, s) := s.drawWord
    let (x, s) := s.drawWord
    ([a, b, pc, x], s)

/-- PATH_OFS of a fitted cell is written, class S (R167). -/
def Dev.surveyApply (s : Dev) (c : Nat) (p : SurveySum) : Dev :=
  if s.surveyCode c p ≠ 0 then s
  else (s.pendReg (RegMap.calCell c + 0x20) (BitVec.ofInt 32 p.fit.2.1) 0xFFFFFFFF).pendReg (RegMap.calCell c + 0x24) 1 1

/-- The end of a survey: buffer, offsets unless it was cancelled, final completion. -/
def Dev.surveyEnd (s : Dev) (n : Nat) (o : Op) (g addr cells : Nat) (apply wasAuto : Bool) (pts : Sparse SurveySum)
    (cancelled : Bool) : Dev :=
  let at' := fun (i : Nat) => Sparse.get (fun _ => {}) pts i
  let step := fun (p : List Word × Dev) (i : Nat) =>
    let r := p.2.surveyEntry (64 * g + i) (at' i)
    (p.1 ++ r.1, r.2)
  let (words, s) := (List.range 64).foldl step ([], s)
  let s := s.emit (.hostWrite addr words)
  let sel := Bits.ones 64 cells
  let s := if apply ∧ !cancelled ∧ s.straitUp g then s.forEach sel (fun s i => s.surveyApply (64 * g + i) (at' i)) else s
  let failed := wasAuto || sel.any (fun i => s.surveyCode (64 * g + i) (at' i) != 0)
  s.opFinish n o (if cancelled then St.cancelled else if failed then St.partly else 0) 0 0 none

def Dev.surveyStep (s : Dev) (n : Nat) (o : Op) (g addr cells leftMs : Nat) (apply wasAuto : Bool) (pts : Sparse SurveySum)
    (x : StepIn) : Dev :=
  let wasAuto := wasAuto || s.auto g
  match x with
  | .span c =>
    let pts := match (s.lane c).spanPt with
      | some (i, v) =>
        if c.val / 64 = g ∧ Bits.nbit cells (c % 64) ∧ !s.auto g then
          Sparse.modify (fun _ => {}) pts (c % 64) (fun (p : SurveySum) => p.add i v)
        else pts
      | none => pts
    s.opBoundary n { o with body := .survey g addr cells leftMs apply wasAuto pts }
  | .none =>
    if leftMs ≤ 1 then s.surveyEnd n o g addr cells apply wasAuto pts false
    else s.opBoundary n { o with body := .survey g addr cells (leftMs - 1) apply wasAuto pts }
  | _ => s

def execSurvey (d : Desc) (s : State) : Outcome := s.on fun s =>
  s.cmd d 0x0181 [3] [Cmd.all, Cmd.all, Cmd.all, Cmd.all, Cmd.all, 1] (fun s =>
    let g := d.tindex.toNat
    if d.par64 0 % 64 ≠ 0 ∨ d.par 4 < 1 ∨ 86400 < d.par 4 then s.fail d 0x0181 St.badParam
    else if s.anyOp (fun b => match b with | .survey r .. => r == g | _ => false) then s.fail d 0x0181 St.busy
    else s.opStart d 0x0181 (.survey g (d.par64 0) (d.par64 2) (1000 * d.par 4) (Bits.nbit (d.par 5) 0) false []))

/-! ### CAL_RUN and CAL_STORE (R175, R176, R297) -/

/-- Registers of the coefficients: offset word, gain word. -/
def Dev.calRegs (s : Dev) (qty tindex aux : Nat) : Nat × Nat :=
  match qty with
  | 0 =>
    let r := s.pf tindex 0 2 2
    (RegMap.calCell tindex + 8 * r, RegMap.calCell tindex + 8 * r + 4)
  | 1 => (RegMap.calCell tindex + 0x18, RegMap.calCell tindex + 0x1C)
  | 2 => (RegMap.calVin tindex, RegMap.calVin tindex + 4)
  | _ => (RegMap.calAux tindex aux, RegMap.calAux tindex aux + 4)

/-- The reference in internal units (R175). -/
def Dev.calRef (s : Dev) (qty tindex : Nat) (ref : Int) : Int :=
  if qty = 0 then (ref * (s.pword tindex 1).toNat * 8388608).tdiv (1000000 * (s.fsUv tindex : Nat)) else (ref * 16).tdiv 125

/-- Offset limit of Table 2-8 for the current path, in internal units. -/
def Dev.driftLimit (s : Dev) (c : Nat) : Nat :=
  (match s.pf c 0 2 2 with | 0 => 10 | 1 => 12 | _ => 20) * 8388608 / s.fsUv c

/-- The nearest integer to a quotient. -/
def Cal.round (a b : Int) : Int := (2 * a + b).fdiv (2 * b)

/-- Go on to the store, or to the final completion. -/
def Dev.calDone (s : Dev) (n : Nat) (o : Op) (g : Nat) (store : Bool) (r0 : Word) (r1 : Nat) : Dev :=
  if store then s.opBoundary n { o with body := .calStore g r0 (BitVec.ofNat 32 r1) }
  else s.opFinish n o 0 r0.toNat r1 none

/-- Sixteen good windows with mean `m` (R175). -/
def Dev.calResult (s : Dev) (n : Nat) (o : Op) (g tindex mode qty aux : Nat) (store : Bool) (ref m : Int) : Dev :=
  let (ofs, gain) := s.calRegs qty tindex aux
  match mode with
  | 0 =>
    if -1048576 ≤ m ∧ m ≤ 1048576 then
      (s.pendReg ofs (BitVec.ofInt 32 m) 0xFFFFFFFF).calDone n o g store (BitVec.ofInt 32 m) 0
    else s.opFinish n o St.calRange 0 0 none
  | 1 =>
    let den := m - (s.reg ofs).toInt
    let k := Cal.round (2 ^ 30 * s.calRef qty tindex ref) den
    if den ≠ 0 ∧ 0x38000000 ≤ k ∧ k ≤ 0x48000000 then
      (s.pendReg gain (BitVec.ofInt 32 k) 0xFFFFFFFF).calDone n o g store (BitVec.ofInt 32 k) 0
    else s.opFinish n o St.calRange 0 0 none
  | _ => s.calDone n o g store (BitVec.ofInt 32 m) (Bits.b2n (decide (s.driftLimit tindex < m.natAbs)))

/-- The region of a calibration target. -/
def Cal.region (tkind tindex : Nat) : Nat := match tkind with | 1 => tindex / 64 | 2 => tindex / 8 | _ => tindex

def Dev.calStep (s : Dev) (n : Nat) (o : Op) (tkind tindex mode qty aux : Nat) (store : Bool) (ref : Int) (k : Nat) (sum : Int)
    (all : Nat) (x : StepIn) : Dev :=
  match x with
  | .window xf complete =>
    let k' := if complete then k + 1 else 0
    let sum' := if complete then sum + xf.toInt else 0
    if k' = 16 then
      s.calResult n { o with steps := o.steps + 1 } (Cal.region tkind tindex) tindex mode qty aux store ref (sum'.tdiv 16)
    else if 63 ≤ all then s.opFinish n o St.calUnstable 0 0 none
    else s.opBoundary n { o with body := .cal tkind tindex mode qty aux store ref k' sum' (all + 1) }
  | .none => s.opBoundary n o
  | _ => s

/-- A calibration operation of the region is not DONE. -/
def Dev.calBusy (s : Dev) (g : Nat) : Bool :=
  s.anyOp (fun b => match b with | .cal k i .. => Cal.region k i == g | .calStore r .. => r == g | _ => false)

def execCalRun (d : Desc) (s : State) : Outcome := s.on fun s =>
  s.cmd d 0x0200 [1, 2, 3] [0xFF, Cmd.all] (fun s =>
    let kind := d.tkind.toNat
    let i := d.tindex.toNat
    let mode := d.pf 0 0 2
    let qty := d.pf 0 2 2
    let ref : Int := Bits.sext 32 (d.par 1)
    let small := if qty = 0 then decide (ref * (s.pword i 1).toNat * 4 < (s.fsUv i : Nat) * 1000000) else decide (ref < 4000000)
    let stopped := decide ((s.cell i).state = .off) || decide ((s.cell i).state = .disabled)
    if mode = 3 ∨ kind ≠ (if qty ≤ 1 then 1 else qty) ∨ (mode = 1 ∧ small) ∨ (mode = 2 ∧ qty ≠ 0) then s.fail d 0x0200 St.badParam
    else if s.calBusy (Cal.region kind i) then s.fail d 0x0200 St.busy
    else if qty = 0 ∧ mode ≠ 1 ∧ !stopped then s.fail d 0x0200 St.badState
    else s.opStart d 0x0200 (.cal kind i mode qty (d.pf 0 4 3) (Bits.nbit (d.par 0) 7) ref 0 0 0))

def execCalStore (d : Desc) (s : State) : Outcome := s.on fun s =>
  s.cmd d 0x0201 [3] [] (fun s =>
    let g := d.tindex.toNat
    if s.calBusy g then s.fail d 0x0201 St.busy else s.opStart d 0x0201 (.calStore g 0 0))

/-! ### CAPTURE_EXPORT (R310) -/

def Export.chunk : Nat := 21845

/-- An entry is exported: a frame of a selected block, a mark or a gap record. -/
def Export.selects (mask : Nat) (e : List Word) : Bool :=
  let b := Bits.fld (e.getD 2 0) 24 8
  decide (64 ≤ b) || Bits.nbit mask b

def Dev.captureStep (s : Dev) (n : Nat) (o : Op) (dest next left mask destLen page chunk : Nat) (x : StepIn) : Dev :=
  match x with
  | .entries l ok =>
    s.opReserved n o (fun o =>
      if !ok then s.opFinish n o St.hostError 0 0 none
      else
        let k := min Export.chunk left
        let out := (l.take k).filter (Export.selects mask)
        let bytes := 48 * out.length
        let pages := (bytes + 4095) / 4096
        if destLen < page + pages then s.opFinish n o St.partly 0 0 none
        else
          let s := if out.isEmpty then s else s.emit (.hostWrite (dest + 4096 * page) out.flatten)
          let o := { o with body := .capture dest (next + k) (left - k) mask destLen (page + pages) (chunk + 1) }
          if left ≤ Export.chunk then s.opFinish n { o with steps := o.steps + 1 } 0 bytes page (some chunk)
          else s.opChunk n o chunk bytes page)
  | _ => s

def execCaptureExport (d : Desc) (s : State) : Outcome := s.on fun s =>
  s.cmd d 0x0480 [0] (List.replicate 8 Cmd.all) (fun s =>
    let first := d.par64 2
    let count := d.par 4
    if d.par64 0 % 4096 ≠ 0 ∨ count = 0 ∨ first < s.bz.w - s.bzCap ∨ s.bz.w < first + count ∨ 65536 * Export.chunk < count then
      s.fail d 0x0480 St.badParam
    else if s.exporting then s.fail d 0x0480 St.busy
    else if !s.bz.frozen then s.fail d 0x0480 St.badState
    else s.opStart d 0x0480 (.capture (d.par64 0) first count (d.par64 5) (d.par 7) 0 0))

/-! ### FLASH_UPDATE (R297, R416, R417) -/

/-- The slot of an area that does not run. -/
def Dev.idleSlot (s : Dev) (area : Nat) : Nat := 1 - (if area = 0 then s.rtSlot else s.custSlot)

/-- Log 103 (DEDUCED, unsafe). -/
def Flash.chunk : Nat := 0x100000

/-- Verify the image in the idle slot against its header, and write the header last with the next SEQ (R417). -/
def Dev.flashCommit (s : Dev) (area : Nat) (hdr : List Byte) : Bool × Dev :=
  let base := Flash.slotBase area (s.idleSlot area)
  let h := hdr.map BitVec.toNat
  if Header.ok area h && s.bodyOk base h then
    (true, s.flashWrite base (Header.renumber hdr (s.slotSeq area (1 - s.idleSlot area) + 1)))
  else (false, s)

def Dev.flashStep (s : Dev) (n : Nat) (o : Op) (src len area done chunk phase : Nat) (hdr : List Byte) (x : StepIn) : Dev :=
  let base := Flash.slotBase area (s.idleSlot area)
  let k := min Flash.chunk (len - done)
  match phase, x with
  | 0, .bytes l ok =>
    if !ok then s.opFinish n o St.hostError 0 0 none
    else
      let s := if chunk = 0 then s.flashErase base (Flash.slotSize area) else s
      let h := if chunk = 0 then l.take 256 else hdr
      let s := if chunk = 0 then s.flashWrite (base + 256) ((l.take k).drop 256) else s.flashWrite (base + done) (l.take k)
      s.opBoundary n { o with body := .flash src len area done chunk 1 h }
  | 1, .last =>
    if done + k = len then s.opBoundary n { o with body := .flash src len area done chunk 2 hdr }
    else s.opReserved n o (fun o =>
      s.opChunk n { o with body := .flash src len area (done + k) (chunk + 1) 0 hdr } chunk k (done / 4096))
  | 2, .verified ok =>
    s.opReserved n o (fun o =>
      let r := if ok then s.flashCommit area hdr else (false, s)
      r.2.opFinish n { o with steps := o.steps + 1 } (if r.1 then 0 else St.flashVerify) k (done / 4096) (some chunk))
  | _, .none => s.opBoundary n o
  | _, _ => s

def execFlashUpdate (d : Desc) (s : State) : Outcome := s.on fun s =>
  s.cmd d 0x0980 [0] [Cmd.all, Cmd.all, Cmd.all, 1] (fun s =>
    let len := d.par 2
    let area := d.pf 3 0 1
    if d.par64 0 % 64 ≠ 0 ∨ len = 0 ∨ len % 4096 ≠ 0 ∨ Flash.slotSize area < len then s.fail d 0x0980 St.badParam
    else if s.anyOp (fun b => match b with | .flash .. => true | _ => false) then s.fail d 0x0980 St.busy
    else s.opStart d 0x0980 (.flash (d.par64 0) len area 0 0 0 []))

/-! ### TOWPATH_SCAN (R380) -/

/-- An address is probed. -/
def Dev.scanned (s : Dev) (t a : Nat) : Bool :=
  decide (0x08 < a) && decide (a < 0x78) && a != 0x0C && a != 0x61 && a != s.rf (RegMap.twCfg t) 20 7

/-- The next address from `next` on. -/
def Dev.scanNext (s : Dev) (t next last : Nat) : Option Nat :=
  (List.range 128).find? (fun a => decide (next ≤ a) && decide (a ≤ last) && s.scanned t a)

/-- The address under probe: in turn, then those to repeat. -/
def Dev.scanAt (s : Dev) (t next last : Nat) (lost : List Nat) : Option Nat :=
  match s.scanNext t next last with
  | some a => some a
  | none => lost.head?

/-- The probe has run on slot 7. -/
def Dev.scanSlot (s : Dev) (t a : Nat) (receive : Bool) (result : Nat) : Dev :=
  let s := s.setReg (RegMap.slotA t 7) (BitVec.ofNat 32 (a + (if receive then 3 * 256 else 0) + 3 * 2 ^ 14))
  s.modTow t (fun w => { w.setStat 7 { w.stat 7 with result := result, done := true, byLock := false } with last := 7 })

def Dev.scanEnd (s : Dev) (n : Nat) (o : Op) (addr found : Nat) (status : Nat) : Dev :=
  (s.emit (.hostWrite addr (Bits.words4 found))).opFinish n o status 0 0 none

def Dev.scanStep (s : Dev) (n : Nat) (o : Op) (t addr : Nat) (receive : Bool) (next last found : Nat) (lost : List Nat)
    (failed : Bool) (x : StepIn) : Dev :=
  let finish := fun (s : Dev) (o : Op) (next found : Nat) (lost : List Nat) (failed : Bool) =>
    match s.scanAt t next last lost with
    | some _ => s.opBoundary n { o with body := .scan t addr receive next last found lost failed }
    | none => s.scanEnd n { o with steps := o.steps + 1 } addr found (if failed then St.partly else 0)
  match s.scanAt t next last lost, x with
  | none, _ => s.scanEnd n o addr found (if failed then St.partly else 0)
  | some a, .probe b ack =>
    if b.toNat ≠ a ∨ !s.islandClk (t / 2) then s
    else
      let again := (s.scanNext t next last).isNone
      let s := s.scanSlot t a receive (match ack with | some true => 0 | some false => 1 | none => 3)
      let found := if ack = some true then found ||| (1 <<< a) else found
      if again then finish s o next found (lost.drop 1) (failed || ack.isNone)
      else finish s o (a + 1) found (if ack.isNone then lost ++ [a] else lost) failed
  | some _, .none => s.opBoundary n o
  | _, _ => s

def execTowpathScan (d : Desc) (s : State) : Outcome := s.on fun s =>
  s.cmd d 0x0780 [5] [0x17F7F, Cmd.all, Cmd.all] (fun s =>
    let t := d.tindex.toNat
    let busy := s.anyOp (fun b => match b with | .scan u .. => u == t | _ => false)
    if d.par64 1 % 64 ≠ 0 ∨ d.pf 0 8 7 < d.pf 0 0 7 then s.fail d 0x0780 St.badParam
    else if busy ∨ (s.tow t).inUse 7 then s.fail d 0x0780 St.busy
    else s.opStart d 0x0780 (.scan t (d.par64 1) (Bits.nbit (d.par 0) 16) (d.pf 0 0 7) (d.pf 0 8 7) 0 [] false))

/-! ### Steps and cancellation (R286, R289, Table 12-7) -/

/-- A step of a RUNNING operation. -/
def Dev.opRun (s : Dev) (n : Nat) (o : Op) (x : StepIn) : Dev :=
  match o.body with
  | .bank b => if x = .none then s.bankStep n o b else s
  | .survey g a c l ap au p => s.surveyStep n o g a c l ap au p x
  | .cal k i m q a st r w su al => s.calStep n o k i m q a st r w su al x
  | .calStore g r0 r1 =>
    (match x with
     | .none => s.opBoundary n o
     | .last => (s.calStore g).opFinish n { o with steps := o.steps + 1 } 0 r0.toNat r1.toNat none
     | _ => s)
  | .capture d nx l m dl p c => s.captureStep n o d nx l m dl p c x
  | .flash a l ar d c p h => s.flashStep n o a l ar d c p h x
  | .scan t a r nx la f lo fa => s.scanStep n o t a r nx la f lo fa x
  | .done st r0 r1 c => s.opFinish n o st r0 r1 c

/-- The end of a cancelled operation (Table 12-7): buffers of a survey and of a scan are written from the results so far. -/
def Dev.opCancelled (s : Dev) (n : Nat) (o : Op) : Dev :=
  match o.body with
  | .bank b => s.bankEnd n o { b with ents := s.bankFix b.ents } true
  | .survey g a c _ ap au p => s.surveyEnd n o g a c ap au p true
  | .scan _ a _ _ _ f _ _ => s.scanEnd n o a f St.cancelled
  | .done _ r0 r1 c => s.opFinish n o St.cancelled r0 r1 c
  | _ => s.opFinish n o St.cancelled 0 0 none

/-- A step of a CANCELLING operation: the rollback of a bank sequence, one cell in 1 ms, then the end. -/
def Dev.opUndo (s : Dev) (n : Nat) (o : Op) : Dev :=
  match o.body with
  | .bank b =>
    (match b.undo with
     | c :: rest => (s.chOff c).2.setOp n (some { o with steps := o.steps + 1, body := .bank { b with undo := rest } })
     | [] => s.opCancelled n o)
  | _ => s.opCancelled n o

/-- Log 100 (DEDUCED, unsafe). -/
def execOpStep (n : BitVec 6) (x : StepIn) (s : State) : Outcome := s.on fun s =>
  match s.op n.toNat with
  | none => .next s
  | some o =>
    if o.ended then .next s
    else match o.state with
      | .running => .next (s.opRun n.toNat o x)
      | .cancelling => .next (if o.bpWait then s else s.opUndo n.toNat o)
      | _ => .next s

/-! ### OP_SUSPEND to OP_QUERY (R287 to R290) -/

/-- An operation command: the handle of an operation that is not DONE, or ST_BAD_HANDLE. -/
def Dev.opCmd (s : Dev) (d : Desc) (op : Nat) (masks : List Nat) (f : Dev → Nat → Op → Dev) : Result :=
  s.cmd d op [6] masks (fun s =>
    let h := d.par 0
    match s.op (h % 64) with
    | some o => if s.handle (h % 64) = h then f s (h % 64) o else s.fail d op St.badHandle
    | none => s.fail d op St.badHandle)

/-- The completion of an operation command: ST_OK and the state as it stands. -/
def Dev.opReply (s : Dev) (d : Desc) (op n : Nat) : Dev :=
  s.reply d op 0 (match s.op n with | some o => o.state.code | none => 4) 0

def execOpSuspend (d : Desc) (s : State) : Outcome := s.on fun s =>
  s.opCmd d 0x0F00 [Cmd.all] (fun s n o =>
    (if o.state = .running ∨ o.state = .suspendedBp then s.setOp n (some { o with suspendReq := true }) else s).opReply d 0x0F00 n)

/-- The count of a CAL_RUN restarts at resume (Table 12-7). -/
def OpBody.resumed : OpBody → OpBody
  | .cal k i m q a st r _ _ al => .cal k i m q a st r 0 0 al
  | b => b

def execOpResume (d : Desc) (s : State) : Outcome := s.on fun s =>
  s.opCmd d 0x0F01 [Cmd.all] (fun s n o =>
    (match o.state with
     | .suspended => s.opGoto n { o with body := o.body.resumed } .running
     | .suspendedBp => s.setOp n (some { o with suspendReq := false })
     | _ => s).opReply d 0x0F01 n)

/-- Entries a rollback switches off, in reverse order. -/
def OpBody.cancel (rollback : Bool) : OpBody → OpBody
  | .bank b => .bank { b with undo := if rollback then ((b.ents.filter (·.applied)).map (·.cell)).reverse else [] }
  | b => b

def execOpCancel (d : Desc) (s : State) : Outcome := s.on fun s =>
  s.opCmd d 0x0F02 [Cmd.all, 1] (fun s n o =>
    if o.state = .cancelling then s.reply d 0x0F02 0 3 0
    else
      let r := Bits.nbit (d.par 1) 0
      (s.opGoto n { o with rollback := r, suspendReq := false, bpWait := o.state == .suspendedBp, body := o.body.cancel r }
        .cancelling).opReply d 0x0F02 n)

def execOpQuery (d : Desc) (s : State) : Outcome := s.on fun s =>
  s.opCmd d 0x0F03 [Cmd.all] (fun s _ o => s.reply d 0x0F03 0 (o.state.code + o.opcode * 65536) o.steps)

/-! ### LOCK_CANCEL (R204, R283) -/

def execLockCancel (d : Desc) (s : State) : Outcome := s.on fun s =>
  s.cmd d 0x0300 [0] [0xFFFF] (fun s =>
    let tag := d.pf 0 0 16
    let mine := fun (e : LockEntry) => decide (e.tag.toNat = tag)
    let lost := (List.range 8).filter (fun g => !s.straitUp g)
    let count := fun (t : Nat) =>
      let k := s.lockTable t
      (k.deferred.filter mine).length + (if lost.contains t then 0 else (k.copies.filter (fun c => mine c.e)).length)
    let removed := (List.range 9).foldl (fun a t => a + count t) 0
    (s.lockCancel tag).reply d 0x0300 0 removed (lost.foldl (fun a g => a + 2 ^ g) 0))

end Sys2Proof.Machine
end

