-- ==== Sys2Proof/Machine/Straits.lean ====
section
/-! DEFINITION. The straits and island autonomy (spec/01 R20 to R30, R472): words and loss at both ends, episodes, policies,
restoring, rejoin, and the island analog watchdog. -/

namespace Sys2Proof.Machine

/-- STRAIT_STATE of the barges of region `g` (Table 10-1). -/
def Dev.straitIrq (s : Dev) (g : Nat) : Dev := s.irqRegion g 23

/-! ### Loss (R22 to R26) -/

/-- T_AUTO_MS within its range (Table 1-7). -/
def Autonomy.ms (w : Word) : Nat := max 10 (min 60000 (Bits.fld w 0 16))

/-- The episode that begins with a loss while rejoined: RGN_AUTONOMY as the island holds it is sampled (R26). -/
def Episode.start (t : Nat) (w : Word) : Episode :=
  { entry := t, policy := Bits.fld w 16 2, retryAuto := Bits.bit w 18, rejoinAuto := Bits.bit w 19, tAutoMs := Autonomy.ms w }

/-- SLICE_WD for every slice of a region whose LOSS_APPLIED is set (R332, Table 17-2). -/
def Dev.lossApplied (s : Dev) (g : Nat) : Dev :=
  (s.slicesLost g).forEach (List.range 4) (fun s i => s.occur g 80 (4 * g + i))

/-- The island end declares its strait lost (R22): autonomous mode (R23), the episode (R26), the replica in holdover (R186),
the mirror held (R103), LOSS_ACTION of the slices (R332). Log 20 (DEDUCED, safe). -/
def Dev.islandLoss (s : Dev) (g : Nat) : Dev :=
  let r := s.region g
  if r.islandLost then s
  else
    let t := s.rtime g
    let ep := if r.rejoined then some (Episode.start t r.autoWord) else r.episode
    let s := s.setRegion g { r with
      islandLost := true, restored := false, rejoined := false, rejoinReq := false, episode := ep, badIsland := 0
      mirrorHeld := some (s.mirrorOf g) }
    let s := (s.replicaState g .holdover).occur g 65 0xFFFFFFFF
    s.lossApplied g

/-- The central end declares its strait lost: what RGN_STRAIT_STAT shows (Table 1-8), the frozen sluice (R25), the records on
their way (R29, R166), and the fault source the loss is recorded under (R22, R30).
Log 18 (DEDUCED, unsafe); log 21 (DEDUCED, unsafe). -/
def Dev.centralLoss (s : Dev) (g src : Nat) : Dev :=
  let r := s.region g
  if !r.linkUp then s
  else
    let s := s.setRegion g { r with
      linkUp := false, autonomous := true, lossSeen := true, lossCount := Bits.satAdd 255 r.lossCount 1, badCentral := 0 }
    let s := (s.freezeSluice g).forEach (List.range 8) (fun s i => s.modConv (8 * g + i) (fun k => { k with frames := [] }))
    let s := { s with sliceQ := s.sliceQ.filter (fun r => r.slice / 4 != g) }
    (s.occur 8 src 0xFFFFFFFF).straitIrq g

/-- The loss declaration of one end. -/
def Dev.straitLoss (s : Dev) (g : Nat) : StraitEnd → Dev
  | .island => s.islandLoss g
  | .central => s.centralLoss g (if (s.region g).clkFail then 8 + g else g)

/-! ### Words (R21, R22) -/

/-- A word arrives at one end. -/
def Dev.straitWord (s : Dev) (g : Nat) (e : StraitEnd) (q : WordQuality) : Dev :=
  let r := s.region g
  match q, e with
  | .good, .island => s.setRegion g { r with badIsland := 0 }
  | .good, .central => s.setRegion g { r with badCentral := 0 }
  | .corrected, .island => s.setRegion g { r with badIsland := 0, corrCount := Bits.satAdd 65535 r.corrCount 1 }
  | .corrected, .central => s.setRegion g { r with badCentral := 0, corrCount := Bits.satAdd 65535 r.corrCount 1 }
  | .uncorrectable, .island =>
    let s := (s.setRegion g { r with badIsland := r.badIsland + 1 }).occur g 64 0xFFFFFFFF
    if 4 ≤ (s.region g).badIsland then s.islandLoss g else s
  | .uncorrectable, .central =>
    let s := (s.setRegion g { r with badCentral := r.badCentral + 1 }).occur 8 36 g
    if 4 ≤ (s.region g).badCentral then s.straitLoss g .central else s

/-- R21. An end whose side is out of service receives nothing. -/
def execStraitWordReceive (g : RegionIx) (e : StraitEnd) (q : WordQuality) (s : State) : Outcome := s.on fun s =>
  .next (if (s.region g).islandRun ∧ s.pwr.core then s.straitWord g e q else s)

/-- R22. -/
def execIdleWordSend (g : RegionIx) (e : StraitEnd) (s : State) : Outcome := s.on fun s =>
  .next (match e with
    | .island => if (s.region g).islandRun ∧ !(s.region g).asleep ∧ !(s.region g).clkFail then s.emit (.idleWord g true) else s
    | .central => if s.pwr.core ∧ !(s.region g).asleep then s.emit (.idleWord g false) else s)

/-- R22: no valid word for the loss detection time. A sleeping region has parked its strait (R422). -/
def execStraitLossTimeout (g : RegionIx) (e : StraitEnd) (s : State) : Outcome := s.on fun s =>
  .next (if (s.region g).asleep then s
    else match e with
      | .island => if (s.region g).islandRun ∧ !(s.region g).clkFail then s.straitLoss g .island else s
      | .central => s.straitLoss g .central)

/-- R22: the reset indication of the central die reaches the island end. -/
def execCentralResetIndication (g : RegionIx) (s : State) : Outcome := s.on fun s =>
  .next (if (s.region g).islandRun ∧ !(s.region g).clkFail ∧ !s.pwr.core then s.islandLoss g else s)

/-! ### Policies (R26) -/

/-- R26: the timer reaches T_AUTO_MS while the strait is lost. -/
def execAutonomyTimerExpiry (g : RegionIx) (s : State) : Outcome := s.on fun s =>
  let r := s.region g
  match r.episode with
  | none => .next s
  | some ep =>
    if r.islandLost ∧ !ep.begun ∧ !r.clkFail then
      let (ranks, s) := s.policy g ep.policy
      let ep := { ep with begun := true, applied := decide (ep.policy ≠ 0), ranks := ranks }
      .next ((s.modRegion g (fun r => { r with episode := some ep })).autoNext g)
    else .next s

/-! ### Restoring (R27) -/

/-- The first occurrence order of the waiting central sources (R388). -/
def Deferred.insert (d : Deferred) : List Deferred → List Deferred
  | [] => [d]
  | x :: l => if d.first < x.first then d :: x :: l else x :: Deferred.insert d l

/-- One report per pending central source, in order of first occurrence (R388). -/
def Dev.deliverDeferred (s : Dev) (g : Nat) : Dev :=
  let l := (s.coll g).deferred.foldr Deferred.insert []
  let s := s.modColl g (fun x => { x with deferred := [] })
  s.forEach l (fun s d => s.occurAt g d.source d.info d.count d.first true false)

/-- The CHIP_SAFE requests a lost strait held back reach the chip (R394), which applies them to every region it reaches. -/
def Dev.sendChipSafe (s : Dev) (g : Nat) : Dev :=
  let l := (s.coll g).chipSafeHeld
  let s := s.modColl g (fun x => { x with chipSafeHeld := [] })
  s.forEach l (fun s src =>
    s.stand 8 (Fc.forwarded g src) .chip ((s.coll g).fatalReal.getLsbD src))

/-- R27: both ends hold the strait valid again. -/
def Dev.straitBack (s : Dev) (g : Nat) : Dev :=
  let s := s.modRegion g (fun r => { r with
    islandLost := false, restored := true, linkUp := true, badIsland := 0, badCentral := 0, mirrorHeld := none })
  let s := (s.extUpdate g).unoccur 8 g
  (((s.deliverDeferred g).sendChipSafe g)).straitIrq g

def execStraitRestore (g : RegionIx) (s : State) : Outcome := s.on fun s =>
  let r := s.region g
  .next (if (r.islandLost ∨ !r.linkUp) ∧ r.islandRun ∧ s.pwr.core ∧ !r.clkFail ∧ !r.asleep then s.straitBack g else s)

/-! ### Rejoin (R28) -/

/-- R27: the strait is restored and the replica is LOCKED again. Log 17 (DEDUCED, unsafe). -/
def Dev.readyRejoin (s : Dev) (g : Nat) : Bool :=
  let r := s.region g
  s.straitUp g && r.restored && decide (r.replica = .locked) && r.islandRun && (r.autonomous || !r.rejoined)

/-- No stop rank of the episode is still to step (R28). -/
def Region.ranksDone (r : Region) : Bool :=
  match r.episode with
  | some ep => ep.ranks.isEmpty
  | none => true

/-- EV_REGION_REJOIN (Table 11-10). The first rejoin after an island reset ends no episode: its entry time is free.
Log 16 (DESIGN CHOICE, safe). -/
def Dev.rejoinEvent (s : Dev) (g : Nat) : Dev :=
  let r := s.region g
  let (free, s) := match r.episode with
    | some _ => (0, s)
    | none => s.drawNat
  let entry := match r.episode with
    | some ep => ep.entry
    | none => free
  let w := match r.episode with
    | some ep => Bits.b2n ep.applied + ep.policy * 2
    | none => Bits.fld r.autoWord 16 2 * 2
  s.raise { stream := 0x80 + g, code := 0x040, obj := g
            payload := Bits.words2 entry ++ Bits.words2 (s.rtime g) ++ [BitVec.ofNat 32 (w + min 65535 r.evHoldLost * 65536)] }

/-- Reports by ASSERT_TIME, oldest first (R389). -/
def Report.insert (d : Report) : List Report → List Report
  | [] => [d]
  | x :: l => if d.time < x.time then d :: x :: l else x :: Report.insert d l

/-- A chip request that covers region `g` stands (R394). -/
def Dev.chipCovers (s : Dev) (g : Nat) : Bool :=
  (s.coll 8).standing.any (fun r => r.scope == .chip || r.scope == .region g)

/-- A cell that waited for the rejoin: a passed precheck, or a retry whose release conditions hold (R23, R24, R69). -/
def Dev.cellRejoin (s : Dev) (c : Nat) : Dev :=
  let x := s.cell c
  let s := s.modCell c (fun x => { x with readyAt := none })
  if x.state = .cooldown ∧ x.readyAt.isSome ∧ s.retryOk c then s.goto c .waitGrant else s.precheckDone c

/-- Rejoin (R28): snapshot, EV_REGION_REJOIN, held events, the sluice (R25), reports (R389), locks (R203, R204), and a chip
safe request that stands (R394). -/
def Dev.rejoin (s : Dev) (g : Nat) : Dev :=
  let s := s.emit (.snapshot g ((cellsOf g).map (fun c => (s.cell c).state)))
  let s := s.rejoinEvent g
  let s := { s with evq := s.evq ++ (s.region g).evHold }
  let s := s.modRegion g (fun r => { r with
    autonomous := false, rejoined := true, rejoinReq := false, restored := false, episode := none, evHold := [], evHoldLost := 0 })
  let s := (s.unoccur g 65).thawSluice g
  let reps := (s.coll g).unsent.foldr Report.insert []
  let s := s.modColl g (fun x => { x with unsent := [] })
  let s := ({ s with reports := s.reports ++ reps }).lockRejoin g
  let s := if s.chipCovers g then s.regionSafe g else s
  s.forEach (cellsOf g) (fun s c => (s.modLane c (fun l => { l with telGap := true })).cellRejoin c)

/-- The region rejoins if it is ready, no rank is left, and REJOIN_AUTO or the REJOIN bit asks for it (R27, R28). -/
def Dev.tryRejoin (s : Dev) (g : Nat) : Dev :=
  let r := s.region g
  let wanted := r.rejoinReq || (match r.episode with
    | some ep => ep.rejoinAuto
    | none => !r.rejoined || Bits.bit r.autoWord 19)
  if s.readyRejoin g && r.ranksDone && wanted then s.rejoin g else s

def execRegionRejoin (g : RegionIx) (s : State) : Outcome := s.on fun s => .next (s.tryRejoin g)

/-- R27: REJOIN written with 1 has an effect only while the region is ready. -/
def Dev.rejoinRequest (s : Dev) (g : Nat) : Dev :=
  if s.readyRejoin g then s.modRegion g (fun r => { r with rejoinReq := true }) else s

def execRejoinRequest (g : RegionIx) (s : State) : Outcome := s.on fun s => .next (s.rejoinRequest g)

/-- R26, R28: the next rank of an autonomy policy goes, and the rejoin that waited for the last; or the next rank of a
host-loss policy (R272). -/
def execStopRankStep (g : RegionIx) (s : State) : Outcome := s.on fun s =>
  let r := s.region g
  match r.episode, r.hostRanks with
  | some ep, host =>
    match ep.ranks, host with
    | k :: rest, _ =>
      let s := s.policyCells (s.ofRank g k)
      let s := s.modRegion g (fun r => { r with episode := some { ep with ranks := rest } })
      .next ((s.autoNext g).tryRejoin g)
    | [], k :: rest =>
      .next ((s.policyCells (s.ofRank g k)).modRegion g (fun r => { r with hostRanks := rest }))
    | [], [] => .next s
  | none, k :: rest => .next ((s.policyCells (s.ofRank g k)).modRegion g (fun r => { r with hostRanks := rest }))
  | none, [] => .next s

/-! ### The island analog watchdog (R30, R333) -/

/-- R30: every GATE of the region is pulled down and held, all trip lines are asserted, the slices are driven low (R333), and
the central end observes the loss and records ISLAND_CLOCK_FAIL. It lasts until VSYS and VDDA are cycled.
Log 19 (DEDUCED, unsafe). -/
def Dev.islandClockFail (s : Dev) (g : Nat) : Dev :=
  if (s.region g).clkFail then s
  else
    let s := s.modRegion g (fun r => { r with clkFail := true, islandLost := true, restored := false, rejoined := false })
    let s := s.forEach (cellsOf g) (fun s c => s.modCell c (fun x => { x with gate := .controlled, passiveHold := true }))
    let s := s.forEach (List.range 4) (fun s i => s.modSlice (4 * g + i) (fun x => { x with hs := false, ls := false }))
    let s := s.extUpdate g
    if (s.region g).linkUp then s.centralLoss g (8 + g) else if s.pwr.core then s.occur 8 (8 + g) 0xFFFFFFFF else s

def execIslandClockFail (g : RegionIx) (s : State) : Outcome := s.on fun s => .next (if (s.region g).islandRun then s.islandClockFail g else s)

end Sys2Proof.Machine
end

