-- ==== Sys2Proof/Machine/Resets.lean ====
section
/-! DEFINITION. Supplies, resets, island bring-up, strait training and boot (spec/18 R408 to R421), and the resets of the host
port (spec/11 R273). -/

namespace Sys2Proof.Machine

/-! ### The host port (R273, R418) -/

/-- The registers of a BAR0 range, and their pending values, return to reset, but for those of `keep`. -/
def Dev.dropRegs (s : Dev) (lo hi : Nat) (keep : List Nat) : Dev :=
  let stay := fun (k : Nat) => decide (k < lo) || decide (hi ≤ k) || keep.contains k
  { s with regs := s.regs.filter (fun p => stay p.1), regsPend := s.regsPend.filter (fun p => stay p.1) }

/-- A token leaves the queue of a barge. -/
def Dev.dropToken (s : Dev) (e : Nat) (t : Quad) : Dev :=
  s.modBarge e (fun k => { k with tq := { k.tq with queue := k.tq.queue.erase t } })

/-- The mailbox commands that no barge has taken are discarded; the result of a taken one is not written (R450).
Log 147 (DEDUCED, unsafe). -/
def Dev.dropMailboxes (s : Dev) : Dev :=
  let s := s.forEach s.nodes (fun s p => match p.2.flight with
    | some m => if m.taken then s else s.dropToken (s.rf RegMap.hpLvCfg 16 6 + p.1) m.token
    | none => s)
  { s with nodes := Sparse.mapv (fun _ => {}) (fun _ x => if x.mbox = .busy then { x with mbox := .idle, flight := none } else x) s.nodes }

/-- Admitted commands are discarded without completion, and operations end without rollback or completion (R273). -/
def Dev.dropCommands (s : Dev) : Dev :=
  let s := s.forEach s.hp.slots (fun s x => if s.untaken x then s.dropToken x.barge x.token else s)
  let s := s.forEach (List.range 64) Dev.opDone
  { s with complq := [], laneWaits := [], cells := Sparse.mapv (fun _ => {}) (fun _ x => { x with heldCmds := [] }) s.cells }

/-- The host port returns to its reset values; HP_HB_CFG and HP_HB_STAT hold (11, after Table 11-17). Configuration space is
not reached (Table 18-4). -/
def Dev.hostReset (s : Dev) : Dev :=
  let s := (s.dropCommands.dropMailboxes).dropRegs 0x20000 0x30000 [RegMap.hpHbCfg]
  let h := s.hp
  { s with
    lvDone := 0
    hp := { linkUp := h.linkUp, perst := h.perst, bme := h.bme, msixEn := h.msixEn, msixMask := h.msixMask
            hbRunning := h.hbRunning, hostLost := h.hostLost, policyRan := h.policyRan, lossCount := h.lossCount
            loss := h.loss } }

/-- R273; with LINK_LOSS = 1 it declares host loss (R271). Log 25 (DEDUCED, unsafe); log 26 (DEDUCED, unsafe). -/
def Dev.functionReset (s : Dev) : Dev :=
  let s := s.hostReset
  if s.rb RegMap.hpHbCfg 13 then s.hostLoss else s

def execFunctionLevelReset (s : State) : Outcome := s.on fun s => .next s.functionReset

/-- R418: the link goes down (R271), configuration space and the host port return to reset. -/
def execPerstN (s : State) : Outcome := s.on fun s =>
  let s := s.linkDown.hostReset
  .next { s with hp := { s.hp with perst := true, bme := false, msixEn := false, msixMask := false } }

/-- The link is up once PERST_N is high and the host port and the central die are out of reset (R427).
Log 27 (DEDUCED, safe). -/
def Dev.linkTrain (s : Dev) : Dev :=
  if !s.hp.perst ∧ s.pwr.core ∧ s.pwr.hostUp then { s with hp := { s.hp with linkUp := true } } else s

def execPerstNRelease (s : State) : Outcome := s.on fun s => .next ({ s with hp := { s.hp with perst := false } }).linkTrain

/-- R249. -/
def execBusMasterEnable (en : Bool) (s : State) : Outcome := s.on fun s => .next { s with hp := { s.hp with bme := en } }

/-! ### Collectors at a reset (R405) -/

/-- What a reset leaves of a collector: latched bits set by a real FATAL event, and the requests they hold. -/
def Coll.kept (x : Coll) : Coll :=
  { latched := x.latched &&& x.fatalReal, fatalReal := x.fatalReal, standing := x.standing.filter (·.fatal)
    chipSafeHeld := x.chipSafeHeld.filter (fun n => x.fatalReal.getLsbD n) }

/-- VSYS and VDDA have both been lost: what only that clears (R30, R394, R405). Log 24 (DEDUCED, unsafe). -/
def Dev.clearFatals (s : Dev) : Dev :=
  let s := s.forEach (List.range 9) (fun s k => s.modColl k (fun x => { x with
    latched := x.latched &&& ~~~ x.fatalReal, fatalReal := 0, standing := x.standing.filter (fun r => !r.fatal), chipSafeHeld := [] }))
  s.forEach (List.range 8) (fun s g => s.modRegion g (fun r => { r with clkFail := false }))

/-! ### Island reset (R421, Table 18-4) -/

/-- A comparator in reset: where its input lies is not the device's. -/
def Cmp.fresh (k : Cmp) : Cmp := { level := k.level, mode := k.mode }

/-- A cell in reset (Table 2-3): DISABLED, on the controlled pull-down while VDDA is good, with the passive hold engaged. -/
def Cell.fresh (x : Cell) (vdda : Bool) : Cell :=
  { gate := if vdda then .controlled else .passive
    ilo := Cmp.fresh { x.ilo with mode := .medium }, ihi := Cmp.fresh { x.ihi with mode := .medium }
    isc := Cmp.fresh { x.isc with mode := .fast } }

def Block.fresh (x : Block) : Block :=
  { vlo := Cmp.fresh { x.vlo with mode := .medium }, vhi := Cmp.fresh { x.vhi with mode := .medium } }

/-- The record of a region at island reset: what the central end and the board hold stays; the replica starts from 0. -/
def Region.fresh (r : Region) (now : Nat) : Region :=
  { linkUp := r.linkUp, autonomous := r.autonomous, lossSeen := r.lossSeen, lossCount := r.lossCount, corrCount := r.corrCount
    badCentral := r.badCentral, islandLost := true, released := r.released, clkFail := r.clkFail, extLines := r.extLines
    replicaOff := -(now : Int) }

/-- Island reset of region `g`: every island unit returns to reset (R91, R164, R405, R472). Log 29 (DEDUCED, unsafe). -/
def Dev.islandReset (s : Dev) (g : Nat) : Dev :=
  let vdda := s.pwr.vdda
  let s := s.setRegion g ((s.region g).fresh s.tbTime)
  let s := s.forEach (cellsOf g) (fun s c => s.modCell c (fun x => x.fresh vdda))
  let s := s.forEach (List.range 8) (fun s i =>
    (s.modBlock (8 * g + i) Block.fresh).modConv (8 * g + i) (fun k => { mirror := k.mirror }))
  let s := { s with
    lanes := s.lanes.filter (fun p => p.1 / 64 != g)
    auxs := Sparse.erase s.auxs g
    replicas := Sparse.erase s.replicas g
    tows := s.tows.filter (fun p => p.1 / 2 != g)
    prof := s.prof.filter (fun p => p.1 / 4096 != g)
    profPend := s.profPend.filter (fun p => p.1 / 4096 != g) }
  let s := (s.resetSlices g).dropRegs (RegMap.window g) (RegMap.window (g + 1)) []
  let s := s.modLockTable g (fun k => { k with copies := [], high := 0, fullSeen := false })
  let s := s.modColl g (fun x => { x.kept with deferred := x.deferred })
  let s := if s.pwr.core then s.unoccur 8 (16 + g) else s
  s.extUpdate g

/-- Every island goes into reset with its power-on reset (R408, R409). -/
def Dev.islandsOff (s : Dev) : Dev :=
  s.forEach (List.range 8) (fun s g => (s.modRegion g (fun r => { r with released := false })).islandReset g)

/-! ### Barge reset (R420) -/

/-- A barge in reset: its contents stay. -/
def Barge.fresh (k : Barge) : Barge := { iram := k.iram, dram := k.dram }

/-- A barge starts at an address. -/
def Dev.bargeStart (s : Dev) (e pc : Nat) : Dev :=
  s.modBarge e (fun k => { k with run := true, pc := pc, cycle0 := s.coreCycles })

/-- The runtime voltage loop of a slice ends with the slots of its barge. -/
def Slice.dropLoop (x : Slice) (here : Bool) (i : Nat) : Slice :=
  match x.loop with
  | some l => if here && l.1 == i then { x with loop := none } else x
  | none => x

/-- R420: the barge starts at the runtime's restart entry, an address the spec does not give (log 2).
Log 32 (DEDUCED, unsafe). -/
def Dev.bargeReset (s : Dev) (e : Nat) : Dev :=
  let (w, s) := s.drawWord
  let s := s.modBarge e (fun k => { k.fresh with dbg := { bps := k.dbg.bps, wps := k.dbg.wps, xtrig := k.dbg.xtrig } })
  let s := { s with slices := Sparse.mapv (fun _ => {}) (fun k (x : Slice) => x.dropLoop (k / 4 == e / 8) (e % 8)) s.slices }
  let s := if (List.range 8).any (fun i => (s.barge (8 * (e / 8) + i)).seized) then s else s.unoccur (e / 8) 73
  if s.pwr.rtUp then s.bargeStart e (w.toNat / 4 * 4) else s

def Dev.bargeResets (s : Dev) (mask : DWord) : Dev := s.forEach (Dbg.barges mask) Dev.bargeReset

def execChipBargeRst (mask : DWord) (s : State) : Outcome := s.on fun s => .next (s.bargeResets mask)

/-! ### Chip reset (R418, R419) -/

/-- What a chip reset leaves of the reserve unit: path, latches and wake circuit; the charger is DISABLED. -/
def Reserve.chipFresh (r : Reserve) : Reserve :=
  { path := r.path, ntcBad := r.ntcBad, zone := r.zone, live := r.live &&& 0xFE, present := r.present, inOn := r.inOn
    dioArmed := r.dioArmed, dioOn := r.dioOn, shipOn := r.shipOn, hoTime := r.hoTime, hoTrig := r.hoTrig, hoBus := r.hoBus
    episode := r.episode, stopDone := r.stopDone, shipLatch := r.shipLatch, depleted := r.depleted, cause := r.cause
    hold := r.hold, meas := r.meas, voc := r.voc }

/-- The central end of a strait after chip reset. -/
def Region.centralFresh (r : Region) : Region :=
  { r with linkUp := false, autonomous := false, lossSeen := false, lossCount := 0, corrCount := 0, badCentral := 0
           hostRanks := [] }

/-- Every central unit returns to its reset state; the islands see the reset indication and run on in autonomy (R22).
Log 22 (DEDUCED, unsafe). -/
def Dev.chipReset (s : Dev) (reason : Nat) : Dev :=
  let s := s.forEach (List.range 8) Dev.wakeRegion
  let s := s.forEach (List.range 8) (fun s g =>
    if (s.region g).islandRun ∧ !(s.region g).clkFail then s.islandLoss g else s)
  let s := s.dropRegs 0 0x400000 []
  let s := s.forEach (List.range 8) (fun s g =>
    ((s.modRegion g Region.centralFresh).modColl g (fun x => { x with deferred := [] })).modLockTable g
      (fun k => { k with deferred := [], cancels := [] }))
  let s := s.setColl 8 (s.coll 8).kept
  { s with
    tb := { running := s.tb.running }
    linkA := {}, linkB := {}, ring := {}, ringPos := 0
    lk := { tables := Sparse.erase s.lk.tables 8 }
    cells := Sparse.mapv (fun _ => {}) (fun _ x => { x with heldCmds := [] }) s.cells
    convs := Sparse.mapv (fun _ => {}) (fun _ x => { x with frames := [] }) s.convs
    barges := Sparse.mapv (fun _ => {}) (fun _ (k : Barge) => k.fresh) s.barges
    rtSlot := 0, custSlot := 0, dbg := {}, nodes := [], lvDone := 0, rgnFail := 0, badSize := false, rsvdWrites := 0
    sliceQ := [], err := {}, sluice := {}, slMsgs := [], grants := [], mirror := 0, mirrorStale := 0, fwdMem := [], tripSeq := 0
    hp := { perst := s.hp.perst }
    ops := [], opGen := [], bz := {}, rv := s.rv.chipFresh, mg := {}, sv := {}
    evq := [], complq := [], laneWaits := [], reports := [], telq := []
    pwr := { s.pwr with core := false, trimOk := false, rtUp := false, rtFail := false, custUp := false, custFail := false
                        lastReset := reason, mode := 0, refused := false, reason := 0, cause := 0 } }

/-- The central die leaves reset: the timebase PLL is locked (R410), and the level sources that are active reach the chip
collector, ISLAND_SAFE of a failed island clock (R30) and the live reserve faults (Table 15-5) among them.
Log 23 (DEDUCED, unsafe). -/
def Dev.coreUp (s : Dev) : Dev :=
  let s := { s with pwr := { s.pwr with core := true }, tb := { s.tb with running := s.tb.running || s.pwr.tbclk } }
  let s := s.forEach (List.range 8) (fun s g => if (s.region g).clkFail then s.occur 8 (8 + g) 0xFFFFFFFF else s)
  let s := s.forEach (Bits.ones 9 s.rv.live) (fun s n => s.occur 8 (42 + n) 0xFFFFFFFF)
  if s.pwr.tbclk then s else s.occur 8 38 0xFFFFFFFF

/-- A chip reset that is released at once. -/
def Dev.chipRestart (s : Dev) (reason : Nat) : Dev := if s.pwr.core then (s.chipReset reason).coreUp else s

/-- R418: CHIP = 1 with the key. -/
def Dev.chipRstWrite (s : Dev) (v : Word) : Dev :=
  if Bits.bit v 0 ∧ Bits.fld v 16 16 = 0xC4A5 then s.chipRestart 2 else s

def execChipRstCtrl (v : Word) (s : State) : Outcome := s.on fun s => .next (s.chipRstWrite v)

/-- R411: RST_N held low from outside for 1 us. -/
def execRstN (s : State) : Outcome := s.on fun s =>
  let s := { s with pwr := { s.pwr with rstLow := true } }
  .next (if s.pwr.core then s.chipReset 1 else s)

/-- R411. -/
def execRstNRelease (s : State) : Outcome := s.on fun s =>
  let s := { s with pwr := { s.pwr with rstLow := false } }
  .next (if s.pwr.centralUp ∧ !s.pwr.core then s.coreUp else s)

/-! ### Supplies (R408 to R410) -/

/-- The central die loses its supply: a chip reset that also loses the RAM contents and the count of the timebase (Table 18-4).
A running replica goes on from its value. -/
def Dev.centralOff (s : Dev) (reason : Nat) : Dev :=
  let s := s.chipReset reason
  let t := s.tbTime
  { s with
    tbTime := 0, tb := {}, barges := [], sram := [], rram := [], tap := {}
    regions := Sparse.mapv (fun _ => {}) (fun _ x => { x with replicaOff := x.replicaOff + t }) s.regions
    convs := Sparse.mapv (fun _ => {}) (fun _ x => { x with mirror := [] }) s.convs
    pwr := { s.pwr with centralUp := false } }

/-- What the wake circuit keeps without VSYS (R355); the rest of the reserve unit is in reset. Log 40 (DEDUCED, unsafe). -/
def Reserve.wakeOnly (r : Reserve) : Reserve :=
  { shipLatch := r.shipLatch, depleted := r.depleted, hold := r.hold, cause := if r.hold then r.cause else 0
    shipOn := !(r.shipLatch || r.depleted || r.hold) }

/-- Log 28 (DEDUCED, unsafe). -/
def Dev.setSupply (s : Dev) (x : Supply) (good : Bool) : Dev :=
  { s with pwr := match x with
      | .vsys => { s.pwr with vsys := good }
      | .vdda => { s.pwr with vdda := good }
      | .vddi => { s.pwr with vddi := good }
      | .vddc => { s.pwr with vddc := good }
      | .vddio => { s.pwr with vddio := good }
      | .vddpx => { s.pwr with vddpx := good } }

/-- R408. GATE passes from the passive hold to the controlled pull-down, with the hold engaged, when VDDA becomes good; the
TRIP lines are asserted when VDDI does (Tables 2-3 and 18-2). -/
def execSupplyGood (x : Supply) (s : State) : Outcome := s.on fun s =>
  let s := s.setSupply x true
  .next (match x with
    | .vdda => s.forEach (List.range 512) (fun s c => s.modCell c (fun y => if y.gate = .passive then { y with gate := .controlled } else y))
    | .vddi => s.forEach (List.range 8) Dev.extUpdate
    | _ => s)

/-- R408, Table 18-1. -/
def execSupplyLoss (x : Supply) (s : State) : Outcome := s.on fun s =>
  let s := s.setSupply x false
  .next (match x with
    | .vsys =>
      let s := s.islandsOff.centralOff 0
      let s := { s with rv := s.rv.wakeOnly, pwr := { s.pwr with aoUp := false, hostUp := false } }
      if s.pwr.vdda then s else s.clearFatals
    | .vdda => if s.pwr.vsys then s.islandsOff else s.islandsOff.clearFatals
    | .vddi => s.islandsOff
    | .vddc | .vddio => if s.pwr.vsys ∧ s.pwr.centralUp then s.centralOff 4 else s
    | .vddpx =>
      let s := s.linkDown.hostReset
      { s with hp := { s.hp with bme := false, msixEn := false, msixMask := false }, pwr := { s.pwr with hostUp := false } })

/-- R410: a domain leaves power-on reset when the supplies it needs are good, the central die with a valid TBCLK_IN. After a
start that cleared a latch SHIP_GATE stays off (R355); a start after depletion latches PACK_CUTOFF (Table 15-5). -/
def execPowerOnResetRelease (x : PorDomain) (s : State) : Outcome := s.on fun s =>
  let p := s.pwr
  .next (match x with
    | .alwaysOn =>
      if p.vsys ∧ !p.aoUp then { s with pwr := { p with aoUp := true }, rv := { s.rv with shipOn := !s.rv.hold } } else s
    | .island g => if p.vsys ∧ p.vdda ∧ p.vddi then s.modRegion g (fun r => { r with released := true }) else s
    | .central =>
      if p.vsys ∧ p.vddc ∧ p.vddio ∧ p.tbclk ∧ !p.centralUp then
        let s := { s with pwr := { p with centralUp := true } }
        if p.rstLow then s
        else
          let s := s.coreUp
          let s := if p.lastReset = 0 ∧ s.rv.cause = 3 then s.rvFault 2 else s
          s.linkTrain
      else s
    | .hostPort => if p.vsys ∧ p.vddpx then ({ s with pwr := { p with hostUp := true } }).linkTrain else s)

/-! ### Island bring-up and strait training (R413, R414) -/

/-- The comparator starts inactive; inside its band it sets BAND_INIT (R118). -/
def Cmp.released (k : Cmp) (low : Bool) : Cmp :=
  { k with bandInit := decide (k.level = .inside), raw := k.level.raw low false }

/-- CMP_SELFTEST_FAIL of a cell, or of the VIN comparators of a block (R130). -/
def Dev.testFailed (s : Dev) (g : Nat) (x : BringUp) : Dev :=
  let s := s.forEach (Bits.ones 64 x.cells.toNat) (fun s l =>
    (s.modCell (64 * g + l) (fun y => { y with selftestFail := true })).occur g (8 * (l / 8) + 1) (64 * g + l))
  s.forEach (Bits.ones 8 x.vin.toNat) (fun s i =>
    (s.modBlock (8 * g + i) (fun y => { y with vtestFail := true })).occur g (8 * i + 1) 0x1FF)

/-- R413. Without a valid trim the collector records FACTORY_TRIM_CRC and the island stays in reset.
Log 30 (DEDUCED, unsafe). -/
def Dev.bringUp (s : Dev) (g : Nat) (x : BringUp) : Dev :=
  if !x.trim then { s with colls := (s.occur g 69 0xFFFFFFFF).colls }
  else
    let s := s.modRegion g (fun r => { r with islandRun := true })
    let s := s.forEach (cellsOf g) (fun s c => s.modCell c (fun y => { y with
      ilo := y.ilo.released true, ihi := y.ihi.released false, isc := y.isc.released false }))
    let t := s.rtime g
    let s := s.forEach (List.range 8) (fun s i => s.modBlock (8 * g + i) (fun y => { y with
      vlo := y.vlo.released true, vhi := y.vhi.released false, vtestAt := some t }))
    let s := (s.testFailed g x).modRegion g (fun r => { r with islandUp := true })
    (s.auxWake g).extUpdate g

def execIslandBringup (g : RegionIx) (x : BringUp) (s : State) : Outcome := s.on fun s =>
  .next (if (s.region g).released ∧ !(s.region g).islandRun then s.bringUp g x else s)

/-- R414: LINK_UP is set. The first rejoin after an island reset follows at once; an island that was not reset rejoins under
R27. -/
def execStraitTraining (g : RegionIx) (s : State) : Outcome := s.on fun s =>
  let r := s.region g
  .next (if !r.islandRun ∨ !s.pwr.core ∨ r.clkFail ∨ r.asleep ∨ r.linkUp then s
    else if r.episode.isNone ∧ !r.rejoined then (s.straitBack g).rejoin g
    else (s.modRegion g (fun r => { r with linkUp := true })).unoccur 8 g)

/-- R414. -/
def execStraitTrainingTimeout (g : RegionIx) (s : State) : Outcome := s.on fun s =>
  .next (if (s.region g).islandRun ∧ s.pwr.core ∧ !(s.region g).linkUp then s.occur 8 g 0xFFFFFFFF else s)

/-! ### Boot (R416) -/

/-- ENTRY of the runtime image, in the barge address map (Tables 1-11 and 18-3). -/
def Dev.rtEntry (s : Dev) (slot : Nat) : Nat :=
  0x20000000 + Header.word (s.flashBytes (Flash.slotBase 0 slot) 256) 0x14

/-- The customer area: started only with the runtime. -/
def Dev.bootCustomer (s : Dev) : Dev :=
  match s.bootSlot 1 with
  | some n => if s.pwr.rtUp then { s with custSlot := n, pwr := { s.pwr with custUp := true } } else s
  | none => { s with pwr := { s.pwr with custFail := true } }

/-- R416; the central trim is loaded first, and CHIP_TRIM_CRC raised when no copy is valid.
Log 31 (DEDUCED, unsafe); log 33 (DESIGN CHOICE, unsafe). -/
def execBoot (trim : Bool) (s : State) : Outcome := s.on fun s =>
  if !s.pwr.core ∨ s.pwr.rtUp ∨ s.pwr.rtFail then .next s
  else
    let s := { s with pwr := { s.pwr with trimOk := trim } }
    let s := if trim then s else s.occur 8 56 0xFFFFFFFF
    .next (match s.bootSlot 0 with
      | some n =>
        let pc := s.rtEntry n
        let s := { s with rtSlot := n, pwr := { s.pwr with rtUp := true } }
        (s.forEach (List.range 64) (fun s e => s.bargeStart e pc)).bootCustomer
      | none => ({ s with pwr := { s.pwr with rtFail := true } }).bootCustomer)

end Sys2Proof.Machine
end

