-- ==== Sys2Proof/Machine/PowerModes.lean ====
section
/-! DEFINITION. Regions in and out of service, sleep, power modes and wakes (spec/18 R421 to R426), ship mode and the wake
circuit (spec/15 R353 to R355), the timebase reference, and the cabinet links' training and loss (spec/08 R190). -/

namespace Sys2Proof.Machine

/-! ### RGN_CTRL (R421) -/

/-- Every cell of the region is DISABLED and every slice OFF. -/
def Dev.regionIdle (s : Dev) (g : Nat) : Bool :=
  (cellsOf g).all (fun c => decide ((s.cell c).state = .disabled)) &&
  (List.range 4).all (fun i => decide ((s.slice (4 * g + i)).state = .off))

/-- The EN field of a write: EN = 0 is carried out only on an idle region, or ignored with CFG_WRITE_IGNORED. -/
def Dev.regionEn (s : Dev) (g : Nat) (en : Bool) : Dev :=
  if en || s.regionIdle g then s.putReg (RegMap.rgnCtrl g) 0 1 (Bits.b2n en) else s.occur 8 37 (RegMap.rgnCtrl g)

/-- RESET = 1 is carried out only while EN is 0. -/
def Dev.regionReset (s : Dev) (g : Nat) : Dev :=
  if s.rb (RegMap.rgnCtrl g) 0 then s.occur 8 37 (RegMap.rgnCtrl g) else s.islandReset g

def execRegionEnWrite (g : RegionIx) (en : Bool) (s : State) : Outcome := s.on fun s => .next (s.regionEn g en)

def execIslandReset (g : RegionIx) (s : State) : Outcome := s.on fun s => .next (s.regionReset g)

/-- A write of RGN_CTRL: EN, then RESET, and SLEEP_EN under its own rule. -/
def Dev.rgnCtrlWrite (s : Dev) (g : Nat) (v : Word) : Dev :=
  let s := (s.regionEn g (Bits.bit v 0)).putReg (RegMap.rgnCtrl g) 2 1 (Bits.fld v 2 1)
  if Bits.bit v 1 then s.regionReset g else s

/-! ### Sleep (R422, R423) -/

/-- A cell lets its region sleep. -/
def Dev.cellSleeps (s : Dev) (c : Nat) : Bool :=
  match (s.cell c).state with
  | .disabled => true
  | .off => decide (s.pf c 0 0 2 = 0) || decide (s.pf c 0 8 3 = 0)
  | _ => false

/-- A towpath has nothing queued or running. -/
def Towpath.quiet (w : Towpath) : Bool := w.queue.isEmpty && w.run.isNone && !w.recovering

/-- The conditions of R422 beside the mode. -/
def Dev.maySleep (s : Dev) (g : Nat) : Bool :=
  s.rb (RegMap.rgnCtrl g) 2 && (s.region g).islandUp && (cellsOf g).all s.cellSleeps &&
  (List.range 4).all (fun i => decide ((s.slice (4 * g + i)).state = .off)) &&
  (s.tow (2 * g)).quiet && (s.tow (2 * g + 1)).quiet && (s.aux g).queued.isNone && !(s.aux g).inUrgent &&
  (s.lockTable g).copies.isEmpty

/-- R422: in IDLE, after 10 ms. -/
def execRegionSleep (g : RegionIx) (s : State) : Outcome := s.on fun s =>
  .next (if s.pwr.mode = 1 ∧ s.maySleep g then s.modRegion g (fun r => { r with asleep := true }) else s)

/-! ### Modes (R424) -/

/-- The reason code that refuses STANDBY (Table 18-7), if one does. -/
def Dev.standbyRefusal (s : Dev) : Option Nat :=
  if !(List.range 8).all (fun g => (s.region g).asleep) then some 1
  else if !(List.range 9).all (fun t => (s.lockTable t).copies.isEmpty) then some 2
  else if s.rb RegMap.bzCtrl 0 || s.bz.recording || s.bz.stopping then some 3
  else if (List.range 64).any (fun n => match s.op n with | some o => o.state == .running | none => false) ||
      s.hp.slots.any (fun x => !x.answered) then some 4
  else if s.rf RegMap.fcErr 0 1 ≠ 0 then some 5
  else none

/-- The regions that sleep wake without a wake source: RUN ignores SLEEP_EN (Table 18-5). Log 35 (DEDUCED, unsafe). -/
def Dev.enterRun (s : Dev) : Dev :=
  (s.forEach (List.range 8) Dev.wakeRegion)

/-- A write of PWR_CTRL.MODE; 3 acts as 0. A refused write leaves the mode as it is. Log 34 (DEDUCED, unsafe). -/
def Dev.modeWrite (s : Dev) (mode : Nat) : Dev :=
  let m := if mode = 3 then 0 else mode
  let go := fun (s : Dev) => ({ s with pwr := { s.pwr with mode := m } }).putReg RegMap.pwrCtrl 0 2 mode
  match m with
  | 2 => match s.standbyRefusal with
    | some r => { s with pwr := { s.pwr with refused := true, reason := r } }
    | none => go s
  | 0 => (go s).enterRun
  | _ => go s

def execPowerModeWrite (mode : BitVec 2) (s : State) : Outcome := s.on fun s => .next (s.modeWrite mode.toNat)

/-! ### Wakes (R127, R425) -/

/-- A wake by bit `n` of Table 18-6 of the regions listed, and of the core when `core`. Nothing that sleeps leaves no cause. -/
def Dev.wake (s : Dev) (n : Nat) (core : Bool) (regions : List Nat) : Dev :=
  let sleepers := regions.filter (fun g => (s.region g).asleep)
  let standby := core && decide (s.pwr.mode = 2)
  if sleepers.isEmpty && !standby then s
  else
    let s := s.wakeCause n
    let s := if core then s.wakeCore else s
    s.forEach sleepers Dev.wakeRegion

/-- R425: a source with an enable wakes only while it is enabled; a trip message wakes a region that mirrors its bit. -/
def execWake (x : WakeSource) (s : State) : Outcome := s.on fun s =>
  .next (match x with
    | .comparator g => s.wake 0 true [g.val]
    | .towpath t => if s.rb (RegMap.twCfg t) 19 then s.wake 1 false [t.val / 2] else s
    | .mgmt => if s.rb RegMap.pwrWakeEn 2 then s.wake 2 true [] else s
    | .supervisor => if s.rb RegMap.pwrWakeEn 3 then s.wake 3 true [] else s
    | .bar regions => s.wake 4 true (Bits.ones 8 regions.toNat)
    | .linkTrip g => if s.linkSelect g = 0 then s else s.wake 5 false [g.val]
    | .reserve => s.wake 6 true []
    | .collector => s.wake 7 true [])

/-- R127: the raw output of a comparator that is not off and that RGN_CMP_WAKE selects in its direction. -/
def execComparatorWake (x : CmpSel) (s : State) : Outcome := s.on fun s =>
  let k := s.cmp x
  let b := x.block
  .next (if (s.region (b / 8)).asleep ∧ k.mode ≠ .off ∧ s.edgeSel (RegMap.cmpWake b) x k.raw then s.wake 0 true [b / 8] else s)

/-! ### Ship mode and the wake circuit (R353 to R355) -/

/-- R353: on reserve, the depleted latch and EV_RESERVE_FAULT. Log 123 (DEDUCED, unsafe). -/
def execPackCutoff (s : State) : Outcome := s.on fun s =>
  .next (if s.rv.path = 2 ∨ s.rv.path = 3 then
      (s.modRv (fun r => { r with depleted := true })).rvEvent 0x144 false [BitVec.ofNat 32 (1 <<< 2)]
    else s)

/-- DIO_GATE and SHIP_GATE turn off. -/
def Reserve.disconnect (r : Reserve) : Reserve := { r with dioArmed := false, dioOn := false, shipOn := false }

def execDepletedDisconnect (s : State) : Outcome := s.on fun s => .next (if s.rv.depleted then s.modRv Reserve.disconnect else s)

/-- R354. -/
def execShipEntry (s : State) : Outcome := s.on fun s =>
  .next (if !s.rv.shipArmed then s
    else if s.rv.present ∨ s.rv.path = 0 then (s.modRv (fun r => { r with shipArmed := false })).rvEvent 0x146 false [3]
    else s.modRv (fun r => { r.disconnect with shipArmed := false, shipLatch := true }))

/-- R355: the button clears the ship latch only; the depleted latch ignores it. -/
def execShipWake (s : State) : Outcome := s.on fun s =>
  .next (if s.rv.shipLatch then
      s.modRv (fun r => { r with shipLatch := false, shipOn := !r.depleted, dioArmed := !r.depleted
                                 cause := if r.depleted then r.cause else 1 })
    else s)

/-- R355: the source clears either latch, and SHIP_GATE stays off under the hold flag. -/
def execSourceWake (s : State) : Outcome := s.on fun s =>
  .next (if s.rv.shipLatch ∨ s.rv.depleted then
      s.modRv (fun r => { r with shipLatch := false, depleted := false, hold := true, shipOn := false
                                 cause := if r.depleted then 3 else 2 })
    else s)

def execBattRemoval (s : State) : Outcome := s.on fun s => .next (s.modRv (fun r => { r with hold := false, shipLatch := false, depleted := false }))

/-! ### The timebase reference (R410, R466) -/

/-- The timebase PLL unlocks, and the timebase holds over (R466, Table 22-9): its count goes on.
Log 39 (DESIGN CHOICE, unsafe). -/
def execTbclkLoss (s : State) : Outcome := s.on fun s =>
  let s := { s with pwr := { s.pwr with tbclk := false } }
  .next (if s.pwr.core then s.tbHold.occur 8 38 0xFFFFFFFF else s)

def execTbclkInReturn (s : State) : Outcome := s.on fun s =>
  let s := { s with pwr := { s.pwr with tbclk := true } }
  .next (if s.pwr.core then ({ s with tb := { s.tb with running := true } }).unoccur 8 38 else s)

/-! ### Cabinet links (R190) -/

/-- A write of TB_LINK_CFG: an enabled link trains, a disabled one is DOWN. -/
def Dev.linkCfgWrite (s : Dev) (v : Word) : Dev :=
  let s := s.putReg RegMap.tbLinkCfg 0 3 (Bits.fld v 0 3)
  let f := fun (en : Bool) (l : CabLink) =>
    if !en then ({} : CabLink) else if l.state = .down then { l with state := .training } else l
  let s := { s with linkA := f (Bits.bit v 0) s.linkA, linkB := f (Bits.bit v 1) s.linkB }
  if s.linkA.state = .fault ∨ s.linkB.state = .fault then s else s.unoccur 8 39

/-- The enable of a link. -/
def Dev.linkEn (s : Dev) : Link → Bool
  | .a => s.rb RegMap.tbLinkCfg 0
  | .b => s.rb RegMap.tbLinkCfg 1

/-- Training ends. A link that went DOWN for want of its partner trains again once it is there. Log 41 (DEDUCED, safe). -/
def execLinkTrainingEnd (link : Link) (s : State) : Outcome := s.on fun s =>
  let l := s.cabLink link
  .next (if s.linkEn link ∧ (l.state = .training ∨ l.state = .down) then s.setCabLink link { l with state := .up } else s)

def execCabinetLinkLoss (link : Link) (s : State) : Outcome := s.on fun s =>
  let l := s.cabLink link
  .next (if l.state = .up then s.setCabLink link { l with state := .down, syncN := 0, syncSum := 0 } else s)

end Sys2Proof.Machine
end

