-- ==== Sys2Proof/Machine/Legacy.lean ====
section
/-! DEFINITION. The legacy node view (spec/20): doorbells, mailbox commands, completions, node images and the BAR4 window. -/

namespace Sys2Proof.Machine

def Dev.node (s : Dev) (n : Nat) : Node := Sparse.get (fun _ => {}) s.nodes n
def Dev.setNode (s : Dev) (n : Nat) (x : Node) : Dev := { s with nodes := Sparse.set (fun _ => {}) s.nodes n x }
def Dev.modNode (s : Dev) (n : Nat) (f : Node → Node) : Dev := s.setNode n (f (s.node n))

/-- Node `n` is served (R442). -/
def Dev.lvServed (s : Dev) (n : Nat) : Bool := s.rb RegMap.hpLvCfg 0 && decide (n < s.lvNodes)

/-- The block of a node (R442). -/
def Dev.lvBlock (s : Dev) (n : Nat) : Nat := s.rf RegMap.hpLvCfg 16 6 + n

/-- The number under which a node's mailbox stands among the rings of completions. -/
def Lv.ring (n : Nat) : Nat := 2 ^ 20 + n

/-! ### Doorbell and mailbox (R445, R446) -/

/-- A doorbell write (R446): latched and dispatched to the home barge, or ignored while BUSY. -/
def Dev.lvDoorbell (s : Dev) (n : Nat) : Dev :=
  let x := s.node n
  if x.mbox = .busy then s.setNode n { x with overrun := true }
  else
    let (t, s) := s.commandToken false
    let (ok, s) := s.pushToken (s.lvBlock n) t
    s.setNode n { x with mbox := .busy, flight := some { cmd := x.cmd, arg0 := x.arg0, arg1 := x.arg1, token := t, held := !ok } }

/-- The result of a mailbox command, on its way to the host port. `flags`: the lanes whose TRIPPED_SEEN it clears. -/
def Dev.lvDone' (s : Dev) (n status : Nat) (r0 r1 flags : Nat) : Dev :=
  s.complete { cmdRing := Lv.ring n, cmdId := 0, opcode := 0, status := status, handle := flags
               r0 := BitVec.ofNat 32 r0, r1 := BitVec.ofNat 32 r1 }

/-- The opcodes of Table 20-4. -/
def Lv.opcodes : List Nat := [0x01, 0x02, 0x03, 0x04, 0x05, 0x10, 0x11, 0x20, 0x21]

/-- A command that completes with BAD_CMD (Table 20-5). -/
def MboxCmd.bad (m : MboxCmd) : Bool :=
  decide (Bits.fld m.cmd 12 20 ≠ 0) || !Lv.opcodes.contains (Bits.fld m.cmd 0 8) ||
  (Bits.fld m.cmd 0 8 == 0x20 && Bits.bit m.cmd 11)

/-- The cells a command names: CHAN, or all eight of the block. -/
def Dev.lvCells (s : Dev) (n : Nat) (m : MboxCmd) : List Nat :=
  if Bits.bit m.cmd 11 then (List.range 8).map (fun l => 8 * s.lvBlock n + l) else [8 * s.lvBlock n + Bits.fld m.cmd 8 3]

/-- The home barge takes the mailbox command of node `n`, whose opcode is `op`, and runs it as a TKIND 1 command (R277, R446). -/
def Dev.mailbox (s : Dev) (n op : Nat) (f : Dev → MboxCmd → Dev) : Result :=
  .next (match (s.node n).flight with
    | none => s
    | some m =>
      if !s.lvServed n || m.taken || decide (Bits.fld m.cmd 0 8 ≠ op) then s
      else
        let s := s.modNode n (fun x => { x with flight := some { m with taken := true, held := false } })
        let g := s.lvBlock n / 8
        if m.bad then s.lvDone' n St.badOpcode 0 0 0
        else if s.auto g then s.lvDone' n St.autonomous 0 0 0
        else f (s.wakeAccess (some g)) m)

/-- A mailbox channel command (R445). -/
def Dev.lvChan (s : Dev) (n op : Nat) (native : Nat) (f : Dev → Nat → CmdRes × Dev) : Result :=
  s.mailbox n op (fun s m =>
    let b := s.lvBlock n
    let one := !Bits.bit m.cmd 11
    s.chanRun (Lv.ring n, 0) native one (if one then 8 * b + Bits.fld m.cmd 8 3 else b) f)

def execLvOn (n : BlockIx) (s : State) : Outcome := s.on fun s => s.lvChan n 0x01 0x0102 Dev.chOn
def execLvOff (n : BlockIx) (s : State) : Outcome := s.on fun s => s.lvChan n 0x02 0x0103 Dev.chOff
def execLvReset (n : BlockIx) (s : State) : Outcome := s.on fun s => s.lvChan n 0x03 0x0104 Dev.chReset
def execLvEnable (n : BlockIx) (s : State) : Outcome := s.on fun s => s.lvChan n 0x04 0x0100 Dev.chEnable
def execLvDisable (n : BlockIx) (s : State) : Outcome := s.on fun s => s.lvChan n 0x05 0x0101 Dev.chDisable

/-- A PROFILE_PATCH of one 24-bit field by a mailbox (R445): checked as the native command is (R93, R277, R281). -/
def Dev.lvPatch (s : Dev) (n op word : Nat) : Result :=
  s.mailbox n op (fun s m =>
    let l : List ProfEdit := [(word, 0x00FFFFFF, m.arg0)]
    let cs := s.lvCells n m
    if 2 ^ 24 ≤ m.arg0.toNat ∨ !cs.all (fun c => Prof.legal (s.candidate c l)) then s.lvDone' n St.badParam 0 0 0
    else if cs.any (fun c => s.profBusy c l) then s.lvDone' n St.cfgBusy 0 0 0
    else (cs.foldl (fun s c => (s.writeProf c l).2.2) s).lvDone' n 0 0 0 0)

def execSetIlim (n : BlockIx) (s : State) : Outcome := s.on fun s => s.lvPatch n 0x10 3
def execSetFaultTime (n : BlockIx) (s : State) : Outcome := s.on fun s => s.lvPatch n 0x11 6

/-- READ_ENERGY: E_FWD_UJ / 1000, bits [23:0] and [55:24]. -/
def execReadEnergy (n : BlockIx) (s : State) : Outcome := s.on fun s =>
  s.mailbox n 0x20 (fun s m =>
    let mj := (s.lane (8 * s.lvBlock n + Bits.fld m.cmd 8 3)).eFwd / 1000
    s.lvDone' n 0 (mj % 2 ^ 24) (mj >>> 24) 0)

/-- CLEAR_FLAGS: the image is written at the completion (R444). -/
def execClearFlags (n : BlockIx) (s : State) : Outcome := s.on fun s =>
  s.mailbox n 0x21 (fun s m => s.lvDone' n 0 0 0 ((s.lvCells n m).foldl (fun a c => a ||| 1 <<< (c % 8)) 0))

/-! ### Images (R443, R444) -/

/-- FSTATE of a native state (Table 20-3). -/
def Lv.fstate : CellState → Nat
  | .disabled | .off | .probe => 0
  | .precheck | .waitGrant | .inrush => 1
  | .on | .limit => 2
  | .tripped | .cooldown => 3
  | .latched | .safe => 4

/-- LN_CH_STAT of a cell without TRIPPED_SEEN. -/
def Cell.lvStat (x : Cell) : Nat := Lv.fstate x.state + Bits.b2n x.present * 8 + x.trip.primary % 32 * 16

/-- A channel image after a refresh: the means of the interval, or the previous values (R443); currents saturate (R448).
Log 146 (DEDUCED, unsafe). -/
def Dev.lvChanRefresh (s : Dev) (c : Nat) (k : NodeChan) : NodeChan :=
  let k := { k with stat := (s.cell c).lvStat, tj := Bits.ofInt 16 (s.cell c).tjEst }
  if k.n = 0 then k
  else { k with
    i := Bits.ofInt 16 (Bits.sat 16 ((s.codeUa c k.iSum).tdiv (k.n * 10000)))
    v := min 65535 (k.vSum.tdiv k.n).toNat
    n := 0, iSum := 0, vSum := 0 }

/-- The lanes whose latest trip is newer than the latest refresh. -/
def Dev.lvTripped (s : Dev) (b last : Nat) : Nat :=
  (List.range 8).foldl (fun a l => if last < (s.cell (8 * b + l)).trip.time then a ||| 1 <<< l else a) 0

/-- The home barge runs code: started, neither seized nor halted. -/
def Barge.serves (k : Barge) : Bool := k.run && !k.seized && !k.dbg.halted

def Dev.lvRefresh (s : Dev) (n : Nat) : Dev :=
  let b := s.lvBlock n
  s.modNode n (fun x => { x with
    chans := (List.range 8).foldl (fun m l => Sparse.modify (fun _ => {}) m l (fun k => s.lvChanRefresh (8 * b + l) k)) x.chans
    seen := x.seen ||| s.lvTripped b x.last, last := s.rtime (b / 8)
    seq := (x.seq + 1) % 65536, time := s.tbTime / 1000 % 2 ^ 32, stale := false })

/-- R443. The home barge refreshes no image while it is halted or reset, or its region autonomous (R444). -/
def execNodeImageRefresh (n : BlockIx) (s : State) : Outcome := s.on fun s =>
  let b := s.lvBlock n
  .next (if s.lvServed n ∧ (s.barge b).serves ∧ !s.auto (b / 8) then s.lvRefresh n else s)

/-- R444: no refresh for 5 ms. -/
def execNodeImageStale (n : BlockIx) (s : State) : Outcome := s.on fun s =>
  .next (if s.lvServed n then s.modNode n (fun x => { x with stale := true }) else s)

/-! ### Completion (R446) -/

/-- CODE of a native status (Table 20-5). -/
def Lv.code (status : Nat) : Nat :=
  if status = 0 then 0 else if status = St.badParam then 2 else if status = St.badState ∨ status = St.cfgBusy then 3
  else if status = St.busy then 4 else if status = St.autonomous then 5 else 1

/-- The host port writes a result: the mailbox state, HP_LV_DONE and the message on VECTOR. -/
def Dev.lvFinish (s : Dev) (n code value value2 flags : Nat) : Dev :=
  let b := s.lvBlock n
  let lanes := match (s.node n).flight with
    | some m => (s.lvCells n m).map (· % 8)
    | none => []
  let s := s.modNode n (fun x => { x with
    chans := lanes.foldl (fun m l => Sparse.modify (fun _ => {}) m l (fun (k : NodeChan) =>
      { k with stat := (s.cell (8 * b + l)).lvStat })) x.chans
    seen := x.seen &&& (255 ^^^ flags)
    result := BitVec.ofNat 32 (code + value % 2 ^ 24 * 256), result2 := BitVec.ofNat 32 value2
    mbox := if code = 0 then .done else .error, flight := none })
  let s := { s with lvDone := s.lvDone ||| (1#64 <<< n) }
  if s.rb RegMap.hpLvCfg 2 then s.sendMsix (s.rf RegMap.hpLvCfg 22 10) else s

/-- R446: the result of a command a barge has taken; one not taken within 150 us is withdrawn with NO_SERVICE (R264), or
BAD_CMD where the command itself is bad. -/
def execMailboxCompletion (n : BlockIx) (s : State) : Outcome := s.on fun s =>
  .next (match takeFirst (fun (k : Completion) => k.cmdRing == Lv.ring n) s.complq with
    | some (k, rest) =>
      ({ s with complq := rest }).lvFinish n (Lv.code k.status) (if k.status = 0 then k.r0.toNat else 0)
        (if k.status = 0 then k.r1.toNat else 0) k.handle
    | none => match (s.node n).flight with
      | none => s
      | some m =>
        if m.taken then s
        else (s.dropToken (s.lvBlock n) m.token).lvFinish n (if m.bad then 1 else 6) 0 0 0)

/-! ### The window (Table 20-2) -/

/-- A 32-bit read of BAR4. -/
def Dev.lvRead (s : Dev) (off : Nat) : Word :=
  let n := off / 0x400
  let o := off % 0x400
  let x := s.node n
  let w := BitVec.ofNat 32
  if !s.lvServed n then 0
  else if 0x040 ≤ o ∧ o < 0x0C0 then
    let l := (o - 0x40) / 16
    let k := Sparse.get (fun _ => ({} : NodeChan)) x.chans l
    match o % 16 with
    | 0 => w (k.stat + Bits.b2n (Bits.nbit x.seen l) * 512)
    | 4 => w k.i
    | 8 => w k.v
    | 12 => w k.tj
    | _ => 0
  else match o with
    | 0x000 => w (0x00407108 + n * 2 ^ 24)
    | 0x008 => w ((match x.mbox with | .idle => 0 | .busy => 1 | .done => 2 | .error => 3) +
        Bits.b2n x.stale * 4 + Bits.b2n x.overrun * 8 + x.seq * 65536)
    | 0x010 => x.cmd &&& 0xFFF
    | 0x014 => x.arg0
    | 0x018 => x.arg1
    | 0x020 => x.result
    | 0x024 => x.result2
    | 0x030 => w x.time
    | _ => 0

/-- A 32-bit write of BAR4. -/
def Dev.lvWrite (s : Dev) (off : Nat) (v : Word) : Dev :=
  let n := off / 0x400
  if !s.lvServed n then s
  else match off % 0x400 with
    | 0x008 => if Bits.bit v 3 then s.modNode n (fun x => { x with overrun := false }) else s
    | 0x010 => s.modNode n (fun x => { x with cmd := v })
    | 0x014 => s.modNode n (fun x => { x with arg0 := v })
    | 0x018 => s.modNode n (fun x => { x with arg1 := v })
    | 0x01C => s.lvDoorbell n
    | _ => s

end Sys2Proof.Machine
end

