-- ==== Sys2Proof/Machine/RegRead.lean ====
section
/-! DEFINITION. Reading BAR0 (spec/21): the word at an offset, what a read of the word clears (RC), and the reads that remove a
record (R454) or latch (R179). -/

namespace Sys2Proof.Machine

def Reg.w (n : Nat) : Word := BitVec.ofNat 32 n
/-- One of two halves of a 64-bit register. -/
def Reg.half (v : Nat) (off : Nat) : Word := Reg.w (v >>> (if off % 8 = 0 then 0 else 32))

/-! ### Words of the chip unit pages -/

/-- CHIP_BOOT_STAT (Table 18-7). -/
def Dev.bootStat (s : Dev) : Word :=
  let p := s.pwr
  let b := Bits.b2n
  Reg.w (b p.trimOk + b p.rtUp * 2 + b p.rtFail * 4 + s.rtSlot % 2 * 8 + b p.custUp * 16 + b p.custFail * 32 +
    s.custSlot % 2 * 64 + s.regionMask (·.islandUp) * 2 ^ 8 + s.regionMask (·.islandCal) * 2 ^ 16 + p.lastReset % 8 * 2 ^ 24)

/-- HP_STAT and HP_HB_STAT (Tables 11-16 and 11-18); a context flush is whole in its step, so CTX_FLUSH_BUSY reads 0. -/
def Dev.hpStat (s : Dev) : Word := Reg.w (Bits.b2n s.hp.ready + s.hp.dbBad * 2 ^ 16 + s.hp.unrouted * 2 ^ 24)
def Dev.hbStat (s : Dev) : Word :=
  Reg.w (Bits.b2n s.hp.hbRunning + Bits.b2n s.hp.hostLost * 2 + Bits.b2n s.hp.policyRan * 4 + s.hp.lossCount * 256)

/-- TB_DISC_STAT (Table 8-8). -/
def Dev.tbDiscStat (s : Dev) : Word :=
  let t := s.tb
  Reg.w (t.state.code + t.active % 8 * 8 + Bits.b2n t.slewing * 64 + Bits.b2n t.stepSeen * 128 + Bits.b2n t.adjRefused * 256 +
    Bits.ofInt 23 (max (-4194303) (min 4194303 t.offset)) * 512)

/-- TB_LINK_STAT (Table 8-12). -/
def Dev.tbLinkStat (s : Dev) : Word :=
  let r := s.ring
  Reg.w (s.linkA.state.code + s.linkB.state.code * 4 + s.ringPos % 8 * 16 + Bits.b2n r.posValid * 128 + r.size % 8 * 256 +
    Bits.b2n r.closed * 2 ^ 11 + Bits.b2n r.conflict * 2 ^ 12 + s.linkA.hops % 8 * 2 ^ 13 + s.linkB.hops % 8 * 2 ^ 16 +
    r.crcErrors * 2 ^ 24)

/-- TB_REPLICA_STAT[g] (Table 8-9). -/
def Dev.replicaStat (s : Dev) (g : Nat) : Nat :=
  let r := s.replica g
  (match (s.region g).replica with | .acquire => 0 | .locked => 1 | .holdover => 2) + Bits.b2n r.stepped * 4 +
  Bits.ofInt 8 (max (-127) (min 127 r.err)) * 256 + Bits.ofInt 32 (max (-2147483647) (min 2147483647 r.lastStep)) * 2 ^ 32

/-- LK_STAT and LK_TABLE_STAT[n] (Table 8-19). -/
def Dev.lkStat (s : Dev) : Word :=
  Reg.w (s.lk.late + s.lk.bad * 2 ^ 8 + s.lk.deferLost * 2 ^ 16 + s.lk.refused * 2 ^ 24)
def Dev.lkTableStat (s : Dev) (n : Nat) : Word :=
  let t := s.lockTable n
  Reg.w (t.copies.length % 2048 + t.high % 2048 * 2 ^ 16 + Bits.b2n t.fullSeen * 2 ^ 31)

/-- SL_GROUP_STAT[n] and SL_GROUP_QUEUE[n] (Tables 4-13 and 4-14). -/
def Dev.slStat (s : Dev) (n : Nat) : Word :=
  let p := s.sluice
  let frozen := p.held.any (fun r => r.group == n && r.frozen) || p.pend.any (fun r => r.group == n && r.frozen)
  Reg.w (min 0xFFFFFF (p.reserved n) + Bits.b2n frozen * 2 ^ 24 + Bits.b2n (Bits.nbit p.oversize n) * 2 ^ 25)
def Dev.slQueue (s : Dev) (n : Nat) : Word :=
  Reg.w ((s.sluice.pend.filter (fun r => r.group == n)).length % 1024 + s.sluice.active n % 1024 * 2 ^ 16)

/-- The basin's own words (Table 13-2). -/
def Dev.bzPeek (s : Dev) (o : Nat) : Word :=
  let z := s.bz
  match o with
  | 0x30 => Reg.half z.w 0 | 0x34 => Reg.half z.w 4
  | 0x38 => Reg.half z.trigPos 0 | 0x3C => Reg.half z.trigPos 4
  | 0x40 => Reg.half z.trigTime 0 | 0x44 => Reg.half z.trigTime 4
  | 0x48 => Reg.w (z.trigSrc % 4 + z.trigCell % 512 * 4 + z.trigTag % 65536 * 65536)
  | 0x4C => Reg.w (Bits.b2n z.frozen + Bits.b2n z.postRunning * 2 + Bits.b2n z.segErr * 4 + Bits.b2n z.drop.isSome * 8 +
      z.trigIgnored * 2 ^ 16 + z.markLost * 2 ^ 24)
  | 0x50 => Reg.w z.dropTotal
  | _ => s.reg (0x60000 + o)

/-- A collector's words below its tables (Table 17-7): FC_ERR in the chip's only. -/
def Dev.fcPeek (s : Dev) (k o : Nat) : Word :=
  let x := s.coll k
  if o < 0x10 then (Bits.words4 x.latched.toNat).getD (o / 4) 0
  else if o < 0x20 then (Bits.words4 x.live.toNat).getD ((o - 0x10) / 4) 0
  else if o = 0x24 then s.fcHstat k
  else if o = 0x2C ∧ k = 8 then s.fcErrRead
  else if 0x40 ≤ o ∧ o < 0x50 then (match x.hist with | [] => [] | e :: _ => e.words).getD ((o - 0x40) / 4) 0
  else if 0x50 ≤ o ∧ o < 0x60 then x.lastRead.words.getD ((o - 0x40) / 4) 0
  else if 0x60 ≤ o ∧ o < 0x80 then x.firstWords.getD ((o - 0x60) / 4) 0
  else 0

/-- The debug page (Table 19-4); DBG_KEY and the masks read 0. -/
def Dev.dbgPeek (s : Dev) (o : Nat) : Word :=
  match o with
  | 0x00 => Reg.w (Bits.b2n s.dbg.granted + Bits.b2n s.dbg.deny * 2) ||| s.reg RegMap.dbgCtrl
  | 0x04 => s.dbgStat
  | 0x08 => Reg.half s.dbgHalted 0 | 0x0C => Reg.half s.dbgHalted 4
  | _ => 0

/-- A word of a chip unit page. -/
def Dev.chipPeek (s : Dev) (off : Nat) : Word :=
  match off / 0x10000 with
  | 0 => (match off with
    | 0x04 => s.bootStat
    | 0x18 => Reg.w (s.rgnFail.toNat + Bits.b2n s.badSize * 256 + s.rsvdWrites * 65536)
    | _ => s.reg off)
  | 1 => (match off with
    | 0x10004 => Reg.w (s.pwr.mode % 4 + Bits.b2n s.pwr.refused * 4 + s.pwr.reason % 8 * 8)
    | 0x1000C => Reg.w (s.pwr.cause % 512)
    | _ => s.reg off)
  | 2 => (match off with
    | 0x20004 => s.hpStat
    | 0x20038 => s.hbStat
    | 0x20048 => Reg.half s.lvDone.toNat 0
    | 0x2004C => Reg.half s.lvDone.toNat 4
    | _ => s.reg off)
  | 3 =>
    if 0x30040 ≤ off then Reg.half (s.replicaStat ((off - 0x30040) / 8 % 8)) off
    else (match off with
      | 0x30000 => Reg.w (s.tbTime / 4 * 4)
      | 0x30004 => Reg.half s.tbTime 4
      | 0x30008 => BitVec.ofInt 32 s.tb.rate
      | 0x3001C => s.tbDiscStat
      | 0x30024 => s.tbLinkStat
      | _ => s.reg off)
  | 4 => if off = 0x40004 then s.lkStat else if 0x40080 ≤ off then s.lkTableStat ((off - 0x40080) / 4) else s.reg off
  | 5 => if off < 0x50080 then s.reg off
         else if off < 0x500C0 then s.slStat ((off - 0x50080) / 4) else s.slQueue ((off - 0x500C0) / 4)
  | 6 => s.bzPeek (off - 0x60000)
  | 7 => (s.rvRead (off - 0x70000)).1
  | 8 => if off = 0x80004 then s.mgStat else if off = 0x80104 then s.svStat else s.reg off
  | 9 =>
    let o := off - 0x90000
    if o < 0x400 then s.fcPeek 8 o else if o < 0x800 then s.reg off
    else Reg.w (Sparse.get (fun _ => 0) (s.coll 8).counts ((o - 0x800) / 4))
  | _ => s.dbgPeek (off - 0xA0000)

/-! ### Central-side region registers (Tables 1-7, 1-8 and 18-7) -/

def Dev.centralPeek (s : Dev) (g o : Nat) : Word :=
  let r := s.region g
  match o with
  | 0 => s.reg (RegMap.rgnCtrl g) ||| Reg.w (Bits.b2n r.asleep * 8)
  | 4 => s.reg (RegMap.rgnAutonomy g)
  | _ => Reg.w (Bits.b2n r.linkUp + Bits.b2n r.autonomous * 2 + Bits.b2n r.holdover * 4 + Bits.b2n r.lossSeen * 8 +
      r.lossCount * 256 + r.corrCount * 65536)

/-! ### Region windows -/

/-- An integrating record as eight words (Table 6-5). -/
def IntRec.words (r : IntRec) : List Word :=
  Bits.words2 r.endTime ++
  [Reg.w r.winSeq, Reg.w (r.clocks % 2 ^ 25 + Bits.b2n r.aborted * 2 ^ 25 + Bits.b2n r.iOvr * 2 ^ 26 + Bits.b2n r.vOvr * 2 ^ 27 +
     Bits.b2n r.avgNew * 2 ^ 28),
   BitVec.ofInt 32 r.iVal, BitVec.ofInt 32 r.vVal, BitVec.ofInt 32 r.iAvg, BitVec.ofInt 32 r.vAvg]

/-- RGN_CMP_STAT[b] (Table 5-9). -/
def Dev.cmpStat (s : Dev) (b : Nat) : Word :=
  let k := s.block b
  let n := Bits.b2n
  Reg.w (n k.vlo.out + n k.vhi.out * 2 + n k.vlo.bandInit * 4 + n k.vhi.bandInit * 8 +
    (if h : b < 64 then s.winPos (.vin ⟨b, h⟩) else 3) * 16 +
    n (k.vlo.pendingMode.isSome || k.vhi.pendingMode.isSome) * 64 + n k.vtestFail * 128 + k.edges.length * 2 ^ 16 +
    k.edgeLost * 2 ^ 24)

/-- A word of a block page, block `b`. -/
def Dev.blockPeek (s : Dev) (b o : Nat) : Word :=
  let off := RegMap.block b o
  if o < 0x1000 then
    if 0x30 ≤ o ∧ o < 0x40 then (match (s.block b).edges with | [] => [] | e :: _ => e.words).getD ((o - 0x30) / 4) 0
    else if 0x40 ≤ o ∧ o < 0x50 then
      let l := (o - 0x40) / 4 * 2
      Reg.w ((s.lane (8 * b + l)).tag % 65536 + (s.lane (8 * b + l + 1)).tag % 65536 * 65536)
    else if 0x60 ≤ o ∧ o < 0x80 then (s.conv b).vinRec.words.getD ((o - 0x60) / 4) 0
    else if o = 0x18 then s.cmpStat b
    else if o = 0x24 then Reg.w ((s.block b).vinMv % 65536 + (s.conv b).vinTag % 65536 * 65536)
    else s.reg off
  else
    let c := 8 * b + (o - 0x1000) / 0x100
    let r := o % 0x100
    if r = 0 then s.cellStatus c
    else if 0x20 ≤ r ∧ r < 0x40 then (s.lane c).rcd.words.getD ((r - 0x20) / 4) 0
    else if 0x40 ≤ r ∧ r < 0x50 then (Bits.words2 (s.lane c).eFwd ++ Bits.words2 (s.lane c).eRev).getD ((r - 0x40) / 4) 0
    else s.reg off

/-- RGN_TRIP_STAT[g] (Table 4-4). -/
def Dev.tripStat (s : Dev) (g : Nat) : Word :=
  let d := s.driven g
  Reg.w ((d ||| (s.region g).extLines) % 256 + d % 256 * 2 ^ 8 + s.sliceFaults g % 16 * 2 ^ 16 + (s.region g).extSeen % 256 * 2 ^ 24)

/-- RGN_AUX_STAT[g] and RGN_AUX_RES[g][a] (Tables 6-13 and 6-14): with nothing running CURRENT is the input last converted. -/
def Dev.auxStat (s : Dev) (g : Nat) : Word :=
  let x := s.aux g
  Reg.w ((x.current.getD x.lastInput) % 32 + Bits.b2n x.inUrgent * 2 ^ 5 + Bits.b2n x.queued.isSome * 2 ^ 6 +
    Bits.b2n x.urgentDone * 2 ^ 7 + Bits.b2n x.overrun * 2 ^ 8 + x.overruns * 2 ^ 16 + x.scans % 256 * 2 ^ 24)
def Dev.auxRes (s : Dev) (g a : Nat) : Word :=
  let r := (s.aux g).result a
  Reg.w (r.value % 65536 + Bits.b2n r.valid * 2 ^ 16 + Bits.b2n r.urgent * 2 ^ 17 + Bits.b2n r.rangeErr * 2 ^ 18 +
    r.pass % 256 * 2 ^ 24)

/-- RGN_PLAUS_STAT[g] (Table 7-5). -/
def Dev.plausStat (s : Dev) (g : Nat) : Word :=
  let x := s.aux g
  Reg.w (x.fail % 256 + x.failSeen % 256 * 2 ^ 8 + x.mismatches * 2 ^ 16 + x.unsteady * 2 ^ 24)

/-- A word of the region unit pages, by offset from window offset 0x0008_0000. -/
def Dev.unitPeek (s : Dev) (g o : Nat) : Word :=
  let off := RegMap.unit g o
  match o / 0x1000 with
  | 0 => if o < 0x400 then s.fcPeek g o else if o < 0xC00 then s.reg off
         else Reg.w (Sparse.get (fun _ => 0) (s.coll g).counts ((o - 0xC00) / 4))
  | 1 => (match o with
    | 0x1000 => s.tripStat g
    | 0x1008 => s.reg off ||| Reg.w (Bits.b2n (s.linkStale g) * 2 ^ 25 + Bits.b2n (s.linkMatch g) * 2 ^ 26)
    | _ => s.reg off)
  | 2 => if o = 0x200C then s.auxStat g else if 0x2080 ≤ o ∧ o < 0x20E0 then s.auxRes g ((o - 0x2080) / 4) else s.reg off
  | 3 => if o = 0x3004 then s.plausStat g else s.reg off
  | 4 =>
    let k := 4 * g + (o - 0x4000) / 0x100
    (match o % 0x100 with
     | 0x34 => (s.slice k).stat
     | 0x38 => (s.slice k).cnt
     | _ => s.reg off)
  | _ =>
    let t := 2 * g + (o - 0x5000) / 0x1000
    let r := o % 0x1000
    if 0x10 ≤ r ∧ r < 0x20 then (s.popNotify t).1.getD ((r - 0x10) / 4) 0 else (s.towRead t r).1

/-- The MSI-X table and the pending bits (Table 11-2). -/
def Dev.msixPeek (s : Dev) (o : Nat) : Word :=
  if o < 0x8000 then s.msixWord (o / 4)
  else if o < 0x8100 then
    Reg.w ((List.range 32).foldl (fun a i => a + Bits.b2n (s.msixPending (8 * (o - 0x8000) + i)) * 2 ^ i) 0)
  else 0

/-! ### Any word -/

/-- The region of a window offset. -/
def Reg.region (off : Nat) : Option Nat :=
  if 0x00400000 ≤ off ∧ off < 0x00C00000 then some ((off - 0x00400000) / 0x00100000) else none
/-- Offset within a region window. -/
def Reg.inWindow (off : Nat) : Nat := (off - 0x00400000) % 0x00100000
/-- The offset is one of the MSI-X range. -/
def Reg.msix (off : Nat) : Bool := decide (0x00FF0000 ≤ off)

/-- The word a read of BAR0 offset `off` finds, without side effects; an offset not listed reads 0 (R455). -/
def Dev.peekWord (s : Dev) (off : Nat) : Word :=
  if Reg.msix off then s.msixPeek (off - 0x00FF0000)
  else if !(RegMap.info off).listed then 0
  else match Reg.region off with
    | some g =>
      let w := Reg.inWindow off
      if w < 0x80000 then s.blockPeek (8 * g + w / 0x10000) (w % 0x10000) else s.unitPeek g (w - 0x80000)
    | none =>
      if off < 0x000B0000 then s.chipPeek off else s.centralPeek ((off - 0x000B0000) / 0x100) (off % 0x100)

/-- What a read of the word clears (R2, RC). -/
def Dev.readClears (s : Dev) (off : Nat) : Dev :=
  match Reg.region off with
  | some g =>
    let w := Reg.inWindow off
    if w < 0x80000 then
      if w % 0x10000 = 0x18 then s.modBlock (8 * g + w / 0x10000) (fun k => { k with edgeLost := 0 }) else s
    else
      let o := w - 0x80000
      if o = 0x24 then (s.fcHstatRead g).2
      else if 0xC00 ≤ o ∧ o < 0xE00 then (s.fcCountRead g ((o - 0xC00) / 4)).2
      else if o = 0x200C then s.modAux g (fun x => { x with overruns := 0 })
      else if o = 0x3004 then s.modAux g (fun x => { x with mismatches := 0, unsteady := 0 })
      else if 0x4000 ≤ o ∧ o < 0x4400 then
        let k := 4 * g + (o - 0x4000) / 0x100
        if o % 0x100 = 0x34 then s.modSlice k (fun x => { x with pulseSkip := 0 })
        else if o % 0x100 = 0x38 then s.modSlice k (fun x => { x with ilim := 0, cutCount := 0 }) else s
      else if 0x5000 ≤ o ∧ o < 0x7000 then (s.towRead (2 * g + (o - 0x5000) / 0x1000) (o % 0x1000)).2
      else s
  | none =>
    if 0x000B0000 ≤ off ∧ off < 0x000B0800 then
      if off % 0x100 = 8 then s.modRegion ((off - 0x000B0000) / 0x100) (fun r => { r with lossCount := 0, corrCount := 0 }) else s
    else if 0x40080 ≤ off ∧ off < 0x400A4 then
      s.modLockTable ((off - 0x40080) / 4) (fun t => { t with high := t.copies.length })
    else if 0x70000 ≤ off ∧ off < 0x80000 then (s.rvRead (off - 0x70000)).2
    else if 0x90800 ≤ off ∧ off < 0x90A00 then (s.fcCountRead 8 ((off - 0x90800) / 4)).2
    else match off with
      | 0x00018 => { s with rsvdWrites := 0 }
      | 0x1000C => { s with pwr := { s.pwr with cause := 0 } }
      | 0x20004 => { s with hp := { s.hp with dbBad := 0, unrouted := 0 } }
      | 0x20038 => { s with hp := { s.hp with lossCount := 0 } }
      | 0x30024 => { s with ring := { s.ring with crcErrors := 0 } }
      | 0x40004 => { s with lk := { s.lk with late := 0, bad := 0, deferLost := 0, refused := 0 } }
      | 0x6004C => s.modBz (fun z => { z with trigIgnored := 0, markLost := 0 })
      | 0x80004 => s.modMg (fun m => { m with nacks := 0 })
      | 0x80104 => s.modSv (fun v => { v with crcErrors := 0, lenErrors := 0 })
      | 0x90024 => (s.fcHstatRead 8).2
      | _ => s

/-! ### Reads of 4, 8 and 16 bytes -/

/-- The offsets of an access. -/
def Reg.offsets (off bytes : Nat) : List Nat := (List.range (bytes / 4)).map (fun i => off + 4 * i)

/-- A register whose 16-byte read at its offset 0 removes a record (R454): that read. -/
def Dev.popRead (s : Dev) (off : Nat) : Option (List Word × Dev) :=
  match Reg.region off with
  | some g =>
    let w := Reg.inWindow off
    if w < 0x80000 then (if w % 0x10000 = 0x30 then some (s.popEdge (8 * g + w / 0x10000)) else none)
    else if w = 0x80040 then some (s.popHistory g)
    else if w = 0x85010 then some (s.popNotify (2 * g))
    else if w = 0x86010 then some (s.popNotify (2 * g + 1))
    else none
  | none => if off = 0x90040 then some (s.popHistory 8) else none

/-- CHIP_ACC_STAT: an access of an unsupported size (R453, R454). -/
def Dev.badAccess (s : Dev) : Dev := { s with badSize := true }
/-- CHIP_ACC_STAT: a write is ignored and counted (R453, R455). -/
def Dev.rsvdWrite (s : Dev) : Dev := { s with rsvdWrites := Bits.satAdd 65535 s.rsvdWrites 1 }

/-- A read of whole registers: `bytes` is 4, 8 or 16 and `off` a multiple of it. The words are read together, then the RC
fields of each clear. Log 149 (DEDUCED, unsafe). -/
def Dev.readWords (s : Dev) (off bytes : Nat) : List Word × Dev :=
  match s.popRead off with
  | some r => if bytes = 16 then r else (List.replicate (bytes / 4) 0, s.badAccess)
  | none =>
    if bytes = 4 ∧ off = 0x30000 then
      let (w, s) := s.readTbLow
      ([w], s)
    else if bytes = 4 ∧ off = 0x30004 then ([s.tb.latch], s)
    else
      let l := Reg.offsets off bytes
      (l.map s.peekWord, s.forEach (l.filter (fun o => !Reg.msix o)) Dev.readClears)

/-- Region window accesses reach the island (R457): the region is not autonomous and its strait carries words, and the region is
in service unless the collector sub-page is meant. Log 151 (DEDUCED, unsafe). -/
def Dev.windowOpen (s : Dev) (g off : Nat) : Bool :=
  s.straitUp g && !s.auto g &&
  (s.rb (RegMap.rgnCtrl g) 0 || (decide (0x80000 ≤ Reg.inWindow off) && decide (Reg.inWindow off < 0x81000)))

/-- An access that fails sets its bit of RGN_FAIL (R457). -/
def Dev.windowFail (s : Dev) (g : Nat) : Dev := { s with rgnFail := s.rgnFail ||| (1#8 <<< g) }

/-- A read of BAR0 by the host or the debug port (R453 to R457); an access in a region window wakes the region. -/
def Dev.barRead (s : Dev) (off bytes : Nat) : List Word × Dev :=
  if !(bytes == 4 || bytes == 8 || bytes == 16) || decide (off % bytes ≠ 0) then
    (List.replicate ((bytes + 3) / 4) 0, s.badAccess.rsvdWrite)
  else match Reg.region off with
    | some g => if s.windowOpen g off then (s.wakeAccess (some g)).readWords off bytes else (List.replicate (bytes / 4) 0, s.windowFail g)
    | none => (s.wakeAccess none).readWords off bytes

end Sys2Proof.Machine
end

