-- ==== Sys2Proof/Machine/RegWrite.lean ====
section
/-! DEFINITION. Writing BAR0, BAR4 and the barge-private registers (spec/21, spec/00 R2 to R7): each word under its commit class
and its own effect, accesses of unsupported sizes and offsets counted, region windows across the strait. -/

namespace Sys2Proof.Machine

/-! ### Class H (R7, R459, Table 21-7) -/

/-- The unit that owns a class H register is stopped. -/
def Dev.regStopped (s : Dev) (off : Nat) : Bool :=
  match Reg.region off with
  | some g =>
    let o := Reg.inWindow off - 0x80000
    if o < 0x5000 then
      let k := 4 * g + (o - 0x4000) / 0x100
      !s.csEn k && decide ((s.slice k).state = .off)
    else
      let t := 2 * g + (o - 0x5000) / 0x1000
      let r := o % 0x1000
      if r = 0 then !s.twEn t else !(s.tow t).inUse ((r - 0x80) / 8)
  | none => match off / 0x10000 with
    | 2 => if off = RegMap.hpLvCfg then !s.rb RegMap.hpLvCfg 0 else !s.hpEn
    | 4 => !s.rb RegMap.lkCfg 0
    | 6 => !s.rb RegMap.bzCtrl 0
    | 7 => !s.rb (RegMap.rv 0) 0
    | _ => true

/-- A write of the word names a class H field of a unit that is not stopped. Log 148 (DEDUCED, unsafe). -/
def Dev.hBlocked (s : Dev) (off : Nat) : Bool := decide ((RegMap.info off).h ≠ 0) && !s.regStopped off

/-- The RW fields of a word by their classes: L and, on a stopped unit, H at once, S pending (R4). -/
def Dev.storeWord (s : Dev) (off : Nat) (v : Word) : Dev :=
  let r := RegMap.info off
  let h : Word := if s.regStopped off then r.h else 0
  let s := s.setReg off (Bits.merge (s.reg off) v (r.l ||| h))
  if r.s = 0 then s else s.pendReg off v r.s

/-! ### Chip unit pages -/

/-- DBG_KEY keeps its words until the last has been written (R429, R453). Log 153 (DEDUCED, unsafe). -/
def Dev.keyWord (s : Dev) (o : Nat) (v : Word) : Dev :=
  let s := s.setReg (0xA0000 + o) v
  if o = 0x3C then
    s.dbgSetKey ((List.range 4).map (fun i => BitVec.ofNat 64 (s.reg64 (0xA0020 + 8 * i))))
  else s

/-- A mask of 64 bits of which one half is written. -/
def Reg.mask64 (off : Nat) (v : Word) : DWord := BitVec.ofNat 64 (v.toNat <<< (if off % 8 = 0 then 0 else 32))

/-- The debug page (Table 19-4). -/
def Dev.dbgWrite (s : Dev) (o : Nat) (v : Word) : Dev :=
  if 0x20 ≤ o ∧ o < 0x40 then s.keyWord o v
  else match o with
    | 0x00 =>
      let s := s.storeWord RegMap.dbgCtrl v
      let s := if Bits.bit v 1 then s.dbgDenied else s
      s.dbgGrant (Bits.bit v 0)
    | 0x04 => if Bits.bit v 2 then s.modDbg (fun d => { d with seen := false }) else s
    | 0x10 => s.dbgHaltReq (Reg.mask64 o v)
    | 0x14 => s.dbgHaltReq (Reg.mask64 o v)
    | 0x18 => s.dbgResumeReq (Reg.mask64 o v)
    | 0x1C => s.dbgResumeReq (Reg.mask64 o v)
    | _ => s

/-- The words of a collector below its tables (Table 17-7). -/
def Dev.fcWrite (s : Dev) (k o : Nat) (v : Word) : Dev :=
  if o < 0x10 then s.clearLatched k (BitVec.ofNat 128 (v.toNat <<< (8 * o)))
  else match o with
    | 0x20 => s.fcInject k v
    | 0x24 => s.fcHstatWrite k v
    | 0x28 => if Bits.bit v 0 then s.clearFirst k else s
    | 0x2C => if k = 8 then s.fcErrWrite v else s
    | _ => s

/-- The basin page (Table 13-2). -/
def Dev.bzWrite (s : Dev) (off : Nat) (v : Word) : Dev :=
  if off = RegMap.bzCtrl then
    let s := if s.rb RegMap.bzCtrl 0 then s else s.putReg RegMap.bzCtrl 1 1 (Bits.fld v 1 1)
    if Bits.bit v 0 then s.bzEnable else s.bzDisable
  else if off = 0x6004C then (if Bits.bit v 2 then s.modBz (fun z => { z with segErr := false }) else s)
  else s.storeWord off v

/-- Pages CHIP_ to TB_ (Tables 18-7, 11-15 to 11-18, 20-1, 8-1 to 8-12). -/
def Dev.chipWriteLow (s : Dev) (off : Nat) (v : Word) : Dev :=
  match off with
  | 0x00008 => s.chipRstWrite v
  | 0x00010 => s.bargeResets (Reg.mask64 off v)
  | 0x00014 => s.bargeResets (Reg.mask64 off v)
  | 0x00018 => { s with rgnFail := s.rgnFail &&& ~~~ (BitVec.ofNat 8 v.toNat), badSize := s.badSize && !Bits.bit v 8 }
  | 0x10000 => s.modeWrite (Bits.fld v 0 2)
  | 0x10004 => if Bits.bit v 2 then { s with pwr := { s.pwr with refused := false } } else s
  | 0x20000 =>
    let s := s.hpEnable (Bits.bit v 0)
    if Bits.bit v 1 then s.ctxFlush else s
  | 0x20030 =>
    let s := s.storeWord off v
    if Bits.fld v 0 10 = 0 then { s with hp := { s.hp with hbRunning := false } } else s
  | 0x20034 => s.hbKick
  | 0x20038 => { s with hp := { s.hp with
      hostLost := s.hp.hostLost && !Bits.bit v 1, policyRan := s.hp.policyRan && !Bits.bit v 2 } }
  | 0x20048 => { s with lvDone := s.lvDone &&& ~~~ Reg.mask64 off v }
  | 0x2004C => { s with lvDone := s.lvDone &&& ~~~ Reg.mask64 off v }
  | 0x30008 => s.writeTbRate v
  | 0x3000C => s.writeTbAdj v
  | 0x30010 => s.writeDiscCfg v
  | 0x3001C => { s with tb := { s.tb with
      stepSeen := s.tb.stepSeen && !Bits.bit v 7, adjRefused := s.tb.adjRefused && !Bits.bit v 8 } }
  | 0x30020 => s.linkCfgWrite v
  | _ =>
    if 0x30040 ≤ off ∧ off < 0x30080 then
      let g := (off - 0x30040) / 8
      if off % 8 = 0 ∧ Bits.bit v 2 then s.setReplica g { s.replica g with stepped := false } else s
    else s.storeWord off v

/-- A word of a chip unit page. -/
def Dev.chipWrite (s : Dev) (off : Nat) (v : Word) : Dev :=
  if off < 0x40000 then s.chipWriteLow off v
  else match off / 0x10000 with
    | 4 =>
      if 0x40080 ≤ off then
        (if Bits.bit v 31 then s.modLockTable ((off - 0x40080) / 4) (fun t => { t with fullSeen := false }) else s)
      else s.storeWord off v
    | 5 =>
      if 0x50080 ≤ off ∧ off < 0x500C0 then
        (if Bits.bit v 25 then
          let n := (off - 0x50080) / 4
          { s with sluice := { s.sluice with oversize := s.sluice.oversize &&& (2 ^ 16 - 1 - 2 ^ n) } }
         else s)
      else s.storeWord off v
    | 6 => s.bzWrite off v
    | 7 =>
      (match off with
       | 0x70000 => s.rvCtrl v
       | 0x70034 => s.rvSafe v
       | 0x7003C => s.rvKick
       | 0x70040 => if Bits.bit v 14 then s.modRv (fun r => { r with stopRan := false }) else s
       | _ => s.storeWord off v)
    | 8 =>
      (match off with
       | 0x80004 => s.modMg (fun m => { m with pecErr := m.pecErr && !Bits.bit v 8, wakeFail := m.wakeFail && !Bits.bit v 9 })
       | 0x80100 => s.svWrite v
       | 0x80104 => s.modSv (fun x => { x with wdExpired := x.wdExpired && !Bits.bit v 0, safeSeen := x.safeSeen && !Bits.bit v 1 })
       | _ => s.storeWord off v)
    | 9 =>
      let o := off - 0x90000
      if o < 0x400 then s.fcWrite 8 o v
      else if o < 0x600 then s.fcSrcWrite 8 ((o - 0x400) / 4) v
      else s.storeWord off v
    | _ => s.dbgWrite (off - 0xA0000) v

/-! ### Central-side region registers (R458) -/

/-- RGN_AUTONOMY is kept at the central end and forwarded to the island; bit 31 asks for a rejoin (R27). -/
def Dev.autonomyWrite (s : Dev) (g : Nat) (v : Word) : Dev :=
  let s := s.storeWord (RegMap.rgnAutonomy g) v
  let s := if s.straitUp g then s.modRegion g (fun r => { r with autoWord := v &&& 0x000FFFFF }) else s
  if Bits.bit v 31 then s.rejoinRequest g else s

def Dev.centralWrite (s : Dev) (g o : Nat) (v : Word) : Dev :=
  match o with
  | 0 => s.rgnCtrlWrite g v
  | 4 => s.autonomyWrite g v
  | _ => if Bits.bit v 3 then s.modRegion g (fun r => { r with lossSeen := false }) else s

/-! ### Region windows -/

/-- RGN_VIN_CMP (R116, R117): the thresholds at once, the modes by their own rule. -/
def Dev.vinCmpWrite (s : Dev) (b : Nat) (v : Word) : Dev :=
  let s := s.storeWord (RegMap.vinCmp b) v
  if h : b < 64 then
    (s.setMode (.vlo ⟨b, h⟩) (CmpMode.ofCode (Bits.fld v 24 2))).setMode (.vhi ⟨b, h⟩) (CmpMode.ofCode (Bits.fld v 26 2))
  else s

/-- RGN_VIN_FILT (R121): every position of the new history holds the current filtered output. -/
def Dev.vinFiltWrite (s : Dev) (b : Nat) (v : Word) : Dev :=
  let n := max 1 (Bits.fld v 4 4)
  (s.storeWord (RegMap.vinFilt b) v).modBlock b (fun k => { k with
    vlo := { k.vlo with hist := List.replicate n k.vlo.out }
    vhi := { k.vhi with hist := List.replicate n k.vhi.out } })

/-- The legal range of a coefficient word (Table 7-6). Log 155 (DEDUCED, unsafe). -/
def Cal.legal (gain : Bool) (v : Word) : Bool :=
  if gain then decide (0x38000000 ≤ v.toNat) && decide (v.toNat ≤ 0x48000000)
  else decide (-1048576 ≤ v.toInt) && decide (v.toInt ≤ 1048576)

/-- A coefficient word: pending, or ignored with CFG_WRITE_IGNORED out of range (R174). -/
def Dev.calWrite (s : Dev) (off : Nat) (v : Word) : Dev :=
  if Cal.legal (decide (off % 8 = 4)) v then s.storeWord off v else s.cfgIgnored off

/-- A word of a block page, block `b`. -/
def Dev.blockWrite (s : Dev) (b o : Nat) (v : Word) : Dev :=
  let off := RegMap.block b o
  if o < 0x1000 then
    match o with
    | 0x00 => s.vinCmpWrite b v
    | 0x04 => s.vinFiltWrite b v
    | 0x1C => s.writeConvCfg b v
    | 0x50 => s.calWrite off v
    | 0x54 => s.calWrite off v
    | _ => s.storeWord off v
  else
    let r := o % 0x100
    if 0x80 ≤ r ∧ r < 0xA0 then s.calWrite off v else s.storeWord off v

/-- The slice registers (Table 14-6): EN, then KILL; class S takes effect at once while the slice is OFF (R323).
Log 152 (DEDUCED, unsafe). -/
def Dev.csWrite (s : Dev) (k o : Nat) (v : Word) : Dev :=
  let off := RegMap.cs k o
  match o with
  | 0x00 =>
    let s := if Bits.bit v 0 then s.softStart k else s.sliceDisable k
    if Bits.bit v 1 then s.killSlice k 4 else s
  | 0x28 => s.controlWord k v
  | 0x34 => s.modSlice k (fun x => { x with
      wdFired := x.wdFired && !Bits.bit v 7, lossApplied := x.lossApplied && !Bits.bit v 8
      faultSeen := x.faultSeen && !Bits.bit v 9, perForced := x.perForced && !Bits.bit v 10 })
  | _ =>
    let s := s.storeWord off v
    if Cs.classS.contains o ∧ (s.slice k).state = .off then s.commitReg off else s

/-- TW_CTRL (Table 16-10): ABORT, CLR_STUCK, the starts, TGT_POP. SDA at the recovery is as it is (a free value). -/
def Dev.twCtrl (s : Dev) (t : Nat) (v : Word) : Dev :=
  let s := if Bits.bit v 8 then s.twAbort t else s
  let s := if Bits.bit v 9 then
      let (n, s) := s.drawNat
      s.twClear t (n % 2 == 1)
    else s
  let s := s.twStarts t (BitVec.ofNat 8 v.toNat)
  if Bits.bit v 10 then s.tgtPop t else s

/-- TW_CFG: class H fields while EN is 0, then EN. Log 127 (DEDUCED, safe). -/
def Dev.twCfgWrite (s : Dev) (t : Nat) (v : Word) : Dev :=
  let s := if s.twEn t then s
    else s.setReg (RegMap.twCfg t) (Bits.merge (s.reg (RegMap.twCfg t)) v 0x07FFFFFE)
  if Bits.bit v 0 then
    let (n, s) := s.drawNat
    s.twEnable t (n % 2 == 1)
  else if s.twEn t then s.twDisable t else s

/-- The towpath registers (Table 16-10); the buffer of a slot queued or running is read-only. -/
def Dev.twWrite (s : Dev) (t r : Nat) (v : Word) : Dev :=
  if r = 0 then s.twCfgWrite t v
  else if r = 0x04 then s.twCtrl t v
  else if r = 0x08 then s.modTow t (fun w => { w with
    sdaLow := w.sdaLow && !Bits.bit v 7, sclLow := w.sclLow && !Bits.bit v 8, wakeFail := w.wakeFail && !Bits.bit v 9
    merged := w.merged && !Bits.bit v 10, notifyNacked := w.notifyNacked && !Bits.bit v 11
    tgtNacked := w.tgtNacked && !Bits.bit v 12 })
  else if 0xC0 ≤ r ∧ r < 0xE0 then
    let n := (r - 0xC0) / 4
    if Bits.bit v 6 then s.modTow t (fun w => w.setStat n { w.stat n with done := false }) else s
  else if 0x800 ≤ r then
    if (s.tow t).inUse ((r - 0x800) / 256) then s
    else s.modTow t (fun w => { w with buf := Mem.write 0 w.buf (r - 0x800) 4 v.toNat })
  else s.storeWord (RegMap.tw t r) v

/-- A word of the region unit pages. -/
def Dev.unitWrite (s : Dev) (g o : Nat) (v : Word) : Dev :=
  let off := RegMap.unit g o
  match o / 0x1000 with
  | 0 => if o < 0x400 then s.fcWrite g o v
         else if o < 0x600 then s.fcSrcWrite g ((o - 0x400) / 4) v else s.storeWord off v
  | 1 => (match o with
    | 0x1000 => (s.modRegion g (fun r => { r with extSeen := r.extSeen &&& (255 ^^^ Bits.fld v 24 8) })).extUpdate g
    | 0x1004 => s.writeTripForce g v
    | 0x1008 => s.writeLinkTrip g v
    | _ => s.storeWord off v)
  | 2 => (match o with
    | 0x2000 => (s.storeWord off v).auxWake g
    | 0x2004 => s.writeAuxMask g v
    | 0x2008 => if Bits.fld v 0 5 < 24 then s.auxUrgent g (Bits.fld v 0 5) else s
    | 0x200C => s.modAux g (fun x => { x with urgentDone := x.urgentDone && !Bits.bit v 7, overrun := x.overrun && !Bits.bit v 8 })
    | _ => if 0x2100 ≤ o then s.calWrite off v else s.storeWord off v)
  | 3 =>
    if o = 0x3004 then s.modAux g (fun x => { x with failSeen := x.failSeen &&& (255 ^^^ Bits.fld v 8 8) }) else s.storeWord off v
  | 4 => s.csWrite (4 * g + (o - 0x4000) / 0x100) (o % 0x100) v
  | _ => s.twWrite (2 * g + (o - 0x5000) / 0x1000) (o % 0x1000) v

/-- The MSI-X table; clearing a mask bit sends a message that is pending (R269). -/
def Dev.msixWrite (s : Dev) (o : Nat) (v : Word) : Dev :=
  if o < 0x8000 then
    let k := o / 4
    let s := { s with hp := { s.hp with msixTable := Sparse.set Msix.word s.hp.msixTable k v } }
    if k % 4 = 3 ∧ !Bits.bit v 0 ∧ !s.hp.msixMask ∧ s.hp.msixEn then s.msixFlush [k / 4] else s
  else s

/-- One 32-bit word at a listed offset. -/
def Dev.writeWord (s : Dev) (off : Nat) (v : Word) : Dev :=
  if Reg.msix off then s.msixWrite (off - 0x00FF0000) v
  else if !(RegMap.info off).listed then s
  else match Reg.region off with
    | some g =>
      let w := Reg.inWindow off
      if w < 0x80000 then s.blockWrite (8 * g + w / 0x10000) (w % 0x10000) v else s.unitWrite g (w - 0x80000) v
    | none =>
      if off < 0x000B0000 then s.chipWrite off v
      else s.centralWrite ((off - 0x000B0000) / 0x100) (off % 0x100) v

/-! ### Accesses -/

/-- Words of a write in ascending order, with the event of R7 once and the count of R455 once. -/
def Dev.writeWords (s : Dev) (off : Nat) (l : List Word) : Dev :=
  let offs := Reg.offsets off (4 * l.length)
  let blocked := offs.find? s.hBlocked
  let gaps := offs.any (fun o => !Reg.msix o && !(RegMap.info o).listed)
  let s := s.forEach (offs.zip l) (fun s p => s.writeWord p.1 p.2)
  let s := match blocked with
    | some o => s.cfgIgnored o
    | none => s
  if gaps then s.rsvdWrite else s

/-- A write of BAR0 by the host or the debug port (R453 to R457). Log 150 (DEDUCED, unsafe). -/
def Dev.barWrite (s : Dev) (off bytes : Nat) (v : DWord) : Dev :=
  if !(bytes == 4 || bytes == 8) || decide (off % bytes ≠ 0) then s.badAccess.rsvdWrite
  else
    let l := (Bits.words2 v.toNat).take (bytes / 4)
    match Reg.region off with
    | some g => if s.windowOpen g off then (s.wakeAccess (some g)).writeWords off l else s.windowFail g
    | none => (s.wakeAccess none).writeWords off l

/-- BAR4 in 32-bit words (Table 20-2). -/
def Dev.bar4Write (s : Dev) (off bytes : Nat) (v : DWord) : Dev :=
  if !(bytes == 4 || bytes == 8) || decide (off % bytes ≠ 0) then s
  else s.forEach ((Reg.offsets off bytes).zip (Bits.words2 v.toNat)) (fun s p => s.lvWrite p.1 p.2)

/-- The MSI-X control word (R269): enable in bit 0, function mask in bit 1. -/
def Dev.msixControl (s : Dev) (v : Nat) : Dev :=
  let s := { s with hp := { s.hp with msixEn := Bits.nbit v 0, msixMask := Bits.nbit v 1 } }
  if s.hp.msixEn ∧ !s.hp.msixMask then s.msixFlush (s.hp.pba.map (·.1)) else s

/-- R453: a write to a register without a row of its own, or to any register; an access of the host ends STANDBY (R425, R426).
Nothing answers while the central die is held in reset. -/
def execRegisterWrite (x : RegTarget) (bytes : Byte) (v : DWord) (s : State) : Outcome := s.on fun s =>
  .next (if !s.pwr.core then s else match x with
    | .bar0 off => (s.wakeAccess none).barWrite off.toNat bytes.toNat v
    | .bar4 off => (s.wakeAccess none).bar4Write off.toNat bytes.toNat v
    | .barge e off =>
      let n := bytes.toNat
      if (n == 4 || n == 8) && off.toNat % n == 0 then s.bgWrite e off.toNat n (v.toNat % 2 ^ (8 * n)) else s
    | .msixControl => s.msixControl v.toNat)

/-- R456, R457: a write of a region window takes effect in the island, or sets its bit of RGN_FAIL. -/
def execRegionWindowWriteApply (off : BitVec 24) (bytes : Byte) (v : DWord) (s : State) : Outcome := s.on fun s =>
  .next (if s.pwr.core && (Reg.region off.toNat).isSome then (s.wakeAccess none).barWrite off.toNat bytes.toNat v else s)

end Sys2Proof.Machine
end

