-- ==== Sys2Proof/Machine/BargeBus.lean ====
section
/-! DEFINITION. What a barge's loads and stores do when they answer or leave (spec/09 R210 to R221, spec/01 R36). -/

namespace Sys2Proof.Machine

/-- The result of a load is written and its entry leaves the queue (R210). -/
def Barge.loaded (k : Barge) (l : LoadEnt) (rest : List LoadEnt) (d : Nat) : Barge :=
  let k := { k with lq := rest }
  match l.dest with
  | .s r => k.setS r (BitVec.ofNat 32 (l.value d))
  | .pair r => k.setPair r (d % 2 ^ 64)
  | .v r => k.setV r (BitVec.ofNat 128 d)

/-- Words of a register read as one little-endian number. -/
def Reg.number : List Word → Nat
  | [] => 0
  | w :: l => w.toNat + Reg.number l * 2 ^ 32

/-- A barge's load of chip unit registers; beyond them it returns 0 (R452). -/
def Dev.chipLoad (s : Dev) (a size : Nat) : Nat × Dev :=
  if Mem.pastChip a then (0, s)
  else
    let (l, s) := s.readWords (Mem.chipOff a) size
    (Reg.number l, s)

/-- The answer of a load with its data. -/
def Dev.answerLoad (s : Dev) (e : Nat) (l : LoadEnt) (rest : List LoadEnt) (d : Nat) : Dev :=
  (s.modBarge e (fun k => k.loaded l rest d)).haltSettle e

/-- An uncorrectable word (R214): ECC_UNCORRECTED at the next instruction, the destination unwritten. -/
def Dev.loadError (s : Dev) (e : Nat) (l : LoadEnt) (rest : List LoadEnt) : Dev :=
  let s := (s.modBarge e (fun k => { k with lq := rest })).exception e 7 (s.barge e).pc l.addr
  (s.occurCentral (e / 8) 72 e).haltSettle e

/-- R210, R214: the load at place `i` of the queue answers. A load of registers reads them now; an island-window load and a
flash miss have rows of their own. -/
def execLoadResult (e : BargeIx) (i : Fin 4) (ecc : EccRes) (s : State) : Outcome := s.on fun s =>
  let q := (s.barge e).lq
  .next (match q[i.val]? with
    | none => s
    | some l =>
      let rest := q.eraseIdx i.val
      match l.data with
      | some d =>
        if l.miss then s
        else if Mem.classOf l.addr = some .bg then s.answerLoad e l rest d
        else match ecc with
          | .ok => s.answerLoad e l rest d
          | .corrected => (s.answerLoad e l rest d).eccCorrected e
          | .uncorrectable => s.loadError e l rest
      | none =>
        if Mem.classOf l.addr = some .chip then
          let (d, s) := s.chipLoad l.addr l.size
          s.answerLoad e l rest d
        else s)

/-- R212: the line of the oldest miss is filled, and its load returns. -/
def execDataLineFill (e : BargeIx) (s : State) : Outcome := s.on fun s =>
  .next (match takeFirst (fun (l : LoadEnt) => l.miss) (s.barge e).lq with
    | none => s
    | some (l, rest) =>
      let line := l.addr / 32
      let rest := rest.map (fun (m : LoadEnt) => if m.addr / 32 = line then { m with miss := false } else m)
      (s.modBarge e (fun k => { k with dline := some line })).answerLoad e l rest (l.data.getD 0))

/-- A load in the island window finds the register of the barge's own region. -/
def islandOff (e a : Nat) : Nat := RegMap.window (e / 8) + (a - 0x40000000)

/-- R36: the oldest island-window load answers at cycle 64. Without its reply, or with the strait lost, it returns 0 and sets
ISLAND_ACCESS_FAIL; a read whose reply comes late has still taken place. Log 156 (DEDUCED, unsafe). -/
def execIslandLoadReply (e : BargeIx) (replied : Bool) (s : State) : Outcome := s.on fun s =>
  .next (match takeFirst (fun (l : LoadEnt) => Mem.classOf l.addr == some .island) (s.barge e).lq with
    | none => s
    | some (l, rest) =>
      let up := s.straitUp (e.val / 8)
      let (w, s) := if up then s.readWords (islandOff e l.addr) l.size else ([], s)
      if up && replied then s.answerLoad e l rest (Reg.number w)
      else (s.modBarge e (fun k => { k with accFail := true })).answerLoad e l rest 0)

/-! ### Stores -/

/-- A value as 32-bit words. -/
def Reg.words (bytes v : Nat) : List Word := (List.range (bytes / 4)).map (fun i => BitVec.ofNat 32 (v >>> (32 * i)))

/-- The head entry leaves and takes effect by its class (R218, R221, R36, R452). Log 154 (DEDUCED, unsafe). -/
def Dev.drainStore (s : Dev) (e : Nat) (x : StoreEnt) : Dev :=
  match Mem.classOf x.addr with
  | some .iram => s.modBarge e (fun k => { k with patches := k.patches ++ [x] })
  | some .chip =>
    if Mem.pastChip x.addr then s else s.writeWords (Mem.chipOff x.addr) (Reg.words x.size x.data)
  | some .island =>
    if s.straitUp (e / 8) then s.writeWords (islandOff e x.addr) (Reg.words x.size x.data)
    else s.modBarge e (fun k => { k with accFail := true })
  | some .bg => s.bgWrite e (Mem.bgOff x.addr) x.size x.data
  | _ => s.memStore e x.addr x.size x.data

/-- R218. -/
def execStoreDrain (e : BargeIx) (s : State) : Outcome := s.on fun s =>
  .next (match (s.barge e).sb with
    | [] => s
    | x :: rest => ((s.modBarge e (fun k => { k with sb := rest })).drainStore e x).haltSettle e)

end Sys2Proof.Machine
end

