-- ==== Sys2Proof/Machine/Ndl.lean ====
section
/-! DEFINITION. Memory, reset and flash operations of the debug port (spec/19 R431 to R433, R418, R420). -/

namespace Sys2Proof.Machine

/-! ### Spaces (R431) -/

/-- The address space a request names. -/
inductive NdlSpace where
  | barge (e : Nat) | bar0 | regs | flash
  deriving DecidableEq, Repr

/-- Log 143 (DEDUCED, unsafe). -/
def Ndl.space (v : Byte) : Option NdlSpace :=
  if v.toNat < 0x40 then some (.barge v.toNat)
  else match v.toNat with
    | 0x40 => some .bar0
    | 0x41 => some .regs
    | 0x42 => some .flash
    | _ => none

/-! ### Per-barge debug registers (Table 19-5) -/

/-- A word of the debug registers of barge `e`. -/
def Dev.dregPeek (s : Dev) (e o : Nat) : Word :=
  let k := s.barge e
  let d := k.dbg
  if 0x200 ≤ o ∧ o < 0x300 then (Bits.words4 (k.vreg ((o - 0x200) / 16)).toNat).getD (o % 16 / 4) 0
  else if 0x100 ≤ o ∧ o < 0x180 then k.sreg ((o - 0x100) / 4)
  else if 0x20 ≤ o ∧ o < 0x30 then Sparse.get (fun _ => 0) d.bps ((o - 0x20) / 4)
  else match o with
    | 0x00 => Reg.w (Bits.b2n d.halted + d.cause % 8 * 2 + d.unit % 4 * 16)
    | 0x04 => Reg.w k.pc
    | 0x08 => Reg.half d.haltCycle 0 | 0x0C => Reg.half d.haltCycle 4
    | 0x10 => Reg.w d.waddr
    | 0x18 => Reg.half d.xtrig.toNat 0 | 0x1C => Reg.half d.xtrig.toNat 4
    | 0x30 => Reg.w (Sparse.get (fun _ => {}) d.wps 0).addr | 0x34 => (Sparse.get (fun _ => {}) d.wps 0).ctl
    | 0x38 => Reg.w (Sparse.get (fun _ => {}) d.wps 1).addr | 0x3C => (Sparse.get (fun _ => {}) d.wps 1).ctl
    | _ => 0

/-- Change the debug part of a barge. -/
def Barge.modDbg (k : Barge) (f : BargeDbg → BargeDbg) : Barge := { k with dbg := f k.dbg }

/-- A write of one word of them; RO fields and offsets not listed are left. -/
def Barge.dregWrite (k : Barge) (o : Nat) (v : Word) : Barge :=
  if 0x200 ≤ o ∧ o < 0x300 then
    let n := (o - 0x200) / 16
    k.setV n (Bits.put (k.vreg n) (o % 16 * 8) 32 v.toNat)
  else if 0x100 ≤ o ∧ o < 0x180 then k.setS ((o - 0x100) / 4) v
  else if 0x20 ≤ o ∧ o < 0x30 then
    k.modDbg (fun d => { d with bps := Sparse.set (fun _ => 0) d.bps ((o - 0x20) / 4) (v &&& 0xFFFFFFFD) })
  else if 0x30 ≤ o ∧ o < 0x40 then
    k.modDbg (fun d => { d with wps := Sparse.modify (fun _ => {}) d.wps ((o - 0x30) / 8) (fun w =>
      if o % 8 = 0 then { w with addr := v.toNat } else { w with ctl := v &&& 0x3FFFF }) })
  else match o with
    | 0x04 => { k with pc := v.toNat / 4 * 4 }
    | 0x18 => k.modDbg (fun d => { d with xtrig := Bits.put d.xtrig 0 32 v.toNat })
    | 0x1C => k.modDbg (fun d => { d with xtrig := Bits.put d.xtrig 32 32 v.toNat })
    | _ => k

/-- The word is accessible only while the barge is HALTED. -/
def Ndl.haltedOnly (o : Nat) (write : Bool) : Bool :=
  (decide (0x100 ≤ o) && decide (o < 0x300)) || (write && o == 0x04)

/-! ### Checks -/

/-- The FAULT reason that one word of a request meets, if one (Table 19-4): 1 RUNNING, 2 STRAIT, 4 range, size or read-only, 6
access failed. Log 142 (DEDUCED, unsafe). -/
def Dev.ndlCheck (s : Dev) (x : NdlSpace) (a : Nat) (write : Bool) : Option Nat :=
  match x with
  | .barge e =>
    let halted := (s.barge e).dbg.halted
    (match Mem.check a 4 write with
     | some _ => some 4
     | none => match Mem.classOf a with
       | some .iram => if halted then none else some 1
       | some .dram => if halted then none else some 1
       | some .bg => if halted || !write then none else some 1
       | some .island => if s.straitUp (e / 8) then none else some 2
       | _ => none)
  | .bar0 =>
    if 2 ^ 24 ≤ a ∨ a % 4 ≠ 0 then some 4
    else (match Reg.region a with
      | some g => if s.windowOpen g a then none else if s.straitUp g && !s.auto g then some 6 else some 2
      | none => none)
  | .regs =>
    if 0x10000 ≤ a ∨ a % 4 ≠ 0 then some 4
    else if Ndl.haltedOnly (a % 0x400) write && !(s.barge (a / 0x400)).dbg.halted then some 1 else none
  | .flash => if 2 ^ 24 ≤ a ∨ a % 4 ≠ 0 ∨ write then some 4 else none

/-- The first reason among the words of a request: a request is carried out whole or not at all. -/
def Dev.ndlChecks (s : Dev) (x : NdlSpace) (a n : Nat) (write : Bool) : Option Nat :=
  (List.range n).findSome? (fun i => s.ndlCheck x (a + 4 * i) write)

/-! ### Reads -/

/-- One word without side effects. -/
def Dev.ndlPeek (s : Dev) (x : NdlSpace) (a : Nat) : Word :=
  match x with
  | .barge e => (match Mem.classOf a with
    | some .chip => if Mem.pastChip a then 0 else s.peekWord (Mem.chipOff a)
    | some .island => s.peekWord (islandOff e a)
    | some .bg => Reg.half (s.bgRead e (Mem.bgOff a / 8 * 8) 8).1 a
    | _ => Reg.w (s.memLoad e a 4))
  | .bar0 => s.peekWord a
  | .regs => s.dregPeek (a / 0x400) (a % 0x400)
  | .flash => Reg.w (s.flashRead a 4)

/-- One 32-bit read in the address map of barge `e`, with its side effects. -/
def Dev.ndlReadMap (s : Dev) (e a : Nat) : Word × Dev :=
  match Mem.classOf a with
  | some .chip =>
    let r := s.readWords (Mem.chipOff a) 4
    if Mem.pastChip a then (0, s) else (r.1.headD 0, r.2)
  | some .island =>
    let r := s.readWords (islandOff e a) 4
    (r.1.headD 0, r.2)
  | some .bg =>
    let r := s.bgRead e (Mem.bgOff a) 4
    (Reg.w r.1, r.2)
  | _ => (s.ndlPeek (.barge e) a, s)

/-- One 32-bit read with its side effects. -/
def Dev.ndlRead (s : Dev) (x : NdlSpace) (a : Nat) : Word × Dev :=
  match x with
  | .barge e => s.ndlReadMap e a
  | .bar0 =>
    let r := s.barRead a 4
    (r.1.headD 0, r.2)
  | _ => (s.ndlPeek x a, s)

/-- Words read in ascending order. -/
def Dev.ndlReads (s : Dev) (x : NdlSpace) : Nat → Nat → List Word × Dev
  | _, 0 => ([], s)
  | a, n + 1 =>
    let (w, s) := s.ndlRead x a
    let (l, s) := s.ndlReads x (a + 4) n
    (w :: l, s)

/-- R431: COUNT + 1 words at ADDR. -/
def execMemRead (space : Byte) (addr : Word) (count : Byte) (s : State) : Outcome := s.on fun s =>
  s.ndlReq false (fun s => match Ndl.space space with
    | none => s.ndl Ndl.badOp []
    | some x => match s.ndlChecks x addr.toNat (count.toNat + 1) false with
      | some r => s.ndlFault r
      | none =>
        let (l, s) := s.ndlReads x addr.toNat (count.toNat + 1)
        s.ndl Ndl.ok l)

/-- MEM_PEEK: no RC field and no record changes. The draw is for BG_TB_SNAP, whose age is free. -/
def execMemPeek (space : Byte) (addr : Word) (count : Byte) (s : State) : Outcome := s.on fun s =>
  s.ndlReq false (fun s => match Ndl.space space with
    | none => s.ndl Ndl.badOp []
    | some x => match s.ndlChecks x addr.toNat (count.toNat + 1) false with
      | some r => s.ndlFault r
      | none => s.drawNat.2.ndl Ndl.ok ((List.range (count.toNat + 1)).map (fun i => s.ndlPeek x (addr.toNat + 4 * i))))

/-! ### Writes -/

/-- R433: straight into IRAM; patch entries that overlap leave the queue. -/
def Dev.debugIram (s : Dev) (e a : Nat) (v : Word) : Dev :=
  (s.memStore e a 4 v.toNat).modBarge e (fun k => { k with patches := k.patches.filter (fun p => !p.overlaps a 4) })

/-- One 32-bit write. -/
def Dev.ndlWrite (s : Dev) (x : NdlSpace) (a : Nat) (v : Word) : Dev :=
  match x with
  | .barge e => (match Mem.classOf a with
    | some .iram => s.debugIram e a v
    | some .chip => if Mem.pastChip a then s else s.writeWords (Mem.chipOff a) [v]
    | some .island => s.writeWords (islandOff e a) [v]
    | some .bg => s.bgWrite e (Mem.bgOff a) 4 v.toNat
    | _ => s.memStore e a 4 v.toNat)
  | .bar0 => s.barWrite a 4 (BitVec.ofNat 64 v.toNat)
  | .regs => s.modBarge (a / 0x400) (fun k => k.dregWrite (a % 0x400) v)
  | .flash => s

/-- Words written in ascending order; two words of one 64-bit barge-private register are written by one access. -/
def Dev.ndlWrites (s : Dev) (x : NdlSpace) (a : Nat) : List Word → Dev
  | [] => s
  | [v] => s.ndlWrite x a v
  | v :: w :: l =>
    match x with
    | .barge e =>
      if Mem.classOf a = some .bg ∧ a % 8 = 0 then
        (s.bgWrite e (Mem.bgOff a) 8 (v.toNat + w.toNat * 2 ^ 32)).ndlWrites x (a + 8) l
      else (s.ndlWrite x a v).ndlWrites x (a + 4) (w :: l)
    | _ => (s.ndlWrite x a v).ndlWrites x (a + 4) (w :: l)

def execMemWrite (space : Byte) (addr : Word) (words : List Word) (s : State) : Outcome := s.on fun s =>
  s.ndlReq false (fun s => match Ndl.space space with
    | none => s.ndl Ndl.badOp []
    | some x => match s.ndlChecks x addr.toNat words.length true with
      | some r => s.ndlFault r
      | none => (s.ndlWrites x addr.toNat words).ndl Ndl.ok [])

/-! ### Resets and flash -/

def execBargeReset (mask : DWord) (s : State) : Outcome := s.on fun s =>
  s.ndlReq false (fun s => (s.bargeResets mask).ndl Ndl.ok [])

/-- R418: answered, then reset with LAST_RESET = 3. Another word is a FAULT. Log 145 (DEDUCED, unsafe). -/
def execChipReset (key : Word) (s : State) : Outcome := s.on fun s =>
  s.ndlReq false (fun s => if key = 0x0000C4A5 then (s.ndl Ndl.ok []).chipRestart 3 else s.ndlFault 4)

/-- The FAULT reason of a flash operation on `n` bytes: range, or the calibration and configuration area (R432). -/
def Ndl.flashFault (a n unit : Nat) : Option Nat :=
  if 2 ^ 24 < a + n ∨ a % unit ≠ 0 then some 4 else if 0xE00000 < a + n then some 3 else none

def execFlashErase (space : Byte) (addr : Word) (s : State) : Outcome := s.on fun s =>
  s.ndlReq false (fun s =>
    if space ≠ 0x42 then s.ndl Ndl.badOp []
    else match Ndl.flashFault addr.toNat 0x1000 0x1000 with
      | some r => s.ndlFault r
      | none => (s.flashErase addr.toNat 0x1000).ndl Ndl.ok [])

/-- FLASH_PROG writes erased space only. -/
def execFlashProg (space : Byte) (addr : Word) (words : List Word) (s : State) : Outcome := s.on fun s =>
  s.ndlReq false (fun s =>
    let n := 4 * words.length
    if space ≠ 0x42 then s.ndl Ndl.badOp []
    else match Ndl.flashFault addr.toNat n 4 with
      | some r => s.ndlFault r
      | none =>
        if (s.flashBytes addr.toNat n).all (fun b => b == 0xFF) then
          (s.flashWrite addr.toNat (Bytes.ofWords words)).ndl Ndl.ok []
        else s.ndlFault 5)

end Sys2Proof.Machine
end

