-- ==== Sys2Proof/Machine/Dispatch.lean ====
section
/-! DEFINITION. One arm per command: a direct call of its meaning. -/

namespace Sys2Proof.Machine

def exec (i : Instr) (s : State) : Host.Outcome State Fault Refusal :=
  match i with
  | .straitWordReceive g e q => Sys2Proof.Machine.execStraitWordReceive g e q s
  | .idleWordSend g e => Sys2Proof.Machine.execIdleWordSend g e s
  | .straitLossTimeout g e => Sys2Proof.Machine.execStraitLossTimeout g e s
  | .centralResetIndication g => Sys2Proof.Machine.execCentralResetIndication g s
  | .autonomyTimerExpiry g => Sys2Proof.Machine.execAutonomyTimerExpiry g s
  | .stopRankStep g => Sys2Proof.Machine.execStopRankStep g s
  | .straitRestore g => Sys2Proof.Machine.execStraitRestore g s
  | .rejoinRequest g => Sys2Proof.Machine.execRejoinRequest g s
  | .regionRejoin g => Sys2Proof.Machine.execRegionRejoin g s
  | .islandClockFail g => Sys2Proof.Machine.execIslandClockFail g s
  | .sampleMirrorWrite b => Sys2Proof.Machine.execSampleMirrorWrite b s
  | .islandLoadReply e replied => Sys2Proof.Machine.execIslandLoadReply e replied s
  | .strongPulldownEnd c => Sys2Proof.Machine.execStrongPulldownEnd c s
  | .gateHeadroom c also => Sys2Proof.Machine.execGateHeadroom c also s
  | .cpFail b cell => Sys2Proof.Machine.execCpFail b cell s
  | .passiveHoldRelease c => Sys2Proof.Machine.execPassiveHoldRelease c s
  | .vinUvlo b also => Sys2Proof.Machine.execVinUvlo b also s
  | .gateDriveEnable b => Sys2Proof.Machine.execGateDriveEnable b s
  | .senseOpen c also => Sys2Proof.Machine.execSenseOpen c also s
  | .probePulseStart c outMv => Sys2Proof.Machine.execProbePulseStart c outMv s
  | .clamped c tcUs => Sys2Proof.Machine.execClamped c tcUs s
  | .probePulseEnd c vh vt => Sys2Proof.Machine.execProbePulseEnd c vh vt s
  | .debounceExpiry c => Sys2Proof.Machine.execDebounceExpiry c s
  | .precheckWaitExpiry c => Sys2Proof.Machine.execPrecheckWaitExpiry c s
  | .grantTimeout c => Sys2Proof.Machine.execGrantTimeout c s
  | .removal c => Sys2Proof.Machine.execRemoval c s
  | .soaTick b headroom => Sys2Proof.Machine.execSoaTick b headroom s
  | .limitEntry c => Sys2Proof.Machine.execLimitEntry c s
  | .limitRelease c => Sys2Proof.Machine.execLimitRelease c s
  | .powerGood c => Sys2Proof.Machine.execPowerGood c s
  | .inrushTimeout c also => Sys2Proof.Machine.execInrushTimeout c also s
  | .limitTimeout c also => Sys2Proof.Machine.execLimitTimeout c also s
  | .outOv c also => Sys2Proof.Machine.execOutOv c also s
  | .outUv c also => Sys2Proof.Machine.execOutUv c also s
  | .shortCircuit c edge also => Sys2Proof.Machine.execShortCircuit c edge also s
  | .ruleEvaluation c => Sys2Proof.Machine.execRuleEvaluation c s
  | .retryRelease c => Sys2Proof.Machine.execRetryRelease c s
  | .classWindowExpiry c m => Sys2Proof.Machine.execClassWindowExpiry c m s
  | .retryCountClear c => Sys2Proof.Machine.execRetryCountClear c s
  | .tripHoldExpiry c => Sys2Proof.Machine.execTripHoldExpiry c s
  | .tripForceWrite g v => Sys2Proof.Machine.execTripForceWrite g v s
  | .extTripLine g n low => Sys2Proof.Machine.execExtTripLine g n low s
  | .tripMessageRepeat g => Sys2Proof.Machine.execTripMessageRepeat g s
  | .tripMessageReceive link m => Sys2Proof.Machine.execTripMessageReceive link m s
  | .mirrorStale pos r => Sys2Proof.Machine.execMirrorStale pos r s
  | .forwardMemoryExpiry pos q => Sys2Proof.Machine.execForwardMemoryExpiry pos q s
  | .linkTripClear g v => Sys2Proof.Machine.execLinkTripClear g v s
  | .grantRequest c => Sys2Proof.Machine.execGrantRequest c s
  | .grantWithdraw c => Sys2Proof.Machine.execGrantWithdraw c s
  | .grantRound => Sys2Proof.Machine.execGrantRound s
  | .grantReceive c => Sys2Proof.Machine.execGrantReceive c s
  | .reservationRelease c => Sys2Proof.Machine.execReservationRelease c s
  | .comparatorCrossing x l => Sys2Proof.Machine.execComparatorCrossing x l s
  | .comparatorFilterSample x => Sys2Proof.Machine.execComparatorFilterSample x s
  | .evWindowHoldoffExpiry x => Sys2Proof.Machine.execEvWindowHoldoffExpiry x s
  | .modeSettled x => Sys2Proof.Machine.execModeSettled x s
  | .comparatorWake x => Sys2Proof.Machine.execComparatorWake x s
  | .edgeDataRead b => Sys2Proof.Machine.execEdgeDataRead b s
  | .comparatorSelftestEnd x pass => Sys2Proof.Machine.execComparatorSelftestEnd x pass s
  | .decimationBoundary b x => Sys2Proof.Machine.execDecimationBoundary b x s
  | .windowEnd x iOnes vOnes clocks => Sys2Proof.Machine.execWindowEnd x iOnes vOnes clocks s
  | .laneRestart c => Sys2Proof.Machine.execLaneRestart c s
  | .laneStop c clocks => Sys2Proof.Machine.execLaneStop c clocks s
  | .auxConversionEnd g x vin => Sys2Proof.Machine.execAuxConversionEnd g x vin s
  | .auxUrgentWrite g v => Sys2Proof.Machine.execAuxUrgentWrite g v s
  | .auxMaskWrite g v => Sys2Proof.Machine.execAuxMaskWrite g v s
  | .trendLogAppend c => Sys2Proof.Machine.execTrendLogAppend c s
  | .calLoad g => Sys2Proof.Machine.execCalLoad g s
  | .tbTimeRead => Sys2Proof.Machine.execTbTimeRead s
  | .tbRateWrite v => Sys2Proof.Machine.execTbRateWrite v s
  | .tbAdj v => Sys2Proof.Machine.execTbAdj v s
  | .tbSourceSelect v => Sys2Proof.Machine.execTbSourceSelect v s
  | .disciplineMeasurement src offset => Sys2Proof.Machine.execDisciplineMeasurement src offset s
  | .tbHoldover => Sys2Proof.Machine.execTbHoldover s
  | .altSourceSwitch => Sys2Proof.Machine.execAltSourceSwitch s
  | .syncOutPps => Sys2Proof.Machine.execSyncOutPps s
  | .disciplineWord g err => Sys2Proof.Machine.execDisciplineWord g err s
  | .posFrame link f => Sys2Proof.Machine.execPosFrame link f s
  | .syncFrame link f => Sys2Proof.Machine.execSyncFrame link f s
  | .syncFrameSend => Sys2Proof.Machine.execSyncFrameSend s
  | .delayMeasurement link ns => Sys2Proof.Machine.execDelayMeasurement link ns s
  | .linkFrameCrcError link => Sys2Proof.Machine.execLinkFrameCrcError link s
  | .linkFaultExit link => Sys2Proof.Machine.execLinkFaultExit link s
  | .lockFrameReceive link e => Sys2Proof.Machine.execLockFrameReceive link e s
  | .lockFetch n e => Sys2Proof.Machine.execLockFetch n e s
  | .lockInsert t => Sys2Proof.Machine.execLockInsert t s
  | .lockFire t => Sys2Proof.Machine.execLockFire t s
  | .tripAssertEnd g tag => Sys2Proof.Machine.execTripAssertEnd g tag s
  | .syncPulseEnd => Sys2Proof.Machine.execSyncPulseEnd s
  | .releaseAnnounce e slot time => Sys2Proof.Machine.execReleaseAnnounce e slot time s
  | .addR e d a b => Sys2Proof.Machine.execAddR e d a b s
  | .subR e d a b => Sys2Proof.Machine.execSubR e d a b s
  | .andR e d a b => Sys2Proof.Machine.execAndR e d a b s
  | .orR e d a b => Sys2Proof.Machine.execOrR e d a b s
  | .xorR e d a b => Sys2Proof.Machine.execXorR e d a b s
  | .shl e d a b => Sys2Proof.Machine.execShl e d a b s
  | .shr e d a b => Sys2Proof.Machine.execShr e d a b s
  | .sra e d a b => Sys2Proof.Machine.execSra e d a b s
  | .lt e d a b => Sys2Proof.Machine.execLt e d a b s
  | .ltu e d a b => Sys2Proof.Machine.execLtu e d a b s
  | .minS e d a b => Sys2Proof.Machine.execMinS e d a b s
  | .maxS e d a b => Sys2Proof.Machine.execMaxS e d a b s
  | .minu e d a b => Sys2Proof.Machine.execMinu e d a b s
  | .maxu e d a b => Sys2Proof.Machine.execMaxu e d a b s
  | .clz e d a => Sys2Proof.Machine.execClz e d a s
  | .adds e d a b => Sys2Proof.Machine.execAdds e d a b s
  | .subs e d a b => Sys2Proof.Machine.execSubs e d a b s
  | .addI e d a imm => Sys2Proof.Machine.execAddI e d a imm s
  | .andI e d a imm => Sys2Proof.Machine.execAndI e d a imm s
  | .orI e d a imm => Sys2Proof.Machine.execOrI e d a imm s
  | .xorI e d a imm => Sys2Proof.Machine.execXorI e d a imm s
  | .ltI e d a imm => Sys2Proof.Machine.execLtI e d a imm s
  | .ltuI e d a imm => Sys2Proof.Machine.execLtuI e d a imm s
  | .shlI e d a sh => Sys2Proof.Machine.execShlI e d a sh s
  | .shrI e d a sh => Sys2Proof.Machine.execShrI e d a sh s
  | .sraI e d a sh => Sys2Proof.Machine.execSraI e d a sh s
  | .movh e d imm => Sys2Proof.Machine.execMovh e d imm s
  | .adrh e d imm => Sys2Proof.Machine.execAdrh e d imm s
  | .mulR e d a b => Sys2Proof.Machine.execMulR e d a b s
  | .mulhS e d a b => Sys2Proof.Machine.execMulhS e d a b s
  | .mulhU e d a b => Sys2Proof.Machine.execMulhU e d a b s
  | .divS e d a b => Sys2Proof.Machine.execDivS e d a b s
  | .divU e d a b => Sys2Proof.Machine.execDivU e d a b s
  | .remS e d a b => Sys2Proof.Machine.execRemS e d a b s
  | .remU e d a b => Sys2Proof.Machine.execRemU e d a b s
  | .ldB e d base imm => Sys2Proof.Machine.execLdB e d base imm s
  | .ldBu e d base imm => Sys2Proof.Machine.execLdBu e d base imm s
  | .ldH e d base imm => Sys2Proof.Machine.execLdH e d base imm s
  | .ldHu e d base imm => Sys2Proof.Machine.execLdHu e d base imm s
  | .ldW e d base imm => Sys2Proof.Machine.execLdW e d base imm s
  | .ldD e d base imm => Sys2Proof.Machine.execLdD e d base imm s
  | .vldQ e v base imm => Sys2Proof.Machine.execVldQ e v base imm s
  | .stB e src base imm => Sys2Proof.Machine.execStB e src base imm s
  | .stH e src base imm => Sys2Proof.Machine.execStH e src base imm s
  | .stW e src base imm => Sys2Proof.Machine.execStW e src base imm s
  | .stD e src base imm => Sys2Proof.Machine.execStD e src base imm s
  | .vstQ e v base imm => Sys2Proof.Machine.execVstQ e v base imm s
  | .loadResult e n ecc => Sys2Proof.Machine.execLoadResult e n ecc s
  | .storeDrain e => Sys2Proof.Machine.execStoreDrain e s
  | .fetchLineFill e => Sys2Proof.Machine.execFetchLineFill e s
  | .prefetchComplete e => Sys2Proof.Machine.execPrefetchComplete e s
  | .dataLineFill e => Sys2Proof.Machine.execDataLineFill e s
  | .bEq e a b imm => Sys2Proof.Machine.execBEq e a b imm s
  | .bNe e a b imm => Sys2Proof.Machine.execBNe e a b imm s
  | .bLt e a b imm => Sys2Proof.Machine.execBLt e a b imm s
  | .bGe e a b imm => Sys2Proof.Machine.execBGe e a b imm s
  | .bLtu e a b imm => Sys2Proof.Machine.execBLtu e a b imm s
  | .bGeu e a b imm => Sys2Proof.Machine.execBGeu e a b imm s
  | .jmp e d imm => Sys2Proof.Machine.execJmp e d imm s
  | .jmpr e d base imm => Sys2Proof.Machine.execJmpr e d base imm s
  | .drain e => Sys2Proof.Machine.execDrain e s
  | .syncI e => Sys2Proof.Machine.execSyncI e s
  | .waitI e => Sys2Proof.Machine.execWaitI e s
  | .retX e => Sys2Proof.Machine.execRetX e s
  | .trap e => Sys2Proof.Machine.execTrap e s
  | .brk e => Sys2Proof.Machine.execBrk e s
  | .di e => Sys2Proof.Machine.execDi e s
  | .ei e => Sys2Proof.Machine.execEi e s
  | .illegal e => Sys2Proof.Machine.execIllegal e s
  | .vadd e t vd va vb => Sys2Proof.Machine.execVadd e t vd va vb s
  | .vsub e t vd va vb => Sys2Proof.Machine.execVsub e t vd va vb s
  | .vadds e t vd va vb => Sys2Proof.Machine.execVadds e t vd va vb s
  | .vsubs e t vd va vb => Sys2Proof.Machine.execVsubs e t vd va vb s
  | .vmin e t vd va vb => Sys2Proof.Machine.execVmin e t vd va vb s
  | .vmax e t vd va vb => Sys2Proof.Machine.execVmax e t vd va vb s
  | .vabs e t vd va => Sys2Proof.Machine.execVabs e t vd va s
  | .vand e vd va vb => Sys2Proof.Machine.execVand e vd va vb s
  | .vor e vd va vb => Sys2Proof.Machine.execVor e vd va vb s
  | .vxor e vd va vb => Sys2Proof.Machine.execVxor e vd va vb s
  | .vmov e vd va => Sys2Proof.Machine.execVmov e vd va s
  | .vsll e t vd va r => Sys2Proof.Machine.execVsll e t vd va r s
  | .vsrl e t vd va r => Sys2Proof.Machine.execVsrl e t vd va r s
  | .vsra e t vd va r => Sys2Proof.Machine.execVsra e t vd va r s
  | .vcmpgt e t r va vb => Sys2Proof.Machine.execVcmpgt e t r va vb s
  | .vcmpeq e t r va vb => Sys2Proof.Machine.execVcmpeq e t r va vb s
  | .vsel e t vd va vb r => Sys2Proof.Machine.execVsel e t vd va vb r s
  | .vmulH8 e vd va vb => Sys2Proof.Machine.execVmulH8 e vd va vb s
  | .vmulhH8 e vd va vb => Sys2Proof.Machine.execVmulhH8 e vd va vb s
  | .vmacH8 e vd va vb => Sys2Proof.Machine.execVmacH8 e vd va vb s
  | .vmacsH8 e vd va r => Sys2Proof.Machine.execVmacsH8 e vd va r s
  | .vmulW4 e vd va vb => Sys2Proof.Machine.execVmulW4 e vd va vb s
  | .vpackH8 e vd va n => Sys2Proof.Machine.execVpackH8 e vd va n s
  | .vwidenH8 e vd va => Sys2Proof.Machine.execVwidenH8 e vd va s
  | .vextH e r va lane => Sys2Proof.Machine.execVextH e r va lane s
  | .vextW e r va lane => Sys2Proof.Machine.execVextW e r va lane s
  | .vinsH e vd lane r => Sys2Proof.Machine.execVinsH e vd lane r s
  | .vinsW e vd lane r => Sys2Proof.Machine.execVinsW e vd lane r s
  | .vbcastH e vd r => Sys2Proof.Machine.execVbcastH e vd r s
  | .vbcastW e vd r => Sys2Proof.Machine.execVbcastW e vd r s
  | .vredaddH8 e r va => Sys2Proof.Machine.execVredaddH8 e r va s
  | .interruptEntry e vecEcc => Sys2Proof.Machine.execInterruptEntry e vecEcc s
  | .timerCompare e n => Sys2Proof.Machine.execTimerCompare e n s
  | .irqSet e v => Sys2Proof.Machine.execIrqSet e v s
  | .irqClr e v => Sys2Proof.Machine.execIrqClr e v s
  | .bgLowWordRead e off => Sys2Proof.Machine.execBgLowWordRead e off s
  | .tqPush e n hi => Sys2Proof.Machine.execTqPush e n hi s
  | .poke e m => Sys2Proof.Machine.execPoke e m s
  | .dispatch e => Sys2Proof.Machine.execDispatch e s
  | .looseOverrun e => Sys2Proof.Machine.execLooseOverrun e s
  | .mooredOverrun e => Sys2Proof.Machine.execMooredOverrun e s
  | .doorbell ring v word => Sys2Proof.Machine.execDoorbell ring v word s
  | .contextFetch ring valid => Sys2Proof.Machine.execContextFetch ring valid s
  | .ctxFlush => Sys2Proof.Machine.execCtxFlush s
  | .hpEnable => Sys2Proof.Machine.execHpEnable s
  | .descriptorFetch opcode d => Sys2Proof.Machine.execDescriptorFetch opcode d s
  | .hostReadError ring k => Sys2Proof.Machine.execHostReadError ring k s
  | .commandAdmit ring => Sys2Proof.Machine.execCommandAdmit ring s
  | .backpressureWithdraw ring cmdId => Sys2Proof.Machine.execBackpressureWithdraw ring cmdId s
  | .completionWrite ring => Sys2Proof.Machine.execCompletionWrite ring s
  | .eventWrite => Sys2Proof.Machine.execEventWrite s
  | .telemetryWrite => Sys2Proof.Machine.execTelemetryWrite s
  | .moderationCheck ring us => Sys2Proof.Machine.execModerationCheck ring us s
  | .msixUnmask v => Sys2Proof.Machine.execMsixUnmask v s
  | .heartbeatKick => Sys2Proof.Machine.execHeartbeatKick s
  | .hostLoss => Sys2Proof.Machine.execHostLoss s
  | .linkDown => Sys2Proof.Machine.execLinkDown s
  | .functionLevelReset => Sys2Proof.Machine.execFunctionLevelReset s
  | .perstN => Sys2Proof.Machine.execPerstN s
  | .ringCreate d ctx => Sys2Proof.Machine.execRingCreate d ctx s
  | .ringModify d => Sys2Proof.Machine.execRingModify d s
  | .ringDestroy d => Sys2Proof.Machine.execRingDestroy d s
  | .ringQuery d bufOk => Sys2Proof.Machine.execRingQuery d bufOk s
  | .devInfo d => Sys2Proof.Machine.execDevInfo d s
  | .chEnable d => Sys2Proof.Machine.execChEnable d s
  | .chDisable d => Sys2Proof.Machine.execChDisable d s
  | .chOn d => Sys2Proof.Machine.execChOn d s
  | .chOff d => Sys2Proof.Machine.execChOff d s
  | .chReset d => Sys2Proof.Machine.execChReset d s
  | .chStatus d bufOk => Sys2Proof.Machine.execChStatus d bufOk s
  | .profileWrite d image => Sys2Proof.Machine.execProfileWrite d image s
  | .profilePatch d => Sys2Proof.Machine.execProfilePatch d s
  | .profileRead d bufOk => Sys2Proof.Machine.execProfileRead d bufOk s
  | .trendRead d bufOk => Sys2Proof.Machine.execTrendRead d bufOk s
  | .bankSequence d list => Sys2Proof.Machine.execBankSequence d list s
  | .survey d => Sys2Proof.Machine.execSurvey d s
  | .calRun d => Sys2Proof.Machine.execCalRun d s
  | .calStore d => Sys2Proof.Machine.execCalStore d s
  | .lockCancel d => Sys2Proof.Machine.execLockCancel d s
  | .taskInstall d => Sys2Proof.Machine.execTaskInstall d s
  | .taskRemove d => Sys2Proof.Machine.execTaskRemove d s
  | .flashUpdate d => Sys2Proof.Machine.execFlashUpdate d s
  | .opSuspend d => Sys2Proof.Machine.execOpSuspend d s
  | .opResume d => Sys2Proof.Machine.execOpResume d s
  | .opCancel d => Sys2Proof.Machine.execOpCancel d s
  | .opQuery d => Sys2Proof.Machine.execOpQuery d s
  | .opStep n x => Sys2Proof.Machine.execOpStep n x s
  | .basinEnable => Sys2Proof.Machine.execBasinEnable s
  | .segTableLoad table => Sys2Proof.Machine.execSegTableLoad table s
  | .basinDisable => Sys2Proof.Machine.execBasinDisable s
  | .basinFrame => Sys2Proof.Machine.execBasinFrame s
  | .basinEntryWrite => Sys2Proof.Machine.execBasinEntryWrite s
  | .gapRecord => Sys2Proof.Machine.execGapRecord s
  | .basinWriteback => Sys2Proof.Machine.execBasinWriteback s
  | .basinFrozen => Sys2Proof.Machine.execBasinFrozen s
  | .basinFreeze d => Sys2Proof.Machine.execBasinFreeze d s
  | .basinRelease d => Sys2Proof.Machine.execBasinRelease d s
  | .basinMark d => Sys2Proof.Machine.execBasinMark d s
  | .captureExport d => Sys2Proof.Machine.execCaptureExport d s
  | .periodEdge k us => Sys2Proof.Machine.execPeriodEdge k us s
  | .hsRise k => Sys2Proof.Machine.execHsRise k s
  | .onIntervalEnd k => Sys2Proof.Machine.execOnIntervalEnd k s
  | .lsRise k => Sys2Proof.Machine.execLsRise k s
  | .peakCrossing k early => Sys2Proof.Machine.execPeakCrossing k early s
  | .valleyCrossing k us early => Sys2Proof.Machine.execValleyCrossing k us early s
  | .perMaxEdge k us => Sys2Proof.Machine.execPerMaxEdge k us s
  | .sliceFaultInput k => Sys2Proof.Machine.execSliceFaultInput k s
  | .fbSample k v => Sys2Proof.Machine.execFbSample k v s
  | .sliceSampleRelease k late => Sys2Proof.Machine.execSliceSampleRelease k late s
  | .controlWord k v => Sys2Proof.Machine.execControlWord k v s
  | .softStart k => Sys2Proof.Machine.execSoftStart k s
  | .softStop k => Sys2Proof.Machine.execSoftStop k s
  | .kill k => Sys2Proof.Machine.execKill k s
  | .controlWordWatchdog k => Sys2Proof.Machine.execControlWordWatchdog k s
  | .sliceLoopSet d => Sys2Proof.Machine.execSliceLoopSet d s
  | .sliceStart d => Sys2Proof.Machine.execSliceStart d s
  | .sliceStop d => Sys2Proof.Machine.execSliceStop d s
  | .sliceStatus d => Sys2Proof.Machine.execSliceStatus d s
  | .chargeEnable => Sys2Proof.Machine.execChargeEnable s
  | .chargerPhaseChange x => Sys2Proof.Machine.execChargerPhaseChange x s
  | .chargeTermination => Sys2Proof.Machine.execChargeTermination s
  | .topoffEnd => Sys2Proof.Machine.execTopoffEnd s
  | .rechargeStart x => Sys2Proof.Machine.execRechargeStart x s
  | .safetyTimerStep inReg thReg below => Sys2Proof.Machine.execSafetyTimerStep inReg thReg below s
  | .operatingPointPause => Sys2Proof.Machine.execOperatingPointPause s
  | .pauseEnd voc => Sys2Proof.Machine.execPauseEnd voc s
  | .surplusStart => Sys2Proof.Machine.execSurplusStart s
  | .surplusEnd => Sys2Proof.Machine.execSurplusEnd s
  | .ntcZoneChange ratio => Sys2Proof.Machine.execNtcZoneChange ratio s
  | .packOv live => Sys2Proof.Machine.execPackOv live s
  | .chgOc live => Sys2Proof.Machine.execChgOc live s
  | .handover trig busMv => Sys2Proof.Machine.execHandover trig busMv s
  | .handoverComplete => Sys2Proof.Machine.execHandoverComplete s
  | .inPathFail live => Sys2Proof.Machine.execInPathFail live s
  | .dioFail live => Sys2Proof.Machine.execDioFail live s
  | .sourcePresent => Sys2Proof.Machine.execSourcePresent s
  | .bounce => Sys2Proof.Machine.execBounce s
  | .handback => Sys2Proof.Machine.execHandback s
  | .idealDiodeOff => Sys2Proof.Machine.execIdealDiodeOff s
  | .handbackComplete => Sys2Proof.Machine.execHandbackComplete s
  | .stopSequence => Sys2Proof.Machine.execStopSequence s
  | .packCutoff => Sys2Proof.Machine.execPackCutoff s
  | .depletedDisconnect => Sys2Proof.Machine.execDepletedDisconnect s
  | .shipEntry => Sys2Proof.Machine.execShipEntry s
  | .shipWake => Sys2Proof.Machine.execShipWake s
  | .sourceWake => Sys2Proof.Machine.execSourceWake s
  | .rvWdKick => Sys2Proof.Machine.execRvWdKick s
  | .reserveWdExpiry => Sys2Proof.Machine.execReserveWdExpiry s
  | .rvSafeWrite v => Sys2Proof.Machine.execRvSafeWrite v s
  | .rvFaultRead => Sys2Proof.Machine.execRvFaultRead s
  | .rsvStatus d bufOk => Sys2Proof.Machine.execRsvStatus d bufOk s
  | .rsvCharge d => Sys2Proof.Machine.execRsvCharge d s
  | .rsvKick d => Sys2Proof.Machine.execRsvKick d s
  | .rsvShip d => Sys2Proof.Machine.execRsvShip d s
  | .rsvStopLoad d table => Sys2Proof.Machine.execRsvStopLoad d table s
  | .towpathEnable t sda => Sys2Proof.Machine.execTowpathEnable t sda s
  | .recoveryEnd t ok => Sys2Proof.Machine.execRecoveryEnd t ok s
  | .slotStart t mask => Sys2Proof.Machine.execSlotStart t mask s
  | .towpathAbort t => Sys2Proof.Machine.execTowpathAbort t s
  | .clrStuck t sda => Sys2Proof.Machine.execClrStuck t sda s
  | .tgtPop t => Sys2Proof.Machine.execTgtPop t s
  | .transactionStart t => Sys2Proof.Machine.execTransactionStart t s
  | .transactionEnd t x => Sys2Proof.Machine.execTransactionEnd t x s
  | .arbLost t byte bit => Sys2Proof.Machine.execArbLost t byte bit s
  | .sclLowTimeout t rx sda => Sys2Proof.Machine.execSclLowTimeout t rx sda s
  | .sdaLowTimeout t => Sys2Proof.Machine.execSdaLowTimeout t s
  | .hostNotify t addr lo hi => Sys2Proof.Machine.execHostNotify t addr lo hi s
  | .targetWrite t cmd data pec => Sys2Proof.Machine.execTargetWrite t cmd data pec s
  | .notifyRead t => Sys2Proof.Machine.execNotifyRead t s
  | .towpathWake p => Sys2Proof.Machine.execTowpathWake p s
  | .wakeFail p => Sys2Proof.Machine.execWakeFail p s
  | .towpathPrepare d data => Sys2Proof.Machine.execTowpathPrepare d data s
  | .towpathXfer d data => Sys2Proof.Machine.execTowpathXfer d data s
  | .towpathSlotRead d bufOk => Sys2Proof.Machine.execTowpathSlotRead d bufOk s
  | .towpathNotifyRead d bufOk => Sys2Proof.Machine.execTowpathNotifyRead d bufOk s
  | .towpathTargetRead d bufOk => Sys2Proof.Machine.execTowpathTargetRead d bufOk s
  | .towpathRecover d r => Sys2Proof.Machine.execTowpathRecover d r s
  | .towpathScan d => Sys2Proof.Machine.execTowpathScan d s
  | .mgmtReply d data => Sys2Proof.Machine.execMgmtReply d data s
  | .mgmtMboxRead d bufOk => Sys2Proof.Machine.execMgmtMboxRead d bufOk s
  | .statusImageRefresh => Sys2Proof.Machine.execStatusImageRefresh s
  | .mgId => Sys2Proof.Machine.execMgId s
  | .mgSummary => Sys2Proof.Machine.execMgSummary s
  | .mgTemp => Sys2Proof.Machine.execMgTemp s
  | .mgReserve => Sys2Proof.Machine.execMgReserve s
  | .mgCellSel v pec => Sys2Proof.Machine.execMgCellSel v pec s
  | .mgCell => Sys2Proof.Machine.execMgCell s
  | .mgMboxWrite data pec => Sys2Proof.Machine.execMgMboxWrite data pec s
  | .mgMboxRead => Sys2Proof.Machine.execMgMboxRead s
  | .supervisorRead seq stale => Sys2Proof.Machine.execSupervisorRead seq stale s
  | .regionSafe seq mask stale => Sys2Proof.Machine.execRegionSafe seq mask stale s
  | .chipSafe seq stale => Sys2Proof.Machine.execChipSafe seq stale s
  | .supervisorClear seq stale => Sys2Proof.Machine.execSupervisorClear seq stale s
  | .supervisorLoss => Sys2Proof.Machine.execSupervisorLoss s
  | .faultEvent k src info inj => Sys2Proof.Machine.execFaultEvent k src info inj s
  | .faultClear k src => Sys2Proof.Machine.execFaultClear k src s
  | .ruleWindowExpiry k n => Sys2Proof.Machine.execRuleWindowExpiry k n s
  | .regionReport => Sys2Proof.Machine.execRegionReport s
  | .chipSafeRequest g => Sys2Proof.Machine.execChipSafeRequest g s
  | .faultInject k v => Sys2Proof.Machine.execFaultInject k v s
  | .latchedClear k mask => Sys2Proof.Machine.execLatchedClear k mask s
  | .historyRead k => Sys2Proof.Machine.execHistoryRead k s
  | .firstErrorClear k => Sys2Proof.Machine.execFirstErrorClear k s
  | .errClr => Sys2Proof.Machine.execErrClr s
  | .errNPulseEnd => Sys2Proof.Machine.execErrNPulseEnd s
  | .errNToggle => Sys2Proof.Machine.execErrNToggle s
  | .aliveMonitor => Sys2Proof.Machine.execAliveMonitor s
  | .fcStatus d bufOk => Sys2Proof.Machine.execFcStatus d bufOk s
  | .fcHistoryRead d bufOk => Sys2Proof.Machine.execFcHistoryRead d bufOk s
  | .fcClear d => Sys2Proof.Machine.execFcClear d s
  | .fcInject d => Sys2Proof.Machine.execFcInject d s
  | .fcCountRead d bufOk => Sys2Proof.Machine.execFcCountRead d bufOk s
  | .fcErrClear d => Sys2Proof.Machine.execFcErrClear d s
  | .supplyGood x => Sys2Proof.Machine.execSupplyGood x s
  | .supplyLoss x => Sys2Proof.Machine.execSupplyLoss x s
  | .powerOnResetRelease x => Sys2Proof.Machine.execPowerOnResetRelease x s
  | .rstN => Sys2Proof.Machine.execRstN s
  | .chipRstCtrl v => Sys2Proof.Machine.execChipRstCtrl v s
  | .islandBringup g x => Sys2Proof.Machine.execIslandBringup g x s
  | .straitTraining g => Sys2Proof.Machine.execStraitTraining g s
  | .straitTrainingTimeout g => Sys2Proof.Machine.execStraitTrainingTimeout g s
  | .boot trim => Sys2Proof.Machine.execBoot trim s
  | .chipBargeRst mask => Sys2Proof.Machine.execChipBargeRst mask s
  | .regionEnWrite g en => Sys2Proof.Machine.execRegionEnWrite g en s
  | .islandReset g => Sys2Proof.Machine.execIslandReset g s
  | .powerModeWrite mode => Sys2Proof.Machine.execPowerModeWrite mode s
  | .regionSleep g => Sys2Proof.Machine.execRegionSleep g s
  | .wake x => Sys2Proof.Machine.execWake x s
  | .tbclkLoss => Sys2Proof.Machine.execTbclkLoss s
  | .idRead => Sys2Proof.Machine.execIdRead s
  | .dbgStatus => Sys2Proof.Machine.execDbgStatus s
  | .chalRead => Sys2Proof.Machine.execChalRead s
  | .dbgAuth v => Sys2Proof.Machine.execDbgAuth v s
  | .memRead space addr count => Sys2Proof.Machine.execMemRead space addr count s
  | .memWrite space addr words => Sys2Proof.Machine.execMemWrite space addr words s
  | .memPeek space addr count => Sys2Proof.Machine.execMemPeek space addr count s
  | .dbgHalt mask => Sys2Proof.Machine.execDbgHalt mask s
  | .dbgResume mask => Sys2Proof.Machine.execDbgResume mask s
  | .dbgStep mask => Sys2Proof.Machine.execDbgStep mask s
  | .bargeReset mask => Sys2Proof.Machine.execBargeReset mask s
  | .chipReset key => Sys2Proof.Machine.execChipReset key s
  | .flashErase space addr => Sys2Proof.Machine.execFlashErase space addr s
  | .flashProg space addr words => Sys2Proof.Machine.execFlashProg space addr words s
  | .ndlLinkReset => Sys2Proof.Machine.execNdlLinkReset s
  | .bargeHalted e => Sys2Proof.Machine.execBargeHalted e s
  | .breakpoint e => Sys2Proof.Machine.execBreakpoint e s
  | .xtrigHalt e => Sys2Proof.Machine.execXtrigHalt e s
  | .dbgHaltReq mask => Sys2Proof.Machine.execDbgHaltReq mask s
  | .dbgResumeReq mask => Sys2Proof.Machine.execDbgResumeReq mask s
  | .hostGrant on => Sys2Proof.Machine.execHostGrant on s
  | .dbgDeny => Sys2Proof.Machine.execDbgDeny s
  | .dbgKey k0 k1 k2 k3 => Sys2Proof.Machine.execDbgKey k0 k1 k2 k3 s
  | .bypass => Sys2Proof.Machine.execBypass s
  | .idcode => Sys2Proof.Machine.execIdcode s
  | .samplePreload v => Sys2Proof.Machine.execSamplePreload v s
  | .extest v => Sys2Proof.Machine.execExtest v s
  | .clamp => Sys2Proof.Machine.execClamp s
  | .highz => Sys2Proof.Machine.execHighz s
  | .trstN => Sys2Proof.Machine.execTrstN s
  | .lvOn n => Sys2Proof.Machine.execLvOn n s
  | .lvOff n => Sys2Proof.Machine.execLvOff n s
  | .lvReset n => Sys2Proof.Machine.execLvReset n s
  | .lvEnable n => Sys2Proof.Machine.execLvEnable n s
  | .lvDisable n => Sys2Proof.Machine.execLvDisable n s
  | .setIlim n => Sys2Proof.Machine.execSetIlim n s
  | .setFaultTime n => Sys2Proof.Machine.execSetFaultTime n s
  | .readEnergy n => Sys2Proof.Machine.execReadEnergy n s
  | .clearFlags n => Sys2Proof.Machine.execClearFlags n s
  | .mailboxCompletion n => Sys2Proof.Machine.execMailboxCompletion n s
  | .nodeImageRefresh n => Sys2Proof.Machine.execNodeImageRefresh n s
  | .nodeImageStale n => Sys2Proof.Machine.execNodeImageStale n s
  | .regionWindowWriteApply off bytes v => Sys2Proof.Machine.execRegionWindowWriteApply off bytes v s
  | .registerWrite x bytes v => Sys2Proof.Machine.execRegisterWrite x bytes v s
  | .pumpReservoirReady c => Sys2Proof.Machine.execPumpReservoirReady c s
  | .tbclkInReturn => Sys2Proof.Machine.execTbclkInReturn s
  | .linkTrainingEnd link => Sys2Proof.Machine.execLinkTrainingEnd link s
  | .cabinetLinkLoss link => Sys2Proof.Machine.execCabinetLinkLoss link s
  | .perstNRelease => Sys2Proof.Machine.execPerstNRelease s
  | .busMasterEnable en => Sys2Proof.Machine.execBusMasterEnable en s
  | .rstNRelease => Sys2Proof.Machine.execRstNRelease s
  | .packHot live => Sys2Proof.Machine.execPackHot live s
  | .battRemoval => Sys2Proof.Machine.execBattRemoval s
  | .evHandoverBounceHoldoffExpiry => Sys2Proof.Machine.execEvHandoverBounceHoldoffExpiry s
  | .supervisorFrameDiscard e => Sys2Proof.Machine.execSupervisorFrameDiscard e s
  | .mgmtCommandNack pec => Sys2Proof.Machine.execMgmtCommandNack pec s

end Sys2Proof.Machine
end

