-- ==== Sys2Proof/Machine/Step.lean ====
section
/-! DEFINITION. One step: the command at the front of the queue, or one timebase tick when nothing waits. -/

namespace Sys2Proof.Machine

/-- The command at the front leaves the queue and takes effect. With nothing waiting the block lets one timebase tick of 4 ns
pass (R178). Log 4 (DESIGN CHOICE, unsafe); log 11 (DEDUCED, safe). -/
def step (s : State) : Host.Outcome State Fault Refusal :=
  match s.pending with
  | i :: rest => exec i { s with pending := rest }
  | [] => .next { s with dev := s.dev.tick }

/-- The state with the command that a table word spells at the front of the queue; unchanged where it spells none. -/
def State.withFetchWord (s : State) (nbits w : Nat) : State :=
  match Sys2Proof.decodeTableWord nbits w with
  | some i => { s with pending := i :: s.pending }
  | none => s

end Sys2Proof.Machine
end

