-- ==== Sys2Proof/Safety.lean ====
section
/-! DEFINITION. The words claims use: the parts of the device, what it means to keep them, the canonical form of its memories,
what a command does, and a safe step. -/

namespace Sys2Proof.Machine

/-- The parts of the device: the fields of `Dev`. -/
inductive Part where
  | freeCount | ticks | tbTime | tb | linkA | linkB | ring | replicas | lk | cells | blocks | regions | barges | sram
  | rram | flash | rtSlot | custSlot | dbg | tap | nodes | lvDone | rgnFail | badSize | rsvdWrites | slices | sliceQ
  | lanes | convs | auxs | calSlots | regs | regsPend | prof | profPend | colls | err | sluice | slMsgs | grants
  | mirror | mirrorStale | fwdMem | tripSeq | ringPos | hp | ops | opGen | bz | rv | tows | mg | sv | pwr | evq
  | complq | laneWaits | reports | telq | out
  deriving DecidableEq, Repr

/-- Part `p` reads the same in both states. -/
def Dev.samePart (s t : Dev) : Part → Prop
  | .freeCount => t.freeCount = s.freeCount
  | .ticks => t.ticks = s.ticks
  | .tbTime => t.tbTime = s.tbTime
  | .tb => t.tb = s.tb
  | .linkA => t.linkA = s.linkA
  | .linkB => t.linkB = s.linkB
  | .ring => t.ring = s.ring
  | .replicas => t.replicas = s.replicas
  | .lk => t.lk = s.lk
  | .cells => t.cells = s.cells
  | .blocks => t.blocks = s.blocks
  | .regions => t.regions = s.regions
  | .barges => t.barges = s.barges
  | .sram => t.sram = s.sram
  | .rram => t.rram = s.rram
  | .flash => t.flash = s.flash
  | .rtSlot => t.rtSlot = s.rtSlot
  | .custSlot => t.custSlot = s.custSlot
  | .dbg => t.dbg = s.dbg
  | .tap => t.tap = s.tap
  | .nodes => t.nodes = s.nodes
  | .lvDone => t.lvDone = s.lvDone
  | .rgnFail => t.rgnFail = s.rgnFail
  | .badSize => t.badSize = s.badSize
  | .rsvdWrites => t.rsvdWrites = s.rsvdWrites
  | .slices => t.slices = s.slices
  | .sliceQ => t.sliceQ = s.sliceQ
  | .lanes => t.lanes = s.lanes
  | .convs => t.convs = s.convs
  | .auxs => t.auxs = s.auxs
  | .calSlots => t.calSlots = s.calSlots
  | .regs => t.regs = s.regs
  | .regsPend => t.regsPend = s.regsPend
  | .prof => t.prof = s.prof
  | .profPend => t.profPend = s.profPend
  | .colls => t.colls = s.colls
  | .err => t.err = s.err
  | .sluice => t.sluice = s.sluice
  | .slMsgs => t.slMsgs = s.slMsgs
  | .grants => t.grants = s.grants
  | .mirror => t.mirror = s.mirror
  | .mirrorStale => t.mirrorStale = s.mirrorStale
  | .fwdMem => t.fwdMem = s.fwdMem
  | .tripSeq => t.tripSeq = s.tripSeq
  | .ringPos => t.ringPos = s.ringPos
  | .hp => t.hp = s.hp
  | .ops => t.ops = s.ops
  | .opGen => t.opGen = s.opGen
  | .bz => t.bz = s.bz
  | .rv => t.rv = s.rv
  | .tows => t.tows = s.tows
  | .mg => t.mg = s.mg
  | .sv => t.sv = s.sv
  | .pwr => t.pwr = s.pwr
  | .evq => t.evq = s.evq
  | .complq => t.complq = s.complq
  | .laneWaits => t.laneWaits = s.laneWaits
  | .reports => t.reports = s.reports
  | .telq => t.telq = s.telq
  | .out => t.out = s.out

/-- `t` differs from `s` in the listed parts at most: the frame of a command. -/
def Keeps (ps : List Part) (s t : Dev) : Prop := ∀ p, p ∉ ps → s.samePart t p

/-- The command answers a next state: the queue stays, the device differs in the listed parts at most, and `q` holds of it. -/
def Does (i : Instr) (s : State) (ps : List Part) (q : Dev → Prop) : Prop :=
  ∃ t, exec i s = .next t ∧ t.pending = s.pending ∧ Keeps ps s.dev t.dev ∧ q t.dev

/-- The command answers the same state: it has no effect. -/
def NoEffect (i : Instr) (s : State) : Prop := exec i s = .next s

/-- The command answers exactly the device `d`, and the queue stays: everything `d` does not change is unchanged. -/
def Becomes (i : Instr) (s : State) (d : Dev) : Prop := exec i s = .next { s with dev := d }

/-- Of the indexed objects that `get` reads, at most number `k` differs. -/
def Only {β : Type} (get : Dev → Nat → β) (k : Nat) (s t : Dev) : Prop := ∀ j, j ≠ k → get t j = get s j

/-- The parts that a change of a cell's state may touch: its withdrawals and releases, the trip broadcast, held commands, its
lane, and its event (02 to 04, 06). -/
def Parts.cell : List Part :=
  [.freeCount, .cells, .blocks, .regions, .lanes, .convs, .prof, .profPend, .slMsgs, .tripSeq, .evq, .complq, .laneWaits, .out]

/-- The parts that an event of a fault source may touch: those of the cells a safe reaction covers, the barges it interrupts,
the slices it stops, the collectors, ERR_N and the reports (17). -/
def Parts.fault : List Part :=
  Parts.cell ++ [.barges, .slices, .regs, .regsPend, .colls, .err, .reports]

/-- The canonical form of a byte memory whose unlisted bytes read as `d`: addresses strictly rising, no listed default. -/
def Memory.wf (d : Byte) (m : Sparse Byte) : Bool := Sparse.wf (fun _ => d) m

/-- Central SRAM, region RAM and code flash are in canonical form. -/
def Dev.memWf (s : Dev) : Prop :=
  Memory.wf 0 s.sram = true ∧ Memory.wf 0 s.rram = true ∧ Memory.wf 0xFF s.flash = true

/-- A byte of central SRAM, of region RAM by 2^21 g + offset, of code flash by its physical offset. -/
def Dev.sramByte (s : Dev) (a : Nat) : Byte := Sparse.get (fun _ => 0) s.sram a
def Dev.rramByte (s : Dev) (a : Nat) : Byte := Sparse.get (fun _ => 0) s.rram a
def Dev.flashByte (s : Dev) (a : Nat) : Byte := Sparse.get (fun _ => 0xFF) s.flash a

/-- A step is safe when it answers a next state: no row of the table stops the block. -/
def Safe (s : State) : Prop := ∃ t, step s = .next t

end Sys2Proof.Machine
end

