-- ==== Sys2Proof/Certificates/Slice0/Obligations.lean ====
section
/-! DEFINITION. The statements for the provers, chapter by chapter of spec/. Some obligations are conjunctions of several
statements `Rules.…`, each of which is a `Prop` of its own. -/

open Sys2Proof Sys2Proof.Machine

/-! ### Straits and autonomy (01) -/

/-- R21, R22: a good or corrected word ends the run of uncorrectable words of its end, and a corrected one counts in
CORR_COUNT; an uncorrectable word adds to the run and raises STRAIT_UNCORRECTED in the collector of the receiving level; an
end that has nothing to send sends an idle word. -/
def Rules.StraitWords : Prop :=
  (∀ (g : RegionIx) (q : WordQuality) (s : State), (s.dev.region g).islandRun = true → s.dev.pwr.core = true →
    q ≠ .uncorrectable →
    Becomes (.straitWordReceive g .island q) s (s.dev.setRegion g { s.dev.region g with
      badIsland := 0
      corrCount := if q = .corrected then min 65535 ((s.dev.region g).corrCount + 1) else (s.dev.region g).corrCount }) ∧
    Becomes (.straitWordReceive g .central q) s (s.dev.setRegion g { s.dev.region g with
      badCentral := 0
      corrCount := if q = .corrected then min 65535 ((s.dev.region g).corrCount + 1) else (s.dev.region g).corrCount })) ∧
  (∀ (g : RegionIx) (s : State), (s.dev.region g).islandRun = true → s.dev.pwr.core = true →
    ((s.dev.region g).badIsland < 3 → Does (.straitWordReceive g .island .uncorrectable) s
      (Parts.fault ++ [.sliceQ, .sluice, .grants]) fun t =>
        (t.region g).badIsland = (s.dev.region g).badIsland + 1 ∧ (t.region g).corrCount = (s.dev.region g).corrCount ∧
        (t.coll g).latched.getLsbD 64 = true) ∧
    ((s.dev.region g).badCentral < 3 → Does (.straitWordReceive g .central .uncorrectable) s
      (Parts.fault ++ [.sliceQ, .sluice, .grants]) fun t =>
        (t.region g).badCentral = (s.dev.region g).badCentral + 1 ∧ (t.region g).corrCount = (s.dev.region g).corrCount ∧
        (t.coll 8).latched.getLsbD 36 = true) ∧
    Does (.straitWordReceive g .island .uncorrectable) s (Parts.fault ++ [.sliceQ, .sluice, .grants])
      (fun t => (t.coll g).latched.getLsbD 64 = true) ∧
    Does (.straitWordReceive g .central .uncorrectable) s (Parts.fault ++ [.sliceQ, .sluice, .grants])
      (fun t => (t.coll 8).latched.getLsbD 36 = true)) ∧
  (∀ (g : RegionIx) (s : State), (s.dev.region g).asleep = false →
    ((s.dev.region g).islandRun = true → (s.dev.region g).clkFail = false →
      Becomes (.idleWordSend g .island) s { s.dev with out := s.dev.out ++ [.idleWord g true] }) ∧
    (s.dev.pwr.core = true →
      Becomes (.idleWordSend g .central) s { s.dev with out := s.dev.out ++ [.idleWord g false] }))

/-- R22, R23, R25, R26, R30: the island end that declares its strait lost enters autonomous mode, with the values of
RGN_AUTONOMY sampled when an episode begins; the central end shows the loss in RGN_STRAIT_STAT and freezes the region in the
sluice; the reset indication of the central die acts as a loss at the island end; the fourth uncorrectable word in a row is a
loss; and the analog watchdog asserts all eight trip lines. -/
def Rules.StraitLoss : Prop :=
  (∀ (g : RegionIx) (i : Instr) (s : State),
    ((i = .straitLossTimeout g .island ∧ (s.dev.region g).asleep = false) ∨
      (i = .centralResetIndication g ∧ s.dev.pwr.core = false) ∨
      (i = .straitWordReceive g .island .uncorrectable ∧ s.dev.pwr.core = true ∧ 3 ≤ (s.dev.region g).badIsland)) →
    (s.dev.region g).islandRun = true → (s.dev.region g).clkFail = false → (s.dev.region g).islandLost = false →
    Does i s (Parts.fault ++ [.sliceQ, .sluice, .grants]) fun t =>
      (t.region g).islandLost = true ∧ t.auto g = true ∧ (t.region g).replica = .holdover ∧
      (t.region g).episode = if (s.dev.region g).rejoined = true then some {
          entry := s.dev.rtime g, policy := Bits.fld (s.dev.region g).autoWord 16 2
          retryAuto := (s.dev.region g).autoWord.getLsbD 18, rejoinAuto := (s.dev.region g).autoWord.getLsbD 19
          tAutoMs := max 10 (min 60000 (Bits.fld (s.dev.region g).autoWord 0 16)) }
        else (s.dev.region g).episode) ∧
  (∀ (g : RegionIx) (i : Instr) (s : State),
    ((i = .straitLossTimeout g .central ∧ (s.dev.region g).asleep = false) ∨
      (i = .straitWordReceive g .central .uncorrectable ∧ s.dev.pwr.core = true ∧ (s.dev.region g).islandRun = true ∧
        3 ≤ (s.dev.region g).badCentral)) →
    (s.dev.region g).clkFail = false → (s.dev.region g).linkUp = true →
    Does i s (Parts.fault ++ [.sliceQ, .sluice, .grants]) fun t =>
      (t.region g).linkUp = false ∧ (t.region g).autonomous = true ∧ (t.region g).lossSeen = true ∧
      (t.region g).lossCount = min 255 ((s.dev.region g).lossCount + 1) ∧
      t.sluice = { s.dev.sluice with
        pend := s.dev.sluice.pend.map (fun (r : GrantReq) => if r.cell / 64 = g then { r with frozen := true } else r)
        held := s.dev.sluice.held.map (fun (r : Reservation) => if r.cell / 64 = g then { r with frozen := true } else r) } ∧
      t.grants = s.dev.grants.filter (fun (a : Grant) => a.cell / 64 != g.val)) ∧
  (∀ (g : RegionIx) (s : State), (s.dev.region g).islandRun = true → (s.dev.region g).clkFail = false →
    Does (.islandClockFail g) s (Parts.fault ++ [.sliceQ, .sluice, .grants]) fun t =>
      (t.region g).clkFail = true ∧ (t.region g).islandLost = true ∧ ∀ i, i < 8 → Bits.nbit (t.driven g) i = true)

/-- R26 and Table 1-5: at t_autonomous, while the strait is lost, the region applies the policy its episode sampled, once; a
STOP policy then steps one occupied rank at a time, and every cell of the rank in a state that R26 names goes to OFF with
HOLD_OFF set. -/
def Rules.AutonomyPolicy : Prop :=
  (∀ (g : RegionIx) (s : State) (ep : Episode), (s.dev.region g).episode = some ep → (s.dev.region g).islandLost = true →
    (s.dev.region g).clkFail = false → ep.begun = false →
    Does (.autonomyTimerExpiry g) s Parts.cell fun t =>
      (t.region g).episode = some { ep with
        begun := true, applied := decide (ep.policy ≠ 0),
        ranks := if ep.policy = 2 then (s.dev.occupiedRanks g).tail else [] } ∧
      (ep.policy = 0 → s.dev.readyCells g = [] → t.cells = s.dev.cells)) ∧
  (∀ (g : RegionIx) (s : State) (ep : Episode) (k r : Nat) (rest : List Nat), (s.dev.region g).episode = some ep →
    ep.ranks = k :: r :: rest →
    Does (.stopRankStep g) s
      (Parts.cell ++ [.tb, .lk, .barges, .slices, .auxs, .regs, .regsPend, .colls, .sluice, .grants, .bz, .tows, .reports])
      fun t => (t.region g).episode = some { ep with ranks := r :: rest } ∧
        ∀ c, c / 64 = g → (s.dev.cell c).state.policyActs = true → s.dev.pf c 0 20 4 = k →
          (t.cell c).state = .off ∧ (t.cell c).holdOff = true)

/-- R27, R28: a strait that both ends hold valid again is restored; REJOIN asks for the rejoin only of a region that is ready,
and has no effect otherwise; at rejoin the region leaves autonomous mode, EV_REGION_REJOIN goes out with the entry time of the
episode, the rejoin time and whether a policy was applied, and the held events follow it. -/
def Rules.StraitRejoin : Prop :=
  (∀ (g : RegionIx) (s : State), (s.dev.region g).islandLost = true → (s.dev.region g).islandRun = true →
    s.dev.pwr.core = true → (s.dev.region g).clkFail = false → (s.dev.region g).asleep = false →
    Does (.straitRestore g) s Parts.fault fun t =>
      (t.region g).islandLost = false ∧ (t.region g).linkUp = true ∧ (t.region g).restored = true ∧
      (t.region g).rejoined = (s.dev.region g).rejoined ∧ (t.region g).autonomous = (s.dev.region g).autonomous) ∧
  (∀ (g : RegionIx) (s : State),
    (s.dev.readyRejoin g = true → Becomes (.rejoinRequest g) s
      (s.dev.setRegion g { s.dev.region g with rejoinReq := true })) ∧
    (s.dev.readyRejoin g = false → NoEffect (.rejoinRequest g) s)) ∧
  (∀ (g : RegionIx) (s : State) (ep : Episode), s.dev.readyRejoin g = true → (s.dev.region g).episode = some ep →
    ep.ranks = [] → (ep.rejoinAuto = true ∨ (s.dev.region g).rejoinReq = true) →
    Does (.regionRejoin g) s
      (Parts.cell ++ [.tb, .lk, .barges, .slices, .auxs, .regs, .regsPend, .colls, .sluice, .grants, .bz, .tows, .reports])
      fun t => (t.region g).rejoined = true ∧ (t.region g).autonomous = false ∧ (t.region g).episode = none ∧
        s.dev.evq ++ [({ stream := 0x80 + g, code := 0x040, obj := g, payload := (Bits.words2 ep.entry ++
            Bits.words2 (s.dev.rtime g) ++ [BitVec.ofNat 32 (Bits.b2n ep.applied + ep.policy * 2 +
              min 65535 (s.dev.region g).evHoldLost * 65536)]) } : Event)] ++ (s.dev.region g).evHold <+: t.evq)

/-- `Rules.StraitWords` and `Rules.StraitLoss` together. -/
def Obligations.StraitLink : Prop := Rules.StraitWords ∧ Rules.StraitLoss

/-- `Rules.AutonomyPolicy` and `Rules.StraitRejoin` together. -/
def Obligations.AutonomyAndRejoin : Prop := Rules.AutonomyPolicy ∧ Rules.StraitRejoin

/-! ### Channel cells: front end, presence, control, trips (02 to 04) -/

/-- R44, R47, R49, R51, R58: the controlled pull-down follows the strong one; a charge-pump failure takes every gate of the
block off its source and raises CP_FAIL; the passive hold is released under the controlled pull-down while the island runs;
the gate drive is enabled again; and the reservoir that is ready lets the source current of INRUSH flow. -/
def Rules.GateDriveEvents : Prop :=
  (∀ (c : CellIx) (s : State),
    Becomes (.strongPulldownEnd c) s (s.dev.setCell c { s.dev.cell c with
      gate := if (s.dev.cell c).gate = .strong then .controlled else (s.dev.cell c).gate }) ∧
    Becomes (.passiveHoldRelease c) s
      (if (s.dev.region (c / 64)).islandRun = true ∧ (s.dev.cell c).gate = .controlled then
        s.dev.setCell c { s.dev.cell c with passiveHold := false } else s.dev)) ∧
  (∀ (b : BlockIx) (s : State),
    Becomes (.gateDriveEnable b) s (s.dev.setBlock b { s.dev.block b with gateDrive := true })) ∧
  (∀ (b : BlockIx) (cell : Option (Fin 8)) (s : State), Does (.cpFail b cell) s Parts.fault fun t =>
    (t.block b).cpFail = true ∧ (t.coll (b / 8)).latched.getLsbD (8 * (b.val % 8)) = true ∧
    ∀ l, l < 8 → (t.cell (8 * b + l)).gate =
      if (s.dev.cell (8 * b + l)).gate = .strong then .strong else .controlled) ∧
  (∀ (c : CellIx) (s : State),
    Does (.pumpReservoirReady c) s [.cells] fun t =>
      Only Dev.cell c s.dev t ∧ (t.cell c).pumpReady = true ∧ (t.cell c).state = (s.dev.cell c).state ∧
      ((s.dev.cell c).state = .inrush → s.dev.driveAvail c = true →
        (t.cell c).gate = .source (s.dev.pf c 0 4 4) ∧ (t.cell c).holder = .dvdt) ∧
      ((s.dev.cell c).state ≠ .inrush → (t.cell c).gate = (s.dev.cell c).gate))

/-- The rows that tell a check of one cell, with the cause code each carries (Table 4-1, R48, R56, R85, R86); `also` marks the
causes of the same clock. A timer acts in the state it runs in. -/
def CheckRow (s : Dev) (c : CellIx) (also : BitVec 16) (i : Instr) (n : Nat) : Prop :=
  (i = .gateHeadroom c also ∧ n = 12) ∨ (i = .senseOpen c also ∧ n = 13) ∨ (i = .outOv c also ∧ n = 9) ∨
  (i = .outUv c also ∧ n = 11) ∨
  (i = .inrushTimeout c also ∧ (s.cell c).state = .inrush ∧ n = (if (s.cell c).soaHeld = true then 5 else 6)) ∨
  (i = .limitTimeout c also ∧ (s.cell c).state = .limit ∧ n = (if (s.cell c).soaHeld = true then 5 else 7))

/-- R48, R56, R84 to R87, R95, R96: a check that is armed in the cell's state takes the cell to TRIPPED with the strong
pull-down, and its trip record holds the replica time, the state, the first armed cause in the order of R87 as primary, its
class and the retry count; a check that is not armed, with no armed cause beside it, has no effect, and neither has a timer
outside its state. -/
def Rules.CheckTrips : Prop :=
  (∀ (c : CellIx) (also : BitVec 16) (i : Instr) (n : Nat) (s : State), CheckRow s.dev c also i n →
    s.dev.checkArmed c n = true →
    Does i s Parts.cell fun t =>
      (t.cell c).state = .tripped ∧ (t.cell c).gate = .strong ∧ (t.cell c).holder = .trip ∧
      (t.cell c).evaluated = false ∧ (t.cell c).trip.time = s.dev.rtime (c / 64) ∧ (t.cell c).trip.cell = c ∧
      (t.cell c).trip.stateAt = (s.dev.cell c).state.code ∧
      some (t.cell c).trip.primary = (s.dev.armedCauses c (also.toNat ||| 1 <<< n)).head? ∧
      (t.cell c).trip.cls = Trip.cls (t.cell c).trip.primary ∧
      (t.cell c).trip.retryCount = (s.dev.cell c).retryCount ∧
      (s.dev.auto (c / 64) = false → Only Dev.cell c s.dev t)) ∧
  (∀ (c : CellIx) (also : BitVec 16) (i : Instr) (n : Nat) (s : State), CheckRow s.dev c also i n →
    s.dev.armedCauses c (also.toNat ||| 1 <<< n) = [] → s.dev.auto (c / 64) = false →
    NoEffect i s) ∧
  (∀ (c : CellIx) (also : BitVec 16) (s : State),
    ((s.dev.cell c).state ≠ .inrush → NoEffect (.inrushTimeout c also) s) ∧
    ((s.dev.cell c).state ≠ .limit → NoEffect (.limitTimeout c also) s))

/-- R52, R86, R115, R122, R123, Table 4-2: VIN_UVLO disables the gate drive of the block and trips its cells in INRUSH, ON
and LIMIT with its cause; a SHORT_CIRCUIT trips an armed cell at the time of the edge, in steps of 4 ns, and is its primary cause; in TRIPPED
it restarts the strong pull-down; with the comparator off it does nothing. -/
def Obligations.FastTrips : Prop :=
  (∀ (b : BlockIx) (also : BitVec 16) (s : State),
    Does (.vinUvlo b also) s Parts.cell fun t => (t.block b).gateDrive = false ∧
      ∀ l, l < 8 → (s.dev.cell (8 * b + l)).state.armed = true → let x := t.cell (8 * b + l)
        x.state = .tripped ∧ x.gate = .strong ∧ (x.trip.primary = 2 ∨ Bits.nbit x.trip.secondary 2 = true) ∧
        (also.getLsbD 1 = false → also.getLsbD 13 = false → x.trip.primary = 2 ∧ x.trip.cls = 5)) ∧
  (∀ (b : BlockIx) (also : BitVec 16) (s : State), s.dev.auto (b / 8) = false →
    Does (.vinUvlo b also) s Parts.cell fun t => (∀ c, c / 8 ≠ b.val → t.cell c = s.dev.cell c) ∧
      ∀ l, l < 8 → (s.dev.cell (8 * b + l)).state.armed = false → t.cell (8 * b + l) = s.dev.cell (8 * b + l)) ∧
  (∀ (c : CellIx) (edge : DWord) (also : BitVec 16) (s : State), (s.dev.cell c).isc.mode ≠ .off →
    (s.dev.cell c).state.armed = true →
    Does (.shortCircuit c edge also) s Parts.cell fun t =>
      (t.cell c).state = .tripped ∧ (t.cell c).gate = .strong ∧ (t.cell c).trip.primary = 1 ∧ (t.cell c).trip.cls = 0 ∧
      (t.cell c).trip.time = edge.toNat / 4 * 4 ∧ (t.cell c).trip.stateAt = (s.dev.cell c).state.code ∧
      (s.dev.auto (c / 64) = false → Only Dev.cell c s.dev t)) ∧
  (∀ (c : CellIx) (edge : DWord) (also : BitVec 16) (s : State), (s.dev.cell c).isc.mode ≠ .off →
    (s.dev.cell c).state = .tripped →
    Does (.shortCircuit c edge also) s [.cells, .blocks] fun t =>
      Only Dev.cell c s.dev t ∧ (t.cell c).gate = .strong ∧ (t.cell c).state = .tripped ∧
      (t.cell c).trip = (s.dev.cell c).trip) ∧
  (∀ (c : CellIx) (edge : DWord) (also : BitVec 16) (s : State), (s.dev.cell c).isc.mode = .off →
    NoEffect (.shortCircuit c edge also) s)

/-- R59 to R61, R73, R75, Table 2-5a: a wanted pulse that starts at or below 3.0 V runs with the configured code and length;
the first clamp time is kept; the end of a pulse of a cell whose probe result is not awaited records the estimate of R61 and
ends the pulse; t_debounce marks a cell in PROBE. -/
def Obligations.ProbePulse : Prop :=
  (∀ (c : CellIx) (mv : BitVec 16) (s : State),
    (s.dev.pulseWanted c = true → mv.toNat ≤ 3000 →
      Becomes (.probePulseStart c mv) s (s.dev.setCell c { s.dev.cell c with
        pulse := some { v0 := mv.toNat, code := s.dev.pf c 0 8 3, tUs := s.dev.pf c 0x3C 0 20
                        precheck := decide ((s.dev.cell c).state = .precheck) } })) ∧
    (s.dev.pulseWanted c = false → NoEffect (.probePulseStart c mv) s) ∧
    (s.dev.pulseWanted c = true → 3000 < mv.toNat →
      Does (.probePulseStart c mv) s Parts.cell fun t => Only Dev.cell c s.dev t ∧
        (t.cell c).probe.startHigh = true ∧ (t.cell c).probe.v0 = mv.toNat ∧ (t.cell c).pulse = none)) ∧
  (∀ (c : CellIx) (tc : BitVec 20) (s : State) (p : Pulse), (s.dev.cell c).pulse = some p →
    Becomes (.clamped c tc) s (s.dev.setCell c { s.dev.cell c with
      pulse := some { p with clampUs := if p.clampUs = none then some tc.toNat else p.clampUs } })) ∧
  (∀ (c : CellIx) (vh vt : BitVec 16) (s : State) (p : Pulse), (s.dev.cell c).pulse = some p →
    Does (.probePulseEnd c vh vt) s Parts.cell fun t => Only Dev.cell c s.dev t ∧ (t.cell c).pulse = none ∧
      (t.cell c).probe.rMohm = (Probe.estimate (Config.rOutMohm c) p.code p.tUs p.v0 vh.toNat vt.toNat p.clampUs).1 ∧
      (t.cell c).probe.cNf = (Probe.estimate (Config.rOutMohm c) p.code p.tUs p.v0 vh.toNat vt.toNat p.clampUs).2.1 ∧
      (t.cell c).probe.clamped = p.clampUs.isSome ∧ (t.cell c).probe.aborted = false) ∧
  (∀ (c : CellIx) (s : State),
    ((s.dev.cell c).state = .probe → Becomes (.debounceExpiry c) s
      (s.dev.setCell c { s.dev.cell c with debExpired := true })) ∧
    ((s.dev.cell c).state ≠ .probe → Becomes (.debounceExpiry c) s (s.dev.setCell c (s.dev.cell c))))

/-- R75, R76, R78, R82, R83: a precheck whose VIN check has not passed fails with reason 1 into OFF with HOLD_OFF; a wait for
the sluice raises EV_GRANT_TIMEOUT once, unless its timeout is 0; removal in ON ends in OFF with the cell absent; and a level trip that is not active
lets power good and the release of a limit end in ON, with the reservation given back. -/
def Rules.ChannelWaits : Prop :=
  (∀ (c : CellIx) (s : State), (s.dev.cell c).state = .precheck → (s.dev.cell c).pcVin = false →
    Does (.precheckWaitExpiry c) s Parts.cell fun t => Only Dev.cell c s.dev t ∧
      (t.cell c).state = .off ∧ (t.cell c).holdOff = true ∧
      (s.dev.auto (c / 64) = false → s.dev.pb c 0x5C 2 = true → (s.dev.profMine c).length = 0 →
        ∃ (e : Event) (w : Word), t.evq = s.dev.evq ++ (if s.dev.pb c 0x5C 0 = true then [e] else []) ++
          [Event.ofCell c 0x012 false (Bits.words2 (s.dev.rtime (c / 64)) ++ [1, w])])) ∧
  (∀ (c : CellIx) (s : State), (s.dev.cell c).state = .waitGrant → s.dev.pf c 0x48 0 16 ≠ 0 →
    ((s.dev.cell c).grantLate = false → s.dev.pb c 0x5C 3 = true → s.dev.auto (c / 64) = false →
      Becomes (.grantTimeout c) s ((s.dev.setCell c { s.dev.cell c with grantLate := true }).raise
        (Event.ofCell c 0x013 false (Bits.words2 (s.dev.rtime (c / 64)) ++ Bits.words2 (s.dev.cell c).entered ++
          [BitVec.ofNat 32 (s.dev.pf c 0 12 4 + s.dev.pf c 0 16 3 * 16)])))) ∧
    ((s.dev.cell c).grantLate = true → NoEffect (.grantTimeout c) s)) ∧
  (∀ (c : CellIx) (s : State), ((s.dev.cell c).state ≠ .waitGrant ∨ s.dev.pf c 0x48 0 16 = 0) → NoEffect (.grantTimeout c) s) ∧
  (∀ (c : CellIx) (s : State), (s.dev.cell c).state = .on → s.dev.pf c 0x44 0 16 ≠ 0 → s.dev.pf c 0 0 2 ≠ 0 →
    Does (.removal c) s Parts.cell fun t => Only Dev.cell c s.dev t ∧ (t.cell c).state = .off ∧ (t.cell c).present = false) ∧
  (∀ (c : CellIx) (s : State), s.dev.auto (c / 64) = false → (s.dev.profMine c).length = 0 →
    s.dev.levelMask c = 0 →
    ((s.dev.cell c).state = .inrush → Does (.powerGood c) s Parts.cell fun t => Only Dev.cell c s.dev t ∧
      (t.cell c).state = .on ∧ (t.cell c).entered = s.dev.rtime (c / 64) ∧ (t.cell c).reserved = false ∧
      t.slMsgs = s.dev.slMsgs ++ (if (s.dev.cell c).reserved = true then [.release c] else [])) ∧
    ((s.dev.cell c).state = .limit → Does (.limitRelease c) s Parts.cell fun t => Only Dev.cell c s.dev t ∧
      (t.cell c).state = .on ∧ t.slMsgs = s.dev.slMsgs))

/-- R79 to R81: a limiter that holds current in ON takes the cell to LIMIT, with the limiter of R80 as its holder and the
fault timer loaded from the profile. -/
def Rules.LimitEntry : Prop :=
  ∀ (c : CellIx) (s : State), s.dev.auto (c / 64) = false → (s.dev.profMine c).length = 0 → s.dev.levelMask c = 0 →
    (s.dev.cell c).state = .on → s.dev.driveAvail c = true →
    ((s.dev.cell c).iSoa.isSome = true ∨ (s.dev.cell c).iAlim.isSome = true) →
    Does (.limitEntry c) s Parts.cell fun t => Only Dev.cell c s.dev t ∧
      (t.cell c).state = .limit ∧ (t.cell c).sinking = true ∧ (t.cell c).holder = s.dev.sinkHolder c ∧
      (t.cell c).gate = .regulated (s.dev.pf c 0 4 4) ∧ (t.cell c).faultUs = s.dev.pf c 0x18 0 24

/-- `Rules.GateDriveEvents` and `Rules.CheckTrips` together. -/
def Obligations.GateDriveAndChecks : Prop := Rules.GateDriveEvents ∧ Rules.CheckTrips

/-- `Rules.ChannelWaits` and `Rules.LimitEntry` together. -/
def Obligations.WaitsAndLimits : Prop := Rules.ChannelWaits ∧ Rules.LimitEntry

/-! ### Retry rules, trip lines and the sluice (04) -/

/-- R68, R105: at the evaluation point of a cell in TRIPPED, the rule set that p_rule_map selects for the class of the trip
decides. LATCH_N trips in the window latch the cell; otherwise a retry that is left goes to COOLDOWN with the fixed or the
doubled backoff and the retry count one higher; otherwise EXHAUST_LATCH latches, and without it the cell stays in TRIPPED. -/
def Rules.RuleEvaluation : Prop :=
  ∀ (c : CellIx) (s : State) (set count : Nat), (s.dev.cell c).state = .tripped → (s.dev.cell c).evaluated = false →
    set = s.dev.ruleSet c (s.dev.cell c).trip.cls →
    count = (Sparse.get (fun _ => {}) (s.dev.cell c).classes (s.dev.cell c).trip.cls).count →
    let latchN := s.dev.rf (RegMap.ruleC (c / 64) set) 0 8
    let retryMax := s.dev.rf (RegMap.ruleA (c / 64) set) 0 8
    let base := Trip.backoff (s.dev.rf (RegMap.ruleA (c / 64) set) 12 20)
    let n := min 255 ((s.dev.cell c).retryCount + 1)
    let backoff := if s.dev.rb (RegMap.ruleA (c / 64) set) 8 = true then
        min (Trip.backoff (s.dev.rf (RegMap.ruleB (c / 64) set) 0 20)) (base * 2 ^ (n - 1)) else base
    let retries := (latchN = 0 ∨ count < latchN) ∧ (retryMax = 255 ∨ (s.dev.cell c).retryCount < retryMax)
    let exhausted := (latchN = 0 ∨ count < latchN) ∧ ¬(retryMax = 255 ∨ (s.dev.cell c).retryCount < retryMax)
    (((latchN ≠ 0 ∧ latchN ≤ count) ∨ (exhausted ∧ s.dev.rb (RegMap.ruleA (c / 64) set) 9 = true)) →
      Does (.ruleEvaluation c) s Parts.fault fun t =>
        ((t.cell c).state = .latched ∨ (t.cell c).state = .safe) ∧
        ((s.dev.coll (c / 64)).live.getLsbD (8 * (c / 8 % 8) + 3) = true → (t.cell c).state = .latched) ∧
        ((s.dev.coll (c / 64)).live.getLsbD (8 * (c / 8 % 8) + 3) = false →
          (t.coll (c / 64)).latched.getLsbD (8 * (c / 8 % 8) + 3) = true)) ∧
    (retries → (s.dev.cell c).heldOn = false → s.dev.noAutoRetry (c / 64) = false →
      Does (.ruleEvaluation c) s Parts.fault fun t => Only Dev.cell c s.dev t ∧ (t.cell c).state = .cooldown ∧
        (t.cell c).backoffMs = backoff ∧ (t.cell c).retryCount = n ∧ t.colls = s.dev.colls) ∧
    (retries → (s.dev.cell c).heldOn = true →
      Does (.ruleEvaluation c) s Parts.fault fun t => Only Dev.cell c s.dev t ∧ (t.cell c).state = .cooldown ∧
        (t.cell c).backoffMs = 0 ∧ (t.cell c).retryCount = (s.dev.cell c).retryCount ∧ (t.cell c).heldOn = false) ∧
    (retries → (s.dev.cell c).heldOn = false → s.dev.noAutoRetry (c / 64) = true →
      Becomes (.ruleEvaluation c) s (s.dev.setCell c { s.dev.cell c with evaluated := true })) ∧
    (exhausted → s.dev.rb (RegMap.ruleA (c / 64) set) 9 = false → (s.dev.cell c).heldOn = false →
      s.dev.auto (c / 64) = false →
      Becomes (.ruleEvaluation c) s ((s.dev.setCell c { s.dev.cell c with evaluated := true }).raise
        (Event.ofCell c 0x018 false (Bits.words2 (s.dev.rtime (c / 64)) ++
          [BitVec.ofNat 32 ((s.dev.cell c).trip.primary % 32 + (s.dev.cell c).retryCount % 256 * 256)]))))

/-- R24, R69, R77, R104, R106: a retry is released from COOLDOWN only when its conditions hold; outside autonomy the cell then
waits for the sluice, its request sent; in autonomy it becomes ready and stays in COOLDOWN while a cell of its region is in
INRUSH. A classification window that expires takes its count back to 0; the retry count clears in ON and LIMIT. -/
def Rules.RetryRelease : Prop :=
  (∀ (c : CellIx) (s : State), ((s.dev.cell c).state ≠ .cooldown ∨ s.dev.retryOk c = false) →
    NoEffect (.retryRelease c) s) ∧
  (∀ (c : CellIx) (s : State), (s.dev.cell c).state = .cooldown → s.dev.retryOk c = true → s.dev.auto (c / 64) = false →
    (s.dev.profMine c).length = 0 →
    Does (.retryRelease c) s Parts.cell fun t => Only Dev.cell c s.dev t ∧ (t.cell c).state = .waitGrant ∧
      t.slMsgs = s.dev.slMsgs ++ [.request { cell := c, group := s.dev.pf c 0 12 4, prio := s.dev.pf c 0 16 3
                                             ma := s.dev.pf c 8 0 24, time := s.dev.rtime (c / 64) / 1000 }]) ∧
  (∀ (c d : CellIx) (s : State), (s.dev.cell c).state = .cooldown → s.dev.retryOk c = true → s.dev.auto (c / 64) = true →
    (s.dev.cell d).state = .inrush → d.val / 64 = c / 64 →
    Becomes (.retryRelease c) s (s.dev.setCell c { s.dev.cell c with
      readyAt := if (s.dev.cell c).readyAt = none then some (s.dev.rtime (c / 64)) else (s.dev.cell c).readyAt })) ∧
  (∀ (c : CellIx) (m : Fin 8) (s : State), Does (.classWindowExpiry c m) s [.cells] fun t => Only Dev.cell c s.dev t ∧
    (t.cell c).state = (s.dev.cell c).state ∧
    ∀ k, Sparse.get (fun _ => {}) (t.cell c).classes k =
      if k = m.val then {} else Sparse.get (fun _ => {}) (s.dev.cell c).classes k) ∧
  (∀ (c : CellIx) (s : State),
    (((s.dev.cell c).state = .on ∨ (s.dev.cell c).state = .limit) →
      s.dev.rf (RegMap.ruleB (c / 64) (s.dev.cell c).tripRule) 20 12 ≠ 0 →
      Becomes (.retryCountClear c) s (s.dev.setCell c { s.dev.cell c with retryCount := 0 })) ∧
    ((s.dev.cell c).state ≠ .on → (s.dev.cell c).state ≠ .limit → NoEffect (.retryCountClear c) s))

/-- R97, R98, R100 and Tables 4-4 and 4-5: at t_trip_min a source ends if the cell has left the hold states or releases early,
and is marked otherwise; FORCE holds the lines and slice inputs it sets; another driver on a line is seen, and trips nothing. -/
def Rules.TripLines : Prop :=
  (∀ (c : CellIx) (s : State) (p : TripSource), Sparse.wf (fun _ => {}) s.dev.cells = true → (s.dev.cell c).src = some p →
    Does (.tripHoldExpiry c) s [.cells, .regions, .tripSeq, .out] fun t => Only Dev.cell c s.dev t ∧
      t.cell c = { s.dev.cell c with
        src := (if p.early = true ∨ ((s.dev.cell c).state.holds = false ∧ (s.dev.cell c).safeFromHold = false) then none
          else some { p with minPassed := true }) } ∧
      (p.early = false → (s.dev.cell c).state.holds = true → t.driven (c / 64) = s.dev.driven (c / 64)) ∧
      (p.bcast = false → t.out = s.dev.out)) ∧
  (∀ (g : RegionIx) (v : Word) (s : State), Does (.tripForceWrite g v) s [.regions, .regs] fun t =>
    t.reg (RegMap.tripForce g) = v &&& 0xFFF ∧ (∀ o, o ≠ RegMap.tripForce g → t.reg o = s.dev.reg o) ∧
    (∀ i, i < 8 → v.getLsbD i = true → Bits.nbit (t.driven g) i = true) ∧
    (∀ i, i < 4 → v.getLsbD (8 + i) = true → Bits.nbit (t.sliceFaults g) i = true) ∧
    ∀ h, h ≠ g.val → t.region h = s.dev.region h) ∧
  (∀ (g : RegionIx) (n : Fin 8) (low : Bool) (s : State), Does (.extTripLine g n low) s [.regions] fun t =>
    t.driven g = s.dev.driven g ∧ Only Dev.region g s.dev t ∧
    Bits.nbit (t.region g).extSeen n =
      (Bits.nbit (s.dev.region g).extSeen n || (low && !Bits.nbit (s.dev.driven g) n)) ∧
    ∀ j, j < 8 → Bits.nbit (t.region g).extLines j = if j = n.val then low else Bits.nbit (s.dev.region g).extLines j)

/-- R101 to R103 and Table 4-6: a set broadcast bit repeats its message while the strait is up; a message of another device
sets or clears its mirror bit and ends its staleness, is forwarded on the other link unless the pair is known, and raises
EV_LINK_TRIP only on a change; CLEAR clears the mirror bits that the masks select. -/
def Rules.TripBroadcast : Prop :=
  (∀ (g : RegionIx) (s : State),
    (s.dev.bcastBit g = true → s.dev.straitUp g = true →
      Becomes (.tripMessageRepeat g) s { s.dev with
        out := s.dev.out ++ [.tripMsg [0, 1] s.dev.ringPos g true s.dev.tripSeq (s.dev.region g).bcastCell
          (s.dev.region g).bcastCause (s.dev.region g).bcastTime],
        tripSeq := (s.dev.tripSeq + 1) % 65536 }) ∧
    ((s.dev.bcastBit g = false ∨ s.dev.straitUp g = false) → NoEffect (.tripMessageRepeat g) s)) ∧
  (∀ (l : Link) (m : TripMsg) (s : State), m.pos.val = s.dev.ringPos → NoEffect (.tripMessageReceive l m) s) ∧
  (∀ (l : Link) (m : TripMsg) (s : State), m.pos.val ≠ s.dev.ringPos →
    Does (.tripMessageReceive l m) s [.regions, .mirror, .mirrorStale, .fwdMem, .evq, .out] fun t =>
      (∀ j, j < 64 → Bits.nbit t.mirror j = if j = 8 * m.pos.val + m.region.val then m.bit else Bits.nbit s.dev.mirror j) ∧
      Bits.nbit t.mirrorStale (8 * m.pos.val + m.region.val) = false ∧
      (Bits.nbit s.dev.mirror (8 * m.pos.val + m.region.val) = m.bit → t.evq = s.dev.evq) ∧
      (Bits.nbit s.dev.mirror (8 * m.pos.val + m.region.val) ≠ m.bit →
        ∃ e : Event, t.evq = s.dev.evq ++ [e] ∧ e.code = 0x0C0) ∧
      ((s.dev.fwdMem.filter (fun (p : Nat × Nat) => p.1 == m.pos.val)).length < 64 →
        (s.dev.fwdMem.contains (m.pos.val, m.seq.toNat) = true → t.out = s.dev.out ∧ t.fwdMem = s.dev.fwdMem) ∧
        (s.dev.fwdMem.contains (m.pos.val, m.seq.toNat) = false →
          t.fwdMem = s.dev.fwdMem ++ [(m.pos.val, m.seq.toNat)] ∧
          t.out = s.dev.out ++ [.tripMsg [if l = .a then 1 else 0] m.pos m.region m.bit m.seq.toNat m.cell m.cause.toNat
            m.time.toNat]))) ∧
  (∀ (pos r : Fin 8) (s : State), Does (.mirrorStale pos r) s [.mirrorStale] fun t =>
    ∀ j, j < 64 → Bits.nbit t.mirrorStale j =
      (Bits.nbit s.dev.mirrorStale j || (decide (j = 8 * pos.val + r.val) && Bits.nbit s.dev.mirror j))) ∧
  (∀ (pos : Fin 8) (q : BitVec 16) (s : State), Does (.forwardMemoryExpiry pos q) s [.fwdMem] fun t =>
    ∀ p, p ∈ t.fwdMem ↔ p ∈ s.dev.fwdMem ∧ p ≠ (pos.val, q.toNat)) ∧
  (∀ (g : RegionIx) (v : Word) (s : State), Does (.linkTripClear g v) s [.regions, .regs, .mirror, .mirrorStale] fun t =>
    t.reg (RegMap.linkTrip g) = v &&& 0xFFFFFF ∧ (∀ o, o ≠ RegMap.linkTrip g → t.reg o = s.dev.reg o) ∧
    ∀ j, j < 64 →
      Bits.nbit t.mirror j = (Bits.nbit s.dev.mirror j && !(v.getLsbD 24 && v.getLsbD (8 + j / 8) && v.getLsbD (16 + j % 8))) ∧
      Bits.nbit t.mirrorStale j =
        (Bits.nbit s.dev.mirrorStale j && !(v.getLsbD 24 && v.getLsbD (8 + j / 8) && v.getLsbD (16 + j % 8))))

/-- R25, R77, R109, R111: a request that arrives is pending in its group; a withdrawal takes it away; a release, or the return
of an unused grant, frees its reservation; without the message nothing changes. -/
def Rules.SluiceMessages : Prop :=
  (∀ (c : CellIx) (s : State) (r : GrantReq) (pre post : List SlMsg), s.dev.slMsgs = pre ++ .request r :: post →
    r.cell = c → (∀ m ∈ pre, SlMsg.isRequest c m = false) →
    Becomes (.grantRequest c) s { s.dev with
      slMsgs := pre ++ post,
      sluice := { s.dev.sluice with pend := s.dev.sluice.pend.filter (fun (q : GrantReq) => q.cell != c.val) ++ [r] } }) ∧
  (∀ (c : CellIx) (s : State) (pre post : List SlMsg), s.dev.slMsgs = pre ++ .withdraw c :: post →
    (∀ m ∈ pre, SlMsg.isWithdraw c m = false) →
    Becomes (.grantWithdraw c) s { s.dev with
      slMsgs := pre ++ post,
      sluice := { s.dev.sluice with pend := s.dev.sluice.pend.filter (fun (q : GrantReq) => q.cell != c.val) } }) ∧
  (∀ (c : CellIx) (s : State) (pre post : List SlMsg), (∀ m ∈ pre, SlMsg.isRelease c m = false) →
    (s.dev.slMsgs = pre ++ .release c :: post →
      Becomes (.reservationRelease c) s { s.dev with
        slMsgs := pre ++ post,
        sluice := { s.dev.sluice with held := s.dev.sluice.held.filter (fun (r : Reservation) => r.cell != c.val) } }) ∧
    (∀ q, s.dev.slMsgs = pre ++ .giveBack c q :: post →
      Becomes (.reservationRelease c) s { s.dev with
        slMsgs := pre ++ post,
        sluice := { s.dev.sluice with
          held := s.dev.sluice.held.filter (fun (r : Reservation) => r.cell != c.val || r.seq != q) } })) ∧
  (∀ (c : CellIx) (s : State),
    ((∀ m ∈ s.dev.slMsgs, SlMsg.isRequest c m = false) → NoEffect (.grantRequest c) s) ∧
    ((∀ m ∈ s.dev.slMsgs, SlMsg.isWithdraw c m = false) → NoEffect (.grantWithdraw c) s) ∧
    ((∀ m ∈ s.dev.slMsgs, SlMsg.isRelease c m = false) → NoEffect (.reservationRelease c) s))

/-- R49, R86, R111: a grant takes a cell that still waits for it to INRUSH, its reservation held; any other cell returns it
unused; a repeat of the grant the cell has applied is dropped. -/
def Rules.GrantReceive : Prop :=
  ∀ (c : CellIx) (s : State) (a : Grant) (pre post : List Grant), s.dev.grants = pre ++ a :: post → a.cell = c →
    (∀ b ∈ pre, b.cell ≠ c.val) →
    ((s.dev.cell c).lastGrant = some a.seq → Becomes (.grantReceive c) s { s.dev with grants := pre ++ post }) ∧
    ((s.dev.cell c).lastGrant ≠ some a.seq → (s.dev.cell c).state ≠ .waitGrant → s.dev.auto (c / 64) = false →
      Becomes (.grantReceive c) s { s.dev with
        grants := pre ++ post, slMsgs := s.dev.slMsgs ++ [.giveBack c a.seq] }) ∧
    ((s.dev.cell c).lastGrant ≠ some a.seq → (s.dev.cell c).state = .waitGrant → s.dev.levelMask c = 0 →
      (s.dev.profMine c).length = 0 →
      Does (.grantReceive c) s (.grants :: Parts.cell) fun t => Only Dev.cell c s.dev t ∧ t.grants = pre ++ post ∧
        (t.cell c).state = .inrush ∧ (t.cell c).reserved = true ∧ (t.cell c).lastGrant = some a.seq ∧
        (t.cell c).inrushUs = s.dev.pf c 0x14 0 16 * 1000 ∧ t.slMsgs = s.dev.slMsgs ∧
        (t.cell c).gate = if s.dev.driveAvail c = true ∧ (s.dev.cell c).pumpReady = true then .source (s.dev.pf c 0 4 4)
          else .controlled)

/-- R110: a grant round grants only requests that are pending and not frozen, holds a reservation for each, exceeds the budget
of a group only for one request that runs alone, and never holds more reservations than MAX_GRANTS allows; the request that
stands first in a group that holds nothing is granted. -/
def Rules.GrantRound : Prop :=
  (∀ (s : State), Does .grantRound s [.sluice, .grants] fun t =>
    (∀ n, n < 16 →
      (t.sluice.reserved n ≤ max (s.dev.groupCfg n).budget (s.dev.sluice.reserved n) ∨
        (s.dev.groupCfg n).budget = 0xFFFFFF ∨
        (s.dev.sluice.reserved n = 0 ∧ ∃ r ∈ s.dev.sluice.pend, r.group = n ∧ t.sluice.reserved n = r.ma)) ∧
      ((s.dev.groupCfg n).maxGrants ≠ 0 →
        t.sluice.active n ≤ max (s.dev.groupCfg n).maxGrants (s.dev.sluice.active n))) ∧
    (∀ a ∈ t.grants, a ∈ s.dev.grants ∨
      ((∃ r ∈ s.dev.sluice.pend, r.cell = a.cell ∧ r.ma = a.ma ∧ r.group = a.group ∧ r.frozen = false) ∧
        ∃ h ∈ t.sluice.held, h.cell = a.cell ∧ h.ma = a.ma ∧ h.group = a.group ∧ h.seq = a.seq)) ∧
    (∀ h ∈ s.dev.sluice.held, h ∈ t.sluice.held)) ∧
  (∀ (s : State) (n : Nat) (r : GrantReq), n < 16 → r ∈ s.dev.sluice.pend → r.group = n → r.frozen = false →
    (s.dev.sluice.pend.map GrantReq.cell).Nodup →
    (∀ q ∈ s.dev.sluice.pend, q.group = n → q.frozen = false → q = r ∨ r.before q = true) →
    s.dev.sluice.reserved n = 0 →
    ((s.dev.groupCfg n).maxGrants = 0 ∨ s.dev.sluice.active n < (s.dev.groupCfg n).maxGrants) →
    Does .grantRound s [.sluice, .grants] fun t => ∃ a ∈ t.grants, a.cell = r.cell ∧ a.ma = r.ma ∧ a.group = n)

/-- `Rules.RuleEvaluation` and `Rules.RetryRelease` together. -/
def Obligations.TripRuleSets : Prop := Rules.RuleEvaluation ∧ Rules.RetryRelease

/-- `Rules.TripLines` and `Rules.TripBroadcast` together. -/
def Obligations.TripLinesAndBroadcast : Prop := Rules.TripLines ∧ Rules.TripBroadcast

/-- `Rules.SluiceMessages`, `Rules.GrantReceive` and `Rules.GrantRound` together. -/
def Obligations.SluiceArbitration : Prop := Rules.SluiceMessages ∧ Rules.GrantReceive ∧ Rules.GrantRound

/-! ### Window monitors and comparators (05) -/

/-- R113, R116 to R118: a crossing moves the raw output of a comparator that is not off, and leaves it inside the hysteresis
band; an off comparator only notes the level; a settled mode takes effect, and a comparator that leaves off starts inactive
inside its band, with BAND_INIT set. -/
def Rules.ComparatorCrossing : Prop :=
  (∀ (x : CmpSel) (l : CmpLevel) (s : State),
    ((s.dev.cmp x).mode ≠ .off → Becomes (.comparatorCrossing x l) s (s.dev.setCmp x { s.dev.cmp x with
      level := l
      raw := (match l with | .above => !x.activeLow | .below => x.activeLow | .inside => (s.dev.cmp x).raw)
      bandInit := (s.dev.cmp x).bandInit && decide (l = .inside) })) ∧
    ((s.dev.cmp x).mode = .off → Becomes (.comparatorCrossing x l) s (s.dev.setCmp x { s.dev.cmp x with level := l }))) ∧
  (∀ (x : CmpSel) (s : State) (m : CmpMode),
    ((s.dev.cmp x).pendingMode = none → NoEffect (.modeSettled x) s) ∧
    ((s.dev.cmp x).pendingMode = some m → (s.dev.cmp x).mode ≠ .off →
      Becomes (.modeSettled x) s (s.dev.setCmp x { s.dev.cmp x with mode := m, pendingMode := none })) ∧
    ((s.dev.cmp x).pendingMode = some m → (s.dev.cmp x).mode = .off → (s.dev.cmp x).level = .inside →
      Becomes (.modeSettled x) s (s.dev.setCmp x { s.dev.cmp x with
        mode := m, pendingMode := none, raw := false, bandInit := true })) ∧
    ((s.dev.cmp x).pendingMode = some m → (s.dev.cmp x).mode = .off → (s.dev.cmp x).level = .above →
      Becomes (.modeSettled x) s (s.dev.setCmp x { s.dev.cmp x with
        mode := m, pendingMode := none, raw := !x.activeLow, bandInit := false })))

/-- The majority output of R120: at least `k` of the newest `n` raw samples are active. -/
def Majority (x : Cmp) (k n : Nat) (out : Bool) : Prop :=
  out = if x.mode = .off then x.out else decide (k ≤ (((x.raw :: x.hist).take n).filter id).length)

/-- R86, R119, R120, R130: a filter sample sets the outputs of the cell's three comparators to the majority of their newest
samples, and an output beyond its window trips an armed cell; the sample of VIN does the same for its two, and trips the
block's cells; while a self-test of the group runs every value holds. -/
def Rules.FilterSample : Prop :=
  (∀ (c : CellIx) (s : State), (s.dev.cell c).selftestRun = false →
    Does (.comparatorFilterSample (.cell c)) s (Parts.cell ++ [.barges]) fun t =>
      let k := max 1 (s.dev.pf c 0x50 16 4)
      let n := max 1 (s.dev.pf c 0x50 20 4)
      Majority (s.dev.cell c).ilo k n (t.cell c).ilo.out ∧ Majority (s.dev.cell c).ihi k n (t.cell c).ihi.out ∧
      Majority (s.dev.cell c).isc k n (t.cell c).isc.out ∧ (t.cell c).win.sampled = true ∧
      (s.dev.auto (c / 64) = false → Only Dev.cell c s.dev t ∧
        ((t.cell c).ihi.out = true → s.dev.checkArmed c 8 = true → (t.cell c).state = .tripped) ∧
        ((t.cell c).ilo.out = true → s.dev.checkArmed c 3 = true → (t.cell c).state = .tripped) ∧
        ((t.cell c).ihi.out = false → (t.cell c).ilo.out = false → (t.cell c).state = (s.dev.cell c).state))) ∧
  (∀ (b : BlockIx) (s : State), (s.dev.block b).vtestRun = false →
    Does (.comparatorFilterSample (.vin b)) s (Parts.cell ++ [.barges]) fun t =>
      let n := max 1 (s.dev.rf (RegMap.vinFilt b) 4 4)
      let k := min n (max 1 (s.dev.rf (RegMap.vinFilt b) 0 4))
      Majority (s.dev.block b).vlo k n (t.block b).vlo.out ∧ Majority (s.dev.block b).vhi k n (t.block b).vhi.out ∧
      (t.block b).vwin.sampled = true ∧
      (s.dev.auto (b / 8) = false → ∀ c, (c / 8 ≠ b.val → t.cell c = s.dev.cell c) ∧
        (c / 8 = b.val → ((t.block b).vlo.out = true ∨ (t.block b).vhi.out = true) → s.dev.checkArmed c 10 = true →
          (t.cell c).state = .tripped))) ∧
  (∀ (s : State),
    (∀ c : CellIx, (s.dev.cell c).selftestRun = true → NoEffect (.comparatorFilterSample (.cell c)) s) ∧
    (∀ b : BlockIx, (s.dev.block b).vtestRun = true → NoEffect (.comparatorFilterSample (.vin b)) s))

/-- R125, R128 and Table 5-8: a read of the edge queue takes its oldest record, and reads zeros of an empty queue; the end of
the 100 us raises the coalesced changes as one window event, or none when nothing changed. -/
def Rules.EdgesAndWindows : Prop :=
  (∀ (b : BlockIx) (s : State),
    ((s.dev.block b).edges = [] → Becomes (.edgeDataRead b) s { s.dev with out := s.dev.out ++ [.readData [0, 0, 0, 0]] }) ∧
    (∀ e l, (s.dev.block b).edges = e :: l → Becomes (.edgeDataRead b) s
      { s.dev.setBlock b { s.dev.block b with edges := l } with out := s.dev.out ++ [.readData e.words] })) ∧
  (∀ (x : CmpGroup) (s : State), (s.dev.winEv x).changes = 0 →
    Becomes (.evWindowHoldoffExpiry x) s (s.dev.setWinEv x { s.dev.winEv x with holdoff := false })) ∧
  (∀ (x : CmpGroup) (s : State), (s.dev.winEv x).changes ≠ 0 → s.dev.auto (x.block / 8) = false →
    Does (.evWindowHoldoffExpiry x) s [.cells, .blocks, .regions, .evq] fun t =>
      t.winEv x = { s.dev.winEv x with changes := 0, holdoff := true } ∧ t.winPos x = s.dev.winPos x ∧
      ∃ e : Event, t.evq = s.dev.evq ++ [e] ∧
        e.payload = Bits.words2 (s.dev.winEv x).last ++
          [BitVec.ofNat 32 (s.dev.winPos x + (s.dev.winEv x).changes % 256 * 256)] ∧
        e.code = match x with | .cell _ => 0x019 | .vin _ => 0x01A)

/-- R129, R130: a self-test that passes ends, and lets a precheck whose checks have passed go on to the sluice; one that fails
sets SELFTEST_FAIL, takes every gate of the block off its source, and raises CMP_SELFTEST_FAIL; the end of a test that does
not run has no effect. -/
def Rules.SelfTest : Prop :=
  (∀ (c : CellIx) (pass : Bool) (s : State), (s.dev.cell c).selftestRun = false →
    NoEffect (.comparatorSelftestEnd (.cell c) pass) s) ∧
  (∀ (b : BlockIx) (s : State), (s.dev.block b).vtestRun = true →
    Becomes (.comparatorSelftestEnd (.vin b) true) s (s.dev.setBlock b { s.dev.block b with
      vtestRun := false, vtestAt := some (s.dev.rtime (b / 8)) })) ∧
  (∀ (c : CellIx) (s : State), (s.dev.cell c).selftestRun = true →
    Does (.comparatorSelftestEnd (.cell c) true) s Parts.cell fun t => Only Dev.cell c s.dev t ∧
      (t.cell c).selftestRun = false ∧ (t.cell c).selftestFail = (s.dev.cell c).selftestFail ∧
      (((s.dev.cell c).state = .precheck ∧ (s.dev.cell c).pcVin = true ∧ (s.dev.cell c).pcShort = true ∧
          s.dev.auto (c / 64) = false → (t.cell c).state = .waitGrant)) ∧
      ((s.dev.cell c).state ≠ .precheck → (t.cell c).state = (s.dev.cell c).state)) ∧
  (∀ (x : CmpGroup) (s : State),
    (match x with | .cell c => (s.dev.cell c).selftestRun = true | .vin b => (s.dev.block b).vtestRun = true) →
    Does (.comparatorSelftestEnd x false) s Parts.fault fun t =>
      (match x with
        | .cell c => (t.cell c).selftestFail = true ∧ (t.cell c).selftestRun = false
        | .vin b => (t.block b).vtestFail = true) ∧
      (t.coll (x.block / 8)).latched.getLsbD (8 * (x.block % 8) + 1) = true ∧
      ∀ l, l < 8 → (t.cell (8 * x.block + l)).gate =
        if (s.dev.cell (8 * x.block + l)).gate = .strong then .strong else .controlled)

/-- `Rules.ComparatorCrossing` and `Rules.FilterSample` together. -/
def Obligations.WindowComparators : Prop := Rules.ComparatorCrossing ∧ Rules.FilterSample

/-- `Rules.EdgesAndWindows` and `Rules.SelfTest` together. -/
def Obligations.EdgesAndSelfTest : Prop := Rules.EdgesAndWindows ∧ Rules.SelfTest

/-! ### Conversion paths, metering and calibration (06, 07) -/

/-- R135 to R142, R162: at a decimation boundary with no pending values, a lane whose settle count is 0 gives the cell its
sample and adds the energy of the interval to the counter of its sign, exactly; any other lane leaves the latest sample; a
stopped lane adds nothing; the frame carries the number of its boundary and goes to the strait while it is up. -/
def Rules.DecimationBoundary : Prop :=
  ∀ (b : BlockIx) (x : BlockInputs) (s : State), s.dev.regsPend = [] →
    Does (.decimationBoundary b x) s (Parts.cell ++ [.regs, .regsPend]) fun t =>
      (t.conv b).seq = ((s.dev.conv b).seq + 1) % 2 ^ 32 ∧ (t.conv b).trip = 0 ∧
      (s.dev.straitUp (b / 8) = false → (t.conv b).frames = (s.dev.conv b).frames) ∧
      (s.dev.straitUp (b / 8) = true → ∃ f : Frame, (t.conv b).frames = (s.dev.conv b).frames ++ [f] ∧
        f.seq = (s.dev.conv b).seq ∧ f.block = b.val ∧ f.time = s.dev.rtime (b / 8) / 4 * 4 ∧
        f.trip = (s.dev.conv b).trip) ∧
      ∀ l, l < 8 →
        let c := 8 * b.val + l
        let i := (Conv.iCode (s.dev.correctedI c (x.i.getD l 0).toInt)).1
        let v := (Conv.vCode (s.dev.correctedV c (x.v.getD l 0).toInt)).1
        ((s.dev.lane c).settle ≠ 0 ∨ (s.dev.lane c).stopped = true →
          (t.cell c).iSmp = (s.dev.cell c).iSmp ∧ (t.cell c).outMv = (s.dev.cell c).outMv) ∧
        ((s.dev.lane c).stopped = true →
          (t.lane c).eFwd = (s.dev.lane c).eFwd ∧ (t.lane c).eRev = (s.dev.lane c).eRev) ∧
        ((s.dev.lane c).settle = 0 → (s.dev.lane c).stopped = false →
          (t.cell c).iSmp = i ∧ (t.cell c).outMv = v ∧
          ∀ p, (s.dev.lane c).eTime = some p →
            let e : Int := (v : Int) * s.dev.codeUa c i * ((s.dev.rtime (b / 8) / 4 * 4 - p : Nat) : Int)
            ((t.lane c).eFwd * 10 ^ 12 + (t.lane c).accFwd) % (2 ^ 64 * 10 ^ 12) =
              ((s.dev.lane c).eFwd * 10 ^ 12 + (s.dev.lane c).accFwd + e.toNat) % (2 ^ 64 * 10 ^ 12) ∧
            ((t.lane c).eRev * 10 ^ 12 + (t.lane c).accRev) % (2 ^ 64 * 10 ^ 12) =
              ((s.dev.lane c).eRev * 10 ^ 12 + (s.dev.lane c).accRev + (-e).toNat) % (2 ^ 64 * 10 ^ 12))

/-- R146, R150, R161: the end of a running window writes its record: the replica time, the next WIN_SEQ, the clocks counted,
and the value of R146 corrected by R161; the next window starts; an end of a window that does not run has no effect. -/
def Rules.WindowEnd : Prop :=
  (∀ (c : CellIx) (i v m : BitVec 25) (s : State), (s.dev.lane c).win.running = true → 0 < m.toNat →
    Does (.windowEnd (.cell c) i v m) s [.lanes, .regs, .regsPend, .telq] fun t => Only Dev.lane c s.dev t ∧
      (t.lane c).rcd.endTime = s.dev.rtime (c / 64) ∧ (t.lane c).rcd.winSeq = ((s.dev.lane c).rcd.winSeq + 1) % 2 ^ 32 ∧
      (t.lane c).rcd.clocks = m.toNat ∧ (t.lane c).rcd.aborted = false ∧
      (t.lane c).rcd.iVal = (s.dev.correctedI c (max (-8388607) (min 8388607
        (((2 * i.toNat : Int) - m.toNat) * 8388608 |>.tdiv m.toNat)))).1 ∧
      (t.lane c).rcd.vVal = s.dev.correctedV c (max (-8388607) (min 8388607
        (((2 * v.toNat : Int) - m.toNat) * 8388608 |>.tdiv m.toNat))) ∧
      (t.lane c).win.start = s.dev.rtime (c / 64)) ∧
  (∀ (b : BlockIx) (i v m : BitVec 25) (s : State), (s.dev.conv b).vinWin.running = true → 0 < m.toNat →
    Does (.windowEnd (.vin b) i v m) s [.convs, .regs, .regsPend] fun t => Only Dev.conv b s.dev t ∧
      (t.conv b).vinRec.endTime = s.dev.rtime (b / 8) ∧
      (t.conv b).vinRec.winSeq = ((s.dev.conv b).vinRec.winSeq + 1) % 2 ^ 32 ∧
      (t.conv b).vinRec.aborted = false ∧ (t.conv b).vinRec.iVal = 0 ∧
      (t.conv b).vinRec.vVal = s.dev.correctedVin b (max (-8388607) (min 8388607
        (((2 * v.toNat : Int) - m.toNat) * 8388608 |>.tdiv m.toNat)))) ∧
  (∀ (c : CellIx) (i v m : BitVec 25) (s : State), (s.dev.lane c).win.running = false →
    NoEffect (.windowEnd (.cell c) i v m) s)

/-- R151, R152: a stopped lane restarts for a probe pulse and waits for the reset of its filters; with GATING at 2 it stops
again in OFF and PROBE, its window aborted; without gating it goes on. -/
def Rules.LaneGating : Prop :=
  (∀ (c : CellIx) (s : State),
    ((s.dev.lane c).stopped = false → NoEffect (.laneRestart c) s) ∧
    ((s.dev.lane c).stopped = true → Does (.laneRestart c) s [.lanes] fun t => Only Dev.lane c s.dev t ∧
      (t.lane c).forPulse = true ∧ (t.lane c).resetPend = true ∧ (t.lane c).eFwd = (s.dev.lane c).eFwd)) ∧
  (∀ (c : CellIx) (m : BitVec 25) (s : State),
    (s.dev.rf (RegMap.convCfg (c / 8)) 2 2 = 0 →
      Becomes (.laneStop c m) s (s.dev.setLane c { s.dev.lane c with forPulse := false })) ∧
    (s.dev.rf (RegMap.convCfg (c / 8)) 2 2 = 2 → ((s.dev.cell c).state = .off ∨ (s.dev.cell c).state = .probe) →
      (s.dev.lane c).stopped = false → Does (.laneStop c m) s [.lanes] fun t => Only Dev.lane c s.dev t ∧
        (t.lane c).stopped = true ∧ (t.lane c).settle = 3 ∧ (t.lane c).win.running = false ∧
        ((s.dev.lane c).win.running = true → (t.lane c).rcd.aborted = true ∧ (t.lane c).rcd.clocks = m.toNat ∧
          (t.lane c).rcd.iVal = 0 ∧ (t.lane c).rcd.vVal = 0)))

/-- R80, R82, R86, R88: an SOA tick moves each thermal pole of the eight cells toward its target, exactly; the reference of the
regulation amplifier never exceeds the SOA limit or the analog limit; and a cell in INRUSH, ON or LIMIT whose junction
estimate is at p_tj_trip or above trips, while no other changes its state. -/
def Rules.SoaTick : Prop :=
  ∀ (b : BlockIx) (hr : BitVec 8) (s : State) (l : Nat), l < 8 →
    let c := 8 * b.val + l
    let iMa := max 0 (((s.dev.cell c).iSmp * s.dev.fsUv c * 1000).tdiv (32768 * (s.dev.pword c 1).toNat))
    let p := min 16777215 (((s.dev.block (c / 8)).vinMv - (s.dev.cell c).outMv) * iMa.toNat / 1000)
    let pole := fun (th n : Nat) =>
      ((th : Int) + (((p * (s.dev.pword c (31 + n)).toNat : Nat) - (th : Int)) * (s.dev.pword c (27 + n)).toNat + 2 ^ 31) /
        2 ^ 32).toNat
    Does (.soaTick b hr) s Parts.cell fun t =>
      (t.cell c).theta0 = pole (s.dev.cell c).theta0 0 ∧ (t.cell c).theta1 = pole (s.dev.cell c).theta1 1 ∧
      (t.cell c).theta2 = pole (s.dev.cell c).theta2 2 ∧ (t.cell c).theta3 = pole (s.dev.cell c).theta3 3 ∧
      (t.cell c).headroomOk = hr.getLsbD l ∧
      (∀ ma, ((t.cell c).iSoa = some ma ∨ (t.cell c).iAlim = some ma) →
        (t.cell c).refCode * (s.dev.fsUv c * 1000) ≤ ma * (s.dev.pword c 1).toNat * 2048) ∧
      (s.dev.auto (b / 8) = false →
        (∀ d, d / 8 ≠ b.val → t.cell d = s.dev.cell d) ∧
        (Bits.sext 16 (s.dev.pf c 0x60 16 16) ≤ (t.cell c).tjEst → (s.dev.cell c).state.armed = true →
          (t.cell c).state = .tripped) ∧
        ((t.cell c).tjEst < Bits.sext 16 (s.dev.pf c 0x60 16 16) ∨ (s.dev.cell c).state.armed = false →
          (t.cell c).state = (s.dev.cell c).state))

/-- R153, R154, R156: an urgent request takes the converter at once, waits in the queue of one behind a running urgent
conversion, or is dropped and counted; a mask write clears VALID of the inputs it removes; and the end of a conversion stores
its result with its URGENT and RANGE_ERR marks. -/
def Rules.Auxiliary : Prop :=
  (∀ (g : RegionIx) (v : Word) (s : State),
    (24 ≤ Bits.fld v 0 5 → NoEffect (.auxUrgentWrite g v) s) ∧
    (Bits.fld v 0 5 < 24 → s.dev.rb (RegMap.auxCfg g) 2 = true →
      ((s.dev.aux g).inUrgent = false → Becomes (.auxUrgentWrite g v) s (s.dev.setAux g { s.dev.aux g with
        current := some (Bits.fld v 0 5), inUrgent := true
        resume := if (s.dev.aux g).current = none then (s.dev.aux g).resume else (s.dev.aux g).current })) ∧
      ((s.dev.aux g).inUrgent = true → (s.dev.aux g).queued = none →
        Becomes (.auxUrgentWrite g v) s (s.dev.setAux g { s.dev.aux g with queued := some (Bits.fld v 0 5) })) ∧
      ((s.dev.aux g).inUrgent = true → (s.dev.aux g).queued ≠ none →
        Becomes (.auxUrgentWrite g v) s (s.dev.setAux g { s.dev.aux g with
          overrun := true, overruns := min 255 ((s.dev.aux g).overruns + 1) })))) ∧
  (∀ (g : RegionIx) (v : Word) (s : State), Does (.auxMaskWrite g v) s [.auxs, .regs] fun t =>
    Only Dev.aux g s.dev t ∧ t.reg (RegMap.auxMask g) = v &&& 0x00FFFFFF ∧
    (∀ o, o ≠ RegMap.auxMask g → t.reg o = s.dev.reg o) ∧
    ∀ a, a < 24 → ((t.aux g).result a).value = ((s.dev.aux g).result a).value ∧
      ((t.aux g).result a).valid = (v.getLsbD a && ((s.dev.aux g).result a).valid)) ∧
  (∀ (g : RegionIx) (x : Word) (vin : Option VinSpan) (s : State),
    ((s.dev.aux g).current = none → NoEffect (.auxConversionEnd g x vin) s) ∧
    (∀ a, (s.dev.aux g).current = some a → Does (.auxConversionEnd g x vin) s (Parts.fault ++ [.auxs]) fun t =>
      Only Dev.aux g s.dev t ∧
      ((t.aux g).result a).value = Bits.ofInt 16 (s.dev.auxValue g a x.toInt).1 ∧
      ((t.aux g).result a).urgent = (s.dev.aux g).inUrgent ∧
      ((t.aux g).result a).rangeErr = !(s.dev.auxValue g a x.toInt).2 ∧
      (t.aux g).urgentDone = ((s.dev.aux g).urgentDone || (s.dev.aux g).inUrgent) ∧
      ∀ b, b ≠ a → (t.aux g).result b = (s.dev.aux g).result b))

/-- R169, R176, R177: the trend log keeps the newest 64 entries and gets none while the region is autonomous; the calibration
load takes the words of the newer slot, or raises CAL_CRC without a slot, and is done once. -/
def Rules.TrendAndCalibration : Prop :=
  (∀ (c : CellIx) (s : State),
    ((s.dev.lane c).rPath = none ∨ s.dev.auto (c / 64) = true → NoEffect (.trendLogAppend c) s) ∧
    (∀ r, (s.dev.lane c).rPath = some r → s.dev.auto (c / 64) = false →
      Becomes (.trendLogAppend c) s (s.dev.setLane c { s.dev.lane c with
        trend := (if (s.dev.lane c).trend.length < 64 then (s.dev.lane c).trend else (s.dev.lane c).trend.drop 1) ++
          [{ time := (s.dev.lane c).spanEnd, rUohm := r, tj := Bits.ofInt 16 (s.dev.cell c).tjEst
             mean10mA := min 65535 ((s.dev.lane c).meanUa.toNat / 10000) }] }))) ∧
  (∀ (g : RegionIx) (s : State),
    ((s.dev.region g).islandUp = false ∨ (s.dev.region g).islandCal = true → NoEffect (.calLoad g) s) ∧
    ((s.dev.region g).islandUp = true → (s.dev.region g).islandCal = false → s.dev.calNewest g = none →
      Does (.calLoad g) s Parts.fault fun t => (t.region g).islandCal = true ∧
        (t.coll g).latched.getLsbD 70 = true) ∧
    (∀ p, (s.dev.region g).islandUp = true → (s.dev.region g).islandCal = false → s.dev.calNewest g = some p →
      (p.2.words.map Prod.fst).Nodup →
      Does (.calLoad g) s [.regions, .regs] fun t => (t.region g).islandCal = true ∧ Only Dev.region g s.dev t ∧
        (∀ w ∈ p.2.words, t.reg w.1 = w.2) ∧ ∀ o, o ∉ p.2.words.map Prod.fst → t.reg o = s.dev.reg o))

/-- `Rules.DecimationBoundary` and `Rules.WindowEnd` together. -/
def Obligations.FramesAndWindows : Prop := Rules.DecimationBoundary ∧ Rules.WindowEnd

/-- `Rules.LaneGating` and `Rules.SoaTick` together. -/
def Obligations.LanesAndSoa : Prop := Rules.LaneGating ∧ Rules.SoaTick

/-- `Rules.Auxiliary` and `Rules.TrendAndCalibration` together. -/
def Obligations.AuxiliaryTrendCalibration : Prop := Rules.Auxiliary ∧ Rules.TrendAndCalibration

/-! ### Timebase, cabinet links and locks (08) -/

/-- R178, R179, R183, R184: with no command waiting, the timebase ticks: its accumulator and its time advance together by
exactly the nominal rate, the trim and the slew; the tick on an empty queue is the model's choice (log 4). A read of the low
half latches the upper; TB_RATE and TB_ADJ act while SRC is 0 and are refused otherwise; an adjustment of 1 ms or more steps
the timebase and leaves every replica where it was. -/
def Obligations.TimebaseCount : Prop :=
  (∀ s : State, s.pending = [] → s.dev.tb.running = true → s.dev.tb.frac < 2 ^ 32 →
    s.dev.tb.rate.natAbs ≤ 2147484 → s.dev.tbTime + 8 < 2 ^ 64 →
    ∃ t, step s = .next t ∧ t.pending = [] ∧ t.dev.ticks = s.dev.ticks + 1 ∧ t.dev.tb.frac < 2 ^ 32 ∧
      s.dev.tbTime ≤ t.dev.tbTime ∧
      (((t.dev.tbTime - s.dev.tbTime) / 4 * 2 ^ 32 + t.dev.tb.frac : Nat) : Int) =
        2 ^ 32 + (s.dev.tb.frac : Int) + s.dev.tb.rate + (s.dev.tb.slew - t.dev.tb.slew)) ∧
  (∀ s : State, Becomes .tbTimeRead s { s.dev with
    tb := { s.dev.tb with latch := BitVec.ofNat 32 (s.dev.tbTime >>> 32) },
    out := s.dev.out ++ [.readData [BitVec.ofNat 32 (s.dev.tbTime / 4 * 4)]] }) ∧
  (∀ (v : Word) (s : State), s.dev.tbSrc ≠ 0 →
    Becomes (.tbRateWrite v) s { s.dev with tb := { s.dev.tb with adjRefused := true } } ∧
    Becomes (.tbAdj v) s { s.dev with tb := { s.dev.tb with adjRefused := true } }) ∧
  (∀ (v : Word) (s : State), s.dev.tbSrc = 0 →
    Does (.tbRateWrite v) s [.tb] (fun t => t.tb.rate = max (-2147484) (min 2147484 v.toInt) ∧
      t.tb.free = t.tb.rate ∧ t.tb.state = s.dev.tb.state) ∧
    (v.toInt < 1000000 → Becomes (.tbAdj v) s { s.dev with
      tb := { s.dev.tb with slew := s.dev.tb.slew + v.toInt * 2 ^ 30 } }) ∧
    (1000000 ≤ v.toInt → Does (.tbAdj v) s [.tbTime, .tb, .replicas, .lk, .regions] fun t =>
      t.tbTime = (s.dev.tbTime + v.toNat) % 2 ^ 64 ∧ t.tb.stepSeen = true ∧
      ∀ g, g < 8 → t.rtime g = s.dev.rtime g ∧ (t.replica g).stepPend = (s.dev.replica g).stepPend + v.toNat)) ∧
  (∀ s : State,
    (s.dev.rb RegMap.tbDiscCfg 6 = true → Becomes .syncOutPps s { s.dev with
      tb := { s.dev.tb with syncOut := true }, out := s.dev.out ++ [.syncPulse 1000] }) ∧
    (s.dev.rb RegMap.tbDiscCfg 6 = false → NoEffect .syncOutPps s) ∧
    Becomes .syncPulseEnd s { s.dev with tb := { s.dev.tb with syncOut := false } })

/-- R181 to R183: four missed measurements lead to HOLDOVER on the held rate, ten seconds of it to ALT_SRC; a new source starts
in ACQUIRE; 8 measurements below LOCK_NS lock, 4 above four times LOCK_NS unlock, and a measurement ends HOLDOVER; a source
that is neither active nor SRC is ignored; a source more than 1 ms ahead steps the timebase forward in ACQUIRE. -/
def Rules.TimebaseDiscipline : Prop :=
  (∀ s : State,
    ((s.dev.tb.state = .acquire ∨ s.dev.tb.state = .locked) → Does .tbHoldover s [.tb, .evq] fun t =>
      t.tb.state = .holdover ∧ t.tb.rate = s.dev.tb.rate ∧ t.tb.active = s.dev.tb.active ∧
      ∃ e : Event, t.evq = s.dev.evq ++ [e] ∧ e.code = 0x080) ∧
    ((s.dev.tb.state = .free ∨ s.dev.tb.state = .holdover) → NoEffect .tbHoldover s) ∧
    (s.dev.tb.state = .holdover → s.dev.tbAlt ≠ 0 → Does .altSourceSwitch s [.tb, .evq] fun t =>
      t.tb.state = .acquire ∧ t.tb.active = s.dev.tbAlt ∧ t.tb.rate = s.dev.tb.rate) ∧
    ((s.dev.tb.state ≠ .holdover ∨ s.dev.tbAlt = 0) → NoEffect .altSourceSwitch s)) ∧
  (∀ (v : Word) (s : State),
    (s.dev.rf RegMap.tbDiscCfg 0 6 = Bits.fld v 0 6 →
      Becomes (.tbSourceSelect v) s (s.dev.setReg RegMap.tbDiscCfg (v &&& 0xFFFFFF7F))) ∧
    (s.dev.rf RegMap.tbDiscCfg 0 6 ≠ Bits.fld v 0 6 → 1 ≤ Bits.fld v 0 3 → Bits.fld v 0 3 ≤ 5 →
      Does (.tbSourceSelect v) s [.tb, .regs, .evq] fun t => t.tb.state = .acquire ∧ t.tb.active = Bits.fld v 0 3 ∧
        t.reg RegMap.tbDiscCfg = v &&& 0xFFFFFF7F ∧ ∀ o, o ≠ RegMap.tbDiscCfg → t.reg o = s.dev.reg o) ∧
    (s.dev.rf RegMap.tbDiscCfg 0 6 ≠ Bits.fld v 0 6 → Bits.fld v 0 3 = 0 →
      Does (.tbSourceSelect v) s [.tb, .regs, .evq] fun t => t.tb.state = .free ∧ t.tb.active = 0 ∧
        t.tb.rate = s.dev.tb.free)) ∧
  (∀ (src : BitVec 3) (off : DWord) (s : State), 1 ≤ src.toNat → src.toNat ≤ 5 →
    (src.toNat = s.dev.tb.active → s.dev.tb.rate.natAbs ≤ 2147484 →
      Does (.disciplineMeasurement src off) s [.freeCount, .tbTime, .tb, .replicas, .lk, .regions, .evq] fun t =>
        t.tb.rate.natAbs ≤ 2147484 ∧ t.tb.offset = max (-4194303) (min 4194303 off.toInt) ∧
        (s.dev.tb.state = .holdover → t.tb.state = .acquire) ∧
        (s.dev.tb.state = .acquire → s.dev.tb.good = 7 → off.toInt.natAbs < s.dev.lockNs → t.tb.state = .locked) ∧
        (s.dev.tb.state = .locked → off.toInt.natAbs ≤ 4 * s.dev.lockNs → t.tb.state = .locked ∧ t.tb.bad = 0) ∧
        (s.dev.tb.state = .locked → s.dev.tb.bad = 3 → 4 * s.dev.lockNs < off.toInt.natAbs → t.tb.state = .acquire) ∧
        (s.dev.tb.state = .acquire → off.toInt < -1000000 → src ≠ 5 →
          t.tbTime = (s.dev.tbTime + (-off.toInt).toNat) % 2 ^ 64 ∧ ∀ g, g < 8 → t.rtime g = s.dev.rtime g) ∧
        ((s.dev.tb.state ≠ .acquire ∨ -1000000 ≤ off.toInt ∨ src = 5) → t.tbTime = s.dev.tbTime)) ∧
    (src.toNat ≠ s.dev.tb.active → src.toNat = s.dev.tbSrc → s.dev.tb.srcGood = 7 →
      Does (.disciplineMeasurement src off) s [.tb, .evq] fun t => t.tb.state = .acquire ∧ t.tb.active = src.toNat) ∧
    (src.toNat ≠ s.dev.tb.active → src.toNat ≠ s.dev.tbSrc → NoEffect (.disciplineMeasurement src off) s))

/-- R185 to R188: a discipline word crosses only a strait that is up to an island that runs; the first word of ACQUIRE sets the
replica to the timebase; 63 words only add their errors; the 64th locks a replica whose mean error is below 1 ns, and steps one
in HOLDOVER that is more than 2 us away; a step the word carries moves the replica forward. -/
def Rules.DisciplineWord : Prop :=
  ∀ (g : RegionIx) (err : Word) (s : State),
    ((s.dev.straitUp g = false ∨ (s.dev.region g).islandRun = false) → NoEffect (.disciplineWord g err) s) ∧
    (s.dev.straitUp g = true → (s.dev.region g).islandRun = true → s.dev.tbTime < 2 ^ 64 →
      ((s.dev.replica g).stepPend = 0 → (s.dev.region g).replica = .acquire → (s.dev.replica g).fresh = true →
        Does (.disciplineWord g err) s [.regions, .replicas] fun t => t.rtime g = s.dev.tbTime ∧
          (t.replica g).fresh = false ∧ (t.replica g).marks = 0 ∧ Only Dev.region g s.dev t) ∧
      ((s.dev.replica g).stepPend = 0 → ((s.dev.region g).replica ≠ .acquire ∨ (s.dev.replica g).fresh = false) →
        ((s.dev.replica g).marks < 63 → Becomes (.disciplineWord g err) s (s.dev.setReplica g { s.dev.replica g with
          marks := (s.dev.replica g).marks + 1, sum := (s.dev.replica g).sum + err.toInt })) ∧
        ((s.dev.replica g).marks = 63 → (((s.dev.replica g).sum + err.toInt).tdiv 64).natAbs < 10 →
          Does (.disciplineWord g err) s (Parts.cell ++ [.replicas]) fun t => t.rtime g = s.dev.tbTime ∧
            (t.region g).replica = .locked ∧ (t.region g).holdover = false) ∧
        ((s.dev.replica g).marks = 63 → (s.dev.region g).replica = .holdover →
          20000 < (((s.dev.replica g).sum + err.toInt).tdiv 64).natAbs →
          Does (.disciplineWord g err) s [.regions, .replicas, .lk] fun t => t.rtime g = s.dev.tbTime ∧
            (t.region g).replica = .acquire ∧ (t.replica g).stepped = true)) ∧
      (∀ n, (s.dev.replica g).stepPend = n → 0 < n → n ≤ 2000 → (s.dev.replica g).marks < 63 →
        ((s.dev.region g).replica ≠ .acquire ∨ (s.dev.replica g).fresh = false) →
        Does (.disciplineWord g err) s [.regions, .replicas, .lk] fun t => (t.replica g).stepPend = 0 ∧
          t.rtime g = (s.dev.rtime g + n) % 2 ^ 64))

/-- R190 to R193: a position frame gives the device the next ring position, and closes the ring or shows a conflict at the
master; sync frames give hop counts and, every hundredth, a measurement; the sixteenth frame error within 1 ms is LINK_FAULT,
and the link trains again after it. -/
def Obligations.CabinetLinks : Prop :=
  (∀ (l : Link) (f : PosFrame) (s : State),
    (s.dev.rb RegMap.tbLinkCfg 2 = false → Does (.posFrame l f) s [.ring, .ringPos, .out] fun t =>
      t.ringPos = (f.pos.val + 1) % 8 ∧ t.ring.posValid = true ∧ t.out = s.dev.out ++ [.posFrame ((f.pos.val + 1) % 8)] ∧
      ∀ n, f.closed = some n → t.ring.closed = true ∧ t.ring.size = n.val) ∧
    (s.dev.rb RegMap.tbLinkCfg 2 = true → f.own = true → l = .b → s.dev.ring.conflict = false →
      Does (.posFrame l f) s [.ring, .ringPos] fun t => t.ringPos = 0 ∧ t.ring.closed = true ∧ t.ring.size = f.pos.val ∧
        t.ring.posValid = true) ∧
    (s.dev.rb RegMap.tbLinkCfg 2 = true → f.own = false → Does (.posFrame l f) s [.ring] fun t =>
      t.ring.conflict = true ∧ t.ring.posValid = false ∧ t.ring.closed = false)) ∧
  (∀ (l : Link) (f : SyncFrame) (s : State), (s.dev.cabLink l).syncN < 99 →
    Becomes (.syncFrame l f) s (s.dev.setCabLink l { s.dev.cabLink l with
      hops := min 7 (f.hops.val + 1), syncN := (s.dev.cabLink l).syncN + 1
      syncSum := (s.dev.cabLink l).syncSum +
        ((s.dev.tbTime : Int) - ((f.time.toNat + (s.dev.cabLink l).delay : Nat) : Int)) })) ∧
  (∀ (l : Link) (f : SyncFrame) (s : State), (s.dev.cabLink l).syncN = 99 →
    Does (.syncFrame l f) s [.freeCount, .tbTime, .tb, .linkA, .linkB, .replicas, .lk, .regions, .evq] fun t =>
      (t.cabLink l).syncN = 0 ∧ (t.cabLink l).syncSum = 0 ∧ (t.cabLink l).hops = min 7 (f.hops.val + 1) ∧
      (s.dev.tb.active = Tb.linkSrc l → t.tb.offset = max (-4194303) (min 4194303 (((s.dev.cabLink l).syncSum +
        ((s.dev.tbTime : Int) - ((f.time.toNat + (s.dev.cabLink l).delay : Nat) : Int))).tdiv 100)))) ∧
  (∀ s : State,
    (s.dev.rb RegMap.tbLinkCfg 2 = true → Becomes .syncFrameSend s { s.dev with
      out := s.dev.out ++ [.syncFrame s.dev.linksUp s.dev.tbTime 0] }) ∧
    (s.dev.rb RegMap.tbLinkCfg 2 = false → s.dev.tb.state = .locked → s.dev.tb.active = 2 → s.dev.linkB.state = .up →
      Becomes .syncFrameSend s { s.dev with out := s.dev.out ++ [.syncFrame [1] s.dev.tbTime s.dev.linkA.hops] }) ∧
    (s.dev.rb RegMap.tbLinkCfg 2 = false → (s.dev.tb.state = .free ∨ s.dev.tb.state = .holdover) →
      NoEffect .syncFrameSend s)) ∧
  (∀ (l : Link) (ns : Word) (s : State),
    Becomes (.delayMeasurement l ns) s (s.dev.setCabLink l { s.dev.cabLink l with delay := ns.toNat })) ∧
  (∀ (l : Link) (s : State), (s.dev.cabLink l).state = .up →
    (((s.dev.cabLink l).errors.filter (fun t => decide (s.dev.elapsed < t + 1000000))).length < 15 →
      Does (.linkFrameCrcError l) s [.linkA, .linkB, .ring] fun t => (t.cabLink l).state = .up ∧
        t.ring.crcErrors = min 255 (s.dev.ring.crcErrors + 1)) ∧
    (15 ≤ ((s.dev.cabLink l).errors.filter (fun t => decide (s.dev.elapsed < t + 1000000))).length →
      (s.dev.coll 8).live.getLsbD 39 = false →
      Does (.linkFrameCrcError l) s (Parts.fault ++ [.linkA, .linkB, .ring]) fun t => (t.cabLink l).state = .fault ∧
        t.ring.crcErrors = min 255 (s.dev.ring.crcErrors + 1) ∧ (t.coll 8).latched.getLsbD 39 = true)) ∧
  (∀ (l : Link) (s : State),
    ((s.dev.cabLink l).state ≠ .fault → NoEffect (.linkFaultExit l) s) ∧
    ((s.dev.cabLink l).state = .fault → Does (.linkFaultExit l) s [.linkA, .linkB, .regions, .barges, .colls, .evq] fun t =>
      (t.cabLink l).state = .training ∧ (t.cabLink l).errors = [] ∧ (t.coll 8).latched = (s.dev.coll 8).latched))

/-- R195 to R198, R203: a well-formed entry of a lock ring that comes within the look-ahead is split into one waiting copy for
each table it touches, its TIME with bits [1:0] cleared; a malformed one is discarded with EV_LOCK_BAD; the ring waits
otherwise. A frame of another device is forwarded, and taken if it names this device. -/
def Rules.LockEntries : Prop :=
  (∀ (n : Fin 16) (e : LockEntry) (s : State),
    (s.dev.rb RegMap.lkCfg 0 = false ∨ s.dev.rb (RegMap.lkRingId n) 31 = false ∨
      s.dev.lk.waits.any (fun (x : LockWait) => x.ring == some n.val) = true ∨
      s.dev.tbTime + max 1 (min 10000 (s.dev.rf RegMap.lkCfg 16 14)) * 1000000 < e.time.toNat / 4 * 4 →
      NoEffect (.lockFetch n e) s) ∧
    (s.dev.rb RegMap.lkCfg 0 = true → s.dev.rb (RegMap.lkRingId n) 31 = true →
      s.dev.lk.waits.any (fun (x : LockWait) => x.ring == some n.val) = false →
      e.time.toNat / 4 * 4 ≤ s.dev.tbTime + max 1 (min 10000 (s.dev.rf RegMap.lkCfg 16 14)) * 1000000 →
      s.dev.lockRingReady (s.dev.rf (RegMap.lkRingId n) 0 20) = true →
      (s.dev.lockReason e = 0 → e.devMask = 0 → Does (.lockFetch n e) s [.lk, .hp, .evq, .out] fun t =>
        t.lk = { s.dev.lk with waits := s.dev.lk.waits ++ (Lock.tables e).map (fun (k : Nat) =>
          ({ table := k, e := { e with time := BitVec.ofNat 64 (e.time.toNat / 4 * 4) }, ring := some n.val } :
            LockWait)) }) ∧
      (s.dev.lockReason e ≠ 0 → Does (.lockFetch n e) s [.lk, .hp, .evq, .out] fun t =>
        t.lk = { s.dev.lk with bad := min 255 (s.dev.lk.bad + 1) } ∧
        ∃ v : Event, v ∈ t.evq ∧ v.code = 0x083))) ∧
  (∀ (l : Link) (e : LockEntry) (s : State),
    (s.dev.ring.posValid = false → NoEffect (.lockFrameReceive l e) s) ∧
    (s.dev.ring.posValid = true → s.dev.lockMine e = false → Becomes (.lockFrameReceive l e) s { s.dev with
      out := s.dev.out ++ [.lockFrames [if l = .a then 1 else 0] e] }) ∧
    (s.dev.ring.posValid = true → s.dev.lockMine e = true → s.dev.lockReason e = 0 →
      Does (.lockFrameReceive l e) s [.lk, .out] fun t =>
        t.out = s.dev.out ++ [.lockFrames [if l = .a then 1 else 0] e] ∧
        t.lk.tables = s.dev.lk.tables ∧
        t.lk.waits.map LockWait.table = s.dev.lk.waits.map LockWait.table ++ Lock.tables e))

/-- R198, R201, R203: the oldest copy that waits for a table enters it when the table has room and its time lies ahead, is
deferred while the strait of the table is lost, and waits on, marked in FULL_SEEN, while the table is full. -/
def Rules.LockInsert : Prop :=
  (∀ (n : TableIx) (s : State), (∀ w ∈ s.dev.lk.waits, w.table ≠ n.val) → NoEffect (.lockInsert n) s) ∧
  (∀ (n : TableIx) (s : State) (w : LockWait) (pre post : List LockWait), s.dev.lk.waits = pre ++ w :: post →
    w.table = n → (∀ x ∈ pre, x.table ≠ n.val) →
    ((n.val < 8 ∧ s.dev.straitUp n = false) → (s.dev.lockTable n).deferred.length < 1024 →
      Becomes (.lockInsert n) s (({ s.dev with lk := { s.dev.lk with waits := pre ++ post } }).setLockTable n
        { s.dev.lockTable n with deferred := (s.dev.lockTable n).deferred ++ [w.e] })) ∧
    ((8 ≤ n.val ∨ s.dev.straitUp n = true) → (s.dev.lockTable n).copies.length < Lock.capacity n →
      s.dev.lockClock n < Lock.time w.e →
      Does (.lockInsert n) s [.lk] fun t => t.lk.waits = pre ++ post ∧
        (t.lockTable n).copies = (s.dev.lockTable n).copies ++ [{ e := w.e }] ∧
        (t.lockTable n).high = max (s.dev.lockTable n).high ((s.dev.lockTable n).copies.length + 1) ∧
        ∀ m, m ≠ n.val → t.lockTable m = s.dev.lockTable m) ∧
    ((8 ≤ n.val ∨ s.dev.straitUp n = true) → (s.dev.lockTable n).copies.length < Lock.capacity n →
      Lock.time w.e ≤ s.dev.lockClock n → w.e.lateDrop = true → w.e.further = 0 →
      Does (.lockInsert n) s [.lk, .evq, .regions] fun t => t.lk.waits = pre ++ post ∧
        (t.lockTable n).copies = (s.dev.lockTable n).copies ∧ t.lk.late = min 255 (s.dev.lk.late + 1)) ∧
    ((8 ≤ n.val ∨ s.dev.straitUp n = true) → Lock.capacity n ≤ (s.dev.lockTable n).copies.length →
      Becomes (.lockInsert n) s (s.dev.setLockTable n { s.dev.lockTable n with fullSeen := true })))

/-- R30, R97, R199 to R202, R205: when a table fires, every copy left in it lies in its future; a table of a region that does
not run, or whose clock failed, fires nothing; a CH_OFF lock takes its cell off as the command does; a chip lock pulses
SYNC_OUT for its parameter; and the end of a TRIP_ASSERT lets go of its own lines only. -/
def Obligations.LockFire : Prop :=
  (∀ (n : TableIx) (s : State),
    (n.val < 8 → ((s.dev.region n).islandRun = false ∨ (s.dev.region n).clkFail = true) → NoEffect (.lockFire n) s) ∧
    ((8 ≤ n.val ∨ ((s.dev.region n).islandRun = true ∧ (s.dev.region n).clkFail = false)) →
      (∀ k ∈ (s.dev.lockTable n).copies, k.e.further ≠ 0 → 1000 ≤ k.e.period.toNat) →
      (∀ k ∈ (s.dev.lockTable n).copies, k.e.time.toNat < 2 ^ 63) → s.dev.lockClock n < 2 ^ 63 →
      Does (.lockFire n) s (Parts.cell ++ [.tb, .lk, .barges, .slices, .auxs, .regs, .regsPend, .colls, .bz, .tows])
        fun t => ∀ k ∈ (t.lockTable n).copies, s.dev.lockClock n < Lock.time k.e)) ∧
  (∀ (c : CellIx) (e : LockEntry) (n : TableIx) (s : State), n.val = c / 64 → e.region.val = n.val →
    (s.dev.region n).islandRun = true → (s.dev.region n).clkFail = false →
    (s.dev.lockTable n).copies = [{ e := e }] → Lock.time e ≤ s.dev.lockClock n → e.further = 0 → e.notify = false →
    e.action = 2 → e.kind = 1 → e.target = 1#64 <<< (c.val % 64) → (s.dev.cell c).state = .on →
    Does (.lockFire n) s (Parts.cell ++ [.tb, .lk, .barges, .slices, .auxs, .regs, .regsPend, .colls, .bz, .tows]) fun t =>
      Only Dev.cell c s.dev t ∧ (t.cell c).state = .off ∧ (t.cell c).holdOff = true ∧
      (t.lockTable n).copies = [] ∧ s.dev.lk.refused ≤ t.lk.refused) ∧
  (∀ (e : LockEntry) (s : State), (s.dev.lockTable 8).copies = [{ e := e }] → Lock.time e ≤ s.dev.tbTime →
    e.further = 0 → e.notify = false → e.action = 0xE → e.kind = 0 → e.target = 0 →
    Does (.lockFire 8) s [.lk, .tb, .out] fun t => t.out = s.dev.out ++ [.syncPulse e.param.toNat] ∧
      t.tb.syncOut = true ∧ (t.lockTable 8).copies = []) ∧
  (∀ (g : RegionIx) (tag : BitVec 16) (s : State), Does (.tripAssertEnd g tag) s [.regions] fun t =>
    Only Dev.region g s.dev t ∧
    ∀ l, l ∈ (t.region g).lockLines ↔ l ∈ (s.dev.region g).lockLines ∧ l.tag ≠ tag.toNat)

/-- `Rules.TimebaseDiscipline` and `Rules.DisciplineWord` together. -/
def Obligations.TimebaseServo : Prop := Rules.TimebaseDiscipline ∧ Rules.DisciplineWord

/-- `Rules.LockEntries` and `Rules.LockInsert` together. -/
def Obligations.LockAcceptance : Prop := Rules.LockEntries ∧ Rules.LockInsert

/-! ### Barge engines (09) -/

/-- An instruction of barge `e` that names these scalar and vector registers can issue now (R207, R209): the barge runs, no
breakpoint stands on it, its address can be fetched, and no register it names awaits a load. -/
def BargeReady (s : Dev) (e : Nat) (regs vregs : List Nat) : Prop :=
  (s.barge e).mayIssue = true ∧ s.pwr.mode ≠ 2 ∧ (s.barge e).breakAt = none ∧ Barge.fetchable (s.barge e).pc = true ∧
  (∀ r ∈ regs, (s.barge e).awaitsS r = false) ∧ (∀ r ∈ vregs, (s.barge e).awaitsV r = false) ∧
  (s.barge e).dbg.stepping = false

/-- The frame of an instruction that changes registers: beside them, the program counter, the fetch prefetch and the mark that a
breakpoint has been passed, the barge is as it was. -/
def BargeFrame (k k' : Barge) : Prop :=
  k' = { k with s := k'.s, v := k'.v, pc := k'.pc, prefetch := k'.prefetch, dbg := { k.dbg with skipBp := k'.dbg.skipBp } }

/-- The program counter goes to the next instruction. -/
def BargeNext (k k' : Barge) : Prop := k'.pc = (k.pc + 4) % 2 ^ 32

/-- The three-register instructions of Table 9-3 with their operations. -/
def AluRow (e : BargeIx) (d a b : Fin 32) (i : Instr) (f : Word → Word → Word) : Prop :=
  (i = .addR e d a b ∧ f = fun (x y : Word) => x + y) ∨ (i = .subR e d a b ∧ f = fun (x y : Word) => x - y) ∨
  (i = .andR e d a b ∧ f = fun (x y : Word) => x &&& y) ∨ (i = .orR e d a b ∧ f = fun (x y : Word) => x ||| y) ∨
  (i = .xorR e d a b ∧ f = fun (x y : Word) => x ^^^ y) ∨
  (i = .shl e d a b ∧ f = fun (x y : Word) => x <<< (y.toNat % 32)) ∨ (i = .shr e d a b ∧ f = fun (x y : Word) => x >>> (y.toNat % 32)) ∨
  (i = .sra e d a b ∧ f = fun (x y : Word) => x.sshiftRight (y.toNat % 32)) ∨
  (i = .lt e d a b ∧ f = fun (x y : Word) => if x.toInt < y.toInt then 1 else 0) ∨
  (i = .ltu e d a b ∧ f = fun (x y : Word) => if x.toNat < y.toNat then 1 else 0) ∨
  (i = .minS e d a b ∧ f = fun (x y : Word) => if x.toInt ≤ y.toInt then x else y) ∨
  (i = .maxS e d a b ∧ f = fun (x y : Word) => if x.toInt ≤ y.toInt then y else x) ∨
  (i = .minu e d a b ∧ f = fun (x y : Word) => if x.toNat ≤ y.toNat then x else y) ∨
  (i = .maxu e d a b ∧ f = fun (x y : Word) => if x.toNat ≤ y.toNat then y else x) ∨
  (i = .adds e d a b ∧ f = fun (x y : Word) => BitVec.ofInt 32 (max (-2147483648) (min 2147483647 (x.toInt + y.toInt)))) ∨
  (i = .subs e d a b ∧ f = fun (x y : Word) => BitVec.ofInt 32 (max (-2147483648) (min 2147483647 (x.toInt - y.toInt)))) ∨
  (i = .mulR e d a b ∧ f = fun (x y : Word) => x * y) ∨
  (i = .mulhS e d a b ∧ f = fun (x y : Word) => BitVec.ofInt 32 ((x.toInt * y.toInt) / 2 ^ 32)) ∨
  (i = .mulhU e d a b ∧ f = fun (x y : Word) => BitVec.ofNat 32 (x.toNat * y.toNat / 2 ^ 32)) ∨
  (i = .divS e d a b ∧ f = fun (x y : Word) => if y = 0 then (if x.toInt < 0 then 0x80000000 else 0x7FFFFFFF)
    else if x = 0x80000000 ∧ y = 0xFFFFFFFF then 0x7FFFFFFF else BitVec.ofInt 32 (x.toInt.tdiv y.toInt)) ∨
  (i = .divU e d a b ∧ f = fun (x y : Word) => if y = 0 then 0xFFFFFFFF else x / y) ∨
  (i = .remS e d a b ∧ f = fun (x y : Word) => if y = 0 then x else BitVec.ofInt 32 (x.toInt.tmod y.toInt)) ∨
  (i = .remU e d a b ∧ f = fun (x y : Word) => if y = 0 then x else x % y)

/-- The instructions with a constant of Table 9-3: the operation on the register and the constant as a word. -/
def AluImmRow (e : BargeIx) (d a : Fin 32) (imm : BitVec 13) (sh : Fin 32) (i : Instr) (f : Word → Word) : Prop :=
  (i = .addI e d a imm ∧ f = fun (x : Word) => x + imm.signExtend 32) ∨ (i = .andI e d a imm ∧ f = fun (x : Word) => x &&& imm.signExtend 32) ∨
  (i = .orI e d a imm ∧ f = fun (x : Word) => x ||| imm.signExtend 32) ∨
  (i = .xorI e d a imm ∧ f = fun (x : Word) => x ^^^ imm.signExtend 32) ∨
  (i = .ltI e d a imm ∧ f = fun (x : Word) => if x.toInt < (imm.signExtend 32).toInt then 1 else 0) ∨
  (i = .ltuI e d a imm ∧ f = fun (x : Word) => if x.toNat < (imm.signExtend 32).toNat then 1 else 0) ∨
  (i = .shlI e d a sh ∧ f = fun (x : Word) => x <<< sh.val) ∨ (i = .shrI e d a sh ∧ f = fun (x : Word) => x >>> sh.val) ∨
  (i = .sraI e d a sh ∧ f = fun (x : Word) => x.sshiftRight sh.val)

/-- R206, R209 and Table 9-3: a scalar instruction writes its result to d, unless d is s0, which always reads 0; every other
register keeps its value and the barge goes on to the next instruction; while the barge may not issue it has no effect. -/
def Obligations.ScalarAlu : Prop :=
  (∀ (e : BargeIx) (d a b : Fin 32) (i : Instr) (f : Word → Word → Word) (s : State), AluRow e d a b i f →
    ((s.dev.barge e).mayIssue = false → NoEffect i s) ∧
    (BargeReady s.dev e [d, a, b] [] → Does i s [.barges] fun t => Only Dev.barge e s.dev t ∧
      BargeFrame (s.dev.barge e) (t.barge e) ∧ BargeNext (s.dev.barge e) (t.barge e) ∧
      (∀ r, (t.barge e).sreg r = if r = d.val ∧ r ≠ 0 then f ((s.dev.barge e).sreg a) ((s.dev.barge e).sreg b)
        else (s.dev.barge e).sreg r) ∧
      ∀ r, (t.barge e).vreg r = (s.dev.barge e).vreg r)) ∧
  (∀ (e : BargeIx) (d a sh : Fin 32) (imm : BitVec 13) (i : Instr) (f : Word → Word) (s : State),
    AluImmRow e d a imm sh i f → BargeReady s.dev e [d, a] [] →
    Does i s [.barges] fun t => Only Dev.barge e s.dev t ∧
      BargeFrame (s.dev.barge e) (t.barge e) ∧ BargeNext (s.dev.barge e) (t.barge e) ∧
      (∀ r, (t.barge e).sreg r = if r = d.val ∧ r ≠ 0 then f ((s.dev.barge e).sreg a) else (s.dev.barge e).sreg r) ∧
      ∀ r, (t.barge e).vreg r = (s.dev.barge e).vreg r) ∧
  (∀ (e : BargeIx) (d : Fin 32) (imm : BitVec 21) (i : Instr) (v : Word) (s : State),
    ((i = .movh e d imm ∧ v = BitVec.ofNat 32 (imm.toNat * 2048)) ∨
      (i = .adrh e d imm ∧ v = BitVec.ofNat 32 ((s.dev.barge e).pc + imm.toNat * 2048))) → BargeReady s.dev e [d] [] →
    Does i s [.barges] fun t => Only Dev.barge e s.dev t ∧
      BargeFrame (s.dev.barge e) (t.barge e) ∧ BargeNext (s.dev.barge e) (t.barge e) ∧
      ∀ r, (t.barge e).sreg r = if r = d.val ∧ r ≠ 0 then v else (s.dev.barge e).sreg r) ∧
  (∀ (e : BargeIx) (d a : Fin 32) (s : State), BargeReady s.dev e [d, a, 0] [] → d ≠ 0 →
    Does (.clz e d a) s [.barges] fun t => Only Dev.barge e s.dev t ∧
      BargeFrame (s.dev.barge e) (t.barge e) ∧ BargeNext (s.dev.barge e) (t.barge e) ∧
      (∀ r, r ≠ d.val → (t.barge e).sreg r = (s.dev.barge e).sreg r) ∧
      ((t.barge e).sreg d).toNat ≤ 32 ∧
      (∀ j, j < ((t.barge e).sreg d).toNat → ((s.dev.barge e).sreg a).getLsbD (31 - j) = false) ∧
      (((t.barge e).sreg d).toNat < 32 → ((s.dev.barge e).sreg a).getLsbD (31 - ((t.barge e).sreg d).toNat) = true))

/-- Lane `l` of a vector value, signed (R206). -/
def laneOf (t : VType) (q : Quad) (l : Nat) : Int := Bits.sext (VLane.width t) (q.toNat >>> (VLane.width t * l))
/-- A signed number wrapped to the lane width. -/
def laneWrap (t : VType) (x : Int) : Int := Bits.sext (VLane.width t) (Bits.ofInt (VLane.width t) x)
/-- 32-bit lane `l` of a vector pair, signed (R206). -/
def pairLane (k : Barge) (r l : Nat) : Int := Bits.sext 32 (k.vpair r >>> (32 * l))

/-- The lane-wise vector instructions of Table 9-6 with their operations on signed lanes. -/
def LaneRow (e : BargeIx) (t : VType) (vd va vb : Fin 16) (i : Instr) (f : Int → Int → Int) : Prop :=
  (i = .vadd e t vd va vb ∧ f = fun x y => x + y) ∨ (i = .vsub e t vd va vb ∧ f = fun x y => x - y) ∨
  (i = .vadds e t vd va vb ∧ f = fun x y => Bits.sat (VLane.width t) (x + y)) ∨
  (i = .vsubs e t vd va vb ∧ f = fun x y => Bits.sat (VLane.width t) (x - y)) ∨
  (i = .vmin e t vd va vb ∧ f = fun x y => min x y) ∨ (i = .vmax e t vd va vb ∧ f = fun x y => max x y) ∨
  (i = .vabs e t vd va ∧ vb = va ∧ f = fun x _ => Bits.sat (VLane.width t) x.natAbs) ∨
  (i = .vmulH8 e vd va vb ∧ t = .h8 ∧ f = fun x y => x * y) ∨
  (i = .vmulhH8 e vd va vb ∧ t = .h8 ∧ f = fun x y => Bits.sat 16 ((x * y + 2 ^ 14) / 2 ^ 15)) ∨
  (i = .vmulW4 e vd va vb ∧ t = .w4 ∧ f = fun x y => x * y)

/-- R206, R209 and Table 9-6: lane-wise arithmetic, shifts, bitwise operations, selection and broadcast write vd, lane by lane,
and nothing else; comparisons write the mask of the lanes that hold to a scalar. -/
def Rules.VectorLanes : Prop :=
  (∀ (e : BargeIx) (y : VType) (vd va vb : Fin 16) (i : Instr) (f : Int → Int → Int) (s : State),
    LaneRow e y vd va vb i f → BargeReady s.dev e [] [vd, va, vb] →
    Does i s [.barges] fun t => Only Dev.barge e s.dev t ∧
      BargeFrame (s.dev.barge e) (t.barge e) ∧ BargeNext (s.dev.barge e) (t.barge e) ∧
      (t.barge e).s = (s.dev.barge e).s ∧ (∀ r, r ≠ vd.val → (t.barge e).vreg r = (s.dev.barge e).vreg r) ∧
      ∀ l, l < VLane.count y → laneOf y ((t.barge e).vreg vd) l =
        laneWrap y (f (laneOf y ((s.dev.barge e).vreg va) l) (laneOf y ((s.dev.barge e).vreg vb) l))) ∧
  (∀ (e : BargeIx) (vd va vb : Fin 16) (i : Instr) (v : Quad) (s : State),
    ((i = .vand e vd va vb ∧ v = (s.dev.barge e).vreg va &&& (s.dev.barge e).vreg vb) ∨
      (i = .vor e vd va vb ∧ v = (s.dev.barge e).vreg va ||| (s.dev.barge e).vreg vb) ∨
      (i = .vxor e vd va vb ∧ v = (s.dev.barge e).vreg va ^^^ (s.dev.barge e).vreg vb) ∨
      (i = .vmov e vd va ∧ vb = va ∧ v = (s.dev.barge e).vreg va)) → BargeReady s.dev e [] [vd, va, vb] →
    Does i s [.barges] fun t => Only Dev.barge e s.dev t ∧
      BargeFrame (s.dev.barge e) (t.barge e) ∧ BargeNext (s.dev.barge e) (t.barge e) ∧
      (t.barge e).s = (s.dev.barge e).s ∧
      ∀ r, (t.barge e).vreg r = if r = vd.val then v else (s.dev.barge e).vreg r) ∧
  (∀ (e : BargeIx) (y : VType) (vd va vb : Fin 16) (r : Fin 32) (i : Instr) (f : Nat → Int) (s : State),
    let n := ((s.dev.barge e).sreg r).toNat % VLane.width y
    ((i = .vsll e y vd va r ∧ vb = va ∧ f = fun l => laneWrap y (laneOf y ((s.dev.barge e).vreg va) l * 2 ^ n)) ∨
      (i = .vsrl e y vd va r ∧ vb = va ∧ f = fun l => laneWrap y
        ((((s.dev.barge e).vreg va).toNat >>> (VLane.width y * l) % 2 ^ VLane.width y / 2 ^ n : Nat) : Int)) ∨
      (i = .vsra e y vd va r ∧ vb = va ∧ f = fun l => laneOf y ((s.dev.barge e).vreg va) l / 2 ^ n) ∨
      (i = .vsel e y vd va vb r ∧ f = fun l => if ((s.dev.barge e).sreg r).getLsbD l = true
        then laneOf y ((s.dev.barge e).vreg va) l else laneOf y ((s.dev.barge e).vreg vb) l) ∨
      (i = .vbcastH e vd r ∧ y = .h8 ∧ va = vd ∧ vb = vd ∧ f = fun _ => laneWrap .h8 ((s.dev.barge e).sreg r).toNat) ∨
      (i = .vbcastW e vd r ∧ y = .w4 ∧ va = vd ∧ vb = vd ∧ f = fun _ => laneWrap .w4 ((s.dev.barge e).sreg r).toNat)) →
    BargeReady s.dev e [r] [vd, va, vb] →
    Does i s [.barges] fun t => Only Dev.barge e s.dev t ∧
      BargeFrame (s.dev.barge e) (t.barge e) ∧ BargeNext (s.dev.barge e) (t.barge e) ∧
      (t.barge e).s = (s.dev.barge e).s ∧ (∀ q, q ≠ vd.val → (t.barge e).vreg q = (s.dev.barge e).vreg q) ∧
      ∀ l, l < VLane.count y → laneOf y ((t.barge e).vreg vd) l = f l) ∧
  (∀ (e : BargeIx) (y : VType) (va vb : Fin 16) (r : Fin 32) (i : Instr) (p : Int → Int → Bool) (s : State),
    ((i = .vcmpgt e y r va vb ∧ p = fun a b => decide (b < a)) ∨ (i = .vcmpeq e y r va vb ∧ p = fun a b => decide (a = b))) →
    BargeReady s.dev e [r] [va, vb] → r ≠ 0 →
    Does i s [.barges] fun t => Only Dev.barge e s.dev t ∧
      BargeFrame (s.dev.barge e) (t.barge e) ∧ BargeNext (s.dev.barge e) (t.barge e) ∧
      (t.barge e).v = (s.dev.barge e).v ∧ (∀ q, q ≠ r.val → (t.barge e).sreg q = (s.dev.barge e).sreg q) ∧
      ∀ l, ((t.barge e).sreg r).getLsbD l = (decide (l < VLane.count y) &&
        p (laneOf y ((s.dev.barge e).vreg va) l) (laneOf y ((s.dev.barge e).vreg vb) l)))

/-- Barge `e` takes the exception `code` (R229): the return address, the status and BG_XADDR are saved, XCPT is set, and the
program counter goes to the exception vector. -/
def Traps (i : Instr) (e : BargeIx) (code addr : Nat) (s : State) : Prop :=
  Does i s [.barges] fun t => Only Dev.barge e s.dev t ∧
    (t.barge e).xcpt = true ∧ (t.barge e).xcause = code ∧ (t.barge e).xepc = (s.dev.barge e).pc / 4 * 4 ∧
    (t.barge e).xstat = (s.dev.barge e).status ∧ (t.barge e).xaddr = addr ∧
    (t.barge e).pc = (s.dev.barge e).vector 0x100 ∧ (t.barge e).s = (s.dev.barge e).s ∧ (t.barge e).v = (s.dev.barge e).v ∧
    (t.barge e).sb = (s.dev.barge e).sb ∧ (t.barge e).lq = (s.dev.barge e).lq ∧ (t.barge e).pend = (s.dev.barge e).pend

/-- R206, R208, R211 and Table 9-6: multiply-accumulate saturates the lanes of its pair; pack, widen, extract, insert and the
reduction act on lanes; an odd pair register and a lane beyond the type are ILLEGAL. -/
def Rules.VectorPairs : Prop :=
  (∀ (e : BargeIx) (vd va vb : Fin 16) (r : Fin 32) (i : Instr) (f : Nat → Int) (regs vregs : List Nat) (s : State),
    ((i = .vmacH8 e vd va vb ∧ regs = [] ∧ vregs = [vd.val, vd.val + 1, va.val, vb.val] ∧
        f = fun l => Bits.sat 32 (pairLane (s.dev.barge e) vd l +
          laneOf .h8 ((s.dev.barge e).vreg va) l * laneOf .h8 ((s.dev.barge e).vreg vb) l)) ∨
      (i = .vmacsH8 e vd va r ∧ regs = [r.val] ∧ vregs = [vd.val, vd.val + 1, va.val] ∧
        f = fun l => Bits.sat 32 (pairLane (s.dev.barge e) vd l +
          laneOf .h8 ((s.dev.barge e).vreg va) l * Bits.sext 16 ((s.dev.barge e).sreg r).toNat)) ∨
      (i = .vwidenH8 e vd va ∧ regs = [] ∧ vregs = [vd.val, vd.val + 1, va.val] ∧
        f = fun l => laneOf .h8 ((s.dev.barge e).vreg va) l)) →
    (vd.val % 2 = 0 → BargeReady s.dev e regs vregs →
      Does i s [.barges] fun t => Only Dev.barge e s.dev t ∧
        BargeFrame (s.dev.barge e) (t.barge e) ∧ BargeNext (s.dev.barge e) (t.barge e) ∧
        (t.barge e).s = (s.dev.barge e).s ∧
        (∀ q, q ≠ vd.val → q ≠ vd.val + 1 → (t.barge e).vreg q = (s.dev.barge e).vreg q) ∧
        ∀ l, l < 8 → pairLane (t.barge e) vd l = f l) ∧
    (vd.val % 2 = 1 → BargeReady s.dev e [] [] → (s.dev.barge e).xcpt = false → Traps i e 1 0 s)) ∧
  (∀ (e : BargeIx) (vd va n : Fin 16) (s : State),
    (va.val % 2 = 0 → BargeReady s.dev e [] [vd, va, va.val + 1] →
      Does (.vpackH8 e vd va n) s [.barges] fun t => Only Dev.barge e s.dev t ∧
        BargeFrame (s.dev.barge e) (t.barge e) ∧ BargeNext (s.dev.barge e) (t.barge e) ∧
        (t.barge e).s = (s.dev.barge e).s ∧
        (∀ q, q ≠ vd.val → (t.barge e).vreg q = (s.dev.barge e).vreg q) ∧
        ∀ l, l < 8 → laneOf .h8 ((t.barge e).vreg vd) l =
          Bits.sat 16 ((pairLane (s.dev.barge e) va l + (if n.val = 0 then 0 else 2 ^ (n.val - 1))) / 2 ^ n.val)) ∧
    (va.val % 2 = 1 → BargeReady s.dev e [] [] → (s.dev.barge e).xcpt = false → Traps (.vpackH8 e vd va n) e 1 0 s)) ∧
  (∀ (e : BargeIx) (y : VType) (va lane : Fin 16) (r : Fin 32) (i : Instr) (s : State),
    ((i = .vextH e r va lane ∧ y = .h8) ∨ (i = .vextW e r va lane ∧ y = .w4)) →
    (lane.val < VLane.count y → BargeReady s.dev e [r] [va] → r ≠ 0 →
      Does i s [.barges] fun t => Only Dev.barge e s.dev t ∧
        BargeFrame (s.dev.barge e) (t.barge e) ∧ BargeNext (s.dev.barge e) (t.barge e) ∧
        (t.barge e).v = (s.dev.barge e).v ∧ (∀ q, q ≠ r.val → (t.barge e).sreg q = (s.dev.barge e).sreg q) ∧
        (t.barge e).sreg r = BitVec.ofInt 32 (laneOf y ((s.dev.barge e).vreg va) lane)) ∧
    (VLane.count y ≤ lane.val → BargeReady s.dev e [] [] → (s.dev.barge e).xcpt = false → Traps i e 1 0 s)) ∧
  (∀ (e : BargeIx) (y : VType) (vd lane : Fin 16) (r : Fin 32) (i : Instr) (s : State),
    ((i = .vinsH e vd lane r ∧ y = .h8) ∨ (i = .vinsW e vd lane r ∧ y = .w4)) →
    (lane.val < VLane.count y → BargeReady s.dev e [r] [vd] →
      Does i s [.barges] fun t => Only Dev.barge e s.dev t ∧
        BargeFrame (s.dev.barge e) (t.barge e) ∧ BargeNext (s.dev.barge e) (t.barge e) ∧
        (t.barge e).s = (s.dev.barge e).s ∧ (∀ q, q ≠ vd.val → (t.barge e).vreg q = (s.dev.barge e).vreg q) ∧
        ∀ l, l < VLane.count y → laneOf y ((t.barge e).vreg vd) l =
          if l = lane.val then laneWrap y ((s.dev.barge e).sreg r).toNat else laneOf y ((s.dev.barge e).vreg vd) l) ∧
    (VLane.count y ≤ lane.val → BargeReady s.dev e [] [] → (s.dev.barge e).xcpt = false → Traps i e 1 0 s)) ∧
  (∀ (e : BargeIx) (va : Fin 16) (r : Fin 32) (s : State), BargeReady s.dev e [r] [va] → r ≠ 0 →
    Does (.vredaddH8 e r va) s [.barges] fun t => Only Dev.barge e s.dev t ∧
      BargeFrame (s.dev.barge e) (t.barge e) ∧ BargeNext (s.dev.barge e) (t.barge e) ∧
      (t.barge e).v = (s.dev.barge e).v ∧ (∀ q, q ≠ r.val → (t.barge e).sreg q = (s.dev.barge e).sreg q) ∧
      (t.barge e).sreg r = BitVec.ofInt 32
        (((List.range 8).map (fun l => laneOf .h8 ((s.dev.barge e).vreg va) l)).foldl (fun x y => x + y) 0))

/-- The loads of Table 9-4: destination, size in bytes, and whether the value is sign-extended. -/
def LoadRow (e : BargeIx) (d base : Fin 32) (v : Fin 16) (imm : BitVec 13) (i : Instr) (dest : LdDest) (n : Nat)
    (signed : Bool) : Prop :=
  (i = .ldB e d base imm ∧ dest = .s d ∧ n = 1 ∧ signed = true) ∨ (i = .ldBu e d base imm ∧ dest = .s d ∧ n = 1 ∧ signed = false) ∨
  (i = .ldH e d base imm ∧ dest = .s d ∧ n = 2 ∧ signed = true) ∨ (i = .ldHu e d base imm ∧ dest = .s d ∧ n = 2 ∧ signed = false) ∨
  (i = .ldW e d base imm ∧ dest = .s d ∧ n = 4 ∧ signed = false) ∨
  (i = .ldD e d base imm ∧ d.val % 2 = 0 ∧ dest = .pair d ∧ n = 8 ∧ signed = false) ∨
  (i = .vldQ e v base imm ∧ dest = .v v ∧ n = 16 ∧ signed = false)

/-- R208, R210, R213, R219, R220 and Table 9-4: a load that its class refuses raises the exception of R213; one that no
buffered store overlaps enters the load queue with the bytes of its memory as they are at issue, registers only when they
answer; one that matches the youngest overlapping store exactly takes its data; any other overlap, and a fifth load, waits. -/
def Rules.Loads : Prop :=
  (∀ (e : BargeIx) (d base : Fin 32) (v : Fin 16) (imm : BitVec 13) (i : Instr) (dest : LdDest) (n : Nat) (signed : Bool)
    (s : State), LoadRow e d base v imm i dest n signed →
    BargeReady s.dev e (base.val :: dest.regs.1) dest.regs.2 →
    let a := ((s.dev.barge e).sreg base + imm.signExtend 32).toNat
    (∀ code, Mem.check a n false = some code → (s.dev.barge e).xcpt = false → Traps i e code a s) ∧
    (Mem.check a n false = none → (s.dev.barge e).lq.length < 4 → (s.dev.barge e).watchAt a false = none →
      (∀ x ∈ (s.dev.barge e).sb, x.overlaps a n = false) → Mem.classOf a ≠ some .bg →
      (Mem.ordered a = true → ∀ x ∈ (s.dev.barge e).sb, Mem.ordered x.addr = false) →
      Does i s [.barges] fun t => Only Dev.barge e s.dev t ∧ BargeNext (s.dev.barge e) (t.barge e) ∧
        (t.barge e).s = (s.dev.barge e).s ∧ (t.barge e).v = (s.dev.barge e).v ∧ (t.barge e).sb = (s.dev.barge e).sb ∧
        (t.barge e).dram = (s.dev.barge e).dram ∧ (t.barge e).iram = (s.dev.barge e).iram ∧
        (t.barge e).lq = (s.dev.barge e).lq ++ [{
          dest := dest, addr := a, size := n, signed := signed
          data := if Mem.ordered a = true then none else some (s.dev.memLoad e a n)
          miss := decide (Mem.classOf a = some .flash ∧ (s.dev.barge e).dline ≠ some (a / 32)) }]) ∧
    (∀ x pre post, Mem.check a n false = none → (s.dev.barge e).lq.length < 4 → (s.dev.barge e).watchAt a false = none →
      Mem.ordered a = false → (s.dev.barge e).sb = pre ++ x :: post → x.overlaps a n = true →
      (∀ z ∈ post, z.overlaps a n = false) →
      Does i s [.barges] fun t => Only Dev.barge e s.dev t ∧ (t.barge e).s = (s.dev.barge e).s ∧
        (t.barge e).sb = (s.dev.barge e).sb ∧
        (x.addr = a ∧ x.size = n → BargeNext (s.dev.barge e) (t.barge e) ∧ (t.barge e).lq = (s.dev.barge e).lq ++
          [{ dest := dest, addr := a, size := n, signed := signed, data := some x.data }]) ∧
        (¬(x.addr = a ∧ x.size = n) → (t.barge e).pc = (s.dev.barge e).pc ∧ (t.barge e).lq = (s.dev.barge e).lq)) ∧
    (Mem.check a n false = none → 4 ≤ (s.dev.barge e).lq.length →
      Does i s [.barges] fun t => Only Dev.barge e s.dev t ∧ (t.barge e).pc = (s.dev.barge e).pc ∧
        (t.barge e).lq = (s.dev.barge e).lq ∧ (t.barge e).s = (s.dev.barge e).s)) ∧
  (∀ (e : BargeIx) (d base : Fin 32) (imm : BitVec 13) (s : State), d.val % 2 = 1 → BargeReady s.dev e [] [] →
    (s.dev.barge e).xcpt = false → Traps (.ldD e d base imm) e 1 0 s)

/-- R36, R210, R212, R214: the result of a load is written to its destination, and only there; a corrected error sets
ECC_CORR_SEEN and BARGE_ECC_CORR; an uncorrectable one raises ECC_UNCORRECTED and leaves the destination unwritten; the line of
a miss is held; and an island-window load whose reply does not come in time, or whose strait is lost, reads 0 and sets
ISLAND_ACCESS_FAIL. -/
def Rules.LoadResults : Prop :=
  (∀ (e : BargeIx) (n : Fin 4) (s : State) (l : LoadEnt) (d : Nat), (s.dev.barge e).lq[n.val]? = some l → l.data = some d →
    l.miss = false → (s.dev.barge e).dbg.haltReq = none → Mem.classOf l.addr ≠ some .bg →
    Does (.loadResult e n .ok) s [.barges] (fun t => Only Dev.barge e s.dev t ∧
      (t.barge e).lq = (s.dev.barge e).lq.eraseIdx n.val ∧ (t.barge e).pc = (s.dev.barge e).pc ∧
      (∀ r, l.dest = .s r → ∀ q, (t.barge e).sreg q = if q = r ∧ q ≠ 0 then
        (if l.signed = true then BitVec.ofInt 32 (Bits.sext (8 * l.size) d) else BitVec.ofNat 32 d)
        else (s.dev.barge e).sreg q) ∧
      (∀ r, l.dest = .pair r → ∀ q, (t.barge e).sreg q = if q = 0 then 0 else if q = r + 1 then BitVec.ofNat 32 (d % 2 ^ 64 / 2 ^ 32)
        else if q = r then BitVec.ofNat 32 d else (s.dev.barge e).sreg q) ∧
      (∀ r, l.dest = .v r → (t.barge e).s = (s.dev.barge e).s ∧
        ∀ q, (t.barge e).vreg q = if q = r then BitVec.ofNat 128 d else (s.dev.barge e).vreg q)) ∧
    (s.dev.straitUp (e / 8) = true → Does (.loadResult e n .corrected) s (.barges :: Parts.fault) fun t =>
      (t.barge e).eccSeen = true ∧ (t.coll (e / 8)).latched.getLsbD 71 = true) ∧
    (s.dev.straitUp (e / 8) = true → (s.dev.barge e).xcpt = false →
      Does (.loadResult e n .uncorrectable) s (.barges :: Parts.fault) fun t =>
        (t.barge e).s = (s.dev.barge e).s ∧ (t.barge e).v = (s.dev.barge e).v ∧ (t.barge e).xcause = 7 ∧
        (t.barge e).xaddr = l.addr ∧ (t.barge e).xepc = (s.dev.barge e).pc / 4 * 4 ∧
        (t.coll (e / 8)).latched.getLsbD 72 = true)) ∧
  (∀ (e : BargeIx) (s : State) (l : LoadEnt) (pre post : List LoadEnt), (s.dev.barge e).lq = pre ++ l :: post → l.miss = true →
    (∀ m ∈ pre, m.miss = false) → (s.dev.barge e).dbg.haltReq = none →
    Does (.dataLineFill e) s [.barges] fun t => Only Dev.barge e s.dev t ∧ (t.barge e).dline = some (l.addr / 32) ∧
      (t.barge e).lq.length = (s.dev.barge e).lq.length - 1 ∧ (t.barge e).pc = (s.dev.barge e).pc ∧
      ∀ m ∈ (t.barge e).lq, m.addr / 32 = l.addr / 32 → m.miss = false) ∧
  (∀ (e : BargeIx) (s : State) (l : LoadEnt) (r : Nat) (pre post : List LoadEnt), (s.dev.barge e).lq = pre ++ l :: post →
    Mem.classOf l.addr = some .island → (∀ m ∈ pre, Mem.classOf m.addr ≠ some .island) → l.dest = .s r → r ≠ 0 →
    l.signed = false → (s.dev.barge e).dbg.haltReq = none → s.dev.straitUp (e / 8) = false →
    Does (.islandLoadReply e true) s [.barges] fun t => Only Dev.barge e s.dev t ∧ (t.barge e).sreg r = 0 ∧
      (t.barge e).accFail = true ∧ (t.barge e).lq = pre ++ post)

/-- The stores of Table 9-4: size in bytes, the registers they name and the value they store. -/
def StoreRow (k : Barge) (e : BargeIx) (r base : Fin 32) (v : Fin 16) (imm : BitVec 13) (i : Instr) (n : Nat)
    (regs vregs : List Nat) (val : Nat) : Prop :=
  (i = .stB e r base imm ∧ n = 1 ∧ regs = [r.val] ∧ vregs = [] ∧ val = (k.sreg r).toNat % 2 ^ 8) ∨
  (i = .stH e r base imm ∧ n = 2 ∧ regs = [r.val] ∧ vregs = [] ∧ val = (k.sreg r).toNat % 2 ^ 16) ∨
  (i = .stW e r base imm ∧ n = 4 ∧ regs = [r.val] ∧ vregs = [] ∧ val = (k.sreg r).toNat) ∨
  (i = .stD e r base imm ∧ r.val % 2 = 0 ∧ n = 8 ∧ regs = [r.val, r.val + 1] ∧ vregs = [] ∧
    val = (k.sreg r).toNat + (k.sreg (r.val + 1)).toNat * 2 ^ 32) ∨
  (i = .vstQ e v base imm ∧ n = 16 ∧ regs = [] ∧ vregs = [v.val] ∧ val = (k.vreg v).toNat)

/-- R208, R213, R218, R221, R223: a store that its class accepts enters the tail of the store buffer, and changes no memory
yet; a refused one, and the ninth store to IRAM, raise their exceptions; a full buffer makes it wait. The head entry then leaves:
it writes exactly its bytes, little-endian, or joins the patch queue when it goes to IRAM. -/
def Obligations.Stores : Prop :=
  (∀ (e : BargeIx) (r base : Fin 32) (v : Fin 16) (imm : BitVec 13) (i : Instr) (n : Nat) (regs vregs : List Nat) (val : Nat)
    (s : State), StoreRow (s.dev.barge e) e r base v imm i n regs vregs val → BargeReady s.dev e (base.val :: regs) vregs →
    let a := ((s.dev.barge e).sreg base + imm.signExtend 32).toNat
    (∀ code, Mem.check a n true = some code → (s.dev.barge e).xcpt = false → Traps i e code a s) ∧
    (Mem.check a n true = none → a < 0x10000 → 8 ≤ (s.dev.barge e).patchCount → (s.dev.barge e).xcpt = false →
      Traps i e 8 a s) ∧
    (Mem.check a n true = none → (0x10000 ≤ a ∨ (s.dev.barge e).patchCount < 8) → (s.dev.barge e).sb.length < 4 →
      (s.dev.barge e).watchAt a true = none →
      Does i s [.barges] fun t => Only Dev.barge e s.dev t ∧ BargeNext (s.dev.barge e) (t.barge e) ∧
        (t.barge e).sb = (s.dev.barge e).sb ++ [{ addr := a, size := n, data := val }] ∧
        (t.barge e).patchCount = (s.dev.barge e).patchCount + (if a < 0x10000 then 1 else 0) ∧
        (t.barge e).s = (s.dev.barge e).s ∧ (t.barge e).dram = (s.dev.barge e).dram ∧
        (t.barge e).iram = (s.dev.barge e).iram ∧ (t.barge e).patches = (s.dev.barge e).patches) ∧
    (Mem.check a n true = none → (0x10000 ≤ a ∨ (s.dev.barge e).patchCount < 8) → 4 ≤ (s.dev.barge e).sb.length →
      Does i s [.barges] fun t => Only Dev.barge e s.dev t ∧ (t.barge e).pc = (s.dev.barge e).pc ∧
        (t.barge e).sb = (s.dev.barge e).sb)) ∧
  (∀ (e : BargeIx) (r base : Fin 32) (imm : BitVec 13) (s : State), r.val % 2 = 1 → BargeReady s.dev e [] [] →
    (s.dev.barge e).xcpt = false → Traps (.stD e r base imm) e 1 0 s) ∧
  (∀ (e : BargeIx) (s : State), (s.dev.barge e).sb = [] → NoEffect (.storeDrain e) s) ∧
  (∀ (e : BargeIx) (s : State) (x : StoreEnt) (rest : List StoreEnt), (s.dev.barge e).sb = x :: rest →
    (s.dev.barge e).dbg.haltReq = none →
    (Mem.classOf x.addr = some .dram → Does (.storeDrain e) s [.barges] fun t => Only Dev.barge e s.dev t ∧
      (t.barge e).sb = rest ∧ ∀ o, Sparse.get (fun _ => 0) (t.barge e).dram o =
        if x.addr - 0x10000 ≤ o ∧ o < x.addr - 0x10000 + x.size then BitVec.ofNat 8 (x.data / 256 ^ (o - (x.addr - 0x10000)))
        else Sparse.get (fun _ => 0) (s.dev.barge e).dram o) ∧
    (Mem.classOf x.addr = some .iram → Does (.storeDrain e) s [.barges] fun t => Only Dev.barge e s.dev t ∧
      (t.barge e).sb = rest ∧ (t.barge e).patches = (s.dev.barge e).patches ++ [x] ∧
      (t.barge e).iram = (s.dev.barge e).iram) ∧
    (Mem.classOf x.addr = some .sram → Does (.storeDrain e) s [.barges, .sram] fun t => (t.barge e).sb = rest ∧
      ∀ o, t.sramByte o = if x.addr - 0x10000000 ≤ o ∧ o < x.addr - 0x10000000 + x.size then
        BitVec.ofNat 8 (x.data / 256 ^ (o - (x.addr - 0x10000000))) else s.dev.sramByte o) ∧
    (Mem.classOf x.addr = some .rram → Does (.storeDrain e) s [.barges, .rram] fun t => (t.barge e).sb = rest ∧
      ∀ o, t.rramByte o = if e.val / 8 * 0x200000 + (x.addr - 0x01000000) ≤ o ∧
          o < e.val / 8 * 0x200000 + (x.addr - 0x01000000) + x.size then
        BitVec.ofNat 8 (x.data / 256 ^ (o - (e.val / 8 * 0x200000 + (x.addr - 0x01000000)))) else s.dev.rramByte o))

/-- The conditional branches of Table 9-5 with their conditions. -/
def BranchRow (e : BargeIx) (a b : Fin 32) (imm : BitVec 13) (i : Instr) (p : Word → Word → Prop) : Prop :=
  (i = .bEq e a b imm ∧ p = fun x y => x = y) ∨ (i = .bNe e a b imm ∧ p = fun x y => x ≠ y) ∨
  (i = .bLt e a b imm ∧ p = fun x y => x.toInt < y.toInt) ∨ (i = .bGe e a b imm ∧ p = fun x y => y.toInt ≤ x.toInt) ∨
  (i = .bLtu e a b imm ∧ p = fun x y => x.toNat < y.toNat) ∨ (i = .bGeu e a b imm ∧ p = fun x y => y.toNat ≤ x.toNat)

/-- R207, R216, R217, R229 and Table 9-5: a branch goes pc + 4 x imm13 when its condition holds, and to the next instruction
otherwise; jmp and jmpr write pc + 4 and jump; no branch changes another register; trap, brk and an illegal word raise their
exceptions; a fetch out of range raises FETCH_RANGE; line fills hold at most two lines. -/
def Obligations.ControlFlow : Prop :=
  (∀ (e : BargeIx) (a b : Fin 32) (imm : BitVec 13) (i : Instr) (p : Word → Word → Prop) (s : State),
    BranchRow e a b imm i p → BargeReady s.dev e [a, b] [] →
    Does i s [.barges] fun t => Only Dev.barge e s.dev t ∧ (t.barge e).s = (s.dev.barge e).s ∧
      (t.barge e).v = (s.dev.barge e).v ∧
      (p ((s.dev.barge e).sreg a) ((s.dev.barge e).sreg b) →
        (t.barge e).pc = (BitVec.ofNat 32 (s.dev.barge e).pc + imm.signExtend 32 * 4).toNat) ∧
      (¬ p ((s.dev.barge e).sreg a) ((s.dev.barge e).sreg b) → BargeNext (s.dev.barge e) (t.barge e))) ∧
  (∀ (e : BargeIx) (d base : Fin 32) (imm21 : BitVec 21) (imm : BitVec 13) (i : Instr) (n : Nat) (regs : List Nat) (s : State),
    ((i = .jmp e d imm21 ∧ regs = [d.val] ∧ n = (BitVec.ofNat 32 (s.dev.barge e).pc + imm21.signExtend 32 * 4).toNat) ∨
      (i = .jmpr e d base imm ∧ regs = [d.val, base.val] ∧
        n = ((s.dev.barge e).sreg base + imm.signExtend 32).toNat / 4 * 4)) → BargeReady s.dev e regs [] →
    Does i s [.barges] fun t => Only Dev.barge e s.dev t ∧ (t.barge e).pc = n ∧ (t.barge e).v = (s.dev.barge e).v ∧
      ∀ r, (t.barge e).sreg r = if r = d.val ∧ r ≠ 0 then BitVec.ofNat 32 ((s.dev.barge e).pc + 4)
        else (s.dev.barge e).sreg r) ∧
  (∀ (e : BargeIx) (s : State), BargeReady s.dev e [] [] → (s.dev.barge e).xcpt = false →
    Traps (.trap e) e 9 0 s ∧ Traps (.illegal e) e 1 0 s ∧
    ((s.dev.debugOpen = false ∨ s.dev.rb RegMap.dbgCtrl 2 = false) → Traps (.brk e) e 10 0 s)) ∧
  (∀ (e : BargeIx) (s : State), (s.dev.barge e).mayIssue = true → s.dev.pwr.mode ≠ 2 → (s.dev.barge e).breakAt = none →
    Barge.fetchable (s.dev.barge e).pc = false → (s.dev.barge e).dbg.stepping = false → (s.dev.barge e).xcpt = false →
    ∀ i, (i = .trap e ∨ i = .illegal e ∨ i = .drain e ∨ i = .ei e ∨ i = .syncI e) → Traps i e 2 (s.dev.barge e).pc s) ∧
  (∀ (e : BargeIx) (s : State),
    Does (.fetchLineFill e) s [.barges] (fun t => Only Dev.barge e s.dev t ∧ (t.barge e).pc = (s.dev.barge e).pc ∧
      (Barge.inFlash (s.dev.barge e).pc = true → (s.dev.barge e).lines.contains ((s.dev.barge e).pc / 32) = false →
        (t.barge e).lines.head? = some ((s.dev.barge e).pc / 32) ∧ (t.barge e).lines.length ≤ 2 ∧
        (t.barge e).prefetch = none)) ∧
    Does (.prefetchComplete e) s [.barges] (fun t => Only Dev.barge e s.dev t ∧ (t.barge e).prefetch = none ∧
      ∀ l, (s.dev.barge e).prefetch = some l → (t.barge e).lines.head? = some l ∧ (t.barge e).lines.length ≤ 2))

/-- R218, R221, R222, R224, R225, R228, R229: drain waits for the store buffer and the load queue; sync.i writes each byte of
the newest patch into IRAM and forgets the lines, the BTB and the patches; wait.i waits; di and ei set GIE; ret.x returns to
the saved address and status when no source is eligible above them. -/
def Obligations.SystemInstructions : Prop :=
  (∀ (e : BargeIx) (s : State), BargeReady s.dev e [] [] →
    Does (.drain e) s [.barges] (fun t => Only Dev.barge e s.dev t ∧ (t.barge e).s = (s.dev.barge e).s ∧
      ((s.dev.barge e).sb = [] → (s.dev.barge e).lq = [] → BargeNext (s.dev.barge e) (t.barge e)) ∧
      (((s.dev.barge e).sb ≠ [] ∨ (s.dev.barge e).lq ≠ []) → (t.barge e).pc = (s.dev.barge e).pc)) ∧
    ((s.dev.barge e).sb = [] → Does (.syncI e) s [.barges] fun t => Only Dev.barge e s.dev t ∧
      BargeNext (s.dev.barge e) (t.barge e) ∧
      (∀ a, Sparse.get (fun _ => 0) (t.barge e).iram a = (s.dev.barge e).iramByte a) ∧ (t.barge e).patches = [] ∧
      (t.barge e).patchCount = 0 ∧ (t.barge e).lines = [] ∧ (t.barge e).dline = none ∧ (t.barge e).btb = []) ∧
    ((s.dev.barge e).sb ≠ [] → Does (.syncI e) s [.barges] fun t => (t.barge e).pc = (s.dev.barge e).pc ∧
      (t.barge e).iram = (s.dev.barge e).iram ∧ (t.barge e).patches = (s.dev.barge e).patches) ∧
    Does (.waitI e) s [.barges] (fun t => Only Dev.barge e s.dev t ∧ (t.barge e).waiting = true ∧
      BargeNext (s.dev.barge e) (t.barge e) ∧ (t.barge e).s = (s.dev.barge e).s) ∧
    Does (.di e) s [.barges] (fun t => Only Dev.barge e s.dev t ∧ (t.barge e).gie = false ∧
      BargeNext (s.dev.barge e) (t.barge e) ∧ (t.barge e).pend = (s.dev.barge e).pend) ∧
    Does (.ei e) s [.barges] (fun t => Only Dev.barge e s.dev t ∧ (t.barge e).gie = true ∧
      BargeNext (s.dev.barge e) (t.barge e) ∧ (t.barge e).pend = (s.dev.barge e).pend)) ∧
  (∀ (e : BargeIx) (s : State) (ret stat : Nat), BargeReady s.dev e [] [] → (s.dev.barge e).ready = [] →
    (((s.dev.barge e).xcpt = true ∧ ret = (s.dev.barge e).xepc ∧ stat = (s.dev.barge e).xstat) ∨
      ((s.dev.barge e).xcpt = false ∧ ret = Sparse.get (fun _ => 0) (s.dev.barge e).epc (s.dev.barge e).level ∧
        stat = Sparse.get (fun _ => 0) (s.dev.barge e).estat (s.dev.barge e).level)) → stat < 512 →
    Does (.retX e) s [.barges] fun t => Only Dev.barge e s.dev t ∧ (t.barge e).pc = ret ∧ (t.barge e).status = stat ∧
      (t.barge e).s = (s.dev.barge e).s ∧ (t.barge e).v = (s.dev.barge e).v ∧ (t.barge e).pend = (s.dev.barge e).pend)

/-- R224 to R226, R231: an entry accepts the pending and enabled source of the highest level above the running one, the lowest
number first; its pending bit clears, the slot of its level takes the address and status, and the handler's vector is read. A
timer source is set pending once; sources are set and cleared by software; a 32-bit read of a low word latches the high one. -/
def Obligations.Interrupts : Prop :=
  (∀ (e : BargeIx) (s : State), (s.dev.barge e).eligible = none → ∀ ecc, NoEffect (.interruptEntry e ecc) s) ∧
  (∀ (e : BargeIx) (s : State) (n : Nat), (s.dev.barge e).eligible = some n → s.dev.pwr.mode ≠ 2 → (s.dev.barge e).run = true →
    (s.dev.barge e).seized = false → (s.dev.barge e).dbg.halted = false → (s.dev.barge e).dbg.haltReq = none →
    (s.dev.barge e).dbg.stepping = false →
    Does (.interruptEntry e false) s [.barges] fun t => Only Dev.barge e s.dev t ∧
      (s.dev.barge e).pend.getLsbD n = true ∧ (s.dev.barge e).en.getLsbD n = true ∧
      (∀ m ∈ (s.dev.barge e).ready, (s.dev.barge e).running = none ∨ (s.dev.barge e).level < (s.dev.barge e).levelOf m →
        (s.dev.barge e).levelOf m < (s.dev.barge e).levelOf n ∨
        ((s.dev.barge e).levelOf m = (s.dev.barge e).levelOf n ∧ n ≤ m)) ∧
      (∀ m, (t.barge e).pend.getLsbD m = ((s.dev.barge e).pend.getLsbD m && decide (m ≠ n))) ∧
      (t.barge e).level = (s.dev.barge e).levelOf n ∧ (t.barge e).depth = (s.dev.barge e).depth + 1 ∧
      Sparse.get (fun _ => 0) (t.barge e).epc ((s.dev.barge e).levelOf n) = (s.dev.barge e).pc ∧
      Sparse.get (fun _ => 0) (t.barge e).estat ((s.dev.barge e).levelOf n) = (s.dev.barge e).status ∧
      (t.barge e).pc = (s.dev.barge e).vector (4 * n) ∧ (t.barge e).waiting = false ∧
      (t.barge e).s = (s.dev.barge e).s ∧ (t.barge e).v = (s.dev.barge e).v) ∧
  (∀ (e : BargeIx) (n : Fin 2) (s : State),
    (Bits.nbit (s.dev.barge e).tmrHit n = true ∨ s.dev.bgCycle e < (s.dev.barge e).tmrCmp n →
      NoEffect (.timerCompare e n) s) ∧
    (Bits.nbit (s.dev.barge e).tmrHit n = false → (s.dev.barge e).tmrCmp n ≤ s.dev.bgCycle e →
      Does (.timerCompare e n) s [.barges] fun t => Only Dev.barge e s.dev t ∧
        (t.barge e).pend.getLsbD (19 + n.val) = true ∧ Bits.nbit (t.barge e).tmrHit n = true ∧
        ∀ m, m < 16 → (t.barge e).pend.getLsbD m = ((s.dev.barge e).pend.getLsbD m ||
          (Bits.bit ((s.dev.barge e).moorCfg m) 0 && decide ((s.dev.barge e).bind m = 2 + n.val))))) ∧
  (∀ (e : BargeIx) (v : DWord) (s : State),
    Becomes (.irqSet e v) s (s.dev.setBarge e { s.dev.barge e with
      pend := (s.dev.barge e).pend ||| (v &&& ~~~ (1#64 <<< 39)) }) ∧
    Becomes (.irqClr e v) s (s.dev.setBarge e { s.dev.barge e with pend := (s.dev.barge e).pend &&& ~~~ v }) ∧
    Becomes (.bgLowWordRead e 0x80) s { s.dev.setBarge e { s.dev.barge e with
        latch := BitVec.ofNat 32 ((s.dev.barge e).pend.toNat >>> 32) } with
      out := s.dev.out ++ [.readData [BitVec.ofNat 32 (s.dev.barge e).pend.toNat]] } ∧
    Becomes (.bgLowWordRead e 0x20) s { s.dev.setBarge e { s.dev.barge e with
        latch := BitVec.ofNat 32 (s.dev.bgCycle e >>> 32) } with
      out := s.dev.out ++ [.readData [BitVec.ofNat 32 (s.dev.bgCycle e)]] })

/-! ### Moored and loose tasks (10) -/

/-- R234, R235, R237 to R246: the dispatcher of an idle barge takes the head of its own queue when it fits the horizon, and
writes the token's words to s28 to s31; an empty queue without STEAL_EN dispatches nothing; tokens queue in order and a push to
a full queue is discarded; a poke sets its source on the named barges; overruns set their source and raise TASK_OVERRUN; and
an announced release sets NEXT of a lock-only slot. -/
def Obligations.Tasks : Prop :=
  (∀ (e : BargeIx) (s : State) (t0 : Quad) (rest : List Quad), (s.dev.barge e).idle = true →
    (s.dev.barge e).eligible = none → s.dev.pwr.mode ≠ 2 → (s.dev.barge e).tq.running = none →
    (s.dev.barge e).tq.queue = t0 :: rest →
    (s.dev.fits e t0 = true → s.dev.hp.slots = [] → s.dev.nodes = [] →
      Does (.dispatch e) s [.barges, .hp, .nodes] fun t => Only Dev.barge e s.dev t ∧
        (t.barge e).tq.queue = rest ∧ (t.barge e).tq.running = some t0 ∧ (t.barge e).tq.runStart = s.dev.bgCycle e ∧
        (t.barge e).pc = t0.toNat % 2 ^ 32 / 4 * 4 ∧ (t.barge e).waiting = false ∧
        (∀ j, j < 4 → (t.barge e).sreg (28 + j) = BitVec.ofNat 32 (t0.toNat >>> (32 * j))) ∧
        (∀ r, r < 28 → (t.barge e).sreg r = (s.dev.barge e).sreg r) ∧ (t.barge e).v = (s.dev.barge e).v) ∧
    (s.dev.fits e t0 = false → NoEffect (.dispatch e) s)) ∧
  (∀ (e : BargeIx) (s : State), (s.dev.barge e).idle = true → (s.dev.barge e).tq.running = none →
    (s.dev.barge e).tq.queue = [] → Bits.nbit (s.dev.barge e).tq.cfg 1 = false → NoEffect (.dispatch e) s) ∧
  (∀ (e : BargeIx) (s : State) (t0 : Quad), (s.dev.barge e).idle = false →
    (s.dev.barge e).tq.running = some t0 → (s.dev.barge e).tq.overrun = false → s.dev.straitUp (e / 8) = true →
    NoEffect (.dispatch e) s ∧
    Does (.looseOverrun e) s (.barges :: Parts.fault) fun t => (t.barge e).pend.getLsbD 21 = true ∧
      (t.barge e).tq.overrun = true ∧ (t.barge e).tq.ovrLoose = true ∧ (t.barge e).tq.running = some t0 ∧
      (t.coll (e / 8)).latched.getLsbD 74 = true) ∧
  (∀ (e : BargeIx) (s : State) (n : Nat), n = Sparse.get (fun _ => 0) (s.dev.barge e).srcAt (s.dev.barge e).level →
    ((s.dev.barge e).depth = 0 ∨ 16 ≤ n → NoEffect (.mooredOverrun e) s) ∧
    (0 < (s.dev.barge e).depth → n < 16 → Bits.fld ((s.dev.barge e).moorCfg n) 4 16 ≠ 0 → s.dev.straitUp (e / 8) = true →
      Does (.mooredOverrun e) s (.barges :: Parts.fault) fun t => (t.barge e).pend.getLsbD 22 = true ∧
        (t.barge e).tq.ovrMoored = true ∧ (t.barge e).tq.ovrSlot = n ∧ (t.coll (e / 8)).latched.getLsbD 74 = true)) ∧
  (∀ (e : BargeIx) (n : Fin 8) (hi : DWord) (s : State), n.val ≠ e % 8 →
    let q := e.val / 8 * 8 + n.val
    ((s.dev.barge q).tq.queue.length < 32 → Does (.tqPush e n hi) s [.barges] fun t => Only Dev.barge q s.dev t ∧
      (t.barge q).tq.queue = (s.dev.barge q).tq.queue ++
        [hi ++ Sparse.get (fun _ => 0) (s.dev.barge e).tq.pushLow n]) ∧
    (32 ≤ (s.dev.barge q).tq.queue.length → Becomes (.tqPush e n hi) s (s.dev.setBarge e { s.dev.barge e with
      tq := { (s.dev.barge e).tq with pushFull := true } }))) ∧
  (∀ (e : BargeIx) (m : Byte) (s : State), Does (.poke e m) s [.barges] fun t =>
    ∀ f, t.barge f = if f / 8 = e / 8 ∧ m.getLsbD (f % 8) = true then
      { s.dev.barge f with pend := (s.dev.barge f).pend ||| (1#64 <<< (40 + e.val % 8)) } else s.dev.barge f) ∧
  (∀ (e : BargeIx) (n : Fin 16) (time : Option DWord) (s : State),
    ((s.dev.barge e).bind n ≠ 0 → NoEffect (.releaseAnnounce e n time) s) ∧
    ((s.dev.barge e).bind n = 0 → Does (.releaseAnnounce e n time) s [.barges] fun t => Only Dev.barge e s.dev t ∧
      (t.barge e).pend = (s.dev.barge e).pend ∧
      (time = none → (t.barge e).moorNext (s.dev.bgCycle e) n = 2 ^ 64 - 1) ∧
      ∀ w, time = some w → s.dev.tbTime + 20 ≤ w.toNat → s.dev.bgCycle e < 2 ^ 63 →
        (t.barge e).moorNext (s.dev.bgCycle e) n =
          s.dev.bgCycle e + (w.toNat - s.dev.tbTime - 20) * 2046 / 5120))

/-- `Rules.VectorLanes` and `Rules.VectorPairs` together. -/
def Obligations.VectorInstructions : Prop := Rules.VectorLanes ∧ Rules.VectorPairs

/-- `Rules.Loads` and `Rules.LoadResults` together. -/
def Obligations.LoadInstructions : Prop := Rules.Loads ∧ Rules.LoadResults

/-! ### Host port and rings (11) -/

/-- The device after the one completion of a command (R260): status, results, and its slot answered. -/
def CmdDone (s : Dev) (d : Desc) (op st : Nat) (r0 r1 : Nat) : Dev :=
  { s with
    complq := s.complq ++ [{ cmdRing := d.ring.toNat, cmdId := d.cmdId.toNat, opcode := op, status := st
                             r0 := BitVec.ofNat 32 r0, r1 := BitVec.ofNat 32 r1 }]
    hp := { s.hp with slots := s.hp.slots.map (fun (x : CmdSlot) =>
      if x.ring = d.ring.toNat ∧ x.cmdId = d.cmdId.toNat then { x with answered := true, held := false } else x) } }

/-- The command completes with a status and has no effect (R277). -/
def Refused (i : Instr) (s : State) (d : Desc) (op st : Nat) : Prop := Becomes i s (CmdDone s.dev d op st 0 0)

/-- EV_RING_ERROR of a ring (Table 11-10). -/
def RingError (s : Dev) (r reason : Nat) (v : Word) : Event :=
  { stream := 0x8C, code := 0x200, payload := Bits.words2 s.tbTime ++ [BitVec.ofNat 32 (r + reason * 2 ^ 20), v] }

/-- Of the host port, only ring contexts, the cache and what waits to be written back differ. -/
def RingsOnly (h h' : HostPort) : Prop :=
  h' = { h with rings := h'.rings, cached := h'.cached, dirty := h'.dirty }

/-- The cases in which a doorbell is discarded (R257). -/
def DoorbellBad (k : RingCtx) (v : Word) (word : Bool) : Prop :=
  word = false ∨ k.active = false ∨ Bits.fld v 16 15 ≠ 0 ∨ (v.getLsbD 31 = true ∧ k.toDevice = true) ∨
  k.size ≤ Bits.fld v 0 16 ∨
  (k.toDevice = true ∧ k.size - 1 - k.dist k.host k.dev < k.dist (Bits.fld v 0 16) k.host) ∨
  (k.toDevice = false ∧ k.dist k.dev k.host < k.dist (Bits.fld v 0 16) k.host)

/-- R249, R252, R254, R257, R270: a bad doorbell is discarded, counted and reported; an accepted one moves the host's index,
enters the doorbell array and re-arms moderation with ARM; a context that is needed enters the cache, and an invalid one is
reported; a flush writes every changed context back; and EN builds rings 0 and 1 afresh, once. -/
def Obligations.DoorbellsAndContexts : Prop :=
  (∀ (r : RingIx) (v : Word) (word : Bool) (s : State), let k := s.dev.ringAt r.toNat
    (DoorbellBad k v word → Becomes (.doorbell r v word) s { s.dev with
      hp := { s.dev.hp with dbBad := min 255 (s.dev.hp.dbBad + 1) }
      evq := s.dev.evq ++ [RingError s.dev r.toNat 1 v] }) ∧
    (¬ DoorbellBad k v word → s.dev.hp.loss = none → Does (.doorbell r v word) s [.hp, .ops, .evq] fun t =>
      (∀ q, q ≠ r.toNat → t.ringAt q = s.dev.ringAt q) ∧
      t.hp.slots = s.dev.hp.slots ∧ t.hp.fetched = s.dev.hp.fetched ∧ t.hp.dbBad = s.dev.hp.dbBad ∧
      (∀ q, Sparse.get (fun _ => 0) t.hp.doorbells q =
        if q = r.toNat then v else Sparse.get (fun _ => 0) s.dev.hp.doorbells q) ∧
      (t.ringAt r.toNat).host = Bits.fld v 0 16 ∧ (t.ringAt r.toNat).dev = k.dev ∧
      (v.getLsbD 31 = true → (t.ringAt r.toNat).armed = true ∧ (t.ringAt r.toNat).timer = 0 ∧
        (t.ringAt r.toNat).n = (if k.kind = 3 then k.dist k.dev (Bits.fld v 0 16) / 2 else k.dist k.dev (Bits.fld v 0 16))) ∧
      (v.getLsbD 31 = false → t.ringAt r.toNat = { k with host := Bits.fld v 0 16 }) ∧
      t.hp.hbRunning = (s.dev.hp.hbRunning ||
        (s.dev.rb RegMap.hpHbCfg 12 && decide (s.dev.rf RegMap.hpHbCfg 0 10 ≠ 0))))) ∧
  (∀ (r : RingIx) (valid : Bool) (s : State),
    ((r.toNat ∈ s.dev.hp.cached ∨ (s.dev.ringAt r.toNat).active = false ∨ s.dev.hostReach = false) →
      NoEffect (.contextFetch r valid) s) ∧
    (r.toNat ∉ s.dev.hp.cached → (s.dev.ringAt r.toNat).active = true → s.dev.hostReach = true →
      Becomes (.contextFetch r false) s { s.dev with evq := s.dev.evq ++ [RingError s.dev r.toNat 2 0] } ∧
      (s.dev.hp.cached.length < 4096 → Becomes (.contextFetch r true) s { s.dev with
        hp := { s.dev.hp with cached := r.toNat :: s.dev.hp.cached } }) ∧
      Does (.contextFetch r true) s [.hp, .out] fun t => RingsOnly s.dev.hp t.hp ∧ t.hp.cached.head? = some r.toNat ∧
        ∀ q, t.ringAt q = s.dev.ringAt q ∧
          ((q < 2 ∨ (s.dev.ringAt q).pin = true) → q ∈ s.dev.hp.cached → q ∈ t.hp.cached))) ∧
  (∀ (s : State), (s.dev.hostReach = false → NoEffect .ctxFlush s) ∧
    (s.dev.hostReach = true → Becomes .ctxFlush s { s.dev with
      hp := { s.dev.hp with dirty := [] }
      out := s.dev.out ++ s.dev.hp.dirty.map (fun (r : Nat) => Out.hostWrite (s.dev.ctxAddr r) (s.dev.ringAt r).words) })) ∧
  (∀ (s : State), (s.dev.hpEn = true → NoEffect .hpEnable s) ∧
    (s.dev.hpEn = false → Does .hpEnable s [.regs, .hp, .out] fun t => t.hpEn = true ∧ t.hp.ready = true ∧
      (∀ o, o ≠ RegMap.hpCtrl → t.reg o = s.dev.reg o) ∧ t.hp.slots = s.dev.hp.slots ∧
      (∀ q, 2 ≤ q → t.ringAt q = s.dev.ringAt q ∧
        Sparse.get (fun _ => 0) t.hp.doorbells q = Sparse.get (fun _ => 0) s.dev.hp.doorbells q) ∧
      (∀ q, q < 2 → (t.ringAt q).active = true ∧ (t.ringAt q).dev = 0 ∧ (t.ringAt q).host = 0 ∧ (t.ringAt q).phase = true ∧
        (t.ringAt q).armed = true ∧ Sparse.get (fun _ => 0) t.hp.doorbells q = 0) ∧
      (t.ringAt 0).log2 = max 4 (min 12 (s.dev.rf RegMap.hpAdminCfg 0 5)) ∧ (t.ringAt 0).bound = 1 ∧
      (t.ringAt 0).credits = min 64 (2 ^ (t.ringAt 0).log2 - 1) ∧ (t.ringAt 0).kind = 0 ∧
      (t.ringAt 1).log2 = max 7 (min 12 (s.dev.rf RegMap.hpAdminCfg 5 5)) ∧ (t.ringAt 1).kind = 1 ∧
      (t.ringAt 1).coalCount = 1 ∧ (t.ringAt 1).coalTime = 0 ∧ (t.ringAt 1).wb = 0))

/-- Entries of the ring context table (R473). -/
def RingTable (s : Dev) : Nat := 2 ^ max 4 (min 20 (s.rf RegMap.hpCtxCfg 0 5))

/-- The four ring commands with their opcodes and parameter masks (R473, Table 11-4a). -/
def RingRow (d : Desc) (i : Instr) (op : Nat) (masks : List Nat) : Prop :=
  (∃ ctx, i = .ringCreate d ctx ∧ op = 1 ∧ masks = [0xFFFFF]) ∨
  (i = .ringModify d ∧ op = 2 ∧ masks = [0xFFFFF, 0x1F, 0x107FF, Cmd.all, Cmd.all, Cmd.all]) ∨
  (i = .ringDestroy d ∧ op = 3 ∧ masks = [0xFFFFF]) ∨
  (∃ ok, i = .ringQuery d ok ∧ op = 4 ∧ masks = [0xFFFFF, Cmd.all, Cmd.all])

/-- R251, R253, R277, R473: a ring command outside ring 0 is ST_BAD_OPCODE, a bad descriptor ST_BAD_DESCRIPTOR, and a ring id
beyond the table ST_BAD_PARAM, without effect; RING_CREATE activates a ring whose context is in range and fits, with its indices
at 0; RING_MODIFY changes the class L fields that MASK selects; RING_DESTROY clears ACTIVE and the routes of the ring; and
RING_QUERY reports the context. -/
def Obligations.RingCommands : Prop :=
  (∀ (d : Desc) (i : Instr) (op : Nat) (masks : List Nat) (s : State), RingRow d i op masks →
    (d.ring ≠ 0 → Refused i s d op 3) ∧
    (d.ring = 0 → d.check [0] masks = false → Refused i s d op 4) ∧
    (d.ring = 0 → d.check [0] masks = true → RingTable s.dev ≤ d.pf 0 0 20 → Refused i s d op 0x10)) ∧
  (∀ (d : Desc) (x : CtxImage) (s : State), d.ring = 0 → d.check [0] [0xFFFFF] = true →
    d.pf 0 0 20 < RingTable s.dev →
    (((x.kind.toNat = 3 ∨ x.kind.toNat = 4) ∧ x.wb = 0) ∨ x.log2.toNat < 4 ∨ 16 < x.log2.toNat ∨ x.base.toNat % 4096 ≠ 0 ∨
      (x.kind = 0 ∧ ((s.dev.ringAt x.bound.toNat).active = false ∨ (s.dev.ringAt x.bound.toNat).kind ≠ 1)) →
      Refused (.ringCreate d (some x)) s d 1 0x10) ∧
    ((s.dev.ringAt (d.pf 0 0 20)).active = true → s.dev.ctxOk (d.pf 0 0 20) x = true →
      Refused (.ringCreate d (some x)) s d 1 0x12) ∧
    ((s.dev.ringAt (d.pf 0 0 20)).active = false → s.dev.ctxOk (d.pf 0 0 20) x = true → s.dev.ctxFits x = false →
      Refused (.ringCreate d (some x)) s d 1 0x14) ∧
    ((s.dev.ringAt (d.pf 0 0 20)).active = false → s.dev.ctxOk (d.pf 0 0 20) x = true → s.dev.ctxFits x = true →
      Does (.ringCreate d (some x)) s [.hp, .complq, .out] fun t => t.complq = (CmdDone s.dev d 1 0 (d.pf 0 0 20) 0).complq ∧
        (∀ q, q ≠ d.pf 0 0 20 → t.ringAt q = s.dev.ringAt q) ∧
        Sparse.get (fun _ => 0) t.hp.doorbells (d.pf 0 0 20) = 0 ∧
        t.ringAt (d.pf 0 0 20) = {
          active := true, kind := x.kind.toNat, log2 := x.log2.toNat, pin := x.pin, irqEn := x.irqEn, bound := x.bound.toNat
          vector := x.vector.toNat, credits := x.credits.toNat, coalCount := x.coalCount.toNat, coalTime := x.coalTime.toNat
          base := x.base.toNat, wb := x.wb.toNat, user := x.user.toNat, dev := 0, host := 0, drop := 0, seq := 0
          phase := true, armed := true })) ∧
  (∀ (d : Desc) (s : State), d.ring = 0 → d.check [0] [0xFFFFF, 0x1F, 0x107FF, Cmd.all, Cmd.all, Cmd.all] = true →
    d.pf 0 0 20 < RingTable s.dev → let k := s.dev.ringAt (d.pf 0 0 20); let m := d.par 1
    (((m ≠ 0 ∧ k.active = false) ∨ (m % 16 ≠ 0 ∧ k.toDevice = true)) → Refused (.ringModify d) s d 2 0x10) ∧
    (¬((m ≠ 0 ∧ k.active = false) ∨ (m % 16 ≠ 0 ∧ k.toDevice = true)) → Does (.ringModify d) s [.hp, .complq] fun t =>
      t.complq = (CmdDone s.dev d 2 0 m 0).complq ∧ (∀ q, q ≠ d.pf 0 0 20 → t.ringAt q = s.dev.ringAt q) ∧
      t.ringAt (d.pf 0 0 20) = { k with
        irqEn := (if Bits.nbit m 0 = true then Bits.nbit (d.par 2) 16 else k.irqEn)
        vector := (if Bits.nbit m 1 = true then d.pf 2 0 11 else k.vector)
        coalCount := (if Bits.nbit m 2 = true then d.pf 3 0 16 else k.coalCount)
        coalTime := (if Bits.nbit m 3 = true then d.pf 3 16 16 else k.coalTime)
        user := (if Bits.nbit m 4 = true then d.par64 4 else k.user) })) ∧
  (∀ (d : Desc) (s : State), d.ring = 0 → d.check [0] [0xFFFFF] = true → d.pf 0 0 20 < RingTable s.dev →
    let r := d.pf 0 0 20; let k := s.dev.ringAt r
    (r < 2 → Refused (.ringDestroy d) s d 3 0x10) ∧
    (2 ≤ r → k.active = true → ((k.kind = 0 ∧ ∃ x ∈ s.dev.hp.slots, x.ring = r) ∨
      (k.kind = 1 ∧ ∃ q ∈ s.dev.commandRings, q.2.bound = r)) → Refused (.ringDestroy d) s d 3 0x12) ∧
    (2 ≤ r → k.active = true → ¬(k.kind = 0 ∧ s.dev.ringHolds r = true) →
      ¬(k.kind = 1 ∧ ∃ q ∈ s.dev.commandRings, q.2.bound = r) →
      Does (.ringDestroy d) s [.regs, .hp, .complq, .out] fun t => t.complq = (CmdDone s.dev d 3 0 0 0).complq ∧
        (∀ q, t.ringAt q = if q = r then { k with active := false } else s.dev.ringAt q) ∧
        (∀ i, i < 256 → t.rb (RegMap.hpRoute i) 20 = (s.dev.rb (RegMap.hpRoute i) 20 &&
          !((k.kind == 2 || k.kind == 3) && s.dev.rf (RegMap.hpRoute i) 0 20 == r))) ∧
        s.dev.out ++ [Out.hostWrite (s.dev.ctxAddr r) ({ k with active := false } : RingCtx).words] = t.out)) ∧
  (∀ (d : Desc) (ok : Bool) (s : State), d.ring = 0 → d.check [0] [0xFFFFF, Cmd.all, Cmd.all] = true →
    d.pf 0 0 20 < RingTable s.dev →
    let k := s.dev.ringAt (d.pf 0 0 20); let done := CmdDone s.dev d 4 0 (k.dev + k.host * 65536) k.drop
    (d.par64 1 % 64 ≠ 0 → Refused (.ringQuery d ok) s d 4 0x10) ∧
    (d.par64 1 = 0 → Becomes (.ringQuery d ok) s done) ∧
    (d.par64 1 % 64 = 0 → d.par64 1 ≠ 0 →
      Becomes (.ringQuery d true) s { done with out := s.dev.out ++ [Out.hostWrite (d.par64 1) k.words] } ∧
      Refused (.ringQuery d false) s d 4 0x19))

/-- The entry of a completion (Table 11-7). -/
def CompletionEntry (s : Dev) (c : Completion) (phase : Bool) : List Word :=
  [BitVec.ofNat 32 c.cmdId, BitVec.ofNat 32 (c.status + c.opcode * 2 ^ 16), BitVec.ofNat 32 c.cmdRing,
   BitVec.ofNat 32 ((s.ringAt c.cmdRing).dev + c.chunk.getD 0 * 2 ^ 16), BitVec.ofNat 32 c.handle, c.r0, c.r1,
   BitVec.ofNat 32 (Bits.b2n phase + Bits.b2n c.final * 2 + Bits.b2n c.chunk.isSome * 4)]

/-- The stream is routed to ring `r`, an active ring of the kind (R267). -/
def Routed (s : Dev) (stream kind r : Nat) : Prop :=
  stream < 0x90 ∧ s.rb (RegMap.hpRoute stream) 20 = true ∧ s.rf (RegMap.hpRoute stream) 0 20 = r ∧ 2 ≤ r ∧
  (s.ringAt r).active = true ∧ (s.ringAt r).kind = kind

/-- The stream goes nowhere (R267). -/
def Unrouted (s : Dev) (stream kind : Nat) : Prop :=
  0x90 ≤ stream ∨ s.rb (RegMap.hpRoute stream) 20 = false ∨
  (s.ringAt (s.rf (RegMap.hpRoute stream) 0 20)).active = false ∨
  (s.ringAt (s.rf (RegMap.hpRoute stream) 0 20)).kind ≠ kind

/-- R249, R250, R255, R256, R260 to R264, R267 to R269: a descriptor is read in ring order; one that cannot be read completes
with ST_FETCH_ERROR; a command is admitted within its credits and behind no fence, checked, and its token pushed to the barge
of its target with ORIGIN 1 and NO_STEAL 0; one that no barge takes completes with ST_BACKPRESSURE; completions, events and
records are written at the producer index of their rings, lossy ones dropped and counted; moderation sends the message of R270;
and an unmasked vector sends what it held. -/
def Obligations.EntriesAndAdmission : Prop :=
  (∀ (op : BitVec 16) (d : Desc) (s : State), let k := s.dev.ringAt d.ring.toNat
    ((s.dev.hpEn = false ∨ s.dev.hostReach = false ∨ k.active = false ∨ k.kind ≠ 0 ∨ k.dist k.host k.dev = 0) →
      NoEffect (.descriptorFetch op d) s) ∧
    (s.dev.hpEn = true → s.dev.hostReach = true → k.active = true → k.kind = 0 → k.dist k.host k.dev ≠ 0 →
      Does (.descriptorFetch op d) s [.hp, .out] fun t =>
        (∀ q, t.ringAt q = if q = d.ring.toNat then { k with dev := (k.dev + 1) % k.size } else s.dev.ringAt q) ∧
        t.hp.fetched = s.dev.hp.fetched ++ [{ opcode := op.toNat, d := d }] ∧ t.hp.slots = s.dev.hp.slots ∧
        (k.wb = 0 → t.out = s.dev.out))) ∧
  (∀ (r : RingIx) (x : ReadKind) (s : State), let k := s.dev.ringAt r.toNat
    ((x ≠ .descriptor ∨ k.active = false ∨ k.kind ≠ 0 ∨ k.dist k.host k.dev = 0) →
      Becomes (.hostReadError r x) s { s.dev with evq := s.dev.evq ++ [RingError s.dev r.toNat 3 0] }) ∧
    (k.active = true → k.kind = 0 → k.dist k.host k.dev ≠ 0 → Does (.hostReadError r .descriptor) s [.hp, .evq, .complq] fun t =>
      t.evq = s.dev.evq ++ [RingError s.dev r.toNat 3 0] ∧ RingsOnly s.dev.hp t.hp ∧
      (∀ q, t.ringAt q = if q = r.toNat then { k with dev := (k.dev + 1) % k.size } else s.dev.ringAt q) ∧
      t.complq = s.dev.complq ++ [{ cmdRing := r.toNat, cmdId := 0, opcode := 0, status := 5, first := false }])) ∧
  (∀ (r : RingIx) (f : Fetched) (pre post : List Fetched) (s : State), s.dev.hp.fetched = pre ++ f :: post → f.d.ring = r →
    (∀ x ∈ pre, x.d.ring ≠ r) →
    let mine := s.dev.hp.slots.filter (fun (x : CmdSlot) => x.ring == r.toNat)
    ((s.dev.hpEn = false ∨ (s.dev.ringAt r.toNat).credits ≤ mine.length ∨ (f.d.fence = true ∧ mine ≠ [])) →
      NoEffect (.commandAdmit r) s) ∧
    (s.dev.hpEn = true → (s.dev.ringAt r.toNat).active = true → mine.length < (s.dev.ringAt r.toNat).credits →
      s.dev.hp.slots.length < 4096 → (f.d.fence = true → mine = []) →
      (∀ st, (f.d.headOk = false ∧ st = 4) ∨ (f.d.headOk = true ∧ f.opcode ∉ Cmd.opcodes ∧ st = 3) →
        Becomes (.commandAdmit r) s { s.dev with
          complq := s.dev.complq ++ [{ cmdRing := r.toNat, cmdId := f.d.cmdId.toNat, opcode := f.opcode, status := st }]
          hp := { s.dev.hp with fetched := pre ++ post, slots := s.dev.hp.slots ++ [{
            ring := r.toNat, cmdId := f.d.cmdId.toNat, opcode := f.opcode, barge := f.d.barge, token := 0, held := false
            answered := true }] } }) ∧
      (f.d.headOk = true → f.opcode ∈ Cmd.opcodes → Does (.commandAdmit r) s [.freeCount, .barges, .hp] fun t =>
        Only Dev.barge f.d.barge s.dev t ∧ ∃ tok : Quad,
          tok.getLsbD 50 = true ∧ tok.getLsbD 48 = false ∧ tok.getLsbD 49 = (f.d.tkind == 0 || f.d.tkind == 6) ∧
          t.hp = { s.dev.hp with fetched := pre ++ post, slots := s.dev.hp.slots ++ [{
            ring := r.toNat, cmdId := f.d.cmdId.toNat, opcode := f.opcode, barge := f.d.barge, token := tok
            held := decide (32 ≤ (s.dev.barge f.d.barge).tq.queue.length) }] } ∧
          (t.barge f.d.barge).tq.queue = (s.dev.barge f.d.barge).tq.queue ++
            (if (s.dev.barge f.d.barge).tq.queue.length < 32 then [tok] else []) ∧
          (f.d.tkind = 1 → f.d.barge = f.d.tindex.toNat / 8) ∧ (f.d.tkind = 2 → f.d.barge = f.d.tindex.toNat) ∧
          (f.d.tkind = 3 → f.d.barge = 8 * f.d.tindex.toNat) ∧
          ((f.d.tkind = 0 ∨ f.d.tkind = 6) → f.d.barge = 8 * (r.toNat % 8))))) ∧
  (∀ (r : RingIx) (id : Word) (x : CmdSlot) (pre post : List CmdSlot) (s : State), s.dev.hp.slots = pre ++ x :: post →
    x.ring = r.toNat → x.cmdId = id.toNat → s.dev.untaken x = true →
    (∀ y ∈ pre, ¬(y.ring = r.toNat ∧ y.cmdId = id.toNat)) →
    Does (.backpressureWithdraw r id) s [.barges, .hp, .complq] fun t => Only Dev.barge x.barge s.dev t ∧
      t.complq = s.dev.complq ++ [{ cmdRing := r.toNat, cmdId := id.toNat, opcode := x.opcode, status := 2 }] ∧
      (t.barge x.barge).tq.queue = (s.dev.barge x.barge).tq.queue.erase x.token ∧
      { x with answered := true, held := false } ∈ t.hp.slots) ∧
  (∀ (r : RingIx) (c : Completion) (pre post : List Completion) (s : State), let k := s.dev.ringAt r.toNat
    ((k.active = false ∨ k.kind ≠ 1 ∨ s.dev.hostReach = false ∨ s.dev.complq = []) → NoEffect (.completionWrite r) s) ∧
    (k.active = true → k.kind = 1 → s.dev.hostReach = true → s.dev.complq = pre ++ c :: post →
      (s.dev.ringAt c.cmdRing).bound = r.toNat → (∀ x ∈ pre, (s.dev.ringAt x.cmdRing).bound ≠ r.toNat) →
      (if c.reserved = true then 1 ≤ k.free else s.dev.reservedOn r.toNat < k.free) →
      Does (.completionWrite r) s [.hp, .ops, .evq, .complq, .out] fun t => t.complq = pre ++ post ∧
        s.dev.out ++ [Out.hostWrite (k.base + 32 * k.dev) (CompletionEntry s.dev c k.phase)] <+: t.out ∧
        (t.ringAt r.toNat).dev = (k.dev + 1) % k.size ∧
        (t.ringAt r.toNat).phase = (if k.size ≤ k.dev + 1 then !k.phase else k.phase) ∧
        (∀ q, q ≠ r.toNat → t.ringAt q = s.dev.ringAt q) ∧
        t.hp.slots = if c.first = true then s.dev.hp.slots.filter (fun (x : CmdSlot) =>
          !(x.ring == c.cmdRing && x.cmdId == c.cmdId)) else s.dev.hp.slots)) ∧
  (∀ (s : State), (s.dev.evq = [] → NoEffect .eventWrite s) ∧ (s.dev.telq = [] → NoEffect .telemetryWrite s)) ∧
  (∀ (e : Event) (rest : List Event) (s : State), s.dev.evq = e :: rest →
    (Unrouted s.dev e.stream 2 → Becomes .eventWrite s { s.dev with
      evq := rest, hp := { s.dev.hp with unrouted := min 255 (s.dev.hp.unrouted + 1) } }) ∧
    (∀ r, Routed s.dev e.stream 2 r → let k := s.dev.ringAt r
      (s.dev.hostReach = false → NoEffect .eventWrite s) ∧
      (s.dev.hostReach = true → k.free = 0 → Does .eventWrite s [.hp, .evq] fun t => t.evq = rest ∧
        RingsOnly s.dev.hp t.hp ∧ ∀ q, t.ringAt q = if q = r then { k with
          seq := (k.seq + 1) % 2 ^ 32, drop := min (2 ^ 32 - 1) (k.drop + 1), dropBefore := true } else s.dev.ringAt q) ∧
      (s.dev.hostReach = true → k.free ≠ 0 → Does .eventWrite s [.hp, .evq, .out] fun t => t.evq = rest ∧
        s.dev.out ++ [Out.hostWrite (k.base + 32 * k.dev) ((e.payload ++ List.replicate 6 0).take 6 ++
          [BitVec.ofNat 32 k.seq, BitVec.ofNat 32 (Bits.b2n k.phase + Bits.b2n k.dropBefore * 2 + Bits.b2n e.flag * 4 +
            e.code * 16 + e.obj * 2 ^ 16)])] <+: t.out ∧
        (t.ringAt r).dev = (k.dev + 1) % k.size ∧ (t.ringAt r).seq = (k.seq + 1) % 2 ^ 32 ∧
        (t.ringAt r).dropBefore = false ∧ ∀ q, q ≠ r → t.ringAt q = s.dev.ringAt q))) ∧
  (∀ (x : Tel) (rest : List Tel) (s : State), s.dev.telq = x :: rest →
    (Unrouted s.dev x.stream 3 → Becomes .telemetryWrite s { s.dev with
      telq := rest, hp := { s.dev.hp with unrouted := min 255 (s.dev.hp.unrouted + 1) } }) ∧
    (∀ r, Routed s.dev x.stream 3 r → s.dev.hostReach = true → let k := s.dev.ringAt r
      (k.free < 2 → Does .telemetryWrite s [.hp, .telq] fun t => t.telq = rest ∧
        ∀ q, t.ringAt q = if q = r then { k with drop := min (2 ^ 32 - 1) (k.drop + 1) } else s.dev.ringAt q) ∧
      (2 ≤ k.free → Does .telemetryWrite s [.hp, .telq, .out] fun t => t.telq = rest ∧
        s.dev.out ++ [Out.hostWrite (k.base + 32 * k.dev) x.words] <+: t.out ∧
        (t.ringAt r).dev = (k.dev + 2) % k.size ∧ ∀ q, q ≠ r → t.ringAt q = s.dev.ringAt q))) ∧
  (∀ (r : RingIx) (us : BitVec 17) (s : State), let k := s.dev.ringAt r.toNat
    ((k.active = false ∨ k.toDevice = true) → NoEffect (.moderationCheck r us) s) ∧
    (k.active = true → k.toDevice = false →
      ((k.armed = true ∧ k.irqEn = true ∧ 1 ≤ k.n ∧ (max 1 k.coalCount ≤ k.n ∨ k.coalTime ≤ us.toNat)) →
        s.dev.hp.msixEn = true → s.dev.hp.msixMask = false → (s.dev.msixWord (4 * k.vector + 3)).getLsbD 0 = false →
        Does (.moderationCheck r us) s [.hp, .out] fun t => t.out = s.dev.out ++ [Out.msix k.vector] ∧
          RingsOnly s.dev.hp t.hp ∧ ∀ q, t.ringAt q = if q = r.toNat then { k with armed := false, n := 0, timer := us.toNat }
            else s.dev.ringAt q) ∧
      (¬(k.armed = true ∧ k.irqEn = true ∧ 1 ≤ k.n ∧ (max 1 k.coalCount ≤ k.n ∨ k.coalTime ≤ us.toNat)) →
        Does (.moderationCheck r us) s [.hp] fun t => RingsOnly s.dev.hp t.hp ∧
          ∀ q, t.ringAt q = if q = r.toNat then { k with timer := us.toNat } else s.dev.ringAt q))) ∧
  (∀ (v : BitVec 11) (s : State), s.dev.hp.msixEn = true → s.dev.hp.msixMask = false →
    Does (.msixUnmask (some v)) s [.hp, .out] fun t => (t.msixWord (4 * v.toNat + 3)).getLsbD 0 = false ∧
      t.msixPending v.toNat = false ∧
      t.out = s.dev.out ++ (if s.dev.msixPending v.toNat = true then [Out.msix v.toNat] else [])) ∧
  (∀ (s : State), s.dev.hp.msixEn = true → Does (.msixUnmask none) s [.hp, .out] fun t => t.hp.msixMask = false ∧
    ∀ v, t.msixPending v = (s.dev.msixPending v && (s.dev.msixWord (4 * v + 3)).getLsbD 0))

/-- R271 to R273, R418: a kick starts the watchdog, and after a loss raises EV_HOST_RETURN and ends HOST_LOST; a declared loss
latches the chip source, interrupts every barge and applies the policy of HP_HB_CFG; a link that goes down declares it with
LINK_LOSS; and a function level reset makes every ring inactive and discards every admitted command and operation. -/
def Rules.HostLiveness : Prop :=
  (∀ (s : State), (s.dev.hp.loss = none → Becomes .heartbeatKick s { s.dev with hp := { s.dev.hp with
      hbRunning := s.dev.hp.hbRunning || decide (s.dev.rf RegMap.hpHbCfg 0 10 ≠ 0) } }) ∧
    (∀ at' pol ran, s.dev.hp.loss = some (at', pol, ran) →
      Does .heartbeatKick s [.regions, .barges, .colls, .hp, .evq] fun t =>
        t.hp = { s.dev.hp with
          hbRunning := s.dev.hp.hbRunning || decide (s.dev.rf RegMap.hpHbCfg 0 10 ≠ 0), loss := none } ∧
        s.dev.evq ++ [({ stream := 0x8C, code := 0x201, payload := Bits.words2 at' ++ Bits.words2 s.dev.tbTime ++
          [BitVec.ofNat 32 (pol + Bits.b2n ran * 4)] } : Event)] <+: t.evq ∧ (t.coll 8).live.getLsbD 40 = false)) ∧
  (∀ (s : State), (s.dev.hp.hbRunning = false ∨ s.dev.rf RegMap.hpHbCfg 0 10 = 0) → NoEffect .hostLoss s) ∧
  (∀ (i : Instr) (s : State), ((i = .hostLoss ∧ s.dev.hp.hbRunning = true ∧ s.dev.rf RegMap.hpHbCfg 0 10 ≠ 0) ∨
      (i = .linkDown ∧ s.dev.hp.linkUp = true ∧ s.dev.rb RegMap.hpHbCfg 13 = true)) →
    Does i s (Parts.fault ++ [.hp]) fun t => t.hp.hbRunning = false ∧ t.hp.hostLost = true ∧
      t.hp.lossCount = min 255 (s.dev.hp.lossCount + 1) ∧ (i = .linkDown → t.hp.linkUp = false) ∧
      (∃ ran, t.hp.loss = some (s.dev.tbTime, s.dev.rf RegMap.hpHbCfg 10 2, ran)) ∧
      (t.coll 8).live.getLsbD 40 = true ∧ ((s.dev.coll 8).live.getLsbD 40 = false → (t.coll 8).latched.getLsbD 40 = true) ∧
      ∀ e, e < 64 → (t.barge e).pend.getLsbD 37 = true) ∧
  (∀ (s : State), (s.dev.hp.linkUp = false → NoEffect .linkDown s) ∧
    (s.dev.hp.linkUp = true → s.dev.rb RegMap.hpHbCfg 13 = false →
      Becomes .linkDown s { s.dev with hp := { s.dev.hp with linkUp := false } })) ∧
  (∀ (s : State), s.dev.rb RegMap.hpHbCfg 13 = false →
    Does .functionLevelReset s [.cells, .barges, .nodes, .lvDone, .regs, .regsPend, .hp, .ops, .evq, .complq, .laneWaits] fun t =>
      (∀ r, t.ringAt r = {}) ∧ t.hp.slots = [] ∧ t.hp.fetched = [] ∧ t.complq = [] ∧ (∀ n, n < 64 → t.op n = none) ∧
      t.hpEn = false ∧ (∀ i, i < 256 → t.rb (RegMap.hpRoute i) 20 = false) ∧ t.hp.linkUp = s.dev.hp.linkUp ∧
      t.reg RegMap.hpHbCfg = s.dev.reg RegMap.hpHbCfg ∧
      (∀ c, (t.cell c).state = (s.dev.cell c).state) ∧ ∀ o, o < 0x20000 ∨ 0x30000 ≤ o → t.reg o = s.dev.reg o)

/-! ### Commands and long operations (12) -/

/-- The descriptor is accepted, and the region it addresses is neither autonomous nor asleep, with the chip not in STANDBY. -/
def Accepted (d : Desc) (kinds masks : List Nat) (s : Dev) : Prop :=
  d.check kinds masks = true ∧ s.cmdAuto d = false ∧ s.pwr.mode ≠ 2 ∧
  ∀ g, d.region = some g → (s.region g).asleep = false

/-- The commands of Table 12-2 with opcode, TKIND and the bits of their parameters (R275, R276). -/
def CommandRow (d : Desc) (i : Instr) (op : Nat) (kinds masks : List Nat) : Prop :=
  let a := Cmd.all
  (i = .devInfo d ∧ op = 0x10 ∧ kinds = [0] ∧ masks = []) ∨
  (((i = .chEnable d ∧ op = 0x100) ∨ (i = .chDisable d ∧ op = 0x101) ∨ (i = .chOn d ∧ op = 0x102) ∨
    (i = .chOff d ∧ op = 0x103) ∨ (i = .chReset d ∧ op = 0x104)) ∧ kinds = [1, 2] ∧ masks = []) ∨
  (∃ ok, i = .chStatus d ok ∧ op = 0x105 ∧ kinds = [1] ∧ masks = [a, a]) ∨
  (∃ x, i = .profileWrite d x ∧ op = 0x110 ∧ kinds = [1, 2] ∧ masks = [a, a, a, a]) ∨
  (∃ ok, i = .profileRead d ok ∧ op = 0x112 ∧ kinds = [1] ∧ masks = [a, a]) ∨
  (i = .survey d ∧ op = 0x181 ∧ kinds = [3] ∧ masks = [a, a, a, a, a, 1]) ∨
  (i = .calRun d ∧ op = 0x200 ∧ kinds = [1, 2, 3] ∧ masks = [0xFF, a]) ∨
  (i = .calStore d ∧ op = 0x201 ∧ kinds = [3] ∧ masks = []) ∨
  (i = .lockCancel d ∧ op = 0x300 ∧ kinds = [0] ∧ masks = [0xFFFF]) ∨
  (i = .basinFreeze d ∧ op = 0x400 ∧ kinds = [0] ∧ masks = [a]) ∨
  (i = .basinRelease d ∧ op = 0x401 ∧ kinds = [0] ∧ masks = []) ∨
  (i = .basinMark d ∧ op = 0x402 ∧ kinds = [0] ∧ masks = [a]) ∨
  (i = .captureExport d ∧ op = 0x480 ∧ kinds = [0] ∧ masks = [a, a, a, a, a, a, a, a]) ∨
  (i = .towpathScan d ∧ op = 0x780 ∧ kinds = [5] ∧ masks = [0x17F7F, a, a]) ∨
  (i = .taskInstall d ∧ op = 0x901 ∧ kinds = [0] ∧ masks = [0x7F3F, a, a, 0xFF]) ∨
  (i = .taskRemove d ∧ op = 0x902 ∧ kinds = [0] ∧ masks = [0xF3F]) ∨
  (i = .flashUpdate d ∧ op = 0x980 ∧ kinds = [0] ∧ masks = [a, a, a, 1]) ∨
  (((i = .opSuspend d ∧ op = 0xF00) ∨ (i = .opResume d ∧ op = 0xF01) ∨ (i = .opQuery d ∧ op = 0xF03)) ∧
    kinds = [6] ∧ masks = [a]) ∨
  (i = .opCancel d ∧ op = 0xF02 ∧ kinds = [6] ∧ masks = [a, 1])

/-- A state change that Table 3-3 gives a channel command, with HOLD_OFF afterwards. -/
def ChannelRow (s : Dev) (c : Nat) (d : Desc) (i : Instr) (op : Nat) (new : CellState) (hold : Bool) : Prop :=
  let st := (s.cell c).state
  (i = .chEnable d ∧ op = 0x100 ∧ s.rb (RegMap.rgnCtrl (c / 64)) 0 = true ∧ st = .disabled ∧ new = .off ∧
    hold = (s.cell c).holdOff) ∨
  (i = .chDisable d ∧ op = 0x101 ∧ st ≠ .latched ∧ st ≠ .safe ∧ new = .disabled ∧ hold = (s.cell c).holdOff) ∨
  (i = .chOn d ∧ op = 0x102 ∧ (st = .off ∨ st = .probe) ∧ (s.region (c / 64)).woke = false ∧ new = .precheck ∧ hold = false) ∨
  (i = .chOn d ∧ op = 0x102 ∧ st = .tripped ∧ (s.cell c).evaluated = true ∧ new = .cooldown ∧ hold = false) ∨
  (i = .chOff d ∧ op = 0x103 ∧ (st = .precheck ∨ st = .waitGrant ∨ st = .inrush ∨ st = .on ∨ st = .limit ∨ st = .tripped ∨
    st = .cooldown) ∧ new = .off ∧ hold = true) ∨
  (i = .chReset d ∧ op = 0x104 ∧ st ≠ .disabled ∧ (st = .safe → s.safeStands c = false) ∧ new = .off ∧ hold = false)

/-- The combinations that Table 3-3 refuses with ST_BAD_STATE. -/
def ChannelBad (s : Dev) (c : Nat) (d : Desc) (i : Instr) (op : Nat) : Prop :=
  let st := (s.cell c).state
  (i = .chEnable d ∧ op = 0x100 ∧ (st = .latched ∨ st = .safe)) ∨
  (i = .chDisable d ∧ op = 0x101 ∧ (st = .latched ∨ st = .safe)) ∨
  (i = .chOn d ∧ op = 0x102 ∧ (st = .disabled ∨ st = .latched ∨ st = .safe)) ∨
  (i = .chOff d ∧ op = 0x103 ∧ (st = .latched ∨ st = .safe)) ∨
  (i = .chReset d ∧ op = 0x104 ∧ st = .safe ∧ s.safeStands c = true)

/-- R275 to R277: a descriptor that its opcode does not accept completes with ST_BAD_DESCRIPTOR, and a command on an autonomous
region with ST_REGION_AUTONOMOUS, without effect. R67, R71, R107, R277, R279, R449 and Table 3-3: a channel command takes its
cell to the state of the table; what the table refuses completes with ST_BAD_STATE and changes nothing; on a block each lane is
taken by itself, and RESULT0 names those whose state changed and those refused. -/
def Obligations.ChannelCommands : Prop :=
  (∀ (d : Desc) (i : Instr) (op : Nat) (kinds masks : List Nat) (s : State), CommandRow d i op kinds masks →
    (d.check kinds masks = false → Refused i s d op 4) ∧
    (d.check kinds masks = true → s.dev.cmdAuto d = true → Refused i s d op 0x15)) ∧
  (∀ (c : CellIx) (d : Desc) (i : Instr) (op : Nat) (new : CellState) (hold : Bool) (s : State), d.tkind = 1 →
    d.tindex.toNat = c.val → Accepted d [1, 2] [] s.dev → s.dev.lvBlocked (c / 8) = false → ChannelRow s.dev c d i op new hold →
    Does i s (Parts.cell ++ [.hp, .barges, .colls]) fun t => (t.cell c).state = new ∧ (t.cell c).holdOff = hold ∧
      Only Dev.cell c s.dev t ∧ (i = .chReset d → (t.cell c).retryCount = 0 ∧ (t.cell c).classes = []) ∧
      (new = .cooldown → (t.cell c).backoffMs = 0) ∧
      ([{ cmdRing := d.ring.toNat, cmdId := d.cmdId.toNat, opcode := op, status := 0 }] : List Completion) <:+ t.complq) ∧
  (∀ (c : CellIx) (d : Desc) (i : Instr) (op : Nat) (s : State), d.tkind = 1 → d.tindex.toNat = c.val →
    Accepted d [1, 2] [] s.dev →
    (s.dev.lvBlocked (c / 8) = true → ((i = .chEnable d ∧ op = 0x100) ∨ (i = .chDisable d ∧ op = 0x101) ∨
      (i = .chOn d ∧ op = 0x102) ∨ (i = .chOff d ∧ op = 0x103) ∨ (i = .chReset d ∧ op = 0x104)) → Refused i s d op 0x12) ∧
    (s.dev.lvBlocked (c / 8) = false → ChannelBad s.dev c d i op → Refused i s d op 0x11) ∧
    (s.dev.lvBlocked (c / 8) = false → (s.dev.cell c).state = .tripped → (s.dev.cell c).evaluated = false →
      Does (.chOn d) s [.cells, .hp] fun t => Only Dev.cell c s.dev t ∧ t.cell c = { s.dev.cell c with
        holdOff := false, heldOn := true, heldCmds := (s.dev.cell c).heldCmds ++ [(d.ring.toNat, d.cmdId.toNat)] })) ∧
  (∀ (b : BlockIx) (d : Desc) (i : Instr) (op : Nat) (s : State), d.tkind = 2 → d.tindex.toNat = b.val →
    Accepted d [1, 2] [] s.dev → s.dev.lvBlocked b = false →
    ((i = .chOff d ∧ op = 0x103) ∨ (i = .chDisable d ∧ op = 0x101)) →
    Does i s (Parts.cell ++ [.hp]) fun t => (∀ c, c / 8 ≠ b.val → t.cell c = s.dev.cell c) ∧
      ∃ r : Word, ([{ cmdRing := d.ring.toNat, cmdId := d.cmdId.toNat, opcode := op, status := 0, r0 := r }] :
        List Completion) <:+ t.complq ∧
        ∀ l, l < 8 → (r.getLsbD l = true ↔ (t.cell (8 * b + l)).state ≠ (s.dev.cell (8 * b + l)).state) ∧
          (r.getLsbD (8 + l) = true ↔ ((s.dev.cell (8 * b + l)).state = .latched ∨ (s.dev.cell (8 * b + l)).state = .safe)))

/-- R93, R281, R282: a profile write that breaks a rule of R93 changes nothing, nor does one of a class H field while the cell is
not DISABLED; an accepted one puts the written class L and class H bits into effect and leaves the written class S bits pending,
and changes no other word. R280, R283, R284: the buffers of CH_STATUS, PROFILE_READ and TREND_READ are written whole, or the
command completes with ST_HOST_ERROR; DEV_INFO reports the regions and the free handles; TASK_INSTALL takes a slot that is not
enabled and registers that no slot holds; TASK_REMOVE frees them. -/
def Obligations.ProfilesAndTasks : Prop :=
  (∀ (c : CellIx) (d : Desc) (w : Nat) (m v : Word) (masks : List Nat) (s : State), d.tkind = 1 → d.tindex.toNat = c.val →
    masks = [7, 0x3F, Cmd.all, Cmd.all] → d.pf 0 0 3 = 1 → w = d.pf 1 0 6 → m = BitVec.ofNat 32 (d.par 2) →
    v = BitVec.ofNat 32 (d.par 3) → Accepted d [1, 2] masks s.dev →
    let e := [(w, m, v)]
    (Prof.legal (s.dev.candidate c e) = false → Refused (.profilePatch d) s d 0x111 0x10) ∧
    (Prof.legal (s.dev.candidate c e) = true → s.dev.lvBlocked (c / 8) = false →
      ((s.dev.cell c).state ≠ .disabled → ((s.dev.candidate c e w ^^^ s.dev.pword c w) &&& (Prof.masks w).2.2) ≠ 0 →
        Refused (.profilePatch d) s d 0x111 0x13) ∧
      (s.dev.profBusy c e = false →
        Does (.profilePatch d) s [.freeCount, .cells, .blocks, .regions, .lanes, .prof, .profPend, .evq, .complq, .hp] fun t =>
          (∀ c' w', w' < 64 → t.pword c' w' = if c' = c.val ∧ w' = w
            then Bits.merge (s.dev.pword c w) v (((Prof.masks w).1 ||| (Prof.masks w).2.2) &&& m) else s.dev.pword c' w') ∧
          (∀ j, (Prof.masks w).2.1.getLsbD j = true → m.getLsbD j = true → (t.nextPword c w).getLsbD j = v.getLsbD j) ∧
          ∃ r : Word, t.complq = s.dev.complq ++ [{ cmdRing := d.ring.toNat, cmdId := d.cmdId.toNat, opcode := 0x111
                                                    status := 0, r0 := r }]))) ∧
  (∀ (c : CellIx) (d : Desc) (img : List Word) (s : State), d.tkind = 1 → d.tindex.toNat = c.val →
    Accepted d [1, 2] [Cmd.all, Cmd.all, Cmd.all, Cmd.all] s.dev →
    let e := (Bits.ones 64 (d.par64 2)).map (fun (w : Nat) => (w, (0xFFFFFFFF : Word), img.getD w 0))
    (d.par64 0 % 64 ≠ 0 → Refused (.profileWrite d (some img)) s d 0x110 0x10) ∧
    (d.par64 0 % 64 = 0 → Refused (.profileWrite d none) s d 0x110 0x19) ∧
    (d.par64 0 % 64 = 0 → Prof.legal (s.dev.candidate c e) = true → s.dev.lvBlocked (c / 8) = false →
      s.dev.profBusy c e = false →
      Does (.profileWrite d (some img)) s [.freeCount, .cells, .blocks, .regions, .lanes, .prof, .profPend, .evq, .complq, .hp]
        fun t => ∀ c' w', w' < 64 → t.pword c' w' = if c' = c.val ∧ Bits.nbit (d.par64 2) w' = true
          then Bits.merge (s.dev.pword c w') (img.getD w' 0) ((Prof.masks w').1 ||| (Prof.masks w').2.2)
          else s.dev.pword c' w')) ∧
  (∀ (c : CellIx) (d : Desc) (i : Bool → Instr) (op r0 r1 : Nat) (ws : List Word) (s : State), d.tkind = 1 →
    d.tindex.toNat = c.val → Accepted d [1] [Cmd.all, Cmd.all] s.dev →
    ((i = .chStatus d ∧ op = 0x105 ∧ ws = s.dev.statusBuffer c ∧ r0 = (s.dev.cellStatus c).toNat ∧
        r1 = (s.dev.cell c).retryCount % 256) ∨
      (i = .profileRead d ∧ op = 0x112 ∧
        ws = (List.range 64).map (s.dev.pword c) ++ (List.range 64).map (s.dev.nextPword c) ∧
        r0 = ((s.dev.profMine c).foldl (fun (a : Nat) p => a ||| (1 <<< (p.1 % 64))) 0) % 2 ^ 32 ∧
        r1 = ((s.dev.profMine c).foldl (fun (a : Nat) p => a ||| (1 <<< (p.1 % 64))) 0) / 2 ^ 32) ∨
      (i = .trendRead d ∧ op = 0x120 ∧ r0 = (s.dev.lane c).trend.length ∧ r1 = 0 ∧
        ws = (s.dev.lane c).trend.flatMap Trend.words ++ List.replicate (4 * (64 - (s.dev.lane c).trend.length)) 0)) →
    (d.par64 0 % 64 ≠ 0 → Refused (i true) s d op 0x10) ∧
    (d.par64 0 % 64 = 0 → Refused (i false) s d op 0x19 ∧
      Becomes (i true) s { CmdDone s.dev d op 0 r0 r1 with out := s.dev.out ++ [Out.hostWrite (d.par64 0) ws] })) ∧
  (∀ (d : Desc) (s : State), Accepted d [0] [] s.dev → ∃ r1 : Nat,
    Becomes (.devInfo d) s (CmdDone s.dev d 0x10 0 (3 * 2 ^ 24 + Config.fwMinorBuild.toNat) r1) ∧
    r1 / 65536 = 64 - (s.dev.ops.filter (fun p => p.2.isSome)).length ∧
    ∀ g, g < 8 → Bits.nbit r1 g = (s.dev.region g).linkUp ∧ Bits.nbit r1 (8 + g) = (s.dev.region g).autonomous) ∧
  (∀ (e : BargeIx) (n : Nat) (d : Desc) (s : State), Accepted d [0] [0x7F3F, Cmd.all, Cmd.all, 0xFF] s.dev →
    d.pf 0 0 6 = e.val → d.pf 0 8 4 = n →
    ((n < 8 ∨ 4 < d.pf 0 12 3 ∨ Cmd.customerCode (d.par 2) = false ∨ 8 < d.pf 3 0 4 ∨ 4 < d.pf 3 4 4) →
      Refused (.taskInstall d) s d 0x901 0x10) ∧
    (8 ≤ n → d.pf 0 12 3 ≤ 4 → Cmd.customerCode (d.par 2) = true → d.pf 3 0 4 ≤ 8 → d.pf 3 4 4 ≤ 4 →
      (((s.dev.barge e).moorCfg n).getLsbD 0 = true → Refused (.taskInstall d) s d 0x901 0x12) ∧
      (((s.dev.barge e).moorCfg n).getLsbD 0 = false → (s.dev.barge e).tq.moorS = [] → (s.dev.barge e).tq.moorV = [] →
        Does (.taskInstall d) s [.freeCount, .barges, .sram, .rram, .complq, .hp] fun t =>
          Only Dev.barge e s.dev t ∧ (t.barge e).moorCfg n = BitVec.ofNat 32 (d.par 1) ∧
          (t.barge e).levelOf n = d.pf 0 12 3 ∧
          ∃ r0 r1 : Nat, t.complq = (CmdDone s.dev d 0x901 0 r0 r1).complq ∧ Bits.popcount 32 r0 = d.pf 3 0 4 ∧
            Bits.popcount 32 r1 = d.pf 3 4 4 ∧ ∀ j, (Bits.nbit r0 j = true → 12 ≤ j ∧ j ≤ 27) ∧
              (Bits.nbit r1 j = true → 8 ≤ j ∧ j ≤ 15)))) ∧
  (∀ (e : BargeIx) (n : Nat) (d : Desc) (s : State), Accepted d [0] [0xF3F] s.dev → d.pf 0 0 6 = e.val → d.pf 0 8 4 = n →
    (n < 8 → Refused (.taskRemove d) s d 0x902 0x10) ∧
    (8 ≤ n → Does (.taskRemove d) s [.barges, .complq, .hp] fun t => Only Dev.barge e s.dev t ∧
      t.complq = (CmdDone s.dev d 0x902 0 0 0).complq ∧ ((t.barge e).moorCfg n).getLsbD 0 = false ∧
      (∀ j, j ≠ 0 → ((t.barge e).moorCfg n).getLsbD j = ((s.dev.barge e).moorCfg n).getLsbD j) ∧
      Sparse.get (fun _ => 0) (t.barge e).tq.moorS n = 0 ∧ Sparse.get (fun _ => 0) (t.barge e).tq.moorV n = 0 ∧
      (t.barge e).iram = (s.dev.barge e).iram ∧ (t.barge e).dram = (s.dev.barge e).dram)) ∧
  (∀ (d : Desc) (s : State), Accepted d [0] [0xFFFF] s.dev → Does (.lockCancel d) s [.lk, .complq, .hp] fun t =>
    ∃ r0 r1 : Nat, t.complq = (CmdDone s.dev d 0x300 0 r0 r1).complq ∧
      (∀ n, n < 8 → Bits.nbit r1 n = !s.dev.straitUp n) ∧
      ∀ n, n < 9 →
        (t.lockTable n).deferred = (s.dev.lockTable n).deferred.filter (fun (e : LockEntry) => e.tag.toNat ≠ d.pf 0 0 16) ∧
        ((8 ≤ n ∨ s.dev.straitUp n = true) → (t.lockTable n).copies =
          (s.dev.lockTable n).copies.filter (fun (k : LockCopy) => k.e.tag.toNat ≠ d.pf 0 0 16)) ∧
        (n < 8 → s.dev.straitUp n = false → (t.lockTable n).copies = (s.dev.lockTable n).copies ∧
          (t.lockTable n).cancels = (s.dev.lockTable n).cancels ++ [d.pf 0 0 16]))

/-- The start of a long operation: a free handle slot takes it in RUNNING, and the first completion carries ST_ACCEPTED and the
handle (R285); with every slot taken it is ST_NO_RESOURCE. -/
def Starts (i : Instr) (s : State) (d : Desc) (op : Nat) (body : OpBody) : Prop :=
  ((∀ n, n < 64 → (s.dev.op n).isSome = true) → Refused i s d op 0x14) ∧
  ((∃ n, n < 64 ∧ s.dev.op n = none) → Does i s [.hp, .ops, .opGen, .complq] fun t =>
    ∃ n, n < 64 ∧ s.dev.op n = none ∧ (∀ m, m ≠ n → t.op m = s.dev.op m) ∧ t.handle n % 64 = n ∧ t.handle n ≠ 0 ∧
      t.op n = some { opcode := op, ring := d.ring.toNat, cmdId := d.cmdId.toNat, body := body } ∧
      t.complq = s.dev.complq ++ [{ cmdRing := d.ring.toNat, cmdId := d.cmdId.toNat, opcode := op, status := 1
                                    handle := t.handle n, final := false }])

/-- The long commands of Table 12-2 with what their start checks, beside the descriptor, and the operation they start. -/
def StartRow (d : Desc) (s : Dev) (i : Instr) (op : Nat) (kinds masks : List Nat) (body : OpBody) : Prop :=
  let a := Cmd.all
  (i = .survey d ∧ op = 0x181 ∧ kinds = [3] ∧ masks = [a, a, a, a, a, 1] ∧ d.par64 0 % 64 = 0 ∧ 1 ≤ d.par 4 ∧ d.par 4 ≤ 86400 ∧
    s.anyOp (fun b => match b with | .survey r .. => r == d.tindex.toNat | _ => false) = false ∧
    body = .survey d.tindex.toNat (d.par64 0) (d.par64 2) (1000 * d.par 4) (Bits.nbit (d.par 5) 0) false []) ∨
  (i = .calRun d ∧ op = 0x200 ∧ kinds = [1, 2, 3] ∧ masks = [0xFF, a] ∧ d.tkind = 1 ∧ d.pf 0 0 2 = 0 ∧ d.pf 0 2 2 = 0 ∧
    s.calBusy (d.tindex.toNat / 64) = false ∧
    ((s.cell d.tindex.toNat).state = .off ∨ (s.cell d.tindex.toNat).state = .disabled) ∧
    body = .cal 1 d.tindex.toNat 0 0 (d.pf 0 4 3) (Bits.nbit (d.par 0) 7) (Bits.sext 32 (d.par 1)) 0 0 0) ∨
  (i = .calStore d ∧ op = 0x201 ∧ kinds = [3] ∧ masks = [] ∧ s.calBusy d.tindex.toNat = false ∧
    body = .calStore d.tindex.toNat 0 0) ∨
  (i = .captureExport d ∧ op = 0x480 ∧ kinds = [0] ∧ masks = [a, a, a, a, a, a, a, a] ∧ d.par64 0 % 4096 = 0 ∧ d.par 4 ≠ 0 ∧
    s.bz.w - s.bzCap ≤ d.par64 2 ∧ d.par64 2 + d.par 4 ≤ s.bz.w ∧ d.par 4 ≤ 65536 * 21845 ∧ s.exporting = false ∧
    s.bz.frozen = true ∧ body = .capture (d.par64 0) (d.par64 2) (d.par 4) (d.par64 5) (d.par 7) 0 0) ∨
  (i = .flashUpdate d ∧ op = 0x980 ∧ kinds = [0] ∧ masks = [a, a, a, 1] ∧ d.par64 0 % 64 = 0 ∧ d.par 2 ≠ 0 ∧
    d.par 2 % 4096 = 0 ∧ d.par 2 ≤ (if d.pf 3 0 1 = 0 then 0x400000 else 0x300000) ∧
    s.anyOp (fun b => match b with | .flash .. => true | _ => false) = false ∧
    body = .flash (d.par64 0) (d.par 2) (d.pf 3 0 1) 0 0 0 []) ∨
  (i = .towpathScan d ∧ op = 0x780 ∧ kinds = [5] ∧ masks = [0x17F7F, a, a] ∧ d.par64 1 % 64 = 0 ∧ d.pf 0 0 7 ≤ d.pf 0 8 7 ∧
    s.anyOp (fun b => match b with | .scan u .. => u == d.tindex.toNat | _ => false) = false ∧
    (s.tow d.tindex.toNat).inUse 7 = false ∧
    body = .scan d.tindex.toNat (d.par64 1) (Bits.nbit (d.par 0) 16) (d.pf 0 0 7) (d.pf 0 8 7) 0 [] false)

/-- EV_OP_STATE of an operation (R290). -/
def OpEvent (s : Dev) (n : Nat) (o : Op) (new old : Nat) : Event :=
  { stream := 0x8F, code := 0x240, payload := Bits.words2 s.tbTime ++
    [BitVec.ofNat 32 (s.handle n), BitVec.ofNat 32 (o.opcode + new * 2 ^ 16 + old * 2 ^ 19), BitVec.ofNat 32 o.steps,
     BitVec.ofNat 32 o.cmdId] }

/-- R285 to R296: long operations start in a free handle slot; the operation commands act on the operation that their handle
names, and complete with ST_BAD_HANDLE on any other; a suspended operation takes no step; and a step of a bank sequence counts
its delay, or applies CH_ON to its cell, AUTONOMOUS in an autonomous region, REFUSED where Table 3-3 refuses it. -/
def Obligations.LongOperations : Prop :=
  (∀ (d : Desc) (i : Instr) (op : Nat) (kinds masks : List Nat) (body : OpBody) (s : State),
    StartRow d s.dev i op kinds masks body → Accepted d kinds masks s.dev → Starts i s d op body) ∧
  (∀ (d : Desc) (count : Nat) (s : State), count = d.pf 0 0 10 → Bits.nbit (d.par 0) 10 = false →
    Accepted d [0] ([0x01FF0FFF, Cmd.all, Cmd.all] ++ List.replicate (min 10 count) 0xFFFF07FF) s.dev →
    let ents := ((List.range count).map (fun (i : Nat) => Bank.entry (d.par (3 + i))))
    let cells := ents.map (fun (e : BankEnt) => e.cell)
    ((count < 1 ∨ 10 < count) → Refused (.bankSequence d none) s d 0x180 0x10) ∧
    (1 ≤ count → count ≤ 10 → d.par64 1 % 64 = 0 →
      (¬ cells.Nodup → Refused (.bankSequence d none) s d 0x180 0x10) ∧
      (cells.Nodup → (∀ e ∈ ents, e.wait ≠ 3) →
        s.dev.anyOp (fun b => match b with | .bank q => q.ents.any (fun e => cells.contains e.cell) | _ => false) = false →
        Starts (.bankSequence d none) s d 0x180 (.bank {
          ents := ents, stopOnFail := Bits.nbit (d.par 0) 11, maxInflight := d.pf 0 16 9, outAddr := d.par64 1 })))) ∧
  (∀ (d : Desc) (i : Instr) (op : Nat) (masks : List Nat) (s : State),
    ((i = .opSuspend d ∧ op = 0xF00 ∧ masks = [Cmd.all]) ∨ (i = .opResume d ∧ op = 0xF01 ∧ masks = [Cmd.all]) ∨
      (i = .opCancel d ∧ op = 0xF02 ∧ masks = [Cmd.all, 1]) ∨ (i = .opQuery d ∧ op = 0xF03 ∧ masks = [Cmd.all])) →
    Accepted d [6] masks s.dev →
    let n := d.par 0 % 64
    ((s.dev.op n = none ∨ s.dev.handle n ≠ d.par 0) → Refused i s d op 0x16) ∧
    (∀ o, s.dev.op n = some o → s.dev.handle n = d.par 0 →
      (i = .opQuery d → Becomes i s (CmdDone s.dev d op 0 (o.state.code + o.opcode * 65536) o.steps)) ∧
      (i = .opSuspend d → Does i s [.ops, .complq, .hp] fun t => (∀ m, m ≠ n → t.op m = s.dev.op m) ∧
        t.complq = (CmdDone s.dev d op 0 o.state.code 0).complq ∧
        t.op n = some { o with suspendReq := (o.suspendReq || o.state == .running || o.state == .suspendedBp) }) ∧
      (i = .opResume d → Does i s [.ops, .evq, .complq, .hp] fun t => (∀ m, m ≠ n → t.op m = s.dev.op m) ∧
        (o.state = .suspended → t.op n = some { o with state := .running, body := o.body.resumed } ∧
          t.complq = (CmdDone s.dev d op 0 0 0).complq ∧ t.evq = s.dev.evq ++ [OpEvent s.dev n o 0 1]) ∧
        (o.state = .suspendedBp → t.op n = some { o with suspendReq := false } ∧ t.evq = s.dev.evq ∧
          t.complq = (CmdDone s.dev d op 0 2 0).complq) ∧
        (o.state ≠ .suspended → o.state ≠ .suspendedBp → t.op n = some o ∧ t.evq = s.dev.evq ∧
          t.complq = (CmdDone s.dev d op 0 o.state.code 0).complq)) ∧
      (i = .opCancel d → (o.state = .cancelling → Becomes i s (CmdDone s.dev d op 0 3 0)) ∧
        (o.state ≠ .cancelling → Does i s [.ops, .evq, .complq, .hp] fun t => (∀ m, m ≠ n → t.op m = s.dev.op m) ∧
          t.complq = (CmdDone s.dev d op 0 3 0).complq ∧ t.evq = s.dev.evq ++ [OpEvent s.dev n o 3 o.state.code] ∧
          ∃ o', t.op n = some o' ∧ o'.state = .cancelling ∧ o'.rollback = Bits.nbit (d.par 1) 0 ∧ o'.steps = o.steps)))) ∧
  (∀ (n : BitVec 6) (x : StepIn) (s : State), (s.dev.op n.toNat = none → NoEffect (.opStep n x) s) ∧
    (∀ o, s.dev.op n.toNat = some o → (o.ended = true ∨ o.state = .suspended ∨ o.state = .suspendedBp) →
      NoEffect (.opStep n x) s)) ∧
  (∀ (n : BitVec 6) (s : State) (o : Op) (b : BankSeq) (e : BankEnt), s.dev.op n.toNat = some o → o.ended = false →
    o.state = .running → o.suspendReq = false → o.body = .bank b → b.stopped = false → b.tried = false →
    b.ents[b.k]? = some e → e.applied = false → e.outcome = none → (∀ q ∈ b.ents, q.applied = false) → b.maxInflight = 0 →
    let left := match b.delay with | none => e.delay | some k => k - 1
    (0 < left → Becomes (.opStep n .none) s (s.dev.setOp n.toNat (some { o with
      steps := o.steps + 1, body := .bank { b with delay := some left } }))) ∧
    (left = 0 → ∀ r, ((s.dev.auto (e.cell / 64) = true ∧ r = 5) ∨ (s.dev.auto (e.cell / 64) = false ∧ r = 2 ∧
        ((s.dev.cell e.cell).state = .disabled ∨ (s.dev.cell e.cell).state = .latched ∨ (s.dev.cell e.cell).state = .safe))) →
      b.stopOnFail = false →
      Becomes (.opStep n .none) s (s.dev.setOp n.toNat (some { o with steps := o.steps + 1, body := .bank { b with
        ents := b.ents.set b.k { e with outcome := some r }, k := b.k + 1, delay := none, tried := false } }))) ∧
    (left = 0 → s.dev.auto (e.cell / 64) = false → (s.dev.region (e.cell / 64)).woke = false → e.wait = 1 →
      ((s.dev.cell e.cell).state = .off ∨ (s.dev.cell e.cell).state = .probe) →
      Does (.opStep n .none) s (Parts.cell ++ [.ops]) fun t => (t.cell e.cell).state = .precheck ∧
        (t.cell e.cell).holdOff = false ∧ Only Dev.cell e.cell s.dev t ∧ (∀ m, m ≠ n.toNat → t.op m = s.dev.op m) ∧
        t.op n.toNat = some { o with steps := o.steps + 1, body := .bank { b with
          ents := b.ents.set b.k { e with applied := true }, delay := some 0, tried := true } })) ∧
  (∀ (n : BitVec 6) (s : State) (o : Op) (b : BankSeq) (c : Nat) (rest : List Nat), s.dev.op n.toNat = some o →
    o.ended = false → o.state = .cancelling → o.bpWait = false → o.body = .bank b → b.undo = c :: rest →
    ((s.dev.cell c).state = .on ∨ (s.dev.cell c).state = .inrush) →
    Does (.opStep n .none) s (Parts.cell ++ [.ops]) fun t => (t.cell c).state = .off ∧ (t.cell c).holdOff = true ∧
      t.op n.toNat = some { o with steps := o.steps + 1, body := .bank { b with undo := rest } })

/-! ### Sample mirror and basin recorder (01, 13) -/

/-- The engine takes entries: it records, is not frozen, its post count is not yet reached, and the staging buffer has room
with no drop episode open (R302, R305, R307, R308). -/
def BasinTakes (z : Basin) : Prop :=
  z.recording = true ∧ z.frozen = false ∧ z.post ≠ some 0 ∧ z.drop = none ∧ z.staged.length < 10922

/-- The engine after one recorded entry (R302, R308). -/
def BasinPut (z : Basin) (words : List Word) : Basin :=
  { z with staged := z.staged ++ [(z.w, words)], w := z.w + 1, post := z.post.map (fun (n : Nat) => n - 1)
           postDone := if z.post.isSome = true then z.postDone + 1 else z.postDone }

/-- A mark record (Table 13-3). -/
def MarkWords (z : Basin) (src code tag time : Nat) : List Word :=
  Bits.words2 time ++ [BitVec.ofNat 32 (src + 0xFE * 2 ^ 24), BitVec.ofNat 32 z.markSeq, BitVec.ofNat 32 code,
    BitVec.ofNat 32 tag] ++ List.replicate 6 0

/-- A mirror slot that no frame has reached. -/
def noFrame (_ : Nat) : Frame := { time := 0, valid := 0, settle := 0, trip := 0, block := 0, seq := 0, i := [], v := [] }

/-- R33, R34, R298, R300 to R303, R307: a frame enters its mirror slot, interrupts its home barge and goes to the basin; enabling
reads the segment table, and a good table starts recording at W = 0; a frame is recorded when its block is enabled and its SEQ
fits the decimation or its TRIP is not 0, and dropped whole when the staging buffer is full; a staged entry is written at the
address of R300; and a drop episode closes with one gap record and its event. -/
def Rules.BasinRecording : Prop :=
  (∀ (b : BlockIx) (s : State), ((s.dev.conv b).frames = [] → NoEffect (.sampleMirrorWrite b) s) ∧
    ∀ f rest, (s.dev.conv b).frames = f :: rest →
      (s.dev.straitUp (b / 8) = false → Becomes (.sampleMirrorWrite b) s
        (s.dev.setConv b { s.dev.conv b with frames := rest })) ∧
      (s.dev.straitUp (b / 8) = true → Does (.sampleMirrorWrite b) s [.barges, .nodes, .convs, .bz] fun t =>
        Only Dev.conv b s.dev t ∧ Only Dev.barge b s.dev t ∧ (t.conv b).frames = rest ∧
        (∀ n, Sparse.get noFrame (t.conv b).mirror n = if n = f.seq % 64 then f
          else Sparse.get noFrame (s.dev.conv b).mirror n) ∧
        t.bz = { s.dev.bz with inbox := s.dev.bz.inbox ++ [f] } ∧ (t.barge b).pend.getLsbD 16 = true)) ∧
  (∀ (s : State), (s.dev.rb RegMap.bzCtrl 0 = true → NoEffect .basinEnable s) ∧
    (s.dev.rb RegMap.bzCtrl 0 = false → Does .basinEnable s [.regs, .bz] fun t => t.rb RegMap.bzCtrl 0 = true ∧
      t.rb RegMap.bzCtrl 1 = s.dev.rb RegMap.bzCtrl 1 ∧ (∀ o, o ≠ RegMap.bzCtrl → t.reg o = s.dev.reg o) ∧
      t.bz = { s.dev.bz with loading := true })) ∧
  (∀ (x : Option (List DWord)) (s : State), (s.dev.bz.loading = false → NoEffect (.segTableLoad x) s) ∧
    (s.dev.bz.loading = true →
      ((x = none ∨ ∃ l, x = some l ∧ (l.length < s.dev.bzNseg ∨ ∃ a ∈ l.take s.dev.bzNseg, a.toNat % 4096 ≠ 0)) →
        Does (.segTableLoad x) s [.regs, .bz] fun t => t.rb RegMap.bzCtrl 0 = false ∧
          t.bz = { s.dev.bz with loading := false, segErr := true }) ∧
      (∀ l, x = some l → s.dev.bzNseg ≤ l.length → (∀ a ∈ l.take s.dev.bzNseg, a.toNat % 4096 = 0) →
        Does (.segTableLoad x) s [.bz] fun t => t.bz.recording = true ∧ t.bz.segs = l.take s.dev.bzNseg ∧ t.bz.w = 0 ∧
          t.bz.markSeq = 0 ∧ t.bz.frozen = false ∧ t.bz.post = none ∧ t.bz.staged = [] ∧ t.bz.trigPos = 2 ^ 64 - 1 ∧
          t.bz.dropTotal = 0))) ∧
  (∀ (s : State), (s.dev.rb RegMap.bzCtrl 0 = false → NoEffect .basinDisable s) ∧
    (s.dev.rb RegMap.bzCtrl 0 = true → Does .basinDisable s [.regs, .bz, .out] fun t => t.rb RegMap.bzCtrl 0 = false ∧
      t.bz.recording = false ∧ t.bz.w = s.dev.bz.w ∧ t.bz.frozen = s.dev.bz.frozen ∧
      (s.dev.hostReach = true → t.bz.staged = []) ∧ (s.dev.hostReach = false → t.bz.staged = s.dev.bz.staged))) ∧
  (∀ (s : State), s.dev.bz.inbox = [] → NoEffect .basinFrame s) ∧
  (∀ (f : Frame) (rest : List Frame) (s : State), s.dev.bz.inbox = f :: rest →
    (f.trip = 0 ∨ Bits.nbit (s.dev.reg64 RegMap.bzTrigBlocks) f.block = false) →
    let cfg := RegMap.bzBlockCfg f.block
    let wanted := s.dev.rb cfg 0 = true ∧ (f.seq % (s.dev.rf cfg 1 6 + 1) = 0 ∨ f.trip ≠ 0)
    ((s.dev.bz.recording = false ∨ s.dev.bz.frozen = true ∨ ¬ wanted) → Becomes .basinFrame s { s.dev with
      bz := { s.dev.bz with inbox := rest } }) ∧
    (wanted → BasinTakes s.dev.bz → s.dev.rb RegMap.bzCtrl 1 = false → Becomes .basinFrame s { s.dev with
      bz := BasinPut { s.dev.bz with inbox := rest } f.words }) ∧
    (wanted → s.dev.bz.recording = true → s.dev.bz.frozen = false → s.dev.bz.post ≠ some 0 →
      (s.dev.bz.drop ≠ none ∨ 10922 ≤ s.dev.bz.staged.length) → Does .basinFrame s [.bz] fun t =>
        t.bz.w = s.dev.bz.w ∧ t.bz.staged = s.dev.bz.staged ∧ t.bz.dropTotal = min (2 ^ 32 - 1) (s.dev.bz.dropTotal + 1) ∧
        ∃ e, t.bz.drop = some e ∧ e.last = f.time ∧ e.blocks.getLsbD f.block = decide (f.block < 64))) ∧
  (∀ (s : State), (s.dev.hostReach = false → NoEffect .basinEntryWrite s) ∧
    ∀ p ws rest, s.dev.hostReach = true → s.dev.bz.staged = (p, ws) :: rest → Becomes .basinEntryWrite s { s.dev with
      bz := { s.dev.bz with staged := rest }
      out := s.dev.out ++ [Out.hostWrite ((s.dev.bz.segs.getD (p / 1398101 % s.dev.bzNseg) 0).toNat + 48 * (p % 1398101)) ws] }) ∧
  (∀ (s : State), (s.dev.bz.drop = none → NoEffect .gapRecord s) ∧
    ∀ e, s.dev.bz.drop = some e → s.dev.rb RegMap.bzCtrl 1 = false →
      (524288 < 48 * s.dev.bz.staged.length + 65536 → NoEffect .gapRecord s) ∧
      (48 * s.dev.bz.staged.length + 65536 ≤ 524288 → s.dev.bz.recording = true → s.dev.bz.frozen = false →
        s.dev.bz.post ≠ some 0 → Becomes .gapRecord s { s.dev with
          bz := BasinPut { s.dev.bz with drop := none } (Bits.words2 e.first ++ [BitVec.ofNat 32 (0xFD * 2 ^ 24),
            BitVec.ofNat 32 e.count] ++ Bits.words2 e.blocks.toNat ++ Bits.words2 e.last ++ List.replicate 4 0)
          evq := s.dev.evq ++ [{ stream := 0x8B, code := 0x1E1, payload := Bits.words2 e.first ++
            [BitVec.ofNat 32 e.count, 0] ++ Bits.words2 e.blocks.toNat }] }))

/-- EV_BASIN_FROZEN (Table 13-5). -/
def FrozenEvent (z : Basin) : Event :=
  { stream := 0x8B, code := 0x1E0
    payload := Bits.words2 z.trigTime ++ Bits.words2 z.trigPos ++
      [BitVec.ofNat 32 (z.trigSrc + z.trigCell * 4 + z.trigTag * 65536), BitVec.ofNat 32 z.postDone] }

/-- R303, R305, R308 to R310, Tables 13-3 and 13-4: an accepted trigger sets the trigger record, records its mark and starts the
post count, at most C - 1; a trigger while a freeze stands, or while nothing records, is ignored and counted; when the count is
reached recording stops with the writeback, the event and source 38; a release resumes with its mark; and a mark that cannot be
recorded is counted and consumes its number. -/
def Rules.BasinFreeze : Prop :=
  (∀ (d : Desc) (s : State), Accepted d [0] [Cmd.all] s.dev →
    (s.dev.bz.recording = false → Refused (.basinFreeze d) s d 0x400 0x11) ∧
    (s.dev.bz.recording = true → (s.dev.bz.frozen = true ∨ s.dev.bz.post ≠ none) → Becomes (.basinFreeze d) s
      { CmdDone s.dev d 0x400 0 0 0 with bz := { s.dev.bz with trigIgnored := min 255 (s.dev.bz.trigIgnored + 1) } }) ∧
    (BasinTakes s.dev.bz → s.dev.bz.post = none → Becomes (.basinFreeze d) s
      { CmdDone s.dev d 0x400 0 1 0 with bz := {
          (BasinPut { s.dev.bz with trigPos := s.dev.bz.w, trigTime := s.dev.tbTime, trigSrc := 0, trigCell := 0, trigTag := 0 }
            (MarkWords s.dev.bz 2 0 0 s.dev.tbTime)) with
          markSeq := (s.dev.bz.markSeq + 1) % 2 ^ 32, post := some (min (d.par 0) (s.dev.bzCap - 1)), postDone := 0 } })) ∧
  (∀ (f : Frame) (rest : List Frame) (s : State), s.dev.bz.inbox = f :: rest → f.trip ≠ 0 →
    Bits.nbit (s.dev.reg64 RegMap.bzTrigBlocks) f.block = true →
    ((s.dev.bz.recording = false ∨ s.dev.bz.frozen = true) → Becomes .basinFrame s { s.dev with
      bz := { s.dev.bz with inbox := rest, trigIgnored := min 255 (s.dev.bz.trigIgnored + 1) } }) ∧
    (BasinTakes s.dev.bz → s.dev.bz.post = none → s.dev.rb (RegMap.bzBlockCfg f.block) 0 = true →
      s.dev.rb RegMap.bzCtrl 1 = false → Does .basinFrame s [.bz] fun t =>
        t.bz.trigPos = s.dev.bz.w ∧ t.bz.trigTime = f.time ∧ t.bz.trigSrc = 2 ∧
        t.bz.trigCell = 8 * f.block + ((Bits.ones 8 f.trip).headD 0) ∧
        t.bz.post = some (min (s.dev.reg RegMap.bzTrigPost).toNat (s.dev.bzCap - 1)) ∧
        s.dev.bz.staged ++ [(s.dev.bz.w, f.words)] <+: t.bz.staged)) ∧
  (∀ (s : State), ((s.dev.bz.wbW = s.dev.bz.w ∨ s.dev.hostReach = false) → NoEffect .basinWriteback s) ∧
    (s.dev.bz.wbW ≠ s.dev.bz.w → s.dev.hostReach = true → Does .basinWriteback s [.bz, .out] fun t =>
      t.bz = { s.dev.bz with staged := [], wbW := s.dev.bz.w } ∧
      (s.dev.reg64 RegMap.bzWbAddr / 32 * 32 ≠ 0 →
        ([Out.hostWrite (s.dev.reg64 RegMap.bzWbAddr / 32 * 32) (Bits.words2 s.dev.bz.w ++ Bits.words2 s.dev.bz.trigPos ++
          [BitVec.ofNat 32 s.dev.bz.dropTotal,
           BitVec.ofNat 32 (Bits.b2n s.dev.bz.frozen + Bits.b2n s.dev.bz.post.isSome * 2), 0, 0])] : List Out) <:+ t.out))) ∧
  (∀ (s : State), (s.dev.bz.post ≠ some 0 → NoEffect .basinFrozen s) ∧
    (s.dev.bz.post = some 0 → Does .basinFrozen s [.barges, .bz, .evq, .out] fun t =>
      t.bz.frozen = true ∧ t.bz.post = none ∧ t.bz.w = s.dev.bz.w ∧
      t.evq = s.dev.evq ++ [FrozenEvent s.dev.bz] ∧
      ∀ e, e < 64 → (t.barge e).pend.getLsbD 38 = ((s.dev.barge e).pend.getLsbD 38 || (s.dev.barge e).en.getLsbD 38))) ∧
  (∀ (d : Desc) (s : State), Accepted d [0] [] s.dev →
    (s.dev.exporting = true → Refused (.basinRelease d) s d 0x401 0x12) ∧
    (s.dev.exporting = false → s.dev.bz.frozen = false → s.dev.bz.post = none →
      Becomes (.basinRelease d) s (CmdDone s.dev d 0x401 0 0 0)) ∧
    (s.dev.exporting = false → (s.dev.bz.frozen = true ∨ s.dev.bz.post ≠ none) →
      Does (.basinRelease d) s [.bz, .out, .complq, .hp] fun t => t.complq = (CmdDone s.dev d 0x401 0 0 0).complq ∧
        t.bz.frozen = false ∧ t.bz.post = none ∧ t.bz.markSeq = (s.dev.bz.markSeq + 1) % 2 ^ 32 ∧
        (s.dev.bz.recording = true → s.dev.bz.drop = none → s.dev.bz.staged.length < 10922 → t.bz.w = s.dev.bz.w + 1))) ∧
  (∀ (d : Desc) (s : State), Accepted d [0] [Cmd.all] s.dev →
    ((s.dev.bz.recording = false ∨ s.dev.bz.frozen = true) → s.dev.rb RegMap.bzCtrl 1 = false →
      Becomes (.basinMark d) s { CmdDone s.dev d 0x402 0 s.dev.bz.markSeq 0 with bz := { s.dev.bz with
        markLost := min 255 (s.dev.bz.markLost + 1), markSeq := (s.dev.bz.markSeq + 1) % 2 ^ 32 } }) ∧
    (BasinTakes s.dev.bz → s.dev.rb RegMap.bzCtrl 1 = false →
      Becomes (.basinMark d) s { CmdDone s.dev d 0x402 0 s.dev.bz.markSeq 0 with bz := {
        (BasinPut s.dev.bz (MarkWords s.dev.bz 0 (d.par 0) 0 s.dev.tbTime)) with
        markSeq := (s.dev.bz.markSeq + 1) % 2 ^ 32 } }))

/-- `Rules.BasinRecording` and `Rules.BasinFreeze` together. -/
def Obligations.BasinRecorder : Prop := Rules.BasinRecording ∧ Rules.BasinFreeze

/-! ### Converter slices (14) -/

/-- Number `k` of the slices is the only one that differs, of the barges only pending interrupts, and of registers only those of
the slice. -/
def SliceOnly (k : Nat) (s t : Dev) : Prop :=
  Only Dev.slice k s t ∧ (∀ e, t.barge e = { s.barge e with pend := (t.barge e).pend }) ∧
  ∀ o, (∀ j, j < 64 → o ≠ RegMap.cs k (4 * j)) → t.reg o = s.reg o

/-- The value that the next commit gives a register (R5). -/
def NextReg (s : Dev) (o : Nat) : Word :=
  let p := Sparse.get (fun _ => (0, 0)) s.regsPend o
  Bits.merge (s.reg o) p.1 p.2

/-- Parts that a change of a slice may touch. -/
def SliceParts : List Part := [.regions, .barges, .slices, .regs, .regsPend, .evq]

/-- R312, R314 to R323, R326, R327: at a period edge both outputs fall, CTRL commits, the other class S fields commit unless
COMMIT_LOCK waits for a lock, and the period takes its values from them; soft start limits the on interval by TON_LIM and ends
at SS_US; soft stop ends at T_ON_MIN; HS rises after its dead time unless the pulse is skipped or cut, and never while LS is
high; the on interval ends; LS rises in RUN with SYNC; crossings act as R316 and R317 say; and PER_MAX forces an edge. -/
def Obligations.SlicePeriods : Prop :=
  (∀ (k : SliceIx) (us : Word) (s : State), let x := s.dev.slice k
    (x.state = .off → NoEffect (.periodEdge k us) s ∧ NoEffect (.perMaxEdge k us) s) ∧
    (s.dev.csCoff k = false → s.dev.csCurrent k = true → x.edgeAsked = false → x.phase ≠ .rest →
      NoEffect (.periodEdge k us) s) ∧
    (∀ i, ((i = .periodEdge k us ∧ (s.dev.csCoff k = true ∨ s.dev.csCurrent k = false ∨ x.edgeAsked = true)) ∨
        i = .perMaxEdge k us ∨
        (i = .valleyCrossing k us false ∧ s.dev.csCoff k = false ∧ s.dev.csCurrent k = true ∧ (x.phase = .deadLow ∨ x.phase = .low))) →
      (x.state = .run → x.cut = false → Does i s SliceParts fun t => SliceOnly k s.dev t ∧
        (t.slice k).state = .run ∧ (t.slice k).phase = .deadHigh ∧ (t.slice k).hs = false ∧ (t.slice k).ls = false ∧
        (t.slice k).ctrl = t.rf (RegMap.cs k 0x28) 0 16 ∧ (t.slice k).sp = t.csSp k ∧ (t.slice k).lockNamed = false ∧
        (i = .perMaxEdge k us → (t.slice k).perForced = true) ∧
        t.reg (RegMap.cs k 0x28) = NextReg s.dev (RegMap.cs k 0x28) ∧
        (∀ o ∈ [0x08, 0x0C, 0x10, 0x14, 0x18, 0x1C, 0x2C], t.reg (RegMap.cs k o) =
          if s.dev.csCfg k 6 = true ∧ x.lockNamed = false then s.dev.reg (RegMap.cs k o) else NextReg s.dev (RegMap.cs k o)) ∧
        (∀ n, t.tonAsked k = some n → (t.slice k).ton = some (max 103 (min n (t.csTonMax k))) ∧
          ((t.slice k).skip = true ↔ (min n (t.csTonMax k) < 103 ∧ t.csCfg k 4 = false)) ∧
          ((min n (t.csTonMax k) < 103 ∨ (t.slice k).lsOmit = true) →
            (t.slice k).pulseSkip = min 65535 (x.pulseSkip + 1))) ∧
        (t.slice k).cutCount = x.cutCount) ∧
      (x.state = .run → x.cut = true → x.cutDue = true → Does i s SliceParts fun t => SliceOnly k s.dev t ∧
        (t.slice k).cut = true ∧ (t.slice k).hs = false ∧ (t.slice k).ls = false ∧
        (t.slice k).cutCount = min 65535 (x.cutCount + 1)) ∧
      (x.state = .softStart → x.cut = false → us.toNat < x.ssUs → s.dev.regsPend = [] →
        Does i s SliceParts fun t => SliceOnly k s.dev t ∧ (t.slice k).state = .softStart ∧
          (t.slice k).tonLim = 103 + (s.dev.csTonMax k - 103) * us.toNat / max 1 x.ssUs ∧ (t.slice k).ls = false) ∧
      (x.state = .softStart → x.cut = false → x.ssUs ≤ us.toNat → Does i s SliceParts fun t => SliceOnly k s.dev t ∧
        (t.slice k).state = .run ∧ (t.slice k).ls = false) ∧
      (x.state = .softStop → x.tonLim ≤ 103 → Does i s SliceParts fun t => SliceOnly k s.dev t ∧ (t.slice k).state = .off ∧
        (t.slice k).hs = false ∧ (t.slice k).ls = false))) ∧
  (∀ (k : SliceIx) (s : State), let x := s.dev.slice k
    (x.phase ≠ .deadHigh → NoEffect (.hsRise k) s) ∧
    (x.phase = .deadHigh → Becomes (.hsRise k) s (s.dev.setSlice k { x with
      phase := .on, hs := s.dev.slicePower k && !x.skip && !x.cut && !x.ls })) ∧
    (x.phase ≠ .on → NoEffect (.onIntervalEnd k) s ∧ ∀ e, NoEffect (.peakCrossing k e) s) ∧
    (x.phase = .on → Does (.onIntervalEnd k) s [.slices] fun t => Only Dev.slice k s.dev t ∧
      (t.slice k).phase = .deadLow ∧ (t.slice k).hs = false ∧ (t.slice k).ls = x.ls ∧
      (t.slice k).skipRun = if x.ton = none ∧ x.peakHeld = false then 0 else x.skipRun) ∧
    (x.phase ≠ .deadLow → NoEffect (.lsRise k) s) ∧
    (x.phase = .deadLow → Becomes (.lsRise k) s (s.dev.setSlice k { x with
      phase := .low
      ls := s.dev.slicePower k && decide (x.state = .run) && s.dev.csCfg k 3 && !x.lsOmit && !x.cut && !x.hs })) ∧
    (x.phase = .on → (s.dev.csCoff k = false ∨ s.dev.csCurrent k = false) →
      Becomes (.peakCrossing k true) s (s.dev.setSlice k { x with peakHeld := true, ilim := min 65535 (x.ilim + 1) }) ∧
      Becomes (.peakCrossing k false) s (s.dev.setSlice k { x with
        phase := .deadLow, hs := false, ilim := min 65535 (x.ilim + 1) })) ∧
    (x.phase = .on → s.dev.csCoff k = true → s.dev.csCurrent k = true →
      Does (.peakCrossing k false) s [.slices] fun t => Only Dev.slice k s.dev t ∧ (t.slice k).hs = false ∧
        (t.slice k).phase = .deadLow ∧ (t.slice k).ilim = x.ilim ∧ (t.slice k).skipRun = 0)) ∧
  (∀ (k : SliceIx) (us : Word) (e : Bool) (s : State), let x := s.dev.slice k
    ((x.phase ≠ .deadLow ∧ x.phase ≠ .low) → NoEffect (.valleyCrossing k us e) s) ∧
    (x.phase = .low → s.dev.csCoff k = false → s.dev.csCurrent k = true → Becomes (.valleyCrossing k us true) s
      (s.dev.setSlice k { x with edgeAsked := true })) ∧
    (x.phase = .low → (s.dev.csCoff k = true ∨ s.dev.csCurrent k = false) →
      (s.dev.csCfg k 5 = true → Becomes (.valleyCrossing k us e) s (s.dev.setSlice k { x with ls := false })) ∧
      (s.dev.csCfg k 5 = false → NoEffect (.valleyCrossing k us e) s)))

/-- R322 to R329, R332, R335, Tables 14-3 and 14-8: a fault input cuts the outputs at once; a feedback sample sets FB_OV and
PGOOD, and is sent when CS_REC.EN is set; the central end writes its record before the notice; control words are pending until
the next edge; start, stop, KILL and the watchdog change the state as Table 14-3 says; and the slice commands act so. -/
def Obligations.SliceControl : Prop :=
  (∀ (k : SliceIx) (s : State), let x := s.dev.slice k
    let level := Bits.nbit (s.dev.sliceFaults (k.val / 4)) (k.val % 4)
    (level = true → x.cut = false → Does (.sliceFaultInput k) s SliceParts fun t => SliceOnly k s.dev t ∧
      (t.slice k).cut = true ∧ (t.slice k).fault = true ∧ (t.slice k).hs = false ∧ (t.slice k).ls = false ∧
      (t.slice k).faultSeen = true ∧ (t.slice k).state = x.state ∧ (t.slice k).cutPeriods = 0) ∧
    (level = true → x.cut = true → Becomes (.sliceFaultInput k) s (s.dev.setSlice k { x with fault := true })) ∧
    (level = false → x.state ≠ .off → x.fbOv = false → Becomes (.sliceFaultInput k) s
      (s.dev.setSlice k { x with fault := false }))) ∧
  (∀ (k : SliceIx) (v : BitVec 16) (s : State), let x := s.dev.slice k
    ((s.dev.region (k.val / 4)).islandRun = false → NoEffect (.fbSample k v) s) ∧
    ((s.dev.region (k.val / 4)).islandRun = true → 0 < x.fbSettle → Becomes (.fbSample k v) s
      (s.dev.setSlice k { x with fbSettle := x.fbSettle - 1 })) ∧
    ((s.dev.region (k.val / 4)).islandRun = true → x.fbSettle = 0 →
      Does (.fbSample k v) s [.regions, .barges, .slices, .sliceQ, .evq] fun t => SliceOnly k s.dev t ∧
        (t.slice k).fb = v.toNat ∧ (t.slice k).samples = (x.samples + 1) % 256 ∧
        ((t.slice k).pgood = true ↔ s.dev.csSp k ≤ v.toNat + s.dev.rf (RegMap.cs k 0x24) 16 16) ∧
        ((t.slice k).fbOv = true ↔ (s.dev.rf (RegMap.cs k 0x24) 0 16 ≠ 0xFFFF ∧
          min 65535 (s.dev.csSp k + s.dev.rf (RegMap.cs k 0x24) 0 16) < v.toNat)) ∧
        ((t.slice k).fbOv = true → (t.slice k).cut = true) ∧
        ((s.dev.rb (RegMap.cs k 0x30) 0 = false ∨ s.dev.straitUp (k.val / 4) = false) → t.sliceQ = s.dev.sliceQ) ∧
        (s.dev.rb (RegMap.cs k 0x30) 0 = true → s.dev.straitUp (k.val / 4) = true →
          ∃ f, t.sliceQ = s.dev.sliceQ ++ [{ slice := k.val, fb := v.toNat, flags := f, time := s.dev.rtime (k.val / 4) }]))) ∧
  (∀ (k : SliceIx) (late : Bool) (s : State), ((∀ r ∈ s.dev.sliceQ, r.slice ≠ k.val) →
      NoEffect (.sliceSampleRelease k late) s) ∧
    ∀ pre (r : SliceRec) post, s.dev.sliceQ = pre ++ r :: post → r.slice = k.val → (∀ q ∈ pre, q.slice ≠ k.val) →
      r.fb < 65536 → r.flags < 2 ^ 32 → r.flags / 2 ^ 19 % 2 = 0 → r.time < 2 ^ 64 →
      Does (.sliceSampleRelease k late) s [.barges, .rram, .sliceQ] fun t => t.sliceQ = pre ++ post ∧
        (∀ o, t.rramByte o =
          let base := k.val / 4 * 0x200000 + s.dev.rf (RegMap.cs k 0x30) 4 17 * 16
          if base ≤ o ∧ o < base + 16 then BitVec.ofNat 8
            ((r.fb + (r.flags + Bits.b2n late * 2 ^ 19) * 2 ^ 32 + r.time * 2 ^ 64) / 256 ^ (o - base)) else s.dev.rramByte o) ∧
        ∀ e, e / 8 = k.val / 4 → (t.barge e).pend.getLsbD (24 + k.val % 4) = true) ∧
  (∀ (k : SliceIx) (v : Word) (s : State),
    ((s.dev.slice k).state ≠ .off → Does (.controlWord k v) s [.regsPend] fun t =>
      Bits.fld (NextReg t (RegMap.cs k 0x28)) 0 16 = v.toNat % 65536 ∧
      ∀ o, o ≠ RegMap.cs k 0x28 → NextReg t o = NextReg s.dev o) ∧
    ((s.dev.slice k).state = .off → Does (.controlWord k v) s [.regs, .regsPend] fun t =>
      t.rf (RegMap.cs k 0x28) 0 16 = v.toNat % 65536 ∧ ∀ o, o ≠ RegMap.cs k 0x28 → t.reg o = s.dev.reg o)) ∧
  (∀ (k : SliceIx) (s : State), let x := s.dev.slice k
    (s.dev.csEn k = true → NoEffect (.softStart k) s) ∧ (s.dev.csEn k = false → NoEffect (.softStop k) s) ∧
    (s.dev.csEn k = false → x.state = .off → Does (.softStart k) s SliceParts fun t => SliceOnly k s.dev t ∧
      t.csEn k = true ∧ (t.slice k).state = .softStart ∧ (t.slice k).hs = x.hs ∧
      (t.slice k).ssUs = max 10 (min 65535 (s.dev.rf (RegMap.cs k 0x20) 0 16)) ∧ (t.slice k).tonLim = 103) ∧
    (s.dev.csEn k = true → (x.state = .run ∨ x.state = .softStart) → Does (.softStop k) s SliceParts fun t =>
      SliceOnly k s.dev t ∧ t.csEn k = false ∧ (t.slice k).state = .softStop ∧
      (x.state = .run → (t.slice k).ls = false ∧ (t.slice k).tonLim0 = s.dev.csTonMax k) ∧
      (x.state = .softStart → (t.slice k).tonLim0 = x.tonLim)) ∧
    Does (.kill k) s SliceParts (fun t => SliceOnly k s.dev t ∧ t.csEn k = false ∧ (t.slice k).state = .off ∧
      (t.slice k).hs = false ∧ (t.slice k).ls = false) ∧
    ((x.state = .off ∨ x.state = .softStop ∨ s.dev.rf (RegMap.cs k 0x04) 24 8 = 0) → NoEffect (.controlWordWatchdog k) s) ∧
    ((x.state = .softStart ∨ x.state = .run) → s.dev.rf (RegMap.cs k 0x04) 24 8 ≠ 0 →
      Does (.controlWordWatchdog k) s Parts.fault fun t => (t.slice k).wdFired = true ∧
        (t.coll (k.val / 4)).latched.getLsbD 80 = true ∧
        (s.dev.rf (RegMap.cs k 0x04) 8 2 = 2 → (t.slice k).state = .off ∧ (t.slice k).hs = false ∧ (t.slice k).ls = false) ∧
        ((s.dev.rf (RegMap.cs k 0x04) 8 2 = 1 ∨ s.dev.rf (RegMap.cs k 0x04) 8 2 = 3) →
          (t.slice k).state = .softStop ∨ (t.slice k).state = .off))) ∧
  (∀ (k : SliceIx) (d : Desc) (s : State), d.tindex.toNat = k.val → let x := s.dev.slice k
    (Accepted d [4] [] s.dev → Becomes (.sliceStatus d) s (CmdDone s.dev d 0x503 0 x.stat.toNat x.cnt.toNat) ∧
      (x.state ≠ .off → Refused (.sliceStart d) s d 0x501 0x11) ∧
      (x.state = .off → Does (.sliceStart d) s (SliceParts ++ [.complq, .hp]) fun t => SliceOnly k s.dev t ∧
        (t.slice k).state = .softStart ∧ t.csEn k = true ∧ t.complq = (CmdDone s.dev d 0x501 0 0 0).complq)) ∧
    (Accepted d [4] [1] s.dev → Does (.sliceStop d) s (SliceParts ++ [.complq, .hp]) fun t => SliceOnly k s.dev t ∧
      t.complq = (CmdDone s.dev d 0x502 0 0 0).complq ∧ t.csEn k = false ∧
      (Bits.nbit (d.par 0) 0 = true → (t.slice k).state = .off ∧ (t.slice k).hs = false ∧ (t.slice k).ls = false) ∧
      (Bits.nbit (d.par 0) 0 = false → s.dev.csEn k = true → x.state = .run → (t.slice k).state = .softStop)) ∧
    (Accepted d [4] [0xF, Cmd.all, Cmd.all, Cmd.all, 0xFFFF] s.dev → let e := 8 * (k.val / 4) + d.pf 0 0 3
      (d.pf 3 16 16 < d.pf 3 0 16 → Refused (.sliceLoopSet d) s d 0x500 0x10) ∧
      (d.pf 3 0 16 ≤ d.pf 3 16 16 → Bits.nbit (d.par 0) 3 = false →
        Does (.sliceLoopSet d) s [.barges, .slices, .complq, .hp] fun t => Only Dev.slice k s.dev t ∧
          t.slice k = { x with loop := none } ∧ t.complq = (CmdDone s.dev d 0x500 0 0 0).complq ∧
          ∀ j n kp ki lo hi, x.loop = some (j, n, kp, ki, lo, hi) → Only Dev.barge (8 * (k.val / 4) + j) s.dev t ∧
            ((t.barge (8 * (k.val / 4) + j)).moorCfg n).getLsbD 0 = false) ∧
      (d.pf 3 0 16 ≤ d.pf 3 16 16 → Bits.nbit (d.par 0) 3 = true →
        (x.loop ≠ none → Refused (.sliceLoopSet d) s d 0x500 0x12) ∧
        (x.loop = none → (∀ n, n < 8 → ((s.dev.barge e).moorCfg n).getLsbD 0 = true) →
          Refused (.sliceLoopSet d) s d 0x500 0x14) ∧
        (x.loop = none → (∃ n, n < 8 ∧ ((s.dev.barge e).moorCfg n).getLsbD 0 = false) →
          Does (.sliceLoopSet d) s [.freeCount, .barges, .slices, .regs, .regsPend, .complq, .hp] fun t =>
            Only Dev.slice k s.dev t ∧ Only Dev.barge e s.dev t ∧ t.complq = (CmdDone s.dev d 0x500 0 0 0).complq ∧
            ∃ n, n < 8 ∧ ((s.dev.barge e).moorCfg n).getLsbD 0 = false ∧ ((t.barge e).moorCfg n).getLsbD 0 = true ∧
              (t.barge e).bind n = 4 + k.val % 4 ∧ Bits.fld (NextReg t (RegMap.cs k 0x2C)) 0 16 = d.par 4 ∧
              (t.slice k).loop = some (d.pf 0 0 3, n, BitVec.ofNat 32 (d.par 1), BitVec.ofNat 32 (d.par 2), d.pf 3 0 16,
                d.pf 3 16 16)))))

/-! ### Reserve unit (15) -/

/-- A reserve event (Table 15-7). -/
def RvEvent (time code : Nat) (flag : Bool) (p : List Word) : Event :=
  { stream := 0x8A, code := code, flag := flag, payload := Bits.words2 time ++ p }

/-- Exactly the listed reserve events are raised, and source 36 is pending in every barge. -/
def RvTell (s t : Dev) (l : List Event) : Prop :=
  t.evq = s.evq ++ l ∧
  ∀ e, t.barge e = if e < 64 then { s.barge e with pend := (s.barge e).pend ||| (1#64 <<< 36) } else s.barge e

/-- The class S registers of the charger (Table 15-6). -/
def RvClassS : List Nat := [0x08, 0x0C, 0x10, 0x14, 0x18, 0x28, 0x2C]

/-- The charger of the unit `r` goes to another state: class S fields commit, a new cycle clears both timers, safe values that
no longer apply end, and the regulation flags stay only in a charging state (Table 15-3, R340, R356, R358). -/
def ChargerTo (s t : Dev) (r : Reserve) (new reason : Nat) : Prop :=
  let cycle := r.chg = 0 ∨ r.chg = 6
  let on := decide (2 ≤ new) && decide (new ≤ 5)
  t.rv = { r with
    chg := new, waitReason := reason, safeActs := r.safe && r.safeActs
    preMs := (if cycle then 0 else r.preMs), chgMs := (if cycle then 0 else r.chgMs)
    inReg := on && r.inReg, thReg := on && r.thReg, half := on && r.half } ∧
  (∀ o ∈ RvClassS, t.reg (RegMap.rv o) = NextReg s (RegMap.rv o)) ∧
  ∀ o, o ≠ RegMap.rv 0 → (∀ c ∈ RvClassS, o ≠ RegMap.rv c) → t.reg o = s.reg o

/-- EV_RESERVE_STATE (Table 15-7). -/
def RvState (s : Dev) (new old reason : Nat) : Event :=
  RvEvent s.tbTime 0x140 false [BitVec.ofNat 32 (new + old * 8 + reason * 64)]

/-- Parts that a charger state may touch. -/
def RvParts : List Part := [.barges, .regs, .regsPend, .rv, .evq]

/-- A field as the next transition commits it. -/
def RvNext (s : Dev) (o lo len : Nat) : Nat := Bits.fld (NextReg s (RegMap.rv o)) lo len
def RvTemp (s : Dev) (o lo : Nat) : Int := Bits.sext 8 (RvNext s o lo 8)

/-- R339, R346 and Table 15-2: the settings under which CHG_EN = 1 is accepted. -/
def ChargerLegal (s : Dev) : Prop :=
  let chem := RvNext s 0x04 0 2
  let cells := RvNext s 0x04 2 4
  let cv := RvNext s 0x08 0 16
  let rech := RvNext s 0x08 16 16
  let pre := RvNext s 0x0C 0 16
  let cut := RvNext s 0x0C 16 16
  let ichg := RvNext s 0x10 0 16
  let ipre := RvNext s 0x10 16 16
  let iterm := RvNext s 0x14 0 16
  ((chem = 1 ∧ 2 ≤ cells ∧ cells ≤ 10 ∧ 4000 ≤ cv ∧ cv ≤ 4400 ∧ 3700 ≤ rech ∧ rech ≤ 4300 ∧ 2500 ≤ pre ∧ pre ≤ 3200 ∧
      2500 ≤ cut ∧ cut ≤ 3200) ∨
    (chem = 2 ∧ 2 ≤ cells ∧ cells ≤ 12 ∧ 3400 ≤ cv ∧ cv ≤ 3650 ∧ 3200 ≤ rech ∧ rech ≤ 3550 ∧ 2000 ≤ pre ∧ pre ≤ 2800 ∧
      2000 ≤ cut ∧ cut ≤ 2800) ∨
    (chem = 3 ∧ cells = 1 ∧ 5000 ≤ cv ∧ cv ≤ 45000 ∧ 90 * cv ≤ 100 * rech ∧ 100 * rech ≤ 99 * cv ∧ 2 * pre ≤ cv ∧ 2 * cut ≤ cv)) ∧
  cut < pre ∧ pre < rech ∧ rech < cv ∧ cells * cv ≤ 45000 ∧
  50 ≤ ichg ∧ ichg ≤ 8000 ∧ 50 ≤ ipre ∧ ipre ≤ 2000 ∧ ipre ≤ ichg ∧ 20 ≤ iterm ∧ iterm ≤ 2000 ∧ iterm < ichg ∧
  500 ≤ RvNext s 0x04 18 14 ∧ RvNext s 0x14 16 7 ≤ 120 ∧ 1 ≤ RvNext s 0x18 0 8 ∧ 10 ≤ RvNext s 0x18 8 12 ∧
  RvTemp s 0x28 0 < RvTemp s 0x28 8 ∧ RvTemp s 0x28 8 < RvTemp s 0x28 16 ∧ RvTemp s 0x28 16 ≤ RvTemp s 0x2C 0 ∧
  RvTemp s 0x2C 0 < RvTemp s 0x28 24

/-- R340: the first run condition that fails, by its WAIT_REASON; 0 when all hold. -/
def WaitWhy (s : Dev) (x : RvMeas) (n : Nat) : Prop :=
  let path := s.rv.path = 0
  let zone := s.rv.zone ≠ 0 ∧ s.rv.zone ≠ 4
  let quiet := s.rv.latched &&& 0x6B = 0
  let room := x.pack.toNat + 3000 ≤ x.vsys.toNat
  (n = 1 ∧ ¬ path) ∨ (n = 2 ∧ path ∧ ¬ zone) ∨ (n = 3 ∧ path ∧ zone ∧ ¬ quiet) ∨ (n = 4 ∧ path ∧ zone ∧ quiet ∧ ¬ room) ∨
  (n = 5 ∧ path ∧ zone ∧ quiet ∧ room ∧ s.rv.pause = true) ∨ (n = 0 ∧ path ∧ zone ∧ quiet ∧ room ∧ s.rv.pause = false)

/-- CELLS × V_CV_MV as it acts: safe values (R356) and the WARM reduction of Table 15-2. -/
def PackTarget (s : Dev) : Nat :=
  let cv := s.rf (RegMap.rv 0x08) 0 16
  let cv := if s.rv.safeActs = true then cv * s.rf (RegMap.rv 0x34) 16 10 / 1000 else cv
  s.rf (RegMap.rv 0x04) 2 4 *
    (if s.rv.zone = 3 then (if s.rf (RegMap.rv 0x04) 0 2 = 3 then cv - cv * 2 / 100 else cv - 100) else cv)

/-- The charging phase of a pack voltage (R340). -/
def PackPhase (s : Dev) (pack : Nat) : Nat :=
  if pack < s.rf (RegMap.rv 0x04) 2 4 * s.rf (RegMap.rv 0x0C) 0 16 then 2 else if pack < PackTarget s then 3 else 4

/-- Table 15-3, R339, R340, R345: CHG_EN is accepted with legal settings and no CHG_TIMEOUT; run conditions and pack thresholds
move the charger; termination, top-off and recharge do as the table says; and the safety timers count, expire into DISABLED and
hold during a pause. -/
def Rules.ReserveCharger : Prop :=
  (∀ (s : State), let r := s.dev.rv
    (Bits.nbit r.latched 0 = true → NoEffect .chargeEnable s) ∧
    (Bits.nbit r.latched 0 = false → ¬ ChargerLegal s.dev → Does .chargeEnable s Parts.fault fun t =>
      (t.coll 8).latched.getLsbD 37 = true ∧ t.reg (RegMap.rv 0) = s.dev.reg (RegMap.rv 0)) ∧
    (Bits.nbit r.latched 0 = false → ChargerLegal s.dev → r.chg ≠ 0 → Does .chargeEnable s [.regs, .rv] fun t =>
      t.rb (RegMap.rv 0) 0 = true ∧ t.rv = { r with hold := false, shipOn := true } ∧
      ∀ o, o ≠ RegMap.rv 0 → t.reg o = s.dev.reg o) ∧
    (∀ n, Bits.nbit r.latched 0 = false → ChargerLegal s.dev → r.chg = 0 → WaitWhy s.dev r.meas n →
      Does .chargeEnable s RvParts fun t => t.rb (RegMap.rv 0) 0 = true ∧
        ChargerTo s.dev t { r with hold := false, shipOn := true } 1 n ∧ RvTell s.dev t [RvState s.dev 1 0 n])) ∧
  (∀ (x : RvMeas) (n : Nat) (s : State), WaitWhy s.dev x n → let r := { s.dev.rv with meas := x }
    let i := Instr.chargerPhaseChange x
    let pack := x.pack.toNat
    let full := s.dev.rf (RegMap.rv 0x04) 2 4 * (s.dev.rf (RegMap.rv 0x0C) 0 16 + 50)
    ((r.chg = 0 ∨ r.chg = 6) → Becomes i s { s.dev with rv := r }) ∧
    (r.chg = 1 → n ≠ 0 → Becomes i s { s.dev with rv := { r with waitReason := n } }) ∧
    (r.chg = 1 → n = 0 → Does i s RvParts fun t => ChargerTo s.dev t r (PackPhase s.dev pack) 0 ∧
      RvTell s.dev t [RvState s.dev (PackPhase s.dev pack) 1 0]) ∧
    (2 ≤ r.chg → r.chg ≤ 5 →
      (n ≠ 0 → n ≠ 5 → Does i s RvParts fun t => ChargerTo s.dev t r 1 n ∧ RvTell s.dev t [RvState s.dev 1 r.chg n]) ∧
      ((n = 0 ∨ n = 5) →
        (r.chg = 2 → full ≤ pack → Does i s RvParts fun t => ChargerTo s.dev t r 3 0 ∧ RvTell s.dev t [RvState s.dev 3 2 0]) ∧
        (r.chg = 3 → PackTarget s.dev ≤ pack → Does i s RvParts fun t => ChargerTo s.dev t r 4 0 ∧
          RvTell s.dev t [RvState s.dev 4 3 0]) ∧
        (((r.chg = 2 ∧ pack < full) ∨ (r.chg = 3 ∧ pack < PackTarget s.dev) ∨ 4 ≤ r.chg) →
          Becomes i s { s.dev with rv := r })))) ∧
  (∀ (s : State), let r := s.dev.rv
    let next := if s.dev.rf (RegMap.rv 0x14) 16 7 = 0 then 6 else 5
    (r.chg ≠ 4 → NoEffect .chargeTermination s) ∧
    (r.chg = 4 → Does .chargeTermination s RvParts fun t => ChargerTo s.dev t r next 0 ∧ RvTell s.dev t [RvState s.dev next 4 0]) ∧
    (r.chg ≠ 5 → NoEffect .topoffEnd s) ∧
    (r.chg = 5 → Does .topoffEnd s RvParts fun t => ChargerTo s.dev t r 6 0 ∧ RvTell s.dev t [RvState s.dev 6 5 0])) ∧
  (∀ (x : RvMeas) (n : Nat) (s : State), WaitWhy s.dev x n → let r := { s.dev.rv with meas := x }
    let low := s.dev.rf (RegMap.rv 0x04) 2 4 * s.dev.rf (RegMap.rv 0x08) 16 16
    let new := if n = 0 then PackPhase s.dev x.pack.toNat else 1
    ((r.chg ≠ 6 ∨ low ≤ x.pack.toNat) → Becomes (.rechargeStart x) s { s.dev with rv := r }) ∧
    (r.chg = 6 → x.pack.toNat < low → Does (.rechargeStart x) s RvParts fun t => ChargerTo s.dev t r new n ∧
      RvTell s.dev t [RvState s.dev new 6 n])) ∧
  (∀ (inReg thReg below : Bool) (s : State), let r := s.dev.rv
    let i := Instr.safetyTimerStep inReg thReg below
    let on := decide (3 ≤ r.chg) && decide (r.chg ≤ 5)
    let half := on && (inReg || thReg) && below
    let d := if r.pause = true then 0 else if half = true then 50 else 100
    let pre := if r.chg = 2 then r.preMs + d else r.preMs
    let chg := if r.chg = 3 ∨ r.chg = 4 then r.chgMs + d else r.chgMs
    let spent := r.pause = false ∧ ((r.chg = 2 ∧ s.dev.rf (RegMap.rv 0x18) 0 8 * 60000 ≤ pre) ∨
      ((r.chg = 3 ∨ r.chg = 4) ∧ s.dev.rf (RegMap.rv 0x18) 8 12 * 60000 ≤ chg))
    let acts := r.safeActs || r.safe
    (¬ spent → (r.surplus = false ∨ acts = false) → Becomes i s { s.dev with rv := { r with
      inReg := on && inReg, thReg := on && thReg, half := half, safeActs := acts, preMs := pre, chgMs := chg } }) ∧
    (¬ spent → r.surplus = true → acts = true → Does i s [.rv] fun t => t.rv.surplus = false ∧ t.rv.safeActs = true ∧
      t.rv.preMs = pre ∧ t.rv.chgMs = chg ∧ t.rv.chg = r.chg ∧ t.rv.half = half) ∧
    (spent → Does i s (Parts.fault ++ [.rv]) fun t => t.rv.chg = 0 ∧ t.rb (RegMap.rv 0) 0 = false ∧
      Bits.nbit t.rv.latched 0 = true ∧ Bits.nbit t.rv.live 0 = true ∧ t.rv.path = r.path ∧
      ((s.dev.coll 8).live.getLsbD 42 = false → (t.coll 8).latched.getLsbD 42 = true)))

/-- R342, R343, R346, R356: an operating-point pause runs while the charger charges with TRACK_EN, or waits for surplus
absorption; its end gives V_OC and V_REG; surplus absorption needs SURPLUS_EN and no safe values; a ratio outside the table
latches NTC_FAULT and counts as HOT, any other ratio moves the zone with a hysteresis of 2 degC, and COLD and HOT stop charging. -/
def Rules.ReserveLoops : Prop :=
  (∀ (s : State), let r := s.dev.rv
    ((s.dev.rb (RegMap.rv 0) 2 = false ∨ r.chg < 2 ∨ r.chg = 6 ∨ r.pause = true) → NoEffect .operatingPointPause s) ∧
    (s.dev.rb (RegMap.rv 0) 2 = true → 2 ≤ r.chg → r.chg ≤ 5 → r.pause = false →
      (r.surplus = true → Becomes .operatingPointPause s { s.dev with rv := { r with pauseDue := true } }) ∧
      (r.surplus = false → Becomes .operatingPointPause s { s.dev with rv := { r with pause := true } }))) ∧
  (∀ (v : BitVec 16) (s : State), let r := s.dev.rv
    let k := if r.safeActs = true then 80 else s.dev.rf (RegMap.rv 0x20) 19 7
    (r.pause = false → NoEffect (.pauseEnd v) s) ∧
    (r.pause = true → Becomes (.pauseEnd v) s { s.dev with rv := { r with
      pause := false, voc := v.toNat, vReg := k * v.toNat / 100 } })) ∧
  (∀ (s : State), let r := s.dev.rv
    ((s.dev.rb (RegMap.rv 0) 1 = false ∨ r.safeActs = true ∨ s.dev.rf (RegMap.rv 0x24) 0 16 = 65535) → NoEffect .surplusStart s) ∧
    (s.dev.rb (RegMap.rv 0) 1 = true → r.safeActs = false → s.dev.rf (RegMap.rv 0x24) 0 16 ≠ 65535 →
      Becomes .surplusStart s { s.dev with rv := { r with surplus := true } }) ∧
    (r.surplus = false → NoEffect .surplusEnd s) ∧
    (r.surplus = true → Becomes .surplusEnd s { s.dev with rv := { r with
      surplus := false, pauseDue := false
      pause := r.pause || (r.pauseDue && decide (2 ≤ r.chg) && decide (r.chg ≤ 5)) } })) ∧
  (∀ (q : BitVec 16) (s : State), let r := s.dev.rv
    let limit := fun (i : Nat) (h : Int) => (Bits.sext 8 (s.dev.rf (RegMap.rv 0x28) (8 * i) 8) - h) * 64
    let zone := fun (t h : Int) => if limit 3 h < t then 4 else if limit 2 h ≤ t then 3 else if limit 1 h ≤ t then 2
      else if limit 0 h ≤ t then 1 else 0
    (s.dev.rvTemp q.toNat = none → Does (.ntcZoneChange q) s (Parts.fault ++ [.rv]) fun t =>
      t.rv.zone = 4 ∧ t.rv.ntcBad = true ∧ Bits.nbit t.rv.live 3 = true ∧
      (Bits.nbit r.live 3 = false → Bits.nbit t.rv.latched 3 = true) ∧ (2 ≤ r.chg → r.chg ≤ 5 → t.rv.chg = 1)) ∧
    (∀ x, s.dev.rvTemp q.toNat = some x → Does (.ntcZoneChange q) s (Parts.fault ++ [.rv]) fun t =>
      t.rv.zone = (if r.ntcBad = true ∨ r.zone < zone x 0 then zone x 0 else min r.zone (zone x 2)) ∧
      t.rv.ntcBad = false ∧ t.rv.meas.t = BitVec.ofInt 16 x ∧ Bits.nbit t.rv.live 3 = false ∧ t.rv.latched = r.latched ∧
      (2 ≤ r.chg → r.chg ≤ 5 → ((t.rv.zone = 0 ∨ t.rv.zone = 4) → t.rv.chg = 1 ∧ t.rv.waitReason = 2) ∧
        (t.rv.zone ≠ 0 → t.rv.zone ≠ 4 → t.rv.chg = r.chg))))

/-- R347 to R352, Table 15-4: hand-over begins in SOURCE or HANDBACK, stops the charger and, once begun, completes into RESERVE
or QUALIFY; presence starts the qualification and each loss before hand-back is a bounce, told once per hold-off; a qualified
source leads to HANDBACK and SOURCE; and the stop sequence runs once per hand-over. -/
def Rules.ReservePath : Prop :=
  (∀ (trig : HandTrigger) (bus : BitVec 16) (s : State), let r := s.dev.rv
    let n := match trig with
      | .loss => 1
      | .reverse => 2
      | .rail => 3
    let r' := { r with
      path := 1, inOn := false, dioArmed := true, present := r.present && decide (n ≠ 1)
      handovers := min 65535 (r.handovers + 1), hoTime := s.dev.tbTime, hoTrig := n, hoBus := bus.toNat
      episode := 0, stopDone := false }
    let begun := RvEvent s.dev.tbTime 0x141 true [BitVec.ofNat 32 n, BitVec.ofNat 32 bus.toNat]
    (r.path ≠ 0 → r.path ≠ 4 → NoEffect (.handover trig bus) s) ∧
    ((r.path = 0 ∨ r.path = 4) → (r.chg < 2 ∨ 5 < r.chg) → Does (.handover trig bus) s [.barges, .rv, .evq] fun t =>
      t.rv = r' ∧ RvTell s.dev t [begun]) ∧
    ((r.path = 0 ∨ r.path = 4) → 2 ≤ r.chg → r.chg ≤ 5 → Does (.handover trig bus) s RvParts fun t =>
      ChargerTo s.dev t r' 1 1 ∧ RvTell s.dev t [RvState s.dev 1 r.chg 1, begun])) ∧
  (∀ (s : State), let r := s.dev.rv
    (r.path ≠ 1 → NoEffect .handoverComplete s) ∧
    (r.path = 1 → Does .handoverComplete s [.barges, .rv, .evq] fun t =>
      t.rv = { r with path := (if r.present = true then 3 else 2), dioOn := true } ∧
      RvTell s.dev t [RvEvent s.dev.tbTime 0x141 false [BitVec.ofNat 32 r.hoTrig, BitVec.ofNat 32 r.hoBus]]) ∧
    Becomes .sourcePresent s { s.dev with rv := { r with present := true, path := if r.path = 2 then 3 else r.path } } ∧
    ((r.present = false ∨ r.path = 0 ∨ r.path = 4) → NoEffect .bounce s) ∧
    (r.present = true → r.path ≠ 0 → r.path ≠ 4 →
      let r' := { r with
        present := false, path := (if r.path = 3 then 2 else r.path), bounces := min 65535 (r.bounces + 1)
        episode := min 65535 (r.episode + 1), fresh := r.fresh + 1, lastBounce := s.dev.tbTime }
      (r.bounceHold = true → Becomes .bounce s { s.dev with rv := r' }) ∧
      (r.bounceHold = false → Does .bounce s [.barges, .rv, .evq] fun t => t.rv = { r' with fresh := 0, bounceHold := true } ∧
        RvTell s.dev t [RvEvent s.dev.tbTime 0x143 false [BitVec.ofNat 32 ((r.fresh + 1) % 65536)]])) ∧
    (r.fresh = 0 → Becomes .evHandoverBounceHoldoffExpiry s { s.dev with rv := { r with bounceHold := false } }) ∧
    (r.fresh ≠ 0 → Does .evHandoverBounceHoldoffExpiry s [.barges, .rv, .evq] fun t =>
      t.rv = { r with fresh := 0, bounceHold := true } ∧
      RvTell s.dev t [RvEvent r.lastBounce 0x143 false [BitVec.ofNat 32 (r.fresh % 65536)]]) ∧
    ((r.path ≠ 3 ∨ r.present = false) → NoEffect .handback s) ∧
    (r.path = 3 → r.present = true → Becomes .handback s { s.dev with rv := { r with path := 4, inOn := true } }) ∧
    (r.path ≠ 4 → NoEffect .idealDiodeOff s ∧ NoEffect .handbackComplete s) ∧
    (r.path = 4 → Becomes .idealDiodeOff s { s.dev with rv := { r with dioOn := false } } ∧
      Does .handbackComplete s [.barges, .rv, .evq] fun t => t.rv = { r with path := 0, dioArmed := false, dioOn := false } ∧
        RvTell s.dev t [RvEvent s.dev.tbTime 0x142 false (Bits.words2 r.hoTime ++ [BitVec.ofNat 32 r.episode])])) ∧
  (∀ (s : State), let r := s.dev.rv
    let l := (r.stop.take (s.dev.rf (RegMap.rv 0x30) 16 6)).map (fun (e : LockEntry) =>
      { e with time := BitVec.ofNat 64 (s.dev.tbTime + e.time.toNat) })
    ((r.path = 0 ∨ 3 < r.path ∨ r.stopDone = true) → NoEffect .stopSequence s) ∧
    (1 ≤ r.path → r.path ≤ 3 → r.stopDone = false →
      (s.dev.pwr.core = false → Does .stopSequence s [.barges, .rv, .evq] fun t =>
        t.rv = { r with stopDone := true, stopRan := true } ∧ RvTell s.dev t [RvEvent s.dev.tbTime 0x145 false [0]]) ∧
      (s.dev.pwr.core = true → (∀ e ∈ l, e.devMask = 0 ∧ s.dev.lockReason e = 0) →
        Does .stopSequence s [.barges, .lk, .rv, .evq] fun t => t.rv = { r with stopDone := true, stopRan := true } ∧
          RvTell s.dev t [RvEvent s.dev.tbTime 0x145 false [BitVec.ofNat 32 l.length]] ∧
          t.lk = { s.dev.lk with waits := s.dev.lk.waits ++ l.flatMap (fun e => (Lock.tables e).map (fun n =>
            { table := n, e := Lock.aligned e, ring := none })) })))

/-- The measured faults of Table 15-5 with their bits and the condition under which they are watched. -/
def RvFaultRow (s : Dev) (i : Instr) (n : Nat) (live watched : Bool) : Prop :=
  (i = .packOv live ∧ n = 1 ∧ watched = true) ∨ (i = .chgOc live ∧ n = 5 ∧ watched = true) ∨
  (i = .packHot live ∧ n = 4 ∧ watched = decide (s.rv.path = 2)) ∨
  (i = .inPathFail live ∧ n = 6 ∧ watched = decide (s.rv.path ≠ 0)) ∨
  (i = .dioFail live ∧ n = 7 ∧ watched = s.rv.dioArmed)

/-- R345, R349, R354, R356, R357, Tables 15-5 and 15-8: a fault that arises is live and latched, raises EV_RESERVE_FAULT, RESERVE
and its chip source, and PACK_OV, CHG_OC and IN_PATH_FAIL hold the charger in WAIT; one that ends is no longer live; a read
returns the latched bits and keeps those that are live; the watchdog sets SAFE_VALUES and a kick clears it; RV_SAFE takes one
write; and the reserve commands act so. -/
def Rules.ReserveFaults : Prop :=
  (∀ (i : Instr) (n : Nat) (live watched : Bool) (s : State), RvFaultRow s.dev i n live watched → let r := s.dev.rv
    (live = true → watched = false → NoEffect i s) ∧
    ((live = false ∨ watched = true) → live = Bits.nbit r.live n → NoEffect i s) ∧
    (live = true → watched = true → Bits.nbit r.live n = false → Does i s (Parts.fault ++ [.rv]) fun t =>
      t.rv.latched = r.latched ||| 1 <<< n ∧ t.rv.live = r.live ||| 1 <<< n ∧ t.rv.path = r.path ∧
      s.dev.evq ++ [RvEvent s.dev.tbTime 0x144 false [BitVec.ofNat 32 (1 <<< n)]] <+: t.evq ∧
      (∀ e, e < 64 → (t.barge e).pend.getLsbD 36 = true) ∧
      ((s.dev.coll 8).live.getLsbD (42 + n) = false → (t.coll 8).latched.getLsbD (42 + n) = true) ∧
      t.rv.chg = if (n = 1 ∨ n = 5 ∨ n = 6) ∧ 2 ≤ r.chg ∧ r.chg ≤ 5 then 1 else r.chg) ∧
    (live = false → Bits.nbit r.live n = true → Does i s [.regions, .barges, .colls, .rv, .evq] fun t =>
      t.rv = { r with live := r.live &&& (511 ^^^ 1 <<< n) } ∧ (t.coll 8).live.getLsbD (42 + n) = false)) ∧
  (∀ (s : State), let r := s.dev.rv
    let live := if Bits.nbit r.latched 0 = true then r.live &&& 510 else r.live
    Does .rvFaultRead s [.regions, .barges, .colls, .rv, .evq, .out] (fun t =>
      t.out = s.dev.out ++ [Out.readData [BitVec.ofNat 32 r.latched]] ∧
      t.rv = { r with live := live, latched := r.latched &&& live }) ∧
    (s.dev.rf (RegMap.rv 0x38) 0 8 = 0 → NoEffect .reserveWdExpiry s) ∧
    (s.dev.rf (RegMap.rv 0x38) 0 8 ≠ 0 → Does .reserveWdExpiry s (Parts.fault ++ [.rv]) fun t => t.rv.safe = true ∧
      Bits.nbit t.rv.live 8 = true ∧ (Bits.nbit r.live 8 = false → Bits.nbit t.rv.latched 8 = true) ∧ t.rv.chg = r.chg) ∧
    Does .rvWdKick s [.regions, .barges, .colls, .rv, .evq] (fun t =>
      t.rv = { r with safe := false, live := if Bits.nbit r.live 8 = true then r.live &&& 255 else r.live })) ∧
  (∀ (v : Word) (s : State),
    (s.dev.rv.safeWritten = true → Does (.rvSafeWrite v) s Parts.fault fun t => (t.coll 8).latched.getLsbD 37 = true ∧
      t.reg (RegMap.rv 0x34) = s.dev.reg (RegMap.rv 0x34)) ∧
    (s.dev.rv.safeWritten = false → Does (.rvSafeWrite v) s [.regs, .rv] fun t => t.rv = { s.dev.rv with safeWritten := true } ∧
      ∀ o, t.reg o = if o = RegMap.rv 0x34 then v &&& 0x03FFFFFF else s.dev.reg o)) ∧
  (∀ (d : Desc) (ok : Bool) (s : State), Accepted d [0] [Cmd.all, Cmd.all] s.dev → let r := s.dev.rv
    let live := if Bits.nbit r.latched 0 = true then r.live &&& 510 else r.live
    let done := CmdDone s.dev d 0x600 (if ok = true then 0 else 0x19) 0 0
    (d.par64 0 % 64 ≠ 0 → Refused (.rsvStatus d ok) s d 0x600 0x10) ∧
    (d.par64 0 % 64 = 0 → Does (.rsvStatus d ok) s [.regions, .barges, .colls, .rv, .evq, .out, .complq, .hp] fun t =>
      t.complq = done.complq ∧ t.hp = done.hp ∧
      t.rv = { r with live := live, latched := r.latched &&& live, handovers := 0, bounces := 0 } ∧
      (ok = false → t.out = s.dev.out) ∧
      (ok = true → t.out = s.dev.out ++ [Out.hostWrite (d.par64 0) ([s.dev.rvStat, BitVec.ofNat 32 r.latched,
        BitVec.ofNat 32 r.live, BitVec.ofNat 32 (r.handovers + r.bounces * 65536)] ++ Bits.words2 r.hoTime ++ s.dev.rvMeas ++
        [s.dev.rvTimers, 0, 0, 0, 0, 0])]))) ∧
  (∀ (d : Desc) (s : State), Accepted d [0] [1] s.dev → let on := Bits.nbit (d.par 0) 0
    let done := CmdDone s.dev d 0x601 0 0 0
    (on = false → Does (.rsvCharge d) s (RvParts ++ [.complq, .hp]) fun t => t.complq = done.complq ∧
      t.rb (RegMap.rv 0) 0 = false ∧ t.rv.chg = 0 ∧ t.rv.path = s.dev.rv.path ∧
      (s.dev.rv.chg ≠ 0 → t.evq = s.dev.evq ++ [RvState s.dev 0 s.dev.rv.chg 0])) ∧
    (on = true → ¬ ChargerLegal s.dev → Refused (.rsvCharge d) s d 0x601 0x10) ∧
    (on = true → ChargerLegal s.dev → Bits.nbit s.dev.rv.latched 0 = true → Refused (.rsvCharge d) s d 0x601 0x11) ∧
    (on = true → ChargerLegal s.dev → Bits.nbit s.dev.rv.latched 0 = false →
      Does (.rsvCharge d) s (RvParts ++ [.complq, .hp]) fun t => t.complq = done.complq ∧ t.rb (RegMap.rv 0) 0 = true ∧
        t.rv.hold = false ∧ t.rv.shipOn = true ∧ t.rv.chg = if s.dev.rv.chg = 0 then 1 else s.dev.rv.chg)) ∧
  (∀ (d : Desc) (s : State),
    (Accepted d [0] [] s.dev → Does (.rsvKick d) s [.regions, .barges, .colls, .rv, .evq, .complq, .hp] fun t =>
      t.complq = (CmdDone s.dev d 0x602 0 0 0).complq ∧ t.rv.safe = false ∧ Bits.nbit t.rv.live 8 = false ∧
      t.rv.chg = s.dev.rv.chg) ∧
    (Accepted d [0] [0x7F] s.dev → let arm := Bits.nbit (d.par 0) 0
      let n := d.pf 0 1 6
      (arm = true → (n = 0 ∨ 60 < n) → Refused (.rsvShip d) s d 0x603 0x10) ∧
      ((arm = false ∨ (1 ≤ n ∧ n ≤ 60)) → Does (.rsvShip d) s [.barges, .rv, .evq, .complq, .hp] fun t =>
        t.complq = (CmdDone s.dev d 0x603 0 0 0).complq ∧
        t.rv = { s.dev.rv with shipArmed := arm, shipDelay := if arm = true then n else s.dev.rv.shipDelay } ∧
        RvTell s.dev t [RvEvent s.dev.tbTime 0x146 false [if arm = true then 1 else 2]])) ∧
    (Accepted d [0] [Cmd.all, Cmd.all, 0x3F] s.dev → ∀ x : Option (List LockEntry), let n := d.pf 2 0 6
      ((32 < n ∨ d.par64 0 % 64 ≠ 0) → Refused (.rsvStopLoad d x) s d 0x604 0x10) ∧
      (n ≤ 32 → d.par64 0 % 64 = 0 → (x = none → Refused (.rsvStopLoad d x) s d 0x604 0x19) ∧
        ∀ l, x = some l → Becomes (.rsvStopLoad d x) s
          { CmdDone s.dev d 0x604 0 0 0 with rv := { s.dev.rv with stop := l.take n } })))

/-- `Rules.ReserveCharger` and `Rules.ReserveLoops` together. -/
def Obligations.ReserveCharging : Prop := Rules.ReserveCharger ∧ Rules.ReserveLoops

/-- `Rules.ReservePath` and `Rules.ReserveFaults` together. -/
def Obligations.ReservePathAndFaults : Prop := Rules.ReservePath ∧ Rules.ReserveFaults

/-! ### Towpaths, management port, supervisor port (16) -/

/-- A towpath event (R378). -/
def TowEvent (s : Dev) (t code : Nat) (flag : Bool) (p : List Word) : Event :=
  { stream := 0x8E, code := code, obj := t, flag := flag, payload := Bits.words2 (s.rtime (t / 2)) ++ p }

/-- Exactly the listed events leave towpath `t`, unless its region is autonomous, and source 32 + (t & 1) becomes pending in the
barges of the region, unless its strait is lost (R376, R378). -/
def TowTell (s d : Dev) (t : Nat) (l : List Event) : Prop :=
  d.evq = (if s.auto (t / 2) = true then s.evq else s.evq ++ l) ∧
  ∀ e, d.barge e = if s.straitUp (t / 2) = true ∧ e / 8 = t / 2 then
    { s.barge e with pend := (s.barge e).pend ||| (1#64 <<< (32 + t % 2)) } else s.barge e

/-- Neither an event nor an interrupt. -/
def TowQuiet (s d : Dev) : Prop := d.evq = s.evq ∧ ∀ e, d.barge e = s.barge e

/-- Parts that a towpath and its notices may touch. -/
def TowParts : List Part := [.barges, .tows, .evq]

/-- R360, R365, R366, R375: EN = 1 samples SDA and starts a recovery when it is low; the recovery ends idle with RECOVERED, or
stuck and out of service with SDA_STUCK; CLR_STUCK clears both and runs it again; the two low timeouts are sticky and reported;
and an address match with the clock stopped stretches SCL until the wake, or until WAKE_FAIL. -/
def Rules.TowpathBus : Prop :=
  (∀ (t : TowIx) (sda : Bool) (s : State), let w := s.dev.tow t
    let en := RegMap.twCfg t
    (s.dev.rb en 0 = true → NoEffect (.towpathEnable t sda) s) ∧
    (s.dev.rb en 0 = false → Does (.towpathEnable t sda) s [.regs, .tows] fun d => Only Dev.tow t s.dev d ∧ d.rb en 0 = true ∧
      d.tow t = { w with idle := sda, recovering := !sda } ∧ ∀ o, o ≠ en → d.reg o = s.dev.reg o) ∧
    Does (.clrStuck t sda) s (TowParts ++ [.regions, .colls]) (fun d => Only Dev.tow t s.dev d ∧
      d.tow t = if s.dev.rb en 0 = true then { w with stuck := false, oos := false, idle := sda, recovering := !sda }
        else { w with stuck := false, oos := false }) ∧
    Does (.tgtPop t) s [.tows] (fun d => Only Dev.tow t s.dev d ∧ d.tow t = { w with tgt := w.tgt.drop 1 })) ∧
  (∀ (t : TowIx) (ok : Bool) (s : State), let w := s.dev.tow t
    (w.recovering = false → NoEffect (.recoveryEnd t ok) s) ∧
    (w.recovering = true → Does (.recoveryEnd t true) s TowParts (fun d => Only Dev.tow t s.dev d ∧
        d.tow t = { w with recovering := false, idle := true } ∧ TowTell s.dev d t [TowEvent s.dev t 0x1C2 false [2]]) ∧
      Does (.recoveryEnd t false) s (Parts.fault ++ [.tows]) fun d => Only Dev.tow t s.dev d ∧
        d.tow t = { w with recovering := false, idle := false, stuck := true, oos := true } ∧
        (s.dev.auto (t / 2) = false → s.dev.evq ++ [TowEvent s.dev t 0x1C2 false [1]] <+: d.evq) ∧
        ((s.dev.coll (t / 2)).live.getLsbD 79 = false → (d.coll (t / 2)).latched.getLsbD 79 = true))) ∧
  (∀ (t : TowIx) (rx : List Byte) (sda : Bool) (s : State), let w := s.dev.tow t
    let dead := (s.dev.region (t / 2)).islandRun = false ∨ (s.dev.region (t / 2)).asleep = true ∨
      (s.dev.region (t / 2)).clkFail = true
    (dead → NoEffect (.sclLowTimeout t rx sda) s ∧ NoEffect (.sdaLowTimeout t) s) ∧
    (¬ dead → w.run = none → Does (.sclLowTimeout t rx sda) s TowParts fun d => Only Dev.tow t s.dev d ∧
      d.tow t = { w with sclLow := true } ∧ TowTell s.dev d t [TowEvent s.dev t 0x1C2 false [4]]) ∧
    (¬ dead → ∀ n l, w.run = some (n, l) → Does (.sclLowTimeout t rx sda) s TowParts fun d => Only Dev.tow t s.dev d ∧
      (d.tow t).sclLow = true ∧ (d.tow t).run = none ∧ ((d.tow t).stat n).result = 5 ∧ ((d.tow t).stat n).done = true ∧
      (s.dev.twEn t = true → (d.tow t).idle = sda ∧ (d.tow t).recovering = !sda) ∧ (d.tow t).queue = w.queue) ∧
    (¬ dead → Does (.sdaLowTimeout t) s TowParts fun d => Only Dev.tow t s.dev d ∧
      (d.tow t = if s.dev.twEn t = true ∧ w.run = none ∧ w.oos = false ∧ w.recovering = false then
        { w with sdaLow := true, idle := false, recovering := true } else { w with sdaLow := true }) ∧
      TowTell s.dev d t [TowEvent s.dev t 0x1C2 false [3]])) ∧
  (∀ (t : TowIx) (s : State), let w := s.dev.tow t
    let armed := s.dev.twEn t = true ∧ s.dev.rb (RegMap.twCfg t) 19 = true ∧ (s.dev.region (t / 2)).asleep = true ∧ w.oos = false
    (¬ armed → NoEffect (.towpathWake (.towpath t)) s) ∧
    (armed → Does (.towpathWake (.towpath t)) s [.tows] fun d => Only Dev.tow t s.dev d ∧ d.tow t = { w with stretch := true }) ∧
    (w.stretch = false → NoEffect (.wakeFail (.towpath t)) s) ∧
    (w.stretch = true → Does (.wakeFail (.towpath t)) s TowParts fun d => Only Dev.tow t s.dev d ∧
      d.tow t = { w with stretch := false, wakeFail := true } ∧ TowTell s.dev d t [TowEvent s.dev t 0x1C2 false [5]])) ∧
  (∀ (s : State), let m := s.dev.mg
    let armed := s.dev.rb RegMap.mgCfg 0 = true ∧ s.dev.pwr.mode = 2 ∧ s.dev.rb RegMap.pwrWakeEn 2 = true
    (¬ armed → NoEffect (.towpathWake .mgmt) s) ∧
    (armed → Becomes (.towpathWake .mgmt) s { s.dev with mg := { m with stretch := true } }) ∧
    (m.stretch = false → NoEffect (.wakeFail .mgmt) s) ∧
    (m.stretch = true → Becomes (.wakeFail .mgmt) s { s.dev with mg := { m with stretch := false, wakeFail := true } }))

/-- The run of slot `n` has ended (Tables 16-4, 16-6): its result, DONE, BY_LOCK, and with EV_EN its event and interrupt. -/
def TowEnded (s d : Dev) (t n result : Nat) (byLock : Bool) : Prop :=
  let x := (d.tow t).stat n
  x.result = result ∧ x.done = true ∧ x.byLock = byLock ∧ (∀ m, m ≠ n → (d.tow t).stat m = (s.tow t).stat m) ∧
  (s.rb (RegMap.slotA t n) 13 = false → TowQuiet s d) ∧
  (s.rb (RegMap.slotA t n) 13 = true → TowTell s d t [TowEvent s t 0x1C0 byLock [BitVec.ofNat 32 (n + result * 2 ^ 4 +
    x.failByte * 2 ^ 8 + x.failBit * 2 ^ 16 + x.tries % 16 * 2 ^ 19 + x.xfer * 2 ^ 23)]])

/-- The transaction on the bus has ended, and nothing is queued by it. -/
def RunEnded (s d : Dev) (t n result : Nat) (byLock : Bool) : Prop :=
  Only Dev.tow t s d ∧ (d.tow t).run = none ∧ (d.tow t).aborting = false ∧ (d.tow t).queue = (s.tow t).queue ∧
  TowEnded s d t n result byLock

/-- The index of the second address byte (Table 16-5). -/
def SecondAddress (proto wlen : Nat) : Option Nat :=
  match proto with
  | 5 | 7 => some 2
  | 8 => some (2 + min 2 wlen)
  | 9 => some (3 + wlen)
  | _ => none

/-- The bytes of a list stand in the area of slot `n` from an offset on, up to its end; the rest of the buffer is unchanged. -/
def AreaHolds (w w' : Towpath) (n off : Nat) (l : List Byte) : Prop :=
  ∀ a, Sparse.get (fun _ => (0 : Byte)) w'.buf a =
    if 256 * n + off ≤ a ∧ a < 256 * n + min 256 (off + l.length) then l.getD (a - (256 * n + off)) 0
    else Sparse.get (fun _ => (0 : Byte)) w.buf a

/-- R368, R370, R371, Table 16-8: a start merges, ends at once or queues its slot, in ascending order; the head of the queue
takes the idle bus; a lost arbitration is counted and the slot starts again up to RETRY times; an end of the transaction stores
what was read and gives the result; and ABORT ends the queue at once and the run at its byte boundary. -/
def Rules.TowpathSlots : Prop :=
  (∀ (t : TowIx) (n : Nat) (mask : Byte) (s : State), n < 8 → mask.toNat = 2 ^ n → let w := s.dev.tow t
    let fresh := { w.stat n with tries := 0, xfer := 0 }
    (w.inUse n = true → Does (.slotStart t mask) s [.tows] fun d => Only Dev.tow t s.dev d ∧ d.tow t = { w with merged := true }) ∧
    (w.inUse n = false → w.oos = true → Does (.slotStart t mask) s TowParts fun d => Only Dev.tow t s.dev d ∧
      TowEnded s.dev d t n 8 false ∧ (d.tow t).queue = w.queue ∧ (d.tow t).run = w.run) ∧
    (w.inUse n = false → w.oos = false → 10 ≤ s.dev.rf (RegMap.slotA t n) 8 4 → Does (.slotStart t mask) s TowParts fun d =>
      Only Dev.tow t s.dev d ∧ TowEnded s.dev d t n 9 false ∧ (d.tow t).queue = w.queue ∧ (d.tow t).run = w.run) ∧
    (w.inUse n = false → w.oos = false → s.dev.rf (RegMap.slotA t n) 8 4 < 10 → Does (.slotStart t mask) s [.tows] fun d =>
      Only Dev.tow t s.dev d ∧ d.tow t = { w.setStat n fresh with queue := w.queue ++ [(n, false)] })) ∧
  (∀ (t : TowIx) (mask : Byte) (s : State), let w := s.dev.tow t
    let l := (List.range 8).filter (fun (n : Nat) => mask.getLsbD n)
    w.oos = false → (∀ n ∈ l, w.inUse n = false ∧ s.dev.rf (RegMap.slotA t n) 8 4 < 10) →
    Does (.slotStart t mask) s [.tows] fun d => Only Dev.tow t s.dev d ∧
      (d.tow t).queue = w.queue ++ l.map (fun n => (n, false)) ∧ (d.tow t).run = w.run) ∧
  (∀ (t : TowIx) (s : State), let w := s.dev.tow t
    (∀ q ∈ w.queue, w.running q.1 = false) → Does (.towpathAbort t) s TowParts fun d => Only Dev.tow t s.dev d ∧
      (d.tow t).queue = [] ∧ (d.tow t).run = w.run ∧ (d.tow t).aborting = w.run.isSome ∧
      (∀ q ∈ w.queue, ((d.tow t).stat q.1).result = 7 ∧ ((d.tow t).stat q.1).done = true) ∧
      ∀ n, (∀ q ∈ w.queue, q.1 ≠ n) → (d.tow t).stat n = w.stat n) ∧
  (∀ (t : TowIx) (s : State), let w := s.dev.tow t
    let ready := s.dev.twEn t = true ∧ w.oos = false ∧ w.recovering = false ∧ s.dev.islandClk (t / 2) = true
    ((w.run ≠ none ∨ w.queue = [] ∨ ¬ ready) → NoEffect (.transactionStart t) s) ∧
    ∀ n l rest, w.run = none → w.queue = (n, l) :: rest → ready →
      ((w.stat n).tries ≠ 15 → Does (.transactionStart t) s [.tows] fun d => Only Dev.tow t s.dev d ∧
        d.tow t = { w.setStat n { w.stat n with tries := (w.stat n).tries + 1, byLock := l } with
          run := some (n, l), queue := rest, last := n, idle := false }) ∧
      ((w.stat n).tries = 15 → Does (.transactionStart t) s [.freeCount, .tows] fun d => Only Dev.tow t s.dev d ∧
        (d.tow t).run = some (n, l) ∧ (d.tow t).queue = rest ∧ (d.tow t).last = n ∧ (d.tow t).idle = false ∧
        16 ≤ ((d.tow t).stat n).tries)) ∧
  (∀ (t : TowIx) (byte : Byte) (bit : Fin 8) (s : State), let w := s.dev.tow t
    (w.run = none → NoEffect (.arbLost t byte bit) s) ∧
    ∀ n l, w.run = some (n, l) →
      let x := { w.stat n with failByte := byte.toNat, failBit := bit.val }
      (w.aborting = false → (w.stat n).tries ≤ s.dev.rf (RegMap.slotA t n) 14 4 →
        Does (.arbLost t byte bit) s [.tows] fun d => Only Dev.tow t s.dev d ∧
          d.tow t = { w.setStat n x with run := none, queue := (n, l) :: w.queue, arbLost := min 255 (w.arbLost + 1) }) ∧
      ((w.aborting = true ∨ s.dev.rf (RegMap.slotA t n) 14 4 < (w.stat n).tries) →
        Does (.arbLost t byte bit) s TowParts fun d => RunEnded s.dev d t n (if w.aborting = true then 7 else 3) l ∧
          (d.tow t).arbLost = min 255 (w.arbLost + 1) ∧ ((d.tow t).stat n).failByte = byte.toNat ∧
          ((d.tow t).stat n).failBit = bit.val)) ∧
  (∀ (t : TowIx) (x : TowEnd) (n : Nat) (l : Bool) (s : State), let w := s.dev.tow t
    let a := RegMap.slotA t n
    let proto := s.dev.rf a 8 4
    let wlen := s.dev.rf (RegMap.slotB t n) 0 8
    let rlen := s.dev.rf (RegMap.slotB t n) 8 8
    (w.run = none → NoEffect (.transactionEnd t x) s) ∧
    (w.run = some (n, l) → proto < 10 →
      (∀ rx, x = .aborted rx →
        (w.aborting = false → NoEffect (.transactionEnd t x) s) ∧
        (w.aborting = true → Does (.transactionEnd t x) s TowParts fun d => RunEnded s.dev d t n 7 l)) ∧
      (∀ b, x = .nack b → Does (.transactionEnd t x) s TowParts fun d =>
        RunEnded s.dev d t n (if b = 0 ∨ SecondAddress proto wlen = some b.toNat then 1 else 2) l ∧
        ((d.tow t).stat n).failByte = b.toNat ∧ (d.tow t).buf = w.buf) ∧
      (∀ rx pec, x = .done rx pec →
        let counted := proto = 7 ∨ proto = 9
        let fixed := if proto = 3 then 1 else if proto = 5 then rlen else if proto = 8 then 2 else 0
        let wr := ((List.range wlen).map (fun i => Sparse.get (fun _ => (0 : Byte)) w.buf (256 * n + i))).map BitVec.toNat
        let crc := fun (got : List Byte) => Pec.crc (Tow.sequence proto (s.dev.rf a 0 7) (s.dev.rf a 24 8) wr (got.map BitVec.toNat)).1
        (∀ c tail, counted → rx = c :: tail → (c.toNat = 0 ∨ rlen < c.toNat ∨ 256 < wlen + c.toNat) →
          Does (.transactionEnd t x) s TowParts fun d => RunEnded s.dev d t n 6 l ∧ (d.tow t).buf = w.buf) ∧
        (∀ c tail, counted → rx = c :: tail → 1 ≤ c.toNat → c.toNat ≤ rlen → wlen + c.toNat ≤ 256 →
          let data := tail.take c.toNat
          Does (.transactionEnd t x) s TowParts fun d => AreaHolds w (d.tow t) n wlen data ∧
            ((d.tow t).stat n).xfer = data.length ∧ RunEnded s.dev d t n
              (if s.dev.rb a 12 = true ∧ pec.map BitVec.toNat ≠ some (crc (c :: data)) then 4 else 0) l) ∧
        (¬ counted → Does (.transactionEnd t x) s TowParts fun d =>
          AreaHolds w (d.tow t) n wlen (rx.take fixed) ∧ ((d.tow t).stat n).xfer = (rx.take fixed).length ∧
          RunEnded s.dev d t n
            (if s.dev.rb a 12 = true ∧ 0 < fixed ∧ pec.map BitVec.toNat ≠ some (crc (rx.take fixed)) then 4 else 0) l))))

/-- R372 to R374, R379, Tables 16-7 and 16-12: a Host Notify is stored and told, or refused when the queue is full; so is a Block
Write to a legal TADDR with 1 to 32 bytes and the PEC that TPEC asks for; a read takes the oldest notify record; and the towpath
commands load, start, read and recover as the table says. -/
def Rules.TowpathTarget : Prop :=
  (∀ (t : TowIx) (addr lo hi : Byte) (s : State), let w := s.dev.tow t
    let listens := s.dev.twEn t = true ∧ w.oos = false ∧ s.dev.islandClk (t / 2) = true ∧ s.dev.rb (RegMap.twCfg t) 17 = true
    let seq := if 65535 ≤ w.notifySeq then 1 else w.notifySeq + 1
    let data := lo.toNat + hi.toNat * 256
    (¬ listens → NoEffect (.hostNotify t addr lo hi) s) ∧
    (listens → 16 ≤ w.notify.length → Does (.hostNotify t addr lo hi) s [.tows] fun d => Only Dev.tow t s.dev d ∧
      d.tow t = { w with notifyNacked := true }) ∧
    (listens → w.notify.length < 16 → Does (.hostNotify t addr lo hi) s TowParts fun d => Only Dev.tow t s.dev d ∧
      (d.tow t = { w with
        notify := w.notify ++ [BitVec.ofNat 128 (s.dev.rtime (t / 2) + addr.toNat / 2 * 2 ^ 64 + data * 2 ^ 72 + seq * 2 ^ 96)]
        notifySeq := seq, idle := w.run.isNone }) ∧
      TowTell s.dev d t [TowEvent s.dev t 0x1C1 false [BitVec.ofNat 32 (addr.toNat / 2 + data * 256), BitVec.ofNat 32 seq]])) ∧
  (∀ (t : TowIx) (cmd : Byte) (data : List Byte) (pec : Option Byte) (s : State), let w := s.dev.tow t
    let cfg := RegMap.twCfg t
    let a := s.dev.rf cfg 20 7
    let listens := s.dev.twEn t = true ∧ w.oos = false ∧ s.dev.islandClk (t / 2) = true ∧ s.dev.rb cfg 16 = true ∧
      9 ≤ a ∧ a ≤ 0x77 ∧ a ≠ 0x0C ∧ a ≠ 0x61
    let good := 1 ≤ data.length ∧ data.length ≤ 32 ∧
      (s.dev.rb cfg 18 = true → pec.map BitVec.toNat = some (Pec.crc ([2 * a, cmd.toNat, data.length] ++ data.map BitVec.toNat)))
    (¬ listens → NoEffect (.targetWrite t cmd data pec) s) ∧
    (listens → 4 ≤ w.tgt.length → Does (.targetWrite t cmd data pec) s [.tows] fun d => Only Dev.tow t s.dev d ∧
      d.tow t = { w with tgtNacked := true }) ∧
    (listens → w.tgt.length < 4 → ¬ good → NoEffect (.targetWrite t cmd data pec) s) ∧
    (listens → w.tgt.length < 4 → good → Does (.targetWrite t cmd data pec) s TowParts fun d => Only Dev.tow t s.dev d ∧
      (d.tow t = { w with
        tgt := w.tgt ++ [{ time := s.dev.rtime (t / 2), cmd := cmd.toNat, pec := s.dev.rb cfg 18, data := data }]
        idle := w.run.isNone }) ∧
      TowTell s.dev d t [TowEvent s.dev t 0x1C3 false [BitVec.ofNat 32 (cmd.toNat + data.length * 256)]])) ∧
  (∀ (t : TowIx) (s : State), let w := s.dev.tow t
    (w.notify = [] → Becomes (.notifyRead t) s { s.dev with out := s.dev.out ++ [Out.readData [0, 0, 0, 0]] }) ∧
    ∀ q l, w.notify = q :: l → Does (.notifyRead t) s [.tows, .out] fun d => Only Dev.tow t s.dev d ∧
      d.tow t = { w with notify := l } ∧ d.out = s.dev.out ++ [Out.readData (Bits.words4 q.toNat)]) ∧
  (∀ (t : TowIx) (d : Desc) (data : Option (List Byte)) (i : Instr) (op k n : Nat) (s : State), d.tindex.toNat = t.val →
    ((i = .towpathPrepare d data ∧ op = 0x700 ∧ k = 1 ∧ n = d.pf 0 0 3 ∧ n ≤ 5 ∧
        Accepted d [5] [7, Tow.maskA, 0xFFFF, Cmd.all, Cmd.all] s.dev) ∨
      (i = .towpathXfer d data ∧ op = 0x701 ∧ k = 0 ∧ n = 6 ∧ Accepted d [5] [Tow.maskA, 0xFFFF, Cmd.all, Cmd.all] s.dev)) →
    let w := s.dev.tow t
    let addr := d.par64 (k + 2)
    (addr % 64 ≠ 0 → Refused i s d op 0x10) ∧
    (addr % 64 = 0 → w.inUse n = true → Refused i s d op 0x12) ∧
    (addr % 64 = 0 → w.inUse n = false → addr ≠ 0 → data = none → Refused i s d op 0x19) ∧
    (∀ l, addr % 64 = 0 → w.inUse n = false → (addr = 0 → l = []) → (addr ≠ 0 → data = some l) →
      (op = 0x701 → w.oos = false ∧ Bits.fld (BitVec.ofNat 32 (d.par 0)) 8 4 < 10) →
      Does i s [.regs, .tows, .complq, .hp] fun t' => Only Dev.tow t s.dev t' ∧
        t'.complq = (CmdDone s.dev d op 0 0 0).complq ∧
        (∀ o, t'.reg o = if o = RegMap.slotB t n then BitVec.ofNat 32 (d.par (k + 1))
          else if o = RegMap.slotA t n then BitVec.ofNat 32 (d.par k) else s.dev.reg o) ∧
        AreaHolds w (t'.tow t) n 0 (l.take (d.pf (k + 1) 0 8)) ∧
        (t'.tow t).queue = (if op = 0x701 then w.queue ++ [(6, false)] else w.queue))) ∧
  (∀ (t : TowIx) (d : Desc) (data : Option (List Byte)) (s : State), d.tindex.toNat = t.val →
    Accepted d [5] [7, Tow.maskA, 0xFFFF, Cmd.all, Cmd.all] s.dev → 5 < d.pf 0 0 3 →
    Refused (.towpathPrepare d data) s d 0x700 0x10) ∧
  (∀ (t : TowIx) (d : Desc) (ok : Bool) (s : State), d.tindex.toNat = t.val → let w := s.dev.tow t
    (Accepted d [5] [7, Cmd.all, Cmd.all] s.dev → let n := d.pf 0 0 3
      (d.par64 1 % 64 ≠ 0 → Refused (.towpathSlotRead d ok) s d 0x702 0x10) ∧
      (d.par64 1 % 64 = 0 → Does (.towpathSlotRead d true) s [.tows, .out, .complq, .hp] fun t' => Only Dev.tow t s.dev t' ∧
        t'.tow t = w.setStat n { w.stat n with done := false } ∧
        t'.complq = (CmdDone s.dev d 0x702 0 (s.dev.slotStat t n).toNat 0).complq ∧
        t'.out = s.dev.out ++ [Out.hostWrite (d.par64 1) (Bytes.words (w.area n 256))])) ∧
    (Accepted d [5] [Cmd.all, Cmd.all] s.dev → d.par64 0 % 64 = 0 →
      Does (.towpathNotifyRead d true) s [.tows, .out, .complq, .hp] (fun t' => Only Dev.tow t s.dev t' ∧
        t'.tow t = { w with notify := [] } ∧ t'.complq = (CmdDone s.dev d 0x703 0 w.notify.length 0).complq ∧
        t'.out = s.dev.out ++ [Out.hostWrite (d.par64 0) (w.notify.flatMap (fun q => Bits.words4 q.toNat) ++
          List.replicate (4 * (16 - w.notify.length)) 0)]) ∧
      Does (.towpathTargetRead d true) s [.tows, .out, .complq, .hp] (fun t' => Only Dev.tow t s.dev t' ∧
        t'.tow t = { w with tgt := [] } ∧ t'.complq = (CmdDone s.dev d 0x704 0 w.tgt.length 0).complq ∧
        t'.out = s.dev.out ++ [Out.hostWrite (d.par64 0) (w.tgt.flatMap TgtRec.words ++
          List.replicate (12 * (4 - w.tgt.length)) 0)]))) ∧
  (∀ (t : TowIx) (d : Desc) (r : Recovery) (s : State), d.tindex.toNat = t.val → Accepted d [5] [] s.dev →
    Does (.towpathRecover d r) s (Parts.fault ++ [.tows, .complq, .hp]) fun t' => Only Dev.tow t s.dev t' ∧
      (s.dev.twEn t = true → (t'.tow t).recovering = false ∧ ((t'.tow t).idle = true ↔ r ≠ .stuck) ∧ ((t'.tow t).oos = true ↔ r = .stuck) ∧
        ([{ cmdRing := d.ring.toNat, cmdId := d.cmdId.toNat, opcode := 0x705, status := 0
            r0 := if r = .stuck then 0 else 1 }] : List Completion) <:+ t'.complq))

/-- R381, R382, Tables 16-12 and 16-13: the status image is taken as a whole; a read answers its block with its count; writes
need their PEC under PEC_REQ; a refused command is counted; the mailbox holds one write until it is read. -/
def Rules.ManagementPort : Prop :=
  (∀ (s : State), Does .statusImageRefresh s [.mg] fun t =>
    let seq := (s.dev.mg.seq + 1) % 2 ^ 32
    let m := s.dev.rv.meas
    t.mg = { s.dev.mg with
      seq := seq
      id := Bytes.le 2 0x9512 ++ [0xB0, 3, BitVec.ofNat 8 (Config.fwMinorBuild.toNat / 65536)] ++
        Bytes.le 1 (s.dev.regionMask (·.linkUp)) ++ Bytes.le 1 (s.dev.regionMask (·.autonomous)) ++ [0]
      summary := Bytes.le 1 s.dev.summaryFlags ++ Bytes.le 1 (s.dev.regionMask (·.clkFail)) ++ Bytes.le 1 s.dev.rv.path ++
        Bytes.le 1 s.dev.rv.chg ++ Bytes.le 2 s.dev.rv.live ++ Bytes.le 4 (s.dev.tbTime / 2 ^ 20) ++ Bytes.le 4 seq ++ [0, 0]
      temp := (List.range 8).flatMap (fun g => Bytes.le 2 (s.dev.dieTemp g))
      reserve := Bytes.le 4 s.dev.rvStat.toNat ++ Bytes.le 2 s.dev.rv.live ++ Bytes.le 2 m.bus.toNat ++
        Bytes.le 2 m.vsys.toNat ++ Bytes.le 2 m.pack.toNat } ∧
    t.mg.id.length = 8 ∧ t.mg.summary.length = 16 ∧ t.mg.temp.length = 16 ∧ t.mg.reserve.length = 12 ∧
    ∀ g, g < 8 → s.dev.auto g = true → s.dev.dieTemp g = 0x8000) ∧
  (∀ (i : Instr) (l : List Byte) (s : State),
    ((i = .mgId ∧ l = s.dev.mg.id) ∨ (i = .mgSummary ∧ l = s.dev.mg.summary) ∨ (i = .mgTemp ∧ l = s.dev.mg.temp) ∨
      (i = .mgReserve ∧ l = s.dev.mg.reserve) ∨ (i = .mgMboxRead ∧ l = s.dev.mg.reply) ∨
      (i = .mgCell ∧ s.dev.auto (s.dev.mg.cell / 64) = true ∧ l = List.replicate 8 0xFF) ∨
      (i = .mgCell ∧ s.dev.auto (s.dev.mg.cell / 64) = false ∧ l = Bytes.le 4 (s.dev.cellStatus s.dev.mg.cell).toNat ++
        Bytes.le 1 (s.dev.cell s.dev.mg.cell).trip.primary ++ [0] ++
        Bytes.le 2 (Bits.ofInt 16 (s.dev.cell s.dev.mg.cell).tjEst))) →
    (s.dev.rb RegMap.mgCfg 0 = false → NoEffect i s) ∧
    (s.dev.rb RegMap.mgCfg 0 = true → Becomes i s { s.dev with
      out := s.dev.out ++ [Out.serial 0 (BitVec.ofNat 8 l.length :: l)] })) ∧
  (∀ (v : BitVec 16) (data : List Byte) (pec : Option Byte) (s : State), let m := s.dev.mg
    let nacked := { s.dev with mg := { m with nacks := min 255 (m.nacks + 1) } }
    let badPec := { s.dev with mg := { m with pecErr := true } }
    let head := 0x80 + 2 * Config.mgStrap.toNat
    let ok := fun (l : List Nat) => s.dev.rb RegMap.mgCfg 1 = true → pec.map BitVec.toNat = some (Pec.crc (head :: l))
    let sel := ok [4, v.toNat % 256, v.toNat / 256]
    let box := s.dev.rb RegMap.mgCfg 2 = true ∧ m.mbox = none ∧ 1 ≤ data.length ∧ data.length ≤ 32
    let write := ok ([0x10, data.length] ++ data.map BitVec.toNat)
    (s.dev.rb RegMap.mgCfg 0 = false → NoEffect (.mgCellSel v pec) s ∧ NoEffect (.mgMboxWrite data pec) s ∧
      ∀ b, NoEffect (.mgmtCommandNack b) s) ∧
    (s.dev.rb RegMap.mgCfg 0 = true →
      (¬ sel → Becomes (.mgCellSel v pec) s badPec) ∧ (sel → 512 ≤ v.toNat → Becomes (.mgCellSel v pec) s nacked) ∧
      (sel → v.toNat < 512 → Becomes (.mgCellSel v pec) s { s.dev with mg := { m with cell := v.toNat } }) ∧
      (¬ box → Becomes (.mgMboxWrite data pec) s nacked) ∧ (box → ¬ write → Becomes (.mgMboxWrite data pec) s badPec) ∧
      (box → write → Becomes (.mgMboxWrite data pec) s { s.dev with
        mg := { m with mbox := some data }
        evq := s.dev.evq ++ [{ stream := 0x8E, code := 0x1D0, obj := 16
                               payload := Bits.words2 s.dev.tbTime ++ [BitVec.ofNat 32 data.length] }] }) ∧
      Becomes (.mgmtCommandNack true) s badPec ∧ Becomes (.mgmtCommandNack false) s nacked)) ∧
  (∀ (d : Desc) (data : Option (List Byte)) (ok : Bool) (s : State), let m := s.dev.mg
    (Accepted d [0] [0x3F, Cmd.all, Cmd.all] s.dev → let n := d.pf 0 0 6
      ((32 < n ∨ d.par64 1 % 64 ≠ 0) → Refused (.mgmtReply d data) s d 0x710 0x10) ∧
      (1 ≤ n → n ≤ 32 → d.par64 1 % 64 = 0 → data = none → Refused (.mgmtReply d data) s d 0x710 0x19) ∧
      (n ≤ 32 → d.par64 1 % 64 = 0 → ∀ l, (data = some l ∨ n = 0) → Becomes (.mgmtReply d data) s
        { CmdDone s.dev d 0x710 0 0 0 with mg := { m with reply := l.take n } })) ∧
    (Accepted d [0] [Cmd.all, Cmd.all] s.dev →
      (d.par64 0 % 64 ≠ 0 → Refused (.mgmtMboxRead d ok) s d 0x711 0x10) ∧
      (d.par64 0 % 64 = 0 → Becomes (.mgmtMboxRead d true) s { CmdDone s.dev d 0x711 0 (m.mbox.getD []).length 0 with
        mg := { m with mbox := none }
        out := s.dev.out ++ [Out.hostWrite (d.par64 0)
          (Bytes.words ((m.mbox.getD [] ++ List.replicate 32 0).take 32))] })))

/-- What a supervisor frame shifts out: the image with its CRC (R383). -/
def SvOut (s : Dev) (stale : Bool) : Out :=
  .serial 1 (s.svImage stale ++ Bytes.le 2 (Crc.crc16 ((s.svImage stale).map BitVec.toNat)))

/-- The frames that are executed: command, sequence, region mask, the CMD_EN bit they need (Table 16-14). -/
def SvRow (s : Dev) (i : Instr) (cmd : Nat) (seq mask : Byte) (stale enabled : Bool) : Prop :=
  (i = .supervisorRead seq stale ∧ cmd = 0 ∧ mask = 0 ∧ enabled = true) ∨
  (i = .regionSafe seq mask stale ∧ cmd = 1 ∧ enabled = s.rb RegMap.svCfg 2) ∨
  (i = .chipSafe seq stale ∧ cmd = 2 ∧ mask = 0 ∧ enabled = s.rb RegMap.svCfg 3) ∨
  (i = .supervisorClear seq stale ∧ cmd = 3 ∧ mask = 0 ∧ enabled = true)

/-- R383 to R385, Table 16-14: a frame with a stale image is not executed; every executed frame shifts out the image, kicks the
watchdog, sets SEQ_ECHO and RESULT and is reported; REGION_SAFE and CHIP_SAFE raise SUPERVISOR_SAFE with their safe reactions,
unless disabled; CLEAR clears the sticky bits; a discarded frame is counted; and a silent supervisor raises SUPERVISOR_LOSS. -/
def Rules.SupervisorPort : Prop :=
  (∀ (s : Dev) (stale : Bool), (s.svImage stale).length = 30 ∧
    (s.svImage stale)[0]? = some (if stale = true then 0x5A else 0xA5) ∧ (s.svImage stale)[1]? = some (BitVec.ofNat 8 s.sv.seq) ∧
    (s.svImage stale)[2]? = some (BitVec.ofNat 8 s.sv.result) ∧ (s.svImage stale)[15]? = some (BitVec.ofNat 8 s.sv.undelivered)) ∧
  (∀ (i : Instr) (cmd : Nat) (seq mask : Byte) (stale enabled : Bool) (s : State), SvRow s.dev i cmd seq mask stale enabled →
    let v := s.dev.sv
    let parts := Parts.fault ++ [.sv, .out]
    (s.dev.rb RegMap.svCfg 0 = false → NoEffect i s) ∧
    (s.dev.rb RegMap.svCfg 0 = true → stale = true → Becomes i s { s.dev with out := s.dev.out ++ [SvOut s.dev true] }) ∧
    (s.dev.rb RegMap.svCfg 0 = true → stale = false →
      Does i s parts (fun t => s.dev.out ++ [SvOut s.dev false] <+: t.out ∧ t.sv.seq = seq.toNat ∧
        (t.coll 8).live.getLsbD 52 = false ∧
        ([{ stream := 0x8E, code := 0x1D8, obj := 17, flag := decide (cmd = 1) || decide (cmd = 2)
            payload := Bits.words2 s.dev.tbTime ++
              [BitVec.ofNat 32 (cmd + t.sv.result * 256 + mask.toNat * 65536)] }] : List Event) <:+ t.evq) ∧
      (enabled = false → Does i s [.regions, .barges, .colls, .sv, .evq, .out] fun t =>
        t.sv = { v with seq := seq.toNat, result := 4 }) ∧
      (cmd = 0 → Does i s [.regions, .barges, .colls, .sv, .evq, .out] fun t => t.sv = { v with seq := seq.toNat, result := 0 }) ∧
      (cmd = 3 → Does i s [.regions, .barges, .colls, .sv, .evq, .out] fun t => t.sv = { v with
        seq := seq.toNat, result := 0, wdExpired := false, safeSeen := false, crcErrors := 0, lenErrors := 0 }) ∧
      (enabled = true → cmd = 1 → Does i s parts fun t => t.sv.safeSeen = true ∧ (t.coll 8).latched.getLsbD 51 = true ∧
        ((∀ g, g < 8 → mask.getLsbD g = true → s.dev.straitUp g = true) → t.sv.result = 0) ∧
        (∀ g, g < 8 → mask.getLsbD g = true → s.dev.straitUp g = false → t.sv.result = 5) ∧
        (∀ g, g < 8 → (t.sv.undelivered.testBit g = true ↔ (mask.getLsbD g = true ∧ s.dev.straitUp g = false))) ∧
        (∀ g, g < 8 → mask.getLsbD g = true → s.dev.straitUp g = true →
          { source := 51, scope := .region g, fatal := false } ∈ (t.coll 8).standing ∧
          (∀ c, c / 64 = g → (t.cell c).state = .safe) ∧ ∀ k, k / 4 = g → (t.slice k).state = .off)) ∧
      (enabled = true → cmd = 2 → Does i s parts fun t => t.sv = { v with seq := seq.toNat, result := 0, safeSeen := true } ∧
        (t.coll 8).latched.getLsbD 51 = true ∧ { source := 51, scope := .chip, fatal := false } ∈ (t.coll 8).standing))) ∧
  (∀ (e : FrameError) (s : State), let v := s.dev.sv
    (s.dev.rb RegMap.svCfg 0 = false → NoEffect (.supervisorFrameDiscard e) s) ∧
    (s.dev.rb RegMap.svCfg 0 = true → Becomes (.supervisorFrameDiscard e) s { s.dev with sv := match e with
      | .crc => { v with result := 1, crcErrors := min 255 (v.crcErrors + 1) }
      | .length => { v with result := 2, lenErrors := min 255 (v.lenErrors + 1) }
      | .command => { v with result := 3 } }) ∧
    (s.dev.rf RegMap.svCfg 8 8 = 0 → NoEffect .supervisorLoss s) ∧
    (s.dev.rf RegMap.svCfg 8 8 ≠ 0 → Does .supervisorLoss s (Parts.fault ++ [.sv]) fun t =>
      t.sv = { v with wdExpired := true } ∧
      ((s.dev.coll 8).live.getLsbD 52 = false → (t.coll 8).latched.getLsbD 52 = true ∧ (t.coll 8).live.getLsbD 52 = true)))

/-- `Rules.TowpathBus`, `Rules.TowpathSlots` and `Rules.TowpathTarget` together. -/
def Obligations.TowpathTransfers : Prop := Rules.TowpathBus ∧ Rules.TowpathSlots ∧ Rules.TowpathTarget

/-- `Rules.ManagementPort` and `Rules.SupervisorPort` together. -/
def Obligations.ManagementAndSupervisor : Prop := Rules.ManagementPort ∧ Rules.SupervisorPort

/-! ### Fault collection and reaction (17) -/

/-- A collector event (Table 17-8). -/
def CollEvent (k code : Nat) (flag : Bool) (time : Nat) (p : List Word) : Event :=
  { stream := if k < 8 then 0x80 + k else 0x89, code := code, obj := k, flag := flag, payload := Bits.words2 time ++ p }

/-- EV_FAULT of an entry (Table 17-8). -/
def FaultNotice (k : Nat) (flag : Bool) (e : HistEntry) : Event :=
  CollEvent k 0x100 flag (if flag = true then e.assertTime else e.clearTime)
    [e.word10, BitVec.ofNat 32 e.info, BitVec.ofNat 32 (e.count % 65536), BitVec.ofNat 32 e.seq]

/-- The class of a source; 3 acts as 1 (Table 17-7). -/
def SourceClass (s : Dev) (k src : Nat) : Nat :=
  if Bits.fld (s.fsrc k src) 0 2 = 3 then 1 else Bits.fld (s.fsrc k src) 0 2

/-- A rule slot counts the source (R390, R392, R407). -/
def RuleOn (s : Dev) (k src n : Nat) : Prop :=
  (s.fsrc k src).getLsbD 16 = true ∧ Bits.fld (s.fsrc k src) 17 8 = n ∧ (s.coll k).countFailed = false ∧
  src ≠ (if k < 8 then 81 else 55) ∧ n < (if k < 8 then 256 else 128) ∧ Bits.fld (s.frule k n) 0 8 ≠ 0

/-- The slot counter after one more event (R390): a window covers [open, open + WIN_MS). -/
def RuleNext (s : Dev) (k n : Nat) : RuleCtr :=
  let r := Sparse.get (fun _ => ({} : RuleCtr)) (s.coll k).rules n
  if r.opened = false ∨ r.winEnd ≤ s.elapsed then
    { opened := true, ctr := 1, winEnd := s.elapsed + max 1 (min 3600000 (Bits.fld (s.frule k n) 8 22)) * 1000000 }
  else { r with ctr := min 255 (r.ctr + 1) }

/-- R390, R393: the key of a real event, the slot that counted it, its count, and the mask applied. -/
def Keyed (s : Dev) (k src key : Nat) (slot : Option Nat) (count mask : Nat) : Prop :=
  let w := s.fsrc k src
  let safe := if k < 8 then (if src < 64 then 8 else 16) else
    if (8 ≤ src ∧ src < 16) ∨ (24 ≤ src ∧ src < 32) then 0 else 32
  ((SourceClass s k src = 2 ∧ key = 2 ∧ slot = none ∧ count = 0) ∨
    (SourceClass s k src ≠ 2 ∧ (∀ n, ¬ RuleOn s k src n) ∧ key = SourceClass s k src ∧ slot = none ∧ count = 0) ∨
    (SourceClass s k src ≠ 2 ∧ ∃ n, RuleOn s k src n ∧ slot = some n ∧ count = (RuleNext s k n).ctr ∧
      key = if Bits.fld (s.frule k n) 0 8 ≤ count then 4 else 3)) ∧
  mask = if key = 2 then Bits.fld w 9 7 ||| 65 ||| safe else if key = 4 then Bits.fld w 9 7 else Bits.fld w 2 7

/-- A real event reaches its collector: not of a reserved source, not of a level source that is live already, and not of a
central source whose strait is lost (R387, R388). -/
def Reaches (s : Dev) (k src : Nat) : Prop :=
  Fc.reserved k src = false ∧ (Fc.level k src = true → (s.coll k).live.getLsbD src = false) ∧
  (k < 8 → Fc.isCentral src = true → s.straitUp k = true)

/-- The history of a collector after one entry (R397). -/
def HistoryTakes (k : Nat) (x y : Coll) (e : HistEntry) : Prop :=
  let depth := if k < 8 then 16 else 32
  y.seq = (x.seq + 1) % 2 ^ 32 ∧
  (x.hist.length < depth → y.hist = x.hist ++ [e] ∧ y.historyLost = x.historyLost ∧ y.overflow = x.overflow) ∧
  (depth ≤ x.hist.length → y.hist = x.hist ∧ y.historyLost = true ∧ y.overflow = min 255 (x.overflow + 1))

/-- R387 to R393, R395 to R399, R401, Table 17-4, for an event whose mask asks for no safe reaction: the source is latched and,
if it is a level source, live; the event is counted and keyed by its rule; LOG writes the entry, EVENT raises EV_FAULT with its
interrupt, ERR_N at the chip asserts the pin; a region reports to the chip, or keeps the report while autonomous; an event that
does not reach the collector has no effect; and a central source waits for its strait. -/
def Obligations.FaultEvents : Prop :=
  (∀ (k : CollIx) (src : BitVec 7) (info : Word) (inj : Bool) (key count mask : Nat) (slot : Option Nat) (s : State),
    Reaches s.dev k src.toNat → Keyed s.dev k src.toNat key slot count mask → mask / 4 % 16 = 0 →
    let x := s.dev.coll k
    let n := src.toNat
    let lvl := Fc.level k n
    let t := if k.val < 8 then s.dev.rtime k else s.dev.tbTime
    let failed := x.countFailed || decide (n = if k.val < 8 then 81 else 55)
    let e : HistEntry := {
      assertTime := t, clearTime := (if lvl = true then 0 else t + if k.val < 8 then 6 else 2), source := n, real := true
      injected := inj, opened := lvl, fallback := failed, key := key, react := mask, ruleCount := count, info := info.toNat
      count := min 65535 (Sparse.get (fun _ => 0) x.counts n + 1), seq := x.seq }
    let log := Bits.nbit mask 0 = true
    let full := (if k.val < 8 then 16 else 32) ≤ x.hist.length
    let errN := k.val = 8 ∧ Bits.nbit mask 6 = true
    let told := k.val = 8 ∨ s.dev.auto k = false
    Does (.faultEvent k src info inj) s [.barges, .colls, .err, .reports, .evq] fun d => Only Dev.coll k s.dev d ∧
      let y := d.coll k
      y.latched = x.latched ||| (1#128 <<< n) ∧ y.live = (if lvl = true then x.live ||| (1#128 <<< n) else x.live) ∧
      (∀ m, Sparse.get (fun _ => 0) y.counts m = if m = n then e.count else Sparse.get (fun _ => 0) x.counts m) ∧
      (∀ m, Sparse.get (fun _ => ({} : RuleCtr)) y.rules m =
        if slot = some m then RuleNext s.dev k m else Sparse.get (fun _ => ({} : RuleCtr)) x.rules m) ∧
      y.fatalReal = (if key = 2 then x.fatalReal ||| (1#128 <<< n) else x.fatalReal) ∧ y.countFailed = failed ∧
      y.testCount = (if inj = true then min 255 (x.testCount + 1) else x.testCount) ∧ y.standing = x.standing ∧
      (log → HistoryTakes k x y e ∧ y.firstErr = if x.firstErr = none then some e else x.firstErr) ∧
      (¬ log → y.hist = x.hist ∧ y.seq = x.seq ∧ y.firstErr = x.firstErr) ∧
      (∃ w, d.evq = s.dev.evq ++ (if told then
        (if log ∧ full ∧ x.historyLost = false then [CollEvent k 0x101 false t [BitVec.ofNat 32 x.seq]] else []) ++
        (if Bits.nbit mask 1 = true then [FaultNotice k true e] else []) ++
        (if errN ∧ s.dev.err.asserted = false then [CollEvent 8 0x102 false s.dev.tbTime [w]] else []) else [])) ∧
      (∀ b, d.barge b = if Bits.nbit mask 1 = true ∧ b < 64 ∧ (k.val = 8 ∨ (b / 8 = k.val ∧ s.dev.straitUp k = true)) then
          { s.dev.barge b with pend := (s.dev.barge b).pend ||| (1#64 <<< (if k.val < 8 then 34 else 35)) }
        else s.dev.barge b) ∧
      (d.err = if errN then { s.dev.err with
          asserted := true, clearWaits := false, pulse := (if s.dev.err.asserted = true then s.dev.err.pulse else true) }
        else s.dev.err) ∧
      (d.reports = if k.val < 8 ∧ s.dev.auto k = false then
          s.dev.reports ++ [{ region := k.val, source := n, key := key, react := mask, time := t }] else s.dev.reports) ∧
      (y.unsent = if k.val < 8 ∧ s.dev.auto k = true ∧ (key = 1 ∨ key = 2 ∨ key = 4) ∧ (∀ r ∈ x.unsent, r.source ≠ n) then
          x.unsent ++ [{ region := k.val, source := n, key := key, react := mask, time := t }] else x.unsent)) ∧
  (∀ (k : CollIx) (src : BitVec 7) (info : Word) (inj : Bool) (s : State), let n := src.toNat
    let x := s.dev.coll k
    let waits := k.val < 8 ∧ Fc.isCentral n = true ∧ s.dev.straitUp k = false
    (¬ waits → (Fc.reserved k n = true ∨ (Fc.level k n = true ∧ x.live.getLsbD n = true)) →
      NoEffect (.faultEvent k src info inj) s) ∧
    (waits → (∀ q ∈ x.deferred, q.source ≠ n) → Does (.faultEvent k src info inj) s [.colls] fun d => Only Dev.coll k s.dev d ∧
      d.coll k = { x with deferred := x.deferred ++
        [{ source := n, count := 1, first := s.dev.tbTime, info := info.toNat }] }) ∧
    (waits → (∃ q ∈ x.deferred, q.source = n) → Does (.faultEvent k src info inj) s [.colls] fun d => Only Dev.coll k s.dev d ∧
      d.coll k = { x with deferred := x.deferred.map (fun (q : Deferred) =>
        if q.source = n then { q with count := min 65535 (q.count + 1) } else q) }))

/-- The cell that a region source names (Table 17-2). -/
def NamedCell (k src info c : Nat) : Prop :=
  k < 8 ∧ src < 64 ∧ info = c ∧ ((src % 8 ≤ 1 ∧ info ≠ 0x1FF) ∨ src % 8 = 2 ∨ src % 8 = 3 ∨ src % 8 = 5 ∨ src % 8 = 6)

/-- The block that a region source names: its own, or the home block of the barge of a central source (Table 17-1). -/
def NamedBlock (k src info b : Nat) : Prop :=
  k < 8 ∧ ((src < 64 ∧ b = 8 * k + src / 8) ∨ (64 ≤ src ∧ Fc.isCentral src = true ∧ info < 64 ∧ b = info))

/-- R393, R394, R396, Table 17-1: the safe reactions of the applied mask act at once, on the cells they cover, and stand under
their source; REGION_SAFE also turns the slices off; CHIP_SAFE of a region acts in the region and is held while its strait is
lost; a report with CHIP_SAFE stands at the chip, and the request then reaches every region whose strait is up. -/
def Obligations.SafeReactions : Prop :=
  (∀ (k : CollIx) (src : BitVec 7) (info : Word) (inj : Bool) (key count mask : Nat) (slot : Option Nat) (s : State),
    Reaches s.dev k src.toNat → Keyed s.dev k src.toNat key slot count mask →
    let n := src.toNat
    let fatal := decide (key = 2)
    Does (.faultEvent k src info inj) s Parts.fault fun d => (d.coll k).latched.getLsbD n = true ∧
      (∀ c, Bits.nbit mask 2 = true → NamedCell k n info.toNat c → (d.cell c).state = .safe ∧
        { source := n, scope := .cell c, fatal := fatal } ∈ (d.coll k).standing) ∧
      (∀ b, Bits.nbit mask 3 = true → NamedBlock k n info.toNat b → (∀ c, c / 8 = b → (d.cell c).state = .safe) ∧
        { source := n, scope := .block b, fatal := fatal } ∈ (d.coll k).standing) ∧
      (k.val < 8 → (Bits.nbit mask 4 = true ∨ Bits.nbit mask 5 = true) →
        (∀ c, c / 64 = k.val → (d.cell c).state = .safe) ∧ (∀ j, j / 4 = k.val → (d.slice j).state = .off) ∧
        { source := n, scope := .region k.val, fatal := fatal } ∈ (d.coll k).standing) ∧
      (k.val < 8 → Bits.nbit mask 5 = true → s.dev.straitUp k = false → n ∈ (d.coll k).chipSafeHeld) ∧
      (k.val = 8 → Bits.nbit mask 4 = true → n < 32 → (∀ c, c / 64 = n % 8 → (d.cell c).state = .safe) ∧
        { source := n, scope := .region (n % 8), fatal := fatal } ∈ (d.coll 8).standing) ∧
      (k.val = 8 → Bits.nbit mask 5 = true → { source := n, scope := .chip, fatal := fatal } ∈ (d.coll 8).standing)) ∧
  (∀ (s : State), s.dev.reports = [] → NoEffect .regionReport s) ∧
  (∀ (r : Report) (rest : List Report) (s : State), s.dev.reports = r :: rest → r.region < 8 →
    let level := (s.dev.coll 8).live.getLsbD (16 + r.region)
    ((r.key = 0 ∨ r.key = 3) → r.react / 32 % 4 = 0 → Becomes .regionReport s { s.dev with reports := rest }) ∧
    Does .regionReport s Parts.fault fun d => d.reports = rest ∧
      (r.key = 2 → (d.coll 8).latched.getLsbD (24 + r.region) = true) ∧
      ((r.key = 1 ∨ r.key = 4) → (d.coll 8).live.getLsbD (16 + r.region) = true ∧
        (level = false → (d.coll 8).latched.getLsbD (16 + r.region) = true)) ∧
      (Bits.nbit r.react 6 = true → d.err.asserted = true) ∧
      (Bits.nbit r.react 5 = true →
        { source := 1000 * (r.region + 1) + r.source, scope := .chip, fatal := r.key == 2 } ∈ (d.coll 8).standing)) ∧
  (∀ (g : RegionIx) (s : State), let due := (∃ r ∈ (s.dev.coll 8).standing, r.scope = .chip) ∧ s.dev.straitUp g = true
    (¬ due → NoEffect (.chipSafeRequest g) s) ∧
    (due → Does (.chipSafeRequest g) s (Parts.cell ++ [.barges, .slices, .regs, .regsPend, .colls]) fun d =>
      (∀ c, c / 64 = g.val → (d.cell c).state = .safe) ∧ (∀ c, c / 64 ≠ g.val → d.cell c = s.dev.cell c) ∧
      ∀ j, j / 4 = g.val → (d.slice j).state = .off))

/-- R390, R395, R398 to R400: a level source that becomes inactive closes its queued entry or appends a clear record, and with
EVENT raises EV_FAULT with FLAG 0; a window that ends clears its counter; an injected event latches, logs and is counted without
touching live bits, counts, rules, the first error or ERR_N; a clear takes the bits that are neither live nor FATAL, and the safe
requests they held; a history read removes the oldest entry; and the first-error record clears. -/
def Rules.FaultRecords : Prop :=
  (∀ (k : CollIx) (src : BitVec 7) (s : State), let n := src.toNat
    let x := s.dev.coll k
    let t := if k.val < 8 then s.dev.rtime k else s.dev.tbTime
    let e := Sparse.get (fun _ => ({} : HistEntry)) x.last n
    let shut := fun (q : HistEntry) => { q with opened := false, clearTime := t }
    let mine := fun (q : HistEntry) => q.seq = e.seq ∧ q.source = n ∧ q.opened = true ∧ q.kindClear = false
    let told := k.val = 8 ∨ s.dev.auto k = false
    (x.live.getLsbD n = false → NoEffect (.faultClear k src) s) ∧
    (x.live.getLsbD n = true → Does (.faultClear k src) s [.regions, .barges, .colls, .evq] fun d => Only Dev.coll k s.dev d ∧
      let y := d.coll k
      y.live = x.live &&& ~~~ (1#128 <<< n) ∧ y.latched = x.latched ∧ y.standing = x.standing ∧ y.counts = x.counts ∧
      y.firstErr = x.firstErr.map (fun q => if q.source = n ∧ q.opened = true then shut q else q) ∧
      (((∃ q ∈ x.hist, mine q) ∨ Bits.nbit e.react 0 = false) →
        y.hist = x.hist.map (fun q => if mine q then shut q else q) ∧ y.seq = x.seq ∧
        d.evq = s.dev.evq ++ (if told ∧ Bits.nbit e.react 1 = true then [FaultNotice k false (shut e)] else [])) ∧
      ((∀ q ∈ x.hist, ¬ mine q) → Bits.nbit e.react 0 = true →
        let c := { shut e with kindClear := true, seq := x.seq }
        HistoryTakes k x y c ∧ (x.hist.length < (if k.val < 8 then 16 else 32) →
          d.evq = s.dev.evq ++ (if told ∧ Bits.nbit e.react 1 = true then [FaultNotice k false c] else []))))) ∧
  (∀ (k : CollIx) (n : Byte) (s : State), Does (.ruleWindowExpiry k n) s [.colls] fun d => Only Dev.coll k s.dev d ∧
    d.coll k = { s.dev.coll k with rules := (d.coll k).rules } ∧
    ∀ m, Sparse.get (fun _ => ({} : RuleCtr)) (d.coll k).rules m = if m = n.toNat then {}
      else Sparse.get (fun _ => ({} : RuleCtr)) (s.dev.coll k).rules m) ∧
  (∀ (k : CollIx) (v : Word) (s : State), let n := Bits.fld v 0 7
    let x := s.dev.coll k
    let t := if k.val < 8 then s.dev.rtime k else s.dev.tbTime
    let lo := Bits.fld (s.dev.fsrc k n) 2 7
    let e : HistEntry := {
      assertTime := t, clearTime := t + (if k.val < 8 then 6 else 2), source := n, injected := true, key := 7, react := lo &&& 3
      info := 0xFFFFFFFF, count := Sparse.get (fun _ => 0) x.counts n, seq := x.seq }
    (v.getLsbD 31 = false → NoEffect (.faultInject k v) s) ∧
    (v.getLsbD 31 = true → Fc.reserved k n = true → Does (.faultInject k v) s Parts.fault fun d =>
      (d.coll k).latched.getLsbD (if k.val < 8 then 75 else 37) = true ∧ (d.coll k).testCount = x.testCount) ∧
    (v.getLsbD 31 = true → Fc.reserved k n = false → Does (.faultInject k v) s [.regions, .barges, .colls, .evq] fun d =>
      Only Dev.coll k s.dev d ∧
      let y := d.coll k
      y = { x with
        latched := x.latched ||| (1#128 <<< n), testCount := min 255 (x.testCount + 1), hist := y.hist, seq := y.seq
        historyLost := y.historyLost, overflow := y.overflow } ∧
      (Bits.nbit lo 0 = true → HistoryTakes k x y e) ∧ (Bits.nbit lo 0 = false → y.hist = x.hist ∧ y.seq = x.seq) ∧
      (Bits.nbit lo 1 = true → (k.val = 8 ∨ s.dev.auto k = false) → [FaultNotice k true e] <:+ d.evq))) ∧
  (∀ (k : CollIx) (mask : Quad) (s : State), let x := s.dev.coll k
    let c := mask &&& ~~~ x.live &&& ~~~ x.fatalReal
    Does (.latchedClear k mask) s [.regions, .barges, .colls, .evq] fun d => (d.coll k).latched = x.latched &&& ~~~ c ∧
      (k.val < 8 → (d.coll k).live = x.live) ∧ (d.coll k).fatalReal = x.fatalReal ∧
      (∀ r, r ∈ (d.coll k).standing ↔ r ∈ x.standing ∧ (r.fatal = true ∨ 1000 ≤ r.source ∨ c.getLsbD r.source = false)) ∧
      (k.val < 8 → (d.coll k).severe = 0 → (d.coll 8).live.getLsbD (16 + k.val) = false)) ∧
  (∀ (k : CollIx) (s : State), let x := s.dev.coll k
    (x.hist = [] → Becomes (.historyRead k) s { s.dev with out := s.dev.out ++ [Out.readData [0, 0, 0, 0]] }) ∧
    (∀ e l, x.hist = e :: l → Does (.historyRead k) s [.colls, .out] fun d => Only Dev.coll k s.dev d ∧
      d.coll k = { x with hist := l, lastRead := e } ∧ d.out = s.dev.out ++ [Out.readData (e.words.take 4)]) ∧
    Does (.firstErrorClear k) s [.colls] fun d => Only Dev.coll k s.dev d ∧ d.coll k = { x with firstErr := none })

/-- EV_ERR_N (Table 17-8). -/
def ErrEvent (s : Dev) (asserted : Bool) : Event :=
  CollEvent 8 0x102 false s.tbTime [BitVec.ofNat 32 (Bits.b2n asserted + s.rf RegMap.fcErr 0 1 * 2 +
    Bits.b2n (decide ((s.coll 8).fatalReal ≠ 0)) * 4)]

/-- R402 to R404 and Table 17-9: a clear of ERR_N is ignored under FATAL_HOLD, waits for PULSE_MS in PULSE mode and releases the
pin otherwise; the end of the pulse lets a waiting clear act; ALIVE mode toggles while the pin is not asserted, and the monitor
pulls it low; and the collector commands read, clear and inject as the table says. -/
def Rules.ErrorPinAndCommands : Prop :=
  (∀ (s : State), let e := s.dev.err
    let hold := (s.dev.coll 8).fatalReal ≠ 0
    let pulse := s.dev.rf RegMap.fcErr 0 1 = 0
    let released := { s.dev with
      err := { e with asserted := false, pulse := false, clearWaits := false }, evq := s.dev.evq ++ [ErrEvent s.dev false] }
    ((hold ∨ e.asserted = false) → NoEffect .errClr s) ∧
    (¬ hold → e.asserted = true → pulse → e.pulse = true → Becomes .errClr s { s.dev with err := { e with clearWaits := true } }) ∧
    (¬ hold → e.asserted = true → (¬ pulse ∨ e.pulse = false) → Becomes .errClr s released) ∧
    ((e.asserted = false ∨ e.pulse = false) → NoEffect .errNPulseEnd s) ∧
    (e.asserted = true → e.pulse = true →
      (e.clearWaits = true → ¬ hold → Becomes .errNPulseEnd s released) ∧
      ((e.clearWaits = false ∨ hold) → Becomes .errNPulseEnd s { s.dev with err := { e with pulse := false } })) ∧
    ((pulse ∨ e.asserted = true) → NoEffect .errNToggle s) ∧
    (¬ pulse → e.asserted = false → Becomes .errNToggle s { s.dev with err := { e with alive := !e.alive, monitorLow := false } }) ∧
    (pulse → NoEffect .aliveMonitor s) ∧
    (¬ pulse → Becomes .aliveMonitor s { s.dev with err := { e with monitorLow := true } })) ∧
  (∀ (d : Desc) (k : Nat) (s : State), ((d.tkind = 3 ∧ d.tindex.toNat = k ∧ k < 8) ∨ (d.tkind = 0 ∧ k = 8)) →
    let x := s.dev.coll k
    (Accepted d [0, 3] [Cmd.all, Cmd.all] s.dev →
      (d.par64 0 % 64 ≠ 0 → ∀ ok, Refused (.fcStatus d ok) s d 0x800 0x10 ∧ Refused (.fcHistoryRead d ok) s d 0x801 0x10 ∧
        Refused (.fcCountRead d ok) s d 0x804 0x10) ∧
      (d.par64 0 % 64 = 0 → Becomes (.fcStatus d true) s { CmdDone s.dev d 0x800 0 0 0 with
          out := s.dev.out ++ [Out.hostWrite (d.par64 0) (Bits.words4 x.latched.toNat ++ Bits.words4 x.live.toNat ++
            (x.firstErr.getD {}).words ++ [s.dev.fcHstat k] ++ List.replicate 15 0)] } ∧
        Refused (.fcStatus d false) s d 0x800 0x19 ∧
        Does (.fcHistoryRead d true) s [.colls, .out, .complq, .hp] (fun t => Only Dev.coll k s.dev t ∧
          (t.coll k = { x with hist := [], overflow := 0, lastRead := x.hist.getLast?.getD x.lastRead }) ∧
          t.complq = (CmdDone s.dev d 0x801 0 x.hist.length (x.overflow + Bits.b2n x.historyLost * 256)).complq ∧
          t.out = s.dev.out ++ [Out.hostWrite (d.par64 0) (x.hist.flatMap HistEntry.words ++
            List.replicate (8 * (32 - x.hist.length)) 0)]) ∧
        Does (.fcCountRead d true) s [.colls, .out, .complq, .hp] (fun t => Only Dev.coll k s.dev t ∧
          t.coll k = { x with counts := [] } ∧ t.complq = (CmdDone s.dev d 0x804 0 0 0).complq ∧
          t.out = s.dev.out ++ [Out.hostWrite (d.par64 0) ((List.range 64).map (fun i => BitVec.ofNat 32
            (Sparse.get (fun _ => 0) x.counts (2 * i) + Sparse.get (fun _ => 0) x.counts (2 * i + 1) * 65536)))]))) ∧
    (Accepted d [0, 3] [Cmd.all, Cmd.all, Cmd.all, Cmd.all, 3] s.dev →
      let mask : Quad := BitVec.ofNat 128 (d.par64 0 + d.par64 2 * 2 ^ 64)
      let left := x.latched &&& ~~~ (mask &&& ~~~ x.live &&& ~~~ x.fatalReal)
      Does (.fcClear d) s [.regions, .barges, .colls, .evq, .complq, .hp] fun t => (t.coll k).latched = left ∧
        (t.coll k).firstErr = (if Bits.nbit (d.par 4) 0 = true then none else x.firstErr) ∧
        (k < 8 → (t.coll k).historyLost = if Bits.nbit (d.par 4) 1 = true then false else x.historyLost) ∧
        t.complq = (CmdDone s.dev d 0x802 0 (Bits.popcount 128 (left &&& mask).toNat) 0).complq) ∧
    (Accepted d [0, 3] [0x7F] s.dev → let n := d.pf 0 0 7
      (Fc.reserved k n = true → Refused (.fcInject d) s d 0x803 0x10) ∧
      (Fc.reserved k n = false → Does (.fcInject d) s [.regions, .barges, .colls, .evq, .complq, .hp] fun t =>
        Only Dev.coll k s.dev t ∧ (t.coll k).latched = x.latched ||| (1#128 <<< n) ∧ (t.coll k).live = x.live ∧
        (t.coll k).counts = x.counts ∧ (t.coll k).standing = x.standing ∧ (t.coll k).testCount = min 255 (x.testCount + 1) ∧
        t.complq = (CmdDone s.dev d 0x803 0 0 0).complq)) ∧
    (Accepted d [0] [] s.dev → Does (.fcErrClear d) s [.err, .evq, .complq, .hp] fun t =>
      let e := s.dev.err
      (((s.dev.coll 8).fatalReal ≠ 0 ∨ e.asserted = false) → t.err = e) ∧
      ((s.dev.coll 8).fatalReal = 0 → e.asserted = true → (s.dev.rf RegMap.fcErr 0 1 ≠ 0 ∨ e.pulse = false) →
        t.err = { e with asserted := false, pulse := false, clearWaits := false }) ∧
      t.complq = (CmdDone s.dev d 0x805 0 (Bits.b2n t.err.asserted) 0).complq))

/-- `Rules.FaultRecords` and `Rules.ErrorPinAndCommands` together. -/
def Obligations.FaultRecordsAndPin : Prop := Rules.FaultRecords ∧ Rules.ErrorPinAndCommands

/-! ### Supplies, resets and power modes (18) -/

/-- The parts that a chip reset may touch. -/
def ResetParts : List Part :=
  Parts.fault ++ [.tb, .linkA, .linkB, .ring, .replicas, .lk, .rtSlot, .custSlot, .dbg, .nodes, .lvDone, .rgnFail, .badSize,
    .rsvdWrites, .sliceQ, .sluice, .grants, .mirror, .mirrorStale, .fwdMem, .ringPos, .hp, .ops, .opGen, .bz, .rv, .tows, .mg,
    .sv, .pwr, .telq]

/-- The parts that the loss of a supply may touch. -/
def SupplyParts : List Part := ResetParts ++ [.tbTime, .auxs, .sram, .rram, .tap]

/-- Island `g` is in reset: its cells are DISABLED with the gates where Table 2-3 holds them, slices OFF, towpaths, lanes with
their energy and SOA poles, replica and registers at reset; of the collector only latched real FATAL bits with their requests
stay, and with `cycled` supplies not even these. -/
def IslandDown (s t : Dev) (g : Nat) (cycled : Bool) : Prop :=
  ((t.region g).islandRun = false ∧ (t.region g).islandUp = false ∧ (t.region g).islandCal = false ∧
    (t.region g).rejoined = false ∧ (t.region g).islandLost = true ∧ (t.region g).episode = none) ∧
  (∀ c, c / 64 = g → (t.cell c).state = .disabled ∧ (t.cell c).gate = (if t.pwr.vdda = true then .controlled else .passive) ∧
    t.lane c = {}) ∧
  (∀ j, j / 4 = g → t.slice j = {}) ∧ (∀ k, k / 2 = g → t.tow k = {}) ∧ t.replica g = {} ∧
  (∀ a, RegMap.window g ≤ a → a < RegMap.window (g + 1) → t.reg a = RegMap.reset a) ∧
  (∀ c w, c / 64 = g → w < 64 → t.pword c w = RegMap.profReset w) ∧ (t.lockTable g).copies = [] ∧
  (t.coll g).latched = (if cycled = true then 0 else (s.coll g).latched &&& (s.coll g).fatalReal) ∧
  (∀ r ∈ (t.coll g).standing, cycled = false ∧ r.fatal = true ∧ r ∈ (s.coll g).standing)

/-- Every central unit is at its reset state (Table 18-4); a barge keeps IRAM and DRAM unless their supply was lost; islands
that ran are autonomous, and no strait is up. -/
def CentralDown (s t : Dev) (reason : Nat) (lost : Bool) : Prop :=
  (t.pwr.rtUp = false ∧ t.pwr.custUp = false ∧ t.pwr.rtFail = false ∧ t.pwr.lastReset = reason ∧ t.pwr.mode = 0) ∧
  (∀ a, a < 0x400000 → t.reg a = RegMap.reset a) ∧
  (∀ e, (t.barge e).run = false ∧ (t.barge e).iram = (if lost = true then [] else (s.barge e).iram) ∧
    (t.barge e).dram = (if lost = true then [] else (s.barge e).dram) ∧ (t.barge e).tq.queue = [] ∧ (t.barge e).sb = []) ∧
  t.hp = { perst := s.hp.perst } ∧ t.ops = [] ∧ t.bz = {} ∧ t.complq = [] ∧ t.nodes = [] ∧
  t.tb = { running := t.tb.running } ∧ t.mg = {} ∧
  (∀ g, g < 8 → (t.region g).linkUp = false ∧
    ((s.region g).islandRun = true → (s.region g).clkFail = false → (t.region g).islandRun = true →
      (t.region g).islandLost = true ∧ ((s.region g).islandLost = false → t.auto g = true)))

/-- R408 to R411, R418 to R420, R466, Tables 18-1 and 18-4: what each supply, power-on reset release, RST_N, chip reset and reference
change does to the domains it reaches. -/
def Obligations.PowerUp : Prop :=
  (∀ (x : Supply) (s : State), let p := s.dev.pwr
    (x = .vsys → Becomes (.supplyGood x) s { s.dev with pwr := { p with vsys := true } }) ∧
    (x = .vddc → Becomes (.supplyGood x) s { s.dev with pwr := { p with vddc := true } }) ∧
    (x = .vddio → Becomes (.supplyGood x) s { s.dev with pwr := { p with vddio := true } }) ∧
    (x = .vddpx → Becomes (.supplyGood x) s { s.dev with pwr := { p with vddpx := true } }) ∧
    (x = .vddi → Does (.supplyGood x) s [.regions, .pwr] fun t => t.pwr = { p with vddi := true }) ∧
    (x = .vdda → Does (.supplyGood x) s [.cells, .pwr] fun t => t.pwr = { p with vdda := true } ∧ ∀ c, c < 512 →
      t.cell c = if (s.dev.cell c).gate = .passive then { s.dev.cell c with gate := .controlled } else s.dev.cell c)) ∧
  (∀ (x : Supply) (s : State), let p := s.dev.pwr
    ((x = .vsys ∨ x = .vdda ∨ x = .vddi) → Does (.supplyLoss x) s SupplyParts fun t => ∀ g, g < 8 →
      (t.region g).released = false ∧
      IslandDown s.dev t g (decide ((x = .vsys ∧ p.vdda = false) ∨ (x = .vdda ∧ p.vsys = false)))) ∧
    (x = .vsys → Does (.supplyLoss x) s SupplyParts fun t => CentralDown s.dev t 0 true ∧ t.tbTime = 0 ∧ t.sram = [] ∧
      t.rram = [] ∧ t.tap = {} ∧ t.pwr.core = false ∧ t.pwr.centralUp = false ∧ t.pwr.aoUp = false ∧ t.pwr.hostUp = false ∧
      t.rv.shipLatch = s.dev.rv.shipLatch ∧ t.rv.depleted = s.dev.rv.depleted ∧ t.rv.path = 0) ∧
    ((x = .vddc ∨ x = .vddio) → p.vsys = true → p.centralUp = true → Does (.supplyLoss x) s SupplyParts fun t =>
      CentralDown s.dev t 4 true ∧ t.tbTime = 0 ∧ t.sram = [] ∧ t.rram = [] ∧ t.pwr.core = false ∧ t.pwr.centralUp = false ∧
      t.rv.path = s.dev.rv.path ∧ t.rv.chg = 0) ∧
    (x = .vddc → (p.vsys = false ∨ p.centralUp = false) →
      Becomes (.supplyLoss x) s { s.dev with pwr := { p with vddc := false } }) ∧
    (x = .vddio → (p.vsys = false ∨ p.centralUp = false) →
      Becomes (.supplyLoss x) s { s.dev with pwr := { p with vddio := false } }) ∧
    (x = .vddpx → Does (.supplyLoss x) s SupplyParts fun t => t.pwr.hostUp = false ∧ t.pwr.core = p.core ∧
      t.hp.linkUp = false ∧ t.hp.bme = false ∧ t.complq = [] ∧ t.tbTime = s.dev.tbTime)) ∧
  (∀ (s : State), let p := s.dev.pwr
    let ready := p.vsys = true ∧ p.vddc = true ∧ p.vddio = true ∧ p.tbclk = true ∧ p.centralUp = false
    (p.vsys = true → p.aoUp = false → Becomes (.powerOnResetRelease .alwaysOn) s { s.dev with
      pwr := { p with aoUp := true }, rv := { s.dev.rv with shipOn := !s.dev.rv.hold } }) ∧
    ((p.vsys = false ∨ p.aoUp = true) → NoEffect (.powerOnResetRelease .alwaysOn) s) ∧
    (∀ (g : RegionIx), (p.vsys = true ∧ p.vdda = true ∧ p.vddi = true →
        Becomes (.powerOnResetRelease (.island g)) s (s.dev.setRegion g { s.dev.region g with released := true })) ∧
      ((p.vsys = false ∨ p.vdda = false ∨ p.vddi = false) → NoEffect (.powerOnResetRelease (.island g)) s)) ∧
    (¬ ready → NoEffect (.powerOnResetRelease .central) s) ∧
    (ready → p.rstLow = true → Becomes (.powerOnResetRelease .central) s { s.dev with pwr := { p with centralUp := true } }) ∧
    (ready → p.rstLow = false → Does (.powerOnResetRelease .central) s (Parts.fault ++ [.tb, .hp, .rv, .pwr]) fun t =>
        t.pwr.core = true ∧ t.pwr.centralUp = true ∧ t.tb.running = true ∧
        t.hp.linkUp = (s.dev.hp.linkUp || (!s.dev.hp.perst && p.hostUp)) ∧
        (p.lastReset = 0 → s.dev.rv.cause = 3 → t.rv.latched.testBit 2 = true)) ∧
    (p.vsys = true → p.vddpx = true → Becomes (.powerOnResetRelease .hostPort) s { s.dev with
      pwr := { p with hostUp := true }
      hp := { s.dev.hp with linkUp := s.dev.hp.linkUp || (!s.dev.hp.perst && p.core) } }) ∧
    ((p.vsys = false ∨ p.vddpx = false) → NoEffect (.powerOnResetRelease .hostPort) s)) ∧
  (∀ (v : Word) (s : State), let p := s.dev.pwr
    let reset := Bits.bit v 0 = true ∧ Bits.fld v 16 16 = 0xC4A5 ∧ p.core = true
    (p.core = true → Does .rstN s ResetParts fun t => t.pwr.rstLow = true ∧ t.pwr.core = false ∧ CentralDown s.dev t 1 false ∧
      t.evq = [] ∧ t.err = {} ∧ t.rv.path = s.dev.rv.path ∧ t.rv.chg = 0 ∧ t.rv.shipLatch = s.dev.rv.shipLatch) ∧
    (p.core = false → Becomes .rstN s { s.dev with pwr := { p with rstLow := true } }) ∧
    (reset → Does (.chipRstCtrl v) s ResetParts fun t => t.pwr.core = true ∧ CentralDown s.dev t 2 false ∧
      t.tb.running = (s.dev.tb.running || p.tbclk) ∧ t.rv.path = s.dev.rv.path ∧ t.rv.chg = 0) ∧
    (¬ reset → NoEffect (.chipRstCtrl v) s) ∧
    (p.centralUp = true → p.core = false → Does .rstNRelease s (Parts.fault ++ [.tb, .pwr]) fun t =>
      t.pwr = { p with rstLow := false, core := true } ∧ t.tb.running = (s.dev.tb.running || p.tbclk)) ∧
    ((p.centralUp = false ∨ p.core = true) → Becomes .rstNRelease s { s.dev with pwr := { p with rstLow := false } })) ∧
  (∀ (s : State), let p := s.dev.pwr
    (p.core = true → Does .tbclkLoss s (Parts.fault ++ [.tb, .pwr]) fun t =>
      t.tb.running = s.dev.tb.running ∧ t.pwr.tbclk = false ∧ t.tb.rate = s.dev.tb.rate ∧
      t.tb.state = (if s.dev.tb.state = .free then .free else .holdover) ∧ (t.coll 8).live.getLsbD 38 = true) ∧
    (p.core = true → Does .tbclkInReturn s [.tb, .regions, .barges, .colls, .pwr, .evq] fun t => t.tb.running = true ∧
      t.pwr.tbclk = true ∧ (t.coll 8).live.getLsbD 38 = false) ∧
    (p.core = false → Becomes .tbclkLoss s { s.dev with pwr := { p with tbclk := false } } ∧
      Becomes .tbclkInReturn s { s.dev with pwr := { p with tbclk := true } }))

/-- The slot holds a valid image (R416, Table 18-3). -/
def SlotGood (d : Dev) (area slot : Nat) : Prop :=
  let base := (if area = 0 then 0 else 0x800000) + slot * (if area = 0 then 0x400000 else 0x300000)
  let h := d.flashBytes base 256
  Header.word h 0 = 0x4D444541 ∧ Header.word h 4 = 1 + area * 256 ∧ Header.word h 0x10 % 4096 = 0 ∧
  Header.word h 0x10 ≤ (if area = 0 then 0x400000 else 0x300000) - 4096 ∧
  Header.word h 0xFC = Crc32.crc (h.take 0xFC) ∧
  Sha.sha256 (d.flashBytes (base + 0x1000) (Header.word h 0x10)) = (h.drop 0x18).take 32

/-- The slot an area boots: the valid one with the higher SEQ, slot 0 of two equal ones (R416). -/
def Boots (d : Dev) (area n : Nat) : Prop :=
  n < 2 ∧ SlotGood d area n ∧ (SlotGood d area (1 - n) →
    d.slotSeq area (1 - n) < d.slotSeq area n ∨ (d.slotSeq area (1 - n) = d.slotSeq area n ∧ n = 0))

/-- The barges of a mask are reset (R420): IRAM, DRAM and comparators stay, queue, slots, stores and registers are cleared, and the
barge starts if the runtime is up; the loops of its slots end; another barge goes on, and every slice is in the same state. -/
def BargesReset (s t : Dev) (mask : DWord) : Prop :=
  (∀ e, e < 64 → mask.getLsbD e = true → (t.barge e).iram = (s.barge e).iram ∧ (t.barge e).dram = (s.barge e).dram ∧
    (t.barge e).run = s.pwr.rtUp ∧ (t.barge e).seized = false ∧ (t.barge e).sb = [] ∧ (t.barge e).lq = [] ∧
    (t.barge e).tq.queue = [] ∧ (t.barge e).en = 0 ∧ (t.barge e).s = [] ∧ (t.barge e).v = [] ∧
    (t.barge e).dbg.bps = (s.barge e).dbg.bps ∧
    ∀ j i l, j / 4 = e / 8 → (t.slice j).loop = some (i, l) → i ≠ e % 8) ∧
  (∀ e, e < 64 → mask.getLsbD e = false → (t.barge e).run = (s.barge e).run ∧ (t.barge e).pc = (s.barge e).pc ∧
    (t.barge e).s = (s.barge e).s ∧ (t.barge e).sb = (s.barge e).sb) ∧
  ∀ j, (t.slice j).state = (s.slice j).state

/-- R413, R414, R416, R420, R421: bring-up of an island, training of a strait, boot of the images, barge reset, and the EN and
RESET fields of RGN_CTRL. -/
def Obligations.IslandsAndBoot : Prop :=
  (∀ (g : RegionIx) (x : BringUp) (s : State),
    let ready := (s.dev.region g).released = true ∧ (s.dev.region g).islandRun = false
    (¬ ready → NoEffect (.islandBringup g x) s) ∧
    (ready → x.trim = false → Does (.islandBringup g x) s [.colls] fun t => (t.coll g).latched.getLsbD 69 = true) ∧
    (ready → x.trim = true → Does (.islandBringup g x) s (Parts.fault ++ [.auxs]) fun t =>
      (t.region g).islandRun = true ∧ (t.region g).islandUp = true ∧
      (∀ l, l < 64 → x.cells.getLsbD l = true → (t.cell (64 * g + l)).selftestFail = true ∧
        (t.coll g).latched.getLsbD (8 * (l / 8) + 1) = true) ∧
      (∀ i, i < 8 → x.vin.getLsbD i = true → (t.block (8 * g + i)).vtestFail = true ∧
        (t.coll g).latched.getLsbD (8 * i + 1) = true)) ∧
    (ready → x.trim = true → x.cells = 0 → x.vin = 0 → Does (.islandBringup g x) s [.cells, .blocks, .regions, .auxs] fun t =>
      ∀ c, t.cell c = if c / 64 = g then { s.dev.cell c with
          ilo := { (s.dev.cell c).ilo with
            bandInit := decide ((s.dev.cell c).ilo.level = .inside), raw := (s.dev.cell c).ilo.level.raw true false }
          ihi := { (s.dev.cell c).ihi with
            bandInit := decide ((s.dev.cell c).ihi.level = .inside), raw := (s.dev.cell c).ihi.level.raw false false }
          isc := { (s.dev.cell c).isc with
            bandInit := decide ((s.dev.cell c).isc.level = .inside), raw := (s.dev.cell c).isc.level.raw false false } }
        else s.dev.cell c)) ∧
  (∀ (g : RegionIx) (s : State), let r := s.dev.region g
    let ready := r.islandRun = true ∧ s.dev.pwr.core = true ∧ r.clkFail = false ∧ r.asleep = false ∧ r.linkUp = false
    (¬ ready → NoEffect (.straitTraining g) s) ∧
    (ready → Does (.straitTraining g) s (Parts.fault ++ [.tb, .lk, .auxs, .sluice, .grants, .bz, .tows]) fun t =>
      (t.region g).linkUp = true ∧ (t.coll 8).live.getLsbD g = false ∧
      (r.episode = none → r.rejoined = false → (t.region g).rejoined = true ∧ (t.region g).autonomous = false ∧
        (t.region g).islandLost = false) ∧
      ((r.episode ≠ none ∨ r.rejoined = true) → (t.region g).rejoined = r.rejoined ∧ (t.region g).islandLost = r.islandLost)) ∧
    (r.islandRun = true → s.dev.pwr.core = true → r.linkUp = false → Does (.straitTrainingTimeout g) s Parts.fault fun t =>
      (t.coll 8).live.getLsbD g = true) ∧
    ((r.islandRun = false ∨ s.dev.pwr.core = false ∨ r.linkUp = true) → NoEffect (.straitTrainingTimeout g) s)) ∧
  (∀ (d : Dev) (area n : Nat), area < 2 → (d.bootSlot area = some n ↔ Boots d area n)) ∧
  (∀ (trim : Bool) (s : State), let p := s.dev.pwr
    let due := p.core = true ∧ p.rtUp = false ∧ p.rtFail = false
    (¬ due → NoEffect (.boot trim) s) ∧
    (due → Does (.boot trim) s (Parts.fault ++ [.rtSlot, .custSlot, .pwr]) fun t => t.pwr.trimOk = trim ∧
      (trim = false → (t.coll 8).latched.getLsbD 56 = true) ∧
      (∀ n, Boots s.dev 0 n → t.pwr.rtUp = true ∧ t.pwr.rtFail = false ∧ t.rtSlot = n ∧ ∀ e, e < 64 →
        (t.barge e).run = true ∧ (t.barge e).cycle0 = s.dev.coreCycles ∧
        (t.barge e).pc = 0x20000000 + Header.word (s.dev.flashBytes (n * 0x400000) 256) 0x14) ∧
      ((∀ n, ¬ Boots s.dev 0 n) → t.pwr.rtUp = false ∧ t.pwr.rtFail = true ∧ ∀ e, (t.barge e).run = (s.dev.barge e).run) ∧
      (∀ n m, Boots s.dev 0 n → Boots s.dev 1 m → t.pwr.custUp = true ∧ t.custSlot = m) ∧
      ((∀ m, ¬ Boots s.dev 1 m) → t.pwr.custFail = true ∧ t.pwr.custUp = p.custUp))) ∧
  (∀ (mask : DWord) (s : State), Does (.chipBargeRst mask) s [.freeCount, .regions, .barges, .slices, .colls, .evq] fun t =>
    BargesReset s.dev t mask) ∧
  (∀ (g : RegionIx) (en : Bool) (s : State), let off := RegMap.rgnCtrl g
    let idle := (∀ c, c / 64 = g.val → (s.dev.cell c).state = .disabled) ∧ ∀ j, j / 4 = g.val → (s.dev.slice j).state = .off
    (en = true → Becomes (.regionEnWrite g en) s (s.dev.setReg off (Bits.put (s.dev.reg off) 0 1 1))) ∧
    (en = false → idle → Becomes (.regionEnWrite g en) s (s.dev.setReg off (Bits.put (s.dev.reg off) 0 1 0))) ∧
    (en = false → ¬ idle → Does (.regionEnWrite g en) s Parts.fault fun t => t.reg off = s.dev.reg off ∧
      (t.coll 8).latched.getLsbD 37 = true) ∧
    (Bits.bit (s.dev.reg off) 0 = false →
      Does (.islandReset g) s (Parts.fault ++ [.replicas, .lk, .sliceQ, .auxs, .tows]) fun t =>
        IslandDown s.dev t g false ∧ t.rtime g = 0 ∧ (t.region g).linkUp = (s.dev.region g).linkUp ∧
        (t.region g).released = (s.dev.region g).released ∧ (t.region g).clkFail = (s.dev.region g).clkFail ∧
        (∀ c, c / 64 ≠ g.val → t.cell c = s.dev.cell c) ∧ ∀ a, a < 0x400000 → t.reg a = s.dev.reg a) ∧
    (Bits.bit (s.dev.reg off) 0 = true → Does (.islandReset g) s Parts.fault fun t =>
      (t.region g).islandRun = (s.dev.region g).islandRun ∧ (t.coll 8).latched.getLsbD 37 = true))

/-- Reason `n` of Table 18-7 stands against STANDBY (R424). -/
def StandbyBlock (d : Dev) (n : Nat) : Prop :=
  (n = 1 ∧ ∃ g, g < 8 ∧ (d.region g).asleep = false) ∨
  (n = 2 ∧ ∃ k, k < 9 ∧ (d.lockTable k).copies ≠ []) ∨
  (n = 3 ∧ (Bits.bit (d.reg RegMap.bzCtrl) 0 = true ∨ d.bz.recording = true ∨ d.bz.stopping = true)) ∨
  (n = 4 ∧ ((∃ k o, k < 64 ∧ d.op k = some o ∧ o.state = .running) ∨ ∃ x ∈ d.hp.slots, x.answered = false)) ∨
  (n = 5 ∧ Bits.bit (d.reg RegMap.fcErr) 0 = true)

/-- The region may sleep (R422). -/
def MaySleep (d : Dev) (g : Nat) : Prop :=
  Bits.bit (d.reg (RegMap.rgnCtrl g)) 2 = true ∧ (d.region g).islandUp = true ∧
  (∀ c, c / 64 = g → (d.cell c).state = .disabled ∨
    ((d.cell c).state = .off ∧ (d.pf c 0 0 2 = 0 ∨ d.pf c 0 8 3 = 0))) ∧
  (∀ j, j / 4 = g → (d.slice j).state = .off) ∧
  (∀ k, k / 2 = g → (d.tow k).queue = [] ∧ (d.tow k).run = none ∧ (d.tow k).recovering = false) ∧
  (d.aux g).queued = none ∧ (d.aux g).inUrgent = false ∧ (d.lockTable g).copies = []

/-- What a wake source wakes while it is enabled: its bit, whether it wakes the core, and the regions (Table 18-6). -/
def WakesTo (d : Dev) (x : WakeSource) (bit : Nat) (core : Bool) (of : Nat → Prop) : Prop :=
  match x with
  | .comparator g => bit = 0 ∧ core = true ∧ ∀ k, of k ↔ k = g.val
  | .towpath t => Bits.bit (d.reg (RegMap.twCfg t)) 19 = true ∧ bit = 1 ∧ core = false ∧ ∀ k, of k ↔ k = t.val / 2
  | .mgmt => Bits.bit (d.reg RegMap.pwrWakeEn) 2 = true ∧ bit = 2 ∧ core = true ∧ ∀ k, ¬ of k
  | .supervisor => Bits.bit (d.reg RegMap.pwrWakeEn) 3 = true ∧ bit = 3 ∧ core = true ∧ ∀ k, ¬ of k
  | .bar regions => bit = 4 ∧ core = true ∧ ∀ k, of k ↔ k < 8 ∧ regions.getLsbD k = true
  | .linkTrip g => d.linkSelect g ≠ 0 ∧ bit = 5 ∧ core = false ∧ ∀ k, of k ↔ k = g.val
  | .reserve => bit = 6 ∧ core = true ∧ ∀ k, ¬ of k
  | .collector => bit = 7 ∧ core = true ∧ ∀ k, ¬ of k

/-- The wake: its cause is kept, STANDBY ends in IDLE, and the sleeping regions run with their replica in ACQUIRE (R423, R425). -/
def Woken (s t : Dev) (bit : Nat) (core : Bool) (of : Nat → Prop) : Prop :=
  t.pwr = { s.pwr with cause := s.pwr.cause ||| 1 <<< bit, mode := (if core = true ∧ s.pwr.mode = 2 then 1 else s.pwr.mode) } ∧
  (∀ g, of g → (t.region g).asleep = false ∧ ((s.region g).asleep = true → (t.region g).replica = .acquire)) ∧
  (∀ g, ¬ of g → t.region g = s.region g) ∧ ∀ c, t.lane c = s.lane c

/-- R353 to R355, R422 to R425: the power modes with the reasons that refuse STANDBY, sleep, every wake source, ship mode and
the wake circuit. -/
def Obligations.PowerModes : Prop :=
  (∀ (m : BitVec 2) (s : State), let go := fun (n : Nat) => ({ s.dev with
      pwr := { s.dev.pwr with mode := n } } : Dev).setReg RegMap.pwrCtrl (Bits.put (s.dev.reg RegMap.pwrCtrl) 0 2 m.toNat)
    (m = 1 → Becomes (.powerModeWrite m) s (go 1)) ∧
    (m = 2 → (∀ n, ¬ StandbyBlock s.dev n) → Becomes (.powerModeWrite m) s (go 2)) ∧
    (m = 2 → ∀ n, StandbyBlock s.dev n → (∀ k, k < n → ¬ StandbyBlock s.dev k) → Becomes (.powerModeWrite m) s
      { s.dev with pwr := { s.dev.pwr with refused := true, reason := n } }) ∧
    ((m = 0 ∨ m = 3) → Does (.powerModeWrite m) s (Parts.cell ++ [.replicas, .regs, .tows, .pwr]) fun t =>
      t.pwr = { s.dev.pwr with mode := 0 } ∧ t.regs = (go 0).regs ∧ ∀ g, g < 8 → (t.region g).asleep = false ∧
        ((s.dev.region g).asleep = false → t.region g = s.dev.region g))) ∧
  (∀ (g : RegionIx) (s : State),
    (s.dev.pwr.mode = 1 → MaySleep s.dev g →
      Becomes (.regionSleep g) s (s.dev.setRegion g { s.dev.region g with asleep := true })) ∧
    ((s.dev.pwr.mode ≠ 1 ∨ ¬ MaySleep s.dev g) → NoEffect (.regionSleep g) s)) ∧
  (∀ (x : WakeSource) (s : State),
    ((∀ bit core of, ¬ WakesTo s.dev x bit core of) → NoEffect (.wake x) s) ∧
    (∀ (bit : Nat) (core : Bool) (of : Nat → Prop), WakesTo s.dev x bit core of →
      let due := (∃ g, of g ∧ (s.dev.region g).asleep = true) ∨ (core = true ∧ s.dev.pwr.mode = 2)
      (¬ due → NoEffect (.wake x) s) ∧
      (due → Does (.wake x) s (Parts.cell ++ [.replicas, .tows, .mg, .pwr]) fun t => Woken s.dev t bit core of))) ∧
  (∀ (x : CmpSel) (s : State), let w := s.dev.reg (RegMap.cmpWake x.block)
    let raw := (s.dev.cmp x).raw
    let selected := (s.dev.region (x.block / 8)).asleep = true ∧ (s.dev.cmp x).mode ≠ .off ∧ Bits.bit w x.route.2.2 = true ∧
      ((Bits.fld w 26 2 = 0 ∧ raw = true) ∨ (Bits.fld w 26 2 = 1 ∧ raw = false) ∨ 2 ≤ Bits.fld w 26 2)
    (¬ selected → NoEffect (.comparatorWake x) s) ∧
    (selected → Does (.comparatorWake x) s (Parts.cell ++ [.replicas, .tows, .mg, .pwr]) fun t =>
      Woken s.dev t 0 true (fun g => g = x.block / 8))) ∧
  (∀ (s : State), let r := s.dev.rv
    ((r.path = 2 ∨ r.path = 3) → Does .packCutoff s [.barges, .rv, .evq] fun t => t.rv = { r with depleted := true } ∧
      RvTell s.dev t [RvEvent s.dev.tbTime 0x144 false [4]]) ∧
    (r.path ≠ 2 → r.path ≠ 3 → NoEffect .packCutoff s) ∧
    (r.depleted = true → Becomes .depletedDisconnect s { s.dev with
      rv := { r with dioArmed := false, dioOn := false, shipOn := false } }) ∧
    (r.depleted = false → NoEffect .depletedDisconnect s) ∧
    (r.shipArmed = false → NoEffect .shipEntry s) ∧
    (r.shipArmed = true → (r.present = true ∨ r.path = 0) → Does .shipEntry s [.barges, .rv, .evq] fun t =>
      t.rv = { r with shipArmed := false } ∧ RvTell s.dev t [RvEvent s.dev.tbTime 0x146 false [3]]) ∧
    (r.shipArmed = true → r.present = false → r.path ≠ 0 → Becomes .shipEntry s { s.dev with
      rv := { r with dioArmed := false, dioOn := false, shipOn := false, shipArmed := false, shipLatch := true } }) ∧
    (r.shipLatch = true → r.depleted = false → Becomes .shipWake s { s.dev with
      rv := { r with shipLatch := false, shipOn := true, dioArmed := true, cause := 1 } }) ∧
    (r.shipLatch = true → r.depleted = true → Becomes .shipWake s { s.dev with
      rv := { r with shipLatch := false, shipOn := false, dioArmed := false } }) ∧
    (r.shipLatch = false → NoEffect .shipWake s) ∧
    ((r.shipLatch = true ∨ r.depleted = true) → Becomes .sourceWake s { s.dev with
      rv := { r with shipLatch := false, depleted := false, hold := true, shipOn := false
                     cause := (if r.depleted = true then 3 else 2) } }) ∧
    (r.shipLatch = false → r.depleted = false → NoEffect .sourceWake s) ∧
    Becomes .battRemoval s { s.dev with rv := { r with hold := false, shipLatch := false, depleted := false } })

/-- R190, R249, R271, R418, R427: PERST_N takes the link down, which is a host loss under LINK_LOSS, and resets configuration
space and the host port but for HP_HB_CFG; the link is up once PERST_N is high and its domains run; Bus Master Enable is as
written; an enabled cabinet link that trains is UP, and one that was UP goes DOWN with its synchronisation run cleared. -/
def Rules.HostLink : Prop :=
  (∀ (s : State), let loss := s.dev.hp.linkUp = true ∧ Bits.bit (s.dev.reg RegMap.hpHbCfg) 13 = true
    Does .perstN s (Parts.fault ++ [.nodes, .lvDone, .hp, .ops]) fun t =>
      t.hp.perst = true ∧ t.hp.linkUp = false ∧ t.hp.bme = false ∧ t.hp.msixEn = false ∧ t.hp.msixMask = false ∧
      t.hp.slots = [] ∧ t.complq = [] ∧ t.lvDone = 0 ∧ (∀ n, n < 64 → t.op n = none) ∧
      (∀ a, 0x20000 ≤ a → a < 0x30000 → a ≠ RegMap.hpHbCfg → t.reg a = RegMap.reset a) ∧
      t.reg RegMap.hpHbCfg = s.dev.reg RegMap.hpHbCfg ∧ (∀ c, (t.cell c).heldCmds = []) ∧
      (loss → t.hp.hostLost = true ∧ t.hp.hbRunning = false ∧ t.hp.lossCount = min 255 (s.dev.hp.lossCount + 1) ∧
        (t.coll 8).live.getLsbD 40 = true) ∧
      (¬ loss → t.hp.hostLost = s.dev.hp.hostLost ∧ t.hp.lossCount = s.dev.hp.lossCount ∧ t.colls = s.dev.colls)) ∧
  (∀ (en : Bool) (s : State),
    Becomes .perstNRelease s { s.dev with hp := { s.dev.hp with
      perst := false, linkUp := s.dev.hp.linkUp || (s.dev.pwr.core && s.dev.pwr.hostUp) } } ∧
    Becomes (.busMasterEnable en) s { s.dev with hp := { s.dev.hp with bme := en } }) ∧
  (∀ (link : Link) (s : State), let l := s.dev.cabLink link
    let on := Bits.bit (s.dev.reg RegMap.tbLinkCfg) (if link = .a then 0 else 1) = true
    (on → (l.state = .training ∨ l.state = .down) →
      Becomes (.linkTrainingEnd link) s (s.dev.setCabLink link { l with state := .up })) ∧
    ((¬ on ∨ (l.state ≠ .training ∧ l.state ≠ .down)) → NoEffect (.linkTrainingEnd link) s) ∧
    (l.state = .up → Becomes (.cabinetLinkLoss link) s
      (s.dev.setCabLink link { l with state := .down, syncN := 0, syncSum := 0 })) ∧
    (l.state ≠ .up → NoEffect (.cabinetLinkLoss link) s))

/-- `Rules.HostLiveness` and `Rules.HostLink` together. -/
def Obligations.HostLivenessAndLink : Prop := Rules.HostLiveness ∧ Rules.HostLink

/-! ### Debug port (19) -/

/-- The reply to a request (R430): an ACK code of Table 19-2 and data words, each low byte first. -/
def NdlReply (s : Dev) (ack : Byte) (data : List Word) : List Out :=
  s.out ++ [.serial 2 (ack :: data.flatMap (fun (w : Word) =>
    [w.setWidth 8, (w >>> 8).setWidth 8, (w >>> 16).setWidth 8, (w >>> 24).setWidth 8]))]

/-- A request has arrived: PROBE_SEEN (Table 19-4). -/
def NdlSeen (s : Dev) : DebugPort := { s.dbg with seen := true }

/-- A request that changes nothing but PROBE_SEEN is answered. -/
def NdlOnly (i : Instr) (s : State) (ack : Byte) (data : List Word) : Prop :=
  Becomes i s { s.dev with dbg := NdlSeen s.dev, out := NdlReply s.dev ack data }

/-- A request ends in FAULT with its reason (Tables 19-2 and 19-4). -/
def NdlFaulted (i : Instr) (s : State) (reason : Nat) : Prop :=
  Becomes i s { s.dev with dbg := { NdlSeen s.dev with reason := reason }, out := NdlReply s.dev 4 [] }

/-- DBG_STAT once a request has arrived (Table 19-4). -/
def NdlStat (d : Dev) : Word :=
  BitVec.ofNat 32 (Bits.b2n d.debugOpen + 2 * Bits.b2n d.dbg.key.isSome + 4 + 8 * min 8 d.dbg.fails + 128 * (d.dbg.reason % 16))

/-- The AUTH carries the first 16 bytes of HMAC-SHA-256 of the outstanding challenge under DBG_KEY (R429). -/
def AuthGood (d : DebugPort) (v : Quad) : Prop :=
  ∃ k c, d.key = some k ∧ d.chal = some c ∧
    v.toNat = Sha.ofLe ((Sha.hmac (k.flatMap (fun (x : DWord) => Sha.le 8 x.toNat)) (Sha.le 16 c.toNat)).take 16)

/-- The operations that a LOCKED port refuses (R428). -/
def OpenOnly (i : Instr) : Prop :=
  (∃ m, i = .dbgHalt m ∨ i = .dbgResume m ∨ i = .dbgStep m ∨ i = .bargeReset m) ∨ (∃ k, i = .chipReset k) ∨
  (∃ x a n, i = .memRead x a n ∨ i = .memPeek x a n) ∨ (∃ x a l, i = .memWrite x a l ∨ i = .flashProg x a l) ∨
  (∃ x a, i = .flashErase x a)

/-- R428 to R430: what the port answers at each access level; a challenge serves one AUTH; failure n is followed by 2^n ms of
WAIT, and the eighth sets DENY; HOST_GRANT, DENY and the write-once DBG_KEY; a link reset leaves the port idle. -/
def Rules.DebugAccess : Prop :=
  (∀ (s : State), NdlOnly .idRead s 1 [s.dev.reg RegMap.chipId, NdlStat s.dev] ∧ NdlOnly .dbgStatus s 1 [NdlStat s.dev] ∧
    NoEffect .ndlLinkReset s ∧
    Does .chalRead s [.freeCount, .dbg, .out] fun t => ∃ a b c d : Word,
      t.dbg = { NdlSeen s.dev with chal := some (d ++ c ++ b ++ a) } ∧ t.out = NdlReply s.dev 1 [a, b, c, d]) ∧
  (∀ (i : Instr) (s : State), OpenOnly i → s.dev.debugOpen = false → NdlOnly i s 8 []) ∧
  (∀ (v : Quad) (s : State), let x := s.dev.dbg
    let n := min 8 (x.fails + 1)
    (x.deny = true → NdlOnly (.dbgAuth v) s 8 []) ∧
    (x.deny = false → s.dev.elapsed < x.waitTo → NdlOnly (.dbgAuth v) s 2 []) ∧
    (x.deny = false → x.waitTo ≤ s.dev.elapsed → AuthGood x v → Becomes (.dbgAuth v) s { s.dev with
      dbg := { NdlSeen s.dev with chal := none, authed := true }, out := NdlReply s.dev 1 [] }) ∧
    (x.deny = false → x.waitTo ≤ s.dev.elapsed → ¬ AuthGood x v → Becomes (.dbgAuth v) s { s.dev with
      dbg := { NdlSeen s.dev with
        chal := none, fails := n, waitTo := s.dev.elapsed + 2 ^ n * 1000000, reason := 6, deny := decide (n = 8)
        granted := x.granted && decide (n ≠ 8), authed := x.authed && decide (n ≠ 8) }
      out := NdlReply s.dev 4 [] })) ∧
  (∀ (on : Bool) (k0 k1 k2 k3 : DWord) (s : State), let x := s.dev.dbg
    Becomes (.hostGrant on) s { s.dev with dbg := { x with granted := on && !x.deny } } ∧
    Becomes .dbgDeny s { s.dev with dbg := { x with deny := true, granted := false, authed := false } } ∧
    (x.key = none → Becomes (.dbgKey k0 k1 k2 k3) s { s.dev with dbg := { x with key := some [k0, k1, k2, k3] } }) ∧
    (x.key ≠ none → Does (.dbgKey k0 k1 k2 k3) s Parts.fault fun t => (t.coll 8).latched.getLsbD 37 = true))

/-- One word of a request meets FAULT with this reason (R431, Tables 9-7 and 19-5): 1 RUNNING, 2 STRAIT, 4 range, size or
read-only, 6 access failed. -/
def NdlBad (s : Dev) (space a : Nat) (write : Bool) (r : Nat) : Prop :=
  let idle := fun (e : Nat) => (s.barge e).dbg.halted = true
  (space < 64 ∧
    ((r = 4 ∧ (a % 4 ≠ 0 ∨ Mem.classOf a = none ∨
        (write = true ∧ (Mem.classOf a = some .flash ∨ Mem.classOf a = some .mirror)))) ∨
      (r = 1 ∧ a % 4 = 0 ∧ ¬ idle space ∧ (a < 0x20000 ∨ (write = true ∧ 0xFFFF0000 ≤ a ∧ a < 2 ^ 32))) ∨
      (r = 2 ∧ a % 4 = 0 ∧ 0x40000000 ≤ a ∧ a < 0x40100000 ∧ s.straitUp (space / 8) = false))) ∨
  (space = 0x40 ∧ ((r = 4 ∧ (2 ^ 24 ≤ a ∨ a % 4 ≠ 0)) ∨
    (a % 4 = 0 ∧ 0x400000 ≤ a ∧ a < 0xC00000 ∧ let g := (a - 0x400000) / 0x100000
      s.windowOpen g a = false ∧ ((r = 6 ∧ s.straitUp g = true ∧ s.auto g = false) ∨
        (r = 2 ∧ (s.straitUp g = false ∨ s.auto g = true)))))) ∨
  (space = 0x41 ∧ ((r = 4 ∧ (0x10000 ≤ a ∨ a % 4 ≠ 0)) ∨
    (r = 1 ∧ a < 0x10000 ∧ a % 4 = 0 ∧ ¬ idle (a / 0x400) ∧
      ((0x100 ≤ a % 0x400 ∧ a % 0x400 < 0x300) ∨ (write = true ∧ a % 0x400 = 4))))) ∨
  (space = 0x42 ∧ r = 4 ∧ (2 ^ 24 ≤ a ∨ a % 4 ≠ 0 ∨ write = true))

/-- The bytes [a, a + n) are memory that a request may read: code flash, region RAM, central SRAM, or IRAM and DRAM of a HALTED
barge (R431). -/
def NdlRam (s : Dev) (space a n : Nat) : Prop :=
  a % 4 = 0 ∧ ((space = 0x42 ∧ a + n ≤ 2 ^ 24) ∨ (space < 64 ∧
    ((a + n ≤ 0x20000 ∧ (s.barge space).dbg.halted = true) ∨ (0x01000000 ≤ a ∧ a + n ≤ 0x011F8000) ∨
      (0x10000000 ≤ a ∧ a + n ≤ 0x11000000))))

/-- A byte of such memory; IRAM is read as its barge reads it, the newest patch first (R221). -/
def NdlByte (s : Dev) (space a : Nat) : Byte :=
  if space = 0x42 then s.flashByte a
  else if a < 0x10000 then (s.barge space).iramByte a
  else if a < 0x20000 then Sparse.get (fun _ => 0) (s.barge space).dram (a - 0x10000)
  else if a < 0x10000000 then s.rramByte (space / 8 * 0x200000 + (a - 0x01000000))
  else s.sramByte (a - 0x10000000)

/-- The word at an address of such memory. -/
def NdlWord (s : Dev) (space a : Nat) : Word :=
  NdlByte s space (a + 3) ++ NdlByte s space (a + 2) ++ NdlByte s space (a + 1) ++ NdlByte s space a

/-- Byte `k` of a list of words. -/
def WordsByte (l : List Word) (k : Nat) : Byte := ((l.getD (k / 4) 0) >>> (8 * (k % 4))).setWidth 8

/-- A memory holds `l` at [a, a + 4 n) and is otherwise as it was. -/
def Holds (before after : Nat → Byte) (a : Nat) (l : List Word) : Prop :=
  ∀ b, after b = if a ≤ b ∧ b < a + 4 * l.length then WordsByte l (b - a) else before b

/-- R431 to R433: every space and every FAULT of MEM_READ, MEM_PEEK and MEM_WRITE, the words they read and write, and FLASH_ERASE
and FLASH_PROG with their protected area. -/
def Obligations.DebugMemory : Prop :=
  (∀ (x : Byte) (a : Word) (n : Byte) (l : List Word) (s : State), s.dev.debugOpen = true → 0x43 ≤ x.toNat →
    NdlOnly (.memRead x a n) s 0x20 [] ∧ NdlOnly (.memPeek x a n) s 0x20 [] ∧ NdlOnly (.memWrite x a l) s 0x20 []) ∧
  (∀ (x : Byte) (a : Word) (n : Byte) (k r : Nat) (s : State), s.dev.debugOpen = true → k ≤ n.toNat →
    NdlBad s.dev x.toNat (a.toNat + 4 * k) false r → (∀ j q, j < k → ¬ NdlBad s.dev x.toNat (a.toNat + 4 * j) false q) →
    NdlFaulted (.memRead x a n) s r ∧ NdlFaulted (.memPeek x a n) s r) ∧
  (∀ (x : Byte) (a : Word) (l : List Word) (k r : Nat) (s : State), s.dev.debugOpen = true → k < l.length →
    NdlBad s.dev x.toNat (a.toNat + 4 * k) true r → (∀ j q, j < k → ¬ NdlBad s.dev x.toNat (a.toNat + 4 * j) true q) →
    NdlFaulted (.memWrite x a l) s r) ∧
  (∀ (x : Byte) (a : Word) (n : Byte) (s : State), s.dev.debugOpen = true →
    NdlRam s.dev x.toNat a.toNat (4 * (n.toNat + 1)) →
    let l := (List.range (n.toNat + 1)).map (fun k => NdlWord s.dev x.toNat (a.toNat + 4 * k))
    NdlOnly (.memRead x a n) s 1 l ∧
    Does (.memPeek x a n) s [.freeCount, .dbg, .out] fun t => t.dbg = NdlSeen s.dev ∧ t.out = NdlReply s.dev 1 l) ∧
  (∀ (x : Byte) (a : Word) (n : Byte) (s : State), s.dev.debugOpen = true → x.toNat < 0x43 →
    (∀ j q, j ≤ n.toNat → ¬ NdlBad s.dev x.toNat (a.toNat + 4 * j) false q) →
    Does (.memPeek x a n) s [.freeCount, .dbg, .out] fun t => t.dbg = NdlSeen s.dev ∧
      ∃ l, l.length = n.toNat + 1 ∧ t.out = NdlReply s.dev 1 l) ∧
  (∀ (x : Byte) (a : Word) (l : List Word) (s : State), s.dev.debugOpen = true → x.toNat < 64 →
    NdlRam s.dev x.toNat a.toNat (4 * l.length) → let e := x.toNat
    (0x10000000 ≤ a.toNat → Does (.memWrite x a l) s [.sram, .dbg, .out] fun t => t.dbg = NdlSeen s.dev ∧
      t.out = NdlReply s.dev 1 [] ∧ Holds s.dev.sramByte t.sramByte (a.toNat - 0x10000000) l) ∧
    (0x01000000 ≤ a.toNat → a.toNat < 0x10000000 → Does (.memWrite x a l) s [.rram, .dbg, .out] fun t =>
      t.dbg = NdlSeen s.dev ∧ t.out = NdlReply s.dev 1 [] ∧
      Holds s.dev.rramByte t.rramByte (e / 8 * 0x200000 + (a.toNat - 0x01000000)) l) ∧
    (0x10000 ≤ a.toNat → a.toNat < 0x20000 → Does (.memWrite x a l) s [.barges, .dbg, .out] fun t =>
      t.dbg = NdlSeen s.dev ∧ t.out = NdlReply s.dev 1 [] ∧ Only Dev.barge e s.dev t ∧
      t.barge e = { s.dev.barge e with dram := (t.barge e).dram } ∧
      Holds (Sparse.get (fun _ => 0) (s.dev.barge e).dram) (Sparse.get (fun _ => 0) (t.barge e).dram) (a.toNat - 0x10000) l) ∧
    (a.toNat + 4 * l.length ≤ 0x10000 → Does (.memWrite x a l) s [.barges, .dbg, .out] fun t =>
      t.dbg = NdlSeen s.dev ∧ t.out = NdlReply s.dev 1 [] ∧ Only Dev.barge e s.dev t ∧
      t.barge e = { s.dev.barge e with
        iram := (t.barge e).iram
        patches := (s.dev.barge e).patches.filter (fun p => (List.range l.length).all (fun k =>
          !(decide (p.addr < a.toNat + 4 * k + 4) && decide (a.toNat + 4 * k < p.addr + p.size)))) } ∧
      Holds (Sparse.get (fun _ => 0) (s.dev.barge e).iram) (Sparse.get (fun _ => 0) (t.barge e).iram) a.toNat l)) ∧
  (∀ (e : BargeIx) (a v : Word) (s : State), s.dev.debugOpen = true →
    (a.toNat = 0x400 * e.val → NdlOnly (.memRead 0x41 a 0) s 1 [BitVec.ofNat 32 (Bits.b2n (s.dev.barge e).dbg.halted +
      (s.dev.barge e).dbg.cause % 8 * 2 + (s.dev.barge e).dbg.unit % 4 * 16)]) ∧
    (∀ n, n < 32 → a.toNat = 0x400 * e.val + 0x100 + 4 * n → (s.dev.barge e).dbg.halted = true →
      NdlOnly (.memRead 0x41 a 0) s 1 [(s.dev.barge e).sreg n] ∧
      Does (.memWrite 0x41 a [v]) s [.barges, .dbg, .out] fun t => Only Dev.barge e s.dev t ∧
        t.barge e = { s.dev.barge e with s := (t.barge e).s } ∧
        ∀ r, (t.barge e).sreg r = if r = n ∧ r ≠ 0 then v else (s.dev.barge e).sreg r) ∧
    (∀ n, n < 4 → a.toNat = 0x400 * e.val + 0x20 + 4 * n →
      Does (.memWrite 0x41 a [v]) s [.barges, .dbg, .out] fun t => Only Dev.barge e s.dev t ∧
        t.barge e = { s.dev.barge e with dbg := { (s.dev.barge e).dbg with bps := (t.barge e).dbg.bps } } ∧
        ∀ m, Sparse.get (fun _ => 0) (t.barge e).dbg.bps m =
          if m = n then v &&& 0xFFFFFFFD else Sparse.get (fun _ => 0) (s.dev.barge e).dbg.bps m) ∧
    (a.toNat = 0x400 * e.val + 4 → (s.dev.barge e).dbg.halted = true →
      Does (.memWrite 0x41 a [v]) s [.barges, .dbg, .out] fun t => Only Dev.barge e s.dev t ∧
        t.barge e = { s.dev.barge e with pc := v.toNat / 4 * 4 })) ∧
  (∀ (x : Byte) (a : Word) (l : List Word) (s : State), s.dev.debugOpen = true → let p := a.toNat
    let n := 4 * l.length
    (x ≠ 0x42 → NdlOnly (.flashErase x a) s 0x20 [] ∧ NdlOnly (.flashProg x a l) s 0x20 []) ∧
    ((2 ^ 24 < p + 0x1000 ∨ p % 0x1000 ≠ 0) → NdlFaulted (.flashErase 0x42 a) s 4) ∧
    (p + 0x1000 ≤ 2 ^ 24 → p % 0x1000 = 0 → 0xE00000 ≤ p → NdlFaulted (.flashErase 0x42 a) s 3) ∧
    (p % 0x1000 = 0 → p < 0xE00000 → Does (.flashErase 0x42 a) s [.flash, .dbg, .out] fun t => t.dbg = NdlSeen s.dev ∧
      t.out = NdlReply s.dev 1 [] ∧
      ∀ b, t.flashByte b = if p ≤ b ∧ b < p + 0x1000 then 0xFF else s.dev.flashByte b) ∧
    ((2 ^ 24 < p + n ∨ p % 4 ≠ 0) → NdlFaulted (.flashProg 0x42 a l) s 4) ∧
    (p + n ≤ 2 ^ 24 → p % 4 = 0 → 0xE00000 < p + n → NdlFaulted (.flashProg 0x42 a l) s 3) ∧
    (p % 4 = 0 → p + n ≤ 0xE00000 → (∃ b, p ≤ b ∧ b < p + n ∧ s.dev.flashByte b ≠ 0xFF) →
      NdlFaulted (.flashProg 0x42 a l) s 5) ∧
    (p % 4 = 0 → p + n ≤ 0xE00000 → (∀ b, p ≤ b → b < p + n → s.dev.flashByte b = 0xFF) →
      Does (.flashProg 0x42 a l) s [.flash, .dbg, .out] fun t => t.dbg = NdlSeen s.dev ∧ t.out = NdlReply s.dev 1 [] ∧
        Holds s.dev.flashByte t.flashByte p l))

/-- A halt request with a cause takes effect on a barge (R434, R437): HALTED at once when no load or store is under way, with
HALT_CYCLE, or once they have finished; whether a cross-trigger then waits is left to `HaltMask`. -/
def HaltTaken (k k' : Barge) (cause now : Nat) : Prop :=
  ((k.dbg.halted = true ∨ k.dbg.haltReq ≠ none) → k' = { k with dbg := { k.dbg with xreq := k'.dbg.xreq } }) ∧
  (k.dbg.halted = false → k.dbg.haltReq = none → k.lq = [] → k.sb = [] → k' = { k with dbg := { k.dbg with
    halted := true, haltReq := none, cause := cause, haltCycle := now, stepping := false, skipBp := decide (cause = 2)
    xreq := k'.dbg.xreq } }) ∧
  (k.dbg.halted = false → k.dbg.haltReq = none → (k.lq ≠ [] ∨ k.sb ≠ []) →
    k' = { k with dbg := { k.dbg with haltReq := some cause, xreq := k'.dbg.xreq } })

/-- The barge halts now. -/
def HaltsNow (k : Barge) : Prop := k.dbg.halted = false ∧ k.dbg.haltReq = none ∧ k.lq = [] ∧ k.sb = []

/-- A halt request to every barge of a mask (R434, R438): a barge outside the mask changes only if one that halts cross-triggers
it. -/
def HaltMask (s t : Dev) (mask : DWord) : Prop :=
  (∀ e, e < 64 → mask.getLsbD e = true → HaltTaken (s.barge e) (t.barge e) 0 (s.bgCycle e)) ∧
  ∀ f, (64 ≤ f ∨ mask.getLsbD f = false) →
    let hit := f < 64 ∧ ∃ e, e < 64 ∧ mask.getLsbD e = true ∧ HaltsNow (s.barge e) ∧ (s.barge e).dbg.xtrig.getLsbD f = true
    (hit → t.barge f = { s.barge f with dbg := { (s.barge f).dbg with xreq := true } }) ∧ (¬ hit → t.barge f = s.barge f)

/-- A HALTED barge continues, with its fetch and data line buffers and its BTB cleared (R433, R436). -/
def Resumed (k : Barge) : Barge :=
  { k with lines := [], prefetch := none, dline := none, btb := [], dbg := { k.dbg with halted := false } }

/-- The barges of a mask resume (R436). -/
def ResumeMask (s t : Dev) (mask : DWord) : Prop :=
  ∀ e, t.barge e = if e < 64 ∧ mask.getLsbD e = true ∧ (s.barge e).dbg.halted = true then Resumed (s.barge e) else s.barge e

/-- R418, R420, R433 to R438: HALT, RESUME, STEP, the halt that waits, breakpoints and cross-triggers, the requests of host
software, and the two resets of the probe. -/
def Obligations.DebugBarges : Prop :=
  (∀ (m : DWord) (s : State), s.dev.debugOpen = true →
    (Does (.dbgHalt m) s [.barges, .dbg, .out] fun t => t.dbg = NdlSeen s.dev ∧ t.out = NdlReply s.dev 1 [] ∧
      HaltMask s.dev t m) ∧
    (Does (.dbgResume m) s [.barges, .dbg, .out] fun t => t.dbg = NdlSeen s.dev ∧ t.out = NdlReply s.dev 1 [] ∧
      ResumeMask s.dev t m) ∧
    (Does (.dbgHaltReq m) s [.barges] fun t => HaltMask s.dev t m) ∧
    (Does (.dbgResumeReq m) s [.barges] fun t => ResumeMask s.dev t m) ∧
    (Does (.bargeReset m) s [.freeCount, .regions, .barges, .dbg, .slices, .colls, .evq, .out] fun t =>
      t.dbg = NdlSeen s.dev ∧ t.out = NdlReply s.dev 1 [] ∧ BargesReset s.dev t m)) ∧
  (∀ (m : DWord) (s : State), s.dev.debugOpen = false → NoEffect (.dbgHaltReq m) s ∧ NoEffect (.dbgResumeReq m) s) ∧
  (∀ (e : BargeIx) (m : DWord) (s : State), s.dev.debugOpen = true → (∀ f, f < 64 → (m.getLsbD f = true ↔ f = e.val)) →
    let k := s.dev.barge e
    let u := ({ s.dev with dbg := NdlSeen s.dev } : Dev).setBarge e
      { Resumed k with dbg := { (Resumed k).dbg with stepping := true } }
    let takes := Bits.bit (s.dev.reg RegMap.dbgCtrl) 3 = true ∧ k.eligible ≠ none
    ((k.dbg.halted = false ∨ k.seized = true) → NdlOnly (.dbgStep m) s 1 []) ∧
    (k.dbg.halted = true → k.seized = false → takes → ∃ d, exec (.interruptEntry e false) { s with dev := u } =
        .next { s with dev := d } ∧ Becomes (.dbgStep m) s { d with out := NdlReply d 1 [] }) ∧
    (k.dbg.halted = true → k.seized = false → ¬ takes → ∃ d, exec (Barge.decode e (u.fetchWord e)) { s with dev := u } =
        .next { s with dev := d } ∧ Becomes (.dbgStep m) s { d with out := NdlReply d 1 [] }) ∧
    (∀ (r a : Fin 32) (imm : BitVec 13), k.dbg.halted = true → k.seized = false → ¬ takes → k.run = true →
      k.waiting = false → k.dbg.haltReq = none → k.lq = [] → k.sb = [] → s.dev.pwr.mode ≠ 2 → k.breakAt = none →
      Barge.fetchable k.pc = true → Barge.decode e (u.fetchWord e) = .addI e r a imm →
      Does (.dbgStep m) s [.barges, .dbg, .out] fun t => (t.barge e).dbg.halted = true ∧ (t.barge e).dbg.cause = 1 ∧
        (t.barge e).dbg.stepping = false ∧ (t.barge e).pc = (k.pc + 4) % 2 ^ 32 ∧ (t.barge e).dbg.haltCycle = s.dev.bgCycle e)) ∧
  (∀ (key : Word) (s : State), s.dev.debugOpen = true →
    (key ≠ 0xC4A5 → NdlFaulted (.chipReset key) s 4) ∧
    (s.dev.pwr.core = false → NdlOnly (.chipReset 0xC4A5) s 1 []) ∧
    (s.dev.pwr.core = true → Does (.chipReset 0xC4A5) s ResetParts fun t => t.pwr.core = true ∧ CentralDown s.dev t 3 false ∧
      NdlReply s.dev 1 [] <+: t.out ∧ t.debugOpen = false)) ∧
  (∀ (e : BargeIx) (s : State), let k := s.dev.barge e
    ((k.dbg.haltReq = none ∨ k.lq ≠ [] ∨ k.sb ≠ []) → NoEffect (.bargeHalted e) s) ∧
    (∀ c, k.dbg.haltReq = some c → k.lq = [] → k.sb = [] → Does (.bargeHalted e) s [.barges] fun t =>
      (t.barge e).dbg.halted = true ∧ (t.barge e).dbg.cause = c ∧ (t.barge e).dbg.haltReq = none ∧
      (t.barge e).dbg.haltCycle = s.dev.bgCycle e ∧ (t.barge e).pc = k.pc ∧
      ∀ f, f ≠ e.val → f < 64 → (t.barge f).dbg.xreq = ((s.dev.barge f).dbg.xreq || (decide (c ≠ 5) && k.dbg.xtrig.getLsbD f))) ∧
    ((k.breakAt = none ∨ k.mayIssue = false) → NoEffect (.breakpoint e) s) ∧
    (∀ n, n < 4 → (Sparse.get (fun _ => 0) k.dbg.bps n).getLsbD 0 = true →
      (Sparse.get (fun _ => 0) k.dbg.bps n).toNat / 4 * 4 = k.pc →
      (∀ j, j < n → (Sparse.get (fun _ => 0) k.dbg.bps j).getLsbD 0 = false ∨
        (Sparse.get (fun _ => 0) k.dbg.bps j).toNat / 4 * 4 ≠ k.pc) →
      k.dbg.skipBp = false → k.mayIssue = true → Does (.breakpoint e) s [.barges] fun t => (t.barge e).dbg.unit = n ∧
        HaltTaken { k with dbg := { k.dbg with unit := n } } (t.barge e) 2 (s.dev.bgCycle e)) ∧
    (k.dbg.xreq = false → NoEffect (.xtrigHalt e) s) ∧
    (k.dbg.xreq = true → Does (.xtrigHalt e) s [.barges] fun t => Only Dev.barge e s.dev t ∧ (t.barge e).dbg.xreq = false ∧
      HaltTaken k (t.barge e) 5 (s.dev.bgCycle e)))

/-- R440, R441: the TAP takes its instruction, and the preloaded value of the controllable balls, and nothing else changes;
IDCODE shifts out 0x1951_264B; TRST_N returns the TAP to IDCODE. -/
def Rules.TapInstructions : Prop :=
  ∀ (v : Quad) (s : State), let p := s.dev.tap
    Becomes .bypass s { s.dev with tap := { p with instr := .bypass } } ∧
    Becomes .idcode s { s.dev with
      tap := { p with instr := .idcode }, out := s.dev.out ++ [.serial 3 [0x4B, 0x26, 0x51, 0x19]] } ∧
    Becomes (.samplePreload v) s { s.dev with tap := { instr := .sample, preload := v } } ∧
    Becomes (.extest v) s { s.dev with tap := { instr := .extest, preload := v } } ∧
    Becomes .clamp s { s.dev with tap := { p with instr := .clamp } } ∧
    Becomes .highz s { s.dev with tap := { p with instr := .highz } } ∧
    Becomes .trstN s { s.dev with tap := { p with instr := .idcode } }

/-- `Rules.DebugAccess` and `Rules.TapInstructions` together. -/
def Obligations.DebugAccessAndTap : Prop := Rules.DebugAccess ∧ Rules.TapInstructions

/-! ### Legacy node view (20) -/

/-- The mailbox commands with their opcodes (Table 20-4). -/
def LvRow (n : BlockIx) (i : Instr) (op : Nat) : Prop :=
  (i = .lvOn n ∧ op = 0x01) ∨ (i = .lvOff n ∧ op = 0x02) ∨ (i = .lvReset n ∧ op = 0x03) ∨ (i = .lvEnable n ∧ op = 0x04) ∨
  (i = .lvDisable n ∧ op = 0x05) ∨ (i = .setIlim n ∧ op = 0x10) ∨ (i = .setFaultTime n ∧ op = 0x11) ∨
  (i = .readEnergy n ∧ op = 0x20) ∨ (i = .clearFlags n ∧ op = 0x21)

/-- The native command of a mailbox channel command, with its opcode (Table 20-4). -/
def LvNative (n : BlockIx) (d : Desc) (i j : Instr) (op nat : Nat) : Prop :=
  (i = .lvOn n ∧ op = 1 ∧ j = .chOn d ∧ nat = 0x102) ∨ (i = .lvOff n ∧ op = 2 ∧ j = .chOff d ∧ nat = 0x103) ∨
  (i = .lvReset n ∧ op = 3 ∧ j = .chReset d ∧ nat = 0x104) ∨ (i = .lvEnable n ∧ op = 4 ∧ j = .chEnable d ∧ nat = 0x100) ∨
  (i = .lvDisable n ∧ op = 5 ∧ j = .chDisable d ∧ nat = 0x101)

/-- Nodes served, and the block of a node (R442). -/
def LvNodes (s : Dev) : Nat := min (max 16 (min 64 (s.rf RegMap.hpLvCfg 8 7))) (64 - s.rf RegMap.hpLvCfg 16 6)
def LvServed (s : Dev) (n : Nat) : Prop := Bits.bit (s.reg RegMap.hpLvCfg) 0 = true ∧ n < LvNodes s
def LvHome (s : Dev) (n : Nat) : Nat := s.rf RegMap.hpLvCfg 16 6 + n

/-- A command with this opcode waits for the home barge of a served node. -/
def LvWaits (s : Dev) (n op : Nat) (m : MboxCmd) : Prop :=
  LvServed s n ∧ (s.node n).flight = some m ∧ m.taken = false ∧ Bits.fld m.cmd 0 8 = op

/-- A reserved bit of the command is set, or READ_ENERGY names all channels (Table 20-5). -/
def LvBad (m : MboxCmd) : Prop := Bits.fld m.cmd 12 20 ≠ 0 ∨ (Bits.fld m.cmd 0 8 = 0x20 ∧ Bits.bit m.cmd 11 = true)

/-- The command has been taken. -/
def LvTaken (s : Dev) (n : Nat) (m : MboxCmd) : Dev :=
  s.setNode n { s.node n with flight := some { m with taken := true, held := false } }

/-- The result of the command goes to the host port. -/
def LvResult (s : Dev) (n : Nat) (m : MboxCmd) (status r0 r1 flags : Nat) : Dev :=
  { LvTaken s n m with complq := s.complq ++ [{ cmdRing := 2 ^ 20 + n, cmdId := 0, opcode := 0, status := status, handle := flags
                                                r0 := BitVec.ofNat 32 r0, r1 := BitVec.ofNat 32 r1 }] }

/-- The region of the node takes commands: it is neither autonomous nor asleep, and the chip is not in STANDBY. -/
def LvOpen (s : Dev) (n : Nat) : Prop :=
  s.auto (LvHome s n / 8) = false ∧ (s.region (LvHome s n / 8)).asleep = false ∧ s.pwr.mode ≠ 2

/-- R445, R446, Tables 20-4 and 20-5: a mailbox command acts once, when its home barge takes it; BAD_CMD and NODE_DOWN change no
cell; a channel command does what its native command does; SET_ commands are checked as PROFILE_PATCH is; READ_ENERGY reports
whole mJ; CLEAR_FLAGS names the lanes whose TRIPPED_SEEN its completion clears. -/
def Rules.LegacyCommands : Prop :=
  (∀ (n : BlockIx) (i : Instr) (op : Nat) (s : State), LvRow n i op →
    ((∀ m, ¬ LvWaits s.dev n op m) → NoEffect i s) ∧
    (∀ m, LvWaits s.dev n op m → LvBad m → Becomes i s (LvResult s.dev n m 3 0 0 0)) ∧
    (∀ m, LvWaits s.dev n op m → ¬ LvBad m → s.dev.auto (LvHome s.dev n / 8) = true →
      Becomes i s (LvResult s.dev n m 0x15 0 0 0))) ∧
  (∀ (n : BlockIx) (d : Desc) (i j : Instr) (op nat : Nat) (m : MboxCmd) (s : State), LvNative n d i j op nat →
    LvWaits s.dev n op m → ¬ LvBad m → LvOpen s.dev n → Bits.bit m.cmd 11 = false →
    let c := 8 * LvHome s.dev n + Bits.fld m.cmd 8 3
    let mine : Completion := { cmdRing := 2 ^ 20 + n, cmdId := 0, opcode := nat, status := 0 }
    (∀ new hold, ChannelRow s.dev c d j nat new hold → Does i s (Parts.cell ++ [.nodes]) fun t =>
      t.nodes = (LvTaken s.dev n m).nodes ∧ (t.cell c).state = new ∧ (t.cell c).holdOff = hold ∧ Only Dev.cell c s.dev t ∧
      [mine] <:+ t.complq) ∧
    (ChannelBad s.dev c d j nat → Becomes i s { LvTaken s.dev n m with
      complq := s.dev.complq ++ [{ mine with status := 0x11 }] }) ∧
    (i = .lvOn n → (s.dev.cell c).state = .tripped → (s.dev.cell c).evaluated = false → Does i s [.cells, .nodes] fun t =>
      t.nodes = (LvTaken s.dev n m).nodes ∧ Only Dev.cell c s.dev t ∧ t.cell c = { s.dev.cell c with
        holdOff := false, heldOn := true, heldCmds := (s.dev.cell c).heldCmds ++ [(2 ^ 20 + n.val, 0)] })) ∧
  (∀ (n : BlockIx) (i : Instr) (op nat : Nat) (m : MboxCmd) (s : State),
    ((i = .lvOff n ∧ op = 2 ∧ nat = 0x103) ∨ (i = .lvDisable n ∧ op = 5 ∧ nat = 0x101)) →
    LvWaits s.dev n op m → ¬ LvBad m → LvOpen s.dev n → Bits.bit m.cmd 11 = true → let b := LvHome s.dev n
    Does i s (Parts.cell ++ [.nodes]) fun t => (∀ c, c / 8 ≠ b → t.cell c = s.dev.cell c) ∧
      ∃ r : Word, ([{ cmdRing := 2 ^ 20 + n, cmdId := 0, opcode := nat, status := 0, r0 := r }] : List Completion) <:+ t.complq ∧
        ∀ l, l < 8 → (r.getLsbD l = true ↔ (t.cell (8 * b + l)).state ≠ (s.dev.cell (8 * b + l)).state) ∧
          (r.getLsbD (8 + l) = true ↔ ((s.dev.cell (8 * b + l)).state = .latched ∨ (s.dev.cell (8 * b + l)).state = .safe))) ∧
  (∀ (n : BlockIx) (i : Instr) (op w : Nat) (m : MboxCmd) (s : State),
    ((i = .setIlim n ∧ op = 0x10 ∧ w = 3) ∨ (i = .setFaultTime n ∧ op = 0x11 ∧ w = 6)) →
    LvWaits s.dev n op m → ¬ LvBad m → LvOpen s.dev n → Bits.bit m.cmd 11 = false →
    let c := 8 * LvHome s.dev n + Bits.fld m.cmd 8 3
    let e := [(w, (0x00FFFFFF : Word), m.arg0)]
    ((2 ^ 24 ≤ m.arg0.toNat ∨ Prof.legal (s.dev.candidate c e) = false) → Becomes i s (LvResult s.dev n m 0x10 0 0 0)) ∧
    (m.arg0.toNat < 2 ^ 24 → Prof.legal (s.dev.candidate c e) = true → s.dev.profBusy c e = true →
      Becomes i s (LvResult s.dev n m 0x13 0 0 0)) ∧
    (m.arg0.toNat < 2 ^ 24 → Prof.legal (s.dev.candidate c e) = true → s.dev.profBusy c e = false →
      Does i s (Parts.cell ++ [.nodes]) fun t => t.nodes = (LvTaken s.dev n m).nodes ∧
        (∀ c' w', w' < 64 → (c' ≠ c ∨ w' ≠ 3 ∨ w ≠ 3) → t.pword c' w' = s.dev.pword c' w') ∧
        (w = 3 → t.pword c 3 = Bits.merge (s.dev.pword c 3) m.arg0 0x00FFFFFF) ∧
        (w = 6 → ∀ j, j < 24 → (t.nextPword c 6).getLsbD j = m.arg0.getLsbD j) ∧
        ([{ cmdRing := 2 ^ 20 + n, cmdId := 0, opcode := 0, status := 0 }] : List Completion) <:+ t.complq)) ∧
  (∀ (n : BlockIx) (m : MboxCmd) (s : State), ¬ LvBad m → LvOpen s.dev n →
    let mj := (s.dev.lane (8 * LvHome s.dev n + Bits.fld m.cmd 8 3)).eFwd / 1000
    (LvWaits s.dev n 0x20 m → Becomes (.readEnergy n) s (LvResult s.dev n m 0 (mj % 2 ^ 24) (mj / 2 ^ 24) 0)) ∧
    (LvWaits s.dev n 0x21 m → Becomes (.clearFlags n) s (LvResult s.dev n m 0 0 0
      (if Bits.bit m.cmd 11 = true then 255 else 2 ^ Bits.fld m.cmd 8 3))))

/-- LN_CH_STAT of a cell (Tables 20-2 and 20-3), without TRIPPED_SEEN. -/
def LvStat (x : Cell) : Nat :=
  (match x.state with
    | .disabled | .off | .probe => 0
    | .precheck | .waitGrant | .inrush => 1
    | .on | .limit => 2
    | .tripped | .cooldown => 3
    | .latched | .safe => 4) + (if x.present = true then 8 else 0) + x.trip.primary % 32 * 16

/-- A channel of the image, and the change of a channel. -/
def LvChan (x : Node) (l : Nat) : NodeChan := Sparse.get (fun _ => {}) x.chans l

/-- CODE of a native status (Table 20-5). -/
def LvCode (status : Nat) : Nat :=
  if status = 0 then 0 else if status = 0x10 then 2 else if status = 0x11 ∨ status = 0x13 then 3
  else if status = 0x12 then 4 else if status = 0x15 then 5 else 1

/-- The host port writes the result of node `n`: mailbox state, image fields of the lanes named, HP_LV_DONE, and the message on
VECTOR with IRQ_EN (R446). -/
def LvWritten (s t : Dev) (n code value value2 flags : Nat) : Prop :=
  let x := s.node n
  let y := t.node n
  let named := fun (l : Nat) => ∃ m, x.flight = some m ∧ (Bits.bit m.cmd 11 = true ∨ Bits.fld m.cmd 8 3 = l)
  (∀ k, k ≠ n → t.node k = s.node k) ∧
  y = { x with
    chans := y.chans, seen := x.seen &&& (255 ^^^ flags), result := BitVec.ofNat 32 (code + value % 2 ^ 24 * 256)
    result2 := BitVec.ofNat 32 value2, mbox := (if code = 0 then .done else .error), flight := none } ∧
  (∀ l, l < 8 → (named l → LvChan y l = { LvChan x l with stat := LvStat (s.cell (8 * LvHome s n + l)) }) ∧
    (¬ named l → LvChan y l = LvChan x l)) ∧
  t.lvDone = s.lvDone ||| (1#64 <<< n) ∧
  (Bits.bit (s.reg RegMap.hpLvCfg) 2 = false → t.out = s.out ∧ t.hp = s.hp) ∧
  (Bits.bit (s.reg RegMap.hpLvCfg) 2 = true → s.hp.msixEn = true → s.hp.msixMask = false →
    Bits.bit (s.msixWord (4 * s.rf RegMap.hpLvCfg 22 10 + 3)) 0 = false →
    t.out = s.out ++ [.msix (s.rf RegMap.hpLvCfg 22 10)] ∧ t.hp = s.hp)

/-- R443, R444, R446, R448, R450: the completion of a mailbox command, with NO_SERVICE for one that no barge took; the refresh of
an image by a home barge that runs, with means of the valid frames of the interval; and STALE. -/
def Rules.LegacyImages : Prop :=
  (∀ (n : BlockIx) (s : State),
    (∀ a k b, s.dev.complq = a ++ k :: b → k.cmdRing = 2 ^ 20 + n.val → (∀ q ∈ a, q.cmdRing ≠ 2 ^ 20 + n.val) →
      Does (.mailboxCompletion n) s [.nodes, .lvDone, .hp, .complq, .out] fun t => t.complq = a ++ b ∧
        LvWritten s.dev t n (LvCode k.status) (if k.status = 0 then k.r0.toNat else 0) (if k.status = 0 then k.r1.toNat else 0)
          k.handle) ∧
    ((∀ q ∈ s.dev.complq, q.cmdRing ≠ 2 ^ 20 + n.val) →
      ((s.dev.node n).flight = none → NoEffect (.mailboxCompletion n) s) ∧
      ∀ m, (s.dev.node n).flight = some m →
        (m.taken = true → NoEffect (.mailboxCompletion n) s) ∧
        (m.taken = false → Does (.mailboxCompletion n) s [.barges, .nodes, .lvDone, .hp, .out] fun t =>
          Only Dev.barge (LvHome s.dev n) s.dev t ∧
          (t.barge (LvHome s.dev n)).tq = { (s.dev.barge (LvHome s.dev n)).tq with
            queue := (s.dev.barge (LvHome s.dev n)).tq.queue.erase m.token } ∧
          ∃ code, LvWritten s.dev t n code 0 0 0 ∧ (code = 6 ∨ code = 1) ∧
            (Bits.fld m.cmd 12 20 = 0 → Bits.fld m.cmd 0 8 = 1 → code = 6)))) ∧
  (∀ (n : BlockIx) (s : State), let b := LvHome s.dev n
    let k := s.dev.barge b
    let up := LvServed s.dev n ∧ k.run = true ∧ k.seized = false ∧ k.dbg.halted = false ∧ s.dev.auto (b / 8) = false
    let x := s.dev.node n
    (¬ up → NoEffect (.nodeImageRefresh n) s) ∧
    (up → Does (.nodeImageRefresh n) s [.nodes] fun t => (∀ j, j ≠ n.val → t.node j = s.dev.node j) ∧
      let y := t.node n
      y = { x with
        chans := y.chans, seen := y.seen, last := s.dev.rtime (b / 8), seq := (x.seq + 1) % 65536
        time := s.dev.tbTime / 1000 % 2 ^ 32, stale := false } ∧
      ∀ l, l < 8 → let c := s.dev.cell (8 * b + l)
        let p := LvChan x l
        let q := LvChan y l
        q.stat = LvStat c ∧ q.tj = (c.tjEst % 65536).toNat ∧ q.n = 0 ∧
        (Bits.nbit y.seen l = true ↔ (Bits.nbit x.seen l = true ∨ x.last < c.trip.time)) ∧
        (p.n = 0 → q.i = p.i ∧ q.v = p.v) ∧
        (0 < p.n → q.v = min 65535 (p.vSum.tdiv p.n).toNat ∧
          q.i = (max (-32768) (min 32767 ((s.dev.codeUa (8 * b + l) p.iSum).tdiv (p.n * 10000))) % 65536).toNat))) ∧
  (∀ (n : BlockIx) (s : State),
    (LvServed s.dev n → Does (.nodeImageStale n) s [.nodes] fun t => t.node n = { s.dev.node n with stale := true } ∧
      ∀ j, j ≠ n.val → t.node j = s.dev.node j) ∧
    (¬ LvServed s.dev n → NoEffect (.nodeImageStale n) s))

/-- `Rules.LegacyCommands` and `Rules.LegacyImages` together. -/
def Obligations.LegacyNodeView : Prop := Rules.LegacyCommands ∧ Rules.LegacyImages

/-! ### Register writes (21, 00) -/

/-- Class L words without an effect of their own, by offset, with the bits that a write stores (Tables 21-3 and 21-6). -/
def PlainWord (off : Nat) (mask : Word) : Prop :=
  (off = 0x10008 ∧ mask = 0xC) ∨ (0x21000 ≤ off ∧ off < 0x21400 ∧ off % 4 = 0 ∧ mask = 0x1FFFFF) ∨
  (off = 0x30018 ∧ mask = 0xFFFFFF) ∨ (off = 0x40000 ∧ mask = 0x3FFF0001) ∨
  (0x50000 ≤ off ∧ off < 0x50040 ∧ off % 4 = 0 ∧ mask = 0xFFFFFF) ∨
  (0x50040 ≤ off ∧ off < 0x50080 ∧ off % 4 = 0 ∧ mask = 0x3FFFF01) ∨
  (0x60100 ≤ off ∧ off < 0x60200 ∧ off % 4 = 0 ∧ mask = 0x7F) ∨ (off = 0x7001C ∧ mask = 0xFFFFFFFF) ∨
  (off = 0x80000 ∧ mask = 7) ∨ (0x90600 ≤ off ∧ off < 0x90800 ∧ off % 4 = 0 ∧ mask = 0x3FFFFFFF)

/-- Class H words with the register whose EN bit says that their unit runs (Table 21-7). -/
def StoppedWord (off en : Nat) (mask : Word) : Prop :=
  (off = 0x20010 ∧ en = 0x20000 ∧ mask = 0x1F) ∨ (off = 0x20028 ∧ en = 0x20000 ∧ mask = 0x3FFFFF) ∨
  (0x40040 ≤ off ∧ off < 0x40080 ∧ off % 4 = 0 ∧ en = 0x40000 ∧ mask = 0x800FFFFF) ∨
  (off = 0x60010 ∧ en = 0x60000 ∧ mask = 0x1FFF) ∨ (off = 0x70004 ∧ en = 0x70000 ∧ mask = 0xFFFFFFFF)

/-- The whole window of region `g` answers (R457). -/
def WindowAnswers (s : Dev) (g : Nat) : Prop :=
  s.straitUp g = true ∧ s.auto g = false ∧ Bits.bit (s.reg (RegMap.rgnCtrl g)) 0 = true ∧ (s.region g).asleep = false

/-- The host can write: the central die is out of reset and not in STANDBY. -/
def HostWrites (s : Dev) : Prop := s.pwr.core = true ∧ s.pwr.mode ≠ 2

/-- R3 to R7, R425, R442, R446, R453, R455 to R459: a class L field takes its value at once and a class H field only while its
unit is stopped, with CFG_WRITE_IGNORED otherwise; a class S field waits for its commit point; a half of a 64-bit register is
written alone; an access of another size, at an unlisted offset or to a region that does not answer changes nothing and is
counted; BAR4 holds the node windows. -/
def Obligations.RegisterWrites : Prop :=
  (∀ (x : RegTarget) (bytes : Byte) (v : DWord) (off : BitVec 24) (s : State), s.dev.pwr.core = false →
    NoEffect (.registerWrite x bytes v) s ∧ NoEffect (.regionWindowWriteApply off bytes v) s) ∧
  (∀ (off : BitVec 24) (v : DWord) (mask : Word) (s : State), PlainWord off.toNat mask → HostWrites s.dev →
    Becomes (.registerWrite (.bar0 off) 4 v) s
      (s.dev.setReg off.toNat (Bits.merge (s.dev.reg off.toNat) (v.setWidth 32) mask))) ∧
  (∀ (off : BitVec 24) (v : DWord) (mask : Word) (s : State), PlainWord off.toNat mask → s.dev.pwr.core = true →
    s.dev.pwr.mode = 2 → Does (.registerWrite (.bar0 off) 4 v) s [.regs, .mg, .pwr] fun t =>
      t.pwr = { s.dev.pwr with mode := 1, cause := s.dev.pwr.cause ||| 16 } ∧
      ∀ a, t.reg a = if a = off.toNat then Bits.merge (s.dev.reg a) (v.setWidth 32) mask else s.dev.reg a) ∧
  (∀ (off : BitVec 24) (en : Nat) (v : DWord) (mask : Word) (s : State), StoppedWord off.toNat en mask → HostWrites s.dev →
    (Bits.bit (s.dev.reg en) 0 = false → Becomes (.registerWrite (.bar0 off) 4 v) s
      (s.dev.setReg off.toNat (Bits.merge (s.dev.reg off.toNat) (v.setWidth 32) mask))) ∧
    (Bits.bit (s.dev.reg en) 0 = true → Does (.registerWrite (.bar0 off) 4 v) s Parts.fault fun t =>
      t.reg off.toNat = s.dev.reg off.toNat ∧ (t.coll 8).latched.getLsbD 37 = true)) ∧
  (∀ (v : DWord) (s : State), HostWrites s.dev → Bits.bit (s.dev.reg 0x20000) 0 = false →
    Does (.registerWrite (.bar0 0x20008) 8 v) s [.regs] fun t => ∀ a, t.reg a =
      if a = 0x20008 then Bits.merge (s.dev.reg a) (v.setWidth 32) 0xFFFFF000
      else if a = 0x2000C then (v >>> 32).setWidth 32 else s.dev.reg a) ∧
  (∀ (off : BitVec 24) (bytes : Byte) (v : DWord) (s : State), HostWrites s.dev →
    (((bytes ≠ 4 ∧ bytes ≠ 8) ∨ off.toNat % bytes.toNat ≠ 0) → Becomes (.registerWrite (.bar0 off) bytes v) s
      { s.dev with badSize := true, rsvdWrites := min 65535 (s.dev.rsvdWrites + 1) }) ∧
    (off.toNat % 4 = 0 → off.toNat < 0xFF0000 → (off.toNat < 0x400000 ∨ 0xC00000 ≤ off.toNat) →
      (RegMap.info off.toNat).listed = false → Becomes (.registerWrite (.bar0 off) 4 v) s
        { s.dev with rsvdWrites := min 65535 (s.dev.rsvdWrites + 1) })) ∧
  (∀ (g : RegionIx) (off : BitVec 24) (i : Instr) (v : DWord) (s : State), HostWrites s.dev →
    (i = .registerWrite (.bar0 off) 4 v ∨ i = .regionWindowWriteApply off 4 v) → off.toNat % 4 = 0 →
    RegMap.window g ≤ off.toNat → off.toNat < RegMap.window (g + 1) →
    ((s.dev.straitUp g = false ∨ s.dev.auto g = true ∨ (Bits.bit (s.dev.reg (RegMap.rgnCtrl g)) 0 = false ∧
        (off.toNat < RegMap.unit g 0 ∨ RegMap.unit g 0x1000 ≤ off.toNat))) →
      Becomes i s { s.dev with rgnFail := s.dev.rgnFail ||| (1#8 <<< g.val) }) ∧
    (∀ b, off.toNat = RegMap.mtrCfg b → b / 8 = g.val → WindowAnswers s.dev g →
      Becomes i s (s.dev.setReg off.toNat (Bits.merge (s.dev.reg off.toNat) (v.setWidth 32) 0xFFF7))) ∧
    (∀ k, off.toNat = RegMap.cs k 0x10 → k / 4 = g.val → WindowAnswers s.dev g → (s.dev.slice k).state ≠ .off →
      Does i s [.regs, .regsPend] fun t => (∀ a, t.reg a = s.dev.reg a) ∧
        NextReg t off.toNat = Bits.merge (NextReg s.dev off.toNat) (v.setWidth 32) 0xFFFF) ∧
    (∀ k, off.toNat = RegMap.cs k 0x10 → k / 4 = g.val → WindowAnswers s.dev g → (s.dev.slice k).state = .off →
      Does i s [.regs, .regsPend] fun t => ∀ a, t.reg a =
        if a = off.toNat then Bits.merge (NextReg s.dev a) (v.setWidth 32) 0xFFFF else s.dev.reg a)) ∧
  (∀ (off : BitVec 24) (bytes : Byte) (v : DWord) (s : State), (off.toNat < 0x400000 ∨ 0xC00000 ≤ off.toNat) →
    NoEffect (.regionWindowWriteApply off bytes v) s) ∧
  (∀ (v : DWord) (s : State), HostWrites s.dev →
    Becomes (.registerWrite (.bar0 0x20048) 4 v) s { s.dev with lvDone := s.dev.lvDone &&& ~~~ (v.setWidth 32 : Word).setWidth 64 } ∧
    Becomes (.registerWrite (.bar0 0x18) 4 v) s { s.dev with
      rgnFail := s.dev.rgnFail &&& ~~~ (v.setWidth 8), badSize := s.dev.badSize && !v.getLsbD 8 } ∧
    (s.dev.hp.pba = [] ∨ v.getLsbD 0 = false ∨ v.getLsbD 1 = true → Becomes (.registerWrite .msixControl 4 v) s
      { s.dev with hp := { s.dev.hp with msixEn := v.getLsbD 0, msixMask := v.getLsbD 1 } })) ∧
  (∀ (n : BlockIx) (off : BitVec 16) (o : Nat) (v : DWord) (s : State), HostWrites s.dev → off.toNat = 0x400 * n.val + o →
    let i : Instr := .registerWrite (.bar4 off) 4 v
    let x := s.dev.node n
    (¬ LvServed s.dev n → o < 0x400 → o % 4 = 0 → NoEffect i s) ∧
    (LvServed s.dev n → (o = 0x10 → Becomes i s (s.dev.setNode n { x with cmd := v.setWidth 32 })) ∧
      (o = 0x14 → Becomes i s (s.dev.setNode n { x with arg0 := v.setWidth 32 })) ∧
      (o = 0x18 → Becomes i s (s.dev.setNode n { x with arg1 := v.setWidth 32 })) ∧
      (o = 0x08 → v.getLsbD 3 = true → Becomes i s (s.dev.setNode n { x with overrun := false })) ∧
      (o = 0x1C → x.mbox = .busy → Becomes i s (s.dev.setNode n { x with overrun := true })) ∧
      (o = 0x1C → x.mbox ≠ .busy → Does i s [.freeCount, .barges, .nodes] fun t =>
        let q := (s.dev.barge (LvHome s.dev n)).tq.queue
        Only Dev.barge (LvHome s.dev n) s.dev t ∧ (∀ j, j ≠ n.val → t.node j = s.dev.node j) ∧ ∃ token : Quad,
          t.node n = { x with
            mbox := .busy
            flight := (some { cmd := x.cmd, arg0 := x.arg0, arg1 := x.arg1, token := token, held := decide (32 ≤ q.length) }) } ∧
          (t.barge (LvHome s.dev n)).tq.queue = if q.length < 32 then q ++ [token] else q)))

/-! ### The whole block -/

/-- Table 18-2, Table 18-7, R2, R3 and the reset columns: nothing waits, every register reads its reset value, CHIP_ID names the
part, every cell is DISABLED, every slice OFF, the timebase stands at 0 in FREE, no supply has become good, and no region runs.
What memory reads before it is written, and the values of registers that the spec gives none for, are the model's choice (log 5,
log 8). -/
def Obligations.ResetState : Prop :=
  let d := State.reset.dev
  State.reset.pending = [] ∧ (∀ a, d.reg a = RegMap.reset a) ∧ d.reg 0 = 0x00B09512 ∧
  (∀ c w, d.pword c w = RegMap.profReset ((64 * c + w) % 64)) ∧ (∀ c, (d.cell c).state = .disabled ∧ (d.cell c).gate = .passive) ∧
  (∀ j, (d.slice j).state = .off ∧ (d.slice j).hs = false ∧ (d.slice j).ls = false) ∧ d.tbTime = 0 ∧ d.tb.state = .free ∧
  (d.pwr.vsys = false ∧ d.pwr.core = false ∧ d.pwr.rtUp = false ∧ d.pwr.mode = 0 ∧ d.pwr.lastReset = 0) ∧
  (∀ g, (d.region g).islandRun = false ∧ (d.region g).linkUp = false ∧ d.auto g = true) ∧
  (∀ e, (d.barge e).run = false ∧ (d.barge e).seized = false) ∧ (∀ k, (d.coll k).latched = 0 ∧ (d.coll k).hist = []) ∧
  (∀ a, d.flashByte a = 0xFF ∧ d.sramByte a = 0 ∧ d.rramByte a = 0) ∧ d.debugOpen = false ∧ d.evq = [] ∧ d.complq = [] ∧
  d.out = []

/-- A step takes the command at the front of the queue and runs it with the rest waiting; with nothing waiting one tick of the
timebase passes, which is the model's choice (log 4). -/
def Obligations.StepTakesFront : Prop :=
  (∀ (c : Instr) (s : State), step { s with pending := c :: s.pending } = exec c s) ∧
  (∀ (s : State), s.pending = [] → step s = .next { s with dev := s.dev.tick })

/-- The state after `n` steps, while each answers a next state. -/
def runs : Nat → State → Option State
  | 0, s => some s
  | n + 1, s => match step s with
    | .next t => runs n t
    | _ => none

/-- The device after a list of commands, one after the other. -/
def after : List Instr → Dev → Option Dev
  | [], d => some d
  | c :: l, d => match exec c { dev := d } with
    | .next t => after l t.dev
    | _ => none

/-- The queue is first in, first out: every command answers a next state, leaves the queue as it is, and does the same whatever
waits; so as many steps as there are commands run all of them in their order, and the block then idles. -/
def Obligations.FirstInFirstOut : Prop :=
  (∀ (c : Instr) (s : State), ∃ d, exec c s = .next { s with dev := d } ∧
    ∀ q, exec c { s with pending := q } = .next { dev := d, pending := q }) ∧
  (∀ (s : State), Safe s) ∧
  (∀ (l rest : List Instr) (d : Dev), ∃ e, after l d = some e ∧
    runs l.length { dev := d, pending := l ++ rest } = some { dev := e, pending := rest })

/-- Every memory of bytes (central SRAM, region RAM, code flash, the IRAM and DRAM of every barge) and the map of the cells are in
canonical form. -/
def Canonical (s : Dev) : Prop :=
  s.memWf ∧ (∀ e, Memory.wf 0 (s.barge e).iram = true ∧ Memory.wf 0 (s.barge e).dram = true) ∧
  Sparse.wf (fun _ => ({} : Cell)) s.cells = true

/-- Every step keeps the canonical forms, so equal memories are equal data; they hold at reset. -/
def Obligations.CanonicalForms : Prop :=
  Canonical State.reset.dev ∧
  ∀ (s t : State), Canonical s.dev → step s = .next t → Canonical t.dev

/-- The image of every FLASH_UPDATE under way fits its slot. -/
def ImagesFit (s : Dev) : Prop :=
  ∀ n o src len area done chunk phase hdr, s.op n = some o → o.body = .flash src len area done chunk phase hdr →
    len ≤ if area = 0 then 0x400000 else 0x300000

/-- R432, R297: from every state whose image downloads fit their slots, a step keeps them so and changes no byte of the
calibration and configuration area of code flash, and no command but FLASH_ERASE, FLASH_PROG and OP_STEP changes code flash at
all. The tables of the system calibration, which R176 places in that area without an address, are a part of their own
(`calSlots`, log 15); OP_STEP alone stores them, see `PartWriters`. -/
def Obligations.CalibrationAreaKept : Prop :=
  ImagesFit State.reset.dev ∧
  (∀ (s t : State), ImagesFit s.dev → step s = .next t →
    ImagesFit t.dev ∧ ∀ a, 0xE00000 ≤ a → t.dev.flashByte a = s.dev.flashByte a) ∧
  (∀ (c : Instr) (s t : State), exec c s = .next t → (∀ x a, c ≠ .flashErase x a) → (∀ x a l, c ≠ .flashProg x a l) →
    (∀ n x, c ≠ .opStep n x) → t.dev.flash = s.dev.flash)

/-- The outputs of a slice are never high together, and both are low while it is OFF, its island is in reset or its island clock
has failed. -/
def SliceSafe (s : Dev) : Prop :=
  ∀ j, ¬ ((s.slice j).hs = true ∧ (s.slice j).ls = true) ∧
    (((s.slice j).state = .off ∨ (s.region (j / 4)).islandRun = false ∨ (s.region (j / 4)).clkFail = true) →
      (s.slice j).hs = false ∧ (s.slice j).ls = false) ∧
    ((s.slice j).state = .off → (s.slice j).phase = .rest)

/-- R312: from every state in which the outputs of the slices are safe, whatever the settings, a step keeps them so; they are safe
at reset. -/
def Obligations.SliceOutputsSafe : Prop :=
  SliceSafe State.reset.dev ∧ ∀ (s t : State), SliceSafe s.dev → step s = .next t → SliceSafe t.dev

/-- Every buffer of a barge is within its size: store buffer and load queue 4, token queue 32, IRAM stores since the last sync.i
8, those still in the store buffer or the patch queue among them. -/
def BargesFit (s : Dev) : Prop :=
  ∀ e, (s.barge e).sb.length ≤ 4 ∧ (s.barge e).lq.length ≤ 4 ∧ (s.barge e).tq.queue.length ≤ 32 ∧
    (s.barge e).patches.length + ((s.barge e).sb.filter (fun x => decide (x.addr < 0x10000))).length ≤ (s.barge e).patchCount ∧
    (s.barge e).patchCount ≤ 8

/-- R210, R218, R221, R223, R238: from every state in which the buffers of every barge are within their sizes, a step keeps them
so; they are at reset. -/
def Obligations.BargeBuffersFit : Prop :=
  BargesFit State.reset.dev ∧ ∀ (s t : State), BargesFit s.dev → step s = .next t → BargesFit t.dev

/-- R440, R408, Table 18-4: the TAP is changed by its own commands and the loss of a supply alone, and its commands change nothing
else but what TDO shifts out; the stored calibration is changed by OP_STEP alone, and central SRAM only by the commands named. -/
def Obligations.PartWriters : Prop :=
  ∀ (c : Instr) (s t : State), exec c s = .next t →
    ((c = .bypass ∨ c = .idcode ∨ (∃ v, c = .samplePreload v) ∨ (∃ v, c = .extest v) ∨ c = .clamp ∨ c = .highz ∨ c = .trstN) →
      Keeps [.tap, .out] s.dev t.dev) ∧
    (¬ (c = .bypass ∨ c = .idcode ∨ (∃ v, c = .samplePreload v) ∨ (∃ v, c = .extest v) ∨ c = .clamp ∨ c = .highz ∨ c = .trstN ∨
      ∃ x, c = .supplyLoss x) → t.dev.tap = s.dev.tap) ∧
    ((∀ n x, c ≠ .opStep n x) → t.dev.calSlots = s.dev.calSlots) ∧
    ((∀ x a l, c ≠ .memWrite x a l) → (∀ e, c ≠ .storeDrain e) → (∀ x, c ≠ .supplyLoss x) → (∀ d, c ≠ .taskInstall d) →
      t.dev.sram = s.dev.sram)
end

