-- ==== Sys2Proof/Laws/Frame.lean ====
section
/-! SUPPORT. Frames: `Dev.hide m s` is `s` with the parts of mask `m` (bit i: field i of `Dev`) blanked, so that
`hide m t = hide m s` says that `t` differs from `s` in those parts at most. Here the laws of blanking and of raw updates. -/

namespace Sys2Proof.Machine

theorem land_trans {a b m : Nat} (h : a &&& b = a) (hm : b &&& m = b) : a &&& m = a := by
  rw [← h, Nat.and_assoc, hm]

theorem testBit_of_land {a m k : Nat} (h : a &&& m = a) (hk : a.testBit k = true) : m.testBit k = true := by
  have := congrArg (fun n => Nat.testBit n k) h
  simp only [Nat.testBit_and, hk, Bool.true_and] at this
  exact this

/-- The device with the parts of a mask blanked. -/
def Dev.hide (m : Nat) (s : Dev) : Dev where
  freeCount := bif m.testBit 0 then 0 else s.freeCount
  ticks := bif m.testBit 1 then 0 else s.ticks
  tbTime := bif m.testBit 2 then 0 else s.tbTime
  tb := bif m.testBit 3 then {} else s.tb
  linkA := bif m.testBit 4 then {} else s.linkA
  linkB := bif m.testBit 5 then {} else s.linkB
  ring := bif m.testBit 6 then {} else s.ring
  replicas := bif m.testBit 7 then [] else s.replicas
  lk := bif m.testBit 8 then {} else s.lk
  cells := bif m.testBit 9 then [] else s.cells
  blocks := bif m.testBit 10 then [] else s.blocks
  regions := bif m.testBit 11 then [] else s.regions
  barges := bif m.testBit 12 then [] else s.barges
  sram := bif m.testBit 13 then [] else s.sram
  rram := bif m.testBit 14 then [] else s.rram
  flash := bif m.testBit 15 then [] else s.flash
  rtSlot := bif m.testBit 16 then 0 else s.rtSlot
  custSlot := bif m.testBit 17 then 0 else s.custSlot
  dbg := bif m.testBit 18 then {} else s.dbg
  tap := bif m.testBit 19 then {} else s.tap
  nodes := bif m.testBit 20 then [] else s.nodes
  lvDone := bif m.testBit 21 then 0 else s.lvDone
  rgnFail := bif m.testBit 22 then 0 else s.rgnFail
  badSize := bif m.testBit 23 then false else s.badSize
  rsvdWrites := bif m.testBit 24 then 0 else s.rsvdWrites
  slices := bif m.testBit 25 then [] else s.slices
  sliceQ := bif m.testBit 26 then [] else s.sliceQ
  lanes := bif m.testBit 27 then [] else s.lanes
  convs := bif m.testBit 28 then [] else s.convs
  auxs := bif m.testBit 29 then [] else s.auxs
  calSlots := bif m.testBit 30 then [] else s.calSlots
  regs := bif m.testBit 31 then [] else s.regs
  regsPend := bif m.testBit 32 then [] else s.regsPend
  prof := bif m.testBit 33 then [] else s.prof
  profPend := bif m.testBit 34 then [] else s.profPend
  colls := bif m.testBit 35 then [] else s.colls
  err := bif m.testBit 36 then {} else s.err
  sluice := bif m.testBit 37 then {} else s.sluice
  slMsgs := bif m.testBit 38 then [] else s.slMsgs
  grants := bif m.testBit 39 then [] else s.grants
  mirror := bif m.testBit 40 then 0 else s.mirror
  mirrorStale := bif m.testBit 41 then 0 else s.mirrorStale
  fwdMem := bif m.testBit 42 then [] else s.fwdMem
  tripSeq := bif m.testBit 43 then 0 else s.tripSeq
  ringPos := bif m.testBit 44 then 0 else s.ringPos
  hp := bif m.testBit 45 then {} else s.hp
  ops := bif m.testBit 46 then [] else s.ops
  opGen := bif m.testBit 47 then [] else s.opGen
  bz := bif m.testBit 48 then {} else s.bz
  rv := bif m.testBit 49 then {} else s.rv
  tows := bif m.testBit 50 then [] else s.tows
  mg := bif m.testBit 51 then {} else s.mg
  sv := bif m.testBit 52 then {} else s.sv
  pwr := bif m.testBit 53 then {} else s.pwr
  evq := bif m.testBit 54 then [] else s.evq
  complq := bif m.testBit 55 then [] else s.complq
  laneWaits := bif m.testBit 56 then [] else s.laneWaits
  reports := bif m.testBit 57 then [] else s.reports
  telq := bif m.testBit 58 then [] else s.telq
  out := bif m.testBit 59 then [] else s.out

/-- The device a result leaves, or the one it had. -/
def Result.devOr (r : Result) (s : Dev) : Dev := match r with
  | .next d => d
  | _ => s

/-- The state an outcome leaves, or the one it had. -/
def Outcome.stateOr (r : Outcome) (s : State) : State := match r with
  | .next d => d
  | _ => s

theorem State.on_hide {m : Nat} {x : Dev} (s : State) (f : Dev → Result)
    (hf : Dev.hide m ((f s.dev).devOr s.dev) = x) : Dev.hide m ((s.on f).stateOr s).dev = x := by
  rw [← hf]; unfold State.on; cases f s.dev <;> rfl

theorem hide_next {m : Nat} {x d s : Dev} (h : Dev.hide m d = x) :
    Dev.hide m (Result.devOr (Host.Outcome.next d) s) = x := h

theorem hide_ite {m : Nat} {x a b : Dev} {c : Prop} [Decidable c] (ha : Dev.hide m a = x) (hb : Dev.hide m b = x) :
    Dev.hide m (if c then a else b) = x := by split <;> assumption

theorem hide_foldl {m : Nat} {x : Dev} {α : Type} {f : Dev → α → Dev} {l : List α} {s : Dev}
    (hf : ∀ t a y, Dev.hide m t = y → Dev.hide m (f t a) = y) (h : Dev.hide m s = x) :
    Dev.hide m (l.foldl f s) = x := by
  induction l generalizing s with
  | nil => exact h
  | cons a l ih => exact ih (hf s a x h)

theorem hide_foldl2 {m : Nat} {x : Dev} {α β : Type} {f : β × Dev → α → β × Dev} {l : List α} {p : β × Dev}
    (hf : ∀ t a y, Dev.hide m t.2 = y → Dev.hide m (f t a).2 = y) (h : Dev.hide m p.2 = x) :
    Dev.hide m (l.foldl f p).2 = x := by
  induction l generalizing p with
  | nil => exact h
  | cons a l ih => exact ih (hf p a x h)

theorem hide_foldl4 {m : Nat} {x : Dev} {α β γ δ : Type} {f : δ × γ × β × Dev → α → δ × γ × β × Dev} {l : List α}
    {p : δ × γ × β × Dev} (hf : ∀ t a y, Dev.hide m t.2.2.2 = y → Dev.hide m (f t a).2.2.2 = y)
    (h : Dev.hide m p.2.2.2 = x) : Dev.hide m (l.foldl f p).2.2.2 = x := by
  induction l generalizing p with
  | nil => exact h
  | cons a l ih => exact ih (hf p a x h)

theorem hide_foldl3 {m : Nat} {x : Dev} {α β γ : Type} {f : γ × β × Dev → α → γ × β × Dev} {l : List α}
    {p : γ × β × Dev} (hf : ∀ t a y, Dev.hide m t.2.2 = y → Dev.hide m (f t a).2.2 = y)
    (h : Dev.hide m p.2.2 = x) : Dev.hide m (l.foldl f p).2.2 = x := by
  induction l generalizing p with
  | nil => exact h
  | cons a l ih => exact ih (hf p a x h)


theorem Dev.hide_upd_0 {m : Nat} (hm : 1 &&& m = 1) {x s : Dev} {v0 : Nat}
    (h : Dev.hide m s = x) : Dev.hide m { s with freeCount := v0 } = x := by
  rw [← h]; simp only [Dev.hide, testBit_of_land hm (k := 0) rfl, cond_true]

theorem Dev.hide_upd_1 {m : Nat} (hm : 2 &&& m = 2) {x s : Dev} {v1 : Nat}
    (h : Dev.hide m s = x) : Dev.hide m { s with ticks := v1 } = x := by
  rw [← h]; simp only [Dev.hide, testBit_of_land hm (k := 1) rfl, cond_true]

theorem Dev.hide_upd_2_3 {m : Nat} (hm : 12 &&& m = 12) {x s : Dev} {v2 : Nat} {v3 : Timebase}
    (h : Dev.hide m s = x) : Dev.hide m { s with tbTime := v2, tb := v3 } = x := by
  rw [← h]; simp only [Dev.hide, testBit_of_land hm (k := 2) rfl, testBit_of_land hm (k := 3) rfl, cond_true]

theorem Dev.hide_upd_2_3_11_12_13_14_19_28_53 {m : Nat} (hm : 9007199523731468 &&& m = 9007199523731468) {x s : Dev} {v2 : Nat} {v3 : Timebase} {v11 : Sparse Region} {v12 : Sparse Barge} {v13 : Sparse Byte} {v14 : Sparse Byte} {v19 : Tap} {v28 : Sparse Conv} {v53 : Power}
    (h : Dev.hide m s = x) : Dev.hide m { s with tbTime := v2, tb := v3, regions := v11, barges := v12, sram := v13, rram := v14, tap := v19, convs := v28, pwr := v53 } = x := by
  rw [← h]; simp only [Dev.hide, testBit_of_land hm (k := 2) rfl, testBit_of_land hm (k := 3) rfl, testBit_of_land hm (k := 11) rfl, testBit_of_land hm (k := 12) rfl, testBit_of_land hm (k := 13) rfl, testBit_of_land hm (k := 14) rfl, testBit_of_land hm (k := 19) rfl, testBit_of_land hm (k := 28) rfl, testBit_of_land hm (k := 53) rfl, cond_true]

theorem Dev.hide_upd_3 {m : Nat} (hm : 8 &&& m = 8) {x s : Dev} {v3 : Timebase}
    (h : Dev.hide m s = x) : Dev.hide m { s with tb := v3 } = x := by
  rw [← h]; simp only [Dev.hide, testBit_of_land hm (k := 3) rfl, cond_true]

theorem Dev.hide_upd_3_4_5_6_8_9_12_16_17_18_20_21_22_23_24_26_28_36_37_38_39_40_41_42_43_44_45_46_47_48_49_51_52_53_54_55_56_57_58 {m : Nat} (hm : 575334784045618040 &&& m = 575334784045618040) {x s : Dev} {v3 : Timebase} {v4 : CabLink} {v5 : CabLink} {v6 : Ring} {v8 : LockUnit} {v9 : Sparse Cell} {v12 : Sparse Barge} {v16 : Nat} {v17 : Nat} {v18 : DebugPort} {v20 : Sparse Node} {v21 : DWord} {v22 : Byte} {v23 : Bool} {v24 : Nat} {v26 : List SliceRec} {v28 : Sparse Conv} {v36 : ErrN} {v37 : Sluice} {v38 : List SlMsg} {v39 : List Grant} {v40 : Nat} {v41 : Nat} {v42 : List (Nat × Nat)} {v43 : Nat} {v44 : Nat} {v45 : HostPort} {v46 : Sparse (Option Op)} {v47 : Sparse Nat} {v48 : Basin} {v49 : Reserve} {v51 : Mgmt} {v52 : Supervisor} {v53 : Power} {v54 : List Event} {v55 : List Completion} {v56 : List LaneWait} {v57 : List Report} {v58 : List Tel}
    (h : Dev.hide m s = x) : Dev.hide m { s with tb := v3, linkA := v4, linkB := v5, ring := v6, lk := v8, cells := v9, barges := v12, rtSlot := v16, custSlot := v17, dbg := v18, nodes := v20, lvDone := v21, rgnFail := v22, badSize := v23, rsvdWrites := v24, sliceQ := v26, convs := v28, err := v36, sluice := v37, slMsgs := v38, grants := v39, mirror := v40, mirrorStale := v41, fwdMem := v42, tripSeq := v43, ringPos := v44, hp := v45, ops := v46, opGen := v47, bz := v48, rv := v49, mg := v51, sv := v52, pwr := v53, evq := v54, complq := v55, laneWaits := v56, reports := v57, telq := v58 } = x := by
  rw [← h]; simp only [Dev.hide, testBit_of_land hm (k := 3) rfl, testBit_of_land hm (k := 4) rfl, testBit_of_land hm (k := 5) rfl, testBit_of_land hm (k := 6) rfl, testBit_of_land hm (k := 8) rfl, testBit_of_land hm (k := 9) rfl, testBit_of_land hm (k := 12) rfl, testBit_of_land hm (k := 16) rfl, testBit_of_land hm (k := 17) rfl, testBit_of_land hm (k := 18) rfl, testBit_of_land hm (k := 20) rfl, testBit_of_land hm (k := 21) rfl, testBit_of_land hm (k := 22) rfl, testBit_of_land hm (k := 23) rfl, testBit_of_land hm (k := 24) rfl, testBit_of_land hm (k := 26) rfl, testBit_of_land hm (k := 28) rfl, testBit_of_land hm (k := 36) rfl, testBit_of_land hm (k := 37) rfl, testBit_of_land hm (k := 38) rfl, testBit_of_land hm (k := 39) rfl, testBit_of_land hm (k := 40) rfl, testBit_of_land hm (k := 41) rfl, testBit_of_land hm (k := 42) rfl, testBit_of_land hm (k := 43) rfl, testBit_of_land hm (k := 44) rfl, testBit_of_land hm (k := 45) rfl, testBit_of_land hm (k := 46) rfl, testBit_of_land hm (k := 47) rfl, testBit_of_land hm (k := 48) rfl, testBit_of_land hm (k := 49) rfl, testBit_of_land hm (k := 51) rfl, testBit_of_land hm (k := 52) rfl, testBit_of_land hm (k := 53) rfl, testBit_of_land hm (k := 54) rfl, testBit_of_land hm (k := 55) rfl, testBit_of_land hm (k := 56) rfl, testBit_of_land hm (k := 57) rfl, testBit_of_land hm (k := 58) rfl, cond_true]

theorem Dev.hide_upd_3_53 {m : Nat} (hm : 9007199254741000 &&& m = 9007199254741000) {x s : Dev} {v3 : Timebase} {v53 : Power}
    (h : Dev.hide m s = x) : Dev.hide m { s with tb := v3, pwr := v53 } = x := by
  rw [← h]; simp only [Dev.hide, testBit_of_land hm (k := 3) rfl, testBit_of_land hm (k := 53) rfl, cond_true]

theorem Dev.hide_upd_4 {m : Nat} (hm : 16 &&& m = 16) {x s : Dev} {v4 : CabLink}
    (h : Dev.hide m s = x) : Dev.hide m { s with linkA := v4 } = x := by
  rw [← h]; simp only [Dev.hide, testBit_of_land hm (k := 4) rfl, cond_true]

theorem Dev.hide_upd_4_5 {m : Nat} (hm : 48 &&& m = 48) {x s : Dev} {v4 : CabLink} {v5 : CabLink}
    (h : Dev.hide m s = x) : Dev.hide m { s with linkA := v4, linkB := v5 } = x := by
  rw [← h]; simp only [Dev.hide, testBit_of_land hm (k := 4) rfl, testBit_of_land hm (k := 5) rfl, cond_true]

theorem Dev.hide_upd_5 {m : Nat} (hm : 32 &&& m = 32) {x s : Dev} {v5 : CabLink}
    (h : Dev.hide m s = x) : Dev.hide m { s with linkB := v5 } = x := by
  rw [← h]; simp only [Dev.hide, testBit_of_land hm (k := 5) rfl, cond_true]

theorem Dev.hide_upd_6 {m : Nat} (hm : 64 &&& m = 64) {x s : Dev} {v6 : Ring}
    (h : Dev.hide m s = x) : Dev.hide m { s with ring := v6 } = x := by
  rw [← h]; simp only [Dev.hide, testBit_of_land hm (k := 6) rfl, cond_true]

theorem Dev.hide_upd_6_44 {m : Nat} (hm : 17592186044480 &&& m = 17592186044480) {x s : Dev} {v6 : Ring} {v44 : Nat}
    (h : Dev.hide m s = x) : Dev.hide m { s with ring := v6, ringPos := v44 } = x := by
  rw [← h]; simp only [Dev.hide, testBit_of_land hm (k := 6) rfl, testBit_of_land hm (k := 44) rfl, cond_true]

theorem Dev.hide_upd_7 {m : Nat} (hm : 128 &&& m = 128) {x s : Dev} {v7 : Sparse Replica}
    (h : Dev.hide m s = x) : Dev.hide m { s with replicas := v7 } = x := by
  rw [← h]; simp only [Dev.hide, testBit_of_land hm (k := 7) rfl, cond_true]

theorem Dev.hide_upd_7_27_29_33_34_50 {m : Nat} (hm : 1125926347735168 &&& m = 1125926347735168) {x s : Dev} {v7 : Sparse Replica} {v27 : Sparse Lane} {v29 : Sparse Aux} {v33 : Sparse Word} {v34 : Sparse (Word × Word)} {v50 : Sparse Towpath}
    (h : Dev.hide m s = x) : Dev.hide m { s with replicas := v7, lanes := v27, auxs := v29, prof := v33, profPend := v34, tows := v50 } = x := by
  rw [← h]; simp only [Dev.hide, testBit_of_land hm (k := 7) rfl, testBit_of_land hm (k := 27) rfl, testBit_of_land hm (k := 29) rfl, testBit_of_land hm (k := 33) rfl, testBit_of_land hm (k := 34) rfl, testBit_of_land hm (k := 50) rfl, cond_true]

theorem Dev.hide_upd_8 {m : Nat} (hm : 256 &&& m = 256) {x s : Dev} {v8 : LockUnit}
    (h : Dev.hide m s = x) : Dev.hide m { s with lk := v8 } = x := by
  rw [← h]; simp only [Dev.hide, testBit_of_land hm (k := 8) rfl, cond_true]

theorem Dev.hide_upd_9 {m : Nat} (hm : 512 &&& m = 512) {x s : Dev} {v9 : Sparse Cell}
    (h : Dev.hide m s = x) : Dev.hide m { s with cells := v9 } = x := by
  rw [← h]; simp only [Dev.hide, testBit_of_land hm (k := 9) rfl, cond_true]

theorem Dev.hide_upd_9_55_56 {m : Nat} (hm : 108086391056892416 &&& m = 108086391056892416) {x s : Dev} {v9 : Sparse Cell} {v55 : List Completion} {v56 : List LaneWait}
    (h : Dev.hide m s = x) : Dev.hide m { s with cells := v9, complq := v55, laneWaits := v56 } = x := by
  rw [← h]; simp only [Dev.hide, testBit_of_land hm (k := 9) rfl, testBit_of_land hm (k := 55) rfl, testBit_of_land hm (k := 56) rfl, cond_true]

theorem Dev.hide_upd_10 {m : Nat} (hm : 1024 &&& m = 1024) {x s : Dev} {v10 : Sparse Block}
    (h : Dev.hide m s = x) : Dev.hide m { s with blocks := v10 } = x := by
  rw [← h]; simp only [Dev.hide, testBit_of_land hm (k := 10) rfl, cond_true]

theorem Dev.hide_upd_11 {m : Nat} (hm : 2048 &&& m = 2048) {x s : Dev} {v11 : Sparse Region}
    (h : Dev.hide m s = x) : Dev.hide m { s with regions := v11 } = x := by
  rw [← h]; simp only [Dev.hide, testBit_of_land hm (k := 11) rfl, cond_true]

theorem Dev.hide_upd_12 {m : Nat} (hm : 4096 &&& m = 4096) {x s : Dev} {v12 : Sparse Barge}
    (h : Dev.hide m s = x) : Dev.hide m { s with barges := v12 } = x := by
  rw [← h]; simp only [Dev.hide, testBit_of_land hm (k := 12) rfl, cond_true]

theorem Dev.hide_upd_13 {m : Nat} (hm : 8192 &&& m = 8192) {x s : Dev} {v13 : Sparse Byte}
    (h : Dev.hide m s = x) : Dev.hide m { s with sram := v13 } = x := by
  rw [← h]; simp only [Dev.hide, testBit_of_land hm (k := 13) rfl, cond_true]

theorem Dev.hide_upd_14 {m : Nat} (hm : 16384 &&& m = 16384) {x s : Dev} {v14 : Sparse Byte}
    (h : Dev.hide m s = x) : Dev.hide m { s with rram := v14 } = x := by
  rw [← h]; simp only [Dev.hide, testBit_of_land hm (k := 14) rfl, cond_true]

theorem Dev.hide_upd_15 {m : Nat} (hm : 32768 &&& m = 32768) {x s : Dev} {v15 : Sparse Byte}
    (h : Dev.hide m s = x) : Dev.hide m { s with flash := v15 } = x := by
  rw [← h]; simp only [Dev.hide, testBit_of_land hm (k := 15) rfl, cond_true]

theorem Dev.hide_upd_16_53 {m : Nat} (hm : 9007199254806528 &&& m = 9007199254806528) {x s : Dev} {v16 : Nat} {v53 : Power}
    (h : Dev.hide m s = x) : Dev.hide m { s with rtSlot := v16, pwr := v53 } = x := by
  rw [← h]; simp only [Dev.hide, testBit_of_land hm (k := 16) rfl, testBit_of_land hm (k := 53) rfl, cond_true]

theorem Dev.hide_upd_17_53 {m : Nat} (hm : 9007199254872064 &&& m = 9007199254872064) {x s : Dev} {v17 : Nat} {v53 : Power}
    (h : Dev.hide m s = x) : Dev.hide m { s with custSlot := v17, pwr := v53 } = x := by
  rw [← h]; simp only [Dev.hide, testBit_of_land hm (k := 17) rfl, testBit_of_land hm (k := 53) rfl, cond_true]

theorem Dev.hide_upd_18 {m : Nat} (hm : 262144 &&& m = 262144) {x s : Dev} {v18 : DebugPort}
    (h : Dev.hide m s = x) : Dev.hide m { s with dbg := v18 } = x := by
  rw [← h]; simp only [Dev.hide, testBit_of_land hm (k := 18) rfl, cond_true]

theorem Dev.hide_upd_19 {m : Nat} (hm : 524288 &&& m = 524288) {x s : Dev} {v19 : Tap}
    (h : Dev.hide m s = x) : Dev.hide m { s with tap := v19 } = x := by
  rw [← h]; simp only [Dev.hide, testBit_of_land hm (k := 19) rfl, cond_true]

theorem Dev.hide_upd_20 {m : Nat} (hm : 1048576 &&& m = 1048576) {x s : Dev} {v20 : Sparse Node}
    (h : Dev.hide m s = x) : Dev.hide m { s with nodes := v20 } = x := by
  rw [← h]; simp only [Dev.hide, testBit_of_land hm (k := 20) rfl, cond_true]

theorem Dev.hide_upd_21 {m : Nat} (hm : 2097152 &&& m = 2097152) {x s : Dev} {v21 : DWord}
    (h : Dev.hide m s = x) : Dev.hide m { s with lvDone := v21 } = x := by
  rw [← h]; simp only [Dev.hide, testBit_of_land hm (k := 21) rfl, cond_true]

theorem Dev.hide_upd_21_45 {m : Nat} (hm : 35184374185984 &&& m = 35184374185984) {x s : Dev} {v21 : DWord} {v45 : HostPort}
    (h : Dev.hide m s = x) : Dev.hide m { s with lvDone := v21, hp := v45 } = x := by
  rw [← h]; simp only [Dev.hide, testBit_of_land hm (k := 21) rfl, testBit_of_land hm (k := 45) rfl, cond_true]

theorem Dev.hide_upd_22 {m : Nat} (hm : 4194304 &&& m = 4194304) {x s : Dev} {v22 : Byte}
    (h : Dev.hide m s = x) : Dev.hide m { s with rgnFail := v22 } = x := by
  rw [← h]; simp only [Dev.hide, testBit_of_land hm (k := 22) rfl, cond_true]

theorem Dev.hide_upd_22_23 {m : Nat} (hm : 12582912 &&& m = 12582912) {x s : Dev} {v22 : Byte} {v23 : Bool}
    (h : Dev.hide m s = x) : Dev.hide m { s with rgnFail := v22, badSize := v23 } = x := by
  rw [← h]; simp only [Dev.hide, testBit_of_land hm (k := 22) rfl, testBit_of_land hm (k := 23) rfl, cond_true]

theorem Dev.hide_upd_23 {m : Nat} (hm : 8388608 &&& m = 8388608) {x s : Dev} {v23 : Bool}
    (h : Dev.hide m s = x) : Dev.hide m { s with badSize := v23 } = x := by
  rw [← h]; simp only [Dev.hide, testBit_of_land hm (k := 23) rfl, cond_true]

theorem Dev.hide_upd_24 {m : Nat} (hm : 16777216 &&& m = 16777216) {x s : Dev} {v24 : Nat}
    (h : Dev.hide m s = x) : Dev.hide m { s with rsvdWrites := v24 } = x := by
  rw [← h]; simp only [Dev.hide, testBit_of_land hm (k := 24) rfl, cond_true]

theorem Dev.hide_upd_25 {m : Nat} (hm : 33554432 &&& m = 33554432) {x s : Dev} {v25 : Sparse Slice}
    (h : Dev.hide m s = x) : Dev.hide m { s with slices := v25 } = x := by
  rw [← h]; simp only [Dev.hide, testBit_of_land hm (k := 25) rfl, cond_true]

theorem Dev.hide_upd_25_26 {m : Nat} (hm : 100663296 &&& m = 100663296) {x s : Dev} {v25 : Sparse Slice} {v26 : List SliceRec}
    (h : Dev.hide m s = x) : Dev.hide m { s with slices := v25, sliceQ := v26 } = x := by
  rw [← h]; simp only [Dev.hide, testBit_of_land hm (k := 25) rfl, testBit_of_land hm (k := 26) rfl, cond_true]

theorem Dev.hide_upd_26 {m : Nat} (hm : 67108864 &&& m = 67108864) {x s : Dev} {v26 : List SliceRec}
    (h : Dev.hide m s = x) : Dev.hide m { s with sliceQ := v26 } = x := by
  rw [← h]; simp only [Dev.hide, testBit_of_land hm (k := 26) rfl, cond_true]

theorem Dev.hide_upd_27 {m : Nat} (hm : 134217728 &&& m = 134217728) {x s : Dev} {v27 : Sparse Lane}
    (h : Dev.hide m s = x) : Dev.hide m { s with lanes := v27 } = x := by
  rw [← h]; simp only [Dev.hide, testBit_of_land hm (k := 27) rfl, cond_true]

theorem Dev.hide_upd_28 {m : Nat} (hm : 268435456 &&& m = 268435456) {x s : Dev} {v28 : Sparse Conv}
    (h : Dev.hide m s = x) : Dev.hide m { s with convs := v28 } = x := by
  rw [← h]; simp only [Dev.hide, testBit_of_land hm (k := 28) rfl, cond_true]

theorem Dev.hide_upd_29 {m : Nat} (hm : 536870912 &&& m = 536870912) {x s : Dev} {v29 : Sparse Aux}
    (h : Dev.hide m s = x) : Dev.hide m { s with auxs := v29 } = x := by
  rw [← h]; simp only [Dev.hide, testBit_of_land hm (k := 29) rfl, cond_true]

theorem Dev.hide_upd_30 {m : Nat} (hm : 1073741824 &&& m = 1073741824) {x s : Dev} {v30 : Sparse CalSlot}
    (h : Dev.hide m s = x) : Dev.hide m { s with calSlots := v30 } = x := by
  rw [← h]; simp only [Dev.hide, testBit_of_land hm (k := 30) rfl, cond_true]

theorem Dev.hide_upd_31 {m : Nat} (hm : 2147483648 &&& m = 2147483648) {x s : Dev} {v31 : Sparse Word}
    (h : Dev.hide m s = x) : Dev.hide m { s with regs := v31 } = x := by
  rw [← h]; simp only [Dev.hide, testBit_of_land hm (k := 31) rfl, cond_true]

theorem Dev.hide_upd_31_32 {m : Nat} (hm : 6442450944 &&& m = 6442450944) {x s : Dev} {v31 : Sparse Word} {v32 : Sparse (Word × Word)}
    (h : Dev.hide m s = x) : Dev.hide m { s with regs := v31, regsPend := v32 } = x := by
  rw [← h]; simp only [Dev.hide, testBit_of_land hm (k := 31) rfl, testBit_of_land hm (k := 32) rfl, cond_true]

theorem Dev.hide_upd_32 {m : Nat} (hm : 4294967296 &&& m = 4294967296) {x s : Dev} {v32 : Sparse (Word × Word)}
    (h : Dev.hide m s = x) : Dev.hide m { s with regsPend := v32 } = x := by
  rw [← h]; simp only [Dev.hide, testBit_of_land hm (k := 32) rfl, cond_true]

theorem Dev.hide_upd_33 {m : Nat} (hm : 8589934592 &&& m = 8589934592) {x s : Dev} {v33 : Sparse Word}
    (h : Dev.hide m s = x) : Dev.hide m { s with prof := v33 } = x := by
  rw [← h]; simp only [Dev.hide, testBit_of_land hm (k := 33) rfl, cond_true]

theorem Dev.hide_upd_33_34 {m : Nat} (hm : 25769803776 &&& m = 25769803776) {x s : Dev} {v33 : Sparse Word} {v34 : Sparse (Word × Word)}
    (h : Dev.hide m s = x) : Dev.hide m { s with prof := v33, profPend := v34 } = x := by
  rw [← h]; simp only [Dev.hide, testBit_of_land hm (k := 33) rfl, testBit_of_land hm (k := 34) rfl, cond_true]

theorem Dev.hide_upd_34 {m : Nat} (hm : 17179869184 &&& m = 17179869184) {x s : Dev} {v34 : Sparse (Word × Word)}
    (h : Dev.hide m s = x) : Dev.hide m { s with profPend := v34 } = x := by
  rw [← h]; simp only [Dev.hide, testBit_of_land hm (k := 34) rfl, cond_true]

theorem Dev.hide_upd_35 {m : Nat} (hm : 34359738368 &&& m = 34359738368) {x s : Dev} {v35 : Sparse Coll}
    (h : Dev.hide m s = x) : Dev.hide m { s with colls := v35 } = x := by
  rw [← h]; simp only [Dev.hide, testBit_of_land hm (k := 35) rfl, cond_true]

theorem Dev.hide_upd_36 {m : Nat} (hm : 68719476736 &&& m = 68719476736) {x s : Dev} {v36 : ErrN}
    (h : Dev.hide m s = x) : Dev.hide m { s with err := v36 } = x := by
  rw [← h]; simp only [Dev.hide, testBit_of_land hm (k := 36) rfl, cond_true]

theorem Dev.hide_upd_37 {m : Nat} (hm : 137438953472 &&& m = 137438953472) {x s : Dev} {v37 : Sluice}
    (h : Dev.hide m s = x) : Dev.hide m { s with sluice := v37 } = x := by
  rw [← h]; simp only [Dev.hide, testBit_of_land hm (k := 37) rfl, cond_true]

theorem Dev.hide_upd_37_38 {m : Nat} (hm : 412316860416 &&& m = 412316860416) {x s : Dev} {v37 : Sluice} {v38 : List SlMsg}
    (h : Dev.hide m s = x) : Dev.hide m { s with sluice := v37, slMsgs := v38 } = x := by
  rw [← h]; simp only [Dev.hide, testBit_of_land hm (k := 37) rfl, testBit_of_land hm (k := 38) rfl, cond_true]

theorem Dev.hide_upd_37_38_39 {m : Nat} (hm : 962072674304 &&& m = 962072674304) {x s : Dev} {v37 : Sluice} {v38 : List SlMsg} {v39 : List Grant}
    (h : Dev.hide m s = x) : Dev.hide m { s with sluice := v37, slMsgs := v38, grants := v39 } = x := by
  rw [← h]; simp only [Dev.hide, testBit_of_land hm (k := 37) rfl, testBit_of_land hm (k := 38) rfl, testBit_of_land hm (k := 39) rfl, cond_true]

theorem Dev.hide_upd_37_39 {m : Nat} (hm : 687194767360 &&& m = 687194767360) {x s : Dev} {v37 : Sluice} {v39 : List Grant}
    (h : Dev.hide m s = x) : Dev.hide m { s with sluice := v37, grants := v39 } = x := by
  rw [← h]; simp only [Dev.hide, testBit_of_land hm (k := 37) rfl, testBit_of_land hm (k := 39) rfl, cond_true]

theorem Dev.hide_upd_38 {m : Nat} (hm : 274877906944 &&& m = 274877906944) {x s : Dev} {v38 : List SlMsg}
    (h : Dev.hide m s = x) : Dev.hide m { s with slMsgs := v38 } = x := by
  rw [← h]; simp only [Dev.hide, testBit_of_land hm (k := 38) rfl, cond_true]

theorem Dev.hide_upd_39 {m : Nat} (hm : 549755813888 &&& m = 549755813888) {x s : Dev} {v39 : List Grant}
    (h : Dev.hide m s = x) : Dev.hide m { s with grants := v39 } = x := by
  rw [← h]; simp only [Dev.hide, testBit_of_land hm (k := 39) rfl, cond_true]

theorem Dev.hide_upd_40_41 {m : Nat} (hm : 3298534883328 &&& m = 3298534883328) {x s : Dev} {v40 : Nat} {v41 : Nat}
    (h : Dev.hide m s = x) : Dev.hide m { s with mirror := v40, mirrorStale := v41 } = x := by
  rw [← h]; simp only [Dev.hide, testBit_of_land hm (k := 40) rfl, testBit_of_land hm (k := 41) rfl, cond_true]

theorem Dev.hide_upd_41 {m : Nat} (hm : 2199023255552 &&& m = 2199023255552) {x s : Dev} {v41 : Nat}
    (h : Dev.hide m s = x) : Dev.hide m { s with mirrorStale := v41 } = x := by
  rw [← h]; simp only [Dev.hide, testBit_of_land hm (k := 41) rfl, cond_true]

theorem Dev.hide_upd_42 {m : Nat} (hm : 4398046511104 &&& m = 4398046511104) {x s : Dev} {v42 : List (Nat × Nat)}
    (h : Dev.hide m s = x) : Dev.hide m { s with fwdMem := v42 } = x := by
  rw [← h]; simp only [Dev.hide, testBit_of_land hm (k := 42) rfl, cond_true]

theorem Dev.hide_upd_43 {m : Nat} (hm : 8796093022208 &&& m = 8796093022208) {x s : Dev} {v43 : Nat}
    (h : Dev.hide m s = x) : Dev.hide m { s with tripSeq := v43 } = x := by
  rw [← h]; simp only [Dev.hide, testBit_of_land hm (k := 43) rfl, cond_true]

theorem Dev.hide_upd_45 {m : Nat} (hm : 35184372088832 &&& m = 35184372088832) {x s : Dev} {v45 : HostPort}
    (h : Dev.hide m s = x) : Dev.hide m { s with hp := v45 } = x := by
  rw [← h]; simp only [Dev.hide, testBit_of_land hm (k := 45) rfl, cond_true]

theorem Dev.hide_upd_45_53 {m : Nat} (hm : 9042383626829824 &&& m = 9042383626829824) {x s : Dev} {v45 : HostPort} {v53 : Power}
    (h : Dev.hide m s = x) : Dev.hide m { s with hp := v45, pwr := v53 } = x := by
  rw [← h]; simp only [Dev.hide, testBit_of_land hm (k := 45) rfl, testBit_of_land hm (k := 53) rfl, cond_true]

theorem Dev.hide_upd_46 {m : Nat} (hm : 70368744177664 &&& m = 70368744177664) {x s : Dev} {v46 : Sparse (Option Op)}
    (h : Dev.hide m s = x) : Dev.hide m { s with ops := v46 } = x := by
  rw [← h]; simp only [Dev.hide, testBit_of_land hm (k := 46) rfl, cond_true]

theorem Dev.hide_upd_47 {m : Nat} (hm : 140737488355328 &&& m = 140737488355328) {x s : Dev} {v47 : Sparse Nat}
    (h : Dev.hide m s = x) : Dev.hide m { s with opGen := v47 } = x := by
  rw [← h]; simp only [Dev.hide, testBit_of_land hm (k := 47) rfl, cond_true]

theorem Dev.hide_upd_48 {m : Nat} (hm : 281474976710656 &&& m = 281474976710656) {x s : Dev} {v48 : Basin}
    (h : Dev.hide m s = x) : Dev.hide m { s with bz := v48 } = x := by
  rw [← h]; simp only [Dev.hide, testBit_of_land hm (k := 48) rfl, cond_true]

theorem Dev.hide_upd_49 {m : Nat} (hm : 562949953421312 &&& m = 562949953421312) {x s : Dev} {v49 : Reserve}
    (h : Dev.hide m s = x) : Dev.hide m { s with rv := v49 } = x := by
  rw [← h]; simp only [Dev.hide, testBit_of_land hm (k := 49) rfl, cond_true]

theorem Dev.hide_upd_49_53 {m : Nat} (hm : 9570149208162304 &&& m = 9570149208162304) {x s : Dev} {v49 : Reserve} {v53 : Power}
    (h : Dev.hide m s = x) : Dev.hide m { s with rv := v49, pwr := v53 } = x := by
  rw [← h]; simp only [Dev.hide, testBit_of_land hm (k := 49) rfl, testBit_of_land hm (k := 53) rfl, cond_true]

theorem Dev.hide_upd_50 {m : Nat} (hm : 1125899906842624 &&& m = 1125899906842624) {x s : Dev} {v50 : Sparse Towpath}
    (h : Dev.hide m s = x) : Dev.hide m { s with tows := v50 } = x := by
  rw [← h]; simp only [Dev.hide, testBit_of_land hm (k := 50) rfl, cond_true]

theorem Dev.hide_upd_51 {m : Nat} (hm : 2251799813685248 &&& m = 2251799813685248) {x s : Dev} {v51 : Mgmt}
    (h : Dev.hide m s = x) : Dev.hide m { s with mg := v51 } = x := by
  rw [← h]; simp only [Dev.hide, testBit_of_land hm (k := 51) rfl, cond_true]

theorem Dev.hide_upd_51_53 {m : Nat} (hm : 11258999068426240 &&& m = 11258999068426240) {x s : Dev} {v51 : Mgmt} {v53 : Power}
    (h : Dev.hide m s = x) : Dev.hide m { s with mg := v51, pwr := v53 } = x := by
  rw [← h]; simp only [Dev.hide, testBit_of_land hm (k := 51) rfl, testBit_of_land hm (k := 53) rfl, cond_true]

theorem Dev.hide_upd_52 {m : Nat} (hm : 4503599627370496 &&& m = 4503599627370496) {x s : Dev} {v52 : Supervisor}
    (h : Dev.hide m s = x) : Dev.hide m { s with sv := v52 } = x := by
  rw [← h]; simp only [Dev.hide, testBit_of_land hm (k := 52) rfl, cond_true]

theorem Dev.hide_upd_53 {m : Nat} (hm : 9007199254740992 &&& m = 9007199254740992) {x s : Dev} {v53 : Power}
    (h : Dev.hide m s = x) : Dev.hide m { s with pwr := v53 } = x := by
  rw [← h]; simp only [Dev.hide, testBit_of_land hm (k := 53) rfl, cond_true]

theorem Dev.hide_upd_54 {m : Nat} (hm : 18014398509481984 &&& m = 18014398509481984) {x s : Dev} {v54 : List Event}
    (h : Dev.hide m s = x) : Dev.hide m { s with evq := v54 } = x := by
  rw [← h]; simp only [Dev.hide, testBit_of_land hm (k := 54) rfl, cond_true]

theorem Dev.hide_upd_55 {m : Nat} (hm : 36028797018963968 &&& m = 36028797018963968) {x s : Dev} {v55 : List Completion}
    (h : Dev.hide m s = x) : Dev.hide m { s with complq := v55 } = x := by
  rw [← h]; simp only [Dev.hide, testBit_of_land hm (k := 55) rfl, cond_true]

theorem Dev.hide_upd_56 {m : Nat} (hm : 72057594037927936 &&& m = 72057594037927936) {x s : Dev} {v56 : List LaneWait}
    (h : Dev.hide m s = x) : Dev.hide m { s with laneWaits := v56 } = x := by
  rw [← h]; simp only [Dev.hide, testBit_of_land hm (k := 56) rfl, cond_true]

theorem Dev.hide_upd_57 {m : Nat} (hm : 144115188075855872 &&& m = 144115188075855872) {x s : Dev} {v57 : List Report}
    (h : Dev.hide m s = x) : Dev.hide m { s with reports := v57 } = x := by
  rw [← h]; simp only [Dev.hide, testBit_of_land hm (k := 57) rfl, cond_true]

theorem Dev.hide_upd_58 {m : Nat} (hm : 288230376151711744 &&& m = 288230376151711744) {x s : Dev} {v58 : List Tel}
    (h : Dev.hide m s = x) : Dev.hide m { s with telq := v58 } = x := by
  rw [← h]; simp only [Dev.hide, testBit_of_land hm (k := 58) rfl, cond_true]

theorem Dev.hide_upd_59 {m : Nat} (hm : 576460752303423488 &&& m = 576460752303423488) {x s : Dev} {v59 : List Out}
    (h : Dev.hide m s = x) : Dev.hide m { s with out := v59 } = x := by
  rw [← h]; simp only [Dev.hide, testBit_of_land hm (k := 59) rfl, cond_true]

theorem Dev.hide_keeps {m : Nat} {s t : Dev} (h : Dev.hide m t = Dev.hide m s) (p : Part)
    (hp : m.testBit p.ctorIdx = false) : s.samePart t p := by
  simp only [Dev.hide, Dev.mk.injEq] at h
  cases p <;> simp_all [Dev.samePart, Part.ctorIdx]

end Sys2Proof.Machine
end

