-- ==== Sys2Proof/Laws/FrameA.lean ====
section
/-! SUPPORT. Frames of the operations and the meanings, in the order they call each other: which parts of the device each
changes at most. File 1 of 7. -/

set_option linter.unreachableTactic false
set_option linter.unusedTactic false

namespace Sys2Proof.Machine

theorem Dev.setBarge_hide {m : Nat} (hm : 4096 &&& m = 4096) {x : Dev} (s : Dev) (e : Nat) (v : Barge)
    (h : Dev.hide m s = x) : Dev.hide m (Dev.setBarge s e v) = x := by
  unfold Dev.setBarge
  repeat' first
    | with_reducible assumption
    | intro _
    | extract_lets
    | with_reducible apply hide_ite
    | with_reducible apply hide_next
    | (split
       all_goals try (rename_i heq
                      have h2 := congrArg Prod.snd heq
                      have h1 := congrArg Prod.fst heq
                      dsimp only at h1 h2
                      subst h1 h2
                      clear heq))
    | with_reducible apply Dev.hide_upd_12 (land_trans rfl hm)
    | dsimp only [Lock.count]
    | dsimp +zetaDelta only

theorem Dev.modBarge_hide {m : Nat} (hm : 4096 &&& m = 4096) {x : Dev} (s : Dev) (e : Nat) (f : Barge → Barge)
    (h : Dev.hide m s = x) : Dev.hide m (Dev.modBarge s e f) = x := by
  unfold Dev.modBarge
  repeat' first
    | with_reducible assumption
    | intro _
    | extract_lets
    | with_reducible apply hide_ite
    | with_reducible apply hide_next
    | with_reducible apply Dev.setBarge_hide (land_trans rfl hm)
    | (split
       all_goals try (rename_i heq
                      have h2 := congrArg Prod.snd heq
                      have h1 := congrArg Prod.fst heq
                      dsimp only at h1 h2
                      subst h1 h2
                      clear heq))
    | dsimp only [Lock.count]
    | dsimp +zetaDelta only

theorem Dev.setColl_hide {m : Nat} (hm : 34359738368 &&& m = 34359738368) {x : Dev} (s : Dev) (k : Nat) (v : Coll)
    (h : Dev.hide m s = x) : Dev.hide m (Dev.setColl s k v) = x := by
  unfold Dev.setColl
  repeat' first
    | with_reducible assumption
    | intro _
    | extract_lets
    | with_reducible apply hide_ite
    | with_reducible apply hide_next
    | (split
       all_goals try (rename_i heq
                      have h2 := congrArg Prod.snd heq
                      have h1 := congrArg Prod.fst heq
                      dsimp only at h1 h2
                      subst h1 h2
                      clear heq))
    | with_reducible apply Dev.hide_upd_35 (land_trans rfl hm)
    | dsimp only [Lock.count]
    | dsimp +zetaDelta only

theorem Dev.noteEvent_hide {m : Nat} (hm : 34359738368 &&& m = 34359738368) {x : Dev} (s : Dev) (k : Nat) (src : Nat) (n : Nat) (inj : Bool)
    (h : Dev.hide m s = x) : Dev.hide m (Dev.noteEvent s k src n inj) = x := by
  unfold Dev.noteEvent
  repeat' first
    | with_reducible assumption
    | intro _
    | extract_lets
    | with_reducible apply hide_ite
    | with_reducible apply hide_next
    | with_reducible apply Dev.setColl_hide (land_trans rfl hm)
    | (split
       all_goals try (rename_i heq
                      have h2 := congrArg Prod.snd heq
                      have h1 := congrArg Prod.fst heq
                      dsimp only at h1 h2
                      subst h1 h2
                      clear heq))
    | dsimp only [Lock.count]
    | dsimp +zetaDelta only

theorem Dev.modColl_hide {m : Nat} (hm : 34359738368 &&& m = 34359738368) {x : Dev} (s : Dev) (k : Nat) (f : Coll → Coll)
    (h : Dev.hide m s = x) : Dev.hide m (Dev.modColl s k f) = x := by
  unfold Dev.modColl
  repeat' first
    | with_reducible assumption
    | intro _
    | extract_lets
    | with_reducible apply hide_ite
    | with_reducible apply hide_next
    | with_reducible apply Dev.setColl_hide (land_trans rfl hm)
    | (split
       all_goals try (rename_i heq
                      have h2 := congrArg Prod.snd heq
                      have h1 := congrArg Prod.fst heq
                      dsimp only at h1 h2
                      subst h1 h2
                      clear heq))
    | dsimp only [Lock.count]
    | dsimp +zetaDelta only

theorem Dev.raise_hide {m : Nat} (hm : 18014398509481984 &&& m = 18014398509481984) {x : Dev} (s : Dev) (e : Event)
    (h : Dev.hide m s = x) : Dev.hide m (Dev.raise s e) = x := by
  unfold Dev.raise
  repeat' first
    | with_reducible assumption
    | intro _
    | extract_lets
    | with_reducible apply hide_ite
    | with_reducible apply hide_next
    | (split
       all_goals try (rename_i heq
                      have h2 := congrArg Prod.snd heq
                      have h1 := congrArg Prod.fst heq
                      dsimp only at h1 h2
                      subst h1 h2
                      clear heq))
    | with_reducible apply Dev.hide_upd_54 (land_trans rfl hm)
    | dsimp only [Lock.count]
    | dsimp +zetaDelta only

theorem Dev.setRegion_hide {m : Nat} (hm : 2048 &&& m = 2048) {x : Dev} (s : Dev) (g : Nat) (v : Region)
    (h : Dev.hide m s = x) : Dev.hide m (Dev.setRegion s g v) = x := by
  unfold Dev.setRegion
  repeat' first
    | with_reducible assumption
    | intro _
    | extract_lets
    | with_reducible apply hide_ite
    | with_reducible apply hide_next
    | (split
       all_goals try (rename_i heq
                      have h2 := congrArg Prod.snd heq
                      have h1 := congrArg Prod.fst heq
                      dsimp only at h1 h2
                      subst h1 h2
                      clear heq))
    | with_reducible apply Dev.hide_upd_11 (land_trans rfl hm)
    | dsimp only [Lock.count]
    | dsimp +zetaDelta only

theorem Dev.modRegion_hide {m : Nat} (hm : 2048 &&& m = 2048) {x : Dev} (s : Dev) (g : Nat) (f : Region → Region)
    (h : Dev.hide m s = x) : Dev.hide m (Dev.modRegion s g f) = x := by
  unfold Dev.modRegion
  repeat' first
    | with_reducible assumption
    | intro _
    | extract_lets
    | with_reducible apply hide_ite
    | with_reducible apply hide_next
    | with_reducible apply Dev.setRegion_hide (land_trans rfl hm)
    | (split
       all_goals try (rename_i heq
                      have h2 := congrArg Prod.snd heq
                      have h1 := congrArg Prod.fst heq
                      dsimp only at h1 h2
                      subst h1 h2
                      clear heq))
    | dsimp only [Lock.count]
    | dsimp +zetaDelta only

theorem Dev.raiseIsland_hide {m : Nat} (hm : 18014398509484032 &&& m = 18014398509484032) {x : Dev} (s : Dev) (g : Nat) (hold : Bool) (e : Event)
    (h : Dev.hide m s = x) : Dev.hide m (Dev.raiseIsland s g hold e) = x := by
  unfold Dev.raiseIsland
  repeat' first
    | with_reducible assumption
    | intro _
    | extract_lets
    | with_reducible apply hide_ite
    | with_reducible apply hide_next
    | with_reducible apply Dev.modRegion_hide (land_trans rfl hm)
    | with_reducible apply Dev.raise_hide (land_trans rfl hm)
    | (split
       all_goals try (rename_i heq
                      have h2 := congrArg Prod.snd heq
                      have h1 := congrArg Prod.fst heq
                      dsimp only at h1 h2
                      subst h1 h2
                      clear heq))
    | dsimp only [Lock.count]
    | dsimp +zetaDelta only

theorem Dev.collEvent_hide {m : Nat} (hm : 18014398509484032 &&& m = 18014398509484032) {x : Dev} (s : Dev) (k : Nat) (code : Nat) (flag : Bool) (payload : List Word)
    (h : Dev.hide m s = x) : Dev.hide m (Dev.collEvent s k code flag payload) = x := by
  unfold Dev.collEvent
  repeat' first
    | with_reducible assumption
    | intro _
    | extract_lets
    | with_reducible apply hide_ite
    | with_reducible apply hide_next
    | with_reducible apply Dev.raiseIsland_hide (land_trans rfl hm)
    | with_reducible apply Dev.raise_hide (land_trans rfl hm)
    | (split
       all_goals try (rename_i heq
                      have h2 := congrArg Prod.snd heq
                      have h1 := congrArg Prod.fst heq
                      dsimp only at h1 h2
                      subst h1 h2
                      clear heq))
    | dsimp only [Lock.count]
    | dsimp +zetaDelta only

theorem Dev.irq_hide {m : Nat} (hm : 4096 &&& m = 4096) {x : Dev} (s : Dev) (e : Nat) (n : Nat)
    (h : Dev.hide m s = x) : Dev.hide m (Dev.irq s e n) = x := by
  unfold Dev.irq
  repeat' first
    | with_reducible assumption
    | intro _
    | extract_lets
    | with_reducible apply hide_ite
    | with_reducible apply hide_next
    | with_reducible apply Dev.modBarge_hide (land_trans rfl hm)
    | (split
       all_goals try (rename_i heq
                      have h2 := congrArg Prod.snd heq
                      have h1 := congrArg Prod.fst heq
                      dsimp only at h1 h2
                      subst h1 h2
                      clear heq))
    | dsimp only [Lock.count]
    | dsimp +zetaDelta only

theorem Dev.forEach_hide {m : Nat} (hm : 0 &&& m = 0) {x : Dev} {α : Type} (l : List α) (f : Dev → α → Dev) (s : Dev) (h_f : ∀ u0 u1 y, Dev.hide m u0 = y → Dev.hide m (f u0 u1) = y)
    (h : Dev.hide m s = x) : Dev.hide m (Dev.forEach l f s) = x := by
  unfold Dev.forEach
  repeat' first
    | with_reducible assumption
    | intro _
    | extract_lets
    | with_reducible apply hide_ite
    | with_reducible apply hide_next
    | with_reducible apply h_f
    | with_reducible apply hide_foldl
    | with_reducible apply hide_foldl2
    | with_reducible apply hide_foldl3
    | with_reducible apply hide_foldl4
    | (split
       all_goals try (rename_i heq
                      have h2 := congrArg Prod.snd heq
                      have h1 := congrArg Prod.fst heq
                      dsimp only at h1 h2
                      subst h1 h2
                      clear heq))
    | dsimp only [Lock.count]
    | dsimp +zetaDelta only

theorem Dev.irqAll_hide {m : Nat} (hm : 4096 &&& m = 4096) {x : Dev} (s : Dev) (n : Nat)
    (h : Dev.hide m s = x) : Dev.hide m (Dev.irqAll s n) = x := by
  unfold Dev.irqAll
  repeat' first
    | with_reducible assumption
    | intro _
    | extract_lets
    | with_reducible apply hide_ite
    | with_reducible apply hide_next
    | with_reducible apply Dev.forEach_hide (land_trans rfl hm)
    | with_reducible apply Dev.irq_hide (land_trans rfl hm)
    | (split
       all_goals try (rename_i heq
                      have h2 := congrArg Prod.snd heq
                      have h1 := congrArg Prod.fst heq
                      dsimp only at h1 h2
                      subst h1 h2
                      clear heq))
    | dsimp only [Lock.count]
    | dsimp +zetaDelta only

theorem Dev.irqRegion_hide {m : Nat} (hm : 4096 &&& m = 4096) {x : Dev} (s : Dev) (g : Nat) (n : Nat)
    (h : Dev.hide m s = x) : Dev.hide m (Dev.irqRegion s g n) = x := by
  unfold Dev.irqRegion
  repeat' first
    | with_reducible assumption
    | intro _
    | extract_lets
    | with_reducible apply hide_ite
    | with_reducible apply hide_next
    | with_reducible apply Dev.forEach_hide (land_trans rfl hm)
    | with_reducible apply Dev.irq_hide (land_trans rfl hm)
    | (split
       all_goals try (rename_i heq
                      have h2 := congrArg Prod.snd heq
                      have h1 := congrArg Prod.fst heq
                      dsimp only at h1 h2
                      subst h1 h2
                      clear heq))
    | dsimp only [Lock.count]
    | dsimp +zetaDelta only

theorem Dev.faultEvent_hide {m : Nat} (hm : 18014398509488128 &&& m = 18014398509488128) {x : Dev} (s : Dev) (k : Nat) (flag : Bool) (e : HistEntry)
    (h : Dev.hide m s = x) : Dev.hide m (Dev.faultEvent s k flag e) = x := by
  unfold Dev.faultEvent
  repeat' first
    | with_reducible assumption
    | intro _
    | extract_lets
    | with_reducible apply hide_ite
    | with_reducible apply hide_next
    | with_reducible apply Dev.irqRegion_hide (land_trans rfl hm)
    | with_reducible apply Dev.irqAll_hide (land_trans rfl hm)
    | with_reducible apply Dev.collEvent_hide (land_trans rfl hm)
    | (split
       all_goals try (rename_i heq
                      have h2 := congrArg Prod.snd heq
                      have h1 := congrArg Prod.fst heq
                      dsimp only at h1 h2
                      subst h1 h2
                      clear heq))
    | dsimp only [Lock.count]
    | dsimp +zetaDelta only

theorem Dev.history_hide {m : Nat} (hm : 18014432869222400 &&& m = 18014432869222400) {x : Dev} (s : Dev) (k : Nat) (e : HistEntry)
    (h : Dev.hide m s = x) : Dev.hide m (Dev.history s k e) = x := by
  unfold Dev.history
  repeat' first
    | with_reducible assumption
    | intro _
    | extract_lets
    | with_reducible apply hide_ite
    | with_reducible apply hide_next
    | with_reducible apply Dev.collEvent_hide (land_trans rfl hm)
    | with_reducible apply Dev.setColl_hide (land_trans rfl hm)
    | (split
       all_goals try (rename_i heq
                      have h2 := congrArg Prod.snd heq
                      have h1 := congrArg Prod.fst heq
                      dsimp only at h1 h2
                      subst h1 h2
                      clear heq))
    | dsimp only [Lock.count]
    | dsimp +zetaDelta only

theorem Dev.unoccur_hide {m : Nat} (hm : 18014432869226496 &&& m = 18014432869226496) {x : Dev} (s : Dev) (k : Nat) (src : Nat)
    (h : Dev.hide m s = x) : Dev.hide m (Dev.unoccur s k src) = x := by
  unfold Dev.unoccur
  repeat' first
    | with_reducible assumption
    | intro _
    | extract_lets
    | with_reducible apply hide_ite
    | with_reducible apply hide_next
    | with_reducible apply Dev.history_hide (land_trans rfl hm)
    | with_reducible apply Dev.faultEvent_hide (land_trans rfl hm)
    | with_reducible apply Dev.setColl_hide (land_trans rfl hm)
    | (split
       all_goals try (rename_i heq
                      have h2 := congrArg Prod.snd heq
                      have h1 := congrArg Prod.fst heq
                      dsimp only at h1 h2
                      subst h1 h2
                      clear heq))
    | dsimp only [Lock.count]
    | dsimp +zetaDelta only

theorem Dev.latchedCheck_hide {m : Nat} (hm : 18014432869226496 &&& m = 18014432869226496) {x : Dev} (s : Dev) (b : Nat)
    (h : Dev.hide m s = x) : Dev.hide m (Dev.latchedCheck s b) = x := by
  unfold Dev.latchedCheck
  repeat' first
    | with_reducible assumption
    | intro _
    | extract_lets
    | with_reducible apply hide_ite
    | with_reducible apply hide_next
    | with_reducible apply Dev.unoccur_hide (land_trans rfl hm)
    | (split
       all_goals try (rename_i heq
                      have h2 := congrArg Prod.snd heq
                      have h1 := congrArg Prod.fst heq
                      dsimp only at h1 h2
                      subst h1 h2
                      clear heq))
    | dsimp only [Lock.count]
    | dsimp +zetaDelta only

theorem Dev.cellEvent_hide {m : Nat} (hm : 18014398509484032 &&& m = 18014398509484032) {x : Dev} (s : Dev) (c : Nat) (maskBit : Nat) (code : Nat) (flag : Bool) (payload : List Word)
    (h : Dev.hide m s = x) : Dev.hide m (Dev.cellEvent s c maskBit code flag payload) = x := by
  unfold Dev.cellEvent
  repeat' first
    | with_reducible assumption
    | intro _
    | extract_lets
    | with_reducible apply hide_ite
    | with_reducible apply hide_next
    | with_reducible apply Dev.raiseIsland_hide (land_trans rfl hm)
    | (split
       all_goals try (rename_i heq
                      have h2 := congrArg Prod.snd heq
                      have h1 := congrArg Prod.fst heq
                      dsimp only at h1 h2
                      subst h1 h2
                      clear heq))
    | dsimp only [Lock.count]
    | dsimp +zetaDelta only

theorem Dev.setLane_hide {m : Nat} (hm : 134217728 &&& m = 134217728) {x : Dev} (s : Dev) (c : Nat) (v : Lane)
    (h : Dev.hide m s = x) : Dev.hide m (Dev.setLane s c v) = x := by
  unfold Dev.setLane
  repeat' first
    | with_reducible assumption
    | intro _
    | extract_lets
    | with_reducible apply hide_ite
    | with_reducible apply hide_next
    | (split
       all_goals try (rename_i heq
                      have h2 := congrArg Prod.snd heq
                      have h1 := congrArg Prod.fst heq
                      dsimp only at h1 h2
                      subst h1 h2
                      clear heq))
    | with_reducible apply Dev.hide_upd_27 (land_trans rfl hm)
    | dsimp only [Lock.count]
    | dsimp +zetaDelta only

theorem Dev.modLane_hide {m : Nat} (hm : 134217728 &&& m = 134217728) {x : Dev} (s : Dev) (c : Nat) (f : Lane → Lane)
    (h : Dev.hide m s = x) : Dev.hide m (Dev.modLane s c f) = x := by
  unfold Dev.modLane
  repeat' first
    | with_reducible assumption
    | intro _
    | extract_lets
    | with_reducible apply hide_ite
    | with_reducible apply hide_next
    | with_reducible apply Dev.setLane_hide (land_trans rfl hm)
    | (split
       all_goals try (rename_i heq
                      have h2 := congrArg Prod.snd heq
                      have h1 := congrArg Prod.fst heq
                      dsimp only at h1 h2
                      subst h1 h2
                      clear heq))
    | dsimp only [Lock.count]
    | dsimp +zetaDelta only

theorem Dev.abortWindow_hide {m : Nat} (hm : 134217728 &&& m = 134217728) {x : Dev} (s : Dev) (c : Nat) (clocks : Nat) (again : Bool)
    (h : Dev.hide m s = x) : Dev.hide m (Dev.abortWindow s c clocks again) = x := by
  unfold Dev.abortWindow
  repeat' first
    | with_reducible assumption
    | intro _
    | extract_lets
    | with_reducible apply hide_ite
    | with_reducible apply hide_next
    | with_reducible apply Dev.modLane_hide (land_trans rfl hm)
    | (split
       all_goals try (rename_i heq
                      have h2 := congrArg Prod.snd heq
                      have h1 := congrArg Prod.fst heq
                      dsimp only at h1 h2
                      subst h1 h2
                      clear heq))
    | dsimp only [Lock.count]
    | dsimp +zetaDelta only

theorem Dev.startLane_hide {m : Nat} (hm : 134217728 &&& m = 134217728) {x : Dev} (s : Dev) (c : Nat)
    (h : Dev.hide m s = x) : Dev.hide m (Dev.startLane s c) = x := by
  unfold Dev.startLane
  repeat' first
    | with_reducible assumption
    | intro _
    | extract_lets
    | with_reducible apply hide_ite
    | with_reducible apply hide_next
    | with_reducible apply Dev.abortWindow_hide (land_trans rfl hm)
    | with_reducible apply Dev.modLane_hide (land_trans rfl hm)
    | (split
       all_goals try (rename_i heq
                      have h2 := congrArg Prod.snd heq
                      have h1 := congrArg Prod.fst heq
                      dsimp only at h1 h2
                      subst h1 h2
                      clear heq))
    | dsimp only [Lock.count]
    | dsimp +zetaDelta only

theorem Dev.stopLane_hide {m : Nat} (hm : 134217728 &&& m = 134217728) {x : Dev} (s : Dev) (c : Nat) (clocks : Nat)
    (h : Dev.hide m s = x) : Dev.hide m (Dev.stopLane s c clocks) = x := by
  unfold Dev.stopLane
  repeat' first
    | with_reducible assumption
    | intro _
    | extract_lets
    | with_reducible apply hide_ite
    | with_reducible apply hide_next
    | with_reducible apply Dev.abortWindow_hide (land_trans rfl hm)
    | with_reducible apply Dev.modLane_hide (land_trans rfl hm)
    | (split
       all_goals try (rename_i heq
                      have h2 := congrArg Prod.snd heq
                      have h1 := congrArg Prod.fst heq
                      dsimp only at h1 h2
                      subst h1 h2
                      clear heq))
    | dsimp only [Lock.count]
    | dsimp +zetaDelta only

theorem Dev.gateLane_hide {m : Nat} (hm : 134217728 &&& m = 134217728) {x : Dev} (s : Dev) (c : Nat) (clocks : Nat)
    (h : Dev.hide m s = x) : Dev.hide m (Dev.gateLane s c clocks) = x := by
  unfold Dev.gateLane
  repeat' first
    | with_reducible assumption
    | intro _
    | extract_lets
    | with_reducible apply hide_ite
    | with_reducible apply hide_next
    | with_reducible apply Dev.stopLane_hide (land_trans rfl hm)
    | with_reducible apply Dev.startLane_hide (land_trans rfl hm)
    | (split
       all_goals try (rename_i heq
                      have h2 := congrArg Prod.snd heq
                      have h1 := congrArg Prod.fst heq
                      dsimp only at h1 h2
                      subst h1 h2
                      clear heq))
    | dsimp only [Lock.count]
    | dsimp +zetaDelta only

theorem Dev.drawNat_hide {m : Nat} (hm : 1 &&& m = 1) {x : Dev} (s : Dev)
    (h : Dev.hide m s = x) : Dev.hide m (Dev.drawNat s).2 = x := by
  unfold Dev.drawNat
  repeat' first
    | with_reducible assumption
    | intro _
    | extract_lets
    | with_reducible apply hide_ite
    | with_reducible apply hide_next
    | (split
       all_goals try (rename_i heq
                      have h2 := congrArg Prod.snd heq
                      have h1 := congrArg Prod.fst heq
                      dsimp only at h1 h2
                      subst h1 h2
                      clear heq))
    | with_reducible apply Dev.hide_upd_0 (land_trans rfl hm)
    | dsimp only [Lock.count]
    | dsimp +zetaDelta only

theorem Dev.setConv_hide {m : Nat} (hm : 268435456 &&& m = 268435456) {x : Dev} (s : Dev) (b : Nat) (v : Conv)
    (h : Dev.hide m s = x) : Dev.hide m (Dev.setConv s b v) = x := by
  unfold Dev.setConv
  repeat' first
    | with_reducible assumption
    | intro _
    | extract_lets
    | with_reducible apply hide_ite
    | with_reducible apply hide_next
    | (split
       all_goals try (rename_i heq
                      have h2 := congrArg Prod.snd heq
                      have h1 := congrArg Prod.fst heq
                      dsimp only at h1 h2
                      subst h1 h2
                      clear heq))
    | with_reducible apply Dev.hide_upd_28 (land_trans rfl hm)
    | dsimp only [Lock.count]
    | dsimp +zetaDelta only

theorem Dev.modConv_hide {m : Nat} (hm : 268435456 &&& m = 268435456) {x : Dev} (s : Dev) (b : Nat) (f : Conv → Conv)
    (h : Dev.hide m s = x) : Dev.hide m (Dev.modConv s b f) = x := by
  unfold Dev.modConv
  repeat' first
    | with_reducible assumption
    | intro _
    | extract_lets
    | with_reducible apply hide_ite
    | with_reducible apply hide_next
    | with_reducible apply Dev.setConv_hide (land_trans rfl hm)
    | (split
       all_goals try (rename_i heq
                      have h2 := congrArg Prod.snd heq
                      have h1 := congrArg Prod.fst heq
                      dsimp only at h1 h2
                      subst h1 h2
                      clear heq))
    | dsimp only [Lock.count]
    | dsimp +zetaDelta only

theorem Dev.setBlock_hide {m : Nat} (hm : 1024 &&& m = 1024) {x : Dev} (s : Dev) (b : Nat) (v : Block)
    (h : Dev.hide m s = x) : Dev.hide m (Dev.setBlock s b v) = x := by
  unfold Dev.setBlock
  repeat' first
    | with_reducible assumption
    | intro _
    | extract_lets
    | with_reducible apply hide_ite
    | with_reducible apply hide_next
    | (split
       all_goals try (rename_i heq
                      have h2 := congrArg Prod.snd heq
                      have h1 := congrArg Prod.fst heq
                      dsimp only at h1 h2
                      subst h1 h2
                      clear heq))
    | with_reducible apply Dev.hide_upd_10 (land_trans rfl hm)
    | dsimp only [Lock.count]
    | dsimp +zetaDelta only

theorem Dev.modBlock_hide {m : Nat} (hm : 1024 &&& m = 1024) {x : Dev} (s : Dev) (b : Nat) (f : Block → Block)
    (h : Dev.hide m s = x) : Dev.hide m (Dev.modBlock s b f) = x := by
  unfold Dev.modBlock
  repeat' first
    | with_reducible assumption
    | intro _
    | extract_lets
    | with_reducible apply hide_ite
    | with_reducible apply hide_next
    | with_reducible apply Dev.setBlock_hide (land_trans rfl hm)
    | (split
       all_goals try (rename_i heq
                      have h2 := congrArg Prod.snd heq
                      have h1 := congrArg Prod.fst heq
                      dsimp only at h1 h2
                      subst h1 h2
                      clear heq))
    | dsimp only [Lock.count]
    | dsimp +zetaDelta only

theorem Dev.setCell_hide {m : Nat} (hm : 512 &&& m = 512) {x : Dev} (s : Dev) (c : Nat) (v : Cell)
    (h : Dev.hide m s = x) : Dev.hide m (Dev.setCell s c v) = x := by
  unfold Dev.setCell
  repeat' first
    | with_reducible assumption
    | intro _
    | extract_lets
    | with_reducible apply hide_ite
    | with_reducible apply hide_next
    | (split
       all_goals try (rename_i heq
                      have h2 := congrArg Prod.snd heq
                      have h1 := congrArg Prod.fst heq
                      dsimp only at h1 h2
                      subst h1 h2
                      clear heq))
    | with_reducible apply Dev.hide_upd_9 (land_trans rfl hm)
    | dsimp only [Lock.count]
    | dsimp +zetaDelta only

theorem Dev.modCell_hide {m : Nat} (hm : 512 &&& m = 512) {x : Dev} (s : Dev) (c : Nat) (f : Cell → Cell)
    (h : Dev.hide m s = x) : Dev.hide m (Dev.modCell s c f) = x := by
  unfold Dev.modCell
  repeat' first
    | with_reducible assumption
    | intro _
    | extract_lets
    | with_reducible apply hide_ite
    | with_reducible apply hide_next
    | with_reducible apply Dev.setCell_hide (land_trans rfl hm)
    | (split
       all_goals try (rename_i heq
                      have h2 := congrArg Prod.snd heq
                      have h1 := congrArg Prod.fst heq
                      dsimp only at h1 h2
                      subst h1 h2
                      clear heq))
    | dsimp only [Lock.count]
    | dsimp +zetaDelta only

theorem Dev.startTests_hide {m : Nat} (hm : 1536 &&& m = 1536) {x : Dev} (s : Dev) (c : Nat)
    (h : Dev.hide m s = x) : Dev.hide m (Dev.startTests s c) = x := by
  unfold Dev.startTests
  repeat' first
    | with_reducible assumption
    | intro _
    | extract_lets
    | with_reducible apply hide_ite
    | with_reducible apply hide_next
    | with_reducible apply Dev.modCell_hide (land_trans rfl hm)
    | with_reducible apply Dev.modBlock_hide (land_trans rfl hm)
    | (split
       all_goals try (rename_i heq
                      have h2 := congrArg Prod.snd heq
                      have h1 := congrArg Prod.fst heq
                      dsimp only at h1 h2
                      subst h1 h2
                      clear heq))
    | dsimp only [Lock.count]
    | dsimp +zetaDelta only

theorem Dev.holdExit_hide {m : Nat} (hm : 512 &&& m = 512) {x : Dev} (s : Dev) (c : Nat)
    (h : Dev.hide m s = x) : Dev.hide m (Dev.holdExit s c) = x := by
  unfold Dev.holdExit
  repeat' first
    | with_reducible assumption
    | intro _
    | extract_lets
    | with_reducible apply hide_ite
    | with_reducible apply hide_next
    | with_reducible apply Dev.modCell_hide (land_trans rfl hm)
    | (split
       all_goals try (rename_i heq
                      have h2 := congrArg Prod.snd heq
                      have h1 := congrArg Prod.fst heq
                      dsimp only at h1 h2
                      subst h1 h2
                      clear heq))
    | dsimp only [Lock.count]
    | dsimp +zetaDelta only

theorem Dev.emit_hide {m : Nat} (hm : 576460752303423488 &&& m = 576460752303423488) {x : Dev} (s : Dev) (o : Out)
    (h : Dev.hide m s = x) : Dev.hide m (Dev.emit s o) = x := by
  unfold Dev.emit
  repeat' first
    | with_reducible assumption
    | intro _
    | extract_lets
    | with_reducible apply hide_ite
    | with_reducible apply hide_next
    | (split
       all_goals try (rename_i heq
                      have h2 := congrArg Prod.snd heq
                      have h1 := congrArg Prod.fst heq
                      dsimp only at h1 h2
                      subst h1 h2
                      clear heq))
    | with_reducible apply Dev.hide_upd_59 (land_trans rfl hm)
    | dsimp only [Lock.count]
    | dsimp +zetaDelta only

theorem Dev.sendTrip_hide {m : Nat} (hm : 576469548396445696 &&& m = 576469548396445696) {x : Dev} (s : Dev) (g : Nat) (bit : Bool)
    (h : Dev.hide m s = x) : Dev.hide m (Dev.sendTrip s g bit) = x := by
  unfold Dev.sendTrip
  repeat' first
    | with_reducible assumption
    | intro _
    | extract_lets
    | with_reducible apply hide_ite
    | with_reducible apply hide_next
    | with_reducible apply Dev.emit_hide (land_trans rfl hm)
    | (split
       all_goals try (rename_i heq
                      have h2 := congrArg Prod.snd heq
                      have h1 := congrArg Prod.fst heq
                      dsimp only at h1 h2
                      subst h1 h2
                      clear heq))
    | with_reducible apply Dev.hide_upd_43 (land_trans rfl hm)
    | dsimp only [Lock.count]
    | dsimp +zetaDelta only

theorem Dev.withBcast_hide {m : Nat} (hm : 576469548396445696 &&& m = 576469548396445696) {x : Dev} (s : Dev) (g : Nat) (f : Dev → Dev) (h_f : ∀ u0 y, Dev.hide m u0 = y → Dev.hide m (f u0) = y)
    (h : Dev.hide m s = x) : Dev.hide m (Dev.withBcast s g f) = x := by
  unfold Dev.withBcast
  repeat' first
    | with_reducible assumption
    | intro _
    | extract_lets
    | with_reducible apply hide_ite
    | with_reducible apply hide_next
    | with_reducible apply Dev.sendTrip_hide (land_trans rfl hm)
    | with_reducible apply h_f
    | (split
       all_goals try (rename_i heq
                      have h2 := congrArg Prod.snd heq
                      have h1 := congrArg Prod.fst heq
                      dsimp only at h1 h2
                      subst h1 h2
                      clear heq))
    | dsimp only [Lock.count]
    | dsimp +zetaDelta only

theorem Dev.complete_hide {m : Nat} (hm : 36028797018963968 &&& m = 36028797018963968) {x : Dev} (s : Dev) (k : Completion)
    (h : Dev.hide m s = x) : Dev.hide m (Dev.complete s k) = x := by
  unfold Dev.complete
  repeat' first
    | with_reducible assumption
    | intro _
    | extract_lets
    | with_reducible apply hide_ite
    | with_reducible apply hide_next
    | (split
       all_goals try (rename_i heq
                      have h2 := congrArg Prod.snd heq
                      have h1 := congrArg Prod.fst heq
                      dsimp only at h1 h2
                      subst h1 h2
                      clear heq))
    | with_reducible apply Dev.hide_upd_55 (land_trans rfl hm)
    | dsimp only [Lock.count]
    | dsimp +zetaDelta only

theorem Dev.decideHeld_hide {m : Nat} (hm : 108086391056891904 &&& m = 108086391056891904) {x : Dev} (s : Dev) (c : Nat) (bad : Bool) (cmd : Nat × Nat)
    (h : Dev.hide m s = x) : Dev.hide m (Dev.decideHeld s c bad cmd) = x := by
  unfold Dev.decideHeld
  repeat' first
    | with_reducible assumption
    | intro _
    | extract_lets
    | with_reducible apply hide_ite
    | with_reducible apply hide_next
    | with_reducible apply Dev.complete_hide (land_trans rfl hm)
    | (split
       all_goals try (rename_i heq
                      have h2 := congrArg Prod.snd heq
                      have h1 := congrArg Prod.fst heq
                      dsimp only at h1 h2
                      subst h1 h2
                      clear heq))
    | with_reducible apply Dev.hide_upd_56 (land_trans rfl hm)
    | dsimp only [Lock.count]
    | dsimp +zetaDelta only

theorem Dev.endHeldOn_hide {m : Nat} (hm : 108086391056892416 &&& m = 108086391056892416) {x : Dev} (s : Dev) (c : Nat) (bad : Bool)
    (h : Dev.hide m s = x) : Dev.hide m (Dev.endHeldOn s c bad) = x := by
  unfold Dev.endHeldOn
  repeat' first
    | with_reducible assumption
    | intro _
    | extract_lets
    | with_reducible apply hide_ite
    | with_reducible apply hide_next
    | with_reducible apply Dev.decideHeld_hide (land_trans rfl hm)
    | with_reducible apply Dev.modCell_hide (land_trans rfl hm)
    | with_reducible apply Dev.forEach_hide (land_trans rfl hm)
    | (split
       all_goals try (rename_i heq
                      have h2 := congrArg Prod.snd heq
                      have h1 := congrArg Prod.fst heq
                      dsimp only at h1 h2
                      subst h1 h2
                      clear heq))
    | dsimp only [Lock.count]
    | dsimp +zetaDelta only

theorem Dev.abortPulse_hide {m : Nat} (hm : 512 &&& m = 512) {x : Dev} (s : Dev) (c : Nat)
    (h : Dev.hide m s = x) : Dev.hide m (Dev.abortPulse s c) = x := by
  unfold Dev.abortPulse
  repeat' first
    | with_reducible assumption
    | intro _
    | extract_lets
    | with_reducible apply hide_ite
    | with_reducible apply hide_next
    | with_reducible apply Dev.modCell_hide (land_trans rfl hm)
    | (split
       all_goals try (rename_i heq
                      have h2 := congrArg Prod.snd heq
                      have h1 := congrArg Prod.fst heq
                      dsimp only at h1 h2
                      subst h1 h2
                      clear heq))
    | dsimp only [Lock.count]
    | dsimp +zetaDelta only

theorem Dev.sendSl_hide {m : Nat} (hm : 274877908992 &&& m = 274877908992) {x : Dev} (s : Dev) (g : Nat) (a2 : SlMsg)
    (h : Dev.hide m s = x) : Dev.hide m (Dev.sendSl s g a2) = x := by
  unfold Dev.sendSl
  repeat' first
    | with_reducible assumption
    | intro _
    | extract_lets
    | with_reducible apply hide_ite
    | with_reducible apply hide_next
    | with_reducible apply Dev.modRegion_hide (land_trans rfl hm)
    | (split
       all_goals try (rename_i heq
                      have h2 := congrArg Prod.snd heq
                      have h1 := congrArg Prod.fst heq
                      dsimp only at h1 h2
                      subst h1 h2
                      clear heq))
    | with_reducible apply Dev.hide_upd_38 (land_trans rfl hm)
    | dsimp only [Lock.count]
    | dsimp +zetaDelta only

theorem Dev.commitProf_hide {m : Nat} (hm : 25769804288 &&& m = 25769804288) {x : Dev} (s : Dev) (c : Nat)
    (h : Dev.hide m s = x) : Dev.hide m (Dev.commitProf s c) = x := by
  unfold Dev.commitProf
  repeat' first
    | with_reducible assumption
    | intro _
    | extract_lets
    | with_reducible apply hide_ite
    | with_reducible apply hide_next
    | with_reducible apply Dev.modCell_hide (land_trans rfl hm)
    | (split
       all_goals try (rename_i heq
                      have h2 := congrArg Prod.snd heq
                      have h1 := congrArg Prod.fst heq
                      dsimp only at h1 h2
                      subst h1 h2
                      clear heq))
    | with_reducible apply Dev.hide_upd_33_34 (land_trans rfl hm)
    | dsimp only [Lock.count]
    | dsimp +zetaDelta only

theorem Dev.goto_hide {m : Nat} (hm : 702570639013187073 &&& m = 702570639013187073) {x : Dev} (s : Dev) (c : Nat) (st : CellState)
    (h : Dev.hide m s = x) : Dev.hide m (Dev.goto s c st) = x := by
  unfold Dev.goto
  repeat' first
    | with_reducible assumption
    | intro _
    | extract_lets
    | with_reducible apply hide_ite
    | with_reducible apply hide_next
    | with_reducible apply Dev.commitProf_hide (land_trans rfl hm)
    | with_reducible apply Dev.sendSl_hide (land_trans rfl hm)
    | with_reducible apply Dev.abortPulse_hide (land_trans rfl hm)
    | with_reducible apply Dev.endHeldOn_hide (land_trans rfl hm)
    | with_reducible apply Dev.withBcast_hide (land_trans rfl hm)
    | with_reducible apply Dev.holdExit_hide (land_trans rfl hm)
    | with_reducible apply Dev.startTests_hide (land_trans rfl hm)
    | with_reducible apply Dev.modCell_hide (land_trans rfl hm)
    | with_reducible apply Dev.modConv_hide (land_trans rfl hm)
    | with_reducible apply Dev.drawNat_hide (land_trans rfl hm)
    | with_reducible apply Dev.gateLane_hide (land_trans rfl hm)
    | with_reducible apply Dev.modLane_hide (land_trans rfl hm)
    | with_reducible apply Dev.cellEvent_hide (land_trans rfl hm)
    | (split
       all_goals try (rename_i heq
                      have h2 := congrArg Prod.snd heq
                      have h1 := congrArg Prod.fst heq
                      dsimp only at h1 h2
                      subst h1 h2
                      clear heq))
    | dsimp only [Lock.count]
    | dsimp +zetaDelta only

theorem Dev.enterSafe_hide {m : Nat} (hm : 702570639013187073 &&& m = 702570639013187073) {x : Dev} (s : Dev) (c : Nat)
    (h : Dev.hide m s = x) : Dev.hide m (Dev.enterSafe s c) = x := by
  unfold Dev.enterSafe
  repeat' first
    | with_reducible assumption
    | intro _
    | extract_lets
    | with_reducible apply hide_ite
    | with_reducible apply hide_next
    | with_reducible apply Dev.goto_hide (land_trans rfl hm)
    | (split
       all_goals try (rename_i heq
                      have h2 := congrArg Prod.snd heq
                      have h1 := congrArg Prod.fst heq
                      dsimp only at h1 h2
                      subst h1 h2
                      clear heq))
    | dsimp only [Lock.count]
    | dsimp +zetaDelta only

theorem Dev.safeCells_hide {m : Nat} (hm : 702570673372929537 &&& m = 702570673372929537) {x : Dev} (s : Dev) (l : List Nat)
    (h : Dev.hide m s = x) : Dev.hide m (Dev.safeCells s l) = x := by
  unfold Dev.safeCells
  repeat' first
    | with_reducible assumption
    | intro _
    | extract_lets
    | with_reducible apply hide_ite
    | with_reducible apply hide_next
    | with_reducible apply Dev.enterSafe_hide (land_trans rfl hm)
    | with_reducible apply Dev.latchedCheck_hide (land_trans rfl hm)
    | with_reducible apply Dev.forEach_hide (land_trans rfl hm)
    | (split
       all_goals try (rename_i heq
                      have h2 := congrArg Prod.snd heq
                      have h1 := congrArg Prod.fst heq
                      dsimp only at h1 h2
                      subst h1 h2
                      clear heq))
    | dsimp only [Lock.count]
    | dsimp +zetaDelta only

theorem Dev.setSlice_hide {m : Nat} (hm : 33554432 &&& m = 33554432) {x : Dev} (s : Dev) (k : Nat) (v : Slice)
    (h : Dev.hide m s = x) : Dev.hide m (Dev.setSlice s k v) = x := by
  unfold Dev.setSlice
  repeat' first
    | with_reducible assumption
    | intro _
    | extract_lets
    | with_reducible apply hide_ite
    | with_reducible apply hide_next
    | (split
       all_goals try (rename_i heq
                      have h2 := congrArg Prod.snd heq
                      have h1 := congrArg Prod.fst heq
                      dsimp only at h1 h2
                      subst h1 h2
                      clear heq))
    | with_reducible apply Dev.hide_upd_25 (land_trans rfl hm)
    | dsimp only [Lock.count]
    | dsimp +zetaDelta only

theorem Dev.sliceEvent_hide {m : Nat} (hm : 18014398509488128 &&& m = 18014398509488128) {x : Dev} (s : Dev) (k : Nat) (code : Nat) (flag : Bool) (payload : List Word)
    (h : Dev.hide m s = x) : Dev.hide m (Dev.sliceEvent s k code flag payload) = x := by
  unfold Dev.sliceEvent
  repeat' first
    | with_reducible assumption
    | intro _
    | extract_lets
    | with_reducible apply hide_ite
    | with_reducible apply hide_next
    | with_reducible apply Dev.irqRegion_hide (land_trans rfl hm)
    | with_reducible apply Dev.raiseIsland_hide (land_trans rfl hm)
    | (split
       all_goals try (rename_i heq
                      have h2 := congrArg Prod.snd heq
                      have h1 := congrArg Prod.fst heq
                      dsimp only at h1 h2
                      subst h1 h2
                      clear heq))
    | dsimp only [Lock.count]
    | dsimp +zetaDelta only

theorem Dev.cutEvent_hide {m : Nat} (hm : 18014398509488128 &&& m = 18014398509488128) {x : Dev} (s : Dev) (k : Nat) (begins : Bool)
    (h : Dev.hide m s = x) : Dev.hide m (Dev.cutEvent s k begins) = x := by
  unfold Dev.cutEvent
  repeat' first
    | with_reducible assumption
    | intro _
    | extract_lets
    | with_reducible apply hide_ite
    | with_reducible apply hide_next
    | with_reducible apply Dev.sliceEvent_hide (land_trans rfl hm)
    | (split
       all_goals try (rename_i heq
                      have h2 := congrArg Prod.snd heq
                      have h1 := congrArg Prod.fst heq
                      dsimp only at h1 h2
                      subst h1 h2
                      clear heq))
    | dsimp only [Lock.count]
    | dsimp +zetaDelta only

theorem Dev.cutUpdate_hide {m : Nat} (hm : 18014398543042560 &&& m = 18014398543042560) {x : Dev} (s : Dev) (k : Nat)
    (h : Dev.hide m s = x) : Dev.hide m (Dev.cutUpdate s k) = x := by
  unfold Dev.cutUpdate
  repeat' first
    | with_reducible assumption
    | intro _
    | extract_lets
    | with_reducible apply hide_ite
    | with_reducible apply hide_next
    | with_reducible apply Dev.cutEvent_hide (land_trans rfl hm)
    | with_reducible apply Dev.setSlice_hide (land_trans rfl hm)
    | (split
       all_goals try (rename_i heq
                      have h2 := congrArg Prod.snd heq
                      have h1 := congrArg Prod.fst heq
                      dsimp only at h1 h2
                      subst h1 h2
                      clear heq))
    | with_reducible apply Dev.hide_upd_25 (land_trans rfl hm)
    | dsimp only [Lock.count]
    | dsimp +zetaDelta only

theorem Dev.sliceGoto_hide {m : Nat} (hm : 18014398543042560 &&& m = 18014398543042560) {x : Dev} (s : Dev) (k : Nat) (st : SliceState) (cause : Nat)
    (h : Dev.hide m s = x) : Dev.hide m (Dev.sliceGoto s k st cause) = x := by
  unfold Dev.sliceGoto
  repeat' first
    | with_reducible assumption
    | intro _
    | extract_lets
    | with_reducible apply hide_ite
    | with_reducible apply hide_next
    | with_reducible apply Dev.sliceEvent_hide (land_trans rfl hm)
    | with_reducible apply Dev.setSlice_hide (land_trans rfl hm)
    | (split
       all_goals try (rename_i heq
                      have h2 := congrArg Prod.snd heq
                      have h1 := congrArg Prod.fst heq
                      dsimp only at h1 h2
                      subst h1 h2
                      clear heq))
    | dsimp only [Lock.count]
    | dsimp +zetaDelta only

theorem Dev.setReg_hide {m : Nat} (hm : 2147483648 &&& m = 2147483648) {x : Dev} (s : Dev) (off : Nat) (v : Word)
    (h : Dev.hide m s = x) : Dev.hide m (Dev.setReg s off v) = x := by
  unfold Dev.setReg
  repeat' first
    | with_reducible assumption
    | intro _
    | extract_lets
    | with_reducible apply hide_ite
    | with_reducible apply hide_next
    | (split
       all_goals try (rename_i heq
                      have h2 := congrArg Prod.snd heq
                      have h1 := congrArg Prod.fst heq
                      dsimp only at h1 h2
                      subst h1 h2
                      clear heq))
    | with_reducible apply Dev.hide_upd_31 (land_trans rfl hm)
    | dsimp only [Lock.count]
    | dsimp +zetaDelta only

theorem Dev.commitReg_hide {m : Nat} (hm : 6442450944 &&& m = 6442450944) {x : Dev} (s : Dev) (off : Nat)
    (h : Dev.hide m s = x) : Dev.hide m (Dev.commitReg s off) = x := by
  unfold Dev.commitReg
  repeat' first
    | with_reducible assumption
    | intro _
    | extract_lets
    | with_reducible apply hide_ite
    | with_reducible apply hide_next
    | with_reducible apply Dev.setReg_hide (land_trans rfl hm)
    | (split
       all_goals try (rename_i heq
                      have h2 := congrArg Prod.snd heq
                      have h1 := congrArg Prod.fst heq
                      dsimp only at h1 h2
                      subst h1 h2
                      clear heq))
    | with_reducible apply Dev.hide_upd_32 (land_trans rfl hm)
    | dsimp only [Lock.count]
    | dsimp +zetaDelta only

theorem Dev.commitCs_hide {m : Nat} (hm : 6442450944 &&& m = 6442450944) {x : Dev} (s : Dev) (k : Nat)
    (h : Dev.hide m s = x) : Dev.hide m (Dev.commitCs s k) = x := by
  unfold Dev.commitCs
  repeat' first
    | with_reducible assumption
    | intro _
    | extract_lets
    | with_reducible apply hide_ite
    | with_reducible apply hide_next
    | with_reducible apply Dev.commitReg_hide (land_trans rfl hm)
    | with_reducible apply Dev.forEach_hide (land_trans rfl hm)
    | (split
       all_goals try (rename_i heq
                      have h2 := congrArg Prod.snd heq
                      have h1 := congrArg Prod.fst heq
                      dsimp only at h1 h2
                      subst h1 h2
                      clear heq))
    | dsimp only [Lock.count]
    | dsimp +zetaDelta only

theorem Dev.putReg_hide {m : Nat} (hm : 2147483648 &&& m = 2147483648) {x : Dev} (s : Dev) (off : Nat) (lo : Nat) (len : Nat) (v : Nat)
    (h : Dev.hide m s = x) : Dev.hide m (Dev.putReg s off lo len v) = x := by
  unfold Dev.putReg
  repeat' first
    | with_reducible assumption
    | intro _
    | extract_lets
    | with_reducible apply hide_ite
    | with_reducible apply hide_next
    | with_reducible apply Dev.setReg_hide (land_trans rfl hm)
    | (split
       all_goals try (rename_i heq
                      have h2 := congrArg Prod.snd heq
                      have h1 := congrArg Prod.fst heq
                      dsimp only at h1 h2
                      subst h1 h2
                      clear heq))
    | dsimp only [Lock.count]
    | dsimp +zetaDelta only

theorem Dev.modSlice_hide {m : Nat} (hm : 33554432 &&& m = 33554432) {x : Dev} (s : Dev) (k : Nat) (f : Slice → Slice)
    (h : Dev.hide m s = x) : Dev.hide m (Dev.modSlice s k f) = x := by
  unfold Dev.modSlice
  repeat' first
    | with_reducible assumption
    | intro _
    | extract_lets
    | with_reducible apply hide_ite
    | with_reducible apply hide_next
    | with_reducible apply Dev.setSlice_hide (land_trans rfl hm)
    | (split
       all_goals try (rename_i heq
                      have h2 := congrArg Prod.snd heq
                      have h1 := congrArg Prod.fst heq
                      dsimp only at h1 h2
                      subst h1 h2
                      clear heq))
    | dsimp only [Lock.count]
    | dsimp +zetaDelta only

theorem Dev.killSlice_hide {m : Nat} (hm : 18014404985493504 &&& m = 18014404985493504) {x : Dev} (s : Dev) (k : Nat) (cause : Nat)
    (h : Dev.hide m s = x) : Dev.hide m (Dev.killSlice s k cause) = x := by
  unfold Dev.killSlice
  repeat' first
    | with_reducible assumption
    | intro _
    | extract_lets
    | with_reducible apply hide_ite
    | with_reducible apply hide_next
    | with_reducible apply Dev.modSlice_hide (land_trans rfl hm)
    | with_reducible apply Dev.putReg_hide (land_trans rfl hm)
    | with_reducible apply Dev.commitCs_hide (land_trans rfl hm)
    | with_reducible apply Dev.commitReg_hide (land_trans rfl hm)
    | with_reducible apply Dev.sliceGoto_hide (land_trans rfl hm)
    | with_reducible apply Dev.cutUpdate_hide (land_trans rfl hm)
    | (split
       all_goals try (rename_i heq
                      have h2 := congrArg Prod.snd heq
                      have h1 := congrArg Prod.fst heq
                      dsimp only at h1 h2
                      subst h1 h2
                      clear heq))
    | dsimp only [Lock.count]
    | dsimp +zetaDelta only

theorem Dev.killSlices_hide {m : Nat} (hm : 18014404985493504 &&& m = 18014404985493504) {x : Dev} (s : Dev) (g : Nat)
    (h : Dev.hide m s = x) : Dev.hide m (Dev.killSlices s g) = x := by
  unfold Dev.killSlices
  repeat' first
    | with_reducible assumption
    | intro _
    | extract_lets
    | with_reducible apply hide_ite
    | with_reducible apply hide_next
    | with_reducible apply Dev.killSlice_hide (land_trans rfl hm)
    | with_reducible apply Dev.forEach_hide (land_trans rfl hm)
    | (split
       all_goals try (rename_i heq
                      have h2 := congrArg Prod.snd heq
                      have h1 := congrArg Prod.fst heq
                      dsimp only at h1 h2
                      subst h1 h2
                      clear heq))
    | dsimp only [Lock.count]
    | dsimp +zetaDelta only

theorem Dev.regionSafe_hide {m : Nat} (hm : 702570679848934913 &&& m = 702570679848934913) {x : Dev} (s : Dev) (g : Nat)
    (h : Dev.hide m s = x) : Dev.hide m (Dev.regionSafe s g) = x := by
  unfold Dev.regionSafe
  repeat' first
    | with_reducible assumption
    | intro _
    | extract_lets
    | with_reducible apply hide_ite
    | with_reducible apply hide_next
    | with_reducible apply Dev.killSlices_hide (land_trans rfl hm)
    | with_reducible apply Dev.safeCells_hide (land_trans rfl hm)
    | (split
       all_goals try (rename_i heq
                      have h2 := congrArg Prod.snd heq
                      have h1 := congrArg Prod.fst heq
                      dsimp only at h1 h2
                      subst h1 h2
                      clear heq))
    | dsimp only [Lock.count]
    | dsimp +zetaDelta only

theorem Dev.blockSafe_hide {m : Nat} (hm : 702570673372929537 &&& m = 702570673372929537) {x : Dev} (s : Dev) (b : Nat)
    (h : Dev.hide m s = x) : Dev.hide m (Dev.blockSafe s b) = x := by
  unfold Dev.blockSafe
  repeat' first
    | with_reducible assumption
    | intro _
    | extract_lets
    | with_reducible apply hide_ite
    | with_reducible apply hide_next
    | with_reducible apply Dev.safeCells_hide (land_trans rfl hm)
    | (split
       all_goals try (rename_i heq
                      have h2 := congrArg Prod.snd heq
                      have h1 := congrArg Prod.fst heq
                      dsimp only at h1 h2
                      subst h1 h2
                      clear heq))
    | dsimp only [Lock.count]
    | dsimp +zetaDelta only

theorem Dev.stand_hide {m : Nat} (hm : 34359738368 &&& m = 34359738368) {x : Dev} (s : Dev) (k : Nat) (src : Nat) (scope : SafeScope) (fatal : Bool)
    (h : Dev.hide m s = x) : Dev.hide m (Dev.stand s k src scope fatal) = x := by
  unfold Dev.stand
  repeat' first
    | with_reducible assumption
    | intro _
    | extract_lets
    | with_reducible apply hide_ite
    | with_reducible apply hide_next
    | with_reducible apply Dev.modColl_hide (land_trans rfl hm)
    | (split
       all_goals try (rename_i heq
                      have h2 := congrArg Prod.snd heq
                      have h1 := congrArg Prod.fst heq
                      dsimp only at h1 h2
                      subst h1 h2
                      clear heq))
    | dsimp only [Lock.count]
    | dsimp +zetaDelta only

theorem Dev.safeReact_hide {m : Nat} (hm : 702570679848934913 &&& m = 702570679848934913) {x : Dev} (s : Dev) (k : Nat) (src : Nat) (info : Nat) (mask : Nat) (fatal : Bool)
    (h : Dev.hide m s = x) : Dev.hide m (Dev.safeReact s k src info mask fatal) = x := by
  unfold Dev.safeReact
  repeat' first
    | with_reducible assumption
    | intro _
    | extract_lets
    | with_reducible apply hide_ite
    | with_reducible apply hide_next
    | with_reducible apply Dev.stand_hide (land_trans rfl hm)
    | with_reducible apply Dev.blockSafe_hide (land_trans rfl hm)
    | with_reducible apply Dev.regionSafe_hide (land_trans rfl hm)
    | with_reducible apply Dev.safeCells_hide (land_trans rfl hm)
    | with_reducible apply Dev.modColl_hide (land_trans rfl hm)
    | (split
       all_goals try (rename_i heq
                      have h2 := congrArg Prod.snd heq
                      have h1 := congrArg Prod.fst heq
                      dsimp only at h1 h2
                      subst h1 h2
                      clear heq))
    | dsimp only [Lock.count]
    | dsimp +zetaDelta only

theorem Dev.report_hide {m : Nat} (hm : 144115222435594240 &&& m = 144115222435594240) {x : Dev} (s : Dev) (g : Nat) (r : Report)
    (h : Dev.hide m s = x) : Dev.hide m (Dev.report s g r) = x := by
  unfold Dev.report
  repeat' first
    | with_reducible assumption
    | intro _
    | extract_lets
    | with_reducible apply hide_ite
    | with_reducible apply hide_next
    | with_reducible apply Dev.modColl_hide (land_trans rfl hm)
    | (split
       all_goals try (rename_i heq
                      have h2 := congrArg Prod.snd heq
                      have h1 := congrArg Prod.fst heq
                      dsimp only at h1 h2
                      subst h1 h2
                      clear heq))
    | with_reducible apply Dev.hide_upd_57 (land_trans rfl hm)
    | dsimp only [Lock.count]
    | dsimp +zetaDelta only

theorem Dev.errEvent_hide {m : Nat} (hm : 18014398509484032 &&& m = 18014398509484032) {x : Dev} (s : Dev)
    (h : Dev.hide m s = x) : Dev.hide m (Dev.errEvent s) = x := by
  unfold Dev.errEvent
  repeat' first
    | with_reducible assumption
    | intro _
    | extract_lets
    | with_reducible apply hide_ite
    | with_reducible apply hide_next
    | with_reducible apply Dev.collEvent_hide (land_trans rfl hm)
    | (split
       all_goals try (rename_i heq
                      have h2 := congrArg Prod.snd heq
                      have h1 := congrArg Prod.fst heq
                      dsimp only at h1 h2
                      subst h1 h2
                      clear heq))
    | dsimp only [Lock.count]
    | dsimp +zetaDelta only

theorem Dev.errAssert_hide {m : Nat} (hm : 18014467228960768 &&& m = 18014467228960768) {x : Dev} (s : Dev)
    (h : Dev.hide m s = x) : Dev.hide m (Dev.errAssert s) = x := by
  unfold Dev.errAssert
  repeat' first
    | with_reducible assumption
    | intro _
    | extract_lets
    | with_reducible apply hide_ite
    | with_reducible apply hide_next
    | with_reducible apply Dev.errEvent_hide (land_trans rfl hm)
    | (split
       all_goals try (rename_i heq
                      have h2 := congrArg Prod.snd heq
                      have h1 := congrArg Prod.fst heq
                      dsimp only at h1 h2
                      subst h1 h2
                      clear heq))
    | with_reducible apply Dev.hide_upd_36 (land_trans rfl hm)
    | dsimp only [Lock.count]
    | dsimp +zetaDelta only

theorem Dev.faultKey_hide {m : Nat} (hm : 34359738368 &&& m = 34359738368) {x : Dev} (s : Dev) (k : Nat) (src : Nat)
    (h : Dev.hide m s = x) : Dev.hide m (Dev.faultKey s k src).2.2 = x := by
  unfold Dev.faultKey
  repeat' first
    | with_reducible assumption
    | intro _
    | extract_lets
    | with_reducible apply hide_ite
    | with_reducible apply hide_next
    | with_reducible apply Dev.modColl_hide (land_trans rfl hm)
    | (split
       all_goals try (rename_i heq
                      have h2 := congrArg Prod.snd heq
                      have h1 := congrArg Prod.fst heq
                      dsimp only at h1 h2
                      subst h1 h2
                      clear heq))
    | dsimp only [Lock.count]
    | dsimp +zetaDelta only

theorem Dev.reactEvent_hide {m : Nat} (hm : 846685936644267521 &&& m = 846685936644267521) {x : Dev} (s : Dev) (k : Nat) (src : Nat) (info : Nat) (t : Nat) (deferred : Bool) (inj : Bool)
    (h : Dev.hide m s = x) : Dev.hide m (Dev.reactEvent s k src info t deferred inj) = x := by
  unfold Dev.reactEvent
  repeat' first
    | with_reducible assumption
    | intro _
    | extract_lets
    | with_reducible apply hide_ite
    | with_reducible apply hide_next
    | with_reducible apply Dev.faultKey_hide (land_trans rfl hm)
    | with_reducible apply Dev.errAssert_hide (land_trans rfl hm)
    | with_reducible apply Dev.report_hide (land_trans rfl hm)
    | with_reducible apply Dev.safeReact_hide (land_trans rfl hm)
    | with_reducible apply Dev.history_hide (land_trans rfl hm)
    | with_reducible apply Dev.faultEvent_hide (land_trans rfl hm)
    | with_reducible apply Dev.modColl_hide (land_trans rfl hm)
    | (split
       all_goals try (rename_i heq
                      have h2 := congrArg Prod.snd heq
                      have h1 := congrArg Prod.fst heq
                      dsimp only at h1 h2
                      subst h1 h2
                      clear heq))
    | dsimp only [Lock.count]
    | dsimp +zetaDelta only

theorem Dev.occurAt_hide {m : Nat} (hm : 846685936644267521 &&& m = 846685936644267521) {x : Dev} (s : Dev) (k : Nat) (src : Nat) (info : Nat) (n : Nat) (t : Nat) (deferred : Bool) (inj : Bool)
    (h : Dev.hide m s = x) : Dev.hide m (Dev.occurAt s k src info n t deferred inj) = x := by
  unfold Dev.occurAt
  repeat' first
    | with_reducible assumption
    | intro _
    | extract_lets
    | with_reducible apply hide_ite
    | with_reducible apply hide_next
    | with_reducible apply Dev.reactEvent_hide (land_trans rfl hm)
    | with_reducible apply Dev.noteEvent_hide (land_trans rfl hm)
    | (split
       all_goals try (rename_i heq
                      have h2 := congrArg Prod.snd heq
                      have h1 := congrArg Prod.fst heq
                      dsimp only at h1 h2
                      subst h1 h2
                      clear heq))
    | dsimp only [Lock.count]
    | dsimp +zetaDelta only

theorem Dev.occur_hide {m : Nat} (hm : 846685936644267521 &&& m = 846685936644267521) {x : Dev} (s : Dev) (k : Nat) (src : Nat) (info : Nat)
    (h : Dev.hide m s = x) : Dev.hide m (Dev.occur s k src info) = x := by
  unfold Dev.occur
  repeat' first
    | with_reducible assumption
    | intro _
    | extract_lets
    | with_reducible apply hide_ite
    | with_reducible apply hide_next
    | with_reducible apply Dev.occurAt_hide (land_trans rfl hm)
    | (split
       all_goals try (rename_i heq
                      have h2 := congrArg Prod.snd heq
                      have h1 := congrArg Prod.fst heq
                      dsimp only at h1 h2
                      subst h1 h2
                      clear heq))
    | dsimp only [Lock.count]
    | dsimp +zetaDelta only

theorem Dev.occurCentral_hide {m : Nat} (hm : 846685936644267521 &&& m = 846685936644267521) {x : Dev} (s : Dev) (g : Nat) (src : Nat) (info : Nat)
    (h : Dev.hide m s = x) : Dev.hide m (Dev.occurCentral s g src info) = x := by
  unfold Dev.occurCentral
  repeat' first
    | with_reducible assumption
    | intro _
    | extract_lets
    | with_reducible apply hide_ite
    | with_reducible apply hide_next
    | with_reducible apply Dev.occur_hide (land_trans rfl hm)
    | with_reducible apply Dev.setColl_hide (land_trans rfl hm)
    | (split
       all_goals try (rename_i heq
                      have h2 := congrArg Prod.snd heq
                      have h1 := congrArg Prod.fst heq
                      dsimp only at h1 h2
                      subst h1 h2
                      clear heq))
    | dsimp only [Lock.count]
    | dsimp +zetaDelta only

theorem Dev.seize_hide {m : Nat} (hm : 846685936644267521 &&& m = 846685936644267521) {x : Dev} (s : Dev) (e : Nat)
    (h : Dev.hide m s = x) : Dev.hide m (Dev.seize s e) = x := by
  unfold Dev.seize
  repeat' first
    | with_reducible assumption
    | intro _
    | extract_lets
    | with_reducible apply hide_ite
    | with_reducible apply hide_next
    | with_reducible apply Dev.occurCentral_hide (land_trans rfl hm)
    | with_reducible apply Dev.modBarge_hide (land_trans rfl hm)
    | (split
       all_goals try (rename_i heq
                      have h2 := congrArg Prod.snd heq
                      have h1 := congrArg Prod.fst heq
                      dsimp only at h1 h2
                      subst h1 h2
                      clear heq))
    | dsimp only [Lock.count]
    | dsimp +zetaDelta only

theorem Dev.exception_hide {m : Nat} (hm : 846685936644267521 &&& m = 846685936644267521) {x : Dev} (s : Dev) (e : Nat) (code : Nat) (ret : Nat) (addr : Nat)
    (h : Dev.hide m s = x) : Dev.hide m (Dev.exception s e code ret addr) = x := by
  unfold Dev.exception
  repeat' first
    | with_reducible assumption
    | intro _
    | extract_lets
    | with_reducible apply hide_ite
    | with_reducible apply hide_next
    | with_reducible apply Dev.seize_hide (land_trans rfl hm)
    | with_reducible apply Dev.setBarge_hide (land_trans rfl hm)
    | (split
       all_goals try (rename_i heq
                      have h2 := congrArg Prod.snd heq
                      have h1 := congrArg Prod.fst heq
                      dsimp only at h1 h2
                      subst h1 h2
                      clear heq))
    | dsimp only [Lock.count]
    | dsimp +zetaDelta only

theorem Dev.bargeHalted_hide {m : Nat} (hm : 4096 &&& m = 4096) {x : Dev} (s : Dev) (e : Nat) (cause : Nat)
    (h : Dev.hide m s = x) : Dev.hide m (Dev.bargeHalted s e cause) = x := by
  unfold Dev.bargeHalted
  repeat' first
    | with_reducible assumption
    | intro _
    | extract_lets
    | with_reducible apply hide_ite
    | with_reducible apply hide_next
    | with_reducible apply Dev.forEach_hide (land_trans rfl hm)
    | with_reducible apply Dev.modBarge_hide (land_trans rfl hm)
    | (split
       all_goals try (rename_i heq
                      have h2 := congrArg Prod.snd heq
                      have h1 := congrArg Prod.fst heq
                      dsimp only at h1 h2
                      subst h1 h2
                      clear heq))
    | dsimp only [Lock.count]
    | dsimp +zetaDelta only

theorem Dev.haltSettle_hide {m : Nat} (hm : 4096 &&& m = 4096) {x : Dev} (s : Dev) (e : Nat)
    (h : Dev.hide m s = x) : Dev.hide m (Dev.haltSettle s e) = x := by
  unfold Dev.haltSettle
  repeat' first
    | with_reducible assumption
    | intro _
    | extract_lets
    | with_reducible apply hide_ite
    | with_reducible apply hide_next
    | with_reducible apply Dev.bargeHalted_hide (land_trans rfl hm)
    | (split
       all_goals try (rename_i heq
                      have h2 := congrArg Prod.snd heq
                      have h1 := congrArg Prod.fst heq
                      dsimp only at h1 h2
                      subst h1 h2
                      clear heq))
    | dsimp only [Lock.count]
    | dsimp +zetaDelta only

theorem Dev.afterIssue_hide {m : Nat} (hm : 4096 &&& m = 4096) {x : Dev} (s : Dev) (e : Nat)
    (h : Dev.hide m s = x) : Dev.hide m (Dev.afterIssue s e) = x := by
  unfold Dev.afterIssue
  repeat' first
    | with_reducible assumption
    | intro _
    | extract_lets
    | with_reducible apply hide_ite
    | with_reducible apply hide_next
    | with_reducible apply Dev.haltSettle_hide (land_trans rfl hm)
    | with_reducible apply Dev.modBarge_hide (land_trans rfl hm)
    | (split
       all_goals try (rename_i heq
                      have h2 := congrArg Prod.snd heq
                      have h1 := congrArg Prod.fst heq
                      dsimp only at h1 h2
                      subst h1 h2
                      clear heq))
    | dsimp only [Lock.count]
    | dsimp +zetaDelta only

theorem Dev.haltBarge_hide {m : Nat} (hm : 4096 &&& m = 4096) {x : Dev} (s : Dev) (e : Nat) (cause : Nat)
    (h : Dev.hide m s = x) : Dev.hide m (Dev.haltBarge s e cause) = x := by
  unfold Dev.haltBarge
  repeat' first
    | with_reducible assumption
    | intro _
    | extract_lets
    | with_reducible apply hide_ite
    | with_reducible apply hide_next
    | with_reducible apply Dev.haltSettle_hide (land_trans rfl hm)
    | with_reducible apply Dev.modBarge_hide (land_trans rfl hm)
    | (split
       all_goals try (rename_i heq
                      have h2 := congrArg Prod.snd heq
                      have h1 := congrArg Prod.fst heq
                      dsimp only at h1 h2
                      subst h1 h2
                      clear heq))
    | dsimp only [Lock.count]
    | dsimp +zetaDelta only

theorem Dev.issue_hide {m : Nat} (hm : 846685936644267521 &&& m = 846685936644267521) {x : Dev} (s : Dev) (e : Nat) (regs : List Nat) (vregs : List Nat) (f : Dev → Dev) (h_f : ∀ u0 y, Dev.hide m u0 = y → Dev.hide m (f u0) = y)
    (h : Dev.hide m s = x) : Dev.hide m (Dev.issue s e regs vregs f) = x := by
  unfold Dev.issue
  repeat' first
    | with_reducible assumption
    | intro _
    | extract_lets
    | with_reducible apply hide_ite
    | with_reducible apply hide_next
    | with_reducible apply Dev.haltBarge_hide (land_trans rfl hm)
    | with_reducible apply Dev.afterIssue_hide (land_trans rfl hm)
    | with_reducible apply Dev.exception_hide (land_trans rfl hm)
    | with_reducible apply Dev.modBarge_hide (land_trans rfl hm)
    | with_reducible apply h_f
    | (split
       all_goals try (rename_i heq
                      have h2 := congrArg Prod.snd heq
                      have h1 := congrArg Prod.fst heq
                      dsimp only at h1 h2
                      subst h1 h2
                      clear heq))
    | dsimp only [Lock.count]
    | dsimp +zetaDelta only

theorem Dev.issueReg_hide {m : Nat} (hm : 846685936644267521 &&& m = 846685936644267521) {x : Dev} (s : Dev) (e : Nat) (regs : List Nat) (vregs : List Nat) (f : Barge → Barge)
    (h : Dev.hide m s = x) : Dev.hide m (Dev.issueReg s e regs vregs f) = x := by
  unfold Dev.issueReg
  repeat' first
    | with_reducible assumption
    | intro _
    | extract_lets
    | with_reducible apply hide_ite
    | with_reducible apply hide_next
    | with_reducible apply Dev.issue_hide (land_trans rfl hm)
    | with_reducible apply Dev.modBarge_hide (land_trans rfl hm)
    | (split
       all_goals try (rename_i heq
                      have h2 := congrArg Prod.snd heq
                      have h1 := congrArg Prod.fst heq
                      dsimp only at h1 h2
                      subst h1 h2
                      clear heq))
    | dsimp only [Lock.count]
    | dsimp +zetaDelta only

theorem Dev.aluI_hide {m : Nat} (hm : 846685936644267521 &&& m = 846685936644267521) {x : Dev} (s : Dev) (e : Nat) (d : Nat) (a : Nat) (imm : Word) (f : Word → Word → Word)
    (h : Dev.hide m s = x) : Dev.hide m (Dev.aluI s e d a imm f) = x := by
  unfold Dev.aluI
  repeat' first
    | with_reducible assumption
    | intro _
    | extract_lets
    | with_reducible apply hide_ite
    | with_reducible apply hide_next
    | with_reducible apply Dev.issueReg_hide (land_trans rfl hm)
    | (split
       all_goals try (rename_i heq
                      have h2 := congrArg Prod.snd heq
                      have h1 := congrArg Prod.fst heq
                      dsimp only at h1 h2
                      subst h1 h2
                      clear heq))
    | dsimp only [Lock.count]
    | dsimp +zetaDelta only

theorem Dev.answer_hide {m : Nat} (hm : 35184372088832 &&& m = 35184372088832) {x : Dev} (s : Dev) (d : Desc)
    (h : Dev.hide m s = x) : Dev.hide m (Dev.answer s d) = x := by
  unfold Dev.answer
  repeat' first
    | with_reducible assumption
    | intro _
    | extract_lets
    | with_reducible apply hide_ite
    | with_reducible apply hide_next
    | (split
       all_goals try (rename_i heq
                      have h2 := congrArg Prod.snd heq
                      have h1 := congrArg Prod.fst heq
                      dsimp only at h1 h2
                      subst h1 h2
                      clear heq))
    | with_reducible apply Dev.hide_upd_45 (land_trans rfl hm)
    | dsimp only [Lock.count]
    | dsimp +zetaDelta only

theorem Dev.holdLane_hide {m : Nat} (hm : 512 &&& m = 512) {x : Dev} (s : Dev) (who : Nat × Nat) (c : Nat)
    (h : Dev.hide m s = x) : Dev.hide m (Dev.holdLane s who c) = x := by
  unfold Dev.holdLane
  repeat' first
    | with_reducible assumption
    | intro _
    | extract_lets
    | with_reducible apply hide_ite
    | with_reducible apply hide_next
    | with_reducible apply Dev.modCell_hide (land_trans rfl hm)
    | (split
       all_goals try (rename_i heq
                      have h2 := congrArg Prod.snd heq
                      have h1 := congrArg Prod.fst heq
                      dsimp only at h1 h2
                      subst h1 h2
                      clear heq))
    | dsimp only [Lock.count]
    | dsimp +zetaDelta only

theorem Dev.chanDone_hide {m : Nat} (hm : 36028797018963968 &&& m = 36028797018963968) {x : Dev} (s : Dev) (who : Nat × Nat) (op : Nat) (status : Nat) (r0 : Nat)
    (h : Dev.hide m s = x) : Dev.hide m (Dev.chanDone s who op status r0) = x := by
  unfold Dev.chanDone
  repeat' first
    | with_reducible assumption
    | intro _
    | extract_lets
    | with_reducible apply hide_ite
    | with_reducible apply hide_next
    | with_reducible apply Dev.complete_hide (land_trans rfl hm)
    | (split
       all_goals try (rename_i heq
                      have h2 := congrArg Prod.snd heq
                      have h1 := congrArg Prod.fst heq
                      dsimp only at h1 h2
                      subst h1 h2
                      clear heq))
    | dsimp only [Lock.count]
    | dsimp +zetaDelta only

theorem Dev.chanLane_hide {m : Nat} (hm : 512 &&& m = 512) {x : Dev} (who : Nat × Nat) (i : Nat)
    (f : Dev → Nat → CmdRes × Dev) (h_f : ∀ u0 u1 y, Dev.hide m u0 = y → Dev.hide m (f u0 u1).2 = y)
    (p : Nat × Nat × Nat × Dev) (l : Nat) (h : Dev.hide m p.2.2.2 = x) :
    Dev.hide m (Dev.chanLane who i f p l).2.2.2 = x := by
  unfold Dev.chanLane
  extract_lets c bit
  have hf := h_f p.2.2.2 c x h
  split <;> rename_i heq <;> rw [heq] at hf
  · exact hf
  · exact h
  · exact Dev.holdLane_hide (land_trans rfl hm) _ _ _ hf

theorem Dev.chanRun_hide {m : Nat} (hm : 108086391056892416 &&& m = 108086391056892416) {x : Dev} (s : Dev) (who : Nat × Nat) (op : Nat) (one : Bool) (i : Nat) (f : Dev → Nat → CmdRes × Dev) (h_f : ∀ u0 u1 y, Dev.hide m u0 = y → Dev.hide m (f u0 u1).2 = y)
    (h : Dev.hide m s = x) : Dev.hide m (Dev.chanRun s who op one i f) = x := by
  unfold Dev.chanRun
  split
  · have hf := h_f s i x h
    split <;> rename_i heq <;> rw [heq] at hf
    · exact Dev.chanDone_hide (land_trans rfl hm) _ _ _ _ _ hf
    · exact Dev.chanDone_hide (land_trans rfl hm) _ _ _ _ _ h
    · exact Dev.holdLane_hide (land_trans rfl hm) _ _ _ hf
  · have hq : Dev.hide m ((List.range 8).foldl (Dev.chanLane who i f) (0, 0, 0, s)).2.2.2 = x :=
      hide_foldl4 (fun t a y ht => Dev.chanLane_hide (land_trans rfl hm) who i f h_f t a ht) h
    split
    rename_i heq
    rw [heq] at hq
    split
    · exact Dev.chanDone_hide (land_trans rfl hm) _ _ _ _ _ hq
    · exact Dev.hide_upd_56 (land_trans rfl hm) hq

theorem Dev.reply_hide {m : Nat} (hm : 36063981391052800 &&& m = 36063981391052800) {x : Dev} (s : Dev) (d : Desc) (op : Nat) (status : Nat) (r0 : Nat) (r1 : Nat)
    (h : Dev.hide m s = x) : Dev.hide m (Dev.reply s d op status r0 r1) = x := by
  unfold Dev.reply
  repeat' first
    | with_reducible assumption
    | intro _
    | extract_lets
    | with_reducible apply hide_ite
    | with_reducible apply hide_next
    | with_reducible apply Dev.answer_hide (land_trans rfl hm)
    | with_reducible apply Dev.complete_hide (land_trans rfl hm)
    | (split
       all_goals try (rename_i heq
                      have h2 := congrArg Prod.snd heq
                      have h1 := congrArg Prod.fst heq
                      dsimp only at h1 h2
                      subst h1 h2
                      clear heq))
    | dsimp only [Lock.count]
    | dsimp +zetaDelta only

theorem Dev.fail_hide {m : Nat} (hm : 36063981391052800 &&& m = 36063981391052800) {x : Dev} (s : Dev) (d : Desc) (op : Nat) (status : Nat)
    (h : Dev.hide m s = x) : Dev.hide m (Dev.fail s d op status) = x := by
  unfold Dev.fail
  repeat' first
    | with_reducible assumption
    | intro _
    | extract_lets
    | with_reducible apply hide_ite
    | with_reducible apply hide_next
    | with_reducible apply Dev.reply_hide (land_trans rfl hm)
    | (split
       all_goals try (rename_i heq
                      have h2 := congrArg Prod.snd heq
                      have h1 := congrArg Prod.fst heq
                      dsimp only at h1 h2
                      subst h1 h2
                      clear heq))
    | dsimp only [Lock.count]
    | dsimp +zetaDelta only

theorem Dev.setReplica_hide {m : Nat} (hm : 128 &&& m = 128) {x : Dev} (s : Dev) (g : Nat) (v : Replica)
    (h : Dev.hide m s = x) : Dev.hide m (Dev.setReplica s g v) = x := by
  unfold Dev.setReplica
  repeat' first
    | with_reducible assumption
    | intro _
    | extract_lets
    | with_reducible apply hide_ite
    | with_reducible apply hide_next
    | (split
       all_goals try (rename_i heq
                      have h2 := congrArg Prod.snd heq
                      have h1 := congrArg Prod.fst heq
                      dsimp only at h1 h2
                      subst h1 h2
                      clear heq))
    | with_reducible apply Dev.hide_upd_7 (land_trans rfl hm)
    | dsimp only [Lock.count]
    | dsimp +zetaDelta only

theorem Dev.wakeRelease_hide {m : Nat} (hm : 702570639013187073 &&& m = 702570639013187073) {x : Dev} (s : Dev) (g : Nat)
    (h : Dev.hide m s = x) : Dev.hide m (Dev.wakeRelease s g) = x := by
  unfold Dev.wakeRelease
  repeat' first
    | with_reducible assumption
    | intro _
    | extract_lets
    | with_reducible apply hide_ite
    | with_reducible apply hide_next
    | with_reducible apply Dev.goto_hide (land_trans rfl hm)
    | with_reducible apply Dev.modCell_hide (land_trans rfl hm)
    | with_reducible apply Dev.forEach_hide (land_trans rfl hm)
    | with_reducible apply Dev.modRegion_hide (land_trans rfl hm)
    | (split
       all_goals try (rename_i heq
                      have h2 := congrArg Prod.snd heq
                      have h1 := congrArg Prod.fst heq
                      dsimp only at h1 h2
                      subst h1 h2
                      clear heq))
    | dsimp only [Lock.count]
    | dsimp +zetaDelta only

theorem Dev.replicaState_hide {m : Nat} (hm : 702570639013187073 &&& m = 702570639013187073) {x : Dev} (s : Dev) (g : Nat) (st : ReplicaState)
    (h : Dev.hide m s = x) : Dev.hide m (Dev.replicaState s g st) = x := by
  unfold Dev.replicaState
  repeat' first
    | with_reducible assumption
    | intro _
    | extract_lets
    | with_reducible apply hide_ite
    | with_reducible apply hide_next
    | with_reducible apply Dev.wakeRelease_hide (land_trans rfl hm)
    | with_reducible apply Dev.modRegion_hide (land_trans rfl hm)
    | (split
       all_goals try (rename_i heq
                      have h2 := congrArg Prod.snd heq
                      have h1 := congrArg Prod.fst heq
                      dsimp only at h1 h2
                      subst h1 h2
                      clear heq))
    | dsimp only [Lock.count]
    | dsimp +zetaDelta only

theorem Dev.wakeRegion_hide {m : Nat} (hm : 703696538920029825 &&& m = 703696538920029825) {x : Dev} (s : Dev) (g : Nat)
    (h : Dev.hide m s = x) : Dev.hide m (Dev.wakeRegion s g) = x := by
  unfold Dev.wakeRegion
  repeat' first
    | with_reducible assumption
    | intro _
    | extract_lets
    | with_reducible apply hide_ite
    | with_reducible apply hide_next
    | with_reducible apply Dev.replicaState_hide (land_trans rfl hm)
    | with_reducible apply Dev.setReplica_hide (land_trans rfl hm)
    | with_reducible apply Dev.modRegion_hide (land_trans rfl hm)
    | (split
       all_goals try (rename_i heq
                      have h2 := congrArg Prod.snd heq
                      have h1 := congrArg Prod.fst heq
                      dsimp only at h1 h2
                      subst h1 h2
                      clear heq))
    | with_reducible apply Dev.hide_upd_50 (land_trans rfl hm)
    | dsimp only [Lock.count]
    | dsimp +zetaDelta only

theorem Dev.wakeCause_hide {m : Nat} (hm : 9007199254740992 &&& m = 9007199254740992) {x : Dev} (s : Dev) (bit : Nat)
    (h : Dev.hide m s = x) : Dev.hide m (Dev.wakeCause s bit) = x := by
  unfold Dev.wakeCause
  repeat' first
    | with_reducible assumption
    | intro _
    | extract_lets
    | with_reducible apply hide_ite
    | with_reducible apply hide_next
    | (split
       all_goals try (rename_i heq
                      have h2 := congrArg Prod.snd heq
                      have h1 := congrArg Prod.fst heq
                      dsimp only at h1 h2
                      subst h1 h2
                      clear heq))
    | with_reducible apply Dev.hide_upd_53 (land_trans rfl hm)
    | dsimp only [Lock.count]
    | dsimp +zetaDelta only

theorem Dev.wakeCore_hide {m : Nat} (hm : 11258999068426240 &&& m = 11258999068426240) {x : Dev} (s : Dev)
    (h : Dev.hide m s = x) : Dev.hide m (Dev.wakeCore s) = x := by
  unfold Dev.wakeCore
  repeat' first
    | with_reducible assumption
    | intro _
    | extract_lets
    | with_reducible apply hide_ite
    | with_reducible apply hide_next
    | (split
       all_goals try (rename_i heq
                      have h2 := congrArg Prod.snd heq
                      have h1 := congrArg Prod.fst heq
                      dsimp only at h1 h2
                      subst h1 h2
                      clear heq))
    | with_reducible apply Dev.hide_upd_51_53 (land_trans rfl hm)
    | dsimp only [Lock.count]
    | dsimp +zetaDelta only

theorem Dev.wakeAccess_hide {m : Nat} (hm : 714955537988456065 &&& m = 714955537988456065) {x : Dev} (s : Dev) (g : Option Nat)
    (h : Dev.hide m s = x) : Dev.hide m (Dev.wakeAccess s g) = x := by
  unfold Dev.wakeAccess
  repeat' first
    | with_reducible assumption
    | intro _
    | extract_lets
    | with_reducible apply hide_ite
    | with_reducible apply hide_next
    | with_reducible apply Dev.wakeCore_hide (land_trans rfl hm)
    | with_reducible apply Dev.wakeCause_hide (land_trans rfl hm)
    | with_reducible apply Dev.wakeRegion_hide (land_trans rfl hm)
    | (split
       all_goals try (rename_i heq
                      have h2 := congrArg Prod.snd heq
                      have h1 := congrArg Prod.fst heq
                      dsimp only at h1 h2
                      subst h1 h2
                      clear heq))
    | dsimp only [Lock.count]
    | dsimp +zetaDelta only

theorem Dev.cmd_hide {m : Nat} (hm : 714990722360544897 &&& m = 714990722360544897) {x : Dev} (s : Dev) (d : Desc) (op : Nat) (kinds : List Nat) (masks : List Nat) (f : Dev → Dev) (h_f : ∀ u0 y, Dev.hide m u0 = y → Dev.hide m (f u0) = y)
    (h : Dev.hide m s = x) : Dev.hide m ((Dev.cmd s d op kinds masks f).devOr s) = x := by
  unfold Dev.cmd
  repeat' first
    | with_reducible assumption
    | intro _
    | extract_lets
    | with_reducible apply hide_ite
    | with_reducible apply hide_next
    | with_reducible apply Dev.wakeAccess_hide (land_trans rfl hm)
    | with_reducible apply Dev.fail_hide (land_trans rfl hm)
    | with_reducible apply h_f
    | (split
       all_goals try (rename_i heq
                      have h2 := congrArg Prod.snd heq
                      have h1 := congrArg Prod.fst heq
                      dsimp only at h1 h2
                      subst h1 h2
                      clear heq))
    | dsimp only [Lock.count]
    | dsimp +zetaDelta only

theorem Dev.chanCmd_hide {m : Nat} (hm : 714990722360544897 &&& m = 714990722360544897) {x : Dev} (s : Dev) (d : Desc) (op : Nat) (f : Dev → Nat → CmdRes × Dev) (h_f : ∀ u0 u1 y, Dev.hide m u0 = y → Dev.hide m (f u0 u1).2 = y)
    (h : Dev.hide m s = x) : Dev.hide m ((Dev.chanCmd s d op f).devOr s) = x := by
  unfold Dev.chanCmd
  repeat' first
    | with_reducible assumption
    | intro _
    | extract_lets
    | with_reducible apply hide_ite
    | with_reducible apply hide_next
    | with_reducible apply Dev.cmd_hide (land_trans rfl hm)
    | with_reducible apply Dev.fail_hide (land_trans rfl hm)
    | with_reducible apply Dev.chanRun_hide (land_trans rfl hm)
    | with_reducible apply Dev.answer_hide (land_trans rfl hm)
    | with_reducible apply h_f
    | (split
       all_goals try (rename_i heq
                      have h2 := congrArg Prod.snd heq
                      have h1 := congrArg Prod.fst heq
                      dsimp only at h1 h2
                      subst h1 h2
                      clear heq))
    | dsimp only [Lock.count]
    | dsimp +zetaDelta only

theorem Dev.extUpdate_hide {m : Nat} (hm : 2048 &&& m = 2048) {x : Dev} (s : Dev) (g : Nat)
    (h : Dev.hide m s = x) : Dev.hide m (Dev.extUpdate s g) = x := by
  unfold Dev.extUpdate
  repeat' first
    | with_reducible assumption
    | intro _
    | extract_lets
    | with_reducible apply hide_ite
    | with_reducible apply hide_next
    | with_reducible apply Dev.modRegion_hide (land_trans rfl hm)
    | (split
       all_goals try (rename_i heq
                      have h2 := congrArg Prod.snd heq
                      have h1 := congrArg Prod.fst heq
                      dsimp only at h1 h2
                      subst h1 h2
                      clear heq))
    | dsimp only [Lock.count]
    | dsimp +zetaDelta only

theorem Dev.writeLinkTrip_hide {m : Nat} (hm : 3300682369024 &&& m = 3300682369024) {x : Dev} (s : Dev) (g : Nat) (v : Word)
    (h : Dev.hide m s = x) : Dev.hide m (Dev.writeLinkTrip s g v) = x := by
  unfold Dev.writeLinkTrip
  repeat' first
    | with_reducible assumption
    | intro _
    | extract_lets
    | with_reducible apply hide_ite
    | with_reducible apply hide_next
    | with_reducible apply Dev.extUpdate_hide (land_trans rfl hm)
    | with_reducible apply Dev.setReg_hide (land_trans rfl hm)
    | (split
       all_goals try (rename_i heq
                      have h2 := congrArg Prod.snd heq
                      have h1 := congrArg Prod.fst heq
                      dsimp only at h1 h2
                      subst h1 h2
                      clear heq))
    | with_reducible apply Dev.hide_upd_40_41 (land_trans rfl hm)
    | dsimp only [Lock.count]
    | dsimp +zetaDelta only

theorem Dev.mgRead_hide {m : Nat} (hm : 576460752303423488 &&& m = 576460752303423488) {x : Dev} (s : Dev) (l : List Byte)
    (h : Dev.hide m s = x) : Dev.hide m ((Dev.mgRead s l).devOr s) = x := by
  unfold Dev.mgRead
  repeat' first
    | with_reducible assumption
    | intro _
    | extract_lets
    | with_reducible apply hide_ite
    | with_reducible apply hide_next
    | with_reducible apply Dev.emit_hide (land_trans rfl hm)
    | (split
       all_goals try (rename_i heq
                      have h2 := congrArg Prod.snd heq
                      have h1 := congrArg Prod.fst heq
                      dsimp only at h1 h2
                      subst h1 h2
                      clear heq))
    | dsimp only [Lock.count]
    | dsimp +zetaDelta only

theorem execMgId_hide {m : Nat} (hm : 576460752303423488 &&& m = 576460752303423488) {x : Dev} (s : State)
    (h : Dev.hide m s.dev = x) : Dev.hide m ((execMgId s).stateOr s).dev = x := by
  unfold execMgId
  apply State.on_hide
  repeat' first
    | with_reducible assumption
    | intro _
    | extract_lets
    | with_reducible apply hide_ite
    | with_reducible apply hide_next
    | with_reducible apply Dev.mgRead_hide (land_trans rfl hm)
    | (split
       all_goals try (rename_i heq
                      have h2 := congrArg Prod.snd heq
                      have h1 := congrArg Prod.fst heq
                      dsimp only at h1 h2
                      subst h1 h2
                      clear heq))
    | dsimp only [Lock.count]
    | dsimp +zetaDelta only

theorem Dev.opCmd_hide {m : Nat} (hm : 714990722360544897 &&& m = 714990722360544897) {x : Dev} (s : Dev) (d : Desc) (op : Nat) (masks : List Nat) (f : Dev → Nat → Op → Dev) (h_f : ∀ u0 u1 u2 y, Dev.hide m u0 = y → Dev.hide m (f u0 u1 u2) = y)
    (h : Dev.hide m s = x) : Dev.hide m ((Dev.opCmd s d op masks f).devOr s) = x := by
  unfold Dev.opCmd
  repeat' first
    | with_reducible assumption
    | intro _
    | extract_lets
    | with_reducible apply hide_ite
    | with_reducible apply hide_next
    | with_reducible apply Dev.cmd_hide (land_trans rfl hm)
    | with_reducible apply Dev.fail_hide (land_trans rfl hm)
    | with_reducible apply h_f
    | (split
       all_goals try (rename_i heq
                      have h2 := congrArg Prod.snd heq
                      have h1 := congrArg Prod.fst heq
                      dsimp only at h1 h2
                      subst h1 h2
                      clear heq))
    | dsimp only [Lock.count]
    | dsimp +zetaDelta only

theorem Dev.pendPword_hide {m : Nat} (hm : 17179869184 &&& m = 17179869184) {x : Dev} (s : Dev) (c : Nat) (w : Nat) (v : Word) (mask : Word)
    (h : Dev.hide m s = x) : Dev.hide m (Dev.pendPword s c w v mask) = x := by
  unfold Dev.pendPword
  repeat' first
    | with_reducible assumption
    | intro _
    | extract_lets
    | with_reducible apply hide_ite
    | with_reducible apply hide_next
    | (split
       all_goals try (rename_i heq
                      have h2 := congrArg Prod.snd heq
                      have h1 := congrArg Prod.fst heq
                      dsimp only at h1 h2
                      subst h1 h2
                      clear heq))
    | with_reducible apply Dev.hide_upd_34 (land_trans rfl hm)
    | dsimp only [Lock.count]
    | dsimp +zetaDelta only

theorem Dev.setTow_hide {m : Nat} (hm : 1125899906842624 &&& m = 1125899906842624) {x : Dev} (s : Dev) (t : Nat) (v : Towpath)
    (h : Dev.hide m s = x) : Dev.hide m (Dev.setTow s t v) = x := by
  unfold Dev.setTow
  repeat' first
    | with_reducible assumption
    | intro _
    | extract_lets
    | with_reducible apply hide_ite
    | with_reducible apply hide_next
    | (split
       all_goals try (rename_i heq
                      have h2 := congrArg Prod.snd heq
                      have h1 := congrArg Prod.fst heq
                      dsimp only at h1 h2
                      subst h1 h2
                      clear heq))
    | with_reducible apply Dev.hide_upd_50 (land_trans rfl hm)
    | dsimp only [Lock.count]
    | dsimp +zetaDelta only

theorem Dev.modTow_hide {m : Nat} (hm : 1125899906842624 &&& m = 1125899906842624) {x : Dev} (s : Dev) (t : Nat) (f : Towpath → Towpath)
    (h : Dev.hide m s = x) : Dev.hide m (Dev.modTow s t f) = x := by
  unfold Dev.modTow
  repeat' first
    | with_reducible assumption
    | intro _
    | extract_lets
    | with_reducible apply hide_ite
    | with_reducible apply hide_next
    | with_reducible apply Dev.setTow_hide (land_trans rfl hm)
    | (split
       all_goals try (rename_i heq
                      have h2 := congrArg Prod.snd heq
                      have h1 := congrArg Prod.fst heq
                      dsimp only at h1 h2
                      subst h1 h2
                      clear heq))
    | dsimp only [Lock.count]
    | dsimp +zetaDelta only

theorem Dev.popNotify_hide {m : Nat} (hm : 1125899906842624 &&& m = 1125899906842624) {x : Dev} (s : Dev) (t : Nat)
    (h : Dev.hide m s = x) : Dev.hide m (Dev.popNotify s t).2 = x := by
  unfold Dev.popNotify
  repeat' first
    | with_reducible assumption
    | intro _
    | extract_lets
    | with_reducible apply hide_ite
    | with_reducible apply hide_next
    | with_reducible apply Dev.modTow_hide (land_trans rfl hm)
    | (split
       all_goals try (rename_i heq
                      have h2 := congrArg Prod.snd heq
                      have h1 := congrArg Prod.fst heq
                      dsimp only at h1 h2
                      subst h1 h2
                      clear heq))
    | dsimp only [Lock.count]
    | dsimp +zetaDelta only

theorem execNotifyRead_hide {m : Nat} (hm : 577586652210266112 &&& m = 577586652210266112) {x : Dev} (t : TowIx) (s : State)
    (h : Dev.hide m s.dev = x) : Dev.hide m ((execNotifyRead t s).stateOr s).dev = x := by
  unfold execNotifyRead
  apply State.on_hide
  repeat' first
    | with_reducible assumption
    | intro _
    | extract_lets
    | with_reducible apply hide_ite
    | with_reducible apply hide_next
    | with_reducible apply Dev.popNotify_hide (land_trans rfl hm)
    | with_reducible apply Dev.emit_hide (land_trans rfl hm)
    | (split
       all_goals try (rename_i heq
                      have h2 := congrArg Prod.snd heq
                      have h1 := congrArg Prod.fst heq
                      dsimp only at h1 h2
                      subst h1 h2
                      clear heq))
    | dsimp only [Lock.count]
    | dsimp +zetaDelta only

theorem Dev.modMg_hide {m : Nat} (hm : 2251799813685248 &&& m = 2251799813685248) {x : Dev} (s : Dev) (f : Mgmt → Mgmt)
    (h : Dev.hide m s = x) : Dev.hide m (Dev.modMg s f) = x := by
  unfold Dev.modMg
  repeat' first
    | with_reducible assumption
    | intro _
    | extract_lets
    | with_reducible apply hide_ite
    | with_reducible apply hide_next
    | (split
       all_goals try (rename_i heq
                      have h2 := congrArg Prod.snd heq
                      have h1 := congrArg Prod.fst heq
                      dsimp only at h1 h2
                      subst h1 h2
                      clear heq))
    | with_reducible apply Dev.hide_upd_51 (land_trans rfl hm)
    | dsimp only [Lock.count]
    | dsimp +zetaDelta only

theorem Dev.mgNack_hide {m : Nat} (hm : 2251799813685248 &&& m = 2251799813685248) {x : Dev} (s : Dev)
    (h : Dev.hide m s = x) : Dev.hide m (Dev.mgNack s) = x := by
  unfold Dev.mgNack
  repeat' first
    | with_reducible assumption
    | intro _
    | extract_lets
    | with_reducible apply hide_ite
    | with_reducible apply hide_next
    | with_reducible apply Dev.modMg_hide (land_trans rfl hm)
    | (split
       all_goals try (rename_i heq
                      have h2 := congrArg Prod.snd heq
                      have h1 := congrArg Prod.fst heq
                      dsimp only at h1 h2
                      subst h1 h2
                      clear heq))
    | dsimp only [Lock.count]
    | dsimp +zetaDelta only

theorem Dev.mgPecBad_hide {m : Nat} (hm : 2251799813685248 &&& m = 2251799813685248) {x : Dev} (s : Dev)
    (h : Dev.hide m s = x) : Dev.hide m (Dev.mgPecBad s) = x := by
  unfold Dev.mgPecBad
  repeat' first
    | with_reducible assumption
    | intro _
    | extract_lets
    | with_reducible apply hide_ite
    | with_reducible apply hide_next
    | with_reducible apply Dev.modMg_hide (land_trans rfl hm)
    | (split
       all_goals try (rename_i heq
                      have h2 := congrArg Prod.snd heq
                      have h1 := congrArg Prod.fst heq
                      dsimp only at h1 h2
                      subst h1 h2
                      clear heq))
    | dsimp only [Lock.count]
    | dsimp +zetaDelta only

theorem execMgCellSel_hide {m : Nat} (hm : 2251799813685248 &&& m = 2251799813685248) {x : Dev} (v : BitVec 16) (pec : Option Byte) (s : State)
    (h : Dev.hide m s.dev = x) : Dev.hide m ((execMgCellSel v pec s).stateOr s).dev = x := by
  unfold execMgCellSel
  apply State.on_hide
  repeat' first
    | with_reducible assumption
    | intro _
    | extract_lets
    | with_reducible apply hide_ite
    | with_reducible apply hide_next
    | with_reducible apply Dev.mgPecBad_hide (land_trans rfl hm)
    | with_reducible apply Dev.mgNack_hide (land_trans rfl hm)
    | with_reducible apply Dev.modMg_hide (land_trans rfl hm)
    | (split
       all_goals try (rename_i heq
                      have h2 := congrArg Prod.snd heq
                      have h1 := congrArg Prod.fst heq
                      dsimp only at h1 h2
                      subst h1 h2
                      clear heq))
    | dsimp only [Lock.count]
    | dsimp +zetaDelta only

theorem Dev.modRv_hide {m : Nat} (hm : 562949953421312 &&& m = 562949953421312) {x : Dev} (s : Dev) (f : Reserve → Reserve)
    (h : Dev.hide m s = x) : Dev.hide m (Dev.modRv s f) = x := by
  unfold Dev.modRv
  repeat' first
    | with_reducible assumption
    | intro _
    | extract_lets
    | with_reducible apply hide_ite
    | with_reducible apply hide_next
    | (split
       all_goals try (rename_i heq
                      have h2 := congrArg Prod.snd heq
                      have h1 := congrArg Prod.fst heq
                      dsimp only at h1 h2
                      subst h1 h2
                      clear heq))
    | with_reducible apply Dev.hide_upd_49 (land_trans rfl hm)
    | dsimp only [Lock.count]
    | dsimp +zetaDelta only

theorem Dev.rvFaultEnd_hide {m : Nat} (hm : 18577382822647808 &&& m = 18577382822647808) {x : Dev} (s : Dev) (n : Nat)
    (h : Dev.hide m s = x) : Dev.hide m (Dev.rvFaultEnd s n) = x := by
  unfold Dev.rvFaultEnd
  repeat' first
    | with_reducible assumption
    | intro _
    | extract_lets
    | with_reducible apply hide_ite
    | with_reducible apply hide_next
    | with_reducible apply Dev.modRv_hide (land_trans rfl hm)
    | with_reducible apply Dev.unoccur_hide (land_trans rfl hm)
    | (split
       all_goals try (rename_i heq
                      have h2 := congrArg Prod.snd heq
                      have h1 := congrArg Prod.fst heq
                      dsimp only at h1 h2
                      subst h1 h2
                      clear heq))
    | dsimp only [Lock.count]
    | dsimp +zetaDelta only

theorem Dev.rvEvent_hide {m : Nat} (hm : 18014398509486080 &&& m = 18014398509486080) {x : Dev} (s : Dev) (code : Nat) (flag : Bool) (payload : List Word)
    (h : Dev.hide m s = x) : Dev.hide m (Dev.rvEvent s code flag payload) = x := by
  unfold Dev.rvEvent
  repeat' first
    | with_reducible assumption
    | intro _
    | extract_lets
    | with_reducible apply hide_ite
    | with_reducible apply hide_next
    | with_reducible apply Dev.irqAll_hide (land_trans rfl hm)
    | with_reducible apply Dev.raise_hide (land_trans rfl hm)
    | (split
       all_goals try (rename_i heq
                      have h2 := congrArg Prod.snd heq
                      have h1 := congrArg Prod.fst heq
                      dsimp only at h1 h2
                      subst h1 h2
                      clear heq))
    | dsimp only [Lock.count]
    | dsimp +zetaDelta only

theorem Dev.chgGoto_hide {m : Nat} (hm : 18577354905358336 &&& m = 18577354905358336) {x : Dev} (s : Dev) (new : Nat) (reason : Nat)
    (h : Dev.hide m s = x) : Dev.hide m (Dev.chgGoto s new reason) = x := by
  unfold Dev.chgGoto
  repeat' first
    | with_reducible assumption
    | intro _
    | extract_lets
    | with_reducible apply hide_ite
    | with_reducible apply hide_next
    | with_reducible apply Dev.rvEvent_hide (land_trans rfl hm)
    | with_reducible apply Dev.modRv_hide (land_trans rfl hm)
    | with_reducible apply Dev.commitReg_hide (land_trans rfl hm)
    | with_reducible apply Dev.forEach_hide (land_trans rfl hm)
    | (split
       all_goals try (rename_i heq
                      have h2 := congrArg Prod.snd heq
                      have h1 := congrArg Prod.fst heq
                      dsimp only at h1 h2
                      subst h1 h2
                      clear heq))
    | dsimp only [Lock.count]
    | dsimp +zetaDelta only

theorem Dev.chgWait_hide {m : Nat} (hm : 18577354905358336 &&& m = 18577354905358336) {x : Dev} (s : Dev) (reason : Nat)
    (h : Dev.hide m s = x) : Dev.hide m (Dev.chgWait s reason) = x := by
  unfold Dev.chgWait
  repeat' first
    | with_reducible assumption
    | intro _
    | extract_lets
    | with_reducible apply hide_ite
    | with_reducible apply hide_next
    | with_reducible apply Dev.chgGoto_hide (land_trans rfl hm)
    | (split
       all_goals try (rename_i heq
                      have h2 := congrArg Prod.snd heq
                      have h1 := congrArg Prod.fst heq
                      dsimp only at h1 h2
                      subst h1 h2
                      clear heq))
    | dsimp only [Lock.count]
    | dsimp +zetaDelta only

theorem Dev.rvFault_hide {m : Nat} (hm : 847248886597688833 &&& m = 847248886597688833) {x : Dev} (s : Dev) (n : Nat)
    (h : Dev.hide m s = x) : Dev.hide m (Dev.rvFault s n) = x := by
  unfold Dev.rvFault
  repeat' first
    | with_reducible assumption
    | intro _
    | extract_lets
    | with_reducible apply hide_ite
    | with_reducible apply hide_next
    | with_reducible apply Dev.chgWait_hide (land_trans rfl hm)
    | with_reducible apply Dev.rvEvent_hide (land_trans rfl hm)
    | with_reducible apply Dev.modRv_hide (land_trans rfl hm)
    | with_reducible apply Dev.occur_hide (land_trans rfl hm)
    | (split
       all_goals try (rename_i heq
                      have h2 := congrArg Prod.snd heq
                      have h1 := congrArg Prod.fst heq
                      dsimp only at h1 h2
                      subst h1 h2
                      clear heq))
    | dsimp only [Lock.count]
    | dsimp +zetaDelta only

theorem Dev.rvLive_hide {m : Nat} (hm : 847248886597688833 &&& m = 847248886597688833) {x : Dev} (s : Dev) (n : Nat) (live : Bool)
    (h : Dev.hide m s = x) : Dev.hide m (Dev.rvLive s n live) = x := by
  unfold Dev.rvLive
  repeat' first
    | with_reducible assumption
    | intro _
    | extract_lets
    | with_reducible apply hide_ite
    | with_reducible apply hide_next
    | with_reducible apply Dev.rvFault_hide (land_trans rfl hm)
    | with_reducible apply Dev.rvFaultEnd_hide (land_trans rfl hm)
    | (split
       all_goals try (rename_i heq
                      have h2 := congrArg Prod.snd heq
                      have h1 := congrArg Prod.fst heq
                      dsimp only at h1 h2
                      subst h1 h2
                      clear heq))
    | dsimp only [Lock.count]
    | dsimp +zetaDelta only

theorem execInPathFail_hide {m : Nat} (hm : 847248886597688833 &&& m = 847248886597688833) {x : Dev} (live : Bool) (s : State)
    (h : Dev.hide m s.dev = x) : Dev.hide m ((execInPathFail live s).stateOr s).dev = x := by
  unfold execInPathFail
  apply State.on_hide
  repeat' first
    | with_reducible assumption
    | intro _
    | extract_lets
    | with_reducible apply hide_ite
    | with_reducible apply hide_next
    | with_reducible apply Dev.rvLive_hide (land_trans rfl hm)
    | (split
       all_goals try (rename_i heq
                      have h2 := congrArg Prod.snd heq
                      have h1 := congrArg Prod.fst heq
                      dsimp only at h1 h2
                      subst h1 h2
                      clear heq))
    | dsimp only [Lock.count]
    | dsimp +zetaDelta only

theorem Dev.softStart_hide {m : Nat} (hm : 18014400690526208 &&& m = 18014400690526208) {x : Dev} (s : Dev) (k : Nat)
    (h : Dev.hide m s = x) : Dev.hide m (Dev.softStart s k) = x := by
  unfold Dev.softStart
  repeat' first
    | with_reducible assumption
    | intro _
    | extract_lets
    | with_reducible apply hide_ite
    | with_reducible apply hide_next
    | with_reducible apply Dev.modSlice_hide (land_trans rfl hm)
    | with_reducible apply Dev.putReg_hide (land_trans rfl hm)
    | with_reducible apply Dev.sliceGoto_hide (land_trans rfl hm)
    | (split
       all_goals try (rename_i heq
                      have h2 := congrArg Prod.snd heq
                      have h1 := congrArg Prod.fst heq
                      dsimp only at h1 h2
                      subst h1 h2
                      clear heq))
    | dsimp only [Lock.count]
    | dsimp +zetaDelta only

theorem Dev.ctxUse_hide {m : Nat} (hm : 35184372088832 &&& m = 35184372088832) {x : Dev} (s : Dev) (r : Nat)
    (h : Dev.hide m s = x) : Dev.hide m (Dev.ctxUse s r) = x := by
  unfold Dev.ctxUse
  repeat' first
    | with_reducible assumption
    | intro _
    | extract_lets
    | with_reducible apply hide_ite
    | with_reducible apply hide_next
    | (split
       all_goals try (rename_i heq
                      have h2 := congrArg Prod.snd heq
                      have h1 := congrArg Prod.fst heq
                      dsimp only at h1 h2
                      subst h1 h2
                      clear heq))
    | with_reducible apply Dev.hide_upd_45 (land_trans rfl hm)
    | dsimp only [Lock.count]
    | dsimp +zetaDelta only

theorem execOnIntervalEnd_hide {m : Nat} (hm : 33554432 &&& m = 33554432) {x : Dev} (k : SliceIx) (s : State)
    (h : Dev.hide m s.dev = x) : Dev.hide m ((execOnIntervalEnd k s).stateOr s).dev = x := by
  unfold execOnIntervalEnd
  apply State.on_hide
  repeat' first
    | with_reducible assumption
    | intro _
    | extract_lets
    | with_reducible apply hide_ite
    | with_reducible apply hide_next
    | with_reducible apply Dev.setSlice_hide (land_trans rfl hm)
    | (split
       all_goals try (rename_i heq
                      have h2 := congrArg Prod.snd heq
                      have h1 := congrArg Prod.fst heq
                      dsimp only at h1 h2
                      subst h1 h2
                      clear heq))
    | dsimp only [Lock.count]
    | dsimp +zetaDelta only

theorem Dev.takeReport_hide {m : Nat} (hm : 846685936644267521 &&& m = 846685936644267521) {x : Dev} (s : Dev) (r : Report)
    (h : Dev.hide m s = x) : Dev.hide m (Dev.takeReport s r) = x := by
  unfold Dev.takeReport
  repeat' first
    | with_reducible assumption
    | intro _
    | extract_lets
    | with_reducible apply hide_ite
    | with_reducible apply hide_next
    | with_reducible apply Dev.occur_hide (land_trans rfl hm)
    | with_reducible apply Dev.errAssert_hide (land_trans rfl hm)
    | with_reducible apply Dev.stand_hide (land_trans rfl hm)
    | (split
       all_goals try (rename_i heq
                      have h2 := congrArg Prod.snd heq
                      have h1 := congrArg Prod.fst heq
                      dsimp only at h1 h2
                      subst h1 h2
                      clear heq))
    | dsimp only [Lock.count]
    | dsimp +zetaDelta only

theorem execRegionReport_hide {m : Nat} (hm : 846685936644267521 &&& m = 846685936644267521) {x : Dev} (s : State)
    (h : Dev.hide m s.dev = x) : Dev.hide m ((execRegionReport s).stateOr s).dev = x := by
  unfold execRegionReport
  apply State.on_hide
  repeat' first
    | with_reducible assumption
    | intro _
    | extract_lets
    | with_reducible apply hide_ite
    | with_reducible apply hide_next
    | with_reducible apply Dev.takeReport_hide (land_trans rfl hm)
    | (split
       all_goals try (rename_i heq
                      have h2 := congrArg Prod.snd heq
                      have h1 := congrArg Prod.fst heq
                      dsimp only at h1 h2
                      subst h1 h2
                      clear heq))
    | with_reducible apply Dev.hide_upd_57 (land_trans rfl hm)
    | dsimp only [Lock.count]
    | dsimp +zetaDelta only

theorem Dev.skipCount_hide {m : Nat} (hm : 18014398543042560 &&& m = 18014398543042560) {x : Dev} (s : Dev) (k : Nat) (short : Bool) (omitted : Bool)
    (h : Dev.hide m s = x) : Dev.hide m (Dev.skipCount s k short omitted) = x := by
  unfold Dev.skipCount
  repeat' first
    | with_reducible assumption
    | intro _
    | extract_lets
    | with_reducible apply hide_ite
    | with_reducible apply hide_next
    | with_reducible apply Dev.sliceEvent_hide (land_trans rfl hm)
    | with_reducible apply Dev.setSlice_hide (land_trans rfl hm)
    | (split
       all_goals try (rename_i heq
                      have h2 := congrArg Prod.snd heq
                      have h1 := congrArg Prod.fst heq
                      dsimp only at h1 h2
                      subst h1 h2
                      clear heq))
    | dsimp only [Lock.count]
    | dsimp +zetaDelta only

theorem Dev.edgeLatch_hide {m : Nat} (hm : 18014404985493504 &&& m = 18014404985493504) {x : Dev} (s : Dev) (k : Nat) (us : Nat)
    (h : Dev.hide m s = x) : Dev.hide m (Dev.edgeLatch s k us) = x := by
  unfold Dev.edgeLatch
  repeat' first
    | with_reducible assumption
    | intro _
    | extract_lets
    | with_reducible apply hide_ite
    | with_reducible apply hide_next
    | with_reducible apply Dev.skipCount_hide (land_trans rfl hm)
    | with_reducible apply Dev.modSlice_hide (land_trans rfl hm)
    | with_reducible apply Dev.commitCs_hide (land_trans rfl hm)
    | with_reducible apply Dev.commitReg_hide (land_trans rfl hm)
    | (split
       all_goals try (rename_i heq
                      have h2 := congrArg Prod.snd heq
                      have h1 := congrArg Prod.fst heq
                      dsimp only at h1 h2
                      subst h1 h2
                      clear heq))
    | dsimp only [Lock.count]
    | dsimp +zetaDelta only

theorem Dev.edgeState_hide {m : Nat} (hm : 18014404985493504 &&& m = 18014404985493504) {x : Dev} (s : Dev) (k : Nat) (us : Nat)
    (h : Dev.hide m s = x) : Dev.hide m (Dev.edgeState s k us) = x := by
  unfold Dev.edgeState
  repeat' first
    | with_reducible assumption
    | intro _
    | extract_lets
    | with_reducible apply hide_ite
    | with_reducible apply hide_next
    | with_reducible apply Dev.modSlice_hide (land_trans rfl hm)
    | with_reducible apply Dev.commitCs_hide (land_trans rfl hm)
    | with_reducible apply Dev.sliceGoto_hide (land_trans rfl hm)
    | with_reducible apply Dev.cutUpdate_hide (land_trans rfl hm)
    | with_reducible apply Dev.cutEvent_hide (land_trans rfl hm)
    | with_reducible apply Dev.setSlice_hide (land_trans rfl hm)
    | (split
       all_goals try (rename_i heq
                      have h2 := congrArg Prod.snd heq
                      have h1 := congrArg Prod.fst heq
                      dsimp only at h1 h2
                      subst h1 h2
                      clear heq))
    | dsimp only [Lock.count]
    | dsimp +zetaDelta only

theorem Dev.periodEdge_hide {m : Nat} (hm : 18014404985493504 &&& m = 18014404985493504) {x : Dev} (s : Dev) (k : Nat) (us : Nat)
    (h : Dev.hide m s = x) : Dev.hide m (Dev.periodEdge s k us) = x := by
  unfold Dev.periodEdge
  repeat' first
    | with_reducible assumption
    | intro _
    | extract_lets
    | with_reducible apply hide_ite
    | with_reducible apply hide_next
    | with_reducible apply Dev.edgeState_hide (land_trans rfl hm)
    | with_reducible apply Dev.edgeLatch_hide (land_trans rfl hm)
    | with_reducible apply Dev.modSlice_hide (land_trans rfl hm)
    | (split
       all_goals try (rename_i heq
                      have h2 := congrArg Prod.snd heq
                      have h1 := congrArg Prod.fst heq
                      dsimp only at h1 h2
                      subst h1 h2
                      clear heq))
    | dsimp only [Lock.count]
    | dsimp +zetaDelta only

theorem execPerMaxEdge_hide {m : Nat} (hm : 18014404985493504 &&& m = 18014404985493504) {x : Dev} (k : SliceIx) (us : Word) (s : State)
    (h : Dev.hide m s.dev = x) : Dev.hide m ((execPerMaxEdge k us s).stateOr s).dev = x := by
  unfold execPerMaxEdge
  apply State.on_hide
  repeat' first
    | with_reducible assumption
    | intro _
    | extract_lets
    | with_reducible apply hide_ite
    | with_reducible apply hide_next
    | with_reducible apply Dev.periodEdge_hide (land_trans rfl hm)
    | with_reducible apply Dev.modSlice_hide (land_trans rfl hm)
    | (split
       all_goals try (rename_i heq
                      have h2 := congrArg Prod.snd heq
                      have h1 := congrArg Prod.fst heq
                      dsimp only at h1 h2
                      subst h1 h2
                      clear heq))
    | dsimp only [Lock.count]
    | dsimp +zetaDelta only

theorem execChipSafeRequest_hide {m : Nat} (hm : 702570679848934913 &&& m = 702570679848934913) {x : Dev} (g : RegionIx) (s : State)
    (h : Dev.hide m s.dev = x) : Dev.hide m ((execChipSafeRequest g s).stateOr s).dev = x := by
  unfold execChipSafeRequest
  apply State.on_hide
  repeat' first
    | with_reducible assumption
    | intro _
    | extract_lets
    | with_reducible apply hide_ite
    | with_reducible apply hide_next
    | with_reducible apply Dev.regionSafe_hide (land_trans rfl hm)
    | (split
       all_goals try (rename_i heq
                      have h2 := congrArg Prod.snd heq
                      have h1 := congrArg Prod.fst heq
                      dsimp only at h1 h2
                      subst h1 h2
                      clear heq))
    | dsimp only [Lock.count]
    | dsimp +zetaDelta only

theorem Dev.modDbg_hide {m : Nat} (hm : 262144 &&& m = 262144) {x : Dev} (s : Dev) (f : DebugPort → DebugPort)
    (h : Dev.hide m s = x) : Dev.hide m (Dev.modDbg s f) = x := by
  unfold Dev.modDbg
  repeat' first
    | with_reducible assumption
    | intro _
    | extract_lets
    | with_reducible apply hide_ite
    | with_reducible apply hide_next
    | (split
       all_goals try (rename_i heq
                      have h2 := congrArg Prod.snd heq
                      have h1 := congrArg Prod.fst heq
                      dsimp only at h1 h2
                      subst h1 h2
                      clear heq))
    | with_reducible apply Dev.hide_upd_18 (land_trans rfl hm)
    | dsimp only [Lock.count]
    | dsimp +zetaDelta only

theorem Dev.dbgDenied_hide {m : Nat} (hm : 262144 &&& m = 262144) {x : Dev} (s : Dev)
    (h : Dev.hide m s = x) : Dev.hide m (Dev.dbgDenied s) = x := by
  unfold Dev.dbgDenied
  repeat' first
    | with_reducible assumption
    | intro _
    | extract_lets
    | with_reducible apply hide_ite
    | with_reducible apply hide_next
    | with_reducible apply Dev.modDbg_hide (land_trans rfl hm)
    | (split
       all_goals try (rename_i heq
                      have h2 := congrArg Prod.snd heq
                      have h1 := congrArg Prod.fst heq
                      dsimp only at h1 h2
                      subst h1 h2
                      clear heq))
    | dsimp only [Lock.count]
    | dsimp +zetaDelta only

theorem Dev.ndl_hide {m : Nat} (hm : 576460752303423488 &&& m = 576460752303423488) {x : Dev} (s : Dev) (ack : Nat) (data : List Word)
    (h : Dev.hide m s = x) : Dev.hide m (Dev.ndl s ack data) = x := by
  unfold Dev.ndl
  repeat' first
    | with_reducible assumption
    | intro _
    | extract_lets
    | with_reducible apply hide_ite
    | with_reducible apply hide_next
    | with_reducible apply Dev.emit_hide (land_trans rfl hm)
    | (split
       all_goals try (rename_i heq
                      have h2 := congrArg Prod.snd heq
                      have h1 := congrArg Prod.fst heq
                      dsimp only at h1 h2
                      subst h1 h2
                      clear heq))
    | dsimp only [Lock.count]
    | dsimp +zetaDelta only

theorem Dev.ndlFault_hide {m : Nat} (hm : 576460752303685632 &&& m = 576460752303685632) {x : Dev} (s : Dev) (reason : Nat)
    (h : Dev.hide m s = x) : Dev.hide m (Dev.ndlFault s reason) = x := by
  unfold Dev.ndlFault
  repeat' first
    | with_reducible assumption
    | intro _
    | extract_lets
    | with_reducible apply hide_ite
    | with_reducible apply hide_next
    | with_reducible apply Dev.ndl_hide (land_trans rfl hm)
    | with_reducible apply Dev.modDbg_hide (land_trans rfl hm)
    | (split
       all_goals try (rename_i heq
                      have h2 := congrArg Prod.snd heq
                      have h1 := congrArg Prod.fst heq
                      dsimp only at h1 h2
                      subst h1 h2
                      clear heq))
    | dsimp only [Lock.count]
    | dsimp +zetaDelta only

theorem Dev.dbgTry_hide {m : Nat} (hm : 576460752303685632 &&& m = 576460752303685632) {x : Dev} (s : Dev) (v : Quad)
    (h : Dev.hide m s = x) : Dev.hide m (Dev.dbgTry s v) = x := by
  unfold Dev.dbgTry
  repeat' first
    | with_reducible assumption
    | intro _
    | extract_lets
    | with_reducible apply hide_ite
    | with_reducible apply hide_next
    | with_reducible apply Dev.ndlFault_hide (land_trans rfl hm)
    | with_reducible apply Dev.ndl_hide (land_trans rfl hm)
    | with_reducible apply Dev.dbgDenied_hide (land_trans rfl hm)
    | with_reducible apply Dev.modDbg_hide (land_trans rfl hm)
    | (split
       all_goals try (rename_i heq
                      have h2 := congrArg Prod.snd heq
                      have h1 := congrArg Prod.fst heq
                      dsimp only at h1 h2
                      subst h1 h2
                      clear heq))
    | dsimp only [Lock.count]
    | dsimp +zetaDelta only

theorem Dev.ndlReq_hide {m : Nat} (hm : 576460752303685632 &&& m = 576460752303685632) {x : Dev} (s : Dev) (locked : Bool) (f : Dev → Dev) (h_f : ∀ u0 y, Dev.hide m u0 = y → Dev.hide m (f u0) = y)
    (h : Dev.hide m s = x) : Dev.hide m ((Dev.ndlReq s locked f).devOr s) = x := by
  unfold Dev.ndlReq
  repeat' first
    | with_reducible assumption
    | intro _
    | extract_lets
    | with_reducible apply hide_ite
    | with_reducible apply hide_next
    | with_reducible apply Dev.ndl_hide (land_trans rfl hm)
    | with_reducible apply Dev.modDbg_hide (land_trans rfl hm)
    | with_reducible apply h_f
    | (split
       all_goals try (rename_i heq
                      have h2 := congrArg Prod.snd heq
                      have h1 := congrArg Prod.fst heq
                      dsimp only at h1 h2
                      subst h1 h2
                      clear heq))
    | dsimp only [Lock.count]
    | dsimp +zetaDelta only

theorem execDbgAuth_hide {m : Nat} (hm : 576460752303685632 &&& m = 576460752303685632) {x : Dev} (v : Quad) (s : State)
    (h : Dev.hide m s.dev = x) : Dev.hide m ((execDbgAuth v s).stateOr s).dev = x := by
  unfold execDbgAuth
  apply State.on_hide
  repeat' first
    | with_reducible assumption
    | intro _
    | extract_lets
    | with_reducible apply hide_ite
    | with_reducible apply hide_next
    | with_reducible apply Dev.ndlReq_hide (land_trans rfl hm)
    | with_reducible apply Dev.dbgTry_hide (land_trans rfl hm)
    | (split
       all_goals try (rename_i heq
                      have h2 := congrArg Prod.snd heq
                      have h1 := congrArg Prod.fst heq
                      dsimp only at h1 h2
                      subst h1 h2
                      clear heq))
    | dsimp only [Lock.count]
    | dsimp +zetaDelta only

theorem Dev.bgRead_hide {m : Nat} (hm : 4097 &&& m = 4097) {x : Dev} (s : Dev) (e : Nat) (off : Nat) (size : Nat)
    (h : Dev.hide m s = x) : Dev.hide m (Dev.bgRead s e off size).2 = x := by
  unfold Dev.bgRead
  repeat' first
    | with_reducible assumption
    | intro _
    | extract_lets
    | with_reducible apply hide_ite
    | with_reducible apply hide_next
    | with_reducible apply Dev.drawNat_hide (land_trans rfl hm)
    | with_reducible apply Dev.setBarge_hide (land_trans rfl hm)
    | (split
       all_goals try (rename_i heq
                      have h2 := congrArg Prod.snd heq
                      have h1 := congrArg Prod.fst heq
                      dsimp only at h1 h2
                      subst h1 h2
                      clear heq))
    | dsimp only [Lock.count]
    | dsimp +zetaDelta only

theorem Dev.watch_hide {m : Nat} (hm : 4096 &&& m = 4096) {x : Dev} (s : Dev) (e : Nat) (a : Nat) (store : Bool)
    (h : Dev.hide m s = x) : Dev.hide m (Dev.watch s e a store) = x := by
  unfold Dev.watch
  repeat' first
    | with_reducible assumption
    | intro _
    | extract_lets
    | with_reducible apply hide_ite
    | with_reducible apply hide_next
    | with_reducible apply Dev.haltBarge_hide (land_trans rfl hm)
    | with_reducible apply Dev.modBarge_hide (land_trans rfl hm)
    | (split
       all_goals try (rename_i heq
                      have h2 := congrArg Prod.snd heq
                      have h1 := congrArg Prod.fst heq
                      dsimp only at h1 h2
                      subst h1 h2
                      clear heq))
    | dsimp only [Lock.count]
    | dsimp +zetaDelta only

theorem Dev.pushLoad_hide {m : Nat} (hm : 4096 &&& m = 4096) {x : Dev} (s : Dev) (e : Nat) (l : LoadEnt)
    (h : Dev.hide m s = x) : Dev.hide m (Dev.pushLoad s e l) = x := by
  unfold Dev.pushLoad
  repeat' first
    | with_reducible assumption
    | intro _
    | extract_lets
    | with_reducible apply hide_ite
    | with_reducible apply hide_next
    | with_reducible apply Dev.watch_hide (land_trans rfl hm)
    | with_reducible apply Dev.modBarge_hide (land_trans rfl hm)
    | (split
       all_goals try (rename_i heq
                      have h2 := congrArg Prod.snd heq
                      have h1 := congrArg Prod.fst heq
                      dsimp only at h1 h2
                      subst h1 h2
                      clear heq))
    | dsimp only [Lock.count]
    | dsimp +zetaDelta only

theorem Dev.loadClass_hide {m : Nat} (hm : 4097 &&& m = 4097) {x : Dev} (s : Dev) (e : Nat) (l : LoadEnt)
    (h : Dev.hide m s = x) : Dev.hide m (Dev.loadClass s e l) = x := by
  have hb := Dev.bgRead_hide (land_trans rfl hm) s e (Mem.bgOff l.addr) l.size h
  unfold Dev.loadClass
  generalize Mem.bgOff l.addr = o at hb ⊢
  generalize Mem.classOf l.addr = cl
  revert hb
  rcases s.bgRead e o l.size with ⟨v, t⟩
  intro hb
  split
  · exact Dev.pushLoad_hide (land_trans rfl hm) _ _ _ h
  · exact Dev.pushLoad_hide (land_trans rfl hm) _ _ _ h
  · exact Dev.pushLoad_hide (land_trans rfl hm) _ _ _ hb
  · exact Dev.pushLoad_hide (land_trans rfl hm) _ _ _ h
  · exact Dev.pushLoad_hide (land_trans rfl hm) _ _ _ h

theorem Dev.load_hide {m : Nat} (hm : 846685936644267521 &&& m = 846685936644267521) {x : Dev} (s : Dev) (e : Nat) (dest : LdDest) (base : Nat) (size : Nat) (imm : BitVec 13) (signed : Bool)
    (h : Dev.hide m s = x) : Dev.hide m (Dev.load s e dest base size imm signed) = x := by
  unfold Dev.load
  repeat' first
    | with_reducible assumption
    | intro _
    | extract_lets
    | with_reducible apply hide_ite
    | with_reducible apply hide_next
    | with_reducible apply Dev.loadClass_hide (land_trans rfl hm)
    | with_reducible apply Dev.pushLoad_hide (land_trans rfl hm)
    | with_reducible apply Dev.issue_hide (land_trans rfl hm)
    | with_reducible apply Dev.exception_hide (land_trans rfl hm)
    | (split
       all_goals try (rename_i heq
                      have h2 := congrArg Prod.snd heq
                      have h1 := congrArg Prod.fst heq
                      dsimp only at h1 h2
                      subst h1 h2
                      clear heq))
    | dsimp only [Lock.count]
    | dsimp +zetaDelta only

theorem execLdHu_hide {m : Nat} (hm : 846685936644267521 &&& m = 846685936644267521) {x : Dev} (e : BargeIx) (d : Fin 32) (base : Fin 32) (imm : BitVec 13) (s : State)
    (h : Dev.hide m s.dev = x) : Dev.hide m ((execLdHu e d base imm s).stateOr s).dev = x := by
  unfold execLdHu
  apply State.on_hide
  repeat' first
    | with_reducible assumption
    | intro _
    | extract_lets
    | with_reducible apply hide_ite
    | with_reducible apply hide_next
    | with_reducible apply Dev.load_hide (land_trans rfl hm)
    | (split
       all_goals try (rename_i heq
                      have h2 := congrArg Prod.snd heq
                      have h1 := congrArg Prod.fst heq
                      dsimp only at h1 h2
                      subst h1 h2
                      clear heq))
    | dsimp only [Lock.count]
    | dsimp +zetaDelta only

theorem execTaskRemove_hide {m : Nat} (hm : 714990722360548993 &&& m = 714990722360548993) {x : Dev} (d : Desc) (s : State)
    (h : Dev.hide m s.dev = x) : Dev.hide m ((execTaskRemove d s).stateOr s).dev = x := by
  unfold execTaskRemove
  apply State.on_hide
  repeat' first
    | with_reducible assumption
    | intro _
    | extract_lets
    | with_reducible apply hide_ite
    | with_reducible apply hide_next
    | with_reducible apply Dev.cmd_hide (land_trans rfl hm)
    | with_reducible apply Dev.fail_hide (land_trans rfl hm)
    | with_reducible apply Dev.reply_hide (land_trans rfl hm)
    | with_reducible apply Dev.modBarge_hide (land_trans rfl hm)
    | (split
       all_goals try (rename_i heq
                      have h2 := congrArg Prod.snd heq
                      have h1 := congrArg Prod.fst heq
                      dsimp only at h1 h2
                      subst h1 h2
                      clear heq))
    | dsimp only [Lock.count]
    | dsimp +zetaDelta only

theorem Dev.modBz_hide {m : Nat} (hm : 281474976710656 &&& m = 281474976710656) {x : Dev} (s : Dev) (f : Basin → Basin)
    (h : Dev.hide m s = x) : Dev.hide m (Dev.modBz s f) = x := by
  unfold Dev.modBz
  repeat' first
    | with_reducible assumption
    | intro _
    | extract_lets
    | with_reducible apply hide_ite
    | with_reducible apply hide_next
    | (split
       all_goals try (rename_i heq
                      have h2 := congrArg Prod.snd heq
                      have h1 := congrArg Prod.fst heq
                      dsimp only at h1 h2
                      subst h1 h2
                      clear heq))
    | with_reducible apply Dev.hide_upd_48 (land_trans rfl hm)
    | dsimp only [Lock.count]
    | dsimp +zetaDelta only

theorem Dev.bzPut_hide {m : Nat} (hm : 281474976710656 &&& m = 281474976710656) {x : Dev} (s : Dev) (words : List Word)
    (h : Dev.hide m s = x) : Dev.hide m (Dev.bzPut s words) = x := by
  unfold Dev.bzPut
  repeat' first
    | with_reducible assumption
    | intro _
    | extract_lets
    | with_reducible apply hide_ite
    | with_reducible apply hide_next
    | with_reducible apply Dev.modBz_hide (land_trans rfl hm)
    | (split
       all_goals try (rename_i heq
                      have h2 := congrArg Prod.snd heq
                      have h1 := congrArg Prod.fst heq
                      dsimp only at h1 h2
                      subst h1 h2
                      clear heq))
    | dsimp only [Lock.count]
    | dsimp +zetaDelta only

theorem Dev.bzMark_hide {m : Nat} (hm : 281474976710656 &&& m = 281474976710656) {x : Dev} (s : Dev) (src : Nat) (code : Nat) (tag : Nat) (time : Nat)
    (h : Dev.hide m s = x) : Dev.hide m (Dev.bzMark s src code tag time) = x := by
  unfold Dev.bzMark
  repeat' first
    | with_reducible assumption
    | intro _
    | extract_lets
    | with_reducible apply hide_ite
    | with_reducible apply hide_next
    | with_reducible apply Dev.bzPut_hide (land_trans rfl hm)
    | with_reducible apply Dev.modBz_hide (land_trans rfl hm)
    | (split
       all_goals try (rename_i heq
                      have h2 := congrArg Prod.snd heq
                      have h1 := congrArg Prod.fst heq
                      dsimp only at h1 h2
                      subst h1 h2
                      clear heq))
    | dsimp only [Lock.count]
    | dsimp +zetaDelta only

theorem Dev.bzTrigger_hide {m : Nat} (hm : 281474976710657 &&& m = 281474976710657) {x : Dev} (s : Dev) (src : Nat) (post : Nat) (time : Nat) (cell : Nat) (tag : Nat) (pos : Option Nat)
    (h : Dev.hide m s = x) : Dev.hide m (Dev.bzTrigger s src post time cell tag pos).2 = x := by
  unfold Dev.bzTrigger
  repeat' first
    | with_reducible assumption
    | intro _
    | extract_lets
    | with_reducible apply hide_ite
    | with_reducible apply hide_next
    | with_reducible apply Dev.bzMark_hide (land_trans rfl hm)
    | with_reducible apply Dev.modBz_hide (land_trans rfl hm)
    | with_reducible apply Dev.drawNat_hide (land_trans rfl hm)
    | (split
       all_goals try (rename_i heq
                      have h2 := congrArg Prod.snd heq
                      have h1 := congrArg Prod.fst heq
                      dsimp only at h1 h2
                      subst h1 h2
                      clear heq))
    | dsimp only [Lock.count]
    | dsimp +zetaDelta only

theorem Dev.bzFull_hide {m : Nat} (hm : 281474976710657 &&& m = 281474976710657) {x : Dev} (s : Dev)
    (h : Dev.hide m s = x) : Dev.hide m (Dev.bzFull s) = x := by
  unfold Dev.bzFull
  repeat' first
    | with_reducible assumption
    | intro _
    | extract_lets
    | with_reducible apply hide_ite
    | with_reducible apply hide_next
    | with_reducible apply Dev.bzTrigger_hide (land_trans rfl hm)
    | (split
       all_goals try (rename_i heq
                      have h2 := congrArg Prod.snd heq
                      have h1 := congrArg Prod.fst heq
                      dsimp only at h1 h2
                      subst h1 h2
                      clear heq))
    | dsimp only [Lock.count]
    | dsimp +zetaDelta only

theorem execBasinFrame_hide {m : Nat} (hm : 281474976710657 &&& m = 281474976710657) {x : Dev} (s : State)
    (h : Dev.hide m s.dev = x) : Dev.hide m ((execBasinFrame s).stateOr s).dev = x := by
  unfold execBasinFrame
  apply State.on_hide
  repeat' first
    | with_reducible assumption
    | intro _
    | extract_lets
    | with_reducible apply hide_ite
    | with_reducible apply hide_next
    | with_reducible apply Dev.bzFull_hide (land_trans rfl hm)
    | with_reducible apply Dev.bzTrigger_hide (land_trans rfl hm)
    | with_reducible apply Dev.bzPut_hide (land_trans rfl hm)
    | with_reducible apply Dev.modBz_hide (land_trans rfl hm)
    | (split
       all_goals try (rename_i heq
                      have h2 := congrArg Prod.snd heq
                      have h1 := congrArg Prod.fst heq
                      dsimp only at h1 h2
                      subst h1 h2
                      clear heq))
    | dsimp only [Lock.count]
    | dsimp +zetaDelta only

theorem Dev.valu_hide {m : Nat} (hm : 846685936644267521 &&& m = 846685936644267521) {x : Dev} (s : Dev) (e : Nat) (vd : Nat) (va : Nat) (vb : Nat) (f : Quad → Quad → Quad)
    (h : Dev.hide m s = x) : Dev.hide m (Dev.valu s e vd va vb f) = x := by
  unfold Dev.valu
  repeat' first
    | with_reducible assumption
    | intro _
    | extract_lets
    | with_reducible apply hide_ite
    | with_reducible apply hide_next
    | with_reducible apply Dev.issueReg_hide (land_trans rfl hm)
    | (split
       all_goals try (rename_i heq
                      have h2 := congrArg Prod.snd heq
                      have h1 := congrArg Prod.fst heq
                      dsimp only at h1 h2
                      subst h1 h2
                      clear heq))
    | dsimp only [Lock.count]
    | dsimp +zetaDelta only

theorem execVmulW4_hide {m : Nat} (hm : 846685936644267521 &&& m = 846685936644267521) {x : Dev} (e : BargeIx) (vd : Fin 16) (va : Fin 16) (vb : Fin 16) (s : State)
    (h : Dev.hide m s.dev = x) : Dev.hide m ((execVmulW4 e vd va vb s).stateOr s).dev = x := by
  unfold execVmulW4
  apply State.on_hide
  repeat' first
    | with_reducible assumption
    | intro _
    | extract_lets
    | with_reducible apply hide_ite
    | with_reducible apply hide_next
    | with_reducible apply Dev.valu_hide (land_trans rfl hm)
    | (split
       all_goals try (rename_i heq
                      have h2 := congrArg Prod.snd heq
                      have h1 := congrArg Prod.fst heq
                      dsimp only at h1 h2
                      subst h1 h2
                      clear heq))
    | dsimp only [Lock.count]
    | dsimp +zetaDelta only

theorem Dev.irqSet_hide {m : Nat} (hm : 4096 &&& m = 4096) {x : Dev} (s : Dev) (e : Nat) (v : DWord)
    (h : Dev.hide m s = x) : Dev.hide m (Dev.irqSet s e v) = x := by
  unfold Dev.irqSet
  repeat' first
    | with_reducible assumption
    | intro _
    | extract_lets
    | with_reducible apply hide_ite
    | with_reducible apply hide_next
    | with_reducible apply Dev.modBarge_hide (land_trans rfl hm)
    | (split
       all_goals try (rename_i heq
                      have h2 := congrArg Prod.snd heq
                      have h1 := congrArg Prod.fst heq
                      dsimp only at h1 h2
                      subst h1 h2
                      clear heq))
    | dsimp only [Lock.count]
    | dsimp +zetaDelta only

end Sys2Proof.Machine
end

