-- ==== Sys2Proof/Laws/FrameB.lean ====
section
/-! SUPPORT. Frames of the operations and the meanings, in the order they call each other: which parts of the device each
changes at most. File 2 of 7. -/

set_option linter.unreachableTactic false
set_option linter.unusedTactic false

namespace Sys2Proof.Machine

theorem execIrqSet_hide {m : Nat} (hm : 4096 &&& m = 4096) {x : Dev} (e : BargeIx) (v : DWord) (s : State)
    (h : Dev.hide m s.dev = x) : Dev.hide m ((execIrqSet e v s).stateOr s).dev = x := by
  unfold execIrqSet
  apply State.on_hide
  repeat' first
    | with_reducible assumption
    | intro _
    | extract_lets
    | with_reducible apply hide_ite
    | with_reducible apply hide_next
    | with_reducible apply Dev.irqSet_hide (land_trans rfl hm)
    | (split
       all_goals try (rename_i heq
                      have h2 := congrArg Prod.snd heq
                      have h1 := congrArg Prod.fst heq
                      dsimp only at h1 h2
                      subst h1 h2
                      clear heq))
    | dsimp only [Lock.count]
    | dsimp +zetaDelta only

theorem Dev.policyOff_hide {m : Nat} (hm : 702570639013187073 &&& m = 702570639013187073) {x : Dev} (s : Dev) (c : Nat)
    (h : Dev.hide m s = x) : Dev.hide m (Dev.policyOff s c) = x := by
  unfold Dev.policyOff
  repeat' first
    | with_reducible assumption
    | intro _
    | extract_lets
    | with_reducible apply hide_ite
    | with_reducible apply hide_next
    | with_reducible apply Dev.goto_hide (land_trans rfl hm)
    | with_reducible apply Dev.modCell_hide (land_trans rfl hm)
    | (split
       all_goals try (rename_i heq
                      have h2 := congrArg Prod.snd heq
                      have h1 := congrArg Prod.fst heq
                      dsimp only at h1 h2
                      subst h1 h2
                      clear heq))
    | dsimp only [Lock.count]
    | dsimp +zetaDelta only

theorem Dev.policyCells_hide {m : Nat} (hm : 702570639013187073 &&& m = 702570639013187073) {x : Dev} (s : Dev) (l : List Nat)
    (h : Dev.hide m s = x) : Dev.hide m (Dev.policyCells s l) = x := by
  unfold Dev.policyCells
  repeat' first
    | with_reducible assumption
    | intro _
    | extract_lets
    | with_reducible apply hide_ite
    | with_reducible apply hide_next
    | with_reducible apply Dev.policyOff_hide (land_trans rfl hm)
    | with_reducible apply Dev.forEach_hide (land_trans rfl hm)
    | (split
       all_goals try (rename_i heq
                      have h2 := congrArg Prod.snd heq
                      have h1 := congrArg Prod.fst heq
                      dsimp only at h1 h2
                      subst h1 h2
                      clear heq))
    | dsimp only [Lock.count]
    | dsimp +zetaDelta only

theorem Dev.policy_hide {m : Nat} (hm : 702570639013187073 &&& m = 702570639013187073) {x : Dev} (s : Dev) (g : Nat) (code : Nat)
    (h : Dev.hide m s = x) : Dev.hide m (Dev.policy s g code).2 = x := by
  unfold Dev.policy
  repeat' first
    | with_reducible assumption
    | intro _
    | extract_lets
    | with_reducible apply hide_ite
    | with_reducible apply hide_next
    | with_reducible apply Dev.policyCells_hide (land_trans rfl hm)
    | (split
       all_goals try (rename_i heq
                      have h2 := congrArg Prod.snd heq
                      have h1 := congrArg Prod.fst heq
                      dsimp only at h1 h2
                      subst h1 h2
                      clear heq))
    | dsimp only [Lock.count]
    | dsimp +zetaDelta only

theorem Dev.hostPolicy_hide {m : Nat} (hm : 702570639013187073 &&& m = 702570639013187073) {x : Dev} (s : Dev) (code : Nat)
    (h : Dev.hide m s = x) : Dev.hide m (Dev.hostPolicy s code).2 = x := by
  unfold Dev.hostPolicy
  repeat' first
    | with_reducible assumption
    | intro _
    | extract_lets
    | with_reducible apply hide_ite
    | with_reducible apply hide_next
    | with_reducible apply Dev.policy_hide (land_trans rfl hm)
    | with_reducible apply Dev.forEach_hide (land_trans rfl hm)
    | with_reducible apply Dev.modRegion_hide (land_trans rfl hm)
    | (split
       all_goals try (rename_i heq
                      have h2 := congrArg Prod.snd heq
                      have h1 := congrArg Prod.fst heq
                      dsimp only at h1 h2
                      subst h1 h2
                      clear heq))
    | dsimp only [Lock.count]
    | dsimp +zetaDelta only

theorem Dev.hostLoss_hide {m : Nat} (hm : 846721121016356353 &&& m = 846721121016356353) {x : Dev} (s : Dev)
    (h : Dev.hide m s = x) : Dev.hide m (Dev.hostLoss s) = x := by
  unfold Dev.hostLoss
  repeat' first
    | with_reducible assumption
    | intro _
    | extract_lets
    | with_reducible apply hide_ite
    | with_reducible apply hide_next
    | with_reducible apply Dev.hostPolicy_hide (land_trans rfl hm)
    | with_reducible apply Dev.occur_hide (land_trans rfl hm)
    | with_reducible apply Dev.irqAll_hide (land_trans rfl hm)
    | (split
       all_goals try (rename_i heq
                      have h2 := congrArg Prod.snd heq
                      have h1 := congrArg Prod.fst heq
                      dsimp only at h1 h2
                      subst h1 h2
                      clear heq))
    | with_reducible apply Dev.hide_upd_45 (land_trans rfl hm)
    | dsimp only [Lock.count]
    | dsimp +zetaDelta only

theorem execHostLoss_hide {m : Nat} (hm : 846721121016356353 &&& m = 846721121016356353) {x : Dev} (s : State)
    (h : Dev.hide m s.dev = x) : Dev.hide m ((execHostLoss s).stateOr s).dev = x := by
  unfold execHostLoss
  apply State.on_hide
  repeat' first
    | with_reducible assumption
    | intro _
    | extract_lets
    | with_reducible apply hide_ite
    | with_reducible apply hide_next
    | with_reducible apply Dev.hostLoss_hide (land_trans rfl hm)
    | (split
       all_goals try (rename_i heq
                      have h2 := congrArg Prod.snd heq
                      have h1 := congrArg Prod.fst heq
                      dsimp only at h1 h2
                      subst h1 h2
                      clear heq))
    | dsimp only [Lock.count]
    | dsimp +zetaDelta only

theorem Dev.linkDown_hide {m : Nat} (hm : 846721121016356353 &&& m = 846721121016356353) {x : Dev} (s : Dev)
    (h : Dev.hide m s = x) : Dev.hide m (Dev.linkDown s) = x := by
  unfold Dev.linkDown
  repeat' first
    | with_reducible assumption
    | intro _
    | extract_lets
    | with_reducible apply hide_ite
    | with_reducible apply hide_next
    | with_reducible apply Dev.hostLoss_hide (land_trans rfl hm)
    | (split
       all_goals try (rename_i heq
                      have h2 := congrArg Prod.snd heq
                      have h1 := congrArg Prod.fst heq
                      dsimp only at h1 h2
                      subst h1 h2
                      clear heq))
    | with_reducible apply Dev.hide_upd_45 (land_trans rfl hm)
    | dsimp only [Lock.count]
    | dsimp +zetaDelta only

theorem Dev.opEvent_hide {m : Nat} (hm : 18014398509481984 &&& m = 18014398509481984) {x : Dev} (s : Dev) (n : Nat) (o : Op) (new : Nat) (old : Nat)
    (h : Dev.hide m s = x) : Dev.hide m (Dev.opEvent s n o new old) = x := by
  unfold Dev.opEvent
  repeat' first
    | with_reducible assumption
    | intro _
    | extract_lets
    | with_reducible apply hide_ite
    | with_reducible apply hide_next
    | with_reducible apply Dev.raise_hide (land_trans rfl hm)
    | (split
       all_goals try (rename_i heq
                      have h2 := congrArg Prod.snd heq
                      have h1 := congrArg Prod.fst heq
                      dsimp only at h1 h2
                      subst h1 h2
                      clear heq))
    | dsimp only [Lock.count]
    | dsimp +zetaDelta only

theorem Dev.setOp_hide {m : Nat} (hm : 70368744177664 &&& m = 70368744177664) {x : Dev} (s : Dev) (n : Nat) (o : Option Op)
    (h : Dev.hide m s = x) : Dev.hide m (Dev.setOp s n o) = x := by
  unfold Dev.setOp
  repeat' first
    | with_reducible assumption
    | intro _
    | extract_lets
    | with_reducible apply hide_ite
    | with_reducible apply hide_next
    | (split
       all_goals try (rename_i heq
                      have h2 := congrArg Prod.snd heq
                      have h1 := congrArg Prod.fst heq
                      dsimp only at h1 h2
                      subst h1 h2
                      clear heq))
    | with_reducible apply Dev.hide_upd_46 (land_trans rfl hm)
    | dsimp only [Lock.count]
    | dsimp +zetaDelta only

theorem Dev.opDone_hide {m : Nat} (hm : 18084767253659648 &&& m = 18084767253659648) {x : Dev} (s : Dev) (n : Nat)
    (h : Dev.hide m s = x) : Dev.hide m (Dev.opDone s n) = x := by
  unfold Dev.opDone
  repeat' first
    | with_reducible assumption
    | intro _
    | extract_lets
    | with_reducible apply hide_ite
    | with_reducible apply hide_next
    | with_reducible apply Dev.setOp_hide (land_trans rfl hm)
    | with_reducible apply Dev.opEvent_hide (land_trans rfl hm)
    | (split
       all_goals try (rename_i heq
                      have h2 := congrArg Prod.snd heq
                      have h1 := congrArg Prod.fst heq
                      dsimp only at h1 h2
                      subst h1 h2
                      clear heq))
    | dsimp only [Lock.count]
    | dsimp +zetaDelta only

theorem Dev.dropToken_hide {m : Nat} (hm : 4096 &&& m = 4096) {x : Dev} (s : Dev) (e : Nat) (t : Quad)
    (h : Dev.hide m s = x) : Dev.hide m (Dev.dropToken s e t) = x := by
  unfold Dev.dropToken
  repeat' first
    | with_reducible assumption
    | intro _
    | extract_lets
    | with_reducible apply hide_ite
    | with_reducible apply hide_next
    | with_reducible apply Dev.modBarge_hide (land_trans rfl hm)
    | (split
       all_goals try (rename_i heq
                      have h2 := congrArg Prod.snd heq
                      have h1 := congrArg Prod.fst heq
                      dsimp only at h1 h2
                      subst h1 h2
                      clear heq))
    | dsimp only [Lock.count]
    | dsimp +zetaDelta only

theorem Dev.dropCommands_hide {m : Nat} (hm : 126171158310556160 &&& m = 126171158310556160) {x : Dev} (s : Dev)
    (h : Dev.hide m s = x) : Dev.hide m (Dev.dropCommands s) = x := by
  unfold Dev.dropCommands
  repeat' first
    | with_reducible assumption
    | intro _
    | extract_lets
    | with_reducible apply hide_ite
    | with_reducible apply hide_next
    | with_reducible apply Dev.dropToken_hide (land_trans rfl hm)
    | with_reducible apply Dev.opDone_hide (land_trans rfl hm)
    | with_reducible apply Dev.forEach_hide (land_trans rfl hm)
    | (split
       all_goals try (rename_i heq
                      have h2 := congrArg Prod.snd heq
                      have h1 := congrArg Prod.fst heq
                      dsimp only at h1 h2
                      subst h1 h2
                      clear heq))
    | with_reducible apply Dev.hide_upd_9_55_56 (land_trans rfl hm)
    | dsimp only [Lock.count]
    | dsimp +zetaDelta only

theorem Dev.dropMailboxes_hide {m : Nat} (hm : 1052672 &&& m = 1052672) {x : Dev} (s : Dev)
    (h : Dev.hide m s = x) : Dev.hide m (Dev.dropMailboxes s) = x := by
  unfold Dev.dropMailboxes
  repeat' first
    | with_reducible assumption
    | intro _
    | extract_lets
    | with_reducible apply hide_ite
    | with_reducible apply hide_next
    | with_reducible apply Dev.dropToken_hide (land_trans rfl hm)
    | with_reducible apply Dev.forEach_hide (land_trans rfl hm)
    | (split
       all_goals try (rename_i heq
                      have h2 := congrArg Prod.snd heq
                      have h1 := congrArg Prod.fst heq
                      dsimp only at h1 h2
                      subst h1 h2
                      clear heq))
    | with_reducible apply Dev.hide_upd_20 (land_trans rfl hm)
    | dsimp only [Lock.count]
    | dsimp +zetaDelta only

theorem Dev.dropRegs_hide {m : Nat} (hm : 6442450944 &&& m = 6442450944) {x : Dev} (s : Dev) (lo : Nat) (hi : Nat) (keep : List Nat)
    (h : Dev.hide m s = x) : Dev.hide m (Dev.dropRegs s lo hi keep) = x := by
  unfold Dev.dropRegs
  repeat' first
    | with_reducible assumption
    | intro _
    | extract_lets
    | with_reducible apply hide_ite
    | with_reducible apply hide_next
    | (split
       all_goals try (rename_i heq
                      have h2 := congrArg Prod.snd heq
                      have h1 := congrArg Prod.fst heq
                      dsimp only at h1 h2
                      subst h1 h2
                      clear heq))
    | with_reducible apply Dev.hide_upd_31_32 (land_trans rfl hm)
    | dsimp only [Lock.count]
    | dsimp +zetaDelta only

theorem Dev.hostReset_hide {m : Nat} (hm : 126206349128241664 &&& m = 126206349128241664) {x : Dev} (s : Dev)
    (h : Dev.hide m s = x) : Dev.hide m (Dev.hostReset s) = x := by
  unfold Dev.hostReset
  repeat' first
    | with_reducible assumption
    | intro _
    | extract_lets
    | with_reducible apply hide_ite
    | with_reducible apply hide_next
    | with_reducible apply Dev.dropRegs_hide (land_trans rfl hm)
    | with_reducible apply Dev.dropMailboxes_hide (land_trans rfl hm)
    | with_reducible apply Dev.dropCommands_hide (land_trans rfl hm)
    | (split
       all_goals try (rename_i heq
                      have h2 := congrArg Prod.snd heq
                      have h1 := congrArg Prod.fst heq
                      dsimp only at h1 h2
                      subst h1 h2
                      clear heq))
    | with_reducible apply Dev.hide_upd_21_45 (land_trans rfl hm)
    | dsimp only [Lock.count]
    | dsimp +zetaDelta only

theorem execPerstN_hide {m : Nat} (hm : 846791489763679745 &&& m = 846791489763679745) {x : Dev} (s : State)
    (h : Dev.hide m s.dev = x) : Dev.hide m ((execPerstN s).stateOr s).dev = x := by
  unfold execPerstN
  apply State.on_hide
  repeat' first
    | with_reducible assumption
    | intro _
    | extract_lets
    | with_reducible apply hide_ite
    | with_reducible apply hide_next
    | with_reducible apply Dev.hostReset_hide (land_trans rfl hm)
    | with_reducible apply Dev.linkDown_hide (land_trans rfl hm)
    | (split
       all_goals try (rename_i heq
                      have h2 := congrArg Prod.snd heq
                      have h1 := congrArg Prod.fst heq
                      dsimp only at h1 h2
                      subst h1 h2
                      clear heq))
    | with_reducible apply Dev.hide_upd_45 (land_trans rfl hm)
    | dsimp only [Lock.count]
    | dsimp +zetaDelta only

theorem Dev.bufReply_hide {m : Nat} (hm : 612524733694476288 &&& m = 612524733694476288) {x : Dev} (s : Dev) (d : Desc) (op : Nat) (addr : Nat) (words : List Word) (ok : Bool) (r0 : Nat) (r1 : Nat)
    (h : Dev.hide m s = x) : Dev.hide m (Dev.bufReply s d op addr words ok r0 r1) = x := by
  unfold Dev.bufReply
  repeat' first
    | with_reducible assumption
    | intro _
    | extract_lets
    | with_reducible apply hide_ite
    | with_reducible apply hide_next
    | with_reducible apply Dev.fail_hide (land_trans rfl hm)
    | with_reducible apply Dev.reply_hide (land_trans rfl hm)
    | with_reducible apply Dev.emit_hide (land_trans rfl hm)
    | (split
       all_goals try (rename_i heq
                      have h2 := congrArg Prod.snd heq
                      have h1 := congrArg Prod.fst heq
                      dsimp only at h1 h2
                      subst h1 h2
                      clear heq))
    | dsimp only [Lock.count]
    | dsimp +zetaDelta only

theorem execTowpathTargetRead_hide {m : Nat} (hm : 714990722360544897 &&& m = 714990722360544897) {x : Dev} (d : Desc) (bufOk : Bool) (s : State)
    (h : Dev.hide m s.dev = x) : Dev.hide m ((execTowpathTargetRead d bufOk s).stateOr s).dev = x := by
  unfold execTowpathTargetRead
  apply State.on_hide
  repeat' first
    | with_reducible assumption
    | intro _
    | extract_lets
    | with_reducible apply hide_ite
    | with_reducible apply hide_next
    | with_reducible apply Dev.bufReply_hide (land_trans rfl hm)
    | with_reducible apply Dev.modTow_hide (land_trans rfl hm)
    | with_reducible apply Dev.cmd_hide (land_trans rfl hm)
    | with_reducible apply Dev.fail_hide (land_trans rfl hm)
    | (split
       all_goals try (rename_i heq
                      have h2 := congrArg Prod.snd heq
                      have h1 := congrArg Prod.fst heq
                      dsimp only at h1 h2
                      subst h1 h2
                      clear heq))
    | dsimp only [Lock.count]
    | dsimp +zetaDelta only

theorem Dev.softStop_hide {m : Nat} (hm : 18014398543042560 &&& m = 18014398543042560) {x : Dev} (s : Dev) (k : Nat) (cause : Nat)
    (h : Dev.hide m s = x) : Dev.hide m (Dev.softStop s k cause) = x := by
  unfold Dev.softStop
  repeat' first
    | with_reducible assumption
    | intro _
    | extract_lets
    | with_reducible apply hide_ite
    | with_reducible apply hide_next
    | with_reducible apply Dev.sliceGoto_hide (land_trans rfl hm)
    | with_reducible apply Dev.setSlice_hide (land_trans rfl hm)
    | (split
       all_goals try (rename_i heq
                      have h2 := congrArg Prod.snd heq
                      have h1 := congrArg Prod.fst heq
                      dsimp only at h1 h2
                      subst h1 h2
                      clear heq))
    | dsimp only [Lock.count]
    | dsimp +zetaDelta only

theorem Dev.lossAction_hide {m : Nat} (hm : 18014404985493504 &&& m = 18014404985493504) {x : Dev} (s : Dev) (k : Nat) (cause : Nat)
    (h : Dev.hide m s = x) : Dev.hide m (Dev.lossAction s k cause) = x := by
  unfold Dev.lossAction
  repeat' first
    | with_reducible assumption
    | intro _
    | extract_lets
    | with_reducible apply hide_ite
    | with_reducible apply hide_next
    | with_reducible apply Dev.softStop_hide (land_trans rfl hm)
    | with_reducible apply Dev.killSlice_hide (land_trans rfl hm)
    | (split
       all_goals try (rename_i heq
                      have h2 := congrArg Prod.snd heq
                      have h1 := congrArg Prod.fst heq
                      dsimp only at h1 h2
                      subst h1 h2
                      clear heq))
    | dsimp only [Lock.count]
    | dsimp +zetaDelta only

theorem Dev.tripAt_hide {m : Nat} (hm : 702570639013187073 &&& m = 702570639013187073) {x : Dev} (s : Dev) (c : Nat) (mask : Nat) (time : Nat)
    (h : Dev.hide m s = x) : Dev.hide m (Dev.tripAt s c mask time) = x := by
  unfold Dev.tripAt
  repeat' first
    | with_reducible assumption
    | intro _
    | extract_lets
    | with_reducible apply hide_ite
    | with_reducible apply hide_next
    | with_reducible apply Dev.goto_hide (land_trans rfl hm)
    | with_reducible apply Dev.commitProf_hide (land_trans rfl hm)
    | with_reducible apply Dev.withBcast_hide (land_trans rfl hm)
    | with_reducible apply Dev.modCell_hide (land_trans rfl hm)
    | with_reducible apply Dev.raiseIsland_hide (land_trans rfl hm)
    | with_reducible apply Dev.modRegion_hide (land_trans rfl hm)
    | with_reducible apply hide_foldl
    | with_reducible apply hide_foldl2
    | with_reducible apply hide_foldl3
    | with_reducible apply hide_foldl4
    | (split
       all_goals try (rename_i heq
                      have h2 := congrArg Prod.snd heq
                      have h1 := congrArg Prod.fst heq
                      dsimp only at h1 h2
                      subst h1 h2
                      clear heq))
    | dsimp only [Lock.count]
    | dsimp +zetaDelta only

theorem Dev.tripNow_hide {m : Nat} (hm : 702570639013187073 &&& m = 702570639013187073) {x : Dev} (s : Dev) (c : Nat) (mask : Nat)
    (h : Dev.hide m s = x) : Dev.hide m (Dev.tripNow s c mask) = x := by
  unfold Dev.tripNow
  repeat' first
    | with_reducible assumption
    | intro _
    | extract_lets
    | with_reducible apply hide_ite
    | with_reducible apply hide_next
    | with_reducible apply Dev.tripAt_hide (land_trans rfl hm)
    | (split
       all_goals try (rename_i heq
                      have h2 := congrArg Prod.snd heq
                      have h1 := congrArg Prod.fst heq
                      dsimp only at h1 h2
                      subst h1 h2
                      clear heq))
    | dsimp only [Lock.count]
    | dsimp +zetaDelta only

theorem Dev.levelTrips_hide {m : Nat} (hm : 702570639013187073 &&& m = 702570639013187073) {x : Dev} (s : Dev) (c : Nat)
    (h : Dev.hide m s = x) : Dev.hide m (Dev.levelTrips s c) = x := by
  unfold Dev.levelTrips
  repeat' first
    | with_reducible assumption
    | intro _
    | extract_lets
    | with_reducible apply hide_ite
    | with_reducible apply hide_next
    | with_reducible apply Dev.tripNow_hide (land_trans rfl hm)
    | (split
       all_goals try (rename_i heq
                      have h2 := congrArg Prod.snd heq
                      have h1 := congrArg Prod.fst heq
                      dsimp only at h1 h2
                      subst h1 h2
                      clear heq))
    | dsimp only [Lock.count]
    | dsimp +zetaDelta only

theorem Dev.cfgIgnored_hide {m : Nat} (hm : 846685936644267521 &&& m = 846685936644267521) {x : Dev} (s : Dev) (off : Nat)
    (h : Dev.hide m s = x) : Dev.hide m (Dev.cfgIgnored s off) = x := by
  unfold Dev.cfgIgnored
  repeat' first
    | with_reducible assumption
    | intro _
    | extract_lets
    | with_reducible apply hide_ite
    | with_reducible apply hide_next
    | with_reducible apply Dev.occur_hide (land_trans rfl hm)
    | (split
       all_goals try (rename_i heq
                      have h2 := congrArg Prod.snd heq
                      have h1 := congrArg Prod.fst heq
                      dsimp only at h1 h2
                      subst h1 h2
                      clear heq))
    | dsimp only [Lock.count]
    | dsimp +zetaDelta only

theorem Dev.rvSafe_hide {m : Nat} (hm : 847248886597688833 &&& m = 847248886597688833) {x : Dev} (s : Dev) (v : Word)
    (h : Dev.hide m s = x) : Dev.hide m (Dev.rvSafe s v) = x := by
  unfold Dev.rvSafe
  repeat' first
    | with_reducible assumption
    | intro _
    | extract_lets
    | with_reducible apply hide_ite
    | with_reducible apply hide_next
    | with_reducible apply Dev.cfgIgnored_hide (land_trans rfl hm)
    | with_reducible apply Dev.modRv_hide (land_trans rfl hm)
    | with_reducible apply Dev.setReg_hide (land_trans rfl hm)
    | (split
       all_goals try (rename_i heq
                      have h2 := congrArg Prod.snd heq
                      have h1 := congrArg Prod.fst heq
                      dsimp only at h1 h2
                      subst h1 h2
                      clear heq))
    | dsimp only [Lock.count]
    | dsimp +zetaDelta only

theorem Dev.opGoto_hide {m : Nat} (hm : 18084767253659648 &&& m = 18084767253659648) {x : Dev} (s : Dev) (n : Nat) (o : Op) (st : OpState)
    (h : Dev.hide m s = x) : Dev.hide m (Dev.opGoto s n o st) = x := by
  unfold Dev.opGoto
  repeat' first
    | with_reducible assumption
    | intro _
    | extract_lets
    | with_reducible apply hide_ite
    | with_reducible apply hide_next
    | with_reducible apply Dev.setOp_hide (land_trans rfl hm)
    | with_reducible apply Dev.opEvent_hide (land_trans rfl hm)
    | (split
       all_goals try (rename_i heq
                      have h2 := congrArg Prod.snd heq
                      have h1 := congrArg Prod.fst heq
                      dsimp only at h1 h2
                      subst h1 h2
                      clear heq))
    | dsimp only [Lock.count]
    | dsimp +zetaDelta only

theorem Dev.opBoundary_hide {m : Nat} (hm : 18084767253659648 &&& m = 18084767253659648) {x : Dev} (s : Dev) (n : Nat) (o : Op)
    (h : Dev.hide m s = x) : Dev.hide m (Dev.opBoundary s n o) = x := by
  unfold Dev.opBoundary
  repeat' first
    | with_reducible assumption
    | intro _
    | extract_lets
    | with_reducible apply hide_ite
    | with_reducible apply hide_next
    | with_reducible apply Dev.opGoto_hide (land_trans rfl hm)
    | with_reducible apply Dev.setOp_hide (land_trans rfl hm)
    | (split
       all_goals try (rename_i heq
                      have h2 := congrArg Prod.snd heq
                      have h1 := congrArg Prod.fst heq
                      dsimp only at h1 h2
                      subst h1 h2
                      clear heq))
    | dsimp only [Lock.count]
    | dsimp +zetaDelta only

theorem Dev.opChunk_hide {m : Nat} (hm : 54113564272623616 &&& m = 54113564272623616) {x : Dev} (s : Dev) (n : Nat) (o : Op) (chunk : Nat) (bytes : Nat) (page : Nat)
    (h : Dev.hide m s = x) : Dev.hide m (Dev.opChunk s n o chunk bytes page) = x := by
  unfold Dev.opChunk
  repeat' first
    | with_reducible assumption
    | intro _
    | extract_lets
    | with_reducible apply hide_ite
    | with_reducible apply hide_next
    | with_reducible apply Dev.opBoundary_hide (land_trans rfl hm)
    | with_reducible apply Dev.complete_hide (land_trans rfl hm)
    | (split
       all_goals try (rename_i heq
                      have h2 := congrArg Prod.snd heq
                      have h1 := congrArg Prod.fst heq
                      dsimp only at h1 h2
                      subst h1 h2
                      clear heq))
    | dsimp only [Lock.count]
    | dsimp +zetaDelta only

theorem Dev.opFinish_hide {m : Nat} (hm : 54113564272623616 &&& m = 54113564272623616) {x : Dev} (s : Dev) (n : Nat) (o : Op) (status : Nat) (r0 : Nat) (r1 : Nat) (chunk : Option Nat)
    (h : Dev.hide m s = x) : Dev.hide m (Dev.opFinish s n o status r0 r1 chunk) = x := by
  unfold Dev.opFinish
  repeat' first
    | with_reducible assumption
    | intro _
    | extract_lets
    | with_reducible apply hide_ite
    | with_reducible apply hide_next
    | with_reducible apply Dev.opGoto_hide (land_trans rfl hm)
    | with_reducible apply Dev.setOp_hide (land_trans rfl hm)
    | with_reducible apply Dev.complete_hide (land_trans rfl hm)
    | (split
       all_goals try (rename_i heq
                      have h2 := congrArg Prod.snd heq
                      have h1 := congrArg Prod.fst heq
                      dsimp only at h1 h2
                      subst h1 h2
                      clear heq))
    | dsimp only [Lock.count]
    | dsimp +zetaDelta only

theorem Dev.opReserved_hide {m : Nat} (hm : 18084767253659648 &&& m = 18084767253659648) {x : Dev} (s : Dev) (n : Nat) (o : Op) (f : Op → Dev) (h_f : ∀ u0 y, Dev.hide m s = y → Dev.hide m (f u0) = y)
    (h : Dev.hide m s = x) : Dev.hide m (Dev.opReserved s n o f) = x := by
  unfold Dev.opReserved
  repeat' first
    | with_reducible assumption
    | intro _
    | extract_lets
    | with_reducible apply hide_ite
    | with_reducible apply hide_next
    | with_reducible apply Dev.opGoto_hide (land_trans rfl hm)
    | with_reducible apply h_f
    | (split
       all_goals try (rename_i heq
                      have h2 := congrArg Prod.snd heq
                      have h1 := congrArg Prod.fst heq
                      dsimp only at h1 h2
                      subst h1 h2
                      clear heq))
    | dsimp only [Lock.count]
    | dsimp +zetaDelta only

theorem Dev.captureStep_hide {m : Nat} (hm : 630574316576047104 &&& m = 630574316576047104) {x : Dev} (s : Dev) (n : Nat) (o : Op) (dest : Nat) (next : Nat) (left : Nat) (mask : Nat) (destLen : Nat) (page : Nat) (chunk : Nat) (a10 : StepIn)
    (h : Dev.hide m s = x) : Dev.hide m (Dev.captureStep s n o dest next left mask destLen page chunk a10) = x := by
  unfold Dev.captureStep
  repeat' first
    | with_reducible assumption
    | intro _
    | extract_lets
    | with_reducible apply hide_ite
    | with_reducible apply hide_next
    | with_reducible apply Dev.opReserved_hide (land_trans rfl hm)
    | with_reducible apply Dev.opFinish_hide (land_trans rfl hm)
    | with_reducible apply Dev.opChunk_hide (land_trans rfl hm)
    | with_reducible apply Dev.emit_hide (land_trans rfl hm)
    | (split
       all_goals try (rename_i heq
                      have h2 := congrArg Prod.snd heq
                      have h1 := congrArg Prod.fst heq
                      dsimp only at h1 h2
                      subst h1 h2
                      clear heq))
    | dsimp only [Lock.count]
    | dsimp +zetaDelta only

theorem execLooseOverrun_hide {m : Nat} (hm : 846685936644267521 &&& m = 846685936644267521) {x : Dev} (e : BargeIx) (s : State)
    (h : Dev.hide m s.dev = x) : Dev.hide m ((execLooseOverrun e s).stateOr s).dev = x := by
  unfold execLooseOverrun
  apply State.on_hide
  repeat' first
    | with_reducible assumption
    | intro _
    | extract_lets
    | with_reducible apply hide_ite
    | with_reducible apply hide_next
    | with_reducible apply Dev.occurCentral_hide (land_trans rfl hm)
    | with_reducible apply Dev.irq_hide (land_trans rfl hm)
    | with_reducible apply Dev.setBarge_hide (land_trans rfl hm)
    | (split
       all_goals try (rename_i heq
                      have h2 := congrArg Prod.snd heq
                      have h1 := congrArg Prod.fst heq
                      dsimp only at h1 h2
                      subst h1 h2
                      clear heq))
    | dsimp only [Lock.count]
    | dsimp +zetaDelta only

theorem Dev.store_hide {m : Nat} (hm : 846685936644267521 &&& m = 846685936644267521) {x : Dev} (s : Dev) (e : Nat) (base : Nat) (size : Nat) (imm : BitVec 13) (regs : List Nat) (vregs : List Nat) (val : Barge → Nat)
    (h : Dev.hide m s = x) : Dev.hide m (Dev.store s e base size imm regs vregs val) = x := by
  unfold Dev.store
  repeat' first
    | with_reducible assumption
    | intro _
    | extract_lets
    | with_reducible apply hide_ite
    | with_reducible apply hide_next
    | with_reducible apply Dev.watch_hide (land_trans rfl hm)
    | with_reducible apply Dev.issue_hide (land_trans rfl hm)
    | with_reducible apply Dev.exception_hide (land_trans rfl hm)
    | with_reducible apply Dev.setBarge_hide (land_trans rfl hm)
    | (split
       all_goals try (rename_i heq
                      have h2 := congrArg Prod.snd heq
                      have h1 := congrArg Prod.fst heq
                      dsimp only at h1 h2
                      subst h1 h2
                      clear heq))
    | dsimp only [Lock.count]
    | dsimp +zetaDelta only

theorem Dev.autoNext_hide {m : Nat} (hm : 702570639013187073 &&& m = 702570639013187073) {x : Dev} (s : Dev) (g : Nat)
    (h : Dev.hide m s = x) : Dev.hide m (Dev.autoNext s g) = x := by
  unfold Dev.autoNext
  repeat' first
    | with_reducible assumption
    | intro _
    | extract_lets
    | with_reducible apply hide_ite
    | with_reducible apply hide_next
    | with_reducible apply Dev.levelTrips_hide (land_trans rfl hm)
    | with_reducible apply Dev.goto_hide (land_trans rfl hm)
    | with_reducible apply Dev.modCell_hide (land_trans rfl hm)
    | (split
       all_goals try (rename_i heq
                      have h2 := congrArg Prod.snd heq
                      have h1 := congrArg Prod.fst heq
                      dsimp only at h1 h2
                      subst h1 h2
                      clear heq))
    | dsimp only [Lock.count]
    | dsimp +zetaDelta only

theorem Dev.checkFires_hide {m : Nat} (hm : 702570639013187073 &&& m = 702570639013187073) {x : Dev} (s : Dev) (c : Nat) (mask : Nat)
    (h : Dev.hide m s = x) : Dev.hide m (Dev.checkFires s c mask) = x := by
  unfold Dev.checkFires
  repeat' first
    | with_reducible assumption
    | intro _
    | extract_lets
    | with_reducible apply hide_ite
    | with_reducible apply hide_next
    | with_reducible apply Dev.autoNext_hide (land_trans rfl hm)
    | with_reducible apply Dev.tripNow_hide (land_trans rfl hm)
    | (split
       all_goals try (rename_i heq
                      have h2 := congrArg Prod.snd heq
                      have h1 := congrArg Prod.fst heq
                      dsimp only at h1 h2
                      subst h1 h2
                      clear heq))
    | dsimp only [Lock.count]
    | dsimp +zetaDelta only

theorem execLimitTimeout_hide {m : Nat} (hm : 702570639013187073 &&& m = 702570639013187073) {x : Dev} (c : CellIx) (also : BitVec 16) (s : State)
    (h : Dev.hide m s.dev = x) : Dev.hide m ((execLimitTimeout c also s).stateOr s).dev = x := by
  unfold execLimitTimeout
  apply State.on_hide
  repeat' first
    | with_reducible assumption
    | intro _
    | extract_lets
    | with_reducible apply hide_ite
    | with_reducible apply hide_next
    | with_reducible apply Dev.checkFires_hide (land_trans rfl hm)
    | (split
       all_goals try (rename_i heq
                      have h2 := congrArg Prod.snd heq
                      have h1 := congrArg Prod.fst heq
                      dsimp only at h1 h2
                      subst h1 h2
                      clear heq))
    | dsimp only [Lock.count]
    | dsimp +zetaDelta only

theorem Dev.bzEnable_hide {m : Nat} (hm : 281477124194304 &&& m = 281477124194304) {x : Dev} (s : Dev)
    (h : Dev.hide m s = x) : Dev.hide m (Dev.bzEnable s) = x := by
  unfold Dev.bzEnable
  repeat' first
    | with_reducible assumption
    | intro _
    | extract_lets
    | with_reducible apply hide_ite
    | with_reducible apply hide_next
    | with_reducible apply Dev.modBz_hide (land_trans rfl hm)
    | with_reducible apply Dev.putReg_hide (land_trans rfl hm)
    | (split
       all_goals try (rename_i heq
                      have h2 := congrArg Prod.snd heq
                      have h1 := congrArg Prod.fst heq
                      dsimp only at h1 h2
                      subst h1 h2
                      clear heq))
    | dsimp only [Lock.count]
    | dsimp +zetaDelta only

theorem Dev.presenceEvent_hide {m : Nat} (hm : 18014398509484032 &&& m = 18014398509484032) {x : Dev} (s : Dev) (c : Nat) (inserted : Bool)
    (h : Dev.hide m s = x) : Dev.hide m (Dev.presenceEvent s c inserted) = x := by
  unfold Dev.presenceEvent
  repeat' first
    | with_reducible assumption
    | intro _
    | extract_lets
    | with_reducible apply hide_ite
    | with_reducible apply hide_next
    | with_reducible apply Dev.cellEvent_hide (land_trans rfl hm)
    | (split
       all_goals try (rename_i heq
                      have h2 := congrArg Prod.snd heq
                      have h1 := congrArg Prod.fst heq
                      dsimp only at h1 h2
                      subst h1 h2
                      clear heq))
    | dsimp only [Lock.count]
    | dsimp +zetaDelta only

theorem Dev.pickFree_hide {m : Nat} (hm : 1 &&& m = 1) {x : Dev} (s : Dev) (l : List Nat) (n : Nat)
    (h : Dev.hide m s = x) : Dev.hide m (Dev.pickFree s l n).2 = x := by
  unfold Dev.pickFree
  repeat' first
    | with_reducible assumption
    | intro _
    | extract_lets
    | with_reducible apply hide_ite
    | with_reducible apply hide_next
    | with_reducible apply Dev.drawNat_hide (land_trans rfl hm)
    | (split
       all_goals try (rename_i heq
                      have h2 := congrArg Prod.snd heq
                      have h1 := congrArg Prod.fst heq
                      dsimp only at h1 h2
                      subst h1 h2
                      clear heq))
    | dsimp only [Lock.count]
    | dsimp +zetaDelta only

theorem Dev.setCabLink_hide {m : Nat} (hm : 48 &&& m = 48) {x : Dev} (s : Dev) (l : Link) (v : CabLink)
    (h : Dev.hide m s = x) : Dev.hide m (Dev.setCabLink s l v) = x := by
  unfold Dev.setCabLink
  repeat' first
    | with_reducible assumption
    | intro _
    | extract_lets
    | with_reducible apply hide_ite
    | with_reducible apply hide_next
    | (split
       all_goals try (rename_i heq
                      have h2 := congrArg Prod.snd heq
                      have h1 := congrArg Prod.fst heq
                      dsimp only at h1 h2
                      subst h1 h2
                      clear heq))
    | with_reducible apply Dev.hide_upd_5 (land_trans rfl hm)
    | with_reducible apply Dev.hide_upd_4 (land_trans rfl hm)
    | dsimp only [Lock.count]
    | dsimp +zetaDelta only

theorem execDelayMeasurement_hide {m : Nat} (hm : 48 &&& m = 48) {x : Dev} (link : Link) (ns : Word) (s : State)
    (h : Dev.hide m s.dev = x) : Dev.hide m ((execDelayMeasurement link ns s).stateOr s).dev = x := by
  unfold execDelayMeasurement
  apply State.on_hide
  repeat' first
    | with_reducible assumption
    | intro _
    | extract_lets
    | with_reducible apply hide_ite
    | with_reducible apply hide_next
    | with_reducible apply Dev.setCabLink_hide (land_trans rfl hm)
    | (split
       all_goals try (rename_i heq
                      have h2 := congrArg Prod.snd heq
                      have h1 := congrArg Prod.fst heq
                      dsimp only at h1 h2
                      subst h1 h2
                      clear heq))
    | dsimp only [Lock.count]
    | dsimp +zetaDelta only

theorem Dev.cooldown_hide {m : Nat} (hm : 702570639013187073 &&& m = 702570639013187073) {x : Dev} (s : Dev) (c : Nat) (backoffMs : Nat)
    (h : Dev.hide m s = x) : Dev.hide m (Dev.cooldown s c backoffMs) = x := by
  unfold Dev.cooldown
  repeat' first
    | with_reducible assumption
    | intro _
    | extract_lets
    | with_reducible apply hide_ite
    | with_reducible apply hide_next
    | with_reducible apply Dev.goto_hide (land_trans rfl hm)
    | with_reducible apply Dev.modCell_hide (land_trans rfl hm)
    | (split
       all_goals try (rename_i heq
                      have h2 := congrArg Prod.snd heq
                      have h1 := congrArg Prod.fst heq
                      dsimp only at h1 h2
                      subst h1 h2
                      clear heq))
    | dsimp only [Lock.count]
    | dsimp +zetaDelta only

theorem Dev.chOn_hide {m : Nat} (hm : 702570639013187073 &&& m = 702570639013187073) {x : Dev} (s : Dev) (c : Nat)
    (h : Dev.hide m s = x) : Dev.hide m (Dev.chOn s c).2 = x := by
  unfold Dev.chOn
  repeat' first
    | with_reducible assumption
    | intro _
    | extract_lets
    | with_reducible apply hide_ite
    | with_reducible apply hide_next
    | with_reducible apply Dev.cooldown_hide (land_trans rfl hm)
    | with_reducible apply Dev.goto_hide (land_trans rfl hm)
    | with_reducible apply Dev.modCell_hide (land_trans rfl hm)
    | (split
       all_goals try (rename_i heq
                      have h2 := congrArg Prod.snd heq
                      have h1 := congrArg Prod.fst heq
                      dsimp only at h1 h2
                      subst h1 h2
                      clear heq))
    | dsimp only [Lock.count]
    | dsimp +zetaDelta only

theorem Dev.setAux_hide {m : Nat} (hm : 536870912 &&& m = 536870912) {x : Dev} (s : Dev) (g : Nat) (v : Aux)
    (h : Dev.hide m s = x) : Dev.hide m (Dev.setAux s g v) = x := by
  unfold Dev.setAux
  repeat' first
    | with_reducible assumption
    | intro _
    | extract_lets
    | with_reducible apply hide_ite
    | with_reducible apply hide_next
    | (split
       all_goals try (rename_i heq
                      have h2 := congrArg Prod.snd heq
                      have h1 := congrArg Prod.fst heq
                      dsimp only at h1 h2
                      subst h1 h2
                      clear heq))
    | with_reducible apply Dev.hide_upd_29 (land_trans rfl hm)
    | dsimp only [Lock.count]
    | dsimp +zetaDelta only

theorem Dev.auxNext_hide {m : Nat} (hm : 536870912 &&& m = 536870912) {x : Dev} (s : Dev) (g : Nat)
    (h : Dev.hide m s = x) : Dev.hide m (Dev.auxNext s g) = x := by
  unfold Dev.auxNext
  repeat' first
    | with_reducible assumption
    | intro _
    | extract_lets
    | with_reducible apply hide_ite
    | with_reducible apply hide_next
    | with_reducible apply Dev.setAux_hide (land_trans rfl hm)
    | (split
       all_goals try (rename_i heq
                      have h2 := congrArg Prod.snd heq
                      have h1 := congrArg Prod.fst heq
                      dsimp only at h1 h2
                      subst h1 h2
                      clear heq))
    | dsimp only [Lock.count]
    | dsimp +zetaDelta only

theorem Dev.auxWake_hide {m : Nat} (hm : 536870912 &&& m = 536870912) {x : Dev} (s : Dev) (g : Nat)
    (h : Dev.hide m s = x) : Dev.hide m (Dev.auxWake s g) = x := by
  unfold Dev.auxWake
  repeat' first
    | with_reducible assumption
    | intro _
    | extract_lets
    | with_reducible apply hide_ite
    | with_reducible apply hide_next
    | with_reducible apply Dev.auxNext_hide (land_trans rfl hm)
    | (split
       all_goals try (rename_i heq
                      have h2 := congrArg Prod.snd heq
                      have h1 := congrArg Prod.fst heq
                      dsimp only at h1 h2
                      subst h1 h2
                      clear heq))
    | dsimp only [Lock.count]
    | dsimp +zetaDelta only

theorem Dev.modAux_hide {m : Nat} (hm : 536870912 &&& m = 536870912) {x : Dev} (s : Dev) (g : Nat) (f : Aux → Aux)
    (h : Dev.hide m s = x) : Dev.hide m (Dev.modAux s g f) = x := by
  unfold Dev.modAux
  repeat' first
    | with_reducible assumption
    | intro _
    | extract_lets
    | with_reducible apply hide_ite
    | with_reducible apply hide_next
    | with_reducible apply Dev.setAux_hide (land_trans rfl hm)
    | (split
       all_goals try (rename_i heq
                      have h2 := congrArg Prod.snd heq
                      have h1 := congrArg Prod.fst heq
                      dsimp only at h1 h2
                      subst h1 h2
                      clear heq))
    | dsimp only [Lock.count]
    | dsimp +zetaDelta only

theorem Dev.writeAuxMask_hide {m : Nat} (hm : 2684354560 &&& m = 2684354560) {x : Dev} (s : Dev) (g : Nat) (v : Word)
    (h : Dev.hide m s = x) : Dev.hide m (Dev.writeAuxMask s g v) = x := by
  unfold Dev.writeAuxMask
  repeat' first
    | with_reducible assumption
    | intro _
    | extract_lets
    | with_reducible apply hide_ite
    | with_reducible apply hide_next
    | with_reducible apply Dev.modAux_hide (land_trans rfl hm)
    | with_reducible apply Dev.auxWake_hide (land_trans rfl hm)
    | with_reducible apply Dev.setReg_hide (land_trans rfl hm)
    | with_reducible apply hide_foldl
    | with_reducible apply hide_foldl2
    | with_reducible apply hide_foldl3
    | with_reducible apply hide_foldl4
    | (split
       all_goals try (rename_i heq
                      have h2 := congrArg Prod.snd heq
                      have h1 := congrArg Prod.fst heq
                      dsimp only at h1 h2
                      subst h1 h2
                      clear heq))
    | dsimp only [Lock.count]
    | dsimp +zetaDelta only

theorem execAuxMaskWrite_hide {m : Nat} (hm : 2684354560 &&& m = 2684354560) {x : Dev} (g : RegionIx) (v : Word) (s : State)
    (h : Dev.hide m s.dev = x) : Dev.hide m ((execAuxMaskWrite g v s).stateOr s).dev = x := by
  unfold execAuxMaskWrite
  apply State.on_hide
  repeat' first
    | with_reducible assumption
    | intro _
    | extract_lets
    | with_reducible apply hide_ite
    | with_reducible apply hide_next
    | with_reducible apply Dev.writeAuxMask_hide (land_trans rfl hm)
    | (split
       all_goals try (rename_i heq
                      have h2 := congrArg Prod.snd heq
                      have h1 := congrArg Prod.fst heq
                      dsimp only at h1 h2
                      subst h1 h2
                      clear heq))
    | dsimp only [Lock.count]
    | dsimp +zetaDelta only

theorem Dev.vtoS_hide {m : Nat} (hm : 846685936644267521 &&& m = 846685936644267521) {x : Dev} (s : Dev) (e : Nat) (r : Nat) (va : Nat) (vb : Nat) (f : Quad → Quad → Word)
    (h : Dev.hide m s = x) : Dev.hide m (Dev.vtoS s e r va vb f) = x := by
  unfold Dev.vtoS
  repeat' first
    | with_reducible assumption
    | intro _
    | extract_lets
    | with_reducible apply hide_ite
    | with_reducible apply hide_next
    | with_reducible apply Dev.issueReg_hide (land_trans rfl hm)
    | (split
       all_goals try (rename_i heq
                      have h2 := congrArg Prod.snd heq
                      have h1 := congrArg Prod.fst heq
                      dsimp only at h1 h2
                      subst h1 h2
                      clear heq))
    | dsimp only [Lock.count]
    | dsimp +zetaDelta only

theorem execVredaddH8_hide {m : Nat} (hm : 846685936644267521 &&& m = 846685936644267521) {x : Dev} (e : BargeIx) (r : Fin 32) (va : Fin 16) (s : State)
    (h : Dev.hide m s.dev = x) : Dev.hide m ((execVredaddH8 e r va s).stateOr s).dev = x := by
  unfold execVredaddH8
  apply State.on_hide
  repeat' first
    | with_reducible assumption
    | intro _
    | extract_lets
    | with_reducible apply hide_ite
    | with_reducible apply hide_next
    | with_reducible apply Dev.vtoS_hide (land_trans rfl hm)
    | (split
       all_goals try (rename_i heq
                      have h2 := congrArg Prod.snd heq
                      have h1 := congrArg Prod.fst heq
                      dsimp only at h1 h2
                      subst h1 h2
                      clear heq))
    | dsimp only [Lock.count]
    | dsimp +zetaDelta only

theorem execVbcastW_hide {m : Nat} (hm : 846685936644267521 &&& m = 846685936644267521) {x : Dev} (e : BargeIx) (vd : Fin 16) (r : Fin 32) (s : State)
    (h : Dev.hide m s.dev = x) : Dev.hide m ((execVbcastW e vd r s).stateOr s).dev = x := by
  unfold execVbcastW
  apply State.on_hide
  repeat' first
    | with_reducible assumption
    | intro _
    | extract_lets
    | with_reducible apply hide_ite
    | with_reducible apply hide_next
    | with_reducible apply Dev.issueReg_hide (land_trans rfl hm)
    | (split
       all_goals try (rename_i heq
                      have h2 := congrArg Prod.snd heq
                      have h1 := congrArg Prod.fst heq
                      dsimp only at h1 h2
                      subst h1 h2
                      clear heq))
    | dsimp only [Lock.count]
    | dsimp +zetaDelta only

theorem execVbcastH_hide {m : Nat} (hm : 846685936644267521 &&& m = 846685936644267521) {x : Dev} (e : BargeIx) (vd : Fin 16) (r : Fin 32) (s : State)
    (h : Dev.hide m s.dev = x) : Dev.hide m ((execVbcastH e vd r s).stateOr s).dev = x := by
  unfold execVbcastH
  apply State.on_hide
  repeat' first
    | with_reducible assumption
    | intro _
    | extract_lets
    | with_reducible apply hide_ite
    | with_reducible apply hide_next
    | with_reducible apply Dev.issueReg_hide (land_trans rfl hm)
    | (split
       all_goals try (rename_i heq
                      have h2 := congrArg Prod.snd heq
                      have h1 := congrArg Prod.fst heq
                      dsimp only at h1 h2
                      subst h1 h2
                      clear heq))
    | dsimp only [Lock.count]
    | dsimp +zetaDelta only

theorem Dev.issueIf_hide {m : Nat} (hm : 846685936644267521 &&& m = 846685936644267521) {x : Dev} (s : Dev) (e : Nat) (legal : Bool) (regs : List Nat) (vregs : List Nat) (f : Barge → Barge)
    (h : Dev.hide m s = x) : Dev.hide m (Dev.issueIf s e legal regs vregs f) = x := by
  unfold Dev.issueIf
  repeat' first
    | with_reducible assumption
    | intro _
    | extract_lets
    | with_reducible apply hide_ite
    | with_reducible apply hide_next
    | with_reducible apply Dev.issueReg_hide (land_trans rfl hm)
    | with_reducible apply Dev.issue_hide (land_trans rfl hm)
    | with_reducible apply Dev.exception_hide (land_trans rfl hm)
    | (split
       all_goals try (rename_i heq
                      have h2 := congrArg Prod.snd heq
                      have h1 := congrArg Prod.fst heq
                      dsimp only at h1 h2
                      subst h1 h2
                      clear heq))
    | dsimp only [Lock.count]
    | dsimp +zetaDelta only

theorem execVinsW_hide {m : Nat} (hm : 846685936644267521 &&& m = 846685936644267521) {x : Dev} (e : BargeIx) (vd : Fin 16) (lane : Fin 16) (r : Fin 32) (s : State)
    (h : Dev.hide m s.dev = x) : Dev.hide m ((execVinsW e vd lane r s).stateOr s).dev = x := by
  unfold execVinsW
  apply State.on_hide
  repeat' first
    | with_reducible assumption
    | intro _
    | extract_lets
    | with_reducible apply hide_ite
    | with_reducible apply hide_next
    | with_reducible apply Dev.issueIf_hide (land_trans rfl hm)
    | (split
       all_goals try (rename_i heq
                      have h2 := congrArg Prod.snd heq
                      have h1 := congrArg Prod.fst heq
                      dsimp only at h1 h2
                      subst h1 h2
                      clear heq))
    | dsimp only [Lock.count]
    | dsimp +zetaDelta only

theorem execVinsH_hide {m : Nat} (hm : 846685936644267521 &&& m = 846685936644267521) {x : Dev} (e : BargeIx) (vd : Fin 16) (lane : Fin 16) (r : Fin 32) (s : State)
    (h : Dev.hide m s.dev = x) : Dev.hide m ((execVinsH e vd lane r s).stateOr s).dev = x := by
  unfold execVinsH
  apply State.on_hide
  repeat' first
    | with_reducible assumption
    | intro _
    | extract_lets
    | with_reducible apply hide_ite
    | with_reducible apply hide_next
    | with_reducible apply Dev.issueIf_hide (land_trans rfl hm)
    | (split
       all_goals try (rename_i heq
                      have h2 := congrArg Prod.snd heq
                      have h1 := congrArg Prod.fst heq
                      dsimp only at h1 h2
                      subst h1 h2
                      clear heq))
    | dsimp only [Lock.count]
    | dsimp +zetaDelta only

theorem execVextW_hide {m : Nat} (hm : 846685936644267521 &&& m = 846685936644267521) {x : Dev} (e : BargeIx) (r : Fin 32) (va : Fin 16) (lane : Fin 16) (s : State)
    (h : Dev.hide m s.dev = x) : Dev.hide m ((execVextW e r va lane s).stateOr s).dev = x := by
  unfold execVextW
  apply State.on_hide
  repeat' first
    | with_reducible assumption
    | intro _
    | extract_lets
    | with_reducible apply hide_ite
    | with_reducible apply hide_next
    | with_reducible apply Dev.issueIf_hide (land_trans rfl hm)
    | (split
       all_goals try (rename_i heq
                      have h2 := congrArg Prod.snd heq
                      have h1 := congrArg Prod.fst heq
                      dsimp only at h1 h2
                      subst h1 h2
                      clear heq))
    | dsimp only [Lock.count]
    | dsimp +zetaDelta only

theorem execVextH_hide {m : Nat} (hm : 846685936644267521 &&& m = 846685936644267521) {x : Dev} (e : BargeIx) (r : Fin 32) (va : Fin 16) (lane : Fin 16) (s : State)
    (h : Dev.hide m s.dev = x) : Dev.hide m ((execVextH e r va lane s).stateOr s).dev = x := by
  unfold execVextH
  apply State.on_hide
  repeat' first
    | with_reducible assumption
    | intro _
    | extract_lets
    | with_reducible apply hide_ite
    | with_reducible apply hide_next
    | with_reducible apply Dev.issueIf_hide (land_trans rfl hm)
    | (split
       all_goals try (rename_i heq
                      have h2 := congrArg Prod.snd heq
                      have h1 := congrArg Prod.fst heq
                      dsimp only at h1 h2
                      subst h1 h2
                      clear heq))
    | dsimp only [Lock.count]
    | dsimp +zetaDelta only

theorem execVwidenH8_hide {m : Nat} (hm : 846685936644267521 &&& m = 846685936644267521) {x : Dev} (e : BargeIx) (vd : Fin 16) (va : Fin 16) (s : State)
    (h : Dev.hide m s.dev = x) : Dev.hide m ((execVwidenH8 e vd va s).stateOr s).dev = x := by
  unfold execVwidenH8
  apply State.on_hide
  repeat' first
    | with_reducible assumption
    | intro _
    | extract_lets
    | with_reducible apply hide_ite
    | with_reducible apply hide_next
    | with_reducible apply Dev.issueIf_hide (land_trans rfl hm)
    | (split
       all_goals try (rename_i heq
                      have h2 := congrArg Prod.snd heq
                      have h1 := congrArg Prod.fst heq
                      dsimp only at h1 h2
                      subst h1 h2
                      clear heq))
    | dsimp only [Lock.count]
    | dsimp +zetaDelta only

theorem execVpackH8_hide {m : Nat} (hm : 846685936644267521 &&& m = 846685936644267521) {x : Dev} (e : BargeIx) (vd : Fin 16) (va : Fin 16) (n : Fin 16) (s : State)
    (h : Dev.hide m s.dev = x) : Dev.hide m ((execVpackH8 e vd va n s).stateOr s).dev = x := by
  unfold execVpackH8
  apply State.on_hide
  repeat' first
    | with_reducible assumption
    | intro _
    | extract_lets
    | with_reducible apply hide_ite
    | with_reducible apply hide_next
    | with_reducible apply Dev.issueIf_hide (land_trans rfl hm)
    | (split
       all_goals try (rename_i heq
                      have h2 := congrArg Prod.snd heq
                      have h1 := congrArg Prod.fst heq
                      dsimp only at h1 h2
                      subst h1 h2
                      clear heq))
    | dsimp only [Lock.count]
    | dsimp +zetaDelta only

theorem execVmacsH8_hide {m : Nat} (hm : 846685936644267521 &&& m = 846685936644267521) {x : Dev} (e : BargeIx) (vd : Fin 16) (va : Fin 16) (r : Fin 32) (s : State)
    (h : Dev.hide m s.dev = x) : Dev.hide m ((execVmacsH8 e vd va r s).stateOr s).dev = x := by
  unfold execVmacsH8
  apply State.on_hide
  repeat' first
    | with_reducible assumption
    | intro _
    | extract_lets
    | with_reducible apply hide_ite
    | with_reducible apply hide_next
    | with_reducible apply Dev.issueIf_hide (land_trans rfl hm)
    | (split
       all_goals try (rename_i heq
                      have h2 := congrArg Prod.snd heq
                      have h1 := congrArg Prod.fst heq
                      dsimp only at h1 h2
                      subst h1 h2
                      clear heq))
    | dsimp only [Lock.count]
    | dsimp +zetaDelta only

theorem execVmacH8_hide {m : Nat} (hm : 846685936644267521 &&& m = 846685936644267521) {x : Dev} (e : BargeIx) (vd : Fin 16) (va : Fin 16) (vb : Fin 16) (s : State)
    (h : Dev.hide m s.dev = x) : Dev.hide m ((execVmacH8 e vd va vb s).stateOr s).dev = x := by
  unfold execVmacH8
  apply State.on_hide
  repeat' first
    | with_reducible assumption
    | intro _
    | extract_lets
    | with_reducible apply hide_ite
    | with_reducible apply hide_next
    | with_reducible apply Dev.issueIf_hide (land_trans rfl hm)
    | (split
       all_goals try (rename_i heq
                      have h2 := congrArg Prod.snd heq
                      have h1 := congrArg Prod.fst heq
                      dsimp only at h1 h2
                      subst h1 h2
                      clear heq))
    | dsimp only [Lock.count]
    | dsimp +zetaDelta only

theorem execVmulhH8_hide {m : Nat} (hm : 846685936644267521 &&& m = 846685936644267521) {x : Dev} (e : BargeIx) (vd : Fin 16) (va : Fin 16) (vb : Fin 16) (s : State)
    (h : Dev.hide m s.dev = x) : Dev.hide m ((execVmulhH8 e vd va vb s).stateOr s).dev = x := by
  unfold execVmulhH8
  apply State.on_hide
  repeat' first
    | with_reducible assumption
    | intro _
    | extract_lets
    | with_reducible apply hide_ite
    | with_reducible apply hide_next
    | with_reducible apply Dev.valu_hide (land_trans rfl hm)
    | (split
       all_goals try (rename_i heq
                      have h2 := congrArg Prod.snd heq
                      have h1 := congrArg Prod.fst heq
                      dsimp only at h1 h2
                      subst h1 h2
                      clear heq))
    | dsimp only [Lock.count]
    | dsimp +zetaDelta only

theorem execVmulH8_hide {m : Nat} (hm : 846685936644267521 &&& m = 846685936644267521) {x : Dev} (e : BargeIx) (vd : Fin 16) (va : Fin 16) (vb : Fin 16) (s : State)
    (h : Dev.hide m s.dev = x) : Dev.hide m ((execVmulH8 e vd va vb s).stateOr s).dev = x := by
  unfold execVmulH8
  apply State.on_hide
  repeat' first
    | with_reducible assumption
    | intro _
    | extract_lets
    | with_reducible apply hide_ite
    | with_reducible apply hide_next
    | with_reducible apply Dev.valu_hide (land_trans rfl hm)
    | (split
       all_goals try (rename_i heq
                      have h2 := congrArg Prod.snd heq
                      have h1 := congrArg Prod.fst heq
                      dsimp only at h1 h2
                      subst h1 h2
                      clear heq))
    | dsimp only [Lock.count]
    | dsimp +zetaDelta only

theorem execVsel_hide {m : Nat} (hm : 846685936644267521 &&& m = 846685936644267521) {x : Dev} (e : BargeIx) (t : VType) (vd : Fin 16) (va : Fin 16) (vb : Fin 16) (r : Fin 32) (s : State)
    (h : Dev.hide m s.dev = x) : Dev.hide m ((execVsel e t vd va vb r s).stateOr s).dev = x := by
  unfold execVsel
  apply State.on_hide
  repeat' first
    | with_reducible assumption
    | intro _
    | extract_lets
    | with_reducible apply hide_ite
    | with_reducible apply hide_next
    | with_reducible apply Dev.issueReg_hide (land_trans rfl hm)
    | (split
       all_goals try (rename_i heq
                      have h2 := congrArg Prod.snd heq
                      have h1 := congrArg Prod.fst heq
                      dsimp only at h1 h2
                      subst h1 h2
                      clear heq))
    | dsimp only [Lock.count]
    | dsimp +zetaDelta only

theorem execVcmpeq_hide {m : Nat} (hm : 846685936644267521 &&& m = 846685936644267521) {x : Dev} (e : BargeIx) (t : VType) (r : Fin 32) (va : Fin 16) (vb : Fin 16) (s : State)
    (h : Dev.hide m s.dev = x) : Dev.hide m ((execVcmpeq e t r va vb s).stateOr s).dev = x := by
  unfold execVcmpeq
  apply State.on_hide
  repeat' first
    | with_reducible assumption
    | intro _
    | extract_lets
    | with_reducible apply hide_ite
    | with_reducible apply hide_next
    | with_reducible apply Dev.vtoS_hide (land_trans rfl hm)
    | (split
       all_goals try (rename_i heq
                      have h2 := congrArg Prod.snd heq
                      have h1 := congrArg Prod.fst heq
                      dsimp only at h1 h2
                      subst h1 h2
                      clear heq))
    | dsimp only [Lock.count]
    | dsimp +zetaDelta only

theorem execVcmpgt_hide {m : Nat} (hm : 846685936644267521 &&& m = 846685936644267521) {x : Dev} (e : BargeIx) (t : VType) (r : Fin 32) (va : Fin 16) (vb : Fin 16) (s : State)
    (h : Dev.hide m s.dev = x) : Dev.hide m ((execVcmpgt e t r va vb s).stateOr s).dev = x := by
  unfold execVcmpgt
  apply State.on_hide
  repeat' first
    | with_reducible assumption
    | intro _
    | extract_lets
    | with_reducible apply hide_ite
    | with_reducible apply hide_next
    | with_reducible apply Dev.vtoS_hide (land_trans rfl hm)
    | (split
       all_goals try (rename_i heq
                      have h2 := congrArg Prod.snd heq
                      have h1 := congrArg Prod.fst heq
                      dsimp only at h1 h2
                      subst h1 h2
                      clear heq))
    | dsimp only [Lock.count]
    | dsimp +zetaDelta only

theorem Dev.vshift_hide {m : Nat} (hm : 846685936644267521 &&& m = 846685936644267521) {x : Dev} (s : Dev) (e : Nat) (vd : Nat) (va : Nat) (r : Nat) (f : Word → Quad → Quad)
    (h : Dev.hide m s = x) : Dev.hide m (Dev.vshift s e vd va r f) = x := by
  unfold Dev.vshift
  repeat' first
    | with_reducible assumption
    | intro _
    | extract_lets
    | with_reducible apply hide_ite
    | with_reducible apply hide_next
    | with_reducible apply Dev.issueReg_hide (land_trans rfl hm)
    | (split
       all_goals try (rename_i heq
                      have h2 := congrArg Prod.snd heq
                      have h1 := congrArg Prod.fst heq
                      dsimp only at h1 h2
                      subst h1 h2
                      clear heq))
    | dsimp only [Lock.count]
    | dsimp +zetaDelta only

theorem execVsra_hide {m : Nat} (hm : 846685936644267521 &&& m = 846685936644267521) {x : Dev} (e : BargeIx) (t : VType) (vd : Fin 16) (va : Fin 16) (r : Fin 32) (s : State)
    (h : Dev.hide m s.dev = x) : Dev.hide m ((execVsra e t vd va r s).stateOr s).dev = x := by
  unfold execVsra
  apply State.on_hide
  repeat' first
    | with_reducible assumption
    | intro _
    | extract_lets
    | with_reducible apply hide_ite
    | with_reducible apply hide_next
    | with_reducible apply Dev.vshift_hide (land_trans rfl hm)
    | (split
       all_goals try (rename_i heq
                      have h2 := congrArg Prod.snd heq
                      have h1 := congrArg Prod.fst heq
                      dsimp only at h1 h2
                      subst h1 h2
                      clear heq))
    | dsimp only [Lock.count]
    | dsimp +zetaDelta only

theorem execVsrl_hide {m : Nat} (hm : 846685936644267521 &&& m = 846685936644267521) {x : Dev} (e : BargeIx) (t : VType) (vd : Fin 16) (va : Fin 16) (r : Fin 32) (s : State)
    (h : Dev.hide m s.dev = x) : Dev.hide m ((execVsrl e t vd va r s).stateOr s).dev = x := by
  unfold execVsrl
  apply State.on_hide
  repeat' first
    | with_reducible assumption
    | intro _
    | extract_lets
    | with_reducible apply hide_ite
    | with_reducible apply hide_next
    | with_reducible apply Dev.vshift_hide (land_trans rfl hm)
    | (split
       all_goals try (rename_i heq
                      have h2 := congrArg Prod.snd heq
                      have h1 := congrArg Prod.fst heq
                      dsimp only at h1 h2
                      subst h1 h2
                      clear heq))
    | dsimp only [Lock.count]
    | dsimp +zetaDelta only

theorem execVsll_hide {m : Nat} (hm : 846685936644267521 &&& m = 846685936644267521) {x : Dev} (e : BargeIx) (t : VType) (vd : Fin 16) (va : Fin 16) (r : Fin 32) (s : State)
    (h : Dev.hide m s.dev = x) : Dev.hide m ((execVsll e t vd va r s).stateOr s).dev = x := by
  unfold execVsll
  apply State.on_hide
  repeat' first
    | with_reducible assumption
    | intro _
    | extract_lets
    | with_reducible apply hide_ite
    | with_reducible apply hide_next
    | with_reducible apply Dev.vshift_hide (land_trans rfl hm)
    | (split
       all_goals try (rename_i heq
                      have h2 := congrArg Prod.snd heq
                      have h1 := congrArg Prod.fst heq
                      dsimp only at h1 h2
                      subst h1 h2
                      clear heq))
    | dsimp only [Lock.count]
    | dsimp +zetaDelta only

theorem execVmov_hide {m : Nat} (hm : 846685936644267521 &&& m = 846685936644267521) {x : Dev} (e : BargeIx) (vd : Fin 16) (va : Fin 16) (s : State)
    (h : Dev.hide m s.dev = x) : Dev.hide m ((execVmov e vd va s).stateOr s).dev = x := by
  unfold execVmov
  apply State.on_hide
  repeat' first
    | with_reducible assumption
    | intro _
    | extract_lets
    | with_reducible apply hide_ite
    | with_reducible apply hide_next
    | with_reducible apply Dev.valu_hide (land_trans rfl hm)
    | (split
       all_goals try (rename_i heq
                      have h2 := congrArg Prod.snd heq
                      have h1 := congrArg Prod.fst heq
                      dsimp only at h1 h2
                      subst h1 h2
                      clear heq))
    | dsimp only [Lock.count]
    | dsimp +zetaDelta only

theorem execVxor_hide {m : Nat} (hm : 846685936644267521 &&& m = 846685936644267521) {x : Dev} (e : BargeIx) (vd : Fin 16) (va : Fin 16) (vb : Fin 16) (s : State)
    (h : Dev.hide m s.dev = x) : Dev.hide m ((execVxor e vd va vb s).stateOr s).dev = x := by
  unfold execVxor
  apply State.on_hide
  repeat' first
    | with_reducible assumption
    | intro _
    | extract_lets
    | with_reducible apply hide_ite
    | with_reducible apply hide_next
    | with_reducible apply Dev.valu_hide (land_trans rfl hm)
    | (split
       all_goals try (rename_i heq
                      have h2 := congrArg Prod.snd heq
                      have h1 := congrArg Prod.fst heq
                      dsimp only at h1 h2
                      subst h1 h2
                      clear heq))
    | dsimp only [Lock.count]
    | dsimp +zetaDelta only

theorem execVor_hide {m : Nat} (hm : 846685936644267521 &&& m = 846685936644267521) {x : Dev} (e : BargeIx) (vd : Fin 16) (va : Fin 16) (vb : Fin 16) (s : State)
    (h : Dev.hide m s.dev = x) : Dev.hide m ((execVor e vd va vb s).stateOr s).dev = x := by
  unfold execVor
  apply State.on_hide
  repeat' first
    | with_reducible assumption
    | intro _
    | extract_lets
    | with_reducible apply hide_ite
    | with_reducible apply hide_next
    | with_reducible apply Dev.valu_hide (land_trans rfl hm)
    | (split
       all_goals try (rename_i heq
                      have h2 := congrArg Prod.snd heq
                      have h1 := congrArg Prod.fst heq
                      dsimp only at h1 h2
                      subst h1 h2
                      clear heq))
    | dsimp only [Lock.count]
    | dsimp +zetaDelta only

theorem execVand_hide {m : Nat} (hm : 846685936644267521 &&& m = 846685936644267521) {x : Dev} (e : BargeIx) (vd : Fin 16) (va : Fin 16) (vb : Fin 16) (s : State)
    (h : Dev.hide m s.dev = x) : Dev.hide m ((execVand e vd va vb s).stateOr s).dev = x := by
  unfold execVand
  apply State.on_hide
  repeat' first
    | with_reducible assumption
    | intro _
    | extract_lets
    | with_reducible apply hide_ite
    | with_reducible apply hide_next
    | with_reducible apply Dev.valu_hide (land_trans rfl hm)
    | (split
       all_goals try (rename_i heq
                      have h2 := congrArg Prod.snd heq
                      have h1 := congrArg Prod.fst heq
                      dsimp only at h1 h2
                      subst h1 h2
                      clear heq))
    | dsimp only [Lock.count]
    | dsimp +zetaDelta only

theorem execVabs_hide {m : Nat} (hm : 846685936644267521 &&& m = 846685936644267521) {x : Dev} (e : BargeIx) (t : VType) (vd : Fin 16) (va : Fin 16) (s : State)
    (h : Dev.hide m s.dev = x) : Dev.hide m ((execVabs e t vd va s).stateOr s).dev = x := by
  unfold execVabs
  apply State.on_hide
  repeat' first
    | with_reducible assumption
    | intro _
    | extract_lets
    | with_reducible apply hide_ite
    | with_reducible apply hide_next
    | with_reducible apply Dev.valu_hide (land_trans rfl hm)
    | (split
       all_goals try (rename_i heq
                      have h2 := congrArg Prod.snd heq
                      have h1 := congrArg Prod.fst heq
                      dsimp only at h1 h2
                      subst h1 h2
                      clear heq))
    | dsimp only [Lock.count]
    | dsimp +zetaDelta only

theorem execVmax_hide {m : Nat} (hm : 846685936644267521 &&& m = 846685936644267521) {x : Dev} (e : BargeIx) (t : VType) (vd : Fin 16) (va : Fin 16) (vb : Fin 16) (s : State)
    (h : Dev.hide m s.dev = x) : Dev.hide m ((execVmax e t vd va vb s).stateOr s).dev = x := by
  unfold execVmax
  apply State.on_hide
  repeat' first
    | with_reducible assumption
    | intro _
    | extract_lets
    | with_reducible apply hide_ite
    | with_reducible apply hide_next
    | with_reducible apply Dev.valu_hide (land_trans rfl hm)
    | (split
       all_goals try (rename_i heq
                      have h2 := congrArg Prod.snd heq
                      have h1 := congrArg Prod.fst heq
                      dsimp only at h1 h2
                      subst h1 h2
                      clear heq))
    | dsimp only [Lock.count]
    | dsimp +zetaDelta only

theorem execVmin_hide {m : Nat} (hm : 846685936644267521 &&& m = 846685936644267521) {x : Dev} (e : BargeIx) (t : VType) (vd : Fin 16) (va : Fin 16) (vb : Fin 16) (s : State)
    (h : Dev.hide m s.dev = x) : Dev.hide m ((execVmin e t vd va vb s).stateOr s).dev = x := by
  unfold execVmin
  apply State.on_hide
  repeat' first
    | with_reducible assumption
    | intro _
    | extract_lets
    | with_reducible apply hide_ite
    | with_reducible apply hide_next
    | with_reducible apply Dev.valu_hide (land_trans rfl hm)
    | (split
       all_goals try (rename_i heq
                      have h2 := congrArg Prod.snd heq
                      have h1 := congrArg Prod.fst heq
                      dsimp only at h1 h2
                      subst h1 h2
                      clear heq))
    | dsimp only [Lock.count]
    | dsimp +zetaDelta only

theorem execVsubs_hide {m : Nat} (hm : 846685936644267521 &&& m = 846685936644267521) {x : Dev} (e : BargeIx) (t : VType) (vd : Fin 16) (va : Fin 16) (vb : Fin 16) (s : State)
    (h : Dev.hide m s.dev = x) : Dev.hide m ((execVsubs e t vd va vb s).stateOr s).dev = x := by
  unfold execVsubs
  apply State.on_hide
  repeat' first
    | with_reducible assumption
    | intro _
    | extract_lets
    | with_reducible apply hide_ite
    | with_reducible apply hide_next
    | with_reducible apply Dev.valu_hide (land_trans rfl hm)
    | (split
       all_goals try (rename_i heq
                      have h2 := congrArg Prod.snd heq
                      have h1 := congrArg Prod.fst heq
                      dsimp only at h1 h2
                      subst h1 h2
                      clear heq))
    | dsimp only [Lock.count]
    | dsimp +zetaDelta only

theorem execVadds_hide {m : Nat} (hm : 846685936644267521 &&& m = 846685936644267521) {x : Dev} (e : BargeIx) (t : VType) (vd : Fin 16) (va : Fin 16) (vb : Fin 16) (s : State)
    (h : Dev.hide m s.dev = x) : Dev.hide m ((execVadds e t vd va vb s).stateOr s).dev = x := by
  unfold execVadds
  apply State.on_hide
  repeat' first
    | with_reducible assumption
    | intro _
    | extract_lets
    | with_reducible apply hide_ite
    | with_reducible apply hide_next
    | with_reducible apply Dev.valu_hide (land_trans rfl hm)
    | (split
       all_goals try (rename_i heq
                      have h2 := congrArg Prod.snd heq
                      have h1 := congrArg Prod.fst heq
                      dsimp only at h1 h2
                      subst h1 h2
                      clear heq))
    | dsimp only [Lock.count]
    | dsimp +zetaDelta only

theorem execVsub_hide {m : Nat} (hm : 846685936644267521 &&& m = 846685936644267521) {x : Dev} (e : BargeIx) (t : VType) (vd : Fin 16) (va : Fin 16) (vb : Fin 16) (s : State)
    (h : Dev.hide m s.dev = x) : Dev.hide m ((execVsub e t vd va vb s).stateOr s).dev = x := by
  unfold execVsub
  apply State.on_hide
  repeat' first
    | with_reducible assumption
    | intro _
    | extract_lets
    | with_reducible apply hide_ite
    | with_reducible apply hide_next
    | with_reducible apply Dev.valu_hide (land_trans rfl hm)
    | (split
       all_goals try (rename_i heq
                      have h2 := congrArg Prod.snd heq
                      have h1 := congrArg Prod.fst heq
                      dsimp only at h1 h2
                      subst h1 h2
                      clear heq))
    | dsimp only [Lock.count]
    | dsimp +zetaDelta only

theorem execVadd_hide {m : Nat} (hm : 846685936644267521 &&& m = 846685936644267521) {x : Dev} (e : BargeIx) (t : VType) (vd : Fin 16) (va : Fin 16) (vb : Fin 16) (s : State)
    (h : Dev.hide m s.dev = x) : Dev.hide m ((execVadd e t vd va vb s).stateOr s).dev = x := by
  unfold execVadd
  apply State.on_hide
  repeat' first
    | with_reducible assumption
    | intro _
    | extract_lets
    | with_reducible apply hide_ite
    | with_reducible apply hide_next
    | with_reducible apply Dev.valu_hide (land_trans rfl hm)
    | (split
       all_goals try (rename_i heq
                      have h2 := congrArg Prod.snd heq
                      have h1 := congrArg Prod.fst heq
                      dsimp only at h1 h2
                      subst h1 h2
                      clear heq))
    | dsimp only [Lock.count]
    | dsimp +zetaDelta only

theorem execIllegal_hide {m : Nat} (hm : 846685936644267521 &&& m = 846685936644267521) {x : Dev} (e : BargeIx) (s : State)
    (h : Dev.hide m s.dev = x) : Dev.hide m ((execIllegal e s).stateOr s).dev = x := by
  unfold execIllegal
  apply State.on_hide
  repeat' first
    | with_reducible assumption
    | intro _
    | extract_lets
    | with_reducible apply hide_ite
    | with_reducible apply hide_next
    | with_reducible apply Dev.issue_hide (land_trans rfl hm)
    | with_reducible apply Dev.exception_hide (land_trans rfl hm)
    | (split
       all_goals try (rename_i heq
                      have h2 := congrArg Prod.snd heq
                      have h1 := congrArg Prod.fst heq
                      dsimp only at h1 h2
                      subst h1 h2
                      clear heq))
    | dsimp only [Lock.count]
    | dsimp +zetaDelta only

theorem execEi_hide {m : Nat} (hm : 846685936644267521 &&& m = 846685936644267521) {x : Dev} (e : BargeIx) (s : State)
    (h : Dev.hide m s.dev = x) : Dev.hide m ((execEi e s).stateOr s).dev = x := by
  unfold execEi
  apply State.on_hide
  repeat' first
    | with_reducible assumption
    | intro _
    | extract_lets
    | with_reducible apply hide_ite
    | with_reducible apply hide_next
    | with_reducible apply Dev.issueReg_hide (land_trans rfl hm)
    | (split
       all_goals try (rename_i heq
                      have h2 := congrArg Prod.snd heq
                      have h1 := congrArg Prod.fst heq
                      dsimp only at h1 h2
                      subst h1 h2
                      clear heq))
    | dsimp only [Lock.count]
    | dsimp +zetaDelta only

theorem execDi_hide {m : Nat} (hm : 846685936644267521 &&& m = 846685936644267521) {x : Dev} (e : BargeIx) (s : State)
    (h : Dev.hide m s.dev = x) : Dev.hide m ((execDi e s).stateOr s).dev = x := by
  unfold execDi
  apply State.on_hide
  repeat' first
    | with_reducible assumption
    | intro _
    | extract_lets
    | with_reducible apply hide_ite
    | with_reducible apply hide_next
    | with_reducible apply Dev.issueReg_hide (land_trans rfl hm)
    | (split
       all_goals try (rename_i heq
                      have h2 := congrArg Prod.snd heq
                      have h1 := congrArg Prod.fst heq
                      dsimp only at h1 h2
                      subst h1 h2
                      clear heq))
    | dsimp only [Lock.count]
    | dsimp +zetaDelta only

theorem execBrk_hide {m : Nat} (hm : 846685936644267521 &&& m = 846685936644267521) {x : Dev} (e : BargeIx) (s : State)
    (h : Dev.hide m s.dev = x) : Dev.hide m ((execBrk e s).stateOr s).dev = x := by
  unfold execBrk
  apply State.on_hide
  repeat' first
    | with_reducible assumption
    | intro _
    | extract_lets
    | with_reducible apply hide_ite
    | with_reducible apply hide_next
    | with_reducible apply Dev.issue_hide (land_trans rfl hm)
    | with_reducible apply Dev.haltBarge_hide (land_trans rfl hm)
    | with_reducible apply Dev.exception_hide (land_trans rfl hm)
    | (split
       all_goals try (rename_i heq
                      have h2 := congrArg Prod.snd heq
                      have h1 := congrArg Prod.fst heq
                      dsimp only at h1 h2
                      subst h1 h2
                      clear heq))
    | dsimp only [Lock.count]
    | dsimp +zetaDelta only

theorem execTrap_hide {m : Nat} (hm : 846685936644267521 &&& m = 846685936644267521) {x : Dev} (e : BargeIx) (s : State)
    (h : Dev.hide m s.dev = x) : Dev.hide m ((execTrap e s).stateOr s).dev = x := by
  unfold execTrap
  apply State.on_hide
  repeat' first
    | with_reducible assumption
    | intro _
    | extract_lets
    | with_reducible apply hide_ite
    | with_reducible apply hide_next
    | with_reducible apply Dev.issue_hide (land_trans rfl hm)
    | with_reducible apply Dev.exception_hide (land_trans rfl hm)
    | (split
       all_goals try (rename_i heq
                      have h2 := congrArg Prod.snd heq
                      have h1 := congrArg Prod.fst heq
                      dsimp only at h1 h2
                      subst h1 h2
                      clear heq))
    | dsimp only [Lock.count]
    | dsimp +zetaDelta only

theorem Dev.taskEnd_hide {m : Nat} (hm : 4096 &&& m = 4096) {x : Dev} (s : Dev) (e : Nat)
    (h : Dev.hide m s = x) : Dev.hide m (Dev.taskEnd s e) = x := by
  unfold Dev.taskEnd
  repeat' first
    | with_reducible assumption
    | intro _
    | extract_lets
    | with_reducible apply hide_ite
    | with_reducible apply hide_next
    | with_reducible apply Dev.setBarge_hide (land_trans rfl hm)
    | (split
       all_goals try (rename_i heq
                      have h2 := congrArg Prod.snd heq
                      have h1 := congrArg Prod.fst heq
                      dsimp only at h1 h2
                      subst h1 h2
                      clear heq))
    | dsimp only [Lock.count]
    | dsimp +zetaDelta only

theorem execRetX_hide {m : Nat} (hm : 846685936644267521 &&& m = 846685936644267521) {x : Dev} (e : BargeIx) (s : State)
    (h : Dev.hide m s.dev = x) : Dev.hide m ((execRetX e s).stateOr s).dev = x := by
  unfold execRetX
  apply State.on_hide
  repeat' first
    | with_reducible assumption
    | intro _
    | extract_lets
    | with_reducible apply hide_ite
    | with_reducible apply hide_next
    | with_reducible apply Dev.taskEnd_hide (land_trans rfl hm)
    | with_reducible apply Dev.issue_hide (land_trans rfl hm)
    | with_reducible apply Dev.modBarge_hide (land_trans rfl hm)
    | (split
       all_goals try (rename_i heq
                      have h2 := congrArg Prod.snd heq
                      have h1 := congrArg Prod.fst heq
                      dsimp only at h1 h2
                      subst h1 h2
                      clear heq))
    | dsimp only [Lock.count]
    | dsimp +zetaDelta only

theorem execWaitI_hide {m : Nat} (hm : 846685936644267521 &&& m = 846685936644267521) {x : Dev} (e : BargeIx) (s : State)
    (h : Dev.hide m s.dev = x) : Dev.hide m ((execWaitI e s).stateOr s).dev = x := by
  unfold execWaitI
  apply State.on_hide
  repeat' first
    | with_reducible assumption
    | intro _
    | extract_lets
    | with_reducible apply hide_ite
    | with_reducible apply hide_next
    | with_reducible apply Dev.taskEnd_hide (land_trans rfl hm)
    | with_reducible apply Dev.issue_hide (land_trans rfl hm)
    | with_reducible apply Dev.modBarge_hide (land_trans rfl hm)
    | (split
       all_goals try (rename_i heq
                      have h2 := congrArg Prod.snd heq
                      have h1 := congrArg Prod.fst heq
                      dsimp only at h1 h2
                      subst h1 h2
                      clear heq))
    | dsimp only [Lock.count]
    | dsimp +zetaDelta only

theorem execSyncI_hide {m : Nat} (hm : 846685936644267521 &&& m = 846685936644267521) {x : Dev} (e : BargeIx) (s : State)
    (h : Dev.hide m s.dev = x) : Dev.hide m ((execSyncI e s).stateOr s).dev = x := by
  unfold execSyncI
  apply State.on_hide
  repeat' first
    | with_reducible assumption
    | intro _
    | extract_lets
    | with_reducible apply hide_ite
    | with_reducible apply hide_next
    | with_reducible apply Dev.issue_hide (land_trans rfl hm)
    | with_reducible apply Dev.setBarge_hide (land_trans rfl hm)
    | (split
       all_goals try (rename_i heq
                      have h2 := congrArg Prod.snd heq
                      have h1 := congrArg Prod.fst heq
                      dsimp only at h1 h2
                      subst h1 h2
                      clear heq))
    | dsimp only [Lock.count]
    | dsimp +zetaDelta only

theorem execDrain_hide {m : Nat} (hm : 846685936644267521 &&& m = 846685936644267521) {x : Dev} (e : BargeIx) (s : State)
    (h : Dev.hide m s.dev = x) : Dev.hide m ((execDrain e s).stateOr s).dev = x := by
  unfold execDrain
  apply State.on_hide
  repeat' first
    | with_reducible assumption
    | intro _
    | extract_lets
    | with_reducible apply hide_ite
    | with_reducible apply hide_next
    | with_reducible apply Dev.issue_hide (land_trans rfl hm)
    | with_reducible apply Dev.setBarge_hide (land_trans rfl hm)
    | (split
       all_goals try (rename_i heq
                      have h2 := congrArg Prod.snd heq
                      have h1 := congrArg Prod.fst heq
                      dsimp only at h1 h2
                      subst h1 h2
                      clear heq))
    | dsimp only [Lock.count]
    | dsimp +zetaDelta only

theorem Dev.jump_hide {m : Nat} (hm : 846685936644267521 &&& m = 846685936644267521) {x : Dev} (s : Dev) (e : Nat) (d : Nat) (regs : List Nat) (t : Barge → Nat)
    (h : Dev.hide m s = x) : Dev.hide m (Dev.jump s e d regs t) = x := by
  unfold Dev.jump
  repeat' first
    | with_reducible assumption
    | intro _
    | extract_lets
    | with_reducible apply hide_ite
    | with_reducible apply hide_next
    | with_reducible apply Dev.issue_hide (land_trans rfl hm)
    | with_reducible apply Dev.modBarge_hide (land_trans rfl hm)
    | (split
       all_goals try (rename_i heq
                      have h2 := congrArg Prod.snd heq
                      have h1 := congrArg Prod.fst heq
                      dsimp only at h1 h2
                      subst h1 h2
                      clear heq))
    | dsimp only [Lock.count]
    | dsimp +zetaDelta only

theorem execJmpr_hide {m : Nat} (hm : 846685936644267521 &&& m = 846685936644267521) {x : Dev} (e : BargeIx) (d : Fin 32) (base : Fin 32) (imm : BitVec 13) (s : State)
    (h : Dev.hide m s.dev = x) : Dev.hide m ((execJmpr e d base imm s).stateOr s).dev = x := by
  unfold execJmpr
  apply State.on_hide
  repeat' first
    | with_reducible assumption
    | intro _
    | extract_lets
    | with_reducible apply hide_ite
    | with_reducible apply hide_next
    | with_reducible apply Dev.jump_hide (land_trans rfl hm)
    | (split
       all_goals try (rename_i heq
                      have h2 := congrArg Prod.snd heq
                      have h1 := congrArg Prod.fst heq
                      dsimp only at h1 h2
                      subst h1 h2
                      clear heq))
    | dsimp only [Lock.count]
    | dsimp +zetaDelta only

theorem execJmp_hide {m : Nat} (hm : 846685936644267521 &&& m = 846685936644267521) {x : Dev} (e : BargeIx) (d : Fin 32) (imm : BitVec 21) (s : State)
    (h : Dev.hide m s.dev = x) : Dev.hide m ((execJmp e d imm s).stateOr s).dev = x := by
  unfold execJmp
  apply State.on_hide
  repeat' first
    | with_reducible assumption
    | intro _
    | extract_lets
    | with_reducible apply hide_ite
    | with_reducible apply hide_next
    | with_reducible apply Dev.jump_hide (land_trans rfl hm)
    | (split
       all_goals try (rename_i heq
                      have h2 := congrArg Prod.snd heq
                      have h1 := congrArg Prod.fst heq
                      dsimp only at h1 h2
                      subst h1 h2
                      clear heq))
    | dsimp only [Lock.count]
    | dsimp +zetaDelta only

theorem Dev.branch_hide {m : Nat} (hm : 846685936644267521 &&& m = 846685936644267521) {x : Dev} (s : Dev) (e : Nat) (a : Nat) (b : Nat) (imm : BitVec 13) (p : Word → Word → Bool)
    (h : Dev.hide m s = x) : Dev.hide m (Dev.branch s e a b imm p) = x := by
  unfold Dev.branch
  repeat' first
    | with_reducible assumption
    | intro _
    | extract_lets
    | with_reducible apply hide_ite
    | with_reducible apply hide_next
    | with_reducible apply Dev.issue_hide (land_trans rfl hm)
    | with_reducible apply Dev.modBarge_hide (land_trans rfl hm)
    | (split
       all_goals try (rename_i heq
                      have h2 := congrArg Prod.snd heq
                      have h1 := congrArg Prod.fst heq
                      dsimp only at h1 h2
                      subst h1 h2
                      clear heq))
    | dsimp only [Lock.count]
    | dsimp +zetaDelta only

theorem execBGeu_hide {m : Nat} (hm : 846685936644267521 &&& m = 846685936644267521) {x : Dev} (e : BargeIx) (a : Fin 32) (b : Fin 32) (imm : BitVec 13) (s : State)
    (h : Dev.hide m s.dev = x) : Dev.hide m ((execBGeu e a b imm s).stateOr s).dev = x := by
  unfold execBGeu
  apply State.on_hide
  repeat' first
    | with_reducible assumption
    | intro _
    | extract_lets
    | with_reducible apply hide_ite
    | with_reducible apply hide_next
    | with_reducible apply Dev.branch_hide (land_trans rfl hm)
    | (split
       all_goals try (rename_i heq
                      have h2 := congrArg Prod.snd heq
                      have h1 := congrArg Prod.fst heq
                      dsimp only at h1 h2
                      subst h1 h2
                      clear heq))
    | dsimp only [Lock.count]
    | dsimp +zetaDelta only

theorem execBLtu_hide {m : Nat} (hm : 846685936644267521 &&& m = 846685936644267521) {x : Dev} (e : BargeIx) (a : Fin 32) (b : Fin 32) (imm : BitVec 13) (s : State)
    (h : Dev.hide m s.dev = x) : Dev.hide m ((execBLtu e a b imm s).stateOr s).dev = x := by
  unfold execBLtu
  apply State.on_hide
  repeat' first
    | with_reducible assumption
    | intro _
    | extract_lets
    | with_reducible apply hide_ite
    | with_reducible apply hide_next
    | with_reducible apply Dev.branch_hide (land_trans rfl hm)
    | (split
       all_goals try (rename_i heq
                      have h2 := congrArg Prod.snd heq
                      have h1 := congrArg Prod.fst heq
                      dsimp only at h1 h2
                      subst h1 h2
                      clear heq))
    | dsimp only [Lock.count]
    | dsimp +zetaDelta only

theorem execBGe_hide {m : Nat} (hm : 846685936644267521 &&& m = 846685936644267521) {x : Dev} (e : BargeIx) (a : Fin 32) (b : Fin 32) (imm : BitVec 13) (s : State)
    (h : Dev.hide m s.dev = x) : Dev.hide m ((execBGe e a b imm s).stateOr s).dev = x := by
  unfold execBGe
  apply State.on_hide
  repeat' first
    | with_reducible assumption
    | intro _
    | extract_lets
    | with_reducible apply hide_ite
    | with_reducible apply hide_next
    | with_reducible apply Dev.branch_hide (land_trans rfl hm)
    | (split
       all_goals try (rename_i heq
                      have h2 := congrArg Prod.snd heq
                      have h1 := congrArg Prod.fst heq
                      dsimp only at h1 h2
                      subst h1 h2
                      clear heq))
    | dsimp only [Lock.count]
    | dsimp +zetaDelta only

theorem execBLt_hide {m : Nat} (hm : 846685936644267521 &&& m = 846685936644267521) {x : Dev} (e : BargeIx) (a : Fin 32) (b : Fin 32) (imm : BitVec 13) (s : State)
    (h : Dev.hide m s.dev = x) : Dev.hide m ((execBLt e a b imm s).stateOr s).dev = x := by
  unfold execBLt
  apply State.on_hide
  repeat' first
    | with_reducible assumption
    | intro _
    | extract_lets
    | with_reducible apply hide_ite
    | with_reducible apply hide_next
    | with_reducible apply Dev.branch_hide (land_trans rfl hm)
    | (split
       all_goals try (rename_i heq
                      have h2 := congrArg Prod.snd heq
                      have h1 := congrArg Prod.fst heq
                      dsimp only at h1 h2
                      subst h1 h2
                      clear heq))
    | dsimp only [Lock.count]
    | dsimp +zetaDelta only

theorem execBNe_hide {m : Nat} (hm : 846685936644267521 &&& m = 846685936644267521) {x : Dev} (e : BargeIx) (a : Fin 32) (b : Fin 32) (imm : BitVec 13) (s : State)
    (h : Dev.hide m s.dev = x) : Dev.hide m ((execBNe e a b imm s).stateOr s).dev = x := by
  unfold execBNe
  apply State.on_hide
  repeat' first
    | with_reducible assumption
    | intro _
    | extract_lets
    | with_reducible apply hide_ite
    | with_reducible apply hide_next
    | with_reducible apply Dev.branch_hide (land_trans rfl hm)
    | (split
       all_goals try (rename_i heq
                      have h2 := congrArg Prod.snd heq
                      have h1 := congrArg Prod.fst heq
                      dsimp only at h1 h2
                      subst h1 h2
                      clear heq))
    | dsimp only [Lock.count]
    | dsimp +zetaDelta only

theorem execBEq_hide {m : Nat} (hm : 846685936644267521 &&& m = 846685936644267521) {x : Dev} (e : BargeIx) (a : Fin 32) (b : Fin 32) (imm : BitVec 13) (s : State)
    (h : Dev.hide m s.dev = x) : Dev.hide m ((execBEq e a b imm s).stateOr s).dev = x := by
  unfold execBEq
  apply State.on_hide
  repeat' first
    | with_reducible assumption
    | intro _
    | extract_lets
    | with_reducible apply hide_ite
    | with_reducible apply hide_next
    | with_reducible apply Dev.branch_hide (land_trans rfl hm)
    | (split
       all_goals try (rename_i heq
                      have h2 := congrArg Prod.snd heq
                      have h1 := congrArg Prod.fst heq
                      dsimp only at h1 h2
                      subst h1 h2
                      clear heq))
    | dsimp only [Lock.count]
    | dsimp +zetaDelta only

theorem execVstQ_hide {m : Nat} (hm : 846685936644267521 &&& m = 846685936644267521) {x : Dev} (e : BargeIx) (v : Fin 16) (base : Fin 32) (imm : BitVec 13) (s : State)
    (h : Dev.hide m s.dev = x) : Dev.hide m ((execVstQ e v base imm s).stateOr s).dev = x := by
  unfold execVstQ
  apply State.on_hide
  repeat' first
    | with_reducible assumption
    | intro _
    | extract_lets
    | with_reducible apply hide_ite
    | with_reducible apply hide_next
    | with_reducible apply Dev.store_hide (land_trans rfl hm)
    | (split
       all_goals try (rename_i heq
                      have h2 := congrArg Prod.snd heq
                      have h1 := congrArg Prod.fst heq
                      dsimp only at h1 h2
                      subst h1 h2
                      clear heq))
    | dsimp only [Lock.count]
    | dsimp +zetaDelta only

theorem Dev.oddPair_hide {m : Nat} (hm : 846685936644267521 &&& m = 846685936644267521) {x : Dev} (s : Dev) (e : Nat)
    (h : Dev.hide m s = x) : Dev.hide m (Dev.oddPair s e) = x := by
  unfold Dev.oddPair
  repeat' first
    | with_reducible assumption
    | intro _
    | extract_lets
    | with_reducible apply hide_ite
    | with_reducible apply hide_next
    | with_reducible apply Dev.issue_hide (land_trans rfl hm)
    | with_reducible apply Dev.exception_hide (land_trans rfl hm)
    | (split
       all_goals try (rename_i heq
                      have h2 := congrArg Prod.snd heq
                      have h1 := congrArg Prod.fst heq
                      dsimp only at h1 h2
                      subst h1 h2
                      clear heq))
    | dsimp only [Lock.count]
    | dsimp +zetaDelta only

theorem execStD_hide {m : Nat} (hm : 846685936644267521 &&& m = 846685936644267521) {x : Dev} (e : BargeIx) (src : Fin 32) (base : Fin 32) (imm : BitVec 13) (s : State)
    (h : Dev.hide m s.dev = x) : Dev.hide m ((execStD e src base imm s).stateOr s).dev = x := by
  unfold execStD
  apply State.on_hide
  repeat' first
    | with_reducible assumption
    | intro _
    | extract_lets
    | with_reducible apply hide_ite
    | with_reducible apply hide_next
    | with_reducible apply Dev.oddPair_hide (land_trans rfl hm)
    | with_reducible apply Dev.store_hide (land_trans rfl hm)
    | (split
       all_goals try (rename_i heq
                      have h2 := congrArg Prod.snd heq
                      have h1 := congrArg Prod.fst heq
                      dsimp only at h1 h2
                      subst h1 h2
                      clear heq))
    | dsimp only [Lock.count]
    | dsimp +zetaDelta only

theorem execStW_hide {m : Nat} (hm : 846685936644267521 &&& m = 846685936644267521) {x : Dev} (e : BargeIx) (src : Fin 32) (base : Fin 32) (imm : BitVec 13) (s : State)
    (h : Dev.hide m s.dev = x) : Dev.hide m ((execStW e src base imm s).stateOr s).dev = x := by
  unfold execStW
  apply State.on_hide
  repeat' first
    | with_reducible assumption
    | intro _
    | extract_lets
    | with_reducible apply hide_ite
    | with_reducible apply hide_next
    | with_reducible apply Dev.store_hide (land_trans rfl hm)
    | (split
       all_goals try (rename_i heq
                      have h2 := congrArg Prod.snd heq
                      have h1 := congrArg Prod.fst heq
                      dsimp only at h1 h2
                      subst h1 h2
                      clear heq))
    | dsimp only [Lock.count]
    | dsimp +zetaDelta only

theorem execStH_hide {m : Nat} (hm : 846685936644267521 &&& m = 846685936644267521) {x : Dev} (e : BargeIx) (src : Fin 32) (base : Fin 32) (imm : BitVec 13) (s : State)
    (h : Dev.hide m s.dev = x) : Dev.hide m ((execStH e src base imm s).stateOr s).dev = x := by
  unfold execStH
  apply State.on_hide
  repeat' first
    | with_reducible assumption
    | intro _
    | extract_lets
    | with_reducible apply hide_ite
    | with_reducible apply hide_next
    | with_reducible apply Dev.store_hide (land_trans rfl hm)
    | (split
       all_goals try (rename_i heq
                      have h2 := congrArg Prod.snd heq
                      have h1 := congrArg Prod.fst heq
                      dsimp only at h1 h2
                      subst h1 h2
                      clear heq))
    | dsimp only [Lock.count]
    | dsimp +zetaDelta only

theorem execStB_hide {m : Nat} (hm : 846685936644267521 &&& m = 846685936644267521) {x : Dev} (e : BargeIx) (src : Fin 32) (base : Fin 32) (imm : BitVec 13) (s : State)
    (h : Dev.hide m s.dev = x) : Dev.hide m ((execStB e src base imm s).stateOr s).dev = x := by
  unfold execStB
  apply State.on_hide
  repeat' first
    | with_reducible assumption
    | intro _
    | extract_lets
    | with_reducible apply hide_ite
    | with_reducible apply hide_next
    | with_reducible apply Dev.store_hide (land_trans rfl hm)
    | (split
       all_goals try (rename_i heq
                      have h2 := congrArg Prod.snd heq
                      have h1 := congrArg Prod.fst heq
                      dsimp only at h1 h2
                      subst h1 h2
                      clear heq))
    | dsimp only [Lock.count]
    | dsimp +zetaDelta only

theorem execVldQ_hide {m : Nat} (hm : 846685936644267521 &&& m = 846685936644267521) {x : Dev} (e : BargeIx) (v : Fin 16) (base : Fin 32) (imm : BitVec 13) (s : State)
    (h : Dev.hide m s.dev = x) : Dev.hide m ((execVldQ e v base imm s).stateOr s).dev = x := by
  unfold execVldQ
  apply State.on_hide
  repeat' first
    | with_reducible assumption
    | intro _
    | extract_lets
    | with_reducible apply hide_ite
    | with_reducible apply hide_next
    | with_reducible apply Dev.load_hide (land_trans rfl hm)
    | (split
       all_goals try (rename_i heq
                      have h2 := congrArg Prod.snd heq
                      have h1 := congrArg Prod.fst heq
                      dsimp only at h1 h2
                      subst h1 h2
                      clear heq))
    | dsimp only [Lock.count]
    | dsimp +zetaDelta only

theorem execLdD_hide {m : Nat} (hm : 846685936644267521 &&& m = 846685936644267521) {x : Dev} (e : BargeIx) (d : Fin 32) (base : Fin 32) (imm : BitVec 13) (s : State)
    (h : Dev.hide m s.dev = x) : Dev.hide m ((execLdD e d base imm s).stateOr s).dev = x := by
  unfold execLdD
  apply State.on_hide
  repeat' first
    | with_reducible assumption
    | intro _
    | extract_lets
    | with_reducible apply hide_ite
    | with_reducible apply hide_next
    | with_reducible apply Dev.oddPair_hide (land_trans rfl hm)
    | with_reducible apply Dev.load_hide (land_trans rfl hm)
    | (split
       all_goals try (rename_i heq
                      have h2 := congrArg Prod.snd heq
                      have h1 := congrArg Prod.fst heq
                      dsimp only at h1 h2
                      subst h1 h2
                      clear heq))
    | dsimp only [Lock.count]
    | dsimp +zetaDelta only

theorem execLdW_hide {m : Nat} (hm : 846685936644267521 &&& m = 846685936644267521) {x : Dev} (e : BargeIx) (d : Fin 32) (base : Fin 32) (imm : BitVec 13) (s : State)
    (h : Dev.hide m s.dev = x) : Dev.hide m ((execLdW e d base imm s).stateOr s).dev = x := by
  unfold execLdW
  apply State.on_hide
  repeat' first
    | with_reducible assumption
    | intro _
    | extract_lets
    | with_reducible apply hide_ite
    | with_reducible apply hide_next
    | with_reducible apply Dev.load_hide (land_trans rfl hm)
    | (split
       all_goals try (rename_i heq
                      have h2 := congrArg Prod.snd heq
                      have h1 := congrArg Prod.fst heq
                      dsimp only at h1 h2
                      subst h1 h2
                      clear heq))
    | dsimp only [Lock.count]
    | dsimp +zetaDelta only

theorem execLdH_hide {m : Nat} (hm : 846685936644267521 &&& m = 846685936644267521) {x : Dev} (e : BargeIx) (d : Fin 32) (base : Fin 32) (imm : BitVec 13) (s : State)
    (h : Dev.hide m s.dev = x) : Dev.hide m ((execLdH e d base imm s).stateOr s).dev = x := by
  unfold execLdH
  apply State.on_hide
  repeat' first
    | with_reducible assumption
    | intro _
    | extract_lets
    | with_reducible apply hide_ite
    | with_reducible apply hide_next
    | with_reducible apply Dev.load_hide (land_trans rfl hm)
    | (split
       all_goals try (rename_i heq
                      have h2 := congrArg Prod.snd heq
                      have h1 := congrArg Prod.fst heq
                      dsimp only at h1 h2
                      subst h1 h2
                      clear heq))
    | dsimp only [Lock.count]
    | dsimp +zetaDelta only

theorem execLdBu_hide {m : Nat} (hm : 846685936644267521 &&& m = 846685936644267521) {x : Dev} (e : BargeIx) (d : Fin 32) (base : Fin 32) (imm : BitVec 13) (s : State)
    (h : Dev.hide m s.dev = x) : Dev.hide m ((execLdBu e d base imm s).stateOr s).dev = x := by
  unfold execLdBu
  apply State.on_hide
  repeat' first
    | with_reducible assumption
    | intro _
    | extract_lets
    | with_reducible apply hide_ite
    | with_reducible apply hide_next
    | with_reducible apply Dev.load_hide (land_trans rfl hm)
    | (split
       all_goals try (rename_i heq
                      have h2 := congrArg Prod.snd heq
                      have h1 := congrArg Prod.fst heq
                      dsimp only at h1 h2
                      subst h1 h2
                      clear heq))
    | dsimp only [Lock.count]
    | dsimp +zetaDelta only

theorem execLdB_hide {m : Nat} (hm : 846685936644267521 &&& m = 846685936644267521) {x : Dev} (e : BargeIx) (d : Fin 32) (base : Fin 32) (imm : BitVec 13) (s : State)
    (h : Dev.hide m s.dev = x) : Dev.hide m ((execLdB e d base imm s).stateOr s).dev = x := by
  unfold execLdB
  apply State.on_hide
  repeat' first
    | with_reducible assumption
    | intro _
    | extract_lets
    | with_reducible apply hide_ite
    | with_reducible apply hide_next
    | with_reducible apply Dev.load_hide (land_trans rfl hm)
    | (split
       all_goals try (rename_i heq
                      have h2 := congrArg Prod.snd heq
                      have h1 := congrArg Prod.fst heq
                      dsimp only at h1 h2
                      subst h1 h2
                      clear heq))
    | dsimp only [Lock.count]
    | dsimp +zetaDelta only

theorem Dev.alu_hide {m : Nat} (hm : 846685936644267521 &&& m = 846685936644267521) {x : Dev} (s : Dev) (e : Nat) (d : Nat) (a : Nat) (b : Nat) (f : Word → Word → Word)
    (h : Dev.hide m s = x) : Dev.hide m (Dev.alu s e d a b f) = x := by
  unfold Dev.alu
  repeat' first
    | with_reducible assumption
    | intro _
    | extract_lets
    | with_reducible apply hide_ite
    | with_reducible apply hide_next
    | with_reducible apply Dev.issueReg_hide (land_trans rfl hm)
    | (split
       all_goals try (rename_i heq
                      have h2 := congrArg Prod.snd heq
                      have h1 := congrArg Prod.fst heq
                      dsimp only at h1 h2
                      subst h1 h2
                      clear heq))
    | dsimp only [Lock.count]
    | dsimp +zetaDelta only

theorem execRemU_hide {m : Nat} (hm : 846685936644267521 &&& m = 846685936644267521) {x : Dev} (e : BargeIx) (d : Fin 32) (a : Fin 32) (b : Fin 32) (s : State)
    (h : Dev.hide m s.dev = x) : Dev.hide m ((execRemU e d a b s).stateOr s).dev = x := by
  unfold execRemU
  apply State.on_hide
  repeat' first
    | with_reducible assumption
    | intro _
    | extract_lets
    | with_reducible apply hide_ite
    | with_reducible apply hide_next
    | with_reducible apply Dev.alu_hide (land_trans rfl hm)
    | (split
       all_goals try (rename_i heq
                      have h2 := congrArg Prod.snd heq
                      have h1 := congrArg Prod.fst heq
                      dsimp only at h1 h2
                      subst h1 h2
                      clear heq))
    | dsimp only [Lock.count]
    | dsimp +zetaDelta only

theorem execRemS_hide {m : Nat} (hm : 846685936644267521 &&& m = 846685936644267521) {x : Dev} (e : BargeIx) (d : Fin 32) (a : Fin 32) (b : Fin 32) (s : State)
    (h : Dev.hide m s.dev = x) : Dev.hide m ((execRemS e d a b s).stateOr s).dev = x := by
  unfold execRemS
  apply State.on_hide
  repeat' first
    | with_reducible assumption
    | intro _
    | extract_lets
    | with_reducible apply hide_ite
    | with_reducible apply hide_next
    | with_reducible apply Dev.alu_hide (land_trans rfl hm)
    | (split
       all_goals try (rename_i heq
                      have h2 := congrArg Prod.snd heq
                      have h1 := congrArg Prod.fst heq
                      dsimp only at h1 h2
                      subst h1 h2
                      clear heq))
    | dsimp only [Lock.count]
    | dsimp +zetaDelta only

theorem execDivU_hide {m : Nat} (hm : 846685936644267521 &&& m = 846685936644267521) {x : Dev} (e : BargeIx) (d : Fin 32) (a : Fin 32) (b : Fin 32) (s : State)
    (h : Dev.hide m s.dev = x) : Dev.hide m ((execDivU e d a b s).stateOr s).dev = x := by
  unfold execDivU
  apply State.on_hide
  repeat' first
    | with_reducible assumption
    | intro _
    | extract_lets
    | with_reducible apply hide_ite
    | with_reducible apply hide_next
    | with_reducible apply Dev.alu_hide (land_trans rfl hm)
    | (split
       all_goals try (rename_i heq
                      have h2 := congrArg Prod.snd heq
                      have h1 := congrArg Prod.fst heq
                      dsimp only at h1 h2
                      subst h1 h2
                      clear heq))
    | dsimp only [Lock.count]
    | dsimp +zetaDelta only

theorem execDivS_hide {m : Nat} (hm : 846685936644267521 &&& m = 846685936644267521) {x : Dev} (e : BargeIx) (d : Fin 32) (a : Fin 32) (b : Fin 32) (s : State)
    (h : Dev.hide m s.dev = x) : Dev.hide m ((execDivS e d a b s).stateOr s).dev = x := by
  unfold execDivS
  apply State.on_hide
  repeat' first
    | with_reducible assumption
    | intro _
    | extract_lets
    | with_reducible apply hide_ite
    | with_reducible apply hide_next
    | with_reducible apply Dev.alu_hide (land_trans rfl hm)
    | (split
       all_goals try (rename_i heq
                      have h2 := congrArg Prod.snd heq
                      have h1 := congrArg Prod.fst heq
                      dsimp only at h1 h2
                      subst h1 h2
                      clear heq))
    | dsimp only [Lock.count]
    | dsimp +zetaDelta only

theorem execMulhU_hide {m : Nat} (hm : 846685936644267521 &&& m = 846685936644267521) {x : Dev} (e : BargeIx) (d : Fin 32) (a : Fin 32) (b : Fin 32) (s : State)
    (h : Dev.hide m s.dev = x) : Dev.hide m ((execMulhU e d a b s).stateOr s).dev = x := by
  unfold execMulhU
  apply State.on_hide
  repeat' first
    | with_reducible assumption
    | intro _
    | extract_lets
    | with_reducible apply hide_ite
    | with_reducible apply hide_next
    | with_reducible apply Dev.alu_hide (land_trans rfl hm)
    | (split
       all_goals try (rename_i heq
                      have h2 := congrArg Prod.snd heq
                      have h1 := congrArg Prod.fst heq
                      dsimp only at h1 h2
                      subst h1 h2
                      clear heq))
    | dsimp only [Lock.count]
    | dsimp +zetaDelta only

theorem execMulhS_hide {m : Nat} (hm : 846685936644267521 &&& m = 846685936644267521) {x : Dev} (e : BargeIx) (d : Fin 32) (a : Fin 32) (b : Fin 32) (s : State)
    (h : Dev.hide m s.dev = x) : Dev.hide m ((execMulhS e d a b s).stateOr s).dev = x := by
  unfold execMulhS
  apply State.on_hide
  repeat' first
    | with_reducible assumption
    | intro _
    | extract_lets
    | with_reducible apply hide_ite
    | with_reducible apply hide_next
    | with_reducible apply Dev.alu_hide (land_trans rfl hm)
    | (split
       all_goals try (rename_i heq
                      have h2 := congrArg Prod.snd heq
                      have h1 := congrArg Prod.fst heq
                      dsimp only at h1 h2
                      subst h1 h2
                      clear heq))
    | dsimp only [Lock.count]
    | dsimp +zetaDelta only

theorem execMulR_hide {m : Nat} (hm : 846685936644267521 &&& m = 846685936644267521) {x : Dev} (e : BargeIx) (d : Fin 32) (a : Fin 32) (b : Fin 32) (s : State)
    (h : Dev.hide m s.dev = x) : Dev.hide m ((execMulR e d a b s).stateOr s).dev = x := by
  unfold execMulR
  apply State.on_hide
  repeat' first
    | with_reducible assumption
    | intro _
    | extract_lets
    | with_reducible apply hide_ite
    | with_reducible apply hide_next
    | with_reducible apply Dev.alu_hide (land_trans rfl hm)
    | (split
       all_goals try (rename_i heq
                      have h2 := congrArg Prod.snd heq
                      have h1 := congrArg Prod.fst heq
                      dsimp only at h1 h2
                      subst h1 h2
                      clear heq))
    | dsimp only [Lock.count]
    | dsimp +zetaDelta only

theorem execAdrh_hide {m : Nat} (hm : 846685936644267521 &&& m = 846685936644267521) {x : Dev} (e : BargeIx) (d : Fin 32) (imm : BitVec 21) (s : State)
    (h : Dev.hide m s.dev = x) : Dev.hide m ((execAdrh e d imm s).stateOr s).dev = x := by
  unfold execAdrh
  apply State.on_hide
  repeat' first
    | with_reducible assumption
    | intro _
    | extract_lets
    | with_reducible apply hide_ite
    | with_reducible apply hide_next
    | with_reducible apply Dev.issueReg_hide (land_trans rfl hm)
    | (split
       all_goals try (rename_i heq
                      have h2 := congrArg Prod.snd heq
                      have h1 := congrArg Prod.fst heq
                      dsimp only at h1 h2
                      subst h1 h2
                      clear heq))
    | dsimp only [Lock.count]
    | dsimp +zetaDelta only

theorem execMovh_hide {m : Nat} (hm : 846685936644267521 &&& m = 846685936644267521) {x : Dev} (e : BargeIx) (d : Fin 32) (imm : BitVec 21) (s : State)
    (h : Dev.hide m s.dev = x) : Dev.hide m ((execMovh e d imm s).stateOr s).dev = x := by
  unfold execMovh
  apply State.on_hide
  repeat' first
    | with_reducible assumption
    | intro _
    | extract_lets
    | with_reducible apply hide_ite
    | with_reducible apply hide_next
    | with_reducible apply Dev.issueReg_hide (land_trans rfl hm)
    | (split
       all_goals try (rename_i heq
                      have h2 := congrArg Prod.snd heq
                      have h1 := congrArg Prod.fst heq
                      dsimp only at h1 h2
                      subst h1 h2
                      clear heq))
    | dsimp only [Lock.count]
    | dsimp +zetaDelta only

theorem execSraI_hide {m : Nat} (hm : 846685936644267521 &&& m = 846685936644267521) {x : Dev} (e : BargeIx) (d : Fin 32) (a : Fin 32) (sh : Fin 32) (s : State)
    (h : Dev.hide m s.dev = x) : Dev.hide m ((execSraI e d a sh s).stateOr s).dev = x := by
  unfold execSraI
  apply State.on_hide
  repeat' first
    | with_reducible assumption
    | intro _
    | extract_lets
    | with_reducible apply hide_ite
    | with_reducible apply hide_next
    | with_reducible apply Dev.aluI_hide (land_trans rfl hm)
    | (split
       all_goals try (rename_i heq
                      have h2 := congrArg Prod.snd heq
                      have h1 := congrArg Prod.fst heq
                      dsimp only at h1 h2
                      subst h1 h2
                      clear heq))
    | dsimp only [Lock.count]
    | dsimp +zetaDelta only

theorem execShrI_hide {m : Nat} (hm : 846685936644267521 &&& m = 846685936644267521) {x : Dev} (e : BargeIx) (d : Fin 32) (a : Fin 32) (sh : Fin 32) (s : State)
    (h : Dev.hide m s.dev = x) : Dev.hide m ((execShrI e d a sh s).stateOr s).dev = x := by
  unfold execShrI
  apply State.on_hide
  repeat' first
    | with_reducible assumption
    | intro _
    | extract_lets
    | with_reducible apply hide_ite
    | with_reducible apply hide_next
    | with_reducible apply Dev.aluI_hide (land_trans rfl hm)
    | (split
       all_goals try (rename_i heq
                      have h2 := congrArg Prod.snd heq
                      have h1 := congrArg Prod.fst heq
                      dsimp only at h1 h2
                      subst h1 h2
                      clear heq))
    | dsimp only [Lock.count]
    | dsimp +zetaDelta only

theorem execShlI_hide {m : Nat} (hm : 846685936644267521 &&& m = 846685936644267521) {x : Dev} (e : BargeIx) (d : Fin 32) (a : Fin 32) (sh : Fin 32) (s : State)
    (h : Dev.hide m s.dev = x) : Dev.hide m ((execShlI e d a sh s).stateOr s).dev = x := by
  unfold execShlI
  apply State.on_hide
  repeat' first
    | with_reducible assumption
    | intro _
    | extract_lets
    | with_reducible apply hide_ite
    | with_reducible apply hide_next
    | with_reducible apply Dev.aluI_hide (land_trans rfl hm)
    | (split
       all_goals try (rename_i heq
                      have h2 := congrArg Prod.snd heq
                      have h1 := congrArg Prod.fst heq
                      dsimp only at h1 h2
                      subst h1 h2
                      clear heq))
    | dsimp only [Lock.count]
    | dsimp +zetaDelta only

theorem execLtuI_hide {m : Nat} (hm : 846685936644267521 &&& m = 846685936644267521) {x : Dev} (e : BargeIx) (d : Fin 32) (a : Fin 32) (imm : BitVec 13) (s : State)
    (h : Dev.hide m s.dev = x) : Dev.hide m ((execLtuI e d a imm s).stateOr s).dev = x := by
  unfold execLtuI
  apply State.on_hide
  repeat' first
    | with_reducible assumption
    | intro _
    | extract_lets
    | with_reducible apply hide_ite
    | with_reducible apply hide_next
    | with_reducible apply Dev.aluI_hide (land_trans rfl hm)
    | (split
       all_goals try (rename_i heq
                      have h2 := congrArg Prod.snd heq
                      have h1 := congrArg Prod.fst heq
                      dsimp only at h1 h2
                      subst h1 h2
                      clear heq))
    | dsimp only [Lock.count]
    | dsimp +zetaDelta only

theorem execLtI_hide {m : Nat} (hm : 846685936644267521 &&& m = 846685936644267521) {x : Dev} (e : BargeIx) (d : Fin 32) (a : Fin 32) (imm : BitVec 13) (s : State)
    (h : Dev.hide m s.dev = x) : Dev.hide m ((execLtI e d a imm s).stateOr s).dev = x := by
  unfold execLtI
  apply State.on_hide
  repeat' first
    | with_reducible assumption
    | intro _
    | extract_lets
    | with_reducible apply hide_ite
    | with_reducible apply hide_next
    | with_reducible apply Dev.aluI_hide (land_trans rfl hm)
    | (split
       all_goals try (rename_i heq
                      have h2 := congrArg Prod.snd heq
                      have h1 := congrArg Prod.fst heq
                      dsimp only at h1 h2
                      subst h1 h2
                      clear heq))
    | dsimp only [Lock.count]
    | dsimp +zetaDelta only

theorem execXorI_hide {m : Nat} (hm : 846685936644267521 &&& m = 846685936644267521) {x : Dev} (e : BargeIx) (d : Fin 32) (a : Fin 32) (imm : BitVec 13) (s : State)
    (h : Dev.hide m s.dev = x) : Dev.hide m ((execXorI e d a imm s).stateOr s).dev = x := by
  unfold execXorI
  apply State.on_hide
  repeat' first
    | with_reducible assumption
    | intro _
    | extract_lets
    | with_reducible apply hide_ite
    | with_reducible apply hide_next
    | with_reducible apply Dev.aluI_hide (land_trans rfl hm)
    | (split
       all_goals try (rename_i heq
                      have h2 := congrArg Prod.snd heq
                      have h1 := congrArg Prod.fst heq
                      dsimp only at h1 h2
                      subst h1 h2
                      clear heq))
    | dsimp only [Lock.count]
    | dsimp +zetaDelta only

theorem execOrI_hide {m : Nat} (hm : 846685936644267521 &&& m = 846685936644267521) {x : Dev} (e : BargeIx) (d : Fin 32) (a : Fin 32) (imm : BitVec 13) (s : State)
    (h : Dev.hide m s.dev = x) : Dev.hide m ((execOrI e d a imm s).stateOr s).dev = x := by
  unfold execOrI
  apply State.on_hide
  repeat' first
    | with_reducible assumption
    | intro _
    | extract_lets
    | with_reducible apply hide_ite
    | with_reducible apply hide_next
    | with_reducible apply Dev.aluI_hide (land_trans rfl hm)
    | (split
       all_goals try (rename_i heq
                      have h2 := congrArg Prod.snd heq
                      have h1 := congrArg Prod.fst heq
                      dsimp only at h1 h2
                      subst h1 h2
                      clear heq))
    | dsimp only [Lock.count]
    | dsimp +zetaDelta only

theorem execAndI_hide {m : Nat} (hm : 846685936644267521 &&& m = 846685936644267521) {x : Dev} (e : BargeIx) (d : Fin 32) (a : Fin 32) (imm : BitVec 13) (s : State)
    (h : Dev.hide m s.dev = x) : Dev.hide m ((execAndI e d a imm s).stateOr s).dev = x := by
  unfold execAndI
  apply State.on_hide
  repeat' first
    | with_reducible assumption
    | intro _
    | extract_lets
    | with_reducible apply hide_ite
    | with_reducible apply hide_next
    | with_reducible apply Dev.aluI_hide (land_trans rfl hm)
    | (split
       all_goals try (rename_i heq
                      have h2 := congrArg Prod.snd heq
                      have h1 := congrArg Prod.fst heq
                      dsimp only at h1 h2
                      subst h1 h2
                      clear heq))
    | dsimp only [Lock.count]
    | dsimp +zetaDelta only

theorem execAddI_hide {m : Nat} (hm : 846685936644267521 &&& m = 846685936644267521) {x : Dev} (e : BargeIx) (d : Fin 32) (a : Fin 32) (imm : BitVec 13) (s : State)
    (h : Dev.hide m s.dev = x) : Dev.hide m ((execAddI e d a imm s).stateOr s).dev = x := by
  unfold execAddI
  apply State.on_hide
  repeat' first
    | with_reducible assumption
    | intro _
    | extract_lets
    | with_reducible apply hide_ite
    | with_reducible apply hide_next
    | with_reducible apply Dev.aluI_hide (land_trans rfl hm)
    | (split
       all_goals try (rename_i heq
                      have h2 := congrArg Prod.snd heq
                      have h1 := congrArg Prod.fst heq
                      dsimp only at h1 h2
                      subst h1 h2
                      clear heq))
    | dsimp only [Lock.count]
    | dsimp +zetaDelta only

theorem execSubs_hide {m : Nat} (hm : 846685936644267521 &&& m = 846685936644267521) {x : Dev} (e : BargeIx) (d : Fin 32) (a : Fin 32) (b : Fin 32) (s : State)
    (h : Dev.hide m s.dev = x) : Dev.hide m ((execSubs e d a b s).stateOr s).dev = x := by
  unfold execSubs
  apply State.on_hide
  repeat' first
    | with_reducible assumption
    | intro _
    | extract_lets
    | with_reducible apply hide_ite
    | with_reducible apply hide_next
    | with_reducible apply Dev.alu_hide (land_trans rfl hm)
    | (split
       all_goals try (rename_i heq
                      have h2 := congrArg Prod.snd heq
                      have h1 := congrArg Prod.fst heq
                      dsimp only at h1 h2
                      subst h1 h2
                      clear heq))
    | dsimp only [Lock.count]
    | dsimp +zetaDelta only

theorem execAdds_hide {m : Nat} (hm : 846685936644267521 &&& m = 846685936644267521) {x : Dev} (e : BargeIx) (d : Fin 32) (a : Fin 32) (b : Fin 32) (s : State)
    (h : Dev.hide m s.dev = x) : Dev.hide m ((execAdds e d a b s).stateOr s).dev = x := by
  unfold execAdds
  apply State.on_hide
  repeat' first
    | with_reducible assumption
    | intro _
    | extract_lets
    | with_reducible apply hide_ite
    | with_reducible apply hide_next
    | with_reducible apply Dev.alu_hide (land_trans rfl hm)
    | (split
       all_goals try (rename_i heq
                      have h2 := congrArg Prod.snd heq
                      have h1 := congrArg Prod.fst heq
                      dsimp only at h1 h2
                      subst h1 h2
                      clear heq))
    | dsimp only [Lock.count]
    | dsimp +zetaDelta only

theorem execClz_hide {m : Nat} (hm : 846685936644267521 &&& m = 846685936644267521) {x : Dev} (e : BargeIx) (d : Fin 32) (a : Fin 32) (s : State)
    (h : Dev.hide m s.dev = x) : Dev.hide m ((execClz e d a s).stateOr s).dev = x := by
  unfold execClz
  apply State.on_hide
  repeat' first
    | with_reducible assumption
    | intro _
    | extract_lets
    | with_reducible apply hide_ite
    | with_reducible apply hide_next
    | with_reducible apply Dev.alu_hide (land_trans rfl hm)
    | (split
       all_goals try (rename_i heq
                      have h2 := congrArg Prod.snd heq
                      have h1 := congrArg Prod.fst heq
                      dsimp only at h1 h2
                      subst h1 h2
                      clear heq))
    | dsimp only [Lock.count]
    | dsimp +zetaDelta only

theorem execMaxu_hide {m : Nat} (hm : 846685936644267521 &&& m = 846685936644267521) {x : Dev} (e : BargeIx) (d : Fin 32) (a : Fin 32) (b : Fin 32) (s : State)
    (h : Dev.hide m s.dev = x) : Dev.hide m ((execMaxu e d a b s).stateOr s).dev = x := by
  unfold execMaxu
  apply State.on_hide
  repeat' first
    | with_reducible assumption
    | intro _
    | extract_lets
    | with_reducible apply hide_ite
    | with_reducible apply hide_next
    | with_reducible apply Dev.alu_hide (land_trans rfl hm)
    | (split
       all_goals try (rename_i heq
                      have h2 := congrArg Prod.snd heq
                      have h1 := congrArg Prod.fst heq
                      dsimp only at h1 h2
                      subst h1 h2
                      clear heq))
    | dsimp only [Lock.count]
    | dsimp +zetaDelta only

theorem execMinu_hide {m : Nat} (hm : 846685936644267521 &&& m = 846685936644267521) {x : Dev} (e : BargeIx) (d : Fin 32) (a : Fin 32) (b : Fin 32) (s : State)
    (h : Dev.hide m s.dev = x) : Dev.hide m ((execMinu e d a b s).stateOr s).dev = x := by
  unfold execMinu
  apply State.on_hide
  repeat' first
    | with_reducible assumption
    | intro _
    | extract_lets
    | with_reducible apply hide_ite
    | with_reducible apply hide_next
    | with_reducible apply Dev.alu_hide (land_trans rfl hm)
    | (split
       all_goals try (rename_i heq
                      have h2 := congrArg Prod.snd heq
                      have h1 := congrArg Prod.fst heq
                      dsimp only at h1 h2
                      subst h1 h2
                      clear heq))
    | dsimp only [Lock.count]
    | dsimp +zetaDelta only

theorem execMaxS_hide {m : Nat} (hm : 846685936644267521 &&& m = 846685936644267521) {x : Dev} (e : BargeIx) (d : Fin 32) (a : Fin 32) (b : Fin 32) (s : State)
    (h : Dev.hide m s.dev = x) : Dev.hide m ((execMaxS e d a b s).stateOr s).dev = x := by
  unfold execMaxS
  apply State.on_hide
  repeat' first
    | with_reducible assumption
    | intro _
    | extract_lets
    | with_reducible apply hide_ite
    | with_reducible apply hide_next
    | with_reducible apply Dev.alu_hide (land_trans rfl hm)
    | (split
       all_goals try (rename_i heq
                      have h2 := congrArg Prod.snd heq
                      have h1 := congrArg Prod.fst heq
                      dsimp only at h1 h2
                      subst h1 h2
                      clear heq))
    | dsimp only [Lock.count]
    | dsimp +zetaDelta only

theorem execMinS_hide {m : Nat} (hm : 846685936644267521 &&& m = 846685936644267521) {x : Dev} (e : BargeIx) (d : Fin 32) (a : Fin 32) (b : Fin 32) (s : State)
    (h : Dev.hide m s.dev = x) : Dev.hide m ((execMinS e d a b s).stateOr s).dev = x := by
  unfold execMinS
  apply State.on_hide
  repeat' first
    | with_reducible assumption
    | intro _
    | extract_lets
    | with_reducible apply hide_ite
    | with_reducible apply hide_next
    | with_reducible apply Dev.alu_hide (land_trans rfl hm)
    | (split
       all_goals try (rename_i heq
                      have h2 := congrArg Prod.snd heq
                      have h1 := congrArg Prod.fst heq
                      dsimp only at h1 h2
                      subst h1 h2
                      clear heq))
    | dsimp only [Lock.count]
    | dsimp +zetaDelta only

theorem execLtu_hide {m : Nat} (hm : 846685936644267521 &&& m = 846685936644267521) {x : Dev} (e : BargeIx) (d : Fin 32) (a : Fin 32) (b : Fin 32) (s : State)
    (h : Dev.hide m s.dev = x) : Dev.hide m ((execLtu e d a b s).stateOr s).dev = x := by
  unfold execLtu
  apply State.on_hide
  repeat' first
    | with_reducible assumption
    | intro _
    | extract_lets
    | with_reducible apply hide_ite
    | with_reducible apply hide_next
    | with_reducible apply Dev.alu_hide (land_trans rfl hm)
    | (split
       all_goals try (rename_i heq
                      have h2 := congrArg Prod.snd heq
                      have h1 := congrArg Prod.fst heq
                      dsimp only at h1 h2
                      subst h1 h2
                      clear heq))
    | dsimp only [Lock.count]
    | dsimp +zetaDelta only

theorem execLt_hide {m : Nat} (hm : 846685936644267521 &&& m = 846685936644267521) {x : Dev} (e : BargeIx) (d : Fin 32) (a : Fin 32) (b : Fin 32) (s : State)
    (h : Dev.hide m s.dev = x) : Dev.hide m ((execLt e d a b s).stateOr s).dev = x := by
  unfold execLt
  apply State.on_hide
  repeat' first
    | with_reducible assumption
    | intro _
    | extract_lets
    | with_reducible apply hide_ite
    | with_reducible apply hide_next
    | with_reducible apply Dev.alu_hide (land_trans rfl hm)
    | (split
       all_goals try (rename_i heq
                      have h2 := congrArg Prod.snd heq
                      have h1 := congrArg Prod.fst heq
                      dsimp only at h1 h2
                      subst h1 h2
                      clear heq))
    | dsimp only [Lock.count]
    | dsimp +zetaDelta only

theorem execSra_hide {m : Nat} (hm : 846685936644267521 &&& m = 846685936644267521) {x : Dev} (e : BargeIx) (d : Fin 32) (a : Fin 32) (b : Fin 32) (s : State)
    (h : Dev.hide m s.dev = x) : Dev.hide m ((execSra e d a b s).stateOr s).dev = x := by
  unfold execSra
  apply State.on_hide
  repeat' first
    | with_reducible assumption
    | intro _
    | extract_lets
    | with_reducible apply hide_ite
    | with_reducible apply hide_next
    | with_reducible apply Dev.alu_hide (land_trans rfl hm)
    | (split
       all_goals try (rename_i heq
                      have h2 := congrArg Prod.snd heq
                      have h1 := congrArg Prod.fst heq
                      dsimp only at h1 h2
                      subst h1 h2
                      clear heq))
    | dsimp only [Lock.count]
    | dsimp +zetaDelta only

theorem execShr_hide {m : Nat} (hm : 846685936644267521 &&& m = 846685936644267521) {x : Dev} (e : BargeIx) (d : Fin 32) (a : Fin 32) (b : Fin 32) (s : State)
    (h : Dev.hide m s.dev = x) : Dev.hide m ((execShr e d a b s).stateOr s).dev = x := by
  unfold execShr
  apply State.on_hide
  repeat' first
    | with_reducible assumption
    | intro _
    | extract_lets
    | with_reducible apply hide_ite
    | with_reducible apply hide_next
    | with_reducible apply Dev.alu_hide (land_trans rfl hm)
    | (split
       all_goals try (rename_i heq
                      have h2 := congrArg Prod.snd heq
                      have h1 := congrArg Prod.fst heq
                      dsimp only at h1 h2
                      subst h1 h2
                      clear heq))
    | dsimp only [Lock.count]
    | dsimp +zetaDelta only

theorem execShl_hide {m : Nat} (hm : 846685936644267521 &&& m = 846685936644267521) {x : Dev} (e : BargeIx) (d : Fin 32) (a : Fin 32) (b : Fin 32) (s : State)
    (h : Dev.hide m s.dev = x) : Dev.hide m ((execShl e d a b s).stateOr s).dev = x := by
  unfold execShl
  apply State.on_hide
  repeat' first
    | with_reducible assumption
    | intro _
    | extract_lets
    | with_reducible apply hide_ite
    | with_reducible apply hide_next
    | with_reducible apply Dev.alu_hide (land_trans rfl hm)
    | (split
       all_goals try (rename_i heq
                      have h2 := congrArg Prod.snd heq
                      have h1 := congrArg Prod.fst heq
                      dsimp only at h1 h2
                      subst h1 h2
                      clear heq))
    | dsimp only [Lock.count]
    | dsimp +zetaDelta only

theorem execXorR_hide {m : Nat} (hm : 846685936644267521 &&& m = 846685936644267521) {x : Dev} (e : BargeIx) (d : Fin 32) (a : Fin 32) (b : Fin 32) (s : State)
    (h : Dev.hide m s.dev = x) : Dev.hide m ((execXorR e d a b s).stateOr s).dev = x := by
  unfold execXorR
  apply State.on_hide
  repeat' first
    | with_reducible assumption
    | intro _
    | extract_lets
    | with_reducible apply hide_ite
    | with_reducible apply hide_next
    | with_reducible apply Dev.alu_hide (land_trans rfl hm)
    | (split
       all_goals try (rename_i heq
                      have h2 := congrArg Prod.snd heq
                      have h1 := congrArg Prod.fst heq
                      dsimp only at h1 h2
                      subst h1 h2
                      clear heq))
    | dsimp only [Lock.count]
    | dsimp +zetaDelta only

theorem execOrR_hide {m : Nat} (hm : 846685936644267521 &&& m = 846685936644267521) {x : Dev} (e : BargeIx) (d : Fin 32) (a : Fin 32) (b : Fin 32) (s : State)
    (h : Dev.hide m s.dev = x) : Dev.hide m ((execOrR e d a b s).stateOr s).dev = x := by
  unfold execOrR
  apply State.on_hide
  repeat' first
    | with_reducible assumption
    | intro _
    | extract_lets
    | with_reducible apply hide_ite
    | with_reducible apply hide_next
    | with_reducible apply Dev.alu_hide (land_trans rfl hm)
    | (split
       all_goals try (rename_i heq
                      have h2 := congrArg Prod.snd heq
                      have h1 := congrArg Prod.fst heq
                      dsimp only at h1 h2
                      subst h1 h2
                      clear heq))
    | dsimp only [Lock.count]
    | dsimp +zetaDelta only

theorem execAndR_hide {m : Nat} (hm : 846685936644267521 &&& m = 846685936644267521) {x : Dev} (e : BargeIx) (d : Fin 32) (a : Fin 32) (b : Fin 32) (s : State)
    (h : Dev.hide m s.dev = x) : Dev.hide m ((execAndR e d a b s).stateOr s).dev = x := by
  unfold execAndR
  apply State.on_hide
  repeat' first
    | with_reducible assumption
    | intro _
    | extract_lets
    | with_reducible apply hide_ite
    | with_reducible apply hide_next
    | with_reducible apply Dev.alu_hide (land_trans rfl hm)
    | (split
       all_goals try (rename_i heq
                      have h2 := congrArg Prod.snd heq
                      have h1 := congrArg Prod.fst heq
                      dsimp only at h1 h2
                      subst h1 h2
                      clear heq))
    | dsimp only [Lock.count]
    | dsimp +zetaDelta only

theorem execSubR_hide {m : Nat} (hm : 846685936644267521 &&& m = 846685936644267521) {x : Dev} (e : BargeIx) (d : Fin 32) (a : Fin 32) (b : Fin 32) (s : State)
    (h : Dev.hide m s.dev = x) : Dev.hide m ((execSubR e d a b s).stateOr s).dev = x := by
  unfold execSubR
  apply State.on_hide
  repeat' first
    | with_reducible assumption
    | intro _
    | extract_lets
    | with_reducible apply hide_ite
    | with_reducible apply hide_next
    | with_reducible apply Dev.alu_hide (land_trans rfl hm)
    | (split
       all_goals try (rename_i heq
                      have h2 := congrArg Prod.snd heq
                      have h1 := congrArg Prod.fst heq
                      dsimp only at h1 h2
                      subst h1 h2
                      clear heq))
    | dsimp only [Lock.count]
    | dsimp +zetaDelta only

end Sys2Proof.Machine
end

