-- ==== Sys2Proof/Laws/FrameC.lean ====
section
/-! SUPPORT. Frames of the operations and the meanings, in the order they call each other: which parts of the device each
changes at most. File 3 of 7. -/

set_option linter.unreachableTactic false
set_option linter.unusedTactic false

namespace Sys2Proof.Machine

theorem execAddR_hide {m : Nat} (hm : 846685936644267521 &&& m = 846685936644267521) {x : Dev} (e : BargeIx) (d : Fin 32) (a : Fin 32) (b : Fin 32) (s : State)
    (h : Dev.hide m s.dev = x) : Dev.hide m ((execAddR e d a b s).stateOr s).dev = x := by
  unfold execAddR
  apply State.on_hide
  repeat' first
    | with_reducible assumption
    | intro _
    | extract_lets
    | with_reducible apply hide_ite
    | with_reducible apply hide_next
    | with_reducible apply Dev.alu_hide (land_trans rfl hm)
    | (split
       all_goals try (rename_i heq
                      have h2 := congrArg Prod.snd heq
                      have h1 := congrArg Prod.fst heq
                      dsimp only at h1 h2
                      subst h1 h2
                      clear heq))
    | dsimp only [Lock.count]
    | dsimp +zetaDelta only

theorem Dev.runBarge_hide {m : Nat} (hm : 846685936644267521 &&& m = 846685936644267521) {x : Dev} (s : Dev) (i : Instr)
    (h : Dev.hide m s = x) : Dev.hide m ((Dev.runBarge s i).stateOr { dev := s }).dev = x := by
  unfold Dev.runBarge
  split
  all_goals first
    | exact h
    | (with_reducible apply execVredaddH8_hide (land_trans rfl hm); exact h)
    | (with_reducible apply execVbcastW_hide (land_trans rfl hm); exact h)
    | (with_reducible apply execVbcastH_hide (land_trans rfl hm); exact h)
    | (with_reducible apply execVinsW_hide (land_trans rfl hm); exact h)
    | (with_reducible apply execVinsH_hide (land_trans rfl hm); exact h)
    | (with_reducible apply execVextW_hide (land_trans rfl hm); exact h)
    | (with_reducible apply execVextH_hide (land_trans rfl hm); exact h)
    | (with_reducible apply execVwidenH8_hide (land_trans rfl hm); exact h)
    | (with_reducible apply execVpackH8_hide (land_trans rfl hm); exact h)
    | (with_reducible apply execVmulW4_hide (land_trans rfl hm); exact h)
    | (with_reducible apply execVmacsH8_hide (land_trans rfl hm); exact h)
    | (with_reducible apply execVmacH8_hide (land_trans rfl hm); exact h)
    | (with_reducible apply execVmulhH8_hide (land_trans rfl hm); exact h)
    | (with_reducible apply execVmulH8_hide (land_trans rfl hm); exact h)
    | (with_reducible apply execVsel_hide (land_trans rfl hm); exact h)
    | (with_reducible apply execVcmpeq_hide (land_trans rfl hm); exact h)
    | (with_reducible apply execVcmpgt_hide (land_trans rfl hm); exact h)
    | (with_reducible apply execVsra_hide (land_trans rfl hm); exact h)
    | (with_reducible apply execVsrl_hide (land_trans rfl hm); exact h)
    | (with_reducible apply execVsll_hide (land_trans rfl hm); exact h)
    | (with_reducible apply execVmov_hide (land_trans rfl hm); exact h)
    | (with_reducible apply execVxor_hide (land_trans rfl hm); exact h)
    | (with_reducible apply execVor_hide (land_trans rfl hm); exact h)
    | (with_reducible apply execVand_hide (land_trans rfl hm); exact h)
    | (with_reducible apply execVabs_hide (land_trans rfl hm); exact h)
    | (with_reducible apply execVmax_hide (land_trans rfl hm); exact h)
    | (with_reducible apply execVmin_hide (land_trans rfl hm); exact h)
    | (with_reducible apply execVsubs_hide (land_trans rfl hm); exact h)
    | (with_reducible apply execVadds_hide (land_trans rfl hm); exact h)
    | (with_reducible apply execVsub_hide (land_trans rfl hm); exact h)
    | (with_reducible apply execVadd_hide (land_trans rfl hm); exact h)
    | (with_reducible apply execIllegal_hide (land_trans rfl hm); exact h)
    | (with_reducible apply execEi_hide (land_trans rfl hm); exact h)
    | (with_reducible apply execDi_hide (land_trans rfl hm); exact h)
    | (with_reducible apply execBrk_hide (land_trans rfl hm); exact h)
    | (with_reducible apply execTrap_hide (land_trans rfl hm); exact h)
    | (with_reducible apply execRetX_hide (land_trans rfl hm); exact h)
    | (with_reducible apply execWaitI_hide (land_trans rfl hm); exact h)
    | (with_reducible apply execSyncI_hide (land_trans rfl hm); exact h)
    | (with_reducible apply execDrain_hide (land_trans rfl hm); exact h)
    | (with_reducible apply execJmpr_hide (land_trans rfl hm); exact h)
    | (with_reducible apply execJmp_hide (land_trans rfl hm); exact h)
    | (with_reducible apply execBGeu_hide (land_trans rfl hm); exact h)
    | (with_reducible apply execBLtu_hide (land_trans rfl hm); exact h)
    | (with_reducible apply execBGe_hide (land_trans rfl hm); exact h)
    | (with_reducible apply execBLt_hide (land_trans rfl hm); exact h)
    | (with_reducible apply execBNe_hide (land_trans rfl hm); exact h)
    | (with_reducible apply execBEq_hide (land_trans rfl hm); exact h)
    | (with_reducible apply execVstQ_hide (land_trans rfl hm); exact h)
    | (with_reducible apply execStD_hide (land_trans rfl hm); exact h)
    | (with_reducible apply execStW_hide (land_trans rfl hm); exact h)
    | (with_reducible apply execStH_hide (land_trans rfl hm); exact h)
    | (with_reducible apply execStB_hide (land_trans rfl hm); exact h)
    | (with_reducible apply execVldQ_hide (land_trans rfl hm); exact h)
    | (with_reducible apply execLdD_hide (land_trans rfl hm); exact h)
    | (with_reducible apply execLdW_hide (land_trans rfl hm); exact h)
    | (with_reducible apply execLdHu_hide (land_trans rfl hm); exact h)
    | (with_reducible apply execLdH_hide (land_trans rfl hm); exact h)
    | (with_reducible apply execLdBu_hide (land_trans rfl hm); exact h)
    | (with_reducible apply execLdB_hide (land_trans rfl hm); exact h)
    | (with_reducible apply execRemU_hide (land_trans rfl hm); exact h)
    | (with_reducible apply execRemS_hide (land_trans rfl hm); exact h)
    | (with_reducible apply execDivU_hide (land_trans rfl hm); exact h)
    | (with_reducible apply execDivS_hide (land_trans rfl hm); exact h)
    | (with_reducible apply execMulhU_hide (land_trans rfl hm); exact h)
    | (with_reducible apply execMulhS_hide (land_trans rfl hm); exact h)
    | (with_reducible apply execMulR_hide (land_trans rfl hm); exact h)
    | (with_reducible apply execAdrh_hide (land_trans rfl hm); exact h)
    | (with_reducible apply execMovh_hide (land_trans rfl hm); exact h)
    | (with_reducible apply execSraI_hide (land_trans rfl hm); exact h)
    | (with_reducible apply execShrI_hide (land_trans rfl hm); exact h)
    | (with_reducible apply execShlI_hide (land_trans rfl hm); exact h)
    | (with_reducible apply execLtuI_hide (land_trans rfl hm); exact h)
    | (with_reducible apply execLtI_hide (land_trans rfl hm); exact h)
    | (with_reducible apply execXorI_hide (land_trans rfl hm); exact h)
    | (with_reducible apply execOrI_hide (land_trans rfl hm); exact h)
    | (with_reducible apply execAndI_hide (land_trans rfl hm); exact h)
    | (with_reducible apply execAddI_hide (land_trans rfl hm); exact h)
    | (with_reducible apply execSubs_hide (land_trans rfl hm); exact h)
    | (with_reducible apply execAdds_hide (land_trans rfl hm); exact h)
    | (with_reducible apply execClz_hide (land_trans rfl hm); exact h)
    | (with_reducible apply execMaxu_hide (land_trans rfl hm); exact h)
    | (with_reducible apply execMinu_hide (land_trans rfl hm); exact h)
    | (with_reducible apply execMaxS_hide (land_trans rfl hm); exact h)
    | (with_reducible apply execMinS_hide (land_trans rfl hm); exact h)
    | (with_reducible apply execLtu_hide (land_trans rfl hm); exact h)
    | (with_reducible apply execLt_hide (land_trans rfl hm); exact h)
    | (with_reducible apply execSra_hide (land_trans rfl hm); exact h)
    | (with_reducible apply execShr_hide (land_trans rfl hm); exact h)
    | (with_reducible apply execShl_hide (land_trans rfl hm); exact h)
    | (with_reducible apply execXorR_hide (land_trans rfl hm); exact h)
    | (with_reducible apply execOrR_hide (land_trans rfl hm); exact h)
    | (with_reducible apply execAndR_hide (land_trans rfl hm); exact h)
    | (with_reducible apply execSubR_hide (land_trans rfl hm); exact h)
    | (with_reducible apply execAddR_hide (land_trans rfl hm); exact h)

theorem Dev.runOne_eq (s : Dev) (e : BargeIx) :
    s.runOne e = ((s.runBarge (Barge.decode e (s.fetchWord e))).stateOr { dev := s }).dev := by
  unfold Dev.runOne; cases s.runBarge (Barge.decode e (s.fetchWord e)) <;> rfl

theorem Dev.runOne_hide {m : Nat} (hm : 846685936644267521 &&& m = 846685936644267521) {x : Dev} (s : Dev) (e : BargeIx)
    (h : Dev.hide m s = x) : Dev.hide m (Dev.runOne s e) = x := by
  rw [Dev.runOne_eq]
  exact Dev.runBarge_hide (land_trans rfl hm) s _ h

theorem Dev.entry_hide {m : Nat} (hm : 846685936644267521 &&& m = 846685936644267521) {x : Dev} (s : Dev) (e : Nat) (vecEcc : Bool)
    (h : Dev.hide m s = x) : Dev.hide m (Dev.entry s e vecEcc) = x := by
  unfold Dev.entry
  repeat' first
    | with_reducible assumption
    | intro _
    | extract_lets
    | with_reducible apply hide_ite
    | with_reducible apply hide_next
    | with_reducible apply Dev.afterIssue_hide (land_trans rfl hm)
    | with_reducible apply Dev.seize_hide (land_trans rfl hm)
    | with_reducible apply Dev.occurCentral_hide (land_trans rfl hm)
    | with_reducible apply Dev.setBarge_hide (land_trans rfl hm)
    | (split
       all_goals try (rename_i heq
                      have h2 := congrArg Prod.snd heq
                      have h1 := congrArg Prod.fst heq
                      dsimp only at h1 h2
                      subst h1 h2
                      clear heq))
    | dsimp only [Lock.count]
    | dsimp +zetaDelta only

theorem Dev.stepBarge_hide {m : Nat} (hm : 846685936644267521 &&& m = 846685936644267521) {x : Dev} (s : Dev) (e : BargeIx)
    (h : Dev.hide m s = x) : Dev.hide m (Dev.stepBarge s e) = x := by
  unfold Dev.stepBarge
  repeat' first
    | with_reducible assumption
    | intro _
    | extract_lets
    | with_reducible apply hide_ite
    | with_reducible apply hide_next
    | with_reducible apply Dev.entry_hide (land_trans rfl hm)
    | with_reducible apply Dev.runOne_hide (land_trans rfl hm)
    | with_reducible apply Dev.setBarge_hide (land_trans rfl hm)
    | (split
       all_goals try (rename_i heq
                      have h2 := congrArg Prod.snd heq
                      have h1 := congrArg Prod.fst heq
                      dsimp only at h1 h2
                      subst h1 h2
                      clear heq))
    | dsimp only [Lock.count]
    | dsimp +zetaDelta only

theorem execLinkTrainingEnd_hide {m : Nat} (hm : 48 &&& m = 48) {x : Dev} (link : Link) (s : State)
    (h : Dev.hide m s.dev = x) : Dev.hide m ((execLinkTrainingEnd link s).stateOr s).dev = x := by
  unfold execLinkTrainingEnd
  apply State.on_hide
  repeat' first
    | with_reducible assumption
    | intro _
    | extract_lets
    | with_reducible apply hide_ite
    | with_reducible apply hide_next
    | with_reducible apply Dev.setCabLink_hide (land_trans rfl hm)
    | (split
       all_goals try (rename_i heq
                      have h2 := congrArg Prod.snd heq
                      have h1 := congrArg Prod.fst heq
                      dsimp only at h1 h2
                      subst h1 h2
                      clear heq))
    | dsimp only [Lock.count]
    | dsimp +zetaDelta only

theorem Dev.soaCell_hide {m : Nat} (hm : 512 &&& m = 512) {x : Dev} (s : Dev) (c : Nat) (headroom : Bool)
    (h : Dev.hide m s = x) : Dev.hide m (Dev.soaCell s c headroom) = x := by
  unfold Dev.soaCell
  repeat' first
    | with_reducible assumption
    | intro _
    | extract_lets
    | with_reducible apply hide_ite
    | with_reducible apply hide_next
    | with_reducible apply Dev.modCell_hide (land_trans rfl hm)
    | (split
       all_goals try (rename_i heq
                      have h2 := congrArg Prod.snd heq
                      have h1 := congrArg Prod.fst heq
                      dsimp only at h1 h2
                      subst h1 h2
                      clear heq))
    | dsimp only [Lock.count]
    | dsimp +zetaDelta only

theorem Dev.lvDone'_hide {m : Nat} (hm : 36028797018963968 &&& m = 36028797018963968) {x : Dev} (s : Dev) (n : Nat) (status : Nat) (r0 : Nat) (r1 : Nat) (flags : Nat)
    (h : Dev.hide m s = x) : Dev.hide m (Dev.lvDone' s n status r0 r1 flags) = x := by
  unfold Dev.lvDone'
  repeat' first
    | with_reducible assumption
    | intro _
    | extract_lets
    | with_reducible apply hide_ite
    | with_reducible apply hide_next
    | with_reducible apply Dev.complete_hide (land_trans rfl hm)
    | (split
       all_goals try (rename_i heq
                      have h2 := congrArg Prod.snd heq
                      have h1 := congrArg Prod.fst heq
                      dsimp only at h1 h2
                      subst h1 h2
                      clear heq))
    | dsimp only [Lock.count]
    | dsimp +zetaDelta only

theorem Dev.setNode_hide {m : Nat} (hm : 1048576 &&& m = 1048576) {x : Dev} (s : Dev) (n : Nat) (a2 : Node)
    (h : Dev.hide m s = x) : Dev.hide m (Dev.setNode s n a2) = x := by
  unfold Dev.setNode
  repeat' first
    | with_reducible assumption
    | intro _
    | extract_lets
    | with_reducible apply hide_ite
    | with_reducible apply hide_next
    | (split
       all_goals try (rename_i heq
                      have h2 := congrArg Prod.snd heq
                      have h1 := congrArg Prod.fst heq
                      dsimp only at h1 h2
                      subst h1 h2
                      clear heq))
    | with_reducible apply Dev.hide_upd_20 (land_trans rfl hm)
    | dsimp only [Lock.count]
    | dsimp +zetaDelta only

theorem Dev.modNode_hide {m : Nat} (hm : 1048576 &&& m = 1048576) {x : Dev} (s : Dev) (n : Nat) (f : Node → Node)
    (h : Dev.hide m s = x) : Dev.hide m (Dev.modNode s n f) = x := by
  unfold Dev.modNode
  repeat' first
    | with_reducible assumption
    | intro _
    | extract_lets
    | with_reducible apply hide_ite
    | with_reducible apply hide_next
    | with_reducible apply Dev.setNode_hide (land_trans rfl hm)
    | (split
       all_goals try (rename_i heq
                      have h2 := congrArg Prod.snd heq
                      have h1 := congrArg Prod.fst heq
                      dsimp only at h1 h2
                      subst h1 h2
                      clear heq))
    | dsimp only [Lock.count]
    | dsimp +zetaDelta only

theorem Dev.mailbox_hide {m : Nat} (hm : 714955537989504641 &&& m = 714955537989504641) {x : Dev} (s : Dev) (n : Nat) (op : Nat) (f : Dev → MboxCmd → Dev) (h_f : ∀ u0 u1 y, Dev.hide m u0 = y → Dev.hide m (f u0 u1) = y)
    (h : Dev.hide m s = x) : Dev.hide m ((Dev.mailbox s n op f).devOr s) = x := by
  unfold Dev.mailbox
  repeat' first
    | with_reducible assumption
    | intro _
    | extract_lets
    | with_reducible apply hide_ite
    | with_reducible apply hide_next
    | with_reducible apply Dev.modNode_hide (land_trans rfl hm)
    | with_reducible apply Dev.lvDone'_hide (land_trans rfl hm)
    | with_reducible apply Dev.wakeAccess_hide (land_trans rfl hm)
    | with_reducible apply h_f
    | (split
       all_goals try (rename_i heq
                      have h2 := congrArg Prod.snd heq
                      have h1 := congrArg Prod.fst heq
                      dsimp only at h1 h2
                      subst h1 h2
                      clear heq))
    | dsimp only [Lock.count]
    | dsimp +zetaDelta only

theorem execClearFlags_hide {m : Nat} (hm : 714955537989504641 &&& m = 714955537989504641) {x : Dev} (n : BlockIx) (s : State)
    (h : Dev.hide m s.dev = x) : Dev.hide m ((execClearFlags n s).stateOr s).dev = x := by
  unfold execClearFlags
  apply State.on_hide
  repeat' first
    | with_reducible assumption
    | intro _
    | extract_lets
    | with_reducible apply hide_ite
    | with_reducible apply hide_next
    | with_reducible apply Dev.mailbox_hide (land_trans rfl hm)
    | with_reducible apply Dev.lvDone'_hide (land_trans rfl hm)
    | with_reducible apply hide_foldl
    | with_reducible apply hide_foldl2
    | with_reducible apply hide_foldl3
    | with_reducible apply hide_foldl4
    | (split
       all_goals try (rename_i heq
                      have h2 := congrArg Prod.snd heq
                      have h1 := congrArg Prod.fst heq
                      dsimp only at h1 h2
                      subst h1 h2
                      clear heq))
    | dsimp only [Lock.count]
    | dsimp +zetaDelta only

theorem execSamplePreload_hide {m : Nat} (hm : 524288 &&& m = 524288) {x : Dev} (v : Quad) (s : State)
    (h : Dev.hide m s.dev = x) : Dev.hide m ((execSamplePreload v s).stateOr s).dev = x := by
  unfold execSamplePreload
  apply State.on_hide
  repeat' first
    | with_reducible assumption
    | intro _
    | extract_lets
    | with_reducible apply hide_ite
    | with_reducible apply hide_next
    | (split
       all_goals try (rename_i heq
                      have h2 := congrArg Prod.snd heq
                      have h1 := congrArg Prod.fst heq
                      dsimp only at h1 h2
                      subst h1 h2
                      clear heq))
    | with_reducible apply Dev.hide_upd_19 (land_trans rfl hm)
    | dsimp only [Lock.count]
    | dsimp +zetaDelta only

theorem Dev.inject_hide {m : Nat} (hm : 18014432869226496 &&& m = 18014432869226496) {x : Dev} (s : Dev) (k : Nat) (src : Nat)
    (h : Dev.hide m s = x) : Dev.hide m (Dev.inject s k src) = x := by
  unfold Dev.inject
  repeat' first
    | with_reducible assumption
    | intro _
    | extract_lets
    | with_reducible apply hide_ite
    | with_reducible apply hide_next
    | with_reducible apply Dev.history_hide (land_trans rfl hm)
    | with_reducible apply Dev.faultEvent_hide (land_trans rfl hm)
    | with_reducible apply Dev.setColl_hide (land_trans rfl hm)
    | (split
       all_goals try (rename_i heq
                      have h2 := congrArg Prod.snd heq
                      have h1 := congrArg Prod.fst heq
                      dsimp only at h1 h2
                      subst h1 h2
                      clear heq))
    | dsimp only [Lock.count]
    | dsimp +zetaDelta only

theorem Dev.fcInject_hide {m : Nat} (hm : 846685936644267521 &&& m = 846685936644267521) {x : Dev} (s : Dev) (k : Nat) (v : Word)
    (h : Dev.hide m s = x) : Dev.hide m (Dev.fcInject s k v) = x := by
  unfold Dev.fcInject
  repeat' first
    | with_reducible assumption
    | intro _
    | extract_lets
    | with_reducible apply hide_ite
    | with_reducible apply hide_next
    | with_reducible apply Dev.inject_hide (land_trans rfl hm)
    | with_reducible apply Dev.cfgIgnored_hide (land_trans rfl hm)
    | (split
       all_goals try (rename_i heq
                      have h2 := congrArg Prod.snd heq
                      have h1 := congrArg Prod.fst heq
                      dsimp only at h1 h2
                      subst h1 h2
                      clear heq))
    | dsimp only [Lock.count]
    | dsimp +zetaDelta only

theorem execFaultInject_hide {m : Nat} (hm : 846685936644267521 &&& m = 846685936644267521) {x : Dev} (k : CollIx) (v : Word) (s : State)
    (h : Dev.hide m s.dev = x) : Dev.hide m ((execFaultInject k v s).stateOr s).dev = x := by
  unfold execFaultInject
  apply State.on_hide
  repeat' first
    | with_reducible assumption
    | intro _
    | extract_lets
    | with_reducible apply hide_ite
    | with_reducible apply hide_next
    | with_reducible apply Dev.fcInject_hide (land_trans rfl hm)
    | (split
       all_goals try (rename_i heq
                      have h2 := congrArg Prod.snd heq
                      have h1 := congrArg Prod.fst heq
                      dsimp only at h1 h2
                      subst h1 h2
                      clear heq))
    | dsimp only [Lock.count]
    | dsimp +zetaDelta only

theorem execHandbackComplete_hide {m : Nat} (hm : 18577348462907392 &&& m = 18577348462907392) {x : Dev} (s : State)
    (h : Dev.hide m s.dev = x) : Dev.hide m ((execHandbackComplete s).stateOr s).dev = x := by
  unfold execHandbackComplete
  apply State.on_hide
  repeat' first
    | with_reducible assumption
    | intro _
    | extract_lets
    | with_reducible apply hide_ite
    | with_reducible apply hide_next
    | with_reducible apply Dev.rvEvent_hide (land_trans rfl hm)
    | with_reducible apply Dev.modRv_hide (land_trans rfl hm)
    | (split
       all_goals try (rename_i heq
                      have h2 := congrArg Prod.snd heq
                      have h1 := congrArg Prod.fst heq
                      dsimp only at h1 h2
                      subst h1 h2
                      clear heq))
    | dsimp only [Lock.count]
    | dsimp +zetaDelta only

theorem Dev.towFailAt_hide {m : Nat} (hm : 1125899906842624 &&& m = 1125899906842624) {x : Dev} (s : Dev) (t : Nat) (n : Nat) (byte : Nat) (bit : Nat)
    (h : Dev.hide m s = x) : Dev.hide m (Dev.towFailAt s t n byte bit) = x := by
  unfold Dev.towFailAt
  repeat' first
    | with_reducible assumption
    | intro _
    | extract_lets
    | with_reducible apply hide_ite
    | with_reducible apply hide_next
    | with_reducible apply Dev.modTow_hide (land_trans rfl hm)
    | (split
       all_goals try (rename_i heq
                      have h2 := congrArg Prod.snd heq
                      have h1 := congrArg Prod.fst heq
                      dsimp only at h1 h2
                      subst h1 h2
                      clear heq))
    | dsimp only [Lock.count]
    | dsimp +zetaDelta only

theorem Dev.towStore_hide {m : Nat} (hm : 1125899906842624 &&& m = 1125899906842624) {x : Dev} (s : Dev) (t : Nat) (n : Nat) (l : List Byte)
    (h : Dev.hide m s = x) : Dev.hide m (Dev.towStore s t n l) = x := by
  unfold Dev.towStore
  repeat' first
    | with_reducible assumption
    | intro _
    | extract_lets
    | with_reducible apply hide_ite
    | with_reducible apply hide_next
    | with_reducible apply Dev.modTow_hide (land_trans rfl hm)
    | (split
       all_goals try (rename_i heq
                      have h2 := congrArg Prod.snd heq
                      have h1 := congrArg Prod.fst heq
                      dsimp only at h1 h2
                      subst h1 h2
                      clear heq))
    | dsimp only [Lock.count]
    | dsimp +zetaDelta only

theorem Dev.twEvent_hide {m : Nat} (hm : 18014398509484032 &&& m = 18014398509484032) {x : Dev} (s : Dev) (t : Nat) (code : Nat) (flag : Bool) (payload : List Word)
    (h : Dev.hide m s = x) : Dev.hide m (Dev.twEvent s t code flag payload) = x := by
  unfold Dev.twEvent
  repeat' first
    | with_reducible assumption
    | intro _
    | extract_lets
    | with_reducible apply hide_ite
    | with_reducible apply hide_next
    | with_reducible apply Dev.raiseIsland_hide (land_trans rfl hm)
    | (split
       all_goals try (rename_i heq
                      have h2 := congrArg Prod.snd heq
                      have h1 := congrArg Prod.fst heq
                      dsimp only at h1 h2
                      subst h1 h2
                      clear heq))
    | dsimp only [Lock.count]
    | dsimp +zetaDelta only

theorem Dev.twIrq_hide {m : Nat} (hm : 4096 &&& m = 4096) {x : Dev} (s : Dev) (t : Nat)
    (h : Dev.hide m s = x) : Dev.hide m (Dev.twIrq s t) = x := by
  unfold Dev.twIrq
  repeat' first
    | with_reducible assumption
    | intro _
    | extract_lets
    | with_reducible apply hide_ite
    | with_reducible apply hide_next
    | with_reducible apply Dev.irqRegion_hide (land_trans rfl hm)
    | (split
       all_goals try (rename_i heq
                      have h2 := congrArg Prod.snd heq
                      have h1 := congrArg Prod.fst heq
                      dsimp only at h1 h2
                      subst h1 h2
                      clear heq))
    | dsimp only [Lock.count]
    | dsimp +zetaDelta only

theorem Dev.twEnd_hide {m : Nat} (hm : 19140298416330752 &&& m = 19140298416330752) {x : Dev} (s : Dev) (t : Nat) (n : Nat) (result : Nat) (byLock : Bool)
    (h : Dev.hide m s = x) : Dev.hide m (Dev.twEnd s t n result byLock) = x := by
  unfold Dev.twEnd
  repeat' first
    | with_reducible assumption
    | intro _
    | extract_lets
    | with_reducible apply hide_ite
    | with_reducible apply hide_next
    | with_reducible apply Dev.twIrq_hide (land_trans rfl hm)
    | with_reducible apply Dev.twEvent_hide (land_trans rfl hm)
    | with_reducible apply Dev.setTow_hide (land_trans rfl hm)
    | (split
       all_goals try (rename_i heq
                      have h2 := congrArg Prod.snd heq
                      have h1 := congrArg Prod.fst heq
                      dsimp only at h1 h2
                      subst h1 h2
                      clear heq))
    | dsimp only [Lock.count]
    | dsimp +zetaDelta only

theorem Dev.towResult_hide {m : Nat} (hm : 19140298416330752 &&& m = 19140298416330752) {x : Dev} (s : Dev) (t : Nat) (n : Nat) (l : Bool) (a4 : TowEnd)
    (h : Dev.hide m s = x) : Dev.hide m (Dev.towResult s t n l a4) = x := by
  unfold Dev.towResult
  repeat' first
    | with_reducible assumption
    | intro _
    | extract_lets
    | with_reducible apply hide_ite
    | with_reducible apply hide_next
    | with_reducible apply Dev.twEnd_hide (land_trans rfl hm)
    | with_reducible apply Dev.towStore_hide (land_trans rfl hm)
    | with_reducible apply Dev.towFailAt_hide (land_trans rfl hm)
    | (split
       all_goals try (rename_i heq
                      have h2 := congrArg Prod.snd heq
                      have h1 := congrArg Prod.fst heq
                      dsimp only at h1 h2
                      subst h1 h2
                      clear heq))
    | dsimp only [Lock.count]
    | dsimp +zetaDelta only

theorem Dev.pendReg_hide {m : Nat} (hm : 4294967296 &&& m = 4294967296) {x : Dev} (s : Dev) (off : Nat) (v : Word) (mask : Word)
    (h : Dev.hide m s = x) : Dev.hide m (Dev.pendReg s off v mask) = x := by
  unfold Dev.pendReg
  repeat' first
    | with_reducible assumption
    | intro _
    | extract_lets
    | with_reducible apply hide_ite
    | with_reducible apply hide_next
    | (split
       all_goals try (rename_i heq
                      have h2 := congrArg Prod.snd heq
                      have h1 := congrArg Prod.fst heq
                      dsimp only at h1 h2
                      subst h1 h2
                      clear heq))
    | with_reducible apply Dev.hide_upd_32 (land_trans rfl hm)
    | dsimp only [Lock.count]
    | dsimp +zetaDelta only

theorem Dev.restartLane_hide {m : Nat} (hm : 134217728 &&& m = 134217728) {x : Dev} (s : Dev) (c : Nat) (clocks : Nat)
    (h : Dev.hide m s = x) : Dev.hide m (Dev.restartLane s c clocks) = x := by
  unfold Dev.restartLane
  repeat' first
    | with_reducible assumption
    | intro _
    | extract_lets
    | with_reducible apply hide_ite
    | with_reducible apply hide_next
    | with_reducible apply Dev.abortWindow_hide (land_trans rfl hm)
    | with_reducible apply Dev.modLane_hide (land_trans rfl hm)
    | (split
       all_goals try (rename_i heq
                      have h2 := congrArg Prod.snd heq
                      have h1 := congrArg Prod.fst heq
                      dsimp only at h1 h2
                      subst h1 h2
                      clear heq))
    | dsimp only [Lock.count]
    | dsimp +zetaDelta only

theorem Dev.setWinEv_hide {m : Nat} (hm : 1536 &&& m = 1536) {x : Dev} (s : Dev) (a1 : CmpGroup) (w : WinEv)
    (h : Dev.hide m s = x) : Dev.hide m (Dev.setWinEv s a1 w) = x := by
  unfold Dev.setWinEv
  repeat' first
    | with_reducible assumption
    | intro _
    | extract_lets
    | with_reducible apply hide_ite
    | with_reducible apply hide_next
    | with_reducible apply Dev.modCell_hide (land_trans rfl hm)
    | with_reducible apply Dev.modBlock_hide (land_trans rfl hm)
    | (split
       all_goals try (rename_i heq
                      have h2 := congrArg Prod.snd heq
                      have h1 := congrArg Prod.fst heq
                      dsimp only at h1 h2
                      subst h1 h2
                      clear heq))
    | dsimp only [Lock.count]
    | dsimp +zetaDelta only

theorem Dev.sendWindow_hide {m : Nat} (hm : 18014398509485568 &&& m = 18014398509485568) {x : Dev} (s : Dev) (a1 : CmpGroup)
    (h : Dev.hide m s = x) : Dev.hide m (Dev.sendWindow s a1) = x := by
  unfold Dev.sendWindow
  repeat' first
    | with_reducible assumption
    | intro _
    | extract_lets
    | with_reducible apply hide_ite
    | with_reducible apply hide_next
    | with_reducible apply Dev.setWinEv_hide (land_trans rfl hm)
    | with_reducible apply Dev.raiseIsland_hide (land_trans rfl hm)
    | (split
       all_goals try (rename_i heq
                      have h2 := congrArg Prod.snd heq
                      have h1 := congrArg Prod.fst heq
                      dsimp only at h1 h2
                      subst h1 h2
                      clear heq))
    | dsimp only [Lock.count]
    | dsimp +zetaDelta only

theorem Dev.windowChange_hide {m : Nat} (hm : 18014398509485568 &&& m = 18014398509485568) {x : Dev} (s : Dev) (a1 : CmpGroup) (before : Nat)
    (h : Dev.hide m s = x) : Dev.hide m (Dev.windowChange s a1 before) = x := by
  unfold Dev.windowChange
  repeat' first
    | with_reducible assumption
    | intro _
    | extract_lets
    | with_reducible apply hide_ite
    | with_reducible apply hide_next
    | with_reducible apply Dev.sendWindow_hide (land_trans rfl hm)
    | with_reducible apply Dev.setWinEv_hide (land_trans rfl hm)
    | (split
       all_goals try (rename_i heq
                      have h2 := congrArg Prod.snd heq
                      have h1 := congrArg Prod.fst heq
                      dsimp only at h1 h2
                      subst h1 h2
                      clear heq))
    | dsimp only [Lock.count]
    | dsimp +zetaDelta only

theorem Dev.setCmp_hide {m : Nat} (hm : 1536 &&& m = 1536) {x : Dev} (s : Dev) (a1 : CmpSel) (k : Cmp)
    (h : Dev.hide m s = x) : Dev.hide m (Dev.setCmp s a1 k) = x := by
  unfold Dev.setCmp
  repeat' first
    | with_reducible assumption
    | intro _
    | extract_lets
    | with_reducible apply hide_ite
    | with_reducible apply hide_next
    | with_reducible apply Dev.modCell_hide (land_trans rfl hm)
    | with_reducible apply Dev.modBlock_hide (land_trans rfl hm)
    | (split
       all_goals try (rename_i heq
                      have h2 := congrArg Prod.snd heq
                      have h1 := congrArg Prod.fst heq
                      dsimp only at h1 h2
                      subst h1 h2
                      clear heq))
    | dsimp only [Lock.count]
    | dsimp +zetaDelta only

theorem Dev.setMode_hide {m : Nat} (hm : 18014398509485568 &&& m = 18014398509485568) {x : Dev} (s : Dev) (a1 : CmpSel) (a2 : CmpMode)
    (h : Dev.hide m s = x) : Dev.hide m (Dev.setMode s a1 a2) = x := by
  unfold Dev.setMode
  repeat' first
    | with_reducible assumption
    | intro _
    | extract_lets
    | with_reducible apply hide_ite
    | with_reducible apply hide_next
    | with_reducible apply Dev.setCmp_hide (land_trans rfl hm)
    | with_reducible apply Dev.windowChange_hide (land_trans rfl hm)
    | (split
       all_goals try (rename_i heq
                      have h2 := congrArg Prod.snd heq
                      have h1 := congrArg Prod.fst heq
                      dsimp only at h1 h2
                      subst h1 h2
                      clear heq))
    | dsimp only [Lock.count]
    | dsimp +zetaDelta only

theorem Dev.applyModes_hide {m : Nat} (hm : 18014398509485568 &&& m = 18014398509485568) {x : Dev} (s : Dev) (c : Nat)
    (h : Dev.hide m s = x) : Dev.hide m (Dev.applyModes s c) = x := by
  unfold Dev.applyModes
  repeat' first
    | with_reducible assumption
    | intro _
    | extract_lets
    | with_reducible apply hide_ite
    | with_reducible apply hide_next
    | with_reducible apply Dev.setMode_hide (land_trans rfl hm)
    | (split
       all_goals try (rename_i heq
                      have h2 := congrArg Prod.snd heq
                      have h1 := congrArg Prod.fst heq
                      dsimp only at h1 h2
                      subst h1 h2
                      clear heq))
    | dsimp only [Lock.count]
    | dsimp +zetaDelta only

theorem Dev.setPword_hide {m : Nat} (hm : 8589934592 &&& m = 8589934592) {x : Dev} (s : Dev) (c : Nat) (w : Nat) (v : Word)
    (h : Dev.hide m s = x) : Dev.hide m (Dev.setPword s c w v) = x := by
  unfold Dev.setPword
  repeat' first
    | with_reducible assumption
    | intro _
    | extract_lets
    | with_reducible apply hide_ite
    | with_reducible apply hide_next
    | (split
       all_goals try (rename_i heq
                      have h2 := congrArg Prod.snd heq
                      have h1 := congrArg Prod.fst heq
                      dsimp only at h1 h2
                      subst h1 h2
                      clear heq))
    | with_reducible apply Dev.hide_upd_33 (land_trans rfl hm)
    | dsimp only [Lock.count]
    | dsimp +zetaDelta only

theorem Dev.writeProf_hide {m : Nat} (hm : 18014424413507073 &&& m = 18014424413507073) {x : Dev} (s : Dev) (c : Nat) (l : List ProfEdit)
    (h : Dev.hide m s = x) : Dev.hide m (Dev.writeProf s c l).2.2 = x := by
  unfold Dev.writeProf
  repeat' first
    | with_reducible assumption
    | intro _
    | extract_lets
    | with_reducible apply hide_ite
    | with_reducible apply hide_next
    | with_reducible apply Dev.setPword_hide (land_trans rfl hm)
    | with_reducible apply Dev.applyModes_hide (land_trans rfl hm)
    | with_reducible apply Dev.restartLane_hide (land_trans rfl hm)
    | with_reducible apply Dev.pendPword_hide (land_trans rfl hm)
    | with_reducible apply Dev.drawNat_hide (land_trans rfl hm)
    | with_reducible apply hide_foldl
    | with_reducible apply hide_foldl2
    | with_reducible apply hide_foldl3
    | with_reducible apply hide_foldl4
    | (split
       all_goals try (rename_i heq
                      have h2 := congrArg Prod.snd heq
                      have h1 := congrArg Prod.fst heq
                      dsimp only at h1 h2
                      subst h1 h2
                      clear heq))
    | dsimp only [Lock.count]
    | dsimp +zetaDelta only

theorem Dev.opStart_hide {m : Nat} (hm : 36275087623585792 &&& m = 36275087623585792) {x : Dev} (s : Dev) (d : Desc) (op : Nat) (body : OpBody)
    (h : Dev.hide m s = x) : Dev.hide m (Dev.opStart s d op body) = x := by
  unfold Dev.opStart
  repeat' first
    | with_reducible assumption
    | intro _
    | extract_lets
    | with_reducible apply hide_ite
    | with_reducible apply hide_next
    | with_reducible apply Dev.setOp_hide (land_trans rfl hm)
    | with_reducible apply Dev.fail_hide (land_trans rfl hm)
    | with_reducible apply Dev.answer_hide (land_trans rfl hm)
    | with_reducible apply Dev.complete_hide (land_trans rfl hm)
    | (split
       all_goals try (rename_i heq
                      have h2 := congrArg Prod.snd heq
                      have h1 := congrArg Prod.fst heq
                      dsimp only at h1 h2
                      subst h1 h2
                      clear heq))
    | with_reducible apply Dev.hide_upd_47 (land_trans rfl hm)
    | dsimp only [Lock.count]
    | dsimp +zetaDelta only

theorem execFlashUpdate_hide {m : Nat} (hm : 715201828593077889 &&& m = 715201828593077889) {x : Dev} (d : Desc) (s : State)
    (h : Dev.hide m s.dev = x) : Dev.hide m ((execFlashUpdate d s).stateOr s).dev = x := by
  unfold execFlashUpdate
  apply State.on_hide
  repeat' first
    | with_reducible assumption
    | intro _
    | extract_lets
    | with_reducible apply hide_ite
    | with_reducible apply hide_next
    | with_reducible apply Dev.opStart_hide (land_trans rfl hm)
    | with_reducible apply Dev.cmd_hide (land_trans rfl hm)
    | with_reducible apply Dev.fail_hide (land_trans rfl hm)
    | (split
       all_goals try (rename_i heq
                      have h2 := congrArg Prod.snd heq
                      have h1 := congrArg Prod.fst heq
                      dsimp only at h1 h2
                      subst h1 h2
                      clear heq))
    | dsimp only [Lock.count]
    | dsimp +zetaDelta only

theorem execLinkDown_hide {m : Nat} (hm : 846721121016356353 &&& m = 846721121016356353) {x : Dev} (s : State)
    (h : Dev.hide m s.dev = x) : Dev.hide m ((execLinkDown s).stateOr s).dev = x := by
  unfold execLinkDown
  apply State.on_hide
  repeat' first
    | with_reducible assumption
    | intro _
    | extract_lets
    | with_reducible apply hide_ite
    | with_reducible apply hide_next
    | with_reducible apply Dev.linkDown_hide (land_trans rfl hm)
    | (split
       all_goals try (rename_i heq
                      have h2 := congrArg Prod.snd heq
                      have h1 := congrArg Prod.fst heq
                      dsimp only at h1 h2
                      subst h1 h2
                      clear heq))
    | dsimp only [Lock.count]
    | dsimp +zetaDelta only

theorem Dev.releaseMoored_hide {m : Nat} (hm : 4096 &&& m = 4096) {x : Dev} (s : Dev) (e : Nat) (n : Nat)
    (h : Dev.hide m s = x) : Dev.hide m (Dev.releaseMoored s e n).2 = x := by
  unfold Dev.releaseMoored
  repeat' first
    | with_reducible assumption
    | intro _
    | extract_lets
    | with_reducible apply hide_ite
    | with_reducible apply hide_next
    | with_reducible apply Dev.setBarge_hide (land_trans rfl hm)
    | (split
       all_goals try (rename_i heq
                      have h2 := congrArg Prod.snd heq
                      have h1 := congrArg Prod.fst heq
                      dsimp only at h1 h2
                      subst h1 h2
                      clear heq))
    | dsimp only [Lock.count]
    | dsimp +zetaDelta only

theorem Dev.boundEvent_hide {m : Nat} (hm : 4096 &&& m = 4096) {x : Dev} (s : Dev) (e : Nat) (bind : Nat)
    (h : Dev.hide m s = x) : Dev.hide m (Dev.boundEvent s e bind) = x := by
  unfold Dev.boundEvent
  repeat' first
    | with_reducible assumption
    | intro _
    | extract_lets
    | with_reducible apply hide_ite
    | with_reducible apply hide_next
    | with_reducible apply Dev.releaseMoored_hide (land_trans rfl hm)
    | with_reducible apply Dev.forEach_hide (land_trans rfl hm)
    | with_reducible apply Dev.setBarge_hide (land_trans rfl hm)
    | (split
       all_goals try (rename_i heq
                      have h2 := congrArg Prod.snd heq
                      have h1 := congrArg Prod.fst heq
                      dsimp only at h1 h2
                      subst h1 h2
                      clear heq))
    | dsimp only [Lock.count]
    | dsimp +zetaDelta only

theorem execTimerCompare_hide {m : Nat} (hm : 4096 &&& m = 4096) {x : Dev} (e : BargeIx) (n : Fin 2) (s : State)
    (h : Dev.hide m s.dev = x) : Dev.hide m ((execTimerCompare e n s).stateOr s).dev = x := by
  unfold execTimerCompare
  apply State.on_hide
  repeat' first
    | with_reducible assumption
    | intro _
    | extract_lets
    | with_reducible apply hide_ite
    | with_reducible apply hide_next
    | with_reducible apply Dev.boundEvent_hide (land_trans rfl hm)
    | with_reducible apply Dev.irq_hide (land_trans rfl hm)
    | with_reducible apply Dev.setBarge_hide (land_trans rfl hm)
    | (split
       all_goals try (rename_i heq
                      have h2 := congrArg Prod.snd heq
                      have h1 := congrArg Prod.fst heq
                      dsimp only at h1 h2
                      subst h1 h2
                      clear heq))
    | dsimp only [Lock.count]
    | dsimp +zetaDelta only

theorem Dev.setPending_hide {m : Nat} (hm : 35184372088832 &&& m = 35184372088832) {x : Dev} (s : Dev) (v : Nat) (b : Bool)
    (h : Dev.hide m s = x) : Dev.hide m (Dev.setPending s v b) = x := by
  unfold Dev.setPending
  repeat' first
    | with_reducible assumption
    | intro _
    | extract_lets
    | with_reducible apply hide_ite
    | with_reducible apply hide_next
    | (split
       all_goals try (rename_i heq
                      have h2 := congrArg Prod.snd heq
                      have h1 := congrArg Prod.fst heq
                      dsimp only at h1 h2
                      subst h1 h2
                      clear heq))
    | with_reducible apply Dev.hide_upd_45 (land_trans rfl hm)
    | dsimp only [Lock.count]
    | dsimp +zetaDelta only

theorem Dev.sendMsix_hide {m : Nat} (hm : 576495936675512320 &&& m = 576495936675512320) {x : Dev} (s : Dev) (v : Nat)
    (h : Dev.hide m s = x) : Dev.hide m (Dev.sendMsix s v) = x := by
  unfold Dev.sendMsix
  repeat' first
    | with_reducible assumption
    | intro _
    | extract_lets
    | with_reducible apply hide_ite
    | with_reducible apply hide_next
    | with_reducible apply Dev.setPending_hide (land_trans rfl hm)
    | with_reducible apply Dev.emit_hide (land_trans rfl hm)
    | (split
       all_goals try (rename_i heq
                      have h2 := congrArg Prod.snd heq
                      have h1 := congrArg Prod.fst heq
                      dsimp only at h1 h2
                      subst h1 h2
                      clear heq))
    | dsimp only [Lock.count]
    | dsimp +zetaDelta only

theorem Dev.setRing_hide {m : Nat} (hm : 35184372088832 &&& m = 35184372088832) {x : Dev} (s : Dev) (r : Nat) (v : RingCtx)
    (h : Dev.hide m s = x) : Dev.hide m (Dev.setRing s r v) = x := by
  unfold Dev.setRing
  repeat' first
    | with_reducible assumption
    | intro _
    | extract_lets
    | with_reducible apply hide_ite
    | with_reducible apply hide_next
    | (split
       all_goals try (rename_i heq
                      have h2 := congrArg Prod.snd heq
                      have h1 := congrArg Prod.fst heq
                      dsimp only at h1 h2
                      subst h1 h2
                      clear heq))
    | with_reducible apply Dev.hide_upd_45 (land_trans rfl hm)
    | dsimp only [Lock.count]
    | dsimp +zetaDelta only

theorem Dev.modRing_hide {m : Nat} (hm : 35184372088832 &&& m = 35184372088832) {x : Dev} (s : Dev) (r : Nat) (f : RingCtx → RingCtx)
    (h : Dev.hide m s = x) : Dev.hide m (Dev.modRing s r f) = x := by
  unfold Dev.modRing
  repeat' first
    | with_reducible assumption
    | intro _
    | extract_lets
    | with_reducible apply hide_ite
    | with_reducible apply hide_next
    | with_reducible apply Dev.setRing_hide (land_trans rfl hm)
    | (split
       all_goals try (rename_i heq
                      have h2 := congrArg Prod.snd heq
                      have h1 := congrArg Prod.fst heq
                      dsimp only at h1 h2
                      subst h1 h2
                      clear heq))
    | dsimp only [Lock.count]
    | dsimp +zetaDelta only

theorem Dev.moderate_hide {m : Nat} (hm : 576495936675512320 &&& m = 576495936675512320) {x : Dev} (s : Dev) (r : Nat)
    (h : Dev.hide m s = x) : Dev.hide m (Dev.moderate s r) = x := by
  unfold Dev.moderate
  repeat' first
    | with_reducible assumption
    | intro _
    | extract_lets
    | with_reducible apply hide_ite
    | with_reducible apply hide_next
    | with_reducible apply Dev.modRing_hide (land_trans rfl hm)
    | with_reducible apply Dev.sendMsix_hide (land_trans rfl hm)
    | (split
       all_goals try (rename_i heq
                      have h2 := congrArg Prod.snd heq
                      have h1 := congrArg Prod.fst heq
                      dsimp only at h1 h2
                      subst h1 h2
                      clear heq))
    | dsimp only [Lock.count]
    | dsimp +zetaDelta only

theorem Dev.writeback_hide {m : Nat} (hm : 576460752303423488 &&& m = 576460752303423488) {x : Dev} (s : Dev) (r : Nat)
    (h : Dev.hide m s = x) : Dev.hide m (Dev.writeback s r) = x := by
  unfold Dev.writeback
  repeat' first
    | with_reducible assumption
    | intro _
    | extract_lets
    | with_reducible apply hide_ite
    | with_reducible apply hide_next
    | with_reducible apply Dev.emit_hide (land_trans rfl hm)
    | (split
       all_goals try (rename_i heq
                      have h2 := congrArg Prod.snd heq
                      have h1 := congrArg Prod.fst heq
                      dsimp only at h1 h2
                      subst h1 h2
                      clear heq))
    | dsimp only [Lock.count]
    | dsimp +zetaDelta only

theorem Dev.entryDone_hide {m : Nat} (hm : 576495936675512320 &&& m = 576495936675512320) {x : Dev} (s : Dev) (r : Nat)
    (h : Dev.hide m s = x) : Dev.hide m (Dev.entryDone s r) = x := by
  unfold Dev.entryDone
  repeat' first
    | with_reducible assumption
    | intro _
    | extract_lets
    | with_reducible apply hide_ite
    | with_reducible apply hide_next
    | with_reducible apply Dev.writeback_hide (land_trans rfl hm)
    | with_reducible apply Dev.moderate_hide (land_trans rfl hm)
    | with_reducible apply Dev.modRing_hide (land_trans rfl hm)
    | with_reducible apply Dev.ctxUse_hide (land_trans rfl hm)
    | (split
       all_goals try (rename_i heq
                      have h2 := congrArg Prod.snd heq
                      have h1 := congrArg Prod.fst heq
                      dsimp only at h1 h2
                      subst h1 h2
                      clear heq))
    | dsimp only [Lock.count]
    | dsimp +zetaDelta only

theorem Dev.tbGoto_hide {m : Nat} (hm : 18014398509481992 &&& m = 18014398509481992) {x : Dev} (s : Dev) (n : TbState) (active : Nat)
    (h : Dev.hide m s = x) : Dev.hide m (Dev.tbGoto s n active) = x := by
  unfold Dev.tbGoto
  repeat' first
    | with_reducible assumption
    | intro _
    | extract_lets
    | with_reducible apply hide_ite
    | with_reducible apply hide_next
    | with_reducible apply Dev.raise_hide (land_trans rfl hm)
    | (split
       all_goals try (rename_i heq
                      have h2 := congrArg Prod.snd heq
                      have h1 := congrArg Prod.fst heq
                      dsimp only at h1 h2
                      subst h1 h2
                      clear heq))
    | with_reducible apply Dev.hide_upd_3 (land_trans rfl hm)
    | dsimp only [Lock.count]
    | dsimp +zetaDelta only

theorem Dev.drawWord_hide {m : Nat} (hm : 1 &&& m = 1) {x : Dev} (s : Dev)
    (h : Dev.hide m s = x) : Dev.hide m (Dev.drawWord s).2 = x := by
  unfold Dev.drawWord
  repeat' first
    | with_reducible assumption
    | intro _
    | extract_lets
    | with_reducible apply hide_ite
    | with_reducible apply hide_next
    | (split
       all_goals try (rename_i heq
                      have h2 := congrArg Prod.snd heq
                      have h1 := congrArg Prod.fst heq
                      dsimp only at h1 h2
                      subst h1 h2
                      clear heq))
    | with_reducible apply Dev.hide_upd_0 (land_trans rfl hm)
    | dsimp only [Lock.count]
    | dsimp +zetaDelta only

theorem Dev.tbServo_hide {m : Nat} (hm : 9 &&& m = 9) {x : Dev} (s : Dev)
    (h : Dev.hide m s = x) : Dev.hide m (Dev.tbServo s) = x := by
  unfold Dev.tbServo
  repeat' first
    | with_reducible assumption
    | intro _
    | extract_lets
    | with_reducible apply hide_ite
    | with_reducible apply hide_next
    | with_reducible apply Dev.drawWord_hide (land_trans rfl hm)
    | with_reducible apply Dev.drawNat_hide (land_trans rfl hm)
    | (split
       all_goals try (rename_i heq
                      have h2 := congrArg Prod.snd heq
                      have h1 := congrArg Prod.fst heq
                      dsimp only at h1 h2
                      subst h1 h2
                      clear heq))
    | with_reducible apply Dev.hide_upd_3 (land_trans rfl hm)
    | dsimp only [Lock.count]
    | dsimp +zetaDelta only

theorem Dev.setLockTable_hide {m : Nat} (hm : 256 &&& m = 256) {x : Dev} (s : Dev) (t : Nat) (v : LockTable)
    (h : Dev.hide m s = x) : Dev.hide m (Dev.setLockTable s t v) = x := by
  unfold Dev.setLockTable
  repeat' first
    | with_reducible assumption
    | intro _
    | extract_lets
    | with_reducible apply hide_ite
    | with_reducible apply hide_next
    | (split
       all_goals try (rename_i heq
                      have h2 := congrArg Prod.snd heq
                      have h1 := congrArg Prod.fst heq
                      dsimp only at h1 h2
                      subst h1 h2
                      clear heq))
    | with_reducible apply Dev.hide_upd_8 (land_trans rfl hm)
    | dsimp only [Lock.count]
    | dsimp +zetaDelta only

theorem Dev.modLockTable_hide {m : Nat} (hm : 256 &&& m = 256) {x : Dev} (s : Dev) (t : Nat) (f : LockTable → LockTable)
    (h : Dev.hide m s = x) : Dev.hide m (Dev.modLockTable s t f) = x := by
  unfold Dev.modLockTable
  repeat' first
    | with_reducible assumption
    | intro _
    | extract_lets
    | with_reducible apply hide_ite
    | with_reducible apply hide_next
    | with_reducible apply Dev.setLockTable_hide (land_trans rfl hm)
    | (split
       all_goals try (rename_i heq
                      have h2 := congrArg Prod.snd heq
                      have h1 := congrArg Prod.fst heq
                      dsimp only at h1 h2
                      subst h1 h2
                      clear heq))
    | dsimp only [Lock.count]
    | dsimp +zetaDelta only

theorem Dev.tbStep_hide {m : Nat} (hm : 2444 &&& m = 2444) {x : Dev} (s : Dev) (n : Nat)
    (h : Dev.hide m s = x) : Dev.hide m (Dev.tbStep s n) = x := by
  unfold Dev.tbStep
  repeat' first
    | with_reducible assumption
    | intro _
    | extract_lets
    | with_reducible apply hide_ite
    | with_reducible apply hide_next
    | with_reducible apply Dev.modLockTable_hide (land_trans rfl hm)
    | with_reducible apply Dev.setReplica_hide (land_trans rfl hm)
    | with_reducible apply Dev.forEach_hide (land_trans rfl hm)
    | with_reducible apply Dev.modRegion_hide (land_trans rfl hm)
    | (split
       all_goals try (rename_i heq
                      have h2 := congrArg Prod.snd heq
                      have h1 := congrArg Prod.fst heq
                      dsimp only at h1 h2
                      subst h1 h2
                      clear heq))
    | with_reducible apply Dev.hide_upd_2_3 (land_trans rfl hm)
    | dsimp only [Lock.count]
    | dsimp +zetaDelta only

theorem Dev.measured_hide {m : Nat} (hm : 18014398509484429 &&& m = 18014398509484429) {x : Dev} (s : Dev) (off : Int)
    (h : Dev.hide m s = x) : Dev.hide m (Dev.measured s off) = x := by
  unfold Dev.measured
  repeat' first
    | with_reducible assumption
    | intro _
    | extract_lets
    | with_reducible apply hide_ite
    | with_reducible apply hide_next
    | with_reducible apply Dev.tbStep_hide (land_trans rfl hm)
    | with_reducible apply Dev.tbServo_hide (land_trans rfl hm)
    | with_reducible apply Dev.tbGoto_hide (land_trans rfl hm)
    | (split
       all_goals try (rename_i heq
                      have h2 := congrArg Prod.snd heq
                      have h1 := congrArg Prod.fst heq
                      dsimp only at h1 h2
                      subst h1 h2
                      clear heq))
    | with_reducible apply Dev.hide_upd_3 (land_trans rfl hm)
    | dsimp only [Lock.count]
    | dsimp +zetaDelta only

theorem Dev.discipline_hide {m : Nat} (hm : 18014398509484429 &&& m = 18014398509484429) {x : Dev} (s : Dev) (src : Nat) (off : Int)
    (h : Dev.hide m s = x) : Dev.hide m (Dev.discipline s src off) = x := by
  unfold Dev.discipline
  repeat' first
    | with_reducible assumption
    | intro _
    | extract_lets
    | with_reducible apply hide_ite
    | with_reducible apply hide_next
    | with_reducible apply Dev.measured_hide (land_trans rfl hm)
    | with_reducible apply Dev.tbGoto_hide (land_trans rfl hm)
    | (split
       all_goals try (rename_i heq
                      have h2 := congrArg Prod.snd heq
                      have h1 := congrArg Prod.fst heq
                      dsimp only at h1 h2
                      subst h1 h2
                      clear heq))
    | with_reducible apply Dev.hide_upd_3 (land_trans rfl hm)
    | dsimp only [Lock.count]
    | dsimp +zetaDelta only

theorem execSyncFrame_hide {m : Nat} (hm : 18014398509484477 &&& m = 18014398509484477) {x : Dev} (link : Link) (f : SyncFrame) (s : State)
    (h : Dev.hide m s.dev = x) : Dev.hide m ((execSyncFrame link f s).stateOr s).dev = x := by
  unfold execSyncFrame
  apply State.on_hide
  repeat' first
    | with_reducible assumption
    | intro _
    | extract_lets
    | with_reducible apply hide_ite
    | with_reducible apply hide_next
    | with_reducible apply Dev.discipline_hide (land_trans rfl hm)
    | with_reducible apply Dev.setCabLink_hide (land_trans rfl hm)
    | (split
       all_goals try (rename_i heq
                      have h2 := congrArg Prod.snd heq
                      have h1 := congrArg Prod.fst heq
                      dsimp only at h1 h2
                      subst h1 h2
                      clear heq))
    | dsimp only [Lock.count]
    | dsimp +zetaDelta only

theorem Dev.rvKick_hide {m : Nat} (hm : 847248886597688833 &&& m = 847248886597688833) {x : Dev} (s : Dev)
    (h : Dev.hide m s = x) : Dev.hide m (Dev.rvKick s) = x := by
  unfold Dev.rvKick
  repeat' first
    | with_reducible assumption
    | intro _
    | extract_lets
    | with_reducible apply hide_ite
    | with_reducible apply hide_next
    | with_reducible apply Dev.rvLive_hide (land_trans rfl hm)
    | with_reducible apply Dev.modRv_hide (land_trans rfl hm)
    | (split
       all_goals try (rename_i heq
                      have h2 := congrArg Prod.snd heq
                      have h1 := congrArg Prod.fst heq
                      dsimp only at h1 h2
                      subst h1 h2
                      clear heq))
    | dsimp only [Lock.count]
    | dsimp +zetaDelta only

theorem Dev.surplusOff_hide {m : Nat} (hm : 562949953421312 &&& m = 562949953421312) {x : Dev} (s : Dev)
    (h : Dev.hide m s = x) : Dev.hide m (Dev.surplusOff s) = x := by
  unfold Dev.surplusOff
  repeat' first
    | with_reducible assumption
    | intro _
    | extract_lets
    | with_reducible apply hide_ite
    | with_reducible apply hide_next
    | with_reducible apply Dev.modRv_hide (land_trans rfl hm)
    | (split
       all_goals try (rename_i heq
                      have h2 := congrArg Prod.snd heq
                      have h1 := congrArg Prod.fst heq
                      dsimp only at h1 h2
                      subst h1 h2
                      clear heq))
    | dsimp only [Lock.count]
    | dsimp +zetaDelta only

theorem execSurplusEnd_hide {m : Nat} (hm : 562949953421312 &&& m = 562949953421312) {x : Dev} (s : State)
    (h : Dev.hide m s.dev = x) : Dev.hide m ((execSurplusEnd s).stateOr s).dev = x := by
  unfold execSurplusEnd
  apply State.on_hide
  repeat' first
    | with_reducible assumption
    | intro _
    | extract_lets
    | with_reducible apply hide_ite
    | with_reducible apply hide_next
    | with_reducible apply Dev.surplusOff_hide (land_trans rfl hm)
    | (split
       all_goals try (rename_i heq
                      have h2 := congrArg Prod.snd heq
                      have h1 := congrArg Prod.fst heq
                      dsimp only at h1 h2
                      subst h1 h2
                      clear heq))
    | dsimp only [Lock.count]
    | dsimp +zetaDelta only

theorem execReleaseAnnounce_hide {m : Nat} (hm : 4096 &&& m = 4096) {x : Dev} (e : BargeIx) (slot : Fin 16) (time : Option DWord) (s : State)
    (h : Dev.hide m s.dev = x) : Dev.hide m ((execReleaseAnnounce e slot time s).stateOr s).dev = x := by
  unfold execReleaseAnnounce
  apply State.on_hide
  repeat' first
    | with_reducible assumption
    | intro _
    | extract_lets
    | with_reducible apply hide_ite
    | with_reducible apply hide_next
    | with_reducible apply Dev.setBarge_hide (land_trans rfl hm)
    | (split
       all_goals try (rename_i heq
                      have h2 := congrArg Prod.snd heq
                      have h1 := congrArg Prod.fst heq
                      dsimp only at h1 h2
                      subst h1 h2
                      clear heq))
    | dsimp only [Lock.count]
    | dsimp +zetaDelta only

theorem execAutonomyTimerExpiry_hide {m : Nat} (hm : 702570639013187073 &&& m = 702570639013187073) {x : Dev} (g : RegionIx) (s : State)
    (h : Dev.hide m s.dev = x) : Dev.hide m ((execAutonomyTimerExpiry g s).stateOr s).dev = x := by
  unfold execAutonomyTimerExpiry
  apply State.on_hide
  repeat' first
    | with_reducible assumption
    | intro _
    | extract_lets
    | with_reducible apply hide_ite
    | with_reducible apply hide_next
    | with_reducible apply Dev.autoNext_hide (land_trans rfl hm)
    | with_reducible apply Dev.policy_hide (land_trans rfl hm)
    | with_reducible apply Dev.modRegion_hide (land_trans rfl hm)
    | (split
       all_goals try (rename_i heq
                      have h2 := congrArg Prod.snd heq
                      have h1 := congrArg Prod.fst heq
                      dsimp only at h1 h2
                      subst h1 h2
                      clear heq))
    | dsimp only [Lock.count]
    | dsimp +zetaDelta only

theorem Dev.errRelease_hide {m : Nat} (hm : 18014467228960768 &&& m = 18014467228960768) {x : Dev} (s : Dev)
    (h : Dev.hide m s = x) : Dev.hide m (Dev.errRelease s) = x := by
  unfold Dev.errRelease
  repeat' first
    | with_reducible assumption
    | intro _
    | extract_lets
    | with_reducible apply hide_ite
    | with_reducible apply hide_next
    | with_reducible apply Dev.errEvent_hide (land_trans rfl hm)
    | (split
       all_goals try (rename_i heq
                      have h2 := congrArg Prod.snd heq
                      have h1 := congrArg Prod.fst heq
                      dsimp only at h1 h2
                      subst h1 h2
                      clear heq))
    | with_reducible apply Dev.hide_upd_36 (land_trans rfl hm)
    | dsimp only [Lock.count]
    | dsimp +zetaDelta only

theorem Dev.errClear_hide {m : Nat} (hm : 18014467228960768 &&& m = 18014467228960768) {x : Dev} (s : Dev)
    (h : Dev.hide m s = x) : Dev.hide m (Dev.errClear s) = x := by
  unfold Dev.errClear
  repeat' first
    | with_reducible assumption
    | intro _
    | extract_lets
    | with_reducible apply hide_ite
    | with_reducible apply hide_next
    | with_reducible apply Dev.errRelease_hide (land_trans rfl hm)
    | (split
       all_goals try (rename_i heq
                      have h2 := congrArg Prod.snd heq
                      have h1 := congrArg Prod.fst heq
                      dsimp only at h1 h2
                      subst h1 h2
                      clear heq))
    | with_reducible apply Dev.hide_upd_36 (land_trans rfl hm)
    | dsimp only [Lock.count]
    | dsimp +zetaDelta only

theorem Dev.fcErrWrite_hide {m : Nat} (hm : 18014469376444416 &&& m = 18014469376444416) {x : Dev} (s : Dev) (v : Word)
    (h : Dev.hide m s = x) : Dev.hide m (Dev.fcErrWrite s v) = x := by
  unfold Dev.fcErrWrite
  repeat' first
    | with_reducible assumption
    | intro _
    | extract_lets
    | with_reducible apply hide_ite
    | with_reducible apply hide_next
    | with_reducible apply Dev.errClear_hide (land_trans rfl hm)
    | with_reducible apply Dev.putReg_hide (land_trans rfl hm)
    | (split
       all_goals try (rename_i heq
                      have h2 := congrArg Prod.snd heq
                      have h1 := congrArg Prod.fst heq
                      dsimp only at h1 h2
                      subst h1 h2
                      clear heq))
    | with_reducible apply Dev.hide_upd_36 (land_trans rfl hm)
    | dsimp only [Lock.count]
    | dsimp +zetaDelta only

theorem execValleyCrossing_hide {m : Nat} (hm : 18014404985493504 &&& m = 18014404985493504) {x : Dev} (k : SliceIx) (us : Word) (early : Bool) (s : State)
    (h : Dev.hide m s.dev = x) : Dev.hide m ((execValleyCrossing k us early s).stateOr s).dev = x := by
  unfold execValleyCrossing
  apply State.on_hide
  repeat' first
    | with_reducible assumption
    | intro _
    | extract_lets
    | with_reducible apply hide_ite
    | with_reducible apply hide_next
    | with_reducible apply Dev.periodEdge_hide (land_trans rfl hm)
    | with_reducible apply Dev.setSlice_hide (land_trans rfl hm)
    | (split
       all_goals try (rename_i heq
                      have h2 := congrArg Prod.snd heq
                      have h1 := congrArg Prod.fst heq
                      dsimp only at h1 h2
                      subst h1 h2
                      clear heq))
    | dsimp only [Lock.count]
    | dsimp +zetaDelta only

theorem Dev.pushToken_hide {m : Nat} (hm : 4096 &&& m = 4096) {x : Dev} (s : Dev) (q : Nat) (t : Quad)
    (h : Dev.hide m s = x) : Dev.hide m (Dev.pushToken s q t).2 = x := by
  unfold Dev.pushToken
  repeat' first
    | with_reducible assumption
    | intro _
    | extract_lets
    | with_reducible apply hide_ite
    | with_reducible apply hide_next
    | with_reducible apply Dev.setBarge_hide (land_trans rfl hm)
    | (split
       all_goals try (rename_i heq
                      have h2 := congrArg Prod.snd heq
                      have h1 := congrArg Prod.fst heq
                      dsimp only at h1 h2
                      subst h1 h2
                      clear heq))
    | dsimp only [Lock.count]
    | dsimp +zetaDelta only

theorem Dev.tqPush_hide {m : Nat} (hm : 4096 &&& m = 4096) {x : Dev} (s : Dev) (e : Nat) (i : Nat) (hi : DWord)
    (h : Dev.hide m s = x) : Dev.hide m (Dev.tqPush s e i hi) = x := by
  unfold Dev.tqPush
  repeat' first
    | with_reducible assumption
    | intro _
    | extract_lets
    | with_reducible apply hide_ite
    | with_reducible apply hide_next
    | with_reducible apply Dev.pushToken_hide (land_trans rfl hm)
    | with_reducible apply Dev.modBarge_hide (land_trans rfl hm)
    | (split
       all_goals try (rename_i heq
                      have h2 := congrArg Prod.snd heq
                      have h1 := congrArg Prod.fst heq
                      dsimp only at h1 h2
                      subst h1 h2
                      clear heq))
    | dsimp only [Lock.count]
    | dsimp +zetaDelta only

theorem execTqPush_hide {m : Nat} (hm : 4096 &&& m = 4096) {x : Dev} (e : BargeIx) (i : Fin 8) (hi : DWord) (s : State)
    (h : Dev.hide m s.dev = x) : Dev.hide m ((execTqPush e i hi s).stateOr s).dev = x := by
  unfold execTqPush
  apply State.on_hide
  repeat' first
    | with_reducible assumption
    | intro _
    | extract_lets
    | with_reducible apply hide_ite
    | with_reducible apply hide_next
    | with_reducible apply Dev.tqPush_hide (land_trans rfl hm)
    | (split
       all_goals try (rename_i heq
                      have h2 := congrArg Prod.snd heq
                      have h1 := congrArg Prod.fst heq
                      dsimp only at h1 h2
                      subst h1 h2
                      clear heq))
    | dsimp only [Lock.count]
    | dsimp +zetaDelta only

theorem Dev.lockLate_hide {m : Nat} (hm : 18014398509484288 &&& m = 18014398509484288) {x : Dev} (s : Dev) (t : Nat) (e : LockEntry) (dropped : Bool) (removed : Bool) (missed : Nat)
    (h : Dev.hide m s = x) : Dev.hide m (Dev.lockLate s t e dropped removed missed) = x := by
  unfold Dev.lockLate
  repeat' first
    | with_reducible assumption
    | intro _
    | extract_lets
    | with_reducible apply hide_ite
    | with_reducible apply hide_next
    | with_reducible apply Dev.raiseIsland_hide (land_trans rfl hm)
    | with_reducible apply Dev.raise_hide (land_trans rfl hm)
    | (split
       all_goals try (rename_i heq
                      have h2 := congrArg Prod.snd heq
                      have h1 := congrArg Prod.fst heq
                      dsimp only at h1 h2
                      subst h1 h2
                      clear heq))
    | with_reducible apply Dev.hide_upd_8 (land_trans rfl hm)
    | dsimp only [Lock.count]
    | dsimp +zetaDelta only

theorem Dev.latchCell_hide {m : Nat} (hm : 846685936644267521 &&& m = 846685936644267521) {x : Dev} (s : Dev) (c : Nat) (reason : Nat)
    (h : Dev.hide m s = x) : Dev.hide m (Dev.latchCell s c reason) = x := by
  unfold Dev.latchCell
  repeat' first
    | with_reducible assumption
    | intro _
    | extract_lets
    | with_reducible apply hide_ite
    | with_reducible apply hide_next
    | with_reducible apply Dev.occur_hide (land_trans rfl hm)
    | with_reducible apply Dev.goto_hide (land_trans rfl hm)
    | with_reducible apply Dev.raiseIsland_hide (land_trans rfl hm)
    | (split
       all_goals try (rename_i heq
                      have h2 := congrArg Prod.snd heq
                      have h1 := congrArg Prod.fst heq
                      dsimp only at h1 h2
                      subst h1 h2
                      clear heq))
    | dsimp only [Lock.count]
    | dsimp +zetaDelta only

theorem Dev.evaluateRule_hide {m : Nat} (hm : 846685936644267521 &&& m = 846685936644267521) {x : Dev} (s : Dev) (c : Nat)
    (h : Dev.hide m s = x) : Dev.hide m (Dev.evaluateRule s c) = x := by
  unfold Dev.evaluateRule
  repeat' first
    | with_reducible assumption
    | intro _
    | extract_lets
    | with_reducible apply hide_ite
    | with_reducible apply hide_next
    | with_reducible apply Dev.latchCell_hide (land_trans rfl hm)
    | with_reducible apply Dev.cooldown_hide (land_trans rfl hm)
    | with_reducible apply Dev.endHeldOn_hide (land_trans rfl hm)
    | with_reducible apply Dev.modCell_hide (land_trans rfl hm)
    | with_reducible apply Dev.raiseIsland_hide (land_trans rfl hm)
    | (split
       all_goals try (rename_i heq
                      have h2 := congrArg Prod.snd heq
                      have h1 := congrArg Prod.fst heq
                      dsimp only at h1 h2
                      subst h1 h2
                      clear heq))
    | dsimp only [Lock.count]
    | dsimp +zetaDelta only

theorem execRuleEvaluation_hide {m : Nat} (hm : 846685936644267521 &&& m = 846685936644267521) {x : Dev} (c : CellIx) (s : State)
    (h : Dev.hide m s.dev = x) : Dev.hide m ((execRuleEvaluation c s).stateOr s).dev = x := by
  unfold execRuleEvaluation
  apply State.on_hide
  repeat' first
    | with_reducible assumption
    | intro _
    | extract_lets
    | with_reducible apply hide_ite
    | with_reducible apply hide_next
    | with_reducible apply Dev.evaluateRule_hide (land_trans rfl hm)
    | (split
       all_goals try (rename_i heq
                      have h2 := congrArg Prod.snd heq
                      have h1 := congrArg Prod.fst heq
                      dsimp only at h1 h2
                      subst h1 h2
                      clear heq))
    | dsimp only [Lock.count]
    | dsimp +zetaDelta only

theorem Dev.chReset_hide {m : Nat} (hm : 702570673372929537 &&& m = 702570673372929537) {x : Dev} (s : Dev) (c : Nat)
    (h : Dev.hide m s = x) : Dev.hide m (Dev.chReset s c).2 = x := by
  unfold Dev.chReset
  repeat' first
    | with_reducible assumption
    | intro _
    | extract_lets
    | with_reducible apply hide_ite
    | with_reducible apply hide_next
    | with_reducible apply Dev.autoNext_hide (land_trans rfl hm)
    | with_reducible apply Dev.goto_hide (land_trans rfl hm)
    | with_reducible apply Dev.modCell_hide (land_trans rfl hm)
    | with_reducible apply Dev.latchedCheck_hide (land_trans rfl hm)
    | (split
       all_goals try (rename_i heq
                      have h2 := congrArg Prod.snd heq
                      have h1 := congrArg Prod.fst heq
                      dsimp only at h1 h2
                      subst h1 h2
                      clear heq))
    | dsimp only [Lock.count]
    | dsimp +zetaDelta only

theorem execRuleWindowExpiry_hide {m : Nat} (hm : 34359738368 &&& m = 34359738368) {x : Dev} (k : CollIx) (n : Byte) (s : State)
    (h : Dev.hide m s.dev = x) : Dev.hide m ((execRuleWindowExpiry k n s).stateOr s).dev = x := by
  unfold execRuleWindowExpiry
  apply State.on_hide
  repeat' first
    | with_reducible assumption
    | intro _
    | extract_lets
    | with_reducible apply hide_ite
    | with_reducible apply hide_next
    | with_reducible apply Dev.modColl_hide (land_trans rfl hm)
    | (split
       all_goals try (rename_i heq
                      have h2 := congrArg Prod.snd heq
                      have h1 := congrArg Prod.fst heq
                      dsimp only at h1 h2
                      subst h1 h2
                      clear heq))
    | dsimp only [Lock.count]
    | dsimp +zetaDelta only

theorem Dev.lvFinish_hide {m : Nat} (hm : 576495936678658048 &&& m = 576495936678658048) {x : Dev} (s : Dev) (n : Nat) (code : Nat) (value : Nat) (value2 : Nat) (flags : Nat)
    (h : Dev.hide m s = x) : Dev.hide m (Dev.lvFinish s n code value value2 flags) = x := by
  unfold Dev.lvFinish
  repeat' first
    | with_reducible assumption
    | intro _
    | extract_lets
    | with_reducible apply hide_ite
    | with_reducible apply hide_next
    | with_reducible apply Dev.sendMsix_hide (land_trans rfl hm)
    | with_reducible apply Dev.modNode_hide (land_trans rfl hm)
    | with_reducible apply hide_foldl
    | with_reducible apply hide_foldl2
    | with_reducible apply hide_foldl3
    | with_reducible apply hide_foldl4
    | (split
       all_goals try (rename_i heq
                      have h2 := congrArg Prod.snd heq
                      have h1 := congrArg Prod.fst heq
                      dsimp only at h1 h2
                      subst h1 h2
                      clear heq))
    | with_reducible apply Dev.hide_upd_21 (land_trans rfl hm)
    | dsimp only [Lock.count]
    | dsimp +zetaDelta only

theorem execMailboxCompletion_hide {m : Nat} (hm : 612524733697626112 &&& m = 612524733697626112) {x : Dev} (n : BlockIx) (s : State)
    (h : Dev.hide m s.dev = x) : Dev.hide m ((execMailboxCompletion n s).stateOr s).dev = x := by
  unfold execMailboxCompletion
  apply State.on_hide
  repeat' first
    | with_reducible assumption
    | intro _
    | extract_lets
    | with_reducible apply hide_ite
    | with_reducible apply hide_next
    | with_reducible apply Dev.lvFinish_hide (land_trans rfl hm)
    | with_reducible apply Dev.dropToken_hide (land_trans rfl hm)
    | (split
       all_goals try (rename_i heq
                      have h2 := congrArg Prod.snd heq
                      have h1 := congrArg Prod.fst heq
                      dsimp only at h1 h2
                      subst h1 h2
                      clear heq))
    | with_reducible apply Dev.hide_upd_55 (land_trans rfl hm)
    | dsimp only [Lock.count]
    | dsimp +zetaDelta only

theorem Dev.fcCountRead_hide {m : Nat} (hm : 34359738368 &&& m = 34359738368) {x : Dev} (s : Dev) (k : Nat) (src : Nat)
    (h : Dev.hide m s = x) : Dev.hide m (Dev.fcCountRead s k src).2 = x := by
  unfold Dev.fcCountRead
  repeat' first
    | with_reducible assumption
    | intro _
    | extract_lets
    | with_reducible apply hide_ite
    | with_reducible apply hide_next
    | with_reducible apply Dev.modColl_hide (land_trans rfl hm)
    | (split
       all_goals try (rename_i heq
                      have h2 := congrArg Prod.snd heq
                      have h1 := congrArg Prod.fst heq
                      dsimp only at h1 h2
                      subst h1 h2
                      clear heq))
    | dsimp only [Lock.count]
    | dsimp +zetaDelta only

theorem Dev.bzEvent_hide {m : Nat} (hm : 18014398509481984 &&& m = 18014398509481984) {x : Dev} (s : Dev) (code : Nat) (payload : List Word)
    (h : Dev.hide m s = x) : Dev.hide m (Dev.bzEvent s code payload) = x := by
  unfold Dev.bzEvent
  repeat' first
    | with_reducible assumption
    | intro _
    | extract_lets
    | with_reducible apply hide_ite
    | with_reducible apply hide_next
    | with_reducible apply Dev.raise_hide (land_trans rfl hm)
    | (split
       all_goals try (rename_i heq
                      have h2 := congrArg Prod.snd heq
                      have h1 := congrArg Prod.fst heq
                      dsimp only at h1 h2
                      subst h1 h2
                      clear heq))
    | dsimp only [Lock.count]
    | dsimp +zetaDelta only

theorem execGapRecord_hide {m : Nat} (hm : 18295873486192641 &&& m = 18295873486192641) {x : Dev} (s : State)
    (h : Dev.hide m s.dev = x) : Dev.hide m ((execGapRecord s).stateOr s).dev = x := by
  unfold execGapRecord
  apply State.on_hide
  repeat' first
    | with_reducible assumption
    | intro _
    | extract_lets
    | with_reducible apply hide_ite
    | with_reducible apply hide_next
    | with_reducible apply Dev.bzEvent_hide (land_trans rfl hm)
    | with_reducible apply Dev.bzFull_hide (land_trans rfl hm)
    | with_reducible apply Dev.bzPut_hide (land_trans rfl hm)
    | with_reducible apply Dev.modBz_hide (land_trans rfl hm)
    | (split
       all_goals try (rename_i heq
                      have h2 := congrArg Prod.snd heq
                      have h1 := congrArg Prod.fst heq
                      dsimp only at h1 h2
                      subst h1 h2
                      clear heq))
    | dsimp only [Lock.count]
    | dsimp +zetaDelta only

theorem execMgMboxWrite_hide {m : Nat} (hm : 20266198323167232 &&& m = 20266198323167232) {x : Dev} (data : List Byte) (pec : Option Byte) (s : State)
    (h : Dev.hide m s.dev = x) : Dev.hide m ((execMgMboxWrite data pec s).stateOr s).dev = x := by
  unfold execMgMboxWrite
  apply State.on_hide
  repeat' first
    | with_reducible assumption
    | intro _
    | extract_lets
    | with_reducible apply hide_ite
    | with_reducible apply hide_next
    | with_reducible apply Dev.mgPecBad_hide (land_trans rfl hm)
    | with_reducible apply Dev.mgNack_hide (land_trans rfl hm)
    | with_reducible apply Dev.modMg_hide (land_trans rfl hm)
    | with_reducible apply Dev.raise_hide (land_trans rfl hm)
    | (split
       all_goals try (rename_i heq
                      have h2 := congrArg Prod.snd heq
                      have h1 := congrArg Prod.fst heq
                      dsimp only at h1 h2
                      subst h1 h2
                      clear heq))
    | dsimp only [Lock.count]
    | dsimp +zetaDelta only

theorem Dev.rvFaultRead_hide {m : Nat} (hm : 18577382822647808 &&& m = 18577382822647808) {x : Dev} (s : Dev)
    (h : Dev.hide m s = x) : Dev.hide m (Dev.rvFaultRead s).2 = x := by
  unfold Dev.rvFaultRead
  repeat' first
    | with_reducible assumption
    | intro _
    | extract_lets
    | with_reducible apply hide_ite
    | with_reducible apply hide_next
    | with_reducible apply Dev.rvFaultEnd_hide (land_trans rfl hm)
    | with_reducible apply Dev.modRv_hide (land_trans rfl hm)
    | (split
       all_goals try (rename_i heq
                      have h2 := congrArg Prod.snd heq
                      have h1 := congrArg Prod.fst heq
                      dsimp only at h1 h2
                      subst h1 h2
                      clear heq))
    | dsimp only [Lock.count]
    | dsimp +zetaDelta only

theorem execRvFaultRead_hide {m : Nat} (hm : 595038135126071296 &&& m = 595038135126071296) {x : Dev} (s : State)
    (h : Dev.hide m s.dev = x) : Dev.hide m ((execRvFaultRead s).stateOr s).dev = x := by
  unfold execRvFaultRead
  apply State.on_hide
  repeat' first
    | with_reducible assumption
    | intro _
    | extract_lets
    | with_reducible apply hide_ite
    | with_reducible apply hide_next
    | with_reducible apply Dev.rvFaultRead_hide (land_trans rfl hm)
    | with_reducible apply Dev.emit_hide (land_trans rfl hm)
    | (split
       all_goals try (rename_i heq
                      have h2 := congrArg Prod.snd heq
                      have h1 := congrArg Prod.fst heq
                      dsimp only at h1 h2
                      subst h1 h2
                      clear heq))
    | dsimp only [Lock.count]
    | dsimp +zetaDelta only

theorem Dev.dbgSetKey_hide {m : Nat} (hm : 846685936644529665 &&& m = 846685936644529665) {x : Dev} (s : Dev) (k : List DWord)
    (h : Dev.hide m s = x) : Dev.hide m (Dev.dbgSetKey s k) = x := by
  unfold Dev.dbgSetKey
  repeat' first
    | with_reducible assumption
    | intro _
    | extract_lets
    | with_reducible apply hide_ite
    | with_reducible apply hide_next
    | with_reducible apply Dev.cfgIgnored_hide (land_trans rfl hm)
    | with_reducible apply Dev.modDbg_hide (land_trans rfl hm)
    | (split
       all_goals try (rename_i heq
                      have h2 := congrArg Prod.snd heq
                      have h1 := congrArg Prod.fst heq
                      dsimp only at h1 h2
                      subst h1 h2
                      clear heq))
    | dsimp only [Lock.count]
    | dsimp +zetaDelta only

theorem Dev.lockPut_hide {m : Nat} (hm : 256 &&& m = 256) {x : Dev} (s : Dev) (t : Nat) (e : LockEntry)
    (h : Dev.hide m s = x) : Dev.hide m (Dev.lockPut s t e) = x := by
  unfold Dev.lockPut
  repeat' first
    | with_reducible assumption
    | intro _
    | extract_lets
    | with_reducible apply hide_ite
    | with_reducible apply hide_next
    | with_reducible apply Dev.modLockTable_hide (land_trans rfl hm)
    | (split
       all_goals try (rename_i heq
                      have h2 := congrArg Prod.snd heq
                      have h1 := congrArg Prod.fst heq
                      dsimp only at h1 h2
                      subst h1 h2
                      clear heq))
    | dsimp only [Lock.count]
    | dsimp +zetaDelta only

theorem Dev.commitSlice_hide {m : Nat} (hm : 33554432 &&& m = 33554432) {x : Dev} (s : Dev) (k : Nat)
    (h : Dev.hide m s = x) : Dev.hide m (Dev.commitSlice s k) = x := by
  unfold Dev.commitSlice
  repeat' first
    | with_reducible assumption
    | intro _
    | extract_lets
    | with_reducible apply hide_ite
    | with_reducible apply hide_next
    | with_reducible apply Dev.modSlice_hide (land_trans rfl hm)
    | (split
       all_goals try (rename_i heq
                      have h2 := congrArg Prod.snd heq
                      have h1 := congrArg Prod.fst heq
                      dsimp only at h1 h2
                      subst h1 h2
                      clear heq))
    | dsimp only [Lock.count]
    | dsimp +zetaDelta only

theorem Dev.abortVin_hide {m : Nat} (hm : 268435456 &&& m = 268435456) {x : Dev} (s : Dev) (b : Nat) (clocks : Nat)
    (h : Dev.hide m s = x) : Dev.hide m (Dev.abortVin s b clocks) = x := by
  unfold Dev.abortVin
  repeat' first
    | with_reducible assumption
    | intro _
    | extract_lets
    | with_reducible apply hide_ite
    | with_reducible apply hide_next
    | with_reducible apply Dev.modConv_hide (land_trans rfl hm)
    | (split
       all_goals try (rename_i heq
                      have h2 := congrArg Prod.snd heq
                      have h1 := congrArg Prod.fst heq
                      dsimp only at h1 h2
                      subst h1 h2
                      clear heq))
    | dsimp only [Lock.count]
    | dsimp +zetaDelta only

theorem Dev.restartWindows_hide {m : Nat} (hm : 402653185 &&& m = 402653185) {x : Dev} (s : Dev) (b : Nat)
    (h : Dev.hide m s = x) : Dev.hide m (Dev.restartWindows s b) = x := by
  unfold Dev.restartWindows
  repeat' first
    | with_reducible assumption
    | intro _
    | extract_lets
    | with_reducible apply hide_ite
    | with_reducible apply hide_next
    | with_reducible apply Dev.abortVin_hide (land_trans rfl hm)
    | with_reducible apply Dev.drawNat_hide (land_trans rfl hm)
    | with_reducible apply Dev.abortWindow_hide (land_trans rfl hm)
    | with_reducible apply Dev.forEach_hide (land_trans rfl hm)
    | (split
       all_goals try (rename_i heq
                      have h2 := congrArg Prod.snd heq
                      have h1 := congrArg Prod.fst heq
                      dsimp only at h1 h2
                      subst h1 h2
                      clear heq))
    | dsimp only [Lock.count]
    | dsimp +zetaDelta only

theorem Dev.commitBits_hide {m : Nat} (hm : 6442450944 &&& m = 6442450944) {x : Dev} (s : Dev) (off : Nat) (mask : Word)
    (h : Dev.hide m s = x) : Dev.hide m (Dev.commitBits s off mask) = x := by
  unfold Dev.commitBits
  repeat' first
    | with_reducible assumption
    | intro _
    | extract_lets
    | with_reducible apply hide_ite
    | with_reducible apply hide_next
    | with_reducible apply Dev.setReg_hide (land_trans rfl hm)
    | (split
       all_goals try (rename_i heq
                      have h2 := congrArg Prod.snd heq
                      have h1 := congrArg Prod.fst heq
                      dsimp only at h1 h2
                      subst h1 h2
                      clear heq))
    | with_reducible apply Dev.hide_upd_32 (land_trans rfl hm)
    | dsimp only [Lock.count]
    | dsimp +zetaDelta only

theorem Dev.commitOsr_hide {m : Nat} (hm : 6845104128 &&& m = 6845104128) {x : Dev} (s : Dev) (b : Nat)
    (h : Dev.hide m s = x) : Dev.hide m (Dev.commitOsr s b) = x := by
  unfold Dev.commitOsr
  repeat' first
    | with_reducible assumption
    | intro _
    | extract_lets
    | with_reducible apply hide_ite
    | with_reducible apply hide_next
    | with_reducible apply Dev.commitBits_hide (land_trans rfl hm)
    | with_reducible apply Dev.modConv_hide (land_trans rfl hm)
    | with_reducible apply Dev.modLane_hide (land_trans rfl hm)
    | with_reducible apply Dev.forEach_hide (land_trans rfl hm)
    | (split
       all_goals try (rename_i heq
                      have h2 := congrArg Prod.snd heq
                      have h1 := congrArg Prod.fst heq
                      dsimp only at h1 h2
                      subst h1 h2
                      clear heq))
    | dsimp only [Lock.count]
    | dsimp +zetaDelta only

theorem Dev.commitBlock_hide {m : Nat} (hm : 6845104129 &&& m = 6845104129) {x : Dev} (s : Dev) (b : Nat)
    (h : Dev.hide m s = x) : Dev.hide m (Dev.commitBlock s b) = x := by
  unfold Dev.commitBlock
  repeat' first
    | with_reducible assumption
    | intro _
    | extract_lets
    | with_reducible apply hide_ite
    | with_reducible apply hide_next
    | with_reducible apply Dev.commitOsr_hide (land_trans rfl hm)
    | with_reducible apply Dev.commitBits_hide (land_trans rfl hm)
    | with_reducible apply Dev.restartWindows_hide (land_trans rfl hm)
    | with_reducible apply Dev.commitReg_hide (land_trans rfl hm)
    | (split
       all_goals try (rename_i heq
                      have h2 := congrArg Prod.snd heq
                      have h1 := congrArg Prod.fst heq
                      dsimp only at h1 h2
                      subst h1 h2
                      clear heq))
    | dsimp only [Lock.count]
    | dsimp +zetaDelta only

theorem Dev.lockCommit_hide {m : Nat} (hm : 32648462849 &&& m = 32648462849) {x : Dev} (s : Dev) (t : Nat) (e : LockEntry)
    (h : Dev.hide m s = x) : Dev.hide m (Dev.lockCommit s t e) = x := by
  unfold Dev.lockCommit
  repeat' first
    | with_reducible assumption
    | intro _
    | extract_lets
    | with_reducible apply hide_ite
    | with_reducible apply hide_next
    | with_reducible apply Dev.commitBlock_hide (land_trans rfl hm)
    | with_reducible apply Dev.commitSlice_hide (land_trans rfl hm)
    | with_reducible apply Dev.commitReg_hide (land_trans rfl hm)
    | with_reducible apply Dev.commitProf_hide (land_trans rfl hm)
    | with_reducible apply Dev.forEach_hide (land_trans rfl hm)
    | (split
       all_goals try (rename_i heq
                      have h2 := congrArg Prod.snd heq
                      have h1 := congrArg Prod.fst heq
                      dsimp only at h1 h2
                      subst h1 h2
                      clear heq))
    | dsimp only [Lock.count]
    | dsimp +zetaDelta only

theorem Dev.basinFreeze_hide {m : Nat} (hm : 281474976710657 &&& m = 281474976710657) {x : Dev} (s : Dev) (post : Nat) (tag : Nat) (time : Nat)
    (h : Dev.hide m s = x) : Dev.hide m (Dev.basinFreeze s post tag time) = x := by
  unfold Dev.basinFreeze
  repeat' first
    | with_reducible assumption
    | intro _
    | extract_lets
    | with_reducible apply hide_ite
    | with_reducible apply hide_next
    | with_reducible apply Dev.bzTrigger_hide (land_trans rfl hm)
    | (split
       all_goals try (rename_i heq
                      have h2 := congrArg Prod.snd heq
                      have h1 := congrArg Prod.fst heq
                      dsimp only at h1 h2
                      subst h1 h2
                      clear heq))
    | dsimp only [Lock.count]
    | dsimp +zetaDelta only

theorem Dev.basinMark_hide {m : Nat} (hm : 281474976710656 &&& m = 281474976710656) {x : Dev} (s : Dev) (code : Nat) (tag : Nat) (time : Nat)
    (h : Dev.hide m s = x) : Dev.hide m (Dev.basinMark s code tag time) = x := by
  unfold Dev.basinMark
  repeat' first
    | with_reducible assumption
    | intro _
    | extract_lets
    | with_reducible apply hide_ite
    | with_reducible apply hide_next
    | with_reducible apply Dev.bzMark_hide (land_trans rfl hm)
    | (split
       all_goals try (rename_i heq
                      have h2 := congrArg Prod.snd heq
                      have h1 := congrArg Prod.fst heq
                      dsimp only at h1 h2
                      subst h1 h2
                      clear heq))
    | dsimp only [Lock.count]
    | dsimp +zetaDelta only

theorem Dev.lockChip_hide {m : Nat} (hm : 576742227280134153 &&& m = 576742227280134153) {x : Dev} (s : Dev) (e : LockEntry)
    (h : Dev.hide m s = x) : Dev.hide m (Dev.lockChip s e) = x := by
  unfold Dev.lockChip
  repeat' first
    | with_reducible assumption
    | intro _
    | extract_lets
    | with_reducible apply hide_ite
    | with_reducible apply hide_next
    | with_reducible apply Dev.basinMark_hide (land_trans rfl hm)
    | with_reducible apply Dev.basinFreeze_hide (land_trans rfl hm)
    | with_reducible apply Dev.bzFull_hide (land_trans rfl hm)
    | with_reducible apply Dev.emit_hide (land_trans rfl hm)
    | (split
       all_goals try (rename_i heq
                      have h2 := congrArg Prod.snd heq
                      have h1 := congrArg Prod.fst heq
                      dsimp only at h1 h2
                      subst h1 h2
                      clear heq))
    | with_reducible apply Dev.hide_upd_3 (land_trans rfl hm)
    | dsimp only [Lock.count]
    | dsimp +zetaDelta only

theorem Dev.lockHalt_hide {m : Nat} (hm : 4096 &&& m = 4096) {x : Dev} (s : Dev) (e : Nat)
    (h : Dev.hide m s = x) : Dev.hide m (Dev.lockHalt s e).2 = x := by
  unfold Dev.lockHalt
  repeat' first
    | with_reducible assumption
    | intro _
    | extract_lets
    | with_reducible apply hide_ite
    | with_reducible apply hide_next
    | with_reducible apply Dev.haltBarge_hide (land_trans rfl hm)
    | (split
       all_goals try (rename_i heq
                      have h2 := congrArg Prod.snd heq
                      have h1 := congrArg Prod.fst heq
                      dsimp only at h1 h2
                      subst h1 h2
                      clear heq))
    | dsimp only [Lock.count]
    | dsimp +zetaDelta only

theorem Dev.twStart_hide {m : Nat} (hm : 19140298416330752 &&& m = 19140298416330752) {x : Dev} (s : Dev) (t : Nat) (n : Nat) (byLock : Bool)
    (h : Dev.hide m s = x) : Dev.hide m (Dev.twStart s t n byLock) = x := by
  unfold Dev.twStart
  repeat' first
    | with_reducible assumption
    | intro _
    | extract_lets
    | with_reducible apply hide_ite
    | with_reducible apply hide_next
    | with_reducible apply Dev.twEnd_hide (land_trans rfl hm)
    | with_reducible apply Dev.modTow_hide (land_trans rfl hm)
    | with_reducible apply Dev.setTow_hide (land_trans rfl hm)
    | (split
       all_goals try (rename_i heq
                      have h2 := congrArg Prod.snd heq
                      have h1 := congrArg Prod.fst heq
                      dsimp only at h1 h2
                      subst h1 h2
                      clear heq))
    | dsimp only [Lock.count]
    | dsimp +zetaDelta only

theorem Dev.towStart_hide {m : Nat} (hm : 19140298416330752 &&& m = 19140298416330752) {x : Dev} (s : Dev) (t : Nat) (n : Nat) (byLock : Bool)
    (h : Dev.hide m s = x) : Dev.hide m (Dev.towStart s t n byLock).2 = x := by
  unfold Dev.towStart
  repeat' first
    | with_reducible assumption
    | intro _
    | extract_lets
    | with_reducible apply hide_ite
    | with_reducible apply hide_next
    | with_reducible apply Dev.twStart_hide (land_trans rfl hm)
    | (split
       all_goals try (rename_i heq
                      have h2 := congrArg Prod.snd heq
                      have h1 := congrArg Prod.fst heq
                      dsimp only at h1 h2
                      subst h1 h2
                      clear heq))
    | dsimp only [Lock.count]
    | dsimp +zetaDelta only

theorem Dev.sliceSetpoint_hide {m : Nat} (hm : 6476005376 &&& m = 6476005376) {x : Dev} (s : Dev) (k : Nat) (v : Nat)
    (h : Dev.hide m s = x) : Dev.hide m (Dev.sliceSetpoint s k v) = x := by
  unfold Dev.sliceSetpoint
  repeat' first
    | with_reducible assumption
    | intro _
    | extract_lets
    | with_reducible apply hide_ite
    | with_reducible apply hide_next
    | with_reducible apply Dev.pendReg_hide (land_trans rfl hm)
    | with_reducible apply Dev.modSlice_hide (land_trans rfl hm)
    | with_reducible apply Dev.commitReg_hide (land_trans rfl hm)
    | (split
       all_goals try (rename_i heq
                      have h2 := congrArg Prod.snd heq
                      have h1 := congrArg Prod.fst heq
                      dsimp only at h1 h2
                      subst h1 h2
                      clear heq))
    | dsimp only [Lock.count]
    | dsimp +zetaDelta only

theorem Dev.auxUrgent_hide {m : Nat} (hm : 536870912 &&& m = 536870912) {x : Dev} (s : Dev) (g : Nat) (a : Nat)
    (h : Dev.hide m s = x) : Dev.hide m (Dev.auxUrgent s g a) = x := by
  unfold Dev.auxUrgent
  repeat' first
    | with_reducible assumption
    | intro _
    | extract_lets
    | with_reducible apply hide_ite
    | with_reducible apply hide_next
    | with_reducible apply Dev.setAux_hide (land_trans rfl hm)
    | (split
       all_goals try (rename_i heq
                      have h2 := congrArg Prod.snd heq
                      have h1 := congrArg Prod.fst heq
                      dsimp only at h1 h2
                      subst h1 h2
                      clear heq))
    | dsimp only [Lock.count]
    | dsimp +zetaDelta only

theorem Dev.chOff_hide {m : Nat} (hm : 702570639013187073 &&& m = 702570639013187073) {x : Dev} (s : Dev) (c : Nat)
    (h : Dev.hide m s = x) : Dev.hide m (Dev.chOff s c).2 = x := by
  unfold Dev.chOff
  repeat' first
    | with_reducible assumption
    | intro _
    | extract_lets
    | with_reducible apply hide_ite
    | with_reducible apply hide_next
    | with_reducible apply Dev.autoNext_hide (land_trans rfl hm)
    | with_reducible apply Dev.goto_hide (land_trans rfl hm)
    | with_reducible apply Dev.modCell_hide (land_trans rfl hm)
    | (split
       all_goals try (rename_i heq
                      have h2 := congrArg Prod.snd heq
                      have h1 := congrArg Prod.fst heq
                      dsimp only at h1 h2
                      subst h1 h2
                      clear heq))
    | dsimp only [Lock.count]
    | dsimp +zetaDelta only

theorem Dev.lockAct_hide {m : Nat} (hm : 703696580292648449 &&& m = 703696580292648449) {x : Dev} (s : Dev) (e : LockEntry) (n : Nat)
    (h : Dev.hide m s = x) : Dev.hide m (Dev.lockAct s e n).2 = x := by
  unfold Dev.lockAct
  repeat' first
    | with_reducible assumption
    | intro _
    | extract_lets
    | with_reducible apply hide_ite
    | with_reducible apply hide_next
    | with_reducible apply Dev.chOff_hide (land_trans rfl hm)
    | with_reducible apply Dev.auxUrgent_hide (land_trans rfl hm)
    | with_reducible apply Dev.sliceSetpoint_hide (land_trans rfl hm)
    | with_reducible apply Dev.towStart_hide (land_trans rfl hm)
    | with_reducible apply Dev.lockHalt_hide (land_trans rfl hm)
    | with_reducible apply Dev.restartWindows_hide (land_trans rfl hm)
    | with_reducible apply Dev.chReset_hide (land_trans rfl hm)
    | with_reducible apply Dev.releaseMoored_hide (land_trans rfl hm)
    | with_reducible apply Dev.chOn_hide (land_trans rfl hm)
    | with_reducible apply Dev.extUpdate_hide (land_trans rfl hm)
    | with_reducible apply Dev.modRegion_hide (land_trans rfl hm)
    | (split
       all_goals try (rename_i heq
                      have h2 := congrArg Prod.snd heq
                      have h1 := congrArg Prod.fst heq
                      dsimp only at h1 h2
                      subst h1 h2
                      clear heq))
    | dsimp only [Lock.count]
    | dsimp +zetaDelta only

theorem Dev.lockFireOne_hide {m : Nat} (hm : 703978055269359369 &&& m = 703978055269359369) {x : Dev} (s : Dev) (t : Nat) (e : LockEntry) (late : Bool)
    (h : Dev.hide m s = x) : Dev.hide m (Dev.lockFireOne s t e late) = x := by
  unfold Dev.lockFireOne
  repeat' first
    | with_reducible assumption
    | intro _
    | extract_lets
    | with_reducible apply hide_ite
    | with_reducible apply hide_next
    | with_reducible apply Dev.lockAct_hide (land_trans rfl hm)
    | with_reducible apply Dev.lockChip_hide (land_trans rfl hm)
    | with_reducible apply Dev.raiseIsland_hide (land_trans rfl hm)
    | with_reducible apply Dev.raise_hide (land_trans rfl hm)
    | with_reducible apply hide_foldl
    | with_reducible apply hide_foldl2
    | with_reducible apply hide_foldl3
    | with_reducible apply hide_foldl4
    | (split
       all_goals try (rename_i heq
                      have h2 := congrArg Prod.snd heq
                      have h1 := congrArg Prod.fst heq
                      dsimp only at h1 h2
                      subst h1 h2
                      clear heq))
    | with_reducible apply Dev.hide_upd_8 (land_trans rfl hm)
    | dsimp only [Lock.count]
    | dsimp +zetaDelta only

theorem Dev.lockLateCopy_hide {m : Nat} (hm : 703978055269359369 &&& m = 703978055269359369) {x : Dev} (s : Dev) (t : Nat) (e : LockEntry)
    (h : Dev.hide m s = x) : Dev.hide m (Dev.lockLateCopy s t e) = x := by
  unfold Dev.lockLateCopy
  repeat' first
    | with_reducible assumption
    | intro _
    | extract_lets
    | with_reducible apply hide_ite
    | with_reducible apply hide_next
    | with_reducible apply Dev.lockFireOne_hide (land_trans rfl hm)
    | with_reducible apply Dev.lockCommit_hide (land_trans rfl hm)
    | with_reducible apply Dev.lockPut_hide (land_trans rfl hm)
    | with_reducible apply Dev.lockLate_hide (land_trans rfl hm)
    | (split
       all_goals try (rename_i heq
                      have h2 := congrArg Prod.snd heq
                      have h1 := congrArg Prod.fst heq
                      dsimp only at h1 h2
                      subst h1 h2
                      clear heq))
    | dsimp only [Lock.count]
    | dsimp +zetaDelta only

theorem execLockFire_hide {m : Nat} (hm : 703978055269359369 &&& m = 703978055269359369) {x : Dev} (t : TableIx) (s : State)
    (h : Dev.hide m s.dev = x) : Dev.hide m ((execLockFire t s).stateOr s).dev = x := by
  unfold execLockFire
  apply State.on_hide
  repeat' first
    | with_reducible assumption
    | intro _
    | extract_lets
    | with_reducible apply hide_ite
    | with_reducible apply hide_next
    | with_reducible apply Dev.lockLateCopy_hide (land_trans rfl hm)
    | with_reducible apply Dev.lockFireOne_hide (land_trans rfl hm)
    | with_reducible apply Dev.lockCommit_hide (land_trans rfl hm)
    | with_reducible apply Dev.lockPut_hide (land_trans rfl hm)
    | with_reducible apply Dev.setLockTable_hide (land_trans rfl hm)
    | with_reducible apply Dev.forEach_hide (land_trans rfl hm)
    | with_reducible apply hide_foldl
    | with_reducible apply hide_foldl2
    | with_reducible apply hide_foldl3
    | with_reducible apply hide_foldl4
    | (split
       all_goals try (rename_i heq
                      have h2 := congrArg Prod.snd heq
                      have h1 := congrArg Prod.fst heq
                      dsimp only at h1 h2
                      subst h1 h2
                      clear heq))
    | dsimp only [Lock.count]
    | dsimp +zetaDelta only

theorem Dev.wake_hide {m : Nat} (hm : 714955537988456065 &&& m = 714955537988456065) {x : Dev} (s : Dev) (n : Nat) (core : Bool) (regions : List Nat)
    (h : Dev.hide m s = x) : Dev.hide m (Dev.wake s n core regions) = x := by
  unfold Dev.wake
  repeat' first
    | with_reducible assumption
    | intro _
    | extract_lets
    | with_reducible apply hide_ite
    | with_reducible apply hide_next
    | with_reducible apply Dev.wakeCore_hide (land_trans rfl hm)
    | with_reducible apply Dev.wakeCause_hide (land_trans rfl hm)
    | with_reducible apply Dev.wakeRegion_hide (land_trans rfl hm)
    | with_reducible apply Dev.forEach_hide (land_trans rfl hm)
    | (split
       all_goals try (rename_i heq
                      have h2 := congrArg Prod.snd heq
                      have h1 := congrArg Prod.fst heq
                      dsimp only at h1 h2
                      subst h1 h2
                      clear heq))
    | dsimp only [Lock.count]
    | dsimp +zetaDelta only

theorem execWake_hide {m : Nat} (hm : 714955537988456065 &&& m = 714955537988456065) {x : Dev} (a0 : WakeSource) (s : State)
    (h : Dev.hide m s.dev = x) : Dev.hide m ((execWake a0 s).stateOr s).dev = x := by
  unfold execWake
  apply State.on_hide
  repeat' first
    | with_reducible assumption
    | intro _
    | extract_lets
    | with_reducible apply hide_ite
    | with_reducible apply hide_next
    | with_reducible apply Dev.wake_hide (land_trans rfl hm)
    | (split
       all_goals try (rename_i heq
                      have h2 := congrArg Prod.snd heq
                      have h1 := congrArg Prod.fst heq
                      dsimp only at h1 h2
                      subst h1 h2
                      clear heq))
    | dsimp only [Lock.count]
    | dsimp +zetaDelta only

theorem Dev.calDone_hide {m : Nat} (hm : 54113564272623616 &&& m = 54113564272623616) {x : Dev} (s : Dev) (n : Nat) (o : Op) (g : Nat) (store : Bool) (r0 : Word) (r1 : Nat)
    (h : Dev.hide m s = x) : Dev.hide m (Dev.calDone s n o g store r0 r1) = x := by
  unfold Dev.calDone
  repeat' first
    | with_reducible assumption
    | intro _
    | extract_lets
    | with_reducible apply hide_ite
    | with_reducible apply hide_next
    | with_reducible apply Dev.opFinish_hide (land_trans rfl hm)
    | with_reducible apply Dev.opBoundary_hide (land_trans rfl hm)
    | (split
       all_goals try (rename_i heq
                      have h2 := congrArg Prod.snd heq
                      have h1 := congrArg Prod.fst heq
                      dsimp only at h1 h2
                      subst h1 h2
                      clear heq))
    | dsimp only [Lock.count]
    | dsimp +zetaDelta only

theorem execEvWindowHoldoffExpiry_hide {m : Nat} (hm : 18014398509485568 &&& m = 18014398509485568) {x : Dev} (a0 : CmpGroup) (s : State)
    (h : Dev.hide m s.dev = x) : Dev.hide m ((execEvWindowHoldoffExpiry a0 s).stateOr s).dev = x := by
  unfold execEvWindowHoldoffExpiry
  apply State.on_hide
  repeat' first
    | with_reducible assumption
    | intro _
    | extract_lets
    | with_reducible apply hide_ite
    | with_reducible apply hide_next
    | with_reducible apply Dev.sendWindow_hide (land_trans rfl hm)
    | with_reducible apply Dev.setWinEv_hide (land_trans rfl hm)
    | (split
       all_goals try (rename_i heq
                      have h2 := congrArg Prod.snd heq
                      have h1 := congrArg Prod.fst heq
                      dsimp only at h1 h2
                      subst h1 h2
                      clear heq))
    | dsimp only [Lock.count]
    | dsimp +zetaDelta only

theorem execMooredOverrun_hide {m : Nat} (hm : 846685936644267521 &&& m = 846685936644267521) {x : Dev} (e : BargeIx) (s : State)
    (h : Dev.hide m s.dev = x) : Dev.hide m ((execMooredOverrun e s).stateOr s).dev = x := by
  unfold execMooredOverrun
  apply State.on_hide
  repeat' first
    | with_reducible assumption
    | intro _
    | extract_lets
    | with_reducible apply hide_ite
    | with_reducible apply hide_next
    | with_reducible apply Dev.occurCentral_hide (land_trans rfl hm)
    | with_reducible apply Dev.irq_hide (land_trans rfl hm)
    | with_reducible apply Dev.setBarge_hide (land_trans rfl hm)
    | (split
       all_goals try (rename_i heq
                      have h2 := congrArg Prod.snd heq
                      have h1 := congrArg Prod.fst heq
                      dsimp only at h1 h2
                      subst h1 h2
                      clear heq))
    | dsimp only [Lock.count]
    | dsimp +zetaDelta only

theorem execExtest_hide {m : Nat} (hm : 524288 &&& m = 524288) {x : Dev} (v : Quad) (s : State)
    (h : Dev.hide m s.dev = x) : Dev.hide m ((execExtest v s).stateOr s).dev = x := by
  unfold execExtest
  apply State.on_hide
  repeat' first
    | with_reducible assumption
    | intro _
    | extract_lets
    | with_reducible apply hide_ite
    | with_reducible apply hide_next
    | (split
       all_goals try (rename_i heq
                      have h2 := congrArg Prod.snd heq
                      have h1 := congrArg Prod.fst heq
                      dsimp only at h1 h2
                      subst h1 h2
                      clear heq))
    | with_reducible apply Dev.hide_upd_19 (land_trans rfl hm)
    | dsimp only [Lock.count]
    | dsimp +zetaDelta only

theorem Dev.replicaStep_hide {m : Nat} (hm : 2432 &&& m = 2432) {x : Dev} (s : Dev) (g : Nat) (n : Int)
    (h : Dev.hide m s = x) : Dev.hide m (Dev.replicaStep s g n) = x := by
  unfold Dev.replicaStep
  repeat' first
    | with_reducible assumption
    | intro _
    | extract_lets
    | with_reducible apply hide_ite
    | with_reducible apply hide_next
    | with_reducible apply Dev.modLockTable_hide (land_trans rfl hm)
    | with_reducible apply Dev.setReplica_hide (land_trans rfl hm)
    | with_reducible apply Dev.modRegion_hide (land_trans rfl hm)
    | (split
       all_goals try (rename_i heq
                      have h2 := congrArg Prod.snd heq
                      have h1 := congrArg Prod.fst heq
                      dsimp only at h1 h2
                      subst h1 h2
                      clear heq))
    | dsimp only [Lock.count]
    | dsimp +zetaDelta only

theorem Dev.replicaAverage_hide {m : Nat} (hm : 702570639013187457 &&& m = 702570639013187457) {x : Dev} (s : Dev) (g : Nat) (mean : Int)
    (h : Dev.hide m s = x) : Dev.hide m (Dev.replicaAverage s g mean) = x := by
  unfold Dev.replicaAverage
  repeat' first
    | with_reducible assumption
    | intro _
    | extract_lets
    | with_reducible apply hide_ite
    | with_reducible apply hide_next
    | with_reducible apply Dev.replicaStep_hide (land_trans rfl hm)
    | with_reducible apply Dev.replicaState_hide (land_trans rfl hm)
    | with_reducible apply Dev.setReplica_hide (land_trans rfl hm)
    | with_reducible apply Dev.modRegion_hide (land_trans rfl hm)
    | (split
       all_goals try (rename_i heq
                      have h2 := congrArg Prod.snd heq
                      have h1 := congrArg Prod.fst heq
                      dsimp only at h1 h2
                      subst h1 h2
                      clear heq))
    | dsimp only [Lock.count]
    | dsimp +zetaDelta only

theorem execDisciplineWord_hide {m : Nat} (hm : 702570639013187457 &&& m = 702570639013187457) {x : Dev} (g : RegionIx) (err : Word) (s : State)
    (h : Dev.hide m s.dev = x) : Dev.hide m ((execDisciplineWord g err s).stateOr s).dev = x := by
  unfold execDisciplineWord
  apply State.on_hide
  repeat' first
    | with_reducible assumption
    | intro _
    | extract_lets
    | with_reducible apply hide_ite
    | with_reducible apply hide_next
    | with_reducible apply Dev.replicaAverage_hide (land_trans rfl hm)
    | with_reducible apply Dev.replicaStep_hide (land_trans rfl hm)
    | with_reducible apply Dev.replicaState_hide (land_trans rfl hm)
    | with_reducible apply Dev.setReplica_hide (land_trans rfl hm)
    | with_reducible apply Dev.modRegion_hide (land_trans rfl hm)
    | (split
       all_goals try (rename_i heq
                      have h2 := congrArg Prod.snd heq
                      have h1 := congrArg Prod.fst heq
                      dsimp only at h1 h2
                      subst h1 h2
                      clear heq))
    | dsimp only [Lock.count]
    | dsimp +zetaDelta only

theorem Dev.dieCheck_hide {m : Nat} (hm : 846685936644267521 &&& m = 846685936644267521) {x : Dev} (s : Dev) (g : Nat) (a : Nat) (src : Nat) (t : Int) (hi : Int) (lo : Int)
    (h : Dev.hide m s = x) : Dev.hide m (Dev.dieCheck s g a src t hi lo) = x := by
  unfold Dev.dieCheck
  repeat' first
    | with_reducible assumption
    | intro _
    | extract_lets
    | with_reducible apply hide_ite
    | with_reducible apply hide_next
    | with_reducible apply Dev.occur_hide (land_trans rfl hm)
    | with_reducible apply Dev.unoccur_hide (land_trans rfl hm)
    | (split
       all_goals try (rename_i heq
                      have h2 := congrArg Prod.snd heq
                      have h1 := congrArg Prod.fst heq
                      dsimp only at h1 h2
                      subst h1 h2
                      clear heq))
    | dsimp only [Lock.count]
    | dsimp +zetaDelta only

theorem Dev.twBus_hide {m : Nat} (hm : 18014398509488128 &&& m = 18014398509488128) {x : Dev} (s : Dev) (t : Nat) (cause : Nat)
    (h : Dev.hide m s = x) : Dev.hide m (Dev.twBus s t cause) = x := by
  unfold Dev.twBus
  repeat' first
    | with_reducible assumption
    | intro _
    | extract_lets
    | with_reducible apply hide_ite
    | with_reducible apply hide_next
    | with_reducible apply Dev.twIrq_hide (land_trans rfl hm)
    | with_reducible apply Dev.twEvent_hide (land_trans rfl hm)
    | (split
       all_goals try (rename_i heq
                      have h2 := congrArg Prod.snd heq
                      have h1 := congrArg Prod.fst heq
                      dsimp only at h1 h2
                      subst h1 h2
                      clear heq))
    | dsimp only [Lock.count]
    | dsimp +zetaDelta only

theorem Dev.twRecovered_hide {m : Nat} (hm : 847811836551110145 &&& m = 847811836551110145) {x : Dev} (s : Dev) (t : Nat) (ok : Bool)
    (h : Dev.hide m s = x) : Dev.hide m (Dev.twRecovered s t ok) = x := by
  unfold Dev.twRecovered
  repeat' first
    | with_reducible assumption
    | intro _
    | extract_lets
    | with_reducible apply hide_ite
    | with_reducible apply hide_next
    | with_reducible apply Dev.twBus_hide (land_trans rfl hm)
    | with_reducible apply Dev.modTow_hide (land_trans rfl hm)
    | with_reducible apply Dev.occur_hide (land_trans rfl hm)
    | (split
       all_goals try (rename_i heq
                      have h2 := congrArg Prod.snd heq
                      have h1 := congrArg Prod.fst heq
                      dsimp only at h1 h2
                      subst h1 h2
                      clear heq))
    | dsimp only [Lock.count]
    | dsimp +zetaDelta only

theorem execRecoveryEnd_hide {m : Nat} (hm : 847811836551110145 &&& m = 847811836551110145) {x : Dev} (t : TowIx) (ok : Bool) (s : State)
    (h : Dev.hide m s.dev = x) : Dev.hide m ((execRecoveryEnd t ok s).stateOr s).dev = x := by
  unfold execRecoveryEnd
  apply State.on_hide
  repeat' first
    | with_reducible assumption
    | intro _
    | extract_lets
    | with_reducible apply hide_ite
    | with_reducible apply hide_next
    | with_reducible apply Dev.twRecovered_hide (land_trans rfl hm)
    | (split
       all_goals try (rename_i heq
                      have h2 := congrArg Prod.snd heq
                      have h1 := congrArg Prod.fst heq
                      dsimp only at h1 h2
                      subst h1 h2
                      clear heq))
    | dsimp only [Lock.count]
    | dsimp +zetaDelta only

theorem Dev.calResult_hide {m : Nat} (hm : 54113568567590912 &&& m = 54113568567590912) {x : Dev} (s : Dev) (n : Nat) (o : Op) (g : Nat) (tindex : Nat) (mode : Nat) (qty : Nat) (aux : Nat) (store : Bool) (ref : Int) (a10 : Int)
    (h : Dev.hide m s = x) : Dev.hide m (Dev.calResult s n o g tindex mode qty aux store ref a10) = x := by
  unfold Dev.calResult
  repeat' first
    | with_reducible assumption
    | intro _
    | extract_lets
    | with_reducible apply hide_ite
    | with_reducible apply hide_next
    | with_reducible apply Dev.calDone_hide (land_trans rfl hm)
    | with_reducible apply Dev.pendReg_hide (land_trans rfl hm)
    | with_reducible apply Dev.opFinish_hide (land_trans rfl hm)
    | (split
       all_goals try (rename_i heq
                      have h2 := congrArg Prod.snd heq
                      have h1 := congrArg Prod.fst heq
                      dsimp only at h1 h2
                      subst h1 h2
                      clear heq))
    | dsimp only [Lock.count]
    | dsimp +zetaDelta only

theorem Dev.calStep_hide {m : Nat} (hm : 54113568567590912 &&& m = 54113568567590912) {x : Dev} (s : Dev) (n : Nat) (o : Op) (tkind : Nat) (tindex : Nat) (mode : Nat) (qty : Nat) (aux : Nat) (store : Bool) (ref : Int) (k : Nat) (sum : Int) (all : Nat) (a13 : StepIn)
    (h : Dev.hide m s = x) : Dev.hide m (Dev.calStep s n o tkind tindex mode qty aux store ref k sum all a13) = x := by
  cases a13 <;> unfold Dev.calStep <;> dsimp only
  case window xf complete =>
    apply hide_ite
    · exact Dev.calResult_hide (land_trans rfl hm) _ _ _ _ _ _ _ _ _ _ _ h
    · apply hide_ite
      · exact Dev.opFinish_hide (land_trans rfl hm) _ _ _ _ _ _ _ h
      · exact Dev.opBoundary_hide (land_trans rfl hm) _ _ _ h
  case none => exact Dev.opBoundary_hide (land_trans rfl hm) _ _ _ h
  all_goals exact h

theorem Dev.deliverDeferred_hide {m : Nat} (hm : 846685936644267521 &&& m = 846685936644267521) {x : Dev} (s : Dev) (g : Nat)
    (h : Dev.hide m s = x) : Dev.hide m (Dev.deliverDeferred s g) = x := by
  unfold Dev.deliverDeferred
  repeat' first
    | with_reducible assumption
    | intro _
    | extract_lets
    | with_reducible apply hide_ite
    | with_reducible apply hide_next
    | with_reducible apply Dev.occurAt_hide (land_trans rfl hm)
    | with_reducible apply Dev.forEach_hide (land_trans rfl hm)
    | with_reducible apply Dev.modColl_hide (land_trans rfl hm)
    | (split
       all_goals try (rename_i heq
                      have h2 := congrArg Prod.snd heq
                      have h1 := congrArg Prod.fst heq
                      dsimp only at h1 h2
                      subst h1 h2
                      clear heq))
    | dsimp only [Lock.count]
    | dsimp +zetaDelta only

theorem Dev.sendChipSafe_hide {m : Nat} (hm : 34359738368 &&& m = 34359738368) {x : Dev} (s : Dev) (g : Nat)
    (h : Dev.hide m s = x) : Dev.hide m (Dev.sendChipSafe s g) = x := by
  unfold Dev.sendChipSafe
  repeat' first
    | with_reducible assumption
    | intro _
    | extract_lets
    | with_reducible apply hide_ite
    | with_reducible apply hide_next
    | with_reducible apply Dev.stand_hide (land_trans rfl hm)
    | with_reducible apply Dev.forEach_hide (land_trans rfl hm)
    | with_reducible apply Dev.modColl_hide (land_trans rfl hm)
    | (split
       all_goals try (rename_i heq
                      have h2 := congrArg Prod.snd heq
                      have h1 := congrArg Prod.fst heq
                      dsimp only at h1 h2
                      subst h1 h2
                      clear heq))
    | dsimp only [Lock.count]
    | dsimp +zetaDelta only

theorem Dev.straitIrq_hide {m : Nat} (hm : 4096 &&& m = 4096) {x : Dev} (s : Dev) (g : Nat)
    (h : Dev.hide m s = x) : Dev.hide m (Dev.straitIrq s g) = x := by
  unfold Dev.straitIrq
  repeat' first
    | with_reducible assumption
    | intro _
    | extract_lets
    | with_reducible apply hide_ite
    | with_reducible apply hide_next
    | with_reducible apply Dev.irqRegion_hide (land_trans rfl hm)
    | (split
       all_goals try (rename_i heq
                      have h2 := congrArg Prod.snd heq
                      have h1 := congrArg Prod.fst heq
                      dsimp only at h1 h2
                      subst h1 h2
                      clear heq))
    | dsimp only [Lock.count]
    | dsimp +zetaDelta only

theorem Dev.straitBack_hide {m : Nat} (hm : 846685936644267521 &&& m = 846685936644267521) {x : Dev} (s : Dev) (g : Nat)
    (h : Dev.hide m s = x) : Dev.hide m (Dev.straitBack s g) = x := by
  unfold Dev.straitBack
  repeat' first
    | with_reducible assumption
    | intro _
    | extract_lets
    | with_reducible apply hide_ite
    | with_reducible apply hide_next
    | with_reducible apply Dev.straitIrq_hide (land_trans rfl hm)
    | with_reducible apply Dev.sendChipSafe_hide (land_trans rfl hm)
    | with_reducible apply Dev.deliverDeferred_hide (land_trans rfl hm)
    | with_reducible apply Dev.extUpdate_hide (land_trans rfl hm)
    | with_reducible apply Dev.unoccur_hide (land_trans rfl hm)
    | with_reducible apply Dev.modRegion_hide (land_trans rfl hm)
    | (split
       all_goals try (rename_i heq
                      have h2 := congrArg Prod.snd heq
                      have h1 := congrArg Prod.fst heq
                      dsimp only at h1 h2
                      subst h1 h2
                      clear heq))
    | dsimp only [Lock.count]
    | dsimp +zetaDelta only

theorem Dev.precheckDone_hide {m : Nat} (hm : 702570639013187073 &&& m = 702570639013187073) {x : Dev} (s : Dev) (c : Nat)
    (h : Dev.hide m s = x) : Dev.hide m (Dev.precheckDone s c) = x := by
  unfold Dev.precheckDone
  repeat' first
    | with_reducible assumption
    | intro _
    | extract_lets
    | with_reducible apply hide_ite
    | with_reducible apply hide_next
    | with_reducible apply Dev.goto_hide (land_trans rfl hm)
    | (split
       all_goals try (rename_i heq
                      have h2 := congrArg Prod.snd heq
                      have h1 := congrArg Prod.fst heq
                      dsimp only at h1 h2
                      subst h1 h2
                      clear heq))
    | dsimp only [Lock.count]
    | dsimp +zetaDelta only

theorem Dev.cellRejoin_hide {m : Nat} (hm : 702570639013187073 &&& m = 702570639013187073) {x : Dev} (s : Dev) (c : Nat)
    (h : Dev.hide m s = x) : Dev.hide m (Dev.cellRejoin s c) = x := by
  unfold Dev.cellRejoin
  repeat' first
    | with_reducible assumption
    | intro _
    | extract_lets
    | with_reducible apply hide_ite
    | with_reducible apply hide_next
    | with_reducible apply Dev.precheckDone_hide (land_trans rfl hm)
    | with_reducible apply Dev.goto_hide (land_trans rfl hm)
    | with_reducible apply Dev.modCell_hide (land_trans rfl hm)
    | (split
       all_goals try (rename_i heq
                      have h2 := congrArg Prod.snd heq
                      have h1 := congrArg Prod.fst heq
                      dsimp only at h1 h2
                      subst h1 h2
                      clear heq))
    | dsimp only [Lock.count]
    | dsimp +zetaDelta only

theorem Dev.lockInsert_hide {m : Nat} (hm : 703978055269359369 &&& m = 703978055269359369) {x : Dev} (s : Dev) (t : Nat)
    (h : Dev.hide m s = x) : Dev.hide m (Dev.lockInsert s t) = x := by
  unfold Dev.lockInsert
  repeat' first
    | with_reducible assumption
    | intro _
    | extract_lets
    | with_reducible apply hide_ite
    | with_reducible apply hide_next
    | with_reducible apply Dev.lockLateCopy_hide (land_trans rfl hm)
    | with_reducible apply Dev.lockPut_hide (land_trans rfl hm)
    | with_reducible apply Dev.modLockTable_hide (land_trans rfl hm)
    | with_reducible apply Dev.raise_hide (land_trans rfl hm)
    | (split
       all_goals try (rename_i heq
                      have h2 := congrArg Prod.snd heq
                      have h1 := congrArg Prod.fst heq
                      dsimp only at h1 h2
                      subst h1 h2
                      clear heq))
    | with_reducible apply Dev.hide_upd_8 (land_trans rfl hm)
    | dsimp only [Lock.count]
    | dsimp +zetaDelta only

theorem Dev.lockRejoin_hide {m : Nat} (hm : 703978055269359369 &&& m = 703978055269359369) {x : Dev} (s : Dev) (g : Nat)
    (h : Dev.hide m s = x) : Dev.hide m (Dev.lockRejoin s g) = x := by
  unfold Dev.lockRejoin
  repeat' first
    | with_reducible assumption
    | intro _
    | extract_lets
    | with_reducible apply hide_ite
    | with_reducible apply hide_next
    | with_reducible apply Dev.lockInsert_hide (land_trans rfl hm)
    | with_reducible apply Dev.setLockTable_hide (land_trans rfl hm)
    | with_reducible apply Dev.forEach_hide (land_trans rfl hm)
    | (split
       all_goals try (rename_i heq
                      have h2 := congrArg Prod.snd heq
                      have h1 := congrArg Prod.fst heq
                      dsimp only at h1 h2
                      subst h1 h2
                      clear heq))
    | with_reducible apply Dev.hide_upd_8 (land_trans rfl hm)
    | dsimp only [Lock.count]
    | dsimp +zetaDelta only

theorem Dev.thawSluice_hide {m : Nat} (hm : 962072676352 &&& m = 962072676352) {x : Dev} (s : Dev) (g : Nat)
    (h : Dev.hide m s = x) : Dev.hide m (Dev.thawSluice s g) = x := by
  unfold Dev.thawSluice
  repeat' first
    | with_reducible assumption
    | intro _
    | extract_lets
    | with_reducible apply hide_ite
    | with_reducible apply hide_next
    | with_reducible apply Dev.modRegion_hide (land_trans rfl hm)
    | (split
       all_goals try (rename_i heq
                      have h2 := congrArg Prod.snd heq
                      have h1 := congrArg Prod.fst heq
                      dsimp only at h1 h2
                      subst h1 h2
                      clear heq))
    | with_reducible apply Dev.hide_upd_37_38_39 (land_trans rfl hm)
    | dsimp only [Lock.count]
    | dsimp +zetaDelta only

theorem Dev.rejoinEvent_hide {m : Nat} (hm : 18014398509481985 &&& m = 18014398509481985) {x : Dev} (s : Dev) (g : Nat)
    (h : Dev.hide m s = x) : Dev.hide m (Dev.rejoinEvent s g) = x := by
  unfold Dev.rejoinEvent
  repeat' first
    | with_reducible assumption
    | intro _
    | extract_lets
    | with_reducible apply hide_ite
    | with_reducible apply hide_next
    | with_reducible apply Dev.drawNat_hide (land_trans rfl hm)
    | with_reducible apply Dev.raise_hide (land_trans rfl hm)
    | (split
       all_goals try (rename_i heq
                      have h2 := congrArg Prod.snd heq
                      have h1 := congrArg Prod.fst heq
                      dsimp only at h1 h2
                      subst h1 h2
                      clear heq))
    | dsimp only [Lock.count]
    | dsimp +zetaDelta only

theorem Dev.rejoin_hide {m : Nat} (hm : 848093930539982601 &&& m = 848093930539982601) {x : Dev} (s : Dev) (g : Nat)
    (h : Dev.hide m s = x) : Dev.hide m (Dev.rejoin s g) = x := by
  unfold Dev.rejoin
  repeat' first
    | with_reducible assumption
    | intro _
    | extract_lets
    | with_reducible apply hide_ite
    | with_reducible apply hide_next
    | with_reducible apply Dev.rejoinEvent_hide (land_trans rfl hm)
    | with_reducible apply Dev.thawSluice_hide (land_trans rfl hm)
    | with_reducible apply Dev.lockRejoin_hide (land_trans rfl hm)
    | with_reducible apply Dev.cellRejoin_hide (land_trans rfl hm)
    | with_reducible apply Dev.regionSafe_hide (land_trans rfl hm)
    | with_reducible apply Dev.emit_hide (land_trans rfl hm)
    | with_reducible apply Dev.modLane_hide (land_trans rfl hm)
    | with_reducible apply Dev.unoccur_hide (land_trans rfl hm)
    | with_reducible apply Dev.forEach_hide (land_trans rfl hm)
    | with_reducible apply Dev.modRegion_hide (land_trans rfl hm)
    | with_reducible apply Dev.modColl_hide (land_trans rfl hm)
    | (split
       all_goals try (rename_i heq
                      have h2 := congrArg Prod.snd heq
                      have h1 := congrArg Prod.fst heq
                      dsimp only at h1 h2
                      subst h1 h2
                      clear heq))
    | with_reducible apply Dev.hide_upd_54 (land_trans rfl hm)
    | with_reducible apply Dev.hide_upd_57 (land_trans rfl hm)
    | dsimp only [Lock.count]
    | dsimp +zetaDelta only

theorem execStraitTraining_hide {m : Nat} (hm : 848093999259459337 &&& m = 848093999259459337) {x : Dev} (g : RegionIx) (s : State)
    (h : Dev.hide m s.dev = x) : Dev.hide m ((execStraitTraining g s).stateOr s).dev = x := by
  unfold execStraitTraining
  apply State.on_hide
  repeat' first
    | with_reducible assumption
    | intro _
    | extract_lets
    | with_reducible apply hide_ite
    | with_reducible apply hide_next
    | with_reducible apply Dev.rejoin_hide (land_trans rfl hm)
    | with_reducible apply Dev.straitBack_hide (land_trans rfl hm)
    | with_reducible apply Dev.unoccur_hide (land_trans rfl hm)
    | with_reducible apply Dev.modRegion_hide (land_trans rfl hm)
    | (split
       all_goals try (rename_i heq
                      have h2 := congrArg Prod.snd heq
                      have h1 := congrArg Prod.fst heq
                      dsimp only at h1 h2
                      subst h1 h2
                      clear heq))
    | dsimp only [Lock.count]
    | dsimp +zetaDelta only

theorem Dev.freezeSluice_hide {m : Nat} (hm : 687194767360 &&& m = 687194767360) {x : Dev} (s : Dev) (g : Nat)
    (h : Dev.hide m s = x) : Dev.hide m (Dev.freezeSluice s g) = x := by
  unfold Dev.freezeSluice
  repeat' first
    | with_reducible assumption
    | intro _
    | extract_lets
    | with_reducible apply hide_ite
    | with_reducible apply hide_next
    | (split
       all_goals try (rename_i heq
                      have h2 := congrArg Prod.snd heq
                      have h1 := congrArg Prod.fst heq
                      dsimp only at h1 h2
                      subst h1 h2
                      clear heq))
    | with_reducible apply Dev.hide_upd_37_39 (land_trans rfl hm)
    | dsimp only [Lock.count]
    | dsimp +zetaDelta only

theorem Dev.centralLoss_hide {m : Nat} (hm : 846686623906143745 &&& m = 846686623906143745) {x : Dev} (s : Dev) (g : Nat) (src : Nat)
    (h : Dev.hide m s = x) : Dev.hide m (Dev.centralLoss s g src) = x := by
  unfold Dev.centralLoss
  repeat' first
    | with_reducible assumption
    | intro _
    | extract_lets
    | with_reducible apply hide_ite
    | with_reducible apply hide_next
    | with_reducible apply Dev.freezeSluice_hide (land_trans rfl hm)
    | with_reducible apply Dev.straitIrq_hide (land_trans rfl hm)
    | with_reducible apply Dev.occur_hide (land_trans rfl hm)
    | with_reducible apply Dev.modConv_hide (land_trans rfl hm)
    | with_reducible apply Dev.forEach_hide (land_trans rfl hm)
    | with_reducible apply Dev.setRegion_hide (land_trans rfl hm)
    | (split
       all_goals try (rename_i heq
                      have h2 := congrArg Prod.snd heq
                      have h1 := congrArg Prod.fst heq
                      dsimp only at h1 h2
                      subst h1 h2
                      clear heq))
    | with_reducible apply Dev.hide_upd_26 (land_trans rfl hm)
    | dsimp only [Lock.count]
    | dsimp +zetaDelta only

theorem Dev.slicesLost_hide {m : Nat} (hm : 18014404985493504 &&& m = 18014404985493504) {x : Dev} (s : Dev) (g : Nat)
    (h : Dev.hide m s = x) : Dev.hide m (Dev.slicesLost s g) = x := by
  unfold Dev.slicesLost
  repeat' first
    | with_reducible assumption
    | intro _
    | extract_lets
    | with_reducible apply hide_ite
    | with_reducible apply hide_next
    | with_reducible apply Dev.lossAction_hide (land_trans rfl hm)
    | with_reducible apply Dev.modSlice_hide (land_trans rfl hm)
    | with_reducible apply Dev.forEach_hide (land_trans rfl hm)
    | (split
       all_goals try (rename_i heq
                      have h2 := congrArg Prod.snd heq
                      have h1 := congrArg Prod.fst heq
                      dsimp only at h1 h2
                      subst h1 h2
                      clear heq))
    | dsimp only [Lock.count]
    | dsimp +zetaDelta only

theorem Dev.lossApplied_hide {m : Nat} (hm : 846685936644267521 &&& m = 846685936644267521) {x : Dev} (s : Dev) (g : Nat)
    (h : Dev.hide m s = x) : Dev.hide m (Dev.lossApplied s g) = x := by
  unfold Dev.lossApplied
  repeat' first
    | with_reducible assumption
    | intro _
    | extract_lets
    | with_reducible apply hide_ite
    | with_reducible apply hide_next
    | with_reducible apply Dev.slicesLost_hide (land_trans rfl hm)
    | with_reducible apply Dev.occur_hide (land_trans rfl hm)
    | with_reducible apply Dev.forEach_hide (land_trans rfl hm)
    | (split
       all_goals try (rename_i heq
                      have h2 := congrArg Prod.snd heq
                      have h1 := congrArg Prod.fst heq
                      dsimp only at h1 h2
                      subst h1 h2
                      clear heq))
    | dsimp only [Lock.count]
    | dsimp +zetaDelta only

theorem Dev.islandLoss_hide {m : Nat} (hm : 846685936644267521 &&& m = 846685936644267521) {x : Dev} (s : Dev) (g : Nat)
    (h : Dev.hide m s = x) : Dev.hide m (Dev.islandLoss s g) = x := by
  unfold Dev.islandLoss
  repeat' first
    | with_reducible assumption
    | intro _
    | extract_lets
    | with_reducible apply hide_ite
    | with_reducible apply hide_next
    | with_reducible apply Dev.lossApplied_hide (land_trans rfl hm)
    | with_reducible apply Dev.replicaState_hide (land_trans rfl hm)
    | with_reducible apply Dev.occur_hide (land_trans rfl hm)
    | with_reducible apply Dev.setRegion_hide (land_trans rfl hm)
    | (split
       all_goals try (rename_i heq
                      have h2 := congrArg Prod.snd heq
                      have h1 := congrArg Prod.fst heq
                      dsimp only at h1 h2
                      subst h1 h2
                      clear heq))
    | dsimp only [Lock.count]
    | dsimp +zetaDelta only

theorem Dev.straitLoss_hide {m : Nat} (hm : 846686623906143745 &&& m = 846686623906143745) {x : Dev} (s : Dev) (g : Nat) (a2 : StraitEnd)
    (h : Dev.hide m s = x) : Dev.hide m (Dev.straitLoss s g a2) = x := by
  unfold Dev.straitLoss
  repeat' first
    | with_reducible assumption
    | intro _
    | extract_lets
    | with_reducible apply hide_ite
    | with_reducible apply hide_next
    | with_reducible apply Dev.islandLoss_hide (land_trans rfl hm)
    | with_reducible apply Dev.centralLoss_hide (land_trans rfl hm)
    | (split
       all_goals try (rename_i heq
                      have h2 := congrArg Prod.snd heq
                      have h1 := congrArg Prod.fst heq
                      dsimp only at h1 h2
                      subst h1 h2
                      clear heq))
    | dsimp only [Lock.count]
    | dsimp +zetaDelta only

theorem execMgmtCommandNack_hide {m : Nat} (hm : 2251799813685248 &&& m = 2251799813685248) {x : Dev} (pec : Bool) (s : State)
    (h : Dev.hide m s.dev = x) : Dev.hide m ((execMgmtCommandNack pec s).stateOr s).dev = x := by
  unfold execMgmtCommandNack
  apply State.on_hide
  repeat' first
    | with_reducible assumption
    | intro _
    | extract_lets
    | with_reducible apply hide_ite
    | with_reducible apply hide_next
    | with_reducible apply Dev.mgPecBad_hide (land_trans rfl hm)
    | with_reducible apply Dev.mgNack_hide (land_trans rfl hm)
    | (split
       all_goals try (rename_i heq
                      have h2 := congrArg Prod.snd heq
                      have h1 := congrArg Prod.fst heq
                      dsimp only at h1 h2
                      subst h1 h2
                      clear heq))
    | dsimp only [Lock.count]
    | dsimp +zetaDelta only

theorem Dev.writeTbAdj_hide {m : Nat} (hm : 2444 &&& m = 2444) {x : Dev} (s : Dev) (v : Word)
    (h : Dev.hide m s = x) : Dev.hide m (Dev.writeTbAdj s v) = x := by
  unfold Dev.writeTbAdj
  repeat' first
    | with_reducible assumption
    | intro _
    | extract_lets
    | with_reducible apply hide_ite
    | with_reducible apply hide_next
    | with_reducible apply Dev.tbStep_hide (land_trans rfl hm)
    | (split
       all_goals try (rename_i heq
                      have h2 := congrArg Prod.snd heq
                      have h1 := congrArg Prod.fst heq
                      dsimp only at h1 h2
                      subst h1 h2
                      clear heq))
    | with_reducible apply Dev.hide_upd_3 (land_trans rfl hm)
    | dsimp only [Lock.count]
    | dsimp +zetaDelta only

theorem execTbAdj_hide {m : Nat} (hm : 2444 &&& m = 2444) {x : Dev} (v : Word) (s : State)
    (h : Dev.hide m s.dev = x) : Dev.hide m ((execTbAdj v s).stateOr s).dev = x := by
  unfold execTbAdj
  apply State.on_hide
  repeat' first
    | with_reducible assumption
    | intro _
    | extract_lets
    | with_reducible apply hide_ite
    | with_reducible apply hide_next
    | with_reducible apply Dev.writeTbAdj_hide (land_trans rfl hm)
    | (split
       all_goals try (rename_i heq
                      have h2 := congrArg Prod.snd heq
                      have h1 := congrArg Prod.fst heq
                      dsimp only at h1 h2
                      subst h1 h2
                      clear heq))
    | dsimp only [Lock.count]
    | dsimp +zetaDelta only

theorem execHandback_hide {m : Nat} (hm : 562949953421312 &&& m = 562949953421312) {x : Dev} (s : State)
    (h : Dev.hide m s.dev = x) : Dev.hide m ((execHandback s).stateOr s).dev = x := by
  unfold execHandback
  apply State.on_hide
  repeat' first
    | with_reducible assumption
    | intro _
    | extract_lets
    | with_reducible apply hide_ite
    | with_reducible apply hide_next
    | with_reducible apply Dev.modRv_hide (land_trans rfl hm)
    | (split
       all_goals try (rename_i heq
                      have h2 := congrArg Prod.snd heq
                      have h1 := congrArg Prod.fst heq
                      dsimp only at h1 h2
                      subst h1 h2
                      clear heq))
    | dsimp only [Lock.count]
    | dsimp +zetaDelta only

theorem Dev.controlWord_hide {m : Nat} (hm : 6442450944 &&& m = 6442450944) {x : Dev} (s : Dev) (k : Nat) (v : Word)
    (h : Dev.hide m s = x) : Dev.hide m (Dev.controlWord s k v) = x := by
  unfold Dev.controlWord
  repeat' first
    | with_reducible assumption
    | intro _
    | extract_lets
    | with_reducible apply hide_ite
    | with_reducible apply hide_next
    | with_reducible apply Dev.pendReg_hide (land_trans rfl hm)
    | with_reducible apply Dev.commitReg_hide (land_trans rfl hm)
    | (split
       all_goals try (rename_i heq
                      have h2 := congrArg Prod.snd heq
                      have h1 := congrArg Prod.fst heq
                      dsimp only at h1 h2
                      subst h1 h2
                      clear heq))
    | dsimp only [Lock.count]
    | dsimp +zetaDelta only

theorem execControlWord_hide {m : Nat} (hm : 6442450944 &&& m = 6442450944) {x : Dev} (k : SliceIx) (v : Word) (s : State)
    (h : Dev.hide m s.dev = x) : Dev.hide m ((execControlWord k v s).stateOr s).dev = x := by
  unfold execControlWord
  apply State.on_hide
  repeat' first
    | with_reducible assumption
    | intro _
    | extract_lets
    | with_reducible apply hide_ite
    | with_reducible apply hide_next
    | with_reducible apply Dev.controlWord_hide (land_trans rfl hm)
    | (split
       all_goals try (rename_i heq
                      have h2 := congrArg Prod.snd heq
                      have h1 := congrArg Prod.fst heq
                      dsimp only at h1 h2
                      subst h1 h2
                      clear heq))
    | dsimp only [Lock.count]
    | dsimp +zetaDelta only

theorem Dev.haltMask_hide {m : Nat} (hm : 4096 &&& m = 4096) {x : Dev} (s : Dev) (mask : DWord)
    (h : Dev.hide m s = x) : Dev.hide m (Dev.haltMask s mask) = x := by
  unfold Dev.haltMask
  repeat' first
    | with_reducible assumption
    | intro _
    | extract_lets
    | with_reducible apply hide_ite
    | with_reducible apply hide_next
    | with_reducible apply Dev.haltBarge_hide (land_trans rfl hm)
    | with_reducible apply Dev.forEach_hide (land_trans rfl hm)
    | (split
       all_goals try (rename_i heq
                      have h2 := congrArg Prod.snd heq
                      have h1 := congrArg Prod.fst heq
                      dsimp only at h1 h2
                      subst h1 h2
                      clear heq))
    | dsimp only [Lock.count]
    | dsimp +zetaDelta only

theorem Dev.dbgHaltReq_hide {m : Nat} (hm : 4096 &&& m = 4096) {x : Dev} (s : Dev) (mask : DWord)
    (h : Dev.hide m s = x) : Dev.hide m (Dev.dbgHaltReq s mask) = x := by
  unfold Dev.dbgHaltReq
  repeat' first
    | with_reducible assumption
    | intro _
    | extract_lets
    | with_reducible apply hide_ite
    | with_reducible apply hide_next
    | with_reducible apply Dev.haltMask_hide (land_trans rfl hm)
    | (split
       all_goals try (rename_i heq
                      have h2 := congrArg Prod.snd heq
                      have h1 := congrArg Prod.fst heq
                      dsimp only at h1 h2
                      subst h1 h2
                      clear heq))
    | dsimp only [Lock.count]
    | dsimp +zetaDelta only

theorem execFcInject_hide {m : Nat} (hm : 714990756720287361 &&& m = 714990756720287361) {x : Dev} (d : Desc) (s : State)
    (h : Dev.hide m s.dev = x) : Dev.hide m ((execFcInject d s).stateOr s).dev = x := by
  unfold execFcInject
  apply State.on_hide
  repeat' first
    | with_reducible assumption
    | intro _
    | extract_lets
    | with_reducible apply hide_ite
    | with_reducible apply hide_next
    | with_reducible apply Dev.inject_hide (land_trans rfl hm)
    | with_reducible apply Dev.cmd_hide (land_trans rfl hm)
    | with_reducible apply Dev.fail_hide (land_trans rfl hm)
    | with_reducible apply Dev.reply_hide (land_trans rfl hm)
    | (split
       all_goals try (rename_i heq
                      have h2 := congrArg Prod.snd heq
                      have h1 := congrArg Prod.fst heq
                      dsimp only at h1 h2
                      subst h1 h2
                      clear heq))
    | dsimp only [Lock.count]
    | dsimp +zetaDelta only

theorem execRvWdKick_hide {m : Nat} (hm : 847248886597688833 &&& m = 847248886597688833) {x : Dev} (s : State)
    (h : Dev.hide m s.dev = x) : Dev.hide m ((execRvWdKick s).stateOr s).dev = x := by
  unfold execRvWdKick
  apply State.on_hide
  repeat' first
    | with_reducible assumption
    | intro _
    | extract_lets
    | with_reducible apply hide_ite
    | with_reducible apply hide_next
    | with_reducible apply Dev.rvKick_hide (land_trans rfl hm)
    | (split
       all_goals try (rename_i heq
                      have h2 := congrArg Prod.snd heq
                      have h1 := congrArg Prod.fst heq
                      dsimp only at h1 h2
                      subst h1 h2
                      clear heq))
    | dsimp only [Lock.count]
    | dsimp +zetaDelta only

theorem execSyncPulseEnd_hide {m : Nat} (hm : 8 &&& m = 8) {x : Dev} (s : State)
    (h : Dev.hide m s.dev = x) : Dev.hide m ((execSyncPulseEnd s).stateOr s).dev = x := by
  unfold execSyncPulseEnd
  apply State.on_hide
  repeat' first
    | with_reducible assumption
    | intro _
    | extract_lets
    | with_reducible apply hide_ite
    | with_reducible apply hide_next
    | (split
       all_goals try (rename_i heq
                      have h2 := congrArg Prod.snd heq
                      have h1 := congrArg Prod.fst heq
                      dsimp only at h1 h2
                      subst h1 h2
                      clear heq))
    | with_reducible apply Dev.hide_upd_3 (land_trans rfl hm)
    | dsimp only [Lock.count]
    | dsimp +zetaDelta only

theorem execLockInsert_hide {m : Nat} (hm : 703978055269359369 &&& m = 703978055269359369) {x : Dev} (t : TableIx) (s : State)
    (h : Dev.hide m s.dev = x) : Dev.hide m ((execLockInsert t s).stateOr s).dev = x := by
  unfold execLockInsert
  apply State.on_hide
  repeat' first
    | with_reducible assumption
    | intro _
    | extract_lets
    | with_reducible apply hide_ite
    | with_reducible apply hide_next
    | with_reducible apply Dev.lockInsert_hide (land_trans rfl hm)
    | (split
       all_goals try (rename_i heq
                      have h2 := congrArg Prod.snd heq
                      have h1 := congrArg Prod.fst heq
                      dsimp only at h1 h2
                      subst h1 h2
                      clear heq))
    | dsimp only [Lock.count]
    | dsimp +zetaDelta only

theorem Dev.linkTrain_hide {m : Nat} (hm : 35184372088832 &&& m = 35184372088832) {x : Dev} (s : Dev)
    (h : Dev.hide m s = x) : Dev.hide m (Dev.linkTrain s) = x := by
  unfold Dev.linkTrain
  repeat' first
    | with_reducible assumption
    | intro _
    | extract_lets
    | with_reducible apply hide_ite
    | with_reducible apply hide_next
    | (split
       all_goals try (rename_i heq
                      have h2 := congrArg Prod.snd heq
                      have h1 := congrArg Prod.fst heq
                      dsimp only at h1 h2
                      subst h1 h2
                      clear heq))
    | with_reducible apply Dev.hide_upd_45 (land_trans rfl hm)
    | dsimp only [Lock.count]
    | dsimp +zetaDelta only

theorem execPerstNRelease_hide {m : Nat} (hm : 35184372088832 &&& m = 35184372088832) {x : Dev} (s : State)
    (h : Dev.hide m s.dev = x) : Dev.hide m ((execPerstNRelease s).stateOr s).dev = x := by
  unfold execPerstNRelease
  apply State.on_hide
  repeat' first
    | with_reducible assumption
    | intro _
    | extract_lets
    | with_reducible apply hide_ite
    | with_reducible apply hide_next
    | with_reducible apply Dev.linkTrain_hide (land_trans rfl hm)
    | (split
       all_goals try (rename_i heq
                      have h2 := congrArg Prod.snd heq
                      have h1 := congrArg Prod.fst heq
                      dsimp only at h1 h2
                      subst h1 h2
                      clear heq))
    | with_reducible apply Dev.hide_upd_45 (land_trans rfl hm)
    | dsimp only [Lock.count]
    | dsimp +zetaDelta only

end Sys2Proof.Machine
end

