-- ==== Sys2Proof/Laws/FrameD.lean ====
section
/-! SUPPORT. Frames of the operations and the meanings, in the order they call each other: which parts of the device each
changes at most. File 4 of 7. -/

set_option linter.unreachableTactic false
set_option linter.unusedTactic false

namespace Sys2Proof.Machine

theorem Dev.dbgGrant_hide {m : Nat} (hm : 262144 &&& m = 262144) {x : Dev} (s : Dev) (on : Bool)
    (h : Dev.hide m s = x) : Dev.hide m (Dev.dbgGrant s on) = x := by
  unfold Dev.dbgGrant
  repeat' first
    | with_reducible assumption
    | intro _
    | extract_lets
    | with_reducible apply hide_ite
    | with_reducible apply hide_next
    | with_reducible apply Dev.modDbg_hide (land_trans rfl hm)
    | (split
       all_goals try (rename_i heq
                      have h2 := congrArg Prod.snd heq
                      have h1 := congrArg Prod.fst heq
                      dsimp only at h1 h2
                      subst h1 h2
                      clear heq))
    | dsimp only [Lock.count]
    | dsimp +zetaDelta only

theorem Dev.msixFlush_hide {m : Nat} (hm : 576495936675512320 &&& m = 576495936675512320) {x : Dev} (s : Dev) (l : List Nat)
    (h : Dev.hide m s = x) : Dev.hide m (Dev.msixFlush s l) = x := by
  unfold Dev.msixFlush
  repeat' first
    | with_reducible assumption
    | intro _
    | extract_lets
    | with_reducible apply hide_ite
    | with_reducible apply hide_next
    | with_reducible apply Dev.sendMsix_hide (land_trans rfl hm)
    | with_reducible apply Dev.setPending_hide (land_trans rfl hm)
    | with_reducible apply Dev.forEach_hide (land_trans rfl hm)
    | (split
       all_goals try (rename_i heq
                      have h2 := congrArg Prod.snd heq
                      have h1 := congrArg Prod.fst heq
                      dsimp only at h1 h2
                      subst h1 h2
                      clear heq))
    | dsimp only [Lock.count]
    | dsimp +zetaDelta only

theorem execMsixUnmask_hide {m : Nat} (hm : 576495936675512320 &&& m = 576495936675512320) {x : Dev} (v : Option (BitVec 11)) (s : State)
    (h : Dev.hide m s.dev = x) : Dev.hide m ((execMsixUnmask v s).stateOr s).dev = x := by
  unfold execMsixUnmask
  apply State.on_hide
  repeat' first
    | with_reducible assumption
    | intro _
    | extract_lets
    | with_reducible apply hide_ite
    | with_reducible apply hide_next
    | with_reducible apply Dev.msixFlush_hide (land_trans rfl hm)
    | (split
       all_goals try (rename_i heq
                      have h2 := congrArg Prod.snd heq
                      have h1 := congrArg Prod.fst heq
                      dsimp only at h1 h2
                      subst h1 h2
                      clear heq))
    | with_reducible apply Dev.hide_upd_45 (land_trans rfl hm)
    | dsimp only [Lock.count]
    | dsimp +zetaDelta only

theorem execTrendRead_hide {m : Nat} (hm : 612524733694476288 &&& m = 612524733694476288) {x : Dev} (d : Desc) (bufOk : Bool) (s : State)
    (h : Dev.hide m s.dev = x) : Dev.hide m ((execTrendRead d bufOk s).stateOr s).dev = x := by
  unfold execTrendRead
  apply State.on_hide
  repeat' first
    | with_reducible assumption
    | intro _
    | extract_lets
    | with_reducible apply hide_ite
    | with_reducible apply hide_next
    | with_reducible apply Dev.bufReply_hide (land_trans rfl hm)
    | with_reducible apply Dev.fail_hide (land_trans rfl hm)
    | (split
       all_goals try (rename_i heq
                      have h2 := congrArg Prod.snd heq
                      have h1 := congrArg Prod.fst heq
                      dsimp only at h1 h2
                      subst h1 h2
                      clear heq))
    | dsimp only [Lock.count]
    | dsimp +zetaDelta only

theorem Dev.tickReplicas_hide {m : Nat} (hm : 2048 &&& m = 2048) {x : Dev} (s : Dev) (d : Int)
    (h : Dev.hide m s = x) : Dev.hide m (Dev.tickReplicas s d) = x := by
  unfold Dev.tickReplicas
  repeat' first
    | with_reducible assumption
    | intro _
    | extract_lets
    | with_reducible apply hide_ite
    | with_reducible apply hide_next
    | (split
       all_goals try (rename_i heq
                      have h2 := congrArg Prod.snd heq
                      have h1 := congrArg Prod.fst heq
                      dsimp only at h1 h2
                      subst h1 h2
                      clear heq))
    | with_reducible apply Dev.hide_upd_11 (land_trans rfl hm)
    | dsimp only [Lock.count]
    | dsimp +zetaDelta only

theorem Dev.tick_hide {m : Nat} (hm : 9007199254743054 &&& m = 9007199254743054) {x : Dev} (s : Dev)
    (h : Dev.hide m s = x) : Dev.hide m (Dev.tick s) = x := by
  unfold Dev.tick
  repeat' first
    | with_reducible assumption
    | intro _
    | extract_lets
    | with_reducible apply hide_ite
    | with_reducible apply hide_next
    | with_reducible apply Dev.tickReplicas_hide (land_trans rfl hm)
    | (split
       all_goals try (rename_i heq
                      have h2 := congrArg Prod.snd heq
                      have h1 := congrArg Prod.fst heq
                      dsimp only at h1 h2
                      subst h1 h2
                      clear heq))
    | with_reducible apply Dev.hide_upd_1 (land_trans rfl hm)
    | with_reducible apply Dev.hide_upd_53 (land_trans rfl hm)
    | with_reducible apply Dev.hide_upd_2_3 (land_trans rfl hm)
    | dsimp only [Lock.count]
    | dsimp +zetaDelta only

theorem Dev.flashWrite_hide {m : Nat} (hm : 32768 &&& m = 32768) {x : Dev} (s : Dev) (phys : Nat) (l : List Byte)
    (h : Dev.hide m s = x) : Dev.hide m (Dev.flashWrite s phys l) = x := by
  unfold Dev.flashWrite
  repeat' first
    | with_reducible assumption
    | intro _
    | extract_lets
    | with_reducible apply hide_ite
    | with_reducible apply hide_next
    | with_reducible apply hide_foldl
    | with_reducible apply hide_foldl2
    | with_reducible apply hide_foldl3
    | with_reducible apply hide_foldl4
    | (split
       all_goals try (rename_i heq
                      have h2 := congrArg Prod.snd heq
                      have h1 := congrArg Prod.fst heq
                      dsimp only at h1 h2
                      subst h1 h2
                      clear heq))
    | with_reducible apply Dev.hide_upd_15 (land_trans rfl hm)
    | dsimp only [Lock.count]
    | dsimp +zetaDelta only

theorem execFlashProg_hide {m : Nat} (hm : 576460752303718400 &&& m = 576460752303718400) {x : Dev} (space : Byte) (addr : Word) (words : List Word) (s : State)
    (h : Dev.hide m s.dev = x) : Dev.hide m ((execFlashProg space addr words s).stateOr s).dev = x := by
  unfold execFlashProg
  apply State.on_hide
  repeat' first
    | with_reducible assumption
    | intro _
    | extract_lets
    | with_reducible apply hide_ite
    | with_reducible apply hide_next
    | with_reducible apply Dev.flashWrite_hide (land_trans rfl hm)
    | with_reducible apply Dev.ndlReq_hide (land_trans rfl hm)
    | with_reducible apply Dev.ndlFault_hide (land_trans rfl hm)
    | with_reducible apply Dev.ndl_hide (land_trans rfl hm)
    | (split
       all_goals try (rename_i heq
                      have h2 := congrArg Prod.snd heq
                      have h1 := congrArg Prod.fst heq
                      dsimp only at h1 h2
                      subst h1 h2
                      clear heq))
    | dsimp only [Lock.count]
    | dsimp +zetaDelta only

theorem Dev.memStore_hide {m : Nat} (hm : 28672 &&& m = 28672) {x : Dev} (s : Dev) (e : Nat) (a : Nat) (n : Nat) (v : Nat)
    (h : Dev.hide m s = x) : Dev.hide m (Dev.memStore s e a n v) = x := by
  unfold Dev.memStore
  repeat' first
    | with_reducible assumption
    | intro _
    | extract_lets
    | with_reducible apply hide_ite
    | with_reducible apply hide_next
    | with_reducible apply Dev.modBarge_hide (land_trans rfl hm)
    | (split
       all_goals try (rename_i heq
                      have h2 := congrArg Prod.snd heq
                      have h1 := congrArg Prod.fst heq
                      dsimp only at h1 h2
                      subst h1 h2
                      clear heq))
    | with_reducible apply Dev.hide_upd_14 (land_trans rfl hm)
    | with_reducible apply Dev.hide_upd_13 (land_trans rfl hm)
    | dsimp only [Lock.count]
    | dsimp +zetaDelta only

theorem Dev.debugIram_hide {m : Nat} (hm : 28672 &&& m = 28672) {x : Dev} (s : Dev) (e : Nat) (a : Nat) (v : Word)
    (h : Dev.hide m s = x) : Dev.hide m (Dev.debugIram s e a v) = x := by
  unfold Dev.debugIram
  repeat' first
    | with_reducible assumption
    | intro _
    | extract_lets
    | with_reducible apply hide_ite
    | with_reducible apply hide_next
    | with_reducible apply Dev.memStore_hide (land_trans rfl hm)
    | with_reducible apply Dev.modBarge_hide (land_trans rfl hm)
    | (split
       all_goals try (rename_i heq
                      have h2 := congrArg Prod.snd heq
                      have h1 := congrArg Prod.fst heq
                      dsimp only at h1 h2
                      subst h1 h2
                      clear heq))
    | dsimp only [Lock.count]
    | dsimp +zetaDelta only

theorem execTripHoldExpiry_hide {m : Nat} (hm : 576469548396448256 &&& m = 576469548396448256) {x : Dev} (c : CellIx) (s : State)
    (h : Dev.hide m s.dev = x) : Dev.hide m ((execTripHoldExpiry c s).stateOr s).dev = x := by
  unfold execTripHoldExpiry
  apply State.on_hide
  repeat' first
    | with_reducible assumption
    | intro _
    | extract_lets
    | with_reducible apply hide_ite
    | with_reducible apply hide_next
    | with_reducible apply Dev.extUpdate_hide (land_trans rfl hm)
    | with_reducible apply Dev.withBcast_hide (land_trans rfl hm)
    | with_reducible apply Dev.modCell_hide (land_trans rfl hm)
    | (split
       all_goals try (rename_i heq
                      have h2 := congrArg Prod.snd heq
                      have h1 := congrArg Prod.fst heq
                      dsimp only at h1 h2
                      subst h1 h2
                      clear heq))
    | dsimp only [Lock.count]
    | dsimp +zetaDelta only

theorem Dev.sliceFault_hide {m : Nat} (hm : 18014398543042560 &&& m = 18014398543042560) {x : Dev} (s : Dev) (k : Nat) (level : Bool)
    (h : Dev.hide m s = x) : Dev.hide m (Dev.sliceFault s k level) = x := by
  unfold Dev.sliceFault
  repeat' first
    | with_reducible assumption
    | intro _
    | extract_lets
    | with_reducible apply hide_ite
    | with_reducible apply hide_next
    | with_reducible apply Dev.modSlice_hide (land_trans rfl hm)
    | with_reducible apply Dev.cutUpdate_hide (land_trans rfl hm)
    | (split
       all_goals try (rename_i heq
                      have h2 := congrArg Prod.snd heq
                      have h1 := congrArg Prod.fst heq
                      dsimp only at h1 h2
                      subst h1 h2
                      clear heq))
    | dsimp only [Lock.count]
    | dsimp +zetaDelta only

theorem execReservationRelease_hide {m : Nat} (hm : 412316860416 &&& m = 412316860416) {x : Dev} (c : CellIx) (s : State)
    (h : Dev.hide m s.dev = x) : Dev.hide m ((execReservationRelease c s).stateOr s).dev = x := by
  unfold execReservationRelease
  apply State.on_hide
  repeat' first
    | with_reducible assumption
    | intro _
    | extract_lets
    | with_reducible apply hide_ite
    | with_reducible apply hide_next
    | (split
       all_goals try (rename_i heq
                      have h2 := congrArg Prod.snd heq
                      have h1 := congrArg Prod.fst heq
                      dsimp only at h1 h2
                      subst h1 h2
                      clear heq))
    | with_reducible apply Dev.hide_upd_37_38 (land_trans rfl hm)
    | dsimp only [Lock.count]
    | dsimp +zetaDelta only

theorem Dev.ctxWrite_hide {m : Nat} (hm : 576495936675512320 &&& m = 576495936675512320) {x : Dev} (s : Dev) (r : Nat)
    (h : Dev.hide m s = x) : Dev.hide m (Dev.ctxWrite s r) = x := by
  unfold Dev.ctxWrite
  repeat' first
    | with_reducible assumption
    | intro _
    | extract_lets
    | with_reducible apply hide_ite
    | with_reducible apply hide_next
    | with_reducible apply Dev.emit_hide (land_trans rfl hm)
    | (split
       all_goals try (rename_i heq
                      have h2 := congrArg Prod.snd heq
                      have h1 := congrArg Prod.fst heq
                      dsimp only at h1 h2
                      subst h1 h2
                      clear heq))
    | with_reducible apply Dev.hide_upd_45 (land_trans rfl hm)
    | dsimp only [Lock.count]
    | dsimp +zetaDelta only

theorem Dev.ctxInsert_hide {m : Nat} (hm : 576495936675512320 &&& m = 576495936675512320) {x : Dev} (s : Dev) (r : Nat)
    (h : Dev.hide m s = x) : Dev.hide m (Dev.ctxInsert s r) = x := by
  unfold Dev.ctxInsert
  repeat' first
    | with_reducible assumption
    | intro _
    | extract_lets
    | with_reducible apply hide_ite
    | with_reducible apply hide_next
    | with_reducible apply Dev.ctxWrite_hide (land_trans rfl hm)
    | with_reducible apply Dev.ctxUse_hide (land_trans rfl hm)
    | (split
       all_goals try (rename_i heq
                      have h2 := congrArg Prod.snd heq
                      have h1 := congrArg Prod.fst heq
                      dsimp only at h1 h2
                      subst h1 h2
                      clear heq))
    | with_reducible apply Dev.hide_upd_45 (land_trans rfl hm)
    | dsimp only [Lock.count]
    | dsimp +zetaDelta only

theorem Dev.buildAdmin_hide {m : Nat} (hm : 576495936675512320 &&& m = 576495936675512320) {x : Dev} (s : Dev)
    (h : Dev.hide m s = x) : Dev.hide m (Dev.buildAdmin s) = x := by
  unfold Dev.buildAdmin
  repeat' first
    | with_reducible assumption
    | intro _
    | extract_lets
    | with_reducible apply hide_ite
    | with_reducible apply hide_next
    | with_reducible apply Dev.ctxInsert_hide (land_trans rfl hm)
    | with_reducible apply Dev.ctxWrite_hide (land_trans rfl hm)
    | with_reducible apply Dev.setRing_hide (land_trans rfl hm)
    | (split
       all_goals try (rename_i heq
                      have h2 := congrArg Prod.snd heq
                      have h1 := congrArg Prod.fst heq
                      dsimp only at h1 h2
                      subst h1 h2
                      clear heq))
    | with_reducible apply Dev.hide_upd_45 (land_trans rfl hm)
    | dsimp only [Lock.count]
    | dsimp +zetaDelta only

theorem Dev.lvChan_hide {m : Nat} (hm : 714955537989504641 &&& m = 714955537989504641) {x : Dev} (s : Dev) (n : Nat) (op : Nat) (native : Nat) (f : Dev → Nat → CmdRes × Dev) (h_f : ∀ u0 u1 y, Dev.hide m u0 = y → Dev.hide m (f u0 u1).2 = y)
    (h : Dev.hide m s = x) : Dev.hide m ((Dev.lvChan s n op native f).devOr s) = x := by
  unfold Dev.lvChan
  repeat' first
    | with_reducible assumption
    | intro _
    | extract_lets
    | with_reducible apply hide_ite
    | with_reducible apply hide_next
    | with_reducible apply Dev.mailbox_hide (land_trans rfl hm)
    | with_reducible apply Dev.chanRun_hide (land_trans rfl hm)
    | with_reducible apply h_f
    | (split
       all_goals try (rename_i heq
                      have h2 := congrArg Prod.snd heq
                      have h1 := congrArg Prod.fst heq
                      dsimp only at h1 h2
                      subst h1 h2
                      clear heq))
    | dsimp only [Lock.count]
    | dsimp +zetaDelta only

theorem execLvOn_hide {m : Nat} (hm : 714955537989504641 &&& m = 714955537989504641) {x : Dev} (n : BlockIx) (s : State)
    (h : Dev.hide m s.dev = x) : Dev.hide m ((execLvOn n s).stateOr s).dev = x := by
  unfold execLvOn
  apply State.on_hide
  repeat' first
    | with_reducible assumption
    | intro _
    | extract_lets
    | with_reducible apply hide_ite
    | with_reducible apply hide_next
    | with_reducible apply Dev.lvChan_hide (land_trans rfl hm)
    | with_reducible apply Dev.chOn_hide (land_trans rfl hm)
    | (split
       all_goals try (rename_i heq
                      have h2 := congrArg Prod.snd heq
                      have h1 := congrArg Prod.fst heq
                      dsimp only at h1 h2
                      subst h1 h2
                      clear heq))
    | dsimp only [Lock.count]
    | dsimp +zetaDelta only

theorem Dev.twSample_hide {m : Nat} (hm : 1125899906842624 &&& m = 1125899906842624) {x : Dev} (s : Dev) (t : Nat) (sda : Bool)
    (h : Dev.hide m s = x) : Dev.hide m (Dev.twSample s t sda) = x := by
  unfold Dev.twSample
  repeat' first
    | with_reducible assumption
    | intro _
    | extract_lets
    | with_reducible apply hide_ite
    | with_reducible apply hide_next
    | with_reducible apply Dev.modTow_hide (land_trans rfl hm)
    | (split
       all_goals try (rename_i heq
                      have h2 := congrArg Prod.snd heq
                      have h1 := congrArg Prod.fst heq
                      dsimp only at h1 h2
                      subst h1 h2
                      clear heq))
    | dsimp only [Lock.count]
    | dsimp +zetaDelta only

theorem execSclLowTimeout_hide {m : Nat} (hm : 19140298416330752 &&& m = 19140298416330752) {x : Dev} (t : TowIx) (rx : List Byte) (sda : Bool) (s : State)
    (h : Dev.hide m s.dev = x) : Dev.hide m ((execSclLowTimeout t rx sda s).stateOr s).dev = x := by
  unfold execSclLowTimeout
  apply State.on_hide
  repeat' first
    | with_reducible assumption
    | intro _
    | extract_lets
    | with_reducible apply hide_ite
    | with_reducible apply hide_next
    | with_reducible apply Dev.twSample_hide (land_trans rfl hm)
    | with_reducible apply Dev.twBus_hide (land_trans rfl hm)
    | with_reducible apply Dev.twEnd_hide (land_trans rfl hm)
    | with_reducible apply Dev.towStore_hide (land_trans rfl hm)
    | with_reducible apply Dev.modTow_hide (land_trans rfl hm)
    | (split
       all_goals try (rename_i heq
                      have h2 := congrArg Prod.snd heq
                      have h1 := congrArg Prod.fst heq
                      dsimp only at h1 h2
                      subst h1 h2
                      clear heq))
    | dsimp only [Lock.count]
    | dsimp +zetaDelta only

theorem execProfileRead_hide {m : Nat} (hm : 714990722360544897 &&& m = 714990722360544897) {x : Dev} (d : Desc) (bufOk : Bool) (s : State)
    (h : Dev.hide m s.dev = x) : Dev.hide m ((execProfileRead d bufOk s).stateOr s).dev = x := by
  unfold execProfileRead
  apply State.on_hide
  repeat' first
    | with_reducible assumption
    | intro _
    | extract_lets
    | with_reducible apply hide_ite
    | with_reducible apply hide_next
    | with_reducible apply Dev.bufReply_hide (land_trans rfl hm)
    | with_reducible apply Dev.cmd_hide (land_trans rfl hm)
    | with_reducible apply Dev.fail_hide (land_trans rfl hm)
    | with_reducible apply hide_foldl
    | with_reducible apply hide_foldl2
    | with_reducible apply hide_foldl3
    | with_reducible apply hide_foldl4
    | (split
       all_goals try (rename_i heq
                      have h2 := congrArg Prod.snd heq
                      have h1 := congrArg Prod.fst heq
                      dsimp only at h1 h2
                      subst h1 h2
                      clear heq))
    | dsimp only [Lock.count]
    | dsimp +zetaDelta only

theorem Dev.eccCorrected_hide {m : Nat} (hm : 846685936644267521 &&& m = 846685936644267521) {x : Dev} (s : Dev) (e : Nat)
    (h : Dev.hide m s = x) : Dev.hide m (Dev.eccCorrected s e) = x := by
  unfold Dev.eccCorrected
  repeat' first
    | with_reducible assumption
    | intro _
    | extract_lets
    | with_reducible apply hide_ite
    | with_reducible apply hide_next
    | with_reducible apply Dev.occurCentral_hide (land_trans rfl hm)
    | with_reducible apply Dev.modBarge_hide (land_trans rfl hm)
    | (split
       all_goals try (rename_i heq
                      have h2 := congrArg Prod.snd heq
                      have h1 := congrArg Prod.fst heq
                      dsimp only at h1 h2
                      subst h1 h2
                      clear heq))
    | dsimp only [Lock.count]
    | dsimp +zetaDelta only

theorem execSenseOpen_hide {m : Nat} (hm : 702570639013187073 &&& m = 702570639013187073) {x : Dev} (c : CellIx) (also : BitVec 16) (s : State)
    (h : Dev.hide m s.dev = x) : Dev.hide m ((execSenseOpen c also s).stateOr s).dev = x := by
  unfold execSenseOpen
  apply State.on_hide
  repeat' first
    | with_reducible assumption
    | intro _
    | extract_lets
    | with_reducible apply hide_ite
    | with_reducible apply hide_next
    | with_reducible apply Dev.checkFires_hide (land_trans rfl hm)
    | (split
       all_goals try (rename_i heq
                      have h2 := congrArg Prod.snd heq
                      have h1 := congrArg Prod.fst heq
                      dsimp only at h1 h2
                      subst h1 h2
                      clear heq))
    | dsimp only [Lock.count]
    | dsimp +zetaDelta only

theorem execOutUv_hide {m : Nat} (hm : 702570639013187073 &&& m = 702570639013187073) {x : Dev} (c : CellIx) (also : BitVec 16) (s : State)
    (h : Dev.hide m s.dev = x) : Dev.hide m ((execOutUv c also s).stateOr s).dev = x := by
  unfold execOutUv
  apply State.on_hide
  repeat' first
    | with_reducible assumption
    | intro _
    | extract_lets
    | with_reducible apply hide_ite
    | with_reducible apply hide_next
    | with_reducible apply Dev.checkFires_hide (land_trans rfl hm)
    | (split
       all_goals try (rename_i heq
                      have h2 := congrArg Prod.snd heq
                      have h1 := congrArg Prod.fst heq
                      dsimp only at h1 h2
                      subst h1 h2
                      clear heq))
    | dsimp only [Lock.count]
    | dsimp +zetaDelta only

theorem Dev.pushMailbox_hide {m : Nat} (hm : 1052672 &&& m = 1052672) {x : Dev} (s : Dev) (q : Nat)
    (h : Dev.hide m s = x) : Dev.hide m (Dev.pushMailbox s q) = x := by
  unfold Dev.pushMailbox
  repeat' first
    | with_reducible assumption
    | intro _
    | extract_lets
    | with_reducible apply hide_ite
    | with_reducible apply hide_next
    | with_reducible apply Dev.modBarge_hide (land_trans rfl hm)
    | (split
       all_goals try (rename_i heq
                      have h2 := congrArg Prod.snd heq
                      have h1 := congrArg Prod.fst heq
                      dsimp only at h1 h2
                      subst h1 h2
                      clear heq))
    | with_reducible apply Dev.hide_upd_20 (land_trans rfl hm)
    | dsimp only [Lock.count]
    | dsimp +zetaDelta only

theorem Dev.pushHeld_hide {m : Nat} (hm : 35184373141504 &&& m = 35184373141504) {x : Dev} (s : Dev) (q : Nat)
    (h : Dev.hide m s = x) : Dev.hide m (Dev.pushHeld s q) = x := by
  unfold Dev.pushHeld
  repeat' first
    | with_reducible assumption
    | intro _
    | extract_lets
    | with_reducible apply hide_ite
    | with_reducible apply hide_next
    | with_reducible apply Dev.pushMailbox_hide (land_trans rfl hm)
    | with_reducible apply Dev.modBarge_hide (land_trans rfl hm)
    | (split
       all_goals try (rename_i heq
                      have h2 := congrArg Prod.snd heq
                      have h1 := congrArg Prod.fst heq
                      dsimp only at h1 h2
                      subst h1 h2
                      clear heq))
    | with_reducible apply Dev.hide_upd_45 (land_trans rfl hm)
    | dsimp only [Lock.count]
    | dsimp +zetaDelta only

theorem execComparatorCrossing_hide {m : Nat} (hm : 1536 &&& m = 1536) {x : Dev} (a0 : CmpSel) (l : CmpLevel) (s : State)
    (h : Dev.hide m s.dev = x) : Dev.hide m ((execComparatorCrossing a0 l s).stateOr s).dev = x := by
  unfold execComparatorCrossing
  apply State.on_hide
  repeat' first
    | with_reducible assumption
    | intro _
    | extract_lets
    | with_reducible apply hide_ite
    | with_reducible apply hide_next
    | with_reducible apply Dev.setCmp_hide (land_trans rfl hm)
    | (split
       all_goals try (rename_i heq
                      have h2 := congrArg Prod.snd heq
                      have h1 := congrArg Prod.fst heq
                      dsimp only at h1 h2
                      subst h1 h2
                      clear heq))
    | dsimp only [Lock.count]
    | dsimp +zetaDelta only

theorem Dev.svWrite_hide {m : Nat} (hm : 846685936644267521 &&& m = 846685936644267521) {x : Dev} (s : Dev) (v : Word)
    (h : Dev.hide m s = x) : Dev.hide m (Dev.svWrite s v) = x := by
  unfold Dev.svWrite
  repeat' first
    | with_reducible assumption
    | intro _
    | extract_lets
    | with_reducible apply hide_ite
    | with_reducible apply hide_next
    | with_reducible apply Dev.cfgIgnored_hide (land_trans rfl hm)
    | with_reducible apply Dev.setReg_hide (land_trans rfl hm)
    | (split
       all_goals try (rename_i heq
                      have h2 := congrArg Prod.snd heq
                      have h1 := congrArg Prod.fst heq
                      dsimp only at h1 h2
                      subst h1 h2
                      clear heq))
    | dsimp only [Lock.count]
    | dsimp +zetaDelta only

theorem Dev.writeDiscCfg_hide {m : Nat} (hm : 18014400656965640 &&& m = 18014400656965640) {x : Dev} (s : Dev) (v : Word)
    (h : Dev.hide m s = x) : Dev.hide m (Dev.writeDiscCfg s v) = x := by
  unfold Dev.writeDiscCfg
  repeat' first
    | with_reducible assumption
    | intro _
    | extract_lets
    | with_reducible apply hide_ite
    | with_reducible apply hide_next
    | with_reducible apply Dev.tbGoto_hide (land_trans rfl hm)
    | with_reducible apply Dev.setReg_hide (land_trans rfl hm)
    | (split
       all_goals try (rename_i heq
                      have h2 := congrArg Prod.snd heq
                      have h1 := congrArg Prod.fst heq
                      dsimp only at h1 h2
                      subst h1 h2
                      clear heq))
    | with_reducible apply Dev.hide_upd_3 (land_trans rfl hm)
    | dsimp only [Lock.count]
    | dsimp +zetaDelta only

theorem Dev.bounceEvent_hide {m : Nat} (hm : 18577348462907392 &&& m = 18577348462907392) {x : Dev} (s : Dev)
    (h : Dev.hide m s = x) : Dev.hide m (Dev.bounceEvent s) = x := by
  unfold Dev.bounceEvent
  repeat' first
    | with_reducible assumption
    | intro _
    | extract_lets
    | with_reducible apply hide_ite
    | with_reducible apply hide_next
    | with_reducible apply Dev.modRv_hide (land_trans rfl hm)
    | with_reducible apply Dev.irqAll_hide (land_trans rfl hm)
    | with_reducible apply Dev.raise_hide (land_trans rfl hm)
    | (split
       all_goals try (rename_i heq
                      have h2 := congrArg Prod.snd heq
                      have h1 := congrArg Prod.fst heq
                      dsimp only at h1 h2
                      subst h1 h2
                      clear heq))
    | dsimp only [Lock.count]
    | dsimp +zetaDelta only

theorem execReserveWdExpiry_hide {m : Nat} (hm : 847248886597688833 &&& m = 847248886597688833) {x : Dev} (s : State)
    (h : Dev.hide m s.dev = x) : Dev.hide m ((execReserveWdExpiry s).stateOr s).dev = x := by
  unfold execReserveWdExpiry
  apply State.on_hide
  repeat' first
    | with_reducible assumption
    | intro _
    | extract_lets
    | with_reducible apply hide_ite
    | with_reducible apply hide_next
    | with_reducible apply Dev.rvLive_hide (land_trans rfl hm)
    | with_reducible apply Dev.modRv_hide (land_trans rfl hm)
    | (split
       all_goals try (rename_i heq
                      have h2 := congrArg Prod.snd heq
                      have h1 := congrArg Prod.fst heq
                      dsimp only at h1 h2
                      subst h1 h2
                      clear heq))
    | dsimp only [Lock.count]
    | dsimp +zetaDelta only

theorem execDepletedDisconnect_hide {m : Nat} (hm : 562949953421312 &&& m = 562949953421312) {x : Dev} (s : State)
    (h : Dev.hide m s.dev = x) : Dev.hide m ((execDepletedDisconnect s).stateOr s).dev = x := by
  unfold execDepletedDisconnect
  apply State.on_hide
  repeat' first
    | with_reducible assumption
    | intro _
    | extract_lets
    | with_reducible apply hide_ite
    | with_reducible apply hide_next
    | with_reducible apply Dev.modRv_hide (land_trans rfl hm)
    | (split
       all_goals try (rename_i heq
                      have h2 := congrArg Prod.snd heq
                      have h1 := congrArg Prod.fst heq
                      dsimp only at h1 h2
                      subst h1 h2
                      clear heq))
    | dsimp only [Lock.count]
    | dsimp +zetaDelta only

theorem Dev.badAccess_hide {m : Nat} (hm : 8388608 &&& m = 8388608) {x : Dev} (s : Dev)
    (h : Dev.hide m s = x) : Dev.hide m (Dev.badAccess s) = x := by
  unfold Dev.badAccess
  repeat' first
    | with_reducible assumption
    | intro _
    | extract_lets
    | with_reducible apply hide_ite
    | with_reducible apply hide_next
    | (split
       all_goals try (rename_i heq
                      have h2 := congrArg Prod.snd heq
                      have h1 := congrArg Prod.fst heq
                      dsimp only at h1 h2
                      subst h1 h2
                      clear heq))
    | with_reducible apply Dev.hide_upd_23 (land_trans rfl hm)
    | dsimp only [Lock.count]
    | dsimp +zetaDelta only

theorem Dev.resumeBarge_hide {m : Nat} (hm : 4096 &&& m = 4096) {x : Dev} (s : Dev) (e : Nat)
    (h : Dev.hide m s = x) : Dev.hide m (Dev.resumeBarge s e) = x := by
  unfold Dev.resumeBarge
  repeat' first
    | with_reducible assumption
    | intro _
    | extract_lets
    | with_reducible apply hide_ite
    | with_reducible apply hide_next
    | with_reducible apply Dev.modBarge_hide (land_trans rfl hm)
    | (split
       all_goals try (rename_i heq
                      have h2 := congrArg Prod.snd heq
                      have h1 := congrArg Prod.fst heq
                      dsimp only at h1 h2
                      subst h1 h2
                      clear heq))
    | dsimp only [Lock.count]
    | dsimp +zetaDelta only

theorem Dev.resumeMask_hide {m : Nat} (hm : 4096 &&& m = 4096) {x : Dev} (s : Dev) (mask : DWord)
    (h : Dev.hide m s = x) : Dev.hide m (Dev.resumeMask s mask) = x := by
  unfold Dev.resumeMask
  repeat' first
    | with_reducible assumption
    | intro _
    | extract_lets
    | with_reducible apply hide_ite
    | with_reducible apply hide_next
    | with_reducible apply Dev.resumeBarge_hide (land_trans rfl hm)
    | with_reducible apply Dev.forEach_hide (land_trans rfl hm)
    | (split
       all_goals try (rename_i heq
                      have h2 := congrArg Prod.snd heq
                      have h1 := congrArg Prod.fst heq
                      dsimp only at h1 h2
                      subst h1 h2
                      clear heq))
    | dsimp only [Lock.count]
    | dsimp +zetaDelta only

theorem Dev.irqClr_hide {m : Nat} (hm : 4096 &&& m = 4096) {x : Dev} (s : Dev) (e : Nat) (v : DWord)
    (h : Dev.hide m s = x) : Dev.hide m (Dev.irqClr s e v) = x := by
  unfold Dev.irqClr
  repeat' first
    | with_reducible assumption
    | intro _
    | extract_lets
    | with_reducible apply hide_ite
    | with_reducible apply hide_next
    | with_reducible apply Dev.modBarge_hide (land_trans rfl hm)
    | (split
       all_goals try (rename_i heq
                      have h2 := congrArg Prod.snd heq
                      have h1 := congrArg Prod.fst heq
                      dsimp only at h1 h2
                      subst h1 h2
                      clear heq))
    | dsimp only [Lock.count]
    | dsimp +zetaDelta only

theorem execIrqClr_hide {m : Nat} (hm : 4096 &&& m = 4096) {x : Dev} (e : BargeIx) (v : DWord) (s : State)
    (h : Dev.hide m s.dev = x) : Dev.hide m ((execIrqClr e v s).stateOr s).dev = x := by
  unfold execIrqClr
  apply State.on_hide
  repeat' first
    | with_reducible assumption
    | intro _
    | extract_lets
    | with_reducible apply hide_ite
    | with_reducible apply hide_next
    | with_reducible apply Dev.irqClr_hide (land_trans rfl hm)
    | (split
       all_goals try (rename_i heq
                      have h2 := congrArg Prod.snd heq
                      have h1 := congrArg Prod.fst heq
                      dsimp only at h1 h2
                      subst h1 h2
                      clear heq))
    | dsimp only [Lock.count]
    | dsimp +zetaDelta only

theorem Dev.answerLoad_hide {m : Nat} (hm : 4096 &&& m = 4096) {x : Dev} (s : Dev) (e : Nat) (l : LoadEnt) (rest : List LoadEnt) (d : Nat)
    (h : Dev.hide m s = x) : Dev.hide m (Dev.answerLoad s e l rest d) = x := by
  unfold Dev.answerLoad
  repeat' first
    | with_reducible assumption
    | intro _
    | extract_lets
    | with_reducible apply hide_ite
    | with_reducible apply hide_next
    | with_reducible apply Dev.haltSettle_hide (land_trans rfl hm)
    | with_reducible apply Dev.modBarge_hide (land_trans rfl hm)
    | (split
       all_goals try (rename_i heq
                      have h2 := congrArg Prod.snd heq
                      have h1 := congrArg Prod.fst heq
                      dsimp only at h1 h2
                      subst h1 h2
                      clear heq))
    | dsimp only [Lock.count]
    | dsimp +zetaDelta only

theorem execDataLineFill_hide {m : Nat} (hm : 4096 &&& m = 4096) {x : Dev} (e : BargeIx) (s : State)
    (h : Dev.hide m s.dev = x) : Dev.hide m ((execDataLineFill e s).stateOr s).dev = x := by
  unfold execDataLineFill
  apply State.on_hide
  repeat' first
    | with_reducible assumption
    | intro _
    | extract_lets
    | with_reducible apply hide_ite
    | with_reducible apply hide_next
    | with_reducible apply Dev.answerLoad_hide (land_trans rfl hm)
    | with_reducible apply Dev.modBarge_hide (land_trans rfl hm)
    | (split
       all_goals try (rename_i heq
                      have h2 := congrArg Prod.snd heq
                      have h1 := congrArg Prod.fst heq
                      dsimp only at h1 h2
                      subst h1 h2
                      clear heq))
    | dsimp only [Lock.count]
    | dsimp +zetaDelta only

theorem Dev.ringCmd_hide {m : Nat} (hm : 36063981391052800 &&& m = 36063981391052800) {x : Dev} (s : Dev) (d : Desc) (op : Nat) (masks : List Nat) (f : Dev → Nat → Dev) (h_f : ∀ u0 u1 y, Dev.hide m u0 = y → Dev.hide m (f u0 u1) = y)
    (h : Dev.hide m s = x) : Dev.hide m ((Dev.ringCmd s d op masks f).devOr s) = x := by
  unfold Dev.ringCmd
  repeat' first
    | with_reducible assumption
    | intro _
    | extract_lets
    | with_reducible apply hide_ite
    | with_reducible apply hide_next
    | with_reducible apply Dev.fail_hide (land_trans rfl hm)
    | with_reducible apply h_f
    | (split
       all_goals try (rename_i heq
                      have h2 := congrArg Prod.snd heq
                      have h1 := congrArg Prod.fst heq
                      dsimp only at h1 h2
                      subst h1 h2
                      clear heq))
    | dsimp only [Lock.count]
    | dsimp +zetaDelta only

theorem execRingDestroy_hide {m : Nat} (hm : 612524735841959936 &&& m = 612524735841959936) {x : Dev} (d : Desc) (s : State)
    (h : Dev.hide m s.dev = x) : Dev.hide m ((execRingDestroy d s).stateOr s).dev = x := by
  unfold execRingDestroy
  apply State.on_hide
  repeat' first
    | with_reducible assumption
    | intro _
    | extract_lets
    | with_reducible apply hide_ite
    | with_reducible apply hide_next
    | with_reducible apply Dev.ringCmd_hide (land_trans rfl hm)
    | with_reducible apply Dev.ctxWrite_hide (land_trans rfl hm)
    | with_reducible apply Dev.setRing_hide (land_trans rfl hm)
    | with_reducible apply Dev.fail_hide (land_trans rfl hm)
    | with_reducible apply Dev.reply_hide (land_trans rfl hm)
    | with_reducible apply Dev.putReg_hide (land_trans rfl hm)
    | with_reducible apply Dev.forEach_hide (land_trans rfl hm)
    | (split
       all_goals try (rename_i heq
                      have h2 := congrArg Prod.snd heq
                      have h1 := congrArg Prod.fst heq
                      dsimp only at h1 h2
                      subst h1 h2
                      clear heq))
    | with_reducible apply Dev.hide_upd_45 (land_trans rfl hm)
    | dsimp only [Lock.count]
    | dsimp +zetaDelta only

theorem execCpFail_hide {m : Nat} (hm : 846685936644267521 &&& m = 846685936644267521) {x : Dev} (b : BlockIx) (cell : Option (Fin 8)) (s : State)
    (h : Dev.hide m s.dev = x) : Dev.hide m ((execCpFail b cell s).stateOr s).dev = x := by
  unfold execCpFail
  apply State.on_hide
  repeat' first
    | with_reducible assumption
    | intro _
    | extract_lets
    | with_reducible apply hide_ite
    | with_reducible apply hide_next
    | with_reducible apply Dev.occur_hide (land_trans rfl hm)
    | with_reducible apply Dev.modCell_hide (land_trans rfl hm)
    | with_reducible apply Dev.modBlock_hide (land_trans rfl hm)
    | with_reducible apply Dev.forEach_hide (land_trans rfl hm)
    | (split
       all_goals try (rename_i heq
                      have h2 := congrArg Prod.snd heq
                      have h1 := congrArg Prod.fst heq
                      dsimp only at h1 h2
                      subst h1 h2
                      clear heq))
    | dsimp only [Lock.count]
    | dsimp +zetaDelta only

theorem Dev.commandToken_hide {m : Nat} (hm : 1 &&& m = 1) {x : Dev} (s : Dev) (xRegion : Bool)
    (h : Dev.hide m s = x) : Dev.hide m (Dev.commandToken s xRegion).2 = x := by
  unfold Dev.commandToken
  repeat' first
    | with_reducible assumption
    | intro _
    | extract_lets
    | with_reducible apply hide_ite
    | with_reducible apply hide_next
    | with_reducible apply Dev.drawWord_hide (land_trans rfl hm)
    | (split
       all_goals try (rename_i heq
                      have h2 := congrArg Prod.snd heq
                      have h1 := congrArg Prod.fst heq
                      dsimp only at h1 h2
                      subst h1 h2
                      clear heq))
    | dsimp only [Lock.count]
    | dsimp +zetaDelta only

theorem execCommandAdmit_hide {m : Nat} (hm : 36063981391056897 &&& m = 36063981391056897) {x : Dev} (ring : RingIx) (s : State)
    (h : Dev.hide m s.dev = x) : Dev.hide m ((execCommandAdmit ring s).stateOr s).dev = x := by
  unfold execCommandAdmit
  apply State.on_hide
  repeat' first
    | with_reducible assumption
    | intro _
    | extract_lets
    | with_reducible apply hide_ite
    | with_reducible apply hide_next
    | with_reducible apply Dev.commandToken_hide (land_trans rfl hm)
    | with_reducible apply Dev.pushToken_hide (land_trans rfl hm)
    | with_reducible apply Dev.complete_hide (land_trans rfl hm)
    | (split
       all_goals try (rename_i heq
                      have h2 := congrArg Prod.snd heq
                      have h1 := congrArg Prod.fst heq
                      dsimp only at h1 h2
                      subst h1 h2
                      clear heq))
    | with_reducible apply Dev.hide_upd_45 (land_trans rfl hm)
    | dsimp only [Lock.count]
    | dsimp +zetaDelta only

theorem Dev.windowFail_hide {m : Nat} (hm : 4194304 &&& m = 4194304) {x : Dev} (s : Dev) (g : Nat)
    (h : Dev.hide m s = x) : Dev.hide m (Dev.windowFail s g) = x := by
  unfold Dev.windowFail
  repeat' first
    | with_reducible assumption
    | intro _
    | extract_lets
    | with_reducible apply hide_ite
    | with_reducible apply hide_next
    | (split
       all_goals try (rename_i heq
                      have h2 := congrArg Prod.snd heq
                      have h1 := congrArg Prod.fst heq
                      dsimp only at h1 h2
                      subst h1 h2
                      clear heq))
    | with_reducible apply Dev.hide_upd_22 (land_trans rfl hm)
    | dsimp only [Lock.count]
    | dsimp +zetaDelta only

theorem Dev.rsvdWrite_hide {m : Nat} (hm : 16777216 &&& m = 16777216) {x : Dev} (s : Dev)
    (h : Dev.hide m s = x) : Dev.hide m (Dev.rsvdWrite s) = x := by
  unfold Dev.rsvdWrite
  repeat' first
    | with_reducible assumption
    | intro _
    | extract_lets
    | with_reducible apply hide_ite
    | with_reducible apply hide_next
    | (split
       all_goals try (rename_i heq
                      have h2 := congrArg Prod.snd heq
                      have h1 := congrArg Prod.fst heq
                      dsimp only at h1 h2
                      subst h1 h2
                      clear heq))
    | with_reducible apply Dev.hide_upd_24 (land_trans rfl hm)
    | dsimp only [Lock.count]
    | dsimp +zetaDelta only

theorem Dev.rejoinRequest_hide {m : Nat} (hm : 2048 &&& m = 2048) {x : Dev} (s : Dev) (g : Nat)
    (h : Dev.hide m s = x) : Dev.hide m (Dev.rejoinRequest s g) = x := by
  unfold Dev.rejoinRequest
  repeat' first
    | with_reducible assumption
    | intro _
    | extract_lets
    | with_reducible apply hide_ite
    | with_reducible apply hide_next
    | with_reducible apply Dev.modRegion_hide (land_trans rfl hm)
    | (split
       all_goals try (rename_i heq
                      have h2 := congrArg Prod.snd heq
                      have h1 := congrArg Prod.fst heq
                      dsimp only at h1 h2
                      subst h1 h2
                      clear heq))
    | dsimp only [Lock.count]
    | dsimp +zetaDelta only

theorem Dev.storeWord_hide {m : Nat} (hm : 6442450944 &&& m = 6442450944) {x : Dev} (s : Dev) (off : Nat) (v : Word)
    (h : Dev.hide m s = x) : Dev.hide m (Dev.storeWord s off v) = x := by
  unfold Dev.storeWord
  repeat' first
    | with_reducible assumption
    | intro _
    | extract_lets
    | with_reducible apply hide_ite
    | with_reducible apply hide_next
    | with_reducible apply Dev.pendReg_hide (land_trans rfl hm)
    | with_reducible apply Dev.setReg_hide (land_trans rfl hm)
    | (split
       all_goals try (rename_i heq
                      have h2 := congrArg Prod.snd heq
                      have h1 := congrArg Prod.fst heq
                      dsimp only at h1 h2
                      subst h1 h2
                      clear heq))
    | dsimp only [Lock.count]
    | dsimp +zetaDelta only

theorem Dev.autonomyWrite_hide {m : Nat} (hm : 6442452992 &&& m = 6442452992) {x : Dev} (s : Dev) (g : Nat) (v : Word)
    (h : Dev.hide m s = x) : Dev.hide m (Dev.autonomyWrite s g v) = x := by
  unfold Dev.autonomyWrite
  repeat' first
    | with_reducible assumption
    | intro _
    | extract_lets
    | with_reducible apply hide_ite
    | with_reducible apply hide_next
    | with_reducible apply Dev.storeWord_hide (land_trans rfl hm)
    | with_reducible apply Dev.rejoinRequest_hide (land_trans rfl hm)
    | with_reducible apply Dev.modRegion_hide (land_trans rfl hm)
    | (split
       all_goals try (rename_i heq
                      have h2 := congrArg Prod.snd heq
                      have h1 := congrArg Prod.fst heq
                      dsimp only at h1 h2
                      subst h1 h2
                      clear heq))
    | dsimp only [Lock.count]
    | dsimp +zetaDelta only

theorem Dev.resetSlices_hide {m : Nat} (hm : 100663296 &&& m = 100663296) {x : Dev} (s : Dev) (g : Nat)
    (h : Dev.hide m s = x) : Dev.hide m (Dev.resetSlices s g) = x := by
  unfold Dev.resetSlices
  repeat' first
    | with_reducible assumption
    | intro _
    | extract_lets
    | with_reducible apply hide_ite
    | with_reducible apply hide_next
    | (split
       all_goals try (rename_i heq
                      have h2 := congrArg Prod.snd heq
                      have h1 := congrArg Prod.fst heq
                      dsimp only at h1 h2
                      subst h1 h2
                      clear heq))
    | with_reducible apply Dev.hide_upd_25_26 (land_trans rfl hm)
    | dsimp only [Lock.count]
    | dsimp +zetaDelta only

theorem Dev.islandReset_hide {m : Nat} (hm : 19140366028513152 &&& m = 19140366028513152) {x : Dev} (s : Dev) (g : Nat)
    (h : Dev.hide m s = x) : Dev.hide m (Dev.islandReset s g) = x := by
  unfold Dev.islandReset
  repeat' first
    | with_reducible assumption
    | intro _
    | extract_lets
    | with_reducible apply hide_ite
    | with_reducible apply hide_next
    | with_reducible apply Dev.resetSlices_hide (land_trans rfl hm)
    | with_reducible apply Dev.modLockTable_hide (land_trans rfl hm)
    | with_reducible apply Dev.dropRegs_hide (land_trans rfl hm)
    | with_reducible apply Dev.extUpdate_hide (land_trans rfl hm)
    | with_reducible apply Dev.modCell_hide (land_trans rfl hm)
    | with_reducible apply Dev.modBlock_hide (land_trans rfl hm)
    | with_reducible apply Dev.modConv_hide (land_trans rfl hm)
    | with_reducible apply Dev.unoccur_hide (land_trans rfl hm)
    | with_reducible apply Dev.forEach_hide (land_trans rfl hm)
    | with_reducible apply Dev.setRegion_hide (land_trans rfl hm)
    | with_reducible apply Dev.modColl_hide (land_trans rfl hm)
    | (split
       all_goals try (rename_i heq
                      have h2 := congrArg Prod.snd heq
                      have h1 := congrArg Prod.fst heq
                      dsimp only at h1 h2
                      subst h1 h2
                      clear heq))
    | with_reducible apply Dev.hide_upd_7_27_29_33_34_50 (land_trans rfl hm)
    | dsimp only [Lock.count]
    | dsimp +zetaDelta only

theorem Dev.regionReset_hide {m : Nat} (hm : 847811837155090305 &&& m = 847811837155090305) {x : Dev} (s : Dev) (g : Nat)
    (h : Dev.hide m s = x) : Dev.hide m (Dev.regionReset s g) = x := by
  unfold Dev.regionReset
  repeat' first
    | with_reducible assumption
    | intro _
    | extract_lets
    | with_reducible apply hide_ite
    | with_reducible apply hide_next
    | with_reducible apply Dev.islandReset_hide (land_trans rfl hm)
    | with_reducible apply Dev.occur_hide (land_trans rfl hm)
    | (split
       all_goals try (rename_i heq
                      have h2 := congrArg Prod.snd heq
                      have h1 := congrArg Prod.fst heq
                      dsimp only at h1 h2
                      subst h1 h2
                      clear heq))
    | dsimp only [Lock.count]
    | dsimp +zetaDelta only

theorem Dev.regionEn_hide {m : Nat} (hm : 846685936644267521 &&& m = 846685936644267521) {x : Dev} (s : Dev) (g : Nat) (en : Bool)
    (h : Dev.hide m s = x) : Dev.hide m (Dev.regionEn s g en) = x := by
  unfold Dev.regionEn
  repeat' first
    | with_reducible assumption
    | intro _
    | extract_lets
    | with_reducible apply hide_ite
    | with_reducible apply hide_next
    | with_reducible apply Dev.occur_hide (land_trans rfl hm)
    | with_reducible apply Dev.putReg_hide (land_trans rfl hm)
    | (split
       all_goals try (rename_i heq
                      have h2 := congrArg Prod.snd heq
                      have h1 := congrArg Prod.fst heq
                      dsimp only at h1 h2
                      subst h1 h2
                      clear heq))
    | dsimp only [Lock.count]
    | dsimp +zetaDelta only

theorem Dev.rgnCtrlWrite_hide {m : Nat} (hm : 847811837155090305 &&& m = 847811837155090305) {x : Dev} (s : Dev) (g : Nat) (v : Word)
    (h : Dev.hide m s = x) : Dev.hide m (Dev.rgnCtrlWrite s g v) = x := by
  unfold Dev.rgnCtrlWrite
  repeat' first
    | with_reducible assumption
    | intro _
    | extract_lets
    | with_reducible apply hide_ite
    | with_reducible apply hide_next
    | with_reducible apply Dev.regionEn_hide (land_trans rfl hm)
    | with_reducible apply Dev.regionReset_hide (land_trans rfl hm)
    | with_reducible apply Dev.putReg_hide (land_trans rfl hm)
    | (split
       all_goals try (rename_i heq
                      have h2 := congrArg Prod.snd heq
                      have h1 := congrArg Prod.fst heq
                      dsimp only at h1 h2
                      subst h1 h2
                      clear heq))
    | dsimp only [Lock.count]
    | dsimp +zetaDelta only

theorem Dev.centralWrite_hide {m : Nat} (hm : 847811837155090305 &&& m = 847811837155090305) {x : Dev} (s : Dev) (g : Nat) (o : Nat) (v : Word)
    (h : Dev.hide m s = x) : Dev.hide m (Dev.centralWrite s g o v) = x := by
  unfold Dev.centralWrite
  repeat' first
    | with_reducible assumption
    | intro _
    | extract_lets
    | with_reducible apply hide_ite
    | with_reducible apply hide_next
    | with_reducible apply Dev.rgnCtrlWrite_hide (land_trans rfl hm)
    | with_reducible apply Dev.autonomyWrite_hide (land_trans rfl hm)
    | with_reducible apply Dev.modRegion_hide (land_trans rfl hm)
    | (split
       all_goals try (rename_i heq
                      have h2 := congrArg Prod.snd heq
                      have h1 := congrArg Prod.fst heq
                      dsimp only at h1 h2
                      subst h1 h2
                      clear heq))
    | dsimp only [Lock.count]
    | dsimp +zetaDelta only

theorem Dev.dbgResumeReq_hide {m : Nat} (hm : 4096 &&& m = 4096) {x : Dev} (s : Dev) (mask : DWord)
    (h : Dev.hide m s = x) : Dev.hide m (Dev.dbgResumeReq s mask) = x := by
  unfold Dev.dbgResumeReq
  repeat' first
    | with_reducible assumption
    | intro _
    | extract_lets
    | with_reducible apply hide_ite
    | with_reducible apply hide_next
    | with_reducible apply Dev.resumeMask_hide (land_trans rfl hm)
    | (split
       all_goals try (rename_i heq
                      have h2 := congrArg Prod.snd heq
                      have h1 := congrArg Prod.fst heq
                      dsimp only at h1 h2
                      subst h1 h2
                      clear heq))
    | dsimp only [Lock.count]
    | dsimp +zetaDelta only

theorem Dev.keyWord_hide {m : Nat} (hm : 846685936644529665 &&& m = 846685936644529665) {x : Dev} (s : Dev) (o : Nat) (v : Word)
    (h : Dev.hide m s = x) : Dev.hide m (Dev.keyWord s o v) = x := by
  unfold Dev.keyWord
  repeat' first
    | with_reducible assumption
    | intro _
    | extract_lets
    | with_reducible apply hide_ite
    | with_reducible apply hide_next
    | with_reducible apply Dev.dbgSetKey_hide (land_trans rfl hm)
    | with_reducible apply Dev.setReg_hide (land_trans rfl hm)
    | (split
       all_goals try (rename_i heq
                      have h2 := congrArg Prod.snd heq
                      have h1 := congrArg Prod.fst heq
                      dsimp only at h1 h2
                      subst h1 h2
                      clear heq))
    | dsimp only [Lock.count]
    | dsimp +zetaDelta only

theorem Dev.dbgWrite_hide {m : Nat} (hm : 846685936644529665 &&& m = 846685936644529665) {x : Dev} (s : Dev) (o : Nat) (v : Word)
    (h : Dev.hide m s = x) : Dev.hide m (Dev.dbgWrite s o v) = x := by
  unfold Dev.dbgWrite
  repeat' first
    | with_reducible assumption
    | intro _
    | extract_lets
    | with_reducible apply hide_ite
    | with_reducible apply hide_next
    | with_reducible apply Dev.keyWord_hide (land_trans rfl hm)
    | with_reducible apply Dev.dbgResumeReq_hide (land_trans rfl hm)
    | with_reducible apply Dev.storeWord_hide (land_trans rfl hm)
    | with_reducible apply Dev.dbgGrant_hide (land_trans rfl hm)
    | with_reducible apply Dev.dbgHaltReq_hide (land_trans rfl hm)
    | with_reducible apply Dev.dbgDenied_hide (land_trans rfl hm)
    | with_reducible apply Dev.modDbg_hide (land_trans rfl hm)
    | (split
       all_goals try (rename_i heq
                      have h2 := congrArg Prod.snd heq
                      have h1 := congrArg Prod.fst heq
                      dsimp only at h1 h2
                      subst h1 h2
                      clear heq))
    | dsimp only [Lock.count]
    | dsimp +zetaDelta only

theorem Dev.fcSrcWrite_hide {m : Nat} (hm : 846685936644267521 &&& m = 846685936644267521) {x : Dev} (s : Dev) (k : Nat) (src : Nat) (v : Word)
    (h : Dev.hide m s = x) : Dev.hide m (Dev.fcSrcWrite s k src v) = x := by
  unfold Dev.fcSrcWrite
  repeat' first
    | with_reducible assumption
    | intro _
    | extract_lets
    | with_reducible apply hide_ite
    | with_reducible apply hide_next
    | with_reducible apply Dev.cfgIgnored_hide (land_trans rfl hm)
    | with_reducible apply Dev.setReg_hide (land_trans rfl hm)
    | (split
       all_goals try (rename_i heq
                      have h2 := congrArg Prod.snd heq
                      have h1 := congrArg Prod.fst heq
                      dsimp only at h1 h2
                      subst h1 h2
                      clear heq))
    | dsimp only [Lock.count]
    | dsimp +zetaDelta only

theorem Dev.clearFirst_hide {m : Nat} (hm : 34359738368 &&& m = 34359738368) {x : Dev} (s : Dev) (k : Nat)
    (h : Dev.hide m s = x) : Dev.hide m (Dev.clearFirst s k) = x := by
  unfold Dev.clearFirst
  repeat' first
    | with_reducible assumption
    | intro _
    | extract_lets
    | with_reducible apply hide_ite
    | with_reducible apply hide_next
    | with_reducible apply Dev.modColl_hide (land_trans rfl hm)
    | (split
       all_goals try (rename_i heq
                      have h2 := congrArg Prod.snd heq
                      have h1 := congrArg Prod.fst heq
                      dsimp only at h1 h2
                      subst h1 h2
                      clear heq))
    | dsimp only [Lock.count]
    | dsimp +zetaDelta only

theorem Dev.fcHstatWrite_hide {m : Nat} (hm : 34359738368 &&& m = 34359738368) {x : Dev} (s : Dev) (k : Nat) (v : Word)
    (h : Dev.hide m s = x) : Dev.hide m (Dev.fcHstatWrite s k v) = x := by
  unfold Dev.fcHstatWrite
  repeat' first
    | with_reducible assumption
    | intro _
    | extract_lets
    | with_reducible apply hide_ite
    | with_reducible apply hide_next
    | with_reducible apply Dev.modColl_hide (land_trans rfl hm)
    | (split
       all_goals try (rename_i heq
                      have h2 := congrArg Prod.snd heq
                      have h1 := congrArg Prod.fst heq
                      dsimp only at h1 h2
                      subst h1 h2
                      clear heq))
    | dsimp only [Lock.count]
    | dsimp +zetaDelta only

theorem Dev.clearLatched_hide {m : Nat} (hm : 18014432869226496 &&& m = 18014432869226496) {x : Dev} (s : Dev) (k : Nat) (mask : Quad)
    (h : Dev.hide m s = x) : Dev.hide m (Dev.clearLatched s k mask) = x := by
  unfold Dev.clearLatched
  repeat' first
    | with_reducible assumption
    | intro _
    | extract_lets
    | with_reducible apply hide_ite
    | with_reducible apply hide_next
    | with_reducible apply Dev.unoccur_hide (land_trans rfl hm)
    | with_reducible apply Dev.modColl_hide (land_trans rfl hm)
    | with_reducible apply Dev.setColl_hide (land_trans rfl hm)
    | (split
       all_goals try (rename_i heq
                      have h2 := congrArg Prod.snd heq
                      have h1 := congrArg Prod.fst heq
                      dsimp only at h1 h2
                      subst h1 h2
                      clear heq))
    | dsimp only [Lock.count]
    | dsimp +zetaDelta only

theorem Dev.fcWrite_hide {m : Nat} (hm : 846685936644267521 &&& m = 846685936644267521) {x : Dev} (s : Dev) (k : Nat) (o : Nat) (v : Word)
    (h : Dev.hide m s = x) : Dev.hide m (Dev.fcWrite s k o v) = x := by
  unfold Dev.fcWrite
  repeat' first
    | with_reducible assumption
    | intro _
    | extract_lets
    | with_reducible apply hide_ite
    | with_reducible apply hide_next
    | with_reducible apply Dev.clearLatched_hide (land_trans rfl hm)
    | with_reducible apply Dev.fcHstatWrite_hide (land_trans rfl hm)
    | with_reducible apply Dev.clearFirst_hide (land_trans rfl hm)
    | with_reducible apply Dev.fcErrWrite_hide (land_trans rfl hm)
    | with_reducible apply Dev.fcInject_hide (land_trans rfl hm)
    | (split
       all_goals try (rename_i heq
                      have h2 := congrArg Prod.snd heq
                      have h1 := congrArg Prod.fst heq
                      dsimp only at h1 h2
                      subst h1 h2
                      clear heq))
    | dsimp only [Lock.count]
    | dsimp +zetaDelta only

theorem Dev.modSv_hide {m : Nat} (hm : 4503599627370496 &&& m = 4503599627370496) {x : Dev} (s : Dev) (f : Supervisor → Supervisor)
    (h : Dev.hide m s = x) : Dev.hide m (Dev.modSv s f) = x := by
  unfold Dev.modSv
  repeat' first
    | with_reducible assumption
    | intro _
    | extract_lets
    | with_reducible apply hide_ite
    | with_reducible apply hide_next
    | (split
       all_goals try (rename_i heq
                      have h2 := congrArg Prod.snd heq
                      have h1 := congrArg Prod.fst heq
                      dsimp only at h1 h2
                      subst h1 h2
                      clear heq))
    | with_reducible apply Dev.hide_upd_52 (land_trans rfl hm)
    | dsimp only [Lock.count]
    | dsimp +zetaDelta only

theorem Dev.chgOff_hide {m : Nat} (hm : 18577354905358336 &&& m = 18577354905358336) {x : Dev} (s : Dev)
    (h : Dev.hide m s = x) : Dev.hide m (Dev.chgOff s) = x := by
  unfold Dev.chgOff
  repeat' first
    | with_reducible assumption
    | intro _
    | extract_lets
    | with_reducible apply hide_ite
    | with_reducible apply hide_next
    | with_reducible apply Dev.chgGoto_hide (land_trans rfl hm)
    | with_reducible apply Dev.putReg_hide (land_trans rfl hm)
    | (split
       all_goals try (rename_i heq
                      have h2 := congrArg Prod.snd heq
                      have h1 := congrArg Prod.fst heq
                      dsimp only at h1 h2
                      subst h1 h2
                      clear heq))
    | dsimp only [Lock.count]
    | dsimp +zetaDelta only

theorem Dev.chgOn_hide {m : Nat} (hm : 847248886597688833 &&& m = 847248886597688833) {x : Dev} (s : Dev)
    (h : Dev.hide m s = x) : Dev.hide m (Dev.chgOn s) = x := by
  unfold Dev.chgOn
  repeat' first
    | with_reducible assumption
    | intro _
    | extract_lets
    | with_reducible apply hide_ite
    | with_reducible apply hide_next
    | with_reducible apply Dev.cfgIgnored_hide (land_trans rfl hm)
    | with_reducible apply Dev.chgGoto_hide (land_trans rfl hm)
    | with_reducible apply Dev.modRv_hide (land_trans rfl hm)
    | with_reducible apply Dev.putReg_hide (land_trans rfl hm)
    | (split
       all_goals try (rename_i heq
                      have h2 := congrArg Prod.snd heq
                      have h1 := congrArg Prod.fst heq
                      dsimp only at h1 h2
                      subst h1 h2
                      clear heq))
    | dsimp only [Lock.count]
    | dsimp +zetaDelta only

theorem Dev.rvCtrl_hide {m : Nat} (hm : 847248886597688833 &&& m = 847248886597688833) {x : Dev} (s : Dev) (v : Word)
    (h : Dev.hide m s = x) : Dev.hide m (Dev.rvCtrl s v) = x := by
  unfold Dev.rvCtrl
  repeat' first
    | with_reducible assumption
    | intro _
    | extract_lets
    | with_reducible apply hide_ite
    | with_reducible apply hide_next
    | with_reducible apply Dev.chgOn_hide (land_trans rfl hm)
    | with_reducible apply Dev.chgOff_hide (land_trans rfl hm)
    | with_reducible apply Dev.surplusOff_hide (land_trans rfl hm)
    | with_reducible apply Dev.putReg_hide (land_trans rfl hm)
    | (split
       all_goals try (rename_i heq
                      have h2 := congrArg Prod.snd heq
                      have h1 := congrArg Prod.fst heq
                      dsimp only at h1 h2
                      subst h1 h2
                      clear heq))
    | dsimp only [Lock.count]
    | dsimp +zetaDelta only

theorem Dev.bzDrain_hide {m : Nat} (hm : 576742227280134144 &&& m = 576742227280134144) {x : Dev} (s : Dev)
    (h : Dev.hide m s = x) : Dev.hide m (Dev.bzDrain s) = x := by
  unfold Dev.bzDrain
  repeat' first
    | with_reducible assumption
    | intro _
    | extract_lets
    | with_reducible apply hide_ite
    | with_reducible apply hide_next
    | with_reducible apply Dev.modBz_hide (land_trans rfl hm)
    | with_reducible apply Dev.emit_hide (land_trans rfl hm)
    | with_reducible apply Dev.forEach_hide (land_trans rfl hm)
    | (split
       all_goals try (rename_i heq
                      have h2 := congrArg Prod.snd heq
                      have h1 := congrArg Prod.fst heq
                      dsimp only at h1 h2
                      subst h1 h2
                      clear heq))
    | dsimp only [Lock.count]
    | dsimp +zetaDelta only

theorem Dev.bzWriteback_hide {m : Nat} (hm : 576742227280134144 &&& m = 576742227280134144) {x : Dev} (s : Dev)
    (h : Dev.hide m s = x) : Dev.hide m (Dev.bzWriteback s) = x := by
  unfold Dev.bzWriteback
  repeat' first
    | with_reducible assumption
    | intro _
    | extract_lets
    | with_reducible apply hide_ite
    | with_reducible apply hide_next
    | with_reducible apply Dev.bzDrain_hide (land_trans rfl hm)
    | with_reducible apply Dev.modBz_hide (land_trans rfl hm)
    | with_reducible apply Dev.emit_hide (land_trans rfl hm)
    | (split
       all_goals try (rename_i heq
                      have h2 := congrArg Prod.snd heq
                      have h1 := congrArg Prod.fst heq
                      dsimp only at h1 h2
                      subst h1 h2
                      clear heq))
    | dsimp only [Lock.count]
    | dsimp +zetaDelta only

theorem Dev.bzDisable_hide {m : Nat} (hm : 576742229427617792 &&& m = 576742229427617792) {x : Dev} (s : Dev)
    (h : Dev.hide m s = x) : Dev.hide m (Dev.bzDisable s) = x := by
  unfold Dev.bzDisable
  repeat' first
    | with_reducible assumption
    | intro _
    | extract_lets
    | with_reducible apply hide_ite
    | with_reducible apply hide_next
    | with_reducible apply Dev.bzWriteback_hide (land_trans rfl hm)
    | with_reducible apply Dev.modBz_hide (land_trans rfl hm)
    | with_reducible apply Dev.putReg_hide (land_trans rfl hm)
    | (split
       all_goals try (rename_i heq
                      have h2 := congrArg Prod.snd heq
                      have h1 := congrArg Prod.fst heq
                      dsimp only at h1 h2
                      subst h1 h2
                      clear heq))
    | dsimp only [Lock.count]
    | dsimp +zetaDelta only

theorem Dev.bzWrite_hide {m : Nat} (hm : 576742233722585088 &&& m = 576742233722585088) {x : Dev} (s : Dev) (off : Nat) (v : Word)
    (h : Dev.hide m s = x) : Dev.hide m (Dev.bzWrite s off v) = x := by
  unfold Dev.bzWrite
  repeat' first
    | with_reducible assumption
    | intro _
    | extract_lets
    | with_reducible apply hide_ite
    | with_reducible apply hide_next
    | with_reducible apply Dev.bzDisable_hide (land_trans rfl hm)
    | with_reducible apply Dev.storeWord_hide (land_trans rfl hm)
    | with_reducible apply Dev.bzEnable_hide (land_trans rfl hm)
    | with_reducible apply Dev.modBz_hide (land_trans rfl hm)
    | with_reducible apply Dev.putReg_hide (land_trans rfl hm)
    | (split
       all_goals try (rename_i heq
                      have h2 := congrArg Prod.snd heq
                      have h1 := congrArg Prod.fst heq
                      dsimp only at h1 h2
                      subst h1 h2
                      clear heq))
    | dsimp only [Lock.count]
    | dsimp +zetaDelta only

theorem Dev.linkCfgWrite_hide {m : Nat} (hm : 18014435016710192 &&& m = 18014435016710192) {x : Dev} (s : Dev) (v : Word)
    (h : Dev.hide m s = x) : Dev.hide m (Dev.linkCfgWrite s v) = x := by
  unfold Dev.linkCfgWrite
  repeat' first
    | with_reducible assumption
    | intro _
    | extract_lets
    | with_reducible apply hide_ite
    | with_reducible apply hide_next
    | with_reducible apply Dev.putReg_hide (land_trans rfl hm)
    | with_reducible apply Dev.unoccur_hide (land_trans rfl hm)
    | (split
       all_goals try (rename_i heq
                      have h2 := congrArg Prod.snd heq
                      have h1 := congrArg Prod.fst heq
                      dsimp only at h1 h2
                      subst h1 h2
                      clear heq))
    | with_reducible apply Dev.hide_upd_4_5 (land_trans rfl hm)
    | dsimp only [Lock.count]
    | dsimp +zetaDelta only

theorem Dev.writeTbRate_hide {m : Nat} (hm : 8 &&& m = 8) {x : Dev} (s : Dev) (v : Word)
    (h : Dev.hide m s = x) : Dev.hide m (Dev.writeTbRate s v) = x := by
  unfold Dev.writeTbRate
  repeat' first
    | with_reducible assumption
    | intro _
    | extract_lets
    | with_reducible apply hide_ite
    | with_reducible apply hide_next
    | (split
       all_goals try (rename_i heq
                      have h2 := congrArg Prod.snd heq
                      have h1 := congrArg Prod.fst heq
                      dsimp only at h1 h2
                      subst h1 h2
                      clear heq))
    | with_reducible apply Dev.hide_upd_3 (land_trans rfl hm)
    | dsimp only [Lock.count]
    | dsimp +zetaDelta only

theorem Dev.hbKick_hide {m : Nat} (hm : 18049617241315328 &&& m = 18049617241315328) {x : Dev} (s : Dev)
    (h : Dev.hide m s = x) : Dev.hide m (Dev.hbKick s) = x := by
  unfold Dev.hbKick
  repeat' first
    | with_reducible assumption
    | intro _
    | extract_lets
    | with_reducible apply hide_ite
    | with_reducible apply hide_next
    | with_reducible apply Dev.unoccur_hide (land_trans rfl hm)
    | with_reducible apply Dev.raise_hide (land_trans rfl hm)
    | (split
       all_goals try (rename_i heq
                      have h2 := congrArg Prod.snd heq
                      have h1 := congrArg Prod.fst heq
                      dsimp only at h1 h2
                      subst h1 h2
                      clear heq))
    | with_reducible apply Dev.hide_upd_45 (land_trans rfl hm)
    | dsimp only [Lock.count]
    | dsimp +zetaDelta only

theorem Dev.ctxFlush_hide {m : Nat} (hm : 576495936675512320 &&& m = 576495936675512320) {x : Dev} (s : Dev)
    (h : Dev.hide m s = x) : Dev.hide m (Dev.ctxFlush s) = x := by
  unfold Dev.ctxFlush
  repeat' first
    | with_reducible assumption
    | intro _
    | extract_lets
    | with_reducible apply hide_ite
    | with_reducible apply hide_next
    | with_reducible apply Dev.ctxWrite_hide (land_trans rfl hm)
    | with_reducible apply Dev.forEach_hide (land_trans rfl hm)
    | (split
       all_goals try (rename_i heq
                      have h2 := congrArg Prod.snd heq
                      have h1 := congrArg Prod.fst heq
                      dsimp only at h1 h2
                      subst h1 h2
                      clear heq))
    | dsimp only [Lock.count]
    | dsimp +zetaDelta only

theorem Dev.hpEnable_hide {m : Nat} (hm : 576495938822995968 &&& m = 576495938822995968) {x : Dev} (s : Dev) (en : Bool)
    (h : Dev.hide m s = x) : Dev.hide m (Dev.hpEnable s en) = x := by
  unfold Dev.hpEnable
  repeat' first
    | with_reducible assumption
    | intro _
    | extract_lets
    | with_reducible apply hide_ite
    | with_reducible apply hide_next
    | with_reducible apply Dev.buildAdmin_hide (land_trans rfl hm)
    | with_reducible apply Dev.putReg_hide (land_trans rfl hm)
    | (split
       all_goals try (rename_i heq
                      have h2 := congrArg Prod.snd heq
                      have h1 := congrArg Prod.fst heq
                      dsimp only at h1 h2
                      subst h1 h2
                      clear heq))
    | with_reducible apply Dev.hide_upd_45 (land_trans rfl hm)
    | dsimp only [Lock.count]
    | dsimp +zetaDelta only

theorem Dev.enterRun_hide {m : Nat} (hm : 703696538920029825 &&& m = 703696538920029825) {x : Dev} (s : Dev)
    (h : Dev.hide m s = x) : Dev.hide m (Dev.enterRun s) = x := by
  unfold Dev.enterRun
  repeat' first
    | with_reducible assumption
    | intro _
    | extract_lets
    | with_reducible apply hide_ite
    | with_reducible apply hide_next
    | with_reducible apply Dev.wakeRegion_hide (land_trans rfl hm)
    | with_reducible apply Dev.forEach_hide (land_trans rfl hm)
    | (split
       all_goals try (rename_i heq
                      have h2 := congrArg Prod.snd heq
                      have h1 := congrArg Prod.fst heq
                      dsimp only at h1 h2
                      subst h1 h2
                      clear heq))
    | dsimp only [Lock.count]
    | dsimp +zetaDelta only

theorem Dev.modeWrite_hide {m : Nat} (hm : 712703740322254465 &&& m = 712703740322254465) {x : Dev} (s : Dev) (mode : Nat)
    (h : Dev.hide m s = x) : Dev.hide m (Dev.modeWrite s mode) = x := by
  have hgo : ∀ k : Nat, Dev.hide m (({ s with pwr := { s.pwr with mode := k } } : Dev).putReg RegMap.pwrCtrl 0 2 mode) = x :=
    fun k => Dev.putReg_hide (land_trans rfl hm) _ _ _ _ _ (Dev.hide_upd_53 (land_trans rfl hm) h)
  unfold Dev.modeWrite
  extract_lets k go
  have hg : Dev.hide m (go s) = x := hgo k
  clear_value k
  split
  · split
    · exact Dev.hide_upd_53 (land_trans rfl hm) h
    · exact hg
  · exact Dev.enterRun_hide (land_trans rfl hm) _ hg
  · exact hg

theorem Dev.bargeStart_hide {m : Nat} (hm : 4096 &&& m = 4096) {x : Dev} (s : Dev) (e : Nat) (pc : Nat)
    (h : Dev.hide m s = x) : Dev.hide m (Dev.bargeStart s e pc) = x := by
  unfold Dev.bargeStart
  repeat' first
    | with_reducible assumption
    | intro _
    | extract_lets
    | with_reducible apply hide_ite
    | with_reducible apply hide_next
    | with_reducible apply Dev.modBarge_hide (land_trans rfl hm)
    | (split
       all_goals try (rename_i heq
                      have h2 := congrArg Prod.snd heq
                      have h1 := congrArg Prod.fst heq
                      dsimp only at h1 h2
                      subst h1 h2
                      clear heq))
    | dsimp only [Lock.count]
    | dsimp +zetaDelta only

theorem Dev.bargeReset_hide {m : Nat} (hm : 18014432902780929 &&& m = 18014432902780929) {x : Dev} (s : Dev) (e : Nat)
    (h : Dev.hide m s = x) : Dev.hide m (Dev.bargeReset s e) = x := by
  unfold Dev.bargeReset
  repeat' first
    | with_reducible assumption
    | intro _
    | extract_lets
    | with_reducible apply hide_ite
    | with_reducible apply hide_next
    | with_reducible apply Dev.bargeStart_hide (land_trans rfl hm)
    | with_reducible apply Dev.drawWord_hide (land_trans rfl hm)
    | with_reducible apply Dev.unoccur_hide (land_trans rfl hm)
    | with_reducible apply Dev.modBarge_hide (land_trans rfl hm)
    | (split
       all_goals try (rename_i heq
                      have h2 := congrArg Prod.snd heq
                      have h1 := congrArg Prod.fst heq
                      dsimp only at h1 h2
                      subst h1 h2
                      clear heq))
    | with_reducible apply Dev.hide_upd_25 (land_trans rfl hm)
    | dsimp only [Lock.count]
    | dsimp +zetaDelta only

theorem Dev.bargeResets_hide {m : Nat} (hm : 18014432902780929 &&& m = 18014432902780929) {x : Dev} (s : Dev) (mask : DWord)
    (h : Dev.hide m s = x) : Dev.hide m (Dev.bargeResets s mask) = x := by
  unfold Dev.bargeResets
  repeat' first
    | with_reducible assumption
    | intro _
    | extract_lets
    | with_reducible apply hide_ite
    | with_reducible apply hide_next
    | with_reducible apply Dev.bargeReset_hide (land_trans rfl hm)
    | with_reducible apply Dev.forEach_hide (land_trans rfl hm)
    | (split
       all_goals try (rename_i heq
                      have h2 := congrArg Prod.snd heq
                      have h1 := congrArg Prod.fst heq
                      dsimp only at h1 h2
                      subst h1 h2
                      clear heq))
    | dsimp only [Lock.count]
    | dsimp +zetaDelta only

theorem Dev.chipReset_hide {m : Nat} (hm : 1152921502995652601 &&& m = 1152921502995652601) {x : Dev} (s : Dev) (reason : Nat)
    (h : Dev.hide m s = x) : Dev.hide m (Dev.chipReset s reason) = x := by
  unfold Dev.chipReset
  repeat' first
    | with_reducible assumption
    | intro _
    | extract_lets
    | with_reducible apply hide_ite
    | with_reducible apply hide_next
    | with_reducible apply Dev.islandLoss_hide (land_trans rfl hm)
    | with_reducible apply Dev.modLockTable_hide (land_trans rfl hm)
    | with_reducible apply Dev.dropRegs_hide (land_trans rfl hm)
    | with_reducible apply Dev.wakeRegion_hide (land_trans rfl hm)
    | with_reducible apply Dev.forEach_hide (land_trans rfl hm)
    | with_reducible apply Dev.modRegion_hide (land_trans rfl hm)
    | with_reducible apply Dev.modColl_hide (land_trans rfl hm)
    | with_reducible apply Dev.setColl_hide (land_trans rfl hm)
    | (split
       all_goals try (rename_i heq
                      have h2 := congrArg Prod.snd heq
                      have h1 := congrArg Prod.fst heq
                      dsimp only at h1 h2
                      subst h1 h2
                      clear heq))
    | with_reducible apply Dev.hide_upd_3_4_5_6_8_9_12_16_17_18_20_21_22_23_24_26_28_36_37_38_39_40_41_42_43_44_45_46_47_48_49_51_52_53_54_55_56_57_58 (land_trans rfl hm)
    | dsimp only [Lock.count]
    | dsimp +zetaDelta only

theorem Dev.coreUp_hide {m : Nat} (hm : 855693135899008521 &&& m = 855693135899008521) {x : Dev} (s : Dev)
    (h : Dev.hide m s = x) : Dev.hide m (Dev.coreUp s) = x := by
  unfold Dev.coreUp
  repeat' first
    | with_reducible assumption
    | intro _
    | extract_lets
    | with_reducible apply hide_ite
    | with_reducible apply hide_next
    | with_reducible apply Dev.occur_hide (land_trans rfl hm)
    | with_reducible apply Dev.forEach_hide (land_trans rfl hm)
    | (split
       all_goals try (rename_i heq
                      have h2 := congrArg Prod.snd heq
                      have h1 := congrArg Prod.fst heq
                      dsimp only at h1 h2
                      subst h1 h2
                      clear heq))
    | with_reducible apply Dev.hide_upd_3_53 (land_trans rfl hm)
    | dsimp only [Lock.count]
    | dsimp +zetaDelta only

theorem Dev.chipRestart_hide {m : Nat} (hm : 1152921502995652601 &&& m = 1152921502995652601) {x : Dev} (s : Dev) (reason : Nat)
    (h : Dev.hide m s = x) : Dev.hide m (Dev.chipRestart s reason) = x := by
  unfold Dev.chipRestart
  repeat' first
    | with_reducible assumption
    | intro _
    | extract_lets
    | with_reducible apply hide_ite
    | with_reducible apply hide_next
    | with_reducible apply Dev.coreUp_hide (land_trans rfl hm)
    | with_reducible apply Dev.chipReset_hide (land_trans rfl hm)
    | (split
       all_goals try (rename_i heq
                      have h2 := congrArg Prod.snd heq
                      have h1 := congrArg Prod.fst heq
                      dsimp only at h1 h2
                      subst h1 h2
                      clear heq))
    | dsimp only [Lock.count]
    | dsimp +zetaDelta only

theorem Dev.chipRstWrite_hide {m : Nat} (hm : 1152921502995652601 &&& m = 1152921502995652601) {x : Dev} (s : Dev) (v : Word)
    (h : Dev.hide m s = x) : Dev.hide m (Dev.chipRstWrite s v) = x := by
  unfold Dev.chipRstWrite
  repeat' first
    | with_reducible assumption
    | intro _
    | extract_lets
    | with_reducible apply hide_ite
    | with_reducible apply hide_next
    | with_reducible apply Dev.chipRestart_hide (land_trans rfl hm)
    | (split
       all_goals try (rename_i heq
                      have h2 := congrArg Prod.snd heq
                      have h1 := congrArg Prod.fst heq
                      dsimp only at h1 h2
                      subst h1 h2
                      clear heq))
    | dsimp only [Lock.count]
    | dsimp +zetaDelta only

theorem Dev.chipWriteLow_hide {m : Nat} (hm : 1152921502995652605 &&& m = 1152921502995652605) {x : Dev} (s : Dev) (off : Nat) (v : Word)
    (h : Dev.hide m s = x) : Dev.hide m (Dev.chipWriteLow s off v) = x := by
  unfold Dev.chipWriteLow
  repeat' first
    | with_reducible assumption
    | intro _
    | extract_lets
    | with_reducible apply hide_ite
    | with_reducible apply hide_next
    | with_reducible apply Dev.chipRstWrite_hide (land_trans rfl hm)
    | with_reducible apply Dev.bargeResets_hide (land_trans rfl hm)
    | with_reducible apply Dev.modeWrite_hide (land_trans rfl hm)
    | with_reducible apply Dev.hpEnable_hide (land_trans rfl hm)
    | with_reducible apply Dev.ctxFlush_hide (land_trans rfl hm)
    | with_reducible apply Dev.hbKick_hide (land_trans rfl hm)
    | with_reducible apply Dev.writeTbRate_hide (land_trans rfl hm)
    | with_reducible apply Dev.linkCfgWrite_hide (land_trans rfl hm)
    | with_reducible apply Dev.storeWord_hide (land_trans rfl hm)
    | with_reducible apply Dev.writeDiscCfg_hide (land_trans rfl hm)
    | with_reducible apply Dev.writeTbAdj_hide (land_trans rfl hm)
    | with_reducible apply Dev.setReplica_hide (land_trans rfl hm)
    | (split
       all_goals try (rename_i heq
                      have h2 := congrArg Prod.snd heq
                      have h1 := congrArg Prod.fst heq
                      dsimp only at h1 h2
                      subst h1 h2
                      clear heq))
    | with_reducible apply Dev.hide_upd_45 (land_trans rfl hm)
    | with_reducible apply Dev.hide_upd_3 (land_trans rfl hm)
    | with_reducible apply Dev.hide_upd_22_23 (land_trans rfl hm)
    | with_reducible apply Dev.hide_upd_21 (land_trans rfl hm)
    | with_reducible apply Dev.hide_upd_53 (land_trans rfl hm)
    | dsimp only [Lock.count]
    | dsimp +zetaDelta only

theorem Dev.chipWrite_hide {m : Nat} (hm : 1152921502995652605 &&& m = 1152921502995652605) {x : Dev} (s : Dev) (off : Nat) (v : Word)
    (h : Dev.hide m s = x) : Dev.hide m (Dev.chipWrite s off v) = x := by
  unfold Dev.chipWrite
  repeat' first
    | with_reducible assumption
    | intro _
    | extract_lets
    | with_reducible apply hide_ite
    | with_reducible apply hide_next
    | with_reducible apply Dev.chipWriteLow_hide (land_trans rfl hm)
    | with_reducible apply Dev.bzWrite_hide (land_trans rfl hm)
    | with_reducible apply Dev.rvCtrl_hide (land_trans rfl hm)
    | with_reducible apply Dev.modSv_hide (land_trans rfl hm)
    | with_reducible apply Dev.fcWrite_hide (land_trans rfl hm)
    | with_reducible apply Dev.fcSrcWrite_hide (land_trans rfl hm)
    | with_reducible apply Dev.dbgWrite_hide (land_trans rfl hm)
    | with_reducible apply Dev.storeWord_hide (land_trans rfl hm)
    | with_reducible apply Dev.svWrite_hide (land_trans rfl hm)
    | with_reducible apply Dev.rvKick_hide (land_trans rfl hm)
    | with_reducible apply Dev.modLockTable_hide (land_trans rfl hm)
    | with_reducible apply Dev.rvSafe_hide (land_trans rfl hm)
    | with_reducible apply Dev.modRv_hide (land_trans rfl hm)
    | with_reducible apply Dev.modMg_hide (land_trans rfl hm)
    | (split
       all_goals try (rename_i heq
                      have h2 := congrArg Prod.snd heq
                      have h1 := congrArg Prod.fst heq
                      dsimp only at h1 h2
                      subst h1 h2
                      clear heq))
    | with_reducible apply Dev.hide_upd_37 (land_trans rfl hm)
    | dsimp only [Lock.count]
    | dsimp +zetaDelta only

theorem Dev.tgtPop_hide {m : Nat} (hm : 1125899906842624 &&& m = 1125899906842624) {x : Dev} (s : Dev) (t : Nat)
    (h : Dev.hide m s = x) : Dev.hide m (Dev.tgtPop s t) = x := by
  unfold Dev.tgtPop
  repeat' first
    | with_reducible assumption
    | intro _
    | extract_lets
    | with_reducible apply hide_ite
    | with_reducible apply hide_next
    | with_reducible apply Dev.modTow_hide (land_trans rfl hm)
    | (split
       all_goals try (rename_i heq
                      have h2 := congrArg Prod.snd heq
                      have h1 := congrArg Prod.fst heq
                      dsimp only at h1 h2
                      subst h1 h2
                      clear heq))
    | dsimp only [Lock.count]
    | dsimp +zetaDelta only

theorem Dev.twStarts_hide {m : Nat} (hm : 19140298416330752 &&& m = 19140298416330752) {x : Dev} (s : Dev) (t : Nat) (mask : Byte)
    (h : Dev.hide m s = x) : Dev.hide m (Dev.twStarts s t mask) = x := by
  unfold Dev.twStarts
  repeat' first
    | with_reducible assumption
    | intro _
    | extract_lets
    | with_reducible apply hide_ite
    | with_reducible apply hide_next
    | with_reducible apply Dev.twStart_hide (land_trans rfl hm)
    | with_reducible apply Dev.forEach_hide (land_trans rfl hm)
    | (split
       all_goals try (rename_i heq
                      have h2 := congrArg Prod.snd heq
                      have h1 := congrArg Prod.fst heq
                      dsimp only at h1 h2
                      subst h1 h2
                      clear heq))
    | dsimp only [Lock.count]
    | dsimp +zetaDelta only

theorem Dev.stuckCheck_hide {m : Nat} (hm : 18014432869226496 &&& m = 18014432869226496) {x : Dev} (s : Dev) (g : Nat)
    (h : Dev.hide m s = x) : Dev.hide m (Dev.stuckCheck s g) = x := by
  unfold Dev.stuckCheck
  repeat' first
    | with_reducible assumption
    | intro _
    | extract_lets
    | with_reducible apply hide_ite
    | with_reducible apply hide_next
    | with_reducible apply Dev.unoccur_hide (land_trans rfl hm)
    | (split
       all_goals try (rename_i heq
                      have h2 := congrArg Prod.snd heq
                      have h1 := congrArg Prod.fst heq
                      dsimp only at h1 h2
                      subst h1 h2
                      clear heq))
    | dsimp only [Lock.count]
    | dsimp +zetaDelta only

theorem Dev.twClear_hide {m : Nat} (hm : 19140332776069120 &&& m = 19140332776069120) {x : Dev} (s : Dev) (t : Nat) (sda : Bool)
    (h : Dev.hide m s = x) : Dev.hide m (Dev.twClear s t sda) = x := by
  unfold Dev.twClear
  repeat' first
    | with_reducible assumption
    | intro _
    | extract_lets
    | with_reducible apply hide_ite
    | with_reducible apply hide_next
    | with_reducible apply Dev.stuckCheck_hide (land_trans rfl hm)
    | with_reducible apply Dev.twSample_hide (land_trans rfl hm)
    | with_reducible apply Dev.modTow_hide (land_trans rfl hm)
    | (split
       all_goals try (rename_i heq
                      have h2 := congrArg Prod.snd heq
                      have h1 := congrArg Prod.fst heq
                      dsimp only at h1 h2
                      subst h1 h2
                      clear heq))
    | dsimp only [Lock.count]
    | dsimp +zetaDelta only

theorem Dev.twAbort_hide {m : Nat} (hm : 19140298416330752 &&& m = 19140298416330752) {x : Dev} (s : Dev) (t : Nat)
    (h : Dev.hide m s = x) : Dev.hide m (Dev.twAbort s t) = x := by
  unfold Dev.twAbort
  repeat' first
    | with_reducible assumption
    | intro _
    | extract_lets
    | with_reducible apply hide_ite
    | with_reducible apply hide_next
    | with_reducible apply Dev.twEnd_hide (land_trans rfl hm)
    | with_reducible apply Dev.modTow_hide (land_trans rfl hm)
    | with_reducible apply Dev.forEach_hide (land_trans rfl hm)
    | (split
       all_goals try (rename_i heq
                      have h2 := congrArg Prod.snd heq
                      have h1 := congrArg Prod.fst heq
                      dsimp only at h1 h2
                      subst h1 h2
                      clear heq))
    | dsimp only [Lock.count]
    | dsimp +zetaDelta only

theorem Dev.twCtrl_hide {m : Nat} (hm : 19140332776069121 &&& m = 19140332776069121) {x : Dev} (s : Dev) (t : Nat) (v : Word)
    (h : Dev.hide m s = x) : Dev.hide m (Dev.twCtrl s t v) = x := by
  unfold Dev.twCtrl
  repeat' first
    | with_reducible assumption
    | intro _
    | extract_lets
    | with_reducible apply hide_ite
    | with_reducible apply hide_next
    | with_reducible apply Dev.twAbort_hide (land_trans rfl hm)
    | with_reducible apply Dev.twClear_hide (land_trans rfl hm)
    | with_reducible apply Dev.twStarts_hide (land_trans rfl hm)
    | with_reducible apply Dev.tgtPop_hide (land_trans rfl hm)
    | with_reducible apply Dev.drawNat_hide (land_trans rfl hm)
    | (split
       all_goals try (rename_i heq
                      have h2 := congrArg Prod.snd heq
                      have h1 := congrArg Prod.fst heq
                      dsimp only at h1 h2
                      subst h1 h2
                      clear heq))
    | dsimp only [Lock.count]
    | dsimp +zetaDelta only

theorem Dev.twDisable_hide {m : Nat} (hm : 19140300563814400 &&& m = 19140300563814400) {x : Dev} (s : Dev) (t : Nat)
    (h : Dev.hide m s = x) : Dev.hide m (Dev.twDisable s t) = x := by
  unfold Dev.twDisable
  repeat' first
    | with_reducible assumption
    | intro _
    | extract_lets
    | with_reducible apply hide_ite
    | with_reducible apply hide_next
    | with_reducible apply Dev.twAbort_hide (land_trans rfl hm)
    | with_reducible apply Dev.modTow_hide (land_trans rfl hm)
    | with_reducible apply Dev.putReg_hide (land_trans rfl hm)
    | (split
       all_goals try (rename_i heq
                      have h2 := congrArg Prod.snd heq
                      have h1 := congrArg Prod.fst heq
                      dsimp only at h1 h2
                      subst h1 h2
                      clear heq))
    | dsimp only [Lock.count]
    | dsimp +zetaDelta only

theorem Dev.twEnable_hide {m : Nat} (hm : 1125902054326272 &&& m = 1125902054326272) {x : Dev} (s : Dev) (t : Nat) (sda : Bool)
    (h : Dev.hide m s = x) : Dev.hide m (Dev.twEnable s t sda) = x := by
  unfold Dev.twEnable
  repeat' first
    | with_reducible assumption
    | intro _
    | extract_lets
    | with_reducible apply hide_ite
    | with_reducible apply hide_next
    | with_reducible apply Dev.twSample_hide (land_trans rfl hm)
    | with_reducible apply Dev.putReg_hide (land_trans rfl hm)
    | (split
       all_goals try (rename_i heq
                      have h2 := congrArg Prod.snd heq
                      have h1 := congrArg Prod.fst heq
                      dsimp only at h1 h2
                      subst h1 h2
                      clear heq))
    | dsimp only [Lock.count]
    | dsimp +zetaDelta only

theorem Dev.twCfgWrite_hide {m : Nat} (hm : 19140300563814401 &&& m = 19140300563814401) {x : Dev} (s : Dev) (t : Nat) (v : Word)
    (h : Dev.hide m s = x) : Dev.hide m (Dev.twCfgWrite s t v) = x := by
  unfold Dev.twCfgWrite
  repeat' first
    | with_reducible assumption
    | intro _
    | extract_lets
    | with_reducible apply hide_ite
    | with_reducible apply hide_next
    | with_reducible apply Dev.twEnable_hide (land_trans rfl hm)
    | with_reducible apply Dev.twDisable_hide (land_trans rfl hm)
    | with_reducible apply Dev.setReg_hide (land_trans rfl hm)
    | with_reducible apply Dev.drawNat_hide (land_trans rfl hm)
    | (split
       all_goals try (rename_i heq
                      have h2 := congrArg Prod.snd heq
                      have h1 := congrArg Prod.fst heq
                      dsimp only at h1 h2
                      subst h1 h2
                      clear heq))
    | dsimp only [Lock.count]
    | dsimp +zetaDelta only

theorem Dev.twWrite_hide {m : Nat} (hm : 19140339218520065 &&& m = 19140339218520065) {x : Dev} (s : Dev) (t : Nat) (r : Nat) (v : Word)
    (h : Dev.hide m s = x) : Dev.hide m (Dev.twWrite s t r v) = x := by
  unfold Dev.twWrite
  repeat' first
    | with_reducible assumption
    | intro _
    | extract_lets
    | with_reducible apply hide_ite
    | with_reducible apply hide_next
    | with_reducible apply Dev.twCfgWrite_hide (land_trans rfl hm)
    | with_reducible apply Dev.twCtrl_hide (land_trans rfl hm)
    | with_reducible apply Dev.storeWord_hide (land_trans rfl hm)
    | with_reducible apply Dev.modTow_hide (land_trans rfl hm)
    | (split
       all_goals try (rename_i heq
                      have h2 := congrArg Prod.snd heq
                      have h1 := congrArg Prod.fst heq
                      dsimp only at h1 h2
                      subst h1 h2
                      clear heq))
    | dsimp only [Lock.count]
    | dsimp +zetaDelta only

theorem Dev.sliceDisable_hide {m : Nat} (hm : 18014400690526208 &&& m = 18014400690526208) {x : Dev} (s : Dev) (k : Nat)
    (h : Dev.hide m s = x) : Dev.hide m (Dev.sliceDisable s k) = x := by
  unfold Dev.sliceDisable
  repeat' first
    | with_reducible assumption
    | intro _
    | extract_lets
    | with_reducible apply hide_ite
    | with_reducible apply hide_next
    | with_reducible apply Dev.softStop_hide (land_trans rfl hm)
    | with_reducible apply Dev.putReg_hide (land_trans rfl hm)
    | (split
       all_goals try (rename_i heq
                      have h2 := congrArg Prod.snd heq
                      have h1 := congrArg Prod.fst heq
                      dsimp only at h1 h2
                      subst h1 h2
                      clear heq))
    | dsimp only [Lock.count]
    | dsimp +zetaDelta only

theorem Dev.csWrite_hide {m : Nat} (hm : 18014404985493504 &&& m = 18014404985493504) {x : Dev} (s : Dev) (k : Nat) (o : Nat) (v : Word)
    (h : Dev.hide m s = x) : Dev.hide m (Dev.csWrite s k o v) = x := by
  unfold Dev.csWrite
  repeat' first
    | with_reducible assumption
    | intro _
    | extract_lets
    | with_reducible apply hide_ite
    | with_reducible apply hide_next
    | with_reducible apply Dev.sliceDisable_hide (land_trans rfl hm)
    | with_reducible apply Dev.storeWord_hide (land_trans rfl hm)
    | with_reducible apply Dev.controlWord_hide (land_trans rfl hm)
    | with_reducible apply Dev.softStart_hide (land_trans rfl hm)
    | with_reducible apply Dev.killSlice_hide (land_trans rfl hm)
    | with_reducible apply Dev.modSlice_hide (land_trans rfl hm)
    | with_reducible apply Dev.commitReg_hide (land_trans rfl hm)
    | (split
       all_goals try (rename_i heq
                      have h2 := congrArg Prod.snd heq
                      have h1 := congrArg Prod.fst heq
                      dsimp only at h1 h2
                      subst h1 h2
                      clear heq))
    | dsimp only [Lock.count]
    | dsimp +zetaDelta only

theorem Dev.calWrite_hide {m : Nat} (hm : 846685936644267521 &&& m = 846685936644267521) {x : Dev} (s : Dev) (off : Nat) (v : Word)
    (h : Dev.hide m s = x) : Dev.hide m (Dev.calWrite s off v) = x := by
  unfold Dev.calWrite
  repeat' first
    | with_reducible assumption
    | intro _
    | extract_lets
    | with_reducible apply hide_ite
    | with_reducible apply hide_next
    | with_reducible apply Dev.storeWord_hide (land_trans rfl hm)
    | with_reducible apply Dev.cfgIgnored_hide (land_trans rfl hm)
    | (split
       all_goals try (rename_i heq
                      have h2 := congrArg Prod.snd heq
                      have h1 := congrArg Prod.fst heq
                      dsimp only at h1 h2
                      subst h1 h2
                      clear heq))
    | dsimp only [Lock.count]
    | dsimp +zetaDelta only

theorem Dev.writeTripForce_hide {m : Nat} (hm : 2147485696 &&& m = 2147485696) {x : Dev} (s : Dev) (g : Nat) (v : Word)
    (h : Dev.hide m s = x) : Dev.hide m (Dev.writeTripForce s g v) = x := by
  unfold Dev.writeTripForce
  repeat' first
    | with_reducible assumption
    | intro _
    | extract_lets
    | with_reducible apply hide_ite
    | with_reducible apply hide_next
    | with_reducible apply Dev.extUpdate_hide (land_trans rfl hm)
    | with_reducible apply Dev.setReg_hide (land_trans rfl hm)
    | (split
       all_goals try (rename_i heq
                      have h2 := congrArg Prod.snd heq
                      have h1 := congrArg Prod.fst heq
                      dsimp only at h1 h2
                      subst h1 h2
                      clear heq))
    | dsimp only [Lock.count]
    | dsimp +zetaDelta only

theorem Dev.unitWrite_hide {m : Nat} (hm : 847815135622864385 &&& m = 847815135622864385) {x : Dev} (s : Dev) (g : Nat) (o : Nat) (v : Word)
    (h : Dev.hide m s = x) : Dev.hide m (Dev.unitWrite s g o v) = x := by
  unfold Dev.unitWrite
  repeat' first
    | with_reducible assumption
    | intro _
    | extract_lets
    | with_reducible apply hide_ite
    | with_reducible apply hide_next
    | with_reducible apply Dev.writeTripForce_hide (land_trans rfl hm)
    | with_reducible apply Dev.calWrite_hide (land_trans rfl hm)
    | with_reducible apply Dev.csWrite_hide (land_trans rfl hm)
    | with_reducible apply Dev.twWrite_hide (land_trans rfl hm)
    | with_reducible apply Dev.fcWrite_hide (land_trans rfl hm)
    | with_reducible apply Dev.fcSrcWrite_hide (land_trans rfl hm)
    | with_reducible apply Dev.storeWord_hide (land_trans rfl hm)
    | with_reducible apply Dev.auxUrgent_hide (land_trans rfl hm)
    | with_reducible apply Dev.writeAuxMask_hide (land_trans rfl hm)
    | with_reducible apply Dev.modAux_hide (land_trans rfl hm)
    | with_reducible apply Dev.auxWake_hide (land_trans rfl hm)
    | with_reducible apply Dev.writeLinkTrip_hide (land_trans rfl hm)
    | with_reducible apply Dev.extUpdate_hide (land_trans rfl hm)
    | with_reducible apply Dev.modRegion_hide (land_trans rfl hm)
    | (split
       all_goals try (rename_i heq
                      have h2 := congrArg Prod.snd heq
                      have h1 := congrArg Prod.fst heq
                      dsimp only at h1 h2
                      subst h1 h2
                      clear heq))
    | dsimp only [Lock.count]
    | dsimp +zetaDelta only

theorem Dev.writeConvCfg_hide {m : Nat} (hm : 6576668673 &&& m = 6576668673) {x : Dev} (s : Dev) (b : Nat) (v : Word)
    (h : Dev.hide m s = x) : Dev.hide m (Dev.writeConvCfg s b v) = x := by
  unfold Dev.writeConvCfg
  repeat' first
    | with_reducible assumption
    | intro _
    | extract_lets
    | with_reducible apply hide_ite
    | with_reducible apply hide_next
    | with_reducible apply Dev.pendReg_hide (land_trans rfl hm)
    | with_reducible apply Dev.putReg_hide (land_trans rfl hm)
    | with_reducible apply Dev.drawNat_hide (land_trans rfl hm)
    | with_reducible apply Dev.gateLane_hide (land_trans rfl hm)
    | with_reducible apply Dev.forEach_hide (land_trans rfl hm)
    | (split
       all_goals try (rename_i heq
                      have h2 := congrArg Prod.snd heq
                      have h1 := congrArg Prod.fst heq
                      dsimp only at h1 h2
                      subst h1 h2
                      clear heq))
    | dsimp only [Lock.count]
    | dsimp +zetaDelta only

theorem Dev.vinFiltWrite_hide {m : Nat} (hm : 6442451968 &&& m = 6442451968) {x : Dev} (s : Dev) (b : Nat) (v : Word)
    (h : Dev.hide m s = x) : Dev.hide m (Dev.vinFiltWrite s b v) = x := by
  unfold Dev.vinFiltWrite
  repeat' first
    | with_reducible assumption
    | intro _
    | extract_lets
    | with_reducible apply hide_ite
    | with_reducible apply hide_next
    | with_reducible apply Dev.storeWord_hide (land_trans rfl hm)
    | with_reducible apply Dev.modBlock_hide (land_trans rfl hm)
    | (split
       all_goals try (rename_i heq
                      have h2 := congrArg Prod.snd heq
                      have h1 := congrArg Prod.fst heq
                      dsimp only at h1 h2
                      subst h1 h2
                      clear heq))
    | dsimp only [Lock.count]
    | dsimp +zetaDelta only

theorem Dev.vinCmpWrite_hide {m : Nat} (hm : 18014404951936512 &&& m = 18014404951936512) {x : Dev} (s : Dev) (b : Nat) (v : Word)
    (h : Dev.hide m s = x) : Dev.hide m (Dev.vinCmpWrite s b v) = x := by
  unfold Dev.vinCmpWrite
  repeat' first
    | with_reducible assumption
    | intro _
    | extract_lets
    | with_reducible apply hide_ite
    | with_reducible apply hide_next
    | with_reducible apply Dev.storeWord_hide (land_trans rfl hm)
    | with_reducible apply Dev.setMode_hide (land_trans rfl hm)
    | (split
       all_goals try (rename_i heq
                      have h2 := congrArg Prod.snd heq
                      have h1 := congrArg Prod.fst heq
                      dsimp only at h1 h2
                      subst h1 h2
                      clear heq))
    | dsimp only [Lock.count]
    | dsimp +zetaDelta only

theorem Dev.blockWrite_hide {m : Nat} (hm : 846685936644267521 &&& m = 846685936644267521) {x : Dev} (s : Dev) (b : Nat) (o : Nat) (v : Word)
    (h : Dev.hide m s = x) : Dev.hide m (Dev.blockWrite s b o v) = x := by
  unfold Dev.blockWrite
  repeat' first
    | with_reducible assumption
    | intro _
    | extract_lets
    | with_reducible apply hide_ite
    | with_reducible apply hide_next
    | with_reducible apply Dev.vinCmpWrite_hide (land_trans rfl hm)
    | with_reducible apply Dev.vinFiltWrite_hide (land_trans rfl hm)
    | with_reducible apply Dev.writeConvCfg_hide (land_trans rfl hm)
    | with_reducible apply Dev.calWrite_hide (land_trans rfl hm)
    | with_reducible apply Dev.storeWord_hide (land_trans rfl hm)
    | (split
       all_goals try (rename_i heq
                      have h2 := congrArg Prod.snd heq
                      have h1 := congrArg Prod.fst heq
                      dsimp only at h1 h2
                      subst h1 h2
                      clear heq))
    | dsimp only [Lock.count]
    | dsimp +zetaDelta only

theorem Dev.msixWrite_hide {m : Nat} (hm : 576495936675512320 &&& m = 576495936675512320) {x : Dev} (s : Dev) (o : Nat) (v : Word)
    (h : Dev.hide m s = x) : Dev.hide m (Dev.msixWrite s o v) = x := by
  unfold Dev.msixWrite
  repeat' first
    | with_reducible assumption
    | intro _
    | extract_lets
    | with_reducible apply hide_ite
    | with_reducible apply hide_next
    | with_reducible apply Dev.msixFlush_hide (land_trans rfl hm)
    | (split
       all_goals try (rename_i heq
                      have h2 := congrArg Prod.snd heq
                      have h1 := congrArg Prod.fst heq
                      dsimp only at h1 h2
                      subst h1 h2
                      clear heq))
    | with_reducible apply Dev.hide_upd_45 (land_trans rfl hm)
    | dsimp only [Lock.count]
    | dsimp +zetaDelta only

theorem Dev.writeWord_hide {m : Nat} (hm : 1152921503532523517 &&& m = 1152921503532523517) {x : Dev} (s : Dev) (off : Nat) (v : Word)
    (h : Dev.hide m s = x) : Dev.hide m (Dev.writeWord s off v) = x := by
  unfold Dev.writeWord
  repeat' first
    | with_reducible assumption
    | intro _
    | extract_lets
    | with_reducible apply hide_ite
    | with_reducible apply hide_next
    | with_reducible apply Dev.msixWrite_hide (land_trans rfl hm)
    | with_reducible apply Dev.blockWrite_hide (land_trans rfl hm)
    | with_reducible apply Dev.unitWrite_hide (land_trans rfl hm)
    | with_reducible apply Dev.chipWrite_hide (land_trans rfl hm)
    | with_reducible apply Dev.centralWrite_hide (land_trans rfl hm)
    | (split
       all_goals try (rename_i heq
                      have h2 := congrArg Prod.snd heq
                      have h1 := congrArg Prod.fst heq
                      dsimp only at h1 h2
                      subst h1 h2
                      clear heq))
    | dsimp only [Lock.count]
    | dsimp +zetaDelta only

theorem Dev.writeWords_hide {m : Nat} (hm : 1152921503532523517 &&& m = 1152921503532523517) {x : Dev} (s : Dev) (off : Nat) (l : List Word)
    (h : Dev.hide m s = x) : Dev.hide m (Dev.writeWords s off l) = x := by
  unfold Dev.writeWords
  repeat' first
    | with_reducible assumption
    | intro _
    | extract_lets
    | with_reducible apply hide_ite
    | with_reducible apply hide_next
    | with_reducible apply Dev.writeWord_hide (land_trans rfl hm)
    | with_reducible apply Dev.rsvdWrite_hide (land_trans rfl hm)
    | with_reducible apply Dev.cfgIgnored_hide (land_trans rfl hm)
    | with_reducible apply Dev.forEach_hide (land_trans rfl hm)
    | (split
       all_goals try (rename_i heq
                      have h2 := congrArg Prod.snd heq
                      have h1 := congrArg Prod.fst heq
                      dsimp only at h1 h2
                      subst h1 h2
                      clear heq))
    | dsimp only [Lock.count]
    | dsimp +zetaDelta only

theorem Dev.barWrite_hide {m : Nat} (hm : 1152921503532523517 &&& m = 1152921503532523517) {x : Dev} (s : Dev) (off : Nat) (bytes : Nat) (v : DWord)
    (h : Dev.hide m s = x) : Dev.hide m (Dev.barWrite s off bytes v) = x := by
  unfold Dev.barWrite
  repeat' first
    | with_reducible assumption
    | intro _
    | extract_lets
    | with_reducible apply hide_ite
    | with_reducible apply hide_next
    | with_reducible apply Dev.writeWords_hide (land_trans rfl hm)
    | with_reducible apply Dev.rsvdWrite_hide (land_trans rfl hm)
    | with_reducible apply Dev.windowFail_hide (land_trans rfl hm)
    | with_reducible apply Dev.badAccess_hide (land_trans rfl hm)
    | with_reducible apply Dev.wakeAccess_hide (land_trans rfl hm)
    | (split
       all_goals try (rename_i heq
                      have h2 := congrArg Prod.snd heq
                      have h1 := congrArg Prod.fst heq
                      dsimp only at h1 h2
                      subst h1 h2
                      clear heq))
    | dsimp only [Lock.count]
    | dsimp +zetaDelta only

theorem execRegionWindowWriteApply_hide {m : Nat} (hm : 1152921503532523517 &&& m = 1152921503532523517) {x : Dev} (off : BitVec 24) (bytes : Byte) (v : DWord) (s : State)
    (h : Dev.hide m s.dev = x) : Dev.hide m ((execRegionWindowWriteApply off bytes v s).stateOr s).dev = x := by
  unfold execRegionWindowWriteApply
  apply State.on_hide
  repeat' first
    | with_reducible assumption
    | intro _
    | extract_lets
    | with_reducible apply hide_ite
    | with_reducible apply hide_next
    | with_reducible apply Dev.barWrite_hide (land_trans rfl hm)
    | with_reducible apply Dev.wakeAccess_hide (land_trans rfl hm)
    | (split
       all_goals try (rename_i heq
                      have h2 := congrArg Prod.snd heq
                      have h1 := congrArg Prod.fst heq
                      dsimp only at h1 h2
                      subst h1 h2
                      clear heq))
    | dsimp only [Lock.count]
    | dsimp +zetaDelta only

theorem Dev.setSupply_hide {m : Nat} (hm : 9007199254740992 &&& m = 9007199254740992) {x : Dev} (s : Dev) (a1 : Supply) (good : Bool)
    (h : Dev.hide m s = x) : Dev.hide m (Dev.setSupply s a1 good) = x := by
  unfold Dev.setSupply
  repeat' first
    | with_reducible assumption
    | intro _
    | extract_lets
    | with_reducible apply hide_ite
    | with_reducible apply hide_next
    | (split
       all_goals try (rename_i heq
                      have h2 := congrArg Prod.snd heq
                      have h1 := congrArg Prod.fst heq
                      dsimp only at h1 h2
                      subst h1 h2
                      clear heq))
    | with_reducible apply Dev.hide_upd_53 (land_trans rfl hm)
    | dsimp only [Lock.count]
    | dsimp +zetaDelta only

theorem execSupplyGood_hide {m : Nat} (hm : 9007199254743552 &&& m = 9007199254743552) {x : Dev} (a0 : Supply) (s : State)
    (h : Dev.hide m s.dev = x) : Dev.hide m ((execSupplyGood a0 s).stateOr s).dev = x := by
  unfold execSupplyGood
  apply State.on_hide
  repeat' first
    | with_reducible assumption
    | intro _
    | extract_lets
    | with_reducible apply hide_ite
    | with_reducible apply hide_next
    | with_reducible apply Dev.setSupply_hide (land_trans rfl hm)
    | with_reducible apply Dev.extUpdate_hide (land_trans rfl hm)
    | with_reducible apply Dev.modCell_hide (land_trans rfl hm)
    | with_reducible apply Dev.forEach_hide (land_trans rfl hm)
    | (split
       all_goals try (rename_i heq
                      have h2 := congrArg Prod.snd heq
                      have h1 := congrArg Prod.fst heq
                      dsimp only at h1 h2
                      subst h1 h2
                      clear heq))
    | dsimp only [Lock.count]
    | dsimp +zetaDelta only

theorem Dev.lvRefresh_hide {m : Nat} (hm : 1048576 &&& m = 1048576) {x : Dev} (s : Dev) (n : Nat)
    (h : Dev.hide m s = x) : Dev.hide m (Dev.lvRefresh s n) = x := by
  unfold Dev.lvRefresh
  repeat' first
    | with_reducible assumption
    | intro _
    | extract_lets
    | with_reducible apply hide_ite
    | with_reducible apply hide_next
    | with_reducible apply Dev.modNode_hide (land_trans rfl hm)
    | with_reducible apply hide_foldl
    | with_reducible apply hide_foldl2
    | with_reducible apply hide_foldl3
    | with_reducible apply hide_foldl4
    | (split
       all_goals try (rename_i heq
                      have h2 := congrArg Prod.snd heq
                      have h1 := congrArg Prod.fst heq
                      dsimp only at h1 h2
                      subst h1 h2
                      clear heq))
    | dsimp only [Lock.count]
    | dsimp +zetaDelta only

theorem Dev.popEdge_hide {m : Nat} (hm : 1024 &&& m = 1024) {x : Dev} (s : Dev) (b : Nat)
    (h : Dev.hide m s = x) : Dev.hide m (Dev.popEdge s b).2 = x := by
  unfold Dev.popEdge
  repeat' first
    | with_reducible assumption
    | intro _
    | extract_lets
    | with_reducible apply hide_ite
    | with_reducible apply hide_next
    | with_reducible apply Dev.modBlock_hide (land_trans rfl hm)
    | (split
       all_goals try (rename_i heq
                      have h2 := congrArg Prod.snd heq
                      have h1 := congrArg Prod.fst heq
                      dsimp only at h1 h2
                      subst h1 h2
                      clear heq))
    | dsimp only [Lock.count]
    | dsimp +zetaDelta only

theorem Dev.precheckFail_hide {m : Nat} (hm : 702570639013187073 &&& m = 702570639013187073) {x : Dev} (s : Dev) (c : Nat) (reason : Nat)
    (h : Dev.hide m s = x) : Dev.hide m (Dev.precheckFail s c reason) = x := by
  unfold Dev.precheckFail
  repeat' first
    | with_reducible assumption
    | intro _
    | extract_lets
    | with_reducible apply hide_ite
    | with_reducible apply hide_next
    | with_reducible apply Dev.goto_hide (land_trans rfl hm)
    | with_reducible apply Dev.modCell_hide (land_trans rfl hm)
    | with_reducible apply Dev.cellEvent_hide (land_trans rfl hm)
    | (split
       all_goals try (rename_i heq
                      have h2 := congrArg Prod.snd heq
                      have h1 := congrArg Prod.fst heq
                      dsimp only at h1 h2
                      subst h1 h2
                      clear heq))
    | dsimp only [Lock.count]
    | dsimp +zetaDelta only

theorem Dev.precheckStep_hide {m : Nat} (hm : 702570639013187073 &&& m = 702570639013187073) {x : Dev} (s : Dev) (c : Nat) (plausOk : Bool)
    (h : Dev.hide m s = x) : Dev.hide m (Dev.precheckStep s c plausOk) = x := by
  unfold Dev.precheckStep
  repeat' first
    | with_reducible assumption
    | intro _
    | extract_lets
    | with_reducible apply hide_ite
    | with_reducible apply hide_next
    | with_reducible apply Dev.precheckFail_hide (land_trans rfl hm)
    | with_reducible apply Dev.precheckDone_hide (land_trans rfl hm)
    | with_reducible apply Dev.modCell_hide (land_trans rfl hm)
    | (split
       all_goals try (rename_i heq
                      have h2 := congrArg Prod.snd heq
                      have h1 := congrArg Prod.fst heq
                      dsimp only at h1 h2
                      subst h1 h2
                      clear heq))
    | dsimp only [Lock.count]
    | dsimp +zetaDelta only

theorem Dev.laneSample_hide {m : Nat} (hm : 134218240 &&& m = 134218240) {x : Dev} (s : Dev) (c : Nat) (t : Nat) (osr : Nat) (xi : Int) (xv : Int) (after16 : Bool)
    (h : Dev.hide m s = x) : Dev.hide m (Dev.laneSample s c t osr xi xv after16) = x := by
  unfold Dev.laneSample
  repeat' first
    | with_reducible assumption
    | intro _
    | extract_lets
    | with_reducible apply hide_ite
    | with_reducible apply hide_next
    | with_reducible apply Dev.modCell_hide (land_trans rfl hm)
    | with_reducible apply Dev.modLane_hide (land_trans rfl hm)
    | (split
       all_goals try (rename_i heq
                      have h2 := congrArg Prod.snd heq
                      have h1 := congrArg Prod.fst heq
                      dsimp only at h1 h2
                      subst h1 h2
                      clear heq))
    | dsimp only [Lock.count]
    | dsimp +zetaDelta only

theorem Dev.vinSample_hide {m : Nat} (hm : 268436480 &&& m = 268436480) {x : Dev} (s : Dev) (b : Nat) (osr : Nat) (a3 : Int) (after16 : Bool)
    (h : Dev.hide m s = x) : Dev.hide m (Dev.vinSample s b osr a3 after16) = x := by
  unfold Dev.vinSample
  repeat' first
    | with_reducible assumption
    | intro _
    | extract_lets
    | with_reducible apply hide_ite
    | with_reducible apply hide_next
    | with_reducible apply Dev.modBlock_hide (land_trans rfl hm)
    | with_reducible apply Dev.modConv_hide (land_trans rfl hm)
    | (split
       all_goals try (rename_i heq
                      have h2 := congrArg Prod.snd heq
                      have h1 := congrArg Prod.fst heq
                      dsimp only at h1 h2
                      subst h1 h2
                      clear heq))
    | dsimp only [Lock.count]
    | dsimp +zetaDelta only

theorem Dev.commitCal_hide {m : Nat} (hm : 6442450944 &&& m = 6442450944) {x : Dev} (s : Dev) (b : Nat)
    (h : Dev.hide m s = x) : Dev.hide m (Dev.commitCal s b) = x := by
  unfold Dev.commitCal
  repeat' first
    | with_reducible assumption
    | intro _
    | extract_lets
    | with_reducible apply hide_ite
    | with_reducible apply hide_next
    | with_reducible apply Dev.commitReg_hide (land_trans rfl hm)
    | with_reducible apply Dev.forEach_hide (land_trans rfl hm)
    | (split
       all_goals try (rename_i heq
                      have h2 := congrArg Prod.snd heq
                      have h1 := congrArg Prod.fst heq
                      dsimp only at h1 h2
                      subst h1 h2
                      clear heq))
    | dsimp only [Lock.count]
    | dsimp +zetaDelta only

theorem execDecimationBoundary_hide {m : Nat} (hm : 702570645455638017 &&& m = 702570645455638017) {x : Dev} (b : BlockIx) (a1 : BlockInputs) (s : State)
    (h : Dev.hide m s.dev = x) : Dev.hide m ((execDecimationBoundary b a1 s).stateOr s).dev = x := by
  unfold execDecimationBoundary
  apply State.on_hide
  repeat' first
    | with_reducible assumption
    | intro _
    | extract_lets
    | with_reducible apply hide_ite
    | with_reducible apply hide_next
    | with_reducible apply Dev.commitCal_hide (land_trans rfl hm)
    | with_reducible apply Dev.vinSample_hide (land_trans rfl hm)
    | with_reducible apply Dev.laneSample_hide (land_trans rfl hm)
    | with_reducible apply Dev.precheckStep_hide (land_trans rfl hm)
    | with_reducible apply Dev.commitOsr_hide (land_trans rfl hm)
    | with_reducible apply Dev.modConv_hide (land_trans rfl hm)
    | with_reducible apply Dev.modLane_hide (land_trans rfl hm)
    | with_reducible apply Dev.forEach_hide (land_trans rfl hm)
    | (split
       all_goals try (rename_i heq
                      have h2 := congrArg Prod.snd heq
                      have h1 := congrArg Prod.fst heq
                      dsimp only at h1 h2
                      subst h1 h2
                      clear heq))
    | dsimp only [Lock.count]
    | dsimp +zetaDelta only

theorem execDioFail_hide {m : Nat} (hm : 847248886597688833 &&& m = 847248886597688833) {x : Dev} (live : Bool) (s : State)
    (h : Dev.hide m s.dev = x) : Dev.hide m ((execDioFail live s).stateOr s).dev = x := by
  unfold execDioFail
  apply State.on_hide
  repeat' first
    | with_reducible assumption
    | intro _
    | extract_lets
    | with_reducible apply hide_ite
    | with_reducible apply hide_next
    | with_reducible apply Dev.rvLive_hide (land_trans rfl hm)
    | (split
       all_goals try (rename_i heq
                      have h2 := congrArg Prod.snd heq
                      have h1 := congrArg Prod.fst heq
                      dsimp only at h1 h2
                      subst h1 h2
                      clear heq))
    | dsimp only [Lock.count]
    | dsimp +zetaDelta only

theorem execPackCutoff_hide {m : Nat} (hm : 18577348462907392 &&& m = 18577348462907392) {x : Dev} (s : State)
    (h : Dev.hide m s.dev = x) : Dev.hide m ((execPackCutoff s).stateOr s).dev = x := by
  unfold execPackCutoff
  apply State.on_hide
  repeat' first
    | with_reducible assumption
    | intro _
    | extract_lets
    | with_reducible apply hide_ite
    | with_reducible apply hide_next
    | with_reducible apply Dev.rvEvent_hide (land_trans rfl hm)
    | with_reducible apply Dev.modRv_hide (land_trans rfl hm)
    | (split
       all_goals try (rename_i heq
                      have h2 := congrArg Prod.snd heq
                      have h1 := congrArg Prod.fst heq
                      dsimp only at h1 h2
                      subst h1 h2
                      clear heq))
    | dsimp only [Lock.count]
    | dsimp +zetaDelta only

theorem execOpQuery_hide {m : Nat} (hm : 714990722360544897 &&& m = 714990722360544897) {x : Dev} (d : Desc) (s : State)
    (h : Dev.hide m s.dev = x) : Dev.hide m ((execOpQuery d s).stateOr s).dev = x := by
  unfold execOpQuery
  apply State.on_hide
  repeat' first
    | with_reducible assumption
    | intro _
    | extract_lets
    | with_reducible apply hide_ite
    | with_reducible apply hide_next
    | with_reducible apply Dev.opCmd_hide (land_trans rfl hm)
    | with_reducible apply Dev.reply_hide (land_trans rfl hm)
    | (split
       all_goals try (rename_i heq
                      have h2 := congrArg Prod.snd heq
                      have h1 := congrArg Prod.fst heq
                      dsimp only at h1 h2
                      subst h1 h2
                      clear heq))
    | dsimp only [Lock.count]
    | dsimp +zetaDelta only

theorem Dev.opRetry_hide {m : Nat} (hm : 18084767253659648 &&& m = 18084767253659648) {x : Dev} (s : Dev) (q : Nat)
    (h : Dev.hide m s = x) : Dev.hide m (Dev.opRetry s q) = x := by
  unfold Dev.opRetry
  repeat' first
    | with_reducible assumption
    | intro _
    | extract_lets
    | with_reducible apply hide_ite
    | with_reducible apply hide_next
    | with_reducible apply Dev.opGoto_hide (land_trans rfl hm)
    | with_reducible apply Dev.setOp_hide (land_trans rfl hm)
    | with_reducible apply Dev.forEach_hide (land_trans rfl hm)
    | (split
       all_goals try (rename_i heq
                      have h2 := congrArg Prod.snd heq
                      have h1 := congrArg Prod.fst heq
                      dsimp only at h1 h2
                      subst h1 h2
                      clear heq))
    | dsimp only [Lock.count]
    | dsimp +zetaDelta only

theorem execLimitRelease_hide {m : Nat} (hm : 702570639013187073 &&& m = 702570639013187073) {x : Dev} (c : CellIx) (s : State)
    (h : Dev.hide m s.dev = x) : Dev.hide m ((execLimitRelease c s).stateOr s).dev = x := by
  unfold execLimitRelease
  apply State.on_hide
  repeat' first
    | with_reducible assumption
    | intro _
    | extract_lets
    | with_reducible apply hide_ite
    | with_reducible apply hide_next
    | with_reducible apply Dev.autoNext_hide (land_trans rfl hm)
    | with_reducible apply Dev.levelTrips_hide (land_trans rfl hm)
    | with_reducible apply Dev.goto_hide (land_trans rfl hm)
    | (split
       all_goals try (rename_i heq
                      have h2 := congrArg Prod.snd heq
                      have h1 := congrArg Prod.fst heq
                      dsimp only at h1 h2
                      subst h1 h2
                      clear heq))
    | dsimp only [Lock.count]
    | dsimp +zetaDelta only

theorem execAuxUrgentWrite_hide {m : Nat} (hm : 536870912 &&& m = 536870912) {x : Dev} (g : RegionIx) (v : Word) (s : State)
    (h : Dev.hide m s.dev = x) : Dev.hide m ((execAuxUrgentWrite g v s).stateOr s).dev = x := by
  unfold execAuxUrgentWrite
  apply State.on_hide
  repeat' first
    | with_reducible assumption
    | intro _
    | extract_lets
    | with_reducible apply hide_ite
    | with_reducible apply hide_next
    | with_reducible apply Dev.auxUrgent_hide (land_trans rfl hm)
    | (split
       all_goals try (rename_i heq
                      have h2 := congrArg Prod.snd heq
                      have h1 := congrArg Prod.fst heq
                      dsimp only at h1 h2
                      subst h1 h2
                      clear heq))
    | dsimp only [Lock.count]
    | dsimp +zetaDelta only

theorem Dev.rvHoRead_hide {m : Nat} (hm : 562949953421312 &&& m = 562949953421312) {x : Dev} (s : Dev)
    (h : Dev.hide m s = x) : Dev.hide m (Dev.rvHoRead s).2 = x := by
  unfold Dev.rvHoRead
  repeat' first
    | with_reducible assumption
    | intro _
    | extract_lets
    | with_reducible apply hide_ite
    | with_reducible apply hide_next
    | with_reducible apply Dev.modRv_hide (land_trans rfl hm)
    | (split
       all_goals try (rename_i heq
                      have h2 := congrArg Prod.snd heq
                      have h1 := congrArg Prod.fst heq
                      dsimp only at h1 h2
                      subst h1 h2
                      clear heq))
    | dsimp only [Lock.count]
    | dsimp +zetaDelta only

theorem Dev.rvRead_hide {m : Nat} (hm : 18577382822647808 &&& m = 18577382822647808) {x : Dev} (s : Dev) (o : Nat)
    (h : Dev.hide m s = x) : Dev.hide m (Dev.rvRead s o).2 = x := by
  unfold Dev.rvRead
  repeat' first
    | with_reducible assumption
    | intro _
    | extract_lets
    | with_reducible apply hide_ite
    | with_reducible apply hide_next
    | with_reducible apply Dev.rvHoRead_hide (land_trans rfl hm)
    | with_reducible apply Dev.rvFaultRead_hide (land_trans rfl hm)
    | (split
       all_goals try (rename_i heq
                      have h2 := congrArg Prod.snd heq
                      have h1 := congrArg Prod.fst heq
                      dsimp only at h1 h2
                      subst h1 h2
                      clear heq))
    | dsimp only [Lock.count]
    | dsimp +zetaDelta only

theorem Dev.towRead_hide {m : Nat} (hm : 1125899906842624 &&& m = 1125899906842624) {x : Dev} (s : Dev) (t : Nat) (o : Nat)
    (h : Dev.hide m s = x) : Dev.hide m (Dev.towRead s t o).2 = x := by
  unfold Dev.towRead
  repeat' first
    | with_reducible assumption
    | intro _
    | extract_lets
    | with_reducible apply hide_ite
    | with_reducible apply hide_next
    | with_reducible apply Dev.modTow_hide (land_trans rfl hm)
    | (split
       all_goals try (rename_i heq
                      have h2 := congrArg Prod.snd heq
                      have h1 := congrArg Prod.fst heq
                      dsimp only at h1 h2
                      subst h1 h2
                      clear heq))
    | dsimp only [Lock.count]
    | dsimp +zetaDelta only

theorem Dev.fcHstatRead_hide {m : Nat} (hm : 34359738368 &&& m = 34359738368) {x : Dev} (s : Dev) (k : Nat)
    (h : Dev.hide m s = x) : Dev.hide m (Dev.fcHstatRead s k).2 = x := by
  unfold Dev.fcHstatRead
  repeat' first
    | with_reducible assumption
    | intro _
    | extract_lets
    | with_reducible apply hide_ite
    | with_reducible apply hide_next
    | with_reducible apply Dev.modColl_hide (land_trans rfl hm)
    | (split
       all_goals try (rename_i heq
                      have h2 := congrArg Prod.snd heq
                      have h1 := congrArg Prod.fst heq
                      dsimp only at h1 h2
                      subst h1 h2
                      clear heq))
    | dsimp only [Lock.count]
    | dsimp +zetaDelta only

theorem Dev.readClears_hide {m : Nat} (hm : 35782541361290560 &&& m = 35782541361290560) {x : Dev} (s : Dev) (off : Nat)
    (h : Dev.hide m s = x) : Dev.hide m (Dev.readClears s off) = x := by
  unfold Dev.readClears
  repeat' first
    | with_reducible assumption
    | intro _
    | extract_lets
    | with_reducible apply hide_ite
    | with_reducible apply hide_next
    | with_reducible apply Dev.fcHstatRead_hide (land_trans rfl hm)
    | with_reducible apply Dev.towRead_hide (land_trans rfl hm)
    | with_reducible apply Dev.rvRead_hide (land_trans rfl hm)
    | with_reducible apply Dev.modSv_hide (land_trans rfl hm)
    | with_reducible apply Dev.fcCountRead_hide (land_trans rfl hm)
    | with_reducible apply Dev.modLockTable_hide (land_trans rfl hm)
    | with_reducible apply Dev.modAux_hide (land_trans rfl hm)
    | with_reducible apply Dev.modBz_hide (land_trans rfl hm)
    | with_reducible apply Dev.modMg_hide (land_trans rfl hm)
    | with_reducible apply Dev.modSlice_hide (land_trans rfl hm)
    | with_reducible apply Dev.modBlock_hide (land_trans rfl hm)
    | with_reducible apply Dev.modRegion_hide (land_trans rfl hm)
    | (split
       all_goals try (rename_i heq
                      have h2 := congrArg Prod.snd heq
                      have h1 := congrArg Prod.fst heq
                      dsimp only at h1 h2
                      subst h1 h2
                      clear heq))
    | with_reducible apply Dev.hide_upd_6 (land_trans rfl hm)
    | with_reducible apply Dev.hide_upd_45 (land_trans rfl hm)
    | with_reducible apply Dev.hide_upd_8 (land_trans rfl hm)
    | with_reducible apply Dev.hide_upd_24 (land_trans rfl hm)
    | with_reducible apply Dev.hide_upd_53 (land_trans rfl hm)
    | dsimp only [Lock.count]
    | dsimp +zetaDelta only

theorem Dev.readTbLow_hide {m : Nat} (hm : 8 &&& m = 8) {x : Dev} (s : Dev)
    (h : Dev.hide m s = x) : Dev.hide m (Dev.readTbLow s).2 = x := by
  unfold Dev.readTbLow
  repeat' first
    | with_reducible assumption
    | intro _
    | extract_lets
    | with_reducible apply hide_ite
    | with_reducible apply hide_next
    | (split
       all_goals try (rename_i heq
                      have h2 := congrArg Prod.snd heq
                      have h1 := congrArg Prod.fst heq
                      dsimp only at h1 h2
                      subst h1 h2
                      clear heq))
    | with_reducible apply Dev.hide_upd_3 (land_trans rfl hm)
    | dsimp only [Lock.count]
    | dsimp +zetaDelta only

theorem Dev.popHistory_hide {m : Nat} (hm : 34359738368 &&& m = 34359738368) {x : Dev} (s : Dev) (k : Nat)
    (h : Dev.hide m s = x) : Dev.hide m (Dev.popHistory s k).2 = x := by
  unfold Dev.popHistory
  repeat' first
    | with_reducible assumption
    | intro _
    | extract_lets
    | with_reducible apply hide_ite
    | with_reducible apply hide_next
    | with_reducible apply Dev.modColl_hide (land_trans rfl hm)
    | (split
       all_goals try (rename_i heq
                      have h2 := congrArg Prod.snd heq
                      have h1 := congrArg Prod.fst heq
                      dsimp only at h1 h2
                      subst h1 h2
                      clear heq))
    | dsimp only [Lock.count]
    | dsimp +zetaDelta only

theorem forall_mem_ite {α : Type} {P : α → Prop} {c : Prop} [Decidable c] {a b : Option α} (ha : ∀ r ∈ a, P r)
    (hb : ∀ r ∈ b, P r) : ∀ r ∈ (if c then a else b), P r := by split <;> assumption

theorem forall_mem_some {α : Type} {P : α → Prop} {p : α} (h : P p) : ∀ r ∈ some p, P r := by
  intro r hr; cases hr; exact h

theorem forall_mem_none {α : Type} {P : α → Prop} : ∀ r ∈ (none : Option α), P r := by
  intro r hr; cases hr

theorem Dev.popRead_hide {m : Nat} (hm : 1125934266582016 &&& m = 1125934266582016) {x : Dev} (s : Dev) (off : Nat) (h : Dev.hide m s = x) :
    ∀ r ∈ s.popRead off, Dev.hide m r.2 = x := by
  unfold Dev.popRead
  generalize Reg.region off = rg
  generalize Reg.inWindow off = w
  cases rg <;> dsimp only
  all_goals repeat' first
    | with_reducible apply forall_mem_ite
    | exact forall_mem_none
    | exact forall_mem_some (Dev.popEdge_hide (land_trans rfl hm) _ _ h)
    | exact forall_mem_some (Dev.popHistory_hide (land_trans rfl hm) _ _ h)
    | exact forall_mem_some (Dev.popNotify_hide (land_trans rfl hm) _ _ h)

theorem Dev.readWords_hide {m : Nat} (hm : 35782541369679176 &&& m = 35782541369679176) {x : Dev} (s : Dev) (off : Nat) (bytes : Nat)
    (h : Dev.hide m s = x) : Dev.hide m (Dev.readWords s off bytes).2 = x := by
  unfold Dev.readWords
  split
  · rename_i r hr
    split
    · exact Dev.popRead_hide (land_trans rfl hm) s off h r hr
    · exact Dev.badAccess_hide (land_trans rfl hm) s h
  · repeat' first
      | with_reducible assumption
      | intro _
      | extract_lets
      | with_reducible apply Dev.readTbLow_hide (land_trans rfl hm)
      | with_reducible apply Dev.forEach_hide (land_trans rfl hm)
      | with_reducible apply Dev.readClears_hide (land_trans rfl hm)
      | split

theorem Dev.ndlReadMap_cases {m : Nat} {x : Dev} (s : Dev) (cl : Option MemClass) (past : Bool)
    (r1 r2 : List Word × Dev) (r3 : Nat × Dev) (w : Word) (h : Dev.hide m s = x) (h1 : Dev.hide m r1.2 = x)
    (h2 : Dev.hide m r2.2 = x) (h3 : Dev.hide m r3.2 = x) :
    Dev.hide m (match cl with
      | some .chip =>
        let r := r1
        if past then (0, s) else (r.1.headD 0, r.2)
      | some .island =>
        let r := r2
        (r.1.headD 0, r.2)
      | some .bg =>
        let r := r3
        (Reg.w r.1, r.2)
      | _ => (w, s)).2 = x := by
  split
  · dsimp only; split <;> assumption
  all_goals assumption

theorem Dev.ndlReadMap_hide {m : Nat} (hm : 35782541369679177 &&& m = 35782541369679177) {x : Dev} (s : Dev) (e : Nat) (a : Nat)
    (h : Dev.hide m s = x) : Dev.hide m (Dev.ndlReadMap s e a).2 = x := by
  unfold Dev.ndlReadMap
  have h1 := Dev.readWords_hide (land_trans rfl hm) s (Mem.chipOff a) 4 h
  have h2 := Dev.readWords_hide (land_trans rfl hm) s (islandOff e a) 4 h
  have h3 := Dev.bgRead_hide (land_trans rfl hm) s e (Mem.bgOff a) 4 h
  exact Dev.ndlReadMap_cases s _ _ _ _ _ _ h h1 h2 h3

theorem execOutOv_hide {m : Nat} (hm : 702570639013187073 &&& m = 702570639013187073) {x : Dev} (c : CellIx) (also : BitVec 16) (s : State)
    (h : Dev.hide m s.dev = x) : Dev.hide m ((execOutOv c also s).stateOr s).dev = x := by
  unfold execOutOv
  apply State.on_hide
  repeat' first
    | with_reducible assumption
    | intro _
    | extract_lets
    | with_reducible apply hide_ite
    | with_reducible apply hide_next
    | with_reducible apply Dev.checkFires_hide (land_trans rfl hm)
    | (split
       all_goals try (rename_i heq
                      have h2 := congrArg Prod.snd heq
                      have h1 := congrArg Prod.fst heq
                      dsimp only at h1 h2
                      subst h1 h2
                      clear heq))
    | dsimp only [Lock.count]
    | dsimp +zetaDelta only

theorem Dev.opReply_hide {m : Nat} (hm : 36063981391052800 &&& m = 36063981391052800) {x : Dev} (s : Dev) (d : Desc) (op : Nat) (n : Nat)
    (h : Dev.hide m s = x) : Dev.hide m (Dev.opReply s d op n) = x := by
  unfold Dev.opReply
  repeat' first
    | with_reducible assumption
    | intro _
    | extract_lets
    | with_reducible apply hide_ite
    | with_reducible apply hide_next
    | with_reducible apply Dev.reply_hide (land_trans rfl hm)
    | (split
       all_goals try (rename_i heq
                      have h2 := congrArg Prod.snd heq
                      have h1 := congrArg Prod.fst heq
                      dsimp only at h1 h2
                      subst h1 h2
                      clear heq))
    | dsimp only [Lock.count]
    | dsimp +zetaDelta only

theorem execOpSuspend_hide {m : Nat} (hm : 715061091104722561 &&& m = 715061091104722561) {x : Dev} (d : Desc) (s : State)
    (h : Dev.hide m s.dev = x) : Dev.hide m ((execOpSuspend d s).stateOr s).dev = x := by
  unfold execOpSuspend
  apply State.on_hide
  repeat' first
    | with_reducible assumption
    | intro _
    | extract_lets
    | with_reducible apply hide_ite
    | with_reducible apply hide_next
    | with_reducible apply Dev.opReply_hide (land_trans rfl hm)
    | with_reducible apply Dev.setOp_hide (land_trans rfl hm)
    | with_reducible apply Dev.opCmd_hide (land_trans rfl hm)
    | (split
       all_goals try (rename_i heq
                      have h2 := congrArg Prod.snd heq
                      have h1 := congrArg Prod.fst heq
                      dsimp only at h1 h2
                      subst h1 h2
                      clear heq))
    | dsimp only [Lock.count]
    | dsimp +zetaDelta only

theorem Dev.chipLoad_hide {m : Nat} (hm : 35782541369679176 &&& m = 35782541369679176) {x : Dev} (s : Dev) (a : Nat) (size : Nat)
    (h : Dev.hide m s = x) : Dev.hide m (Dev.chipLoad s a size).2 = x := by
  unfold Dev.chipLoad
  split
  · exact h
  · have hr := Dev.readWords_hide (land_trans rfl hm) s (Mem.chipOff a) size h
    revert hr
    rcases s.readWords (Mem.chipOff a) size with ⟨l, t⟩
    exact id

theorem Dev.loadError_hide {m : Nat} (hm : 846685936644267521 &&& m = 846685936644267521) {x : Dev} (s : Dev) (e : Nat) (l : LoadEnt) (rest : List LoadEnt)
    (h : Dev.hide m s = x) : Dev.hide m (Dev.loadError s e l rest) = x := by
  unfold Dev.loadError
  repeat' first
    | with_reducible assumption
    | intro _
    | extract_lets
    | with_reducible apply hide_ite
    | with_reducible apply hide_next
    | with_reducible apply Dev.haltSettle_hide (land_trans rfl hm)
    | with_reducible apply Dev.exception_hide (land_trans rfl hm)
    | with_reducible apply Dev.occurCentral_hide (land_trans rfl hm)
    | with_reducible apply Dev.modBarge_hide (land_trans rfl hm)
    | (split
       all_goals try (rename_i heq
                      have h2 := congrArg Prod.snd heq
                      have h1 := congrArg Prod.fst heq
                      dsimp only at h1 h2
                      subst h1 h2
                      clear heq))
    | dsimp only [Lock.count]
    | dsimp +zetaDelta only

theorem execLoadResult_hide {m : Nat} (hm : 864454045111164745 &&& m = 864454045111164745) {x : Dev} (e : BargeIx) (i : Fin 4) (ecc : EccRes) (s : State)
    (h : Dev.hide m s.dev = x) : Dev.hide m ((execLoadResult e i ecc s).stateOr s).dev = x := by
  unfold execLoadResult
  apply State.on_hide
  repeat' first
    | with_reducible assumption
    | intro _
    | extract_lets
    | with_reducible apply hide_ite
    | with_reducible apply hide_next
    | with_reducible apply Dev.loadError_hide (land_trans rfl hm)
    | with_reducible apply Dev.chipLoad_hide (land_trans rfl hm)
    | with_reducible apply Dev.answerLoad_hide (land_trans rfl hm)
    | with_reducible apply Dev.eccCorrected_hide (land_trans rfl hm)
    | (split
       all_goals try (rename_i heq
                      have h2 := congrArg Prod.snd heq
                      have h1 := congrArg Prod.fst heq
                      dsimp only at h1 h2
                      subst h1 h2
                      clear heq))
    | dsimp only [Lock.count]
    | dsimp +zetaDelta only

theorem execForwardMemoryExpiry_hide {m : Nat} (hm : 4398046511104 &&& m = 4398046511104) {x : Dev} (pos : Fin 8) (q : BitVec 16) (s : State)
    (h : Dev.hide m s.dev = x) : Dev.hide m ((execForwardMemoryExpiry pos q s).stateOr s).dev = x := by
  unfold execForwardMemoryExpiry
  apply State.on_hide
  repeat' first
    | with_reducible assumption
    | intro _
    | extract_lets
    | with_reducible apply hide_ite
    | with_reducible apply hide_next
    | (split
       all_goals try (rename_i heq
                      have h2 := congrArg Prod.snd heq
                      have h1 := congrArg Prod.fst heq
                      dsimp only at h1 h2
                      subst h1 h2
                      clear heq))
    | with_reducible apply Dev.hide_upd_42 (land_trans rfl hm)
    | dsimp only [Lock.count]
    | dsimp +zetaDelta only

theorem execModerationCheck_hide {m : Nat} (hm : 576495936675512320 &&& m = 576495936675512320) {x : Dev} (ring : RingIx) (us : BitVec 17) (s : State)
    (h : Dev.hide m s.dev = x) : Dev.hide m ((execModerationCheck ring us s).stateOr s).dev = x := by
  unfold execModerationCheck
  apply State.on_hide
  repeat' first
    | with_reducible assumption
    | intro _
    | extract_lets
    | with_reducible apply hide_ite
    | with_reducible apply hide_next
    | with_reducible apply Dev.moderate_hide (land_trans rfl hm)
    | with_reducible apply Dev.modRing_hide (land_trans rfl hm)
    | (split
       all_goals try (rename_i heq
                      have h2 := congrArg Prod.snd heq
                      have h1 := congrArg Prod.fst heq
                      dsimp only at h1 h2
                      subst h1 h2
                      clear heq))
    | dsimp only [Lock.count]
    | dsimp +zetaDelta only

theorem execTowpathRecover_hide {m : Nat} (hm : 859106019991625345 &&& m = 859106019991625345) {x : Dev} (d : Desc) (r : Recovery) (s : State)
    (h : Dev.hide m s.dev = x) : Dev.hide m ((execTowpathRecover d r s).stateOr s).dev = x := by
  unfold execTowpathRecover
  apply State.on_hide
  repeat' first
    | with_reducible assumption
    | intro _
    | extract_lets
    | with_reducible apply hide_ite
    | with_reducible apply hide_next
    | with_reducible apply Dev.twClear_hide (land_trans rfl hm)
    | with_reducible apply Dev.twRecovered_hide (land_trans rfl hm)
    | with_reducible apply Dev.cmd_hide (land_trans rfl hm)
    | with_reducible apply Dev.reply_hide (land_trans rfl hm)
    | (split
       all_goals try (rename_i heq
                      have h2 := congrArg Prod.snd heq
                      have h1 := congrArg Prod.fst heq
                      dsimp only at h1 h2
                      subst h1 h2
                      clear heq))
    | dsimp only [Lock.count]
    | dsimp +zetaDelta only

theorem execMgmtReply_hide {m : Nat} (hm : 714990722360544897 &&& m = 714990722360544897) {x : Dev} (d : Desc) (data : Option (List Byte)) (s : State)
    (h : Dev.hide m s.dev = x) : Dev.hide m ((execMgmtReply d data s).stateOr s).dev = x := by
  unfold execMgmtReply
  apply State.on_hide
  repeat' first
    | with_reducible assumption
    | intro _
    | extract_lets
    | with_reducible apply hide_ite
    | with_reducible apply hide_next
    | with_reducible apply Dev.modMg_hide (land_trans rfl hm)
    | with_reducible apply Dev.cmd_hide (land_trans rfl hm)
    | with_reducible apply Dev.fail_hide (land_trans rfl hm)
    | with_reducible apply Dev.reply_hide (land_trans rfl hm)
    | (split
       all_goals try (rename_i heq
                      have h2 := congrArg Prod.snd heq
                      have h1 := congrArg Prod.fst heq
                      dsimp only at h1 h2
                      subst h1 h2
                      clear heq))
    | dsimp only [Lock.count]
    | dsimp +zetaDelta only

theorem execCalStore_hide {m : Nat} (hm : 715201828593077889 &&& m = 715201828593077889) {x : Dev} (d : Desc) (s : State)
    (h : Dev.hide m s.dev = x) : Dev.hide m ((execCalStore d s).stateOr s).dev = x := by
  unfold execCalStore
  apply State.on_hide
  repeat' first
    | with_reducible assumption
    | intro _
    | extract_lets
    | with_reducible apply hide_ite
    | with_reducible apply hide_next
    | with_reducible apply Dev.opStart_hide (land_trans rfl hm)
    | with_reducible apply Dev.cmd_hide (land_trans rfl hm)
    | with_reducible apply Dev.fail_hide (land_trans rfl hm)
    | (split
       all_goals try (rename_i heq
                      have h2 := congrArg Prod.snd heq
                      have h1 := congrArg Prod.fst heq
                      dsimp only at h1 h2
                      subst h1 h2
                      clear heq))
    | dsimp only [Lock.count]
    | dsimp +zetaDelta only

theorem execDbgResumeReq_hide {m : Nat} (hm : 4096 &&& m = 4096) {x : Dev} (mask : DWord) (s : State)
    (h : Dev.hide m s.dev = x) : Dev.hide m ((execDbgResumeReq mask s).stateOr s).dev = x := by
  unfold execDbgResumeReq
  apply State.on_hide
  repeat' first
    | with_reducible assumption
    | intro _
    | extract_lets
    | with_reducible apply hide_ite
    | with_reducible apply hide_next
    | with_reducible apply Dev.dbgResumeReq_hide (land_trans rfl hm)
    | (split
       all_goals try (rename_i heq
                      have h2 := congrArg Prod.snd heq
                      have h1 := congrArg Prod.fst heq
                      dsimp only at h1 h2
                      subst h1 h2
                      clear heq))
    | dsimp only [Lock.count]
    | dsimp +zetaDelta only

theorem execSliceStart_hide {m : Nat} (hm : 714990724541587073 &&& m = 714990724541587073) {x : Dev} (d : Desc) (s : State)
    (h : Dev.hide m s.dev = x) : Dev.hide m ((execSliceStart d s).stateOr s).dev = x := by
  unfold execSliceStart
  apply State.on_hide
  repeat' first
    | with_reducible assumption
    | intro _
    | extract_lets
    | with_reducible apply hide_ite
    | with_reducible apply hide_next
    | with_reducible apply Dev.softStart_hide (land_trans rfl hm)
    | with_reducible apply Dev.cmd_hide (land_trans rfl hm)
    | with_reducible apply Dev.fail_hide (land_trans rfl hm)
    | with_reducible apply Dev.reply_hide (land_trans rfl hm)
    | with_reducible apply Dev.putReg_hide (land_trans rfl hm)
    | (split
       all_goals try (rename_i heq
                      have h2 := congrArg Prod.snd heq
                      have h1 := congrArg Prod.fst heq
                      dsimp only at h1 h2
                      subst h1 h2
                      clear heq))
    | dsimp only [Lock.count]
    | dsimp +zetaDelta only

theorem execErrNToggle_hide {m : Nat} (hm : 68719476736 &&& m = 68719476736) {x : Dev} (s : State)
    (h : Dev.hide m s.dev = x) : Dev.hide m ((execErrNToggle s).stateOr s).dev = x := by
  unfold execErrNToggle
  apply State.on_hide
  repeat' first
    | with_reducible assumption
    | intro _
    | extract_lets
    | with_reducible apply hide_ite
    | with_reducible apply hide_next
    | (split
       all_goals try (rename_i heq
                      have h2 := congrArg Prod.snd heq
                      have h1 := congrArg Prod.fst heq
                      dsimp only at h1 h2
                      subst h1 h2
                      clear heq))
    | with_reducible apply Dev.hide_upd_36 (land_trans rfl hm)
    | dsimp only [Lock.count]
    | dsimp +zetaDelta only

end Sys2Proof.Machine
end

