-- ==== Sys2Proof/Laws/FrameE.lean ====
section
/-! SUPPORT. Frames of the operations and the meanings, in the order they call each other: which parts of the device each
changes at most. File 5 of 7. -/

set_option linter.unreachableTactic false
set_option linter.unusedTactic false

namespace Sys2Proof.Machine

theorem execFetchLineFill_hide {m : Nat} (hm : 4096 &&& m = 4096) {x : Dev} (e : BargeIx) (s : State)
    (h : Dev.hide m s.dev = x) : Dev.hide m ((execFetchLineFill e s).stateOr s).dev = x := by
  unfold execFetchLineFill
  apply State.on_hide
  repeat' first
    | with_reducible assumption
    | intro _
    | extract_lets
    | with_reducible apply hide_ite
    | with_reducible apply hide_next
    | with_reducible apply Dev.setBarge_hide (land_trans rfl hm)
    | (split
       all_goals try (rename_i heq
                      have h2 := congrArg Prod.snd heq
                      have h1 := congrArg Prod.fst heq
                      dsimp only at h1 h2
                      subst h1 h2
                      clear heq))
    | dsimp only [Lock.count]
    | dsimp +zetaDelta only

theorem execChargeEnable_hide {m : Nat} (hm : 847248886597688833 &&& m = 847248886597688833) {x : Dev} (s : State)
    (h : Dev.hide m s.dev = x) : Dev.hide m ((execChargeEnable s).stateOr s).dev = x := by
  unfold execChargeEnable
  apply State.on_hide
  repeat' first
    | with_reducible assumption
    | intro _
    | extract_lets
    | with_reducible apply hide_ite
    | with_reducible apply hide_next
    | with_reducible apply Dev.chgOn_hide (land_trans rfl hm)
    | (split
       all_goals try (rename_i heq
                      have h2 := congrArg Prod.snd heq
                      have h1 := congrArg Prod.fst heq
                      dsimp only at h1 h2
                      subst h1 h2
                      clear heq))
    | dsimp only [Lock.count]
    | dsimp +zetaDelta only

theorem Dev.tryRejoin_hide {m : Nat} (hm : 848093930539982601 &&& m = 848093930539982601) {x : Dev} (s : Dev) (g : Nat)
    (h : Dev.hide m s = x) : Dev.hide m (Dev.tryRejoin s g) = x := by
  unfold Dev.tryRejoin
  repeat' first
    | with_reducible assumption
    | intro _
    | extract_lets
    | with_reducible apply hide_ite
    | with_reducible apply hide_next
    | with_reducible apply Dev.rejoin_hide (land_trans rfl hm)
    | (split
       all_goals try (rename_i heq
                      have h2 := congrArg Prod.snd heq
                      have h1 := congrArg Prod.fst heq
                      dsimp only at h1 h2
                      subst h1 h2
                      clear heq))
    | dsimp only [Lock.count]
    | dsimp +zetaDelta only

theorem execClassWindowExpiry_hide {m : Nat} (hm : 512 &&& m = 512) {x : Dev} (c : CellIx) (a1 : Fin 8) (s : State)
    (h : Dev.hide m s.dev = x) : Dev.hide m ((execClassWindowExpiry c a1 s).stateOr s).dev = x := by
  unfold execClassWindowExpiry
  apply State.on_hide
  repeat' first
    | with_reducible assumption
    | intro _
    | extract_lets
    | with_reducible apply hide_ite
    | with_reducible apply hide_next
    | with_reducible apply Dev.modCell_hide (land_trans rfl hm)
    | (split
       all_goals try (rename_i heq
                      have h2 := congrArg Prod.snd heq
                      have h1 := congrArg Prod.fst heq
                      dsimp only at h1 h2
                      subst h1 h2
                      clear heq))
    | dsimp only [Lock.count]
    | dsimp +zetaDelta only

theorem execKill_hide {m : Nat} (hm : 18014404985493504 &&& m = 18014404985493504) {x : Dev} (k : SliceIx) (s : State)
    (h : Dev.hide m s.dev = x) : Dev.hide m ((execKill k s).stateOr s).dev = x := by
  unfold execKill
  apply State.on_hide
  repeat' first
    | with_reducible assumption
    | intro _
    | extract_lets
    | with_reducible apply hide_ite
    | with_reducible apply hide_next
    | with_reducible apply Dev.killSlice_hide (land_trans rfl hm)
    | (split
       all_goals try (rename_i heq
                      have h2 := congrArg Prod.snd heq
                      have h1 := congrArg Prod.fst heq
                      dsimp only at h1 h2
                      subst h1 h2
                      clear heq))
    | dsimp only [Lock.count]
    | dsimp +zetaDelta only

theorem execDbgKey_hide {m : Nat} (hm : 846685936644529665 &&& m = 846685936644529665) {x : Dev} (k0 : DWord) (k1 : DWord) (k2 : DWord) (k3 : DWord) (s : State)
    (h : Dev.hide m s.dev = x) : Dev.hide m ((execDbgKey k0 k1 k2 k3 s).stateOr s).dev = x := by
  unfold execDbgKey
  apply State.on_hide
  repeat' first
    | with_reducible assumption
    | intro _
    | extract_lets
    | with_reducible apply hide_ite
    | with_reducible apply hide_next
    | with_reducible apply Dev.dbgSetKey_hide (land_trans rfl hm)
    | (split
       all_goals try (rename_i heq
                      have h2 := congrArg Prod.snd heq
                      have h1 := congrArg Prod.fst heq
                      dsimp only at h1 h2
                      subst h1 h2
                      clear heq))
    | dsimp only [Lock.count]
    | dsimp +zetaDelta only

theorem execReadEnergy_hide {m : Nat} (hm : 714955537989504641 &&& m = 714955537989504641) {x : Dev} (n : BlockIx) (s : State)
    (h : Dev.hide m s.dev = x) : Dev.hide m ((execReadEnergy n s).stateOr s).dev = x := by
  unfold execReadEnergy
  apply State.on_hide
  repeat' first
    | with_reducible assumption
    | intro _
    | extract_lets
    | with_reducible apply hide_ite
    | with_reducible apply hide_next
    | with_reducible apply Dev.mailbox_hide (land_trans rfl hm)
    | with_reducible apply Dev.lvDone'_hide (land_trans rfl hm)
    | (split
       all_goals try (rename_i heq
                      have h2 := congrArg Prod.snd heq
                      have h1 := congrArg Prod.fst heq
                      dsimp only at h1 h2
                      subst h1 h2
                      clear heq))
    | dsimp only [Lock.count]
    | dsimp +zetaDelta only

theorem execChOff_hide {m : Nat} (hm : 714990722360544897 &&& m = 714990722360544897) {x : Dev} (d : Desc) (s : State)
    (h : Dev.hide m s.dev = x) : Dev.hide m ((execChOff d s).stateOr s).dev = x := by
  unfold execChOff
  apply State.on_hide
  repeat' first
    | with_reducible assumption
    | intro _
    | extract_lets
    | with_reducible apply hide_ite
    | with_reducible apply hide_next
    | with_reducible apply Dev.chOff_hide (land_trans rfl hm)
    | with_reducible apply Dev.chanCmd_hide (land_trans rfl hm)
    | (split
       all_goals try (rename_i heq
                      have h2 := congrArg Prod.snd heq
                      have h1 := congrArg Prod.fst heq
                      dsimp only at h1 h2
                      subst h1 h2
                      clear heq))
    | dsimp only [Lock.count]
    | dsimp +zetaDelta only

theorem execRsvKick_hide {m : Nat} (hm : 859668969945046657 &&& m = 859668969945046657) {x : Dev} (d : Desc) (s : State)
    (h : Dev.hide m s.dev = x) : Dev.hide m ((execRsvKick d s).stateOr s).dev = x := by
  unfold execRsvKick
  apply State.on_hide
  repeat' first
    | with_reducible assumption
    | intro _
    | extract_lets
    | with_reducible apply hide_ite
    | with_reducible apply hide_next
    | with_reducible apply Dev.rvKick_hide (land_trans rfl hm)
    | with_reducible apply Dev.cmd_hide (land_trans rfl hm)
    | with_reducible apply Dev.reply_hide (land_trans rfl hm)
    | (split
       all_goals try (rename_i heq
                      have h2 := congrArg Prod.snd heq
                      have h1 := congrArg Prod.fst heq
                      dsimp only at h1 h2
                      subst h1 h2
                      clear heq))
    | dsimp only [Lock.count]
    | dsimp +zetaDelta only

theorem execDebounceExpiry_hide {m : Nat} (hm : 512 &&& m = 512) {x : Dev} (c : CellIx) (s : State)
    (h : Dev.hide m s.dev = x) : Dev.hide m ((execDebounceExpiry c s).stateOr s).dev = x := by
  unfold execDebounceExpiry
  apply State.on_hide
  repeat' first
    | with_reducible assumption
    | intro _
    | extract_lets
    | with_reducible apply hide_ite
    | with_reducible apply hide_next
    | with_reducible apply Dev.modCell_hide (land_trans rfl hm)
    | (split
       all_goals try (rename_i heq
                      have h2 := congrArg Prod.snd heq
                      have h1 := congrArg Prod.fst heq
                      dsimp only at h1 h2
                      subst h1 h2
                      clear heq))
    | dsimp only [Lock.count]
    | dsimp +zetaDelta only

theorem execMgSummary_hide {m : Nat} (hm : 576460752303423488 &&& m = 576460752303423488) {x : Dev} (s : State)
    (h : Dev.hide m s.dev = x) : Dev.hide m ((execMgSummary s).stateOr s).dev = x := by
  unfold execMgSummary
  apply State.on_hide
  repeat' first
    | with_reducible assumption
    | intro _
    | extract_lets
    | with_reducible apply hide_ite
    | with_reducible apply hide_next
    | with_reducible apply Dev.mgRead_hide (land_trans rfl hm)
    | (split
       all_goals try (rename_i heq
                      have h2 := congrArg Prod.snd heq
                      have h1 := congrArg Prod.fst heq
                      dsimp only at h1 h2
                      subst h1 h2
                      clear heq))
    | dsimp only [Lock.count]
    | dsimp +zetaDelta only

theorem Dev.barRead_hide {m : Nat} (hm : 720338781877575625 &&& m = 720338781877575625) {x : Dev} (s : Dev) (off : Nat) (bytes : Nat)
    (h : Dev.hide m s = x) : Dev.hide m (Dev.barRead s off bytes).2 = x := by
  unfold Dev.barRead
  repeat' first
    | with_reducible assumption
    | intro _
    | extract_lets
    | with_reducible apply hide_ite
    | with_reducible apply hide_next
    | with_reducible apply Dev.readWords_hide (land_trans rfl hm)
    | with_reducible apply Dev.rsvdWrite_hide (land_trans rfl hm)
    | with_reducible apply Dev.windowFail_hide (land_trans rfl hm)
    | with_reducible apply Dev.badAccess_hide (land_trans rfl hm)
    | with_reducible apply Dev.wakeAccess_hide (land_trans rfl hm)
    | (split
       all_goals try (rename_i heq
                      have h2 := congrArg Prod.snd heq
                      have h1 := congrArg Prod.fst heq
                      dsimp only at h1 h2
                      subst h1 h2
                      clear heq))
    | dsimp only [Lock.count]
    | dsimp +zetaDelta only

theorem execRstNRelease_hide {m : Nat} (hm : 855693135899008521 &&& m = 855693135899008521) {x : Dev} (s : State)
    (h : Dev.hide m s.dev = x) : Dev.hide m ((execRstNRelease s).stateOr s).dev = x := by
  unfold execRstNRelease
  apply State.on_hide
  repeat' first
    | with_reducible assumption
    | intro _
    | extract_lets
    | with_reducible apply hide_ite
    | with_reducible apply hide_next
    | with_reducible apply Dev.coreUp_hide (land_trans rfl hm)
    | (split
       all_goals try (rename_i heq
                      have h2 := congrArg Prod.snd heq
                      have h1 := congrArg Prod.fst heq
                      dsimp only at h1 h2
                      subst h1 h2
                      clear heq))
    | with_reducible apply Dev.hide_upd_53 (land_trans rfl hm)
    | dsimp only [Lock.count]
    | dsimp +zetaDelta only

theorem Dev.unrouted_hide {m : Nat} (hm : 35184372088832 &&& m = 35184372088832) {x : Dev} (s : Dev)
    (h : Dev.hide m s = x) : Dev.hide m (Dev.unrouted s) = x := by
  unfold Dev.unrouted
  repeat' first
    | with_reducible assumption
    | intro _
    | extract_lets
    | with_reducible apply hide_ite
    | with_reducible apply hide_next
    | (split
       all_goals try (rename_i heq
                      have h2 := congrArg Prod.snd heq
                      have h1 := congrArg Prod.fst heq
                      dsimp only at h1 h2
                      subst h1 h2
                      clear heq))
    | with_reducible apply Dev.hide_upd_45 (land_trans rfl hm)
    | dsimp only [Lock.count]
    | dsimp +zetaDelta only

theorem execEventWrite_hide {m : Nat} (hm : 594510335184994304 &&& m = 594510335184994304) {x : Dev} (s : State)
    (h : Dev.hide m s.dev = x) : Dev.hide m ((execEventWrite s).stateOr s).dev = x := by
  unfold execEventWrite
  apply State.on_hide
  repeat' first
    | with_reducible assumption
    | intro _
    | extract_lets
    | with_reducible apply hide_ite
    | with_reducible apply hide_next
    | with_reducible apply Dev.unrouted_hide (land_trans rfl hm)
    | with_reducible apply Dev.entryDone_hide (land_trans rfl hm)
    | with_reducible apply Dev.setRing_hide (land_trans rfl hm)
    | with_reducible apply Dev.emit_hide (land_trans rfl hm)
    | (split
       all_goals try (rename_i heq
                      have h2 := congrArg Prod.snd heq
                      have h1 := congrArg Prod.fst heq
                      dsimp only at h1 h2
                      subst h1 h2
                      clear heq))
    | with_reducible apply Dev.hide_upd_54 (land_trans rfl hm)
    | dsimp only [Lock.count]
    | dsimp +zetaDelta only

theorem Dev.svFrame_hide {m : Nat} (hm : 598978784800020480 &&& m = 598978784800020480) {x : Dev} (s : Dev) (cmd : Nat) (seq : Byte) (mask : Nat) (stale : Bool) (f : Dev → Nat × Dev) (h_f : ∀ u0 y, Dev.hide m u0 = y → Dev.hide m (f u0).2 = y)
    (h : Dev.hide m s = x) : Dev.hide m ((Dev.svFrame s cmd seq mask stale f).devOr s) = x := by
  unfold Dev.svFrame
  repeat' first
    | with_reducible assumption
    | intro _
    | extract_lets
    | with_reducible apply hide_ite
    | with_reducible apply hide_next
    | with_reducible apply Dev.modSv_hide (land_trans rfl hm)
    | with_reducible apply Dev.emit_hide (land_trans rfl hm)
    | with_reducible apply Dev.unoccur_hide (land_trans rfl hm)
    | with_reducible apply Dev.raise_hide (land_trans rfl hm)
    | with_reducible apply h_f
    | (split
       all_goals try (rename_i heq
                      have h2 := congrArg Prod.snd heq
                      have h1 := congrArg Prod.fst heq
                      dsimp only at h1 h2
                      subst h1 h2
                      clear heq))
    | dsimp only [Lock.count]
    | dsimp +zetaDelta only

theorem execSupervisorRead_hide {m : Nat} (hm : 598978784800020480 &&& m = 598978784800020480) {x : Dev} (seq : Byte) (stale : Bool) (s : State)
    (h : Dev.hide m s.dev = x) : Dev.hide m ((execSupervisorRead seq stale s).stateOr s).dev = x := by
  unfold execSupervisorRead
  apply State.on_hide
  repeat' first
    | with_reducible assumption
    | intro _
    | extract_lets
    | with_reducible apply hide_ite
    | with_reducible apply hide_next
    | with_reducible apply Dev.svFrame_hide (land_trans rfl hm)
    | (split
       all_goals try (rename_i heq
                      have h2 := congrArg Prod.snd heq
                      have h1 := congrArg Prod.fst heq
                      dsimp only at h1 h2
                      subst h1 h2
                      clear heq))
    | dsimp only [Lock.count]
    | dsimp +zetaDelta only

theorem Dev.occurAny_hide {m : Nat} (hm : 846685936644267521 &&& m = 846685936644267521) {x : Dev} (s : Dev) (k : Nat) (src : Nat) (info : Nat) (inj : Bool)
    (h : Dev.hide m s = x) : Dev.hide m (Dev.occurAny s k src info inj) = x := by
  unfold Dev.occurAny
  repeat' first
    | with_reducible assumption
    | intro _
    | extract_lets
    | with_reducible apply hide_ite
    | with_reducible apply hide_next
    | with_reducible apply Dev.occurCentral_hide (land_trans rfl hm)
    | with_reducible apply Dev.occurAt_hide (land_trans rfl hm)
    | (split
       all_goals try (rename_i heq
                      have h2 := congrArg Prod.snd heq
                      have h1 := congrArg Prod.fst heq
                      dsimp only at h1 h2
                      subst h1 h2
                      clear heq))
    | dsimp only [Lock.count]
    | dsimp +zetaDelta only

theorem Dev.functionReset_hide {m : Nat} (hm : 846791489763679745 &&& m = 846791489763679745) {x : Dev} (s : Dev)
    (h : Dev.hide m s = x) : Dev.hide m (Dev.functionReset s) = x := by
  unfold Dev.functionReset
  repeat' first
    | with_reducible assumption
    | intro _
    | extract_lets
    | with_reducible apply hide_ite
    | with_reducible apply hide_next
    | with_reducible apply Dev.hostReset_hide (land_trans rfl hm)
    | with_reducible apply Dev.hostLoss_hide (land_trans rfl hm)
    | (split
       all_goals try (rename_i heq
                      have h2 := congrArg Prod.snd heq
                      have h1 := congrArg Prod.fst heq
                      dsimp only at h1 h2
                      subst h1 h2
                      clear heq))
    | dsimp only [Lock.count]
    | dsimp +zetaDelta only

theorem execFaultEvent_hide {m : Nat} (hm : 846685936644267521 &&& m = 846685936644267521) {x : Dev} (k : CollIx) (src : BitVec 7) (info : Word) (inj : Bool) (s : State)
    (h : Dev.hide m s.dev = x) : Dev.hide m ((execFaultEvent k src info inj s).stateOr s).dev = x := by
  unfold execFaultEvent
  apply State.on_hide
  repeat' first
    | with_reducible assumption
    | intro _
    | extract_lets
    | with_reducible apply hide_ite
    | with_reducible apply hide_next
    | with_reducible apply Dev.occurAny_hide (land_trans rfl hm)
    | (split
       all_goals try (rename_i heq
                      have h2 := congrArg Prod.snd heq
                      have h1 := congrArg Prod.fst heq
                      dsimp only at h1 h2
                      subst h1 h2
                      clear heq))
    | dsimp only [Lock.count]
    | dsimp +zetaDelta only

theorem Dev.poke_hide {m : Nat} (hm : 4096 &&& m = 4096) {x : Dev} (s : Dev) (e : Nat) (a2 : Byte)
    (h : Dev.hide m s = x) : Dev.hide m (Dev.poke s e a2) = x := by
  unfold Dev.poke
  repeat' first
    | with_reducible assumption
    | intro _
    | extract_lets
    | with_reducible apply hide_ite
    | with_reducible apply hide_next
    | with_reducible apply Dev.forEach_hide (land_trans rfl hm)
    | with_reducible apply Dev.irq_hide (land_trans rfl hm)
    | (split
       all_goals try (rename_i heq
                      have h2 := congrArg Prod.snd heq
                      have h1 := congrArg Prod.fst heq
                      dsimp only at h1 h2
                      subst h1 h2
                      clear heq))
    | dsimp only [Lock.count]
    | dsimp +zetaDelta only

theorem execPoke_hide {m : Nat} (hm : 4096 &&& m = 4096) {x : Dev} (e : BargeIx) (a1 : Byte) (s : State)
    (h : Dev.hide m s.dev = x) : Dev.hide m ((execPoke e a1 s).stateOr s).dev = x := by
  unfold execPoke
  apply State.on_hide
  repeat' first
    | with_reducible assumption
    | intro _
    | extract_lets
    | with_reducible apply hide_ite
    | with_reducible apply hide_next
    | with_reducible apply Dev.poke_hide (land_trans rfl hm)
    | (split
       all_goals try (rename_i heq
                      have h2 := congrArg Prod.snd heq
                      have h1 := congrArg Prod.fst heq
                      dsimp only at h1 h2
                      subst h1 h2
                      clear heq))
    | dsimp only [Lock.count]
    | dsimp +zetaDelta only

theorem Dev.linkTripEvent_hide {m : Nat} (hm : 18014398509481984 &&& m = 18014398509481984) {x : Dev} (s : Dev) (a1 : TripMsg) (stale : Bool)
    (h : Dev.hide m s = x) : Dev.hide m (Dev.linkTripEvent s a1 stale) = x := by
  unfold Dev.linkTripEvent
  repeat' first
    | with_reducible assumption
    | intro _
    | extract_lets
    | with_reducible apply hide_ite
    | with_reducible apply hide_next
    | with_reducible apply Dev.raise_hide (land_trans rfl hm)
    | (split
       all_goals try (rename_i heq
                      have h2 := congrArg Prod.snd heq
                      have h1 := congrArg Prod.fst heq
                      dsimp only at h1 h2
                      subst h1 h2
                      clear heq))
    | dsimp only [Lock.count]
    | dsimp +zetaDelta only

theorem execTripMessageReceive_hide {m : Nat} (hm : 594482847394301952 &&& m = 594482847394301952) {x : Dev} (link : Link) (a1 : TripMsg) (s : State)
    (h : Dev.hide m s.dev = x) : Dev.hide m ((execTripMessageReceive link a1 s).stateOr s).dev = x := by
  unfold execTripMessageReceive
  apply State.on_hide
  repeat' first
    | with_reducible assumption
    | intro _
    | extract_lets
    | with_reducible apply hide_ite
    | with_reducible apply hide_next
    | with_reducible apply Dev.linkTripEvent_hide (land_trans rfl hm)
    | with_reducible apply Dev.extUpdate_hide (land_trans rfl hm)
    | with_reducible apply Dev.emit_hide (land_trans rfl hm)
    | with_reducible apply Dev.forEach_hide (land_trans rfl hm)
    | (split
       all_goals try (rename_i heq
                      have h2 := congrArg Prod.snd heq
                      have h1 := congrArg Prod.fst heq
                      dsimp only at h1 h2
                      subst h1 h2
                      clear heq))
    | with_reducible apply Dev.hide_upd_40_41 (land_trans rfl hm)
    | with_reducible apply Dev.hide_upd_42 (land_trans rfl hm)
    | dsimp only [Lock.count]
    | dsimp +zetaDelta only

theorem execRetryCountClear_hide {m : Nat} (hm : 512 &&& m = 512) {x : Dev} (c : CellIx) (s : State)
    (h : Dev.hide m s.dev = x) : Dev.hide m ((execRetryCountClear c s).stateOr s).dev = x := by
  unfold execRetryCountClear
  apply State.on_hide
  repeat' first
    | with_reducible assumption
    | intro _
    | extract_lets
    | with_reducible apply hide_ite
    | with_reducible apply hide_next
    | with_reducible apply Dev.modCell_hide (land_trans rfl hm)
    | (split
       all_goals try (rename_i heq
                      have h2 := congrArg Prod.snd heq
                      have h1 := congrArg Prod.fst heq
                      dsimp only at h1 h2
                      subst h1 h2
                      clear heq))
    | dsimp only [Lock.count]
    | dsimp +zetaDelta only

theorem execHandoverComplete_hide {m : Nat} (hm : 18577348462907392 &&& m = 18577348462907392) {x : Dev} (s : State)
    (h : Dev.hide m s.dev = x) : Dev.hide m ((execHandoverComplete s).stateOr s).dev = x := by
  unfold execHandoverComplete
  apply State.on_hide
  repeat' first
    | with_reducible assumption
    | intro _
    | extract_lets
    | with_reducible apply hide_ite
    | with_reducible apply hide_next
    | with_reducible apply Dev.rvEvent_hide (land_trans rfl hm)
    | with_reducible apply Dev.modRv_hide (land_trans rfl hm)
    | (split
       all_goals try (rename_i heq
                      have h2 := congrArg Prod.snd heq
                      have h1 := congrArg Prod.fst heq
                      dsimp only at h1 h2
                      subst h1 h2
                      clear heq))
    | dsimp only [Lock.count]
    | dsimp +zetaDelta only

theorem execTowpathEnable_hide {m : Nat} (hm : 1125902054326272 &&& m = 1125902054326272) {x : Dev} (t : TowIx) (sda : Bool) (s : State)
    (h : Dev.hide m s.dev = x) : Dev.hide m ((execTowpathEnable t sda s).stateOr s).dev = x := by
  unfold execTowpathEnable
  apply State.on_hide
  repeat' first
    | with_reducible assumption
    | intro _
    | extract_lets
    | with_reducible apply hide_ite
    | with_reducible apply hide_next
    | with_reducible apply Dev.twEnable_hide (land_trans rfl hm)
    | (split
       all_goals try (rename_i heq
                      have h2 := congrArg Prod.snd heq
                      have h1 := congrArg Prod.fst heq
                      dsimp only at h1 h2
                      subst h1 h2
                      clear heq))
    | dsimp only [Lock.count]
    | dsimp +zetaDelta only

theorem Dev.irqIsland_hide {m : Nat} (hm : 4096 &&& m = 4096) {x : Dev} (s : Dev) (g : Nat) (e : Nat) (n : Nat)
    (h : Dev.hide m s = x) : Dev.hide m (Dev.irqIsland s g e n) = x := by
  unfold Dev.irqIsland
  repeat' first
    | with_reducible assumption
    | intro _
    | extract_lets
    | with_reducible apply hide_ite
    | with_reducible apply hide_next
    | with_reducible apply Dev.irq_hide (land_trans rfl hm)
    | (split
       all_goals try (rename_i heq
                      have h2 := congrArg Prod.snd heq
                      have h1 := congrArg Prod.fst heq
                      dsimp only at h1 h2
                      subst h1 h2
                      clear heq))
    | dsimp only [Lock.count]
    | dsimp +zetaDelta only

theorem execRvSafeWrite_hide {m : Nat} (hm : 847248886597688833 &&& m = 847248886597688833) {x : Dev} (v : Word) (s : State)
    (h : Dev.hide m s.dev = x) : Dev.hide m ((execRvSafeWrite v s).stateOr s).dev = x := by
  unfold execRvSafeWrite
  apply State.on_hide
  repeat' first
    | with_reducible assumption
    | intro _
    | extract_lets
    | with_reducible apply hide_ite
    | with_reducible apply hide_next
    | with_reducible apply Dev.rvSafe_hide (land_trans rfl hm)
    | (split
       all_goals try (rename_i heq
                      have h2 := congrArg Prod.snd heq
                      have h1 := congrArg Prod.fst heq
                      dsimp only at h1 h2
                      subst h1 h2
                      clear heq))
    | dsimp only [Lock.count]
    | dsimp +zetaDelta only

theorem execGrantTimeout_hide {m : Nat} (hm : 18014398509484544 &&& m = 18014398509484544) {x : Dev} (c : CellIx) (s : State)
    (h : Dev.hide m s.dev = x) : Dev.hide m ((execGrantTimeout c s).stateOr s).dev = x := by
  unfold execGrantTimeout
  apply State.on_hide
  repeat' first
    | with_reducible assumption
    | intro _
    | extract_lets
    | with_reducible apply hide_ite
    | with_reducible apply hide_next
    | with_reducible apply Dev.modCell_hide (land_trans rfl hm)
    | with_reducible apply Dev.cellEvent_hide (land_trans rfl hm)
    | (split
       all_goals try (rename_i heq
                      have h2 := congrArg Prod.snd heq
                      have h1 := congrArg Prod.fst heq
                      dsimp only at h1 h2
                      subst h1 h2
                      clear heq))
    | dsimp only [Lock.count]
    | dsimp +zetaDelta only

theorem Dev.chDisable_hide {m : Nat} (hm : 702570639013187073 &&& m = 702570639013187073) {x : Dev} (s : Dev) (c : Nat)
    (h : Dev.hide m s = x) : Dev.hide m (Dev.chDisable s c).2 = x := by
  unfold Dev.chDisable
  repeat' first
    | with_reducible assumption
    | intro _
    | extract_lets
    | with_reducible apply hide_ite
    | with_reducible apply hide_next
    | with_reducible apply Dev.autoNext_hide (land_trans rfl hm)
    | with_reducible apply Dev.goto_hide (land_trans rfl hm)
    | (split
       all_goals try (rename_i heq
                      have h2 := congrArg Prod.snd heq
                      have h1 := congrArg Prod.fst heq
                      dsimp only at h1 h2
                      subst h1 h2
                      clear heq))
    | dsimp only [Lock.count]
    | dsimp +zetaDelta only

theorem execTowpathAbort_hide {m : Nat} (hm : 19140298416330752 &&& m = 19140298416330752) {x : Dev} (t : TowIx) (s : State)
    (h : Dev.hide m s.dev = x) : Dev.hide m ((execTowpathAbort t s).stateOr s).dev = x := by
  unfold execTowpathAbort
  apply State.on_hide
  repeat' first
    | with_reducible assumption
    | intro _
    | extract_lets
    | with_reducible apply hide_ite
    | with_reducible apply hide_next
    | with_reducible apply Dev.twAbort_hide (land_trans rfl hm)
    | (split
       all_goals try (rename_i heq
                      have h2 := congrArg Prod.snd heq
                      have h1 := congrArg Prod.fst heq
                      dsimp only at h1 h2
                      subst h1 h2
                      clear heq))
    | dsimp only [Lock.count]
    | dsimp +zetaDelta only

theorem Dev.ndlRead_hide {m : Nat} (hm : 720338781877575625 &&& m = 720338781877575625) {x : Dev} (s : Dev) (a1 : NdlSpace) (a : Nat)
    (h : Dev.hide m s = x) : Dev.hide m (Dev.ndlRead s a1 a).2 = x := by
  cases a1 with
  | barge e => exact Dev.ndlReadMap_hide (land_trans rfl hm) s e a h
  | bar0 => exact Dev.barRead_hide (land_trans rfl hm) s a 4 h
  | regs => exact h
  | flash => exact h

theorem Dev.ndlReads_hide {m : Nat} (hm : 720338781877575625 &&& m = 720338781877575625) {x : Dev} (s : Dev) (a1 : NdlSpace) (a2 : Nat) (a3 : Nat)
    (h : Dev.hide m s = x) : Dev.hide m (Dev.ndlReads s a1 a2 a3).2 = x := by
  induction a3 generalizing s a2 with
  | zero => exact h
  | succ n ih =>
    have h1 := Dev.ndlRead_hide (land_trans rfl hm) s a1 a2 h
    unfold Dev.ndlReads
    revert h1
    rcases s.ndlRead a1 a2 with ⟨w, t⟩
    intro h1
    have h2 := ih t (a2 + 4) h1
    revert h2
    dsimp only
    rcases t.ndlReads a1 (a2 + 4) n with ⟨l, t2⟩
    exact id

theorem execRejoinRequest_hide {m : Nat} (hm : 2048 &&& m = 2048) {x : Dev} (g : RegionIx) (s : State)
    (h : Dev.hide m s.dev = x) : Dev.hide m ((execRejoinRequest g s).stateOr s).dev = x := by
  unfold execRejoinRequest
  apply State.on_hide
  repeat' first
    | with_reducible assumption
    | intro _
    | extract_lets
    | with_reducible apply hide_ite
    | with_reducible apply hide_next
    | with_reducible apply Dev.rejoinRequest_hide (land_trans rfl hm)
    | (split
       all_goals try (rename_i heq
                      have h2 := congrArg Prod.snd heq
                      have h1 := congrArg Prod.fst heq
                      dsimp only at h1 h2
                      subst h1 h2
                      clear heq))
    | dsimp only [Lock.count]
    | dsimp +zetaDelta only

theorem Dev.tapInstr_hide {m : Nat} (hm : 524288 &&& m = 524288) {x : Dev} (s : Dev) (i : TapInstr)
    (h : Dev.hide m s = x) : Dev.hide m (Dev.tapInstr s i) = x := by
  unfold Dev.tapInstr
  repeat' first
    | with_reducible assumption
    | intro _
    | extract_lets
    | with_reducible apply hide_ite
    | with_reducible apply hide_next
    | (split
       all_goals try (rename_i heq
                      have h2 := congrArg Prod.snd heq
                      have h1 := congrArg Prod.fst heq
                      dsimp only at h1 h2
                      subst h1 h2
                      clear heq))
    | with_reducible apply Dev.hide_upd_19 (land_trans rfl hm)
    | dsimp only [Lock.count]
    | dsimp +zetaDelta only

theorem execTrstN_hide {m : Nat} (hm : 524288 &&& m = 524288) {x : Dev} (s : State)
    (h : Dev.hide m s.dev = x) : Dev.hide m ((execTrstN s).stateOr s).dev = x := by
  unfold execTrstN
  apply State.on_hide
  repeat' first
    | with_reducible assumption
    | intro _
    | extract_lets
    | with_reducible apply hide_ite
    | with_reducible apply hide_next
    | with_reducible apply Dev.tapInstr_hide (land_trans rfl hm)
    | (split
       all_goals try (rename_i heq
                      have h2 := congrArg Prod.snd heq
                      have h1 := congrArg Prod.fst heq
                      dsimp only at h1 h2
                      subst h1 h2
                      clear heq))
    | dsimp only [Lock.count]
    | dsimp +zetaDelta only

theorem Dev.lvFrame_hide {m : Nat} (hm : 1048576 &&& m = 1048576) {x : Dev} (s : Dev) (b : Nat) (f : Frame)
    (h : Dev.hide m s = x) : Dev.hide m (Dev.lvFrame s b f) = x := by
  unfold Dev.lvFrame
  repeat' first
    | with_reducible assumption
    | intro _
    | extract_lets
    | with_reducible apply hide_ite
    | with_reducible apply hide_next
    | (split
       all_goals try (rename_i heq
                      have h2 := congrArg Prod.snd heq
                      have h1 := congrArg Prod.fst heq
                      dsimp only at h1 h2
                      subst h1 h2
                      clear heq))
    | with_reducible apply Dev.hide_upd_20 (land_trans rfl hm)
    | dsimp only [Lock.count]
    | dsimp +zetaDelta only

theorem execBargeReset_hide {m : Nat} (hm : 594475185206466561 &&& m = 594475185206466561) {x : Dev} (mask : DWord) (s : State)
    (h : Dev.hide m s.dev = x) : Dev.hide m ((execBargeReset mask s).stateOr s).dev = x := by
  unfold execBargeReset
  apply State.on_hide
  repeat' first
    | with_reducible assumption
    | intro _
    | extract_lets
    | with_reducible apply hide_ite
    | with_reducible apply hide_next
    | with_reducible apply Dev.bargeResets_hide (land_trans rfl hm)
    | with_reducible apply Dev.ndlReq_hide (land_trans rfl hm)
    | with_reducible apply Dev.ndl_hide (land_trans rfl hm)
    | (split
       all_goals try (rename_i heq
                      have h2 := congrArg Prod.snd heq
                      have h1 := congrArg Prod.fst heq
                      dsimp only at h1 h2
                      subst h1 h2
                      clear heq))
    | dsimp only [Lock.count]
    | dsimp +zetaDelta only

theorem execShipWake_hide {m : Nat} (hm : 562949953421312 &&& m = 562949953421312) {x : Dev} (s : State)
    (h : Dev.hide m s.dev = x) : Dev.hide m ((execShipWake s).stateOr s).dev = x := by
  unfold execShipWake
  apply State.on_hide
  repeat' first
    | with_reducible assumption
    | intro _
    | extract_lets
    | with_reducible apply hide_ite
    | with_reducible apply hide_next
    | with_reducible apply Dev.modRv_hide (land_trans rfl hm)
    | (split
       all_goals try (rename_i heq
                      have h2 := congrArg Prod.snd heq
                      have h1 := congrArg Prod.fst heq
                      dsimp only at h1 h2
                      subst h1 h2
                      clear heq))
    | dsimp only [Lock.count]
    | dsimp +zetaDelta only

theorem Dev.lockSplit_hide {m : Nat} (hm : 256 &&& m = 256) {x : Dev} (s : Dev) (e : LockEntry) (ring : Option Nat)
    (h : Dev.hide m s = x) : Dev.hide m (Dev.lockSplit s e ring) = x := by
  unfold Dev.lockSplit
  repeat' first
    | with_reducible assumption
    | intro _
    | extract_lets
    | with_reducible apply hide_ite
    | with_reducible apply hide_next
    | (split
       all_goals try (rename_i heq
                      have h2 := congrArg Prod.snd heq
                      have h1 := congrArg Prod.fst heq
                      dsimp only at h1 h2
                      subst h1 h2
                      clear heq))
    | with_reducible apply Dev.hide_upd_8 (land_trans rfl hm)
    | dsimp only [Lock.count]
    | dsimp +zetaDelta only

theorem Dev.lockBad_hide {m : Nat} (hm : 18014398509482240 &&& m = 18014398509482240) {x : Dev} (s : Dev) (e : LockEntry) (reason : Nat) (kept : Bool) (ring : Nat)
    (h : Dev.hide m s = x) : Dev.hide m (Dev.lockBad s e reason kept ring) = x := by
  unfold Dev.lockBad
  repeat' first
    | with_reducible assumption
    | intro _
    | extract_lets
    | with_reducible apply hide_ite
    | with_reducible apply hide_next
    | with_reducible apply Dev.raise_hide (land_trans rfl hm)
    | (split
       all_goals try (rename_i heq
                      have h2 := congrArg Prod.snd heq
                      have h1 := congrArg Prod.fst heq
                      dsimp only at h1 h2
                      subst h1 h2
                      clear heq))
    | with_reducible apply Dev.hide_upd_8 (land_trans rfl hm)
    | dsimp only [Lock.count]
    | dsimp +zetaDelta only

theorem Dev.lockAccept_hide {m : Nat} (hm : 594475150812905728 &&& m = 594475150812905728) {x : Dev} (s : Dev) (e : LockEntry) (source : Option Nat) (ring : Nat)
    (h : Dev.hide m s = x) : Dev.hide m (Dev.lockAccept s e source ring) = x := by
  unfold Dev.lockAccept
  repeat' first
    | with_reducible assumption
    | intro _
    | extract_lets
    | with_reducible apply hide_ite
    | with_reducible apply hide_next
    | with_reducible apply Dev.lockBad_hide (land_trans rfl hm)
    | with_reducible apply Dev.lockSplit_hide (land_trans rfl hm)
    | with_reducible apply Dev.emit_hide (land_trans rfl hm)
    | (split
       all_goals try (rename_i heq
                      have h2 := congrArg Prod.snd heq
                      have h1 := congrArg Prod.fst heq
                      dsimp only at h1 h2
                      subst h1 h2
                      clear heq))
    | dsimp only [Lock.count]
    | dsimp +zetaDelta only

theorem execComparatorSelftestEnd_hide {m : Nat} (hm : 846685936644267521 &&& m = 846685936644267521) {x : Dev} (a0 : CmpGroup) (pass : Bool) (s : State)
    (h : Dev.hide m s.dev = x) : Dev.hide m ((execComparatorSelftestEnd a0 pass s).stateOr s).dev = x := by
  unfold execComparatorSelftestEnd
  apply State.on_hide
  repeat' first
    | with_reducible assumption
    | intro _
    | extract_lets
    | with_reducible apply hide_ite
    | with_reducible apply hide_next
    | with_reducible apply Dev.precheckDone_hide (land_trans rfl hm)
    | with_reducible apply Dev.occur_hide (land_trans rfl hm)
    | with_reducible apply Dev.modCell_hide (land_trans rfl hm)
    | with_reducible apply Dev.modBlock_hide (land_trans rfl hm)
    | with_reducible apply Dev.forEach_hide (land_trans rfl hm)
    | (split
       all_goals try (rename_i heq
                      have h2 := congrArg Prod.snd heq
                      have h1 := congrArg Prod.fst heq
                      dsimp only at h1 h2
                      subst h1 h2
                      clear heq))
    | dsimp only [Lock.count]
    | dsimp +zetaDelta only

theorem execCtxFlush_hide {m : Nat} (hm : 576495936675512320 &&& m = 576495936675512320) {x : Dev} (s : State)
    (h : Dev.hide m s.dev = x) : Dev.hide m ((execCtxFlush s).stateOr s).dev = x := by
  unfold execCtxFlush
  apply State.on_hide
  repeat' first
    | with_reducible assumption
    | intro _
    | extract_lets
    | with_reducible apply hide_ite
    | with_reducible apply hide_next
    | with_reducible apply Dev.ctxFlush_hide (land_trans rfl hm)
    | (split
       all_goals try (rename_i heq
                      have h2 := congrArg Prod.snd heq
                      have h1 := congrArg Prod.fst heq
                      dsimp only at h1 h2
                      subst h1 h2
                      clear heq))
    | dsimp only [Lock.count]
    | dsimp +zetaDelta only

theorem execHostGrant_hide {m : Nat} (hm : 262144 &&& m = 262144) {x : Dev} (on : Bool) (s : State)
    (h : Dev.hide m s.dev = x) : Dev.hide m ((execHostGrant on s).stateOr s).dev = x := by
  unfold execHostGrant
  apply State.on_hide
  repeat' first
    | with_reducible assumption
    | intro _
    | extract_lets
    | with_reducible apply hide_ite
    | with_reducible apply hide_next
    | with_reducible apply Dev.dbgGrant_hide (land_trans rfl hm)
    | (split
       all_goals try (rename_i heq
                      have h2 := congrArg Prod.snd heq
                      have h1 := congrArg Prod.fst heq
                      dsimp only at h1 h2
                      subst h1 h2
                      clear heq))
    | dsimp only [Lock.count]
    | dsimp +zetaDelta only

theorem execNodeImageRefresh_hide {m : Nat} (hm : 1048576 &&& m = 1048576) {x : Dev} (n : BlockIx) (s : State)
    (h : Dev.hide m s.dev = x) : Dev.hide m ((execNodeImageRefresh n s).stateOr s).dev = x := by
  unfold execNodeImageRefresh
  apply State.on_hide
  repeat' first
    | with_reducible assumption
    | intro _
    | extract_lets
    | with_reducible apply hide_ite
    | with_reducible apply hide_next
    | with_reducible apply Dev.lvRefresh_hide (land_trans rfl hm)
    | (split
       all_goals try (rename_i heq
                      have h2 := congrArg Prod.snd heq
                      have h1 := congrArg Prod.fst heq
                      dsimp only at h1 h2
                      subst h1 h2
                      clear heq))
    | dsimp only [Lock.count]
    | dsimp +zetaDelta only

theorem execDbgDeny_hide {m : Nat} (hm : 262144 &&& m = 262144) {x : Dev} (s : State)
    (h : Dev.hide m s.dev = x) : Dev.hide m ((execDbgDeny s).stateOr s).dev = x := by
  unfold execDbgDeny
  apply State.on_hide
  repeat' first
    | with_reducible assumption
    | intro _
    | extract_lets
    | with_reducible apply hide_ite
    | with_reducible apply hide_next
    | with_reducible apply Dev.dbgDenied_hide (land_trans rfl hm)
    | (split
       all_goals try (rename_i heq
                      have h2 := congrArg Prod.snd heq
                      have h1 := congrArg Prod.fst heq
                      dsimp only at h1 h2
                      subst h1 h2
                      clear heq))
    | dsimp only [Lock.count]
    | dsimp +zetaDelta only

theorem execDbgHaltReq_hide {m : Nat} (hm : 4096 &&& m = 4096) {x : Dev} (mask : DWord) (s : State)
    (h : Dev.hide m s.dev = x) : Dev.hide m ((execDbgHaltReq mask s).stateOr s).dev = x := by
  unfold execDbgHaltReq
  apply State.on_hide
  repeat' first
    | with_reducible assumption
    | intro _
    | extract_lets
    | with_reducible apply hide_ite
    | with_reducible apply hide_next
    | with_reducible apply Dev.dbgHaltReq_hide (land_trans rfl hm)
    | (split
       all_goals try (rename_i heq
                      have h2 := congrArg Prod.snd heq
                      have h1 := congrArg Prod.fst heq
                      dsimp only at h1 h2
                      subst h1 h2
                      clear heq))
    | dsimp only [Lock.count]
    | dsimp +zetaDelta only

theorem Dev.chEnable_hide {m : Nat} (hm : 702570639013187073 &&& m = 702570639013187073) {x : Dev} (s : Dev) (c : Nat)
    (h : Dev.hide m s = x) : Dev.hide m (Dev.chEnable s c).2 = x := by
  unfold Dev.chEnable
  repeat' first
    | with_reducible assumption
    | intro _
    | extract_lets
    | with_reducible apply hide_ite
    | with_reducible apply hide_next
    | with_reducible apply Dev.goto_hide (land_trans rfl hm)
    | (split
       all_goals try (rename_i heq
                      have h2 := congrArg Prod.snd heq
                      have h1 := congrArg Prod.fst heq
                      dsimp only at h1 h2
                      subst h1 h2
                      clear heq))
    | dsimp only [Lock.count]
    | dsimp +zetaDelta only

theorem execChEnable_hide {m : Nat} (hm : 714990722360544897 &&& m = 714990722360544897) {x : Dev} (d : Desc) (s : State)
    (h : Dev.hide m s.dev = x) : Dev.hide m ((execChEnable d s).stateOr s).dev = x := by
  unfold execChEnable
  apply State.on_hide
  repeat' first
    | with_reducible assumption
    | intro _
    | extract_lets
    | with_reducible apply hide_ite
    | with_reducible apply hide_next
    | with_reducible apply Dev.chEnable_hide (land_trans rfl hm)
    | with_reducible apply Dev.chanCmd_hide (land_trans rfl hm)
    | (split
       all_goals try (rename_i heq
                      have h2 := congrArg Prod.snd heq
                      have h1 := congrArg Prod.fst heq
                      dsimp only at h1 h2
                      subst h1 h2
                      clear heq))
    | dsimp only [Lock.count]
    | dsimp +zetaDelta only

theorem execMirrorStale_hide {m : Nat} (hm : 2199023255552 &&& m = 2199023255552) {x : Dev} (pos : Fin 8) (r : Fin 8) (s : State)
    (h : Dev.hide m s.dev = x) : Dev.hide m ((execMirrorStale pos r s).stateOr s).dev = x := by
  unfold execMirrorStale
  apply State.on_hide
  repeat' first
    | with_reducible assumption
    | intro _
    | extract_lets
    | with_reducible apply hide_ite
    | with_reducible apply hide_next
    | (split
       all_goals try (rename_i heq
                      have h2 := congrArg Prod.snd heq
                      have h1 := congrArg Prod.fst heq
                      dsimp only at h1 h2
                      subst h1 h2
                      clear heq))
    | with_reducible apply Dev.hide_upd_41 (land_trans rfl hm)
    | dsimp only [Lock.count]
    | dsimp +zetaDelta only

theorem execMgTemp_hide {m : Nat} (hm : 576460752303423488 &&& m = 576460752303423488) {x : Dev} (s : State)
    (h : Dev.hide m s.dev = x) : Dev.hide m ((execMgTemp s).stateOr s).dev = x := by
  unfold execMgTemp
  apply State.on_hide
  repeat' first
    | with_reducible assumption
    | intro _
    | extract_lets
    | with_reducible apply hide_ite
    | with_reducible apply hide_next
    | with_reducible apply Dev.mgRead_hide (land_trans rfl hm)
    | (split
       all_goals try (rename_i heq
                      have h2 := congrArg Prod.snd heq
                      have h1 := congrArg Prod.fst heq
                      dsimp only at h1 h2
                      subst h1 h2
                      clear heq))
    | dsimp only [Lock.count]
    | dsimp +zetaDelta only

theorem Dev.bootCustomer_hide {m : Nat} (hm : 9007199254872064 &&& m = 9007199254872064) {x : Dev} (s : Dev)
    (h : Dev.hide m s = x) : Dev.hide m (Dev.bootCustomer s) = x := by
  unfold Dev.bootCustomer
  repeat' first
    | with_reducible assumption
    | intro _
    | extract_lets
    | with_reducible apply hide_ite
    | with_reducible apply hide_next
    | (split
       all_goals try (rename_i heq
                      have h2 := congrArg Prod.snd heq
                      have h1 := congrArg Prod.fst heq
                      dsimp only at h1 h2
                      subst h1 h2
                      clear heq))
    | with_reducible apply Dev.hide_upd_17_53 (land_trans rfl hm)
    | with_reducible apply Dev.hide_upd_53 (land_trans rfl hm)
    | dsimp only [Lock.count]
    | dsimp +zetaDelta only

theorem execBoot_hide {m : Nat} (hm : 855693135899205121 &&& m = 855693135899205121) {x : Dev} (trim : Bool) (s : State)
    (h : Dev.hide m s.dev = x) : Dev.hide m ((execBoot trim s).stateOr s).dev = x := by
  unfold execBoot
  apply State.on_hide
  repeat' first
    | with_reducible assumption
    | intro _
    | extract_lets
    | with_reducible apply hide_ite
    | with_reducible apply hide_next
    | with_reducible apply Dev.bootCustomer_hide (land_trans rfl hm)
    | with_reducible apply Dev.bargeStart_hide (land_trans rfl hm)
    | with_reducible apply Dev.occur_hide (land_trans rfl hm)
    | with_reducible apply Dev.forEach_hide (land_trans rfl hm)
    | (split
       all_goals try (rename_i heq
                      have h2 := congrArg Prod.snd heq
                      have h1 := congrArg Prod.fst heq
                      dsimp only at h1 h2
                      subst h1 h2
                      clear heq))
    | with_reducible apply Dev.hide_upd_16_53 (land_trans rfl hm)
    | with_reducible apply Dev.hide_upd_53 (land_trans rfl hm)
    | dsimp only [Lock.count]
    | dsimp +zetaDelta only

theorem Dev.ringError_hide {m : Nat} (hm : 18014398509481984 &&& m = 18014398509481984) {x : Dev} (s : Dev) (r : Nat) (reason : Nat) (v : Word)
    (h : Dev.hide m s = x) : Dev.hide m (Dev.ringError s r reason v) = x := by
  unfold Dev.ringError
  repeat' first
    | with_reducible assumption
    | intro _
    | extract_lets
    | with_reducible apply hide_ite
    | with_reducible apply hide_next
    | with_reducible apply Dev.raise_hide (land_trans rfl hm)
    | (split
       all_goals try (rename_i heq
                      have h2 := congrArg Prod.snd heq
                      have h1 := congrArg Prod.fst heq
                      dsimp only at h1 h2
                      subst h1 h2
                      clear heq))
    | dsimp only [Lock.count]
    | dsimp +zetaDelta only

theorem execHostReadError_hide {m : Nat} (hm : 54078379900534784 &&& m = 54078379900534784) {x : Dev} (ring : RingIx) (k : ReadKind) (s : State)
    (h : Dev.hide m s.dev = x) : Dev.hide m ((execHostReadError ring k s).stateOr s).dev = x := by
  unfold execHostReadError
  apply State.on_hide
  repeat' first
    | with_reducible assumption
    | intro _
    | extract_lets
    | with_reducible apply hide_ite
    | with_reducible apply hide_next
    | with_reducible apply Dev.ringError_hide (land_trans rfl hm)
    | with_reducible apply Dev.setRing_hide (land_trans rfl hm)
    | with_reducible apply Dev.complete_hide (land_trans rfl hm)
    | (split
       all_goals try (rename_i heq
                      have h2 := congrArg Prod.snd heq
                      have h1 := congrArg Prod.fst heq
                      dsimp only at h1 h2
                      subst h1 h2
                      clear heq))
    | dsimp only [Lock.count]
    | dsimp +zetaDelta only

theorem execSurvey_hide {m : Nat} (hm : 715201828593077889 &&& m = 715201828593077889) {x : Dev} (d : Desc) (s : State)
    (h : Dev.hide m s.dev = x) : Dev.hide m ((execSurvey d s).stateOr s).dev = x := by
  unfold execSurvey
  apply State.on_hide
  repeat' first
    | with_reducible assumption
    | intro _
    | extract_lets
    | with_reducible apply hide_ite
    | with_reducible apply hide_next
    | with_reducible apply Dev.opStart_hide (land_trans rfl hm)
    | with_reducible apply Dev.cmd_hide (land_trans rfl hm)
    | with_reducible apply Dev.fail_hide (land_trans rfl hm)
    | (split
       all_goals try (rename_i heq
                      have h2 := congrArg Prod.snd heq
                      have h1 := congrArg Prod.fst heq
                      dsimp only at h1 h2
                      subst h1 h2
                      clear heq))
    | dsimp only [Lock.count]
    | dsimp +zetaDelta only

theorem execTripAssertEnd_hide {m : Nat} (hm : 2048 &&& m = 2048) {x : Dev} (g : RegionIx) (tag : BitVec 16) (s : State)
    (h : Dev.hide m s.dev = x) : Dev.hide m ((execTripAssertEnd g tag s).stateOr s).dev = x := by
  unfold execTripAssertEnd
  apply State.on_hide
  repeat' first
    | with_reducible assumption
    | intro _
    | extract_lets
    | with_reducible apply hide_ite
    | with_reducible apply hide_next
    | with_reducible apply Dev.extUpdate_hide (land_trans rfl hm)
    | with_reducible apply Dev.modRegion_hide (land_trans rfl hm)
    | (split
       all_goals try (rename_i heq
                      have h2 := congrArg Prod.snd heq
                      have h1 := congrArg Prod.fst heq
                      dsimp only at h1 h2
                      subst h1 h2
                      clear heq))
    | dsimp only [Lock.count]
    | dsimp +zetaDelta only

theorem execFcClear_hide {m : Nat} (hm : 714990756720287361 &&& m = 714990756720287361) {x : Dev} (d : Desc) (s : State)
    (h : Dev.hide m s.dev = x) : Dev.hide m ((execFcClear d s).stateOr s).dev = x := by
  unfold execFcClear
  apply State.on_hide
  repeat' first
    | with_reducible assumption
    | intro _
    | extract_lets
    | with_reducible apply hide_ite
    | with_reducible apply hide_next
    | with_reducible apply Dev.clearLatched_hide (land_trans rfl hm)
    | with_reducible apply Dev.clearFirst_hide (land_trans rfl hm)
    | with_reducible apply Dev.cmd_hide (land_trans rfl hm)
    | with_reducible apply Dev.reply_hide (land_trans rfl hm)
    | with_reducible apply Dev.modColl_hide (land_trans rfl hm)
    | (split
       all_goals try (rename_i heq
                      have h2 := congrArg Prod.snd heq
                      have h1 := congrArg Prod.fst heq
                      dsimp only at h1 h2
                      subst h1 h2
                      clear heq))
    | dsimp only [Lock.count]
    | dsimp +zetaDelta only

theorem Dev.testFailed_hide {m : Nat} (hm : 846685936644267521 &&& m = 846685936644267521) {x : Dev} (s : Dev) (g : Nat) (a2 : BringUp)
    (h : Dev.hide m s = x) : Dev.hide m (Dev.testFailed s g a2) = x := by
  unfold Dev.testFailed
  repeat' first
    | with_reducible assumption
    | intro _
    | extract_lets
    | with_reducible apply hide_ite
    | with_reducible apply hide_next
    | with_reducible apply Dev.occur_hide (land_trans rfl hm)
    | with_reducible apply Dev.modCell_hide (land_trans rfl hm)
    | with_reducible apply Dev.modBlock_hide (land_trans rfl hm)
    | with_reducible apply Dev.forEach_hide (land_trans rfl hm)
    | (split
       all_goals try (rename_i heq
                      have h2 := congrArg Prod.snd heq
                      have h1 := congrArg Prod.fst heq
                      dsimp only at h1 h2
                      subst h1 h2
                      clear heq))
    | dsimp only [Lock.count]
    | dsimp +zetaDelta only

theorem execTaskInstall_hide {m : Nat} (hm : 714990722360573569 &&& m = 714990722360573569) {x : Dev} (d : Desc) (s : State)
    (h : Dev.hide m s.dev = x) : Dev.hide m ((execTaskInstall d s).stateOr s).dev = x := by
  unfold execTaskInstall
  apply State.on_hide
  repeat' first
    | with_reducible assumption
    | intro _
    | extract_lets
    | with_reducible apply hide_ite
    | with_reducible apply hide_next
    | with_reducible apply Dev.memStore_hide (land_trans rfl hm)
    | with_reducible apply Dev.pickFree_hide (land_trans rfl hm)
    | with_reducible apply Dev.cmd_hide (land_trans rfl hm)
    | with_reducible apply Dev.fail_hide (land_trans rfl hm)
    | with_reducible apply Dev.reply_hide (land_trans rfl hm)
    | with_reducible apply Dev.modBarge_hide (land_trans rfl hm)
    | with_reducible apply hide_foldl
    | with_reducible apply hide_foldl2
    | with_reducible apply hide_foldl3
    | with_reducible apply hide_foldl4
    | (split
       all_goals try (rename_i heq
                      have h2 := congrArg Prod.snd heq
                      have h1 := congrArg Prod.fst heq
                      dsimp only at h1 h2
                      subst h1 h2
                      clear heq))
    | dsimp only [Lock.count]
    | dsimp +zetaDelta only

theorem Dev.towLoad_hide {m : Nat} (hm : 37189883445379072 &&& m = 37189883445379072) {x : Dev} (s : Dev) (d : Desc) (op : Nat) (i : Nat) (n : Nat) (addr : Nat) (data : Option (List Byte)) (f : Dev → Dev) (h_f : ∀ u0 y, Dev.hide m u0 = y → Dev.hide m (f u0) = y)
    (h : Dev.hide m s = x) : Dev.hide m (Dev.towLoad s d op i n addr data f) = x := by
  unfold Dev.towLoad
  repeat' first
    | with_reducible assumption
    | intro _
    | extract_lets
    | with_reducible apply hide_ite
    | with_reducible apply hide_next
    | with_reducible apply Dev.modTow_hide (land_trans rfl hm)
    | with_reducible apply Dev.fail_hide (land_trans rfl hm)
    | with_reducible apply Dev.setReg_hide (land_trans rfl hm)
    | with_reducible apply h_f
    | (split
       all_goals try (rename_i heq
                      have h2 := congrArg Prod.snd heq
                      have h1 := congrArg Prod.fst heq
                      dsimp only at h1 h2
                      subst h1 h2
                      clear heq))
    | dsimp only [Lock.count]
    | dsimp +zetaDelta only

theorem execTowpathXfer_hide {m : Nat} (hm : 714990724508032641 &&& m = 714990724508032641) {x : Dev} (d : Desc) (data : Option (List Byte)) (s : State)
    (h : Dev.hide m s.dev = x) : Dev.hide m ((execTowpathXfer d data s).stateOr s).dev = x := by
  unfold execTowpathXfer
  apply State.on_hide
  repeat' first
    | with_reducible assumption
    | intro _
    | extract_lets
    | with_reducible apply hide_ite
    | with_reducible apply hide_next
    | with_reducible apply Dev.towLoad_hide (land_trans rfl hm)
    | with_reducible apply Dev.twStart_hide (land_trans rfl hm)
    | with_reducible apply Dev.cmd_hide (land_trans rfl hm)
    | with_reducible apply Dev.reply_hide (land_trans rfl hm)
    | (split
       all_goals try (rename_i heq
                      have h2 := congrArg Prod.snd heq
                      have h1 := congrArg Prod.fst heq
                      dsimp only at h1 h2
                      subst h1 h2
                      clear heq))
    | dsimp only [Lock.count]
    | dsimp +zetaDelta only

theorem execSampleMirrorWrite_hide {m : Nat} (hm : 281475246198784 &&& m = 281475246198784) {x : Dev} (b : BlockIx) (s : State)
    (h : Dev.hide m s.dev = x) : Dev.hide m ((execSampleMirrorWrite b s).stateOr s).dev = x := by
  unfold execSampleMirrorWrite
  apply State.on_hide
  repeat' first
    | with_reducible assumption
    | intro _
    | extract_lets
    | with_reducible apply hide_ite
    | with_reducible apply hide_next
    | with_reducible apply Dev.lvFrame_hide (land_trans rfl hm)
    | with_reducible apply Dev.boundEvent_hide (land_trans rfl hm)
    | with_reducible apply Dev.modBz_hide (land_trans rfl hm)
    | with_reducible apply Dev.modConv_hide (land_trans rfl hm)
    | with_reducible apply Dev.irq_hide (land_trans rfl hm)
    | (split
       all_goals try (rename_i heq
                      have h2 := congrArg Prod.snd heq
                      have h1 := congrArg Prod.fst heq
                      dsimp only at h1 h2
                      subst h1 h2
                      clear heq))
    | dsimp only [Lock.count]
    | dsimp +zetaDelta only

theorem execModeSettled_hide {m : Nat} (hm : 1536 &&& m = 1536) {x : Dev} (a0 : CmpSel) (s : State)
    (h : Dev.hide m s.dev = x) : Dev.hide m ((execModeSettled a0 s).stateOr s).dev = x := by
  unfold execModeSettled
  apply State.on_hide
  repeat' first
    | with_reducible assumption
    | intro _
    | extract_lets
    | with_reducible apply hide_ite
    | with_reducible apply hide_next
    | with_reducible apply Dev.setCmp_hide (land_trans rfl hm)
    | (split
       all_goals try (rename_i heq
                      have h2 := congrArg Prod.snd heq
                      have h1 := congrArg Prod.fst heq
                      dsimp only at h1 h2
                      subst h1 h2
                      clear heq))
    | dsimp only [Lock.count]
    | dsimp +zetaDelta only

theorem execIdcode_hide {m : Nat} (hm : 576460752303947776 &&& m = 576460752303947776) {x : Dev} (s : State)
    (h : Dev.hide m s.dev = x) : Dev.hide m ((execIdcode s).stateOr s).dev = x := by
  unfold execIdcode
  apply State.on_hide
  repeat' first
    | with_reducible assumption
    | intro _
    | extract_lets
    | with_reducible apply hide_ite
    | with_reducible apply hide_next
    | with_reducible apply Dev.tapInstr_hide (land_trans rfl hm)
    | with_reducible apply Dev.emit_hide (land_trans rfl hm)
    | (split
       all_goals try (rename_i heq
                      have h2 := congrArg Prod.snd heq
                      have h1 := congrArg Prod.fst heq
                      dsimp only at h1 h2
                      subst h1 h2
                      clear heq))
    | dsimp only [Lock.count]
    | dsimp +zetaDelta only

theorem execFcStatus_hide {m : Nat} (hm : 714990722360544897 &&& m = 714990722360544897) {x : Dev} (d : Desc) (bufOk : Bool) (s : State)
    (h : Dev.hide m s.dev = x) : Dev.hide m ((execFcStatus d bufOk s).stateOr s).dev = x := by
  unfold execFcStatus
  apply State.on_hide
  repeat' first
    | with_reducible assumption
    | intro _
    | extract_lets
    | with_reducible apply hide_ite
    | with_reducible apply hide_next
    | with_reducible apply Dev.bufReply_hide (land_trans rfl hm)
    | with_reducible apply Dev.cmd_hide (land_trans rfl hm)
    | with_reducible apply Dev.fail_hide (land_trans rfl hm)
    | (split
       all_goals try (rename_i heq
                      have h2 := congrArg Prod.snd heq
                      have h1 := congrArg Prod.fst heq
                      dsimp only at h1 h2
                      subst h1 h2
                      clear heq))
    | dsimp only [Lock.count]
    | dsimp +zetaDelta only

theorem execArbLost_hide {m : Nat} (hm : 19140298416330752 &&& m = 19140298416330752) {x : Dev} (t : TowIx) (byte : Byte) (bit : Fin 8) (s : State)
    (h : Dev.hide m s.dev = x) : Dev.hide m ((execArbLost t byte bit s).stateOr s).dev = x := by
  unfold execArbLost
  apply State.on_hide
  repeat' first
    | with_reducible assumption
    | intro _
    | extract_lets
    | with_reducible apply hide_ite
    | with_reducible apply hide_next
    | with_reducible apply Dev.twEnd_hide (land_trans rfl hm)
    | with_reducible apply Dev.towFailAt_hide (land_trans rfl hm)
    | with_reducible apply Dev.modTow_hide (land_trans rfl hm)
    | with_reducible apply Dev.setTow_hide (land_trans rfl hm)
    | (split
       all_goals try (rename_i heq
                      have h2 := congrArg Prod.snd heq
                      have h1 := congrArg Prod.fst heq
                      dsimp only at h1 h2
                      subst h1 h2
                      clear heq))
    | dsimp only [Lock.count]
    | dsimp +zetaDelta only

theorem Dev.captureEdge_hide {m : Nat} (hm : 1024 &&& m = 1024) {x : Dev} (s : Dev) (b : Nat) (lane : Nat) (src : Nat) (dir : Bool) (async : Bool) (trip : Bool) (time : Nat)
    (h : Dev.hide m s = x) : Dev.hide m (Dev.captureEdge s b lane src dir async trip time) = x := by
  unfold Dev.captureEdge
  repeat' first
    | with_reducible assumption
    | intro _
    | extract_lets
    | with_reducible apply hide_ite
    | with_reducible apply hide_next
    | with_reducible apply Dev.setBlock_hide (land_trans rfl hm)
    | (split
       all_goals try (rename_i heq
                      have h2 := congrArg Prod.snd heq
                      have h1 := congrArg Prod.fst heq
                      dsimp only at h1 h2
                      subst h1 h2
                      clear heq))
    | dsimp only [Lock.count]
    | dsimp +zetaDelta only

theorem execShortCircuit_hide {m : Nat} (hm : 702570639013187073 &&& m = 702570639013187073) {x : Dev} (c : CellIx) (edge : DWord) (also : BitVec 16) (s : State)
    (h : Dev.hide m s.dev = x) : Dev.hide m ((execShortCircuit c edge also s).stateOr s).dev = x := by
  unfold execShortCircuit
  apply State.on_hide
  repeat' first
    | with_reducible assumption
    | intro _
    | extract_lets
    | with_reducible apply hide_ite
    | with_reducible apply hide_next
    | with_reducible apply Dev.captureEdge_hide (land_trans rfl hm)
    | with_reducible apply Dev.autoNext_hide (land_trans rfl hm)
    | with_reducible apply Dev.tripAt_hide (land_trans rfl hm)
    | with_reducible apply Dev.modCell_hide (land_trans rfl hm)
    | (split
       all_goals try (rename_i heq
                      have h2 := congrArg Prod.snd heq
                      have h1 := congrArg Prod.fst heq
                      dsimp only at h1 h2
                      subst h1 h2
                      clear heq))
    | dsimp only [Lock.count]
    | dsimp +zetaDelta only

theorem Dev.scanEnd_hide {m : Nat} (hm : 630574316576047104 &&& m = 630574316576047104) {x : Dev} (s : Dev) (n : Nat) (o : Op) (addr : Nat) (found : Nat) (status : Nat)
    (h : Dev.hide m s = x) : Dev.hide m (Dev.scanEnd s n o addr found status) = x := by
  unfold Dev.scanEnd
  repeat' first
    | with_reducible assumption
    | intro _
    | extract_lets
    | with_reducible apply hide_ite
    | with_reducible apply hide_next
    | with_reducible apply Dev.opFinish_hide (land_trans rfl hm)
    | with_reducible apply Dev.emit_hide (land_trans rfl hm)
    | (split
       all_goals try (rename_i heq
                      have h2 := congrArg Prod.snd heq
                      have h1 := congrArg Prod.fst heq
                      dsimp only at h1 h2
                      subst h1 h2
                      clear heq))
    | dsimp only [Lock.count]
    | dsimp +zetaDelta only

theorem Dev.surveyApply_hide {m : Nat} (hm : 4294967296 &&& m = 4294967296) {x : Dev} (s : Dev) (c : Nat) (p : SurveySum)
    (h : Dev.hide m s = x) : Dev.hide m (Dev.surveyApply s c p) = x := by
  unfold Dev.surveyApply
  repeat' first
    | with_reducible assumption
    | intro _
    | extract_lets
    | with_reducible apply hide_ite
    | with_reducible apply hide_next
    | with_reducible apply Dev.pendReg_hide (land_trans rfl hm)
    | (split
       all_goals try (rename_i heq
                      have h2 := congrArg Prod.snd heq
                      have h1 := congrArg Prod.fst heq
                      dsimp only at h1 h2
                      subst h1 h2
                      clear heq))
    | dsimp only [Lock.count]
    | dsimp +zetaDelta only

theorem Dev.surveyEntry_hide {m : Nat} (hm : 1 &&& m = 1) {x : Dev} (s : Dev) (c : Nat) (p : SurveySum)
    (h : Dev.hide m s = x) : Dev.hide m (Dev.surveyEntry s c p).2 = x := by
  unfold Dev.surveyEntry
  repeat' first
    | with_reducible assumption
    | intro _
    | extract_lets
    | with_reducible apply hide_ite
    | with_reducible apply hide_next
    | with_reducible apply Dev.drawWord_hide (land_trans rfl hm)
    | (split
       all_goals try (rename_i heq
                      have h2 := congrArg Prod.snd heq
                      have h1 := congrArg Prod.fst heq
                      dsimp only at h1 h2
                      subst h1 h2
                      clear heq))
    | dsimp only [Lock.count]
    | dsimp +zetaDelta only

theorem Dev.surveyEnd_hide {m : Nat} (hm : 630574320871014401 &&& m = 630574320871014401) {x : Dev} (s : Dev) (n : Nat) (o : Op) (g : Nat) (addr : Nat) (cells : Nat) (apply : Bool) (wasAuto : Bool) (pts : Sparse SurveySum) (cancelled : Bool)
    (h : Dev.hide m s = x) : Dev.hide m (Dev.surveyEnd s n o g addr cells apply wasAuto pts cancelled) = x := by
  unfold Dev.surveyEnd
  repeat' first
    | with_reducible assumption
    | intro _
    | extract_lets
    | with_reducible apply hide_ite
    | with_reducible apply hide_next
    | with_reducible apply Dev.surveyEntry_hide (land_trans rfl hm)
    | with_reducible apply Dev.surveyApply_hide (land_trans rfl hm)
    | with_reducible apply Dev.opFinish_hide (land_trans rfl hm)
    | with_reducible apply Dev.emit_hide (land_trans rfl hm)
    | with_reducible apply Dev.forEach_hide (land_trans rfl hm)
    | with_reducible apply hide_foldl
    | with_reducible apply hide_foldl2
    | with_reducible apply hide_foldl3
    | with_reducible apply hide_foldl4
    | (split
       all_goals try (rename_i heq
                      have h2 := congrArg Prod.snd heq
                      have h1 := congrArg Prod.fst heq
                      dsimp only at h1 h2
                      subst h1 h2
                      clear heq))
    | dsimp only [Lock.count]
    | dsimp +zetaDelta only

theorem Dev.bankEnd_hide {m : Nat} (hm : 630574316576047104 &&& m = 630574316576047104) {x : Dev} (s : Dev) (n : Nat) (o : Op) (b : BankSeq) (cancelled : Bool)
    (h : Dev.hide m s = x) : Dev.hide m (Dev.bankEnd s n o b cancelled) = x := by
  unfold Dev.bankEnd
  repeat' first
    | with_reducible assumption
    | intro _
    | extract_lets
    | with_reducible apply hide_ite
    | with_reducible apply hide_next
    | with_reducible apply Dev.opFinish_hide (land_trans rfl hm)
    | with_reducible apply Dev.emit_hide (land_trans rfl hm)
    | (split
       all_goals try (rename_i heq
                      have h2 := congrArg Prod.snd heq
                      have h1 := congrArg Prod.fst heq
                      dsimp only at h1 h2
                      subst h1 h2
                      clear heq))
    | dsimp only [Lock.count]
    | dsimp +zetaDelta only

theorem Dev.opCancelled_hide {m : Nat} (hm : 630574320871014401 &&& m = 630574320871014401) {x : Dev} (s : Dev) (n : Nat) (o : Op)
    (h : Dev.hide m s = x) : Dev.hide m (Dev.opCancelled s n o) = x := by
  unfold Dev.opCancelled
  repeat' first
    | with_reducible assumption
    | intro _
    | extract_lets
    | with_reducible apply hide_ite
    | with_reducible apply hide_next
    | with_reducible apply Dev.bankEnd_hide (land_trans rfl hm)
    | with_reducible apply Dev.surveyEnd_hide (land_trans rfl hm)
    | with_reducible apply Dev.scanEnd_hide (land_trans rfl hm)
    | with_reducible apply Dev.opFinish_hide (land_trans rfl hm)
    | (split
       all_goals try (rename_i heq
                      have h2 := congrArg Prod.snd heq
                      have h1 := congrArg Prod.fst heq
                      dsimp only at h1 h2
                      subst h1 h2
                      clear heq))
    | dsimp only [Lock.count]
    | dsimp +zetaDelta only

theorem Dev.opUndo_hide {m : Nat} (hm : 702641012052332033 &&& m = 702641012052332033) {x : Dev} (s : Dev) (n : Nat) (o : Op)
    (h : Dev.hide m s = x) : Dev.hide m (Dev.opUndo s n o) = x := by
  unfold Dev.opUndo
  repeat' first
    | with_reducible assumption
    | intro _
    | extract_lets
    | with_reducible apply hide_ite
    | with_reducible apply hide_next
    | with_reducible apply Dev.opCancelled_hide (land_trans rfl hm)
    | with_reducible apply Dev.chOff_hide (land_trans rfl hm)
    | with_reducible apply Dev.setOp_hide (land_trans rfl hm)
    | (split
       all_goals try (rename_i heq
                      have h2 := congrArg Prod.snd heq
                      have h1 := congrArg Prod.fst heq
                      dsimp only at h1 h2
                      subst h1 h2
                      clear heq))
    | dsimp only [Lock.count]
    | dsimp +zetaDelta only

theorem Dev.bgWrite32_hide {m : Nat} (hm : 4096 &&& m = 4096) {x : Dev} (s : Dev) (e : Nat) (off : Nat) (v : Nat)
    (h : Dev.hide m s = x) : Dev.hide m (Dev.bgWrite32 s e off v) = x := by
  unfold Dev.bgWrite32
  repeat' first
    | with_reducible assumption
    | intro _
    | extract_lets
    | with_reducible apply hide_ite
    | with_reducible apply hide_next
    | with_reducible apply Dev.poke_hide (land_trans rfl hm)
    | with_reducible apply Dev.irqClr_hide (land_trans rfl hm)
    | with_reducible apply Dev.irqSet_hide (land_trans rfl hm)
    | with_reducible apply Dev.setBarge_hide (land_trans rfl hm)
    | (split
       all_goals try (rename_i heq
                      have h2 := congrArg Prod.snd heq
                      have h1 := congrArg Prod.fst heq
                      dsimp only at h1 h2
                      subst h1 h2
                      clear heq))
    | dsimp only [Lock.count]
    | dsimp +zetaDelta only

theorem Dev.bgWrite_hide {m : Nat} (hm : 4096 &&& m = 4096) {x : Dev} (s : Dev) (e : Nat) (off : Nat) (size : Nat) (v : Nat)
    (h : Dev.hide m s = x) : Dev.hide m (Dev.bgWrite s e off size v) = x := by
  unfold Dev.bgWrite
  repeat' first
    | with_reducible assumption
    | intro _
    | extract_lets
    | with_reducible apply hide_ite
    | with_reducible apply hide_next
    | with_reducible apply Dev.bgWrite32_hide (land_trans rfl hm)
    | with_reducible apply Dev.tqPush_hide (land_trans rfl hm)
    | (split
       all_goals try (rename_i heq
                      have h2 := congrArg Prod.snd heq
                      have h1 := congrArg Prod.fst heq
                      dsimp only at h1 h2
                      subst h1 h2
                      clear heq))
    | dsimp only [Lock.count]
    | dsimp +zetaDelta only

theorem Dev.ndlWrite_hide {m : Nat} (hm : 1152921503532548093 &&& m = 1152921503532548093) {x : Dev} (s : Dev) (a1 : NdlSpace) (a : Nat) (v : Word)
    (h : Dev.hide m s = x) : Dev.hide m (Dev.ndlWrite s a1 a v) = x := by
  unfold Dev.ndlWrite
  repeat' first
    | with_reducible assumption
    | intro _
    | extract_lets
    | with_reducible apply hide_ite
    | with_reducible apply hide_next
    | with_reducible apply Dev.bgWrite_hide (land_trans rfl hm)
    | with_reducible apply Dev.barWrite_hide (land_trans rfl hm)
    | with_reducible apply Dev.writeWords_hide (land_trans rfl hm)
    | with_reducible apply Dev.debugIram_hide (land_trans rfl hm)
    | with_reducible apply Dev.memStore_hide (land_trans rfl hm)
    | with_reducible apply Dev.modBarge_hide (land_trans rfl hm)
    | (split
       all_goals try (rename_i heq
                      have h2 := congrArg Prod.snd heq
                      have h1 := congrArg Prod.fst heq
                      dsimp only at h1 h2
                      subst h1 h2
                      clear heq))
    | dsimp only [Lock.count]
    | dsimp +zetaDelta only

theorem execChStatus_hide {m : Nat} (hm : 714990722360544897 &&& m = 714990722360544897) {x : Dev} (d : Desc) (bufOk : Bool) (s : State)
    (h : Dev.hide m s.dev = x) : Dev.hide m ((execChStatus d bufOk s).stateOr s).dev = x := by
  unfold execChStatus
  apply State.on_hide
  repeat' first
    | with_reducible assumption
    | intro _
    | extract_lets
    | with_reducible apply hide_ite
    | with_reducible apply hide_next
    | with_reducible apply Dev.bufReply_hide (land_trans rfl hm)
    | with_reducible apply Dev.cmd_hide (land_trans rfl hm)
    | with_reducible apply Dev.fail_hide (land_trans rfl hm)
    | (split
       all_goals try (rename_i heq
                      have h2 := congrArg Prod.snd heq
                      have h1 := congrArg Prod.fst heq
                      dsimp only at h1 h2
                      subst h1 h2
                      clear heq))
    | dsimp only [Lock.count]
    | dsimp +zetaDelta only

theorem execBasinDisable_hide {m : Nat} (hm : 576742229427617792 &&& m = 576742229427617792) {x : Dev} (s : State)
    (h : Dev.hide m s.dev = x) : Dev.hide m ((execBasinDisable s).stateOr s).dev = x := by
  unfold execBasinDisable
  apply State.on_hide
  repeat' first
    | with_reducible assumption
    | intro _
    | extract_lets
    | with_reducible apply hide_ite
    | with_reducible apply hide_next
    | with_reducible apply Dev.bzDisable_hide (land_trans rfl hm)
    | (split
       all_goals try (rename_i heq
                      have h2 := congrArg Prod.snd heq
                      have h1 := congrArg Prod.fst heq
                      dsimp only at h1 h2
                      subst h1 h2
                      clear heq))
    | dsimp only [Lock.count]
    | dsimp +zetaDelta only

theorem execChipReset_hide {m : Nat} (hm : 1152921502995652601 &&& m = 1152921502995652601) {x : Dev} (key : Word) (s : State)
    (h : Dev.hide m s.dev = x) : Dev.hide m ((execChipReset key s).stateOr s).dev = x := by
  unfold execChipReset
  apply State.on_hide
  repeat' first
    | with_reducible assumption
    | intro _
    | extract_lets
    | with_reducible apply hide_ite
    | with_reducible apply hide_next
    | with_reducible apply Dev.chipRestart_hide (land_trans rfl hm)
    | with_reducible apply Dev.ndlReq_hide (land_trans rfl hm)
    | with_reducible apply Dev.ndlFault_hide (land_trans rfl hm)
    | with_reducible apply Dev.ndl_hide (land_trans rfl hm)
    | (split
       all_goals try (rename_i heq
                      have h2 := congrArg Prod.snd heq
                      have h1 := congrArg Prod.fst heq
                      dsimp only at h1 h2
                      subst h1 h2
                      clear heq))
    | dsimp only [Lock.count]
    | dsimp +zetaDelta only

theorem Dev.profCmd_hide {m : Nat} (hm : 54078405804559873 &&& m = 54078405804559873) {x : Dev} (s : Dev) (d : Desc) (op : Nat) (l : List ProfEdit)
    (h : Dev.hide m s = x) : Dev.hide m (Dev.profCmd s d op l) = x := by
  unfold Dev.profCmd
  repeat' first
    | with_reducible assumption
    | intro _
    | extract_lets
    | with_reducible apply hide_ite
    | with_reducible apply hide_next
    | with_reducible apply Dev.writeProf_hide (land_trans rfl hm)
    | with_reducible apply Dev.fail_hide (land_trans rfl hm)
    | with_reducible apply Dev.reply_hide (land_trans rfl hm)
    | with_reducible apply hide_foldl
    | with_reducible apply hide_foldl2
    | with_reducible apply hide_foldl3
    | with_reducible apply hide_foldl4
    | (split
       all_goals try (rename_i heq
                      have h2 := congrArg Prod.snd heq
                      have h1 := congrArg Prod.fst heq
                      dsimp only at h1 h2
                      subst h1 h2
                      clear heq))
    | dsimp only [Lock.count]
    | dsimp +zetaDelta only

theorem execFcErrClear_hide {m : Nat} (hm : 714990791080021633 &&& m = 714990791080021633) {x : Dev} (d : Desc) (s : State)
    (h : Dev.hide m s.dev = x) : Dev.hide m ((execFcErrClear d s).stateOr s).dev = x := by
  unfold execFcErrClear
  apply State.on_hide
  repeat' first
    | with_reducible assumption
    | intro _
    | extract_lets
    | with_reducible apply hide_ite
    | with_reducible apply hide_next
    | with_reducible apply Dev.errClear_hide (land_trans rfl hm)
    | with_reducible apply Dev.cmd_hide (land_trans rfl hm)
    | with_reducible apply Dev.reply_hide (land_trans rfl hm)
    | (split
       all_goals try (rename_i heq
                      have h2 := congrArg Prod.snd heq
                      have h1 := congrArg Prod.fst heq
                      dsimp only at h1 h2
                      subst h1 h2
                      clear heq))
    | dsimp only [Lock.count]
    | dsimp +zetaDelta only

theorem execLsRise_hide {m : Nat} (hm : 33554432 &&& m = 33554432) {x : Dev} (k : SliceIx) (s : State)
    (h : Dev.hide m s.dev = x) : Dev.hide m ((execLsRise k s).stateOr s).dev = x := by
  unfold execLsRise
  apply State.on_hide
  repeat' first
    | with_reducible assumption
    | intro _
    | extract_lets
    | with_reducible apply hide_ite
    | with_reducible apply hide_next
    | with_reducible apply Dev.setSlice_hide (land_trans rfl hm)
    | (split
       all_goals try (rename_i heq
                      have h2 := congrArg Prod.snd heq
                      have h1 := congrArg Prod.fst heq
                      dsimp only at h1 h2
                      subst h1 h2
                      clear heq))
    | dsimp only [Lock.count]
    | dsimp +zetaDelta only

theorem execChipSafe_hide {m : Nat} (hm : 851189536271638017 &&& m = 851189536271638017) {x : Dev} (seq : Byte) (stale : Bool) (s : State)
    (h : Dev.hide m s.dev = x) : Dev.hide m ((execChipSafe seq stale s).stateOr s).dev = x := by
  unfold execChipSafe
  apply State.on_hide
  repeat' first
    | with_reducible assumption
    | intro _
    | extract_lets
    | with_reducible apply hide_ite
    | with_reducible apply hide_next
    | with_reducible apply Dev.svFrame_hide (land_trans rfl hm)
    | with_reducible apply Dev.modSv_hide (land_trans rfl hm)
    | with_reducible apply Dev.occur_hide (land_trans rfl hm)
    | with_reducible apply Dev.stand_hide (land_trans rfl hm)
    | (split
       all_goals try (rename_i heq
                      have h2 := congrArg Prod.snd heq
                      have h1 := congrArg Prod.fst heq
                      dsimp only at h1 h2
                      subst h1 h2
                      clear heq))
    | dsimp only [Lock.count]
    | dsimp +zetaDelta only

theorem execPumpReservoirReady_hide {m : Nat} (hm : 512 &&& m = 512) {x : Dev} (c : CellIx) (s : State)
    (h : Dev.hide m s.dev = x) : Dev.hide m ((execPumpReservoirReady c s).stateOr s).dev = x := by
  unfold execPumpReservoirReady
  apply State.on_hide
  repeat' first
    | with_reducible assumption
    | intro _
    | extract_lets
    | with_reducible apply hide_ite
    | with_reducible apply hide_next
    | with_reducible apply Dev.modCell_hide (land_trans rfl hm)
    | (split
       all_goals try (rename_i heq
                      have h2 := congrArg Prod.snd heq
                      have h1 := congrArg Prod.fst heq
                      dsimp only at h1 h2
                      subst h1 h2
                      clear heq))
    | dsimp only [Lock.count]
    | dsimp +zetaDelta only

theorem Dev.centralOff_hide {m : Nat} (hm : 1152921502996201469 &&& m = 1152921502996201469) {x : Dev} (s : Dev) (reason : Nat)
    (h : Dev.hide m s = x) : Dev.hide m (Dev.centralOff s reason) = x := by
  unfold Dev.centralOff
  repeat' first
    | with_reducible assumption
    | intro _
    | extract_lets
    | with_reducible apply hide_ite
    | with_reducible apply hide_next
    | with_reducible apply Dev.chipReset_hide (land_trans rfl hm)
    | (split
       all_goals try (rename_i heq
                      have h2 := congrArg Prod.snd heq
                      have h1 := congrArg Prod.fst heq
                      dsimp only at h1 h2
                      subst h1 h2
                      clear heq))
    | with_reducible apply Dev.hide_upd_2_3_11_12_13_14_19_28_53 (land_trans rfl hm)
    | dsimp only [Lock.count]
    | dsimp +zetaDelta only

theorem Dev.tbHold_hide {m : Nat} (hm : 18014398509481992 &&& m = 18014398509481992) {x : Dev} (s : Dev)
    (h : Dev.hide m s = x) : Dev.hide m (Dev.tbHold s) = x := by
  unfold Dev.tbHold
  exact hide_ite (Dev.tbGoto_hide (land_trans rfl hm) _ _ _ h) h

theorem execTbclkLoss_hide {m : Nat} (hm : 855693135899008521 &&& m = 855693135899008521) {x : Dev} (s : State)
    (h : Dev.hide m s.dev = x) : Dev.hide m ((execTbclkLoss s).stateOr s).dev = x := by
  unfold execTbclkLoss
  apply State.on_hide
  repeat' first
    | with_reducible assumption
    | intro _
    | extract_lets
    | with_reducible apply hide_ite
    | with_reducible apply hide_next
    | with_reducible apply Dev.tbHold_hide (land_trans rfl hm)
    | with_reducible apply Dev.occur_hide (land_trans rfl hm)
    | (split
       all_goals try (rename_i heq
                      have h2 := congrArg Prod.snd heq
                      have h1 := congrArg Prod.fst heq
                      dsimp only at h1 h2
                      subst h1 h2
                      clear heq))
    | with_reducible apply Dev.hide_upd_53 (land_trans rfl hm)
    | dsimp only [Lock.count]
    | dsimp +zetaDelta only

theorem execSegTableLoad_hide {m : Nat} (hm : 281477124194304 &&& m = 281477124194304) {x : Dev} (table : Option (List DWord)) (s : State)
    (h : Dev.hide m s.dev = x) : Dev.hide m ((execSegTableLoad table s).stateOr s).dev = x := by
  unfold execSegTableLoad
  apply State.on_hide
  repeat' first
    | with_reducible assumption
    | intro _
    | extract_lets
    | with_reducible apply hide_ite
    | with_reducible apply hide_next
    | with_reducible apply Dev.modBz_hide (land_trans rfl hm)
    | with_reducible apply Dev.putReg_hide (land_trans rfl hm)
    | (split
       all_goals try (rename_i heq
                      have h2 := congrArg Prod.snd heq
                      have h1 := congrArg Prod.fst heq
                      dsimp only at h1 h2
                      subst h1 h2
                      clear heq))
    | dsimp only [Lock.count]
    | dsimp +zetaDelta only

theorem execBounce_hide {m : Nat} (hm : 18577348462907392 &&& m = 18577348462907392) {x : Dev} (s : State)
    (h : Dev.hide m s.dev = x) : Dev.hide m ((execBounce s).stateOr s).dev = x := by
  unfold execBounce
  apply State.on_hide
  repeat' first
    | with_reducible assumption
    | intro _
    | extract_lets
    | with_reducible apply hide_ite
    | with_reducible apply hide_next
    | with_reducible apply Dev.bounceEvent_hide (land_trans rfl hm)
    | with_reducible apply Dev.modRv_hide (land_trans rfl hm)
    | (split
       all_goals try (rename_i heq
                      have h2 := congrArg Prod.snd heq
                      have h1 := congrArg Prod.fst heq
                      dsimp only at h1 h2
                      subst h1 h2
                      clear heq))
    | dsimp only [Lock.count]
    | dsimp +zetaDelta only

theorem Dev.msixControl_hide {m : Nat} (hm : 576495936675512320 &&& m = 576495936675512320) {x : Dev} (s : Dev) (v : Nat)
    (h : Dev.hide m s = x) : Dev.hide m (Dev.msixControl s v) = x := by
  unfold Dev.msixControl
  repeat' first
    | with_reducible assumption
    | intro _
    | extract_lets
    | with_reducible apply hide_ite
    | with_reducible apply hide_next
    | with_reducible apply Dev.msixFlush_hide (land_trans rfl hm)
    | (split
       all_goals try (rename_i heq
                      have h2 := congrArg Prod.snd heq
                      have h1 := congrArg Prod.fst heq
                      dsimp only at h1 h2
                      subst h1 h2
                      clear heq))
    | with_reducible apply Dev.hide_upd_45 (land_trans rfl hm)
    | dsimp only [Lock.count]
    | dsimp +zetaDelta only

theorem execPackOv_hide {m : Nat} (hm : 847248886597688833 &&& m = 847248886597688833) {x : Dev} (live : Bool) (s : State)
    (h : Dev.hide m s.dev = x) : Dev.hide m ((execPackOv live s).stateOr s).dev = x := by
  unfold execPackOv
  apply State.on_hide
  repeat' first
    | with_reducible assumption
    | intro _
    | extract_lets
    | with_reducible apply hide_ite
    | with_reducible apply hide_next
    | with_reducible apply Dev.rvLive_hide (land_trans rfl hm)
    | (split
       all_goals try (rename_i heq
                      have h2 := congrArg Prod.snd heq
                      have h1 := congrArg Prod.fst heq
                      dsimp only at h1 h2
                      subst h1 h2
                      clear heq))
    | dsimp only [Lock.count]
    | dsimp +zetaDelta only

theorem execIslandLoadReply_hide {m : Nat} (hm : 35782541369679176 &&& m = 35782541369679176) {x : Dev} (e : BargeIx) (replied : Bool) (s : State)
    (h : Dev.hide m s.dev = x) : Dev.hide m ((execIslandLoadReply e replied s).stateOr s).dev = x := by
  unfold execIslandLoadReply
  apply State.on_hide
  repeat' first
    | with_reducible assumption
    | intro _
    | extract_lets
    | with_reducible apply hide_ite
    | with_reducible apply hide_next
    | with_reducible apply Dev.readWords_hide (land_trans rfl hm)
    | with_reducible apply Dev.answerLoad_hide (land_trans rfl hm)
    | with_reducible apply Dev.modBarge_hide (land_trans rfl hm)
    | (split
       all_goals try (rename_i heq
                      have h2 := congrArg Prod.snd heq
                      have h1 := congrArg Prod.fst heq
                      dsimp only at h1 h2
                      subst h1 h2
                      clear heq))
    | dsimp only [Lock.count]
    | dsimp +zetaDelta only

theorem execBattRemoval_hide {m : Nat} (hm : 562949953421312 &&& m = 562949953421312) {x : Dev} (s : State)
    (h : Dev.hide m s.dev = x) : Dev.hide m ((execBattRemoval s).stateOr s).dev = x := by
  unfold execBattRemoval
  apply State.on_hide
  repeat' first
    | with_reducible assumption
    | intro _
    | extract_lets
    | with_reducible apply hide_ite
    | with_reducible apply hide_next
    | with_reducible apply Dev.modRv_hide (land_trans rfl hm)
    | (split
       all_goals try (rename_i heq
                      have h2 := congrArg Prod.snd heq
                      have h1 := congrArg Prod.fst heq
                      dsimp only at h1 h2
                      subst h1 h2
                      clear heq))
    | dsimp only [Lock.count]
    | dsimp +zetaDelta only

theorem execMgmtMboxRead_hide {m : Nat} (hm : 714990722360544897 &&& m = 714990722360544897) {x : Dev} (d : Desc) (bufOk : Bool) (s : State)
    (h : Dev.hide m s.dev = x) : Dev.hide m ((execMgmtMboxRead d bufOk s).stateOr s).dev = x := by
  unfold execMgmtMboxRead
  apply State.on_hide
  repeat' first
    | with_reducible assumption
    | intro _
    | extract_lets
    | with_reducible apply hide_ite
    | with_reducible apply hide_next
    | with_reducible apply Dev.bufReply_hide (land_trans rfl hm)
    | with_reducible apply Dev.modMg_hide (land_trans rfl hm)
    | with_reducible apply Dev.cmd_hide (land_trans rfl hm)
    | with_reducible apply Dev.fail_hide (land_trans rfl hm)
    | (split
       all_goals try (rename_i heq
                      have h2 := congrArg Prod.snd heq
                      have h1 := congrArg Prod.fst heq
                      dsimp only at h1 h2
                      subst h1 h2
                      clear heq))
    | dsimp only [Lock.count]
    | dsimp +zetaDelta only

theorem execLvOff_hide {m : Nat} (hm : 714955537989504641 &&& m = 714955537989504641) {x : Dev} (n : BlockIx) (s : State)
    (h : Dev.hide m s.dev = x) : Dev.hide m ((execLvOff n s).stateOr s).dev = x := by
  unfold execLvOff
  apply State.on_hide
  repeat' first
    | with_reducible assumption
    | intro _
    | extract_lets
    | with_reducible apply hide_ite
    | with_reducible apply hide_next
    | with_reducible apply Dev.lvChan_hide (land_trans rfl hm)
    | with_reducible apply Dev.chOff_hide (land_trans rfl hm)
    | (split
       all_goals try (rename_i heq
                      have h2 := congrArg Prod.snd heq
                      have h1 := congrArg Prod.fst heq
                      dsimp only at h1 h2
                      subst h1 h2
                      clear heq))
    | dsimp only [Lock.count]
    | dsimp +zetaDelta only

theorem execBypass_hide {m : Nat} (hm : 524288 &&& m = 524288) {x : Dev} (s : State)
    (h : Dev.hide m s.dev = x) : Dev.hide m ((execBypass s).stateOr s).dev = x := by
  unfold execBypass
  apply State.on_hide
  repeat' first
    | with_reducible assumption
    | intro _
    | extract_lets
    | with_reducible apply hide_ite
    | with_reducible apply hide_next
    | with_reducible apply Dev.tapInstr_hide (land_trans rfl hm)
    | (split
       all_goals try (rename_i heq
                      have h2 := congrArg Prod.snd heq
                      have h1 := congrArg Prod.fst heq
                      dsimp only at h1 h2
                      subst h1 h2
                      clear heq))
    | dsimp only [Lock.count]
    | dsimp +zetaDelta only

theorem execAltSourceSwitch_hide {m : Nat} (hm : 18014398509481992 &&& m = 18014398509481992) {x : Dev} (s : State)
    (h : Dev.hide m s.dev = x) : Dev.hide m ((execAltSourceSwitch s).stateOr s).dev = x := by
  unfold execAltSourceSwitch
  apply State.on_hide
  repeat' first
    | with_reducible assumption
    | intro _
    | extract_lets
    | with_reducible apply hide_ite
    | with_reducible apply hide_next
    | with_reducible apply Dev.tbGoto_hide (land_trans rfl hm)
    | (split
       all_goals try (rename_i heq
                      have h2 := congrArg Prod.snd heq
                      have h1 := congrArg Prod.fst heq
                      dsimp only at h1 h2
                      subst h1 h2
                      clear heq))
    | with_reducible apply Dev.hide_upd_3 (land_trans rfl hm)
    | dsimp only [Lock.count]
    | dsimp +zetaDelta only

theorem Dev.drainStore_hide {m : Nat} (hm : 1152921503532548093 &&& m = 1152921503532548093) {x : Dev} (s : Dev) (e : Nat) (a2 : StoreEnt)
    (h : Dev.hide m s = x) : Dev.hide m (Dev.drainStore s e a2) = x := by
  unfold Dev.drainStore
  repeat' first
    | with_reducible assumption
    | intro _
    | extract_lets
    | with_reducible apply hide_ite
    | with_reducible apply hide_next
    | with_reducible apply Dev.bgWrite_hide (land_trans rfl hm)
    | with_reducible apply Dev.writeWords_hide (land_trans rfl hm)
    | with_reducible apply Dev.memStore_hide (land_trans rfl hm)
    | with_reducible apply Dev.modBarge_hide (land_trans rfl hm)
    | (split
       all_goals try (rename_i heq
                      have h2 := congrArg Prod.snd heq
                      have h1 := congrArg Prod.fst heq
                      dsimp only at h1 h2
                      subst h1 h2
                      clear heq))
    | dsimp only [Lock.count]
    | dsimp +zetaDelta only

theorem execStoreDrain_hide {m : Nat} (hm : 1152921503532548093 &&& m = 1152921503532548093) {x : Dev} (e : BargeIx) (s : State)
    (h : Dev.hide m s.dev = x) : Dev.hide m ((execStoreDrain e s).stateOr s).dev = x := by
  unfold execStoreDrain
  apply State.on_hide
  repeat' first
    | with_reducible assumption
    | intro _
    | extract_lets
    | with_reducible apply hide_ite
    | with_reducible apply hide_next
    | with_reducible apply Dev.drainStore_hide (land_trans rfl hm)
    | with_reducible apply Dev.haltSettle_hide (land_trans rfl hm)
    | with_reducible apply Dev.modBarge_hide (land_trans rfl hm)
    | (split
       all_goals try (rename_i heq
                      have h2 := congrArg Prod.snd heq
                      have h1 := congrArg Prod.fst heq
                      dsimp only at h1 h2
                      subst h1 h2
                      clear heq))
    | dsimp only [Lock.count]
    | dsimp +zetaDelta only

theorem execPrefetchComplete_hide {m : Nat} (hm : 4096 &&& m = 4096) {x : Dev} (e : BargeIx) (s : State)
    (h : Dev.hide m s.dev = x) : Dev.hide m ((execPrefetchComplete e s).stateOr s).dev = x := by
  unfold execPrefetchComplete
  apply State.on_hide
  repeat' first
    | with_reducible assumption
    | intro _
    | extract_lets
    | with_reducible apply hide_ite
    | with_reducible apply hide_next
    | with_reducible apply Dev.setBarge_hide (land_trans rfl hm)
    | (split
       all_goals try (rename_i heq
                      have h2 := congrArg Prod.snd heq
                      have h1 := congrArg Prod.fst heq
                      dsimp only at h1 h2
                      subst h1 h2
                      clear heq))
    | dsimp only [Lock.count]
    | dsimp +zetaDelta only

theorem execLaneStop_hide {m : Nat} (hm : 134217728 &&& m = 134217728) {x : Dev} (c : CellIx) (clocks : BitVec 25) (s : State)
    (h : Dev.hide m s.dev = x) : Dev.hide m ((execLaneStop c clocks s).stateOr s).dev = x := by
  unfold execLaneStop
  apply State.on_hide
  repeat' first
    | with_reducible assumption
    | intro _
    | extract_lets
    | with_reducible apply hide_ite
    | with_reducible apply hide_next
    | with_reducible apply Dev.stopLane_hide (land_trans rfl hm)
    | with_reducible apply Dev.modLane_hide (land_trans rfl hm)
    | (split
       all_goals try (rename_i heq
                      have h2 := congrArg Prod.snd heq
                      have h1 := congrArg Prod.fst heq
                      dsimp only at h1 h2
                      subst h1 h2
                      clear heq))
    | dsimp only [Lock.count]
    | dsimp +zetaDelta only

theorem execNodeImageStale_hide {m : Nat} (hm : 1048576 &&& m = 1048576) {x : Dev} (n : BlockIx) (s : State)
    (h : Dev.hide m s.dev = x) : Dev.hide m ((execNodeImageStale n s).stateOr s).dev = x := by
  unfold execNodeImageStale
  apply State.on_hide
  repeat' first
    | with_reducible assumption
    | intro _
    | extract_lets
    | with_reducible apply hide_ite
    | with_reducible apply hide_next
    | with_reducible apply Dev.modNode_hide (land_trans rfl hm)
    | (split
       all_goals try (rename_i heq
                      have h2 := congrArg Prod.snd heq
                      have h1 := congrArg Prod.fst heq
                      dsimp only at h1 h2
                      subst h1 h2
                      clear heq))
    | dsimp only [Lock.count]
    | dsimp +zetaDelta only

theorem Dev.shortResult_hide {m : Nat} (hm : 702570639013187073 &&& m = 702570639013187073) {x : Dev} (s : Dev) (c : Nat)
    (h : Dev.hide m s = x) : Dev.hide m (Dev.shortResult s c) = x := by
  unfold Dev.shortResult
  repeat' first
    | with_reducible assumption
    | intro _
    | extract_lets
    | with_reducible apply hide_ite
    | with_reducible apply hide_next
    | with_reducible apply Dev.precheckFail_hide (land_trans rfl hm)
    | with_reducible apply Dev.precheckDone_hide (land_trans rfl hm)
    | with_reducible apply Dev.presenceEvent_hide (land_trans rfl hm)
    | with_reducible apply Dev.goto_hide (land_trans rfl hm)
    | with_reducible apply Dev.modCell_hide (land_trans rfl hm)
    | (split
       all_goals try (rename_i heq
                      have h2 := congrArg Prod.snd heq
                      have h1 := congrArg Prod.fst heq
                      dsimp only at h1 h2
                      subst h1 h2
                      clear heq))
    | dsimp only [Lock.count]
    | dsimp +zetaDelta only

theorem Dev.probeResult_hide {m : Nat} (hm : 702570639013187073 &&& m = 702570639013187073) {x : Dev} (s : Dev) (c : Nat)
    (h : Dev.hide m s = x) : Dev.hide m (Dev.probeResult s c) = x := by
  unfold Dev.probeResult
  repeat' first
    | with_reducible assumption
    | intro _
    | extract_lets
    | with_reducible apply hide_ite
    | with_reducible apply hide_next
    | with_reducible apply Dev.shortResult_hide (land_trans rfl hm)
    | with_reducible apply Dev.presenceEvent_hide (land_trans rfl hm)
    | with_reducible apply Dev.goto_hide (land_trans rfl hm)
    | with_reducible apply Dev.modCell_hide (land_trans rfl hm)
    | (split
       all_goals try (rename_i heq
                      have h2 := congrArg Prod.snd heq
                      have h1 := congrArg Prod.fst heq
                      dsimp only at h1 h2
                      subst h1 h2
                      clear heq))
    | dsimp only [Lock.count]
    | dsimp +zetaDelta only

theorem execAliveMonitor_hide {m : Nat} (hm : 68719476736 &&& m = 68719476736) {x : Dev} (s : State)
    (h : Dev.hide m s.dev = x) : Dev.hide m ((execAliveMonitor s).stateOr s).dev = x := by
  unfold execAliveMonitor
  apply State.on_hide
  repeat' first
    | with_reducible assumption
    | intro _
    | extract_lets
    | with_reducible apply hide_ite
    | with_reducible apply hide_next
    | (split
       all_goals try (rename_i heq
                      have h2 := congrArg Prod.snd heq
                      have h1 := congrArg Prod.fst heq
                      dsimp only at h1 h2
                      subst h1 h2
                      clear heq))
    | with_reducible apply Dev.hide_upd_36 (land_trans rfl hm)
    | dsimp only [Lock.count]
    | dsimp +zetaDelta only

theorem execBasinRelease_hide {m : Nat} (hm : 715272197337255553 &&& m = 715272197337255553) {x : Dev} (d : Desc) (s : State)
    (h : Dev.hide m s.dev = x) : Dev.hide m ((execBasinRelease d s).stateOr s).dev = x := by
  unfold execBasinRelease
  apply State.on_hide
  repeat' first
    | with_reducible assumption
    | intro _
    | extract_lets
    | with_reducible apply hide_ite
    | with_reducible apply hide_next
    | with_reducible apply Dev.bzWriteback_hide (land_trans rfl hm)
    | with_reducible apply Dev.bzMark_hide (land_trans rfl hm)
    | with_reducible apply Dev.modBz_hide (land_trans rfl hm)
    | with_reducible apply Dev.cmd_hide (land_trans rfl hm)
    | with_reducible apply Dev.fail_hide (land_trans rfl hm)
    | with_reducible apply Dev.reply_hide (land_trans rfl hm)
    | (split
       all_goals try (rename_i heq
                      have h2 := congrArg Prod.snd heq
                      have h1 := congrArg Prod.fst heq
                      dsimp only at h1 h2
                      subst h1 h2
                      clear heq))
    | dsimp only [Lock.count]
    | dsimp +zetaDelta only

theorem execPackHot_hide {m : Nat} (hm : 847248886597688833 &&& m = 847248886597688833) {x : Dev} (live : Bool) (s : State)
    (h : Dev.hide m s.dev = x) : Dev.hide m ((execPackHot live s).stateOr s).dev = x := by
  unfold execPackHot
  apply State.on_hide
  repeat' first
    | with_reducible assumption
    | intro _
    | extract_lets
    | with_reducible apply hide_ite
    | with_reducible apply hide_next
    | with_reducible apply Dev.rvLive_hide (land_trans rfl hm)
    | (split
       all_goals try (rename_i heq
                      have h2 := congrArg Prod.snd heq
                      have h1 := congrArg Prod.fst heq
                      dsimp only at h1 h2
                      subst h1 h2
                      clear heq))
    | dsimp only [Lock.count]
    | dsimp +zetaDelta only

theorem execExtTripLine_hide {m : Nat} (hm : 2048 &&& m = 2048) {x : Dev} (g : RegionIx) (i : Fin 8) (low : Bool) (s : State)
    (h : Dev.hide m s.dev = x) : Dev.hide m ((execExtTripLine g i low s).stateOr s).dev = x := by
  unfold execExtTripLine
  apply State.on_hide
  repeat' first
    | with_reducible assumption
    | intro _
    | extract_lets
    | with_reducible apply hide_ite
    | with_reducible apply hide_next
    | with_reducible apply Dev.extUpdate_hide (land_trans rfl hm)
    | with_reducible apply Dev.modRegion_hide (land_trans rfl hm)
    | (split
       all_goals try (rename_i heq
                      have h2 := congrArg Prod.snd heq
                      have h1 := congrArg Prod.fst heq
                      dsimp only at h1 h2
                      subst h1 h2
                      clear heq))
    | dsimp only [Lock.count]
    | dsimp +zetaDelta only

theorem execProfilePatch_hide {m : Nat} (hm : 714990722360544897 &&& m = 714990722360544897) {x : Dev} (d : Desc) (s : State)
    (h : Dev.hide m s.dev = x) : Dev.hide m ((execProfilePatch d s).stateOr s).dev = x := by
  unfold execProfilePatch
  apply State.on_hide
  repeat' first
    | with_reducible assumption
    | intro _
    | extract_lets
    | with_reducible apply hide_ite
    | with_reducible apply hide_next
    | with_reducible apply Dev.profCmd_hide (land_trans rfl hm)
    | with_reducible apply Dev.cmd_hide (land_trans rfl hm)
    | with_reducible apply Dev.fail_hide (land_trans rfl hm)
    | (split
       all_goals try (rename_i heq
                      have h2 := congrArg Prod.snd heq
                      have h1 := congrArg Prod.fst heq
                      dsimp only at h1 h2
                      subst h1 h2
                      clear heq))
    | dsimp only [Lock.count]
    | dsimp +zetaDelta only

theorem execClamp_hide {m : Nat} (hm : 524288 &&& m = 524288) {x : Dev} (s : State)
    (h : Dev.hide m s.dev = x) : Dev.hide m ((execClamp s).stateOr s).dev = x := by
  unfold execClamp
  apply State.on_hide
  repeat' first
    | with_reducible assumption
    | intro _
    | extract_lets
    | with_reducible apply hide_ite
    | with_reducible apply hide_next
    | with_reducible apply Dev.tapInstr_hide (land_trans rfl hm)
    | (split
       all_goals try (rename_i heq
                      have h2 := congrArg Prod.snd heq
                      have h1 := congrArg Prod.fst heq
                      dsimp only at h1 h2
                      subst h1 h2
                      clear heq))
    | dsimp only [Lock.count]
    | dsimp +zetaDelta only

theorem execSupervisorClear_hide {m : Nat} (hm : 598978784800020480 &&& m = 598978784800020480) {x : Dev} (seq : Byte) (stale : Bool) (s : State)
    (h : Dev.hide m s.dev = x) : Dev.hide m ((execSupervisorClear seq stale s).stateOr s).dev = x := by
  unfold execSupervisorClear
  apply State.on_hide
  repeat' first
    | with_reducible assumption
    | intro _
    | extract_lets
    | with_reducible apply hide_ite
    | with_reducible apply hide_next
    | with_reducible apply Dev.svFrame_hide (land_trans rfl hm)
    | with_reducible apply Dev.modSv_hide (land_trans rfl hm)
    | (split
       all_goals try (rename_i heq
                      have h2 := congrArg Prod.snd heq
                      have h1 := congrArg Prod.fst heq
                      dsimp only at h1 h2
                      subst h1 h2
                      clear heq))
    | dsimp only [Lock.count]
    | dsimp +zetaDelta only

theorem execSliceLoopSet_hide {m : Nat} (hm : 714990728836554369 &&& m = 714990728836554369) {x : Dev} (d : Desc) (s : State)
    (h : Dev.hide m s.dev = x) : Dev.hide m ((execSliceLoopSet d s).stateOr s).dev = x := by
  unfold execSliceLoopSet
  apply State.on_hide
  repeat' first
    | with_reducible assumption
    | intro _
    | extract_lets
    | with_reducible apply hide_ite
    | with_reducible apply hide_next
    | with_reducible apply Dev.drawWord_hide (land_trans rfl hm)
    | with_reducible apply Dev.pendReg_hide (land_trans rfl hm)
    | with_reducible apply Dev.cmd_hide (land_trans rfl hm)
    | with_reducible apply Dev.fail_hide (land_trans rfl hm)
    | with_reducible apply Dev.reply_hide (land_trans rfl hm)
    | with_reducible apply Dev.modSlice_hide (land_trans rfl hm)
    | with_reducible apply Dev.commitReg_hide (land_trans rfl hm)
    | with_reducible apply Dev.modBarge_hide (land_trans rfl hm)
    | (split
       all_goals try (rename_i heq
                      have h2 := congrArg Prod.snd heq
                      have h1 := congrArg Prod.fst heq
                      dsimp only at h1 h2
                      subst h1 h2
                      clear heq))
    | dsimp only [Lock.count]
    | dsimp +zetaDelta only

theorem Dev.lockRingAdvance_hide {m : Nat} (hm : 576495936675512320 &&& m = 576495936675512320) {x : Dev} (s : Dev) (r : Nat)
    (h : Dev.hide m s = x) : Dev.hide m (Dev.lockRingAdvance s r) = x := by
  unfold Dev.lockRingAdvance
  repeat' first
    | with_reducible assumption
    | intro _
    | extract_lets
    | with_reducible apply hide_ite
    | with_reducible apply hide_next
    | with_reducible apply Dev.writeback_hide (land_trans rfl hm)
    | with_reducible apply Dev.modRing_hide (land_trans rfl hm)
    | with_reducible apply Dev.ctxUse_hide (land_trans rfl hm)
    | (split
       all_goals try (rename_i heq
                      have h2 := congrArg Prod.snd heq
                      have h1 := congrArg Prod.fst heq
                      dsimp only at h1 h2
                      subst h1 h2
                      clear heq))
    | dsimp only [Lock.count]
    | dsimp +zetaDelta only

theorem execLockFetch_hide {m : Nat} (hm : 594510335184994560 &&& m = 594510335184994560) {x : Dev} (n : Fin 16) (e : LockEntry) (s : State)
    (h : Dev.hide m s.dev = x) : Dev.hide m ((execLockFetch n e s).stateOr s).dev = x := by
  unfold execLockFetch
  apply State.on_hide
  repeat' first
    | with_reducible assumption
    | intro _
    | extract_lets
    | with_reducible apply hide_ite
    | with_reducible apply hide_next
    | with_reducible apply Dev.lockRingAdvance_hide (land_trans rfl hm)
    | with_reducible apply Dev.lockAccept_hide (land_trans rfl hm)
    | (split
       all_goals try (rename_i heq
                      have h2 := congrArg Prod.snd heq
                      have h1 := congrArg Prod.fst heq
                      dsimp only at h1 h2
                      subst h1 h2
                      clear heq))
    | dsimp only [Lock.count]
    | dsimp +zetaDelta only

theorem execDoorbell_hide {m : Nat} (hm : 18119985985492992 &&& m = 18119985985492992) {x : Dev} (ring : RingIx) (v : Word) (word : Bool) (s : State)
    (h : Dev.hide m s.dev = x) : Dev.hide m ((execDoorbell ring v word s).stateOr s).dev = x := by
  unfold execDoorbell
  apply State.on_hide
  repeat' first
    | with_reducible assumption
    | intro _
    | extract_lets
    | with_reducible apply hide_ite
    | with_reducible apply hide_next
    | with_reducible apply Dev.ringError_hide (land_trans rfl hm)
    | with_reducible apply Dev.opRetry_hide (land_trans rfl hm)
    | with_reducible apply Dev.hbKick_hide (land_trans rfl hm)
    | with_reducible apply Dev.setRing_hide (land_trans rfl hm)
    | with_reducible apply Dev.ctxUse_hide (land_trans rfl hm)
    | (split
       all_goals try (rename_i heq
                      have h2 := congrArg Prod.snd heq
                      have h1 := congrArg Prod.fst heq
                      dsimp only at h1 h2
                      subst h1 h2
                      clear heq))
    | with_reducible apply Dev.hide_upd_45 (land_trans rfl hm)
    | dsimp only [Lock.count]
    | dsimp +zetaDelta only

theorem execCalRun_hide {m : Nat} (hm : 715201828593077889 &&& m = 715201828593077889) {x : Dev} (d : Desc) (s : State)
    (h : Dev.hide m s.dev = x) : Dev.hide m ((execCalRun d s).stateOr s).dev = x := by
  unfold execCalRun
  apply State.on_hide
  repeat' first
    | with_reducible assumption
    | intro _
    | extract_lets
    | with_reducible apply hide_ite
    | with_reducible apply hide_next
    | with_reducible apply Dev.opStart_hide (land_trans rfl hm)
    | with_reducible apply Dev.cmd_hide (land_trans rfl hm)
    | with_reducible apply Dev.fail_hide (land_trans rfl hm)
    | (split
       all_goals try (rename_i heq
                      have h2 := congrArg Prod.snd heq
                      have h1 := congrArg Prod.fst heq
                      dsimp only at h1 h2
                      subst h1 h2
                      clear heq))
    | dsimp only [Lock.count]
    | dsimp +zetaDelta only

theorem execStraitLossTimeout_hide {m : Nat} (hm : 846686623906143745 &&& m = 846686623906143745) {x : Dev} (g : RegionIx) (e : StraitEnd) (s : State)
    (h : Dev.hide m s.dev = x) : Dev.hide m ((execStraitLossTimeout g e s).stateOr s).dev = x := by
  unfold execStraitLossTimeout
  apply State.on_hide
  repeat' first
    | with_reducible assumption
    | intro _
    | extract_lets
    | with_reducible apply hide_ite
    | with_reducible apply hide_next
    | with_reducible apply Dev.straitLoss_hide (land_trans rfl hm)
    | (split
       all_goals try (rename_i heq
                      have h2 := congrArg Prod.snd heq
                      have h1 := congrArg Prod.fst heq
                      dsimp only at h1 h2
                      subst h1 h2
                      clear heq))
    | dsimp only [Lock.count]
    | dsimp +zetaDelta only

theorem execLatchedClear_hide {m : Nat} (hm : 18014432869226496 &&& m = 18014432869226496) {x : Dev} (k : CollIx) (mask : Quad) (s : State)
    (h : Dev.hide m s.dev = x) : Dev.hide m ((execLatchedClear k mask s).stateOr s).dev = x := by
  unfold execLatchedClear
  apply State.on_hide
  repeat' first
    | with_reducible assumption
    | intro _
    | extract_lets
    | with_reducible apply hide_ite
    | with_reducible apply hide_next
    | with_reducible apply Dev.clearLatched_hide (land_trans rfl hm)
    | (split
       all_goals try (rename_i heq
                      have h2 := congrArg Prod.snd heq
                      have h1 := congrArg Prod.fst heq
                      dsimp only at h1 h2
                      subst h1 h2
                      clear heq))
    | dsimp only [Lock.count]
    | dsimp +zetaDelta only

theorem execLvReset_hide {m : Nat} (hm : 714955572349247105 &&& m = 714955572349247105) {x : Dev} (n : BlockIx) (s : State)
    (h : Dev.hide m s.dev = x) : Dev.hide m ((execLvReset n s).stateOr s).dev = x := by
  unfold execLvReset
  apply State.on_hide
  repeat' first
    | with_reducible assumption
    | intro _
    | extract_lets
    | with_reducible apply hide_ite
    | with_reducible apply hide_next
    | with_reducible apply Dev.lvChan_hide (land_trans rfl hm)
    | with_reducible apply Dev.chReset_hide (land_trans rfl hm)
    | (split
       all_goals try (rename_i heq
                      have h2 := congrArg Prod.snd heq
                      have h1 := congrArg Prod.fst heq
                      dsimp only at h1 h2
                      subst h1 h2
                      clear heq))
    | dsimp only [Lock.count]
    | dsimp +zetaDelta only

theorem execPowerModeWrite_hide {m : Nat} (hm : 712703740322254465 &&& m = 712703740322254465) {x : Dev} (mode : BitVec 2) (s : State)
    (h : Dev.hide m s.dev = x) : Dev.hide m ((execPowerModeWrite mode s).stateOr s).dev = x := by
  unfold execPowerModeWrite
  apply State.on_hide
  repeat' first
    | with_reducible assumption
    | intro _
    | extract_lets
    | with_reducible apply hide_ite
    | with_reducible apply hide_next
    | with_reducible apply Dev.modeWrite_hide (land_trans rfl hm)
    | (split
       all_goals try (rename_i heq
                      have h2 := congrArg Prod.snd heq
                      have h1 := congrArg Prod.fst heq
                      dsimp only at h1 h2
                      subst h1 h2
                      clear heq))
    | dsimp only [Lock.count]
    | dsimp +zetaDelta only

theorem Dev.bringUp_hide {m : Nat} (hm : 846685937181138433 &&& m = 846685937181138433) {x : Dev} (s : Dev) (g : Nat) (a2 : BringUp)
    (h : Dev.hide m s = x) : Dev.hide m (Dev.bringUp s g a2) = x := by
  unfold Dev.bringUp
  repeat' first
    | with_reducible assumption
    | intro _
    | extract_lets
    | with_reducible apply hide_ite
    | with_reducible apply hide_next
    | with_reducible apply Dev.testFailed_hide (land_trans rfl hm)
    | with_reducible apply Dev.auxWake_hide (land_trans rfl hm)
    | with_reducible apply Dev.extUpdate_hide (land_trans rfl hm)
    | with_reducible apply Dev.occur_hide (land_trans rfl hm)
    | with_reducible apply Dev.modCell_hide (land_trans rfl hm)
    | with_reducible apply Dev.modBlock_hide (land_trans rfl hm)
    | with_reducible apply Dev.forEach_hide (land_trans rfl hm)
    | with_reducible apply Dev.modRegion_hide (land_trans rfl hm)
    | (split
       all_goals try (rename_i heq
                      have h2 := congrArg Prod.snd heq
                      have h1 := congrArg Prod.fst heq
                      dsimp only at h1 h2
                      subst h1 h2
                      clear heq))
    | with_reducible apply Dev.hide_upd_35 (land_trans rfl hm)
    | dsimp only [Lock.count]
    | dsimp +zetaDelta only

theorem execIslandBringup_hide {m : Nat} (hm : 846685937181138433 &&& m = 846685937181138433) {x : Dev} (g : RegionIx) (a1 : BringUp) (s : State)
    (h : Dev.hide m s.dev = x) : Dev.hide m ((execIslandBringup g a1 s).stateOr s).dev = x := by
  unfold execIslandBringup
  apply State.on_hide
  repeat' first
    | with_reducible assumption
    | intro _
    | extract_lets
    | with_reducible apply hide_ite
    | with_reducible apply hide_next
    | with_reducible apply Dev.bringUp_hide (land_trans rfl hm)
    | (split
       all_goals try (rename_i heq
                      have h2 := congrArg Prod.snd heq
                      have h1 := congrArg Prod.fst heq
                      dsimp only at h1 h2
                      subst h1 h2
                      clear heq))
    | dsimp only [Lock.count]
    | dsimp +zetaDelta only

theorem Dev.flashCommit_hide {m : Nat} (hm : 32768 &&& m = 32768) {x : Dev} (s : Dev) (area : Nat) (hdr : List Byte)
    (h : Dev.hide m s = x) : Dev.hide m (Dev.flashCommit s area hdr).2 = x := by
  unfold Dev.flashCommit
  repeat' first
    | with_reducible assumption
    | intro _
    | extract_lets
    | with_reducible apply hide_ite
    | with_reducible apply hide_next
    | with_reducible apply Dev.flashWrite_hide (land_trans rfl hm)
    | (split
       all_goals try (rename_i heq
                      have h2 := congrArg Prod.snd heq
                      have h1 := congrArg Prod.fst heq
                      dsimp only at h1 h2
                      subst h1 h2
                      clear heq))
    | dsimp only [Lock.count]
    | dsimp +zetaDelta only

theorem execChalRead_hide {m : Nat} (hm : 576460752303685633 &&& m = 576460752303685633) {x : Dev} (s : State)
    (h : Dev.hide m s.dev = x) : Dev.hide m ((execChalRead s).stateOr s).dev = x := by
  unfold execChalRead
  apply State.on_hide
  repeat' first
    | with_reducible assumption
    | intro _
    | extract_lets
    | with_reducible apply hide_ite
    | with_reducible apply hide_next
    | with_reducible apply Dev.drawWord_hide (land_trans rfl hm)
    | with_reducible apply Dev.ndlReq_hide (land_trans rfl hm)
    | with_reducible apply Dev.ndl_hide (land_trans rfl hm)
    | with_reducible apply Dev.modDbg_hide (land_trans rfl hm)
    | (split
       all_goals try (rename_i heq
                      have h2 := congrArg Prod.snd heq
                      have h1 := congrArg Prod.fst heq
                      dsimp only at h1 h2
                      subst h1 h2
                      clear heq))
    | dsimp only [Lock.count]
    | dsimp +zetaDelta only

theorem execChgOc_hide {m : Nat} (hm : 847248886597688833 &&& m = 847248886597688833) {x : Dev} (live : Bool) (s : State)
    (h : Dev.hide m s.dev = x) : Dev.hide m ((execChgOc live s).stateOr s).dev = x := by
  unfold execChgOc
  apply State.on_hide
  repeat' first
    | with_reducible assumption
    | intro _
    | extract_lets
    | with_reducible apply hide_ite
    | with_reducible apply hide_next
    | with_reducible apply Dev.rvLive_hide (land_trans rfl hm)
    | (split
       all_goals try (rename_i heq
                      have h2 := congrArg Prod.snd heq
                      have h1 := congrArg Prod.fst heq
                      dsimp only at h1 h2
                      subst h1 h2
                      clear heq))
    | dsimp only [Lock.count]
    | dsimp +zetaDelta only

theorem execBargeHalted_hide {m : Nat} (hm : 4096 &&& m = 4096) {x : Dev} (e : BargeIx) (s : State)
    (h : Dev.hide m s.dev = x) : Dev.hide m ((execBargeHalted e s).stateOr s).dev = x := by
  unfold execBargeHalted
  apply State.on_hide
  repeat' first
    | with_reducible assumption
    | intro _
    | extract_lets
    | with_reducible apply hide_ite
    | with_reducible apply hide_next
    | with_reducible apply Dev.haltSettle_hide (land_trans rfl hm)
    | (split
       all_goals try (rename_i heq
                      have h2 := congrArg Prod.snd heq
                      have h1 := congrArg Prod.fst heq
                      dsimp only at h1 h2
                      subst h1 h2
                      clear heq))
    | dsimp only [Lock.count]
    | dsimp +zetaDelta only

theorem execPassiveHoldRelease_hide {m : Nat} (hm : 512 &&& m = 512) {x : Dev} (c : CellIx) (s : State)
    (h : Dev.hide m s.dev = x) : Dev.hide m ((execPassiveHoldRelease c s).stateOr s).dev = x := by
  unfold execPassiveHoldRelease
  apply State.on_hide
  repeat' first
    | with_reducible assumption
    | intro _
    | extract_lets
    | with_reducible apply hide_ite
    | with_reducible apply hide_next
    | with_reducible apply Dev.modCell_hide (land_trans rfl hm)
    | (split
       all_goals try (rename_i heq
                      have h2 := congrArg Prod.snd heq
                      have h1 := congrArg Prod.fst heq
                      dsimp only at h1 h2
                      subst h1 h2
                      clear heq))
    | dsimp only [Lock.count]
    | dsimp +zetaDelta only

theorem execFaultClear_hide {m : Nat} (hm : 18014432869226496 &&& m = 18014432869226496) {x : Dev} (k : CollIx) (src : BitVec 7) (s : State)
    (h : Dev.hide m s.dev = x) : Dev.hide m ((execFaultClear k src s).stateOr s).dev = x := by
  unfold execFaultClear
  apply State.on_hide
  repeat' first
    | with_reducible assumption
    | intro _
    | extract_lets
    | with_reducible apply hide_ite
    | with_reducible apply hide_next
    | with_reducible apply Dev.unoccur_hide (land_trans rfl hm)
    | (split
       all_goals try (rename_i heq
                      have h2 := congrArg Prod.snd heq
                      have h1 := congrArg Prod.fst heq
                      dsimp only at h1 h2
                      subst h1 h2
                      clear heq))
    | dsimp only [Lock.count]
    | dsimp +zetaDelta only

theorem execBasinMark_hide {m : Nat} (hm : 715272197337255553 &&& m = 715272197337255553) {x : Dev} (d : Desc) (s : State)
    (h : Dev.hide m s.dev = x) : Dev.hide m ((execBasinMark d s).stateOr s).dev = x := by
  unfold execBasinMark
  apply State.on_hide
  repeat' first
    | with_reducible assumption
    | intro _
    | extract_lets
    | with_reducible apply hide_ite
    | with_reducible apply hide_next
    | with_reducible apply Dev.bzFull_hide (land_trans rfl hm)
    | with_reducible apply Dev.bzMark_hide (land_trans rfl hm)
    | with_reducible apply Dev.cmd_hide (land_trans rfl hm)
    | with_reducible apply Dev.reply_hide (land_trans rfl hm)
    | (split
       all_goals try (rename_i heq
                      have h2 := congrArg Prod.snd heq
                      have h1 := congrArg Prod.fst heq
                      dsimp only at h1 h2
                      subst h1 h2
                      clear heq))
    | dsimp only [Lock.count]
    | dsimp +zetaDelta only

theorem Dev.filteredEdge_hide {m : Nat} (hm : 5120 &&& m = 5120) {x : Dev} (s : Dev) (a1 : CmpSel) (dir : Bool) (trip : Bool)
    (h : Dev.hide m s = x) : Dev.hide m (Dev.filteredEdge s a1 dir trip) = x := by
  unfold Dev.filteredEdge
  repeat' first
    | with_reducible assumption
    | intro _
    | extract_lets
    | with_reducible apply hide_ite
    | with_reducible apply hide_next
    | with_reducible apply Dev.captureEdge_hide (land_trans rfl hm)
    | with_reducible apply Dev.irqIsland_hide (land_trans rfl hm)
    | (split
       all_goals try (rename_i heq
                      have h2 := congrArg Prod.snd heq
                      have h1 := congrArg Prod.fst heq
                      dsimp only at h1 h2
                      subst h1 h2
                      clear heq))
    | dsimp only [Lock.count]
    | dsimp +zetaDelta only

theorem execLimitEntry_hide {m : Nat} (hm : 702570639013187073 &&& m = 702570639013187073) {x : Dev} (c : CellIx) (s : State)
    (h : Dev.hide m s.dev = x) : Dev.hide m ((execLimitEntry c s).stateOr s).dev = x := by
  unfold execLimitEntry
  apply State.on_hide
  repeat' first
    | with_reducible assumption
    | intro _
    | extract_lets
    | with_reducible apply hide_ite
    | with_reducible apply hide_next
    | with_reducible apply Dev.autoNext_hide (land_trans rfl hm)
    | with_reducible apply Dev.levelTrips_hide (land_trans rfl hm)
    | with_reducible apply Dev.goto_hide (land_trans rfl hm)
    | with_reducible apply Dev.modCell_hide (land_trans rfl hm)
    | with_reducible apply Dev.cellEvent_hide (land_trans rfl hm)
    | (split
       all_goals try (rename_i heq
                      have h2 := congrArg Prod.snd heq
                      have h1 := congrArg Prod.fst heq
                      dsimp only at h1 h2
                      subst h1 h2
                      clear heq))
    | dsimp only [Lock.count]
    | dsimp +zetaDelta only

theorem execSliceStop_hide {m : Nat} (hm : 714990728836554369 &&& m = 714990728836554369) {x : Dev} (d : Desc) (s : State)
    (h : Dev.hide m s.dev = x) : Dev.hide m ((execSliceStop d s).stateOr s).dev = x := by
  unfold execSliceStop
  apply State.on_hide
  repeat' first
    | with_reducible assumption
    | intro _
    | extract_lets
    | with_reducible apply hide_ite
    | with_reducible apply hide_next
    | with_reducible apply Dev.sliceDisable_hide (land_trans rfl hm)
    | with_reducible apply Dev.cmd_hide (land_trans rfl hm)
    | with_reducible apply Dev.reply_hide (land_trans rfl hm)
    | with_reducible apply Dev.killSlice_hide (land_trans rfl hm)
    | (split
       all_goals try (rename_i heq
                      have h2 := congrArg Prod.snd heq
                      have h1 := congrArg Prod.fst heq
                      dsimp only at h1 h2
                      subst h1 h2
                      clear heq))
    | dsimp only [Lock.count]
    | dsimp +zetaDelta only

theorem Dev.clearFatals_hide {m : Nat} (hm : 34359740416 &&& m = 34359740416) {x : Dev} (s : Dev)
    (h : Dev.hide m s = x) : Dev.hide m (Dev.clearFatals s) = x := by
  unfold Dev.clearFatals
  repeat' first
    | with_reducible assumption
    | intro _
    | extract_lets
    | with_reducible apply hide_ite
    | with_reducible apply hide_next
    | with_reducible apply Dev.forEach_hide (land_trans rfl hm)
    | with_reducible apply Dev.modRegion_hide (land_trans rfl hm)
    | with_reducible apply Dev.modColl_hide (land_trans rfl hm)
    | (split
       all_goals try (rename_i heq
                      have h2 := congrArg Prod.snd heq
                      have h1 := congrArg Prod.fst heq
                      dsimp only at h1 h2
                      subst h1 h2
                      clear heq))
    | dsimp only [Lock.count]
    | dsimp +zetaDelta only

theorem Dev.islandsOff_hide {m : Nat} (hm : 19140366028513152 &&& m = 19140366028513152) {x : Dev} (s : Dev)
    (h : Dev.hide m s = x) : Dev.hide m (Dev.islandsOff s) = x := by
  unfold Dev.islandsOff
  repeat' first
    | with_reducible assumption
    | intro _
    | extract_lets
    | with_reducible apply hide_ite
    | with_reducible apply hide_next
    | with_reducible apply Dev.islandReset_hide (land_trans rfl hm)
    | with_reducible apply Dev.forEach_hide (land_trans rfl hm)
    | with_reducible apply Dev.modRegion_hide (land_trans rfl hm)
    | (split
       all_goals try (rename_i heq
                      have h2 := congrArg Prod.snd heq
                      have h1 := congrArg Prod.fst heq
                      dsimp only at h1 h2
                      subst h1 h2
                      clear heq))
    | dsimp only [Lock.count]
    | dsimp +zetaDelta only

theorem execSupplyLoss_hide {m : Nat} (hm : 1152921503533072381 &&& m = 1152921503533072381) {x : Dev} (a0 : Supply) (s : State)
    (h : Dev.hide m s.dev = x) : Dev.hide m ((execSupplyLoss a0 s).stateOr s).dev = x := by
  unfold execSupplyLoss
  apply State.on_hide
  repeat' first
    | with_reducible assumption
    | intro _
    | extract_lets
    | with_reducible apply hide_ite
    | with_reducible apply hide_next
    | with_reducible apply Dev.islandsOff_hide (land_trans rfl hm)
    | with_reducible apply Dev.clearFatals_hide (land_trans rfl hm)
    | with_reducible apply Dev.centralOff_hide (land_trans rfl hm)
    | with_reducible apply Dev.setSupply_hide (land_trans rfl hm)
    | with_reducible apply Dev.hostReset_hide (land_trans rfl hm)
    | with_reducible apply Dev.linkDown_hide (land_trans rfl hm)
    | (split
       all_goals try (rename_i heq
                      have h2 := congrArg Prod.snd heq
                      have h1 := congrArg Prod.fst heq
                      dsimp only at h1 h2
                      subst h1 h2
                      clear heq))
    | with_reducible apply Dev.hide_upd_49_53 (land_trans rfl hm)
    | with_reducible apply Dev.hide_upd_45_53 (land_trans rfl hm)
    | dsimp only [Lock.count]
    | dsimp +zetaDelta only

theorem execHighz_hide {m : Nat} (hm : 524288 &&& m = 524288) {x : Dev} (s : State)
    (h : Dev.hide m s.dev = x) : Dev.hide m ((execHighz s).stateOr s).dev = x := by
  unfold execHighz
  apply State.on_hide
  repeat' first
    | with_reducible assumption
    | intro _
    | extract_lets
    | with_reducible apply hide_ite
    | with_reducible apply hide_next
    | with_reducible apply Dev.tapInstr_hide (land_trans rfl hm)
    | (split
       all_goals try (rename_i heq
                      have h2 := congrArg Prod.snd heq
                      have h1 := congrArg Prod.fst heq
                      dsimp only at h1 h2
                      subst h1 h2
                      clear heq))
    | dsimp only [Lock.count]
    | dsimp +zetaDelta only

theorem Dev.straitWord_hide {m : Nat} (hm : 846686623906143745 &&& m = 846686623906143745) {x : Dev} (s : Dev) (g : Nat) (e : StraitEnd) (q : WordQuality)
    (h : Dev.hide m s = x) : Dev.hide m (Dev.straitWord s g e q) = x := by
  unfold Dev.straitWord
  repeat' first
    | with_reducible assumption
    | intro _
    | extract_lets
    | with_reducible apply hide_ite
    | with_reducible apply hide_next
    | with_reducible apply Dev.straitLoss_hide (land_trans rfl hm)
    | with_reducible apply Dev.islandLoss_hide (land_trans rfl hm)
    | with_reducible apply Dev.occur_hide (land_trans rfl hm)
    | with_reducible apply Dev.setRegion_hide (land_trans rfl hm)
    | (split
       all_goals try (rename_i heq
                      have h2 := congrArg Prod.snd heq
                      have h1 := congrArg Prod.fst heq
                      dsimp only at h1 h2
                      subst h1 h2
                      clear heq))
    | dsimp only [Lock.count]
    | dsimp +zetaDelta only

theorem execChargeTermination_hide {m : Nat} (hm : 18577354905358336 &&& m = 18577354905358336) {x : Dev} (s : State)
    (h : Dev.hide m s.dev = x) : Dev.hide m ((execChargeTermination s).stateOr s).dev = x := by
  unfold execChargeTermination
  apply State.on_hide
  repeat' first
    | with_reducible assumption
    | intro _
    | extract_lets
    | with_reducible apply hide_ite
    | with_reducible apply hide_next
    | with_reducible apply Dev.chgGoto_hide (land_trans rfl hm)
    | (split
       all_goals try (rename_i heq
                      have h2 := congrArg Prod.snd heq
                      have h1 := congrArg Prod.fst heq
                      dsimp only at h1 h2
                      subst h1 h2
                      clear heq))
    | dsimp only [Lock.count]
    | dsimp +zetaDelta only

theorem execHandover_hide {m : Nat} (hm : 18577354905358336 &&& m = 18577354905358336) {x : Dev} (trig : HandTrigger) (busMv : BitVec 16) (s : State)
    (h : Dev.hide m s.dev = x) : Dev.hide m ((execHandover trig busMv s).stateOr s).dev = x := by
  unfold execHandover
  apply State.on_hide
  repeat' first
    | with_reducible assumption
    | intro _
    | extract_lets
    | with_reducible apply hide_ite
    | with_reducible apply hide_next
    | with_reducible apply Dev.chgWait_hide (land_trans rfl hm)
    | with_reducible apply Dev.rvEvent_hide (land_trans rfl hm)
    | with_reducible apply Dev.modRv_hide (land_trans rfl hm)
    | (split
       all_goals try (rename_i heq
                      have h2 := congrArg Prod.snd heq
                      have h1 := congrArg Prod.fst heq
                      dsimp only at h1 h2
                      subst h1 h2
                      clear heq))
    | dsimp only [Lock.count]
    | dsimp +zetaDelta only

theorem Dev.chgTimeout_hide {m : Nat} (hm : 847248886597688833 &&& m = 847248886597688833) {x : Dev} (s : Dev)
    (h : Dev.hide m s = x) : Dev.hide m (Dev.chgTimeout s) = x := by
  unfold Dev.chgTimeout
  repeat' first
    | with_reducible assumption
    | intro _
    | extract_lets
    | with_reducible apply hide_ite
    | with_reducible apply hide_next
    | with_reducible apply Dev.chgOff_hide (land_trans rfl hm)
    | with_reducible apply Dev.rvFault_hide (land_trans rfl hm)
    | (split
       all_goals try (rename_i heq
                      have h2 := congrArg Prod.snd heq
                      have h1 := congrArg Prod.fst heq
                      dsimp only at h1 h2
                      subst h1 h2
                      clear heq))
    | dsimp only [Lock.count]
    | dsimp +zetaDelta only

theorem Dev.islandClockFail_hide {m : Nat} (hm : 846686623906143745 &&& m = 846686623906143745) {x : Dev} (s : Dev) (g : Nat)
    (h : Dev.hide m s = x) : Dev.hide m (Dev.islandClockFail s g) = x := by
  unfold Dev.islandClockFail
  repeat' first
    | with_reducible assumption
    | intro _
    | extract_lets
    | with_reducible apply hide_ite
    | with_reducible apply hide_next
    | with_reducible apply Dev.centralLoss_hide (land_trans rfl hm)
    | with_reducible apply Dev.extUpdate_hide (land_trans rfl hm)
    | with_reducible apply Dev.occur_hide (land_trans rfl hm)
    | with_reducible apply Dev.modSlice_hide (land_trans rfl hm)
    | with_reducible apply Dev.modCell_hide (land_trans rfl hm)
    | with_reducible apply Dev.forEach_hide (land_trans rfl hm)
    | with_reducible apply Dev.modRegion_hide (land_trans rfl hm)
    | (split
       all_goals try (rename_i heq
                      have h2 := congrArg Prod.snd heq
                      have h1 := congrArg Prod.fst heq
                      dsimp only at h1 h2
                      subst h1 h2
                      clear heq))
    | dsimp only [Lock.count]
    | dsimp +zetaDelta only

theorem execIslandClockFail_hide {m : Nat} (hm : 846686623906143745 &&& m = 846686623906143745) {x : Dev} (g : RegionIx) (s : State)
    (h : Dev.hide m s.dev = x) : Dev.hide m ((execIslandClockFail g s).stateOr s).dev = x := by
  unfold execIslandClockFail
  apply State.on_hide
  repeat' first
    | with_reducible assumption
    | intro _
    | extract_lets
    | with_reducible apply hide_ite
    | with_reducible apply hide_next
    | with_reducible apply Dev.islandClockFail_hide (land_trans rfl hm)
    | (split
       all_goals try (rename_i heq
                      have h2 := congrArg Prod.snd heq
                      have h1 := congrArg Prod.fst heq
                      dsimp only at h1 h2
                      subst h1 h2
                      clear heq))
    | dsimp only [Lock.count]
    | dsimp +zetaDelta only

theorem Dev.spanEnd_hide {m : Nat} (hm : 288230376285929472 &&& m = 288230376285929472) {x : Dev} (s : Dev) (c : Nat) (t : Nat) (group : Bool)
    (h : Dev.hide m s = x) : Dev.hide m (Dev.spanEnd s c t group) = x := by
  unfold Dev.spanEnd
  repeat' first
    | with_reducible assumption
    | intro _
    | extract_lets
    | with_reducible apply hide_ite
    | with_reducible apply hide_next
    | with_reducible apply Dev.modLane_hide (land_trans rfl hm)
    | (split
       all_goals try (rename_i heq
                      have h2 := congrArg Prod.snd heq
                      have h1 := congrArg Prod.fst heq
                      dsimp only at h1 h2
                      subst h1 h2
                      clear heq))
    | with_reducible apply Dev.hide_upd_58 (land_trans rfl hm)
    | dsimp only [Lock.count]
    | dsimp +zetaDelta only

theorem execWindowEnd_hide {m : Nat} (hm : 288230382996815872 &&& m = 288230382996815872) {x : Dev} (a0 : CmpGroup) (iOnes : BitVec 25) (vOnes : BitVec 25) (clocks : BitVec 25) (s : State)
    (h : Dev.hide m s.dev = x) : Dev.hide m ((execWindowEnd a0 iOnes vOnes clocks s).stateOr s).dev = x := by
  unfold execWindowEnd
  apply State.on_hide
  repeat' first
    | with_reducible assumption
    | intro _
    | extract_lets
    | with_reducible apply hide_ite
    | with_reducible apply hide_next
    | with_reducible apply Dev.spanEnd_hide (land_trans rfl hm)
    | with_reducible apply Dev.commitBits_hide (land_trans rfl hm)
    | with_reducible apply Dev.modConv_hide (land_trans rfl hm)
    | with_reducible apply Dev.modLane_hide (land_trans rfl hm)
    | (split
       all_goals try (rename_i heq
                      have h2 := congrArg Prod.snd heq
                      have h1 := congrArg Prod.fst heq
                      dsimp only at h1 h2
                      subst h1 h2
                      clear heq))
    | dsimp only [Lock.count]
    | dsimp +zetaDelta only

theorem execSourceWake_hide {m : Nat} (hm : 562949953421312 &&& m = 562949953421312) {x : Dev} (s : State)
    (h : Dev.hide m s.dev = x) : Dev.hide m ((execSourceWake s).stateOr s).dev = x := by
  unfold execSourceWake
  apply State.on_hide
  repeat' first
    | with_reducible assumption
    | intro _
    | extract_lets
    | with_reducible apply hide_ite
    | with_reducible apply hide_next
    | with_reducible apply Dev.modRv_hide (land_trans rfl hm)
    | (split
       all_goals try (rename_i heq
                      have h2 := congrArg Prod.snd heq
                      have h1 := congrArg Prod.fst heq
                      dsimp only at h1 h2
                      subst h1 h2
                      clear heq))
    | dsimp only [Lock.count]
    | dsimp +zetaDelta only

end Sys2Proof.Machine
end

