-- ==== Sys2Proof/Laws/FrameF.lean ====
section
/-! SUPPORT. Frames of the operations and the meanings, in the order they call each other: which parts of the device each
changes at most. File 6 of 7. -/

set_option linter.unreachableTactic false
set_option linter.unusedTactic false

namespace Sys2Proof.Machine

theorem Dev.take_hide {m : Nat} (hm : 35184373141504 &&& m = 35184373141504) {x : Dev} (s : Dev) (e : Nat) (q : Nat)
    (h : Dev.hide m s = x) : Dev.hide m (Dev.take s e q) = x := by
  unfold Dev.take
  repeat' first
    | with_reducible assumption
    | intro _
    | extract_lets
    | with_reducible apply hide_ite
    | with_reducible apply hide_next
    | with_reducible apply Dev.pushHeld_hide (land_trans rfl hm)
    | with_reducible apply Dev.modBarge_hide (land_trans rfl hm)
    | (split
       all_goals try (rename_i heq
                      have h2 := congrArg Prod.snd heq
                      have h1 := congrArg Prod.fst heq
                      dsimp only at h1 h2
                      subst h1 h2
                      clear heq))
    | dsimp only [Lock.count]
    | dsimp +zetaDelta only

theorem execRechargeStart_hide {m : Nat} (hm : 18577354905358336 &&& m = 18577354905358336) {x : Dev} (a0 : RvMeas) (s : State)
    (h : Dev.hide m s.dev = x) : Dev.hide m ((execRechargeStart a0 s).stateOr s).dev = x := by
  unfold execRechargeStart
  apply State.on_hide
  repeat' first
    | with_reducible assumption
    | intro _
    | extract_lets
    | with_reducible apply hide_ite
    | with_reducible apply hide_next
    | with_reducible apply Dev.chgGoto_hide (land_trans rfl hm)
    | with_reducible apply Dev.modRv_hide (land_trans rfl hm)
    | (split
       all_goals try (rename_i heq
                      have h2 := congrArg Prod.snd heq
                      have h1 := congrArg Prod.fst heq
                      dsimp only at h1 h2
                      subst h1 h2
                      clear heq))
    | dsimp only [Lock.count]
    | dsimp +zetaDelta only

theorem execBasinEnable_hide {m : Nat} (hm : 281477124194304 &&& m = 281477124194304) {x : Dev} (s : State)
    (h : Dev.hide m s.dev = x) : Dev.hide m ((execBasinEnable s).stateOr s).dev = x := by
  unfold execBasinEnable
  apply State.on_hide
  repeat' first
    | with_reducible assumption
    | intro _
    | extract_lets
    | with_reducible apply hide_ite
    | with_reducible apply hide_next
    | with_reducible apply Dev.bzEnable_hide (land_trans rfl hm)
    | (split
       all_goals try (rename_i heq
                      have h2 := congrArg Prod.snd heq
                      have h1 := congrArg Prod.fst heq
                      dsimp only at h1 h2
                      subst h1 h2
                      clear heq))
    | dsimp only [Lock.count]
    | dsimp +zetaDelta only

theorem execBreakpoint_hide {m : Nat} (hm : 4096 &&& m = 4096) {x : Dev} (e : BargeIx) (s : State)
    (h : Dev.hide m s.dev = x) : Dev.hide m ((execBreakpoint e s).stateOr s).dev = x := by
  unfold execBreakpoint
  apply State.on_hide
  repeat' first
    | with_reducible assumption
    | intro _
    | extract_lets
    | with_reducible apply hide_ite
    | with_reducible apply hide_next
    | with_reducible apply Dev.haltBarge_hide (land_trans rfl hm)
    | with_reducible apply Dev.modBarge_hide (land_trans rfl hm)
    | (split
       all_goals try (rename_i heq
                      have h2 := congrArg Prod.snd heq
                      have h1 := congrArg Prod.fst heq
                      dsimp only at h1 h2
                      subst h1 h2
                      clear heq))
    | dsimp only [Lock.count]
    | dsimp +zetaDelta only

theorem execRegionSleep_hide {m : Nat} (hm : 2048 &&& m = 2048) {x : Dev} (g : RegionIx) (s : State)
    (h : Dev.hide m s.dev = x) : Dev.hide m ((execRegionSleep g s).stateOr s).dev = x := by
  unfold execRegionSleep
  apply State.on_hide
  repeat' first
    | with_reducible assumption
    | intro _
    | extract_lets
    | with_reducible apply hide_ite
    | with_reducible apply hide_next
    | with_reducible apply Dev.modRegion_hide (land_trans rfl hm)
    | (split
       all_goals try (rename_i heq
                      have h2 := congrArg Prod.snd heq
                      have h1 := congrArg Prod.fst heq
                      dsimp only at h1 h2
                      subst h1 h2
                      clear heq))
    | dsimp only [Lock.count]
    | dsimp +zetaDelta only

theorem execOpCancel_hide {m : Nat} (hm : 715061091104722561 &&& m = 715061091104722561) {x : Dev} (d : Desc) (s : State)
    (h : Dev.hide m s.dev = x) : Dev.hide m ((execOpCancel d s).stateOr s).dev = x := by
  unfold execOpCancel
  apply State.on_hide
  repeat' first
    | with_reducible assumption
    | intro _
    | extract_lets
    | with_reducible apply hide_ite
    | with_reducible apply hide_next
    | with_reducible apply Dev.opReply_hide (land_trans rfl hm)
    | with_reducible apply Dev.opGoto_hide (land_trans rfl hm)
    | with_reducible apply Dev.opCmd_hide (land_trans rfl hm)
    | with_reducible apply Dev.reply_hide (land_trans rfl hm)
    | (split
       all_goals try (rename_i heq
                      have h2 := congrArg Prod.snd heq
                      have h1 := congrArg Prod.fst heq
                      dsimp only at h1 h2
                      subst h1 h2
                      clear heq))
    | dsimp only [Lock.count]
    | dsimp +zetaDelta only

theorem execRsvStatus_hide {m : Nat} (hm : 715553706673708673 &&& m = 715553706673708673) {x : Dev} (d : Desc) (bufOk : Bool) (s : State)
    (h : Dev.hide m s.dev = x) : Dev.hide m ((execRsvStatus d bufOk s).stateOr s).dev = x := by
  unfold execRsvStatus
  apply State.on_hide
  repeat' first
    | with_reducible assumption
    | intro _
    | extract_lets
    | with_reducible apply hide_ite
    | with_reducible apply hide_next
    | with_reducible apply Dev.rvHoRead_hide (land_trans rfl hm)
    | with_reducible apply Dev.rvFaultRead_hide (land_trans rfl hm)
    | with_reducible apply Dev.bufReply_hide (land_trans rfl hm)
    | with_reducible apply Dev.cmd_hide (land_trans rfl hm)
    | with_reducible apply Dev.fail_hide (land_trans rfl hm)
    | (split
       all_goals try (rename_i heq
                      have h2 := congrArg Prod.snd heq
                      have h1 := congrArg Prod.fst heq
                      dsimp only at h1 h2
                      subst h1 h2
                      clear heq))
    | dsimp only [Lock.count]
    | dsimp +zetaDelta only

theorem execSafetyTimerStep_hide {m : Nat} (hm : 847248886597688833 &&& m = 847248886597688833) {x : Dev} (inReg : Bool) (thReg : Bool) (below : Bool) (s : State)
    (h : Dev.hide m s.dev = x) : Dev.hide m ((execSafetyTimerStep inReg thReg below s).stateOr s).dev = x := by
  unfold execSafetyTimerStep
  apply State.on_hide
  repeat' first
    | with_reducible assumption
    | intro _
    | extract_lets
    | with_reducible apply hide_ite
    | with_reducible apply hide_next
    | with_reducible apply Dev.chgTimeout_hide (land_trans rfl hm)
    | with_reducible apply Dev.surplusOff_hide (land_trans rfl hm)
    | with_reducible apply Dev.modRv_hide (land_trans rfl hm)
    | (split
       all_goals try (rename_i heq
                      have h2 := congrArg Prod.snd heq
                      have h1 := congrArg Prod.fst heq
                      dsimp only at h1 h2
                      subst h1 h2
                      clear heq))
    | dsimp only [Lock.count]
    | dsimp +zetaDelta only

theorem execBasinEntryWrite_hide {m : Nat} (hm : 576742227280134144 &&& m = 576742227280134144) {x : Dev} (s : State)
    (h : Dev.hide m s.dev = x) : Dev.hide m ((execBasinEntryWrite s).stateOr s).dev = x := by
  unfold execBasinEntryWrite
  apply State.on_hide
  repeat' first
    | with_reducible assumption
    | intro _
    | extract_lets
    | with_reducible apply hide_ite
    | with_reducible apply hide_next
    | with_reducible apply Dev.bzWriteback_hide (land_trans rfl hm)
    | with_reducible apply Dev.modBz_hide (land_trans rfl hm)
    | with_reducible apply Dev.emit_hide (land_trans rfl hm)
    | (split
       all_goals try (rename_i heq
                      have h2 := congrArg Prod.snd heq
                      have h1 := congrArg Prod.fst heq
                      dsimp only at h1 h2
                      subst h1 h2
                      clear heq))
    | dsimp only [Lock.count]
    | dsimp +zetaDelta only

theorem Dev.plausible_hide {m : Nat} (hm : 846685937181138433 &&& m = 846685937181138433) {x : Dev} (s : Dev) (g : Nat) (a : Nat) (value : Nat) (vin : Option VinSpan)
    (h : Dev.hide m s = x) : Dev.hide m (Dev.plausible s g a value vin) = x := by
  unfold Dev.plausible
  repeat' first
    | with_reducible assumption
    | intro _
    | extract_lets
    | with_reducible apply hide_ite
    | with_reducible apply hide_next
    | with_reducible apply Dev.auxUrgent_hide (land_trans rfl hm)
    | with_reducible apply Dev.setAux_hide (land_trans rfl hm)
    | with_reducible apply Dev.occur_hide (land_trans rfl hm)
    | with_reducible apply Dev.unoccur_hide (land_trans rfl hm)
    | (split
       all_goals try (rename_i heq
                      have h2 := congrArg Prod.snd heq
                      have h1 := congrArg Prod.fst heq
                      dsimp only at h1 h2
                      subst h1 h2
                      clear heq))
    | dsimp only [Lock.count]
    | dsimp +zetaDelta only

theorem execGateDriveEnable_hide {m : Nat} (hm : 1024 &&& m = 1024) {x : Dev} (b : BlockIx) (s : State)
    (h : Dev.hide m s.dev = x) : Dev.hide m ((execGateDriveEnable b s).stateOr s).dev = x := by
  unfold execGateDriveEnable
  apply State.on_hide
  repeat' first
    | with_reducible assumption
    | intro _
    | extract_lets
    | with_reducible apply hide_ite
    | with_reducible apply hide_next
    | with_reducible apply Dev.modBlock_hide (land_trans rfl hm)
    | (split
       all_goals try (rename_i heq
                      have h2 := congrArg Prod.snd heq
                      have h1 := congrArg Prod.fst heq
                      dsimp only at h1 h2
                      subst h1 h2
                      clear heq))
    | dsimp only [Lock.count]
    | dsimp +zetaDelta only

theorem execTowpathNotifyRead_hide {m : Nat} (hm : 714990722360544897 &&& m = 714990722360544897) {x : Dev} (d : Desc) (bufOk : Bool) (s : State)
    (h : Dev.hide m s.dev = x) : Dev.hide m ((execTowpathNotifyRead d bufOk s).stateOr s).dev = x := by
  unfold execTowpathNotifyRead
  apply State.on_hide
  repeat' first
    | with_reducible assumption
    | intro _
    | extract_lets
    | with_reducible apply hide_ite
    | with_reducible apply hide_next
    | with_reducible apply Dev.bufReply_hide (land_trans rfl hm)
    | with_reducible apply Dev.modTow_hide (land_trans rfl hm)
    | with_reducible apply Dev.cmd_hide (land_trans rfl hm)
    | with_reducible apply Dev.fail_hide (land_trans rfl hm)
    | (split
       all_goals try (rename_i heq
                      have h2 := congrArg Prod.snd heq
                      have h1 := congrArg Prod.fst heq
                      dsimp only at h1 h2
                      subst h1 h2
                      clear heq))
    | dsimp only [Lock.count]
    | dsimp +zetaDelta only

theorem execRetryRelease_hide {m : Nat} (hm : 702570639013187073 &&& m = 702570639013187073) {x : Dev} (c : CellIx) (s : State)
    (h : Dev.hide m s.dev = x) : Dev.hide m ((execRetryRelease c s).stateOr s).dev = x := by
  unfold execRetryRelease
  apply State.on_hide
  repeat' first
    | with_reducible assumption
    | intro _
    | extract_lets
    | with_reducible apply hide_ite
    | with_reducible apply hide_next
    | with_reducible apply Dev.autoNext_hide (land_trans rfl hm)
    | with_reducible apply Dev.goto_hide (land_trans rfl hm)
    | with_reducible apply Dev.modCell_hide (land_trans rfl hm)
    | (split
       all_goals try (rename_i heq
                      have h2 := congrArg Prod.snd heq
                      have h1 := congrArg Prod.fst heq
                      dsimp only at h1 h2
                      subst h1 h2
                      clear heq))
    | dsimp only [Lock.count]
    | dsimp +zetaDelta only

theorem Dev.lvDoorbell_hide {m : Nat} (hm : 1052673 &&& m = 1052673) {x : Dev} (s : Dev) (n : Nat)
    (h : Dev.hide m s = x) : Dev.hide m (Dev.lvDoorbell s n) = x := by
  unfold Dev.lvDoorbell
  repeat' first
    | with_reducible assumption
    | intro _
    | extract_lets
    | with_reducible apply hide_ite
    | with_reducible apply hide_next
    | with_reducible apply Dev.commandToken_hide (land_trans rfl hm)
    | with_reducible apply Dev.pushToken_hide (land_trans rfl hm)
    | with_reducible apply Dev.setNode_hide (land_trans rfl hm)
    | (split
       all_goals try (rename_i heq
                      have h2 := congrArg Prod.snd heq
                      have h1 := congrArg Prod.fst heq
                      dsimp only at h1 h2
                      subst h1 h2
                      clear heq))
    | dsimp only [Lock.count]
    | dsimp +zetaDelta only

theorem Dev.lvWrite_hide {m : Nat} (hm : 1052673 &&& m = 1052673) {x : Dev} (s : Dev) (off : Nat) (v : Word)
    (h : Dev.hide m s = x) : Dev.hide m (Dev.lvWrite s off v) = x := by
  unfold Dev.lvWrite
  repeat' first
    | with_reducible assumption
    | intro _
    | extract_lets
    | with_reducible apply hide_ite
    | with_reducible apply hide_next
    | with_reducible apply Dev.lvDoorbell_hide (land_trans rfl hm)
    | with_reducible apply Dev.modNode_hide (land_trans rfl hm)
    | (split
       all_goals try (rename_i heq
                      have h2 := congrArg Prod.snd heq
                      have h1 := congrArg Prod.fst heq
                      dsimp only at h1 h2
                      subst h1 h2
                      clear heq))
    | dsimp only [Lock.count]
    | dsimp +zetaDelta only

theorem Dev.bar4Write_hide {m : Nat} (hm : 1052673 &&& m = 1052673) {x : Dev} (s : Dev) (off : Nat) (bytes : Nat) (v : DWord)
    (h : Dev.hide m s = x) : Dev.hide m (Dev.bar4Write s off bytes v) = x := by
  unfold Dev.bar4Write
  repeat' first
    | with_reducible assumption
    | intro _
    | extract_lets
    | with_reducible apply hide_ite
    | with_reducible apply hide_next
    | with_reducible apply Dev.lvWrite_hide (land_trans rfl hm)
    | with_reducible apply Dev.forEach_hide (land_trans rfl hm)
    | (split
       all_goals try (rename_i heq
                      have h2 := congrArg Prod.snd heq
                      have h1 := congrArg Prod.fst heq
                      dsimp only at h1 h2
                      subst h1 h2
                      clear heq))
    | dsimp only [Lock.count]
    | dsimp +zetaDelta only

theorem execSurplusStart_hide {m : Nat} (hm : 562949953421312 &&& m = 562949953421312) {x : Dev} (s : State)
    (h : Dev.hide m s.dev = x) : Dev.hide m ((execSurplusStart s).stateOr s).dev = x := by
  unfold execSurplusStart
  apply State.on_hide
  repeat' first
    | with_reducible assumption
    | intro _
    | extract_lets
    | with_reducible apply hide_ite
    | with_reducible apply hide_next
    | with_reducible apply Dev.modRv_hide (land_trans rfl hm)
    | (split
       all_goals try (rename_i heq
                      have h2 := congrArg Prod.snd heq
                      have h1 := congrArg Prod.fst heq
                      dsimp only at h1 h2
                      subst h1 h2
                      clear heq))
    | dsimp only [Lock.count]
    | dsimp +zetaDelta only

theorem execLinkFrameCrcError_hide {m : Nat} (hm : 846685936644267633 &&& m = 846685936644267633) {x : Dev} (link : Link) (s : State)
    (h : Dev.hide m s.dev = x) : Dev.hide m ((execLinkFrameCrcError link s).stateOr s).dev = x := by
  unfold execLinkFrameCrcError
  apply State.on_hide
  repeat' first
    | with_reducible assumption
    | intro _
    | extract_lets
    | with_reducible apply hide_ite
    | with_reducible apply hide_next
    | with_reducible apply Dev.setCabLink_hide (land_trans rfl hm)
    | with_reducible apply Dev.occur_hide (land_trans rfl hm)
    | (split
       all_goals try (rename_i heq
                      have h2 := congrArg Prod.snd heq
                      have h1 := congrArg Prod.fst heq
                      dsimp only at h1 h2
                      subst h1 h2
                      clear heq))
    | with_reducible apply Dev.hide_upd_6 (land_trans rfl hm)
    | dsimp only [Lock.count]
    | dsimp +zetaDelta only

theorem execIdRead_hide {m : Nat} (hm : 576460752303685632 &&& m = 576460752303685632) {x : Dev} (s : State)
    (h : Dev.hide m s.dev = x) : Dev.hide m ((execIdRead s).stateOr s).dev = x := by
  unfold execIdRead
  apply State.on_hide
  repeat' first
    | with_reducible assumption
    | intro _
    | extract_lets
    | with_reducible apply hide_ite
    | with_reducible apply hide_next
    | with_reducible apply Dev.ndlReq_hide (land_trans rfl hm)
    | with_reducible apply Dev.ndl_hide (land_trans rfl hm)
    | (split
       all_goals try (rename_i heq
                      have h2 := congrArg Prod.snd heq
                      have h1 := congrArg Prod.fst heq
                      dsimp only at h1 h2
                      subst h1 h2
                      clear heq))
    | dsimp only [Lock.count]
    | dsimp +zetaDelta only

theorem execStraitRestore_hide {m : Nat} (hm : 846685936644267521 &&& m = 846685936644267521) {x : Dev} (g : RegionIx) (s : State)
    (h : Dev.hide m s.dev = x) : Dev.hide m ((execStraitRestore g s).stateOr s).dev = x := by
  unfold execStraitRestore
  apply State.on_hide
  repeat' first
    | with_reducible assumption
    | intro _
    | extract_lets
    | with_reducible apply hide_ite
    | with_reducible apply hide_next
    | with_reducible apply Dev.straitBack_hide (land_trans rfl hm)
    | (split
       all_goals try (rename_i heq
                      have h2 := congrArg Prod.snd heq
                      have h1 := congrArg Prod.fst heq
                      dsimp only at h1 h2
                      subst h1 h2
                      clear heq))
    | dsimp only [Lock.count]
    | dsimp +zetaDelta only

theorem execHpEnable_hide {m : Nat} (hm : 576495938822995968 &&& m = 576495938822995968) {x : Dev} (s : State)
    (h : Dev.hide m s.dev = x) : Dev.hide m ((execHpEnable s).stateOr s).dev = x := by
  unfold execHpEnable
  apply State.on_hide
  repeat' first
    | with_reducible assumption
    | intro _
    | extract_lets
    | with_reducible apply hide_ite
    | with_reducible apply hide_next
    | with_reducible apply Dev.hpEnable_hide (land_trans rfl hm)
    | (split
       all_goals try (rename_i heq
                      have h2 := congrArg Prod.snd heq
                      have h1 := congrArg Prod.fst heq
                      dsimp only at h1 h2
                      subst h1 h2
                      clear heq))
    | dsimp only [Lock.count]
    | dsimp +zetaDelta only

theorem Dev.bankApply_hide {m : Nat} (hm : 702570639013187073 &&& m = 702570639013187073) {x : Dev} (s : Dev) (b : BankSeq) (e : BankEnt)
    (h : Dev.hide m s = x) : Dev.hide m (Dev.bankApply s b e).2 = x := by
  unfold Dev.bankApply
  repeat' first
    | with_reducible assumption
    | intro _
    | extract_lets
    | with_reducible apply hide_ite
    | with_reducible apply hide_next
    | with_reducible apply Dev.chOn_hide (land_trans rfl hm)
    | (split
       all_goals try (rename_i heq
                      have h2 := congrArg Prod.snd heq
                      have h1 := congrArg Prod.fst heq
                      dsimp only at h1 h2
                      subst h1 h2
                      clear heq))
    | dsimp only [Lock.count]
    | dsimp +zetaDelta only

theorem Dev.bankStep_hide {m : Nat} (hm : 702641007757364737 &&& m = 702641007757364737) {x : Dev} (s : Dev) (n : Nat) (o : Op) (b : BankSeq)
    (h : Dev.hide m s = x) : Dev.hide m (Dev.bankStep s n o b) = x := by
  unfold Dev.bankStep
  repeat' first
    | with_reducible assumption
    | intro _
    | extract_lets
    | with_reducible apply hide_ite
    | with_reducible apply hide_next
    | with_reducible apply Dev.bankApply_hide (land_trans rfl hm)
    | with_reducible apply Dev.bankEnd_hide (land_trans rfl hm)
    | with_reducible apply Dev.opBoundary_hide (land_trans rfl hm)
    | (split
       all_goals try (rename_i heq
                      have h2 := congrArg Prod.snd heq
                      have h1 := congrArg Prod.fst heq
                      dsimp only at h1 h2
                      subst h1 h2
                      clear heq))
    | dsimp only [Lock.count]
    | dsimp +zetaDelta only

theorem execBusMasterEnable_hide {m : Nat} (hm : 35184372088832 &&& m = 35184372088832) {x : Dev} (en : Bool) (s : State)
    (h : Dev.hide m s.dev = x) : Dev.hide m ((execBusMasterEnable en s).stateOr s).dev = x := by
  unfold execBusMasterEnable
  apply State.on_hide
  repeat' first
    | with_reducible assumption
    | intro _
    | extract_lets
    | with_reducible apply hide_ite
    | with_reducible apply hide_next
    | (split
       all_goals try (rename_i heq
                      have h2 := congrArg Prod.snd heq
                      have h1 := congrArg Prod.fst heq
                      dsimp only at h1 h2
                      subst h1 h2
                      clear heq))
    | with_reducible apply Dev.hide_upd_45 (land_trans rfl hm)
    | dsimp only [Lock.count]
    | dsimp +zetaDelta only

theorem execDisciplineMeasurement_hide {m : Nat} (hm : 18014398509484429 &&& m = 18014398509484429) {x : Dev} (src : BitVec 3) (offset : DWord) (s : State)
    (h : Dev.hide m s.dev = x) : Dev.hide m ((execDisciplineMeasurement src offset s).stateOr s).dev = x := by
  unfold execDisciplineMeasurement
  apply State.on_hide
  repeat' first
    | with_reducible assumption
    | intro _
    | extract_lets
    | with_reducible apply hide_ite
    | with_reducible apply hide_next
    | with_reducible apply Dev.discipline_hide (land_trans rfl hm)
    | (split
       all_goals try (rename_i heq
                      have h2 := congrArg Prod.snd heq
                      have h1 := congrArg Prod.fst heq
                      dsimp only at h1 h2
                      subst h1 h2
                      clear heq))
    | dsimp only [Lock.count]
    | dsimp +zetaDelta only

theorem execProfileWrite_hide {m : Nat} (hm : 714990722360544897 &&& m = 714990722360544897) {x : Dev} (d : Desc) (image : Option (List Word)) (s : State)
    (h : Dev.hide m s.dev = x) : Dev.hide m ((execProfileWrite d image s).stateOr s).dev = x := by
  unfold execProfileWrite
  apply State.on_hide
  repeat' first
    | with_reducible assumption
    | intro _
    | extract_lets
    | with_reducible apply hide_ite
    | with_reducible apply hide_next
    | with_reducible apply Dev.profCmd_hide (land_trans rfl hm)
    | with_reducible apply Dev.cmd_hide (land_trans rfl hm)
    | with_reducible apply Dev.fail_hide (land_trans rfl hm)
    | (split
       all_goals try (rename_i heq
                      have h2 := congrArg Prod.snd heq
                      have h1 := congrArg Prod.fst heq
                      dsimp only at h1 h2
                      subst h1 h2
                      clear heq))
    | dsimp only [Lock.count]
    | dsimp +zetaDelta only

theorem execRstN_hide {m : Nat} (hm : 1152921502995652601 &&& m = 1152921502995652601) {x : Dev} (s : State)
    (h : Dev.hide m s.dev = x) : Dev.hide m ((execRstN s).stateOr s).dev = x := by
  unfold execRstN
  apply State.on_hide
  repeat' first
    | with_reducible assumption
    | intro _
    | extract_lets
    | with_reducible apply hide_ite
    | with_reducible apply hide_next
    | with_reducible apply Dev.chipReset_hide (land_trans rfl hm)
    | (split
       all_goals try (rename_i heq
                      have h2 := congrArg Prod.snd heq
                      have h1 := congrArg Prod.fst heq
                      dsimp only at h1 h2
                      subst h1 h2
                      clear heq))
    | with_reducible apply Dev.hide_upd_53 (land_trans rfl hm)
    | dsimp only [Lock.count]
    | dsimp +zetaDelta only

theorem execSliceStatus_hide {m : Nat} (hm : 714990722360544897 &&& m = 714990722360544897) {x : Dev} (d : Desc) (s : State)
    (h : Dev.hide m s.dev = x) : Dev.hide m ((execSliceStatus d s).stateOr s).dev = x := by
  unfold execSliceStatus
  apply State.on_hide
  repeat' first
    | with_reducible assumption
    | intro _
    | extract_lets
    | with_reducible apply hide_ite
    | with_reducible apply hide_next
    | with_reducible apply Dev.cmd_hide (land_trans rfl hm)
    | with_reducible apply Dev.reply_hide (land_trans rfl hm)
    | (split
       all_goals try (rename_i heq
                      have h2 := congrArg Prod.snd heq
                      have h1 := congrArg Prod.fst heq
                      dsimp only at h1 h2
                      subst h1 h2
                      clear heq))
    | dsimp only [Lock.count]
    | dsimp +zetaDelta only

theorem execBankSequence_hide {m : Nat} (hm : 715201828593077889 &&& m = 715201828593077889) {x : Dev} (d : Desc) (list : Option (List Word)) (s : State)
    (h : Dev.hide m s.dev = x) : Dev.hide m ((execBankSequence d list s).stateOr s).dev = x := by
  unfold execBankSequence
  apply State.on_hide
  repeat' first
    | with_reducible assumption
    | intro _
    | extract_lets
    | with_reducible apply hide_ite
    | with_reducible apply hide_next
    | with_reducible apply Dev.opStart_hide (land_trans rfl hm)
    | with_reducible apply Dev.cmd_hide (land_trans rfl hm)
    | with_reducible apply Dev.fail_hide (land_trans rfl hm)
    | (split
       all_goals try (rename_i heq
                      have h2 := congrArg Prod.snd heq
                      have h1 := congrArg Prod.fst heq
                      dsimp only at h1 h2
                      subst h1 h2
                      clear heq))
    | dsimp only [Lock.count]
    | dsimp +zetaDelta only

theorem execRegionEnWrite_hide {m : Nat} (hm : 846685936644267521 &&& m = 846685936644267521) {x : Dev} (g : RegionIx) (en : Bool) (s : State)
    (h : Dev.hide m s.dev = x) : Dev.hide m ((execRegionEnWrite g en s).stateOr s).dev = x := by
  unfold execRegionEnWrite
  apply State.on_hide
  repeat' first
    | with_reducible assumption
    | intro _
    | extract_lets
    | with_reducible apply hide_ite
    | with_reducible apply hide_next
    | with_reducible apply Dev.regionEn_hide (land_trans rfl hm)
    | (split
       all_goals try (rename_i heq
                      have h2 := congrArg Prod.snd heq
                      have h1 := congrArg Prod.fst heq
                      dsimp only at h1 h2
                      subst h1 h2
                      clear heq))
    | dsimp only [Lock.count]
    | dsimp +zetaDelta only

theorem execInterruptEntry_hide {m : Nat} (hm : 846685936644267521 &&& m = 846685936644267521) {x : Dev} (e : BargeIx) (vecEcc : Bool) (s : State)
    (h : Dev.hide m s.dev = x) : Dev.hide m ((execInterruptEntry e vecEcc s).stateOr s).dev = x := by
  unfold execInterruptEntry
  apply State.on_hide
  repeat' first
    | with_reducible assumption
    | intro _
    | extract_lets
    | with_reducible apply hide_ite
    | with_reducible apply hide_next
    | with_reducible apply Dev.entry_hide (land_trans rfl hm)
    | (split
       all_goals try (rename_i heq
                      have h2 := congrArg Prod.snd heq
                      have h1 := congrArg Prod.fst heq
                      dsimp only at h1 h2
                      subst h1 h2
                      clear heq))
    | dsimp only [Lock.count]
    | dsimp +zetaDelta only

theorem execStopRankStep_hide {m : Nat} (hm : 848093930539982601 &&& m = 848093930539982601) {x : Dev} (g : RegionIx) (s : State)
    (h : Dev.hide m s.dev = x) : Dev.hide m ((execStopRankStep g s).stateOr s).dev = x := by
  unfold execStopRankStep
  apply State.on_hide
  repeat' first
    | with_reducible assumption
    | intro _
    | extract_lets
    | with_reducible apply hide_ite
    | with_reducible apply hide_next
    | with_reducible apply Dev.tryRejoin_hide (land_trans rfl hm)
    | with_reducible apply Dev.autoNext_hide (land_trans rfl hm)
    | with_reducible apply Dev.policyCells_hide (land_trans rfl hm)
    | with_reducible apply Dev.modRegion_hide (land_trans rfl hm)
    | (split
       all_goals try (rename_i heq
                      have h2 := congrArg Prod.snd heq
                      have h1 := congrArg Prod.fst heq
                      dsimp only at h1 h2
                      subst h1 h2
                      clear heq))
    | dsimp only [Lock.count]
    | dsimp +zetaDelta only

theorem execSyncOutPps_hide {m : Nat} (hm : 576460752303423496 &&& m = 576460752303423496) {x : Dev} (s : State)
    (h : Dev.hide m s.dev = x) : Dev.hide m ((execSyncOutPps s).stateOr s).dev = x := by
  unfold execSyncOutPps
  apply State.on_hide
  repeat' first
    | with_reducible assumption
    | intro _
    | extract_lets
    | with_reducible apply hide_ite
    | with_reducible apply hide_next
    | with_reducible apply Dev.emit_hide (land_trans rfl hm)
    | (split
       all_goals try (rename_i heq
                      have h2 := congrArg Prod.snd heq
                      have h1 := congrArg Prod.fst heq
                      dsimp only at h1 h2
                      subst h1 h2
                      clear heq))
    | with_reducible apply Dev.hide_upd_3 (land_trans rfl hm)
    | dsimp only [Lock.count]
    | dsimp +zetaDelta only

theorem execBasinWriteback_hide {m : Nat} (hm : 576742227280134144 &&& m = 576742227280134144) {x : Dev} (s : State)
    (h : Dev.hide m s.dev = x) : Dev.hide m ((execBasinWriteback s).stateOr s).dev = x := by
  unfold execBasinWriteback
  apply State.on_hide
  repeat' first
    | with_reducible assumption
    | intro _
    | extract_lets
    | with_reducible apply hide_ite
    | with_reducible apply hide_next
    | with_reducible apply Dev.bzWriteback_hide (land_trans rfl hm)
    | (split
       all_goals try (rename_i heq
                      have h2 := congrArg Prod.snd heq
                      have h1 := congrArg Prod.fst heq
                      dsimp only at h1 h2
                      subst h1 h2
                      clear heq))
    | dsimp only [Lock.count]
    | dsimp +zetaDelta only

theorem execBasinFreeze_hide {m : Nat} (hm : 715272197337255553 &&& m = 715272197337255553) {x : Dev} (d : Desc) (s : State)
    (h : Dev.hide m s.dev = x) : Dev.hide m ((execBasinFreeze d s).stateOr s).dev = x := by
  unfold execBasinFreeze
  apply State.on_hide
  repeat' first
    | with_reducible assumption
    | intro _
    | extract_lets
    | with_reducible apply hide_ite
    | with_reducible apply hide_next
    | with_reducible apply Dev.bzTrigger_hide (land_trans rfl hm)
    | with_reducible apply Dev.cmd_hide (land_trans rfl hm)
    | with_reducible apply Dev.fail_hide (land_trans rfl hm)
    | with_reducible apply Dev.reply_hide (land_trans rfl hm)
    | (split
       all_goals try (rename_i heq
                      have h2 := congrArg Prod.snd heq
                      have h1 := congrArg Prod.fst heq
                      dsimp only at h1 h2
                      subst h1 h2
                      clear heq))
    | dsimp only [Lock.count]
    | dsimp +zetaDelta only

theorem execBgLowWordRead_hide {m : Nat} (hm : 576460752303427585 &&& m = 576460752303427585) {x : Dev} (e : BargeIx) (off : BitVec 16) (s : State)
    (h : Dev.hide m s.dev = x) : Dev.hide m ((execBgLowWordRead e off s).stateOr s).dev = x := by
  unfold execBgLowWordRead
  apply State.on_hide
  repeat' first
    | with_reducible assumption
    | intro _
    | extract_lets
    | with_reducible apply hide_ite
    | with_reducible apply hide_next
    | with_reducible apply Dev.bgRead_hide (land_trans rfl hm)
    | with_reducible apply Dev.emit_hide (land_trans rfl hm)
    | (split
       all_goals try (rename_i heq
                      have h2 := congrArg Prod.snd heq
                      have h1 := congrArg Prod.fst heq
                      dsimp only at h1 h2
                      subst h1 h2
                      clear heq))
    | dsimp only [Lock.count]
    | dsimp +zetaDelta only

theorem Dev.sampleCmp_hide {m : Nat} (hm : 5632 &&& m = 5632) {x : Dev} (s : Dev) (a1 : CmpSel) (k : Nat) (n : Nat) (trip : Bool)
    (h : Dev.hide m s = x) : Dev.hide m (Dev.sampleCmp s a1 k n trip) = x := by
  unfold Dev.sampleCmp
  repeat' first
    | with_reducible assumption
    | intro _
    | extract_lets
    | with_reducible apply hide_ite
    | with_reducible apply hide_next
    | with_reducible apply Dev.filteredEdge_hide (land_trans rfl hm)
    | with_reducible apply Dev.setCmp_hide (land_trans rfl hm)
    | (split
       all_goals try (rename_i heq
                      have h2 := congrArg Prod.snd heq
                      have h1 := congrArg Prod.fst heq
                      dsimp only at h1 h2
                      subst h1 h2
                      clear heq))
    | dsimp only [Lock.count]
    | dsimp +zetaDelta only

theorem Dev.cellCmpSample_hide {m : Nat} (hm : 702570639013191169 &&& m = 702570639013191169) {x : Dev} (s : Dev) (c : CellIx)
    (h : Dev.hide m s = x) : Dev.hide m (Dev.cellCmpSample s c) = x := by
  unfold Dev.cellCmpSample
  repeat' first
    | with_reducible assumption
    | intro _
    | extract_lets
    | with_reducible apply hide_ite
    | with_reducible apply hide_next
    | with_reducible apply Dev.sampleCmp_hide (land_trans rfl hm)
    | with_reducible apply Dev.windowChange_hide (land_trans rfl hm)
    | with_reducible apply Dev.setWinEv_hide (land_trans rfl hm)
    | with_reducible apply Dev.checkFires_hide (land_trans rfl hm)
    | with_reducible apply Dev.modCell_hide (land_trans rfl hm)
    | (split
       all_goals try (rename_i heq
                      have h2 := congrArg Prod.snd heq
                      have h1 := congrArg Prod.fst heq
                      dsimp only at h1 h2
                      subst h1 h2
                      clear heq))
    | dsimp only [Lock.count]
    | dsimp +zetaDelta only

theorem execTgtPop_hide {m : Nat} (hm : 1125899906842624 &&& m = 1125899906842624) {x : Dev} (t : TowIx) (s : State)
    (h : Dev.hide m s.dev = x) : Dev.hide m ((execTgtPop t s).stateOr s).dev = x := by
  unfold execTgtPop
  apply State.on_hide
  repeat' first
    | with_reducible assumption
    | intro _
    | extract_lets
    | with_reducible apply hide_ite
    | with_reducible apply hide_next
    | with_reducible apply Dev.tgtPop_hide (land_trans rfl hm)
    | (split
       all_goals try (rename_i heq
                      have h2 := congrArg Prod.snd heq
                      have h1 := congrArg Prod.fst heq
                      dsimp only at h1 h2
                      subst h1 h2
                      clear heq))
    | dsimp only [Lock.count]
    | dsimp +zetaDelta only

theorem Dev.lvPatch_hide {m : Nat} (hm : 714955537989504641 &&& m = 714955537989504641) {x : Dev} (s : Dev) (n : Nat) (op : Nat) (word : Nat)
    (h : Dev.hide m s = x) : Dev.hide m ((Dev.lvPatch s n op word).devOr s) = x := by
  unfold Dev.lvPatch
  repeat' first
    | with_reducible assumption
    | intro _
    | extract_lets
    | with_reducible apply hide_ite
    | with_reducible apply hide_next
    | with_reducible apply Dev.writeProf_hide (land_trans rfl hm)
    | with_reducible apply Dev.mailbox_hide (land_trans rfl hm)
    | with_reducible apply Dev.lvDone'_hide (land_trans rfl hm)
    | with_reducible apply hide_foldl
    | with_reducible apply hide_foldl2
    | with_reducible apply hide_foldl3
    | with_reducible apply hide_foldl4
    | (split
       all_goals try (rename_i heq
                      have h2 := congrArg Prod.snd heq
                      have h1 := congrArg Prod.fst heq
                      dsimp only at h1 h2
                      subst h1 h2
                      clear heq))
    | dsimp only [Lock.count]
    | dsimp +zetaDelta only

theorem execRegisterWrite_hide {m : Nat} (hm : 1152921503532523517 &&& m = 1152921503532523517) {x : Dev} (a0 : RegTarget) (bytes : Byte) (v : DWord) (s : State)
    (h : Dev.hide m s.dev = x) : Dev.hide m ((execRegisterWrite a0 bytes v s).stateOr s).dev = x := by
  unfold execRegisterWrite
  apply State.on_hide
  repeat' first
    | with_reducible assumption
    | intro _
    | extract_lets
    | with_reducible apply hide_ite
    | with_reducible apply hide_next
    | with_reducible apply Dev.bar4Write_hide (land_trans rfl hm)
    | with_reducible apply Dev.msixControl_hide (land_trans rfl hm)
    | with_reducible apply Dev.bgWrite_hide (land_trans rfl hm)
    | with_reducible apply Dev.barWrite_hide (land_trans rfl hm)
    | with_reducible apply Dev.wakeAccess_hide (land_trans rfl hm)
    | (split
       all_goals try (rename_i heq
                      have h2 := congrArg Prod.snd heq
                      have h1 := congrArg Prod.fst heq
                      dsimp only at h1 h2
                      subst h1 h2
                      clear heq))
    | dsimp only [Lock.count]
    | dsimp +zetaDelta only

theorem execSupervisorLoss_hide {m : Nat} (hm : 851189536271638017 &&& m = 851189536271638017) {x : Dev} (s : State)
    (h : Dev.hide m s.dev = x) : Dev.hide m ((execSupervisorLoss s).stateOr s).dev = x := by
  unfold execSupervisorLoss
  apply State.on_hide
  repeat' first
    | with_reducible assumption
    | intro _
    | extract_lets
    | with_reducible apply hide_ite
    | with_reducible apply hide_next
    | with_reducible apply Dev.modSv_hide (land_trans rfl hm)
    | with_reducible apply Dev.occur_hide (land_trans rfl hm)
    | (split
       all_goals try (rename_i heq
                      have h2 := congrArg Prod.snd heq
                      have h1 := congrArg Prod.fst heq
                      dsimp only at h1 h2
                      subst h1 h2
                      clear heq))
    | dsimp only [Lock.count]
    | dsimp +zetaDelta only

theorem execSdaLowTimeout_hide {m : Nat} (hm : 19140298416330752 &&& m = 19140298416330752) {x : Dev} (t : TowIx) (s : State)
    (h : Dev.hide m s.dev = x) : Dev.hide m ((execSdaLowTimeout t s).stateOr s).dev = x := by
  unfold execSdaLowTimeout
  apply State.on_hide
  repeat' first
    | with_reducible assumption
    | intro _
    | extract_lets
    | with_reducible apply hide_ite
    | with_reducible apply hide_next
    | with_reducible apply Dev.twSample_hide (land_trans rfl hm)
    | with_reducible apply Dev.twBus_hide (land_trans rfl hm)
    | with_reducible apply Dev.modTow_hide (land_trans rfl hm)
    | (split
       all_goals try (rename_i heq
                      have h2 := congrArg Prod.snd heq
                      have h1 := congrArg Prod.fst heq
                      dsimp only at h1 h2
                      subst h1 h2
                      clear heq))
    | dsimp only [Lock.count]
    | dsimp +zetaDelta only

theorem execTbRateWrite_hide {m : Nat} (hm : 8 &&& m = 8) {x : Dev} (v : Word) (s : State)
    (h : Dev.hide m s.dev = x) : Dev.hide m ((execTbRateWrite v s).stateOr s).dev = x := by
  unfold execTbRateWrite
  apply State.on_hide
  repeat' first
    | with_reducible assumption
    | intro _
    | extract_lets
    | with_reducible apply hide_ite
    | with_reducible apply hide_next
    | with_reducible apply Dev.writeTbRate_hide (land_trans rfl hm)
    | (split
       all_goals try (rename_i heq
                      have h2 := congrArg Prod.snd heq
                      have h1 := congrArg Prod.fst heq
                      dsimp only at h1 h2
                      subst h1 h2
                      clear heq))
    | dsimp only [Lock.count]
    | dsimp +zetaDelta only

theorem execDispatch_hide {m : Nat} (hm : 35184373141504 &&& m = 35184373141504) {x : Dev} (e : BargeIx) (s : State)
    (h : Dev.hide m s.dev = x) : Dev.hide m ((execDispatch e s).stateOr s).dev = x := by
  unfold execDispatch
  apply State.on_hide
  repeat' first
    | with_reducible assumption
    | intro _
    | extract_lets
    | with_reducible apply hide_ite
    | with_reducible apply hide_next
    | with_reducible apply Dev.take_hide (land_trans rfl hm)
    | with_reducible apply Dev.taskEnd_hide (land_trans rfl hm)
    | (split
       all_goals try (rename_i heq
                      have h2 := congrArg Prod.snd heq
                      have h1 := congrArg Prod.fst heq
                      dsimp only at h1 h2
                      subst h1 h2
                      clear heq))
    | dsimp only [Lock.count]
    | dsimp +zetaDelta only

theorem execTowpathSlotRead_hide {m : Nat} (hm : 714990722360544897 &&& m = 714990722360544897) {x : Dev} (d : Desc) (bufOk : Bool) (s : State)
    (h : Dev.hide m s.dev = x) : Dev.hide m ((execTowpathSlotRead d bufOk s).stateOr s).dev = x := by
  unfold execTowpathSlotRead
  apply State.on_hide
  repeat' first
    | with_reducible assumption
    | intro _
    | extract_lets
    | with_reducible apply hide_ite
    | with_reducible apply hide_next
    | with_reducible apply Dev.bufReply_hide (land_trans rfl hm)
    | with_reducible apply Dev.modTow_hide (land_trans rfl hm)
    | with_reducible apply Dev.cmd_hide (land_trans rfl hm)
    | with_reducible apply Dev.fail_hide (land_trans rfl hm)
    | (split
       all_goals try (rename_i heq
                      have h2 := congrArg Prod.snd heq
                      have h1 := congrArg Prod.fst heq
                      dsimp only at h1 h2
                      subst h1 h2
                      clear heq))
    | dsimp only [Lock.count]
    | dsimp +zetaDelta only

theorem execChipRstCtrl_hide {m : Nat} (hm : 1152921502995652601 &&& m = 1152921502995652601) {x : Dev} (v : Word) (s : State)
    (h : Dev.hide m s.dev = x) : Dev.hide m ((execChipRstCtrl v s).stateOr s).dev = x := by
  unfold execChipRstCtrl
  apply State.on_hide
  repeat' first
    | with_reducible assumption
    | intro _
    | extract_lets
    | with_reducible apply hide_ite
    | with_reducible apply hide_next
    | with_reducible apply Dev.chipRstWrite_hide (land_trans rfl hm)
    | (split
       all_goals try (rename_i heq
                      have h2 := congrArg Prod.snd heq
                      have h1 := congrArg Prod.fst heq
                      dsimp only at h1 h2
                      subst h1 h2
                      clear heq))
    | dsimp only [Lock.count]
    | dsimp +zetaDelta only

theorem Dev.scanSlot_hide {m : Nat} (hm : 1125902054326272 &&& m = 1125902054326272) {x : Dev} (s : Dev) (t : Nat) (a : Nat) (receive : Bool) (result : Nat)
    (h : Dev.hide m s = x) : Dev.hide m (Dev.scanSlot s t a receive result) = x := by
  unfold Dev.scanSlot
  repeat' first
    | with_reducible assumption
    | intro _
    | extract_lets
    | with_reducible apply hide_ite
    | with_reducible apply hide_next
    | with_reducible apply Dev.modTow_hide (land_trans rfl hm)
    | with_reducible apply Dev.setReg_hide (land_trans rfl hm)
    | (split
       all_goals try (rename_i heq
                      have h2 := congrArg Prod.snd heq
                      have h1 := congrArg Prod.fst heq
                      dsimp only at h1 h2
                      subst h1 h2
                      clear heq))
    | dsimp only [Lock.count]
    | dsimp +zetaDelta only

theorem Dev.scanStep_hide {m : Nat} (hm : 631700218630373376 &&& m = 631700218630373376) {x : Dev} (s : Dev) (n : Nat) (o : Op) (t : Nat) (addr : Nat) (receive : Bool) (next : Nat) (last : Nat) (found : Nat) (lost : List Nat) (failed : Bool) (a11 : StepIn)
    (h : Dev.hide m s = x) : Dev.hide m (Dev.scanStep s n o t addr receive next last found lost failed a11) = x := by
  unfold Dev.scanStep
  repeat' first
    | with_reducible assumption
    | intro _
    | extract_lets
    | with_reducible apply hide_ite
    | with_reducible apply hide_next
    | with_reducible apply Dev.scanSlot_hide (land_trans rfl hm)
    | with_reducible apply Dev.scanEnd_hide (land_trans rfl hm)
    | with_reducible apply Dev.opBoundary_hide (land_trans rfl hm)
    | (split
       all_goals try (rename_i heq
                      have h2 := congrArg Prod.snd heq
                      have h1 := congrArg Prod.fst heq
                      dsimp only at h1 h2
                      subst h1 h2
                      clear heq))
    | dsimp only [Lock.count]
    | dsimp +zetaDelta only

theorem Dev.flashErase_hide {m : Nat} (hm : 32768 &&& m = 32768) {x : Dev} (s : Dev) (phys : Nat) (n : Nat)
    (h : Dev.hide m s = x) : Dev.hide m (Dev.flashErase s phys n) = x := by
  unfold Dev.flashErase
  repeat' first
    | with_reducible assumption
    | intro _
    | extract_lets
    | with_reducible apply hide_ite
    | with_reducible apply hide_next
    | (split
       all_goals try (rename_i heq
                      have h2 := congrArg Prod.snd heq
                      have h1 := congrArg Prod.fst heq
                      dsimp only at h1 h2
                      subst h1 h2
                      clear heq))
    | with_reducible apply Dev.hide_upd_15 (land_trans rfl hm)
    | dsimp only [Lock.count]
    | dsimp +zetaDelta only

theorem Dev.flashStep_hide {m : Nat} (hm : 54113564272656384 &&& m = 54113564272656384) {x : Dev} (s : Dev) (n : Nat) (o : Op) (src : Nat) (len : Nat) (area : Nat) (done : Nat) (chunk : Nat) (phase : Nat) (hdr : List Byte) (a10 : StepIn)
    (h : Dev.hide m s = x) : Dev.hide m (Dev.flashStep s n o src len area done chunk phase hdr a10) = x := by
  unfold Dev.flashStep
  repeat' first
    | with_reducible assumption
    | intro _
    | extract_lets
    | with_reducible apply hide_ite
    | with_reducible apply hide_next
    | with_reducible apply Dev.flashErase_hide (land_trans rfl hm)
    | with_reducible apply Dev.flashCommit_hide (land_trans rfl hm)
    | with_reducible apply Dev.flashWrite_hide (land_trans rfl hm)
    | with_reducible apply Dev.opReserved_hide (land_trans rfl hm)
    | with_reducible apply Dev.opFinish_hide (land_trans rfl hm)
    | with_reducible apply Dev.opChunk_hide (land_trans rfl hm)
    | with_reducible apply Dev.opBoundary_hide (land_trans rfl hm)
    | (split
       all_goals try (rename_i heq
                      have h2 := congrArg Prod.snd heq
                      have h1 := congrArg Prod.fst heq
                      dsimp only at h1 h2
                      subst h1 h2
                      clear heq))
    | dsimp only [Lock.count]
    | dsimp +zetaDelta only

theorem Dev.calStore_hide {m : Nat} (hm : 1073741824 &&& m = 1073741824) {x : Dev} (s : Dev) (g : Nat)
    (h : Dev.hide m s = x) : Dev.hide m (Dev.calStore s g) = x := by
  unfold Dev.calStore
  repeat' first
    | with_reducible assumption
    | intro _
    | extract_lets
    | with_reducible apply hide_ite
    | with_reducible apply hide_next
    | (split
       all_goals try (rename_i heq
                      have h2 := congrArg Prod.snd heq
                      have h1 := congrArg Prod.fst heq
                      dsimp only at h1 h2
                      subst h1 h2
                      clear heq))
    | with_reducible apply Dev.hide_upd_30 (land_trans rfl hm)
    | dsimp only [Lock.count]
    | dsimp +zetaDelta only

theorem Dev.surveyStep_hide {m : Nat} (hm : 630574320871014401 &&& m = 630574320871014401) {x : Dev} (s : Dev) (n : Nat) (o : Op) (g : Nat) (addr : Nat) (cells : Nat) (leftMs : Nat) (apply : Bool) (wasAuto : Bool) (pts : Sparse SurveySum) (a10 : StepIn)
    (h : Dev.hide m s = x) : Dev.hide m (Dev.surveyStep s n o g addr cells leftMs apply wasAuto pts a10) = x := by
  cases a10 <;> unfold Dev.surveyStep <;> dsimp only
  case span c => exact Dev.opBoundary_hide (land_trans rfl hm) _ _ _ h
  case none =>
    split
    · exact Dev.surveyEnd_hide (land_trans rfl hm) _ _ _ _ _ _ _ _ _ _ h
    · exact Dev.opBoundary_hide (land_trans rfl hm) _ _ _ h
  all_goals exact h

theorem Dev.opRun_hide {m : Nat} (hm : 703766915180432897 &&& m = 703766915180432897) {x : Dev} (s : Dev) (n : Nat) (o : Op) (a3 : StepIn)
    (h : Dev.hide m s = x) : Dev.hide m (Dev.opRun s n o a3) = x := by
  unfold Dev.opRun
  repeat' first
    | with_reducible assumption
    | intro _
    | extract_lets
    | with_reducible apply hide_ite
    | with_reducible apply hide_next
    | with_reducible apply Dev.surveyStep_hide (land_trans rfl hm)
    | with_reducible apply Dev.calStore_hide (land_trans rfl hm)
    | with_reducible apply Dev.flashStep_hide (land_trans rfl hm)
    | with_reducible apply Dev.scanStep_hide (land_trans rfl hm)
    | with_reducible apply Dev.bankStep_hide (land_trans rfl hm)
    | with_reducible apply Dev.calStep_hide (land_trans rfl hm)
    | with_reducible apply Dev.captureStep_hide (land_trans rfl hm)
    | with_reducible apply Dev.opFinish_hide (land_trans rfl hm)
    | with_reducible apply Dev.opBoundary_hide (land_trans rfl hm)
    | (split
       all_goals try (rename_i heq
                      have h2 := congrArg Prod.snd heq
                      have h1 := congrArg Prod.fst heq
                      dsimp only at h1 h2
                      subst h1 h2
                      clear heq))
    | dsimp only [Lock.count]
    | dsimp +zetaDelta only

theorem execRingCreate_hide {m : Nat} (hm : 612524733694476288 &&& m = 612524733694476288) {x : Dev} (d : Desc) (ctx : Option CtxImage) (s : State)
    (h : Dev.hide m s.dev = x) : Dev.hide m ((execRingCreate d ctx s).stateOr s).dev = x := by
  unfold execRingCreate
  apply State.on_hide
  repeat' first
    | with_reducible assumption
    | intro _
    | extract_lets
    | with_reducible apply hide_ite
    | with_reducible apply hide_next
    | with_reducible apply Dev.ringCmd_hide (land_trans rfl hm)
    | with_reducible apply Dev.ctxInsert_hide (land_trans rfl hm)
    | with_reducible apply Dev.setRing_hide (land_trans rfl hm)
    | with_reducible apply Dev.fail_hide (land_trans rfl hm)
    | with_reducible apply Dev.reply_hide (land_trans rfl hm)
    | (split
       all_goals try (rename_i heq
                      have h2 := congrArg Prod.snd heq
                      have h1 := congrArg Prod.fst heq
                      dsimp only at h1 h2
                      subst h1 h2
                      clear heq))
    | with_reducible apply Dev.hide_upd_45 (land_trans rfl hm)
    | dsimp only [Lock.count]
    | dsimp +zetaDelta only

theorem execTargetWrite_hide {m : Nat} (hm : 19140298416330752 &&& m = 19140298416330752) {x : Dev} (t : TowIx) (cmd : Byte) (data : List Byte) (pec : Option Byte) (s : State)
    (h : Dev.hide m s.dev = x) : Dev.hide m ((execTargetWrite t cmd data pec s).stateOr s).dev = x := by
  unfold execTargetWrite
  apply State.on_hide
  repeat' first
    | with_reducible assumption
    | intro _
    | extract_lets
    | with_reducible apply hide_ite
    | with_reducible apply hide_next
    | with_reducible apply Dev.twIrq_hide (land_trans rfl hm)
    | with_reducible apply Dev.twEvent_hide (land_trans rfl hm)
    | with_reducible apply Dev.setTow_hide (land_trans rfl hm)
    | (split
       all_goals try (rename_i heq
                      have h2 := congrArg Prod.snd heq
                      have h1 := congrArg Prod.fst heq
                      dsimp only at h1 h2
                      subst h1 h2
                      clear heq))
    | dsimp only [Lock.count]
    | dsimp +zetaDelta only

theorem execCalLoad_hide {m : Nat} (hm : 846685936644267521 &&& m = 846685936644267521) {x : Dev} (g : RegionIx) (s : State)
    (h : Dev.hide m s.dev = x) : Dev.hide m ((execCalLoad g s).stateOr s).dev = x := by
  unfold execCalLoad
  apply State.on_hide
  repeat' first
    | with_reducible assumption
    | intro _
    | extract_lets
    | with_reducible apply hide_ite
    | with_reducible apply hide_next
    | with_reducible apply Dev.occur_hide (land_trans rfl hm)
    | with_reducible apply Dev.setReg_hide (land_trans rfl hm)
    | with_reducible apply Dev.forEach_hide (land_trans rfl hm)
    | with_reducible apply Dev.modRegion_hide (land_trans rfl hm)
    | (split
       all_goals try (rename_i heq
                      have h2 := congrArg Prod.snd heq
                      have h1 := congrArg Prod.fst heq
                      dsimp only at h1 h2
                      subst h1 h2
                      clear heq))
    | dsimp only [Lock.count]
    | dsimp +zetaDelta only

theorem execCaptureExport_hide {m : Nat} (hm : 715201828593077889 &&& m = 715201828593077889) {x : Dev} (d : Desc) (s : State)
    (h : Dev.hide m s.dev = x) : Dev.hide m ((execCaptureExport d s).stateOr s).dev = x := by
  unfold execCaptureExport
  apply State.on_hide
  repeat' first
    | with_reducible assumption
    | intro _
    | extract_lets
    | with_reducible apply hide_ite
    | with_reducible apply hide_next
    | with_reducible apply Dev.opStart_hide (land_trans rfl hm)
    | with_reducible apply Dev.cmd_hide (land_trans rfl hm)
    | with_reducible apply Dev.fail_hide (land_trans rfl hm)
    | (split
       all_goals try (rename_i heq
                      have h2 := congrArg Prod.snd heq
                      have h1 := congrArg Prod.fst heq
                      dsimp only at h1 h2
                      subst h1 h2
                      clear heq))
    | dsimp only [Lock.count]
    | dsimp +zetaDelta only

theorem execTowpathScan_hide {m : Nat} (hm : 715201828593077889 &&& m = 715201828593077889) {x : Dev} (d : Desc) (s : State)
    (h : Dev.hide m s.dev = x) : Dev.hide m ((execTowpathScan d s).stateOr s).dev = x := by
  unfold execTowpathScan
  apply State.on_hide
  repeat' first
    | with_reducible assumption
    | intro _
    | extract_lets
    | with_reducible apply hide_ite
    | with_reducible apply hide_next
    | with_reducible apply Dev.opStart_hide (land_trans rfl hm)
    | with_reducible apply Dev.cmd_hide (land_trans rfl hm)
    | with_reducible apply Dev.fail_hide (land_trans rfl hm)
    | (split
       all_goals try (rename_i heq
                      have h2 := congrArg Prod.snd heq
                      have h1 := congrArg Prod.fst heq
                      dsimp only at h1 h2
                      subst h1 h2
                      clear heq))
    | dsimp only [Lock.count]
    | dsimp +zetaDelta only

theorem execRemoval_hide {m : Nat} (hm : 702570639013187073 &&& m = 702570639013187073) {x : Dev} (c : CellIx) (s : State)
    (h : Dev.hide m s.dev = x) : Dev.hide m ((execRemoval c s).stateOr s).dev = x := by
  unfold execRemoval
  apply State.on_hide
  repeat' first
    | with_reducible assumption
    | intro _
    | extract_lets
    | with_reducible apply hide_ite
    | with_reducible apply hide_next
    | with_reducible apply Dev.presenceEvent_hide (land_trans rfl hm)
    | with_reducible apply Dev.goto_hide (land_trans rfl hm)
    | with_reducible apply Dev.modCell_hide (land_trans rfl hm)
    | (split
       all_goals try (rename_i heq
                      have h2 := congrArg Prod.snd heq
                      have h1 := congrArg Prod.fst heq
                      dsimp only at h1 h2
                      subst h1 h2
                      clear heq))
    | dsimp only [Lock.count]
    | dsimp +zetaDelta only

theorem execDbgStatus_hide {m : Nat} (hm : 576460752303685632 &&& m = 576460752303685632) {x : Dev} (s : State)
    (h : Dev.hide m s.dev = x) : Dev.hide m ((execDbgStatus s).stateOr s).dev = x := by
  unfold execDbgStatus
  apply State.on_hide
  repeat' first
    | with_reducible assumption
    | intro _
    | extract_lets
    | with_reducible apply hide_ite
    | with_reducible apply hide_next
    | with_reducible apply Dev.ndlReq_hide (land_trans rfl hm)
    | with_reducible apply Dev.ndl_hide (land_trans rfl hm)
    | (split
       all_goals try (rename_i heq
                      have h2 := congrArg Prod.snd heq
                      have h1 := congrArg Prod.fst heq
                      dsimp only at h1 h2
                      subst h1 h2
                      clear heq))
    | dsimp only [Lock.count]
    | dsimp +zetaDelta only

theorem Dev.vinCmpSample_hide {m : Nat} (hm : 702570639013191169 &&& m = 702570639013191169) {x : Dev} (s : Dev) (b : BlockIx)
    (h : Dev.hide m s = x) : Dev.hide m (Dev.vinCmpSample s b) = x := by
  unfold Dev.vinCmpSample
  repeat' first
    | with_reducible assumption
    | intro _
    | extract_lets
    | with_reducible apply hide_ite
    | with_reducible apply hide_next
    | with_reducible apply Dev.sampleCmp_hide (land_trans rfl hm)
    | with_reducible apply Dev.windowChange_hide (land_trans rfl hm)
    | with_reducible apply Dev.setWinEv_hide (land_trans rfl hm)
    | with_reducible apply Dev.autoNext_hide (land_trans rfl hm)
    | with_reducible apply Dev.tripNow_hide (land_trans rfl hm)
    | with_reducible apply Dev.forEach_hide (land_trans rfl hm)
    | (split
       all_goals try (rename_i heq
                      have h2 := congrArg Prod.snd heq
                      have h1 := congrArg Prod.fst heq
                      dsimp only at h1 h2
                      subst h1 h2
                      clear heq))
    | dsimp only [Lock.count]
    | dsimp +zetaDelta only

theorem Dev.ndlWrites_hide {m : Nat} (hm : 1152921503532548093 &&& m = 1152921503532548093) {x : Dev} (s : Dev) (a1 : NdlSpace) (a : Nat) (a3 : List Word)
    (h : Dev.hide m s = x) : Dev.hide m (Dev.ndlWrites s a1 a a3) = x := by
  have key : ∀ (k : Nat) (l : List Word), l.length ≤ k → ∀ (s : Dev) (a : Nat), Dev.hide m s = x →
      Dev.hide m (s.ndlWrites a1 a l) = x := by
    intro k
    induction k with
    | zero => intro l hl s a h; cases l with
      | nil => exact h
      | cons v l => simp at hl
    | succ k ih =>
      intro l hl s a h
      match l with
      | [] => exact h
      | [v] => exact Dev.ndlWrite_hide (land_trans rfl hm) _ _ _ _ h
      | v :: w :: l =>
        have h1 := ih (w :: l) (by simpa using hl) _ (a + 4) (Dev.ndlWrite_hide (land_trans rfl hm) s a1 a v h)
        unfold Dev.ndlWrites
        split
        · apply hide_ite
          · exact ih l (by simp at hl; omega) _ _ (Dev.bgWrite_hide (land_trans rfl hm) _ _ _ _ _ h)
          · exact h1
        · exact h1
  exact key a3.length a3 (Nat.le_refl _) s a h

theorem execMemWrite_hide {m : Nat} (hm : 1152921503532548093 &&& m = 1152921503532548093) {x : Dev} (space : Byte) (addr : Word) (words : List Word) (s : State)
    (h : Dev.hide m s.dev = x) : Dev.hide m ((execMemWrite space addr words s).stateOr s).dev = x := by
  unfold execMemWrite
  apply State.on_hide
  repeat' first
    | with_reducible assumption
    | intro _
    | extract_lets
    | with_reducible apply hide_ite
    | with_reducible apply hide_next
    | with_reducible apply Dev.ndlWrites_hide (land_trans rfl hm)
    | with_reducible apply Dev.ndlReq_hide (land_trans rfl hm)
    | with_reducible apply Dev.ndlFault_hide (land_trans rfl hm)
    | with_reducible apply Dev.ndl_hide (land_trans rfl hm)
    | (split
       all_goals try (rename_i heq
                      have h2 := congrArg Prod.snd heq
                      have h1 := congrArg Prod.fst heq
                      dsimp only at h1 h2
                      subst h1 h2
                      clear heq))
    | dsimp only [Lock.count]
    | dsimp +zetaDelta only

theorem execTowpathWake_hide {m : Nat} (hm : 3377699720527872 &&& m = 3377699720527872) {x : Dev} (p : WakePort) (s : State)
    (h : Dev.hide m s.dev = x) : Dev.hide m ((execTowpathWake p s).stateOr s).dev = x := by
  unfold execTowpathWake
  apply State.on_hide
  repeat' first
    | with_reducible assumption
    | intro _
    | extract_lets
    | with_reducible apply hide_ite
    | with_reducible apply hide_next
    | with_reducible apply Dev.modMg_hide (land_trans rfl hm)
    | with_reducible apply Dev.modTow_hide (land_trans rfl hm)
    | (split
       all_goals try (rename_i heq
                      have h2 := congrArg Prod.snd heq
                      have h1 := congrArg Prod.fst heq
                      dsimp only at h1 h2
                      subst h1 h2
                      clear heq))
    | dsimp only [Lock.count]
    | dsimp +zetaDelta only

theorem execTripMessageRepeat_hide {m : Nat} (hm : 576469548396445696 &&& m = 576469548396445696) {x : Dev} (g : RegionIx) (s : State)
    (h : Dev.hide m s.dev = x) : Dev.hide m ((execTripMessageRepeat g s).stateOr s).dev = x := by
  unfold execTripMessageRepeat
  apply State.on_hide
  repeat' first
    | with_reducible assumption
    | intro _
    | extract_lets
    | with_reducible apply hide_ite
    | with_reducible apply hide_next
    | with_reducible apply Dev.sendTrip_hide (land_trans rfl hm)
    | (split
       all_goals try (rename_i heq
                      have h2 := congrArg Prod.snd heq
                      have h1 := congrArg Prod.fst heq
                      dsimp only at h1 h2
                      subst h1 h2
                      clear heq))
    | dsimp only [Lock.count]
    | dsimp +zetaDelta only

theorem execStrongPulldownEnd_hide {m : Nat} (hm : 512 &&& m = 512) {x : Dev} (c : CellIx) (s : State)
    (h : Dev.hide m s.dev = x) : Dev.hide m ((execStrongPulldownEnd c s).stateOr s).dev = x := by
  unfold execStrongPulldownEnd
  apply State.on_hide
  repeat' first
    | with_reducible assumption
    | intro _
    | extract_lets
    | with_reducible apply hide_ite
    | with_reducible apply hide_next
    | with_reducible apply Dev.modCell_hide (land_trans rfl hm)
    | (split
       all_goals try (rename_i heq
                      have h2 := congrArg Prod.snd heq
                      have h1 := congrArg Prod.fst heq
                      dsimp only at h1 h2
                      subst h1 h2
                      clear heq))
    | dsimp only [Lock.count]
    | dsimp +zetaDelta only

theorem execClamped_hide {m : Nat} (hm : 512 &&& m = 512) {x : Dev} (c : CellIx) (tcUs : BitVec 20) (s : State)
    (h : Dev.hide m s.dev = x) : Dev.hide m ((execClamped c tcUs s).stateOr s).dev = x := by
  unfold execClamped
  apply State.on_hide
  repeat' first
    | with_reducible assumption
    | intro _
    | extract_lets
    | with_reducible apply hide_ite
    | with_reducible apply hide_next
    | with_reducible apply Dev.modCell_hide (land_trans rfl hm)
    | (split
       all_goals try (rename_i heq
                      have h2 := congrArg Prod.snd heq
                      have h1 := congrArg Prod.fst heq
                      dsimp only at h1 h2
                      subst h1 h2
                      clear heq))
    | dsimp only [Lock.count]
    | dsimp +zetaDelta only

theorem execMgReserve_hide {m : Nat} (hm : 576460752303423488 &&& m = 576460752303423488) {x : Dev} (s : State)
    (h : Dev.hide m s.dev = x) : Dev.hide m ((execMgReserve s).stateOr s).dev = x := by
  unfold execMgReserve
  apply State.on_hide
  repeat' first
    | with_reducible assumption
    | intro _
    | extract_lets
    | with_reducible apply hide_ite
    | with_reducible apply hide_next
    | with_reducible apply Dev.mgRead_hide (land_trans rfl hm)
    | (split
       all_goals try (rename_i heq
                      have h2 := congrArg Prod.snd heq
                      have h1 := congrArg Prod.fst heq
                      dsimp only at h1 h2
                      subst h1 h2
                      clear heq))
    | dsimp only [Lock.count]
    | dsimp +zetaDelta only

theorem execCabinetLinkLoss_hide {m : Nat} (hm : 48 &&& m = 48) {x : Dev} (link : Link) (s : State)
    (h : Dev.hide m s.dev = x) : Dev.hide m ((execCabinetLinkLoss link s).stateOr s).dev = x := by
  unfold execCabinetLinkLoss
  apply State.on_hide
  repeat' first
    | with_reducible assumption
    | intro _
    | extract_lets
    | with_reducible apply hide_ite
    | with_reducible apply hide_next
    | with_reducible apply Dev.setCabLink_hide (land_trans rfl hm)
    | (split
       all_goals try (rename_i heq
                      have h2 := congrArg Prod.snd heq
                      have h1 := congrArg Prod.fst heq
                      dsimp only at h1 h2
                      subst h1 h2
                      clear heq))
    | dsimp only [Lock.count]
    | dsimp +zetaDelta only

theorem execWakeFail_hide {m : Nat} (hm : 21392098230016000 &&& m = 21392098230016000) {x : Dev} (p : WakePort) (s : State)
    (h : Dev.hide m s.dev = x) : Dev.hide m ((execWakeFail p s).stateOr s).dev = x := by
  unfold execWakeFail
  apply State.on_hide
  repeat' first
    | with_reducible assumption
    | intro _
    | extract_lets
    | with_reducible apply hide_ite
    | with_reducible apply hide_next
    | with_reducible apply Dev.twBus_hide (land_trans rfl hm)
    | with_reducible apply Dev.modMg_hide (land_trans rfl hm)
    | with_reducible apply Dev.modTow_hide (land_trans rfl hm)
    | (split
       all_goals try (rename_i heq
                      have h2 := congrArg Prod.snd heq
                      have h1 := congrArg Prod.fst heq
                      dsimp only at h1 h2
                      subst h1 h2
                      clear heq))
    | dsimp only [Lock.count]
    | dsimp +zetaDelta only

theorem execEvHandoverBounceHoldoffExpiry_hide {m : Nat} (hm : 18577348462907392 &&& m = 18577348462907392) {x : Dev} (s : State)
    (h : Dev.hide m s.dev = x) : Dev.hide m ((execEvHandoverBounceHoldoffExpiry s).stateOr s).dev = x := by
  unfold execEvHandoverBounceHoldoffExpiry
  apply State.on_hide
  repeat' first
    | with_reducible assumption
    | intro _
    | extract_lets
    | with_reducible apply hide_ite
    | with_reducible apply hide_next
    | with_reducible apply Dev.bounceEvent_hide (land_trans rfl hm)
    | with_reducible apply Dev.modRv_hide (land_trans rfl hm)
    | (split
       all_goals try (rename_i heq
                      have h2 := congrArg Prod.snd heq
                      have h1 := congrArg Prod.fst heq
                      dsimp only at h1 h2
                      subst h1 h2
                      clear heq))
    | dsimp only [Lock.count]
    | dsimp +zetaDelta only

theorem execOpStep_hide {m : Nat} (hm : 703766915180432897 &&& m = 703766915180432897) {x : Dev} (n : BitVec 6) (a1 : StepIn) (s : State)
    (h : Dev.hide m s.dev = x) : Dev.hide m ((execOpStep n a1 s).stateOr s).dev = x := by
  unfold execOpStep
  apply State.on_hide
  repeat' first
    | with_reducible assumption
    | intro _
    | extract_lets
    | with_reducible apply hide_ite
    | with_reducible apply hide_next
    | with_reducible apply Dev.opRun_hide (land_trans rfl hm)
    | with_reducible apply Dev.opUndo_hide (land_trans rfl hm)
    | (split
       all_goals try (rename_i heq
                      have h2 := congrArg Prod.snd heq
                      have h1 := congrArg Prod.fst heq
                      dsimp only at h1 h2
                      subst h1 h2
                      clear heq))
    | dsimp only [Lock.count]
    | dsimp +zetaDelta only

theorem Dev.lockCancel_hide {m : Nat} (hm : 256 &&& m = 256) {x : Dev} (s : Dev) (tag : Nat)
    (h : Dev.hide m s = x) : Dev.hide m (Dev.lockCancel s tag) = x := by
  unfold Dev.lockCancel
  repeat' first
    | with_reducible assumption
    | intro _
    | extract_lets
    | with_reducible apply hide_ite
    | with_reducible apply hide_next
    | with_reducible apply Dev.modLockTable_hide (land_trans rfl hm)
    | with_reducible apply Dev.forEach_hide (land_trans rfl hm)
    | (split
       all_goals try (rename_i heq
                      have h2 := congrArg Prod.snd heq
                      have h1 := congrArg Prod.fst heq
                      dsimp only at h1 h2
                      subst h1 h2
                      clear heq))
    | with_reducible apply Dev.hide_upd_8 (land_trans rfl hm)
    | dsimp only [Lock.count]
    | dsimp +zetaDelta only

theorem execLinkTripClear_hide {m : Nat} (hm : 3300682369024 &&& m = 3300682369024) {x : Dev} (g : RegionIx) (v : Word) (s : State)
    (h : Dev.hide m s.dev = x) : Dev.hide m ((execLinkTripClear g v s).stateOr s).dev = x := by
  unfold execLinkTripClear
  apply State.on_hide
  repeat' first
    | with_reducible assumption
    | intro _
    | extract_lets
    | with_reducible apply hide_ite
    | with_reducible apply hide_next
    | with_reducible apply Dev.writeLinkTrip_hide (land_trans rfl hm)
    | (split
       all_goals try (rename_i heq
                      have h2 := congrArg Prod.snd heq
                      have h1 := congrArg Prod.fst heq
                      dsimp only at h1 h2
                      subst h1 h2
                      clear heq))
    | dsimp only [Lock.count]
    | dsimp +zetaDelta only

theorem Dev.roundOf_hide {m : Nat} (hm : 687194767360 &&& m = 687194767360) {x : Dev} (s : Dev) (n : Nat)
    (h : Dev.hide m s = x) : Dev.hide m (Dev.roundOf s n) = x := by
  unfold Dev.roundOf
  repeat' first
    | with_reducible assumption
    | intro _
    | extract_lets
    | with_reducible apply hide_ite
    | with_reducible apply hide_next
    | (split
       all_goals try (rename_i heq
                      have h2 := congrArg Prod.snd heq
                      have h1 := congrArg Prod.fst heq
                      dsimp only at h1 h2
                      subst h1 h2
                      clear heq))
    | with_reducible apply Dev.hide_upd_37_39 (land_trans rfl hm)
    | dsimp only [Lock.count]
    | dsimp +zetaDelta only

theorem execGrantRound_hide {m : Nat} (hm : 687194767360 &&& m = 687194767360) {x : Dev} (s : State)
    (h : Dev.hide m s.dev = x) : Dev.hide m ((execGrantRound s).stateOr s).dev = x := by
  unfold execGrantRound
  apply State.on_hide
  repeat' first
    | with_reducible assumption
    | intro _
    | extract_lets
    | with_reducible apply hide_ite
    | with_reducible apply hide_next
    | with_reducible apply Dev.roundOf_hide (land_trans rfl hm)
    | with_reducible apply Dev.forEach_hide (land_trans rfl hm)
    | (split
       all_goals try (rename_i heq
                      have h2 := congrArg Prod.snd heq
                      have h1 := congrArg Prod.fst heq
                      dsimp only at h1 h2
                      subst h1 h2
                      clear heq))
    | dsimp only [Lock.count]
    | dsimp +zetaDelta only

theorem execPeakCrossing_hide {m : Nat} (hm : 18014398543042560 &&& m = 18014398543042560) {x : Dev} (k : SliceIx) (early : Bool) (s : State)
    (h : Dev.hide m s.dev = x) : Dev.hide m ((execPeakCrossing k early s).stateOr s).dev = x := by
  unfold execPeakCrossing
  apply State.on_hide
  repeat' first
    | with_reducible assumption
    | intro _
    | extract_lets
    | with_reducible apply hide_ite
    | with_reducible apply hide_next
    | with_reducible apply Dev.skipCount_hide (land_trans rfl hm)
    | with_reducible apply Dev.setSlice_hide (land_trans rfl hm)
    | (split
       all_goals try (rename_i heq
                      have h2 := congrArg Prod.snd heq
                      have h1 := congrArg Prod.fst heq
                      dsimp only at h1 h2
                      subst h1 h2
                      clear heq))
    | dsimp only [Lock.count]
    | dsimp +zetaDelta only

theorem execFunctionLevelReset_hide {m : Nat} (hm : 846791489763679745 &&& m = 846791489763679745) {x : Dev} (s : State)
    (h : Dev.hide m s.dev = x) : Dev.hide m ((execFunctionLevelReset s).stateOr s).dev = x := by
  unfold execFunctionLevelReset
  apply State.on_hide
  repeat' first
    | with_reducible assumption
    | intro _
    | extract_lets
    | with_reducible apply hide_ite
    | with_reducible apply hide_next
    | with_reducible apply Dev.functionReset_hide (land_trans rfl hm)
    | (split
       all_goals try (rename_i heq
                      have h2 := congrArg Prod.snd heq
                      have h1 := congrArg Prod.fst heq
                      dsimp only at h1 h2
                      subst h1 h2
                      clear heq))
    | dsimp only [Lock.count]
    | dsimp +zetaDelta only

theorem execLvDisable_hide {m : Nat} (hm : 714955537989504641 &&& m = 714955537989504641) {x : Dev} (n : BlockIx) (s : State)
    (h : Dev.hide m s.dev = x) : Dev.hide m ((execLvDisable n s).stateOr s).dev = x := by
  unfold execLvDisable
  apply State.on_hide
  repeat' first
    | with_reducible assumption
    | intro _
    | extract_lets
    | with_reducible apply hide_ite
    | with_reducible apply hide_next
    | with_reducible apply Dev.chDisable_hide (land_trans rfl hm)
    | with_reducible apply Dev.lvChan_hide (land_trans rfl hm)
    | (split
       all_goals try (rename_i heq
                      have h2 := congrArg Prod.snd heq
                      have h1 := congrArg Prod.fst heq
                      dsimp only at h1 h2
                      subst h1 h2
                      clear heq))
    | dsimp only [Lock.count]
    | dsimp +zetaDelta only

theorem execSoaTick_hide {m : Nat} (hm : 702570639013187073 &&& m = 702570639013187073) {x : Dev} (b : BlockIx) (headroom : BitVec 8) (s : State)
    (h : Dev.hide m s.dev = x) : Dev.hide m ((execSoaTick b headroom s).stateOr s).dev = x := by
  unfold execSoaTick
  apply State.on_hide
  repeat' first
    | with_reducible assumption
    | intro _
    | extract_lets
    | with_reducible apply hide_ite
    | with_reducible apply hide_next
    | with_reducible apply Dev.soaCell_hide (land_trans rfl hm)
    | with_reducible apply Dev.checkFires_hide (land_trans rfl hm)
    | with_reducible apply Dev.forEach_hide (land_trans rfl hm)
    | (split
       all_goals try (rename_i heq
                      have h2 := congrArg Prod.snd heq
                      have h1 := congrArg Prod.fst heq
                      dsimp only at h1 h2
                      subst h1 h2
                      clear heq))
    | dsimp only [Lock.count]
    | dsimp +zetaDelta only

theorem execLaneRestart_hide {m : Nat} (hm : 134217728 &&& m = 134217728) {x : Dev} (c : CellIx) (s : State)
    (h : Dev.hide m s.dev = x) : Dev.hide m ((execLaneRestart c s).stateOr s).dev = x := by
  unfold execLaneRestart
  apply State.on_hide
  repeat' first
    | with_reducible assumption
    | intro _
    | extract_lets
    | with_reducible apply hide_ite
    | with_reducible apply hide_next
    | with_reducible apply Dev.startLane_hide (land_trans rfl hm)
    | with_reducible apply Dev.modLane_hide (land_trans rfl hm)
    | (split
       all_goals try (rename_i heq
                      have h2 := congrArg Prod.snd heq
                      have h1 := congrArg Prod.fst heq
                      dsimp only at h1 h2
                      subst h1 h2
                      clear heq))
    | dsimp only [Lock.count]
    | dsimp +zetaDelta only

theorem execTelemetryWrite_hide {m : Nat} (hm : 864726312827224064 &&& m = 864726312827224064) {x : Dev} (s : State)
    (h : Dev.hide m s.dev = x) : Dev.hide m ((execTelemetryWrite s).stateOr s).dev = x := by
  unfold execTelemetryWrite
  apply State.on_hide
  repeat' first
    | with_reducible assumption
    | intro _
    | extract_lets
    | with_reducible apply hide_ite
    | with_reducible apply hide_next
    | with_reducible apply Dev.unrouted_hide (land_trans rfl hm)
    | with_reducible apply Dev.entryDone_hide (land_trans rfl hm)
    | with_reducible apply Dev.setRing_hide (land_trans rfl hm)
    | with_reducible apply Dev.emit_hide (land_trans rfl hm)
    | (split
       all_goals try (rename_i heq
                      have h2 := congrArg Prod.snd heq
                      have h1 := congrArg Prod.fst heq
                      dsimp only at h1 h2
                      subst h1 h2
                      clear heq))
    | with_reducible apply Dev.hide_upd_58 (land_trans rfl hm)
    | dsimp only [Lock.count]
    | dsimp +zetaDelta only

theorem execLvEnable_hide {m : Nat} (hm : 714955537989504641 &&& m = 714955537989504641) {x : Dev} (n : BlockIx) (s : State)
    (h : Dev.hide m s.dev = x) : Dev.hide m ((execLvEnable n s).stateOr s).dev = x := by
  unfold execLvEnable
  apply State.on_hide
  repeat' first
    | with_reducible assumption
    | intro _
    | extract_lets
    | with_reducible apply hide_ite
    | with_reducible apply hide_next
    | with_reducible apply Dev.chEnable_hide (land_trans rfl hm)
    | with_reducible apply Dev.lvChan_hide (land_trans rfl hm)
    | (split
       all_goals try (rename_i heq
                      have h2 := congrArg Prod.snd heq
                      have h1 := congrArg Prod.fst heq
                      dsimp only at h1 h2
                      subst h1 h2
                      clear heq))
    | dsimp only [Lock.count]
    | dsimp +zetaDelta only

theorem execRegionRejoin_hide {m : Nat} (hm : 848093930539982601 &&& m = 848093930539982601) {x : Dev} (g : RegionIx) (s : State)
    (h : Dev.hide m s.dev = x) : Dev.hide m ((execRegionRejoin g s).stateOr s).dev = x := by
  unfold execRegionRejoin
  apply State.on_hide
  repeat' first
    | with_reducible assumption
    | intro _
    | extract_lets
    | with_reducible apply hide_ite
    | with_reducible apply hide_next
    | with_reducible apply Dev.tryRejoin_hide (land_trans rfl hm)
    | (split
       all_goals try (rename_i heq
                      have h2 := congrArg Prod.snd heq
                      have h1 := congrArg Prod.fst heq
                      dsimp only at h1 h2
                      subst h1 h2
                      clear heq))
    | dsimp only [Lock.count]
    | dsimp +zetaDelta only

theorem execTbTimeRead_hide {m : Nat} (hm : 576460752303423496 &&& m = 576460752303423496) {x : Dev} (s : State)
    (h : Dev.hide m s.dev = x) : Dev.hide m ((execTbTimeRead s).stateOr s).dev = x := by
  unfold execTbTimeRead
  apply State.on_hide
  repeat' first
    | with_reducible assumption
    | intro _
    | extract_lets
    | with_reducible apply hide_ite
    | with_reducible apply hide_next
    | with_reducible apply Dev.readTbLow_hide (land_trans rfl hm)
    | with_reducible apply Dev.emit_hide (land_trans rfl hm)
    | (split
       all_goals try (rename_i heq
                      have h2 := congrArg Prod.snd heq
                      have h1 := congrArg Prod.fst heq
                      dsimp only at h1 h2
                      subst h1 h2
                      clear heq))
    | dsimp only [Lock.count]
    | dsimp +zetaDelta only

theorem execTransactionEnd_hide {m : Nat} (hm : 19140298416330752 &&& m = 19140298416330752) {x : Dev} (t : TowIx) (a1 : TowEnd) (s : State)
    (h : Dev.hide m s.dev = x) : Dev.hide m ((execTransactionEnd t a1 s).stateOr s).dev = x := by
  unfold execTransactionEnd
  apply State.on_hide
  repeat' first
    | with_reducible assumption
    | intro _
    | extract_lets
    | with_reducible apply hide_ite
    | with_reducible apply hide_next
    | with_reducible apply Dev.towResult_hide (land_trans rfl hm)
    | with_reducible apply Dev.modTow_hide (land_trans rfl hm)
    | (split
       all_goals try (rename_i heq
                      have h2 := congrArg Prod.snd heq
                      have h1 := congrArg Prod.fst heq
                      dsimp only at h1 h2
                      subst h1 h2
                      clear heq))
    | dsimp only [Lock.count]
    | dsimp +zetaDelta only

theorem execGrantRequest_hide {m : Nat} (hm : 412316860416 &&& m = 412316860416) {x : Dev} (c : CellIx) (s : State)
    (h : Dev.hide m s.dev = x) : Dev.hide m ((execGrantRequest c s).stateOr s).dev = x := by
  unfold execGrantRequest
  apply State.on_hide
  repeat' first
    | with_reducible assumption
    | intro _
    | extract_lets
    | with_reducible apply hide_ite
    | with_reducible apply hide_next
    | (split
       all_goals try (rename_i heq
                      have h2 := congrArg Prod.snd heq
                      have h1 := congrArg Prod.fst heq
                      dsimp only at h1 h2
                      subst h1 h2
                      clear heq))
    | with_reducible apply Dev.hide_upd_37_38 (land_trans rfl hm)
    | dsimp only [Lock.count]
    | dsimp +zetaDelta only

theorem execTrendLogAppend_hide {m : Nat} (hm : 134217728 &&& m = 134217728) {x : Dev} (c : CellIx) (s : State)
    (h : Dev.hide m s.dev = x) : Dev.hide m ((execTrendLogAppend c s).stateOr s).dev = x := by
  unfold execTrendLogAppend
  apply State.on_hide
  repeat' first
    | with_reducible assumption
    | intro _
    | extract_lets
    | with_reducible apply hide_ite
    | with_reducible apply hide_next
    | with_reducible apply Dev.modLane_hide (land_trans rfl hm)
    | (split
       all_goals try (rename_i heq
                      have h2 := congrArg Prod.snd heq
                      have h1 := congrArg Prod.fst heq
                      dsimp only at h1 h2
                      subst h1 h2
                      clear heq))
    | dsimp only [Lock.count]
    | dsimp +zetaDelta only

theorem execSourcePresent_hide {m : Nat} (hm : 562949953421312 &&& m = 562949953421312) {x : Dev} (s : State)
    (h : Dev.hide m s.dev = x) : Dev.hide m ((execSourcePresent s).stateOr s).dev = x := by
  unfold execSourcePresent
  apply State.on_hide
  repeat' first
    | with_reducible assumption
    | intro _
    | extract_lets
    | with_reducible apply hide_ite
    | with_reducible apply hide_next
    | with_reducible apply Dev.modRv_hide (land_trans rfl hm)
    | (split
       all_goals try (rename_i heq
                      have h2 := congrArg Prod.snd heq
                      have h1 := congrArg Prod.fst heq
                      dsimp only at h1 h2
                      subst h1 h2
                      clear heq))
    | dsimp only [Lock.count]
    | dsimp +zetaDelta only

theorem execVinUvlo_hide {m : Nat} (hm : 702570639013187073 &&& m = 702570639013187073) {x : Dev} (b : BlockIx) (also : BitVec 16) (s : State)
    (h : Dev.hide m s.dev = x) : Dev.hide m ((execVinUvlo b also s).stateOr s).dev = x := by
  unfold execVinUvlo
  apply State.on_hide
  repeat' first
    | with_reducible assumption
    | intro _
    | extract_lets
    | with_reducible apply hide_ite
    | with_reducible apply hide_next
    | with_reducible apply Dev.autoNext_hide (land_trans rfl hm)
    | with_reducible apply Dev.tripNow_hide (land_trans rfl hm)
    | with_reducible apply Dev.modBlock_hide (land_trans rfl hm)
    | with_reducible apply Dev.forEach_hide (land_trans rfl hm)
    | (split
       all_goals try (rename_i heq
                      have h2 := congrArg Prod.snd heq
                      have h1 := congrArg Prod.fst heq
                      dsimp only at h1 h2
                      subst h1 h2
                      clear heq))
    | dsimp only [Lock.count]
    | dsimp +zetaDelta only

theorem execOperatingPointPause_hide {m : Nat} (hm : 562949953421312 &&& m = 562949953421312) {x : Dev} (s : State)
    (h : Dev.hide m s.dev = x) : Dev.hide m ((execOperatingPointPause s).stateOr s).dev = x := by
  unfold execOperatingPointPause
  apply State.on_hide
  repeat' first
    | with_reducible assumption
    | intro _
    | extract_lets
    | with_reducible apply hide_ite
    | with_reducible apply hide_next
    | with_reducible apply Dev.modRv_hide (land_trans rfl hm)
    | (split
       all_goals try (rename_i heq
                      have h2 := congrArg Prod.snd heq
                      have h1 := congrArg Prod.fst heq
                      dsimp only at h1 h2
                      subst h1 h2
                      clear heq))
    | dsimp only [Lock.count]
    | dsimp +zetaDelta only

theorem execCompletionWrite_hide {m : Nat} (hm : 630609500948135936 &&& m = 630609500948135936) {x : Dev} (ring : RingIx) (s : State)
    (h : Dev.hide m s.dev = x) : Dev.hide m ((execCompletionWrite ring s).stateOr s).dev = x := by
  unfold execCompletionWrite
  apply State.on_hide
  repeat' first
    | with_reducible assumption
    | intro _
    | extract_lets
    | with_reducible apply hide_ite
    | with_reducible apply hide_next
    | with_reducible apply Dev.opRetry_hide (land_trans rfl hm)
    | with_reducible apply Dev.entryDone_hide (land_trans rfl hm)
    | with_reducible apply Dev.setRing_hide (land_trans rfl hm)
    | with_reducible apply Dev.opDone_hide (land_trans rfl hm)
    | with_reducible apply Dev.emit_hide (land_trans rfl hm)
    | (split
       all_goals try (rename_i heq
                      have h2 := congrArg Prod.snd heq
                      have h1 := congrArg Prod.fst heq
                      dsimp only at h1 h2
                      subst h1 h2
                      clear heq))
    | with_reducible apply Dev.hide_upd_45 (land_trans rfl hm)
    | with_reducible apply Dev.hide_upd_55 (land_trans rfl hm)
    | dsimp only [Lock.count]
    | dsimp +zetaDelta only

theorem execPosFrame_hide {m : Nat} (hm : 576478344489467968 &&& m = 576478344489467968) {x : Dev} (link : Link) (f : PosFrame) (s : State)
    (h : Dev.hide m s.dev = x) : Dev.hide m ((execPosFrame link f s).stateOr s).dev = x := by
  unfold execPosFrame
  apply State.on_hide
  repeat' first
    | with_reducible assumption
    | intro _
    | extract_lets
    | with_reducible apply hide_ite
    | with_reducible apply hide_next
    | with_reducible apply Dev.emit_hide (land_trans rfl hm)
    | (split
       all_goals try (rename_i heq
                      have h2 := congrArg Prod.snd heq
                      have h1 := congrArg Prod.fst heq
                      dsimp only at h1 h2
                      subst h1 h2
                      clear heq))
    | with_reducible apply Dev.hide_upd_6 (land_trans rfl hm)
    | with_reducible apply Dev.hide_upd_6_44 (land_trans rfl hm)
    | dsimp only [Lock.count]
    | dsimp +zetaDelta only

theorem execProbePulseStart_hide {m : Nat} (hm : 702570639013187073 &&& m = 702570639013187073) {x : Dev} (c : CellIx) (outMv : BitVec 16) (s : State)
    (h : Dev.hide m s.dev = x) : Dev.hide m ((execProbePulseStart c outMv s).stateOr s).dev = x := by
  unfold execProbePulseStart
  apply State.on_hide
  repeat' first
    | with_reducible assumption
    | intro _
    | extract_lets
    | with_reducible apply hide_ite
    | with_reducible apply hide_next
    | with_reducible apply Dev.probeResult_hide (land_trans rfl hm)
    | with_reducible apply Dev.modCell_hide (land_trans rfl hm)
    | (split
       all_goals try (rename_i heq
                      have h2 := congrArg Prod.snd heq
                      have h1 := congrArg Prod.fst heq
                      dsimp only at h1 h2
                      subst h1 h2
                      clear heq))
    | dsimp only [Lock.count]
    | dsimp +zetaDelta only

theorem execGrantWithdraw_hide {m : Nat} (hm : 412316860416 &&& m = 412316860416) {x : Dev} (c : CellIx) (s : State)
    (h : Dev.hide m s.dev = x) : Dev.hide m ((execGrantWithdraw c s).stateOr s).dev = x := by
  unfold execGrantWithdraw
  apply State.on_hide
  repeat' first
    | with_reducible assumption
    | intro _
    | extract_lets
    | with_reducible apply hide_ite
    | with_reducible apply hide_next
    | (split
       all_goals try (rename_i heq
                      have h2 := congrArg Prod.snd heq
                      have h1 := congrArg Prod.fst heq
                      dsimp only at h1 h2
                      subst h1 h2
                      clear heq))
    | with_reducible apply Dev.hide_upd_37_38 (land_trans rfl hm)
    | dsimp only [Lock.count]
    | dsimp +zetaDelta only

theorem execPeriodEdge_hide {m : Nat} (hm : 18014404985493504 &&& m = 18014404985493504) {x : Dev} (k : SliceIx) (us : Word) (s : State)
    (h : Dev.hide m s.dev = x) : Dev.hide m ((execPeriodEdge k us s).stateOr s).dev = x := by
  unfold execPeriodEdge
  apply State.on_hide
  repeat' first
    | with_reducible assumption
    | intro _
    | extract_lets
    | with_reducible apply hide_ite
    | with_reducible apply hide_next
    | with_reducible apply Dev.periodEdge_hide (land_trans rfl hm)
    | (split
       all_goals try (rename_i heq
                      have h2 := congrArg Prod.snd heq
                      have h1 := congrArg Prod.fst heq
                      dsimp only at h1 h2
                      subst h1 h2
                      clear heq))
    | dsimp only [Lock.count]
    | dsimp +zetaDelta only

theorem execSliceFaultInput_hide {m : Nat} (hm : 18014398543042560 &&& m = 18014398543042560) {x : Dev} (k : SliceIx) (s : State)
    (h : Dev.hide m s.dev = x) : Dev.hide m ((execSliceFaultInput k s).stateOr s).dev = x := by
  unfold execSliceFaultInput
  apply State.on_hide
  repeat' first
    | with_reducible assumption
    | intro _
    | extract_lets
    | with_reducible apply hide_ite
    | with_reducible apply hide_next
    | with_reducible apply Dev.sliceFault_hide (land_trans rfl hm)
    | (split
       all_goals try (rename_i heq
                      have h2 := congrArg Prod.snd heq
                      have h1 := congrArg Prod.fst heq
                      dsimp only at h1 h2
                      subst h1 h2
                      clear heq))
    | dsimp only [Lock.count]
    | dsimp +zetaDelta only

theorem execTopoffEnd_hide {m : Nat} (hm : 18577354905358336 &&& m = 18577354905358336) {x : Dev} (s : State)
    (h : Dev.hide m s.dev = x) : Dev.hide m ((execTopoffEnd s).stateOr s).dev = x := by
  unfold execTopoffEnd
  apply State.on_hide
  repeat' first
    | with_reducible assumption
    | intro _
    | extract_lets
    | with_reducible apply hide_ite
    | with_reducible apply hide_next
    | with_reducible apply Dev.chgGoto_hide (land_trans rfl hm)
    | (split
       all_goals try (rename_i heq
                      have h2 := congrArg Prod.snd heq
                      have h1 := congrArg Prod.fst heq
                      dsimp only at h1 h2
                      subst h1 h2
                      clear heq))
    | dsimp only [Lock.count]
    | dsimp +zetaDelta only

theorem execFcCountRead_hide {m : Nat} (hm : 714990756720283265 &&& m = 714990756720283265) {x : Dev} (d : Desc) (bufOk : Bool) (s : State)
    (h : Dev.hide m s.dev = x) : Dev.hide m ((execFcCountRead d bufOk s).stateOr s).dev = x := by
  unfold execFcCountRead
  apply State.on_hide
  repeat' first
    | with_reducible assumption
    | intro _
    | extract_lets
    | with_reducible apply hide_ite
    | with_reducible apply hide_next
    | with_reducible apply Dev.bufReply_hide (land_trans rfl hm)
    | with_reducible apply Dev.cmd_hide (land_trans rfl hm)
    | with_reducible apply Dev.fail_hide (land_trans rfl hm)
    | with_reducible apply Dev.modColl_hide (land_trans rfl hm)
    | (split
       all_goals try (rename_i heq
                      have h2 := congrArg Prod.snd heq
                      have h1 := congrArg Prod.fst heq
                      dsimp only at h1 h2
                      subst h1 h2
                      clear heq))
    | dsimp only [Lock.count]
    | dsimp +zetaDelta only

theorem execRingQuery_hide {m : Nat} (hm : 612524733694476288 &&& m = 612524733694476288) {x : Dev} (d : Desc) (bufOk : Bool) (s : State)
    (h : Dev.hide m s.dev = x) : Dev.hide m ((execRingQuery d bufOk s).stateOr s).dev = x := by
  unfold execRingQuery
  apply State.on_hide
  repeat' first
    | with_reducible assumption
    | intro _
    | extract_lets
    | with_reducible apply hide_ite
    | with_reducible apply hide_next
    | with_reducible apply Dev.ringCmd_hide (land_trans rfl hm)
    | with_reducible apply Dev.bufReply_hide (land_trans rfl hm)
    | with_reducible apply Dev.fail_hide (land_trans rfl hm)
    | with_reducible apply Dev.reply_hide (land_trans rfl hm)
    | (split
       all_goals try (rename_i heq
                      have h2 := congrArg Prod.snd heq
                      have h1 := congrArg Prod.fst heq
                      dsimp only at h1 h2
                      subst h1 h2
                      clear heq))
    | dsimp only [Lock.count]
    | dsimp +zetaDelta only

theorem execRsvStopLoad_hide {m : Nat} (hm : 715553672313966209 &&& m = 715553672313966209) {x : Dev} (d : Desc) (table : Option (List LockEntry)) (s : State)
    (h : Dev.hide m s.dev = x) : Dev.hide m ((execRsvStopLoad d table s).stateOr s).dev = x := by
  unfold execRsvStopLoad
  apply State.on_hide
  repeat' first
    | with_reducible assumption
    | intro _
    | extract_lets
    | with_reducible apply hide_ite
    | with_reducible apply hide_next
    | with_reducible apply Dev.modRv_hide (land_trans rfl hm)
    | with_reducible apply Dev.cmd_hide (land_trans rfl hm)
    | with_reducible apply Dev.fail_hide (land_trans rfl hm)
    | with_reducible apply Dev.reply_hide (land_trans rfl hm)
    | (split
       all_goals try (rename_i heq
                      have h2 := congrArg Prod.snd heq
                      have h1 := congrArg Prod.fst heq
                      dsimp only at h1 h2
                      subst h1 h2
                      clear heq))
    | dsimp only [Lock.count]
    | dsimp +zetaDelta only

theorem execInrushTimeout_hide {m : Nat} (hm : 702570639013187073 &&& m = 702570639013187073) {x : Dev} (c : CellIx) (also : BitVec 16) (s : State)
    (h : Dev.hide m s.dev = x) : Dev.hide m ((execInrushTimeout c also s).stateOr s).dev = x := by
  unfold execInrushTimeout
  apply State.on_hide
  repeat' first
    | with_reducible assumption
    | intro _
    | extract_lets
    | with_reducible apply hide_ite
    | with_reducible apply hide_next
    | with_reducible apply Dev.checkFires_hide (land_trans rfl hm)
    | (split
       all_goals try (rename_i heq
                      have h2 := congrArg Prod.snd heq
                      have h1 := congrArg Prod.fst heq
                      dsimp only at h1 h2
                      subst h1 h2
                      clear heq))
    | dsimp only [Lock.count]
    | dsimp +zetaDelta only

theorem execMemPeek_hide {m : Nat} (hm : 596164035033176065 &&& m = 596164035033176065) {x : Dev} (space : Byte) (addr : Word) (count : Byte) (s : State)
    (h : Dev.hide m s.dev = x) : Dev.hide m ((execMemPeek space addr count s).stateOr s).dev = x := by
  unfold execMemPeek
  apply State.on_hide
  repeat' first
    | with_reducible assumption
    | intro _
    | extract_lets
    | with_reducible apply hide_ite
    | with_reducible apply hide_next
    | with_reducible apply Dev.ndlReq_hide (land_trans rfl hm)
    | with_reducible apply Dev.ndlFault_hide (land_trans rfl hm)
    | with_reducible apply Dev.ndl_hide (land_trans rfl hm)
    | with_reducible apply Dev.drawNat_hide (land_trans rfl hm)
    | (split
       all_goals try (rename_i heq
                      have h2 := congrArg Prod.snd heq
                      have h1 := congrArg Prod.fst heq
                      dsimp only at h1 h2
                      subst h1 h2
                      clear heq))
    | dsimp only [Lock.count]
    | dsimp +zetaDelta only

theorem execChargerPhaseChange_hide {m : Nat} (hm : 18577354905358336 &&& m = 18577354905358336) {x : Dev} (a0 : RvMeas) (s : State)
    (h : Dev.hide m s.dev = x) : Dev.hide m ((execChargerPhaseChange a0 s).stateOr s).dev = x := by
  unfold execChargerPhaseChange
  apply State.on_hide
  repeat' first
    | with_reducible assumption
    | intro _
    | extract_lets
    | with_reducible apply hide_ite
    | with_reducible apply hide_next
    | with_reducible apply Dev.chgGoto_hide (land_trans rfl hm)
    | with_reducible apply Dev.modRv_hide (land_trans rfl hm)
    | (split
       all_goals try (rename_i heq
                      have h2 := congrArg Prod.snd heq
                      have h1 := congrArg Prod.fst heq
                      dsimp only at h1 h2
                      subst h1 h2
                      clear heq))
    | dsimp only [Lock.count]
    | dsimp +zetaDelta only

theorem execStraitWordReceive_hide {m : Nat} (hm : 846686623906143745 &&& m = 846686623906143745) {x : Dev} (g : RegionIx) (e : StraitEnd) (q : WordQuality) (s : State)
    (h : Dev.hide m s.dev = x) : Dev.hide m ((execStraitWordReceive g e q s).stateOr s).dev = x := by
  unfold execStraitWordReceive
  apply State.on_hide
  repeat' first
    | with_reducible assumption
    | intro _
    | extract_lets
    | with_reducible apply hide_ite
    | with_reducible apply hide_next
    | with_reducible apply Dev.straitWord_hide (land_trans rfl hm)
    | (split
       all_goals try (rename_i heq
                      have h2 := congrArg Prod.snd heq
                      have h1 := congrArg Prod.fst heq
                      dsimp only at h1 h2
                      subst h1 h2
                      clear heq))
    | dsimp only [Lock.count]
    | dsimp +zetaDelta only

theorem execHeartbeatKick_hide {m : Nat} (hm : 18049617241315328 &&& m = 18049617241315328) {x : Dev} (s : State)
    (h : Dev.hide m s.dev = x) : Dev.hide m ((execHeartbeatKick s).stateOr s).dev = x := by
  unfold execHeartbeatKick
  apply State.on_hide
  repeat' first
    | with_reducible assumption
    | intro _
    | extract_lets
    | with_reducible apply hide_ite
    | with_reducible apply hide_next
    | with_reducible apply Dev.hbKick_hide (land_trans rfl hm)
    | (split
       all_goals try (rename_i heq
                      have h2 := congrArg Prod.snd heq
                      have h1 := congrArg Prod.fst heq
                      dsimp only at h1 h2
                      subst h1 h2
                      clear heq))
    | dsimp only [Lock.count]
    | dsimp +zetaDelta only

theorem execSetIlim_hide {m : Nat} (hm : 714955537989504641 &&& m = 714955537989504641) {x : Dev} (n : BlockIx) (s : State)
    (h : Dev.hide m s.dev = x) : Dev.hide m ((execSetIlim n s).stateOr s).dev = x := by
  unfold execSetIlim
  apply State.on_hide
  repeat' first
    | with_reducible assumption
    | intro _
    | extract_lets
    | with_reducible apply hide_ite
    | with_reducible apply hide_next
    | with_reducible apply Dev.lvPatch_hide (land_trans rfl hm)
    | (split
       all_goals try (rename_i heq
                      have h2 := congrArg Prod.snd heq
                      have h1 := congrArg Prod.fst heq
                      dsimp only at h1 h2
                      subst h1 h2
                      clear heq))
    | dsimp only [Lock.count]
    | dsimp +zetaDelta only

theorem execTbHoldover_hide {m : Nat} (hm : 18014398509481992 &&& m = 18014398509481992) {x : Dev} (s : State)
    (h : Dev.hide m s.dev = x) : Dev.hide m ((execTbHoldover s).stateOr s).dev = x := by
  unfold execTbHoldover
  apply State.on_hide
  repeat' first
    | with_reducible assumption
    | intro _
    | extract_lets
    | with_reducible apply hide_ite
    | with_reducible apply hide_next
    | with_reducible apply Dev.tbHold_hide (land_trans rfl hm)
    | (split
       all_goals try (rename_i heq
                      have h2 := congrArg Prod.snd heq
                      have h1 := congrArg Prod.fst heq
                      dsimp only at h1 h2
                      subst h1 h2
                      clear heq))
    | dsimp only [Lock.count]
    | dsimp +zetaDelta only

theorem execPauseEnd_hide {m : Nat} (hm : 562949953421312 &&& m = 562949953421312) {x : Dev} (voc : BitVec 16) (s : State)
    (h : Dev.hide m s.dev = x) : Dev.hide m ((execPauseEnd voc s).stateOr s).dev = x := by
  unfold execPauseEnd
  apply State.on_hide
  repeat' first
    | with_reducible assumption
    | intro _
    | extract_lets
    | with_reducible apply hide_ite
    | with_reducible apply hide_next
    | with_reducible apply Dev.modRv_hide (land_trans rfl hm)
    | (split
       all_goals try (rename_i heq
                      have h2 := congrArg Prod.snd heq
                      have h1 := congrArg Prod.fst heq
                      dsimp only at h1 h2
                      subst h1 h2
                      clear heq))
    | dsimp only [Lock.count]
    | dsimp +zetaDelta only

theorem execNdlLinkReset_hide {m : Nat} (hm : 0 &&& m = 0) {x : Dev} (s : State)
    (h : Dev.hide m s.dev = x) : Dev.hide m ((execNdlLinkReset s).stateOr s).dev = x := by
  unfold execNdlLinkReset
  apply State.on_hide
  repeat' first
    | with_reducible assumption
    | intro _
    | extract_lets
    | with_reducible apply hide_ite
    | with_reducible apply hide_next
    | (split
       all_goals try (rename_i heq
                      have h2 := congrArg Prod.snd heq
                      have h1 := congrArg Prod.fst heq
                      dsimp only at h1 h2
                      subst h1 h2
                      clear heq))
    | dsimp only [Lock.count]
    | dsimp +zetaDelta only

theorem execRsvShip_hide {m : Nat} (hm : 715553672313970305 &&& m = 715553672313970305) {x : Dev} (d : Desc) (s : State)
    (h : Dev.hide m s.dev = x) : Dev.hide m ((execRsvShip d s).stateOr s).dev = x := by
  unfold execRsvShip
  apply State.on_hide
  repeat' first
    | with_reducible assumption
    | intro _
    | extract_lets
    | with_reducible apply hide_ite
    | with_reducible apply hide_next
    | with_reducible apply Dev.rvEvent_hide (land_trans rfl hm)
    | with_reducible apply Dev.modRv_hide (land_trans rfl hm)
    | with_reducible apply Dev.cmd_hide (land_trans rfl hm)
    | with_reducible apply Dev.fail_hide (land_trans rfl hm)
    | with_reducible apply Dev.reply_hide (land_trans rfl hm)
    | (split
       all_goals try (rename_i heq
                      have h2 := congrArg Prod.snd heq
                      have h1 := congrArg Prod.fst heq
                      dsimp only at h1 h2
                      subst h1 h2
                      clear heq))
    | dsimp only [Lock.count]
    | dsimp +zetaDelta only

theorem execMgCell_hide {m : Nat} (hm : 576460752303423488 &&& m = 576460752303423488) {x : Dev} (s : State)
    (h : Dev.hide m s.dev = x) : Dev.hide m ((execMgCell s).stateOr s).dev = x := by
  unfold execMgCell
  apply State.on_hide
  repeat' first
    | with_reducible assumption
    | intro _
    | extract_lets
    | with_reducible apply hide_ite
    | with_reducible apply hide_next
    | with_reducible apply Dev.mgRead_hide (land_trans rfl hm)
    | (split
       all_goals try (rename_i heq
                      have h2 := congrArg Prod.snd heq
                      have h1 := congrArg Prod.fst heq
                      dsimp only at h1 h2
                      subst h1 h2
                      clear heq))
    | dsimp only [Lock.count]
    | dsimp +zetaDelta only

theorem execGateHeadroom_hide {m : Nat} (hm : 702570639013187073 &&& m = 702570639013187073) {x : Dev} (c : CellIx) (also : BitVec 16) (s : State)
    (h : Dev.hide m s.dev = x) : Dev.hide m ((execGateHeadroom c also s).stateOr s).dev = x := by
  unfold execGateHeadroom
  apply State.on_hide
  repeat' first
    | with_reducible assumption
    | intro _
    | extract_lets
    | with_reducible apply hide_ite
    | with_reducible apply hide_next
    | with_reducible apply Dev.checkFires_hide (land_trans rfl hm)
    | (split
       all_goals try (rename_i heq
                      have h2 := congrArg Prod.snd heq
                      have h1 := congrArg Prod.fst heq
                      dsimp only at h1 h2
                      subst h1 h2
                      clear heq))
    | dsimp only [Lock.count]
    | dsimp +zetaDelta only

theorem execChDisable_hide {m : Nat} (hm : 714990722360544897 &&& m = 714990722360544897) {x : Dev} (d : Desc) (s : State)
    (h : Dev.hide m s.dev = x) : Dev.hide m ((execChDisable d s).stateOr s).dev = x := by
  unfold execChDisable
  apply State.on_hide
  repeat' first
    | with_reducible assumption
    | intro _
    | extract_lets
    | with_reducible apply hide_ite
    | with_reducible apply hide_next
    | with_reducible apply Dev.chDisable_hide (land_trans rfl hm)
    | with_reducible apply Dev.chanCmd_hide (land_trans rfl hm)
    | (split
       all_goals try (rename_i heq
                      have h2 := congrArg Prod.snd heq
                      have h1 := congrArg Prod.fst heq
                      dsimp only at h1 h2
                      subst h1 h2
                      clear heq))
    | dsimp only [Lock.count]
    | dsimp +zetaDelta only

theorem execLockCancel_hide {m : Nat} (hm : 714990722360545153 &&& m = 714990722360545153) {x : Dev} (d : Desc) (s : State)
    (h : Dev.hide m s.dev = x) : Dev.hide m ((execLockCancel d s).stateOr s).dev = x := by
  unfold execLockCancel
  apply State.on_hide
  repeat' first
    | with_reducible assumption
    | intro _
    | extract_lets
    | with_reducible apply hide_ite
    | with_reducible apply hide_next
    | with_reducible apply Dev.lockCancel_hide (land_trans rfl hm)
    | with_reducible apply Dev.cmd_hide (land_trans rfl hm)
    | with_reducible apply Dev.reply_hide (land_trans rfl hm)
    | with_reducible apply hide_foldl
    | with_reducible apply hide_foldl2
    | with_reducible apply hide_foldl3
    | with_reducible apply hide_foldl4
    | (split
       all_goals try (rename_i heq
                      have h2 := congrArg Prod.snd heq
                      have h1 := congrArg Prod.fst heq
                      dsimp only at h1 h2
                      subst h1 h2
                      clear heq))
    | dsimp only [Lock.count]
    | dsimp +zetaDelta only

theorem execFirstErrorClear_hide {m : Nat} (hm : 34359738368 &&& m = 34359738368) {x : Dev} (k : CollIx) (s : State)
    (h : Dev.hide m s.dev = x) : Dev.hide m ((execFirstErrorClear k s).stateOr s).dev = x := by
  unfold execFirstErrorClear
  apply State.on_hide
  repeat' first
    | with_reducible assumption
    | intro _
    | extract_lets
    | with_reducible apply hide_ite
    | with_reducible apply hide_next
    | with_reducible apply Dev.clearFirst_hide (land_trans rfl hm)
    | (split
       all_goals try (rename_i heq
                      have h2 := congrArg Prod.snd heq
                      have h1 := congrArg Prod.fst heq
                      dsimp only at h1 h2
                      subst h1 h2
                      clear heq))
    | dsimp only [Lock.count]
    | dsimp +zetaDelta only

theorem execDbgHalt_hide {m : Nat} (hm : 576460752303689728 &&& m = 576460752303689728) {x : Dev} (mask : DWord) (s : State)
    (h : Dev.hide m s.dev = x) : Dev.hide m ((execDbgHalt mask s).stateOr s).dev = x := by
  unfold execDbgHalt
  apply State.on_hide
  repeat' first
    | with_reducible assumption
    | intro _
    | extract_lets
    | with_reducible apply hide_ite
    | with_reducible apply hide_next
    | with_reducible apply Dev.haltMask_hide (land_trans rfl hm)
    | with_reducible apply Dev.ndlReq_hide (land_trans rfl hm)
    | with_reducible apply Dev.ndl_hide (land_trans rfl hm)
    | (split
       all_goals try (rename_i heq
                      have h2 := congrArg Prod.snd heq
                      have h1 := congrArg Prod.fst heq
                      dsimp only at h1 h2
                      subst h1 h2
                      clear heq))
    | dsimp only [Lock.count]
    | dsimp +zetaDelta only

theorem execTripForceWrite_hide {m : Nat} (hm : 2147485696 &&& m = 2147485696) {x : Dev} (g : RegionIx) (v : Word) (s : State)
    (h : Dev.hide m s.dev = x) : Dev.hide m ((execTripForceWrite g v s).stateOr s).dev = x := by
  unfold execTripForceWrite
  apply State.on_hide
  repeat' first
    | with_reducible assumption
    | intro _
    | extract_lets
    | with_reducible apply hide_ite
    | with_reducible apply hide_next
    | with_reducible apply Dev.writeTripForce_hide (land_trans rfl hm)
    | (split
       all_goals try (rename_i heq
                      have h2 := congrArg Prod.snd heq
                      have h1 := congrArg Prod.fst heq
                      dsimp only at h1 h2
                      subst h1 h2
                      clear heq))
    | dsimp only [Lock.count]
    | dsimp +zetaDelta only

theorem execCentralResetIndication_hide {m : Nat} (hm : 846685936644267521 &&& m = 846685936644267521) {x : Dev} (g : RegionIx) (s : State)
    (h : Dev.hide m s.dev = x) : Dev.hide m ((execCentralResetIndication g s).stateOr s).dev = x := by
  unfold execCentralResetIndication
  apply State.on_hide
  repeat' first
    | with_reducible assumption
    | intro _
    | extract_lets
    | with_reducible apply hide_ite
    | with_reducible apply hide_next
    | with_reducible apply Dev.islandLoss_hide (land_trans rfl hm)
    | (split
       all_goals try (rename_i heq
                      have h2 := congrArg Prod.snd heq
                      have h1 := congrArg Prod.fst heq
                      dsimp only at h1 h2
                      subst h1 h2
                      clear heq))
    | dsimp only [Lock.count]
    | dsimp +zetaDelta only

theorem execSliceSampleRelease_hide {m : Nat} (hm : 67129344 &&& m = 67129344) {x : Dev} (k : SliceIx) (late : Bool) (s : State)
    (h : Dev.hide m s.dev = x) : Dev.hide m ((execSliceSampleRelease k late s).stateOr s).dev = x := by
  unfold execSliceSampleRelease
  apply State.on_hide
  repeat' first
    | with_reducible assumption
    | intro _
    | extract_lets
    | with_reducible apply hide_ite
    | with_reducible apply hide_next
    | with_reducible apply Dev.boundEvent_hide (land_trans rfl hm)
    | with_reducible apply Dev.irqRegion_hide (land_trans rfl hm)
    | with_reducible apply Dev.forEach_hide (land_trans rfl hm)
    | (split
       all_goals try (rename_i heq
                      have h2 := congrArg Prod.snd heq
                      have h1 := congrArg Prod.fst heq
                      dsimp only at h1 h2
                      subst h1 h2
                      clear heq))
    | with_reducible apply Dev.hide_upd_14 (land_trans rfl hm)
    | with_reducible apply Dev.hide_upd_26 (land_trans rfl hm)
    | dsimp only [Lock.count]
    | dsimp +zetaDelta only

theorem execStopSequence_hide {m : Nat} (hm : 595038100766331136 &&& m = 595038100766331136) {x : Dev} (s : State)
    (h : Dev.hide m s.dev = x) : Dev.hide m ((execStopSequence s).stateOr s).dev = x := by
  unfold execStopSequence
  apply State.on_hide
  repeat' first
    | with_reducible assumption
    | intro _
    | extract_lets
    | with_reducible apply hide_ite
    | with_reducible apply hide_next
    | with_reducible apply Dev.lockAccept_hide (land_trans rfl hm)
    | with_reducible apply Dev.rvEvent_hide (land_trans rfl hm)
    | with_reducible apply Dev.modRv_hide (land_trans rfl hm)
    | with_reducible apply Dev.forEach_hide (land_trans rfl hm)
    | (split
       all_goals try (rename_i heq
                      have h2 := congrArg Prod.snd heq
                      have h1 := congrArg Prod.fst heq
                      dsimp only at h1 h2
                      subst h1 h2
                      clear heq))
    | dsimp only [Lock.count]
    | dsimp +zetaDelta only

theorem execRsvCharge_hide {m : Nat} (hm : 859668969945046657 &&& m = 859668969945046657) {x : Dev} (d : Desc) (s : State)
    (h : Dev.hide m s.dev = x) : Dev.hide m ((execRsvCharge d s).stateOr s).dev = x := by
  unfold execRsvCharge
  apply State.on_hide
  repeat' first
    | with_reducible assumption
    | intro _
    | extract_lets
    | with_reducible apply hide_ite
    | with_reducible apply hide_next
    | with_reducible apply Dev.chgOn_hide (land_trans rfl hm)
    | with_reducible apply Dev.chgOff_hide (land_trans rfl hm)
    | with_reducible apply Dev.cmd_hide (land_trans rfl hm)
    | with_reducible apply Dev.fail_hide (land_trans rfl hm)
    | with_reducible apply Dev.reply_hide (land_trans rfl hm)
    | (split
       all_goals try (rename_i heq
                      have h2 := congrArg Prod.snd heq
                      have h1 := congrArg Prod.fst heq
                      dsimp only at h1 h2
                      subst h1 h2
                      clear heq))
    | dsimp only [Lock.count]
    | dsimp +zetaDelta only

theorem execChipBargeRst_hide {m : Nat} (hm : 18014432902780929 &&& m = 18014432902780929) {x : Dev} (mask : DWord) (s : State)
    (h : Dev.hide m s.dev = x) : Dev.hide m ((execChipBargeRst mask s).stateOr s).dev = x := by
  unfold execChipBargeRst
  apply State.on_hide
  repeat' first
    | with_reducible assumption
    | intro _
    | extract_lets
    | with_reducible apply hide_ite
    | with_reducible apply hide_next
    | with_reducible apply Dev.bargeResets_hide (land_trans rfl hm)
    | (split
       all_goals try (rename_i heq
                      have h2 := congrArg Prod.snd heq
                      have h1 := congrArg Prod.fst heq
                      dsimp only at h1 h2
                      subst h1 h2
                      clear heq))
    | dsimp only [Lock.count]
    | dsimp +zetaDelta only

theorem execSupervisorFrameDiscard_hide {m : Nat} (hm : 4503599627370496 &&& m = 4503599627370496) {x : Dev} (e : FrameError) (s : State)
    (h : Dev.hide m s.dev = x) : Dev.hide m ((execSupervisorFrameDiscard e s).stateOr s).dev = x := by
  unfold execSupervisorFrameDiscard
  apply State.on_hide
  repeat' first
    | with_reducible assumption
    | intro _
    | extract_lets
    | with_reducible apply hide_ite
    | with_reducible apply hide_next
    | with_reducible apply Dev.modSv_hide (land_trans rfl hm)
    | (split
       all_goals try (rename_i heq
                      have h2 := congrArg Prod.snd heq
                      have h1 := congrArg Prod.fst heq
                      dsimp only at h1 h2
                      subst h1 h2
                      clear heq))
    | dsimp only [Lock.count]
    | dsimp +zetaDelta only

theorem execTbSourceSelect_hide {m : Nat} (hm : 18014400656965640 &&& m = 18014400656965640) {x : Dev} (v : Word) (s : State)
    (h : Dev.hide m s.dev = x) : Dev.hide m ((execTbSourceSelect v s).stateOr s).dev = x := by
  unfold execTbSourceSelect
  apply State.on_hide
  repeat' first
    | with_reducible assumption
    | intro _
    | extract_lets
    | with_reducible apply hide_ite
    | with_reducible apply hide_next
    | with_reducible apply Dev.writeDiscCfg_hide (land_trans rfl hm)
    | (split
       all_goals try (rename_i heq
                      have h2 := congrArg Prod.snd heq
                      have h1 := congrArg Prod.fst heq
                      dsimp only at h1 h2
                      subst h1 h2
                      clear heq))
    | dsimp only [Lock.count]
    | dsimp +zetaDelta only

theorem execHostNotify_hide {m : Nat} (hm : 19140298416330752 &&& m = 19140298416330752) {x : Dev} (t : TowIx) (addr : Byte) (lo : Byte) (hi : Byte) (s : State)
    (h : Dev.hide m s.dev = x) : Dev.hide m ((execHostNotify t addr lo hi s).stateOr s).dev = x := by
  unfold execHostNotify
  apply State.on_hide
  repeat' first
    | with_reducible assumption
    | intro _
    | extract_lets
    | with_reducible apply hide_ite
    | with_reducible apply hide_next
    | with_reducible apply Dev.twIrq_hide (land_trans rfl hm)
    | with_reducible apply Dev.twEvent_hide (land_trans rfl hm)
    | with_reducible apply Dev.setTow_hide (land_trans rfl hm)
    | (split
       all_goals try (rename_i heq
                      have h2 := congrArg Prod.snd heq
                      have h1 := congrArg Prod.fst heq
                      dsimp only at h1 h2
                      subst h1 h2
                      clear heq))
    | dsimp only [Lock.count]
    | dsimp +zetaDelta only

theorem execFlashErase_hide {m : Nat} (hm : 576460752303718400 &&& m = 576460752303718400) {x : Dev} (space : Byte) (addr : Word) (s : State)
    (h : Dev.hide m s.dev = x) : Dev.hide m ((execFlashErase space addr s).stateOr s).dev = x := by
  unfold execFlashErase
  apply State.on_hide
  apply Dev.ndlReq_hide (land_trans rfl hm) _ _ _ _ h
  intro u y hu
  apply hide_ite
  · exact Dev.ndl_hide (land_trans rfl hm) _ _ _ hu
  · generalize Ndl.flashFault addr.toNat 0x1000 0x1000 = ff
    cases ff with
    | some r => exact Dev.ndlFault_hide (land_trans rfl hm) _ _ hu
    | none => exact Dev.ndl_hide (land_trans rfl hm) _ _ _ (Dev.flashErase_hide (land_trans rfl hm) _ _ _ hu)

theorem execPowerOnResetRelease_hide {m : Nat} (hm : 856291270224518665 &&& m = 856291270224518665) {x : Dev} (a0 : PorDomain) (s : State)
    (h : Dev.hide m s.dev = x) : Dev.hide m ((execPowerOnResetRelease a0 s).stateOr s).dev = x := by
  unfold execPowerOnResetRelease
  apply State.on_hide
  repeat' first
    | with_reducible assumption
    | intro _
    | extract_lets
    | with_reducible apply hide_ite
    | with_reducible apply hide_next
    | with_reducible apply Dev.coreUp_hide (land_trans rfl hm)
    | with_reducible apply Dev.linkTrain_hide (land_trans rfl hm)
    | with_reducible apply Dev.rvFault_hide (land_trans rfl hm)
    | with_reducible apply Dev.modRegion_hide (land_trans rfl hm)
    | (split
       all_goals try (rename_i heq
                      have h2 := congrArg Prod.snd heq
                      have h1 := congrArg Prod.fst heq
                      dsimp only at h1 h2
                      subst h1 h2
                      clear heq))
    | with_reducible apply Dev.hide_upd_49_53 (land_trans rfl hm)
    | with_reducible apply Dev.hide_upd_53 (land_trans rfl hm)
    | dsimp only [Lock.count]
    | dsimp +zetaDelta only

theorem execTowpathPrepare_hide {m : Nat} (hm : 714990724508028545 &&& m = 714990724508028545) {x : Dev} (d : Desc) (data : Option (List Byte)) (s : State)
    (h : Dev.hide m s.dev = x) : Dev.hide m ((execTowpathPrepare d data s).stateOr s).dev = x := by
  unfold execTowpathPrepare
  apply State.on_hide
  repeat' first
    | with_reducible assumption
    | intro _
    | extract_lets
    | with_reducible apply hide_ite
    | with_reducible apply hide_next
    | with_reducible apply Dev.towLoad_hide (land_trans rfl hm)
    | with_reducible apply Dev.cmd_hide (land_trans rfl hm)
    | with_reducible apply Dev.fail_hide (land_trans rfl hm)
    | with_reducible apply Dev.reply_hide (land_trans rfl hm)
    | (split
       all_goals try (rename_i heq
                      have h2 := congrArg Prod.snd heq
                      have h1 := congrArg Prod.fst heq
                      dsimp only at h1 h2
                      subst h1 h2
                      clear heq))
    | dsimp only [Lock.count]
    | dsimp +zetaDelta only

theorem execPowerGood_hide {m : Nat} (hm : 702570639013187073 &&& m = 702570639013187073) {x : Dev} (c : CellIx) (s : State)
    (h : Dev.hide m s.dev = x) : Dev.hide m ((execPowerGood c s).stateOr s).dev = x := by
  unfold execPowerGood
  apply State.on_hide
  repeat' first
    | with_reducible assumption
    | intro _
    | extract_lets
    | with_reducible apply hide_ite
    | with_reducible apply hide_next
    | with_reducible apply Dev.autoNext_hide (land_trans rfl hm)
    | with_reducible apply Dev.levelTrips_hide (land_trans rfl hm)
    | with_reducible apply Dev.goto_hide (land_trans rfl hm)
    | with_reducible apply Dev.cellEvent_hide (land_trans rfl hm)
    | (split
       all_goals try (rename_i heq
                      have h2 := congrArg Prod.snd heq
                      have h1 := congrArg Prod.fst heq
                      dsimp only at h1 h2
                      subst h1 h2
                      clear heq))
    | dsimp only [Lock.count]
    | dsimp +zetaDelta only

theorem execIslandReset_hide {m : Nat} (hm : 847811837155090305 &&& m = 847811837155090305) {x : Dev} (g : RegionIx) (s : State)
    (h : Dev.hide m s.dev = x) : Dev.hide m ((execIslandReset g s).stateOr s).dev = x := by
  unfold execIslandReset
  apply State.on_hide
  repeat' first
    | with_reducible assumption
    | intro _
    | extract_lets
    | with_reducible apply hide_ite
    | with_reducible apply hide_next
    | with_reducible apply Dev.regionReset_hide (land_trans rfl hm)
    | (split
       all_goals try (rename_i heq
                      have h2 := congrArg Prod.snd heq
                      have h1 := congrArg Prod.fst heq
                      dsimp only at h1 h2
                      subst h1 h2
                      clear heq))
    | dsimp only [Lock.count]
    | dsimp +zetaDelta only

theorem execProbePulseEnd_hide {m : Nat} (hm : 702570639013187073 &&& m = 702570639013187073) {x : Dev} (c : CellIx) (vh : BitVec 16) (vt : BitVec 16) (s : State)
    (h : Dev.hide m s.dev = x) : Dev.hide m ((execProbePulseEnd c vh vt s).stateOr s).dev = x := by
  unfold execProbePulseEnd
  apply State.on_hide
  repeat' first
    | with_reducible assumption
    | intro _
    | extract_lets
    | with_reducible apply hide_ite
    | with_reducible apply hide_next
    | with_reducible apply Dev.probeResult_hide (land_trans rfl hm)
    | with_reducible apply Dev.modCell_hide (land_trans rfl hm)
    | (split
       all_goals try (rename_i heq
                      have h2 := congrArg Prod.snd heq
                      have h1 := congrArg Prod.fst heq
                      dsimp only at h1 h2
                      subst h1 h2
                      clear heq))
    | dsimp only [Lock.count]
    | dsimp +zetaDelta only

theorem execRingModify_hide {m : Nat} (hm : 36063981391052800 &&& m = 36063981391052800) {x : Dev} (d : Desc) (s : State)
    (h : Dev.hide m s.dev = x) : Dev.hide m ((execRingModify d s).stateOr s).dev = x := by
  unfold execRingModify
  apply State.on_hide
  repeat' first
    | with_reducible assumption
    | intro _
    | extract_lets
    | with_reducible apply hide_ite
    | with_reducible apply hide_next
    | with_reducible apply Dev.ringCmd_hide (land_trans rfl hm)
    | with_reducible apply Dev.setRing_hide (land_trans rfl hm)
    | with_reducible apply Dev.ctxUse_hide (land_trans rfl hm)
    | with_reducible apply Dev.fail_hide (land_trans rfl hm)
    | with_reducible apply Dev.reply_hide (land_trans rfl hm)
    | (split
       all_goals try (rename_i heq
                      have h2 := congrArg Prod.snd heq
                      have h1 := congrArg Prod.fst heq
                      dsimp only at h1 h2
                      subst h1 h2
                      clear heq))
    | dsimp only [Lock.count]
    | dsimp +zetaDelta only

theorem execMgMboxRead_hide {m : Nat} (hm : 576460752303423488 &&& m = 576460752303423488) {x : Dev} (s : State)
    (h : Dev.hide m s.dev = x) : Dev.hide m ((execMgMboxRead s).stateOr s).dev = x := by
  unfold execMgMboxRead
  apply State.on_hide
  repeat' first
    | with_reducible assumption
    | intro _
    | extract_lets
    | with_reducible apply hide_ite
    | with_reducible apply hide_next
    | with_reducible apply Dev.mgRead_hide (land_trans rfl hm)
    | (split
       all_goals try (rename_i heq
                      have h2 := congrArg Prod.snd heq
                      have h1 := congrArg Prod.fst heq
                      dsimp only at h1 h2
                      subst h1 h2
                      clear heq))
    | dsimp only [Lock.count]
    | dsimp +zetaDelta only

theorem execComparatorFilterSample_hide {m : Nat} (hm : 702570639013191169 &&& m = 702570639013191169) {x : Dev} (a0 : CmpGroup) (s : State)
    (h : Dev.hide m s.dev = x) : Dev.hide m ((execComparatorFilterSample a0 s).stateOr s).dev = x := by
  unfold execComparatorFilterSample
  apply State.on_hide
  repeat' first
    | with_reducible assumption
    | intro _
    | extract_lets
    | with_reducible apply hide_ite
    | with_reducible apply hide_next
    | with_reducible apply Dev.vinCmpSample_hide (land_trans rfl hm)
    | with_reducible apply Dev.cellCmpSample_hide (land_trans rfl hm)
    | (split
       all_goals try (rename_i heq
                      have h2 := congrArg Prod.snd heq
                      have h1 := congrArg Prod.fst heq
                      dsimp only at h1 h2
                      subst h1 h2
                      clear heq))
    | dsimp only [Lock.count]
    | dsimp +zetaDelta only

theorem execSoftStart_hide {m : Nat} (hm : 18014400690526208 &&& m = 18014400690526208) {x : Dev} (k : SliceIx) (s : State)
    (h : Dev.hide m s.dev = x) : Dev.hide m ((execSoftStart k s).stateOr s).dev = x := by
  unfold execSoftStart
  apply State.on_hide
  repeat' first
    | with_reducible assumption
    | intro _
    | extract_lets
    | with_reducible apply hide_ite
    | with_reducible apply hide_next
    | with_reducible apply Dev.softStart_hide (land_trans rfl hm)
    | (split
       all_goals try (rename_i heq
                      have h2 := congrArg Prod.snd heq
                      have h1 := congrArg Prod.fst heq
                      dsimp only at h1 h2
                      subst h1 h2
                      clear heq))
    | dsimp only [Lock.count]
    | dsimp +zetaDelta only

theorem execChReset_hide {m : Nat} (hm : 714990756720287361 &&& m = 714990756720287361) {x : Dev} (d : Desc) (s : State)
    (h : Dev.hide m s.dev = x) : Dev.hide m ((execChReset d s).stateOr s).dev = x := by
  unfold execChReset
  apply State.on_hide
  repeat' first
    | with_reducible assumption
    | intro _
    | extract_lets
    | with_reducible apply hide_ite
    | with_reducible apply hide_next
    | with_reducible apply Dev.chReset_hide (land_trans rfl hm)
    | with_reducible apply Dev.chanCmd_hide (land_trans rfl hm)
    | (split
       all_goals try (rename_i heq
                      have h2 := congrArg Prod.snd heq
                      have h1 := congrArg Prod.fst heq
                      dsimp only at h1 h2
                      subst h1 h2
                      clear heq))
    | dsimp only [Lock.count]
    | dsimp +zetaDelta only

theorem execDbgResume_hide {m : Nat} (hm : 576460752303689728 &&& m = 576460752303689728) {x : Dev} (mask : DWord) (s : State)
    (h : Dev.hide m s.dev = x) : Dev.hide m ((execDbgResume mask s).stateOr s).dev = x := by
  unfold execDbgResume
  apply State.on_hide
  repeat' first
    | with_reducible assumption
    | intro _
    | extract_lets
    | with_reducible apply hide_ite
    | with_reducible apply hide_next
    | with_reducible apply Dev.resumeMask_hide (land_trans rfl hm)
    | with_reducible apply Dev.ndlReq_hide (land_trans rfl hm)
    | with_reducible apply Dev.ndl_hide (land_trans rfl hm)
    | (split
       all_goals try (rename_i heq
                      have h2 := congrArg Prod.snd heq
                      have h1 := congrArg Prod.fst heq
                      dsimp only at h1 h2
                      subst h1 h2
                      clear heq))
    | dsimp only [Lock.count]
    | dsimp +zetaDelta only

theorem execNtcZoneChange_hide {m : Nat} (hm : 847248886597688833 &&& m = 847248886597688833) {x : Dev} (ratio : BitVec 16) (s : State)
    (h : Dev.hide m s.dev = x) : Dev.hide m ((execNtcZoneChange ratio s).stateOr s).dev = x := by
  unfold execNtcZoneChange
  apply State.on_hide
  repeat' first
    | with_reducible assumption
    | intro _
    | extract_lets
    | with_reducible apply hide_ite
    | with_reducible apply hide_next
    | with_reducible apply Dev.rvLive_hide (land_trans rfl hm)
    | with_reducible apply Dev.chgWait_hide (land_trans rfl hm)
    | with_reducible apply Dev.modRv_hide (land_trans rfl hm)
    | (split
       all_goals try (rename_i heq
                      have h2 := congrArg Prod.snd heq
                      have h1 := congrArg Prod.fst heq
                      dsimp only at h1 h2
                      subst h1 h2
                      clear heq))
    | dsimp only [Lock.count]
    | dsimp +zetaDelta only

theorem execTbclkInReturn_hide {m : Nat} (hm : 27021632123967496 &&& m = 27021632123967496) {x : Dev} (s : State)
    (h : Dev.hide m s.dev = x) : Dev.hide m ((execTbclkInReturn s).stateOr s).dev = x := by
  unfold execTbclkInReturn
  apply State.on_hide
  repeat' first
    | with_reducible assumption
    | intro _
    | extract_lets
    | with_reducible apply hide_ite
    | with_reducible apply hide_next
    | with_reducible apply Dev.unoccur_hide (land_trans rfl hm)
    | (split
       all_goals try (rename_i heq
                      have h2 := congrArg Prod.snd heq
                      have h1 := congrArg Prod.fst heq
                      dsimp only at h1 h2
                      subst h1 h2
                      clear heq))
    | with_reducible apply Dev.hide_upd_3 (land_trans rfl hm)
    | with_reducible apply Dev.hide_upd_53 (land_trans rfl hm)
    | dsimp only [Lock.count]
    | dsimp +zetaDelta only

theorem execSyncFrameSend_hide {m : Nat} (hm : 576460752303423488 &&& m = 576460752303423488) {x : Dev} (s : State)
    (h : Dev.hide m s.dev = x) : Dev.hide m ((execSyncFrameSend s).stateOr s).dev = x := by
  unfold execSyncFrameSend
  apply State.on_hide
  repeat' first
    | with_reducible assumption
    | intro _
    | extract_lets
    | with_reducible apply hide_ite
    | with_reducible apply hide_next
    | with_reducible apply Dev.emit_hide (land_trans rfl hm)
    | (split
       all_goals try (rename_i heq
                      have h2 := congrArg Prod.snd heq
                      have h1 := congrArg Prod.fst heq
                      dsimp only at h1 h2
                      subst h1 h2
                      clear heq))
    | dsimp only [Lock.count]
    | dsimp +zetaDelta only

theorem execSoftStop_hide {m : Nat} (hm : 18014400690526208 &&& m = 18014400690526208) {x : Dev} (k : SliceIx) (s : State)
    (h : Dev.hide m s.dev = x) : Dev.hide m ((execSoftStop k s).stateOr s).dev = x := by
  unfold execSoftStop
  apply State.on_hide
  repeat' first
    | with_reducible assumption
    | intro _
    | extract_lets
    | with_reducible apply hide_ite
    | with_reducible apply hide_next
    | with_reducible apply Dev.sliceDisable_hide (land_trans rfl hm)
    | (split
       all_goals try (rename_i heq
                      have h2 := congrArg Prod.snd heq
                      have h1 := congrArg Prod.fst heq
                      dsimp only at h1 h2
                      subst h1 h2
                      clear heq))
    | dsimp only [Lock.count]
    | dsimp +zetaDelta only

theorem execFbSample_hide {m : Nat} (hm : 18014398610151424 &&& m = 18014398610151424) {x : Dev} (k : SliceIx) (v : BitVec 16) (s : State)
    (h : Dev.hide m s.dev = x) : Dev.hide m ((execFbSample k v s).stateOr s).dev = x := by
  unfold execFbSample
  apply State.on_hide
  repeat' first
    | with_reducible assumption
    | intro _
    | extract_lets
    | with_reducible apply hide_ite
    | with_reducible apply hide_next
    | with_reducible apply Dev.cutUpdate_hide (land_trans rfl hm)
    | with_reducible apply Dev.setSlice_hide (land_trans rfl hm)
    | (split
       all_goals try (rename_i heq
                      have h2 := congrArg Prod.snd heq
                      have h1 := congrArg Prod.fst heq
                      dsimp only at h1 h2
                      subst h1 h2
                      clear heq))
    | with_reducible apply Dev.hide_upd_26 (land_trans rfl hm)
    | dsimp only [Lock.count]
    | dsimp +zetaDelta only

theorem execStraitTrainingTimeout_hide {m : Nat} (hm : 846685936644267521 &&& m = 846685936644267521) {x : Dev} (g : RegionIx) (s : State)
    (h : Dev.hide m s.dev = x) : Dev.hide m ((execStraitTrainingTimeout g s).stateOr s).dev = x := by
  unfold execStraitTrainingTimeout
  apply State.on_hide
  repeat' first
    | with_reducible assumption
    | intro _
    | extract_lets
    | with_reducible apply hide_ite
    | with_reducible apply hide_next
    | with_reducible apply Dev.occur_hide (land_trans rfl hm)
    | (split
       all_goals try (rename_i heq
                      have h2 := congrArg Prod.snd heq
                      have h1 := congrArg Prod.fst heq
                      dsimp only at h1 h2
                      subst h1 h2
                      clear heq))
    | dsimp only [Lock.count]
    | dsimp +zetaDelta only

theorem execEdgeDataRead_hide {m : Nat} (hm : 576460752303424512 &&& m = 576460752303424512) {x : Dev} (b : BlockIx) (s : State)
    (h : Dev.hide m s.dev = x) : Dev.hide m ((execEdgeDataRead b s).stateOr s).dev = x := by
  unfold execEdgeDataRead
  apply State.on_hide
  repeat' first
    | with_reducible assumption
    | intro _
    | extract_lets
    | with_reducible apply hide_ite
    | with_reducible apply hide_next
    | with_reducible apply Dev.popEdge_hide (land_trans rfl hm)
    | with_reducible apply Dev.emit_hide (land_trans rfl hm)
    | (split
       all_goals try (rename_i heq
                      have h2 := congrArg Prod.snd heq
                      have h1 := congrArg Prod.fst heq
                      dsimp only at h1 h2
                      subst h1 h2
                      clear heq))
    | dsimp only [Lock.count]
    | dsimp +zetaDelta only

theorem execPrecheckWaitExpiry_hide {m : Nat} (hm : 702570639013187073 &&& m = 702570639013187073) {x : Dev} (c : CellIx) (s : State)
    (h : Dev.hide m s.dev = x) : Dev.hide m ((execPrecheckWaitExpiry c s).stateOr s).dev = x := by
  unfold execPrecheckWaitExpiry
  apply State.on_hide
  repeat' first
    | with_reducible assumption
    | intro _
    | extract_lets
    | with_reducible apply hide_ite
    | with_reducible apply hide_next
    | with_reducible apply Dev.precheckFail_hide (land_trans rfl hm)
    | (split
       all_goals try (rename_i heq
                      have h2 := congrArg Prod.snd heq
                      have h1 := congrArg Prod.fst heq
                      dsimp only at h1 h2
                      subst h1 h2
                      clear heq))
    | dsimp only [Lock.count]
    | dsimp +zetaDelta only

theorem execClrStuck_hide {m : Nat} (hm : 19140332776069120 &&& m = 19140332776069120) {x : Dev} (t : TowIx) (sda : Bool) (s : State)
    (h : Dev.hide m s.dev = x) : Dev.hide m ((execClrStuck t sda s).stateOr s).dev = x := by
  unfold execClrStuck
  apply State.on_hide
  repeat' first
    | with_reducible assumption
    | intro _
    | extract_lets
    | with_reducible apply hide_ite
    | with_reducible apply hide_next
    | with_reducible apply Dev.twClear_hide (land_trans rfl hm)
    | (split
       all_goals try (rename_i heq
                      have h2 := congrArg Prod.snd heq
                      have h1 := congrArg Prod.fst heq
                      dsimp only at h1 h2
                      subst h1 h2
                      clear heq))
    | dsimp only [Lock.count]
    | dsimp +zetaDelta only

theorem execErrClr_hide {m : Nat} (hm : 18014467228960768 &&& m = 18014467228960768) {x : Dev} (s : State)
    (h : Dev.hide m s.dev = x) : Dev.hide m ((execErrClr s).stateOr s).dev = x := by
  unfold execErrClr
  apply State.on_hide
  repeat' first
    | with_reducible assumption
    | intro _
    | extract_lets
    | with_reducible apply hide_ite
    | with_reducible apply hide_next
    | with_reducible apply Dev.errClear_hide (land_trans rfl hm)
    | (split
       all_goals try (rename_i heq
                      have h2 := congrArg Prod.snd heq
                      have h1 := congrArg Prod.fst heq
                      dsimp only at h1 h2
                      subst h1 h2
                      clear heq))
    | dsimp only [Lock.count]
    | dsimp +zetaDelta only

theorem execRegionSafe_hide {m : Nat} (hm : 851189536271638017 &&& m = 851189536271638017) {x : Dev} (seq : Byte) (mask : Byte) (stale : Bool) (s : State)
    (h : Dev.hide m s.dev = x) : Dev.hide m ((execRegionSafe seq mask stale s).stateOr s).dev = x := by
  unfold execRegionSafe
  apply State.on_hide
  repeat' first
    | with_reducible assumption
    | intro _
    | extract_lets
    | with_reducible apply hide_ite
    | with_reducible apply hide_next
    | with_reducible apply Dev.svFrame_hide (land_trans rfl hm)
    | with_reducible apply Dev.modSv_hide (land_trans rfl hm)
    | with_reducible apply Dev.occur_hide (land_trans rfl hm)
    | with_reducible apply Dev.stand_hide (land_trans rfl hm)
    | with_reducible apply Dev.regionSafe_hide (land_trans rfl hm)
    | with_reducible apply Dev.forEach_hide (land_trans rfl hm)
    | with_reducible apply hide_foldl
    | with_reducible apply hide_foldl2
    | with_reducible apply hide_foldl3
    | with_reducible apply hide_foldl4
    | (split
       all_goals try (rename_i heq
                      have h2 := congrArg Prod.snd heq
                      have h1 := congrArg Prod.fst heq
                      dsimp only at h1 h2
                      subst h1 h2
                      clear heq))
    | dsimp only [Lock.count]
    | dsimp +zetaDelta only

end Sys2Proof.Machine
end

