-- ==== Sys2Proof/Laws/FrameG.lean ====
section
/-! SUPPORT. Frames of the operations and the meanings, in the order they call each other: which parts of the device each
changes at most. File 7 of 7. -/

set_option linter.unreachableTactic false
set_option linter.unusedTactic false

namespace Sys2Proof.Machine

theorem execDbgStep_hide {m : Nat} (hm : 846685936644529665 &&& m = 846685936644529665) {x : Dev} (mask : DWord) (s : State)
    (h : Dev.hide m s.dev = x) : Dev.hide m ((execDbgStep mask s).stateOr s).dev = x := by
  unfold execDbgStep
  apply State.on_hide
  repeat' first
    | with_reducible assumption
    | intro _
    | extract_lets
    | with_reducible apply hide_ite
    | with_reducible apply hide_next
    | with_reducible apply Dev.stepBarge_hide (land_trans rfl hm)
    | with_reducible apply Dev.ndlReq_hide (land_trans rfl hm)
    | with_reducible apply Dev.ndl_hide (land_trans rfl hm)
    | with_reducible apply Dev.forEach_hide (land_trans rfl hm)
    | (split
       all_goals try (rename_i heq
                      have h2 := congrArg Prod.snd heq
                      have h1 := congrArg Prod.fst heq
                      dsimp only at h1 h2
                      subst h1 h2
                      clear heq))
    | dsimp only [Lock.count]
    | dsimp +zetaDelta only

theorem execStatusImageRefresh_hide {m : Nat} (hm : 2251799813685248 &&& m = 2251799813685248) {x : Dev} (s : State)
    (h : Dev.hide m s.dev = x) : Dev.hide m ((execStatusImageRefresh s).stateOr s).dev = x := by
  unfold execStatusImageRefresh
  apply State.on_hide
  repeat' first
    | with_reducible assumption
    | intro _
    | extract_lets
    | with_reducible apply hide_ite
    | with_reducible apply hide_next
    | with_reducible apply Dev.modMg_hide (land_trans rfl hm)
    | (split
       all_goals try (rename_i heq
                      have h2 := congrArg Prod.snd heq
                      have h1 := congrArg Prod.fst heq
                      dsimp only at h1 h2
                      subst h1 h2
                      clear heq))
    | dsimp only [Lock.count]
    | dsimp +zetaDelta only

theorem execBackpressureWithdraw_hide {m : Nat} (hm : 36063981391056896 &&& m = 36063981391056896) {x : Dev} (ring : RingIx) (cmdId : Word) (s : State)
    (h : Dev.hide m s.dev = x) : Dev.hide m ((execBackpressureWithdraw ring cmdId s).stateOr s).dev = x := by
  unfold execBackpressureWithdraw
  apply State.on_hide
  repeat' first
    | with_reducible assumption
    | intro _
    | extract_lets
    | with_reducible apply hide_ite
    | with_reducible apply hide_next
    | with_reducible apply Dev.complete_hide (land_trans rfl hm)
    | with_reducible apply Dev.modBarge_hide (land_trans rfl hm)
    | (split
       all_goals try (rename_i heq
                      have h2 := congrArg Prod.snd heq
                      have h1 := congrArg Prod.fst heq
                      dsimp only at h1 h2
                      subst h1 h2
                      clear heq))
    | with_reducible apply Dev.hide_upd_45 (land_trans rfl hm)
    | dsimp only [Lock.count]
    | dsimp +zetaDelta only

theorem execXtrigHalt_hide {m : Nat} (hm : 4096 &&& m = 4096) {x : Dev} (e : BargeIx) (s : State)
    (h : Dev.hide m s.dev = x) : Dev.hide m ((execXtrigHalt e s).stateOr s).dev = x := by
  unfold execXtrigHalt
  apply State.on_hide
  repeat' first
    | with_reducible assumption
    | intro _
    | extract_lets
    | with_reducible apply hide_ite
    | with_reducible apply hide_next
    | with_reducible apply Dev.haltBarge_hide (land_trans rfl hm)
    | with_reducible apply Dev.modBarge_hide (land_trans rfl hm)
    | (split
       all_goals try (rename_i heq
                      have h2 := congrArg Prod.snd heq
                      have h1 := congrArg Prod.fst heq
                      dsimp only at h1 h2
                      subst h1 h2
                      clear heq))
    | dsimp only [Lock.count]
    | dsimp +zetaDelta only

theorem execFcHistoryRead_hide {m : Nat} (hm : 714990756720283265 &&& m = 714990756720283265) {x : Dev} (d : Desc) (bufOk : Bool) (s : State)
    (h : Dev.hide m s.dev = x) : Dev.hide m ((execFcHistoryRead d bufOk s).stateOr s).dev = x := by
  unfold execFcHistoryRead
  apply State.on_hide
  repeat' first
    | with_reducible assumption
    | intro _
    | extract_lets
    | with_reducible apply hide_ite
    | with_reducible apply hide_next
    | with_reducible apply Dev.bufReply_hide (land_trans rfl hm)
    | with_reducible apply Dev.cmd_hide (land_trans rfl hm)
    | with_reducible apply Dev.fail_hide (land_trans rfl hm)
    | with_reducible apply Dev.modColl_hide (land_trans rfl hm)
    | (split
       all_goals try (rename_i heq
                      have h2 := congrArg Prod.snd heq
                      have h1 := congrArg Prod.fst heq
                      dsimp only at h1 h2
                      subst h1 h2
                      clear heq))
    | dsimp only [Lock.count]
    | dsimp +zetaDelta only

theorem execControlWordWatchdog_hide {m : Nat} (hm : 846685936644267521 &&& m = 846685936644267521) {x : Dev} (k : SliceIx) (s : State)
    (h : Dev.hide m s.dev = x) : Dev.hide m ((execControlWordWatchdog k s).stateOr s).dev = x := by
  unfold execControlWordWatchdog
  apply State.on_hide
  repeat' first
    | with_reducible assumption
    | intro _
    | extract_lets
    | with_reducible apply hide_ite
    | with_reducible apply hide_next
    | with_reducible apply Dev.lossAction_hide (land_trans rfl hm)
    | with_reducible apply Dev.occur_hide (land_trans rfl hm)
    | with_reducible apply Dev.setSlice_hide (land_trans rfl hm)
    | (split
       all_goals try (rename_i heq
                      have h2 := congrArg Prod.snd heq
                      have h1 := congrArg Prod.fst heq
                      dsimp only at h1 h2
                      subst h1 h2
                      clear heq))
    | dsimp only [Lock.count]
    | dsimp +zetaDelta only

theorem execSlotStart_hide {m : Nat} (hm : 19140298416330752 &&& m = 19140298416330752) {x : Dev} (t : TowIx) (mask : Byte) (s : State)
    (h : Dev.hide m s.dev = x) : Dev.hide m ((execSlotStart t mask s).stateOr s).dev = x := by
  unfold execSlotStart
  apply State.on_hide
  repeat' first
    | with_reducible assumption
    | intro _
    | extract_lets
    | with_reducible apply hide_ite
    | with_reducible apply hide_next
    | with_reducible apply Dev.twStarts_hide (land_trans rfl hm)
    | (split
       all_goals try (rename_i heq
                      have h2 := congrArg Prod.snd heq
                      have h1 := congrArg Prod.fst heq
                      dsimp only at h1 h2
                      subst h1 h2
                      clear heq))
    | dsimp only [Lock.count]
    | dsimp +zetaDelta only

theorem execTransactionStart_hide {m : Nat} (hm : 1125899906842625 &&& m = 1125899906842625) {x : Dev} (t : TowIx) (s : State)
    (h : Dev.hide m s.dev = x) : Dev.hide m ((execTransactionStart t s).stateOr s).dev = x := by
  unfold execTransactionStart
  apply State.on_hide
  repeat' first
    | with_reducible assumption
    | intro _
    | extract_lets
    | with_reducible apply hide_ite
    | with_reducible apply hide_next
    | with_reducible apply Dev.setTow_hide (land_trans rfl hm)
    | with_reducible apply Dev.drawNat_hide (land_trans rfl hm)
    | (split
       all_goals try (rename_i heq
                      have h2 := congrArg Prod.snd heq
                      have h1 := congrArg Prod.fst heq
                      dsimp only at h1 h2
                      subst h1 h2
                      clear heq))
    | dsimp only [Lock.count]
    | dsimp +zetaDelta only

theorem execComparatorWake_hide {m : Nat} (hm : 714955537988456065 &&& m = 714955537988456065) {x : Dev} (a0 : CmpSel) (s : State)
    (h : Dev.hide m s.dev = x) : Dev.hide m ((execComparatorWake a0 s).stateOr s).dev = x := by
  unfold execComparatorWake
  apply State.on_hide
  repeat' first
    | with_reducible assumption
    | intro _
    | extract_lets
    | with_reducible apply hide_ite
    | with_reducible apply hide_next
    | with_reducible apply Dev.wake_hide (land_trans rfl hm)
    | (split
       all_goals try (rename_i heq
                      have h2 := congrArg Prod.snd heq
                      have h1 := congrArg Prod.fst heq
                      dsimp only at h1 h2
                      subst h1 h2
                      clear heq))
    | dsimp only [Lock.count]
    | dsimp +zetaDelta only

theorem execMemRead_hide {m : Nat} (hm : 720338781877837769 &&& m = 720338781877837769) {x : Dev} (space : Byte) (addr : Word) (count : Byte) (s : State)
    (h : Dev.hide m s.dev = x) : Dev.hide m ((execMemRead space addr count s).stateOr s).dev = x := by
  unfold execMemRead
  apply State.on_hide
  repeat' first
    | with_reducible assumption
    | intro _
    | extract_lets
    | with_reducible apply hide_ite
    | with_reducible apply hide_next
    | with_reducible apply Dev.ndlReads_hide (land_trans rfl hm)
    | with_reducible apply Dev.ndlReq_hide (land_trans rfl hm)
    | with_reducible apply Dev.ndlFault_hide (land_trans rfl hm)
    | with_reducible apply Dev.ndl_hide (land_trans rfl hm)
    | (split
       all_goals try (rename_i heq
                      have h2 := congrArg Prod.snd heq
                      have h1 := congrArg Prod.fst heq
                      dsimp only at h1 h2
                      subst h1 h2
                      clear heq))
    | dsimp only [Lock.count]
    | dsimp +zetaDelta only

theorem execAuxConversionEnd_hide {m : Nat} (hm : 846685937181138433 &&& m = 846685937181138433) {x : Dev} (g : RegionIx) (a1 : Word) (vin : Option VinSpan) (s : State)
    (h : Dev.hide m s.dev = x) : Dev.hide m ((execAuxConversionEnd g a1 vin s).stateOr s).dev = x := by
  unfold execAuxConversionEnd
  apply State.on_hide
  repeat' first
    | with_reducible assumption
    | intro _
    | extract_lets
    | with_reducible apply hide_ite
    | with_reducible apply hide_next
    | with_reducible apply Dev.plausible_hide (land_trans rfl hm)
    | with_reducible apply Dev.dieCheck_hide (land_trans rfl hm)
    | with_reducible apply Dev.auxNext_hide (land_trans rfl hm)
    | with_reducible apply Dev.setAux_hide (land_trans rfl hm)
    | with_reducible apply Dev.occur_hide (land_trans rfl hm)
    | with_reducible apply Dev.irqRegion_hide (land_trans rfl hm)
    | (split
       all_goals try (rename_i heq
                      have h2 := congrArg Prod.snd heq
                      have h1 := congrArg Prod.fst heq
                      dsimp only at h1 h2
                      subst h1 h2
                      clear heq))
    | dsimp only [Lock.count]
    | dsimp +zetaDelta only

theorem execSetFaultTime_hide {m : Nat} (hm : 714955537989504641 &&& m = 714955537989504641) {x : Dev} (n : BlockIx) (s : State)
    (h : Dev.hide m s.dev = x) : Dev.hide m ((execSetFaultTime n s).stateOr s).dev = x := by
  unfold execSetFaultTime
  apply State.on_hide
  repeat' first
    | with_reducible assumption
    | intro _
    | extract_lets
    | with_reducible apply hide_ite
    | with_reducible apply hide_next
    | with_reducible apply Dev.lvPatch_hide (land_trans rfl hm)
    | (split
       all_goals try (rename_i heq
                      have h2 := congrArg Prod.snd heq
                      have h1 := congrArg Prod.fst heq
                      dsimp only at h1 h2
                      subst h1 h2
                      clear heq))
    | dsimp only [Lock.count]
    | dsimp +zetaDelta only

theorem execHistoryRead_hide {m : Nat} (hm : 576460786663161856 &&& m = 576460786663161856) {x : Dev} (k : CollIx) (s : State)
    (h : Dev.hide m s.dev = x) : Dev.hide m ((execHistoryRead k s).stateOr s).dev = x := by
  unfold execHistoryRead
  apply State.on_hide
  repeat' first
    | with_reducible assumption
    | intro _
    | extract_lets
    | with_reducible apply hide_ite
    | with_reducible apply hide_next
    | with_reducible apply Dev.popHistory_hide (land_trans rfl hm)
    | with_reducible apply Dev.emit_hide (land_trans rfl hm)
    | (split
       all_goals try (rename_i heq
                      have h2 := congrArg Prod.snd heq
                      have h1 := congrArg Prod.fst heq
                      dsimp only at h1 h2
                      subst h1 h2
                      clear heq))
    | dsimp only [Lock.count]
    | dsimp +zetaDelta only

theorem execGrantReceive_hide {m : Nat} (hm : 702571188769000961 &&& m = 702571188769000961) {x : Dev} (c : CellIx) (s : State)
    (h : Dev.hide m s.dev = x) : Dev.hide m ((execGrantReceive c s).stateOr s).dev = x := by
  unfold execGrantReceive
  apply State.on_hide
  repeat' first
    | with_reducible assumption
    | intro _
    | extract_lets
    | with_reducible apply hide_ite
    | with_reducible apply hide_next
    | with_reducible apply Dev.levelTrips_hide (land_trans rfl hm)
    | with_reducible apply Dev.goto_hide (land_trans rfl hm)
    | with_reducible apply Dev.sendSl_hide (land_trans rfl hm)
    | with_reducible apply Dev.modCell_hide (land_trans rfl hm)
    | (split
       all_goals try (rename_i heq
                      have h2 := congrArg Prod.snd heq
                      have h1 := congrArg Prod.fst heq
                      dsimp only at h1 h2
                      subst h1 h2
                      clear heq))
    | with_reducible apply Dev.hide_upd_39 (land_trans rfl hm)
    | dsimp only [Lock.count]
    | dsimp +zetaDelta only

theorem execLockFrameReceive_hide {m : Nat} (hm : 594475150812905728 &&& m = 594475150812905728) {x : Dev} (link : Link) (e : LockEntry) (s : State)
    (h : Dev.hide m s.dev = x) : Dev.hide m ((execLockFrameReceive link e s).stateOr s).dev = x := by
  unfold execLockFrameReceive
  apply State.on_hide
  repeat' first
    | with_reducible assumption
    | intro _
    | extract_lets
    | with_reducible apply hide_ite
    | with_reducible apply hide_next
    | with_reducible apply Dev.lockBad_hide (land_trans rfl hm)
    | with_reducible apply Dev.lockSplit_hide (land_trans rfl hm)
    | with_reducible apply Dev.emit_hide (land_trans rfl hm)
    | (split
       all_goals try (rename_i heq
                      have h2 := congrArg Prod.snd heq
                      have h1 := congrArg Prod.fst heq
                      dsimp only at h1 h2
                      subst h1 h2
                      clear heq))
    | dsimp only [Lock.count]
    | dsimp +zetaDelta only

theorem execErrNPulseEnd_hide {m : Nat} (hm : 18014467228960768 &&& m = 18014467228960768) {x : Dev} (s : State)
    (h : Dev.hide m s.dev = x) : Dev.hide m ((execErrNPulseEnd s).stateOr s).dev = x := by
  unfold execErrNPulseEnd
  apply State.on_hide
  repeat' first
    | with_reducible assumption
    | intro _
    | extract_lets
    | with_reducible apply hide_ite
    | with_reducible apply hide_next
    | with_reducible apply Dev.errRelease_hide (land_trans rfl hm)
    | (split
       all_goals try (rename_i heq
                      have h2 := congrArg Prod.snd heq
                      have h1 := congrArg Prod.fst heq
                      dsimp only at h1 h2
                      subst h1 h2
                      clear heq))
    | with_reducible apply Dev.hide_upd_36 (land_trans rfl hm)
    | dsimp only [Lock.count]
    | dsimp +zetaDelta only

theorem execContextFetch_hide {m : Nat} (hm : 594510335184994304 &&& m = 594510335184994304) {x : Dev} (ring : RingIx) (valid : Bool) (s : State)
    (h : Dev.hide m s.dev = x) : Dev.hide m ((execContextFetch ring valid s).stateOr s).dev = x := by
  unfold execContextFetch
  apply State.on_hide
  repeat' first
    | with_reducible assumption
    | intro _
    | extract_lets
    | with_reducible apply hide_ite
    | with_reducible apply hide_next
    | with_reducible apply Dev.ringError_hide (land_trans rfl hm)
    | with_reducible apply Dev.ctxInsert_hide (land_trans rfl hm)
    | (split
       all_goals try (rename_i heq
                      have h2 := congrArg Prod.snd heq
                      have h1 := congrArg Prod.fst heq
                      dsimp only at h1 h2
                      subst h1 h2
                      clear heq))
    | dsimp only [Lock.count]
    | dsimp +zetaDelta only

theorem execChOn_hide {m : Nat} (hm : 714990722360544897 &&& m = 714990722360544897) {x : Dev} (d : Desc) (s : State)
    (h : Dev.hide m s.dev = x) : Dev.hide m ((execChOn d s).stateOr s).dev = x := by
  unfold execChOn
  apply State.on_hide
  repeat' first
    | with_reducible assumption
    | intro _
    | extract_lets
    | with_reducible apply hide_ite
    | with_reducible apply hide_next
    | with_reducible apply Dev.chOn_hide (land_trans rfl hm)
    | with_reducible apply Dev.chanCmd_hide (land_trans rfl hm)
    | (split
       all_goals try (rename_i heq
                      have h2 := congrArg Prod.snd heq
                      have h1 := congrArg Prod.fst heq
                      dsimp only at h1 h2
                      subst h1 h2
                      clear heq))
    | dsimp only [Lock.count]
    | dsimp +zetaDelta only

theorem execDescriptorFetch_hide {m : Nat} (hm : 576495936675512320 &&& m = 576495936675512320) {x : Dev} (opcode : BitVec 16) (d : Desc) (s : State)
    (h : Dev.hide m s.dev = x) : Dev.hide m ((execDescriptorFetch opcode d s).stateOr s).dev = x := by
  unfold execDescriptorFetch
  apply State.on_hide
  repeat' first
    | with_reducible assumption
    | intro _
    | extract_lets
    | with_reducible apply hide_ite
    | with_reducible apply hide_next
    | with_reducible apply Dev.writeback_hide (land_trans rfl hm)
    | with_reducible apply Dev.setRing_hide (land_trans rfl hm)
    | with_reducible apply Dev.ctxUse_hide (land_trans rfl hm)
    | (split
       all_goals try (rename_i heq
                      have h2 := congrArg Prod.snd heq
                      have h1 := congrArg Prod.fst heq
                      dsimp only at h1 h2
                      subst h1 h2
                      clear heq))
    | with_reducible apply Dev.hide_upd_45 (land_trans rfl hm)
    | dsimp only [Lock.count]
    | dsimp +zetaDelta only

theorem execLinkFaultExit_hide {m : Nat} (hm : 18014432869226544 &&& m = 18014432869226544) {x : Dev} (link : Link) (s : State)
    (h : Dev.hide m s.dev = x) : Dev.hide m ((execLinkFaultExit link s).stateOr s).dev = x := by
  unfold execLinkFaultExit
  apply State.on_hide
  repeat' first
    | with_reducible assumption
    | intro _
    | extract_lets
    | with_reducible apply hide_ite
    | with_reducible apply hide_next
    | with_reducible apply Dev.setCabLink_hide (land_trans rfl hm)
    | with_reducible apply Dev.unoccur_hide (land_trans rfl hm)
    | (split
       all_goals try (rename_i heq
                      have h2 := congrArg Prod.snd heq
                      have h1 := congrArg Prod.fst heq
                      dsimp only at h1 h2
                      subst h1 h2
                      clear heq))
    | dsimp only [Lock.count]
    | dsimp +zetaDelta only

theorem execShipEntry_hide {m : Nat} (hm : 18577348462907392 &&& m = 18577348462907392) {x : Dev} (s : State)
    (h : Dev.hide m s.dev = x) : Dev.hide m ((execShipEntry s).stateOr s).dev = x := by
  unfold execShipEntry
  apply State.on_hide
  repeat' first
    | with_reducible assumption
    | intro _
    | extract_lets
    | with_reducible apply hide_ite
    | with_reducible apply hide_next
    | with_reducible apply Dev.rvEvent_hide (land_trans rfl hm)
    | with_reducible apply Dev.modRv_hide (land_trans rfl hm)
    | (split
       all_goals try (rename_i heq
                      have h2 := congrArg Prod.snd heq
                      have h1 := congrArg Prod.fst heq
                      dsimp only at h1 h2
                      subst h1 h2
                      clear heq))
    | dsimp only [Lock.count]
    | dsimp +zetaDelta only

theorem execBasinFrozen_hide {m : Nat} (hm : 594756625789620224 &&& m = 594756625789620224) {x : Dev} (s : State)
    (h : Dev.hide m s.dev = x) : Dev.hide m ((execBasinFrozen s).stateOr s).dev = x := by
  unfold execBasinFrozen
  apply State.on_hide
  repeat' first
    | with_reducible assumption
    | intro _
    | extract_lets
    | with_reducible apply hide_ite
    | with_reducible apply hide_next
    | with_reducible apply Dev.bzWriteback_hide (land_trans rfl hm)
    | with_reducible apply Dev.bzEvent_hide (land_trans rfl hm)
    | with_reducible apply Dev.modBz_hide (land_trans rfl hm)
    | with_reducible apply Dev.forEach_hide (land_trans rfl hm)
    | with_reducible apply Dev.irq_hide (land_trans rfl hm)
    | (split
       all_goals try (rename_i heq
                      have h2 := congrArg Prod.snd heq
                      have h1 := congrArg Prod.fst heq
                      dsimp only at h1 h2
                      subst h1 h2
                      clear heq))
    | dsimp only [Lock.count]
    | dsimp +zetaDelta only

theorem execIdealDiodeOff_hide {m : Nat} (hm : 562949953421312 &&& m = 562949953421312) {x : Dev} (s : State)
    (h : Dev.hide m s.dev = x) : Dev.hide m ((execIdealDiodeOff s).stateOr s).dev = x := by
  unfold execIdealDiodeOff
  apply State.on_hide
  repeat' first
    | with_reducible assumption
    | intro _
    | extract_lets
    | with_reducible apply hide_ite
    | with_reducible apply hide_next
    | with_reducible apply Dev.modRv_hide (land_trans rfl hm)
    | (split
       all_goals try (rename_i heq
                      have h2 := congrArg Prod.snd heq
                      have h1 := congrArg Prod.fst heq
                      dsimp only at h1 h2
                      subst h1 h2
                      clear heq))
    | dsimp only [Lock.count]
    | dsimp +zetaDelta only

theorem execDevInfo_hide {m : Nat} (hm : 714990722360544897 &&& m = 714990722360544897) {x : Dev} (d : Desc) (s : State)
    (h : Dev.hide m s.dev = x) : Dev.hide m ((execDevInfo d s).stateOr s).dev = x := by
  unfold execDevInfo
  apply State.on_hide
  repeat' first
    | with_reducible assumption
    | intro _
    | extract_lets
    | with_reducible apply hide_ite
    | with_reducible apply hide_next
    | with_reducible apply Dev.cmd_hide (land_trans rfl hm)
    | with_reducible apply Dev.reply_hide (land_trans rfl hm)
    | with_reducible apply hide_foldl
    | with_reducible apply hide_foldl2
    | with_reducible apply hide_foldl3
    | with_reducible apply hide_foldl4
    | (split
       all_goals try (rename_i heq
                      have h2 := congrArg Prod.snd heq
                      have h1 := congrArg Prod.fst heq
                      dsimp only at h1 h2
                      subst h1 h2
                      clear heq))
    | dsimp only [Lock.count]
    | dsimp +zetaDelta only

theorem execOpResume_hide {m : Nat} (hm : 715061091104722561 &&& m = 715061091104722561) {x : Dev} (d : Desc) (s : State)
    (h : Dev.hide m s.dev = x) : Dev.hide m ((execOpResume d s).stateOr s).dev = x := by
  unfold execOpResume
  apply State.on_hide
  repeat' first
    | with_reducible assumption
    | intro _
    | extract_lets
    | with_reducible apply hide_ite
    | with_reducible apply hide_next
    | with_reducible apply Dev.opReply_hide (land_trans rfl hm)
    | with_reducible apply Dev.opGoto_hide (land_trans rfl hm)
    | with_reducible apply Dev.setOp_hide (land_trans rfl hm)
    | with_reducible apply Dev.opCmd_hide (land_trans rfl hm)
    | (split
       all_goals try (rename_i heq
                      have h2 := congrArg Prod.snd heq
                      have h1 := congrArg Prod.fst heq
                      dsimp only at h1 h2
                      subst h1 h2
                      clear heq))
    | dsimp only [Lock.count]
    | dsimp +zetaDelta only

theorem execHsRise_hide {m : Nat} (hm : 33554432 &&& m = 33554432) {x : Dev} (k : SliceIx) (s : State)
    (h : Dev.hide m s.dev = x) : Dev.hide m ((execHsRise k s).stateOr s).dev = x := by
  unfold execHsRise
  apply State.on_hide
  repeat' first
    | with_reducible assumption
    | intro _
    | extract_lets
    | with_reducible apply hide_ite
    | with_reducible apply hide_next
    | with_reducible apply Dev.setSlice_hide (land_trans rfl hm)
    | (split
       all_goals try (rename_i heq
                      have h2 := congrArg Prod.snd heq
                      have h1 := congrArg Prod.fst heq
                      dsimp only at h1 h2
                      subst h1 h2
                      clear heq))
    | dsimp only [Lock.count]
    | dsimp +zetaDelta only

theorem execIdleWordSend_hide {m : Nat} (hm : 576460752303423488 &&& m = 576460752303423488) {x : Dev} (g : RegionIx) (e : StraitEnd) (s : State)
    (h : Dev.hide m s.dev = x) : Dev.hide m ((execIdleWordSend g e s).stateOr s).dev = x := by
  unfold execIdleWordSend
  apply State.on_hide
  repeat' first
    | with_reducible assumption
    | intro _
    | extract_lets
    | with_reducible apply hide_ite
    | with_reducible apply hide_next
    | with_reducible apply Dev.emit_hide (land_trans rfl hm)
    | (split
       all_goals try (rename_i heq
                      have h2 := congrArg Prod.snd heq
                      have h1 := congrArg Prod.fst heq
                      dsimp only at h1 h2
                      subst h1 h2
                      clear heq))
    | dsimp only [Lock.count]
    | dsimp +zetaDelta only

end Sys2Proof.Machine
end

