-- ==== Sys2Proof/Laws/Sparse.lean ====
section
/-! SUPPORT. The laws of sparse maps: read after write, other keys untouched, and the canonical form kept. -/

namespace Sys2Proof.Machine

theorem Sparse.get_erase {α : Type} (d : Nat → α) (m : Sparse α) (k j : Nat) :
    Sparse.get d (Sparse.erase m k) j = if j = k then d j else Sparse.get d m j := by
  induction m with
  | nil => simp [Sparse.erase, Sparse.get]
  | cons p m ih =>
    obtain ⟨i, v⟩ := p
    by_cases h : i = k
    · subst h; by_cases hj : j = i
      · subst hj; simp [Sparse.erase, ih]
      · simp [Sparse.erase, ih, Sparse.get, hj, Ne.symm hj]
    · by_cases hj : j = k
      · subst hj; simp [Sparse.erase, Sparse.get, h, ih]
      · simp [Sparse.erase, Sparse.get, h, hj, ih]

theorem Sparse.get_insert {α : Type} (d : Nat → α) (m : Sparse α) (k : Nat) (v : α) (j : Nat)
    (h : ∀ p ∈ m, p.1 ≠ k) :
    Sparse.get d (Sparse.insert m k v) j = if j = k then v else Sparse.get d m j := by
  induction m with
  | nil => by_cases hj : j = k <;> simp [Sparse.insert, Sparse.get, hj, Ne.symm (a := j) (b := k)]
  | cons p m ih =>
    obtain ⟨i, w⟩ := p
    have hi : i ≠ k := h (i, w) (by simp)
    have ih := ih (fun q hq => h q (by simp [hq]))
    by_cases hk : k < i
    · by_cases hj : j = k
      · subst hj; simp [Sparse.insert, Sparse.get, hk]
      · simp [Sparse.insert, Sparse.get, hk, hj, Ne.symm hj]
    · by_cases hj : j = k
      · subst hj; simp [Sparse.insert, Sparse.get, hk, hi, ih]
      · simp [Sparse.insert, Sparse.get, hk, hj, ih]

theorem Sparse.erase_keys {α : Type} (m : Sparse α) (k : Nat) : ∀ p ∈ Sparse.erase m k, p.1 ≠ k ∧ p ∈ m := by
  induction m with
  | nil => simp [Sparse.erase]
  | cons q m ih =>
    obtain ⟨i, w⟩ := q
    intro p hp
    by_cases h : i = k
    · simp only [Sparse.erase, h, if_true] at hp
      exact ⟨(ih p hp).1, by simp [(ih p hp).2]⟩
    · simp only [Sparse.erase, h, if_false, List.mem_cons] at hp
      rcases hp with rfl | hp
      · exact ⟨h, by simp⟩
      · exact ⟨(ih p hp).1, by simp [(ih p hp).2]⟩

/-- Reading any key after a write. -/
theorem Sparse.get_set {α : Type} [DecidableEq α] (d : Nat → α) (m : Sparse α) (k : Nat) (v : α) (j : Nat) :
    Sparse.get d (Sparse.set d m k v) j = if j = k then v else Sparse.get d m j := by
  unfold Sparse.set
  split
  · rename_i h; rw [Sparse.get_erase]; split <;> simp_all
  · rw [Sparse.get_insert _ _ _ _ _ (fun p hp => (Sparse.erase_keys m k p hp).1), Sparse.get_erase]
    split <;> simp_all

@[simp] theorem Sparse.get_set_same {α : Type} [DecidableEq α] (d : Nat → α) (m : Sparse α) (k : Nat) (v : α) :
    Sparse.get d (Sparse.set d m k v) k = v := by simp [Sparse.get_set]

theorem Sparse.get_set_ne {α : Type} [DecidableEq α] (d : Nat → α) (m : Sparse α) (k : Nat) (v : α) (j : Nat)
    (h : j ≠ k) : Sparse.get d (Sparse.set d m k v) j = Sparse.get d m j := by simp [Sparse.get_set, h]

/-- The canonical form as two conditions: keys strictly rising, no listed default. -/
theorem Sparse.wf_iff {α : Type} [DecidableEq α] (d : Nat → α) (m : Sparse α) :
    Sparse.wf d m = true ↔ (m.map Prod.fst).Pairwise (· < ·) ∧ ∀ p ∈ m, p.2 ≠ d p.1 := by
  induction m with
  | nil => simp [Sparse.wf]
  | cons p m ih =>
    obtain ⟨k, v⟩ := p
    cases m with
    | nil => simp [Sparse.wf]
    | cons q m =>
      obtain ⟨j, w⟩ := q
      simp only [Sparse.wf, Bool.and_eq_true, decide_eq_true_eq, ih]
      constructor
      · rintro ⟨⟨hv, hkj⟩, hp, hd⟩
        refine ⟨?_, ?_⟩
        · rw [List.map_cons, List.pairwise_cons]
          refine ⟨?_, hp⟩
          intro x hx
          rw [List.map_cons] at hx hp
          rcases List.mem_cons.1 hx with rfl | hx
          · exact hkj
          · exact lt_trans hkj ((List.pairwise_cons.1 hp).1 x hx)
        · intro p hp'
          rcases List.mem_cons.1 hp' with rfl | hp'
          · exact hv
          · exact hd p hp'
      · rintro ⟨hp, hd⟩
        rw [List.map_cons, List.pairwise_cons] at hp
        exact ⟨⟨hd (k, v) (by simp), hp.1 j (by simp)⟩, hp.2, fun p hp' => hd p (List.mem_cons_of_mem _ hp')⟩

theorem Sparse.erase_eq_filter {α : Type} (m : Sparse α) (k : Nat) : Sparse.erase m k = m.filter (fun p => decide (p.1 ≠ k)) := by
  induction m with
  | nil => rfl
  | cons p m ih =>
    obtain ⟨i, w⟩ := p
    by_cases h : i = k <;> simp [Sparse.erase, h, ih]

/-- Dropping entries keeps the canonical form. -/
theorem Sparse.wf_filter {α : Type} [DecidableEq α] (d : Nat → α) (m : Sparse α) (f : Nat × α → Bool)
    (h : Sparse.wf d m = true) : Sparse.wf d (m.filter f) = true := by
  rw [Sparse.wf_iff] at h ⊢
  exact ⟨h.1.sublist ((List.filter_sublist (l := m) (p := f)).map _), fun p hp => h.2 p (List.mem_filter.1 hp).1⟩

theorem Sparse.insert_mem {α : Type} (m : Sparse α) (k : Nat) (v : α) : ∀ p ∈ Sparse.insert m k v, p = (k, v) ∨ p ∈ m := by
  induction m with
  | nil => simp [Sparse.insert]
  | cons q m ih =>
    obtain ⟨i, w⟩ := q
    intro p hp
    by_cases h : k < i
    · simpa [Sparse.insert, h] using hp
    · simp only [Sparse.insert, h, if_false, List.mem_cons] at hp
      rcases hp with rfl | hp
      · simp
      · rcases ih p hp with rfl | hp <;> simp [*]

theorem Sparse.insert_sorted {α : Type} (m : Sparse α) (k : Nat) (v : α) (hs : (m.map Prod.fst).Pairwise (· < ·))
    (hk : ∀ p ∈ m, p.1 ≠ k) : ((Sparse.insert m k v).map Prod.fst).Pairwise (· < ·) := by
  induction m with
  | nil => simp [Sparse.insert]
  | cons q m ih =>
    obtain ⟨i, w⟩ := q
    rw [List.map_cons, List.pairwise_cons] at hs
    have ih := ih hs.2 (fun p hp => hk p (by simp [hp]))
    by_cases h : k < i
    · simp only [Sparse.insert, h, if_true, List.map_cons, List.pairwise_cons]
      refine ⟨?_, ?_, hs.2⟩
      · intro x hx
        rcases List.mem_cons.1 hx with rfl | hx
        · exact h
        · exact lt_trans h (hs.1 x hx)
      · exact hs.1
    · have hi : i < k := lt_of_le_of_ne (not_lt.1 h) (hk (i, w) (by simp))
      simp only [Sparse.insert, h, if_false, List.map_cons, List.pairwise_cons]
      refine ⟨?_, ih⟩
      intro x hx
      obtain ⟨p, hp, rfl⟩ := List.mem_map.1 hx
      rcases Sparse.insert_mem m k v p hp with rfl | hp
      · exact hi
      · exact hs.1 _ (List.mem_map.2 ⟨p, hp, rfl⟩)

/-- A write keeps the canonical form. -/
theorem Sparse.wf_set {α : Type} [DecidableEq α] (d : Nat → α) (m : Sparse α) (k : Nat) (v : α)
    (h : Sparse.wf d m = true) : Sparse.wf d (Sparse.set d m k v) = true := by
  have he : Sparse.wf d (Sparse.erase m k) = true := by
    rw [Sparse.erase_eq_filter]; exact Sparse.wf_filter d m _ h
  unfold Sparse.set
  split
  · exact he
  · rename_i hv
    rw [Sparse.wf_iff] at he ⊢
    refine ⟨Sparse.insert_sorted _ _ _ he.1 (fun p hp => (Sparse.erase_keys m k p hp).1), ?_⟩
    intro p hp
    rcases Sparse.insert_mem _ _ _ p hp with rfl | hp
    · exact hv
    · exact he.2 p hp

end Sys2Proof.Machine
end

