-- ==== Sys2Proof/Laws/Calm.lean ====
section
/-! SUPPORT. What the shared consequences of a command (an event of a fault source, a change of a cell's state, a trip, a
policy) leave alone inside the parts they touch: everything of a region but what it holds for its strait and the origin of its
broadcast, everything of a barge but its pending interrupts, everything of a block but a running self-test, and everything of
a conversion unit but its trip marks. -/

set_option linter.unreachableTactic false
set_option linter.unusedTactic false

namespace Sys2Proof.Machine

/-- A region without its event hold queue, held messages, broadcast origin and EXT_SEEN. -/
def Region.calm (r : Region) : Region :=
  { r with evHold := [], evHoldLost := 0, heldMsgs := [], bcastCell := 0, bcastCause := 0, bcastTime := 0, extSeen := 0 }
/-- A barge without its pending interrupts. -/
def Barge.calm (b : Barge) : Barge := { b with pend := 0 }
/-- A block without its running VIN comparator test. -/
def Block.calm (b : Block) : Block := { b with vtestRun := false }
/-- A conversion unit without its trip marks. -/
def Conv.calm (k : Conv) : Conv := { k with trip := 0 }

/-- What `Dev.calm` observes. -/
abbrev Calm := (Nat → Region) × (Nat → Barge) × (Nat → Block) × (Nat → Conv)

/-- The observation. -/
def Dev.calm (s : Dev) : Calm :=
  (fun g => (s.region g).calm, fun e => (s.barge e).calm, fun b => (s.block b).calm, fun b => (s.conv b).calm)

theorem Dev.calm_region {s t : Dev} (h : t.calm = s.calm) (g : Nat) : (t.region g).calm = (s.region g).calm :=
  congrFun (congrArg Prod.fst h) g
theorem Dev.calm_barge {s t : Dev} (h : t.calm = s.calm) (e : Nat) : (t.barge e).calm = (s.barge e).calm :=
  congrFun (congrArg (fun p => p.2.1) h) e
theorem Dev.calm_block {s t : Dev} (h : t.calm = s.calm) (b : Nat) : (t.block b).calm = (s.block b).calm :=
  congrFun (congrArg (fun p => p.2.2.1) h) b
theorem Dev.calm_conv {s t : Dev} (h : t.calm = s.calm) (b : Nat) : (t.conv b).calm = (s.conv b).calm :=
  congrFun (congrArg (fun p => p.2.2.2) h) b

theorem calm_get_modify {α β : Type} [DecidableEq α] (d : Nat → α) (m : Sparse α) (k j : Nat) (v : α) (c : α → β)
    (hv : c v = c (Sparse.get d m k)) : c (Sparse.get d (Sparse.set d m k v) j) = c (Sparse.get d m j) := by
  by_cases h : j = k
  · subst h; rw [Sparse.get_set_same]; exact hv
  · rw [Sparse.get_set_ne _ _ _ _ _ h]

theorem Dev.modRegion_calm {x : Calm} (s : Dev) (g : Nat) (f : Region → Region) (hf : ∀ r, (f r).calm = r.calm)
    (h : Dev.calm s = x) : Dev.calm (Dev.modRegion s g f) = x := by
  rw [← h]
  exact Prod.ext (funext fun j => calm_get_modify _ _ _ _ _ Region.calm (hf _)) rfl
theorem Dev.modBarge_calm {x : Calm} (s : Dev) (g : Nat) (f : Barge → Barge) (hf : ∀ r, (f r).calm = r.calm)
    (h : Dev.calm s = x) : Dev.calm (Dev.modBarge s g f) = x := by
  rw [← h]
  exact Prod.ext rfl (Prod.ext (funext fun j => calm_get_modify _ _ _ _ _ Barge.calm (hf _)) rfl)
theorem Dev.modBlock_calm {x : Calm} (s : Dev) (g : Nat) (f : Block → Block) (hf : ∀ r, (f r).calm = r.calm)
    (h : Dev.calm s = x) : Dev.calm (Dev.modBlock s g f) = x := by
  rw [← h]
  exact Prod.ext rfl (Prod.ext rfl (Prod.ext (funext fun j => calm_get_modify _ _ _ _ _ Block.calm (hf _)) rfl))
theorem Dev.modConv_calm {x : Calm} (s : Dev) (g : Nat) (f : Conv → Conv) (hf : ∀ r, (f r).calm = r.calm)
    (h : Dev.calm s = x) : Dev.calm (Dev.modConv s g f) = x := by
  rw [← h]
  exact Prod.ext rfl (Prod.ext rfl (Prod.ext rfl (funext fun j => calm_get_modify _ _ _ _ _ Conv.calm (hf _))))

theorem calm_ite {x : Calm} {a b : Dev} {c : Prop} [Decidable c] (ha : Dev.calm a = x) (hb : Dev.calm b = x) :
    Dev.calm (if c then a else b) = x := by split <;> assumption
theorem calm_foldl {x : Calm} {α : Type} {f : Dev → α → Dev} {l : List α} {s : Dev}
    (hf : ∀ t a y, Dev.calm t = y → Dev.calm (f t a) = y) (h : Dev.calm s = x) : Dev.calm (l.foldl f s) = x := by
  induction l generalizing s with
  | nil => exact h
  | cons a l ih => exact ih (hf s a x h)

theorem Dev.calm_upd_cells {x : Calm} {s : Dev} {v0 : Sparse Cell} (h : Dev.calm s = x) :
    Dev.calm { s with cells := v0 } = x := h
theorem Dev.calm_upd_colls {x : Calm} {s : Dev} {v0 : Sparse Coll} (h : Dev.calm s = x) :
    Dev.calm { s with colls := v0 } = x := h
theorem Dev.calm_upd_complq {x : Calm} {s : Dev} {v0 : List Completion} (h : Dev.calm s = x) :
    Dev.calm { s with complq := v0 } = x := h
theorem Dev.calm_upd_err {x : Calm} {s : Dev} {v0 : ErrN} (h : Dev.calm s = x) :
    Dev.calm { s with err := v0 } = x := h
theorem Dev.calm_upd_evq {x : Calm} {s : Dev} {v0 : List Event} (h : Dev.calm s = x) :
    Dev.calm { s with evq := v0 } = x := h
theorem Dev.calm_upd_freeCount {x : Calm} {s : Dev} {v0 : Nat} (h : Dev.calm s = x) :
    Dev.calm { s with freeCount := v0 } = x := h
theorem Dev.calm_upd_laneWaits {x : Calm} {s : Dev} {v0 : List LaneWait} (h : Dev.calm s = x) :
    Dev.calm { s with laneWaits := v0 } = x := h
theorem Dev.calm_upd_lanes {x : Calm} {s : Dev} {v0 : Sparse Lane} (h : Dev.calm s = x) :
    Dev.calm { s with lanes := v0 } = x := h
theorem Dev.calm_upd_out {x : Calm} {s : Dev} {v0 : List Out} (h : Dev.calm s = x) :
    Dev.calm { s with out := v0 } = x := h
theorem Dev.calm_upd_prof_profPend {x : Calm} {s : Dev} {v0 : Sparse Word} {v1 : Sparse (Word × Word)} (h : Dev.calm s = x) :
    Dev.calm { s with prof := v0, profPend := v1 } = x := h
theorem Dev.calm_upd_regs {x : Calm} {s : Dev} {v0 : Sparse Word} (h : Dev.calm s = x) :
    Dev.calm { s with regs := v0 } = x := h
theorem Dev.calm_upd_regsPend {x : Calm} {s : Dev} {v0 : Sparse (Word × Word)} (h : Dev.calm s = x) :
    Dev.calm { s with regsPend := v0 } = x := h
theorem Dev.calm_upd_reports {x : Calm} {s : Dev} {v0 : List Report} (h : Dev.calm s = x) :
    Dev.calm { s with reports := v0 } = x := h
theorem Dev.calm_upd_slMsgs {x : Calm} {s : Dev} {v0 : List SlMsg} (h : Dev.calm s = x) :
    Dev.calm { s with slMsgs := v0 } = x := h
theorem Dev.calm_upd_slices {x : Calm} {s : Dev} {v0 : Sparse Slice} (h : Dev.calm s = x) :
    Dev.calm { s with slices := v0 } = x := h
theorem Dev.calm_upd_sluice_grants {x : Calm} {s : Dev} {v0 : Sluice} {v1 : List Grant} (h : Dev.calm s = x) :
    Dev.calm { s with sluice := v0, grants := v1 } = x := h
theorem Dev.calm_upd_sluice_slMsgs_grants {x : Calm} {s : Dev} {v0 : Sluice} {v1 : List SlMsg} {v2 : List Grant} (h : Dev.calm s = x) :
    Dev.calm { s with sluice := v0, slMsgs := v1, grants := v2 } = x := h
theorem Dev.calm_upd_tripSeq {x : Calm} {s : Dev} {v0 : Nat} (h : Dev.calm s = x) :
    Dev.calm { s with tripSeq := v0 } = x := h

theorem Dev.setColl_calm {x : Calm} (s : Dev) (k : Nat) (v : Coll)
    (h : Dev.calm s = x) : Dev.calm (Dev.setColl s k v) = x := by
  unfold Dev.setColl
  repeat' first
    | with_reducible assumption
    | intro _
    | extract_lets
    | with_reducible apply calm_ite
    | (split
       all_goals try (rename_i heq
                      have h2 := congrArg Prod.snd heq
                      have h1 := congrArg Prod.fst heq
                      dsimp only at h1 h2
                      subst h1 h2
                      clear heq))
    | with_reducible apply Dev.calm_upd_colls
    | dsimp +zetaDelta only

theorem Dev.noteEvent_calm {x : Calm} (s : Dev) (k : Nat) (src : Nat) (n : Nat) (inj : Bool)
    (h : Dev.calm s = x) : Dev.calm (Dev.noteEvent s k src n inj) = x := by
  unfold Dev.noteEvent
  repeat' first
    | with_reducible assumption
    | intro _
    | extract_lets
    | with_reducible apply calm_ite
    | with_reducible apply Dev.setColl_calm
    | (split
       all_goals try (rename_i heq
                      have h2 := congrArg Prod.snd heq
                      have h1 := congrArg Prod.fst heq
                      dsimp only at h1 h2
                      subst h1 h2
                      clear heq))
    | dsimp +zetaDelta only

theorem Dev.modColl_calm {x : Calm} (s : Dev) (k : Nat) (f : Coll → Coll)
    (h : Dev.calm s = x) : Dev.calm (Dev.modColl s k f) = x := by
  unfold Dev.modColl
  repeat' first
    | with_reducible assumption
    | intro _
    | extract_lets
    | with_reducible apply calm_ite
    | with_reducible apply Dev.setColl_calm
    | (split
       all_goals try (rename_i heq
                      have h2 := congrArg Prod.snd heq
                      have h1 := congrArg Prod.fst heq
                      dsimp only at h1 h2
                      subst h1 h2
                      clear heq))
    | dsimp +zetaDelta only

theorem Dev.raise_calm {x : Calm} (s : Dev) (e : Event)
    (h : Dev.calm s = x) : Dev.calm (Dev.raise s e) = x := by
  unfold Dev.raise
  repeat' first
    | with_reducible assumption
    | intro _
    | extract_lets
    | with_reducible apply calm_ite
    | (split
       all_goals try (rename_i heq
                      have h2 := congrArg Prod.snd heq
                      have h1 := congrArg Prod.fst heq
                      dsimp only at h1 h2
                      subst h1 h2
                      clear heq))
    | with_reducible apply Dev.calm_upd_evq
    | dsimp +zetaDelta only

theorem Dev.raiseIsland_calm {x : Calm} (s : Dev) (g : Nat) (hold : Bool) (e : Event)
    (h : Dev.calm s = x) : Dev.calm (Dev.raiseIsland s g hold e) = x := by
  unfold Dev.raiseIsland
  repeat' first
    | with_reducible assumption
    | intro _
    | extract_lets
    | with_reducible apply calm_ite
    | (with_reducible apply Dev.modRegion_calm
       · intro r; first | rfl | (split <;> rfl))
    | with_reducible apply Dev.raise_calm
    | (split
       all_goals try (rename_i heq
                      have h2 := congrArg Prod.snd heq
                      have h1 := congrArg Prod.fst heq
                      dsimp only at h1 h2
                      subst h1 h2
                      clear heq))
    | dsimp +zetaDelta only

theorem Dev.collEvent_calm {x : Calm} (s : Dev) (k : Nat) (code : Nat) (flag : Bool) (payload : List Word)
    (h : Dev.calm s = x) : Dev.calm (Dev.collEvent s k code flag payload) = x := by
  unfold Dev.collEvent
  repeat' first
    | with_reducible assumption
    | intro _
    | extract_lets
    | with_reducible apply calm_ite
    | with_reducible apply Dev.raiseIsland_calm
    | with_reducible apply Dev.raise_calm
    | (split
       all_goals try (rename_i heq
                      have h2 := congrArg Prod.snd heq
                      have h1 := congrArg Prod.fst heq
                      dsimp only at h1 h2
                      subst h1 h2
                      clear heq))
    | dsimp +zetaDelta only

theorem Dev.irq_calm {x : Calm} (s : Dev) (e : Nat) (n : Nat)
    (h : Dev.calm s = x) : Dev.calm (Dev.irq s e n) = x := by
  unfold Dev.irq
  repeat' first
    | with_reducible assumption
    | intro _
    | extract_lets
    | with_reducible apply calm_ite
    | (with_reducible apply Dev.modBarge_calm
       · intro r; first | rfl | (split <;> rfl))
    | (split
       all_goals try (rename_i heq
                      have h2 := congrArg Prod.snd heq
                      have h1 := congrArg Prod.fst heq
                      dsimp only at h1 h2
                      subst h1 h2
                      clear heq))
    | dsimp +zetaDelta only

theorem Dev.forEach_calm {x : Calm} {α : Type} (l : List α) (f : Dev → α → Dev) (s : Dev) (h_f : ∀ u0 u1 y, Dev.calm u0 = y → Dev.calm (f u0 u1) = y)
    (h : Dev.calm s = x) : Dev.calm (Dev.forEach l f s) = x := by
  unfold Dev.forEach
  exact calm_foldl h_f h

theorem Dev.irqAll_calm {x : Calm} (s : Dev) (n : Nat)
    (h : Dev.calm s = x) : Dev.calm (Dev.irqAll s n) = x := by
  unfold Dev.irqAll
  repeat' first
    | with_reducible assumption
    | intro _
    | extract_lets
    | with_reducible apply calm_ite
    | with_reducible apply Dev.forEach_calm
    | with_reducible apply Dev.irq_calm
    | (split
       all_goals try (rename_i heq
                      have h2 := congrArg Prod.snd heq
                      have h1 := congrArg Prod.fst heq
                      dsimp only at h1 h2
                      subst h1 h2
                      clear heq))
    | dsimp +zetaDelta only

theorem Dev.irqRegion_calm {x : Calm} (s : Dev) (g : Nat) (n : Nat)
    (h : Dev.calm s = x) : Dev.calm (Dev.irqRegion s g n) = x := by
  unfold Dev.irqRegion
  repeat' first
    | with_reducible assumption
    | intro _
    | extract_lets
    | with_reducible apply calm_ite
    | with_reducible apply Dev.forEach_calm
    | with_reducible apply Dev.irq_calm
    | (split
       all_goals try (rename_i heq
                      have h2 := congrArg Prod.snd heq
                      have h1 := congrArg Prod.fst heq
                      dsimp only at h1 h2
                      subst h1 h2
                      clear heq))
    | dsimp +zetaDelta only

theorem Dev.faultEvent_calm {x : Calm} (s : Dev) (k : Nat) (flag : Bool) (e : HistEntry)
    (h : Dev.calm s = x) : Dev.calm (Dev.faultEvent s k flag e) = x := by
  unfold Dev.faultEvent
  repeat' first
    | with_reducible assumption
    | intro _
    | extract_lets
    | with_reducible apply calm_ite
    | with_reducible apply Dev.irqRegion_calm
    | with_reducible apply Dev.irqAll_calm
    | with_reducible apply Dev.collEvent_calm
    | (split
       all_goals try (rename_i heq
                      have h2 := congrArg Prod.snd heq
                      have h1 := congrArg Prod.fst heq
                      dsimp only at h1 h2
                      subst h1 h2
                      clear heq))
    | dsimp +zetaDelta only

theorem Dev.history_calm {x : Calm} (s : Dev) (k : Nat) (e : HistEntry)
    (h : Dev.calm s = x) : Dev.calm (Dev.history s k e) = x := by
  unfold Dev.history
  repeat' first
    | with_reducible assumption
    | intro _
    | extract_lets
    | with_reducible apply calm_ite
    | with_reducible apply Dev.collEvent_calm
    | with_reducible apply Dev.setColl_calm
    | (split
       all_goals try (rename_i heq
                      have h2 := congrArg Prod.snd heq
                      have h1 := congrArg Prod.fst heq
                      dsimp only at h1 h2
                      subst h1 h2
                      clear heq))
    | dsimp +zetaDelta only

theorem Dev.unoccur_calm {x : Calm} (s : Dev) (k : Nat) (src : Nat)
    (h : Dev.calm s = x) : Dev.calm (Dev.unoccur s k src) = x := by
  unfold Dev.unoccur
  repeat' first
    | with_reducible assumption
    | intro _
    | extract_lets
    | with_reducible apply calm_ite
    | with_reducible apply Dev.history_calm
    | with_reducible apply Dev.faultEvent_calm
    | with_reducible apply Dev.setColl_calm
    | (split
       all_goals try (rename_i heq
                      have h2 := congrArg Prod.snd heq
                      have h1 := congrArg Prod.fst heq
                      dsimp only at h1 h2
                      subst h1 h2
                      clear heq))
    | dsimp +zetaDelta only

theorem Dev.latchedCheck_calm {x : Calm} (s : Dev) (b : Nat)
    (h : Dev.calm s = x) : Dev.calm (Dev.latchedCheck s b) = x := by
  unfold Dev.latchedCheck
  repeat' first
    | with_reducible assumption
    | intro _
    | extract_lets
    | with_reducible apply calm_ite
    | with_reducible apply Dev.unoccur_calm
    | (split
       all_goals try (rename_i heq
                      have h2 := congrArg Prod.snd heq
                      have h1 := congrArg Prod.fst heq
                      dsimp only at h1 h2
                      subst h1 h2
                      clear heq))
    | dsimp +zetaDelta only

theorem Dev.cellEvent_calm {x : Calm} (s : Dev) (c : Nat) (maskBit : Nat) (code : Nat) (flag : Bool) (payload : List Word)
    (h : Dev.calm s = x) : Dev.calm (Dev.cellEvent s c maskBit code flag payload) = x := by
  unfold Dev.cellEvent
  repeat' first
    | with_reducible assumption
    | intro _
    | extract_lets
    | with_reducible apply calm_ite
    | with_reducible apply Dev.raiseIsland_calm
    | (split
       all_goals try (rename_i heq
                      have h2 := congrArg Prod.snd heq
                      have h1 := congrArg Prod.fst heq
                      dsimp only at h1 h2
                      subst h1 h2
                      clear heq))
    | dsimp +zetaDelta only

theorem Dev.setLane_calm {x : Calm} (s : Dev) (c : Nat) (v : Lane)
    (h : Dev.calm s = x) : Dev.calm (Dev.setLane s c v) = x := by
  unfold Dev.setLane
  repeat' first
    | with_reducible assumption
    | intro _
    | extract_lets
    | with_reducible apply calm_ite
    | (split
       all_goals try (rename_i heq
                      have h2 := congrArg Prod.snd heq
                      have h1 := congrArg Prod.fst heq
                      dsimp only at h1 h2
                      subst h1 h2
                      clear heq))
    | with_reducible apply Dev.calm_upd_lanes
    | dsimp +zetaDelta only

theorem Dev.modLane_calm {x : Calm} (s : Dev) (c : Nat) (f : Lane → Lane)
    (h : Dev.calm s = x) : Dev.calm (Dev.modLane s c f) = x := by
  unfold Dev.modLane
  repeat' first
    | with_reducible assumption
    | intro _
    | extract_lets
    | with_reducible apply calm_ite
    | with_reducible apply Dev.setLane_calm
    | (split
       all_goals try (rename_i heq
                      have h2 := congrArg Prod.snd heq
                      have h1 := congrArg Prod.fst heq
                      dsimp only at h1 h2
                      subst h1 h2
                      clear heq))
    | dsimp +zetaDelta only

theorem Dev.abortWindow_calm {x : Calm} (s : Dev) (c : Nat) (clocks : Nat) (again : Bool)
    (h : Dev.calm s = x) : Dev.calm (Dev.abortWindow s c clocks again) = x := by
  unfold Dev.abortWindow
  repeat' first
    | with_reducible assumption
    | intro _
    | extract_lets
    | with_reducible apply calm_ite
    | with_reducible apply Dev.modLane_calm
    | (split
       all_goals try (rename_i heq
                      have h2 := congrArg Prod.snd heq
                      have h1 := congrArg Prod.fst heq
                      dsimp only at h1 h2
                      subst h1 h2
                      clear heq))
    | dsimp +zetaDelta only

theorem Dev.startLane_calm {x : Calm} (s : Dev) (c : Nat)
    (h : Dev.calm s = x) : Dev.calm (Dev.startLane s c) = x := by
  unfold Dev.startLane
  repeat' first
    | with_reducible assumption
    | intro _
    | extract_lets
    | with_reducible apply calm_ite
    | with_reducible apply Dev.abortWindow_calm
    | with_reducible apply Dev.modLane_calm
    | (split
       all_goals try (rename_i heq
                      have h2 := congrArg Prod.snd heq
                      have h1 := congrArg Prod.fst heq
                      dsimp only at h1 h2
                      subst h1 h2
                      clear heq))
    | dsimp +zetaDelta only

theorem Dev.stopLane_calm {x : Calm} (s : Dev) (c : Nat) (clocks : Nat)
    (h : Dev.calm s = x) : Dev.calm (Dev.stopLane s c clocks) = x := by
  unfold Dev.stopLane
  repeat' first
    | with_reducible assumption
    | intro _
    | extract_lets
    | with_reducible apply calm_ite
    | with_reducible apply Dev.abortWindow_calm
    | with_reducible apply Dev.modLane_calm
    | (split
       all_goals try (rename_i heq
                      have h2 := congrArg Prod.snd heq
                      have h1 := congrArg Prod.fst heq
                      dsimp only at h1 h2
                      subst h1 h2
                      clear heq))
    | dsimp +zetaDelta only

theorem Dev.gateLane_calm {x : Calm} (s : Dev) (c : Nat) (clocks : Nat)
    (h : Dev.calm s = x) : Dev.calm (Dev.gateLane s c clocks) = x := by
  unfold Dev.gateLane
  repeat' first
    | with_reducible assumption
    | intro _
    | extract_lets
    | with_reducible apply calm_ite
    | with_reducible apply Dev.stopLane_calm
    | with_reducible apply Dev.startLane_calm
    | (split
       all_goals try (rename_i heq
                      have h2 := congrArg Prod.snd heq
                      have h1 := congrArg Prod.fst heq
                      dsimp only at h1 h2
                      subst h1 h2
                      clear heq))
    | dsimp +zetaDelta only

theorem Dev.drawNat_calm {x : Calm} (s : Dev)
    (h : Dev.calm s = x) : Dev.calm (Dev.drawNat s).2 = x := by
  unfold Dev.drawNat
  repeat' first
    | with_reducible assumption
    | intro _
    | extract_lets
    | with_reducible apply calm_ite
    | (split
       all_goals try (rename_i heq
                      have h2 := congrArg Prod.snd heq
                      have h1 := congrArg Prod.fst heq
                      dsimp only at h1 h2
                      subst h1 h2
                      clear heq))
    | with_reducible apply Dev.calm_upd_freeCount
    | dsimp +zetaDelta only

theorem Dev.setCell_calm {x : Calm} (s : Dev) (c : Nat) (v : Cell)
    (h : Dev.calm s = x) : Dev.calm (Dev.setCell s c v) = x := by
  unfold Dev.setCell
  repeat' first
    | with_reducible assumption
    | intro _
    | extract_lets
    | with_reducible apply calm_ite
    | (split
       all_goals try (rename_i heq
                      have h2 := congrArg Prod.snd heq
                      have h1 := congrArg Prod.fst heq
                      dsimp only at h1 h2
                      subst h1 h2
                      clear heq))
    | with_reducible apply Dev.calm_upd_cells
    | dsimp +zetaDelta only

theorem Dev.modCell_calm {x : Calm} (s : Dev) (c : Nat) (f : Cell → Cell)
    (h : Dev.calm s = x) : Dev.calm (Dev.modCell s c f) = x := by
  unfold Dev.modCell
  repeat' first
    | with_reducible assumption
    | intro _
    | extract_lets
    | with_reducible apply calm_ite
    | with_reducible apply Dev.setCell_calm
    | (split
       all_goals try (rename_i heq
                      have h2 := congrArg Prod.snd heq
                      have h1 := congrArg Prod.fst heq
                      dsimp only at h1 h2
                      subst h1 h2
                      clear heq))
    | dsimp +zetaDelta only

theorem Dev.startTests_calm {x : Calm} (s : Dev) (c : Nat)
    (h : Dev.calm s = x) : Dev.calm (Dev.startTests s c) = x := by
  unfold Dev.startTests
  repeat' first
    | with_reducible assumption
    | intro _
    | extract_lets
    | with_reducible apply calm_ite
    | with_reducible apply Dev.modCell_calm
    | (with_reducible apply Dev.modBlock_calm
       · intro r; first | rfl | (split <;> rfl))
    | (split
       all_goals try (rename_i heq
                      have h2 := congrArg Prod.snd heq
                      have h1 := congrArg Prod.fst heq
                      dsimp only at h1 h2
                      subst h1 h2
                      clear heq))
    | dsimp +zetaDelta only

theorem Dev.holdExit_calm {x : Calm} (s : Dev) (c : Nat)
    (h : Dev.calm s = x) : Dev.calm (Dev.holdExit s c) = x := by
  unfold Dev.holdExit
  repeat' first
    | with_reducible assumption
    | intro _
    | extract_lets
    | with_reducible apply calm_ite
    | with_reducible apply Dev.modCell_calm
    | (split
       all_goals try (rename_i heq
                      have h2 := congrArg Prod.snd heq
                      have h1 := congrArg Prod.fst heq
                      dsimp only at h1 h2
                      subst h1 h2
                      clear heq))
    | dsimp +zetaDelta only

theorem Dev.emit_calm {x : Calm} (s : Dev) (o : Out)
    (h : Dev.calm s = x) : Dev.calm (Dev.emit s o) = x := by
  unfold Dev.emit
  repeat' first
    | with_reducible assumption
    | intro _
    | extract_lets
    | with_reducible apply calm_ite
    | (split
       all_goals try (rename_i heq
                      have h2 := congrArg Prod.snd heq
                      have h1 := congrArg Prod.fst heq
                      dsimp only at h1 h2
                      subst h1 h2
                      clear heq))
    | with_reducible apply Dev.calm_upd_out
    | dsimp +zetaDelta only

theorem Dev.sendTrip_calm {x : Calm} (s : Dev) (g : Nat) (bit : Bool)
    (h : Dev.calm s = x) : Dev.calm (Dev.sendTrip s g bit) = x := by
  unfold Dev.sendTrip
  repeat' first
    | with_reducible assumption
    | intro _
    | extract_lets
    | with_reducible apply calm_ite
    | with_reducible apply Dev.emit_calm
    | (split
       all_goals try (rename_i heq
                      have h2 := congrArg Prod.snd heq
                      have h1 := congrArg Prod.fst heq
                      dsimp only at h1 h2
                      subst h1 h2
                      clear heq))
    | with_reducible apply Dev.calm_upd_tripSeq
    | dsimp +zetaDelta only

theorem Dev.withBcast_calm {x : Calm} (s : Dev) (g : Nat) (f : Dev → Dev) (h_f : ∀ u0 y, Dev.calm u0 = y → Dev.calm (f u0) = y)
    (h : Dev.calm s = x) : Dev.calm (Dev.withBcast s g f) = x := by
  unfold Dev.withBcast
  repeat' first
    | with_reducible assumption
    | intro _
    | extract_lets
    | with_reducible apply calm_ite
    | with_reducible apply Dev.sendTrip_calm
    | with_reducible apply h_f
    | (split
       all_goals try (rename_i heq
                      have h2 := congrArg Prod.snd heq
                      have h1 := congrArg Prod.fst heq
                      dsimp only at h1 h2
                      subst h1 h2
                      clear heq))
    | dsimp +zetaDelta only

theorem Dev.complete_calm {x : Calm} (s : Dev) (k : Completion)
    (h : Dev.calm s = x) : Dev.calm (Dev.complete s k) = x := by
  unfold Dev.complete
  repeat' first
    | with_reducible assumption
    | intro _
    | extract_lets
    | with_reducible apply calm_ite
    | (split
       all_goals try (rename_i heq
                      have h2 := congrArg Prod.snd heq
                      have h1 := congrArg Prod.fst heq
                      dsimp only at h1 h2
                      subst h1 h2
                      clear heq))
    | with_reducible apply Dev.calm_upd_complq
    | dsimp +zetaDelta only

theorem Dev.decideHeld_calm {x : Calm} (s : Dev) (c : Nat) (bad : Bool) (cmd : Nat × Nat)
    (h : Dev.calm s = x) : Dev.calm (Dev.decideHeld s c bad cmd) = x := by
  unfold Dev.decideHeld
  repeat' first
    | with_reducible assumption
    | intro _
    | extract_lets
    | with_reducible apply calm_ite
    | with_reducible apply Dev.complete_calm
    | (split
       all_goals try (rename_i heq
                      have h2 := congrArg Prod.snd heq
                      have h1 := congrArg Prod.fst heq
                      dsimp only at h1 h2
                      subst h1 h2
                      clear heq))
    | with_reducible apply Dev.calm_upd_laneWaits
    | dsimp +zetaDelta only

theorem Dev.endHeldOn_calm {x : Calm} (s : Dev) (c : Nat) (bad : Bool)
    (h : Dev.calm s = x) : Dev.calm (Dev.endHeldOn s c bad) = x := by
  unfold Dev.endHeldOn
  repeat' first
    | with_reducible assumption
    | intro _
    | extract_lets
    | with_reducible apply calm_ite
    | with_reducible apply Dev.decideHeld_calm
    | with_reducible apply Dev.modCell_calm
    | with_reducible apply Dev.forEach_calm
    | (split
       all_goals try (rename_i heq
                      have h2 := congrArg Prod.snd heq
                      have h1 := congrArg Prod.fst heq
                      dsimp only at h1 h2
                      subst h1 h2
                      clear heq))
    | dsimp +zetaDelta only

theorem Dev.abortPulse_calm {x : Calm} (s : Dev) (c : Nat)
    (h : Dev.calm s = x) : Dev.calm (Dev.abortPulse s c) = x := by
  unfold Dev.abortPulse
  repeat' first
    | with_reducible assumption
    | intro _
    | extract_lets
    | with_reducible apply calm_ite
    | with_reducible apply Dev.modCell_calm
    | (split
       all_goals try (rename_i heq
                      have h2 := congrArg Prod.snd heq
                      have h1 := congrArg Prod.fst heq
                      dsimp only at h1 h2
                      subst h1 h2
                      clear heq))
    | dsimp +zetaDelta only

theorem Dev.sendSl_calm {x : Calm} (s : Dev) (g : Nat) (a2 : SlMsg)
    (h : Dev.calm s = x) : Dev.calm (Dev.sendSl s g a2) = x := by
  unfold Dev.sendSl
  repeat' first
    | with_reducible assumption
    | intro _
    | extract_lets
    | with_reducible apply calm_ite
    | (with_reducible apply Dev.modRegion_calm
       · intro r; first | rfl | (split <;> rfl))
    | (split
       all_goals try (rename_i heq
                      have h2 := congrArg Prod.snd heq
                      have h1 := congrArg Prod.fst heq
                      dsimp only at h1 h2
                      subst h1 h2
                      clear heq))
    | with_reducible apply Dev.calm_upd_slMsgs
    | dsimp +zetaDelta only

theorem Dev.commitProf_calm {x : Calm} (s : Dev) (c : Nat)
    (h : Dev.calm s = x) : Dev.calm (Dev.commitProf s c) = x := by
  unfold Dev.commitProf
  repeat' first
    | with_reducible assumption
    | intro _
    | extract_lets
    | with_reducible apply calm_ite
    | with_reducible apply Dev.modCell_calm
    | (split
       all_goals try (rename_i heq
                      have h2 := congrArg Prod.snd heq
                      have h1 := congrArg Prod.fst heq
                      dsimp only at h1 h2
                      subst h1 h2
                      clear heq))
    | with_reducible apply Dev.calm_upd_prof_profPend
    | dsimp +zetaDelta only

theorem Dev.goto_calm {x : Calm} (s : Dev) (c : Nat) (st : CellState)
    (h : Dev.calm s = x) : Dev.calm (Dev.goto s c st) = x := by
  unfold Dev.goto
  repeat' first
    | with_reducible assumption
    | intro _
    | extract_lets
    | with_reducible apply calm_ite
    | with_reducible apply Dev.commitProf_calm
    | with_reducible apply Dev.sendSl_calm
    | with_reducible apply Dev.abortPulse_calm
    | with_reducible apply Dev.endHeldOn_calm
    | with_reducible apply Dev.withBcast_calm
    | with_reducible apply Dev.holdExit_calm
    | with_reducible apply Dev.startTests_calm
    | with_reducible apply Dev.modCell_calm
    | (with_reducible apply Dev.modConv_calm
       · intro r; first | rfl | (split <;> rfl))
    | with_reducible apply Dev.drawNat_calm
    | with_reducible apply Dev.gateLane_calm
    | with_reducible apply Dev.modLane_calm
    | with_reducible apply Dev.cellEvent_calm
    | (split
       all_goals try (rename_i heq
                      have h2 := congrArg Prod.snd heq
                      have h1 := congrArg Prod.fst heq
                      dsimp only at h1 h2
                      subst h1 h2
                      clear heq))
    | dsimp +zetaDelta only

theorem Dev.enterSafe_calm {x : Calm} (s : Dev) (c : Nat)
    (h : Dev.calm s = x) : Dev.calm (Dev.enterSafe s c) = x := by
  unfold Dev.enterSafe
  repeat' first
    | with_reducible assumption
    | intro _
    | extract_lets
    | with_reducible apply calm_ite
    | with_reducible apply Dev.goto_calm
    | (split
       all_goals try (rename_i heq
                      have h2 := congrArg Prod.snd heq
                      have h1 := congrArg Prod.fst heq
                      dsimp only at h1 h2
                      subst h1 h2
                      clear heq))
    | dsimp +zetaDelta only

theorem Dev.safeCells_calm {x : Calm} (s : Dev) (l : List Nat)
    (h : Dev.calm s = x) : Dev.calm (Dev.safeCells s l) = x := by
  unfold Dev.safeCells
  repeat' first
    | with_reducible assumption
    | intro _
    | extract_lets
    | with_reducible apply calm_ite
    | with_reducible apply Dev.enterSafe_calm
    | with_reducible apply Dev.latchedCheck_calm
    | with_reducible apply Dev.forEach_calm
    | (split
       all_goals try (rename_i heq
                      have h2 := congrArg Prod.snd heq
                      have h1 := congrArg Prod.fst heq
                      dsimp only at h1 h2
                      subst h1 h2
                      clear heq))
    | dsimp +zetaDelta only

theorem Dev.setSlice_calm {x : Calm} (s : Dev) (k : Nat) (v : Slice)
    (h : Dev.calm s = x) : Dev.calm (Dev.setSlice s k v) = x := by
  unfold Dev.setSlice
  repeat' first
    | with_reducible assumption
    | intro _
    | extract_lets
    | with_reducible apply calm_ite
    | (split
       all_goals try (rename_i heq
                      have h2 := congrArg Prod.snd heq
                      have h1 := congrArg Prod.fst heq
                      dsimp only at h1 h2
                      subst h1 h2
                      clear heq))
    | with_reducible apply Dev.calm_upd_slices
    | dsimp +zetaDelta only

theorem Dev.sliceEvent_calm {x : Calm} (s : Dev) (k : Nat) (code : Nat) (flag : Bool) (payload : List Word)
    (h : Dev.calm s = x) : Dev.calm (Dev.sliceEvent s k code flag payload) = x := by
  unfold Dev.sliceEvent
  repeat' first
    | with_reducible assumption
    | intro _
    | extract_lets
    | with_reducible apply calm_ite
    | with_reducible apply Dev.irqRegion_calm
    | with_reducible apply Dev.raiseIsland_calm
    | (split
       all_goals try (rename_i heq
                      have h2 := congrArg Prod.snd heq
                      have h1 := congrArg Prod.fst heq
                      dsimp only at h1 h2
                      subst h1 h2
                      clear heq))
    | dsimp +zetaDelta only

theorem Dev.cutEvent_calm {x : Calm} (s : Dev) (k : Nat) (begins : Bool)
    (h : Dev.calm s = x) : Dev.calm (Dev.cutEvent s k begins) = x := by
  unfold Dev.cutEvent
  repeat' first
    | with_reducible assumption
    | intro _
    | extract_lets
    | with_reducible apply calm_ite
    | with_reducible apply Dev.sliceEvent_calm
    | (split
       all_goals try (rename_i heq
                      have h2 := congrArg Prod.snd heq
                      have h1 := congrArg Prod.fst heq
                      dsimp only at h1 h2
                      subst h1 h2
                      clear heq))
    | dsimp +zetaDelta only

theorem Dev.cutUpdate_calm {x : Calm} (s : Dev) (k : Nat)
    (h : Dev.calm s = x) : Dev.calm (Dev.cutUpdate s k) = x := by
  unfold Dev.cutUpdate
  repeat' first
    | with_reducible assumption
    | intro _
    | extract_lets
    | with_reducible apply calm_ite
    | with_reducible apply Dev.cutEvent_calm
    | with_reducible apply Dev.setSlice_calm
    | (split
       all_goals try (rename_i heq
                      have h2 := congrArg Prod.snd heq
                      have h1 := congrArg Prod.fst heq
                      dsimp only at h1 h2
                      subst h1 h2
                      clear heq))
    | with_reducible apply Dev.calm_upd_slices
    | dsimp +zetaDelta only

theorem Dev.sliceGoto_calm {x : Calm} (s : Dev) (k : Nat) (st : SliceState) (cause : Nat)
    (h : Dev.calm s = x) : Dev.calm (Dev.sliceGoto s k st cause) = x := by
  unfold Dev.sliceGoto
  repeat' first
    | with_reducible assumption
    | intro _
    | extract_lets
    | with_reducible apply calm_ite
    | with_reducible apply Dev.sliceEvent_calm
    | with_reducible apply Dev.setSlice_calm
    | (split
       all_goals try (rename_i heq
                      have h2 := congrArg Prod.snd heq
                      have h1 := congrArg Prod.fst heq
                      dsimp only at h1 h2
                      subst h1 h2
                      clear heq))
    | dsimp +zetaDelta only

theorem Dev.setReg_calm {x : Calm} (s : Dev) (off : Nat) (v : Word)
    (h : Dev.calm s = x) : Dev.calm (Dev.setReg s off v) = x := by
  unfold Dev.setReg
  repeat' first
    | with_reducible assumption
    | intro _
    | extract_lets
    | with_reducible apply calm_ite
    | (split
       all_goals try (rename_i heq
                      have h2 := congrArg Prod.snd heq
                      have h1 := congrArg Prod.fst heq
                      dsimp only at h1 h2
                      subst h1 h2
                      clear heq))
    | with_reducible apply Dev.calm_upd_regs
    | dsimp +zetaDelta only

theorem Dev.commitReg_calm {x : Calm} (s : Dev) (off : Nat)
    (h : Dev.calm s = x) : Dev.calm (Dev.commitReg s off) = x := by
  unfold Dev.commitReg
  repeat' first
    | with_reducible assumption
    | intro _
    | extract_lets
    | with_reducible apply calm_ite
    | with_reducible apply Dev.setReg_calm
    | (split
       all_goals try (rename_i heq
                      have h2 := congrArg Prod.snd heq
                      have h1 := congrArg Prod.fst heq
                      dsimp only at h1 h2
                      subst h1 h2
                      clear heq))
    | with_reducible apply Dev.calm_upd_regsPend
    | dsimp +zetaDelta only

theorem Dev.commitCs_calm {x : Calm} (s : Dev) (k : Nat)
    (h : Dev.calm s = x) : Dev.calm (Dev.commitCs s k) = x := by
  unfold Dev.commitCs
  repeat' first
    | with_reducible assumption
    | intro _
    | extract_lets
    | with_reducible apply calm_ite
    | with_reducible apply Dev.commitReg_calm
    | with_reducible apply Dev.forEach_calm
    | (split
       all_goals try (rename_i heq
                      have h2 := congrArg Prod.snd heq
                      have h1 := congrArg Prod.fst heq
                      dsimp only at h1 h2
                      subst h1 h2
                      clear heq))
    | dsimp +zetaDelta only

theorem Dev.putReg_calm {x : Calm} (s : Dev) (off : Nat) (lo : Nat) (len : Nat) (v : Nat)
    (h : Dev.calm s = x) : Dev.calm (Dev.putReg s off lo len v) = x := by
  unfold Dev.putReg
  repeat' first
    | with_reducible assumption
    | intro _
    | extract_lets
    | with_reducible apply calm_ite
    | with_reducible apply Dev.setReg_calm
    | (split
       all_goals try (rename_i heq
                      have h2 := congrArg Prod.snd heq
                      have h1 := congrArg Prod.fst heq
                      dsimp only at h1 h2
                      subst h1 h2
                      clear heq))
    | dsimp +zetaDelta only

theorem Dev.modSlice_calm {x : Calm} (s : Dev) (k : Nat) (f : Slice → Slice)
    (h : Dev.calm s = x) : Dev.calm (Dev.modSlice s k f) = x := by
  unfold Dev.modSlice
  repeat' first
    | with_reducible assumption
    | intro _
    | extract_lets
    | with_reducible apply calm_ite
    | with_reducible apply Dev.setSlice_calm
    | (split
       all_goals try (rename_i heq
                      have h2 := congrArg Prod.snd heq
                      have h1 := congrArg Prod.fst heq
                      dsimp only at h1 h2
                      subst h1 h2
                      clear heq))
    | dsimp +zetaDelta only

theorem Dev.killSlice_calm {x : Calm} (s : Dev) (k : Nat) (cause : Nat)
    (h : Dev.calm s = x) : Dev.calm (Dev.killSlice s k cause) = x := by
  unfold Dev.killSlice
  repeat' first
    | with_reducible assumption
    | intro _
    | extract_lets
    | with_reducible apply calm_ite
    | with_reducible apply Dev.modSlice_calm
    | with_reducible apply Dev.putReg_calm
    | with_reducible apply Dev.commitCs_calm
    | with_reducible apply Dev.commitReg_calm
    | with_reducible apply Dev.sliceGoto_calm
    | with_reducible apply Dev.cutUpdate_calm
    | (split
       all_goals try (rename_i heq
                      have h2 := congrArg Prod.snd heq
                      have h1 := congrArg Prod.fst heq
                      dsimp only at h1 h2
                      subst h1 h2
                      clear heq))
    | dsimp +zetaDelta only

theorem Dev.killSlices_calm {x : Calm} (s : Dev) (g : Nat)
    (h : Dev.calm s = x) : Dev.calm (Dev.killSlices s g) = x := by
  unfold Dev.killSlices
  repeat' first
    | with_reducible assumption
    | intro _
    | extract_lets
    | with_reducible apply calm_ite
    | with_reducible apply Dev.killSlice_calm
    | with_reducible apply Dev.forEach_calm
    | (split
       all_goals try (rename_i heq
                      have h2 := congrArg Prod.snd heq
                      have h1 := congrArg Prod.fst heq
                      dsimp only at h1 h2
                      subst h1 h2
                      clear heq))
    | dsimp +zetaDelta only

theorem Dev.regionSafe_calm {x : Calm} (s : Dev) (g : Nat)
    (h : Dev.calm s = x) : Dev.calm (Dev.regionSafe s g) = x := by
  unfold Dev.regionSafe
  repeat' first
    | with_reducible assumption
    | intro _
    | extract_lets
    | with_reducible apply calm_ite
    | with_reducible apply Dev.killSlices_calm
    | with_reducible apply Dev.safeCells_calm
    | (split
       all_goals try (rename_i heq
                      have h2 := congrArg Prod.snd heq
                      have h1 := congrArg Prod.fst heq
                      dsimp only at h1 h2
                      subst h1 h2
                      clear heq))
    | dsimp +zetaDelta only

theorem Dev.blockSafe_calm {x : Calm} (s : Dev) (b : Nat)
    (h : Dev.calm s = x) : Dev.calm (Dev.blockSafe s b) = x := by
  unfold Dev.blockSafe
  repeat' first
    | with_reducible assumption
    | intro _
    | extract_lets
    | with_reducible apply calm_ite
    | with_reducible apply Dev.safeCells_calm
    | (split
       all_goals try (rename_i heq
                      have h2 := congrArg Prod.snd heq
                      have h1 := congrArg Prod.fst heq
                      dsimp only at h1 h2
                      subst h1 h2
                      clear heq))
    | dsimp +zetaDelta only

theorem Dev.stand_calm {x : Calm} (s : Dev) (k : Nat) (src : Nat) (scope : SafeScope) (fatal : Bool)
    (h : Dev.calm s = x) : Dev.calm (Dev.stand s k src scope fatal) = x := by
  unfold Dev.stand
  repeat' first
    | with_reducible assumption
    | intro _
    | extract_lets
    | with_reducible apply calm_ite
    | with_reducible apply Dev.modColl_calm
    | (split
       all_goals try (rename_i heq
                      have h2 := congrArg Prod.snd heq
                      have h1 := congrArg Prod.fst heq
                      dsimp only at h1 h2
                      subst h1 h2
                      clear heq))
    | dsimp +zetaDelta only

theorem Dev.safeReact_calm {x : Calm} (s : Dev) (k : Nat) (src : Nat) (info : Nat) (mask : Nat) (fatal : Bool)
    (h : Dev.calm s = x) : Dev.calm (Dev.safeReact s k src info mask fatal) = x := by
  unfold Dev.safeReact
  repeat' first
    | with_reducible assumption
    | intro _
    | extract_lets
    | with_reducible apply calm_ite
    | with_reducible apply Dev.stand_calm
    | with_reducible apply Dev.blockSafe_calm
    | with_reducible apply Dev.regionSafe_calm
    | with_reducible apply Dev.safeCells_calm
    | with_reducible apply Dev.modColl_calm
    | (split
       all_goals try (rename_i heq
                      have h2 := congrArg Prod.snd heq
                      have h1 := congrArg Prod.fst heq
                      dsimp only at h1 h2
                      subst h1 h2
                      clear heq))
    | dsimp +zetaDelta only

theorem Dev.report_calm {x : Calm} (s : Dev) (g : Nat) (r : Report)
    (h : Dev.calm s = x) : Dev.calm (Dev.report s g r) = x := by
  unfold Dev.report
  repeat' first
    | with_reducible assumption
    | intro _
    | extract_lets
    | with_reducible apply calm_ite
    | with_reducible apply Dev.modColl_calm
    | (split
       all_goals try (rename_i heq
                      have h2 := congrArg Prod.snd heq
                      have h1 := congrArg Prod.fst heq
                      dsimp only at h1 h2
                      subst h1 h2
                      clear heq))
    | with_reducible apply Dev.calm_upd_reports
    | dsimp +zetaDelta only

theorem Dev.errEvent_calm {x : Calm} (s : Dev)
    (h : Dev.calm s = x) : Dev.calm (Dev.errEvent s) = x := by
  unfold Dev.errEvent
  repeat' first
    | with_reducible assumption
    | intro _
    | extract_lets
    | with_reducible apply calm_ite
    | with_reducible apply Dev.collEvent_calm
    | (split
       all_goals try (rename_i heq
                      have h2 := congrArg Prod.snd heq
                      have h1 := congrArg Prod.fst heq
                      dsimp only at h1 h2
                      subst h1 h2
                      clear heq))
    | dsimp +zetaDelta only

theorem Dev.errAssert_calm {x : Calm} (s : Dev)
    (h : Dev.calm s = x) : Dev.calm (Dev.errAssert s) = x := by
  unfold Dev.errAssert
  repeat' first
    | with_reducible assumption
    | intro _
    | extract_lets
    | with_reducible apply calm_ite
    | with_reducible apply Dev.errEvent_calm
    | (split
       all_goals try (rename_i heq
                      have h2 := congrArg Prod.snd heq
                      have h1 := congrArg Prod.fst heq
                      dsimp only at h1 h2
                      subst h1 h2
                      clear heq))
    | with_reducible apply Dev.calm_upd_err
    | dsimp +zetaDelta only

theorem Dev.faultKey_calm {x : Calm} (s : Dev) (k : Nat) (src : Nat)
    (h : Dev.calm s = x) : Dev.calm (Dev.faultKey s k src).2.2 = x := by
  unfold Dev.faultKey
  repeat' first
    | with_reducible assumption
    | intro _
    | extract_lets
    | with_reducible apply calm_ite
    | with_reducible apply Dev.modColl_calm
    | (split
       all_goals try (rename_i heq
                      have h2 := congrArg Prod.snd heq
                      have h1 := congrArg Prod.fst heq
                      dsimp only at h1 h2
                      subst h1 h2
                      clear heq))
    | dsimp +zetaDelta only

theorem Dev.reactEvent_calm {x : Calm} (s : Dev) (k : Nat) (src : Nat) (info : Nat) (t : Nat) (deferred : Bool) (inj : Bool)
    (h : Dev.calm s = x) : Dev.calm (Dev.reactEvent s k src info t deferred inj) = x := by
  unfold Dev.reactEvent
  repeat' first
    | with_reducible assumption
    | intro _
    | extract_lets
    | with_reducible apply calm_ite
    | with_reducible apply Dev.faultKey_calm
    | with_reducible apply Dev.errAssert_calm
    | with_reducible apply Dev.report_calm
    | with_reducible apply Dev.safeReact_calm
    | with_reducible apply Dev.history_calm
    | with_reducible apply Dev.faultEvent_calm
    | with_reducible apply Dev.modColl_calm
    | (split
       all_goals try (rename_i heq
                      have h2 := congrArg Prod.snd heq
                      have h1 := congrArg Prod.fst heq
                      dsimp only at h1 h2
                      subst h1 h2
                      clear heq))
    | dsimp +zetaDelta only

theorem Dev.occurAt_calm {x : Calm} (s : Dev) (k : Nat) (src : Nat) (info : Nat) (n : Nat) (t : Nat) (deferred : Bool) (inj : Bool)
    (h : Dev.calm s = x) : Dev.calm (Dev.occurAt s k src info n t deferred inj) = x := by
  unfold Dev.occurAt
  repeat' first
    | with_reducible assumption
    | intro _
    | extract_lets
    | with_reducible apply calm_ite
    | with_reducible apply Dev.reactEvent_calm
    | with_reducible apply Dev.noteEvent_calm
    | (split
       all_goals try (rename_i heq
                      have h2 := congrArg Prod.snd heq
                      have h1 := congrArg Prod.fst heq
                      dsimp only at h1 h2
                      subst h1 h2
                      clear heq))
    | dsimp +zetaDelta only

theorem Dev.occur_calm {x : Calm} (s : Dev) (k : Nat) (src : Nat) (info : Nat)
    (h : Dev.calm s = x) : Dev.calm (Dev.occur s k src info) = x := by
  unfold Dev.occur
  repeat' first
    | with_reducible assumption
    | intro _
    | extract_lets
    | with_reducible apply calm_ite
    | with_reducible apply Dev.occurAt_calm
    | (split
       all_goals try (rename_i heq
                      have h2 := congrArg Prod.snd heq
                      have h1 := congrArg Prod.fst heq
                      dsimp only at h1 h2
                      subst h1 h2
                      clear heq))
    | dsimp +zetaDelta only

theorem Dev.occurCentral_calm {x : Calm} (s : Dev) (g : Nat) (src : Nat) (info : Nat)
    (h : Dev.calm s = x) : Dev.calm (Dev.occurCentral s g src info) = x := by
  unfold Dev.occurCentral
  repeat' first
    | with_reducible assumption
    | intro _
    | extract_lets
    | with_reducible apply calm_ite
    | with_reducible apply Dev.occur_calm
    | with_reducible apply Dev.setColl_calm
    | (split
       all_goals try (rename_i heq
                      have h2 := congrArg Prod.snd heq
                      have h1 := congrArg Prod.fst heq
                      dsimp only at h1 h2
                      subst h1 h2
                      clear heq))
    | dsimp +zetaDelta only

theorem Dev.extUpdate_calm {x : Calm} (s : Dev) (g : Nat)
    (h : Dev.calm s = x) : Dev.calm (Dev.extUpdate s g) = x := by
  unfold Dev.extUpdate
  repeat' first
    | with_reducible assumption
    | intro _
    | extract_lets
    | with_reducible apply calm_ite
    | (with_reducible apply Dev.modRegion_calm
       · intro r; first | rfl | (split <;> rfl))
    | (split
       all_goals try (rename_i heq
                      have h2 := congrArg Prod.snd heq
                      have h1 := congrArg Prod.fst heq
                      dsimp only at h1 h2
                      subst h1 h2
                      clear heq))
    | dsimp +zetaDelta only

theorem Dev.policyOff_calm {x : Calm} (s : Dev) (c : Nat)
    (h : Dev.calm s = x) : Dev.calm (Dev.policyOff s c) = x := by
  unfold Dev.policyOff
  repeat' first
    | with_reducible assumption
    | intro _
    | extract_lets
    | with_reducible apply calm_ite
    | with_reducible apply Dev.goto_calm
    | with_reducible apply Dev.modCell_calm
    | (split
       all_goals try (rename_i heq
                      have h2 := congrArg Prod.snd heq
                      have h1 := congrArg Prod.fst heq
                      dsimp only at h1 h2
                      subst h1 h2
                      clear heq))
    | dsimp +zetaDelta only

theorem Dev.policyCells_calm {x : Calm} (s : Dev) (l : List Nat)
    (h : Dev.calm s = x) : Dev.calm (Dev.policyCells s l) = x := by
  unfold Dev.policyCells
  repeat' first
    | with_reducible assumption
    | intro _
    | extract_lets
    | with_reducible apply calm_ite
    | with_reducible apply Dev.policyOff_calm
    | with_reducible apply Dev.forEach_calm
    | (split
       all_goals try (rename_i heq
                      have h2 := congrArg Prod.snd heq
                      have h1 := congrArg Prod.fst heq
                      dsimp only at h1 h2
                      subst h1 h2
                      clear heq))
    | dsimp +zetaDelta only

theorem Dev.policy_calm {x : Calm} (s : Dev) (g : Nat) (code : Nat)
    (h : Dev.calm s = x) : Dev.calm (Dev.policy s g code).2 = x := by
  unfold Dev.policy
  repeat' first
    | with_reducible assumption
    | intro _
    | extract_lets
    | with_reducible apply calm_ite
    | with_reducible apply Dev.policyCells_calm
    | (split
       all_goals try (rename_i heq
                      have h2 := congrArg Prod.snd heq
                      have h1 := congrArg Prod.fst heq
                      dsimp only at h1 h2
                      subst h1 h2
                      clear heq))
    | dsimp +zetaDelta only

theorem Dev.softStop_calm {x : Calm} (s : Dev) (k : Nat) (cause : Nat)
    (h : Dev.calm s = x) : Dev.calm (Dev.softStop s k cause) = x := by
  unfold Dev.softStop
  repeat' first
    | with_reducible assumption
    | intro _
    | extract_lets
    | with_reducible apply calm_ite
    | with_reducible apply Dev.sliceGoto_calm
    | with_reducible apply Dev.setSlice_calm
    | (split
       all_goals try (rename_i heq
                      have h2 := congrArg Prod.snd heq
                      have h1 := congrArg Prod.fst heq
                      dsimp only at h1 h2
                      subst h1 h2
                      clear heq))
    | dsimp +zetaDelta only

theorem Dev.lossAction_calm {x : Calm} (s : Dev) (k : Nat) (cause : Nat)
    (h : Dev.calm s = x) : Dev.calm (Dev.lossAction s k cause) = x := by
  unfold Dev.lossAction
  repeat' first
    | with_reducible assumption
    | intro _
    | extract_lets
    | with_reducible apply calm_ite
    | with_reducible apply Dev.softStop_calm
    | with_reducible apply Dev.killSlice_calm
    | (split
       all_goals try (rename_i heq
                      have h2 := congrArg Prod.snd heq
                      have h1 := congrArg Prod.fst heq
                      dsimp only at h1 h2
                      subst h1 h2
                      clear heq))
    | dsimp +zetaDelta only

theorem Dev.tripAt_calm {x : Calm} (s : Dev) (c : Nat) (mask : Nat) (time : Nat)
    (h : Dev.calm s = x) : Dev.calm (Dev.tripAt s c mask time) = x := by
  unfold Dev.tripAt
  repeat' first
    | with_reducible assumption
    | intro _
    | extract_lets
    | with_reducible apply calm_ite
    | with_reducible apply Dev.goto_calm
    | with_reducible apply Dev.commitProf_calm
    | with_reducible apply Dev.withBcast_calm
    | with_reducible apply Dev.modCell_calm
    | with_reducible apply Dev.raiseIsland_calm
    | (with_reducible apply Dev.modRegion_calm
       · intro r; first | rfl | (split <;> rfl))
    | with_reducible apply calm_foldl
    | (split
       all_goals try (rename_i heq
                      have h2 := congrArg Prod.snd heq
                      have h1 := congrArg Prod.fst heq
                      dsimp only at h1 h2
                      subst h1 h2
                      clear heq))
    | dsimp +zetaDelta only

theorem Dev.tripNow_calm {x : Calm} (s : Dev) (c : Nat) (mask : Nat)
    (h : Dev.calm s = x) : Dev.calm (Dev.tripNow s c mask) = x := by
  unfold Dev.tripNow
  repeat' first
    | with_reducible assumption
    | intro _
    | extract_lets
    | with_reducible apply calm_ite
    | with_reducible apply Dev.tripAt_calm
    | (split
       all_goals try (rename_i heq
                      have h2 := congrArg Prod.snd heq
                      have h1 := congrArg Prod.fst heq
                      dsimp only at h1 h2
                      subst h1 h2
                      clear heq))
    | dsimp +zetaDelta only

theorem Dev.levelTrips_calm {x : Calm} (s : Dev) (c : Nat)
    (h : Dev.calm s = x) : Dev.calm (Dev.levelTrips s c) = x := by
  unfold Dev.levelTrips
  repeat' first
    | with_reducible assumption
    | intro _
    | extract_lets
    | with_reducible apply calm_ite
    | with_reducible apply Dev.tripNow_calm
    | (split
       all_goals try (rename_i heq
                      have h2 := congrArg Prod.snd heq
                      have h1 := congrArg Prod.fst heq
                      dsimp only at h1 h2
                      subst h1 h2
                      clear heq))
    | dsimp +zetaDelta only

theorem Dev.cfgIgnored_calm {x : Calm} (s : Dev) (off : Nat)
    (h : Dev.calm s = x) : Dev.calm (Dev.cfgIgnored s off) = x := by
  unfold Dev.cfgIgnored
  repeat' first
    | with_reducible assumption
    | intro _
    | extract_lets
    | with_reducible apply calm_ite
    | with_reducible apply Dev.occur_calm
    | (split
       all_goals try (rename_i heq
                      have h2 := congrArg Prod.snd heq
                      have h1 := congrArg Prod.fst heq
                      dsimp only at h1 h2
                      subst h1 h2
                      clear heq))
    | dsimp +zetaDelta only

theorem Dev.autoNext_calm {x : Calm} (s : Dev) (g : Nat)
    (h : Dev.calm s = x) : Dev.calm (Dev.autoNext s g) = x := by
  unfold Dev.autoNext
  repeat' first
    | with_reducible assumption
    | intro _
    | extract_lets
    | with_reducible apply calm_ite
    | with_reducible apply Dev.levelTrips_calm
    | with_reducible apply Dev.goto_calm
    | with_reducible apply Dev.modCell_calm
    | (split
       all_goals try (rename_i heq
                      have h2 := congrArg Prod.snd heq
                      have h1 := congrArg Prod.fst heq
                      dsimp only at h1 h2
                      subst h1 h2
                      clear heq))
    | dsimp +zetaDelta only

theorem Dev.checkFires_calm {x : Calm} (s : Dev) (c : Nat) (mask : Nat)
    (h : Dev.calm s = x) : Dev.calm (Dev.checkFires s c mask) = x := by
  unfold Dev.checkFires
  repeat' first
    | with_reducible assumption
    | intro _
    | extract_lets
    | with_reducible apply calm_ite
    | with_reducible apply Dev.autoNext_calm
    | with_reducible apply Dev.tripNow_calm
    | (split
       all_goals try (rename_i heq
                      have h2 := congrArg Prod.snd heq
                      have h1 := congrArg Prod.fst heq
                      dsimp only at h1 h2
                      subst h1 h2
                      clear heq))
    | dsimp +zetaDelta only

theorem Dev.presenceEvent_calm {x : Calm} (s : Dev) (c : Nat) (inserted : Bool)
    (h : Dev.calm s = x) : Dev.calm (Dev.presenceEvent s c inserted) = x := by
  unfold Dev.presenceEvent
  repeat' first
    | with_reducible assumption
    | intro _
    | extract_lets
    | with_reducible apply calm_ite
    | with_reducible apply Dev.cellEvent_calm
    | (split
       all_goals try (rename_i heq
                      have h2 := congrArg Prod.snd heq
                      have h1 := congrArg Prod.fst heq
                      dsimp only at h1 h2
                      subst h1 h2
                      clear heq))
    | dsimp +zetaDelta only

theorem Dev.cooldown_calm {x : Calm} (s : Dev) (c : Nat) (backoffMs : Nat)
    (h : Dev.calm s = x) : Dev.calm (Dev.cooldown s c backoffMs) = x := by
  unfold Dev.cooldown
  repeat' first
    | with_reducible assumption
    | intro _
    | extract_lets
    | with_reducible apply calm_ite
    | with_reducible apply Dev.goto_calm
    | with_reducible apply Dev.modCell_calm
    | (split
       all_goals try (rename_i heq
                      have h2 := congrArg Prod.snd heq
                      have h1 := congrArg Prod.fst heq
                      dsimp only at h1 h2
                      subst h1 h2
                      clear heq))
    | dsimp +zetaDelta only

theorem Dev.chOn_calm {x : Calm} (s : Dev) (c : Nat)
    (h : Dev.calm s = x) : Dev.calm (Dev.chOn s c).2 = x := by
  unfold Dev.chOn
  repeat' first
    | with_reducible assumption
    | intro _
    | extract_lets
    | with_reducible apply calm_ite
    | with_reducible apply Dev.cooldown_calm
    | with_reducible apply Dev.goto_calm
    | with_reducible apply Dev.modCell_calm
    | (split
       all_goals try (rename_i heq
                      have h2 := congrArg Prod.snd heq
                      have h1 := congrArg Prod.fst heq
                      dsimp only at h1 h2
                      subst h1 h2
                      clear heq))
    | dsimp +zetaDelta only

theorem Dev.inject_calm {x : Calm} (s : Dev) (k : Nat) (src : Nat)
    (h : Dev.calm s = x) : Dev.calm (Dev.inject s k src) = x := by
  unfold Dev.inject
  repeat' first
    | with_reducible assumption
    | intro _
    | extract_lets
    | with_reducible apply calm_ite
    | with_reducible apply Dev.history_calm
    | with_reducible apply Dev.faultEvent_calm
    | with_reducible apply Dev.setColl_calm
    | (split
       all_goals try (rename_i heq
                      have h2 := congrArg Prod.snd heq
                      have h1 := congrArg Prod.fst heq
                      dsimp only at h1 h2
                      subst h1 h2
                      clear heq))
    | dsimp +zetaDelta only

theorem Dev.latchCell_calm {x : Calm} (s : Dev) (c : Nat) (reason : Nat)
    (h : Dev.calm s = x) : Dev.calm (Dev.latchCell s c reason) = x := by
  unfold Dev.latchCell
  repeat' first
    | with_reducible assumption
    | intro _
    | extract_lets
    | with_reducible apply calm_ite
    | with_reducible apply Dev.occur_calm
    | with_reducible apply Dev.goto_calm
    | with_reducible apply Dev.raiseIsland_calm
    | (split
       all_goals try (rename_i heq
                      have h2 := congrArg Prod.snd heq
                      have h1 := congrArg Prod.fst heq
                      dsimp only at h1 h2
                      subst h1 h2
                      clear heq))
    | dsimp +zetaDelta only

theorem Dev.evaluateRule_calm {x : Calm} (s : Dev) (c : Nat)
    (h : Dev.calm s = x) : Dev.calm (Dev.evaluateRule s c) = x := by
  unfold Dev.evaluateRule
  repeat' first
    | with_reducible assumption
    | intro _
    | extract_lets
    | with_reducible apply calm_ite
    | with_reducible apply Dev.latchCell_calm
    | with_reducible apply Dev.cooldown_calm
    | with_reducible apply Dev.endHeldOn_calm
    | with_reducible apply Dev.modCell_calm
    | with_reducible apply Dev.raiseIsland_calm
    | (split
       all_goals try (rename_i heq
                      have h2 := congrArg Prod.snd heq
                      have h1 := congrArg Prod.fst heq
                      dsimp only at h1 h2
                      subst h1 h2
                      clear heq))
    | dsimp +zetaDelta only

theorem Dev.chReset_calm {x : Calm} (s : Dev) (c : Nat)
    (h : Dev.calm s = x) : Dev.calm (Dev.chReset s c).2 = x := by
  unfold Dev.chReset
  repeat' first
    | with_reducible assumption
    | intro _
    | extract_lets
    | with_reducible apply calm_ite
    | with_reducible apply Dev.autoNext_calm
    | with_reducible apply Dev.goto_calm
    | with_reducible apply Dev.modCell_calm
    | with_reducible apply Dev.latchedCheck_calm
    | (split
       all_goals try (rename_i heq
                      have h2 := congrArg Prod.snd heq
                      have h1 := congrArg Prod.fst heq
                      dsimp only at h1 h2
                      subst h1 h2
                      clear heq))
    | dsimp +zetaDelta only

theorem Dev.chOff_calm {x : Calm} (s : Dev) (c : Nat)
    (h : Dev.calm s = x) : Dev.calm (Dev.chOff s c).2 = x := by
  unfold Dev.chOff
  repeat' first
    | with_reducible assumption
    | intro _
    | extract_lets
    | with_reducible apply calm_ite
    | with_reducible apply Dev.autoNext_calm
    | with_reducible apply Dev.goto_calm
    | with_reducible apply Dev.modCell_calm
    | (split
       all_goals try (rename_i heq
                      have h2 := congrArg Prod.snd heq
                      have h1 := congrArg Prod.fst heq
                      dsimp only at h1 h2
                      subst h1 h2
                      clear heq))
    | dsimp +zetaDelta only

theorem Dev.deliverDeferred_calm {x : Calm} (s : Dev) (g : Nat)
    (h : Dev.calm s = x) : Dev.calm (Dev.deliverDeferred s g) = x := by
  unfold Dev.deliverDeferred
  repeat' first
    | with_reducible assumption
    | intro _
    | extract_lets
    | with_reducible apply calm_ite
    | with_reducible apply Dev.occurAt_calm
    | with_reducible apply Dev.forEach_calm
    | with_reducible apply Dev.modColl_calm
    | (split
       all_goals try (rename_i heq
                      have h2 := congrArg Prod.snd heq
                      have h1 := congrArg Prod.fst heq
                      dsimp only at h1 h2
                      subst h1 h2
                      clear heq))
    | dsimp +zetaDelta only

theorem Dev.sendChipSafe_calm {x : Calm} (s : Dev) (g : Nat)
    (h : Dev.calm s = x) : Dev.calm (Dev.sendChipSafe s g) = x := by
  unfold Dev.sendChipSafe
  repeat' first
    | with_reducible assumption
    | intro _
    | extract_lets
    | with_reducible apply calm_ite
    | with_reducible apply Dev.stand_calm
    | with_reducible apply Dev.forEach_calm
    | with_reducible apply Dev.modColl_calm
    | (split
       all_goals try (rename_i heq
                      have h2 := congrArg Prod.snd heq
                      have h1 := congrArg Prod.fst heq
                      dsimp only at h1 h2
                      subst h1 h2
                      clear heq))
    | dsimp +zetaDelta only

theorem Dev.straitIrq_calm {x : Calm} (s : Dev) (g : Nat)
    (h : Dev.calm s = x) : Dev.calm (Dev.straitIrq s g) = x := by
  unfold Dev.straitIrq
  repeat' first
    | with_reducible assumption
    | intro _
    | extract_lets
    | with_reducible apply calm_ite
    | with_reducible apply Dev.irqRegion_calm
    | (split
       all_goals try (rename_i heq
                      have h2 := congrArg Prod.snd heq
                      have h1 := congrArg Prod.fst heq
                      dsimp only at h1 h2
                      subst h1 h2
                      clear heq))
    | dsimp +zetaDelta only

theorem Dev.precheckDone_calm {x : Calm} (s : Dev) (c : Nat)
    (h : Dev.calm s = x) : Dev.calm (Dev.precheckDone s c) = x := by
  unfold Dev.precheckDone
  repeat' first
    | with_reducible assumption
    | intro _
    | extract_lets
    | with_reducible apply calm_ite
    | with_reducible apply Dev.goto_calm
    | (split
       all_goals try (rename_i heq
                      have h2 := congrArg Prod.snd heq
                      have h1 := congrArg Prod.fst heq
                      dsimp only at h1 h2
                      subst h1 h2
                      clear heq))
    | dsimp +zetaDelta only

theorem Dev.thawSluice_calm {x : Calm} (s : Dev) (g : Nat)
    (h : Dev.calm s = x) : Dev.calm (Dev.thawSluice s g) = x := by
  unfold Dev.thawSluice
  repeat' first
    | with_reducible assumption
    | intro _
    | extract_lets
    | with_reducible apply calm_ite
    | (with_reducible apply Dev.modRegion_calm
       · intro r; first | rfl | (split <;> rfl))
    | (split
       all_goals try (rename_i heq
                      have h2 := congrArg Prod.snd heq
                      have h1 := congrArg Prod.fst heq
                      dsimp only at h1 h2
                      subst h1 h2
                      clear heq))
    | with_reducible apply Dev.calm_upd_sluice_slMsgs_grants
    | dsimp +zetaDelta only

theorem Dev.freezeSluice_calm {x : Calm} (s : Dev) (g : Nat)
    (h : Dev.calm s = x) : Dev.calm (Dev.freezeSluice s g) = x := by
  unfold Dev.freezeSluice
  repeat' first
    | with_reducible assumption
    | intro _
    | extract_lets
    | with_reducible apply calm_ite
    | (split
       all_goals try (rename_i heq
                      have h2 := congrArg Prod.snd heq
                      have h1 := congrArg Prod.fst heq
                      dsimp only at h1 h2
                      subst h1 h2
                      clear heq))
    | with_reducible apply Dev.calm_upd_sluice_grants
    | dsimp +zetaDelta only

theorem Dev.slicesLost_calm {x : Calm} (s : Dev) (g : Nat)
    (h : Dev.calm s = x) : Dev.calm (Dev.slicesLost s g) = x := by
  unfold Dev.slicesLost
  repeat' first
    | with_reducible assumption
    | intro _
    | extract_lets
    | with_reducible apply calm_ite
    | with_reducible apply Dev.lossAction_calm
    | with_reducible apply Dev.modSlice_calm
    | with_reducible apply Dev.forEach_calm
    | (split
       all_goals try (rename_i heq
                      have h2 := congrArg Prod.snd heq
                      have h1 := congrArg Prod.fst heq
                      dsimp only at h1 h2
                      subst h1 h2
                      clear heq))
    | dsimp +zetaDelta only

theorem Dev.lossApplied_calm {x : Calm} (s : Dev) (g : Nat)
    (h : Dev.calm s = x) : Dev.calm (Dev.lossApplied s g) = x := by
  unfold Dev.lossApplied
  repeat' first
    | with_reducible assumption
    | intro _
    | extract_lets
    | with_reducible apply calm_ite
    | with_reducible apply Dev.slicesLost_calm
    | with_reducible apply Dev.occur_calm
    | with_reducible apply Dev.forEach_calm
    | (split
       all_goals try (rename_i heq
                      have h2 := congrArg Prod.snd heq
                      have h1 := congrArg Prod.fst heq
                      dsimp only at h1 h2
                      subst h1 h2
                      clear heq))
    | dsimp +zetaDelta only

theorem Dev.clearLatched_calm {x : Calm} (s : Dev) (k : Nat) (mask : Quad)
    (h : Dev.calm s = x) : Dev.calm (Dev.clearLatched s k mask) = x := by
  unfold Dev.clearLatched
  repeat' first
    | with_reducible assumption
    | intro _
    | extract_lets
    | with_reducible apply calm_ite
    | with_reducible apply Dev.unoccur_calm
    | with_reducible apply Dev.modColl_calm
    | with_reducible apply Dev.setColl_calm
    | (split
       all_goals try (rename_i heq
                      have h2 := congrArg Prod.snd heq
                      have h1 := congrArg Prod.fst heq
                      dsimp only at h1 h2
                      subst h1 h2
                      clear heq))
    | dsimp +zetaDelta only

theorem Dev.precheckFail_calm {x : Calm} (s : Dev) (c : Nat) (reason : Nat)
    (h : Dev.calm s = x) : Dev.calm (Dev.precheckFail s c reason) = x := by
  unfold Dev.precheckFail
  repeat' first
    | with_reducible assumption
    | intro _
    | extract_lets
    | with_reducible apply calm_ite
    | with_reducible apply Dev.goto_calm
    | with_reducible apply Dev.modCell_calm
    | with_reducible apply Dev.cellEvent_calm
    | (split
       all_goals try (rename_i heq
                      have h2 := congrArg Prod.snd heq
                      have h1 := congrArg Prod.fst heq
                      dsimp only at h1 h2
                      subst h1 h2
                      clear heq))
    | dsimp +zetaDelta only

theorem Dev.occurAny_calm {x : Calm} (s : Dev) (k : Nat) (src : Nat) (info : Nat) (inj : Bool)
    (h : Dev.calm s = x) : Dev.calm (Dev.occurAny s k src info inj) = x := by
  unfold Dev.occurAny
  repeat' first
    | with_reducible assumption
    | intro _
    | extract_lets
    | with_reducible apply calm_ite
    | with_reducible apply Dev.occurCentral_calm
    | with_reducible apply Dev.occurAt_calm
    | (split
       all_goals try (rename_i heq
                      have h2 := congrArg Prod.snd heq
                      have h1 := congrArg Prod.fst heq
                      dsimp only at h1 h2
                      subst h1 h2
                      clear heq))
    | dsimp +zetaDelta only

theorem Dev.chDisable_calm {x : Calm} (s : Dev) (c : Nat)
    (h : Dev.calm s = x) : Dev.calm (Dev.chDisable s c).2 = x := by
  unfold Dev.chDisable
  repeat' first
    | with_reducible assumption
    | intro _
    | extract_lets
    | with_reducible apply calm_ite
    | with_reducible apply Dev.autoNext_calm
    | with_reducible apply Dev.goto_calm
    | (split
       all_goals try (rename_i heq
                      have h2 := congrArg Prod.snd heq
                      have h1 := congrArg Prod.fst heq
                      dsimp only at h1 h2
                      subst h1 h2
                      clear heq))
    | dsimp +zetaDelta only

theorem Dev.chEnable_calm {x : Calm} (s : Dev) (c : Nat)
    (h : Dev.calm s = x) : Dev.calm (Dev.chEnable s c).2 = x := by
  unfold Dev.chEnable
  repeat' first
    | with_reducible assumption
    | intro _
    | extract_lets
    | with_reducible apply calm_ite
    | with_reducible apply Dev.goto_calm
    | (split
       all_goals try (rename_i heq
                      have h2 := congrArg Prod.snd heq
                      have h1 := congrArg Prod.fst heq
                      dsimp only at h1 h2
                      subst h1 h2
                      clear heq))
    | dsimp +zetaDelta only

theorem Dev.shortResult_calm {x : Calm} (s : Dev) (c : Nat)
    (h : Dev.calm s = x) : Dev.calm (Dev.shortResult s c) = x := by
  unfold Dev.shortResult
  repeat' first
    | with_reducible assumption
    | intro _
    | extract_lets
    | with_reducible apply calm_ite
    | with_reducible apply Dev.precheckFail_calm
    | with_reducible apply Dev.precheckDone_calm
    | with_reducible apply Dev.presenceEvent_calm
    | with_reducible apply Dev.goto_calm
    | with_reducible apply Dev.modCell_calm
    | (split
       all_goals try (rename_i heq
                      have h2 := congrArg Prod.snd heq
                      have h1 := congrArg Prod.fst heq
                      dsimp only at h1 h2
                      subst h1 h2
                      clear heq))
    | dsimp +zetaDelta only

theorem Dev.probeResult_calm {x : Calm} (s : Dev) (c : Nat)
    (h : Dev.calm s = x) : Dev.calm (Dev.probeResult s c) = x := by
  unfold Dev.probeResult
  repeat' first
    | with_reducible assumption
    | intro _
    | extract_lets
    | with_reducible apply calm_ite
    | with_reducible apply Dev.shortResult_calm
    | with_reducible apply Dev.presenceEvent_calm
    | with_reducible apply Dev.goto_calm
    | with_reducible apply Dev.modCell_calm
    | (split
       all_goals try (rename_i heq
                      have h2 := congrArg Prod.snd heq
                      have h1 := congrArg Prod.fst heq
                      dsimp only at h1 h2
                      subst h1 h2
                      clear heq))
    | dsimp +zetaDelta only

end Sys2Proof.Machine
end

