-- ==== Sys2Proof/Laws/Latch.lean ====
section
/-! SUPPORT. The latched bits of the collectors: nothing but an event, an injection or a clear changes one. -/

set_option linter.unreachableTactic false
set_option linter.unusedTactic false

namespace Sys2Proof.Machine

/-- The latched bits of every collector. -/
def Dev.latch (s : Dev) : Nat → Quad := fun k => (s.coll k).latched

theorem Dev.setColl_latch {x : Nat → Quad} (s : Dev) (k : Nat) (v : Coll) (hv : v.latched = (s.coll k).latched)
    (h : Dev.latch s = x) : Dev.latch (Dev.setColl s k v) = x := by
  rw [← h]
  funext j
  simp only [Dev.latch, Dev.coll, Dev.setColl]
  by_cases e : j = k
  · subst e; rw [Sparse.get_set_same]; exact hv
  · rw [Sparse.get_set_ne _ _ _ _ _ e]
theorem Dev.modColl_latch {x : Nat → Quad} (s : Dev) (k : Nat) (f : Coll → Coll) (hf : ∀ r, (f r).latched = r.latched)
    (h : Dev.latch s = x) : Dev.latch (Dev.modColl s k f) = x := Dev.setColl_latch s k _ (hf _) h

theorem latch_ite {x : Nat → Quad} {a b : Dev} {p : Prop} [Decidable p] (ha : Dev.latch a = x) (hb : Dev.latch b = x) :
    Dev.latch (if p then a else b) = x := by split <;> assumption
theorem latch_foldl {x : Nat → Quad} {α : Type} {f : Dev → α → Dev} {l : List α} {s : Dev}
    (hf : ∀ t a y, Dev.latch t = y → Dev.latch (f t a) = y) (h : Dev.latch s = x) : Dev.latch (l.foldl f s) = x := by
  induction l generalizing s with
  | nil => exact h
  | cons a l ih => exact ih (hf s a x h)
theorem latch_foldl3 {x : Nat → Quad} {α β γ : Type} {f : γ × β × Dev → α → γ × β × Dev} {l : List α} {p : γ × β × Dev}
    (hf : ∀ t a y, Dev.latch t.2.2 = y → Dev.latch (f t a).2.2 = y) (h : Dev.latch p.2.2 = x) :
    Dev.latch (l.foldl f p).2.2 = x := by
  induction l generalizing p with
  | nil => exact h
  | cons a l ih => exact ih (hf p a x h)

theorem Dev.latch_upd_barges {x : Nat → Quad} {s : Dev} {v0 : Sparse Barge} (h : Dev.latch s = x) :
    Dev.latch { s with barges := v0 } = x := h
theorem Dev.latch_upd_blocks {x : Nat → Quad} {s : Dev} {v0 : Sparse Block} (h : Dev.latch s = x) :
    Dev.latch { s with blocks := v0 } = x := h
theorem Dev.latch_upd_cells {x : Nat → Quad} {s : Dev} {v0 : Sparse Cell} (h : Dev.latch s = x) :
    Dev.latch { s with cells := v0 } = x := h
theorem Dev.latch_upd_complq {x : Nat → Quad} {s : Dev} {v0 : List Completion} (h : Dev.latch s = x) :
    Dev.latch { s with complq := v0 } = x := h
theorem Dev.latch_upd_convs {x : Nat → Quad} {s : Dev} {v0 : Sparse Conv} (h : Dev.latch s = x) :
    Dev.latch { s with convs := v0 } = x := h
theorem Dev.latch_upd_err {x : Nat → Quad} {s : Dev} {v0 : ErrN} (h : Dev.latch s = x) :
    Dev.latch { s with err := v0 } = x := h
theorem Dev.latch_upd_evq {x : Nat → Quad} {s : Dev} {v0 : List Event} (h : Dev.latch s = x) :
    Dev.latch { s with evq := v0 } = x := h
theorem Dev.latch_upd_freeCount {x : Nat → Quad} {s : Dev} {v0 : Nat} (h : Dev.latch s = x) :
    Dev.latch { s with freeCount := v0 } = x := h
theorem Dev.latch_upd_laneWaits {x : Nat → Quad} {s : Dev} {v0 : List LaneWait} (h : Dev.latch s = x) :
    Dev.latch { s with laneWaits := v0 } = x := h
theorem Dev.latch_upd_lanes {x : Nat → Quad} {s : Dev} {v0 : Sparse Lane} (h : Dev.latch s = x) :
    Dev.latch { s with lanes := v0 } = x := h
theorem Dev.latch_upd_out {x : Nat → Quad} {s : Dev} {v0 : List Out} (h : Dev.latch s = x) :
    Dev.latch { s with out := v0 } = x := h
theorem Dev.latch_upd_prof_profPend {x : Nat → Quad} {s : Dev} {v0 : Sparse Word} {v1 : Sparse (Word × Word)} (h : Dev.latch s = x) :
    Dev.latch { s with prof := v0, profPend := v1 } = x := h
theorem Dev.latch_upd_regions {x : Nat → Quad} {s : Dev} {v0 : Sparse Region} (h : Dev.latch s = x) :
    Dev.latch { s with regions := v0 } = x := h
theorem Dev.latch_upd_regs {x : Nat → Quad} {s : Dev} {v0 : Sparse Word} (h : Dev.latch s = x) :
    Dev.latch { s with regs := v0 } = x := h
theorem Dev.latch_upd_regsPend {x : Nat → Quad} {s : Dev} {v0 : Sparse (Word × Word)} (h : Dev.latch s = x) :
    Dev.latch { s with regsPend := v0 } = x := h
theorem Dev.latch_upd_reports {x : Nat → Quad} {s : Dev} {v0 : List Report} (h : Dev.latch s = x) :
    Dev.latch { s with reports := v0 } = x := h
theorem Dev.latch_upd_slMsgs {x : Nat → Quad} {s : Dev} {v0 : List SlMsg} (h : Dev.latch s = x) :
    Dev.latch { s with slMsgs := v0 } = x := h
theorem Dev.latch_upd_slices {x : Nat → Quad} {s : Dev} {v0 : Sparse Slice} (h : Dev.latch s = x) :
    Dev.latch { s with slices := v0 } = x := h
theorem Dev.latch_upd_tripSeq {x : Nat → Quad} {s : Dev} {v0 : Nat} (h : Dev.latch s = x) :
    Dev.latch { s with tripSeq := v0 } = x := h

theorem Dev.setBarge_latch {x : Nat → Quad} (s : Dev) (e : Nat) (v : Barge)
    (h : Dev.latch s = x) : Dev.latch (Dev.setBarge s e v) = x := by
  unfold Dev.setBarge
  repeat' first
    | with_reducible assumption
    | intro _
    | extract_lets
    | with_reducible apply latch_ite
    | (split
       all_goals try (rename_i heq
                      have h2 := congrArg Prod.snd heq
                      have h1 := congrArg Prod.fst heq
                      dsimp only at h1 h2
                      subst h1 h2
                      clear heq))
    | with_reducible apply Dev.latch_upd_barges
    | dsimp only [Lock.count]
    | dsimp +zetaDelta only

theorem Dev.modBarge_latch {x : Nat → Quad} (s : Dev) (e : Nat) (f : Barge → Barge)
    (h : Dev.latch s = x) : Dev.latch (Dev.modBarge s e f) = x := by
  unfold Dev.modBarge
  repeat' first
    | with_reducible assumption
    | intro _
    | extract_lets
    | with_reducible apply latch_ite
    | with_reducible apply Dev.setBarge_latch
    | (split
       all_goals try (rename_i heq
                      have h2 := congrArg Prod.snd heq
                      have h1 := congrArg Prod.fst heq
                      dsimp only at h1 h2
                      subst h1 h2
                      clear heq))
    | dsimp only [Lock.count]
    | dsimp +zetaDelta only

theorem Dev.raise_latch {x : Nat → Quad} (s : Dev) (e : Event)
    (h : Dev.latch s = x) : Dev.latch (Dev.raise s e) = x := by
  unfold Dev.raise
  repeat' first
    | with_reducible assumption
    | intro _
    | extract_lets
    | with_reducible apply latch_ite
    | (split
       all_goals try (rename_i heq
                      have h2 := congrArg Prod.snd heq
                      have h1 := congrArg Prod.fst heq
                      dsimp only at h1 h2
                      subst h1 h2
                      clear heq))
    | with_reducible apply Dev.latch_upd_evq
    | dsimp only [Lock.count]
    | dsimp +zetaDelta only

theorem Dev.setRegion_latch {x : Nat → Quad} (s : Dev) (g : Nat) (v : Region)
    (h : Dev.latch s = x) : Dev.latch (Dev.setRegion s g v) = x := by
  unfold Dev.setRegion
  repeat' first
    | with_reducible assumption
    | intro _
    | extract_lets
    | with_reducible apply latch_ite
    | (split
       all_goals try (rename_i heq
                      have h2 := congrArg Prod.snd heq
                      have h1 := congrArg Prod.fst heq
                      dsimp only at h1 h2
                      subst h1 h2
                      clear heq))
    | with_reducible apply Dev.latch_upd_regions
    | dsimp only [Lock.count]
    | dsimp +zetaDelta only

theorem Dev.modRegion_latch {x : Nat → Quad} (s : Dev) (g : Nat) (f : Region → Region)
    (h : Dev.latch s = x) : Dev.latch (Dev.modRegion s g f) = x := by
  unfold Dev.modRegion
  repeat' first
    | with_reducible assumption
    | intro _
    | extract_lets
    | with_reducible apply latch_ite
    | with_reducible apply Dev.setRegion_latch
    | (split
       all_goals try (rename_i heq
                      have h2 := congrArg Prod.snd heq
                      have h1 := congrArg Prod.fst heq
                      dsimp only at h1 h2
                      subst h1 h2
                      clear heq))
    | dsimp only [Lock.count]
    | dsimp +zetaDelta only

theorem Dev.raiseIsland_latch {x : Nat → Quad} (s : Dev) (g : Nat) (hold : Bool) (e : Event)
    (h : Dev.latch s = x) : Dev.latch (Dev.raiseIsland s g hold e) = x := by
  unfold Dev.raiseIsland
  repeat' first
    | with_reducible assumption
    | intro _
    | extract_lets
    | with_reducible apply latch_ite
    | with_reducible apply Dev.modRegion_latch
    | with_reducible apply Dev.raise_latch
    | (split
       all_goals try (rename_i heq
                      have h2 := congrArg Prod.snd heq
                      have h1 := congrArg Prod.fst heq
                      dsimp only at h1 h2
                      subst h1 h2
                      clear heq))
    | dsimp only [Lock.count]
    | dsimp +zetaDelta only

theorem Dev.collEvent_latch {x : Nat → Quad} (s : Dev) (k : Nat) (code : Nat) (flag : Bool) (payload : List Word)
    (h : Dev.latch s = x) : Dev.latch (Dev.collEvent s k code flag payload) = x := by
  unfold Dev.collEvent
  repeat' first
    | with_reducible assumption
    | intro _
    | extract_lets
    | with_reducible apply latch_ite
    | with_reducible apply Dev.raiseIsland_latch
    | with_reducible apply Dev.raise_latch
    | (split
       all_goals try (rename_i heq
                      have h2 := congrArg Prod.snd heq
                      have h1 := congrArg Prod.fst heq
                      dsimp only at h1 h2
                      subst h1 h2
                      clear heq))
    | dsimp only [Lock.count]
    | dsimp +zetaDelta only

theorem Dev.irq_latch {x : Nat → Quad} (s : Dev) (e : Nat) (n : Nat)
    (h : Dev.latch s = x) : Dev.latch (Dev.irq s e n) = x := by
  unfold Dev.irq
  repeat' first
    | with_reducible assumption
    | intro _
    | extract_lets
    | with_reducible apply latch_ite
    | with_reducible apply Dev.modBarge_latch
    | (split
       all_goals try (rename_i heq
                      have h2 := congrArg Prod.snd heq
                      have h1 := congrArg Prod.fst heq
                      dsimp only at h1 h2
                      subst h1 h2
                      clear heq))
    | dsimp only [Lock.count]
    | dsimp +zetaDelta only

theorem Dev.forEach_latch {x : Nat → Quad} {α : Type} (l : List α) (f : Dev → α → Dev) (s : Dev) (h_f : ∀ u0 u1 y, Dev.latch u0 = y → Dev.latch (f u0 u1) = y)
    (h : Dev.latch s = x) : Dev.latch (Dev.forEach l f s) = x := by
  unfold Dev.forEach
  exact latch_foldl h_f h

theorem Dev.irqAll_latch {x : Nat → Quad} (s : Dev) (n : Nat)
    (h : Dev.latch s = x) : Dev.latch (Dev.irqAll s n) = x := by
  unfold Dev.irqAll
  repeat' first
    | with_reducible assumption
    | intro _
    | extract_lets
    | with_reducible apply latch_ite
    | with_reducible apply Dev.forEach_latch
    | with_reducible apply Dev.irq_latch
    | (split
       all_goals try (rename_i heq
                      have h2 := congrArg Prod.snd heq
                      have h1 := congrArg Prod.fst heq
                      dsimp only at h1 h2
                      subst h1 h2
                      clear heq))
    | dsimp only [Lock.count]
    | dsimp +zetaDelta only

theorem Dev.irqRegion_latch {x : Nat → Quad} (s : Dev) (g : Nat) (n : Nat)
    (h : Dev.latch s = x) : Dev.latch (Dev.irqRegion s g n) = x := by
  unfold Dev.irqRegion
  repeat' first
    | with_reducible assumption
    | intro _
    | extract_lets
    | with_reducible apply latch_ite
    | with_reducible apply Dev.forEach_latch
    | with_reducible apply Dev.irq_latch
    | (split
       all_goals try (rename_i heq
                      have h2 := congrArg Prod.snd heq
                      have h1 := congrArg Prod.fst heq
                      dsimp only at h1 h2
                      subst h1 h2
                      clear heq))
    | dsimp only [Lock.count]
    | dsimp +zetaDelta only

theorem Dev.faultEvent_latch {x : Nat → Quad} (s : Dev) (k : Nat) (flag : Bool) (e : HistEntry)
    (h : Dev.latch s = x) : Dev.latch (Dev.faultEvent s k flag e) = x := by
  unfold Dev.faultEvent
  repeat' first
    | with_reducible assumption
    | intro _
    | extract_lets
    | with_reducible apply latch_ite
    | with_reducible apply Dev.irqRegion_latch
    | with_reducible apply Dev.irqAll_latch
    | with_reducible apply Dev.collEvent_latch
    | (split
       all_goals try (rename_i heq
                      have h2 := congrArg Prod.snd heq
                      have h1 := congrArg Prod.fst heq
                      dsimp only at h1 h2
                      subst h1 h2
                      clear heq))
    | dsimp only [Lock.count]
    | dsimp +zetaDelta only

theorem Dev.history_latch {x : Nat → Quad} (s : Dev) (k : Nat) (e : HistEntry)
    (h : Dev.latch s = x) : Dev.latch (Dev.history s k e) = x := by
  unfold Dev.history
  repeat' first
    | with_reducible assumption
    | intro _
    | extract_lets
    | with_reducible apply latch_ite
    | with_reducible apply Dev.collEvent_latch
    | (with_reducible apply Dev.setColl_latch
       · first | rfl | (split <;> rfl))
    | (split
       all_goals try (rename_i heq
                      have h2 := congrArg Prod.snd heq
                      have h1 := congrArg Prod.fst heq
                      dsimp only at h1 h2
                      subst h1 h2
                      clear heq))
    | dsimp only [Lock.count]
    | dsimp +zetaDelta only

theorem Dev.unoccur_latch {x : Nat → Quad} (s : Dev) (k : Nat) (src : Nat)
    (h : Dev.latch s = x) : Dev.latch (Dev.unoccur s k src) = x := by
  unfold Dev.unoccur
  repeat' first
    | with_reducible assumption
    | intro _
    | extract_lets
    | with_reducible apply latch_ite
    | with_reducible apply Dev.history_latch
    | with_reducible apply Dev.faultEvent_latch
    | (with_reducible apply Dev.setColl_latch
       · first | rfl | (split <;> rfl))
    | (split
       all_goals try (rename_i heq
                      have h2 := congrArg Prod.snd heq
                      have h1 := congrArg Prod.fst heq
                      dsimp only at h1 h2
                      subst h1 h2
                      clear heq))
    | dsimp only [Lock.count]
    | dsimp +zetaDelta only

theorem Dev.latchedCheck_latch {x : Nat → Quad} (s : Dev) (b : Nat)
    (h : Dev.latch s = x) : Dev.latch (Dev.latchedCheck s b) = x := by
  unfold Dev.latchedCheck
  repeat' first
    | with_reducible assumption
    | intro _
    | extract_lets
    | with_reducible apply latch_ite
    | with_reducible apply Dev.unoccur_latch
    | (split
       all_goals try (rename_i heq
                      have h2 := congrArg Prod.snd heq
                      have h1 := congrArg Prod.fst heq
                      dsimp only at h1 h2
                      subst h1 h2
                      clear heq))
    | dsimp only [Lock.count]
    | dsimp +zetaDelta only

theorem Dev.cellEvent_latch {x : Nat → Quad} (s : Dev) (c : Nat) (maskBit : Nat) (code : Nat) (flag : Bool) (payload : List Word)
    (h : Dev.latch s = x) : Dev.latch (Dev.cellEvent s c maskBit code flag payload) = x := by
  unfold Dev.cellEvent
  repeat' first
    | with_reducible assumption
    | intro _
    | extract_lets
    | with_reducible apply latch_ite
    | with_reducible apply Dev.raiseIsland_latch
    | (split
       all_goals try (rename_i heq
                      have h2 := congrArg Prod.snd heq
                      have h1 := congrArg Prod.fst heq
                      dsimp only at h1 h2
                      subst h1 h2
                      clear heq))
    | dsimp only [Lock.count]
    | dsimp +zetaDelta only

theorem Dev.setLane_latch {x : Nat → Quad} (s : Dev) (c : Nat) (v : Lane)
    (h : Dev.latch s = x) : Dev.latch (Dev.setLane s c v) = x := by
  unfold Dev.setLane
  repeat' first
    | with_reducible assumption
    | intro _
    | extract_lets
    | with_reducible apply latch_ite
    | (split
       all_goals try (rename_i heq
                      have h2 := congrArg Prod.snd heq
                      have h1 := congrArg Prod.fst heq
                      dsimp only at h1 h2
                      subst h1 h2
                      clear heq))
    | with_reducible apply Dev.latch_upd_lanes
    | dsimp only [Lock.count]
    | dsimp +zetaDelta only

theorem Dev.modLane_latch {x : Nat → Quad} (s : Dev) (c : Nat) (f : Lane → Lane)
    (h : Dev.latch s = x) : Dev.latch (Dev.modLane s c f) = x := by
  unfold Dev.modLane
  repeat' first
    | with_reducible assumption
    | intro _
    | extract_lets
    | with_reducible apply latch_ite
    | with_reducible apply Dev.setLane_latch
    | (split
       all_goals try (rename_i heq
                      have h2 := congrArg Prod.snd heq
                      have h1 := congrArg Prod.fst heq
                      dsimp only at h1 h2
                      subst h1 h2
                      clear heq))
    | dsimp only [Lock.count]
    | dsimp +zetaDelta only

theorem Dev.abortWindow_latch {x : Nat → Quad} (s : Dev) (c : Nat) (clocks : Nat) (again : Bool)
    (h : Dev.latch s = x) : Dev.latch (Dev.abortWindow s c clocks again) = x := by
  unfold Dev.abortWindow
  repeat' first
    | with_reducible assumption
    | intro _
    | extract_lets
    | with_reducible apply latch_ite
    | with_reducible apply Dev.modLane_latch
    | (split
       all_goals try (rename_i heq
                      have h2 := congrArg Prod.snd heq
                      have h1 := congrArg Prod.fst heq
                      dsimp only at h1 h2
                      subst h1 h2
                      clear heq))
    | dsimp only [Lock.count]
    | dsimp +zetaDelta only

theorem Dev.startLane_latch {x : Nat → Quad} (s : Dev) (c : Nat)
    (h : Dev.latch s = x) : Dev.latch (Dev.startLane s c) = x := by
  unfold Dev.startLane
  repeat' first
    | with_reducible assumption
    | intro _
    | extract_lets
    | with_reducible apply latch_ite
    | with_reducible apply Dev.abortWindow_latch
    | with_reducible apply Dev.modLane_latch
    | (split
       all_goals try (rename_i heq
                      have h2 := congrArg Prod.snd heq
                      have h1 := congrArg Prod.fst heq
                      dsimp only at h1 h2
                      subst h1 h2
                      clear heq))
    | dsimp only [Lock.count]
    | dsimp +zetaDelta only

theorem Dev.stopLane_latch {x : Nat → Quad} (s : Dev) (c : Nat) (clocks : Nat)
    (h : Dev.latch s = x) : Dev.latch (Dev.stopLane s c clocks) = x := by
  unfold Dev.stopLane
  repeat' first
    | with_reducible assumption
    | intro _
    | extract_lets
    | with_reducible apply latch_ite
    | with_reducible apply Dev.abortWindow_latch
    | with_reducible apply Dev.modLane_latch
    | (split
       all_goals try (rename_i heq
                      have h2 := congrArg Prod.snd heq
                      have h1 := congrArg Prod.fst heq
                      dsimp only at h1 h2
                      subst h1 h2
                      clear heq))
    | dsimp only [Lock.count]
    | dsimp +zetaDelta only

theorem Dev.gateLane_latch {x : Nat → Quad} (s : Dev) (c : Nat) (clocks : Nat)
    (h : Dev.latch s = x) : Dev.latch (Dev.gateLane s c clocks) = x := by
  unfold Dev.gateLane
  repeat' first
    | with_reducible assumption
    | intro _
    | extract_lets
    | with_reducible apply latch_ite
    | with_reducible apply Dev.stopLane_latch
    | with_reducible apply Dev.startLane_latch
    | (split
       all_goals try (rename_i heq
                      have h2 := congrArg Prod.snd heq
                      have h1 := congrArg Prod.fst heq
                      dsimp only at h1 h2
                      subst h1 h2
                      clear heq))
    | dsimp only [Lock.count]
    | dsimp +zetaDelta only

theorem Dev.drawNat_latch {x : Nat → Quad} (s : Dev)
    (h : Dev.latch s = x) : Dev.latch (Dev.drawNat s).2 = x := by
  unfold Dev.drawNat
  repeat' first
    | with_reducible assumption
    | intro _
    | extract_lets
    | with_reducible apply latch_ite
    | (split
       all_goals try (rename_i heq
                      have h2 := congrArg Prod.snd heq
                      have h1 := congrArg Prod.fst heq
                      dsimp only at h1 h2
                      subst h1 h2
                      clear heq))
    | with_reducible apply Dev.latch_upd_freeCount
    | dsimp only [Lock.count]
    | dsimp +zetaDelta only

theorem Dev.setConv_latch {x : Nat → Quad} (s : Dev) (b : Nat) (v : Conv)
    (h : Dev.latch s = x) : Dev.latch (Dev.setConv s b v) = x := by
  unfold Dev.setConv
  repeat' first
    | with_reducible assumption
    | intro _
    | extract_lets
    | with_reducible apply latch_ite
    | (split
       all_goals try (rename_i heq
                      have h2 := congrArg Prod.snd heq
                      have h1 := congrArg Prod.fst heq
                      dsimp only at h1 h2
                      subst h1 h2
                      clear heq))
    | with_reducible apply Dev.latch_upd_convs
    | dsimp only [Lock.count]
    | dsimp +zetaDelta only

theorem Dev.modConv_latch {x : Nat → Quad} (s : Dev) (b : Nat) (f : Conv → Conv)
    (h : Dev.latch s = x) : Dev.latch (Dev.modConv s b f) = x := by
  unfold Dev.modConv
  repeat' first
    | with_reducible assumption
    | intro _
    | extract_lets
    | with_reducible apply latch_ite
    | with_reducible apply Dev.setConv_latch
    | (split
       all_goals try (rename_i heq
                      have h2 := congrArg Prod.snd heq
                      have h1 := congrArg Prod.fst heq
                      dsimp only at h1 h2
                      subst h1 h2
                      clear heq))
    | dsimp only [Lock.count]
    | dsimp +zetaDelta only

theorem Dev.setBlock_latch {x : Nat → Quad} (s : Dev) (b : Nat) (v : Block)
    (h : Dev.latch s = x) : Dev.latch (Dev.setBlock s b v) = x := by
  unfold Dev.setBlock
  repeat' first
    | with_reducible assumption
    | intro _
    | extract_lets
    | with_reducible apply latch_ite
    | (split
       all_goals try (rename_i heq
                      have h2 := congrArg Prod.snd heq
                      have h1 := congrArg Prod.fst heq
                      dsimp only at h1 h2
                      subst h1 h2
                      clear heq))
    | with_reducible apply Dev.latch_upd_blocks
    | dsimp only [Lock.count]
    | dsimp +zetaDelta only

theorem Dev.modBlock_latch {x : Nat → Quad} (s : Dev) (b : Nat) (f : Block → Block)
    (h : Dev.latch s = x) : Dev.latch (Dev.modBlock s b f) = x := by
  unfold Dev.modBlock
  repeat' first
    | with_reducible assumption
    | intro _
    | extract_lets
    | with_reducible apply latch_ite
    | with_reducible apply Dev.setBlock_latch
    | (split
       all_goals try (rename_i heq
                      have h2 := congrArg Prod.snd heq
                      have h1 := congrArg Prod.fst heq
                      dsimp only at h1 h2
                      subst h1 h2
                      clear heq))
    | dsimp only [Lock.count]
    | dsimp +zetaDelta only

theorem Dev.setCell_latch {x : Nat → Quad} (s : Dev) (c : Nat) (v : Cell)
    (h : Dev.latch s = x) : Dev.latch (Dev.setCell s c v) = x := by
  unfold Dev.setCell
  repeat' first
    | with_reducible assumption
    | intro _
    | extract_lets
    | with_reducible apply latch_ite
    | (split
       all_goals try (rename_i heq
                      have h2 := congrArg Prod.snd heq
                      have h1 := congrArg Prod.fst heq
                      dsimp only at h1 h2
                      subst h1 h2
                      clear heq))
    | with_reducible apply Dev.latch_upd_cells
    | dsimp only [Lock.count]
    | dsimp +zetaDelta only

theorem Dev.modCell_latch {x : Nat → Quad} (s : Dev) (c : Nat) (f : Cell → Cell)
    (h : Dev.latch s = x) : Dev.latch (Dev.modCell s c f) = x := by
  unfold Dev.modCell
  repeat' first
    | with_reducible assumption
    | intro _
    | extract_lets
    | with_reducible apply latch_ite
    | with_reducible apply Dev.setCell_latch
    | (split
       all_goals try (rename_i heq
                      have h2 := congrArg Prod.snd heq
                      have h1 := congrArg Prod.fst heq
                      dsimp only at h1 h2
                      subst h1 h2
                      clear heq))
    | dsimp only [Lock.count]
    | dsimp +zetaDelta only

theorem Dev.startTests_latch {x : Nat → Quad} (s : Dev) (c : Nat)
    (h : Dev.latch s = x) : Dev.latch (Dev.startTests s c) = x := by
  unfold Dev.startTests
  repeat' first
    | with_reducible assumption
    | intro _
    | extract_lets
    | with_reducible apply latch_ite
    | with_reducible apply Dev.modCell_latch
    | with_reducible apply Dev.modBlock_latch
    | (split
       all_goals try (rename_i heq
                      have h2 := congrArg Prod.snd heq
                      have h1 := congrArg Prod.fst heq
                      dsimp only at h1 h2
                      subst h1 h2
                      clear heq))
    | dsimp only [Lock.count]
    | dsimp +zetaDelta only

theorem Dev.holdExit_latch {x : Nat → Quad} (s : Dev) (c : Nat)
    (h : Dev.latch s = x) : Dev.latch (Dev.holdExit s c) = x := by
  unfold Dev.holdExit
  repeat' first
    | with_reducible assumption
    | intro _
    | extract_lets
    | with_reducible apply latch_ite
    | with_reducible apply Dev.modCell_latch
    | (split
       all_goals try (rename_i heq
                      have h2 := congrArg Prod.snd heq
                      have h1 := congrArg Prod.fst heq
                      dsimp only at h1 h2
                      subst h1 h2
                      clear heq))
    | dsimp only [Lock.count]
    | dsimp +zetaDelta only

theorem Dev.emit_latch {x : Nat → Quad} (s : Dev) (o : Out)
    (h : Dev.latch s = x) : Dev.latch (Dev.emit s o) = x := by
  unfold Dev.emit
  repeat' first
    | with_reducible assumption
    | intro _
    | extract_lets
    | with_reducible apply latch_ite
    | (split
       all_goals try (rename_i heq
                      have h2 := congrArg Prod.snd heq
                      have h1 := congrArg Prod.fst heq
                      dsimp only at h1 h2
                      subst h1 h2
                      clear heq))
    | with_reducible apply Dev.latch_upd_out
    | dsimp only [Lock.count]
    | dsimp +zetaDelta only

theorem Dev.sendTrip_latch {x : Nat → Quad} (s : Dev) (g : Nat) (bit : Bool)
    (h : Dev.latch s = x) : Dev.latch (Dev.sendTrip s g bit) = x := by
  unfold Dev.sendTrip
  repeat' first
    | with_reducible assumption
    | intro _
    | extract_lets
    | with_reducible apply latch_ite
    | with_reducible apply Dev.emit_latch
    | (split
       all_goals try (rename_i heq
                      have h2 := congrArg Prod.snd heq
                      have h1 := congrArg Prod.fst heq
                      dsimp only at h1 h2
                      subst h1 h2
                      clear heq))
    | with_reducible apply Dev.latch_upd_tripSeq
    | dsimp only [Lock.count]
    | dsimp +zetaDelta only

theorem Dev.withBcast_latch {x : Nat → Quad} (s : Dev) (g : Nat) (f : Dev → Dev) (h_f : ∀ u0 y, Dev.latch u0 = y → Dev.latch (f u0) = y)
    (h : Dev.latch s = x) : Dev.latch (Dev.withBcast s g f) = x := by
  unfold Dev.withBcast
  repeat' first
    | with_reducible assumption
    | intro _
    | extract_lets
    | with_reducible apply latch_ite
    | with_reducible apply Dev.sendTrip_latch
    | with_reducible apply h_f
    | (split
       all_goals try (rename_i heq
                      have h2 := congrArg Prod.snd heq
                      have h1 := congrArg Prod.fst heq
                      dsimp only at h1 h2
                      subst h1 h2
                      clear heq))
    | dsimp only [Lock.count]
    | dsimp +zetaDelta only

theorem Dev.complete_latch {x : Nat → Quad} (s : Dev) (k : Completion)
    (h : Dev.latch s = x) : Dev.latch (Dev.complete s k) = x := by
  unfold Dev.complete
  repeat' first
    | with_reducible assumption
    | intro _
    | extract_lets
    | with_reducible apply latch_ite
    | (split
       all_goals try (rename_i heq
                      have h2 := congrArg Prod.snd heq
                      have h1 := congrArg Prod.fst heq
                      dsimp only at h1 h2
                      subst h1 h2
                      clear heq))
    | with_reducible apply Dev.latch_upd_complq
    | dsimp only [Lock.count]
    | dsimp +zetaDelta only

theorem Dev.decideHeld_latch {x : Nat → Quad} (s : Dev) (c : Nat) (bad : Bool) (cmd : Nat × Nat)
    (h : Dev.latch s = x) : Dev.latch (Dev.decideHeld s c bad cmd) = x := by
  unfold Dev.decideHeld
  repeat' first
    | with_reducible assumption
    | intro _
    | extract_lets
    | with_reducible apply latch_ite
    | with_reducible apply Dev.complete_latch
    | (split
       all_goals try (rename_i heq
                      have h2 := congrArg Prod.snd heq
                      have h1 := congrArg Prod.fst heq
                      dsimp only at h1 h2
                      subst h1 h2
                      clear heq))
    | with_reducible apply Dev.latch_upd_laneWaits
    | dsimp only [Lock.count]
    | dsimp +zetaDelta only

theorem Dev.endHeldOn_latch {x : Nat → Quad} (s : Dev) (c : Nat) (bad : Bool)
    (h : Dev.latch s = x) : Dev.latch (Dev.endHeldOn s c bad) = x := by
  unfold Dev.endHeldOn
  repeat' first
    | with_reducible assumption
    | intro _
    | extract_lets
    | with_reducible apply latch_ite
    | with_reducible apply Dev.decideHeld_latch
    | with_reducible apply Dev.modCell_latch
    | with_reducible apply Dev.forEach_latch
    | (split
       all_goals try (rename_i heq
                      have h2 := congrArg Prod.snd heq
                      have h1 := congrArg Prod.fst heq
                      dsimp only at h1 h2
                      subst h1 h2
                      clear heq))
    | dsimp only [Lock.count]
    | dsimp +zetaDelta only

theorem Dev.abortPulse_latch {x : Nat → Quad} (s : Dev) (c : Nat)
    (h : Dev.latch s = x) : Dev.latch (Dev.abortPulse s c) = x := by
  unfold Dev.abortPulse
  repeat' first
    | with_reducible assumption
    | intro _
    | extract_lets
    | with_reducible apply latch_ite
    | with_reducible apply Dev.modCell_latch
    | (split
       all_goals try (rename_i heq
                      have h2 := congrArg Prod.snd heq
                      have h1 := congrArg Prod.fst heq
                      dsimp only at h1 h2
                      subst h1 h2
                      clear heq))
    | dsimp only [Lock.count]
    | dsimp +zetaDelta only

theorem Dev.sendSl_latch {x : Nat → Quad} (s : Dev) (g : Nat) (a2 : SlMsg)
    (h : Dev.latch s = x) : Dev.latch (Dev.sendSl s g a2) = x := by
  unfold Dev.sendSl
  repeat' first
    | with_reducible assumption
    | intro _
    | extract_lets
    | with_reducible apply latch_ite
    | with_reducible apply Dev.modRegion_latch
    | (split
       all_goals try (rename_i heq
                      have h2 := congrArg Prod.snd heq
                      have h1 := congrArg Prod.fst heq
                      dsimp only at h1 h2
                      subst h1 h2
                      clear heq))
    | with_reducible apply Dev.latch_upd_slMsgs
    | dsimp only [Lock.count]
    | dsimp +zetaDelta only

theorem Dev.commitProf_latch {x : Nat → Quad} (s : Dev) (c : Nat)
    (h : Dev.latch s = x) : Dev.latch (Dev.commitProf s c) = x := by
  unfold Dev.commitProf
  repeat' first
    | with_reducible assumption
    | intro _
    | extract_lets
    | with_reducible apply latch_ite
    | with_reducible apply Dev.modCell_latch
    | (split
       all_goals try (rename_i heq
                      have h2 := congrArg Prod.snd heq
                      have h1 := congrArg Prod.fst heq
                      dsimp only at h1 h2
                      subst h1 h2
                      clear heq))
    | with_reducible apply Dev.latch_upd_prof_profPend
    | dsimp only [Lock.count]
    | dsimp +zetaDelta only

theorem Dev.goto_latch {x : Nat → Quad} (s : Dev) (c : Nat) (st : CellState)
    (h : Dev.latch s = x) : Dev.latch (Dev.goto s c st) = x := by
  unfold Dev.goto
  repeat' first
    | with_reducible assumption
    | intro _
    | extract_lets
    | with_reducible apply latch_ite
    | with_reducible apply Dev.commitProf_latch
    | with_reducible apply Dev.sendSl_latch
    | with_reducible apply Dev.abortPulse_latch
    | with_reducible apply Dev.endHeldOn_latch
    | with_reducible apply Dev.withBcast_latch
    | with_reducible apply Dev.holdExit_latch
    | with_reducible apply Dev.startTests_latch
    | with_reducible apply Dev.modCell_latch
    | with_reducible apply Dev.modConv_latch
    | with_reducible apply Dev.drawNat_latch
    | with_reducible apply Dev.gateLane_latch
    | with_reducible apply Dev.modLane_latch
    | with_reducible apply Dev.cellEvent_latch
    | (split
       all_goals try (rename_i heq
                      have h2 := congrArg Prod.snd heq
                      have h1 := congrArg Prod.fst heq
                      dsimp only at h1 h2
                      subst h1 h2
                      clear heq))
    | dsimp only [Lock.count]
    | dsimp +zetaDelta only

theorem Dev.enterSafe_latch {x : Nat → Quad} (s : Dev) (c : Nat)
    (h : Dev.latch s = x) : Dev.latch (Dev.enterSafe s c) = x := by
  unfold Dev.enterSafe
  repeat' first
    | with_reducible assumption
    | intro _
    | extract_lets
    | with_reducible apply latch_ite
    | with_reducible apply Dev.goto_latch
    | (split
       all_goals try (rename_i heq
                      have h2 := congrArg Prod.snd heq
                      have h1 := congrArg Prod.fst heq
                      dsimp only at h1 h2
                      subst h1 h2
                      clear heq))
    | dsimp only [Lock.count]
    | dsimp +zetaDelta only

theorem Dev.safeCells_latch {x : Nat → Quad} (s : Dev) (l : List Nat)
    (h : Dev.latch s = x) : Dev.latch (Dev.safeCells s l) = x := by
  unfold Dev.safeCells
  repeat' first
    | with_reducible assumption
    | intro _
    | extract_lets
    | with_reducible apply latch_ite
    | with_reducible apply Dev.enterSafe_latch
    | with_reducible apply Dev.latchedCheck_latch
    | with_reducible apply Dev.forEach_latch
    | (split
       all_goals try (rename_i heq
                      have h2 := congrArg Prod.snd heq
                      have h1 := congrArg Prod.fst heq
                      dsimp only at h1 h2
                      subst h1 h2
                      clear heq))
    | dsimp only [Lock.count]
    | dsimp +zetaDelta only

theorem Dev.setSlice_latch {x : Nat → Quad} (s : Dev) (k : Nat) (v : Slice)
    (h : Dev.latch s = x) : Dev.latch (Dev.setSlice s k v) = x := by
  unfold Dev.setSlice
  repeat' first
    | with_reducible assumption
    | intro _
    | extract_lets
    | with_reducible apply latch_ite
    | (split
       all_goals try (rename_i heq
                      have h2 := congrArg Prod.snd heq
                      have h1 := congrArg Prod.fst heq
                      dsimp only at h1 h2
                      subst h1 h2
                      clear heq))
    | with_reducible apply Dev.latch_upd_slices
    | dsimp only [Lock.count]
    | dsimp +zetaDelta only

theorem Dev.sliceEvent_latch {x : Nat → Quad} (s : Dev) (k : Nat) (code : Nat) (flag : Bool) (payload : List Word)
    (h : Dev.latch s = x) : Dev.latch (Dev.sliceEvent s k code flag payload) = x := by
  unfold Dev.sliceEvent
  repeat' first
    | with_reducible assumption
    | intro _
    | extract_lets
    | with_reducible apply latch_ite
    | with_reducible apply Dev.irqRegion_latch
    | with_reducible apply Dev.raiseIsland_latch
    | (split
       all_goals try (rename_i heq
                      have h2 := congrArg Prod.snd heq
                      have h1 := congrArg Prod.fst heq
                      dsimp only at h1 h2
                      subst h1 h2
                      clear heq))
    | dsimp only [Lock.count]
    | dsimp +zetaDelta only

theorem Dev.cutEvent_latch {x : Nat → Quad} (s : Dev) (k : Nat) (begins : Bool)
    (h : Dev.latch s = x) : Dev.latch (Dev.cutEvent s k begins) = x := by
  unfold Dev.cutEvent
  repeat' first
    | with_reducible assumption
    | intro _
    | extract_lets
    | with_reducible apply latch_ite
    | with_reducible apply Dev.sliceEvent_latch
    | (split
       all_goals try (rename_i heq
                      have h2 := congrArg Prod.snd heq
                      have h1 := congrArg Prod.fst heq
                      dsimp only at h1 h2
                      subst h1 h2
                      clear heq))
    | dsimp only [Lock.count]
    | dsimp +zetaDelta only

theorem Dev.cutUpdate_latch {x : Nat → Quad} (s : Dev) (k : Nat)
    (h : Dev.latch s = x) : Dev.latch (Dev.cutUpdate s k) = x := by
  unfold Dev.cutUpdate
  repeat' first
    | with_reducible assumption
    | intro _
    | extract_lets
    | with_reducible apply latch_ite
    | with_reducible apply Dev.cutEvent_latch
    | with_reducible apply Dev.setSlice_latch
    | (split
       all_goals try (rename_i heq
                      have h2 := congrArg Prod.snd heq
                      have h1 := congrArg Prod.fst heq
                      dsimp only at h1 h2
                      subst h1 h2
                      clear heq))
    | with_reducible apply Dev.latch_upd_slices
    | dsimp only [Lock.count]
    | dsimp +zetaDelta only

theorem Dev.sliceGoto_latch {x : Nat → Quad} (s : Dev) (k : Nat) (st : SliceState) (cause : Nat)
    (h : Dev.latch s = x) : Dev.latch (Dev.sliceGoto s k st cause) = x := by
  unfold Dev.sliceGoto
  repeat' first
    | with_reducible assumption
    | intro _
    | extract_lets
    | with_reducible apply latch_ite
    | with_reducible apply Dev.sliceEvent_latch
    | with_reducible apply Dev.setSlice_latch
    | (split
       all_goals try (rename_i heq
                      have h2 := congrArg Prod.snd heq
                      have h1 := congrArg Prod.fst heq
                      dsimp only at h1 h2
                      subst h1 h2
                      clear heq))
    | dsimp only [Lock.count]
    | dsimp +zetaDelta only

theorem Dev.setReg_latch {x : Nat → Quad} (s : Dev) (off : Nat) (v : Word)
    (h : Dev.latch s = x) : Dev.latch (Dev.setReg s off v) = x := by
  unfold Dev.setReg
  repeat' first
    | with_reducible assumption
    | intro _
    | extract_lets
    | with_reducible apply latch_ite
    | (split
       all_goals try (rename_i heq
                      have h2 := congrArg Prod.snd heq
                      have h1 := congrArg Prod.fst heq
                      dsimp only at h1 h2
                      subst h1 h2
                      clear heq))
    | with_reducible apply Dev.latch_upd_regs
    | dsimp only [Lock.count]
    | dsimp +zetaDelta only

theorem Dev.commitReg_latch {x : Nat → Quad} (s : Dev) (off : Nat)
    (h : Dev.latch s = x) : Dev.latch (Dev.commitReg s off) = x := by
  unfold Dev.commitReg
  repeat' first
    | with_reducible assumption
    | intro _
    | extract_lets
    | with_reducible apply latch_ite
    | with_reducible apply Dev.setReg_latch
    | (split
       all_goals try (rename_i heq
                      have h2 := congrArg Prod.snd heq
                      have h1 := congrArg Prod.fst heq
                      dsimp only at h1 h2
                      subst h1 h2
                      clear heq))
    | with_reducible apply Dev.latch_upd_regsPend
    | dsimp only [Lock.count]
    | dsimp +zetaDelta only

theorem Dev.commitCs_latch {x : Nat → Quad} (s : Dev) (k : Nat)
    (h : Dev.latch s = x) : Dev.latch (Dev.commitCs s k) = x := by
  unfold Dev.commitCs
  repeat' first
    | with_reducible assumption
    | intro _
    | extract_lets
    | with_reducible apply latch_ite
    | with_reducible apply Dev.commitReg_latch
    | with_reducible apply Dev.forEach_latch
    | (split
       all_goals try (rename_i heq
                      have h2 := congrArg Prod.snd heq
                      have h1 := congrArg Prod.fst heq
                      dsimp only at h1 h2
                      subst h1 h2
                      clear heq))
    | dsimp only [Lock.count]
    | dsimp +zetaDelta only

theorem Dev.putReg_latch {x : Nat → Quad} (s : Dev) (off : Nat) (lo : Nat) (len : Nat) (v : Nat)
    (h : Dev.latch s = x) : Dev.latch (Dev.putReg s off lo len v) = x := by
  unfold Dev.putReg
  repeat' first
    | with_reducible assumption
    | intro _
    | extract_lets
    | with_reducible apply latch_ite
    | with_reducible apply Dev.setReg_latch
    | (split
       all_goals try (rename_i heq
                      have h2 := congrArg Prod.snd heq
                      have h1 := congrArg Prod.fst heq
                      dsimp only at h1 h2
                      subst h1 h2
                      clear heq))
    | dsimp only [Lock.count]
    | dsimp +zetaDelta only

theorem Dev.modSlice_latch {x : Nat → Quad} (s : Dev) (k : Nat) (f : Slice → Slice)
    (h : Dev.latch s = x) : Dev.latch (Dev.modSlice s k f) = x := by
  unfold Dev.modSlice
  repeat' first
    | with_reducible assumption
    | intro _
    | extract_lets
    | with_reducible apply latch_ite
    | with_reducible apply Dev.setSlice_latch
    | (split
       all_goals try (rename_i heq
                      have h2 := congrArg Prod.snd heq
                      have h1 := congrArg Prod.fst heq
                      dsimp only at h1 h2
                      subst h1 h2
                      clear heq))
    | dsimp only [Lock.count]
    | dsimp +zetaDelta only

theorem Dev.killSlice_latch {x : Nat → Quad} (s : Dev) (k : Nat) (cause : Nat)
    (h : Dev.latch s = x) : Dev.latch (Dev.killSlice s k cause) = x := by
  unfold Dev.killSlice
  repeat' first
    | with_reducible assumption
    | intro _
    | extract_lets
    | with_reducible apply latch_ite
    | with_reducible apply Dev.modSlice_latch
    | with_reducible apply Dev.putReg_latch
    | with_reducible apply Dev.commitCs_latch
    | with_reducible apply Dev.commitReg_latch
    | with_reducible apply Dev.sliceGoto_latch
    | with_reducible apply Dev.cutUpdate_latch
    | (split
       all_goals try (rename_i heq
                      have h2 := congrArg Prod.snd heq
                      have h1 := congrArg Prod.fst heq
                      dsimp only at h1 h2
                      subst h1 h2
                      clear heq))
    | dsimp only [Lock.count]
    | dsimp +zetaDelta only

theorem Dev.killSlices_latch {x : Nat → Quad} (s : Dev) (g : Nat)
    (h : Dev.latch s = x) : Dev.latch (Dev.killSlices s g) = x := by
  unfold Dev.killSlices
  repeat' first
    | with_reducible assumption
    | intro _
    | extract_lets
    | with_reducible apply latch_ite
    | with_reducible apply Dev.killSlice_latch
    | with_reducible apply Dev.forEach_latch
    | (split
       all_goals try (rename_i heq
                      have h2 := congrArg Prod.snd heq
                      have h1 := congrArg Prod.fst heq
                      dsimp only at h1 h2
                      subst h1 h2
                      clear heq))
    | dsimp only [Lock.count]
    | dsimp +zetaDelta only

theorem Dev.regionSafe_latch {x : Nat → Quad} (s : Dev) (g : Nat)
    (h : Dev.latch s = x) : Dev.latch (Dev.regionSafe s g) = x := by
  unfold Dev.regionSafe
  repeat' first
    | with_reducible assumption
    | intro _
    | extract_lets
    | with_reducible apply latch_ite
    | with_reducible apply Dev.killSlices_latch
    | with_reducible apply Dev.safeCells_latch
    | (split
       all_goals try (rename_i heq
                      have h2 := congrArg Prod.snd heq
                      have h1 := congrArg Prod.fst heq
                      dsimp only at h1 h2
                      subst h1 h2
                      clear heq))
    | dsimp only [Lock.count]
    | dsimp +zetaDelta only

theorem Dev.blockSafe_latch {x : Nat → Quad} (s : Dev) (b : Nat)
    (h : Dev.latch s = x) : Dev.latch (Dev.blockSafe s b) = x := by
  unfold Dev.blockSafe
  repeat' first
    | with_reducible assumption
    | intro _
    | extract_lets
    | with_reducible apply latch_ite
    | with_reducible apply Dev.safeCells_latch
    | (split
       all_goals try (rename_i heq
                      have h2 := congrArg Prod.snd heq
                      have h1 := congrArg Prod.fst heq
                      dsimp only at h1 h2
                      subst h1 h2
                      clear heq))
    | dsimp only [Lock.count]
    | dsimp +zetaDelta only

theorem Dev.stand_latch {x : Nat → Quad} (s : Dev) (k : Nat) (src : Nat) (scope : SafeScope) (fatal : Bool)
    (h : Dev.latch s = x) : Dev.latch (Dev.stand s k src scope fatal) = x := by
  unfold Dev.stand
  repeat' first
    | with_reducible assumption
    | intro _
    | extract_lets
    | with_reducible apply latch_ite
    | (with_reducible apply Dev.modColl_latch
       · intro r; first | rfl | (split <;> rfl) | (split <;> split <;> rfl))
    | (split
       all_goals try (rename_i heq
                      have h2 := congrArg Prod.snd heq
                      have h1 := congrArg Prod.fst heq
                      dsimp only at h1 h2
                      subst h1 h2
                      clear heq))
    | dsimp only [Lock.count]
    | dsimp +zetaDelta only

theorem Dev.safeReact_latch {x : Nat → Quad} (s : Dev) (k : Nat) (src : Nat) (info : Nat) (mask : Nat) (fatal : Bool)
    (h : Dev.latch s = x) : Dev.latch (Dev.safeReact s k src info mask fatal) = x := by
  unfold Dev.safeReact
  repeat' first
    | with_reducible assumption
    | intro _
    | extract_lets
    | with_reducible apply latch_ite
    | with_reducible apply Dev.stand_latch
    | with_reducible apply Dev.blockSafe_latch
    | with_reducible apply Dev.regionSafe_latch
    | with_reducible apply Dev.safeCells_latch
    | (with_reducible apply Dev.modColl_latch
       · intro r; first | rfl | (split <;> rfl) | (split <;> split <;> rfl))
    | (split
       all_goals try (rename_i heq
                      have h2 := congrArg Prod.snd heq
                      have h1 := congrArg Prod.fst heq
                      dsimp only at h1 h2
                      subst h1 h2
                      clear heq))
    | dsimp only [Lock.count]
    | dsimp +zetaDelta only

theorem Dev.report_latch {x : Nat → Quad} (s : Dev) (g : Nat) (r : Report)
    (h : Dev.latch s = x) : Dev.latch (Dev.report s g r) = x := by
  unfold Dev.report
  repeat' first
    | with_reducible assumption
    | intro _
    | extract_lets
    | with_reducible apply latch_ite
    | (with_reducible apply Dev.modColl_latch
       · intro r; first | rfl | (split <;> rfl) | (split <;> split <;> rfl))
    | (split
       all_goals try (rename_i heq
                      have h2 := congrArg Prod.snd heq
                      have h1 := congrArg Prod.fst heq
                      dsimp only at h1 h2
                      subst h1 h2
                      clear heq))
    | with_reducible apply Dev.latch_upd_reports
    | dsimp only [Lock.count]
    | dsimp +zetaDelta only

theorem Dev.errEvent_latch {x : Nat → Quad} (s : Dev)
    (h : Dev.latch s = x) : Dev.latch (Dev.errEvent s) = x := by
  unfold Dev.errEvent
  repeat' first
    | with_reducible assumption
    | intro _
    | extract_lets
    | with_reducible apply latch_ite
    | with_reducible apply Dev.collEvent_latch
    | (split
       all_goals try (rename_i heq
                      have h2 := congrArg Prod.snd heq
                      have h1 := congrArg Prod.fst heq
                      dsimp only at h1 h2
                      subst h1 h2
                      clear heq))
    | dsimp only [Lock.count]
    | dsimp +zetaDelta only

theorem Dev.errAssert_latch {x : Nat → Quad} (s : Dev)
    (h : Dev.latch s = x) : Dev.latch (Dev.errAssert s) = x := by
  unfold Dev.errAssert
  repeat' first
    | with_reducible assumption
    | intro _
    | extract_lets
    | with_reducible apply latch_ite
    | with_reducible apply Dev.errEvent_latch
    | (split
       all_goals try (rename_i heq
                      have h2 := congrArg Prod.snd heq
                      have h1 := congrArg Prod.fst heq
                      dsimp only at h1 h2
                      subst h1 h2
                      clear heq))
    | with_reducible apply Dev.latch_upd_err
    | dsimp only [Lock.count]
    | dsimp +zetaDelta only

theorem Dev.faultKey_latch {x : Nat → Quad} (s : Dev) (k : Nat) (src : Nat)
    (h : Dev.latch s = x) : Dev.latch (Dev.faultKey s k src).2.2 = x := by
  unfold Dev.faultKey
  repeat' first
    | with_reducible assumption
    | intro _
    | extract_lets
    | with_reducible apply latch_ite
    | (with_reducible apply Dev.modColl_latch
       · intro r; first | rfl | (split <;> rfl) | (split <;> split <;> rfl))
    | (split
       all_goals try (rename_i heq
                      have h2 := congrArg Prod.snd heq
                      have h1 := congrArg Prod.fst heq
                      dsimp only at h1 h2
                      subst h1 h2
                      clear heq))
    | dsimp only [Lock.count]
    | dsimp +zetaDelta only

theorem Dev.reactEvent_latch {x : Nat → Quad} (s : Dev) (k : Nat) (src : Nat) (info : Nat) (t : Nat) (deferred : Bool) (inj : Bool)
    (h : Dev.latch s = x) : Dev.latch (Dev.reactEvent s k src info t deferred inj) = x := by
  unfold Dev.reactEvent
  repeat' first
    | with_reducible assumption
    | intro _
    | extract_lets
    | with_reducible apply latch_ite
    | with_reducible apply Dev.faultKey_latch
    | with_reducible apply Dev.errAssert_latch
    | with_reducible apply Dev.report_latch
    | with_reducible apply Dev.safeReact_latch
    | with_reducible apply Dev.history_latch
    | with_reducible apply Dev.faultEvent_latch
    | (with_reducible apply Dev.modColl_latch
       · intro r; first | rfl | (split <;> rfl) | (split <;> split <;> rfl))
    | (split
       all_goals try (rename_i heq
                      have h2 := congrArg Prod.snd heq
                      have h1 := congrArg Prod.fst heq
                      dsimp only at h1 h2
                      subst h1 h2
                      clear heq))
    | dsimp only [Lock.count]
    | dsimp +zetaDelta only

theorem Dev.policyOff_latch {x : Nat → Quad} (s : Dev) (c : Nat)
    (h : Dev.latch s = x) : Dev.latch (Dev.policyOff s c) = x := by
  unfold Dev.policyOff
  repeat' first
    | with_reducible assumption
    | intro _
    | extract_lets
    | with_reducible apply latch_ite
    | with_reducible apply Dev.goto_latch
    | with_reducible apply Dev.modCell_latch
    | (split
       all_goals try (rename_i heq
                      have h2 := congrArg Prod.snd heq
                      have h1 := congrArg Prod.fst heq
                      dsimp only at h1 h2
                      subst h1 h2
                      clear heq))
    | dsimp only [Lock.count]
    | dsimp +zetaDelta only

theorem Dev.policyCells_latch {x : Nat → Quad} (s : Dev) (l : List Nat)
    (h : Dev.latch s = x) : Dev.latch (Dev.policyCells s l) = x := by
  unfold Dev.policyCells
  repeat' first
    | with_reducible assumption
    | intro _
    | extract_lets
    | with_reducible apply latch_ite
    | with_reducible apply Dev.policyOff_latch
    | with_reducible apply Dev.forEach_latch
    | (split
       all_goals try (rename_i heq
                      have h2 := congrArg Prod.snd heq
                      have h1 := congrArg Prod.fst heq
                      dsimp only at h1 h2
                      subst h1 h2
                      clear heq))
    | dsimp only [Lock.count]
    | dsimp +zetaDelta only

theorem Dev.policy_latch {x : Nat → Quad} (s : Dev) (g : Nat) (code : Nat)
    (h : Dev.latch s = x) : Dev.latch (Dev.policy s g code).2 = x := by
  unfold Dev.policy
  repeat' first
    | with_reducible assumption
    | intro _
    | extract_lets
    | with_reducible apply latch_ite
    | with_reducible apply Dev.policyCells_latch
    | (split
       all_goals try (rename_i heq
                      have h2 := congrArg Prod.snd heq
                      have h1 := congrArg Prod.fst heq
                      dsimp only at h1 h2
                      subst h1 h2
                      clear heq))
    | dsimp only [Lock.count]
    | dsimp +zetaDelta only

theorem Dev.tripAt_latch {x : Nat → Quad} (s : Dev) (c : Nat) (mask : Nat) (time : Nat)
    (h : Dev.latch s = x) : Dev.latch (Dev.tripAt s c mask time) = x := by
  unfold Dev.tripAt
  repeat' first
    | with_reducible assumption
    | intro _
    | extract_lets
    | with_reducible apply latch_ite
    | with_reducible apply Dev.goto_latch
    | with_reducible apply Dev.commitProf_latch
    | with_reducible apply Dev.withBcast_latch
    | with_reducible apply Dev.modCell_latch
    | with_reducible apply Dev.raiseIsland_latch
    | with_reducible apply Dev.modRegion_latch
    | with_reducible apply latch_foldl
    | with_reducible apply latch_foldl3
    | (split
       all_goals try (rename_i heq
                      have h2 := congrArg Prod.snd heq
                      have h1 := congrArg Prod.fst heq
                      dsimp only at h1 h2
                      subst h1 h2
                      clear heq))
    | dsimp only [Lock.count]
    | dsimp +zetaDelta only

theorem Dev.tripNow_latch {x : Nat → Quad} (s : Dev) (c : Nat) (mask : Nat)
    (h : Dev.latch s = x) : Dev.latch (Dev.tripNow s c mask) = x := by
  unfold Dev.tripNow
  repeat' first
    | with_reducible assumption
    | intro _
    | extract_lets
    | with_reducible apply latch_ite
    | with_reducible apply Dev.tripAt_latch
    | (split
       all_goals try (rename_i heq
                      have h2 := congrArg Prod.snd heq
                      have h1 := congrArg Prod.fst heq
                      dsimp only at h1 h2
                      subst h1 h2
                      clear heq))
    | dsimp only [Lock.count]
    | dsimp +zetaDelta only

theorem Dev.levelTrips_latch {x : Nat → Quad} (s : Dev) (c : Nat)
    (h : Dev.latch s = x) : Dev.latch (Dev.levelTrips s c) = x := by
  unfold Dev.levelTrips
  repeat' first
    | with_reducible assumption
    | intro _
    | extract_lets
    | with_reducible apply latch_ite
    | with_reducible apply Dev.tripNow_latch
    | (split
       all_goals try (rename_i heq
                      have h2 := congrArg Prod.snd heq
                      have h1 := congrArg Prod.fst heq
                      dsimp only at h1 h2
                      subst h1 h2
                      clear heq))
    | dsimp only [Lock.count]
    | dsimp +zetaDelta only

theorem Dev.autoNext_latch {x : Nat → Quad} (s : Dev) (g : Nat)
    (h : Dev.latch s = x) : Dev.latch (Dev.autoNext s g) = x := by
  unfold Dev.autoNext
  repeat' first
    | with_reducible assumption
    | intro _
    | extract_lets
    | with_reducible apply latch_ite
    | with_reducible apply Dev.levelTrips_latch
    | with_reducible apply Dev.goto_latch
    | with_reducible apply Dev.modCell_latch
    | (split
       all_goals try (rename_i heq
                      have h2 := congrArg Prod.snd heq
                      have h1 := congrArg Prod.fst heq
                      dsimp only at h1 h2
                      subst h1 h2
                      clear heq))
    | dsimp only [Lock.count]
    | dsimp +zetaDelta only

theorem Dev.checkFires_latch {x : Nat → Quad} (s : Dev) (c : Nat) (mask : Nat)
    (h : Dev.latch s = x) : Dev.latch (Dev.checkFires s c mask) = x := by
  unfold Dev.checkFires
  repeat' first
    | with_reducible assumption
    | intro _
    | extract_lets
    | with_reducible apply latch_ite
    | with_reducible apply Dev.autoNext_latch
    | with_reducible apply Dev.tripNow_latch
    | (split
       all_goals try (rename_i heq
                      have h2 := congrArg Prod.snd heq
                      have h1 := congrArg Prod.fst heq
                      dsimp only at h1 h2
                      subst h1 h2
                      clear heq))
    | dsimp only [Lock.count]
    | dsimp +zetaDelta only

theorem Dev.presenceEvent_latch {x : Nat → Quad} (s : Dev) (c : Nat) (inserted : Bool)
    (h : Dev.latch s = x) : Dev.latch (Dev.presenceEvent s c inserted) = x := by
  unfold Dev.presenceEvent
  repeat' first
    | with_reducible assumption
    | intro _
    | extract_lets
    | with_reducible apply latch_ite
    | with_reducible apply Dev.cellEvent_latch
    | (split
       all_goals try (rename_i heq
                      have h2 := congrArg Prod.snd heq
                      have h1 := congrArg Prod.fst heq
                      dsimp only at h1 h2
                      subst h1 h2
                      clear heq))
    | dsimp only [Lock.count]
    | dsimp +zetaDelta only

theorem Dev.cooldown_latch {x : Nat → Quad} (s : Dev) (c : Nat) (backoffMs : Nat)
    (h : Dev.latch s = x) : Dev.latch (Dev.cooldown s c backoffMs) = x := by
  unfold Dev.cooldown
  repeat' first
    | with_reducible assumption
    | intro _
    | extract_lets
    | with_reducible apply latch_ite
    | with_reducible apply Dev.goto_latch
    | with_reducible apply Dev.modCell_latch
    | (split
       all_goals try (rename_i heq
                      have h2 := congrArg Prod.snd heq
                      have h1 := congrArg Prod.fst heq
                      dsimp only at h1 h2
                      subst h1 h2
                      clear heq))
    | dsimp only [Lock.count]
    | dsimp +zetaDelta only

theorem Dev.chOn_latch {x : Nat → Quad} (s : Dev) (c : Nat)
    (h : Dev.latch s = x) : Dev.latch (Dev.chOn s c).2 = x := by
  unfold Dev.chOn
  repeat' first
    | with_reducible assumption
    | intro _
    | extract_lets
    | with_reducible apply latch_ite
    | with_reducible apply Dev.cooldown_latch
    | with_reducible apply Dev.goto_latch
    | with_reducible apply Dev.modCell_latch
    | (split
       all_goals try (rename_i heq
                      have h2 := congrArg Prod.snd heq
                      have h1 := congrArg Prod.fst heq
                      dsimp only at h1 h2
                      subst h1 h2
                      clear heq))
    | dsimp only [Lock.count]
    | dsimp +zetaDelta only

theorem Dev.chReset_latch {x : Nat → Quad} (s : Dev) (c : Nat)
    (h : Dev.latch s = x) : Dev.latch (Dev.chReset s c).2 = x := by
  unfold Dev.chReset
  repeat' first
    | with_reducible assumption
    | intro _
    | extract_lets
    | with_reducible apply latch_ite
    | with_reducible apply Dev.autoNext_latch
    | with_reducible apply Dev.goto_latch
    | with_reducible apply Dev.modCell_latch
    | with_reducible apply Dev.latchedCheck_latch
    | (split
       all_goals try (rename_i heq
                      have h2 := congrArg Prod.snd heq
                      have h1 := congrArg Prod.fst heq
                      dsimp only at h1 h2
                      subst h1 h2
                      clear heq))
    | dsimp only [Lock.count]
    | dsimp +zetaDelta only

theorem Dev.chOff_latch {x : Nat → Quad} (s : Dev) (c : Nat)
    (h : Dev.latch s = x) : Dev.latch (Dev.chOff s c).2 = x := by
  unfold Dev.chOff
  repeat' first
    | with_reducible assumption
    | intro _
    | extract_lets
    | with_reducible apply latch_ite
    | with_reducible apply Dev.autoNext_latch
    | with_reducible apply Dev.goto_latch
    | with_reducible apply Dev.modCell_latch
    | (split
       all_goals try (rename_i heq
                      have h2 := congrArg Prod.snd heq
                      have h1 := congrArg Prod.fst heq
                      dsimp only at h1 h2
                      subst h1 h2
                      clear heq))
    | dsimp only [Lock.count]
    | dsimp +zetaDelta only

theorem Dev.straitIrq_latch {x : Nat → Quad} (s : Dev) (g : Nat)
    (h : Dev.latch s = x) : Dev.latch (Dev.straitIrq s g) = x := by
  unfold Dev.straitIrq
  repeat' first
    | with_reducible assumption
    | intro _
    | extract_lets
    | with_reducible apply latch_ite
    | with_reducible apply Dev.irqRegion_latch
    | (split
       all_goals try (rename_i heq
                      have h2 := congrArg Prod.snd heq
                      have h1 := congrArg Prod.fst heq
                      dsimp only at h1 h2
                      subst h1 h2
                      clear heq))
    | dsimp only [Lock.count]
    | dsimp +zetaDelta only

theorem Dev.precheckDone_latch {x : Nat → Quad} (s : Dev) (c : Nat)
    (h : Dev.latch s = x) : Dev.latch (Dev.precheckDone s c) = x := by
  unfold Dev.precheckDone
  repeat' first
    | with_reducible assumption
    | intro _
    | extract_lets
    | with_reducible apply latch_ite
    | with_reducible apply Dev.goto_latch
    | (split
       all_goals try (rename_i heq
                      have h2 := congrArg Prod.snd heq
                      have h1 := congrArg Prod.fst heq
                      dsimp only at h1 h2
                      subst h1 h2
                      clear heq))
    | dsimp only [Lock.count]
    | dsimp +zetaDelta only

theorem Dev.precheckFail_latch {x : Nat → Quad} (s : Dev) (c : Nat) (reason : Nat)
    (h : Dev.latch s = x) : Dev.latch (Dev.precheckFail s c reason) = x := by
  unfold Dev.precheckFail
  repeat' first
    | with_reducible assumption
    | intro _
    | extract_lets
    | with_reducible apply latch_ite
    | with_reducible apply Dev.goto_latch
    | with_reducible apply Dev.modCell_latch
    | with_reducible apply Dev.cellEvent_latch
    | (split
       all_goals try (rename_i heq
                      have h2 := congrArg Prod.snd heq
                      have h1 := congrArg Prod.fst heq
                      dsimp only at h1 h2
                      subst h1 h2
                      clear heq))
    | dsimp only [Lock.count]
    | dsimp +zetaDelta only

theorem Dev.chDisable_latch {x : Nat → Quad} (s : Dev) (c : Nat)
    (h : Dev.latch s = x) : Dev.latch (Dev.chDisable s c).2 = x := by
  unfold Dev.chDisable
  repeat' first
    | with_reducible assumption
    | intro _
    | extract_lets
    | with_reducible apply latch_ite
    | with_reducible apply Dev.autoNext_latch
    | with_reducible apply Dev.goto_latch
    | (split
       all_goals try (rename_i heq
                      have h2 := congrArg Prod.snd heq
                      have h1 := congrArg Prod.fst heq
                      dsimp only at h1 h2
                      subst h1 h2
                      clear heq))
    | dsimp only [Lock.count]
    | dsimp +zetaDelta only

theorem Dev.chEnable_latch {x : Nat → Quad} (s : Dev) (c : Nat)
    (h : Dev.latch s = x) : Dev.latch (Dev.chEnable s c).2 = x := by
  unfold Dev.chEnable
  repeat' first
    | with_reducible assumption
    | intro _
    | extract_lets
    | with_reducible apply latch_ite
    | with_reducible apply Dev.goto_latch
    | (split
       all_goals try (rename_i heq
                      have h2 := congrArg Prod.snd heq
                      have h1 := congrArg Prod.fst heq
                      dsimp only at h1 h2
                      subst h1 h2
                      clear heq))
    | dsimp only [Lock.count]
    | dsimp +zetaDelta only

theorem Dev.shortResult_latch {x : Nat → Quad} (s : Dev) (c : Nat)
    (h : Dev.latch s = x) : Dev.latch (Dev.shortResult s c) = x := by
  unfold Dev.shortResult
  repeat' first
    | with_reducible assumption
    | intro _
    | extract_lets
    | with_reducible apply latch_ite
    | with_reducible apply Dev.precheckFail_latch
    | with_reducible apply Dev.precheckDone_latch
    | with_reducible apply Dev.presenceEvent_latch
    | with_reducible apply Dev.goto_latch
    | with_reducible apply Dev.modCell_latch
    | (split
       all_goals try (rename_i heq
                      have h2 := congrArg Prod.snd heq
                      have h1 := congrArg Prod.fst heq
                      dsimp only at h1 h2
                      subst h1 h2
                      clear heq))
    | dsimp only [Lock.count]
    | dsimp +zetaDelta only

theorem Dev.probeResult_latch {x : Nat → Quad} (s : Dev) (c : Nat)
    (h : Dev.latch s = x) : Dev.latch (Dev.probeResult s c) = x := by
  unfold Dev.probeResult
  repeat' first
    | with_reducible assumption
    | intro _
    | extract_lets
    | with_reducible apply latch_ite
    | with_reducible apply Dev.shortResult_latch
    | with_reducible apply Dev.presenceEvent_latch
    | with_reducible apply Dev.goto_latch
    | with_reducible apply Dev.modCell_latch
    | (split
       all_goals try (rename_i heq
                      have h2 := congrArg Prod.snd heq
                      have h1 := congrArg Prod.fst heq
                      dsimp only at h1 h2
                      subst h1 h2
                      clear heq))
    | dsimp only [Lock.count]
    | dsimp +zetaDelta only

end Sys2Proof.Machine
end

