-- ==== Sys2Proof/Laws/Others.lean ====
section
/-! SUPPORT. A change of one cell's state leaves every other cell and its lane as they are. -/

set_option linter.unreachableTactic false
set_option linter.unusedTactic false

namespace Sys2Proof.Machine

/-- Every cell and lane but those of cell `c`. -/
def Dev.others (c : Nat) (s : Dev) : (Nat → Cell) × (Nat → Lane) :=
  (fun d => if d = c then {} else s.cell d, fun d => if d = c then {} else s.lane d)

theorem Dev.others_cell {s t : Dev} {c d : Nat} (h : t.others c = s.others c) (hd : d ≠ c) : t.cell d = s.cell d := by
  have := congrFun (congrArg Prod.fst h) d
  simpa [Dev.others, hd] using this
theorem Dev.others_lane {s t : Dev} {c d : Nat} (h : t.others c = s.others c) (hd : d ≠ c) : t.lane d = s.lane d := by
  have := congrFun (congrArg Prod.snd h) d
  simpa [Dev.others, hd] using this

theorem Dev.setCell_others {x : (Nat → Cell) × (Nat → Lane)} (s : Dev) (c : Nat) (v : Cell) (h : Dev.others c s = x) :
    Dev.others c (Dev.setCell s c v) = x := by
  rw [← h]
  refine Prod.ext (funext fun d => ?_) rfl
  simp only [Dev.others, Dev.cell, Dev.setCell]
  by_cases e : d = c
  · rw [if_pos e, if_pos e]
  · rw [if_neg e, if_neg e, Sparse.get_set_ne _ _ _ _ _ e]
theorem Dev.setLane_others {x : (Nat → Cell) × (Nat → Lane)} (s : Dev) (c : Nat) (v : Lane) (h : Dev.others c s = x) :
    Dev.others c (Dev.setLane s c v) = x := by
  rw [← h]
  refine Prod.ext rfl (funext fun d => ?_)
  simp only [Dev.others, Dev.lane, Dev.setLane]
  by_cases e : d = c
  · rw [if_pos e, if_pos e]
  · rw [if_neg e, if_neg e, Sparse.get_set_ne _ _ _ _ _ e]

theorem others_ite {c : Nat} {x : (Nat → Cell) × (Nat → Lane)} {a b : Dev} {p : Prop} [Decidable p] (ha : Dev.others c a = x) (hb : Dev.others c b = x) :
    Dev.others c (if p then a else b) = x := by split <;> assumption
theorem others_foldl {c : Nat} {x : (Nat → Cell) × (Nat → Lane)} {α : Type} {f : Dev → α → Dev} {l : List α} {s : Dev}
    (hf : ∀ t a y, Dev.others c t = y → Dev.others c (f t a) = y) (h : Dev.others c s = x) : Dev.others c (l.foldl f s) = x := by
  induction l generalizing s with
  | nil => exact h
  | cons a l ih => exact ih (hf s a x h)
theorem others_foldl3 {c : Nat} {x : (Nat → Cell) × (Nat → Lane)} {α β γ : Type} {f : γ × β × Dev → α → γ × β × Dev} {l : List α} {p : γ × β × Dev}
    (hf : ∀ t a y, Dev.others c t.2.2 = y → Dev.others c (f t a).2.2 = y) (h : Dev.others c p.2.2 = x) :
    Dev.others c (l.foldl f p).2.2 = x := by
  induction l generalizing p with
  | nil => exact h
  | cons a l ih => exact ih (hf p a x h)

theorem Dev.others_upd_blocks {c : Nat} {x : (Nat → Cell) × (Nat → Lane)} {s : Dev} {v0 : Sparse Block} (h : Dev.others c s = x) :
    Dev.others c { s with blocks := v0 } = x := h
theorem Dev.others_upd_complq {c : Nat} {x : (Nat → Cell) × (Nat → Lane)} {s : Dev} {v0 : List Completion} (h : Dev.others c s = x) :
    Dev.others c { s with complq := v0 } = x := h
theorem Dev.others_upd_convs {c : Nat} {x : (Nat → Cell) × (Nat → Lane)} {s : Dev} {v0 : Sparse Conv} (h : Dev.others c s = x) :
    Dev.others c { s with convs := v0 } = x := h
theorem Dev.others_upd_evq {c : Nat} {x : (Nat → Cell) × (Nat → Lane)} {s : Dev} {v0 : List Event} (h : Dev.others c s = x) :
    Dev.others c { s with evq := v0 } = x := h
theorem Dev.others_upd_freeCount {c : Nat} {x : (Nat → Cell) × (Nat → Lane)} {s : Dev} {v0 : Nat} (h : Dev.others c s = x) :
    Dev.others c { s with freeCount := v0 } = x := h
theorem Dev.others_upd_laneWaits {c : Nat} {x : (Nat → Cell) × (Nat → Lane)} {s : Dev} {v0 : List LaneWait} (h : Dev.others c s = x) :
    Dev.others c { s with laneWaits := v0 } = x := h
theorem Dev.others_upd_out {c : Nat} {x : (Nat → Cell) × (Nat → Lane)} {s : Dev} {v0 : List Out} (h : Dev.others c s = x) :
    Dev.others c { s with out := v0 } = x := h
theorem Dev.others_upd_prof_profPend {c : Nat} {x : (Nat → Cell) × (Nat → Lane)} {s : Dev} {v0 : Sparse Word} {v1 : Sparse (Word × Word)} (h : Dev.others c s = x) :
    Dev.others c { s with prof := v0, profPend := v1 } = x := h
theorem Dev.others_upd_regions {c : Nat} {x : (Nat → Cell) × (Nat → Lane)} {s : Dev} {v0 : Sparse Region} (h : Dev.others c s = x) :
    Dev.others c { s with regions := v0 } = x := h
theorem Dev.others_upd_slMsgs {c : Nat} {x : (Nat → Cell) × (Nat → Lane)} {s : Dev} {v0 : List SlMsg} (h : Dev.others c s = x) :
    Dev.others c { s with slMsgs := v0 } = x := h
theorem Dev.others_upd_tripSeq {c : Nat} {x : (Nat → Cell) × (Nat → Lane)} {s : Dev} {v0 : Nat} (h : Dev.others c s = x) :
    Dev.others c { s with tripSeq := v0 } = x := h

theorem Dev.raise_others {c : Nat} {x : (Nat → Cell) × (Nat → Lane)} (s : Dev) (e : Event)
    (h : Dev.others c s = x) : Dev.others c (Dev.raise s e) = x := by
  unfold Dev.raise
  repeat' first
    | with_reducible assumption
    | intro _
    | extract_lets
    | with_reducible apply others_ite
    | (split
       all_goals try (rename_i heq
                      have h2 := congrArg Prod.snd heq
                      have h1 := congrArg Prod.fst heq
                      dsimp only at h1 h2
                      subst h1 h2
                      clear heq))
    | with_reducible apply Dev.others_upd_evq
    | dsimp only [Lock.count]
    | dsimp +zetaDelta only

theorem Dev.setRegion_others {c : Nat} {x : (Nat → Cell) × (Nat → Lane)} (s : Dev) (g : Nat) (v : Region)
    (h : Dev.others c s = x) : Dev.others c (Dev.setRegion s g v) = x := by
  unfold Dev.setRegion
  repeat' first
    | with_reducible assumption
    | intro _
    | extract_lets
    | with_reducible apply others_ite
    | (split
       all_goals try (rename_i heq
                      have h2 := congrArg Prod.snd heq
                      have h1 := congrArg Prod.fst heq
                      dsimp only at h1 h2
                      subst h1 h2
                      clear heq))
    | with_reducible apply Dev.others_upd_regions
    | dsimp only [Lock.count]
    | dsimp +zetaDelta only

theorem Dev.modRegion_others {c : Nat} {x : (Nat → Cell) × (Nat → Lane)} (s : Dev) (g : Nat) (f : Region → Region)
    (h : Dev.others c s = x) : Dev.others c (Dev.modRegion s g f) = x := by
  unfold Dev.modRegion
  repeat' first
    | with_reducible assumption
    | intro _
    | extract_lets
    | with_reducible apply others_ite
    | with_reducible apply Dev.setRegion_others
    | (split
       all_goals try (rename_i heq
                      have h2 := congrArg Prod.snd heq
                      have h1 := congrArg Prod.fst heq
                      dsimp only at h1 h2
                      subst h1 h2
                      clear heq))
    | dsimp only [Lock.count]
    | dsimp +zetaDelta only

theorem Dev.raiseIsland_others {c : Nat} {x : (Nat → Cell) × (Nat → Lane)} (s : Dev) (g : Nat) (hold : Bool) (e : Event)
    (h : Dev.others c s = x) : Dev.others c (Dev.raiseIsland s g hold e) = x := by
  unfold Dev.raiseIsland
  repeat' first
    | with_reducible assumption
    | intro _
    | extract_lets
    | with_reducible apply others_ite
    | with_reducible apply Dev.modRegion_others
    | with_reducible apply Dev.raise_others
    | (split
       all_goals try (rename_i heq
                      have h2 := congrArg Prod.snd heq
                      have h1 := congrArg Prod.fst heq
                      dsimp only at h1 h2
                      subst h1 h2
                      clear heq))
    | dsimp only [Lock.count]
    | dsimp +zetaDelta only

theorem Dev.forEach_others {c : Nat} {x : (Nat → Cell) × (Nat → Lane)} {α : Type} (l : List α) (f : Dev → α → Dev) (s : Dev) (h_f : ∀ u0 u1 y, Dev.others c u0 = y → Dev.others c (f u0 u1) = y)
    (h : Dev.others c s = x) : Dev.others c (Dev.forEach l f s) = x := by
  unfold Dev.forEach
  exact others_foldl h_f h

theorem Dev.cellEvent_others {x : (Nat → Cell) × (Nat → Lane)} (s : Dev) (c : Nat) (maskBit : Nat) (code : Nat) (flag : Bool) (payload : List Word)
    (h : Dev.others c s = x) : Dev.others c (Dev.cellEvent s c maskBit code flag payload) = x := by
  unfold Dev.cellEvent
  repeat' first
    | with_reducible assumption
    | intro _
    | extract_lets
    | with_reducible apply others_ite
    | with_reducible apply Dev.raiseIsland_others
    | (split
       all_goals try (rename_i heq
                      have h2 := congrArg Prod.snd heq
                      have h1 := congrArg Prod.fst heq
                      dsimp only at h1 h2
                      subst h1 h2
                      clear heq))
    | dsimp only [Lock.count]
    | dsimp +zetaDelta only

theorem Dev.modLane_others {x : (Nat → Cell) × (Nat → Lane)} (s : Dev) (c : Nat) (f : Lane → Lane)
    (h : Dev.others c s = x) : Dev.others c (Dev.modLane s c f) = x := by
  unfold Dev.modLane
  repeat' first
    | with_reducible assumption
    | intro _
    | extract_lets
    | with_reducible apply others_ite
    | with_reducible apply Dev.setLane_others
    | (split
       all_goals try (rename_i heq
                      have h2 := congrArg Prod.snd heq
                      have h1 := congrArg Prod.fst heq
                      dsimp only at h1 h2
                      subst h1 h2
                      clear heq))
    | dsimp only [Lock.count]
    | dsimp +zetaDelta only

theorem Dev.abortWindow_others {x : (Nat → Cell) × (Nat → Lane)} (s : Dev) (c : Nat) (clocks : Nat) (again : Bool)
    (h : Dev.others c s = x) : Dev.others c (Dev.abortWindow s c clocks again) = x := by
  unfold Dev.abortWindow
  repeat' first
    | with_reducible assumption
    | intro _
    | extract_lets
    | with_reducible apply others_ite
    | with_reducible apply Dev.modLane_others
    | (split
       all_goals try (rename_i heq
                      have h2 := congrArg Prod.snd heq
                      have h1 := congrArg Prod.fst heq
                      dsimp only at h1 h2
                      subst h1 h2
                      clear heq))
    | dsimp only [Lock.count]
    | dsimp +zetaDelta only

theorem Dev.startLane_others {x : (Nat → Cell) × (Nat → Lane)} (s : Dev) (c : Nat)
    (h : Dev.others c s = x) : Dev.others c (Dev.startLane s c) = x := by
  unfold Dev.startLane
  repeat' first
    | with_reducible assumption
    | intro _
    | extract_lets
    | with_reducible apply others_ite
    | with_reducible apply Dev.abortWindow_others
    | with_reducible apply Dev.modLane_others
    | (split
       all_goals try (rename_i heq
                      have h2 := congrArg Prod.snd heq
                      have h1 := congrArg Prod.fst heq
                      dsimp only at h1 h2
                      subst h1 h2
                      clear heq))
    | dsimp only [Lock.count]
    | dsimp +zetaDelta only

theorem Dev.stopLane_others {x : (Nat → Cell) × (Nat → Lane)} (s : Dev) (c : Nat) (clocks : Nat)
    (h : Dev.others c s = x) : Dev.others c (Dev.stopLane s c clocks) = x := by
  unfold Dev.stopLane
  repeat' first
    | with_reducible assumption
    | intro _
    | extract_lets
    | with_reducible apply others_ite
    | with_reducible apply Dev.abortWindow_others
    | with_reducible apply Dev.modLane_others
    | (split
       all_goals try (rename_i heq
                      have h2 := congrArg Prod.snd heq
                      have h1 := congrArg Prod.fst heq
                      dsimp only at h1 h2
                      subst h1 h2
                      clear heq))
    | dsimp only [Lock.count]
    | dsimp +zetaDelta only

theorem Dev.gateLane_others {x : (Nat → Cell) × (Nat → Lane)} (s : Dev) (c : Nat) (clocks : Nat)
    (h : Dev.others c s = x) : Dev.others c (Dev.gateLane s c clocks) = x := by
  unfold Dev.gateLane
  repeat' first
    | with_reducible assumption
    | intro _
    | extract_lets
    | with_reducible apply others_ite
    | with_reducible apply Dev.stopLane_others
    | with_reducible apply Dev.startLane_others
    | (split
       all_goals try (rename_i heq
                      have h2 := congrArg Prod.snd heq
                      have h1 := congrArg Prod.fst heq
                      dsimp only at h1 h2
                      subst h1 h2
                      clear heq))
    | dsimp only [Lock.count]
    | dsimp +zetaDelta only

theorem Dev.drawNat_others {c : Nat} {x : (Nat → Cell) × (Nat → Lane)} (s : Dev)
    (h : Dev.others c s = x) : Dev.others c (Dev.drawNat s).2 = x := by
  unfold Dev.drawNat
  repeat' first
    | with_reducible assumption
    | intro _
    | extract_lets
    | with_reducible apply others_ite
    | (split
       all_goals try (rename_i heq
                      have h2 := congrArg Prod.snd heq
                      have h1 := congrArg Prod.fst heq
                      dsimp only at h1 h2
                      subst h1 h2
                      clear heq))
    | with_reducible apply Dev.others_upd_freeCount
    | dsimp only [Lock.count]
    | dsimp +zetaDelta only

theorem Dev.setConv_others {c : Nat} {x : (Nat → Cell) × (Nat → Lane)} (s : Dev) (b : Nat) (v : Conv)
    (h : Dev.others c s = x) : Dev.others c (Dev.setConv s b v) = x := by
  unfold Dev.setConv
  repeat' first
    | with_reducible assumption
    | intro _
    | extract_lets
    | with_reducible apply others_ite
    | (split
       all_goals try (rename_i heq
                      have h2 := congrArg Prod.snd heq
                      have h1 := congrArg Prod.fst heq
                      dsimp only at h1 h2
                      subst h1 h2
                      clear heq))
    | with_reducible apply Dev.others_upd_convs
    | dsimp only [Lock.count]
    | dsimp +zetaDelta only

theorem Dev.modConv_others {c : Nat} {x : (Nat → Cell) × (Nat → Lane)} (s : Dev) (b : Nat) (f : Conv → Conv)
    (h : Dev.others c s = x) : Dev.others c (Dev.modConv s b f) = x := by
  unfold Dev.modConv
  repeat' first
    | with_reducible assumption
    | intro _
    | extract_lets
    | with_reducible apply others_ite
    | with_reducible apply Dev.setConv_others
    | (split
       all_goals try (rename_i heq
                      have h2 := congrArg Prod.snd heq
                      have h1 := congrArg Prod.fst heq
                      dsimp only at h1 h2
                      subst h1 h2
                      clear heq))
    | dsimp only [Lock.count]
    | dsimp +zetaDelta only

theorem Dev.setBlock_others {c : Nat} {x : (Nat → Cell) × (Nat → Lane)} (s : Dev) (b : Nat) (v : Block)
    (h : Dev.others c s = x) : Dev.others c (Dev.setBlock s b v) = x := by
  unfold Dev.setBlock
  repeat' first
    | with_reducible assumption
    | intro _
    | extract_lets
    | with_reducible apply others_ite
    | (split
       all_goals try (rename_i heq
                      have h2 := congrArg Prod.snd heq
                      have h1 := congrArg Prod.fst heq
                      dsimp only at h1 h2
                      subst h1 h2
                      clear heq))
    | with_reducible apply Dev.others_upd_blocks
    | dsimp only [Lock.count]
    | dsimp +zetaDelta only

theorem Dev.modBlock_others {c : Nat} {x : (Nat → Cell) × (Nat → Lane)} (s : Dev) (b : Nat) (f : Block → Block)
    (h : Dev.others c s = x) : Dev.others c (Dev.modBlock s b f) = x := by
  unfold Dev.modBlock
  repeat' first
    | with_reducible assumption
    | intro _
    | extract_lets
    | with_reducible apply others_ite
    | with_reducible apply Dev.setBlock_others
    | (split
       all_goals try (rename_i heq
                      have h2 := congrArg Prod.snd heq
                      have h1 := congrArg Prod.fst heq
                      dsimp only at h1 h2
                      subst h1 h2
                      clear heq))
    | dsimp only [Lock.count]
    | dsimp +zetaDelta only

theorem Dev.modCell_others {x : (Nat → Cell) × (Nat → Lane)} (s : Dev) (c : Nat) (f : Cell → Cell)
    (h : Dev.others c s = x) : Dev.others c (Dev.modCell s c f) = x := by
  unfold Dev.modCell
  repeat' first
    | with_reducible assumption
    | intro _
    | extract_lets
    | with_reducible apply others_ite
    | with_reducible apply Dev.setCell_others
    | (split
       all_goals try (rename_i heq
                      have h2 := congrArg Prod.snd heq
                      have h1 := congrArg Prod.fst heq
                      dsimp only at h1 h2
                      subst h1 h2
                      clear heq))
    | dsimp only [Lock.count]
    | dsimp +zetaDelta only

theorem Dev.startTests_others {x : (Nat → Cell) × (Nat → Lane)} (s : Dev) (c : Nat)
    (h : Dev.others c s = x) : Dev.others c (Dev.startTests s c) = x := by
  unfold Dev.startTests
  repeat' first
    | with_reducible assumption
    | intro _
    | extract_lets
    | with_reducible apply others_ite
    | with_reducible apply Dev.modCell_others
    | with_reducible apply Dev.modBlock_others
    | (split
       all_goals try (rename_i heq
                      have h2 := congrArg Prod.snd heq
                      have h1 := congrArg Prod.fst heq
                      dsimp only at h1 h2
                      subst h1 h2
                      clear heq))
    | dsimp only [Lock.count]
    | dsimp +zetaDelta only

theorem Dev.holdExit_others {x : (Nat → Cell) × (Nat → Lane)} (s : Dev) (c : Nat)
    (h : Dev.others c s = x) : Dev.others c (Dev.holdExit s c) = x := by
  unfold Dev.holdExit
  repeat' first
    | with_reducible assumption
    | intro _
    | extract_lets
    | with_reducible apply others_ite
    | with_reducible apply Dev.modCell_others
    | (split
       all_goals try (rename_i heq
                      have h2 := congrArg Prod.snd heq
                      have h1 := congrArg Prod.fst heq
                      dsimp only at h1 h2
                      subst h1 h2
                      clear heq))
    | dsimp only [Lock.count]
    | dsimp +zetaDelta only

theorem Dev.emit_others {c : Nat} {x : (Nat → Cell) × (Nat → Lane)} (s : Dev) (o : Out)
    (h : Dev.others c s = x) : Dev.others c (Dev.emit s o) = x := by
  unfold Dev.emit
  repeat' first
    | with_reducible assumption
    | intro _
    | extract_lets
    | with_reducible apply others_ite
    | (split
       all_goals try (rename_i heq
                      have h2 := congrArg Prod.snd heq
                      have h1 := congrArg Prod.fst heq
                      dsimp only at h1 h2
                      subst h1 h2
                      clear heq))
    | with_reducible apply Dev.others_upd_out
    | dsimp only [Lock.count]
    | dsimp +zetaDelta only

theorem Dev.sendTrip_others {c : Nat} {x : (Nat → Cell) × (Nat → Lane)} (s : Dev) (g : Nat) (bit : Bool)
    (h : Dev.others c s = x) : Dev.others c (Dev.sendTrip s g bit) = x := by
  unfold Dev.sendTrip
  repeat' first
    | with_reducible assumption
    | intro _
    | extract_lets
    | with_reducible apply others_ite
    | with_reducible apply Dev.emit_others
    | (split
       all_goals try (rename_i heq
                      have h2 := congrArg Prod.snd heq
                      have h1 := congrArg Prod.fst heq
                      dsimp only at h1 h2
                      subst h1 h2
                      clear heq))
    | with_reducible apply Dev.others_upd_tripSeq
    | dsimp only [Lock.count]
    | dsimp +zetaDelta only

theorem Dev.withBcast_others {c : Nat} {x : (Nat → Cell) × (Nat → Lane)} (s : Dev) (g : Nat) (f : Dev → Dev) (h_f : ∀ u0 y, Dev.others c u0 = y → Dev.others c (f u0) = y)
    (h : Dev.others c s = x) : Dev.others c (Dev.withBcast s g f) = x := by
  unfold Dev.withBcast
  repeat' first
    | with_reducible assumption
    | intro _
    | extract_lets
    | with_reducible apply others_ite
    | with_reducible apply Dev.sendTrip_others
    | with_reducible apply h_f
    | (split
       all_goals try (rename_i heq
                      have h2 := congrArg Prod.snd heq
                      have h1 := congrArg Prod.fst heq
                      dsimp only at h1 h2
                      subst h1 h2
                      clear heq))
    | dsimp only [Lock.count]
    | dsimp +zetaDelta only

theorem Dev.complete_others {c : Nat} {x : (Nat → Cell) × (Nat → Lane)} (s : Dev) (k : Completion)
    (h : Dev.others c s = x) : Dev.others c (Dev.complete s k) = x := by
  unfold Dev.complete
  repeat' first
    | with_reducible assumption
    | intro _
    | extract_lets
    | with_reducible apply others_ite
    | (split
       all_goals try (rename_i heq
                      have h2 := congrArg Prod.snd heq
                      have h1 := congrArg Prod.fst heq
                      dsimp only at h1 h2
                      subst h1 h2
                      clear heq))
    | with_reducible apply Dev.others_upd_complq
    | dsimp only [Lock.count]
    | dsimp +zetaDelta only

theorem Dev.decideHeld_others {x : (Nat → Cell) × (Nat → Lane)} (s : Dev) (c : Nat) (bad : Bool) (cmd : Nat × Nat)
    (h : Dev.others c s = x) : Dev.others c (Dev.decideHeld s c bad cmd) = x := by
  unfold Dev.decideHeld
  repeat' first
    | with_reducible assumption
    | intro _
    | extract_lets
    | with_reducible apply others_ite
    | with_reducible apply Dev.complete_others
    | (split
       all_goals try (rename_i heq
                      have h2 := congrArg Prod.snd heq
                      have h1 := congrArg Prod.fst heq
                      dsimp only at h1 h2
                      subst h1 h2
                      clear heq))
    | with_reducible apply Dev.others_upd_laneWaits
    | dsimp only [Lock.count]
    | dsimp +zetaDelta only

theorem Dev.endHeldOn_others {x : (Nat → Cell) × (Nat → Lane)} (s : Dev) (c : Nat) (bad : Bool)
    (h : Dev.others c s = x) : Dev.others c (Dev.endHeldOn s c bad) = x := by
  unfold Dev.endHeldOn
  repeat' first
    | with_reducible assumption
    | intro _
    | extract_lets
    | with_reducible apply others_ite
    | with_reducible apply Dev.decideHeld_others
    | with_reducible apply Dev.modCell_others
    | with_reducible apply Dev.forEach_others
    | (split
       all_goals try (rename_i heq
                      have h2 := congrArg Prod.snd heq
                      have h1 := congrArg Prod.fst heq
                      dsimp only at h1 h2
                      subst h1 h2
                      clear heq))
    | dsimp only [Lock.count]
    | dsimp +zetaDelta only

theorem Dev.abortPulse_others {x : (Nat → Cell) × (Nat → Lane)} (s : Dev) (c : Nat)
    (h : Dev.others c s = x) : Dev.others c (Dev.abortPulse s c) = x := by
  unfold Dev.abortPulse
  repeat' first
    | with_reducible assumption
    | intro _
    | extract_lets
    | with_reducible apply others_ite
    | with_reducible apply Dev.modCell_others
    | (split
       all_goals try (rename_i heq
                      have h2 := congrArg Prod.snd heq
                      have h1 := congrArg Prod.fst heq
                      dsimp only at h1 h2
                      subst h1 h2
                      clear heq))
    | dsimp only [Lock.count]
    | dsimp +zetaDelta only

theorem Dev.sendSl_others {c : Nat} {x : (Nat → Cell) × (Nat → Lane)} (s : Dev) (g : Nat) (a2 : SlMsg)
    (h : Dev.others c s = x) : Dev.others c (Dev.sendSl s g a2) = x := by
  unfold Dev.sendSl
  repeat' first
    | with_reducible assumption
    | intro _
    | extract_lets
    | with_reducible apply others_ite
    | with_reducible apply Dev.modRegion_others
    | (split
       all_goals try (rename_i heq
                      have h2 := congrArg Prod.snd heq
                      have h1 := congrArg Prod.fst heq
                      dsimp only at h1 h2
                      subst h1 h2
                      clear heq))
    | with_reducible apply Dev.others_upd_slMsgs
    | dsimp only [Lock.count]
    | dsimp +zetaDelta only

theorem Dev.commitProf_others {x : (Nat → Cell) × (Nat → Lane)} (s : Dev) (c : Nat)
    (h : Dev.others c s = x) : Dev.others c (Dev.commitProf s c) = x := by
  unfold Dev.commitProf
  repeat' first
    | with_reducible assumption
    | intro _
    | extract_lets
    | with_reducible apply others_ite
    | with_reducible apply Dev.modCell_others
    | (split
       all_goals try (rename_i heq
                      have h2 := congrArg Prod.snd heq
                      have h1 := congrArg Prod.fst heq
                      dsimp only at h1 h2
                      subst h1 h2
                      clear heq))
    | with_reducible apply Dev.others_upd_prof_profPend
    | dsimp only [Lock.count]
    | dsimp +zetaDelta only

theorem Dev.goto_others {x : (Nat → Cell) × (Nat → Lane)} (s : Dev) (c : Nat) (st : CellState)
    (h : Dev.others c s = x) : Dev.others c (Dev.goto s c st) = x := by
  unfold Dev.goto
  repeat' first
    | with_reducible assumption
    | intro _
    | extract_lets
    | with_reducible apply others_ite
    | with_reducible apply Dev.commitProf_others
    | with_reducible apply Dev.sendSl_others
    | with_reducible apply Dev.abortPulse_others
    | with_reducible apply Dev.endHeldOn_others
    | with_reducible apply Dev.withBcast_others
    | with_reducible apply Dev.holdExit_others
    | with_reducible apply Dev.startTests_others
    | with_reducible apply Dev.modCell_others
    | with_reducible apply Dev.modConv_others
    | with_reducible apply Dev.drawNat_others
    | with_reducible apply Dev.gateLane_others
    | with_reducible apply Dev.modLane_others
    | with_reducible apply Dev.cellEvent_others
    | (split
       all_goals try (rename_i heq
                      have h2 := congrArg Prod.snd heq
                      have h1 := congrArg Prod.fst heq
                      dsimp only at h1 h2
                      subst h1 h2
                      clear heq))
    | dsimp only [Lock.count]
    | dsimp +zetaDelta only

theorem Dev.tripAt_others {x : (Nat → Cell) × (Nat → Lane)} (s : Dev) (c : Nat) (mask : Nat) (time : Nat)
    (h : Dev.others c s = x) : Dev.others c (Dev.tripAt s c mask time) = x := by
  unfold Dev.tripAt
  repeat' first
    | with_reducible assumption
    | intro _
    | extract_lets
    | with_reducible apply others_ite
    | with_reducible apply Dev.goto_others
    | with_reducible apply Dev.commitProf_others
    | with_reducible apply Dev.withBcast_others
    | with_reducible apply Dev.modCell_others
    | with_reducible apply Dev.raiseIsland_others
    | with_reducible apply Dev.modRegion_others
    | with_reducible apply others_foldl
    | with_reducible apply others_foldl3
    | (split
       all_goals try (rename_i heq
                      have h2 := congrArg Prod.snd heq
                      have h1 := congrArg Prod.fst heq
                      dsimp only at h1 h2
                      subst h1 h2
                      clear heq))
    | dsimp only [Lock.count]
    | dsimp +zetaDelta only

theorem Dev.tripNow_others {x : (Nat → Cell) × (Nat → Lane)} (s : Dev) (c : Nat) (mask : Nat)
    (h : Dev.others c s = x) : Dev.others c (Dev.tripNow s c mask) = x := by
  unfold Dev.tripNow
  repeat' first
    | with_reducible assumption
    | intro _
    | extract_lets
    | with_reducible apply others_ite
    | with_reducible apply Dev.tripAt_others
    | (split
       all_goals try (rename_i heq
                      have h2 := congrArg Prod.snd heq
                      have h1 := congrArg Prod.fst heq
                      dsimp only at h1 h2
                      subst h1 h2
                      clear heq))
    | dsimp only [Lock.count]
    | dsimp +zetaDelta only

theorem Dev.levelTrips_others {x : (Nat → Cell) × (Nat → Lane)} (s : Dev) (c : Nat)
    (h : Dev.others c s = x) : Dev.others c (Dev.levelTrips s c) = x := by
  unfold Dev.levelTrips
  repeat' first
    | with_reducible assumption
    | intro _
    | extract_lets
    | with_reducible apply others_ite
    | with_reducible apply Dev.tripNow_others
    | (split
       all_goals try (rename_i heq
                      have h2 := congrArg Prod.snd heq
                      have h1 := congrArg Prod.fst heq
                      dsimp only at h1 h2
                      subst h1 h2
                      clear heq))
    | dsimp only [Lock.count]
    | dsimp +zetaDelta only

theorem Dev.presenceEvent_others {x : (Nat → Cell) × (Nat → Lane)} (s : Dev) (c : Nat) (inserted : Bool)
    (h : Dev.others c s = x) : Dev.others c (Dev.presenceEvent s c inserted) = x := by
  unfold Dev.presenceEvent
  repeat' first
    | with_reducible assumption
    | intro _
    | extract_lets
    | with_reducible apply others_ite
    | with_reducible apply Dev.cellEvent_others
    | (split
       all_goals try (rename_i heq
                      have h2 := congrArg Prod.snd heq
                      have h1 := congrArg Prod.fst heq
                      dsimp only at h1 h2
                      subst h1 h2
                      clear heq))
    | dsimp only [Lock.count]
    | dsimp +zetaDelta only

theorem Dev.cooldown_others {x : (Nat → Cell) × (Nat → Lane)} (s : Dev) (c : Nat) (backoffMs : Nat)
    (h : Dev.others c s = x) : Dev.others c (Dev.cooldown s c backoffMs) = x := by
  unfold Dev.cooldown
  repeat' first
    | with_reducible assumption
    | intro _
    | extract_lets
    | with_reducible apply others_ite
    | with_reducible apply Dev.goto_others
    | with_reducible apply Dev.modCell_others
    | (split
       all_goals try (rename_i heq
                      have h2 := congrArg Prod.snd heq
                      have h1 := congrArg Prod.fst heq
                      dsimp only at h1 h2
                      subst h1 h2
                      clear heq))
    | dsimp only [Lock.count]
    | dsimp +zetaDelta only

theorem Dev.precheckDone_others {x : (Nat → Cell) × (Nat → Lane)} (s : Dev) (c : Nat)
    (h : Dev.others c s = x) : Dev.others c (Dev.precheckDone s c) = x := by
  unfold Dev.precheckDone
  repeat' first
    | with_reducible assumption
    | intro _
    | extract_lets
    | with_reducible apply others_ite
    | with_reducible apply Dev.goto_others
    | (split
       all_goals try (rename_i heq
                      have h2 := congrArg Prod.snd heq
                      have h1 := congrArg Prod.fst heq
                      dsimp only at h1 h2
                      subst h1 h2
                      clear heq))
    | dsimp only [Lock.count]
    | dsimp +zetaDelta only

theorem Dev.precheckFail_others {x : (Nat → Cell) × (Nat → Lane)} (s : Dev) (c : Nat) (reason : Nat)
    (h : Dev.others c s = x) : Dev.others c (Dev.precheckFail s c reason) = x := by
  unfold Dev.precheckFail
  repeat' first
    | with_reducible assumption
    | intro _
    | extract_lets
    | with_reducible apply others_ite
    | with_reducible apply Dev.goto_others
    | with_reducible apply Dev.modCell_others
    | with_reducible apply Dev.cellEvent_others
    | (split
       all_goals try (rename_i heq
                      have h2 := congrArg Prod.snd heq
                      have h1 := congrArg Prod.fst heq
                      dsimp only at h1 h2
                      subst h1 h2
                      clear heq))
    | dsimp only [Lock.count]
    | dsimp +zetaDelta only

theorem Dev.precheckStep_others {x : (Nat → Cell) × (Nat → Lane)} (s : Dev) (c : Nat) (plausOk : Bool)
    (h : Dev.others c s = x) : Dev.others c (Dev.precheckStep s c plausOk) = x := by
  unfold Dev.precheckStep
  repeat' first
    | with_reducible assumption
    | intro _
    | extract_lets
    | with_reducible apply others_ite
    | with_reducible apply Dev.precheckFail_others
    | with_reducible apply Dev.precheckDone_others
    | with_reducible apply Dev.modCell_others
    | (split
       all_goals try (rename_i heq
                      have h2 := congrArg Prod.snd heq
                      have h1 := congrArg Prod.fst heq
                      dsimp only at h1 h2
                      subst h1 h2
                      clear heq))
    | dsimp only [Lock.count]
    | dsimp +zetaDelta only

theorem Dev.chEnable_others {x : (Nat → Cell) × (Nat → Lane)} (s : Dev) (c : Nat)
    (h : Dev.others c s = x) : Dev.others c (Dev.chEnable s c).2 = x := by
  unfold Dev.chEnable
  repeat' first
    | with_reducible assumption
    | intro _
    | extract_lets
    | with_reducible apply others_ite
    | with_reducible apply Dev.goto_others
    | (split
       all_goals try (rename_i heq
                      have h2 := congrArg Prod.snd heq
                      have h1 := congrArg Prod.fst heq
                      dsimp only at h1 h2
                      subst h1 h2
                      clear heq))
    | dsimp only [Lock.count]
    | dsimp +zetaDelta only

theorem Dev.shortResult_others {x : (Nat → Cell) × (Nat → Lane)} (s : Dev) (c : Nat)
    (h : Dev.others c s = x) : Dev.others c (Dev.shortResult s c) = x := by
  unfold Dev.shortResult
  repeat' first
    | with_reducible assumption
    | intro _
    | extract_lets
    | with_reducible apply others_ite
    | with_reducible apply Dev.precheckFail_others
    | with_reducible apply Dev.precheckDone_others
    | with_reducible apply Dev.presenceEvent_others
    | with_reducible apply Dev.goto_others
    | with_reducible apply Dev.modCell_others
    | (split
       all_goals try (rename_i heq
                      have h2 := congrArg Prod.snd heq
                      have h1 := congrArg Prod.fst heq
                      dsimp only at h1 h2
                      subst h1 h2
                      clear heq))
    | dsimp only [Lock.count]
    | dsimp +zetaDelta only

theorem Dev.probeResult_others {x : (Nat → Cell) × (Nat → Lane)} (s : Dev) (c : Nat)
    (h : Dev.others c s = x) : Dev.others c (Dev.probeResult s c) = x := by
  unfold Dev.probeResult
  repeat' first
    | with_reducible assumption
    | intro _
    | extract_lets
    | with_reducible apply others_ite
    | with_reducible apply Dev.shortResult_others
    | with_reducible apply Dev.presenceEvent_others
    | with_reducible apply Dev.goto_others
    | with_reducible apply Dev.modCell_others
    | (split
       all_goals try (rename_i heq
                      have h2 := congrArg Prod.snd heq
                      have h1 := congrArg Prod.fst heq
                      dsimp only at h1 h2
                      subst h1 h2
                      clear heq))
    | dsimp only [Lock.count]
    | dsimp +zetaDelta only

end Sys2Proof.Machine
end

