-- ==== Sys2Proof/Laws/Does.lean ====
section
/-! SUPPORT. How a command's effect is shown: from the result of its meaning and its frame. -/

namespace Sys2Proof.Machine

theorem State.on_next (s : State) (f : Dev → Result) (d : Dev) (h : f s.dev = .next d) : s.on f = .next { s with dev := d } := by
  unfold State.on; rw [h]

theorem Keeps.of_hide {m : Nat} {ps : List Part} {s t : Dev} (h : Dev.hide m t = Dev.hide m s)
    (hm : ∀ p, p ∉ ps → m.testBit p.ctorIdx = false) : Keeps ps s t := fun p hp => Dev.hide_keeps h p (hm p hp)

/-- From the result of a meaning `E`: its frame by its frame lemma, at the mask of that lemma, its effect by `q`. -/
theorem Does.of_exec {i : Instr} {s : State} {ps : List Part} {q : Dev → Prop} {m : Nat}
    (E : Outcome) (hi : exec i s = E)
    (h : Dev.hide m (Outcome.stateOr E s).dev = Dev.hide m s.dev) (hm : ∀ p, p ∉ ps → m.testBit p.ctorIdx = false)
    (hq : ∃ d, E = .next { s with dev := d } ∧ q d) : Does i s ps q := by
  obtain ⟨d, hd, hq⟩ := hq
  subst hd
  exact ⟨_, hi, rfl, Keeps.of_hide h hm, hq⟩

theorem Becomes.of_exec {i : Instr} {s : State} {d : Dev} (E : Outcome) (hi : exec i s = E)
    (hd : E = .next { s with dev := d }) : Becomes i s d := hi.trans hd

theorem Only.refl {β : Type} (get : Dev → Nat → β) (k : Nat) (s : Dev) : Only get k s s := fun _ _ => rfl

end Sys2Proof.Machine
end

