-- ==== Sys2Proof/Laws/Events.lean ====
section
/-! SUPPORT. Events that wait for the host port stay in their order: the consequences of a command only append to them. -/

set_option linter.unreachableTactic false
set_option linter.unusedTactic false

namespace Sys2Proof.Machine

/-- The events of `x` are the first that wait. -/
def Dev.events (x : List Event) (s : Dev) : Prop := x <+: s.evq

theorem Dev.raise_events {x : List Event} (s : Dev) (e : Event) (h : Dev.events x s) : Dev.events x (Dev.raise s e) :=
  List.IsPrefix.trans h (List.prefix_append _ _)

theorem Dev.events_more {x y : List Event} {s t : Dev} (hs : Dev.events x s) (ht : t.evq = s.evq ++ y) : Dev.events x t := by
  unfold Dev.events at *
  rw [ht]
  exact hs.trans (List.prefix_append _ _)

theorem events_ite {x : List Event} {a b : Dev} {p : Prop} [Decidable p] (ha : Dev.events x a) (hb : Dev.events x b) :
    Dev.events x (if p then a else b) := by split <;> assumption
theorem events_foldl {x : List Event} {α : Type} {f : Dev → α → Dev} {l : List α} {s : Dev}
    (hf : ∀ t a, Dev.events x t → Dev.events x (f t a)) (h : Dev.events x s) : Dev.events x (l.foldl f s) := by
  induction l generalizing s with
  | nil => exact h
  | cons a l ih => exact ih (hf s a h)
theorem events_foldl3 {x : List Event} {α β γ : Type} {f : γ × β × Dev → α → γ × β × Dev} {l : List α} {p : γ × β × Dev}
    (hf : ∀ t a, Dev.events x t.2.2 → Dev.events x (f t a).2.2) (h : Dev.events x p.2.2) : Dev.events x (l.foldl f p).2.2 := by
  induction l generalizing p with
  | nil => exact h
  | cons a l ih => exact ih (hf p a h)

theorem Dev.events_upd_auxs {x : List Event} {s : Dev} {v0 : Sparse Aux} (h : Dev.events x s) :
    Dev.events x { s with auxs := v0 } := h
theorem Dev.events_upd_barges {x : List Event} {s : Dev} {v0 : Sparse Barge} (h : Dev.events x s) :
    Dev.events x { s with barges := v0 } := h
theorem Dev.events_upd_blocks {x : List Event} {s : Dev} {v0 : Sparse Block} (h : Dev.events x s) :
    Dev.events x { s with blocks := v0 } := h
theorem Dev.events_upd_bz {x : List Event} {s : Dev} {v0 : Basin} (h : Dev.events x s) :
    Dev.events x { s with bz := v0 } := h
theorem Dev.events_upd_cells {x : List Event} {s : Dev} {v0 : Sparse Cell} (h : Dev.events x s) :
    Dev.events x { s with cells := v0 } := h
theorem Dev.events_upd_colls {x : List Event} {s : Dev} {v0 : Sparse Coll} (h : Dev.events x s) :
    Dev.events x { s with colls := v0 } := h
theorem Dev.events_upd_complq {x : List Event} {s : Dev} {v0 : List Completion} (h : Dev.events x s) :
    Dev.events x { s with complq := v0 } := h
theorem Dev.events_upd_convs {x : List Event} {s : Dev} {v0 : Sparse Conv} (h : Dev.events x s) :
    Dev.events x { s with convs := v0 } := h
theorem Dev.events_upd_err {x : List Event} {s : Dev} {v0 : ErrN} (h : Dev.events x s) :
    Dev.events x { s with err := v0 } := h
theorem Dev.events_upd_freeCount {x : List Event} {s : Dev} {v0 : Nat} (h : Dev.events x s) :
    Dev.events x { s with freeCount := v0 } := h
theorem Dev.events_upd_laneWaits {x : List Event} {s : Dev} {v0 : List LaneWait} (h : Dev.events x s) :
    Dev.events x { s with laneWaits := v0 } := h
theorem Dev.events_upd_lanes {x : List Event} {s : Dev} {v0 : Sparse Lane} (h : Dev.events x s) :
    Dev.events x { s with lanes := v0 } := h
theorem Dev.events_upd_lk {x : List Event} {s : Dev} {v0 : LockUnit} (h : Dev.events x s) :
    Dev.events x { s with lk := v0 } := h
theorem Dev.events_upd_out {x : List Event} {s : Dev} {v0 : List Out} (h : Dev.events x s) :
    Dev.events x { s with out := v0 } := h
theorem Dev.events_upd_prof_profPend {x : List Event} {s : Dev} {v0 : Sparse Word} {v1 : Sparse (Word × Word)} (h : Dev.events x s) :
    Dev.events x { s with prof := v0, profPend := v1 } := h
theorem Dev.events_upd_regions {x : List Event} {s : Dev} {v0 : Sparse Region} (h : Dev.events x s) :
    Dev.events x { s with regions := v0 } := h
theorem Dev.events_upd_regs {x : List Event} {s : Dev} {v0 : Sparse Word} (h : Dev.events x s) :
    Dev.events x { s with regs := v0 } := h
theorem Dev.events_upd_regsPend {x : List Event} {s : Dev} {v0 : Sparse (Word × Word)} (h : Dev.events x s) :
    Dev.events x { s with regsPend := v0 } := h
theorem Dev.events_upd_reports {x : List Event} {s : Dev} {v0 : List Report} (h : Dev.events x s) :
    Dev.events x { s with reports := v0 } := h
theorem Dev.events_upd_slMsgs {x : List Event} {s : Dev} {v0 : List SlMsg} (h : Dev.events x s) :
    Dev.events x { s with slMsgs := v0 } := h
theorem Dev.events_upd_slices {x : List Event} {s : Dev} {v0 : Sparse Slice} (h : Dev.events x s) :
    Dev.events x { s with slices := v0 } := h
theorem Dev.events_upd_sluice_slMsgs_grants {x : List Event} {s : Dev} {v0 : Sluice} {v1 : List SlMsg} {v2 : List Grant} (h : Dev.events x s) :
    Dev.events x { s with sluice := v0, slMsgs := v1, grants := v2 } := h
theorem Dev.events_upd_tb {x : List Event} {s : Dev} {v0 : Timebase} (h : Dev.events x s) :
    Dev.events x { s with tb := v0 } := h
theorem Dev.events_upd_tows {x : List Event} {s : Dev} {v0 : Sparse Towpath} (h : Dev.events x s) :
    Dev.events x { s with tows := v0 } := h
theorem Dev.events_upd_tripSeq {x : List Event} {s : Dev} {v0 : Nat} (h : Dev.events x s) :
    Dev.events x { s with tripSeq := v0 } := h

theorem Dev.setBarge_events {x : List Event} (s : Dev) (e : Nat) (v : Barge)
    (h : Dev.events x s) : Dev.events x (Dev.setBarge s e v) := by
  unfold Dev.setBarge
  repeat' first
    | with_reducible assumption
    | intro _
    | extract_lets
    | with_reducible apply events_ite
    | (split
       all_goals try (rename_i heq
                      have h2 := congrArg Prod.snd heq
                      have h1 := congrArg Prod.fst heq
                      dsimp only at h1 h2
                      subst h1 h2
                      clear heq))
    | with_reducible apply Dev.events_upd_barges
    | dsimp only [Lock.count]
    | dsimp +zetaDelta only

theorem Dev.modBarge_events {x : List Event} (s : Dev) (e : Nat) (f : Barge → Barge)
    (h : Dev.events x s) : Dev.events x (Dev.modBarge s e f) := by
  unfold Dev.modBarge
  repeat' first
    | with_reducible assumption
    | intro _
    | extract_lets
    | with_reducible apply events_ite
    | with_reducible apply Dev.setBarge_events
    | (split
       all_goals try (rename_i heq
                      have h2 := congrArg Prod.snd heq
                      have h1 := congrArg Prod.fst heq
                      dsimp only at h1 h2
                      subst h1 h2
                      clear heq))
    | dsimp only [Lock.count]
    | dsimp +zetaDelta only

theorem Dev.setColl_events {x : List Event} (s : Dev) (k : Nat) (v : Coll)
    (h : Dev.events x s) : Dev.events x (Dev.setColl s k v) := by
  unfold Dev.setColl
  repeat' first
    | with_reducible assumption
    | intro _
    | extract_lets
    | with_reducible apply events_ite
    | (split
       all_goals try (rename_i heq
                      have h2 := congrArg Prod.snd heq
                      have h1 := congrArg Prod.fst heq
                      dsimp only at h1 h2
                      subst h1 h2
                      clear heq))
    | with_reducible apply Dev.events_upd_colls
    | dsimp only [Lock.count]
    | dsimp +zetaDelta only

theorem Dev.noteEvent_events {x : List Event} (s : Dev) (k : Nat) (src : Nat) (n : Nat) (inj : Bool)
    (h : Dev.events x s) : Dev.events x (Dev.noteEvent s k src n inj) := by
  unfold Dev.noteEvent
  repeat' first
    | with_reducible assumption
    | intro _
    | extract_lets
    | with_reducible apply events_ite
    | with_reducible apply Dev.setColl_events
    | (split
       all_goals try (rename_i heq
                      have h2 := congrArg Prod.snd heq
                      have h1 := congrArg Prod.fst heq
                      dsimp only at h1 h2
                      subst h1 h2
                      clear heq))
    | dsimp only [Lock.count]
    | dsimp +zetaDelta only

theorem Dev.modColl_events {x : List Event} (s : Dev) (k : Nat) (f : Coll → Coll)
    (h : Dev.events x s) : Dev.events x (Dev.modColl s k f) := by
  unfold Dev.modColl
  repeat' first
    | with_reducible assumption
    | intro _
    | extract_lets
    | with_reducible apply events_ite
    | with_reducible apply Dev.setColl_events
    | (split
       all_goals try (rename_i heq
                      have h2 := congrArg Prod.snd heq
                      have h1 := congrArg Prod.fst heq
                      dsimp only at h1 h2
                      subst h1 h2
                      clear heq))
    | dsimp only [Lock.count]
    | dsimp +zetaDelta only

theorem Dev.setRegion_events {x : List Event} (s : Dev) (g : Nat) (v : Region)
    (h : Dev.events x s) : Dev.events x (Dev.setRegion s g v) := by
  unfold Dev.setRegion
  repeat' first
    | with_reducible assumption
    | intro _
    | extract_lets
    | with_reducible apply events_ite
    | (split
       all_goals try (rename_i heq
                      have h2 := congrArg Prod.snd heq
                      have h1 := congrArg Prod.fst heq
                      dsimp only at h1 h2
                      subst h1 h2
                      clear heq))
    | with_reducible apply Dev.events_upd_regions
    | dsimp only [Lock.count]
    | dsimp +zetaDelta only

theorem Dev.modRegion_events {x : List Event} (s : Dev) (g : Nat) (f : Region → Region)
    (h : Dev.events x s) : Dev.events x (Dev.modRegion s g f) := by
  unfold Dev.modRegion
  repeat' first
    | with_reducible assumption
    | intro _
    | extract_lets
    | with_reducible apply events_ite
    | with_reducible apply Dev.setRegion_events
    | (split
       all_goals try (rename_i heq
                      have h2 := congrArg Prod.snd heq
                      have h1 := congrArg Prod.fst heq
                      dsimp only at h1 h2
                      subst h1 h2
                      clear heq))
    | dsimp only [Lock.count]
    | dsimp +zetaDelta only

theorem Dev.raiseIsland_events {x : List Event} (s : Dev) (g : Nat) (hold : Bool) (e : Event)
    (h : Dev.events x s) : Dev.events x (Dev.raiseIsland s g hold e) := by
  unfold Dev.raiseIsland
  repeat' first
    | with_reducible assumption
    | intro _
    | extract_lets
    | with_reducible apply events_ite
    | with_reducible apply Dev.modRegion_events
    | with_reducible apply Dev.raise_events
    | (split
       all_goals try (rename_i heq
                      have h2 := congrArg Prod.snd heq
                      have h1 := congrArg Prod.fst heq
                      dsimp only at h1 h2
                      subst h1 h2
                      clear heq))
    | dsimp only [Lock.count]
    | dsimp +zetaDelta only

theorem Dev.collEvent_events {x : List Event} (s : Dev) (k : Nat) (code : Nat) (flag : Bool) (payload : List Word)
    (h : Dev.events x s) : Dev.events x (Dev.collEvent s k code flag payload) := by
  unfold Dev.collEvent
  repeat' first
    | with_reducible assumption
    | intro _
    | extract_lets
    | with_reducible apply events_ite
    | with_reducible apply Dev.raiseIsland_events
    | with_reducible apply Dev.raise_events
    | (split
       all_goals try (rename_i heq
                      have h2 := congrArg Prod.snd heq
                      have h1 := congrArg Prod.fst heq
                      dsimp only at h1 h2
                      subst h1 h2
                      clear heq))
    | dsimp only [Lock.count]
    | dsimp +zetaDelta only

theorem Dev.irq_events {x : List Event} (s : Dev) (e : Nat) (n : Nat)
    (h : Dev.events x s) : Dev.events x (Dev.irq s e n) := by
  unfold Dev.irq
  repeat' first
    | with_reducible assumption
    | intro _
    | extract_lets
    | with_reducible apply events_ite
    | with_reducible apply Dev.modBarge_events
    | (split
       all_goals try (rename_i heq
                      have h2 := congrArg Prod.snd heq
                      have h1 := congrArg Prod.fst heq
                      dsimp only at h1 h2
                      subst h1 h2
                      clear heq))
    | dsimp only [Lock.count]
    | dsimp +zetaDelta only

theorem Dev.forEach_events {x : List Event} {α : Type} (l : List α) (f : Dev → α → Dev) (s : Dev) (h_f : ∀ u0 u1, Dev.events x u0 → Dev.events x (f u0 u1))
    (h : Dev.events x s) : Dev.events x (Dev.forEach l f s) := by
  unfold Dev.forEach
  exact events_foldl h_f h

theorem Dev.irqAll_events {x : List Event} (s : Dev) (n : Nat)
    (h : Dev.events x s) : Dev.events x (Dev.irqAll s n) := by
  unfold Dev.irqAll
  repeat' first
    | with_reducible assumption
    | intro _
    | extract_lets
    | with_reducible apply events_ite
    | with_reducible apply Dev.forEach_events
    | with_reducible apply Dev.irq_events
    | (split
       all_goals try (rename_i heq
                      have h2 := congrArg Prod.snd heq
                      have h1 := congrArg Prod.fst heq
                      dsimp only at h1 h2
                      subst h1 h2
                      clear heq))
    | dsimp only [Lock.count]
    | dsimp +zetaDelta only

theorem Dev.irqRegion_events {x : List Event} (s : Dev) (g : Nat) (n : Nat)
    (h : Dev.events x s) : Dev.events x (Dev.irqRegion s g n) := by
  unfold Dev.irqRegion
  repeat' first
    | with_reducible assumption
    | intro _
    | extract_lets
    | with_reducible apply events_ite
    | with_reducible apply Dev.forEach_events
    | with_reducible apply Dev.irq_events
    | (split
       all_goals try (rename_i heq
                      have h2 := congrArg Prod.snd heq
                      have h1 := congrArg Prod.fst heq
                      dsimp only at h1 h2
                      subst h1 h2
                      clear heq))
    | dsimp only [Lock.count]
    | dsimp +zetaDelta only

theorem Dev.faultEvent_events {x : List Event} (s : Dev) (k : Nat) (flag : Bool) (e : HistEntry)
    (h : Dev.events x s) : Dev.events x (Dev.faultEvent s k flag e) := by
  unfold Dev.faultEvent
  repeat' first
    | with_reducible assumption
    | intro _
    | extract_lets
    | with_reducible apply events_ite
    | with_reducible apply Dev.irqRegion_events
    | with_reducible apply Dev.irqAll_events
    | with_reducible apply Dev.collEvent_events
    | (split
       all_goals try (rename_i heq
                      have h2 := congrArg Prod.snd heq
                      have h1 := congrArg Prod.fst heq
                      dsimp only at h1 h2
                      subst h1 h2
                      clear heq))
    | dsimp only [Lock.count]
    | dsimp +zetaDelta only

theorem Dev.history_events {x : List Event} (s : Dev) (k : Nat) (e : HistEntry)
    (h : Dev.events x s) : Dev.events x (Dev.history s k e) := by
  unfold Dev.history
  repeat' first
    | with_reducible assumption
    | intro _
    | extract_lets
    | with_reducible apply events_ite
    | with_reducible apply Dev.collEvent_events
    | with_reducible apply Dev.setColl_events
    | (split
       all_goals try (rename_i heq
                      have h2 := congrArg Prod.snd heq
                      have h1 := congrArg Prod.fst heq
                      dsimp only at h1 h2
                      subst h1 h2
                      clear heq))
    | dsimp only [Lock.count]
    | dsimp +zetaDelta only

theorem Dev.unoccur_events {x : List Event} (s : Dev) (k : Nat) (src : Nat)
    (h : Dev.events x s) : Dev.events x (Dev.unoccur s k src) := by
  unfold Dev.unoccur
  repeat' first
    | with_reducible assumption
    | intro _
    | extract_lets
    | with_reducible apply events_ite
    | with_reducible apply Dev.history_events
    | with_reducible apply Dev.faultEvent_events
    | with_reducible apply Dev.setColl_events
    | (split
       all_goals try (rename_i heq
                      have h2 := congrArg Prod.snd heq
                      have h1 := congrArg Prod.fst heq
                      dsimp only at h1 h2
                      subst h1 h2
                      clear heq))
    | dsimp only [Lock.count]
    | dsimp +zetaDelta only

theorem Dev.latchedCheck_events {x : List Event} (s : Dev) (b : Nat)
    (h : Dev.events x s) : Dev.events x (Dev.latchedCheck s b) := by
  unfold Dev.latchedCheck
  repeat' first
    | with_reducible assumption
    | intro _
    | extract_lets
    | with_reducible apply events_ite
    | with_reducible apply Dev.unoccur_events
    | (split
       all_goals try (rename_i heq
                      have h2 := congrArg Prod.snd heq
                      have h1 := congrArg Prod.fst heq
                      dsimp only at h1 h2
                      subst h1 h2
                      clear heq))
    | dsimp only [Lock.count]
    | dsimp +zetaDelta only

theorem Dev.cellEvent_events {x : List Event} (s : Dev) (c : Nat) (maskBit : Nat) (code : Nat) (flag : Bool) (payload : List Word)
    (h : Dev.events x s) : Dev.events x (Dev.cellEvent s c maskBit code flag payload) := by
  unfold Dev.cellEvent
  repeat' first
    | with_reducible assumption
    | intro _
    | extract_lets
    | with_reducible apply events_ite
    | with_reducible apply Dev.raiseIsland_events
    | (split
       all_goals try (rename_i heq
                      have h2 := congrArg Prod.snd heq
                      have h1 := congrArg Prod.fst heq
                      dsimp only at h1 h2
                      subst h1 h2
                      clear heq))
    | dsimp only [Lock.count]
    | dsimp +zetaDelta only

theorem Dev.setLane_events {x : List Event} (s : Dev) (c : Nat) (v : Lane)
    (h : Dev.events x s) : Dev.events x (Dev.setLane s c v) := by
  unfold Dev.setLane
  repeat' first
    | with_reducible assumption
    | intro _
    | extract_lets
    | with_reducible apply events_ite
    | (split
       all_goals try (rename_i heq
                      have h2 := congrArg Prod.snd heq
                      have h1 := congrArg Prod.fst heq
                      dsimp only at h1 h2
                      subst h1 h2
                      clear heq))
    | with_reducible apply Dev.events_upd_lanes
    | dsimp only [Lock.count]
    | dsimp +zetaDelta only

theorem Dev.modLane_events {x : List Event} (s : Dev) (c : Nat) (f : Lane → Lane)
    (h : Dev.events x s) : Dev.events x (Dev.modLane s c f) := by
  unfold Dev.modLane
  repeat' first
    | with_reducible assumption
    | intro _
    | extract_lets
    | with_reducible apply events_ite
    | with_reducible apply Dev.setLane_events
    | (split
       all_goals try (rename_i heq
                      have h2 := congrArg Prod.snd heq
                      have h1 := congrArg Prod.fst heq
                      dsimp only at h1 h2
                      subst h1 h2
                      clear heq))
    | dsimp only [Lock.count]
    | dsimp +zetaDelta only

theorem Dev.abortWindow_events {x : List Event} (s : Dev) (c : Nat) (clocks : Nat) (again : Bool)
    (h : Dev.events x s) : Dev.events x (Dev.abortWindow s c clocks again) := by
  unfold Dev.abortWindow
  repeat' first
    | with_reducible assumption
    | intro _
    | extract_lets
    | with_reducible apply events_ite
    | with_reducible apply Dev.modLane_events
    | (split
       all_goals try (rename_i heq
                      have h2 := congrArg Prod.snd heq
                      have h1 := congrArg Prod.fst heq
                      dsimp only at h1 h2
                      subst h1 h2
                      clear heq))
    | dsimp only [Lock.count]
    | dsimp +zetaDelta only

theorem Dev.startLane_events {x : List Event} (s : Dev) (c : Nat)
    (h : Dev.events x s) : Dev.events x (Dev.startLane s c) := by
  unfold Dev.startLane
  repeat' first
    | with_reducible assumption
    | intro _
    | extract_lets
    | with_reducible apply events_ite
    | with_reducible apply Dev.abortWindow_events
    | with_reducible apply Dev.modLane_events
    | (split
       all_goals try (rename_i heq
                      have h2 := congrArg Prod.snd heq
                      have h1 := congrArg Prod.fst heq
                      dsimp only at h1 h2
                      subst h1 h2
                      clear heq))
    | dsimp only [Lock.count]
    | dsimp +zetaDelta only

theorem Dev.stopLane_events {x : List Event} (s : Dev) (c : Nat) (clocks : Nat)
    (h : Dev.events x s) : Dev.events x (Dev.stopLane s c clocks) := by
  unfold Dev.stopLane
  repeat' first
    | with_reducible assumption
    | intro _
    | extract_lets
    | with_reducible apply events_ite
    | with_reducible apply Dev.abortWindow_events
    | with_reducible apply Dev.modLane_events
    | (split
       all_goals try (rename_i heq
                      have h2 := congrArg Prod.snd heq
                      have h1 := congrArg Prod.fst heq
                      dsimp only at h1 h2
                      subst h1 h2
                      clear heq))
    | dsimp only [Lock.count]
    | dsimp +zetaDelta only

theorem Dev.gateLane_events {x : List Event} (s : Dev) (c : Nat) (clocks : Nat)
    (h : Dev.events x s) : Dev.events x (Dev.gateLane s c clocks) := by
  unfold Dev.gateLane
  repeat' first
    | with_reducible assumption
    | intro _
    | extract_lets
    | with_reducible apply events_ite
    | with_reducible apply Dev.stopLane_events
    | with_reducible apply Dev.startLane_events
    | (split
       all_goals try (rename_i heq
                      have h2 := congrArg Prod.snd heq
                      have h1 := congrArg Prod.fst heq
                      dsimp only at h1 h2
                      subst h1 h2
                      clear heq))
    | dsimp only [Lock.count]
    | dsimp +zetaDelta only

theorem Dev.drawNat_events {x : List Event} (s : Dev)
    (h : Dev.events x s) : Dev.events x (Dev.drawNat s).2 := by
  unfold Dev.drawNat
  repeat' first
    | with_reducible assumption
    | intro _
    | extract_lets
    | with_reducible apply events_ite
    | (split
       all_goals try (rename_i heq
                      have h2 := congrArg Prod.snd heq
                      have h1 := congrArg Prod.fst heq
                      dsimp only at h1 h2
                      subst h1 h2
                      clear heq))
    | with_reducible apply Dev.events_upd_freeCount
    | dsimp only [Lock.count]
    | dsimp +zetaDelta only

theorem Dev.setConv_events {x : List Event} (s : Dev) (b : Nat) (v : Conv)
    (h : Dev.events x s) : Dev.events x (Dev.setConv s b v) := by
  unfold Dev.setConv
  repeat' first
    | with_reducible assumption
    | intro _
    | extract_lets
    | with_reducible apply events_ite
    | (split
       all_goals try (rename_i heq
                      have h2 := congrArg Prod.snd heq
                      have h1 := congrArg Prod.fst heq
                      dsimp only at h1 h2
                      subst h1 h2
                      clear heq))
    | with_reducible apply Dev.events_upd_convs
    | dsimp only [Lock.count]
    | dsimp +zetaDelta only

theorem Dev.modConv_events {x : List Event} (s : Dev) (b : Nat) (f : Conv → Conv)
    (h : Dev.events x s) : Dev.events x (Dev.modConv s b f) := by
  unfold Dev.modConv
  repeat' first
    | with_reducible assumption
    | intro _
    | extract_lets
    | with_reducible apply events_ite
    | with_reducible apply Dev.setConv_events
    | (split
       all_goals try (rename_i heq
                      have h2 := congrArg Prod.snd heq
                      have h1 := congrArg Prod.fst heq
                      dsimp only at h1 h2
                      subst h1 h2
                      clear heq))
    | dsimp only [Lock.count]
    | dsimp +zetaDelta only

theorem Dev.setBlock_events {x : List Event} (s : Dev) (b : Nat) (v : Block)
    (h : Dev.events x s) : Dev.events x (Dev.setBlock s b v) := by
  unfold Dev.setBlock
  repeat' first
    | with_reducible assumption
    | intro _
    | extract_lets
    | with_reducible apply events_ite
    | (split
       all_goals try (rename_i heq
                      have h2 := congrArg Prod.snd heq
                      have h1 := congrArg Prod.fst heq
                      dsimp only at h1 h2
                      subst h1 h2
                      clear heq))
    | with_reducible apply Dev.events_upd_blocks
    | dsimp only [Lock.count]
    | dsimp +zetaDelta only

theorem Dev.modBlock_events {x : List Event} (s : Dev) (b : Nat) (f : Block → Block)
    (h : Dev.events x s) : Dev.events x (Dev.modBlock s b f) := by
  unfold Dev.modBlock
  repeat' first
    | with_reducible assumption
    | intro _
    | extract_lets
    | with_reducible apply events_ite
    | with_reducible apply Dev.setBlock_events
    | (split
       all_goals try (rename_i heq
                      have h2 := congrArg Prod.snd heq
                      have h1 := congrArg Prod.fst heq
                      dsimp only at h1 h2
                      subst h1 h2
                      clear heq))
    | dsimp only [Lock.count]
    | dsimp +zetaDelta only

theorem Dev.setCell_events {x : List Event} (s : Dev) (c : Nat) (v : Cell)
    (h : Dev.events x s) : Dev.events x (Dev.setCell s c v) := by
  unfold Dev.setCell
  repeat' first
    | with_reducible assumption
    | intro _
    | extract_lets
    | with_reducible apply events_ite
    | (split
       all_goals try (rename_i heq
                      have h2 := congrArg Prod.snd heq
                      have h1 := congrArg Prod.fst heq
                      dsimp only at h1 h2
                      subst h1 h2
                      clear heq))
    | with_reducible apply Dev.events_upd_cells
    | dsimp only [Lock.count]
    | dsimp +zetaDelta only

theorem Dev.modCell_events {x : List Event} (s : Dev) (c : Nat) (f : Cell → Cell)
    (h : Dev.events x s) : Dev.events x (Dev.modCell s c f) := by
  unfold Dev.modCell
  repeat' first
    | with_reducible assumption
    | intro _
    | extract_lets
    | with_reducible apply events_ite
    | with_reducible apply Dev.setCell_events
    | (split
       all_goals try (rename_i heq
                      have h2 := congrArg Prod.snd heq
                      have h1 := congrArg Prod.fst heq
                      dsimp only at h1 h2
                      subst h1 h2
                      clear heq))
    | dsimp only [Lock.count]
    | dsimp +zetaDelta only

theorem Dev.startTests_events {x : List Event} (s : Dev) (c : Nat)
    (h : Dev.events x s) : Dev.events x (Dev.startTests s c) := by
  unfold Dev.startTests
  repeat' first
    | with_reducible assumption
    | intro _
    | extract_lets
    | with_reducible apply events_ite
    | with_reducible apply Dev.modCell_events
    | with_reducible apply Dev.modBlock_events
    | (split
       all_goals try (rename_i heq
                      have h2 := congrArg Prod.snd heq
                      have h1 := congrArg Prod.fst heq
                      dsimp only at h1 h2
                      subst h1 h2
                      clear heq))
    | dsimp only [Lock.count]
    | dsimp +zetaDelta only

theorem Dev.holdExit_events {x : List Event} (s : Dev) (c : Nat)
    (h : Dev.events x s) : Dev.events x (Dev.holdExit s c) := by
  unfold Dev.holdExit
  repeat' first
    | with_reducible assumption
    | intro _
    | extract_lets
    | with_reducible apply events_ite
    | with_reducible apply Dev.modCell_events
    | (split
       all_goals try (rename_i heq
                      have h2 := congrArg Prod.snd heq
                      have h1 := congrArg Prod.fst heq
                      dsimp only at h1 h2
                      subst h1 h2
                      clear heq))
    | dsimp only [Lock.count]
    | dsimp +zetaDelta only

theorem Dev.emit_events {x : List Event} (s : Dev) (o : Out)
    (h : Dev.events x s) : Dev.events x (Dev.emit s o) := by
  unfold Dev.emit
  repeat' first
    | with_reducible assumption
    | intro _
    | extract_lets
    | with_reducible apply events_ite
    | (split
       all_goals try (rename_i heq
                      have h2 := congrArg Prod.snd heq
                      have h1 := congrArg Prod.fst heq
                      dsimp only at h1 h2
                      subst h1 h2
                      clear heq))
    | with_reducible apply Dev.events_upd_out
    | dsimp only [Lock.count]
    | dsimp +zetaDelta only

theorem Dev.sendTrip_events {x : List Event} (s : Dev) (g : Nat) (bit : Bool)
    (h : Dev.events x s) : Dev.events x (Dev.sendTrip s g bit) := by
  unfold Dev.sendTrip
  repeat' first
    | with_reducible assumption
    | intro _
    | extract_lets
    | with_reducible apply events_ite
    | with_reducible apply Dev.emit_events
    | (split
       all_goals try (rename_i heq
                      have h2 := congrArg Prod.snd heq
                      have h1 := congrArg Prod.fst heq
                      dsimp only at h1 h2
                      subst h1 h2
                      clear heq))
    | with_reducible apply Dev.events_upd_tripSeq
    | dsimp only [Lock.count]
    | dsimp +zetaDelta only

theorem Dev.withBcast_events {x : List Event} (s : Dev) (g : Nat) (f : Dev → Dev) (h_f : ∀ u0, Dev.events x u0 → Dev.events x (f u0))
    (h : Dev.events x s) : Dev.events x (Dev.withBcast s g f) := by
  unfold Dev.withBcast
  repeat' first
    | with_reducible assumption
    | intro _
    | extract_lets
    | with_reducible apply events_ite
    | with_reducible apply Dev.sendTrip_events
    | with_reducible apply h_f
    | (split
       all_goals try (rename_i heq
                      have h2 := congrArg Prod.snd heq
                      have h1 := congrArg Prod.fst heq
                      dsimp only at h1 h2
                      subst h1 h2
                      clear heq))
    | dsimp only [Lock.count]
    | dsimp +zetaDelta only

theorem Dev.complete_events {x : List Event} (s : Dev) (k : Completion)
    (h : Dev.events x s) : Dev.events x (Dev.complete s k) := by
  unfold Dev.complete
  repeat' first
    | with_reducible assumption
    | intro _
    | extract_lets
    | with_reducible apply events_ite
    | (split
       all_goals try (rename_i heq
                      have h2 := congrArg Prod.snd heq
                      have h1 := congrArg Prod.fst heq
                      dsimp only at h1 h2
                      subst h1 h2
                      clear heq))
    | with_reducible apply Dev.events_upd_complq
    | dsimp only [Lock.count]
    | dsimp +zetaDelta only

theorem Dev.decideHeld_events {x : List Event} (s : Dev) (c : Nat) (bad : Bool) (cmd : Nat × Nat)
    (h : Dev.events x s) : Dev.events x (Dev.decideHeld s c bad cmd) := by
  unfold Dev.decideHeld
  repeat' first
    | with_reducible assumption
    | intro _
    | extract_lets
    | with_reducible apply events_ite
    | with_reducible apply Dev.complete_events
    | (split
       all_goals try (rename_i heq
                      have h2 := congrArg Prod.snd heq
                      have h1 := congrArg Prod.fst heq
                      dsimp only at h1 h2
                      subst h1 h2
                      clear heq))
    | with_reducible apply Dev.events_upd_laneWaits
    | dsimp only [Lock.count]
    | dsimp +zetaDelta only

theorem Dev.endHeldOn_events {x : List Event} (s : Dev) (c : Nat) (bad : Bool)
    (h : Dev.events x s) : Dev.events x (Dev.endHeldOn s c bad) := by
  unfold Dev.endHeldOn
  repeat' first
    | with_reducible assumption
    | intro _
    | extract_lets
    | with_reducible apply events_ite
    | with_reducible apply Dev.decideHeld_events
    | with_reducible apply Dev.modCell_events
    | with_reducible apply Dev.forEach_events
    | (split
       all_goals try (rename_i heq
                      have h2 := congrArg Prod.snd heq
                      have h1 := congrArg Prod.fst heq
                      dsimp only at h1 h2
                      subst h1 h2
                      clear heq))
    | dsimp only [Lock.count]
    | dsimp +zetaDelta only

theorem Dev.abortPulse_events {x : List Event} (s : Dev) (c : Nat)
    (h : Dev.events x s) : Dev.events x (Dev.abortPulse s c) := by
  unfold Dev.abortPulse
  repeat' first
    | with_reducible assumption
    | intro _
    | extract_lets
    | with_reducible apply events_ite
    | with_reducible apply Dev.modCell_events
    | (split
       all_goals try (rename_i heq
                      have h2 := congrArg Prod.snd heq
                      have h1 := congrArg Prod.fst heq
                      dsimp only at h1 h2
                      subst h1 h2
                      clear heq))
    | dsimp only [Lock.count]
    | dsimp +zetaDelta only

theorem Dev.sendSl_events {x : List Event} (s : Dev) (g : Nat) (a2 : SlMsg)
    (h : Dev.events x s) : Dev.events x (Dev.sendSl s g a2) := by
  unfold Dev.sendSl
  repeat' first
    | with_reducible assumption
    | intro _
    | extract_lets
    | with_reducible apply events_ite
    | with_reducible apply Dev.modRegion_events
    | (split
       all_goals try (rename_i heq
                      have h2 := congrArg Prod.snd heq
                      have h1 := congrArg Prod.fst heq
                      dsimp only at h1 h2
                      subst h1 h2
                      clear heq))
    | with_reducible apply Dev.events_upd_slMsgs
    | dsimp only [Lock.count]
    | dsimp +zetaDelta only

theorem Dev.commitProf_events {x : List Event} (s : Dev) (c : Nat)
    (h : Dev.events x s) : Dev.events x (Dev.commitProf s c) := by
  unfold Dev.commitProf
  repeat' first
    | with_reducible assumption
    | intro _
    | extract_lets
    | with_reducible apply events_ite
    | with_reducible apply Dev.modCell_events
    | (split
       all_goals try (rename_i heq
                      have h2 := congrArg Prod.snd heq
                      have h1 := congrArg Prod.fst heq
                      dsimp only at h1 h2
                      subst h1 h2
                      clear heq))
    | with_reducible apply Dev.events_upd_prof_profPend
    | dsimp only [Lock.count]
    | dsimp +zetaDelta only

theorem Dev.goto_events {x : List Event} (s : Dev) (c : Nat) (st : CellState)
    (h : Dev.events x s) : Dev.events x (Dev.goto s c st) := by
  unfold Dev.goto
  repeat' first
    | with_reducible assumption
    | intro _
    | extract_lets
    | with_reducible apply events_ite
    | with_reducible apply Dev.commitProf_events
    | with_reducible apply Dev.sendSl_events
    | with_reducible apply Dev.abortPulse_events
    | with_reducible apply Dev.endHeldOn_events
    | with_reducible apply Dev.withBcast_events
    | with_reducible apply Dev.holdExit_events
    | with_reducible apply Dev.startTests_events
    | with_reducible apply Dev.modCell_events
    | with_reducible apply Dev.modConv_events
    | with_reducible apply Dev.drawNat_events
    | with_reducible apply Dev.gateLane_events
    | with_reducible apply Dev.modLane_events
    | with_reducible apply Dev.cellEvent_events
    | (split
       all_goals try (rename_i heq
                      have h2 := congrArg Prod.snd heq
                      have h1 := congrArg Prod.fst heq
                      dsimp only at h1 h2
                      subst h1 h2
                      clear heq))
    | dsimp only [Lock.count]
    | dsimp +zetaDelta only

theorem Dev.enterSafe_events {x : List Event} (s : Dev) (c : Nat)
    (h : Dev.events x s) : Dev.events x (Dev.enterSafe s c) := by
  unfold Dev.enterSafe
  repeat' first
    | with_reducible assumption
    | intro _
    | extract_lets
    | with_reducible apply events_ite
    | with_reducible apply Dev.goto_events
    | (split
       all_goals try (rename_i heq
                      have h2 := congrArg Prod.snd heq
                      have h1 := congrArg Prod.fst heq
                      dsimp only at h1 h2
                      subst h1 h2
                      clear heq))
    | dsimp only [Lock.count]
    | dsimp +zetaDelta only

theorem Dev.safeCells_events {x : List Event} (s : Dev) (l : List Nat)
    (h : Dev.events x s) : Dev.events x (Dev.safeCells s l) := by
  unfold Dev.safeCells
  repeat' first
    | with_reducible assumption
    | intro _
    | extract_lets
    | with_reducible apply events_ite
    | with_reducible apply Dev.enterSafe_events
    | with_reducible apply Dev.latchedCheck_events
    | with_reducible apply Dev.forEach_events
    | (split
       all_goals try (rename_i heq
                      have h2 := congrArg Prod.snd heq
                      have h1 := congrArg Prod.fst heq
                      dsimp only at h1 h2
                      subst h1 h2
                      clear heq))
    | dsimp only [Lock.count]
    | dsimp +zetaDelta only

theorem Dev.setSlice_events {x : List Event} (s : Dev) (k : Nat) (v : Slice)
    (h : Dev.events x s) : Dev.events x (Dev.setSlice s k v) := by
  unfold Dev.setSlice
  repeat' first
    | with_reducible assumption
    | intro _
    | extract_lets
    | with_reducible apply events_ite
    | (split
       all_goals try (rename_i heq
                      have h2 := congrArg Prod.snd heq
                      have h1 := congrArg Prod.fst heq
                      dsimp only at h1 h2
                      subst h1 h2
                      clear heq))
    | with_reducible apply Dev.events_upd_slices
    | dsimp only [Lock.count]
    | dsimp +zetaDelta only

theorem Dev.sliceEvent_events {x : List Event} (s : Dev) (k : Nat) (code : Nat) (flag : Bool) (payload : List Word)
    (h : Dev.events x s) : Dev.events x (Dev.sliceEvent s k code flag payload) := by
  unfold Dev.sliceEvent
  repeat' first
    | with_reducible assumption
    | intro _
    | extract_lets
    | with_reducible apply events_ite
    | with_reducible apply Dev.irqRegion_events
    | with_reducible apply Dev.raiseIsland_events
    | (split
       all_goals try (rename_i heq
                      have h2 := congrArg Prod.snd heq
                      have h1 := congrArg Prod.fst heq
                      dsimp only at h1 h2
                      subst h1 h2
                      clear heq))
    | dsimp only [Lock.count]
    | dsimp +zetaDelta only

theorem Dev.cutEvent_events {x : List Event} (s : Dev) (k : Nat) (begins : Bool)
    (h : Dev.events x s) : Dev.events x (Dev.cutEvent s k begins) := by
  unfold Dev.cutEvent
  repeat' first
    | with_reducible assumption
    | intro _
    | extract_lets
    | with_reducible apply events_ite
    | with_reducible apply Dev.sliceEvent_events
    | (split
       all_goals try (rename_i heq
                      have h2 := congrArg Prod.snd heq
                      have h1 := congrArg Prod.fst heq
                      dsimp only at h1 h2
                      subst h1 h2
                      clear heq))
    | dsimp only [Lock.count]
    | dsimp +zetaDelta only

theorem Dev.cutUpdate_events {x : List Event} (s : Dev) (k : Nat)
    (h : Dev.events x s) : Dev.events x (Dev.cutUpdate s k) := by
  unfold Dev.cutUpdate
  repeat' first
    | with_reducible assumption
    | intro _
    | extract_lets
    | with_reducible apply events_ite
    | with_reducible apply Dev.cutEvent_events
    | with_reducible apply Dev.setSlice_events
    | (split
       all_goals try (rename_i heq
                      have h2 := congrArg Prod.snd heq
                      have h1 := congrArg Prod.fst heq
                      dsimp only at h1 h2
                      subst h1 h2
                      clear heq))
    | with_reducible apply Dev.events_upd_slices
    | dsimp only [Lock.count]
    | dsimp +zetaDelta only

theorem Dev.sliceGoto_events {x : List Event} (s : Dev) (k : Nat) (st : SliceState) (cause : Nat)
    (h : Dev.events x s) : Dev.events x (Dev.sliceGoto s k st cause) := by
  unfold Dev.sliceGoto
  repeat' first
    | with_reducible assumption
    | intro _
    | extract_lets
    | with_reducible apply events_ite
    | with_reducible apply Dev.sliceEvent_events
    | with_reducible apply Dev.setSlice_events
    | (split
       all_goals try (rename_i heq
                      have h2 := congrArg Prod.snd heq
                      have h1 := congrArg Prod.fst heq
                      dsimp only at h1 h2
                      subst h1 h2
                      clear heq))
    | dsimp only [Lock.count]
    | dsimp +zetaDelta only

theorem Dev.setReg_events {x : List Event} (s : Dev) (off : Nat) (v : Word)
    (h : Dev.events x s) : Dev.events x (Dev.setReg s off v) := by
  unfold Dev.setReg
  repeat' first
    | with_reducible assumption
    | intro _
    | extract_lets
    | with_reducible apply events_ite
    | (split
       all_goals try (rename_i heq
                      have h2 := congrArg Prod.snd heq
                      have h1 := congrArg Prod.fst heq
                      dsimp only at h1 h2
                      subst h1 h2
                      clear heq))
    | with_reducible apply Dev.events_upd_regs
    | dsimp only [Lock.count]
    | dsimp +zetaDelta only

theorem Dev.commitReg_events {x : List Event} (s : Dev) (off : Nat)
    (h : Dev.events x s) : Dev.events x (Dev.commitReg s off) := by
  unfold Dev.commitReg
  repeat' first
    | with_reducible assumption
    | intro _
    | extract_lets
    | with_reducible apply events_ite
    | with_reducible apply Dev.setReg_events
    | (split
       all_goals try (rename_i heq
                      have h2 := congrArg Prod.snd heq
                      have h1 := congrArg Prod.fst heq
                      dsimp only at h1 h2
                      subst h1 h2
                      clear heq))
    | with_reducible apply Dev.events_upd_regsPend
    | dsimp only [Lock.count]
    | dsimp +zetaDelta only

theorem Dev.commitCs_events {x : List Event} (s : Dev) (k : Nat)
    (h : Dev.events x s) : Dev.events x (Dev.commitCs s k) := by
  unfold Dev.commitCs
  repeat' first
    | with_reducible assumption
    | intro _
    | extract_lets
    | with_reducible apply events_ite
    | with_reducible apply Dev.commitReg_events
    | with_reducible apply Dev.forEach_events
    | (split
       all_goals try (rename_i heq
                      have h2 := congrArg Prod.snd heq
                      have h1 := congrArg Prod.fst heq
                      dsimp only at h1 h2
                      subst h1 h2
                      clear heq))
    | dsimp only [Lock.count]
    | dsimp +zetaDelta only

theorem Dev.putReg_events {x : List Event} (s : Dev) (off : Nat) (lo : Nat) (len : Nat) (v : Nat)
    (h : Dev.events x s) : Dev.events x (Dev.putReg s off lo len v) := by
  unfold Dev.putReg
  repeat' first
    | with_reducible assumption
    | intro _
    | extract_lets
    | with_reducible apply events_ite
    | with_reducible apply Dev.setReg_events
    | (split
       all_goals try (rename_i heq
                      have h2 := congrArg Prod.snd heq
                      have h1 := congrArg Prod.fst heq
                      dsimp only at h1 h2
                      subst h1 h2
                      clear heq))
    | dsimp only [Lock.count]
    | dsimp +zetaDelta only

theorem Dev.modSlice_events {x : List Event} (s : Dev) (k : Nat) (f : Slice → Slice)
    (h : Dev.events x s) : Dev.events x (Dev.modSlice s k f) := by
  unfold Dev.modSlice
  repeat' first
    | with_reducible assumption
    | intro _
    | extract_lets
    | with_reducible apply events_ite
    | with_reducible apply Dev.setSlice_events
    | (split
       all_goals try (rename_i heq
                      have h2 := congrArg Prod.snd heq
                      have h1 := congrArg Prod.fst heq
                      dsimp only at h1 h2
                      subst h1 h2
                      clear heq))
    | dsimp only [Lock.count]
    | dsimp +zetaDelta only

theorem Dev.killSlice_events {x : List Event} (s : Dev) (k : Nat) (cause : Nat)
    (h : Dev.events x s) : Dev.events x (Dev.killSlice s k cause) := by
  unfold Dev.killSlice
  repeat' first
    | with_reducible assumption
    | intro _
    | extract_lets
    | with_reducible apply events_ite
    | with_reducible apply Dev.modSlice_events
    | with_reducible apply Dev.putReg_events
    | with_reducible apply Dev.commitCs_events
    | with_reducible apply Dev.commitReg_events
    | with_reducible apply Dev.sliceGoto_events
    | with_reducible apply Dev.cutUpdate_events
    | (split
       all_goals try (rename_i heq
                      have h2 := congrArg Prod.snd heq
                      have h1 := congrArg Prod.fst heq
                      dsimp only at h1 h2
                      subst h1 h2
                      clear heq))
    | dsimp only [Lock.count]
    | dsimp +zetaDelta only

theorem Dev.killSlices_events {x : List Event} (s : Dev) (g : Nat)
    (h : Dev.events x s) : Dev.events x (Dev.killSlices s g) := by
  unfold Dev.killSlices
  repeat' first
    | with_reducible assumption
    | intro _
    | extract_lets
    | with_reducible apply events_ite
    | with_reducible apply Dev.killSlice_events
    | with_reducible apply Dev.forEach_events
    | (split
       all_goals try (rename_i heq
                      have h2 := congrArg Prod.snd heq
                      have h1 := congrArg Prod.fst heq
                      dsimp only at h1 h2
                      subst h1 h2
                      clear heq))
    | dsimp only [Lock.count]
    | dsimp +zetaDelta only

theorem Dev.regionSafe_events {x : List Event} (s : Dev) (g : Nat)
    (h : Dev.events x s) : Dev.events x (Dev.regionSafe s g) := by
  unfold Dev.regionSafe
  repeat' first
    | with_reducible assumption
    | intro _
    | extract_lets
    | with_reducible apply events_ite
    | with_reducible apply Dev.killSlices_events
    | with_reducible apply Dev.safeCells_events
    | (split
       all_goals try (rename_i heq
                      have h2 := congrArg Prod.snd heq
                      have h1 := congrArg Prod.fst heq
                      dsimp only at h1 h2
                      subst h1 h2
                      clear heq))
    | dsimp only [Lock.count]
    | dsimp +zetaDelta only

theorem Dev.blockSafe_events {x : List Event} (s : Dev) (b : Nat)
    (h : Dev.events x s) : Dev.events x (Dev.blockSafe s b) := by
  unfold Dev.blockSafe
  repeat' first
    | with_reducible assumption
    | intro _
    | extract_lets
    | with_reducible apply events_ite
    | with_reducible apply Dev.safeCells_events
    | (split
       all_goals try (rename_i heq
                      have h2 := congrArg Prod.snd heq
                      have h1 := congrArg Prod.fst heq
                      dsimp only at h1 h2
                      subst h1 h2
                      clear heq))
    | dsimp only [Lock.count]
    | dsimp +zetaDelta only

theorem Dev.stand_events {x : List Event} (s : Dev) (k : Nat) (src : Nat) (scope : SafeScope) (fatal : Bool)
    (h : Dev.events x s) : Dev.events x (Dev.stand s k src scope fatal) := by
  unfold Dev.stand
  repeat' first
    | with_reducible assumption
    | intro _
    | extract_lets
    | with_reducible apply events_ite
    | with_reducible apply Dev.modColl_events
    | (split
       all_goals try (rename_i heq
                      have h2 := congrArg Prod.snd heq
                      have h1 := congrArg Prod.fst heq
                      dsimp only at h1 h2
                      subst h1 h2
                      clear heq))
    | dsimp only [Lock.count]
    | dsimp +zetaDelta only

theorem Dev.safeReact_events {x : List Event} (s : Dev) (k : Nat) (src : Nat) (info : Nat) (mask : Nat) (fatal : Bool)
    (h : Dev.events x s) : Dev.events x (Dev.safeReact s k src info mask fatal) := by
  unfold Dev.safeReact
  repeat' first
    | with_reducible assumption
    | intro _
    | extract_lets
    | with_reducible apply events_ite
    | with_reducible apply Dev.stand_events
    | with_reducible apply Dev.blockSafe_events
    | with_reducible apply Dev.regionSafe_events
    | with_reducible apply Dev.safeCells_events
    | with_reducible apply Dev.modColl_events
    | (split
       all_goals try (rename_i heq
                      have h2 := congrArg Prod.snd heq
                      have h1 := congrArg Prod.fst heq
                      dsimp only at h1 h2
                      subst h1 h2
                      clear heq))
    | dsimp only [Lock.count]
    | dsimp +zetaDelta only

theorem Dev.report_events {x : List Event} (s : Dev) (g : Nat) (r : Report)
    (h : Dev.events x s) : Dev.events x (Dev.report s g r) := by
  unfold Dev.report
  repeat' first
    | with_reducible assumption
    | intro _
    | extract_lets
    | with_reducible apply events_ite
    | with_reducible apply Dev.modColl_events
    | (split
       all_goals try (rename_i heq
                      have h2 := congrArg Prod.snd heq
                      have h1 := congrArg Prod.fst heq
                      dsimp only at h1 h2
                      subst h1 h2
                      clear heq))
    | with_reducible apply Dev.events_upd_reports
    | dsimp only [Lock.count]
    | dsimp +zetaDelta only

theorem Dev.errEvent_events {x : List Event} (s : Dev)
    (h : Dev.events x s) : Dev.events x (Dev.errEvent s) := by
  unfold Dev.errEvent
  repeat' first
    | with_reducible assumption
    | intro _
    | extract_lets
    | with_reducible apply events_ite
    | with_reducible apply Dev.collEvent_events
    | (split
       all_goals try (rename_i heq
                      have h2 := congrArg Prod.snd heq
                      have h1 := congrArg Prod.fst heq
                      dsimp only at h1 h2
                      subst h1 h2
                      clear heq))
    | dsimp only [Lock.count]
    | dsimp +zetaDelta only

theorem Dev.errAssert_events {x : List Event} (s : Dev)
    (h : Dev.events x s) : Dev.events x (Dev.errAssert s) := by
  unfold Dev.errAssert
  repeat' first
    | with_reducible assumption
    | intro _
    | extract_lets
    | with_reducible apply events_ite
    | with_reducible apply Dev.errEvent_events
    | (split
       all_goals try (rename_i heq
                      have h2 := congrArg Prod.snd heq
                      have h1 := congrArg Prod.fst heq
                      dsimp only at h1 h2
                      subst h1 h2
                      clear heq))
    | with_reducible apply Dev.events_upd_err
    | dsimp only [Lock.count]
    | dsimp +zetaDelta only

theorem Dev.faultKey_events {x : List Event} (s : Dev) (k : Nat) (src : Nat)
    (h : Dev.events x s) : Dev.events x (Dev.faultKey s k src).2.2 := by
  unfold Dev.faultKey
  repeat' first
    | with_reducible assumption
    | intro _
    | extract_lets
    | with_reducible apply events_ite
    | with_reducible apply Dev.modColl_events
    | (split
       all_goals try (rename_i heq
                      have h2 := congrArg Prod.snd heq
                      have h1 := congrArg Prod.fst heq
                      dsimp only at h1 h2
                      subst h1 h2
                      clear heq))
    | dsimp only [Lock.count]
    | dsimp +zetaDelta only

theorem Dev.reactEvent_events {x : List Event} (s : Dev) (k : Nat) (src : Nat) (info : Nat) (t : Nat) (deferred : Bool) (inj : Bool)
    (h : Dev.events x s) : Dev.events x (Dev.reactEvent s k src info t deferred inj) := by
  unfold Dev.reactEvent
  repeat' first
    | with_reducible assumption
    | intro _
    | extract_lets
    | with_reducible apply events_ite
    | with_reducible apply Dev.faultKey_events
    | with_reducible apply Dev.errAssert_events
    | with_reducible apply Dev.report_events
    | with_reducible apply Dev.safeReact_events
    | with_reducible apply Dev.history_events
    | with_reducible apply Dev.faultEvent_events
    | with_reducible apply Dev.modColl_events
    | (split
       all_goals try (rename_i heq
                      have h2 := congrArg Prod.snd heq
                      have h1 := congrArg Prod.fst heq
                      dsimp only at h1 h2
                      subst h1 h2
                      clear heq))
    | dsimp only [Lock.count]
    | dsimp +zetaDelta only

theorem Dev.occurAt_events {x : List Event} (s : Dev) (k : Nat) (src : Nat) (info : Nat) (n : Nat) (t : Nat) (deferred : Bool) (inj : Bool)
    (h : Dev.events x s) : Dev.events x (Dev.occurAt s k src info n t deferred inj) := by
  unfold Dev.occurAt
  repeat' first
    | with_reducible assumption
    | intro _
    | extract_lets
    | with_reducible apply events_ite
    | with_reducible apply Dev.reactEvent_events
    | with_reducible apply Dev.noteEvent_events
    | (split
       all_goals try (rename_i heq
                      have h2 := congrArg Prod.snd heq
                      have h1 := congrArg Prod.fst heq
                      dsimp only at h1 h2
                      subst h1 h2
                      clear heq))
    | dsimp only [Lock.count]
    | dsimp +zetaDelta only

theorem Dev.occur_events {x : List Event} (s : Dev) (k : Nat) (src : Nat) (info : Nat)
    (h : Dev.events x s) : Dev.events x (Dev.occur s k src info) := by
  unfold Dev.occur
  repeat' first
    | with_reducible assumption
    | intro _
    | extract_lets
    | with_reducible apply events_ite
    | with_reducible apply Dev.occurAt_events
    | (split
       all_goals try (rename_i heq
                      have h2 := congrArg Prod.snd heq
                      have h1 := congrArg Prod.fst heq
                      dsimp only at h1 h2
                      subst h1 h2
                      clear heq))
    | dsimp only [Lock.count]
    | dsimp +zetaDelta only

theorem Dev.bargeHalted_events {x : List Event} (s : Dev) (e : Nat) (cause : Nat)
    (h : Dev.events x s) : Dev.events x (Dev.bargeHalted s e cause) := by
  unfold Dev.bargeHalted
  repeat' first
    | with_reducible assumption
    | intro _
    | extract_lets
    | with_reducible apply events_ite
    | with_reducible apply Dev.forEach_events
    | with_reducible apply Dev.modBarge_events
    | (split
       all_goals try (rename_i heq
                      have h2 := congrArg Prod.snd heq
                      have h1 := congrArg Prod.fst heq
                      dsimp only at h1 h2
                      subst h1 h2
                      clear heq))
    | dsimp only [Lock.count]
    | dsimp +zetaDelta only

theorem Dev.haltSettle_events {x : List Event} (s : Dev) (e : Nat)
    (h : Dev.events x s) : Dev.events x (Dev.haltSettle s e) := by
  unfold Dev.haltSettle
  repeat' first
    | with_reducible assumption
    | intro _
    | extract_lets
    | with_reducible apply events_ite
    | with_reducible apply Dev.bargeHalted_events
    | (split
       all_goals try (rename_i heq
                      have h2 := congrArg Prod.snd heq
                      have h1 := congrArg Prod.fst heq
                      dsimp only at h1 h2
                      subst h1 h2
                      clear heq))
    | dsimp only [Lock.count]
    | dsimp +zetaDelta only

theorem Dev.haltBarge_events {x : List Event} (s : Dev) (e : Nat) (cause : Nat)
    (h : Dev.events x s) : Dev.events x (Dev.haltBarge s e cause) := by
  unfold Dev.haltBarge
  repeat' first
    | with_reducible assumption
    | intro _
    | extract_lets
    | with_reducible apply events_ite
    | with_reducible apply Dev.haltSettle_events
    | with_reducible apply Dev.modBarge_events
    | (split
       all_goals try (rename_i heq
                      have h2 := congrArg Prod.snd heq
                      have h1 := congrArg Prod.fst heq
                      dsimp only at h1 h2
                      subst h1 h2
                      clear heq))
    | dsimp only [Lock.count]
    | dsimp +zetaDelta only

theorem Dev.extUpdate_events {x : List Event} (s : Dev) (g : Nat)
    (h : Dev.events x s) : Dev.events x (Dev.extUpdate s g) := by
  unfold Dev.extUpdate
  repeat' first
    | with_reducible assumption
    | intro _
    | extract_lets
    | with_reducible apply events_ite
    | with_reducible apply Dev.modRegion_events
    | (split
       all_goals try (rename_i heq
                      have h2 := congrArg Prod.snd heq
                      have h1 := congrArg Prod.fst heq
                      dsimp only at h1 h2
                      subst h1 h2
                      clear heq))
    | dsimp only [Lock.count]
    | dsimp +zetaDelta only

theorem Dev.setTow_events {x : List Event} (s : Dev) (t : Nat) (v : Towpath)
    (h : Dev.events x s) : Dev.events x (Dev.setTow s t v) := by
  unfold Dev.setTow
  repeat' first
    | with_reducible assumption
    | intro _
    | extract_lets
    | with_reducible apply events_ite
    | (split
       all_goals try (rename_i heq
                      have h2 := congrArg Prod.snd heq
                      have h1 := congrArg Prod.fst heq
                      dsimp only at h1 h2
                      subst h1 h2
                      clear heq))
    | with_reducible apply Dev.events_upd_tows
    | dsimp only [Lock.count]
    | dsimp +zetaDelta only

theorem Dev.modTow_events {x : List Event} (s : Dev) (t : Nat) (f : Towpath → Towpath)
    (h : Dev.events x s) : Dev.events x (Dev.modTow s t f) := by
  unfold Dev.modTow
  repeat' first
    | with_reducible assumption
    | intro _
    | extract_lets
    | with_reducible apply events_ite
    | with_reducible apply Dev.setTow_events
    | (split
       all_goals try (rename_i heq
                      have h2 := congrArg Prod.snd heq
                      have h1 := congrArg Prod.fst heq
                      dsimp only at h1 h2
                      subst h1 h2
                      clear heq))
    | dsimp only [Lock.count]
    | dsimp +zetaDelta only

theorem Dev.modBz_events {x : List Event} (s : Dev) (f : Basin → Basin)
    (h : Dev.events x s) : Dev.events x (Dev.modBz s f) := by
  unfold Dev.modBz
  repeat' first
    | with_reducible assumption
    | intro _
    | extract_lets
    | with_reducible apply events_ite
    | (split
       all_goals try (rename_i heq
                      have h2 := congrArg Prod.snd heq
                      have h1 := congrArg Prod.fst heq
                      dsimp only at h1 h2
                      subst h1 h2
                      clear heq))
    | with_reducible apply Dev.events_upd_bz
    | dsimp only [Lock.count]
    | dsimp +zetaDelta only

theorem Dev.bzPut_events {x : List Event} (s : Dev) (words : List Word)
    (h : Dev.events x s) : Dev.events x (Dev.bzPut s words) := by
  unfold Dev.bzPut
  repeat' first
    | with_reducible assumption
    | intro _
    | extract_lets
    | with_reducible apply events_ite
    | with_reducible apply Dev.modBz_events
    | (split
       all_goals try (rename_i heq
                      have h2 := congrArg Prod.snd heq
                      have h1 := congrArg Prod.fst heq
                      dsimp only at h1 h2
                      subst h1 h2
                      clear heq))
    | dsimp only [Lock.count]
    | dsimp +zetaDelta only

theorem Dev.bzMark_events {x : List Event} (s : Dev) (src : Nat) (code : Nat) (tag : Nat) (time : Nat)
    (h : Dev.events x s) : Dev.events x (Dev.bzMark s src code tag time) := by
  unfold Dev.bzMark
  repeat' first
    | with_reducible assumption
    | intro _
    | extract_lets
    | with_reducible apply events_ite
    | with_reducible apply Dev.bzPut_events
    | with_reducible apply Dev.modBz_events
    | (split
       all_goals try (rename_i heq
                      have h2 := congrArg Prod.snd heq
                      have h1 := congrArg Prod.fst heq
                      dsimp only at h1 h2
                      subst h1 h2
                      clear heq))
    | dsimp only [Lock.count]
    | dsimp +zetaDelta only

theorem Dev.bzTrigger_events {x : List Event} (s : Dev) (src : Nat) (post : Nat) (time : Nat) (cell : Nat) (tag : Nat) (pos : Option Nat)
    (h : Dev.events x s) : Dev.events x (Dev.bzTrigger s src post time cell tag pos).2 := by
  unfold Dev.bzTrigger
  repeat' first
    | with_reducible assumption
    | intro _
    | extract_lets
    | with_reducible apply events_ite
    | with_reducible apply Dev.bzMark_events
    | with_reducible apply Dev.modBz_events
    | with_reducible apply Dev.drawNat_events
    | (split
       all_goals try (rename_i heq
                      have h2 := congrArg Prod.snd heq
                      have h1 := congrArg Prod.fst heq
                      dsimp only at h1 h2
                      subst h1 h2
                      clear heq))
    | dsimp only [Lock.count]
    | dsimp +zetaDelta only

theorem Dev.bzFull_events {x : List Event} (s : Dev)
    (h : Dev.events x s) : Dev.events x (Dev.bzFull s) := by
  unfold Dev.bzFull
  repeat' first
    | with_reducible assumption
    | intro _
    | extract_lets
    | with_reducible apply events_ite
    | with_reducible apply Dev.bzTrigger_events
    | (split
       all_goals try (rename_i heq
                      have h2 := congrArg Prod.snd heq
                      have h1 := congrArg Prod.fst heq
                      dsimp only at h1 h2
                      subst h1 h2
                      clear heq))
    | dsimp only [Lock.count]
    | dsimp +zetaDelta only

theorem Dev.policyOff_events {x : List Event} (s : Dev) (c : Nat)
    (h : Dev.events x s) : Dev.events x (Dev.policyOff s c) := by
  unfold Dev.policyOff
  repeat' first
    | with_reducible assumption
    | intro _
    | extract_lets
    | with_reducible apply events_ite
    | with_reducible apply Dev.goto_events
    | with_reducible apply Dev.modCell_events
    | (split
       all_goals try (rename_i heq
                      have h2 := congrArg Prod.snd heq
                      have h1 := congrArg Prod.fst heq
                      dsimp only at h1 h2
                      subst h1 h2
                      clear heq))
    | dsimp only [Lock.count]
    | dsimp +zetaDelta only

theorem Dev.policyCells_events {x : List Event} (s : Dev) (l : List Nat)
    (h : Dev.events x s) : Dev.events x (Dev.policyCells s l) := by
  unfold Dev.policyCells
  repeat' first
    | with_reducible assumption
    | intro _
    | extract_lets
    | with_reducible apply events_ite
    | with_reducible apply Dev.policyOff_events
    | with_reducible apply Dev.forEach_events
    | (split
       all_goals try (rename_i heq
                      have h2 := congrArg Prod.snd heq
                      have h1 := congrArg Prod.fst heq
                      dsimp only at h1 h2
                      subst h1 h2
                      clear heq))
    | dsimp only [Lock.count]
    | dsimp +zetaDelta only

theorem Dev.softStop_events {x : List Event} (s : Dev) (k : Nat) (cause : Nat)
    (h : Dev.events x s) : Dev.events x (Dev.softStop s k cause) := by
  unfold Dev.softStop
  repeat' first
    | with_reducible assumption
    | intro _
    | extract_lets
    | with_reducible apply events_ite
    | with_reducible apply Dev.sliceGoto_events
    | with_reducible apply Dev.setSlice_events
    | (split
       all_goals try (rename_i heq
                      have h2 := congrArg Prod.snd heq
                      have h1 := congrArg Prod.fst heq
                      dsimp only at h1 h2
                      subst h1 h2
                      clear heq))
    | dsimp only [Lock.count]
    | dsimp +zetaDelta only

theorem Dev.lossAction_events {x : List Event} (s : Dev) (k : Nat) (cause : Nat)
    (h : Dev.events x s) : Dev.events x (Dev.lossAction s k cause) := by
  unfold Dev.lossAction
  repeat' first
    | with_reducible assumption
    | intro _
    | extract_lets
    | with_reducible apply events_ite
    | with_reducible apply Dev.softStop_events
    | with_reducible apply Dev.killSlice_events
    | (split
       all_goals try (rename_i heq
                      have h2 := congrArg Prod.snd heq
                      have h1 := congrArg Prod.fst heq
                      dsimp only at h1 h2
                      subst h1 h2
                      clear heq))
    | dsimp only [Lock.count]
    | dsimp +zetaDelta only

theorem Dev.tripAt_events {x : List Event} (s : Dev) (c : Nat) (mask : Nat) (time : Nat)
    (h : Dev.events x s) : Dev.events x (Dev.tripAt s c mask time) := by
  unfold Dev.tripAt
  repeat' first
    | with_reducible assumption
    | intro _
    | extract_lets
    | with_reducible apply events_ite
    | with_reducible apply Dev.goto_events
    | with_reducible apply Dev.commitProf_events
    | with_reducible apply Dev.withBcast_events
    | with_reducible apply Dev.modCell_events
    | with_reducible apply Dev.raiseIsland_events
    | with_reducible apply Dev.modRegion_events
    | with_reducible apply events_foldl
    | with_reducible apply events_foldl3
    | (split
       all_goals try (rename_i heq
                      have h2 := congrArg Prod.snd heq
                      have h1 := congrArg Prod.fst heq
                      dsimp only at h1 h2
                      subst h1 h2
                      clear heq))
    | dsimp only [Lock.count]
    | dsimp +zetaDelta only

theorem Dev.tripNow_events {x : List Event} (s : Dev) (c : Nat) (mask : Nat)
    (h : Dev.events x s) : Dev.events x (Dev.tripNow s c mask) := by
  unfold Dev.tripNow
  repeat' first
    | with_reducible assumption
    | intro _
    | extract_lets
    | with_reducible apply events_ite
    | with_reducible apply Dev.tripAt_events
    | (split
       all_goals try (rename_i heq
                      have h2 := congrArg Prod.snd heq
                      have h1 := congrArg Prod.fst heq
                      dsimp only at h1 h2
                      subst h1 h2
                      clear heq))
    | dsimp only [Lock.count]
    | dsimp +zetaDelta only

theorem Dev.levelTrips_events {x : List Event} (s : Dev) (c : Nat)
    (h : Dev.events x s) : Dev.events x (Dev.levelTrips s c) := by
  unfold Dev.levelTrips
  repeat' first
    | with_reducible assumption
    | intro _
    | extract_lets
    | with_reducible apply events_ite
    | with_reducible apply Dev.tripNow_events
    | (split
       all_goals try (rename_i heq
                      have h2 := congrArg Prod.snd heq
                      have h1 := congrArg Prod.fst heq
                      dsimp only at h1 h2
                      subst h1 h2
                      clear heq))
    | dsimp only [Lock.count]
    | dsimp +zetaDelta only

theorem Dev.autoNext_events {x : List Event} (s : Dev) (g : Nat)
    (h : Dev.events x s) : Dev.events x (Dev.autoNext s g) := by
  unfold Dev.autoNext
  repeat' first
    | with_reducible assumption
    | intro _
    | extract_lets
    | with_reducible apply events_ite
    | with_reducible apply Dev.levelTrips_events
    | with_reducible apply Dev.goto_events
    | with_reducible apply Dev.modCell_events
    | (split
       all_goals try (rename_i heq
                      have h2 := congrArg Prod.snd heq
                      have h1 := congrArg Prod.fst heq
                      dsimp only at h1 h2
                      subst h1 h2
                      clear heq))
    | dsimp only [Lock.count]
    | dsimp +zetaDelta only

theorem Dev.cooldown_events {x : List Event} (s : Dev) (c : Nat) (backoffMs : Nat)
    (h : Dev.events x s) : Dev.events x (Dev.cooldown s c backoffMs) := by
  unfold Dev.cooldown
  repeat' first
    | with_reducible assumption
    | intro _
    | extract_lets
    | with_reducible apply events_ite
    | with_reducible apply Dev.goto_events
    | with_reducible apply Dev.modCell_events
    | (split
       all_goals try (rename_i heq
                      have h2 := congrArg Prod.snd heq
                      have h1 := congrArg Prod.fst heq
                      dsimp only at h1 h2
                      subst h1 h2
                      clear heq))
    | dsimp only [Lock.count]
    | dsimp +zetaDelta only

theorem Dev.chOn_events {x : List Event} (s : Dev) (c : Nat)
    (h : Dev.events x s) : Dev.events x (Dev.chOn s c).2 := by
  unfold Dev.chOn
  repeat' first
    | with_reducible assumption
    | intro _
    | extract_lets
    | with_reducible apply events_ite
    | with_reducible apply Dev.cooldown_events
    | with_reducible apply Dev.goto_events
    | with_reducible apply Dev.modCell_events
    | (split
       all_goals try (rename_i heq
                      have h2 := congrArg Prod.snd heq
                      have h1 := congrArg Prod.fst heq
                      dsimp only at h1 h2
                      subst h1 h2
                      clear heq))
    | dsimp only [Lock.count]
    | dsimp +zetaDelta only

theorem Dev.setAux_events {x : List Event} (s : Dev) (g : Nat) (v : Aux)
    (h : Dev.events x s) : Dev.events x (Dev.setAux s g v) := by
  unfold Dev.setAux
  repeat' first
    | with_reducible assumption
    | intro _
    | extract_lets
    | with_reducible apply events_ite
    | (split
       all_goals try (rename_i heq
                      have h2 := congrArg Prod.snd heq
                      have h1 := congrArg Prod.fst heq
                      dsimp only at h1 h2
                      subst h1 h2
                      clear heq))
    | with_reducible apply Dev.events_upd_auxs
    | dsimp only [Lock.count]
    | dsimp +zetaDelta only

theorem Dev.twEvent_events {x : List Event} (s : Dev) (t : Nat) (code : Nat) (flag : Bool) (payload : List Word)
    (h : Dev.events x s) : Dev.events x (Dev.twEvent s t code flag payload) := by
  unfold Dev.twEvent
  repeat' first
    | with_reducible assumption
    | intro _
    | extract_lets
    | with_reducible apply events_ite
    | with_reducible apply Dev.raiseIsland_events
    | (split
       all_goals try (rename_i heq
                      have h2 := congrArg Prod.snd heq
                      have h1 := congrArg Prod.fst heq
                      dsimp only at h1 h2
                      subst h1 h2
                      clear heq))
    | dsimp only [Lock.count]
    | dsimp +zetaDelta only

theorem Dev.twIrq_events {x : List Event} (s : Dev) (t : Nat)
    (h : Dev.events x s) : Dev.events x (Dev.twIrq s t) := by
  unfold Dev.twIrq
  repeat' first
    | with_reducible assumption
    | intro _
    | extract_lets
    | with_reducible apply events_ite
    | with_reducible apply Dev.irqRegion_events
    | (split
       all_goals try (rename_i heq
                      have h2 := congrArg Prod.snd heq
                      have h1 := congrArg Prod.fst heq
                      dsimp only at h1 h2
                      subst h1 h2
                      clear heq))
    | dsimp only [Lock.count]
    | dsimp +zetaDelta only

theorem Dev.twEnd_events {x : List Event} (s : Dev) (t : Nat) (n : Nat) (result : Nat) (byLock : Bool)
    (h : Dev.events x s) : Dev.events x (Dev.twEnd s t n result byLock) := by
  unfold Dev.twEnd
  repeat' first
    | with_reducible assumption
    | intro _
    | extract_lets
    | with_reducible apply events_ite
    | with_reducible apply Dev.twIrq_events
    | with_reducible apply Dev.twEvent_events
    | with_reducible apply Dev.setTow_events
    | (split
       all_goals try (rename_i heq
                      have h2 := congrArg Prod.snd heq
                      have h1 := congrArg Prod.fst heq
                      dsimp only at h1 h2
                      subst h1 h2
                      clear heq))
    | dsimp only [Lock.count]
    | dsimp +zetaDelta only

theorem Dev.pendReg_events {x : List Event} (s : Dev) (off : Nat) (v : Word) (mask : Word)
    (h : Dev.events x s) : Dev.events x (Dev.pendReg s off v mask) := by
  unfold Dev.pendReg
  repeat' first
    | with_reducible assumption
    | intro _
    | extract_lets
    | with_reducible apply events_ite
    | (split
       all_goals try (rename_i heq
                      have h2 := congrArg Prod.snd heq
                      have h1 := congrArg Prod.fst heq
                      dsimp only at h1 h2
                      subst h1 h2
                      clear heq))
    | with_reducible apply Dev.events_upd_regsPend
    | dsimp only [Lock.count]
    | dsimp +zetaDelta only

theorem Dev.releaseMoored_events {x : List Event} (s : Dev) (e : Nat) (n : Nat)
    (h : Dev.events x s) : Dev.events x (Dev.releaseMoored s e n).2 := by
  unfold Dev.releaseMoored
  repeat' first
    | with_reducible assumption
    | intro _
    | extract_lets
    | with_reducible apply events_ite
    | with_reducible apply Dev.setBarge_events
    | (split
       all_goals try (rename_i heq
                      have h2 := congrArg Prod.snd heq
                      have h1 := congrArg Prod.fst heq
                      dsimp only at h1 h2
                      subst h1 h2
                      clear heq))
    | dsimp only [Lock.count]
    | dsimp +zetaDelta only

theorem Dev.setLockTable_events {x : List Event} (s : Dev) (t : Nat) (v : LockTable)
    (h : Dev.events x s) : Dev.events x (Dev.setLockTable s t v) := by
  unfold Dev.setLockTable
  repeat' first
    | with_reducible assumption
    | intro _
    | extract_lets
    | with_reducible apply events_ite
    | (split
       all_goals try (rename_i heq
                      have h2 := congrArg Prod.snd heq
                      have h1 := congrArg Prod.fst heq
                      dsimp only at h1 h2
                      subst h1 h2
                      clear heq))
    | with_reducible apply Dev.events_upd_lk
    | dsimp only [Lock.count]
    | dsimp +zetaDelta only

theorem Dev.modLockTable_events {x : List Event} (s : Dev) (t : Nat) (f : LockTable → LockTable)
    (h : Dev.events x s) : Dev.events x (Dev.modLockTable s t f) := by
  unfold Dev.modLockTable
  repeat' first
    | with_reducible assumption
    | intro _
    | extract_lets
    | with_reducible apply events_ite
    | with_reducible apply Dev.setLockTable_events
    | (split
       all_goals try (rename_i heq
                      have h2 := congrArg Prod.snd heq
                      have h1 := congrArg Prod.fst heq
                      dsimp only at h1 h2
                      subst h1 h2
                      clear heq))
    | dsimp only [Lock.count]
    | dsimp +zetaDelta only

theorem Dev.lockLate_events {x : List Event} (s : Dev) (t : Nat) (e : LockEntry) (dropped : Bool) (removed : Bool) (missed : Nat)
    (h : Dev.events x s) : Dev.events x (Dev.lockLate s t e dropped removed missed) := by
  unfold Dev.lockLate
  repeat' first
    | with_reducible assumption
    | intro _
    | extract_lets
    | with_reducible apply events_ite
    | with_reducible apply Dev.raiseIsland_events
    | with_reducible apply Dev.raise_events
    | (split
       all_goals try (rename_i heq
                      have h2 := congrArg Prod.snd heq
                      have h1 := congrArg Prod.fst heq
                      dsimp only at h1 h2
                      subst h1 h2
                      clear heq))
    | with_reducible apply Dev.events_upd_lk
    | dsimp only [Lock.count]
    | dsimp +zetaDelta only

theorem Dev.latchCell_events {x : List Event} (s : Dev) (c : Nat) (reason : Nat)
    (h : Dev.events x s) : Dev.events x (Dev.latchCell s c reason) := by
  unfold Dev.latchCell
  repeat' first
    | with_reducible assumption
    | intro _
    | extract_lets
    | with_reducible apply events_ite
    | with_reducible apply Dev.occur_events
    | with_reducible apply Dev.goto_events
    | with_reducible apply Dev.raiseIsland_events
    | (split
       all_goals try (rename_i heq
                      have h2 := congrArg Prod.snd heq
                      have h1 := congrArg Prod.fst heq
                      dsimp only at h1 h2
                      subst h1 h2
                      clear heq))
    | dsimp only [Lock.count]
    | dsimp +zetaDelta only

theorem Dev.evaluateRule_events {x : List Event} (s : Dev) (c : Nat)
    (h : Dev.events x s) : Dev.events x (Dev.evaluateRule s c) := by
  unfold Dev.evaluateRule
  repeat' first
    | with_reducible assumption
    | intro _
    | extract_lets
    | with_reducible apply events_ite
    | with_reducible apply Dev.latchCell_events
    | with_reducible apply Dev.cooldown_events
    | with_reducible apply Dev.endHeldOn_events
    | with_reducible apply Dev.modCell_events
    | with_reducible apply Dev.raiseIsland_events
    | (split
       all_goals try (rename_i heq
                      have h2 := congrArg Prod.snd heq
                      have h1 := congrArg Prod.fst heq
                      dsimp only at h1 h2
                      subst h1 h2
                      clear heq))
    | dsimp only [Lock.count]
    | dsimp +zetaDelta only

theorem Dev.chReset_events {x : List Event} (s : Dev) (c : Nat)
    (h : Dev.events x s) : Dev.events x (Dev.chReset s c).2 := by
  unfold Dev.chReset
  repeat' first
    | with_reducible assumption
    | intro _
    | extract_lets
    | with_reducible apply events_ite
    | with_reducible apply Dev.autoNext_events
    | with_reducible apply Dev.goto_events
    | with_reducible apply Dev.modCell_events
    | with_reducible apply Dev.latchedCheck_events
    | (split
       all_goals try (rename_i heq
                      have h2 := congrArg Prod.snd heq
                      have h1 := congrArg Prod.fst heq
                      dsimp only at h1 h2
                      subst h1 h2
                      clear heq))
    | dsimp only [Lock.count]
    | dsimp +zetaDelta only

theorem Dev.lockPut_events {x : List Event} (s : Dev) (t : Nat) (e : LockEntry)
    (h : Dev.events x s) : Dev.events x (Dev.lockPut s t e) := by
  unfold Dev.lockPut
  repeat' first
    | with_reducible assumption
    | intro _
    | extract_lets
    | with_reducible apply events_ite
    | with_reducible apply Dev.modLockTable_events
    | (split
       all_goals try (rename_i heq
                      have h2 := congrArg Prod.snd heq
                      have h1 := congrArg Prod.fst heq
                      dsimp only at h1 h2
                      subst h1 h2
                      clear heq))
    | dsimp only [Lock.count]
    | dsimp +zetaDelta only

theorem Dev.commitSlice_events {x : List Event} (s : Dev) (k : Nat)
    (h : Dev.events x s) : Dev.events x (Dev.commitSlice s k) := by
  unfold Dev.commitSlice
  repeat' first
    | with_reducible assumption
    | intro _
    | extract_lets
    | with_reducible apply events_ite
    | with_reducible apply Dev.modSlice_events
    | (split
       all_goals try (rename_i heq
                      have h2 := congrArg Prod.snd heq
                      have h1 := congrArg Prod.fst heq
                      dsimp only at h1 h2
                      subst h1 h2
                      clear heq))
    | dsimp only [Lock.count]
    | dsimp +zetaDelta only

theorem Dev.abortVin_events {x : List Event} (s : Dev) (b : Nat) (clocks : Nat)
    (h : Dev.events x s) : Dev.events x (Dev.abortVin s b clocks) := by
  unfold Dev.abortVin
  repeat' first
    | with_reducible assumption
    | intro _
    | extract_lets
    | with_reducible apply events_ite
    | with_reducible apply Dev.modConv_events
    | (split
       all_goals try (rename_i heq
                      have h2 := congrArg Prod.snd heq
                      have h1 := congrArg Prod.fst heq
                      dsimp only at h1 h2
                      subst h1 h2
                      clear heq))
    | dsimp only [Lock.count]
    | dsimp +zetaDelta only

theorem Dev.restartWindows_events {x : List Event} (s : Dev) (b : Nat)
    (h : Dev.events x s) : Dev.events x (Dev.restartWindows s b) := by
  unfold Dev.restartWindows
  repeat' first
    | with_reducible assumption
    | intro _
    | extract_lets
    | with_reducible apply events_ite
    | with_reducible apply Dev.abortVin_events
    | with_reducible apply Dev.drawNat_events
    | with_reducible apply Dev.abortWindow_events
    | with_reducible apply Dev.forEach_events
    | (split
       all_goals try (rename_i heq
                      have h2 := congrArg Prod.snd heq
                      have h1 := congrArg Prod.fst heq
                      dsimp only at h1 h2
                      subst h1 h2
                      clear heq))
    | dsimp only [Lock.count]
    | dsimp +zetaDelta only

theorem Dev.commitBits_events {x : List Event} (s : Dev) (off : Nat) (mask : Word)
    (h : Dev.events x s) : Dev.events x (Dev.commitBits s off mask) := by
  unfold Dev.commitBits
  repeat' first
    | with_reducible assumption
    | intro _
    | extract_lets
    | with_reducible apply events_ite
    | with_reducible apply Dev.setReg_events
    | (split
       all_goals try (rename_i heq
                      have h2 := congrArg Prod.snd heq
                      have h1 := congrArg Prod.fst heq
                      dsimp only at h1 h2
                      subst h1 h2
                      clear heq))
    | with_reducible apply Dev.events_upd_regsPend
    | dsimp only [Lock.count]
    | dsimp +zetaDelta only

theorem Dev.commitOsr_events {x : List Event} (s : Dev) (b : Nat)
    (h : Dev.events x s) : Dev.events x (Dev.commitOsr s b) := by
  unfold Dev.commitOsr
  repeat' first
    | with_reducible assumption
    | intro _
    | extract_lets
    | with_reducible apply events_ite
    | with_reducible apply Dev.commitBits_events
    | with_reducible apply Dev.modConv_events
    | with_reducible apply Dev.modLane_events
    | with_reducible apply Dev.forEach_events
    | (split
       all_goals try (rename_i heq
                      have h2 := congrArg Prod.snd heq
                      have h1 := congrArg Prod.fst heq
                      dsimp only at h1 h2
                      subst h1 h2
                      clear heq))
    | dsimp only [Lock.count]
    | dsimp +zetaDelta only

theorem Dev.commitBlock_events {x : List Event} (s : Dev) (b : Nat)
    (h : Dev.events x s) : Dev.events x (Dev.commitBlock s b) := by
  unfold Dev.commitBlock
  repeat' first
    | with_reducible assumption
    | intro _
    | extract_lets
    | with_reducible apply events_ite
    | with_reducible apply Dev.commitOsr_events
    | with_reducible apply Dev.commitBits_events
    | with_reducible apply Dev.restartWindows_events
    | with_reducible apply Dev.commitReg_events
    | (split
       all_goals try (rename_i heq
                      have h2 := congrArg Prod.snd heq
                      have h1 := congrArg Prod.fst heq
                      dsimp only at h1 h2
                      subst h1 h2
                      clear heq))
    | dsimp only [Lock.count]
    | dsimp +zetaDelta only

theorem Dev.lockCommit_events {x : List Event} (s : Dev) (t : Nat) (e : LockEntry)
    (h : Dev.events x s) : Dev.events x (Dev.lockCommit s t e) := by
  unfold Dev.lockCommit
  repeat' first
    | with_reducible assumption
    | intro _
    | extract_lets
    | with_reducible apply events_ite
    | with_reducible apply Dev.commitBlock_events
    | with_reducible apply Dev.commitSlice_events
    | with_reducible apply Dev.commitReg_events
    | with_reducible apply Dev.commitProf_events
    | with_reducible apply Dev.forEach_events
    | (split
       all_goals try (rename_i heq
                      have h2 := congrArg Prod.snd heq
                      have h1 := congrArg Prod.fst heq
                      dsimp only at h1 h2
                      subst h1 h2
                      clear heq))
    | dsimp only [Lock.count]
    | dsimp +zetaDelta only

theorem Dev.basinFreeze_events {x : List Event} (s : Dev) (post : Nat) (tag : Nat) (time : Nat)
    (h : Dev.events x s) : Dev.events x (Dev.basinFreeze s post tag time) := by
  unfold Dev.basinFreeze
  repeat' first
    | with_reducible assumption
    | intro _
    | extract_lets
    | with_reducible apply events_ite
    | with_reducible apply Dev.bzTrigger_events
    | (split
       all_goals try (rename_i heq
                      have h2 := congrArg Prod.snd heq
                      have h1 := congrArg Prod.fst heq
                      dsimp only at h1 h2
                      subst h1 h2
                      clear heq))
    | dsimp only [Lock.count]
    | dsimp +zetaDelta only

theorem Dev.basinMark_events {x : List Event} (s : Dev) (code : Nat) (tag : Nat) (time : Nat)
    (h : Dev.events x s) : Dev.events x (Dev.basinMark s code tag time) := by
  unfold Dev.basinMark
  repeat' first
    | with_reducible assumption
    | intro _
    | extract_lets
    | with_reducible apply events_ite
    | with_reducible apply Dev.bzMark_events
    | (split
       all_goals try (rename_i heq
                      have h2 := congrArg Prod.snd heq
                      have h1 := congrArg Prod.fst heq
                      dsimp only at h1 h2
                      subst h1 h2
                      clear heq))
    | dsimp only [Lock.count]
    | dsimp +zetaDelta only

theorem Dev.lockChip_events {x : List Event} (s : Dev) (e : LockEntry)
    (h : Dev.events x s) : Dev.events x (Dev.lockChip s e) := by
  unfold Dev.lockChip
  repeat' first
    | with_reducible assumption
    | intro _
    | extract_lets
    | with_reducible apply events_ite
    | with_reducible apply Dev.basinMark_events
    | with_reducible apply Dev.basinFreeze_events
    | with_reducible apply Dev.bzFull_events
    | with_reducible apply Dev.emit_events
    | (split
       all_goals try (rename_i heq
                      have h2 := congrArg Prod.snd heq
                      have h1 := congrArg Prod.fst heq
                      dsimp only at h1 h2
                      subst h1 h2
                      clear heq))
    | with_reducible apply Dev.events_upd_tb
    | dsimp only [Lock.count]
    | dsimp +zetaDelta only

theorem Dev.lockHalt_events {x : List Event} (s : Dev) (e : Nat)
    (h : Dev.events x s) : Dev.events x (Dev.lockHalt s e).2 := by
  unfold Dev.lockHalt
  repeat' first
    | with_reducible assumption
    | intro _
    | extract_lets
    | with_reducible apply events_ite
    | with_reducible apply Dev.haltBarge_events
    | (split
       all_goals try (rename_i heq
                      have h2 := congrArg Prod.snd heq
                      have h1 := congrArg Prod.fst heq
                      dsimp only at h1 h2
                      subst h1 h2
                      clear heq))
    | dsimp only [Lock.count]
    | dsimp +zetaDelta only

theorem Dev.twStart_events {x : List Event} (s : Dev) (t : Nat) (n : Nat) (byLock : Bool)
    (h : Dev.events x s) : Dev.events x (Dev.twStart s t n byLock) := by
  unfold Dev.twStart
  repeat' first
    | with_reducible assumption
    | intro _
    | extract_lets
    | with_reducible apply events_ite
    | with_reducible apply Dev.twEnd_events
    | with_reducible apply Dev.modTow_events
    | with_reducible apply Dev.setTow_events
    | (split
       all_goals try (rename_i heq
                      have h2 := congrArg Prod.snd heq
                      have h1 := congrArg Prod.fst heq
                      dsimp only at h1 h2
                      subst h1 h2
                      clear heq))
    | dsimp only [Lock.count]
    | dsimp +zetaDelta only

theorem Dev.towStart_events {x : List Event} (s : Dev) (t : Nat) (n : Nat) (byLock : Bool)
    (h : Dev.events x s) : Dev.events x (Dev.towStart s t n byLock).2 := by
  unfold Dev.towStart
  repeat' first
    | with_reducible assumption
    | intro _
    | extract_lets
    | with_reducible apply events_ite
    | with_reducible apply Dev.twStart_events
    | (split
       all_goals try (rename_i heq
                      have h2 := congrArg Prod.snd heq
                      have h1 := congrArg Prod.fst heq
                      dsimp only at h1 h2
                      subst h1 h2
                      clear heq))
    | dsimp only [Lock.count]
    | dsimp +zetaDelta only

theorem Dev.sliceSetpoint_events {x : List Event} (s : Dev) (k : Nat) (v : Nat)
    (h : Dev.events x s) : Dev.events x (Dev.sliceSetpoint s k v) := by
  unfold Dev.sliceSetpoint
  repeat' first
    | with_reducible assumption
    | intro _
    | extract_lets
    | with_reducible apply events_ite
    | with_reducible apply Dev.pendReg_events
    | with_reducible apply Dev.modSlice_events
    | with_reducible apply Dev.commitReg_events
    | (split
       all_goals try (rename_i heq
                      have h2 := congrArg Prod.snd heq
                      have h1 := congrArg Prod.fst heq
                      dsimp only at h1 h2
                      subst h1 h2
                      clear heq))
    | dsimp only [Lock.count]
    | dsimp +zetaDelta only

theorem Dev.auxUrgent_events {x : List Event} (s : Dev) (g : Nat) (a : Nat)
    (h : Dev.events x s) : Dev.events x (Dev.auxUrgent s g a) := by
  unfold Dev.auxUrgent
  repeat' first
    | with_reducible assumption
    | intro _
    | extract_lets
    | with_reducible apply events_ite
    | with_reducible apply Dev.setAux_events
    | (split
       all_goals try (rename_i heq
                      have h2 := congrArg Prod.snd heq
                      have h1 := congrArg Prod.fst heq
                      dsimp only at h1 h2
                      subst h1 h2
                      clear heq))
    | dsimp only [Lock.count]
    | dsimp +zetaDelta only

theorem Dev.chOff_events {x : List Event} (s : Dev) (c : Nat)
    (h : Dev.events x s) : Dev.events x (Dev.chOff s c).2 := by
  unfold Dev.chOff
  repeat' first
    | with_reducible assumption
    | intro _
    | extract_lets
    | with_reducible apply events_ite
    | with_reducible apply Dev.autoNext_events
    | with_reducible apply Dev.goto_events
    | with_reducible apply Dev.modCell_events
    | (split
       all_goals try (rename_i heq
                      have h2 := congrArg Prod.snd heq
                      have h1 := congrArg Prod.fst heq
                      dsimp only at h1 h2
                      subst h1 h2
                      clear heq))
    | dsimp only [Lock.count]
    | dsimp +zetaDelta only

theorem Dev.lockAct_events {x : List Event} (s : Dev) (e : LockEntry) (n : Nat)
    (h : Dev.events x s) : Dev.events x (Dev.lockAct s e n).2 := by
  unfold Dev.lockAct
  repeat' first
    | with_reducible assumption
    | intro _
    | extract_lets
    | with_reducible apply events_ite
    | with_reducible apply Dev.chOff_events
    | with_reducible apply Dev.auxUrgent_events
    | with_reducible apply Dev.sliceSetpoint_events
    | with_reducible apply Dev.towStart_events
    | with_reducible apply Dev.lockHalt_events
    | with_reducible apply Dev.restartWindows_events
    | with_reducible apply Dev.chReset_events
    | with_reducible apply Dev.releaseMoored_events
    | with_reducible apply Dev.chOn_events
    | with_reducible apply Dev.extUpdate_events
    | with_reducible apply Dev.modRegion_events
    | (split
       all_goals try (rename_i heq
                      have h2 := congrArg Prod.snd heq
                      have h1 := congrArg Prod.fst heq
                      dsimp only at h1 h2
                      subst h1 h2
                      clear heq))
    | dsimp only [Lock.count]
    | dsimp +zetaDelta only

theorem Dev.lockFireOne_events {x : List Event} (s : Dev) (t : Nat) (e : LockEntry) (late : Bool)
    (h : Dev.events x s) : Dev.events x (Dev.lockFireOne s t e late) := by
  unfold Dev.lockFireOne
  repeat' first
    | with_reducible assumption
    | intro _
    | extract_lets
    | with_reducible apply events_ite
    | with_reducible apply Dev.lockAct_events
    | with_reducible apply Dev.lockChip_events
    | with_reducible apply Dev.raiseIsland_events
    | with_reducible apply Dev.raise_events
    | with_reducible apply events_foldl
    | with_reducible apply events_foldl3
    | (split
       all_goals try (rename_i heq
                      have h2 := congrArg Prod.snd heq
                      have h1 := congrArg Prod.fst heq
                      dsimp only at h1 h2
                      subst h1 h2
                      clear heq))
    | with_reducible apply Dev.events_upd_lk
    | dsimp only [Lock.count]
    | dsimp +zetaDelta only

theorem Dev.lockLateCopy_events {x : List Event} (s : Dev) (t : Nat) (e : LockEntry)
    (h : Dev.events x s) : Dev.events x (Dev.lockLateCopy s t e) := by
  unfold Dev.lockLateCopy
  repeat' first
    | with_reducible assumption
    | intro _
    | extract_lets
    | with_reducible apply events_ite
    | with_reducible apply Dev.lockFireOne_events
    | with_reducible apply Dev.lockCommit_events
    | with_reducible apply Dev.lockPut_events
    | with_reducible apply Dev.lockLate_events
    | (split
       all_goals try (rename_i heq
                      have h2 := congrArg Prod.snd heq
                      have h1 := congrArg Prod.fst heq
                      dsimp only at h1 h2
                      subst h1 h2
                      clear heq))
    | dsimp only [Lock.count]
    | dsimp +zetaDelta only

theorem Dev.precheckDone_events {x : List Event} (s : Dev) (c : Nat)
    (h : Dev.events x s) : Dev.events x (Dev.precheckDone s c) := by
  unfold Dev.precheckDone
  repeat' first
    | with_reducible assumption
    | intro _
    | extract_lets
    | with_reducible apply events_ite
    | with_reducible apply Dev.goto_events
    | (split
       all_goals try (rename_i heq
                      have h2 := congrArg Prod.snd heq
                      have h1 := congrArg Prod.fst heq
                      dsimp only at h1 h2
                      subst h1 h2
                      clear heq))
    | dsimp only [Lock.count]
    | dsimp +zetaDelta only

theorem Dev.cellRejoin_events {x : List Event} (s : Dev) (c : Nat)
    (h : Dev.events x s) : Dev.events x (Dev.cellRejoin s c) := by
  unfold Dev.cellRejoin
  repeat' first
    | with_reducible assumption
    | intro _
    | extract_lets
    | with_reducible apply events_ite
    | with_reducible apply Dev.precheckDone_events
    | with_reducible apply Dev.goto_events
    | with_reducible apply Dev.modCell_events
    | (split
       all_goals try (rename_i heq
                      have h2 := congrArg Prod.snd heq
                      have h1 := congrArg Prod.fst heq
                      dsimp only at h1 h2
                      subst h1 h2
                      clear heq))
    | dsimp only [Lock.count]
    | dsimp +zetaDelta only

theorem Dev.lockInsert_events {x : List Event} (s : Dev) (t : Nat)
    (h : Dev.events x s) : Dev.events x (Dev.lockInsert s t) := by
  unfold Dev.lockInsert
  repeat' first
    | with_reducible assumption
    | intro _
    | extract_lets
    | with_reducible apply events_ite
    | with_reducible apply Dev.lockLateCopy_events
    | with_reducible apply Dev.lockPut_events
    | with_reducible apply Dev.modLockTable_events
    | with_reducible apply Dev.raise_events
    | (split
       all_goals try (rename_i heq
                      have h2 := congrArg Prod.snd heq
                      have h1 := congrArg Prod.fst heq
                      dsimp only at h1 h2
                      subst h1 h2
                      clear heq))
    | with_reducible apply Dev.events_upd_lk
    | dsimp only [Lock.count]
    | dsimp +zetaDelta only

theorem Dev.lockRejoin_events {x : List Event} (s : Dev) (g : Nat)
    (h : Dev.events x s) : Dev.events x (Dev.lockRejoin s g) := by
  unfold Dev.lockRejoin
  repeat' first
    | with_reducible assumption
    | intro _
    | extract_lets
    | with_reducible apply events_ite
    | with_reducible apply Dev.lockInsert_events
    | with_reducible apply Dev.setLockTable_events
    | with_reducible apply Dev.forEach_events
    | (split
       all_goals try (rename_i heq
                      have h2 := congrArg Prod.snd heq
                      have h1 := congrArg Prod.fst heq
                      dsimp only at h1 h2
                      subst h1 h2
                      clear heq))
    | with_reducible apply Dev.events_upd_lk
    | dsimp only [Lock.count]
    | dsimp +zetaDelta only

theorem Dev.thawSluice_events {x : List Event} (s : Dev) (g : Nat)
    (h : Dev.events x s) : Dev.events x (Dev.thawSluice s g) := by
  unfold Dev.thawSluice
  repeat' first
    | with_reducible assumption
    | intro _
    | extract_lets
    | with_reducible apply events_ite
    | with_reducible apply Dev.modRegion_events
    | (split
       all_goals try (rename_i heq
                      have h2 := congrArg Prod.snd heq
                      have h1 := congrArg Prod.fst heq
                      dsimp only at h1 h2
                      subst h1 h2
                      clear heq))
    | with_reducible apply Dev.events_upd_sluice_slMsgs_grants
    | dsimp only [Lock.count]
    | dsimp +zetaDelta only

theorem Dev.rejoinEvent_events {x : List Event} (s : Dev) (g : Nat)
    (h : Dev.events x s) : Dev.events x (Dev.rejoinEvent s g) := by
  unfold Dev.rejoinEvent
  repeat' first
    | with_reducible assumption
    | intro _
    | extract_lets
    | with_reducible apply events_ite
    | with_reducible apply Dev.drawNat_events
    | with_reducible apply Dev.raise_events
    | (split
       all_goals try (rename_i heq
                      have h2 := congrArg Prod.snd heq
                      have h1 := congrArg Prod.fst heq
                      dsimp only at h1 h2
                      subst h1 h2
                      clear heq))
    | dsimp only [Lock.count]
    | dsimp +zetaDelta only

theorem Dev.slicesLost_events {x : List Event} (s : Dev) (g : Nat)
    (h : Dev.events x s) : Dev.events x (Dev.slicesLost s g) := by
  unfold Dev.slicesLost
  repeat' first
    | with_reducible assumption
    | intro _
    | extract_lets
    | with_reducible apply events_ite
    | with_reducible apply Dev.lossAction_events
    | with_reducible apply Dev.modSlice_events
    | with_reducible apply Dev.forEach_events
    | (split
       all_goals try (rename_i heq
                      have h2 := congrArg Prod.snd heq
                      have h1 := congrArg Prod.fst heq
                      dsimp only at h1 h2
                      subst h1 h2
                      clear heq))
    | dsimp only [Lock.count]
    | dsimp +zetaDelta only

theorem Dev.lossApplied_events {x : List Event} (s : Dev) (g : Nat)
    (h : Dev.events x s) : Dev.events x (Dev.lossApplied s g) := by
  unfold Dev.lossApplied
  repeat' first
    | with_reducible assumption
    | intro _
    | extract_lets
    | with_reducible apply events_ite
    | with_reducible apply Dev.slicesLost_events
    | with_reducible apply Dev.occur_events
    | with_reducible apply Dev.forEach_events
    | (split
       all_goals try (rename_i heq
                      have h2 := congrArg Prod.snd heq
                      have h1 := congrArg Prod.fst heq
                      dsimp only at h1 h2
                      subst h1 h2
                      clear heq))
    | dsimp only [Lock.count]
    | dsimp +zetaDelta only

end Sys2Proof.Machine
end

