-- ==== Sys2Proof/Laws/Fate.lean ====
section
/-! SUPPORT. What the consequences of a lock or a rejoin leave alone in a region: its strait, its episode, its supply and its
replica. -/

set_option linter.unreachableTactic false
set_option linter.unusedTactic false

namespace Sys2Proof.Machine

/-- A region without what events, trips, messages and locks leave in it. -/
def Region.fate (r : Region) : Region :=
  { r with evHold := [], evHoldLost := 0, heldMsgs := [], bcastCell := 0, bcastCause := 0, bcastTime := 0, extSeen := 0,
           lockLines := [] }

/-- The fate of every region. -/
def Dev.fate (s : Dev) : Nat → Region := fun g => (s.region g).fate

theorem Dev.modRegion_fate {x : Nat → Region} (s : Dev) (g : Nat) (f : Region → Region) (hf : ∀ r, (f r).fate = r.fate)
    (h : Dev.fate s = x) : Dev.fate (Dev.modRegion s g f) = x := by
  rw [← h]
  funext j
  simp only [Dev.fate, Dev.region, Dev.modRegion, Dev.setRegion]
  by_cases e : j = g
  · subst e; rw [Sparse.get_set_same]; exact hf _
  · rw [Sparse.get_set_ne _ _ _ _ _ e]

theorem fate_ite {x : Nat → Region} {a b : Dev} {p : Prop} [Decidable p] (ha : Dev.fate a = x) (hb : Dev.fate b = x) :
    Dev.fate (if p then a else b) = x := by split <;> assumption
theorem fate_foldl {x : Nat → Region} {α : Type} {f : Dev → α → Dev} {l : List α} {s : Dev}
    (hf : ∀ t a y, Dev.fate t = y → Dev.fate (f t a) = y) (h : Dev.fate s = x) : Dev.fate (l.foldl f s) = x := by
  induction l generalizing s with
  | nil => exact h
  | cons a l ih => exact ih (hf s a x h)
theorem fate_foldl3 {x : Nat → Region} {α β γ : Type} {f : γ × β × Dev → α → γ × β × Dev} {l : List α} {p : γ × β × Dev}
    (hf : ∀ t a y, Dev.fate t.2.2 = y → Dev.fate (f t a).2.2 = y) (h : Dev.fate p.2.2 = x) :
    Dev.fate (l.foldl f p).2.2 = x := by
  induction l generalizing p with
  | nil => exact h
  | cons a l ih => exact ih (hf p a x h)

theorem Dev.fate_upd_auxs {x : Nat → Region} {s : Dev} {v0 : Sparse Aux} (h : Dev.fate s = x) :
    Dev.fate { s with auxs := v0 } = x := h
theorem Dev.fate_upd_barges {x : Nat → Region} {s : Dev} {v0 : Sparse Barge} (h : Dev.fate s = x) :
    Dev.fate { s with barges := v0 } = x := h
theorem Dev.fate_upd_blocks {x : Nat → Region} {s : Dev} {v0 : Sparse Block} (h : Dev.fate s = x) :
    Dev.fate { s with blocks := v0 } = x := h
theorem Dev.fate_upd_bz {x : Nat → Region} {s : Dev} {v0 : Basin} (h : Dev.fate s = x) :
    Dev.fate { s with bz := v0 } = x := h
theorem Dev.fate_upd_cells {x : Nat → Region} {s : Dev} {v0 : Sparse Cell} (h : Dev.fate s = x) :
    Dev.fate { s with cells := v0 } = x := h
theorem Dev.fate_upd_colls {x : Nat → Region} {s : Dev} {v0 : Sparse Coll} (h : Dev.fate s = x) :
    Dev.fate { s with colls := v0 } = x := h
theorem Dev.fate_upd_complq {x : Nat → Region} {s : Dev} {v0 : List Completion} (h : Dev.fate s = x) :
    Dev.fate { s with complq := v0 } = x := h
theorem Dev.fate_upd_convs {x : Nat → Region} {s : Dev} {v0 : Sparse Conv} (h : Dev.fate s = x) :
    Dev.fate { s with convs := v0 } = x := h
theorem Dev.fate_upd_err {x : Nat → Region} {s : Dev} {v0 : ErrN} (h : Dev.fate s = x) :
    Dev.fate { s with err := v0 } = x := h
theorem Dev.fate_upd_evq {x : Nat → Region} {s : Dev} {v0 : List Event} (h : Dev.fate s = x) :
    Dev.fate { s with evq := v0 } = x := h
theorem Dev.fate_upd_freeCount {x : Nat → Region} {s : Dev} {v0 : Nat} (h : Dev.fate s = x) :
    Dev.fate { s with freeCount := v0 } = x := h
theorem Dev.fate_upd_laneWaits {x : Nat → Region} {s : Dev} {v0 : List LaneWait} (h : Dev.fate s = x) :
    Dev.fate { s with laneWaits := v0 } = x := h
theorem Dev.fate_upd_lanes {x : Nat → Region} {s : Dev} {v0 : Sparse Lane} (h : Dev.fate s = x) :
    Dev.fate { s with lanes := v0 } = x := h
theorem Dev.fate_upd_lk {x : Nat → Region} {s : Dev} {v0 : LockUnit} (h : Dev.fate s = x) :
    Dev.fate { s with lk := v0 } = x := h
theorem Dev.fate_upd_out {x : Nat → Region} {s : Dev} {v0 : List Out} (h : Dev.fate s = x) :
    Dev.fate { s with out := v0 } = x := h
theorem Dev.fate_upd_prof_profPend {x : Nat → Region} {s : Dev} {v0 : Sparse Word} {v1 : Sparse (Word × Word)} (h : Dev.fate s = x) :
    Dev.fate { s with prof := v0, profPend := v1 } = x := h
theorem Dev.fate_upd_regs {x : Nat → Region} {s : Dev} {v0 : Sparse Word} (h : Dev.fate s = x) :
    Dev.fate { s with regs := v0 } = x := h
theorem Dev.fate_upd_regsPend {x : Nat → Region} {s : Dev} {v0 : Sparse (Word × Word)} (h : Dev.fate s = x) :
    Dev.fate { s with regsPend := v0 } = x := h
theorem Dev.fate_upd_reports {x : Nat → Region} {s : Dev} {v0 : List Report} (h : Dev.fate s = x) :
    Dev.fate { s with reports := v0 } = x := h
theorem Dev.fate_upd_slMsgs {x : Nat → Region} {s : Dev} {v0 : List SlMsg} (h : Dev.fate s = x) :
    Dev.fate { s with slMsgs := v0 } = x := h
theorem Dev.fate_upd_slices {x : Nat → Region} {s : Dev} {v0 : Sparse Slice} (h : Dev.fate s = x) :
    Dev.fate { s with slices := v0 } = x := h
theorem Dev.fate_upd_sluice_slMsgs_grants {x : Nat → Region} {s : Dev} {v0 : Sluice} {v1 : List SlMsg} {v2 : List Grant} (h : Dev.fate s = x) :
    Dev.fate { s with sluice := v0, slMsgs := v1, grants := v2 } = x := h
theorem Dev.fate_upd_tb {x : Nat → Region} {s : Dev} {v0 : Timebase} (h : Dev.fate s = x) :
    Dev.fate { s with tb := v0 } = x := h
theorem Dev.fate_upd_tows {x : Nat → Region} {s : Dev} {v0 : Sparse Towpath} (h : Dev.fate s = x) :
    Dev.fate { s with tows := v0 } = x := h
theorem Dev.fate_upd_tripSeq {x : Nat → Region} {s : Dev} {v0 : Nat} (h : Dev.fate s = x) :
    Dev.fate { s with tripSeq := v0 } = x := h

theorem Dev.setBarge_fate {x : Nat → Region} (s : Dev) (e : Nat) (v : Barge)
    (h : Dev.fate s = x) : Dev.fate (Dev.setBarge s e v) = x := by
  unfold Dev.setBarge
  repeat' first
    | with_reducible assumption
    | intro _
    | extract_lets
    | with_reducible apply fate_ite
    | (split
       all_goals try (rename_i heq
                      have h2 := congrArg Prod.snd heq
                      have h1 := congrArg Prod.fst heq
                      dsimp only at h1 h2
                      subst h1 h2
                      clear heq))
    | with_reducible apply Dev.fate_upd_barges
    | dsimp only [Lock.count]
    | dsimp +zetaDelta only

theorem Dev.modBarge_fate {x : Nat → Region} (s : Dev) (e : Nat) (f : Barge → Barge)
    (h : Dev.fate s = x) : Dev.fate (Dev.modBarge s e f) = x := by
  unfold Dev.modBarge
  repeat' first
    | with_reducible assumption
    | intro _
    | extract_lets
    | with_reducible apply fate_ite
    | with_reducible apply Dev.setBarge_fate
    | (split
       all_goals try (rename_i heq
                      have h2 := congrArg Prod.snd heq
                      have h1 := congrArg Prod.fst heq
                      dsimp only at h1 h2
                      subst h1 h2
                      clear heq))
    | dsimp only [Lock.count]
    | dsimp +zetaDelta only

theorem Dev.setColl_fate {x : Nat → Region} (s : Dev) (k : Nat) (v : Coll)
    (h : Dev.fate s = x) : Dev.fate (Dev.setColl s k v) = x := by
  unfold Dev.setColl
  repeat' first
    | with_reducible assumption
    | intro _
    | extract_lets
    | with_reducible apply fate_ite
    | (split
       all_goals try (rename_i heq
                      have h2 := congrArg Prod.snd heq
                      have h1 := congrArg Prod.fst heq
                      dsimp only at h1 h2
                      subst h1 h2
                      clear heq))
    | with_reducible apply Dev.fate_upd_colls
    | dsimp only [Lock.count]
    | dsimp +zetaDelta only

theorem Dev.noteEvent_fate {x : Nat → Region} (s : Dev) (k : Nat) (src : Nat) (n : Nat) (inj : Bool)
    (h : Dev.fate s = x) : Dev.fate (Dev.noteEvent s k src n inj) = x := by
  unfold Dev.noteEvent
  repeat' first
    | with_reducible assumption
    | intro _
    | extract_lets
    | with_reducible apply fate_ite
    | with_reducible apply Dev.setColl_fate
    | (split
       all_goals try (rename_i heq
                      have h2 := congrArg Prod.snd heq
                      have h1 := congrArg Prod.fst heq
                      dsimp only at h1 h2
                      subst h1 h2
                      clear heq))
    | dsimp only [Lock.count]
    | dsimp +zetaDelta only

theorem Dev.modColl_fate {x : Nat → Region} (s : Dev) (k : Nat) (f : Coll → Coll)
    (h : Dev.fate s = x) : Dev.fate (Dev.modColl s k f) = x := by
  unfold Dev.modColl
  repeat' first
    | with_reducible assumption
    | intro _
    | extract_lets
    | with_reducible apply fate_ite
    | with_reducible apply Dev.setColl_fate
    | (split
       all_goals try (rename_i heq
                      have h2 := congrArg Prod.snd heq
                      have h1 := congrArg Prod.fst heq
                      dsimp only at h1 h2
                      subst h1 h2
                      clear heq))
    | dsimp only [Lock.count]
    | dsimp +zetaDelta only

theorem Dev.raise_fate {x : Nat → Region} (s : Dev) (e : Event)
    (h : Dev.fate s = x) : Dev.fate (Dev.raise s e) = x := by
  unfold Dev.raise
  repeat' first
    | with_reducible assumption
    | intro _
    | extract_lets
    | with_reducible apply fate_ite
    | (split
       all_goals try (rename_i heq
                      have h2 := congrArg Prod.snd heq
                      have h1 := congrArg Prod.fst heq
                      dsimp only at h1 h2
                      subst h1 h2
                      clear heq))
    | with_reducible apply Dev.fate_upd_evq
    | dsimp only [Lock.count]
    | dsimp +zetaDelta only

theorem Dev.raiseIsland_fate {x : Nat → Region} (s : Dev) (g : Nat) (hold : Bool) (e : Event)
    (h : Dev.fate s = x) : Dev.fate (Dev.raiseIsland s g hold e) = x := by
  unfold Dev.raiseIsland
  repeat' first
    | with_reducible assumption
    | intro _
    | extract_lets
    | with_reducible apply fate_ite
    | (with_reducible apply Dev.modRegion_fate
       · intro r; first | rfl | (split <;> rfl) | (split <;> split <;> rfl))
    | with_reducible apply Dev.raise_fate
    | (split
       all_goals try (rename_i heq
                      have h2 := congrArg Prod.snd heq
                      have h1 := congrArg Prod.fst heq
                      dsimp only at h1 h2
                      subst h1 h2
                      clear heq))
    | dsimp only [Lock.count]
    | dsimp +zetaDelta only

theorem Dev.collEvent_fate {x : Nat → Region} (s : Dev) (k : Nat) (code : Nat) (flag : Bool) (payload : List Word)
    (h : Dev.fate s = x) : Dev.fate (Dev.collEvent s k code flag payload) = x := by
  unfold Dev.collEvent
  repeat' first
    | with_reducible assumption
    | intro _
    | extract_lets
    | with_reducible apply fate_ite
    | with_reducible apply Dev.raiseIsland_fate
    | with_reducible apply Dev.raise_fate
    | (split
       all_goals try (rename_i heq
                      have h2 := congrArg Prod.snd heq
                      have h1 := congrArg Prod.fst heq
                      dsimp only at h1 h2
                      subst h1 h2
                      clear heq))
    | dsimp only [Lock.count]
    | dsimp +zetaDelta only

theorem Dev.irq_fate {x : Nat → Region} (s : Dev) (e : Nat) (n : Nat)
    (h : Dev.fate s = x) : Dev.fate (Dev.irq s e n) = x := by
  unfold Dev.irq
  repeat' first
    | with_reducible assumption
    | intro _
    | extract_lets
    | with_reducible apply fate_ite
    | with_reducible apply Dev.modBarge_fate
    | (split
       all_goals try (rename_i heq
                      have h2 := congrArg Prod.snd heq
                      have h1 := congrArg Prod.fst heq
                      dsimp only at h1 h2
                      subst h1 h2
                      clear heq))
    | dsimp only [Lock.count]
    | dsimp +zetaDelta only

theorem Dev.forEach_fate {x : Nat → Region} {α : Type} (l : List α) (f : Dev → α → Dev) (s : Dev) (h_f : ∀ u0 u1 y, Dev.fate u0 = y → Dev.fate (f u0 u1) = y)
    (h : Dev.fate s = x) : Dev.fate (Dev.forEach l f s) = x := by
  unfold Dev.forEach
  exact fate_foldl h_f h

theorem Dev.irqAll_fate {x : Nat → Region} (s : Dev) (n : Nat)
    (h : Dev.fate s = x) : Dev.fate (Dev.irqAll s n) = x := by
  unfold Dev.irqAll
  repeat' first
    | with_reducible assumption
    | intro _
    | extract_lets
    | with_reducible apply fate_ite
    | with_reducible apply Dev.forEach_fate
    | with_reducible apply Dev.irq_fate
    | (split
       all_goals try (rename_i heq
                      have h2 := congrArg Prod.snd heq
                      have h1 := congrArg Prod.fst heq
                      dsimp only at h1 h2
                      subst h1 h2
                      clear heq))
    | dsimp only [Lock.count]
    | dsimp +zetaDelta only

theorem Dev.irqRegion_fate {x : Nat → Region} (s : Dev) (g : Nat) (n : Nat)
    (h : Dev.fate s = x) : Dev.fate (Dev.irqRegion s g n) = x := by
  unfold Dev.irqRegion
  repeat' first
    | with_reducible assumption
    | intro _
    | extract_lets
    | with_reducible apply fate_ite
    | with_reducible apply Dev.forEach_fate
    | with_reducible apply Dev.irq_fate
    | (split
       all_goals try (rename_i heq
                      have h2 := congrArg Prod.snd heq
                      have h1 := congrArg Prod.fst heq
                      dsimp only at h1 h2
                      subst h1 h2
                      clear heq))
    | dsimp only [Lock.count]
    | dsimp +zetaDelta only

theorem Dev.faultEvent_fate {x : Nat → Region} (s : Dev) (k : Nat) (flag : Bool) (e : HistEntry)
    (h : Dev.fate s = x) : Dev.fate (Dev.faultEvent s k flag e) = x := by
  unfold Dev.faultEvent
  repeat' first
    | with_reducible assumption
    | intro _
    | extract_lets
    | with_reducible apply fate_ite
    | with_reducible apply Dev.irqRegion_fate
    | with_reducible apply Dev.irqAll_fate
    | with_reducible apply Dev.collEvent_fate
    | (split
       all_goals try (rename_i heq
                      have h2 := congrArg Prod.snd heq
                      have h1 := congrArg Prod.fst heq
                      dsimp only at h1 h2
                      subst h1 h2
                      clear heq))
    | dsimp only [Lock.count]
    | dsimp +zetaDelta only

theorem Dev.history_fate {x : Nat → Region} (s : Dev) (k : Nat) (e : HistEntry)
    (h : Dev.fate s = x) : Dev.fate (Dev.history s k e) = x := by
  unfold Dev.history
  repeat' first
    | with_reducible assumption
    | intro _
    | extract_lets
    | with_reducible apply fate_ite
    | with_reducible apply Dev.collEvent_fate
    | with_reducible apply Dev.setColl_fate
    | (split
       all_goals try (rename_i heq
                      have h2 := congrArg Prod.snd heq
                      have h1 := congrArg Prod.fst heq
                      dsimp only at h1 h2
                      subst h1 h2
                      clear heq))
    | dsimp only [Lock.count]
    | dsimp +zetaDelta only

theorem Dev.unoccur_fate {x : Nat → Region} (s : Dev) (k : Nat) (src : Nat)
    (h : Dev.fate s = x) : Dev.fate (Dev.unoccur s k src) = x := by
  unfold Dev.unoccur
  repeat' first
    | with_reducible assumption
    | intro _
    | extract_lets
    | with_reducible apply fate_ite
    | with_reducible apply Dev.history_fate
    | with_reducible apply Dev.faultEvent_fate
    | with_reducible apply Dev.setColl_fate
    | (split
       all_goals try (rename_i heq
                      have h2 := congrArg Prod.snd heq
                      have h1 := congrArg Prod.fst heq
                      dsimp only at h1 h2
                      subst h1 h2
                      clear heq))
    | dsimp only [Lock.count]
    | dsimp +zetaDelta only

theorem Dev.latchedCheck_fate {x : Nat → Region} (s : Dev) (b : Nat)
    (h : Dev.fate s = x) : Dev.fate (Dev.latchedCheck s b) = x := by
  unfold Dev.latchedCheck
  repeat' first
    | with_reducible assumption
    | intro _
    | extract_lets
    | with_reducible apply fate_ite
    | with_reducible apply Dev.unoccur_fate
    | (split
       all_goals try (rename_i heq
                      have h2 := congrArg Prod.snd heq
                      have h1 := congrArg Prod.fst heq
                      dsimp only at h1 h2
                      subst h1 h2
                      clear heq))
    | dsimp only [Lock.count]
    | dsimp +zetaDelta only

theorem Dev.cellEvent_fate {x : Nat → Region} (s : Dev) (c : Nat) (maskBit : Nat) (code : Nat) (flag : Bool) (payload : List Word)
    (h : Dev.fate s = x) : Dev.fate (Dev.cellEvent s c maskBit code flag payload) = x := by
  unfold Dev.cellEvent
  repeat' first
    | with_reducible assumption
    | intro _
    | extract_lets
    | with_reducible apply fate_ite
    | with_reducible apply Dev.raiseIsland_fate
    | (split
       all_goals try (rename_i heq
                      have h2 := congrArg Prod.snd heq
                      have h1 := congrArg Prod.fst heq
                      dsimp only at h1 h2
                      subst h1 h2
                      clear heq))
    | dsimp only [Lock.count]
    | dsimp +zetaDelta only

theorem Dev.setLane_fate {x : Nat → Region} (s : Dev) (c : Nat) (v : Lane)
    (h : Dev.fate s = x) : Dev.fate (Dev.setLane s c v) = x := by
  unfold Dev.setLane
  repeat' first
    | with_reducible assumption
    | intro _
    | extract_lets
    | with_reducible apply fate_ite
    | (split
       all_goals try (rename_i heq
                      have h2 := congrArg Prod.snd heq
                      have h1 := congrArg Prod.fst heq
                      dsimp only at h1 h2
                      subst h1 h2
                      clear heq))
    | with_reducible apply Dev.fate_upd_lanes
    | dsimp only [Lock.count]
    | dsimp +zetaDelta only

theorem Dev.modLane_fate {x : Nat → Region} (s : Dev) (c : Nat) (f : Lane → Lane)
    (h : Dev.fate s = x) : Dev.fate (Dev.modLane s c f) = x := by
  unfold Dev.modLane
  repeat' first
    | with_reducible assumption
    | intro _
    | extract_lets
    | with_reducible apply fate_ite
    | with_reducible apply Dev.setLane_fate
    | (split
       all_goals try (rename_i heq
                      have h2 := congrArg Prod.snd heq
                      have h1 := congrArg Prod.fst heq
                      dsimp only at h1 h2
                      subst h1 h2
                      clear heq))
    | dsimp only [Lock.count]
    | dsimp +zetaDelta only

theorem Dev.abortWindow_fate {x : Nat → Region} (s : Dev) (c : Nat) (clocks : Nat) (again : Bool)
    (h : Dev.fate s = x) : Dev.fate (Dev.abortWindow s c clocks again) = x := by
  unfold Dev.abortWindow
  repeat' first
    | with_reducible assumption
    | intro _
    | extract_lets
    | with_reducible apply fate_ite
    | with_reducible apply Dev.modLane_fate
    | (split
       all_goals try (rename_i heq
                      have h2 := congrArg Prod.snd heq
                      have h1 := congrArg Prod.fst heq
                      dsimp only at h1 h2
                      subst h1 h2
                      clear heq))
    | dsimp only [Lock.count]
    | dsimp +zetaDelta only

theorem Dev.startLane_fate {x : Nat → Region} (s : Dev) (c : Nat)
    (h : Dev.fate s = x) : Dev.fate (Dev.startLane s c) = x := by
  unfold Dev.startLane
  repeat' first
    | with_reducible assumption
    | intro _
    | extract_lets
    | with_reducible apply fate_ite
    | with_reducible apply Dev.abortWindow_fate
    | with_reducible apply Dev.modLane_fate
    | (split
       all_goals try (rename_i heq
                      have h2 := congrArg Prod.snd heq
                      have h1 := congrArg Prod.fst heq
                      dsimp only at h1 h2
                      subst h1 h2
                      clear heq))
    | dsimp only [Lock.count]
    | dsimp +zetaDelta only

theorem Dev.stopLane_fate {x : Nat → Region} (s : Dev) (c : Nat) (clocks : Nat)
    (h : Dev.fate s = x) : Dev.fate (Dev.stopLane s c clocks) = x := by
  unfold Dev.stopLane
  repeat' first
    | with_reducible assumption
    | intro _
    | extract_lets
    | with_reducible apply fate_ite
    | with_reducible apply Dev.abortWindow_fate
    | with_reducible apply Dev.modLane_fate
    | (split
       all_goals try (rename_i heq
                      have h2 := congrArg Prod.snd heq
                      have h1 := congrArg Prod.fst heq
                      dsimp only at h1 h2
                      subst h1 h2
                      clear heq))
    | dsimp only [Lock.count]
    | dsimp +zetaDelta only

theorem Dev.gateLane_fate {x : Nat → Region} (s : Dev) (c : Nat) (clocks : Nat)
    (h : Dev.fate s = x) : Dev.fate (Dev.gateLane s c clocks) = x := by
  unfold Dev.gateLane
  repeat' first
    | with_reducible assumption
    | intro _
    | extract_lets
    | with_reducible apply fate_ite
    | with_reducible apply Dev.stopLane_fate
    | with_reducible apply Dev.startLane_fate
    | (split
       all_goals try (rename_i heq
                      have h2 := congrArg Prod.snd heq
                      have h1 := congrArg Prod.fst heq
                      dsimp only at h1 h2
                      subst h1 h2
                      clear heq))
    | dsimp only [Lock.count]
    | dsimp +zetaDelta only

theorem Dev.drawNat_fate {x : Nat → Region} (s : Dev)
    (h : Dev.fate s = x) : Dev.fate (Dev.drawNat s).2 = x := by
  unfold Dev.drawNat
  repeat' first
    | with_reducible assumption
    | intro _
    | extract_lets
    | with_reducible apply fate_ite
    | (split
       all_goals try (rename_i heq
                      have h2 := congrArg Prod.snd heq
                      have h1 := congrArg Prod.fst heq
                      dsimp only at h1 h2
                      subst h1 h2
                      clear heq))
    | with_reducible apply Dev.fate_upd_freeCount
    | dsimp only [Lock.count]
    | dsimp +zetaDelta only

theorem Dev.setConv_fate {x : Nat → Region} (s : Dev) (b : Nat) (v : Conv)
    (h : Dev.fate s = x) : Dev.fate (Dev.setConv s b v) = x := by
  unfold Dev.setConv
  repeat' first
    | with_reducible assumption
    | intro _
    | extract_lets
    | with_reducible apply fate_ite
    | (split
       all_goals try (rename_i heq
                      have h2 := congrArg Prod.snd heq
                      have h1 := congrArg Prod.fst heq
                      dsimp only at h1 h2
                      subst h1 h2
                      clear heq))
    | with_reducible apply Dev.fate_upd_convs
    | dsimp only [Lock.count]
    | dsimp +zetaDelta only

theorem Dev.modConv_fate {x : Nat → Region} (s : Dev) (b : Nat) (f : Conv → Conv)
    (h : Dev.fate s = x) : Dev.fate (Dev.modConv s b f) = x := by
  unfold Dev.modConv
  repeat' first
    | with_reducible assumption
    | intro _
    | extract_lets
    | with_reducible apply fate_ite
    | with_reducible apply Dev.setConv_fate
    | (split
       all_goals try (rename_i heq
                      have h2 := congrArg Prod.snd heq
                      have h1 := congrArg Prod.fst heq
                      dsimp only at h1 h2
                      subst h1 h2
                      clear heq))
    | dsimp only [Lock.count]
    | dsimp +zetaDelta only

theorem Dev.setBlock_fate {x : Nat → Region} (s : Dev) (b : Nat) (v : Block)
    (h : Dev.fate s = x) : Dev.fate (Dev.setBlock s b v) = x := by
  unfold Dev.setBlock
  repeat' first
    | with_reducible assumption
    | intro _
    | extract_lets
    | with_reducible apply fate_ite
    | (split
       all_goals try (rename_i heq
                      have h2 := congrArg Prod.snd heq
                      have h1 := congrArg Prod.fst heq
                      dsimp only at h1 h2
                      subst h1 h2
                      clear heq))
    | with_reducible apply Dev.fate_upd_blocks
    | dsimp only [Lock.count]
    | dsimp +zetaDelta only

theorem Dev.modBlock_fate {x : Nat → Region} (s : Dev) (b : Nat) (f : Block → Block)
    (h : Dev.fate s = x) : Dev.fate (Dev.modBlock s b f) = x := by
  unfold Dev.modBlock
  repeat' first
    | with_reducible assumption
    | intro _
    | extract_lets
    | with_reducible apply fate_ite
    | with_reducible apply Dev.setBlock_fate
    | (split
       all_goals try (rename_i heq
                      have h2 := congrArg Prod.snd heq
                      have h1 := congrArg Prod.fst heq
                      dsimp only at h1 h2
                      subst h1 h2
                      clear heq))
    | dsimp only [Lock.count]
    | dsimp +zetaDelta only

theorem Dev.setCell_fate {x : Nat → Region} (s : Dev) (c : Nat) (v : Cell)
    (h : Dev.fate s = x) : Dev.fate (Dev.setCell s c v) = x := by
  unfold Dev.setCell
  repeat' first
    | with_reducible assumption
    | intro _
    | extract_lets
    | with_reducible apply fate_ite
    | (split
       all_goals try (rename_i heq
                      have h2 := congrArg Prod.snd heq
                      have h1 := congrArg Prod.fst heq
                      dsimp only at h1 h2
                      subst h1 h2
                      clear heq))
    | with_reducible apply Dev.fate_upd_cells
    | dsimp only [Lock.count]
    | dsimp +zetaDelta only

theorem Dev.modCell_fate {x : Nat → Region} (s : Dev) (c : Nat) (f : Cell → Cell)
    (h : Dev.fate s = x) : Dev.fate (Dev.modCell s c f) = x := by
  unfold Dev.modCell
  repeat' first
    | with_reducible assumption
    | intro _
    | extract_lets
    | with_reducible apply fate_ite
    | with_reducible apply Dev.setCell_fate
    | (split
       all_goals try (rename_i heq
                      have h2 := congrArg Prod.snd heq
                      have h1 := congrArg Prod.fst heq
                      dsimp only at h1 h2
                      subst h1 h2
                      clear heq))
    | dsimp only [Lock.count]
    | dsimp +zetaDelta only

theorem Dev.startTests_fate {x : Nat → Region} (s : Dev) (c : Nat)
    (h : Dev.fate s = x) : Dev.fate (Dev.startTests s c) = x := by
  unfold Dev.startTests
  repeat' first
    | with_reducible assumption
    | intro _
    | extract_lets
    | with_reducible apply fate_ite
    | with_reducible apply Dev.modCell_fate
    | with_reducible apply Dev.modBlock_fate
    | (split
       all_goals try (rename_i heq
                      have h2 := congrArg Prod.snd heq
                      have h1 := congrArg Prod.fst heq
                      dsimp only at h1 h2
                      subst h1 h2
                      clear heq))
    | dsimp only [Lock.count]
    | dsimp +zetaDelta only

theorem Dev.holdExit_fate {x : Nat → Region} (s : Dev) (c : Nat)
    (h : Dev.fate s = x) : Dev.fate (Dev.holdExit s c) = x := by
  unfold Dev.holdExit
  repeat' first
    | with_reducible assumption
    | intro _
    | extract_lets
    | with_reducible apply fate_ite
    | with_reducible apply Dev.modCell_fate
    | (split
       all_goals try (rename_i heq
                      have h2 := congrArg Prod.snd heq
                      have h1 := congrArg Prod.fst heq
                      dsimp only at h1 h2
                      subst h1 h2
                      clear heq))
    | dsimp only [Lock.count]
    | dsimp +zetaDelta only

theorem Dev.emit_fate {x : Nat → Region} (s : Dev) (o : Out)
    (h : Dev.fate s = x) : Dev.fate (Dev.emit s o) = x := by
  unfold Dev.emit
  repeat' first
    | with_reducible assumption
    | intro _
    | extract_lets
    | with_reducible apply fate_ite
    | (split
       all_goals try (rename_i heq
                      have h2 := congrArg Prod.snd heq
                      have h1 := congrArg Prod.fst heq
                      dsimp only at h1 h2
                      subst h1 h2
                      clear heq))
    | with_reducible apply Dev.fate_upd_out
    | dsimp only [Lock.count]
    | dsimp +zetaDelta only

theorem Dev.sendTrip_fate {x : Nat → Region} (s : Dev) (g : Nat) (bit : Bool)
    (h : Dev.fate s = x) : Dev.fate (Dev.sendTrip s g bit) = x := by
  unfold Dev.sendTrip
  repeat' first
    | with_reducible assumption
    | intro _
    | extract_lets
    | with_reducible apply fate_ite
    | with_reducible apply Dev.emit_fate
    | (split
       all_goals try (rename_i heq
                      have h2 := congrArg Prod.snd heq
                      have h1 := congrArg Prod.fst heq
                      dsimp only at h1 h2
                      subst h1 h2
                      clear heq))
    | with_reducible apply Dev.fate_upd_tripSeq
    | dsimp only [Lock.count]
    | dsimp +zetaDelta only

theorem Dev.withBcast_fate {x : Nat → Region} (s : Dev) (g : Nat) (f : Dev → Dev) (h_f : ∀ u0 y, Dev.fate u0 = y → Dev.fate (f u0) = y)
    (h : Dev.fate s = x) : Dev.fate (Dev.withBcast s g f) = x := by
  unfold Dev.withBcast
  repeat' first
    | with_reducible assumption
    | intro _
    | extract_lets
    | with_reducible apply fate_ite
    | with_reducible apply Dev.sendTrip_fate
    | with_reducible apply h_f
    | (split
       all_goals try (rename_i heq
                      have h2 := congrArg Prod.snd heq
                      have h1 := congrArg Prod.fst heq
                      dsimp only at h1 h2
                      subst h1 h2
                      clear heq))
    | dsimp only [Lock.count]
    | dsimp +zetaDelta only

theorem Dev.complete_fate {x : Nat → Region} (s : Dev) (k : Completion)
    (h : Dev.fate s = x) : Dev.fate (Dev.complete s k) = x := by
  unfold Dev.complete
  repeat' first
    | with_reducible assumption
    | intro _
    | extract_lets
    | with_reducible apply fate_ite
    | (split
       all_goals try (rename_i heq
                      have h2 := congrArg Prod.snd heq
                      have h1 := congrArg Prod.fst heq
                      dsimp only at h1 h2
                      subst h1 h2
                      clear heq))
    | with_reducible apply Dev.fate_upd_complq
    | dsimp only [Lock.count]
    | dsimp +zetaDelta only

theorem Dev.decideHeld_fate {x : Nat → Region} (s : Dev) (c : Nat) (bad : Bool) (cmd : Nat × Nat)
    (h : Dev.fate s = x) : Dev.fate (Dev.decideHeld s c bad cmd) = x := by
  unfold Dev.decideHeld
  repeat' first
    | with_reducible assumption
    | intro _
    | extract_lets
    | with_reducible apply fate_ite
    | with_reducible apply Dev.complete_fate
    | (split
       all_goals try (rename_i heq
                      have h2 := congrArg Prod.snd heq
                      have h1 := congrArg Prod.fst heq
                      dsimp only at h1 h2
                      subst h1 h2
                      clear heq))
    | with_reducible apply Dev.fate_upd_laneWaits
    | dsimp only [Lock.count]
    | dsimp +zetaDelta only

theorem Dev.endHeldOn_fate {x : Nat → Region} (s : Dev) (c : Nat) (bad : Bool)
    (h : Dev.fate s = x) : Dev.fate (Dev.endHeldOn s c bad) = x := by
  unfold Dev.endHeldOn
  repeat' first
    | with_reducible assumption
    | intro _
    | extract_lets
    | with_reducible apply fate_ite
    | with_reducible apply Dev.decideHeld_fate
    | with_reducible apply Dev.modCell_fate
    | with_reducible apply Dev.forEach_fate
    | (split
       all_goals try (rename_i heq
                      have h2 := congrArg Prod.snd heq
                      have h1 := congrArg Prod.fst heq
                      dsimp only at h1 h2
                      subst h1 h2
                      clear heq))
    | dsimp only [Lock.count]
    | dsimp +zetaDelta only

theorem Dev.abortPulse_fate {x : Nat → Region} (s : Dev) (c : Nat)
    (h : Dev.fate s = x) : Dev.fate (Dev.abortPulse s c) = x := by
  unfold Dev.abortPulse
  repeat' first
    | with_reducible assumption
    | intro _
    | extract_lets
    | with_reducible apply fate_ite
    | with_reducible apply Dev.modCell_fate
    | (split
       all_goals try (rename_i heq
                      have h2 := congrArg Prod.snd heq
                      have h1 := congrArg Prod.fst heq
                      dsimp only at h1 h2
                      subst h1 h2
                      clear heq))
    | dsimp only [Lock.count]
    | dsimp +zetaDelta only

theorem Dev.sendSl_fate {x : Nat → Region} (s : Dev) (g : Nat) (a2 : SlMsg)
    (h : Dev.fate s = x) : Dev.fate (Dev.sendSl s g a2) = x := by
  unfold Dev.sendSl
  repeat' first
    | with_reducible assumption
    | intro _
    | extract_lets
    | with_reducible apply fate_ite
    | (with_reducible apply Dev.modRegion_fate
       · intro r; first | rfl | (split <;> rfl) | (split <;> split <;> rfl))
    | (split
       all_goals try (rename_i heq
                      have h2 := congrArg Prod.snd heq
                      have h1 := congrArg Prod.fst heq
                      dsimp only at h1 h2
                      subst h1 h2
                      clear heq))
    | with_reducible apply Dev.fate_upd_slMsgs
    | dsimp only [Lock.count]
    | dsimp +zetaDelta only

theorem Dev.commitProf_fate {x : Nat → Region} (s : Dev) (c : Nat)
    (h : Dev.fate s = x) : Dev.fate (Dev.commitProf s c) = x := by
  unfold Dev.commitProf
  repeat' first
    | with_reducible assumption
    | intro _
    | extract_lets
    | with_reducible apply fate_ite
    | with_reducible apply Dev.modCell_fate
    | (split
       all_goals try (rename_i heq
                      have h2 := congrArg Prod.snd heq
                      have h1 := congrArg Prod.fst heq
                      dsimp only at h1 h2
                      subst h1 h2
                      clear heq))
    | with_reducible apply Dev.fate_upd_prof_profPend
    | dsimp only [Lock.count]
    | dsimp +zetaDelta only

theorem Dev.goto_fate {x : Nat → Region} (s : Dev) (c : Nat) (st : CellState)
    (h : Dev.fate s = x) : Dev.fate (Dev.goto s c st) = x := by
  unfold Dev.goto
  repeat' first
    | with_reducible assumption
    | intro _
    | extract_lets
    | with_reducible apply fate_ite
    | with_reducible apply Dev.commitProf_fate
    | with_reducible apply Dev.sendSl_fate
    | with_reducible apply Dev.abortPulse_fate
    | with_reducible apply Dev.endHeldOn_fate
    | with_reducible apply Dev.withBcast_fate
    | with_reducible apply Dev.holdExit_fate
    | with_reducible apply Dev.startTests_fate
    | with_reducible apply Dev.modCell_fate
    | with_reducible apply Dev.modConv_fate
    | with_reducible apply Dev.drawNat_fate
    | with_reducible apply Dev.gateLane_fate
    | with_reducible apply Dev.modLane_fate
    | with_reducible apply Dev.cellEvent_fate
    | (split
       all_goals try (rename_i heq
                      have h2 := congrArg Prod.snd heq
                      have h1 := congrArg Prod.fst heq
                      dsimp only at h1 h2
                      subst h1 h2
                      clear heq))
    | dsimp only [Lock.count]
    | dsimp +zetaDelta only

theorem Dev.enterSafe_fate {x : Nat → Region} (s : Dev) (c : Nat)
    (h : Dev.fate s = x) : Dev.fate (Dev.enterSafe s c) = x := by
  unfold Dev.enterSafe
  repeat' first
    | with_reducible assumption
    | intro _
    | extract_lets
    | with_reducible apply fate_ite
    | with_reducible apply Dev.goto_fate
    | (split
       all_goals try (rename_i heq
                      have h2 := congrArg Prod.snd heq
                      have h1 := congrArg Prod.fst heq
                      dsimp only at h1 h2
                      subst h1 h2
                      clear heq))
    | dsimp only [Lock.count]
    | dsimp +zetaDelta only

theorem Dev.safeCells_fate {x : Nat → Region} (s : Dev) (l : List Nat)
    (h : Dev.fate s = x) : Dev.fate (Dev.safeCells s l) = x := by
  unfold Dev.safeCells
  repeat' first
    | with_reducible assumption
    | intro _
    | extract_lets
    | with_reducible apply fate_ite
    | with_reducible apply Dev.enterSafe_fate
    | with_reducible apply Dev.latchedCheck_fate
    | with_reducible apply Dev.forEach_fate
    | (split
       all_goals try (rename_i heq
                      have h2 := congrArg Prod.snd heq
                      have h1 := congrArg Prod.fst heq
                      dsimp only at h1 h2
                      subst h1 h2
                      clear heq))
    | dsimp only [Lock.count]
    | dsimp +zetaDelta only

theorem Dev.setSlice_fate {x : Nat → Region} (s : Dev) (k : Nat) (v : Slice)
    (h : Dev.fate s = x) : Dev.fate (Dev.setSlice s k v) = x := by
  unfold Dev.setSlice
  repeat' first
    | with_reducible assumption
    | intro _
    | extract_lets
    | with_reducible apply fate_ite
    | (split
       all_goals try (rename_i heq
                      have h2 := congrArg Prod.snd heq
                      have h1 := congrArg Prod.fst heq
                      dsimp only at h1 h2
                      subst h1 h2
                      clear heq))
    | with_reducible apply Dev.fate_upd_slices
    | dsimp only [Lock.count]
    | dsimp +zetaDelta only

theorem Dev.sliceEvent_fate {x : Nat → Region} (s : Dev) (k : Nat) (code : Nat) (flag : Bool) (payload : List Word)
    (h : Dev.fate s = x) : Dev.fate (Dev.sliceEvent s k code flag payload) = x := by
  unfold Dev.sliceEvent
  repeat' first
    | with_reducible assumption
    | intro _
    | extract_lets
    | with_reducible apply fate_ite
    | with_reducible apply Dev.irqRegion_fate
    | with_reducible apply Dev.raiseIsland_fate
    | (split
       all_goals try (rename_i heq
                      have h2 := congrArg Prod.snd heq
                      have h1 := congrArg Prod.fst heq
                      dsimp only at h1 h2
                      subst h1 h2
                      clear heq))
    | dsimp only [Lock.count]
    | dsimp +zetaDelta only

theorem Dev.cutEvent_fate {x : Nat → Region} (s : Dev) (k : Nat) (begins : Bool)
    (h : Dev.fate s = x) : Dev.fate (Dev.cutEvent s k begins) = x := by
  unfold Dev.cutEvent
  repeat' first
    | with_reducible assumption
    | intro _
    | extract_lets
    | with_reducible apply fate_ite
    | with_reducible apply Dev.sliceEvent_fate
    | (split
       all_goals try (rename_i heq
                      have h2 := congrArg Prod.snd heq
                      have h1 := congrArg Prod.fst heq
                      dsimp only at h1 h2
                      subst h1 h2
                      clear heq))
    | dsimp only [Lock.count]
    | dsimp +zetaDelta only

theorem Dev.cutUpdate_fate {x : Nat → Region} (s : Dev) (k : Nat)
    (h : Dev.fate s = x) : Dev.fate (Dev.cutUpdate s k) = x := by
  unfold Dev.cutUpdate
  repeat' first
    | with_reducible assumption
    | intro _
    | extract_lets
    | with_reducible apply fate_ite
    | with_reducible apply Dev.cutEvent_fate
    | with_reducible apply Dev.setSlice_fate
    | (split
       all_goals try (rename_i heq
                      have h2 := congrArg Prod.snd heq
                      have h1 := congrArg Prod.fst heq
                      dsimp only at h1 h2
                      subst h1 h2
                      clear heq))
    | with_reducible apply Dev.fate_upd_slices
    | dsimp only [Lock.count]
    | dsimp +zetaDelta only

theorem Dev.sliceGoto_fate {x : Nat → Region} (s : Dev) (k : Nat) (st : SliceState) (cause : Nat)
    (h : Dev.fate s = x) : Dev.fate (Dev.sliceGoto s k st cause) = x := by
  unfold Dev.sliceGoto
  repeat' first
    | with_reducible assumption
    | intro _
    | extract_lets
    | with_reducible apply fate_ite
    | with_reducible apply Dev.sliceEvent_fate
    | with_reducible apply Dev.setSlice_fate
    | (split
       all_goals try (rename_i heq
                      have h2 := congrArg Prod.snd heq
                      have h1 := congrArg Prod.fst heq
                      dsimp only at h1 h2
                      subst h1 h2
                      clear heq))
    | dsimp only [Lock.count]
    | dsimp +zetaDelta only

theorem Dev.setReg_fate {x : Nat → Region} (s : Dev) (off : Nat) (v : Word)
    (h : Dev.fate s = x) : Dev.fate (Dev.setReg s off v) = x := by
  unfold Dev.setReg
  repeat' first
    | with_reducible assumption
    | intro _
    | extract_lets
    | with_reducible apply fate_ite
    | (split
       all_goals try (rename_i heq
                      have h2 := congrArg Prod.snd heq
                      have h1 := congrArg Prod.fst heq
                      dsimp only at h1 h2
                      subst h1 h2
                      clear heq))
    | with_reducible apply Dev.fate_upd_regs
    | dsimp only [Lock.count]
    | dsimp +zetaDelta only

theorem Dev.commitReg_fate {x : Nat → Region} (s : Dev) (off : Nat)
    (h : Dev.fate s = x) : Dev.fate (Dev.commitReg s off) = x := by
  unfold Dev.commitReg
  repeat' first
    | with_reducible assumption
    | intro _
    | extract_lets
    | with_reducible apply fate_ite
    | with_reducible apply Dev.setReg_fate
    | (split
       all_goals try (rename_i heq
                      have h2 := congrArg Prod.snd heq
                      have h1 := congrArg Prod.fst heq
                      dsimp only at h1 h2
                      subst h1 h2
                      clear heq))
    | with_reducible apply Dev.fate_upd_regsPend
    | dsimp only [Lock.count]
    | dsimp +zetaDelta only

theorem Dev.commitCs_fate {x : Nat → Region} (s : Dev) (k : Nat)
    (h : Dev.fate s = x) : Dev.fate (Dev.commitCs s k) = x := by
  unfold Dev.commitCs
  repeat' first
    | with_reducible assumption
    | intro _
    | extract_lets
    | with_reducible apply fate_ite
    | with_reducible apply Dev.commitReg_fate
    | with_reducible apply Dev.forEach_fate
    | (split
       all_goals try (rename_i heq
                      have h2 := congrArg Prod.snd heq
                      have h1 := congrArg Prod.fst heq
                      dsimp only at h1 h2
                      subst h1 h2
                      clear heq))
    | dsimp only [Lock.count]
    | dsimp +zetaDelta only

theorem Dev.putReg_fate {x : Nat → Region} (s : Dev) (off : Nat) (lo : Nat) (len : Nat) (v : Nat)
    (h : Dev.fate s = x) : Dev.fate (Dev.putReg s off lo len v) = x := by
  unfold Dev.putReg
  repeat' first
    | with_reducible assumption
    | intro _
    | extract_lets
    | with_reducible apply fate_ite
    | with_reducible apply Dev.setReg_fate
    | (split
       all_goals try (rename_i heq
                      have h2 := congrArg Prod.snd heq
                      have h1 := congrArg Prod.fst heq
                      dsimp only at h1 h2
                      subst h1 h2
                      clear heq))
    | dsimp only [Lock.count]
    | dsimp +zetaDelta only

theorem Dev.modSlice_fate {x : Nat → Region} (s : Dev) (k : Nat) (f : Slice → Slice)
    (h : Dev.fate s = x) : Dev.fate (Dev.modSlice s k f) = x := by
  unfold Dev.modSlice
  repeat' first
    | with_reducible assumption
    | intro _
    | extract_lets
    | with_reducible apply fate_ite
    | with_reducible apply Dev.setSlice_fate
    | (split
       all_goals try (rename_i heq
                      have h2 := congrArg Prod.snd heq
                      have h1 := congrArg Prod.fst heq
                      dsimp only at h1 h2
                      subst h1 h2
                      clear heq))
    | dsimp only [Lock.count]
    | dsimp +zetaDelta only

theorem Dev.killSlice_fate {x : Nat → Region} (s : Dev) (k : Nat) (cause : Nat)
    (h : Dev.fate s = x) : Dev.fate (Dev.killSlice s k cause) = x := by
  unfold Dev.killSlice
  repeat' first
    | with_reducible assumption
    | intro _
    | extract_lets
    | with_reducible apply fate_ite
    | with_reducible apply Dev.modSlice_fate
    | with_reducible apply Dev.putReg_fate
    | with_reducible apply Dev.commitCs_fate
    | with_reducible apply Dev.commitReg_fate
    | with_reducible apply Dev.sliceGoto_fate
    | with_reducible apply Dev.cutUpdate_fate
    | (split
       all_goals try (rename_i heq
                      have h2 := congrArg Prod.snd heq
                      have h1 := congrArg Prod.fst heq
                      dsimp only at h1 h2
                      subst h1 h2
                      clear heq))
    | dsimp only [Lock.count]
    | dsimp +zetaDelta only

theorem Dev.killSlices_fate {x : Nat → Region} (s : Dev) (g : Nat)
    (h : Dev.fate s = x) : Dev.fate (Dev.killSlices s g) = x := by
  unfold Dev.killSlices
  repeat' first
    | with_reducible assumption
    | intro _
    | extract_lets
    | with_reducible apply fate_ite
    | with_reducible apply Dev.killSlice_fate
    | with_reducible apply Dev.forEach_fate
    | (split
       all_goals try (rename_i heq
                      have h2 := congrArg Prod.snd heq
                      have h1 := congrArg Prod.fst heq
                      dsimp only at h1 h2
                      subst h1 h2
                      clear heq))
    | dsimp only [Lock.count]
    | dsimp +zetaDelta only

theorem Dev.regionSafe_fate {x : Nat → Region} (s : Dev) (g : Nat)
    (h : Dev.fate s = x) : Dev.fate (Dev.regionSafe s g) = x := by
  unfold Dev.regionSafe
  repeat' first
    | with_reducible assumption
    | intro _
    | extract_lets
    | with_reducible apply fate_ite
    | with_reducible apply Dev.killSlices_fate
    | with_reducible apply Dev.safeCells_fate
    | (split
       all_goals try (rename_i heq
                      have h2 := congrArg Prod.snd heq
                      have h1 := congrArg Prod.fst heq
                      dsimp only at h1 h2
                      subst h1 h2
                      clear heq))
    | dsimp only [Lock.count]
    | dsimp +zetaDelta only

theorem Dev.blockSafe_fate {x : Nat → Region} (s : Dev) (b : Nat)
    (h : Dev.fate s = x) : Dev.fate (Dev.blockSafe s b) = x := by
  unfold Dev.blockSafe
  repeat' first
    | with_reducible assumption
    | intro _
    | extract_lets
    | with_reducible apply fate_ite
    | with_reducible apply Dev.safeCells_fate
    | (split
       all_goals try (rename_i heq
                      have h2 := congrArg Prod.snd heq
                      have h1 := congrArg Prod.fst heq
                      dsimp only at h1 h2
                      subst h1 h2
                      clear heq))
    | dsimp only [Lock.count]
    | dsimp +zetaDelta only

theorem Dev.stand_fate {x : Nat → Region} (s : Dev) (k : Nat) (src : Nat) (scope : SafeScope) (fatal : Bool)
    (h : Dev.fate s = x) : Dev.fate (Dev.stand s k src scope fatal) = x := by
  unfold Dev.stand
  repeat' first
    | with_reducible assumption
    | intro _
    | extract_lets
    | with_reducible apply fate_ite
    | with_reducible apply Dev.modColl_fate
    | (split
       all_goals try (rename_i heq
                      have h2 := congrArg Prod.snd heq
                      have h1 := congrArg Prod.fst heq
                      dsimp only at h1 h2
                      subst h1 h2
                      clear heq))
    | dsimp only [Lock.count]
    | dsimp +zetaDelta only

theorem Dev.safeReact_fate {x : Nat → Region} (s : Dev) (k : Nat) (src : Nat) (info : Nat) (mask : Nat) (fatal : Bool)
    (h : Dev.fate s = x) : Dev.fate (Dev.safeReact s k src info mask fatal) = x := by
  unfold Dev.safeReact
  repeat' first
    | with_reducible assumption
    | intro _
    | extract_lets
    | with_reducible apply fate_ite
    | with_reducible apply Dev.stand_fate
    | with_reducible apply Dev.blockSafe_fate
    | with_reducible apply Dev.regionSafe_fate
    | with_reducible apply Dev.safeCells_fate
    | with_reducible apply Dev.modColl_fate
    | (split
       all_goals try (rename_i heq
                      have h2 := congrArg Prod.snd heq
                      have h1 := congrArg Prod.fst heq
                      dsimp only at h1 h2
                      subst h1 h2
                      clear heq))
    | dsimp only [Lock.count]
    | dsimp +zetaDelta only

theorem Dev.report_fate {x : Nat → Region} (s : Dev) (g : Nat) (r : Report)
    (h : Dev.fate s = x) : Dev.fate (Dev.report s g r) = x := by
  unfold Dev.report
  repeat' first
    | with_reducible assumption
    | intro _
    | extract_lets
    | with_reducible apply fate_ite
    | with_reducible apply Dev.modColl_fate
    | (split
       all_goals try (rename_i heq
                      have h2 := congrArg Prod.snd heq
                      have h1 := congrArg Prod.fst heq
                      dsimp only at h1 h2
                      subst h1 h2
                      clear heq))
    | with_reducible apply Dev.fate_upd_reports
    | dsimp only [Lock.count]
    | dsimp +zetaDelta only

theorem Dev.errEvent_fate {x : Nat → Region} (s : Dev)
    (h : Dev.fate s = x) : Dev.fate (Dev.errEvent s) = x := by
  unfold Dev.errEvent
  repeat' first
    | with_reducible assumption
    | intro _
    | extract_lets
    | with_reducible apply fate_ite
    | with_reducible apply Dev.collEvent_fate
    | (split
       all_goals try (rename_i heq
                      have h2 := congrArg Prod.snd heq
                      have h1 := congrArg Prod.fst heq
                      dsimp only at h1 h2
                      subst h1 h2
                      clear heq))
    | dsimp only [Lock.count]
    | dsimp +zetaDelta only

theorem Dev.errAssert_fate {x : Nat → Region} (s : Dev)
    (h : Dev.fate s = x) : Dev.fate (Dev.errAssert s) = x := by
  unfold Dev.errAssert
  repeat' first
    | with_reducible assumption
    | intro _
    | extract_lets
    | with_reducible apply fate_ite
    | with_reducible apply Dev.errEvent_fate
    | (split
       all_goals try (rename_i heq
                      have h2 := congrArg Prod.snd heq
                      have h1 := congrArg Prod.fst heq
                      dsimp only at h1 h2
                      subst h1 h2
                      clear heq))
    | with_reducible apply Dev.fate_upd_err
    | dsimp only [Lock.count]
    | dsimp +zetaDelta only

theorem Dev.faultKey_fate {x : Nat → Region} (s : Dev) (k : Nat) (src : Nat)
    (h : Dev.fate s = x) : Dev.fate (Dev.faultKey s k src).2.2 = x := by
  unfold Dev.faultKey
  repeat' first
    | with_reducible assumption
    | intro _
    | extract_lets
    | with_reducible apply fate_ite
    | with_reducible apply Dev.modColl_fate
    | (split
       all_goals try (rename_i heq
                      have h2 := congrArg Prod.snd heq
                      have h1 := congrArg Prod.fst heq
                      dsimp only at h1 h2
                      subst h1 h2
                      clear heq))
    | dsimp only [Lock.count]
    | dsimp +zetaDelta only

theorem Dev.reactEvent_fate {x : Nat → Region} (s : Dev) (k : Nat) (src : Nat) (info : Nat) (t : Nat) (deferred : Bool) (inj : Bool)
    (h : Dev.fate s = x) : Dev.fate (Dev.reactEvent s k src info t deferred inj) = x := by
  unfold Dev.reactEvent
  repeat' first
    | with_reducible assumption
    | intro _
    | extract_lets
    | with_reducible apply fate_ite
    | with_reducible apply Dev.faultKey_fate
    | with_reducible apply Dev.errAssert_fate
    | with_reducible apply Dev.report_fate
    | with_reducible apply Dev.safeReact_fate
    | with_reducible apply Dev.history_fate
    | with_reducible apply Dev.faultEvent_fate
    | with_reducible apply Dev.modColl_fate
    | (split
       all_goals try (rename_i heq
                      have h2 := congrArg Prod.snd heq
                      have h1 := congrArg Prod.fst heq
                      dsimp only at h1 h2
                      subst h1 h2
                      clear heq))
    | dsimp only [Lock.count]
    | dsimp +zetaDelta only

theorem Dev.occurAt_fate {x : Nat → Region} (s : Dev) (k : Nat) (src : Nat) (info : Nat) (n : Nat) (t : Nat) (deferred : Bool) (inj : Bool)
    (h : Dev.fate s = x) : Dev.fate (Dev.occurAt s k src info n t deferred inj) = x := by
  unfold Dev.occurAt
  repeat' first
    | with_reducible assumption
    | intro _
    | extract_lets
    | with_reducible apply fate_ite
    | with_reducible apply Dev.reactEvent_fate
    | with_reducible apply Dev.noteEvent_fate
    | (split
       all_goals try (rename_i heq
                      have h2 := congrArg Prod.snd heq
                      have h1 := congrArg Prod.fst heq
                      dsimp only at h1 h2
                      subst h1 h2
                      clear heq))
    | dsimp only [Lock.count]
    | dsimp +zetaDelta only

theorem Dev.occur_fate {x : Nat → Region} (s : Dev) (k : Nat) (src : Nat) (info : Nat)
    (h : Dev.fate s = x) : Dev.fate (Dev.occur s k src info) = x := by
  unfold Dev.occur
  repeat' first
    | with_reducible assumption
    | intro _
    | extract_lets
    | with_reducible apply fate_ite
    | with_reducible apply Dev.occurAt_fate
    | (split
       all_goals try (rename_i heq
                      have h2 := congrArg Prod.snd heq
                      have h1 := congrArg Prod.fst heq
                      dsimp only at h1 h2
                      subst h1 h2
                      clear heq))
    | dsimp only [Lock.count]
    | dsimp +zetaDelta only

theorem Dev.bargeHalted_fate {x : Nat → Region} (s : Dev) (e : Nat) (cause : Nat)
    (h : Dev.fate s = x) : Dev.fate (Dev.bargeHalted s e cause) = x := by
  unfold Dev.bargeHalted
  repeat' first
    | with_reducible assumption
    | intro _
    | extract_lets
    | with_reducible apply fate_ite
    | with_reducible apply Dev.forEach_fate
    | with_reducible apply Dev.modBarge_fate
    | (split
       all_goals try (rename_i heq
                      have h2 := congrArg Prod.snd heq
                      have h1 := congrArg Prod.fst heq
                      dsimp only at h1 h2
                      subst h1 h2
                      clear heq))
    | dsimp only [Lock.count]
    | dsimp +zetaDelta only

theorem Dev.haltSettle_fate {x : Nat → Region} (s : Dev) (e : Nat)
    (h : Dev.fate s = x) : Dev.fate (Dev.haltSettle s e) = x := by
  unfold Dev.haltSettle
  repeat' first
    | with_reducible assumption
    | intro _
    | extract_lets
    | with_reducible apply fate_ite
    | with_reducible apply Dev.bargeHalted_fate
    | (split
       all_goals try (rename_i heq
                      have h2 := congrArg Prod.snd heq
                      have h1 := congrArg Prod.fst heq
                      dsimp only at h1 h2
                      subst h1 h2
                      clear heq))
    | dsimp only [Lock.count]
    | dsimp +zetaDelta only

theorem Dev.haltBarge_fate {x : Nat → Region} (s : Dev) (e : Nat) (cause : Nat)
    (h : Dev.fate s = x) : Dev.fate (Dev.haltBarge s e cause) = x := by
  unfold Dev.haltBarge
  repeat' first
    | with_reducible assumption
    | intro _
    | extract_lets
    | with_reducible apply fate_ite
    | with_reducible apply Dev.haltSettle_fate
    | with_reducible apply Dev.modBarge_fate
    | (split
       all_goals try (rename_i heq
                      have h2 := congrArg Prod.snd heq
                      have h1 := congrArg Prod.fst heq
                      dsimp only at h1 h2
                      subst h1 h2
                      clear heq))
    | dsimp only [Lock.count]
    | dsimp +zetaDelta only

theorem Dev.extUpdate_fate {x : Nat → Region} (s : Dev) (g : Nat)
    (h : Dev.fate s = x) : Dev.fate (Dev.extUpdate s g) = x := by
  unfold Dev.extUpdate
  repeat' first
    | with_reducible assumption
    | intro _
    | extract_lets
    | with_reducible apply fate_ite
    | (with_reducible apply Dev.modRegion_fate
       · intro r; first | rfl | (split <;> rfl) | (split <;> split <;> rfl))
    | (split
       all_goals try (rename_i heq
                      have h2 := congrArg Prod.snd heq
                      have h1 := congrArg Prod.fst heq
                      dsimp only at h1 h2
                      subst h1 h2
                      clear heq))
    | dsimp only [Lock.count]
    | dsimp +zetaDelta only

theorem Dev.setTow_fate {x : Nat → Region} (s : Dev) (t : Nat) (v : Towpath)
    (h : Dev.fate s = x) : Dev.fate (Dev.setTow s t v) = x := by
  unfold Dev.setTow
  repeat' first
    | with_reducible assumption
    | intro _
    | extract_lets
    | with_reducible apply fate_ite
    | (split
       all_goals try (rename_i heq
                      have h2 := congrArg Prod.snd heq
                      have h1 := congrArg Prod.fst heq
                      dsimp only at h1 h2
                      subst h1 h2
                      clear heq))
    | with_reducible apply Dev.fate_upd_tows
    | dsimp only [Lock.count]
    | dsimp +zetaDelta only

theorem Dev.modTow_fate {x : Nat → Region} (s : Dev) (t : Nat) (f : Towpath → Towpath)
    (h : Dev.fate s = x) : Dev.fate (Dev.modTow s t f) = x := by
  unfold Dev.modTow
  repeat' first
    | with_reducible assumption
    | intro _
    | extract_lets
    | with_reducible apply fate_ite
    | with_reducible apply Dev.setTow_fate
    | (split
       all_goals try (rename_i heq
                      have h2 := congrArg Prod.snd heq
                      have h1 := congrArg Prod.fst heq
                      dsimp only at h1 h2
                      subst h1 h2
                      clear heq))
    | dsimp only [Lock.count]
    | dsimp +zetaDelta only

theorem Dev.modBz_fate {x : Nat → Region} (s : Dev) (f : Basin → Basin)
    (h : Dev.fate s = x) : Dev.fate (Dev.modBz s f) = x := by
  unfold Dev.modBz
  repeat' first
    | with_reducible assumption
    | intro _
    | extract_lets
    | with_reducible apply fate_ite
    | (split
       all_goals try (rename_i heq
                      have h2 := congrArg Prod.snd heq
                      have h1 := congrArg Prod.fst heq
                      dsimp only at h1 h2
                      subst h1 h2
                      clear heq))
    | with_reducible apply Dev.fate_upd_bz
    | dsimp only [Lock.count]
    | dsimp +zetaDelta only

theorem Dev.bzPut_fate {x : Nat → Region} (s : Dev) (words : List Word)
    (h : Dev.fate s = x) : Dev.fate (Dev.bzPut s words) = x := by
  unfold Dev.bzPut
  repeat' first
    | with_reducible assumption
    | intro _
    | extract_lets
    | with_reducible apply fate_ite
    | with_reducible apply Dev.modBz_fate
    | (split
       all_goals try (rename_i heq
                      have h2 := congrArg Prod.snd heq
                      have h1 := congrArg Prod.fst heq
                      dsimp only at h1 h2
                      subst h1 h2
                      clear heq))
    | dsimp only [Lock.count]
    | dsimp +zetaDelta only

theorem Dev.bzMark_fate {x : Nat → Region} (s : Dev) (src : Nat) (code : Nat) (tag : Nat) (time : Nat)
    (h : Dev.fate s = x) : Dev.fate (Dev.bzMark s src code tag time) = x := by
  unfold Dev.bzMark
  repeat' first
    | with_reducible assumption
    | intro _
    | extract_lets
    | with_reducible apply fate_ite
    | with_reducible apply Dev.bzPut_fate
    | with_reducible apply Dev.modBz_fate
    | (split
       all_goals try (rename_i heq
                      have h2 := congrArg Prod.snd heq
                      have h1 := congrArg Prod.fst heq
                      dsimp only at h1 h2
                      subst h1 h2
                      clear heq))
    | dsimp only [Lock.count]
    | dsimp +zetaDelta only

theorem Dev.bzTrigger_fate {x : Nat → Region} (s : Dev) (src : Nat) (post : Nat) (time : Nat) (cell : Nat) (tag : Nat) (pos : Option Nat)
    (h : Dev.fate s = x) : Dev.fate (Dev.bzTrigger s src post time cell tag pos).2 = x := by
  unfold Dev.bzTrigger
  repeat' first
    | with_reducible assumption
    | intro _
    | extract_lets
    | with_reducible apply fate_ite
    | with_reducible apply Dev.bzMark_fate
    | with_reducible apply Dev.modBz_fate
    | with_reducible apply Dev.drawNat_fate
    | (split
       all_goals try (rename_i heq
                      have h2 := congrArg Prod.snd heq
                      have h1 := congrArg Prod.fst heq
                      dsimp only at h1 h2
                      subst h1 h2
                      clear heq))
    | dsimp only [Lock.count]
    | dsimp +zetaDelta only

theorem Dev.bzFull_fate {x : Nat → Region} (s : Dev)
    (h : Dev.fate s = x) : Dev.fate (Dev.bzFull s) = x := by
  unfold Dev.bzFull
  repeat' first
    | with_reducible assumption
    | intro _
    | extract_lets
    | with_reducible apply fate_ite
    | with_reducible apply Dev.bzTrigger_fate
    | (split
       all_goals try (rename_i heq
                      have h2 := congrArg Prod.snd heq
                      have h1 := congrArg Prod.fst heq
                      dsimp only at h1 h2
                      subst h1 h2
                      clear heq))
    | dsimp only [Lock.count]
    | dsimp +zetaDelta only

theorem Dev.policyOff_fate {x : Nat → Region} (s : Dev) (c : Nat)
    (h : Dev.fate s = x) : Dev.fate (Dev.policyOff s c) = x := by
  unfold Dev.policyOff
  repeat' first
    | with_reducible assumption
    | intro _
    | extract_lets
    | with_reducible apply fate_ite
    | with_reducible apply Dev.goto_fate
    | with_reducible apply Dev.modCell_fate
    | (split
       all_goals try (rename_i heq
                      have h2 := congrArg Prod.snd heq
                      have h1 := congrArg Prod.fst heq
                      dsimp only at h1 h2
                      subst h1 h2
                      clear heq))
    | dsimp only [Lock.count]
    | dsimp +zetaDelta only

theorem Dev.policyCells_fate {x : Nat → Region} (s : Dev) (l : List Nat)
    (h : Dev.fate s = x) : Dev.fate (Dev.policyCells s l) = x := by
  unfold Dev.policyCells
  repeat' first
    | with_reducible assumption
    | intro _
    | extract_lets
    | with_reducible apply fate_ite
    | with_reducible apply Dev.policyOff_fate
    | with_reducible apply Dev.forEach_fate
    | (split
       all_goals try (rename_i heq
                      have h2 := congrArg Prod.snd heq
                      have h1 := congrArg Prod.fst heq
                      dsimp only at h1 h2
                      subst h1 h2
                      clear heq))
    | dsimp only [Lock.count]
    | dsimp +zetaDelta only

theorem Dev.softStop_fate {x : Nat → Region} (s : Dev) (k : Nat) (cause : Nat)
    (h : Dev.fate s = x) : Dev.fate (Dev.softStop s k cause) = x := by
  unfold Dev.softStop
  repeat' first
    | with_reducible assumption
    | intro _
    | extract_lets
    | with_reducible apply fate_ite
    | with_reducible apply Dev.sliceGoto_fate
    | with_reducible apply Dev.setSlice_fate
    | (split
       all_goals try (rename_i heq
                      have h2 := congrArg Prod.snd heq
                      have h1 := congrArg Prod.fst heq
                      dsimp only at h1 h2
                      subst h1 h2
                      clear heq))
    | dsimp only [Lock.count]
    | dsimp +zetaDelta only

theorem Dev.lossAction_fate {x : Nat → Region} (s : Dev) (k : Nat) (cause : Nat)
    (h : Dev.fate s = x) : Dev.fate (Dev.lossAction s k cause) = x := by
  unfold Dev.lossAction
  repeat' first
    | with_reducible assumption
    | intro _
    | extract_lets
    | with_reducible apply fate_ite
    | with_reducible apply Dev.softStop_fate
    | with_reducible apply Dev.killSlice_fate
    | (split
       all_goals try (rename_i heq
                      have h2 := congrArg Prod.snd heq
                      have h1 := congrArg Prod.fst heq
                      dsimp only at h1 h2
                      subst h1 h2
                      clear heq))
    | dsimp only [Lock.count]
    | dsimp +zetaDelta only

theorem Dev.tripAt_fate {x : Nat → Region} (s : Dev) (c : Nat) (mask : Nat) (time : Nat)
    (h : Dev.fate s = x) : Dev.fate (Dev.tripAt s c mask time) = x := by
  unfold Dev.tripAt
  repeat' first
    | with_reducible assumption
    | intro _
    | extract_lets
    | with_reducible apply fate_ite
    | with_reducible apply Dev.goto_fate
    | with_reducible apply Dev.commitProf_fate
    | with_reducible apply Dev.withBcast_fate
    | with_reducible apply Dev.modCell_fate
    | with_reducible apply Dev.raiseIsland_fate
    | (with_reducible apply Dev.modRegion_fate
       · intro r; first | rfl | (split <;> rfl) | (split <;> split <;> rfl))
    | with_reducible apply fate_foldl
    | with_reducible apply fate_foldl3
    | (split
       all_goals try (rename_i heq
                      have h2 := congrArg Prod.snd heq
                      have h1 := congrArg Prod.fst heq
                      dsimp only at h1 h2
                      subst h1 h2
                      clear heq))
    | dsimp only [Lock.count]
    | dsimp +zetaDelta only

theorem Dev.tripNow_fate {x : Nat → Region} (s : Dev) (c : Nat) (mask : Nat)
    (h : Dev.fate s = x) : Dev.fate (Dev.tripNow s c mask) = x := by
  unfold Dev.tripNow
  repeat' first
    | with_reducible assumption
    | intro _
    | extract_lets
    | with_reducible apply fate_ite
    | with_reducible apply Dev.tripAt_fate
    | (split
       all_goals try (rename_i heq
                      have h2 := congrArg Prod.snd heq
                      have h1 := congrArg Prod.fst heq
                      dsimp only at h1 h2
                      subst h1 h2
                      clear heq))
    | dsimp only [Lock.count]
    | dsimp +zetaDelta only

theorem Dev.levelTrips_fate {x : Nat → Region} (s : Dev) (c : Nat)
    (h : Dev.fate s = x) : Dev.fate (Dev.levelTrips s c) = x := by
  unfold Dev.levelTrips
  repeat' first
    | with_reducible assumption
    | intro _
    | extract_lets
    | with_reducible apply fate_ite
    | with_reducible apply Dev.tripNow_fate
    | (split
       all_goals try (rename_i heq
                      have h2 := congrArg Prod.snd heq
                      have h1 := congrArg Prod.fst heq
                      dsimp only at h1 h2
                      subst h1 h2
                      clear heq))
    | dsimp only [Lock.count]
    | dsimp +zetaDelta only

theorem Dev.autoNext_fate {x : Nat → Region} (s : Dev) (g : Nat)
    (h : Dev.fate s = x) : Dev.fate (Dev.autoNext s g) = x := by
  unfold Dev.autoNext
  repeat' first
    | with_reducible assumption
    | intro _
    | extract_lets
    | with_reducible apply fate_ite
    | with_reducible apply Dev.levelTrips_fate
    | with_reducible apply Dev.goto_fate
    | with_reducible apply Dev.modCell_fate
    | (split
       all_goals try (rename_i heq
                      have h2 := congrArg Prod.snd heq
                      have h1 := congrArg Prod.fst heq
                      dsimp only at h1 h2
                      subst h1 h2
                      clear heq))
    | dsimp only [Lock.count]
    | dsimp +zetaDelta only

theorem Dev.cooldown_fate {x : Nat → Region} (s : Dev) (c : Nat) (backoffMs : Nat)
    (h : Dev.fate s = x) : Dev.fate (Dev.cooldown s c backoffMs) = x := by
  unfold Dev.cooldown
  repeat' first
    | with_reducible assumption
    | intro _
    | extract_lets
    | with_reducible apply fate_ite
    | with_reducible apply Dev.goto_fate
    | with_reducible apply Dev.modCell_fate
    | (split
       all_goals try (rename_i heq
                      have h2 := congrArg Prod.snd heq
                      have h1 := congrArg Prod.fst heq
                      dsimp only at h1 h2
                      subst h1 h2
                      clear heq))
    | dsimp only [Lock.count]
    | dsimp +zetaDelta only

theorem Dev.chOn_fate {x : Nat → Region} (s : Dev) (c : Nat)
    (h : Dev.fate s = x) : Dev.fate (Dev.chOn s c).2 = x := by
  unfold Dev.chOn
  repeat' first
    | with_reducible assumption
    | intro _
    | extract_lets
    | with_reducible apply fate_ite
    | with_reducible apply Dev.cooldown_fate
    | with_reducible apply Dev.goto_fate
    | with_reducible apply Dev.modCell_fate
    | (split
       all_goals try (rename_i heq
                      have h2 := congrArg Prod.snd heq
                      have h1 := congrArg Prod.fst heq
                      dsimp only at h1 h2
                      subst h1 h2
                      clear heq))
    | dsimp only [Lock.count]
    | dsimp +zetaDelta only

theorem Dev.setAux_fate {x : Nat → Region} (s : Dev) (g : Nat) (v : Aux)
    (h : Dev.fate s = x) : Dev.fate (Dev.setAux s g v) = x := by
  unfold Dev.setAux
  repeat' first
    | with_reducible assumption
    | intro _
    | extract_lets
    | with_reducible apply fate_ite
    | (split
       all_goals try (rename_i heq
                      have h2 := congrArg Prod.snd heq
                      have h1 := congrArg Prod.fst heq
                      dsimp only at h1 h2
                      subst h1 h2
                      clear heq))
    | with_reducible apply Dev.fate_upd_auxs
    | dsimp only [Lock.count]
    | dsimp +zetaDelta only

theorem Dev.twEvent_fate {x : Nat → Region} (s : Dev) (t : Nat) (code : Nat) (flag : Bool) (payload : List Word)
    (h : Dev.fate s = x) : Dev.fate (Dev.twEvent s t code flag payload) = x := by
  unfold Dev.twEvent
  repeat' first
    | with_reducible assumption
    | intro _
    | extract_lets
    | with_reducible apply fate_ite
    | with_reducible apply Dev.raiseIsland_fate
    | (split
       all_goals try (rename_i heq
                      have h2 := congrArg Prod.snd heq
                      have h1 := congrArg Prod.fst heq
                      dsimp only at h1 h2
                      subst h1 h2
                      clear heq))
    | dsimp only [Lock.count]
    | dsimp +zetaDelta only

theorem Dev.twIrq_fate {x : Nat → Region} (s : Dev) (t : Nat)
    (h : Dev.fate s = x) : Dev.fate (Dev.twIrq s t) = x := by
  unfold Dev.twIrq
  repeat' first
    | with_reducible assumption
    | intro _
    | extract_lets
    | with_reducible apply fate_ite
    | with_reducible apply Dev.irqRegion_fate
    | (split
       all_goals try (rename_i heq
                      have h2 := congrArg Prod.snd heq
                      have h1 := congrArg Prod.fst heq
                      dsimp only at h1 h2
                      subst h1 h2
                      clear heq))
    | dsimp only [Lock.count]
    | dsimp +zetaDelta only

theorem Dev.twEnd_fate {x : Nat → Region} (s : Dev) (t : Nat) (n : Nat) (result : Nat) (byLock : Bool)
    (h : Dev.fate s = x) : Dev.fate (Dev.twEnd s t n result byLock) = x := by
  unfold Dev.twEnd
  repeat' first
    | with_reducible assumption
    | intro _
    | extract_lets
    | with_reducible apply fate_ite
    | with_reducible apply Dev.twIrq_fate
    | with_reducible apply Dev.twEvent_fate
    | with_reducible apply Dev.setTow_fate
    | (split
       all_goals try (rename_i heq
                      have h2 := congrArg Prod.snd heq
                      have h1 := congrArg Prod.fst heq
                      dsimp only at h1 h2
                      subst h1 h2
                      clear heq))
    | dsimp only [Lock.count]
    | dsimp +zetaDelta only

theorem Dev.pendReg_fate {x : Nat → Region} (s : Dev) (off : Nat) (v : Word) (mask : Word)
    (h : Dev.fate s = x) : Dev.fate (Dev.pendReg s off v mask) = x := by
  unfold Dev.pendReg
  repeat' first
    | with_reducible assumption
    | intro _
    | extract_lets
    | with_reducible apply fate_ite
    | (split
       all_goals try (rename_i heq
                      have h2 := congrArg Prod.snd heq
                      have h1 := congrArg Prod.fst heq
                      dsimp only at h1 h2
                      subst h1 h2
                      clear heq))
    | with_reducible apply Dev.fate_upd_regsPend
    | dsimp only [Lock.count]
    | dsimp +zetaDelta only

theorem Dev.releaseMoored_fate {x : Nat → Region} (s : Dev) (e : Nat) (n : Nat)
    (h : Dev.fate s = x) : Dev.fate (Dev.releaseMoored s e n).2 = x := by
  unfold Dev.releaseMoored
  repeat' first
    | with_reducible assumption
    | intro _
    | extract_lets
    | with_reducible apply fate_ite
    | with_reducible apply Dev.setBarge_fate
    | (split
       all_goals try (rename_i heq
                      have h2 := congrArg Prod.snd heq
                      have h1 := congrArg Prod.fst heq
                      dsimp only at h1 h2
                      subst h1 h2
                      clear heq))
    | dsimp only [Lock.count]
    | dsimp +zetaDelta only

theorem Dev.setLockTable_fate {x : Nat → Region} (s : Dev) (t : Nat) (v : LockTable)
    (h : Dev.fate s = x) : Dev.fate (Dev.setLockTable s t v) = x := by
  unfold Dev.setLockTable
  repeat' first
    | with_reducible assumption
    | intro _
    | extract_lets
    | with_reducible apply fate_ite
    | (split
       all_goals try (rename_i heq
                      have h2 := congrArg Prod.snd heq
                      have h1 := congrArg Prod.fst heq
                      dsimp only at h1 h2
                      subst h1 h2
                      clear heq))
    | with_reducible apply Dev.fate_upd_lk
    | dsimp only [Lock.count]
    | dsimp +zetaDelta only

theorem Dev.modLockTable_fate {x : Nat → Region} (s : Dev) (t : Nat) (f : LockTable → LockTable)
    (h : Dev.fate s = x) : Dev.fate (Dev.modLockTable s t f) = x := by
  unfold Dev.modLockTable
  repeat' first
    | with_reducible assumption
    | intro _
    | extract_lets
    | with_reducible apply fate_ite
    | with_reducible apply Dev.setLockTable_fate
    | (split
       all_goals try (rename_i heq
                      have h2 := congrArg Prod.snd heq
                      have h1 := congrArg Prod.fst heq
                      dsimp only at h1 h2
                      subst h1 h2
                      clear heq))
    | dsimp only [Lock.count]
    | dsimp +zetaDelta only

theorem Dev.lockLate_fate {x : Nat → Region} (s : Dev) (t : Nat) (e : LockEntry) (dropped : Bool) (removed : Bool) (missed : Nat)
    (h : Dev.fate s = x) : Dev.fate (Dev.lockLate s t e dropped removed missed) = x := by
  unfold Dev.lockLate
  repeat' first
    | with_reducible assumption
    | intro _
    | extract_lets
    | with_reducible apply fate_ite
    | with_reducible apply Dev.raiseIsland_fate
    | with_reducible apply Dev.raise_fate
    | (split
       all_goals try (rename_i heq
                      have h2 := congrArg Prod.snd heq
                      have h1 := congrArg Prod.fst heq
                      dsimp only at h1 h2
                      subst h1 h2
                      clear heq))
    | with_reducible apply Dev.fate_upd_lk
    | dsimp only [Lock.count]
    | dsimp +zetaDelta only

theorem Dev.latchCell_fate {x : Nat → Region} (s : Dev) (c : Nat) (reason : Nat)
    (h : Dev.fate s = x) : Dev.fate (Dev.latchCell s c reason) = x := by
  unfold Dev.latchCell
  repeat' first
    | with_reducible assumption
    | intro _
    | extract_lets
    | with_reducible apply fate_ite
    | with_reducible apply Dev.occur_fate
    | with_reducible apply Dev.goto_fate
    | with_reducible apply Dev.raiseIsland_fate
    | (split
       all_goals try (rename_i heq
                      have h2 := congrArg Prod.snd heq
                      have h1 := congrArg Prod.fst heq
                      dsimp only at h1 h2
                      subst h1 h2
                      clear heq))
    | dsimp only [Lock.count]
    | dsimp +zetaDelta only

theorem Dev.evaluateRule_fate {x : Nat → Region} (s : Dev) (c : Nat)
    (h : Dev.fate s = x) : Dev.fate (Dev.evaluateRule s c) = x := by
  unfold Dev.evaluateRule
  repeat' first
    | with_reducible assumption
    | intro _
    | extract_lets
    | with_reducible apply fate_ite
    | with_reducible apply Dev.latchCell_fate
    | with_reducible apply Dev.cooldown_fate
    | with_reducible apply Dev.endHeldOn_fate
    | with_reducible apply Dev.modCell_fate
    | with_reducible apply Dev.raiseIsland_fate
    | (split
       all_goals try (rename_i heq
                      have h2 := congrArg Prod.snd heq
                      have h1 := congrArg Prod.fst heq
                      dsimp only at h1 h2
                      subst h1 h2
                      clear heq))
    | dsimp only [Lock.count]
    | dsimp +zetaDelta only

theorem Dev.chReset_fate {x : Nat → Region} (s : Dev) (c : Nat)
    (h : Dev.fate s = x) : Dev.fate (Dev.chReset s c).2 = x := by
  unfold Dev.chReset
  repeat' first
    | with_reducible assumption
    | intro _
    | extract_lets
    | with_reducible apply fate_ite
    | with_reducible apply Dev.autoNext_fate
    | with_reducible apply Dev.goto_fate
    | with_reducible apply Dev.modCell_fate
    | with_reducible apply Dev.latchedCheck_fate
    | (split
       all_goals try (rename_i heq
                      have h2 := congrArg Prod.snd heq
                      have h1 := congrArg Prod.fst heq
                      dsimp only at h1 h2
                      subst h1 h2
                      clear heq))
    | dsimp only [Lock.count]
    | dsimp +zetaDelta only

theorem Dev.lockPut_fate {x : Nat → Region} (s : Dev) (t : Nat) (e : LockEntry)
    (h : Dev.fate s = x) : Dev.fate (Dev.lockPut s t e) = x := by
  unfold Dev.lockPut
  repeat' first
    | with_reducible assumption
    | intro _
    | extract_lets
    | with_reducible apply fate_ite
    | with_reducible apply Dev.modLockTable_fate
    | (split
       all_goals try (rename_i heq
                      have h2 := congrArg Prod.snd heq
                      have h1 := congrArg Prod.fst heq
                      dsimp only at h1 h2
                      subst h1 h2
                      clear heq))
    | dsimp only [Lock.count]
    | dsimp +zetaDelta only

theorem Dev.commitSlice_fate {x : Nat → Region} (s : Dev) (k : Nat)
    (h : Dev.fate s = x) : Dev.fate (Dev.commitSlice s k) = x := by
  unfold Dev.commitSlice
  repeat' first
    | with_reducible assumption
    | intro _
    | extract_lets
    | with_reducible apply fate_ite
    | with_reducible apply Dev.modSlice_fate
    | (split
       all_goals try (rename_i heq
                      have h2 := congrArg Prod.snd heq
                      have h1 := congrArg Prod.fst heq
                      dsimp only at h1 h2
                      subst h1 h2
                      clear heq))
    | dsimp only [Lock.count]
    | dsimp +zetaDelta only

theorem Dev.abortVin_fate {x : Nat → Region} (s : Dev) (b : Nat) (clocks : Nat)
    (h : Dev.fate s = x) : Dev.fate (Dev.abortVin s b clocks) = x := by
  unfold Dev.abortVin
  repeat' first
    | with_reducible assumption
    | intro _
    | extract_lets
    | with_reducible apply fate_ite
    | with_reducible apply Dev.modConv_fate
    | (split
       all_goals try (rename_i heq
                      have h2 := congrArg Prod.snd heq
                      have h1 := congrArg Prod.fst heq
                      dsimp only at h1 h2
                      subst h1 h2
                      clear heq))
    | dsimp only [Lock.count]
    | dsimp +zetaDelta only

theorem Dev.restartWindows_fate {x : Nat → Region} (s : Dev) (b : Nat)
    (h : Dev.fate s = x) : Dev.fate (Dev.restartWindows s b) = x := by
  unfold Dev.restartWindows
  repeat' first
    | with_reducible assumption
    | intro _
    | extract_lets
    | with_reducible apply fate_ite
    | with_reducible apply Dev.abortVin_fate
    | with_reducible apply Dev.drawNat_fate
    | with_reducible apply Dev.abortWindow_fate
    | with_reducible apply Dev.forEach_fate
    | (split
       all_goals try (rename_i heq
                      have h2 := congrArg Prod.snd heq
                      have h1 := congrArg Prod.fst heq
                      dsimp only at h1 h2
                      subst h1 h2
                      clear heq))
    | dsimp only [Lock.count]
    | dsimp +zetaDelta only

theorem Dev.commitBits_fate {x : Nat → Region} (s : Dev) (off : Nat) (mask : Word)
    (h : Dev.fate s = x) : Dev.fate (Dev.commitBits s off mask) = x := by
  unfold Dev.commitBits
  repeat' first
    | with_reducible assumption
    | intro _
    | extract_lets
    | with_reducible apply fate_ite
    | with_reducible apply Dev.setReg_fate
    | (split
       all_goals try (rename_i heq
                      have h2 := congrArg Prod.snd heq
                      have h1 := congrArg Prod.fst heq
                      dsimp only at h1 h2
                      subst h1 h2
                      clear heq))
    | with_reducible apply Dev.fate_upd_regsPend
    | dsimp only [Lock.count]
    | dsimp +zetaDelta only

theorem Dev.commitOsr_fate {x : Nat → Region} (s : Dev) (b : Nat)
    (h : Dev.fate s = x) : Dev.fate (Dev.commitOsr s b) = x := by
  unfold Dev.commitOsr
  repeat' first
    | with_reducible assumption
    | intro _
    | extract_lets
    | with_reducible apply fate_ite
    | with_reducible apply Dev.commitBits_fate
    | with_reducible apply Dev.modConv_fate
    | with_reducible apply Dev.modLane_fate
    | with_reducible apply Dev.forEach_fate
    | (split
       all_goals try (rename_i heq
                      have h2 := congrArg Prod.snd heq
                      have h1 := congrArg Prod.fst heq
                      dsimp only at h1 h2
                      subst h1 h2
                      clear heq))
    | dsimp only [Lock.count]
    | dsimp +zetaDelta only

theorem Dev.commitBlock_fate {x : Nat → Region} (s : Dev) (b : Nat)
    (h : Dev.fate s = x) : Dev.fate (Dev.commitBlock s b) = x := by
  unfold Dev.commitBlock
  repeat' first
    | with_reducible assumption
    | intro _
    | extract_lets
    | with_reducible apply fate_ite
    | with_reducible apply Dev.commitOsr_fate
    | with_reducible apply Dev.commitBits_fate
    | with_reducible apply Dev.restartWindows_fate
    | with_reducible apply Dev.commitReg_fate
    | (split
       all_goals try (rename_i heq
                      have h2 := congrArg Prod.snd heq
                      have h1 := congrArg Prod.fst heq
                      dsimp only at h1 h2
                      subst h1 h2
                      clear heq))
    | dsimp only [Lock.count]
    | dsimp +zetaDelta only

theorem Dev.lockCommit_fate {x : Nat → Region} (s : Dev) (t : Nat) (e : LockEntry)
    (h : Dev.fate s = x) : Dev.fate (Dev.lockCommit s t e) = x := by
  unfold Dev.lockCommit
  repeat' first
    | with_reducible assumption
    | intro _
    | extract_lets
    | with_reducible apply fate_ite
    | with_reducible apply Dev.commitBlock_fate
    | with_reducible apply Dev.commitSlice_fate
    | with_reducible apply Dev.commitReg_fate
    | with_reducible apply Dev.commitProf_fate
    | with_reducible apply Dev.forEach_fate
    | (split
       all_goals try (rename_i heq
                      have h2 := congrArg Prod.snd heq
                      have h1 := congrArg Prod.fst heq
                      dsimp only at h1 h2
                      subst h1 h2
                      clear heq))
    | dsimp only [Lock.count]
    | dsimp +zetaDelta only

theorem Dev.basinFreeze_fate {x : Nat → Region} (s : Dev) (post : Nat) (tag : Nat) (time : Nat)
    (h : Dev.fate s = x) : Dev.fate (Dev.basinFreeze s post tag time) = x := by
  unfold Dev.basinFreeze
  repeat' first
    | with_reducible assumption
    | intro _
    | extract_lets
    | with_reducible apply fate_ite
    | with_reducible apply Dev.bzTrigger_fate
    | (split
       all_goals try (rename_i heq
                      have h2 := congrArg Prod.snd heq
                      have h1 := congrArg Prod.fst heq
                      dsimp only at h1 h2
                      subst h1 h2
                      clear heq))
    | dsimp only [Lock.count]
    | dsimp +zetaDelta only

theorem Dev.basinMark_fate {x : Nat → Region} (s : Dev) (code : Nat) (tag : Nat) (time : Nat)
    (h : Dev.fate s = x) : Dev.fate (Dev.basinMark s code tag time) = x := by
  unfold Dev.basinMark
  repeat' first
    | with_reducible assumption
    | intro _
    | extract_lets
    | with_reducible apply fate_ite
    | with_reducible apply Dev.bzMark_fate
    | (split
       all_goals try (rename_i heq
                      have h2 := congrArg Prod.snd heq
                      have h1 := congrArg Prod.fst heq
                      dsimp only at h1 h2
                      subst h1 h2
                      clear heq))
    | dsimp only [Lock.count]
    | dsimp +zetaDelta only

theorem Dev.lockChip_fate {x : Nat → Region} (s : Dev) (e : LockEntry)
    (h : Dev.fate s = x) : Dev.fate (Dev.lockChip s e) = x := by
  unfold Dev.lockChip
  repeat' first
    | with_reducible assumption
    | intro _
    | extract_lets
    | with_reducible apply fate_ite
    | with_reducible apply Dev.basinMark_fate
    | with_reducible apply Dev.basinFreeze_fate
    | with_reducible apply Dev.bzFull_fate
    | with_reducible apply Dev.emit_fate
    | (split
       all_goals try (rename_i heq
                      have h2 := congrArg Prod.snd heq
                      have h1 := congrArg Prod.fst heq
                      dsimp only at h1 h2
                      subst h1 h2
                      clear heq))
    | with_reducible apply Dev.fate_upd_tb
    | dsimp only [Lock.count]
    | dsimp +zetaDelta only

theorem Dev.lockHalt_fate {x : Nat → Region} (s : Dev) (e : Nat)
    (h : Dev.fate s = x) : Dev.fate (Dev.lockHalt s e).2 = x := by
  unfold Dev.lockHalt
  repeat' first
    | with_reducible assumption
    | intro _
    | extract_lets
    | with_reducible apply fate_ite
    | with_reducible apply Dev.haltBarge_fate
    | (split
       all_goals try (rename_i heq
                      have h2 := congrArg Prod.snd heq
                      have h1 := congrArg Prod.fst heq
                      dsimp only at h1 h2
                      subst h1 h2
                      clear heq))
    | dsimp only [Lock.count]
    | dsimp +zetaDelta only

theorem Dev.twStart_fate {x : Nat → Region} (s : Dev) (t : Nat) (n : Nat) (byLock : Bool)
    (h : Dev.fate s = x) : Dev.fate (Dev.twStart s t n byLock) = x := by
  unfold Dev.twStart
  repeat' first
    | with_reducible assumption
    | intro _
    | extract_lets
    | with_reducible apply fate_ite
    | with_reducible apply Dev.twEnd_fate
    | with_reducible apply Dev.modTow_fate
    | with_reducible apply Dev.setTow_fate
    | (split
       all_goals try (rename_i heq
                      have h2 := congrArg Prod.snd heq
                      have h1 := congrArg Prod.fst heq
                      dsimp only at h1 h2
                      subst h1 h2
                      clear heq))
    | dsimp only [Lock.count]
    | dsimp +zetaDelta only

theorem Dev.towStart_fate {x : Nat → Region} (s : Dev) (t : Nat) (n : Nat) (byLock : Bool)
    (h : Dev.fate s = x) : Dev.fate (Dev.towStart s t n byLock).2 = x := by
  unfold Dev.towStart
  repeat' first
    | with_reducible assumption
    | intro _
    | extract_lets
    | with_reducible apply fate_ite
    | with_reducible apply Dev.twStart_fate
    | (split
       all_goals try (rename_i heq
                      have h2 := congrArg Prod.snd heq
                      have h1 := congrArg Prod.fst heq
                      dsimp only at h1 h2
                      subst h1 h2
                      clear heq))
    | dsimp only [Lock.count]
    | dsimp +zetaDelta only

theorem Dev.sliceSetpoint_fate {x : Nat → Region} (s : Dev) (k : Nat) (v : Nat)
    (h : Dev.fate s = x) : Dev.fate (Dev.sliceSetpoint s k v) = x := by
  unfold Dev.sliceSetpoint
  repeat' first
    | with_reducible assumption
    | intro _
    | extract_lets
    | with_reducible apply fate_ite
    | with_reducible apply Dev.pendReg_fate
    | with_reducible apply Dev.modSlice_fate
    | with_reducible apply Dev.commitReg_fate
    | (split
       all_goals try (rename_i heq
                      have h2 := congrArg Prod.snd heq
                      have h1 := congrArg Prod.fst heq
                      dsimp only at h1 h2
                      subst h1 h2
                      clear heq))
    | dsimp only [Lock.count]
    | dsimp +zetaDelta only

theorem Dev.auxUrgent_fate {x : Nat → Region} (s : Dev) (g : Nat) (a : Nat)
    (h : Dev.fate s = x) : Dev.fate (Dev.auxUrgent s g a) = x := by
  unfold Dev.auxUrgent
  repeat' first
    | with_reducible assumption
    | intro _
    | extract_lets
    | with_reducible apply fate_ite
    | with_reducible apply Dev.setAux_fate
    | (split
       all_goals try (rename_i heq
                      have h2 := congrArg Prod.snd heq
                      have h1 := congrArg Prod.fst heq
                      dsimp only at h1 h2
                      subst h1 h2
                      clear heq))
    | dsimp only [Lock.count]
    | dsimp +zetaDelta only

theorem Dev.chOff_fate {x : Nat → Region} (s : Dev) (c : Nat)
    (h : Dev.fate s = x) : Dev.fate (Dev.chOff s c).2 = x := by
  unfold Dev.chOff
  repeat' first
    | with_reducible assumption
    | intro _
    | extract_lets
    | with_reducible apply fate_ite
    | with_reducible apply Dev.autoNext_fate
    | with_reducible apply Dev.goto_fate
    | with_reducible apply Dev.modCell_fate
    | (split
       all_goals try (rename_i heq
                      have h2 := congrArg Prod.snd heq
                      have h1 := congrArg Prod.fst heq
                      dsimp only at h1 h2
                      subst h1 h2
                      clear heq))
    | dsimp only [Lock.count]
    | dsimp +zetaDelta only

theorem Dev.lockAct_fate {x : Nat → Region} (s : Dev) (e : LockEntry) (n : Nat)
    (h : Dev.fate s = x) : Dev.fate (Dev.lockAct s e n).2 = x := by
  unfold Dev.lockAct
  repeat' first
    | with_reducible assumption
    | intro _
    | extract_lets
    | with_reducible apply fate_ite
    | with_reducible apply Dev.chOff_fate
    | with_reducible apply Dev.auxUrgent_fate
    | with_reducible apply Dev.sliceSetpoint_fate
    | with_reducible apply Dev.towStart_fate
    | with_reducible apply Dev.lockHalt_fate
    | with_reducible apply Dev.restartWindows_fate
    | with_reducible apply Dev.chReset_fate
    | with_reducible apply Dev.releaseMoored_fate
    | with_reducible apply Dev.chOn_fate
    | with_reducible apply Dev.extUpdate_fate
    | (with_reducible apply Dev.modRegion_fate
       · intro r; first | rfl | (split <;> rfl) | (split <;> split <;> rfl))
    | (split
       all_goals try (rename_i heq
                      have h2 := congrArg Prod.snd heq
                      have h1 := congrArg Prod.fst heq
                      dsimp only at h1 h2
                      subst h1 h2
                      clear heq))
    | dsimp only [Lock.count]
    | dsimp +zetaDelta only

theorem Dev.lockFireOne_fate {x : Nat → Region} (s : Dev) (t : Nat) (e : LockEntry) (late : Bool)
    (h : Dev.fate s = x) : Dev.fate (Dev.lockFireOne s t e late) = x := by
  unfold Dev.lockFireOne
  repeat' first
    | with_reducible assumption
    | intro _
    | extract_lets
    | with_reducible apply fate_ite
    | with_reducible apply Dev.lockAct_fate
    | with_reducible apply Dev.lockChip_fate
    | with_reducible apply Dev.raiseIsland_fate
    | with_reducible apply Dev.raise_fate
    | with_reducible apply fate_foldl
    | with_reducible apply fate_foldl3
    | (split
       all_goals try (rename_i heq
                      have h2 := congrArg Prod.snd heq
                      have h1 := congrArg Prod.fst heq
                      dsimp only at h1 h2
                      subst h1 h2
                      clear heq))
    | with_reducible apply Dev.fate_upd_lk
    | dsimp only [Lock.count]
    | dsimp +zetaDelta only

theorem Dev.lockLateCopy_fate {x : Nat → Region} (s : Dev) (t : Nat) (e : LockEntry)
    (h : Dev.fate s = x) : Dev.fate (Dev.lockLateCopy s t e) = x := by
  unfold Dev.lockLateCopy
  repeat' first
    | with_reducible assumption
    | intro _
    | extract_lets
    | with_reducible apply fate_ite
    | with_reducible apply Dev.lockFireOne_fate
    | with_reducible apply Dev.lockCommit_fate
    | with_reducible apply Dev.lockPut_fate
    | with_reducible apply Dev.lockLate_fate
    | (split
       all_goals try (rename_i heq
                      have h2 := congrArg Prod.snd heq
                      have h1 := congrArg Prod.fst heq
                      dsimp only at h1 h2
                      subst h1 h2
                      clear heq))
    | dsimp only [Lock.count]
    | dsimp +zetaDelta only

theorem Dev.precheckDone_fate {x : Nat → Region} (s : Dev) (c : Nat)
    (h : Dev.fate s = x) : Dev.fate (Dev.precheckDone s c) = x := by
  unfold Dev.precheckDone
  repeat' first
    | with_reducible assumption
    | intro _
    | extract_lets
    | with_reducible apply fate_ite
    | with_reducible apply Dev.goto_fate
    | (split
       all_goals try (rename_i heq
                      have h2 := congrArg Prod.snd heq
                      have h1 := congrArg Prod.fst heq
                      dsimp only at h1 h2
                      subst h1 h2
                      clear heq))
    | dsimp only [Lock.count]
    | dsimp +zetaDelta only

theorem Dev.cellRejoin_fate {x : Nat → Region} (s : Dev) (c : Nat)
    (h : Dev.fate s = x) : Dev.fate (Dev.cellRejoin s c) = x := by
  unfold Dev.cellRejoin
  repeat' first
    | with_reducible assumption
    | intro _
    | extract_lets
    | with_reducible apply fate_ite
    | with_reducible apply Dev.precheckDone_fate
    | with_reducible apply Dev.goto_fate
    | with_reducible apply Dev.modCell_fate
    | (split
       all_goals try (rename_i heq
                      have h2 := congrArg Prod.snd heq
                      have h1 := congrArg Prod.fst heq
                      dsimp only at h1 h2
                      subst h1 h2
                      clear heq))
    | dsimp only [Lock.count]
    | dsimp +zetaDelta only

theorem Dev.lockInsert_fate {x : Nat → Region} (s : Dev) (t : Nat)
    (h : Dev.fate s = x) : Dev.fate (Dev.lockInsert s t) = x := by
  unfold Dev.lockInsert
  repeat' first
    | with_reducible assumption
    | intro _
    | extract_lets
    | with_reducible apply fate_ite
    | with_reducible apply Dev.lockLateCopy_fate
    | with_reducible apply Dev.lockPut_fate
    | with_reducible apply Dev.modLockTable_fate
    | with_reducible apply Dev.raise_fate
    | (split
       all_goals try (rename_i heq
                      have h2 := congrArg Prod.snd heq
                      have h1 := congrArg Prod.fst heq
                      dsimp only at h1 h2
                      subst h1 h2
                      clear heq))
    | with_reducible apply Dev.fate_upd_lk
    | dsimp only [Lock.count]
    | dsimp +zetaDelta only

theorem Dev.lockRejoin_fate {x : Nat → Region} (s : Dev) (g : Nat)
    (h : Dev.fate s = x) : Dev.fate (Dev.lockRejoin s g) = x := by
  unfold Dev.lockRejoin
  repeat' first
    | with_reducible assumption
    | intro _
    | extract_lets
    | with_reducible apply fate_ite
    | with_reducible apply Dev.lockInsert_fate
    | with_reducible apply Dev.setLockTable_fate
    | with_reducible apply Dev.forEach_fate
    | (split
       all_goals try (rename_i heq
                      have h2 := congrArg Prod.snd heq
                      have h1 := congrArg Prod.fst heq
                      dsimp only at h1 h2
                      subst h1 h2
                      clear heq))
    | with_reducible apply Dev.fate_upd_lk
    | dsimp only [Lock.count]
    | dsimp +zetaDelta only

theorem Dev.thawSluice_fate {x : Nat → Region} (s : Dev) (g : Nat)
    (h : Dev.fate s = x) : Dev.fate (Dev.thawSluice s g) = x := by
  unfold Dev.thawSluice
  repeat' first
    | with_reducible assumption
    | intro _
    | extract_lets
    | with_reducible apply fate_ite
    | (with_reducible apply Dev.modRegion_fate
       · intro r; first | rfl | (split <;> rfl) | (split <;> split <;> rfl))
    | (split
       all_goals try (rename_i heq
                      have h2 := congrArg Prod.snd heq
                      have h1 := congrArg Prod.fst heq
                      dsimp only at h1 h2
                      subst h1 h2
                      clear heq))
    | with_reducible apply Dev.fate_upd_sluice_slMsgs_grants
    | dsimp only [Lock.count]
    | dsimp +zetaDelta only

theorem Dev.rejoinEvent_fate {x : Nat → Region} (s : Dev) (g : Nat)
    (h : Dev.fate s = x) : Dev.fate (Dev.rejoinEvent s g) = x := by
  unfold Dev.rejoinEvent
  repeat' first
    | with_reducible assumption
    | intro _
    | extract_lets
    | with_reducible apply fate_ite
    | with_reducible apply Dev.drawNat_fate
    | with_reducible apply Dev.raise_fate
    | (split
       all_goals try (rename_i heq
                      have h2 := congrArg Prod.snd heq
                      have h1 := congrArg Prod.fst heq
                      dsimp only at h1 h2
                      subst h1 h2
                      clear heq))
    | dsimp only [Lock.count]
    | dsimp +zetaDelta only

theorem Dev.slicesLost_fate {x : Nat → Region} (s : Dev) (g : Nat)
    (h : Dev.fate s = x) : Dev.fate (Dev.slicesLost s g) = x := by
  unfold Dev.slicesLost
  repeat' first
    | with_reducible assumption
    | intro _
    | extract_lets
    | with_reducible apply fate_ite
    | with_reducible apply Dev.lossAction_fate
    | with_reducible apply Dev.modSlice_fate
    | with_reducible apply Dev.forEach_fate
    | (split
       all_goals try (rename_i heq
                      have h2 := congrArg Prod.snd heq
                      have h1 := congrArg Prod.fst heq
                      dsimp only at h1 h2
                      subst h1 h2
                      clear heq))
    | dsimp only [Lock.count]
    | dsimp +zetaDelta only

theorem Dev.lossApplied_fate {x : Nat → Region} (s : Dev) (g : Nat)
    (h : Dev.fate s = x) : Dev.fate (Dev.lossApplied s g) = x := by
  unfold Dev.lossApplied
  repeat' first
    | with_reducible assumption
    | intro _
    | extract_lets
    | with_reducible apply fate_ite
    | with_reducible apply Dev.slicesLost_fate
    | with_reducible apply Dev.occur_fate
    | with_reducible apply Dev.forEach_fate
    | (split
       all_goals try (rename_i heq
                      have h2 := congrArg Prod.snd heq
                      have h1 := congrArg Prod.fst heq
                      dsimp only at h1 h2
                      subst h1 h2
                      clear heq))
    | dsimp only [Lock.count]
    | dsimp +zetaDelta only

end Sys2Proof.Machine
end

