-- ==== Sys2Proof/Laws/Memory.lean ====
section
/-! SUPPORT. The memories of bytes: every operation over them keeps the canonical form, a write leaves every other byte alone,
and the memories of the reset state are canonical. -/

namespace Sys2Proof.Machine

theorem Sparse.wf_erase {α : Type} [DecidableEq α] (d : Nat → α) (m : Sparse α) (k : Nat) (h : Sparse.wf d m = true) :
    Sparse.wf d (Sparse.erase m k) = true := by
  rw [Sparse.erase_eq_filter]; exact Sparse.wf_filter d m _ h

theorem Sparse.wf_modify {α : Type} [DecidableEq α] (d : Nat → α) (m : Sparse α) (k : Nat) (f : α → α)
    (h : Sparse.wf d m = true) : Sparse.wf d (Sparse.modify d m k f) = true := Sparse.wf_set d m k _ h

theorem Sparse.mapv_mem {α : Type} [DecidableEq α] (d : Nat → α) (f : Nat → α → α) (m : Sparse α) :
    ∀ p ∈ Sparse.mapv d f m, p.2 ≠ d p.1 ∧ p.1 ∈ m.map Prod.fst := by
  induction m with
  | nil => simp [Sparse.mapv]
  | cons q m ih =>
    obtain ⟨i, w⟩ := q
    intro p hp
    simp only [Sparse.mapv] at hp
    split at hp
    · obtain ⟨_, hp⟩ := Sparse.erase_keys _ _ p hp
      exact ⟨(ih p hp).1, List.mem_cons_of_mem _ (ih p hp).2⟩
    · rename_i h
      rcases List.mem_cons.1 hp with rfl | hp
      · exact ⟨h, by simp⟩
      · exact ⟨(ih p hp).1, List.mem_cons_of_mem _ (ih p hp).2⟩

/-- A change of every listed value keeps the canonical form. -/
theorem Sparse.wf_mapv {α : Type} [DecidableEq α] (d : Nat → α) (f : Nat → α → α) (m : Sparse α)
    (h : Sparse.wf d m = true) : Sparse.wf d (Sparse.mapv d f m) = true := by
  rw [Sparse.wf_iff] at h ⊢
  refine ⟨?_, fun p hp => (Sparse.mapv_mem d f m p hp).1⟩
  have hs := h.1
  clear h
  induction m with
  | nil => simp [Sparse.mapv]
  | cons q m ih =>
    obtain ⟨i, w⟩ := q
    rw [List.map_cons, List.pairwise_cons] at hs
    simp only [Sparse.mapv]
    split
    · rw [Sparse.erase_eq_filter]
      exact (ih hs.2).sublist ((List.filter_sublist).map _)
    · rw [List.map_cons, List.pairwise_cons]
      refine ⟨?_, ih hs.2⟩
      intro x hx
      obtain ⟨p, hp, rfl⟩ := List.mem_map.1 hx
      exact hs.1 _ (Sparse.mapv_mem d f m p hp).2

/-- A write of `n` bytes keeps the canonical form. -/
theorem Mem.write_wf (d : Byte) (m : Sparse Byte) (a n v : Nat) (h : Memory.wf d m = true) :
    Memory.wf d (Mem.write d m a n v) = true := by
  induction n generalizing m a v with
  | zero => simpa [Mem.write] using h
  | succ n ih => simp only [Mem.write]; exact ih _ _ _ (Sparse.wf_set _ _ _ _ h)

/-- A write of `n` bytes leaves every byte outside them alone. -/
theorem Mem.get_write_outside (d : Byte) (m : Sparse Byte) (a n v b : Nat) (hb : b < a ∨ a + n ≤ b) :
    Sparse.get (fun _ => d) (Mem.write d m a n v) b = Sparse.get (fun _ => d) m b := by
  induction n generalizing m a v with
  | zero => simp [Mem.write]
  | succ n ih =>
    simp only [Mem.write]
    rw [ih _ _ _ (by omega), Sparse.get_set_ne _ _ _ _ _ (by omega)]

/-- The patches of `sync.i` keep the canonical form of IRAM. -/
theorem Barge.applyPatches_wf (m : Sparse Byte) (l : List StoreEnt) (h : Memory.wf 0 m = true) :
    Memory.wf 0 (Barge.applyPatches m l) = true := by
  induction l generalizing m with
  | nil => simpa [Barge.applyPatches] using h
  | cons p l ih => simp only [Barge.applyPatches]; exact ih _ (Mem.write_wf _ _ _ _ _ h)

/-- An erase of flash keeps the canonical form. -/
theorem Dev.flashErase_wf (s : Dev) (phys n : Nat) (h : Memory.wf 0xFF s.flash = true) :
    Memory.wf 0xFF (s.flashErase phys n).flash = true := Sparse.wf_filter _ _ _ h

theorem Flash.foldl_wf (l : List Byte) (p : Nat × Sparse Byte) (h : Memory.wf 0xFF p.2 = true) :
    Memory.wf 0xFF (l.foldl (fun (p : Nat × Sparse Byte) b => (p.1 + 1, Sparse.set (fun _ => 0xFF) p.2 p.1 b)) p).2 = true := by
  induction l generalizing p with
  | nil => simpa using h
  | cons b l ih => exact ih _ (Sparse.wf_set _ _ _ _ h)

/-- Programming flash keeps the canonical form. -/
theorem Dev.flashWrite_wf (s : Dev) (phys : Nat) (l : List Byte) (h : Memory.wf 0xFF s.flash = true) :
    Memory.wf 0xFF (s.flashWrite phys l).flash = true := Flash.foldl_wf l (phys, s.flash) h

/-- A store of a barge keeps the canonical form of the shared memories. -/
theorem Dev.memStore_wf (s : Dev) (e a n v : Nat) (h : s.memWf) : (s.memStore e a n v).memWf := by
  obtain ⟨h1, h2, h3⟩ := h
  unfold Dev.memStore
  split
  · exact ⟨h1, h2, h3⟩
  · exact ⟨h1, h2, h3⟩
  · exact ⟨h1, Mem.write_wf _ _ _ _ _ h2, h3⟩
  · exact ⟨Mem.write_wf _ _ _ _ _ h1, h2, h3⟩
  · exact ⟨h1, h2, h3⟩

/-- The memories of the reset state are canonical. -/
theorem State.reset_memWf : State.reset.dev.memWf := ⟨rfl, rfl, rfl⟩

end Sys2Proof.Machine
end

