-- ==== Sys2Proof/Laws/State.lean ====
section
/-! SUPPORT. What each update of the device changes and what it leaves, one lemma a field, true by definition. -/

namespace Sys2Proof.Machine

variable (s : Dev)

/-! ### setCell -/

@[simp] theorem Dev.setCell_freeCount (c : Nat) (v : Cell) : (s.setCell c v).freeCount = s.freeCount := rfl
@[simp] theorem Dev.setCell_ticks (c : Nat) (v : Cell) : (s.setCell c v).ticks = s.ticks := rfl
@[simp] theorem Dev.setCell_tbTime (c : Nat) (v : Cell) : (s.setCell c v).tbTime = s.tbTime := rfl
@[simp] theorem Dev.setCell_tb (c : Nat) (v : Cell) : (s.setCell c v).tb = s.tb := rfl
@[simp] theorem Dev.setCell_linkA (c : Nat) (v : Cell) : (s.setCell c v).linkA = s.linkA := rfl
@[simp] theorem Dev.setCell_linkB (c : Nat) (v : Cell) : (s.setCell c v).linkB = s.linkB := rfl
@[simp] theorem Dev.setCell_ring (c : Nat) (v : Cell) : (s.setCell c v).ring = s.ring := rfl
@[simp] theorem Dev.setCell_replicas (c : Nat) (v : Cell) : (s.setCell c v).replicas = s.replicas := rfl
@[simp] theorem Dev.setCell_lk (c : Nat) (v : Cell) : (s.setCell c v).lk = s.lk := rfl
@[simp] theorem Dev.setCell_blocks (c : Nat) (v : Cell) : (s.setCell c v).blocks = s.blocks := rfl
@[simp] theorem Dev.setCell_regions (c : Nat) (v : Cell) : (s.setCell c v).regions = s.regions := rfl
@[simp] theorem Dev.setCell_barges (c : Nat) (v : Cell) : (s.setCell c v).barges = s.barges := rfl
@[simp] theorem Dev.setCell_sram (c : Nat) (v : Cell) : (s.setCell c v).sram = s.sram := rfl
@[simp] theorem Dev.setCell_rram (c : Nat) (v : Cell) : (s.setCell c v).rram = s.rram := rfl
@[simp] theorem Dev.setCell_flash (c : Nat) (v : Cell) : (s.setCell c v).flash = s.flash := rfl
@[simp] theorem Dev.setCell_rtSlot (c : Nat) (v : Cell) : (s.setCell c v).rtSlot = s.rtSlot := rfl
@[simp] theorem Dev.setCell_custSlot (c : Nat) (v : Cell) : (s.setCell c v).custSlot = s.custSlot := rfl
@[simp] theorem Dev.setCell_dbg (c : Nat) (v : Cell) : (s.setCell c v).dbg = s.dbg := rfl
@[simp] theorem Dev.setCell_tap (c : Nat) (v : Cell) : (s.setCell c v).tap = s.tap := rfl
@[simp] theorem Dev.setCell_nodes (c : Nat) (v : Cell) : (s.setCell c v).nodes = s.nodes := rfl
@[simp] theorem Dev.setCell_lvDone (c : Nat) (v : Cell) : (s.setCell c v).lvDone = s.lvDone := rfl
@[simp] theorem Dev.setCell_rgnFail (c : Nat) (v : Cell) : (s.setCell c v).rgnFail = s.rgnFail := rfl
@[simp] theorem Dev.setCell_badSize (c : Nat) (v : Cell) : (s.setCell c v).badSize = s.badSize := rfl
@[simp] theorem Dev.setCell_rsvdWrites (c : Nat) (v : Cell) : (s.setCell c v).rsvdWrites = s.rsvdWrites := rfl
@[simp] theorem Dev.setCell_slices (c : Nat) (v : Cell) : (s.setCell c v).slices = s.slices := rfl
@[simp] theorem Dev.setCell_sliceQ (c : Nat) (v : Cell) : (s.setCell c v).sliceQ = s.sliceQ := rfl
@[simp] theorem Dev.setCell_lanes (c : Nat) (v : Cell) : (s.setCell c v).lanes = s.lanes := rfl
@[simp] theorem Dev.setCell_convs (c : Nat) (v : Cell) : (s.setCell c v).convs = s.convs := rfl
@[simp] theorem Dev.setCell_auxs (c : Nat) (v : Cell) : (s.setCell c v).auxs = s.auxs := rfl
@[simp] theorem Dev.setCell_calSlots (c : Nat) (v : Cell) : (s.setCell c v).calSlots = s.calSlots := rfl
@[simp] theorem Dev.setCell_regs (c : Nat) (v : Cell) : (s.setCell c v).regs = s.regs := rfl
@[simp] theorem Dev.setCell_regsPend (c : Nat) (v : Cell) : (s.setCell c v).regsPend = s.regsPend := rfl
@[simp] theorem Dev.setCell_prof (c : Nat) (v : Cell) : (s.setCell c v).prof = s.prof := rfl
@[simp] theorem Dev.setCell_profPend (c : Nat) (v : Cell) : (s.setCell c v).profPend = s.profPend := rfl
@[simp] theorem Dev.setCell_colls (c : Nat) (v : Cell) : (s.setCell c v).colls = s.colls := rfl
@[simp] theorem Dev.setCell_err (c : Nat) (v : Cell) : (s.setCell c v).err = s.err := rfl
@[simp] theorem Dev.setCell_sluice (c : Nat) (v : Cell) : (s.setCell c v).sluice = s.sluice := rfl
@[simp] theorem Dev.setCell_slMsgs (c : Nat) (v : Cell) : (s.setCell c v).slMsgs = s.slMsgs := rfl
@[simp] theorem Dev.setCell_grants (c : Nat) (v : Cell) : (s.setCell c v).grants = s.grants := rfl
@[simp] theorem Dev.setCell_mirror (c : Nat) (v : Cell) : (s.setCell c v).mirror = s.mirror := rfl
@[simp] theorem Dev.setCell_mirrorStale (c : Nat) (v : Cell) : (s.setCell c v).mirrorStale = s.mirrorStale := rfl
@[simp] theorem Dev.setCell_fwdMem (c : Nat) (v : Cell) : (s.setCell c v).fwdMem = s.fwdMem := rfl
@[simp] theorem Dev.setCell_tripSeq (c : Nat) (v : Cell) : (s.setCell c v).tripSeq = s.tripSeq := rfl
@[simp] theorem Dev.setCell_ringPos (c : Nat) (v : Cell) : (s.setCell c v).ringPos = s.ringPos := rfl
@[simp] theorem Dev.setCell_hp (c : Nat) (v : Cell) : (s.setCell c v).hp = s.hp := rfl
@[simp] theorem Dev.setCell_ops (c : Nat) (v : Cell) : (s.setCell c v).ops = s.ops := rfl
@[simp] theorem Dev.setCell_opGen (c : Nat) (v : Cell) : (s.setCell c v).opGen = s.opGen := rfl
@[simp] theorem Dev.setCell_bz (c : Nat) (v : Cell) : (s.setCell c v).bz = s.bz := rfl
@[simp] theorem Dev.setCell_rv (c : Nat) (v : Cell) : (s.setCell c v).rv = s.rv := rfl
@[simp] theorem Dev.setCell_tows (c : Nat) (v : Cell) : (s.setCell c v).tows = s.tows := rfl
@[simp] theorem Dev.setCell_mg (c : Nat) (v : Cell) : (s.setCell c v).mg = s.mg := rfl
@[simp] theorem Dev.setCell_sv (c : Nat) (v : Cell) : (s.setCell c v).sv = s.sv := rfl
@[simp] theorem Dev.setCell_pwr (c : Nat) (v : Cell) : (s.setCell c v).pwr = s.pwr := rfl
@[simp] theorem Dev.setCell_evq (c : Nat) (v : Cell) : (s.setCell c v).evq = s.evq := rfl
@[simp] theorem Dev.setCell_complq (c : Nat) (v : Cell) : (s.setCell c v).complq = s.complq := rfl
@[simp] theorem Dev.setCell_laneWaits (c : Nat) (v : Cell) : (s.setCell c v).laneWaits = s.laneWaits := rfl
@[simp] theorem Dev.setCell_reports (c : Nat) (v : Cell) : (s.setCell c v).reports = s.reports := rfl
@[simp] theorem Dev.setCell_telq (c : Nat) (v : Cell) : (s.setCell c v).telq = s.telq := rfl
@[simp] theorem Dev.setCell_out (c : Nat) (v : Cell) : (s.setCell c v).out = s.out := rfl
theorem Dev.cell_setCell (c : Nat) (v : Cell) (j : Nat) : (s.setCell c v).cell j = if j = c then v else s.cell j :=
  Sparse.get_set _ _ _ _ _
@[simp] theorem Dev.cell_setCell_same (c : Nat) (v : Cell) : (s.setCell c v).cell c = v := Sparse.get_set_same _ _ _ _
theorem Dev.cell_setCell_ne (c : Nat) (v : Cell) (j : Nat) (h : j ≠ c) : (s.setCell c v).cell j = s.cell j :=
  Sparse.get_set_ne _ _ _ _ _ h
theorem Dev.modCell_eq (c : Nat) (f : Cell → Cell) : s.modCell c f = s.setCell c (f (s.cell c)) := rfl

/-! ### setBlock -/

@[simp] theorem Dev.setBlock_freeCount (b : Nat) (v : Block) : (s.setBlock b v).freeCount = s.freeCount := rfl
@[simp] theorem Dev.setBlock_ticks (b : Nat) (v : Block) : (s.setBlock b v).ticks = s.ticks := rfl
@[simp] theorem Dev.setBlock_tbTime (b : Nat) (v : Block) : (s.setBlock b v).tbTime = s.tbTime := rfl
@[simp] theorem Dev.setBlock_tb (b : Nat) (v : Block) : (s.setBlock b v).tb = s.tb := rfl
@[simp] theorem Dev.setBlock_linkA (b : Nat) (v : Block) : (s.setBlock b v).linkA = s.linkA := rfl
@[simp] theorem Dev.setBlock_linkB (b : Nat) (v : Block) : (s.setBlock b v).linkB = s.linkB := rfl
@[simp] theorem Dev.setBlock_ring (b : Nat) (v : Block) : (s.setBlock b v).ring = s.ring := rfl
@[simp] theorem Dev.setBlock_replicas (b : Nat) (v : Block) : (s.setBlock b v).replicas = s.replicas := rfl
@[simp] theorem Dev.setBlock_lk (b : Nat) (v : Block) : (s.setBlock b v).lk = s.lk := rfl
@[simp] theorem Dev.setBlock_cells (b : Nat) (v : Block) : (s.setBlock b v).cells = s.cells := rfl
@[simp] theorem Dev.setBlock_regions (b : Nat) (v : Block) : (s.setBlock b v).regions = s.regions := rfl
@[simp] theorem Dev.setBlock_barges (b : Nat) (v : Block) : (s.setBlock b v).barges = s.barges := rfl
@[simp] theorem Dev.setBlock_sram (b : Nat) (v : Block) : (s.setBlock b v).sram = s.sram := rfl
@[simp] theorem Dev.setBlock_rram (b : Nat) (v : Block) : (s.setBlock b v).rram = s.rram := rfl
@[simp] theorem Dev.setBlock_flash (b : Nat) (v : Block) : (s.setBlock b v).flash = s.flash := rfl
@[simp] theorem Dev.setBlock_rtSlot (b : Nat) (v : Block) : (s.setBlock b v).rtSlot = s.rtSlot := rfl
@[simp] theorem Dev.setBlock_custSlot (b : Nat) (v : Block) : (s.setBlock b v).custSlot = s.custSlot := rfl
@[simp] theorem Dev.setBlock_dbg (b : Nat) (v : Block) : (s.setBlock b v).dbg = s.dbg := rfl
@[simp] theorem Dev.setBlock_tap (b : Nat) (v : Block) : (s.setBlock b v).tap = s.tap := rfl
@[simp] theorem Dev.setBlock_nodes (b : Nat) (v : Block) : (s.setBlock b v).nodes = s.nodes := rfl
@[simp] theorem Dev.setBlock_lvDone (b : Nat) (v : Block) : (s.setBlock b v).lvDone = s.lvDone := rfl
@[simp] theorem Dev.setBlock_rgnFail (b : Nat) (v : Block) : (s.setBlock b v).rgnFail = s.rgnFail := rfl
@[simp] theorem Dev.setBlock_badSize (b : Nat) (v : Block) : (s.setBlock b v).badSize = s.badSize := rfl
@[simp] theorem Dev.setBlock_rsvdWrites (b : Nat) (v : Block) : (s.setBlock b v).rsvdWrites = s.rsvdWrites := rfl
@[simp] theorem Dev.setBlock_slices (b : Nat) (v : Block) : (s.setBlock b v).slices = s.slices := rfl
@[simp] theorem Dev.setBlock_sliceQ (b : Nat) (v : Block) : (s.setBlock b v).sliceQ = s.sliceQ := rfl
@[simp] theorem Dev.setBlock_lanes (b : Nat) (v : Block) : (s.setBlock b v).lanes = s.lanes := rfl
@[simp] theorem Dev.setBlock_convs (b : Nat) (v : Block) : (s.setBlock b v).convs = s.convs := rfl
@[simp] theorem Dev.setBlock_auxs (b : Nat) (v : Block) : (s.setBlock b v).auxs = s.auxs := rfl
@[simp] theorem Dev.setBlock_calSlots (b : Nat) (v : Block) : (s.setBlock b v).calSlots = s.calSlots := rfl
@[simp] theorem Dev.setBlock_regs (b : Nat) (v : Block) : (s.setBlock b v).regs = s.regs := rfl
@[simp] theorem Dev.setBlock_regsPend (b : Nat) (v : Block) : (s.setBlock b v).regsPend = s.regsPend := rfl
@[simp] theorem Dev.setBlock_prof (b : Nat) (v : Block) : (s.setBlock b v).prof = s.prof := rfl
@[simp] theorem Dev.setBlock_profPend (b : Nat) (v : Block) : (s.setBlock b v).profPend = s.profPend := rfl
@[simp] theorem Dev.setBlock_colls (b : Nat) (v : Block) : (s.setBlock b v).colls = s.colls := rfl
@[simp] theorem Dev.setBlock_err (b : Nat) (v : Block) : (s.setBlock b v).err = s.err := rfl
@[simp] theorem Dev.setBlock_sluice (b : Nat) (v : Block) : (s.setBlock b v).sluice = s.sluice := rfl
@[simp] theorem Dev.setBlock_slMsgs (b : Nat) (v : Block) : (s.setBlock b v).slMsgs = s.slMsgs := rfl
@[simp] theorem Dev.setBlock_grants (b : Nat) (v : Block) : (s.setBlock b v).grants = s.grants := rfl
@[simp] theorem Dev.setBlock_mirror (b : Nat) (v : Block) : (s.setBlock b v).mirror = s.mirror := rfl
@[simp] theorem Dev.setBlock_mirrorStale (b : Nat) (v : Block) : (s.setBlock b v).mirrorStale = s.mirrorStale := rfl
@[simp] theorem Dev.setBlock_fwdMem (b : Nat) (v : Block) : (s.setBlock b v).fwdMem = s.fwdMem := rfl
@[simp] theorem Dev.setBlock_tripSeq (b : Nat) (v : Block) : (s.setBlock b v).tripSeq = s.tripSeq := rfl
@[simp] theorem Dev.setBlock_ringPos (b : Nat) (v : Block) : (s.setBlock b v).ringPos = s.ringPos := rfl
@[simp] theorem Dev.setBlock_hp (b : Nat) (v : Block) : (s.setBlock b v).hp = s.hp := rfl
@[simp] theorem Dev.setBlock_ops (b : Nat) (v : Block) : (s.setBlock b v).ops = s.ops := rfl
@[simp] theorem Dev.setBlock_opGen (b : Nat) (v : Block) : (s.setBlock b v).opGen = s.opGen := rfl
@[simp] theorem Dev.setBlock_bz (b : Nat) (v : Block) : (s.setBlock b v).bz = s.bz := rfl
@[simp] theorem Dev.setBlock_rv (b : Nat) (v : Block) : (s.setBlock b v).rv = s.rv := rfl
@[simp] theorem Dev.setBlock_tows (b : Nat) (v : Block) : (s.setBlock b v).tows = s.tows := rfl
@[simp] theorem Dev.setBlock_mg (b : Nat) (v : Block) : (s.setBlock b v).mg = s.mg := rfl
@[simp] theorem Dev.setBlock_sv (b : Nat) (v : Block) : (s.setBlock b v).sv = s.sv := rfl
@[simp] theorem Dev.setBlock_pwr (b : Nat) (v : Block) : (s.setBlock b v).pwr = s.pwr := rfl
@[simp] theorem Dev.setBlock_evq (b : Nat) (v : Block) : (s.setBlock b v).evq = s.evq := rfl
@[simp] theorem Dev.setBlock_complq (b : Nat) (v : Block) : (s.setBlock b v).complq = s.complq := rfl
@[simp] theorem Dev.setBlock_laneWaits (b : Nat) (v : Block) : (s.setBlock b v).laneWaits = s.laneWaits := rfl
@[simp] theorem Dev.setBlock_reports (b : Nat) (v : Block) : (s.setBlock b v).reports = s.reports := rfl
@[simp] theorem Dev.setBlock_telq (b : Nat) (v : Block) : (s.setBlock b v).telq = s.telq := rfl
@[simp] theorem Dev.setBlock_out (b : Nat) (v : Block) : (s.setBlock b v).out = s.out := rfl
theorem Dev.block_setBlock (b : Nat) (v : Block) (j : Nat) : (s.setBlock b v).block j = if j = b then v else s.block j :=
  Sparse.get_set _ _ _ _ _
@[simp] theorem Dev.block_setBlock_same (b : Nat) (v : Block) : (s.setBlock b v).block b = v := Sparse.get_set_same _ _ _ _
theorem Dev.block_setBlock_ne (b : Nat) (v : Block) (j : Nat) (h : j ≠ b) : (s.setBlock b v).block j = s.block j :=
  Sparse.get_set_ne _ _ _ _ _ h
theorem Dev.modBlock_eq (b : Nat) (f : Block → Block) : s.modBlock b f = s.setBlock b (f (s.block b)) := rfl

/-! ### setRegion -/

@[simp] theorem Dev.setRegion_freeCount (g : Nat) (v : Region) : (s.setRegion g v).freeCount = s.freeCount := rfl
@[simp] theorem Dev.setRegion_ticks (g : Nat) (v : Region) : (s.setRegion g v).ticks = s.ticks := rfl
@[simp] theorem Dev.setRegion_tbTime (g : Nat) (v : Region) : (s.setRegion g v).tbTime = s.tbTime := rfl
@[simp] theorem Dev.setRegion_tb (g : Nat) (v : Region) : (s.setRegion g v).tb = s.tb := rfl
@[simp] theorem Dev.setRegion_linkA (g : Nat) (v : Region) : (s.setRegion g v).linkA = s.linkA := rfl
@[simp] theorem Dev.setRegion_linkB (g : Nat) (v : Region) : (s.setRegion g v).linkB = s.linkB := rfl
@[simp] theorem Dev.setRegion_ring (g : Nat) (v : Region) : (s.setRegion g v).ring = s.ring := rfl
@[simp] theorem Dev.setRegion_replicas (g : Nat) (v : Region) : (s.setRegion g v).replicas = s.replicas := rfl
@[simp] theorem Dev.setRegion_lk (g : Nat) (v : Region) : (s.setRegion g v).lk = s.lk := rfl
@[simp] theorem Dev.setRegion_cells (g : Nat) (v : Region) : (s.setRegion g v).cells = s.cells := rfl
@[simp] theorem Dev.setRegion_blocks (g : Nat) (v : Region) : (s.setRegion g v).blocks = s.blocks := rfl
@[simp] theorem Dev.setRegion_barges (g : Nat) (v : Region) : (s.setRegion g v).barges = s.barges := rfl
@[simp] theorem Dev.setRegion_sram (g : Nat) (v : Region) : (s.setRegion g v).sram = s.sram := rfl
@[simp] theorem Dev.setRegion_rram (g : Nat) (v : Region) : (s.setRegion g v).rram = s.rram := rfl
@[simp] theorem Dev.setRegion_flash (g : Nat) (v : Region) : (s.setRegion g v).flash = s.flash := rfl
@[simp] theorem Dev.setRegion_rtSlot (g : Nat) (v : Region) : (s.setRegion g v).rtSlot = s.rtSlot := rfl
@[simp] theorem Dev.setRegion_custSlot (g : Nat) (v : Region) : (s.setRegion g v).custSlot = s.custSlot := rfl
@[simp] theorem Dev.setRegion_dbg (g : Nat) (v : Region) : (s.setRegion g v).dbg = s.dbg := rfl
@[simp] theorem Dev.setRegion_tap (g : Nat) (v : Region) : (s.setRegion g v).tap = s.tap := rfl
@[simp] theorem Dev.setRegion_nodes (g : Nat) (v : Region) : (s.setRegion g v).nodes = s.nodes := rfl
@[simp] theorem Dev.setRegion_lvDone (g : Nat) (v : Region) : (s.setRegion g v).lvDone = s.lvDone := rfl
@[simp] theorem Dev.setRegion_rgnFail (g : Nat) (v : Region) : (s.setRegion g v).rgnFail = s.rgnFail := rfl
@[simp] theorem Dev.setRegion_badSize (g : Nat) (v : Region) : (s.setRegion g v).badSize = s.badSize := rfl
@[simp] theorem Dev.setRegion_rsvdWrites (g : Nat) (v : Region) : (s.setRegion g v).rsvdWrites = s.rsvdWrites := rfl
@[simp] theorem Dev.setRegion_slices (g : Nat) (v : Region) : (s.setRegion g v).slices = s.slices := rfl
@[simp] theorem Dev.setRegion_sliceQ (g : Nat) (v : Region) : (s.setRegion g v).sliceQ = s.sliceQ := rfl
@[simp] theorem Dev.setRegion_lanes (g : Nat) (v : Region) : (s.setRegion g v).lanes = s.lanes := rfl
@[simp] theorem Dev.setRegion_convs (g : Nat) (v : Region) : (s.setRegion g v).convs = s.convs := rfl
@[simp] theorem Dev.setRegion_auxs (g : Nat) (v : Region) : (s.setRegion g v).auxs = s.auxs := rfl
@[simp] theorem Dev.setRegion_calSlots (g : Nat) (v : Region) : (s.setRegion g v).calSlots = s.calSlots := rfl
@[simp] theorem Dev.setRegion_regs (g : Nat) (v : Region) : (s.setRegion g v).regs = s.regs := rfl
@[simp] theorem Dev.setRegion_regsPend (g : Nat) (v : Region) : (s.setRegion g v).regsPend = s.regsPend := rfl
@[simp] theorem Dev.setRegion_prof (g : Nat) (v : Region) : (s.setRegion g v).prof = s.prof := rfl
@[simp] theorem Dev.setRegion_profPend (g : Nat) (v : Region) : (s.setRegion g v).profPend = s.profPend := rfl
@[simp] theorem Dev.setRegion_colls (g : Nat) (v : Region) : (s.setRegion g v).colls = s.colls := rfl
@[simp] theorem Dev.setRegion_err (g : Nat) (v : Region) : (s.setRegion g v).err = s.err := rfl
@[simp] theorem Dev.setRegion_sluice (g : Nat) (v : Region) : (s.setRegion g v).sluice = s.sluice := rfl
@[simp] theorem Dev.setRegion_slMsgs (g : Nat) (v : Region) : (s.setRegion g v).slMsgs = s.slMsgs := rfl
@[simp] theorem Dev.setRegion_grants (g : Nat) (v : Region) : (s.setRegion g v).grants = s.grants := rfl
@[simp] theorem Dev.setRegion_mirror (g : Nat) (v : Region) : (s.setRegion g v).mirror = s.mirror := rfl
@[simp] theorem Dev.setRegion_mirrorStale (g : Nat) (v : Region) : (s.setRegion g v).mirrorStale = s.mirrorStale := rfl
@[simp] theorem Dev.setRegion_fwdMem (g : Nat) (v : Region) : (s.setRegion g v).fwdMem = s.fwdMem := rfl
@[simp] theorem Dev.setRegion_tripSeq (g : Nat) (v : Region) : (s.setRegion g v).tripSeq = s.tripSeq := rfl
@[simp] theorem Dev.setRegion_ringPos (g : Nat) (v : Region) : (s.setRegion g v).ringPos = s.ringPos := rfl
@[simp] theorem Dev.setRegion_hp (g : Nat) (v : Region) : (s.setRegion g v).hp = s.hp := rfl
@[simp] theorem Dev.setRegion_ops (g : Nat) (v : Region) : (s.setRegion g v).ops = s.ops := rfl
@[simp] theorem Dev.setRegion_opGen (g : Nat) (v : Region) : (s.setRegion g v).opGen = s.opGen := rfl
@[simp] theorem Dev.setRegion_bz (g : Nat) (v : Region) : (s.setRegion g v).bz = s.bz := rfl
@[simp] theorem Dev.setRegion_rv (g : Nat) (v : Region) : (s.setRegion g v).rv = s.rv := rfl
@[simp] theorem Dev.setRegion_tows (g : Nat) (v : Region) : (s.setRegion g v).tows = s.tows := rfl
@[simp] theorem Dev.setRegion_mg (g : Nat) (v : Region) : (s.setRegion g v).mg = s.mg := rfl
@[simp] theorem Dev.setRegion_sv (g : Nat) (v : Region) : (s.setRegion g v).sv = s.sv := rfl
@[simp] theorem Dev.setRegion_pwr (g : Nat) (v : Region) : (s.setRegion g v).pwr = s.pwr := rfl
@[simp] theorem Dev.setRegion_evq (g : Nat) (v : Region) : (s.setRegion g v).evq = s.evq := rfl
@[simp] theorem Dev.setRegion_complq (g : Nat) (v : Region) : (s.setRegion g v).complq = s.complq := rfl
@[simp] theorem Dev.setRegion_laneWaits (g : Nat) (v : Region) : (s.setRegion g v).laneWaits = s.laneWaits := rfl
@[simp] theorem Dev.setRegion_reports (g : Nat) (v : Region) : (s.setRegion g v).reports = s.reports := rfl
@[simp] theorem Dev.setRegion_telq (g : Nat) (v : Region) : (s.setRegion g v).telq = s.telq := rfl
@[simp] theorem Dev.setRegion_out (g : Nat) (v : Region) : (s.setRegion g v).out = s.out := rfl
theorem Dev.region_setRegion (g : Nat) (v : Region) (j : Nat) : (s.setRegion g v).region j = if j = g then v else s.region j :=
  Sparse.get_set _ _ _ _ _
@[simp] theorem Dev.region_setRegion_same (g : Nat) (v : Region) : (s.setRegion g v).region g = v := Sparse.get_set_same _ _ _ _
theorem Dev.region_setRegion_ne (g : Nat) (v : Region) (j : Nat) (h : j ≠ g) : (s.setRegion g v).region j = s.region j :=
  Sparse.get_set_ne _ _ _ _ _ h
theorem Dev.modRegion_eq (g : Nat) (f : Region → Region) : s.modRegion g f = s.setRegion g (f (s.region g)) := rfl

/-! ### setBarge -/

@[simp] theorem Dev.setBarge_freeCount (e : Nat) (v : Barge) : (s.setBarge e v).freeCount = s.freeCount := rfl
@[simp] theorem Dev.setBarge_ticks (e : Nat) (v : Barge) : (s.setBarge e v).ticks = s.ticks := rfl
@[simp] theorem Dev.setBarge_tbTime (e : Nat) (v : Barge) : (s.setBarge e v).tbTime = s.tbTime := rfl
@[simp] theorem Dev.setBarge_tb (e : Nat) (v : Barge) : (s.setBarge e v).tb = s.tb := rfl
@[simp] theorem Dev.setBarge_linkA (e : Nat) (v : Barge) : (s.setBarge e v).linkA = s.linkA := rfl
@[simp] theorem Dev.setBarge_linkB (e : Nat) (v : Barge) : (s.setBarge e v).linkB = s.linkB := rfl
@[simp] theorem Dev.setBarge_ring (e : Nat) (v : Barge) : (s.setBarge e v).ring = s.ring := rfl
@[simp] theorem Dev.setBarge_replicas (e : Nat) (v : Barge) : (s.setBarge e v).replicas = s.replicas := rfl
@[simp] theorem Dev.setBarge_lk (e : Nat) (v : Barge) : (s.setBarge e v).lk = s.lk := rfl
@[simp] theorem Dev.setBarge_cells (e : Nat) (v : Barge) : (s.setBarge e v).cells = s.cells := rfl
@[simp] theorem Dev.setBarge_blocks (e : Nat) (v : Barge) : (s.setBarge e v).blocks = s.blocks := rfl
@[simp] theorem Dev.setBarge_regions (e : Nat) (v : Barge) : (s.setBarge e v).regions = s.regions := rfl
@[simp] theorem Dev.setBarge_sram (e : Nat) (v : Barge) : (s.setBarge e v).sram = s.sram := rfl
@[simp] theorem Dev.setBarge_rram (e : Nat) (v : Barge) : (s.setBarge e v).rram = s.rram := rfl
@[simp] theorem Dev.setBarge_flash (e : Nat) (v : Barge) : (s.setBarge e v).flash = s.flash := rfl
@[simp] theorem Dev.setBarge_rtSlot (e : Nat) (v : Barge) : (s.setBarge e v).rtSlot = s.rtSlot := rfl
@[simp] theorem Dev.setBarge_custSlot (e : Nat) (v : Barge) : (s.setBarge e v).custSlot = s.custSlot := rfl
@[simp] theorem Dev.setBarge_dbg (e : Nat) (v : Barge) : (s.setBarge e v).dbg = s.dbg := rfl
@[simp] theorem Dev.setBarge_tap (e : Nat) (v : Barge) : (s.setBarge e v).tap = s.tap := rfl
@[simp] theorem Dev.setBarge_nodes (e : Nat) (v : Barge) : (s.setBarge e v).nodes = s.nodes := rfl
@[simp] theorem Dev.setBarge_lvDone (e : Nat) (v : Barge) : (s.setBarge e v).lvDone = s.lvDone := rfl
@[simp] theorem Dev.setBarge_rgnFail (e : Nat) (v : Barge) : (s.setBarge e v).rgnFail = s.rgnFail := rfl
@[simp] theorem Dev.setBarge_badSize (e : Nat) (v : Barge) : (s.setBarge e v).badSize = s.badSize := rfl
@[simp] theorem Dev.setBarge_rsvdWrites (e : Nat) (v : Barge) : (s.setBarge e v).rsvdWrites = s.rsvdWrites := rfl
@[simp] theorem Dev.setBarge_slices (e : Nat) (v : Barge) : (s.setBarge e v).slices = s.slices := rfl
@[simp] theorem Dev.setBarge_sliceQ (e : Nat) (v : Barge) : (s.setBarge e v).sliceQ = s.sliceQ := rfl
@[simp] theorem Dev.setBarge_lanes (e : Nat) (v : Barge) : (s.setBarge e v).lanes = s.lanes := rfl
@[simp] theorem Dev.setBarge_convs (e : Nat) (v : Barge) : (s.setBarge e v).convs = s.convs := rfl
@[simp] theorem Dev.setBarge_auxs (e : Nat) (v : Barge) : (s.setBarge e v).auxs = s.auxs := rfl
@[simp] theorem Dev.setBarge_calSlots (e : Nat) (v : Barge) : (s.setBarge e v).calSlots = s.calSlots := rfl
@[simp] theorem Dev.setBarge_regs (e : Nat) (v : Barge) : (s.setBarge e v).regs = s.regs := rfl
@[simp] theorem Dev.setBarge_regsPend (e : Nat) (v : Barge) : (s.setBarge e v).regsPend = s.regsPend := rfl
@[simp] theorem Dev.setBarge_prof (e : Nat) (v : Barge) : (s.setBarge e v).prof = s.prof := rfl
@[simp] theorem Dev.setBarge_profPend (e : Nat) (v : Barge) : (s.setBarge e v).profPend = s.profPend := rfl
@[simp] theorem Dev.setBarge_colls (e : Nat) (v : Barge) : (s.setBarge e v).colls = s.colls := rfl
@[simp] theorem Dev.setBarge_err (e : Nat) (v : Barge) : (s.setBarge e v).err = s.err := rfl
@[simp] theorem Dev.setBarge_sluice (e : Nat) (v : Barge) : (s.setBarge e v).sluice = s.sluice := rfl
@[simp] theorem Dev.setBarge_slMsgs (e : Nat) (v : Barge) : (s.setBarge e v).slMsgs = s.slMsgs := rfl
@[simp] theorem Dev.setBarge_grants (e : Nat) (v : Barge) : (s.setBarge e v).grants = s.grants := rfl
@[simp] theorem Dev.setBarge_mirror (e : Nat) (v : Barge) : (s.setBarge e v).mirror = s.mirror := rfl
@[simp] theorem Dev.setBarge_mirrorStale (e : Nat) (v : Barge) : (s.setBarge e v).mirrorStale = s.mirrorStale := rfl
@[simp] theorem Dev.setBarge_fwdMem (e : Nat) (v : Barge) : (s.setBarge e v).fwdMem = s.fwdMem := rfl
@[simp] theorem Dev.setBarge_tripSeq (e : Nat) (v : Barge) : (s.setBarge e v).tripSeq = s.tripSeq := rfl
@[simp] theorem Dev.setBarge_ringPos (e : Nat) (v : Barge) : (s.setBarge e v).ringPos = s.ringPos := rfl
@[simp] theorem Dev.setBarge_hp (e : Nat) (v : Barge) : (s.setBarge e v).hp = s.hp := rfl
@[simp] theorem Dev.setBarge_ops (e : Nat) (v : Barge) : (s.setBarge e v).ops = s.ops := rfl
@[simp] theorem Dev.setBarge_opGen (e : Nat) (v : Barge) : (s.setBarge e v).opGen = s.opGen := rfl
@[simp] theorem Dev.setBarge_bz (e : Nat) (v : Barge) : (s.setBarge e v).bz = s.bz := rfl
@[simp] theorem Dev.setBarge_rv (e : Nat) (v : Barge) : (s.setBarge e v).rv = s.rv := rfl
@[simp] theorem Dev.setBarge_tows (e : Nat) (v : Barge) : (s.setBarge e v).tows = s.tows := rfl
@[simp] theorem Dev.setBarge_mg (e : Nat) (v : Barge) : (s.setBarge e v).mg = s.mg := rfl
@[simp] theorem Dev.setBarge_sv (e : Nat) (v : Barge) : (s.setBarge e v).sv = s.sv := rfl
@[simp] theorem Dev.setBarge_pwr (e : Nat) (v : Barge) : (s.setBarge e v).pwr = s.pwr := rfl
@[simp] theorem Dev.setBarge_evq (e : Nat) (v : Barge) : (s.setBarge e v).evq = s.evq := rfl
@[simp] theorem Dev.setBarge_complq (e : Nat) (v : Barge) : (s.setBarge e v).complq = s.complq := rfl
@[simp] theorem Dev.setBarge_laneWaits (e : Nat) (v : Barge) : (s.setBarge e v).laneWaits = s.laneWaits := rfl
@[simp] theorem Dev.setBarge_reports (e : Nat) (v : Barge) : (s.setBarge e v).reports = s.reports := rfl
@[simp] theorem Dev.setBarge_telq (e : Nat) (v : Barge) : (s.setBarge e v).telq = s.telq := rfl
@[simp] theorem Dev.setBarge_out (e : Nat) (v : Barge) : (s.setBarge e v).out = s.out := rfl
theorem Dev.barge_setBarge (e : Nat) (v : Barge) (j : Nat) : (s.setBarge e v).barge j = if j = e then v else s.barge j :=
  Sparse.get_set _ _ _ _ _
@[simp] theorem Dev.barge_setBarge_same (e : Nat) (v : Barge) : (s.setBarge e v).barge e = v := Sparse.get_set_same _ _ _ _
theorem Dev.barge_setBarge_ne (e : Nat) (v : Barge) (j : Nat) (h : j ≠ e) : (s.setBarge e v).barge j = s.barge j :=
  Sparse.get_set_ne _ _ _ _ _ h
theorem Dev.modBarge_eq (e : Nat) (f : Barge → Barge) : s.modBarge e f = s.setBarge e (f (s.barge e)) := rfl

/-! ### setColl -/

@[simp] theorem Dev.setColl_freeCount (k : Nat) (v : Coll) : (s.setColl k v).freeCount = s.freeCount := rfl
@[simp] theorem Dev.setColl_ticks (k : Nat) (v : Coll) : (s.setColl k v).ticks = s.ticks := rfl
@[simp] theorem Dev.setColl_tbTime (k : Nat) (v : Coll) : (s.setColl k v).tbTime = s.tbTime := rfl
@[simp] theorem Dev.setColl_tb (k : Nat) (v : Coll) : (s.setColl k v).tb = s.tb := rfl
@[simp] theorem Dev.setColl_linkA (k : Nat) (v : Coll) : (s.setColl k v).linkA = s.linkA := rfl
@[simp] theorem Dev.setColl_linkB (k : Nat) (v : Coll) : (s.setColl k v).linkB = s.linkB := rfl
@[simp] theorem Dev.setColl_ring (k : Nat) (v : Coll) : (s.setColl k v).ring = s.ring := rfl
@[simp] theorem Dev.setColl_replicas (k : Nat) (v : Coll) : (s.setColl k v).replicas = s.replicas := rfl
@[simp] theorem Dev.setColl_lk (k : Nat) (v : Coll) : (s.setColl k v).lk = s.lk := rfl
@[simp] theorem Dev.setColl_cells (k : Nat) (v : Coll) : (s.setColl k v).cells = s.cells := rfl
@[simp] theorem Dev.setColl_blocks (k : Nat) (v : Coll) : (s.setColl k v).blocks = s.blocks := rfl
@[simp] theorem Dev.setColl_regions (k : Nat) (v : Coll) : (s.setColl k v).regions = s.regions := rfl
@[simp] theorem Dev.setColl_barges (k : Nat) (v : Coll) : (s.setColl k v).barges = s.barges := rfl
@[simp] theorem Dev.setColl_sram (k : Nat) (v : Coll) : (s.setColl k v).sram = s.sram := rfl
@[simp] theorem Dev.setColl_rram (k : Nat) (v : Coll) : (s.setColl k v).rram = s.rram := rfl
@[simp] theorem Dev.setColl_flash (k : Nat) (v : Coll) : (s.setColl k v).flash = s.flash := rfl
@[simp] theorem Dev.setColl_rtSlot (k : Nat) (v : Coll) : (s.setColl k v).rtSlot = s.rtSlot := rfl
@[simp] theorem Dev.setColl_custSlot (k : Nat) (v : Coll) : (s.setColl k v).custSlot = s.custSlot := rfl
@[simp] theorem Dev.setColl_dbg (k : Nat) (v : Coll) : (s.setColl k v).dbg = s.dbg := rfl
@[simp] theorem Dev.setColl_tap (k : Nat) (v : Coll) : (s.setColl k v).tap = s.tap := rfl
@[simp] theorem Dev.setColl_nodes (k : Nat) (v : Coll) : (s.setColl k v).nodes = s.nodes := rfl
@[simp] theorem Dev.setColl_lvDone (k : Nat) (v : Coll) : (s.setColl k v).lvDone = s.lvDone := rfl
@[simp] theorem Dev.setColl_rgnFail (k : Nat) (v : Coll) : (s.setColl k v).rgnFail = s.rgnFail := rfl
@[simp] theorem Dev.setColl_badSize (k : Nat) (v : Coll) : (s.setColl k v).badSize = s.badSize := rfl
@[simp] theorem Dev.setColl_rsvdWrites (k : Nat) (v : Coll) : (s.setColl k v).rsvdWrites = s.rsvdWrites := rfl
@[simp] theorem Dev.setColl_slices (k : Nat) (v : Coll) : (s.setColl k v).slices = s.slices := rfl
@[simp] theorem Dev.setColl_sliceQ (k : Nat) (v : Coll) : (s.setColl k v).sliceQ = s.sliceQ := rfl
@[simp] theorem Dev.setColl_lanes (k : Nat) (v : Coll) : (s.setColl k v).lanes = s.lanes := rfl
@[simp] theorem Dev.setColl_convs (k : Nat) (v : Coll) : (s.setColl k v).convs = s.convs := rfl
@[simp] theorem Dev.setColl_auxs (k : Nat) (v : Coll) : (s.setColl k v).auxs = s.auxs := rfl
@[simp] theorem Dev.setColl_calSlots (k : Nat) (v : Coll) : (s.setColl k v).calSlots = s.calSlots := rfl
@[simp] theorem Dev.setColl_regs (k : Nat) (v : Coll) : (s.setColl k v).regs = s.regs := rfl
@[simp] theorem Dev.setColl_regsPend (k : Nat) (v : Coll) : (s.setColl k v).regsPend = s.regsPend := rfl
@[simp] theorem Dev.setColl_prof (k : Nat) (v : Coll) : (s.setColl k v).prof = s.prof := rfl
@[simp] theorem Dev.setColl_profPend (k : Nat) (v : Coll) : (s.setColl k v).profPend = s.profPend := rfl
@[simp] theorem Dev.setColl_err (k : Nat) (v : Coll) : (s.setColl k v).err = s.err := rfl
@[simp] theorem Dev.setColl_sluice (k : Nat) (v : Coll) : (s.setColl k v).sluice = s.sluice := rfl
@[simp] theorem Dev.setColl_slMsgs (k : Nat) (v : Coll) : (s.setColl k v).slMsgs = s.slMsgs := rfl
@[simp] theorem Dev.setColl_grants (k : Nat) (v : Coll) : (s.setColl k v).grants = s.grants := rfl
@[simp] theorem Dev.setColl_mirror (k : Nat) (v : Coll) : (s.setColl k v).mirror = s.mirror := rfl
@[simp] theorem Dev.setColl_mirrorStale (k : Nat) (v : Coll) : (s.setColl k v).mirrorStale = s.mirrorStale := rfl
@[simp] theorem Dev.setColl_fwdMem (k : Nat) (v : Coll) : (s.setColl k v).fwdMem = s.fwdMem := rfl
@[simp] theorem Dev.setColl_tripSeq (k : Nat) (v : Coll) : (s.setColl k v).tripSeq = s.tripSeq := rfl
@[simp] theorem Dev.setColl_ringPos (k : Nat) (v : Coll) : (s.setColl k v).ringPos = s.ringPos := rfl
@[simp] theorem Dev.setColl_hp (k : Nat) (v : Coll) : (s.setColl k v).hp = s.hp := rfl
@[simp] theorem Dev.setColl_ops (k : Nat) (v : Coll) : (s.setColl k v).ops = s.ops := rfl
@[simp] theorem Dev.setColl_opGen (k : Nat) (v : Coll) : (s.setColl k v).opGen = s.opGen := rfl
@[simp] theorem Dev.setColl_bz (k : Nat) (v : Coll) : (s.setColl k v).bz = s.bz := rfl
@[simp] theorem Dev.setColl_rv (k : Nat) (v : Coll) : (s.setColl k v).rv = s.rv := rfl
@[simp] theorem Dev.setColl_tows (k : Nat) (v : Coll) : (s.setColl k v).tows = s.tows := rfl
@[simp] theorem Dev.setColl_mg (k : Nat) (v : Coll) : (s.setColl k v).mg = s.mg := rfl
@[simp] theorem Dev.setColl_sv (k : Nat) (v : Coll) : (s.setColl k v).sv = s.sv := rfl
@[simp] theorem Dev.setColl_pwr (k : Nat) (v : Coll) : (s.setColl k v).pwr = s.pwr := rfl
@[simp] theorem Dev.setColl_evq (k : Nat) (v : Coll) : (s.setColl k v).evq = s.evq := rfl
@[simp] theorem Dev.setColl_complq (k : Nat) (v : Coll) : (s.setColl k v).complq = s.complq := rfl
@[simp] theorem Dev.setColl_laneWaits (k : Nat) (v : Coll) : (s.setColl k v).laneWaits = s.laneWaits := rfl
@[simp] theorem Dev.setColl_reports (k : Nat) (v : Coll) : (s.setColl k v).reports = s.reports := rfl
@[simp] theorem Dev.setColl_telq (k : Nat) (v : Coll) : (s.setColl k v).telq = s.telq := rfl
@[simp] theorem Dev.setColl_out (k : Nat) (v : Coll) : (s.setColl k v).out = s.out := rfl
theorem Dev.coll_setColl (k : Nat) (v : Coll) (j : Nat) : (s.setColl k v).coll j = if j = k then v else s.coll j :=
  Sparse.get_set _ _ _ _ _
@[simp] theorem Dev.coll_setColl_same (k : Nat) (v : Coll) : (s.setColl k v).coll k = v := Sparse.get_set_same _ _ _ _
theorem Dev.coll_setColl_ne (k : Nat) (v : Coll) (j : Nat) (h : j ≠ k) : (s.setColl k v).coll j = s.coll j :=
  Sparse.get_set_ne _ _ _ _ _ h
theorem Dev.modColl_eq (k : Nat) (f : Coll → Coll) : s.modColl k f = s.setColl k (f (s.coll k)) := rfl

/-! ### setReg -/

@[simp] theorem Dev.setReg_freeCount (o : Nat) (v : Word) : (s.setReg o v).freeCount = s.freeCount := rfl
@[simp] theorem Dev.setReg_ticks (o : Nat) (v : Word) : (s.setReg o v).ticks = s.ticks := rfl
@[simp] theorem Dev.setReg_tbTime (o : Nat) (v : Word) : (s.setReg o v).tbTime = s.tbTime := rfl
@[simp] theorem Dev.setReg_tb (o : Nat) (v : Word) : (s.setReg o v).tb = s.tb := rfl
@[simp] theorem Dev.setReg_linkA (o : Nat) (v : Word) : (s.setReg o v).linkA = s.linkA := rfl
@[simp] theorem Dev.setReg_linkB (o : Nat) (v : Word) : (s.setReg o v).linkB = s.linkB := rfl
@[simp] theorem Dev.setReg_ring (o : Nat) (v : Word) : (s.setReg o v).ring = s.ring := rfl
@[simp] theorem Dev.setReg_replicas (o : Nat) (v : Word) : (s.setReg o v).replicas = s.replicas := rfl
@[simp] theorem Dev.setReg_lk (o : Nat) (v : Word) : (s.setReg o v).lk = s.lk := rfl
@[simp] theorem Dev.setReg_cells (o : Nat) (v : Word) : (s.setReg o v).cells = s.cells := rfl
@[simp] theorem Dev.setReg_blocks (o : Nat) (v : Word) : (s.setReg o v).blocks = s.blocks := rfl
@[simp] theorem Dev.setReg_regions (o : Nat) (v : Word) : (s.setReg o v).regions = s.regions := rfl
@[simp] theorem Dev.setReg_barges (o : Nat) (v : Word) : (s.setReg o v).barges = s.barges := rfl
@[simp] theorem Dev.setReg_sram (o : Nat) (v : Word) : (s.setReg o v).sram = s.sram := rfl
@[simp] theorem Dev.setReg_rram (o : Nat) (v : Word) : (s.setReg o v).rram = s.rram := rfl
@[simp] theorem Dev.setReg_flash (o : Nat) (v : Word) : (s.setReg o v).flash = s.flash := rfl
@[simp] theorem Dev.setReg_rtSlot (o : Nat) (v : Word) : (s.setReg o v).rtSlot = s.rtSlot := rfl
@[simp] theorem Dev.setReg_custSlot (o : Nat) (v : Word) : (s.setReg o v).custSlot = s.custSlot := rfl
@[simp] theorem Dev.setReg_dbg (o : Nat) (v : Word) : (s.setReg o v).dbg = s.dbg := rfl
@[simp] theorem Dev.setReg_tap (o : Nat) (v : Word) : (s.setReg o v).tap = s.tap := rfl
@[simp] theorem Dev.setReg_nodes (o : Nat) (v : Word) : (s.setReg o v).nodes = s.nodes := rfl
@[simp] theorem Dev.setReg_lvDone (o : Nat) (v : Word) : (s.setReg o v).lvDone = s.lvDone := rfl
@[simp] theorem Dev.setReg_rgnFail (o : Nat) (v : Word) : (s.setReg o v).rgnFail = s.rgnFail := rfl
@[simp] theorem Dev.setReg_badSize (o : Nat) (v : Word) : (s.setReg o v).badSize = s.badSize := rfl
@[simp] theorem Dev.setReg_rsvdWrites (o : Nat) (v : Word) : (s.setReg o v).rsvdWrites = s.rsvdWrites := rfl
@[simp] theorem Dev.setReg_slices (o : Nat) (v : Word) : (s.setReg o v).slices = s.slices := rfl
@[simp] theorem Dev.setReg_sliceQ (o : Nat) (v : Word) : (s.setReg o v).sliceQ = s.sliceQ := rfl
@[simp] theorem Dev.setReg_lanes (o : Nat) (v : Word) : (s.setReg o v).lanes = s.lanes := rfl
@[simp] theorem Dev.setReg_convs (o : Nat) (v : Word) : (s.setReg o v).convs = s.convs := rfl
@[simp] theorem Dev.setReg_auxs (o : Nat) (v : Word) : (s.setReg o v).auxs = s.auxs := rfl
@[simp] theorem Dev.setReg_calSlots (o : Nat) (v : Word) : (s.setReg o v).calSlots = s.calSlots := rfl
@[simp] theorem Dev.setReg_regsPend (o : Nat) (v : Word) : (s.setReg o v).regsPend = s.regsPend := rfl
@[simp] theorem Dev.setReg_prof (o : Nat) (v : Word) : (s.setReg o v).prof = s.prof := rfl
@[simp] theorem Dev.setReg_profPend (o : Nat) (v : Word) : (s.setReg o v).profPend = s.profPend := rfl
@[simp] theorem Dev.setReg_colls (o : Nat) (v : Word) : (s.setReg o v).colls = s.colls := rfl
@[simp] theorem Dev.setReg_err (o : Nat) (v : Word) : (s.setReg o v).err = s.err := rfl
@[simp] theorem Dev.setReg_sluice (o : Nat) (v : Word) : (s.setReg o v).sluice = s.sluice := rfl
@[simp] theorem Dev.setReg_slMsgs (o : Nat) (v : Word) : (s.setReg o v).slMsgs = s.slMsgs := rfl
@[simp] theorem Dev.setReg_grants (o : Nat) (v : Word) : (s.setReg o v).grants = s.grants := rfl
@[simp] theorem Dev.setReg_mirror (o : Nat) (v : Word) : (s.setReg o v).mirror = s.mirror := rfl
@[simp] theorem Dev.setReg_mirrorStale (o : Nat) (v : Word) : (s.setReg o v).mirrorStale = s.mirrorStale := rfl
@[simp] theorem Dev.setReg_fwdMem (o : Nat) (v : Word) : (s.setReg o v).fwdMem = s.fwdMem := rfl
@[simp] theorem Dev.setReg_tripSeq (o : Nat) (v : Word) : (s.setReg o v).tripSeq = s.tripSeq := rfl
@[simp] theorem Dev.setReg_ringPos (o : Nat) (v : Word) : (s.setReg o v).ringPos = s.ringPos := rfl
@[simp] theorem Dev.setReg_hp (o : Nat) (v : Word) : (s.setReg o v).hp = s.hp := rfl
@[simp] theorem Dev.setReg_ops (o : Nat) (v : Word) : (s.setReg o v).ops = s.ops := rfl
@[simp] theorem Dev.setReg_opGen (o : Nat) (v : Word) : (s.setReg o v).opGen = s.opGen := rfl
@[simp] theorem Dev.setReg_bz (o : Nat) (v : Word) : (s.setReg o v).bz = s.bz := rfl
@[simp] theorem Dev.setReg_rv (o : Nat) (v : Word) : (s.setReg o v).rv = s.rv := rfl
@[simp] theorem Dev.setReg_tows (o : Nat) (v : Word) : (s.setReg o v).tows = s.tows := rfl
@[simp] theorem Dev.setReg_mg (o : Nat) (v : Word) : (s.setReg o v).mg = s.mg := rfl
@[simp] theorem Dev.setReg_sv (o : Nat) (v : Word) : (s.setReg o v).sv = s.sv := rfl
@[simp] theorem Dev.setReg_pwr (o : Nat) (v : Word) : (s.setReg o v).pwr = s.pwr := rfl
@[simp] theorem Dev.setReg_evq (o : Nat) (v : Word) : (s.setReg o v).evq = s.evq := rfl
@[simp] theorem Dev.setReg_complq (o : Nat) (v : Word) : (s.setReg o v).complq = s.complq := rfl
@[simp] theorem Dev.setReg_laneWaits (o : Nat) (v : Word) : (s.setReg o v).laneWaits = s.laneWaits := rfl
@[simp] theorem Dev.setReg_reports (o : Nat) (v : Word) : (s.setReg o v).reports = s.reports := rfl
@[simp] theorem Dev.setReg_telq (o : Nat) (v : Word) : (s.setReg o v).telq = s.telq := rfl
@[simp] theorem Dev.setReg_out (o : Nat) (v : Word) : (s.setReg o v).out = s.out := rfl
theorem Dev.reg_setReg (o : Nat) (v : Word) (j : Nat) : (s.setReg o v).reg j = if j = o then v else s.reg j :=
  Sparse.get_set _ _ _ _ _
@[simp] theorem Dev.reg_setReg_same (o : Nat) (v : Word) : (s.setReg o v).reg o = v := Sparse.get_set_same _ _ _ _
theorem Dev.reg_setReg_ne (o : Nat) (v : Word) (j : Nat) (h : j ≠ o) : (s.setReg o v).reg j = s.reg j :=
  Sparse.get_set_ne _ _ _ _ _ h

/-! ### setLane -/

@[simp] theorem Dev.setLane_freeCount (c : Nat) (v : Lane) : (s.setLane c v).freeCount = s.freeCount := rfl
@[simp] theorem Dev.setLane_ticks (c : Nat) (v : Lane) : (s.setLane c v).ticks = s.ticks := rfl
@[simp] theorem Dev.setLane_tbTime (c : Nat) (v : Lane) : (s.setLane c v).tbTime = s.tbTime := rfl
@[simp] theorem Dev.setLane_tb (c : Nat) (v : Lane) : (s.setLane c v).tb = s.tb := rfl
@[simp] theorem Dev.setLane_linkA (c : Nat) (v : Lane) : (s.setLane c v).linkA = s.linkA := rfl
@[simp] theorem Dev.setLane_linkB (c : Nat) (v : Lane) : (s.setLane c v).linkB = s.linkB := rfl
@[simp] theorem Dev.setLane_ring (c : Nat) (v : Lane) : (s.setLane c v).ring = s.ring := rfl
@[simp] theorem Dev.setLane_replicas (c : Nat) (v : Lane) : (s.setLane c v).replicas = s.replicas := rfl
@[simp] theorem Dev.setLane_lk (c : Nat) (v : Lane) : (s.setLane c v).lk = s.lk := rfl
@[simp] theorem Dev.setLane_cells (c : Nat) (v : Lane) : (s.setLane c v).cells = s.cells := rfl
@[simp] theorem Dev.setLane_blocks (c : Nat) (v : Lane) : (s.setLane c v).blocks = s.blocks := rfl
@[simp] theorem Dev.setLane_regions (c : Nat) (v : Lane) : (s.setLane c v).regions = s.regions := rfl
@[simp] theorem Dev.setLane_barges (c : Nat) (v : Lane) : (s.setLane c v).barges = s.barges := rfl
@[simp] theorem Dev.setLane_sram (c : Nat) (v : Lane) : (s.setLane c v).sram = s.sram := rfl
@[simp] theorem Dev.setLane_rram (c : Nat) (v : Lane) : (s.setLane c v).rram = s.rram := rfl
@[simp] theorem Dev.setLane_flash (c : Nat) (v : Lane) : (s.setLane c v).flash = s.flash := rfl
@[simp] theorem Dev.setLane_rtSlot (c : Nat) (v : Lane) : (s.setLane c v).rtSlot = s.rtSlot := rfl
@[simp] theorem Dev.setLane_custSlot (c : Nat) (v : Lane) : (s.setLane c v).custSlot = s.custSlot := rfl
@[simp] theorem Dev.setLane_dbg (c : Nat) (v : Lane) : (s.setLane c v).dbg = s.dbg := rfl
@[simp] theorem Dev.setLane_tap (c : Nat) (v : Lane) : (s.setLane c v).tap = s.tap := rfl
@[simp] theorem Dev.setLane_nodes (c : Nat) (v : Lane) : (s.setLane c v).nodes = s.nodes := rfl
@[simp] theorem Dev.setLane_lvDone (c : Nat) (v : Lane) : (s.setLane c v).lvDone = s.lvDone := rfl
@[simp] theorem Dev.setLane_rgnFail (c : Nat) (v : Lane) : (s.setLane c v).rgnFail = s.rgnFail := rfl
@[simp] theorem Dev.setLane_badSize (c : Nat) (v : Lane) : (s.setLane c v).badSize = s.badSize := rfl
@[simp] theorem Dev.setLane_rsvdWrites (c : Nat) (v : Lane) : (s.setLane c v).rsvdWrites = s.rsvdWrites := rfl
@[simp] theorem Dev.setLane_slices (c : Nat) (v : Lane) : (s.setLane c v).slices = s.slices := rfl
@[simp] theorem Dev.setLane_sliceQ (c : Nat) (v : Lane) : (s.setLane c v).sliceQ = s.sliceQ := rfl
@[simp] theorem Dev.setLane_convs (c : Nat) (v : Lane) : (s.setLane c v).convs = s.convs := rfl
@[simp] theorem Dev.setLane_auxs (c : Nat) (v : Lane) : (s.setLane c v).auxs = s.auxs := rfl
@[simp] theorem Dev.setLane_calSlots (c : Nat) (v : Lane) : (s.setLane c v).calSlots = s.calSlots := rfl
@[simp] theorem Dev.setLane_regs (c : Nat) (v : Lane) : (s.setLane c v).regs = s.regs := rfl
@[simp] theorem Dev.setLane_regsPend (c : Nat) (v : Lane) : (s.setLane c v).regsPend = s.regsPend := rfl
@[simp] theorem Dev.setLane_prof (c : Nat) (v : Lane) : (s.setLane c v).prof = s.prof := rfl
@[simp] theorem Dev.setLane_profPend (c : Nat) (v : Lane) : (s.setLane c v).profPend = s.profPend := rfl
@[simp] theorem Dev.setLane_colls (c : Nat) (v : Lane) : (s.setLane c v).colls = s.colls := rfl
@[simp] theorem Dev.setLane_err (c : Nat) (v : Lane) : (s.setLane c v).err = s.err := rfl
@[simp] theorem Dev.setLane_sluice (c : Nat) (v : Lane) : (s.setLane c v).sluice = s.sluice := rfl
@[simp] theorem Dev.setLane_slMsgs (c : Nat) (v : Lane) : (s.setLane c v).slMsgs = s.slMsgs := rfl
@[simp] theorem Dev.setLane_grants (c : Nat) (v : Lane) : (s.setLane c v).grants = s.grants := rfl
@[simp] theorem Dev.setLane_mirror (c : Nat) (v : Lane) : (s.setLane c v).mirror = s.mirror := rfl
@[simp] theorem Dev.setLane_mirrorStale (c : Nat) (v : Lane) : (s.setLane c v).mirrorStale = s.mirrorStale := rfl
@[simp] theorem Dev.setLane_fwdMem (c : Nat) (v : Lane) : (s.setLane c v).fwdMem = s.fwdMem := rfl
@[simp] theorem Dev.setLane_tripSeq (c : Nat) (v : Lane) : (s.setLane c v).tripSeq = s.tripSeq := rfl
@[simp] theorem Dev.setLane_ringPos (c : Nat) (v : Lane) : (s.setLane c v).ringPos = s.ringPos := rfl
@[simp] theorem Dev.setLane_hp (c : Nat) (v : Lane) : (s.setLane c v).hp = s.hp := rfl
@[simp] theorem Dev.setLane_ops (c : Nat) (v : Lane) : (s.setLane c v).ops = s.ops := rfl
@[simp] theorem Dev.setLane_opGen (c : Nat) (v : Lane) : (s.setLane c v).opGen = s.opGen := rfl
@[simp] theorem Dev.setLane_bz (c : Nat) (v : Lane) : (s.setLane c v).bz = s.bz := rfl
@[simp] theorem Dev.setLane_rv (c : Nat) (v : Lane) : (s.setLane c v).rv = s.rv := rfl
@[simp] theorem Dev.setLane_tows (c : Nat) (v : Lane) : (s.setLane c v).tows = s.tows := rfl
@[simp] theorem Dev.setLane_mg (c : Nat) (v : Lane) : (s.setLane c v).mg = s.mg := rfl
@[simp] theorem Dev.setLane_sv (c : Nat) (v : Lane) : (s.setLane c v).sv = s.sv := rfl
@[simp] theorem Dev.setLane_pwr (c : Nat) (v : Lane) : (s.setLane c v).pwr = s.pwr := rfl
@[simp] theorem Dev.setLane_evq (c : Nat) (v : Lane) : (s.setLane c v).evq = s.evq := rfl
@[simp] theorem Dev.setLane_complq (c : Nat) (v : Lane) : (s.setLane c v).complq = s.complq := rfl
@[simp] theorem Dev.setLane_laneWaits (c : Nat) (v : Lane) : (s.setLane c v).laneWaits = s.laneWaits := rfl
@[simp] theorem Dev.setLane_reports (c : Nat) (v : Lane) : (s.setLane c v).reports = s.reports := rfl
@[simp] theorem Dev.setLane_telq (c : Nat) (v : Lane) : (s.setLane c v).telq = s.telq := rfl
@[simp] theorem Dev.setLane_out (c : Nat) (v : Lane) : (s.setLane c v).out = s.out := rfl
theorem Dev.lane_setLane (c : Nat) (v : Lane) (j : Nat) : (s.setLane c v).lane j = if j = c then v else s.lane j :=
  Sparse.get_set _ _ _ _ _
@[simp] theorem Dev.lane_setLane_same (c : Nat) (v : Lane) : (s.setLane c v).lane c = v := Sparse.get_set_same _ _ _ _
theorem Dev.lane_setLane_ne (c : Nat) (v : Lane) (j : Nat) (h : j ≠ c) : (s.setLane c v).lane j = s.lane j :=
  Sparse.get_set_ne _ _ _ _ _ h
theorem Dev.modLane_eq (c : Nat) (f : Lane → Lane) : s.modLane c f = s.setLane c (f (s.lane c)) := rfl

/-! ### setConv -/

@[simp] theorem Dev.setConv_freeCount (b : Nat) (v : Conv) : (s.setConv b v).freeCount = s.freeCount := rfl
@[simp] theorem Dev.setConv_ticks (b : Nat) (v : Conv) : (s.setConv b v).ticks = s.ticks := rfl
@[simp] theorem Dev.setConv_tbTime (b : Nat) (v : Conv) : (s.setConv b v).tbTime = s.tbTime := rfl
@[simp] theorem Dev.setConv_tb (b : Nat) (v : Conv) : (s.setConv b v).tb = s.tb := rfl
@[simp] theorem Dev.setConv_linkA (b : Nat) (v : Conv) : (s.setConv b v).linkA = s.linkA := rfl
@[simp] theorem Dev.setConv_linkB (b : Nat) (v : Conv) : (s.setConv b v).linkB = s.linkB := rfl
@[simp] theorem Dev.setConv_ring (b : Nat) (v : Conv) : (s.setConv b v).ring = s.ring := rfl
@[simp] theorem Dev.setConv_replicas (b : Nat) (v : Conv) : (s.setConv b v).replicas = s.replicas := rfl
@[simp] theorem Dev.setConv_lk (b : Nat) (v : Conv) : (s.setConv b v).lk = s.lk := rfl
@[simp] theorem Dev.setConv_cells (b : Nat) (v : Conv) : (s.setConv b v).cells = s.cells := rfl
@[simp] theorem Dev.setConv_blocks (b : Nat) (v : Conv) : (s.setConv b v).blocks = s.blocks := rfl
@[simp] theorem Dev.setConv_regions (b : Nat) (v : Conv) : (s.setConv b v).regions = s.regions := rfl
@[simp] theorem Dev.setConv_barges (b : Nat) (v : Conv) : (s.setConv b v).barges = s.barges := rfl
@[simp] theorem Dev.setConv_sram (b : Nat) (v : Conv) : (s.setConv b v).sram = s.sram := rfl
@[simp] theorem Dev.setConv_rram (b : Nat) (v : Conv) : (s.setConv b v).rram = s.rram := rfl
@[simp] theorem Dev.setConv_flash (b : Nat) (v : Conv) : (s.setConv b v).flash = s.flash := rfl
@[simp] theorem Dev.setConv_rtSlot (b : Nat) (v : Conv) : (s.setConv b v).rtSlot = s.rtSlot := rfl
@[simp] theorem Dev.setConv_custSlot (b : Nat) (v : Conv) : (s.setConv b v).custSlot = s.custSlot := rfl
@[simp] theorem Dev.setConv_dbg (b : Nat) (v : Conv) : (s.setConv b v).dbg = s.dbg := rfl
@[simp] theorem Dev.setConv_tap (b : Nat) (v : Conv) : (s.setConv b v).tap = s.tap := rfl
@[simp] theorem Dev.setConv_nodes (b : Nat) (v : Conv) : (s.setConv b v).nodes = s.nodes := rfl
@[simp] theorem Dev.setConv_lvDone (b : Nat) (v : Conv) : (s.setConv b v).lvDone = s.lvDone := rfl
@[simp] theorem Dev.setConv_rgnFail (b : Nat) (v : Conv) : (s.setConv b v).rgnFail = s.rgnFail := rfl
@[simp] theorem Dev.setConv_badSize (b : Nat) (v : Conv) : (s.setConv b v).badSize = s.badSize := rfl
@[simp] theorem Dev.setConv_rsvdWrites (b : Nat) (v : Conv) : (s.setConv b v).rsvdWrites = s.rsvdWrites := rfl
@[simp] theorem Dev.setConv_slices (b : Nat) (v : Conv) : (s.setConv b v).slices = s.slices := rfl
@[simp] theorem Dev.setConv_sliceQ (b : Nat) (v : Conv) : (s.setConv b v).sliceQ = s.sliceQ := rfl
@[simp] theorem Dev.setConv_lanes (b : Nat) (v : Conv) : (s.setConv b v).lanes = s.lanes := rfl
@[simp] theorem Dev.setConv_auxs (b : Nat) (v : Conv) : (s.setConv b v).auxs = s.auxs := rfl
@[simp] theorem Dev.setConv_calSlots (b : Nat) (v : Conv) : (s.setConv b v).calSlots = s.calSlots := rfl
@[simp] theorem Dev.setConv_regs (b : Nat) (v : Conv) : (s.setConv b v).regs = s.regs := rfl
@[simp] theorem Dev.setConv_regsPend (b : Nat) (v : Conv) : (s.setConv b v).regsPend = s.regsPend := rfl
@[simp] theorem Dev.setConv_prof (b : Nat) (v : Conv) : (s.setConv b v).prof = s.prof := rfl
@[simp] theorem Dev.setConv_profPend (b : Nat) (v : Conv) : (s.setConv b v).profPend = s.profPend := rfl
@[simp] theorem Dev.setConv_colls (b : Nat) (v : Conv) : (s.setConv b v).colls = s.colls := rfl
@[simp] theorem Dev.setConv_err (b : Nat) (v : Conv) : (s.setConv b v).err = s.err := rfl
@[simp] theorem Dev.setConv_sluice (b : Nat) (v : Conv) : (s.setConv b v).sluice = s.sluice := rfl
@[simp] theorem Dev.setConv_slMsgs (b : Nat) (v : Conv) : (s.setConv b v).slMsgs = s.slMsgs := rfl
@[simp] theorem Dev.setConv_grants (b : Nat) (v : Conv) : (s.setConv b v).grants = s.grants := rfl
@[simp] theorem Dev.setConv_mirror (b : Nat) (v : Conv) : (s.setConv b v).mirror = s.mirror := rfl
@[simp] theorem Dev.setConv_mirrorStale (b : Nat) (v : Conv) : (s.setConv b v).mirrorStale = s.mirrorStale := rfl
@[simp] theorem Dev.setConv_fwdMem (b : Nat) (v : Conv) : (s.setConv b v).fwdMem = s.fwdMem := rfl
@[simp] theorem Dev.setConv_tripSeq (b : Nat) (v : Conv) : (s.setConv b v).tripSeq = s.tripSeq := rfl
@[simp] theorem Dev.setConv_ringPos (b : Nat) (v : Conv) : (s.setConv b v).ringPos = s.ringPos := rfl
@[simp] theorem Dev.setConv_hp (b : Nat) (v : Conv) : (s.setConv b v).hp = s.hp := rfl
@[simp] theorem Dev.setConv_ops (b : Nat) (v : Conv) : (s.setConv b v).ops = s.ops := rfl
@[simp] theorem Dev.setConv_opGen (b : Nat) (v : Conv) : (s.setConv b v).opGen = s.opGen := rfl
@[simp] theorem Dev.setConv_bz (b : Nat) (v : Conv) : (s.setConv b v).bz = s.bz := rfl
@[simp] theorem Dev.setConv_rv (b : Nat) (v : Conv) : (s.setConv b v).rv = s.rv := rfl
@[simp] theorem Dev.setConv_tows (b : Nat) (v : Conv) : (s.setConv b v).tows = s.tows := rfl
@[simp] theorem Dev.setConv_mg (b : Nat) (v : Conv) : (s.setConv b v).mg = s.mg := rfl
@[simp] theorem Dev.setConv_sv (b : Nat) (v : Conv) : (s.setConv b v).sv = s.sv := rfl
@[simp] theorem Dev.setConv_pwr (b : Nat) (v : Conv) : (s.setConv b v).pwr = s.pwr := rfl
@[simp] theorem Dev.setConv_evq (b : Nat) (v : Conv) : (s.setConv b v).evq = s.evq := rfl
@[simp] theorem Dev.setConv_complq (b : Nat) (v : Conv) : (s.setConv b v).complq = s.complq := rfl
@[simp] theorem Dev.setConv_laneWaits (b : Nat) (v : Conv) : (s.setConv b v).laneWaits = s.laneWaits := rfl
@[simp] theorem Dev.setConv_reports (b : Nat) (v : Conv) : (s.setConv b v).reports = s.reports := rfl
@[simp] theorem Dev.setConv_telq (b : Nat) (v : Conv) : (s.setConv b v).telq = s.telq := rfl
@[simp] theorem Dev.setConv_out (b : Nat) (v : Conv) : (s.setConv b v).out = s.out := rfl
theorem Dev.conv_setConv (b : Nat) (v : Conv) (j : Nat) : (s.setConv b v).conv j = if j = b then v else s.conv j :=
  Sparse.get_set _ _ _ _ _
@[simp] theorem Dev.conv_setConv_same (b : Nat) (v : Conv) : (s.setConv b v).conv b = v := Sparse.get_set_same _ _ _ _
theorem Dev.conv_setConv_ne (b : Nat) (v : Conv) (j : Nat) (h : j ≠ b) : (s.setConv b v).conv j = s.conv j :=
  Sparse.get_set_ne _ _ _ _ _ h
theorem Dev.modConv_eq (b : Nat) (f : Conv → Conv) : s.modConv b f = s.setConv b (f (s.conv b)) := rfl

/-! ### setAux -/

@[simp] theorem Dev.setAux_freeCount (g : Nat) (v : Aux) : (s.setAux g v).freeCount = s.freeCount := rfl
@[simp] theorem Dev.setAux_ticks (g : Nat) (v : Aux) : (s.setAux g v).ticks = s.ticks := rfl
@[simp] theorem Dev.setAux_tbTime (g : Nat) (v : Aux) : (s.setAux g v).tbTime = s.tbTime := rfl
@[simp] theorem Dev.setAux_tb (g : Nat) (v : Aux) : (s.setAux g v).tb = s.tb := rfl
@[simp] theorem Dev.setAux_linkA (g : Nat) (v : Aux) : (s.setAux g v).linkA = s.linkA := rfl
@[simp] theorem Dev.setAux_linkB (g : Nat) (v : Aux) : (s.setAux g v).linkB = s.linkB := rfl
@[simp] theorem Dev.setAux_ring (g : Nat) (v : Aux) : (s.setAux g v).ring = s.ring := rfl
@[simp] theorem Dev.setAux_replicas (g : Nat) (v : Aux) : (s.setAux g v).replicas = s.replicas := rfl
@[simp] theorem Dev.setAux_lk (g : Nat) (v : Aux) : (s.setAux g v).lk = s.lk := rfl
@[simp] theorem Dev.setAux_cells (g : Nat) (v : Aux) : (s.setAux g v).cells = s.cells := rfl
@[simp] theorem Dev.setAux_blocks (g : Nat) (v : Aux) : (s.setAux g v).blocks = s.blocks := rfl
@[simp] theorem Dev.setAux_regions (g : Nat) (v : Aux) : (s.setAux g v).regions = s.regions := rfl
@[simp] theorem Dev.setAux_barges (g : Nat) (v : Aux) : (s.setAux g v).barges = s.barges := rfl
@[simp] theorem Dev.setAux_sram (g : Nat) (v : Aux) : (s.setAux g v).sram = s.sram := rfl
@[simp] theorem Dev.setAux_rram (g : Nat) (v : Aux) : (s.setAux g v).rram = s.rram := rfl
@[simp] theorem Dev.setAux_flash (g : Nat) (v : Aux) : (s.setAux g v).flash = s.flash := rfl
@[simp] theorem Dev.setAux_rtSlot (g : Nat) (v : Aux) : (s.setAux g v).rtSlot = s.rtSlot := rfl
@[simp] theorem Dev.setAux_custSlot (g : Nat) (v : Aux) : (s.setAux g v).custSlot = s.custSlot := rfl
@[simp] theorem Dev.setAux_dbg (g : Nat) (v : Aux) : (s.setAux g v).dbg = s.dbg := rfl
@[simp] theorem Dev.setAux_tap (g : Nat) (v : Aux) : (s.setAux g v).tap = s.tap := rfl
@[simp] theorem Dev.setAux_nodes (g : Nat) (v : Aux) : (s.setAux g v).nodes = s.nodes := rfl
@[simp] theorem Dev.setAux_lvDone (g : Nat) (v : Aux) : (s.setAux g v).lvDone = s.lvDone := rfl
@[simp] theorem Dev.setAux_rgnFail (g : Nat) (v : Aux) : (s.setAux g v).rgnFail = s.rgnFail := rfl
@[simp] theorem Dev.setAux_badSize (g : Nat) (v : Aux) : (s.setAux g v).badSize = s.badSize := rfl
@[simp] theorem Dev.setAux_rsvdWrites (g : Nat) (v : Aux) : (s.setAux g v).rsvdWrites = s.rsvdWrites := rfl
@[simp] theorem Dev.setAux_slices (g : Nat) (v : Aux) : (s.setAux g v).slices = s.slices := rfl
@[simp] theorem Dev.setAux_sliceQ (g : Nat) (v : Aux) : (s.setAux g v).sliceQ = s.sliceQ := rfl
@[simp] theorem Dev.setAux_lanes (g : Nat) (v : Aux) : (s.setAux g v).lanes = s.lanes := rfl
@[simp] theorem Dev.setAux_convs (g : Nat) (v : Aux) : (s.setAux g v).convs = s.convs := rfl
@[simp] theorem Dev.setAux_calSlots (g : Nat) (v : Aux) : (s.setAux g v).calSlots = s.calSlots := rfl
@[simp] theorem Dev.setAux_regs (g : Nat) (v : Aux) : (s.setAux g v).regs = s.regs := rfl
@[simp] theorem Dev.setAux_regsPend (g : Nat) (v : Aux) : (s.setAux g v).regsPend = s.regsPend := rfl
@[simp] theorem Dev.setAux_prof (g : Nat) (v : Aux) : (s.setAux g v).prof = s.prof := rfl
@[simp] theorem Dev.setAux_profPend (g : Nat) (v : Aux) : (s.setAux g v).profPend = s.profPend := rfl
@[simp] theorem Dev.setAux_colls (g : Nat) (v : Aux) : (s.setAux g v).colls = s.colls := rfl
@[simp] theorem Dev.setAux_err (g : Nat) (v : Aux) : (s.setAux g v).err = s.err := rfl
@[simp] theorem Dev.setAux_sluice (g : Nat) (v : Aux) : (s.setAux g v).sluice = s.sluice := rfl
@[simp] theorem Dev.setAux_slMsgs (g : Nat) (v : Aux) : (s.setAux g v).slMsgs = s.slMsgs := rfl
@[simp] theorem Dev.setAux_grants (g : Nat) (v : Aux) : (s.setAux g v).grants = s.grants := rfl
@[simp] theorem Dev.setAux_mirror (g : Nat) (v : Aux) : (s.setAux g v).mirror = s.mirror := rfl
@[simp] theorem Dev.setAux_mirrorStale (g : Nat) (v : Aux) : (s.setAux g v).mirrorStale = s.mirrorStale := rfl
@[simp] theorem Dev.setAux_fwdMem (g : Nat) (v : Aux) : (s.setAux g v).fwdMem = s.fwdMem := rfl
@[simp] theorem Dev.setAux_tripSeq (g : Nat) (v : Aux) : (s.setAux g v).tripSeq = s.tripSeq := rfl
@[simp] theorem Dev.setAux_ringPos (g : Nat) (v : Aux) : (s.setAux g v).ringPos = s.ringPos := rfl
@[simp] theorem Dev.setAux_hp (g : Nat) (v : Aux) : (s.setAux g v).hp = s.hp := rfl
@[simp] theorem Dev.setAux_ops (g : Nat) (v : Aux) : (s.setAux g v).ops = s.ops := rfl
@[simp] theorem Dev.setAux_opGen (g : Nat) (v : Aux) : (s.setAux g v).opGen = s.opGen := rfl
@[simp] theorem Dev.setAux_bz (g : Nat) (v : Aux) : (s.setAux g v).bz = s.bz := rfl
@[simp] theorem Dev.setAux_rv (g : Nat) (v : Aux) : (s.setAux g v).rv = s.rv := rfl
@[simp] theorem Dev.setAux_tows (g : Nat) (v : Aux) : (s.setAux g v).tows = s.tows := rfl
@[simp] theorem Dev.setAux_mg (g : Nat) (v : Aux) : (s.setAux g v).mg = s.mg := rfl
@[simp] theorem Dev.setAux_sv (g : Nat) (v : Aux) : (s.setAux g v).sv = s.sv := rfl
@[simp] theorem Dev.setAux_pwr (g : Nat) (v : Aux) : (s.setAux g v).pwr = s.pwr := rfl
@[simp] theorem Dev.setAux_evq (g : Nat) (v : Aux) : (s.setAux g v).evq = s.evq := rfl
@[simp] theorem Dev.setAux_complq (g : Nat) (v : Aux) : (s.setAux g v).complq = s.complq := rfl
@[simp] theorem Dev.setAux_laneWaits (g : Nat) (v : Aux) : (s.setAux g v).laneWaits = s.laneWaits := rfl
@[simp] theorem Dev.setAux_reports (g : Nat) (v : Aux) : (s.setAux g v).reports = s.reports := rfl
@[simp] theorem Dev.setAux_telq (g : Nat) (v : Aux) : (s.setAux g v).telq = s.telq := rfl
@[simp] theorem Dev.setAux_out (g : Nat) (v : Aux) : (s.setAux g v).out = s.out := rfl
theorem Dev.aux_setAux (g : Nat) (v : Aux) (j : Nat) : (s.setAux g v).aux j = if j = g then v else s.aux j :=
  Sparse.get_set _ _ _ _ _
@[simp] theorem Dev.aux_setAux_same (g : Nat) (v : Aux) : (s.setAux g v).aux g = v := Sparse.get_set_same _ _ _ _
theorem Dev.aux_setAux_ne (g : Nat) (v : Aux) (j : Nat) (h : j ≠ g) : (s.setAux g v).aux j = s.aux j :=
  Sparse.get_set_ne _ _ _ _ _ h
theorem Dev.modAux_eq (g : Nat) (f : Aux → Aux) : s.modAux g f = s.setAux g (f (s.aux g)) := rfl

/-! ### setSlice -/

@[simp] theorem Dev.setSlice_freeCount (k : Nat) (v : Slice) : (s.setSlice k v).freeCount = s.freeCount := rfl
@[simp] theorem Dev.setSlice_ticks (k : Nat) (v : Slice) : (s.setSlice k v).ticks = s.ticks := rfl
@[simp] theorem Dev.setSlice_tbTime (k : Nat) (v : Slice) : (s.setSlice k v).tbTime = s.tbTime := rfl
@[simp] theorem Dev.setSlice_tb (k : Nat) (v : Slice) : (s.setSlice k v).tb = s.tb := rfl
@[simp] theorem Dev.setSlice_linkA (k : Nat) (v : Slice) : (s.setSlice k v).linkA = s.linkA := rfl
@[simp] theorem Dev.setSlice_linkB (k : Nat) (v : Slice) : (s.setSlice k v).linkB = s.linkB := rfl
@[simp] theorem Dev.setSlice_ring (k : Nat) (v : Slice) : (s.setSlice k v).ring = s.ring := rfl
@[simp] theorem Dev.setSlice_replicas (k : Nat) (v : Slice) : (s.setSlice k v).replicas = s.replicas := rfl
@[simp] theorem Dev.setSlice_lk (k : Nat) (v : Slice) : (s.setSlice k v).lk = s.lk := rfl
@[simp] theorem Dev.setSlice_cells (k : Nat) (v : Slice) : (s.setSlice k v).cells = s.cells := rfl
@[simp] theorem Dev.setSlice_blocks (k : Nat) (v : Slice) : (s.setSlice k v).blocks = s.blocks := rfl
@[simp] theorem Dev.setSlice_regions (k : Nat) (v : Slice) : (s.setSlice k v).regions = s.regions := rfl
@[simp] theorem Dev.setSlice_barges (k : Nat) (v : Slice) : (s.setSlice k v).barges = s.barges := rfl
@[simp] theorem Dev.setSlice_sram (k : Nat) (v : Slice) : (s.setSlice k v).sram = s.sram := rfl
@[simp] theorem Dev.setSlice_rram (k : Nat) (v : Slice) : (s.setSlice k v).rram = s.rram := rfl
@[simp] theorem Dev.setSlice_flash (k : Nat) (v : Slice) : (s.setSlice k v).flash = s.flash := rfl
@[simp] theorem Dev.setSlice_rtSlot (k : Nat) (v : Slice) : (s.setSlice k v).rtSlot = s.rtSlot := rfl
@[simp] theorem Dev.setSlice_custSlot (k : Nat) (v : Slice) : (s.setSlice k v).custSlot = s.custSlot := rfl
@[simp] theorem Dev.setSlice_dbg (k : Nat) (v : Slice) : (s.setSlice k v).dbg = s.dbg := rfl
@[simp] theorem Dev.setSlice_tap (k : Nat) (v : Slice) : (s.setSlice k v).tap = s.tap := rfl
@[simp] theorem Dev.setSlice_nodes (k : Nat) (v : Slice) : (s.setSlice k v).nodes = s.nodes := rfl
@[simp] theorem Dev.setSlice_lvDone (k : Nat) (v : Slice) : (s.setSlice k v).lvDone = s.lvDone := rfl
@[simp] theorem Dev.setSlice_rgnFail (k : Nat) (v : Slice) : (s.setSlice k v).rgnFail = s.rgnFail := rfl
@[simp] theorem Dev.setSlice_badSize (k : Nat) (v : Slice) : (s.setSlice k v).badSize = s.badSize := rfl
@[simp] theorem Dev.setSlice_rsvdWrites (k : Nat) (v : Slice) : (s.setSlice k v).rsvdWrites = s.rsvdWrites := rfl
@[simp] theorem Dev.setSlice_sliceQ (k : Nat) (v : Slice) : (s.setSlice k v).sliceQ = s.sliceQ := rfl
@[simp] theorem Dev.setSlice_lanes (k : Nat) (v : Slice) : (s.setSlice k v).lanes = s.lanes := rfl
@[simp] theorem Dev.setSlice_convs (k : Nat) (v : Slice) : (s.setSlice k v).convs = s.convs := rfl
@[simp] theorem Dev.setSlice_auxs (k : Nat) (v : Slice) : (s.setSlice k v).auxs = s.auxs := rfl
@[simp] theorem Dev.setSlice_calSlots (k : Nat) (v : Slice) : (s.setSlice k v).calSlots = s.calSlots := rfl
@[simp] theorem Dev.setSlice_regs (k : Nat) (v : Slice) : (s.setSlice k v).regs = s.regs := rfl
@[simp] theorem Dev.setSlice_regsPend (k : Nat) (v : Slice) : (s.setSlice k v).regsPend = s.regsPend := rfl
@[simp] theorem Dev.setSlice_prof (k : Nat) (v : Slice) : (s.setSlice k v).prof = s.prof := rfl
@[simp] theorem Dev.setSlice_profPend (k : Nat) (v : Slice) : (s.setSlice k v).profPend = s.profPend := rfl
@[simp] theorem Dev.setSlice_colls (k : Nat) (v : Slice) : (s.setSlice k v).colls = s.colls := rfl
@[simp] theorem Dev.setSlice_err (k : Nat) (v : Slice) : (s.setSlice k v).err = s.err := rfl
@[simp] theorem Dev.setSlice_sluice (k : Nat) (v : Slice) : (s.setSlice k v).sluice = s.sluice := rfl
@[simp] theorem Dev.setSlice_slMsgs (k : Nat) (v : Slice) : (s.setSlice k v).slMsgs = s.slMsgs := rfl
@[simp] theorem Dev.setSlice_grants (k : Nat) (v : Slice) : (s.setSlice k v).grants = s.grants := rfl
@[simp] theorem Dev.setSlice_mirror (k : Nat) (v : Slice) : (s.setSlice k v).mirror = s.mirror := rfl
@[simp] theorem Dev.setSlice_mirrorStale (k : Nat) (v : Slice) : (s.setSlice k v).mirrorStale = s.mirrorStale := rfl
@[simp] theorem Dev.setSlice_fwdMem (k : Nat) (v : Slice) : (s.setSlice k v).fwdMem = s.fwdMem := rfl
@[simp] theorem Dev.setSlice_tripSeq (k : Nat) (v : Slice) : (s.setSlice k v).tripSeq = s.tripSeq := rfl
@[simp] theorem Dev.setSlice_ringPos (k : Nat) (v : Slice) : (s.setSlice k v).ringPos = s.ringPos := rfl
@[simp] theorem Dev.setSlice_hp (k : Nat) (v : Slice) : (s.setSlice k v).hp = s.hp := rfl
@[simp] theorem Dev.setSlice_ops (k : Nat) (v : Slice) : (s.setSlice k v).ops = s.ops := rfl
@[simp] theorem Dev.setSlice_opGen (k : Nat) (v : Slice) : (s.setSlice k v).opGen = s.opGen := rfl
@[simp] theorem Dev.setSlice_bz (k : Nat) (v : Slice) : (s.setSlice k v).bz = s.bz := rfl
@[simp] theorem Dev.setSlice_rv (k : Nat) (v : Slice) : (s.setSlice k v).rv = s.rv := rfl
@[simp] theorem Dev.setSlice_tows (k : Nat) (v : Slice) : (s.setSlice k v).tows = s.tows := rfl
@[simp] theorem Dev.setSlice_mg (k : Nat) (v : Slice) : (s.setSlice k v).mg = s.mg := rfl
@[simp] theorem Dev.setSlice_sv (k : Nat) (v : Slice) : (s.setSlice k v).sv = s.sv := rfl
@[simp] theorem Dev.setSlice_pwr (k : Nat) (v : Slice) : (s.setSlice k v).pwr = s.pwr := rfl
@[simp] theorem Dev.setSlice_evq (k : Nat) (v : Slice) : (s.setSlice k v).evq = s.evq := rfl
@[simp] theorem Dev.setSlice_complq (k : Nat) (v : Slice) : (s.setSlice k v).complq = s.complq := rfl
@[simp] theorem Dev.setSlice_laneWaits (k : Nat) (v : Slice) : (s.setSlice k v).laneWaits = s.laneWaits := rfl
@[simp] theorem Dev.setSlice_reports (k : Nat) (v : Slice) : (s.setSlice k v).reports = s.reports := rfl
@[simp] theorem Dev.setSlice_telq (k : Nat) (v : Slice) : (s.setSlice k v).telq = s.telq := rfl
@[simp] theorem Dev.setSlice_out (k : Nat) (v : Slice) : (s.setSlice k v).out = s.out := rfl
theorem Dev.slice_setSlice (k : Nat) (v : Slice) (j : Nat) : (s.setSlice k v).slice j = if j = k then v else s.slice j :=
  Sparse.get_set _ _ _ _ _
@[simp] theorem Dev.slice_setSlice_same (k : Nat) (v : Slice) : (s.setSlice k v).slice k = v := Sparse.get_set_same _ _ _ _
theorem Dev.slice_setSlice_ne (k : Nat) (v : Slice) (j : Nat) (h : j ≠ k) : (s.setSlice k v).slice j = s.slice j :=
  Sparse.get_set_ne _ _ _ _ _ h
theorem Dev.modSlice_eq (k : Nat) (f : Slice → Slice) : s.modSlice k f = s.setSlice k (f (s.slice k)) := rfl

/-! ### setTow -/

@[simp] theorem Dev.setTow_freeCount (t : Nat) (v : Towpath) : (s.setTow t v).freeCount = s.freeCount := rfl
@[simp] theorem Dev.setTow_ticks (t : Nat) (v : Towpath) : (s.setTow t v).ticks = s.ticks := rfl
@[simp] theorem Dev.setTow_tbTime (t : Nat) (v : Towpath) : (s.setTow t v).tbTime = s.tbTime := rfl
@[simp] theorem Dev.setTow_tb (t : Nat) (v : Towpath) : (s.setTow t v).tb = s.tb := rfl
@[simp] theorem Dev.setTow_linkA (t : Nat) (v : Towpath) : (s.setTow t v).linkA = s.linkA := rfl
@[simp] theorem Dev.setTow_linkB (t : Nat) (v : Towpath) : (s.setTow t v).linkB = s.linkB := rfl
@[simp] theorem Dev.setTow_ring (t : Nat) (v : Towpath) : (s.setTow t v).ring = s.ring := rfl
@[simp] theorem Dev.setTow_replicas (t : Nat) (v : Towpath) : (s.setTow t v).replicas = s.replicas := rfl
@[simp] theorem Dev.setTow_lk (t : Nat) (v : Towpath) : (s.setTow t v).lk = s.lk := rfl
@[simp] theorem Dev.setTow_cells (t : Nat) (v : Towpath) : (s.setTow t v).cells = s.cells := rfl
@[simp] theorem Dev.setTow_blocks (t : Nat) (v : Towpath) : (s.setTow t v).blocks = s.blocks := rfl
@[simp] theorem Dev.setTow_regions (t : Nat) (v : Towpath) : (s.setTow t v).regions = s.regions := rfl
@[simp] theorem Dev.setTow_barges (t : Nat) (v : Towpath) : (s.setTow t v).barges = s.barges := rfl
@[simp] theorem Dev.setTow_sram (t : Nat) (v : Towpath) : (s.setTow t v).sram = s.sram := rfl
@[simp] theorem Dev.setTow_rram (t : Nat) (v : Towpath) : (s.setTow t v).rram = s.rram := rfl
@[simp] theorem Dev.setTow_flash (t : Nat) (v : Towpath) : (s.setTow t v).flash = s.flash := rfl
@[simp] theorem Dev.setTow_rtSlot (t : Nat) (v : Towpath) : (s.setTow t v).rtSlot = s.rtSlot := rfl
@[simp] theorem Dev.setTow_custSlot (t : Nat) (v : Towpath) : (s.setTow t v).custSlot = s.custSlot := rfl
@[simp] theorem Dev.setTow_dbg (t : Nat) (v : Towpath) : (s.setTow t v).dbg = s.dbg := rfl
@[simp] theorem Dev.setTow_tap (t : Nat) (v : Towpath) : (s.setTow t v).tap = s.tap := rfl
@[simp] theorem Dev.setTow_nodes (t : Nat) (v : Towpath) : (s.setTow t v).nodes = s.nodes := rfl
@[simp] theorem Dev.setTow_lvDone (t : Nat) (v : Towpath) : (s.setTow t v).lvDone = s.lvDone := rfl
@[simp] theorem Dev.setTow_rgnFail (t : Nat) (v : Towpath) : (s.setTow t v).rgnFail = s.rgnFail := rfl
@[simp] theorem Dev.setTow_badSize (t : Nat) (v : Towpath) : (s.setTow t v).badSize = s.badSize := rfl
@[simp] theorem Dev.setTow_rsvdWrites (t : Nat) (v : Towpath) : (s.setTow t v).rsvdWrites = s.rsvdWrites := rfl
@[simp] theorem Dev.setTow_slices (t : Nat) (v : Towpath) : (s.setTow t v).slices = s.slices := rfl
@[simp] theorem Dev.setTow_sliceQ (t : Nat) (v : Towpath) : (s.setTow t v).sliceQ = s.sliceQ := rfl
@[simp] theorem Dev.setTow_lanes (t : Nat) (v : Towpath) : (s.setTow t v).lanes = s.lanes := rfl
@[simp] theorem Dev.setTow_convs (t : Nat) (v : Towpath) : (s.setTow t v).convs = s.convs := rfl
@[simp] theorem Dev.setTow_auxs (t : Nat) (v : Towpath) : (s.setTow t v).auxs = s.auxs := rfl
@[simp] theorem Dev.setTow_calSlots (t : Nat) (v : Towpath) : (s.setTow t v).calSlots = s.calSlots := rfl
@[simp] theorem Dev.setTow_regs (t : Nat) (v : Towpath) : (s.setTow t v).regs = s.regs := rfl
@[simp] theorem Dev.setTow_regsPend (t : Nat) (v : Towpath) : (s.setTow t v).regsPend = s.regsPend := rfl
@[simp] theorem Dev.setTow_prof (t : Nat) (v : Towpath) : (s.setTow t v).prof = s.prof := rfl
@[simp] theorem Dev.setTow_profPend (t : Nat) (v : Towpath) : (s.setTow t v).profPend = s.profPend := rfl
@[simp] theorem Dev.setTow_colls (t : Nat) (v : Towpath) : (s.setTow t v).colls = s.colls := rfl
@[simp] theorem Dev.setTow_err (t : Nat) (v : Towpath) : (s.setTow t v).err = s.err := rfl
@[simp] theorem Dev.setTow_sluice (t : Nat) (v : Towpath) : (s.setTow t v).sluice = s.sluice := rfl
@[simp] theorem Dev.setTow_slMsgs (t : Nat) (v : Towpath) : (s.setTow t v).slMsgs = s.slMsgs := rfl
@[simp] theorem Dev.setTow_grants (t : Nat) (v : Towpath) : (s.setTow t v).grants = s.grants := rfl
@[simp] theorem Dev.setTow_mirror (t : Nat) (v : Towpath) : (s.setTow t v).mirror = s.mirror := rfl
@[simp] theorem Dev.setTow_mirrorStale (t : Nat) (v : Towpath) : (s.setTow t v).mirrorStale = s.mirrorStale := rfl
@[simp] theorem Dev.setTow_fwdMem (t : Nat) (v : Towpath) : (s.setTow t v).fwdMem = s.fwdMem := rfl
@[simp] theorem Dev.setTow_tripSeq (t : Nat) (v : Towpath) : (s.setTow t v).tripSeq = s.tripSeq := rfl
@[simp] theorem Dev.setTow_ringPos (t : Nat) (v : Towpath) : (s.setTow t v).ringPos = s.ringPos := rfl
@[simp] theorem Dev.setTow_hp (t : Nat) (v : Towpath) : (s.setTow t v).hp = s.hp := rfl
@[simp] theorem Dev.setTow_ops (t : Nat) (v : Towpath) : (s.setTow t v).ops = s.ops := rfl
@[simp] theorem Dev.setTow_opGen (t : Nat) (v : Towpath) : (s.setTow t v).opGen = s.opGen := rfl
@[simp] theorem Dev.setTow_bz (t : Nat) (v : Towpath) : (s.setTow t v).bz = s.bz := rfl
@[simp] theorem Dev.setTow_rv (t : Nat) (v : Towpath) : (s.setTow t v).rv = s.rv := rfl
@[simp] theorem Dev.setTow_mg (t : Nat) (v : Towpath) : (s.setTow t v).mg = s.mg := rfl
@[simp] theorem Dev.setTow_sv (t : Nat) (v : Towpath) : (s.setTow t v).sv = s.sv := rfl
@[simp] theorem Dev.setTow_pwr (t : Nat) (v : Towpath) : (s.setTow t v).pwr = s.pwr := rfl
@[simp] theorem Dev.setTow_evq (t : Nat) (v : Towpath) : (s.setTow t v).evq = s.evq := rfl
@[simp] theorem Dev.setTow_complq (t : Nat) (v : Towpath) : (s.setTow t v).complq = s.complq := rfl
@[simp] theorem Dev.setTow_laneWaits (t : Nat) (v : Towpath) : (s.setTow t v).laneWaits = s.laneWaits := rfl
@[simp] theorem Dev.setTow_reports (t : Nat) (v : Towpath) : (s.setTow t v).reports = s.reports := rfl
@[simp] theorem Dev.setTow_telq (t : Nat) (v : Towpath) : (s.setTow t v).telq = s.telq := rfl
@[simp] theorem Dev.setTow_out (t : Nat) (v : Towpath) : (s.setTow t v).out = s.out := rfl
theorem Dev.tow_setTow (t : Nat) (v : Towpath) (j : Nat) : (s.setTow t v).tow j = if j = t then v else s.tow j :=
  Sparse.get_set _ _ _ _ _
@[simp] theorem Dev.tow_setTow_same (t : Nat) (v : Towpath) : (s.setTow t v).tow t = v := Sparse.get_set_same _ _ _ _
theorem Dev.tow_setTow_ne (t : Nat) (v : Towpath) (j : Nat) (h : j ≠ t) : (s.setTow t v).tow j = s.tow j :=
  Sparse.get_set_ne _ _ _ _ _ h
theorem Dev.modTow_eq (t : Nat) (f : Towpath → Towpath) : s.modTow t f = s.setTow t (f (s.tow t)) := rfl

/-! ### setNode -/

@[simp] theorem Dev.setNode_freeCount (n : Nat) (v : Node) : (s.setNode n v).freeCount = s.freeCount := rfl
@[simp] theorem Dev.setNode_ticks (n : Nat) (v : Node) : (s.setNode n v).ticks = s.ticks := rfl
@[simp] theorem Dev.setNode_tbTime (n : Nat) (v : Node) : (s.setNode n v).tbTime = s.tbTime := rfl
@[simp] theorem Dev.setNode_tb (n : Nat) (v : Node) : (s.setNode n v).tb = s.tb := rfl
@[simp] theorem Dev.setNode_linkA (n : Nat) (v : Node) : (s.setNode n v).linkA = s.linkA := rfl
@[simp] theorem Dev.setNode_linkB (n : Nat) (v : Node) : (s.setNode n v).linkB = s.linkB := rfl
@[simp] theorem Dev.setNode_ring (n : Nat) (v : Node) : (s.setNode n v).ring = s.ring := rfl
@[simp] theorem Dev.setNode_replicas (n : Nat) (v : Node) : (s.setNode n v).replicas = s.replicas := rfl
@[simp] theorem Dev.setNode_lk (n : Nat) (v : Node) : (s.setNode n v).lk = s.lk := rfl
@[simp] theorem Dev.setNode_cells (n : Nat) (v : Node) : (s.setNode n v).cells = s.cells := rfl
@[simp] theorem Dev.setNode_blocks (n : Nat) (v : Node) : (s.setNode n v).blocks = s.blocks := rfl
@[simp] theorem Dev.setNode_regions (n : Nat) (v : Node) : (s.setNode n v).regions = s.regions := rfl
@[simp] theorem Dev.setNode_barges (n : Nat) (v : Node) : (s.setNode n v).barges = s.barges := rfl
@[simp] theorem Dev.setNode_sram (n : Nat) (v : Node) : (s.setNode n v).sram = s.sram := rfl
@[simp] theorem Dev.setNode_rram (n : Nat) (v : Node) : (s.setNode n v).rram = s.rram := rfl
@[simp] theorem Dev.setNode_flash (n : Nat) (v : Node) : (s.setNode n v).flash = s.flash := rfl
@[simp] theorem Dev.setNode_rtSlot (n : Nat) (v : Node) : (s.setNode n v).rtSlot = s.rtSlot := rfl
@[simp] theorem Dev.setNode_custSlot (n : Nat) (v : Node) : (s.setNode n v).custSlot = s.custSlot := rfl
@[simp] theorem Dev.setNode_dbg (n : Nat) (v : Node) : (s.setNode n v).dbg = s.dbg := rfl
@[simp] theorem Dev.setNode_tap (n : Nat) (v : Node) : (s.setNode n v).tap = s.tap := rfl
@[simp] theorem Dev.setNode_lvDone (n : Nat) (v : Node) : (s.setNode n v).lvDone = s.lvDone := rfl
@[simp] theorem Dev.setNode_rgnFail (n : Nat) (v : Node) : (s.setNode n v).rgnFail = s.rgnFail := rfl
@[simp] theorem Dev.setNode_badSize (n : Nat) (v : Node) : (s.setNode n v).badSize = s.badSize := rfl
@[simp] theorem Dev.setNode_rsvdWrites (n : Nat) (v : Node) : (s.setNode n v).rsvdWrites = s.rsvdWrites := rfl
@[simp] theorem Dev.setNode_slices (n : Nat) (v : Node) : (s.setNode n v).slices = s.slices := rfl
@[simp] theorem Dev.setNode_sliceQ (n : Nat) (v : Node) : (s.setNode n v).sliceQ = s.sliceQ := rfl
@[simp] theorem Dev.setNode_lanes (n : Nat) (v : Node) : (s.setNode n v).lanes = s.lanes := rfl
@[simp] theorem Dev.setNode_convs (n : Nat) (v : Node) : (s.setNode n v).convs = s.convs := rfl
@[simp] theorem Dev.setNode_auxs (n : Nat) (v : Node) : (s.setNode n v).auxs = s.auxs := rfl
@[simp] theorem Dev.setNode_calSlots (n : Nat) (v : Node) : (s.setNode n v).calSlots = s.calSlots := rfl
@[simp] theorem Dev.setNode_regs (n : Nat) (v : Node) : (s.setNode n v).regs = s.regs := rfl
@[simp] theorem Dev.setNode_regsPend (n : Nat) (v : Node) : (s.setNode n v).regsPend = s.regsPend := rfl
@[simp] theorem Dev.setNode_prof (n : Nat) (v : Node) : (s.setNode n v).prof = s.prof := rfl
@[simp] theorem Dev.setNode_profPend (n : Nat) (v : Node) : (s.setNode n v).profPend = s.profPend := rfl
@[simp] theorem Dev.setNode_colls (n : Nat) (v : Node) : (s.setNode n v).colls = s.colls := rfl
@[simp] theorem Dev.setNode_err (n : Nat) (v : Node) : (s.setNode n v).err = s.err := rfl
@[simp] theorem Dev.setNode_sluice (n : Nat) (v : Node) : (s.setNode n v).sluice = s.sluice := rfl
@[simp] theorem Dev.setNode_slMsgs (n : Nat) (v : Node) : (s.setNode n v).slMsgs = s.slMsgs := rfl
@[simp] theorem Dev.setNode_grants (n : Nat) (v : Node) : (s.setNode n v).grants = s.grants := rfl
@[simp] theorem Dev.setNode_mirror (n : Nat) (v : Node) : (s.setNode n v).mirror = s.mirror := rfl
@[simp] theorem Dev.setNode_mirrorStale (n : Nat) (v : Node) : (s.setNode n v).mirrorStale = s.mirrorStale := rfl
@[simp] theorem Dev.setNode_fwdMem (n : Nat) (v : Node) : (s.setNode n v).fwdMem = s.fwdMem := rfl
@[simp] theorem Dev.setNode_tripSeq (n : Nat) (v : Node) : (s.setNode n v).tripSeq = s.tripSeq := rfl
@[simp] theorem Dev.setNode_ringPos (n : Nat) (v : Node) : (s.setNode n v).ringPos = s.ringPos := rfl
@[simp] theorem Dev.setNode_hp (n : Nat) (v : Node) : (s.setNode n v).hp = s.hp := rfl
@[simp] theorem Dev.setNode_ops (n : Nat) (v : Node) : (s.setNode n v).ops = s.ops := rfl
@[simp] theorem Dev.setNode_opGen (n : Nat) (v : Node) : (s.setNode n v).opGen = s.opGen := rfl
@[simp] theorem Dev.setNode_bz (n : Nat) (v : Node) : (s.setNode n v).bz = s.bz := rfl
@[simp] theorem Dev.setNode_rv (n : Nat) (v : Node) : (s.setNode n v).rv = s.rv := rfl
@[simp] theorem Dev.setNode_tows (n : Nat) (v : Node) : (s.setNode n v).tows = s.tows := rfl
@[simp] theorem Dev.setNode_mg (n : Nat) (v : Node) : (s.setNode n v).mg = s.mg := rfl
@[simp] theorem Dev.setNode_sv (n : Nat) (v : Node) : (s.setNode n v).sv = s.sv := rfl
@[simp] theorem Dev.setNode_pwr (n : Nat) (v : Node) : (s.setNode n v).pwr = s.pwr := rfl
@[simp] theorem Dev.setNode_evq (n : Nat) (v : Node) : (s.setNode n v).evq = s.evq := rfl
@[simp] theorem Dev.setNode_complq (n : Nat) (v : Node) : (s.setNode n v).complq = s.complq := rfl
@[simp] theorem Dev.setNode_laneWaits (n : Nat) (v : Node) : (s.setNode n v).laneWaits = s.laneWaits := rfl
@[simp] theorem Dev.setNode_reports (n : Nat) (v : Node) : (s.setNode n v).reports = s.reports := rfl
@[simp] theorem Dev.setNode_telq (n : Nat) (v : Node) : (s.setNode n v).telq = s.telq := rfl
@[simp] theorem Dev.setNode_out (n : Nat) (v : Node) : (s.setNode n v).out = s.out := rfl
theorem Dev.node_setNode (n : Nat) (v : Node) (j : Nat) : (s.setNode n v).node j = if j = n then v else s.node j :=
  Sparse.get_set _ _ _ _ _
@[simp] theorem Dev.node_setNode_same (n : Nat) (v : Node) : (s.setNode n v).node n = v := Sparse.get_set_same _ _ _ _
theorem Dev.node_setNode_ne (n : Nat) (v : Node) (j : Nat) (h : j ≠ n) : (s.setNode n v).node j = s.node j :=
  Sparse.get_set_ne _ _ _ _ _ h
theorem Dev.modNode_eq (n : Nat) (f : Node → Node) : s.modNode n f = s.setNode n (f (s.node n)) := rfl

/-! ### setOp -/

@[simp] theorem Dev.setOp_freeCount (n : Nat) (v : Option Op) : (s.setOp n v).freeCount = s.freeCount := rfl
@[simp] theorem Dev.setOp_ticks (n : Nat) (v : Option Op) : (s.setOp n v).ticks = s.ticks := rfl
@[simp] theorem Dev.setOp_tbTime (n : Nat) (v : Option Op) : (s.setOp n v).tbTime = s.tbTime := rfl
@[simp] theorem Dev.setOp_tb (n : Nat) (v : Option Op) : (s.setOp n v).tb = s.tb := rfl
@[simp] theorem Dev.setOp_linkA (n : Nat) (v : Option Op) : (s.setOp n v).linkA = s.linkA := rfl
@[simp] theorem Dev.setOp_linkB (n : Nat) (v : Option Op) : (s.setOp n v).linkB = s.linkB := rfl
@[simp] theorem Dev.setOp_ring (n : Nat) (v : Option Op) : (s.setOp n v).ring = s.ring := rfl
@[simp] theorem Dev.setOp_replicas (n : Nat) (v : Option Op) : (s.setOp n v).replicas = s.replicas := rfl
@[simp] theorem Dev.setOp_lk (n : Nat) (v : Option Op) : (s.setOp n v).lk = s.lk := rfl
@[simp] theorem Dev.setOp_cells (n : Nat) (v : Option Op) : (s.setOp n v).cells = s.cells := rfl
@[simp] theorem Dev.setOp_blocks (n : Nat) (v : Option Op) : (s.setOp n v).blocks = s.blocks := rfl
@[simp] theorem Dev.setOp_regions (n : Nat) (v : Option Op) : (s.setOp n v).regions = s.regions := rfl
@[simp] theorem Dev.setOp_barges (n : Nat) (v : Option Op) : (s.setOp n v).barges = s.barges := rfl
@[simp] theorem Dev.setOp_sram (n : Nat) (v : Option Op) : (s.setOp n v).sram = s.sram := rfl
@[simp] theorem Dev.setOp_rram (n : Nat) (v : Option Op) : (s.setOp n v).rram = s.rram := rfl
@[simp] theorem Dev.setOp_flash (n : Nat) (v : Option Op) : (s.setOp n v).flash = s.flash := rfl
@[simp] theorem Dev.setOp_rtSlot (n : Nat) (v : Option Op) : (s.setOp n v).rtSlot = s.rtSlot := rfl
@[simp] theorem Dev.setOp_custSlot (n : Nat) (v : Option Op) : (s.setOp n v).custSlot = s.custSlot := rfl
@[simp] theorem Dev.setOp_dbg (n : Nat) (v : Option Op) : (s.setOp n v).dbg = s.dbg := rfl
@[simp] theorem Dev.setOp_tap (n : Nat) (v : Option Op) : (s.setOp n v).tap = s.tap := rfl
@[simp] theorem Dev.setOp_nodes (n : Nat) (v : Option Op) : (s.setOp n v).nodes = s.nodes := rfl
@[simp] theorem Dev.setOp_lvDone (n : Nat) (v : Option Op) : (s.setOp n v).lvDone = s.lvDone := rfl
@[simp] theorem Dev.setOp_rgnFail (n : Nat) (v : Option Op) : (s.setOp n v).rgnFail = s.rgnFail := rfl
@[simp] theorem Dev.setOp_badSize (n : Nat) (v : Option Op) : (s.setOp n v).badSize = s.badSize := rfl
@[simp] theorem Dev.setOp_rsvdWrites (n : Nat) (v : Option Op) : (s.setOp n v).rsvdWrites = s.rsvdWrites := rfl
@[simp] theorem Dev.setOp_slices (n : Nat) (v : Option Op) : (s.setOp n v).slices = s.slices := rfl
@[simp] theorem Dev.setOp_sliceQ (n : Nat) (v : Option Op) : (s.setOp n v).sliceQ = s.sliceQ := rfl
@[simp] theorem Dev.setOp_lanes (n : Nat) (v : Option Op) : (s.setOp n v).lanes = s.lanes := rfl
@[simp] theorem Dev.setOp_convs (n : Nat) (v : Option Op) : (s.setOp n v).convs = s.convs := rfl
@[simp] theorem Dev.setOp_auxs (n : Nat) (v : Option Op) : (s.setOp n v).auxs = s.auxs := rfl
@[simp] theorem Dev.setOp_calSlots (n : Nat) (v : Option Op) : (s.setOp n v).calSlots = s.calSlots := rfl
@[simp] theorem Dev.setOp_regs (n : Nat) (v : Option Op) : (s.setOp n v).regs = s.regs := rfl
@[simp] theorem Dev.setOp_regsPend (n : Nat) (v : Option Op) : (s.setOp n v).regsPend = s.regsPend := rfl
@[simp] theorem Dev.setOp_prof (n : Nat) (v : Option Op) : (s.setOp n v).prof = s.prof := rfl
@[simp] theorem Dev.setOp_profPend (n : Nat) (v : Option Op) : (s.setOp n v).profPend = s.profPend := rfl
@[simp] theorem Dev.setOp_colls (n : Nat) (v : Option Op) : (s.setOp n v).colls = s.colls := rfl
@[simp] theorem Dev.setOp_err (n : Nat) (v : Option Op) : (s.setOp n v).err = s.err := rfl
@[simp] theorem Dev.setOp_sluice (n : Nat) (v : Option Op) : (s.setOp n v).sluice = s.sluice := rfl
@[simp] theorem Dev.setOp_slMsgs (n : Nat) (v : Option Op) : (s.setOp n v).slMsgs = s.slMsgs := rfl
@[simp] theorem Dev.setOp_grants (n : Nat) (v : Option Op) : (s.setOp n v).grants = s.grants := rfl
@[simp] theorem Dev.setOp_mirror (n : Nat) (v : Option Op) : (s.setOp n v).mirror = s.mirror := rfl
@[simp] theorem Dev.setOp_mirrorStale (n : Nat) (v : Option Op) : (s.setOp n v).mirrorStale = s.mirrorStale := rfl
@[simp] theorem Dev.setOp_fwdMem (n : Nat) (v : Option Op) : (s.setOp n v).fwdMem = s.fwdMem := rfl
@[simp] theorem Dev.setOp_tripSeq (n : Nat) (v : Option Op) : (s.setOp n v).tripSeq = s.tripSeq := rfl
@[simp] theorem Dev.setOp_ringPos (n : Nat) (v : Option Op) : (s.setOp n v).ringPos = s.ringPos := rfl
@[simp] theorem Dev.setOp_hp (n : Nat) (v : Option Op) : (s.setOp n v).hp = s.hp := rfl
@[simp] theorem Dev.setOp_opGen (n : Nat) (v : Option Op) : (s.setOp n v).opGen = s.opGen := rfl
@[simp] theorem Dev.setOp_bz (n : Nat) (v : Option Op) : (s.setOp n v).bz = s.bz := rfl
@[simp] theorem Dev.setOp_rv (n : Nat) (v : Option Op) : (s.setOp n v).rv = s.rv := rfl
@[simp] theorem Dev.setOp_tows (n : Nat) (v : Option Op) : (s.setOp n v).tows = s.tows := rfl
@[simp] theorem Dev.setOp_mg (n : Nat) (v : Option Op) : (s.setOp n v).mg = s.mg := rfl
@[simp] theorem Dev.setOp_sv (n : Nat) (v : Option Op) : (s.setOp n v).sv = s.sv := rfl
@[simp] theorem Dev.setOp_pwr (n : Nat) (v : Option Op) : (s.setOp n v).pwr = s.pwr := rfl
@[simp] theorem Dev.setOp_evq (n : Nat) (v : Option Op) : (s.setOp n v).evq = s.evq := rfl
@[simp] theorem Dev.setOp_complq (n : Nat) (v : Option Op) : (s.setOp n v).complq = s.complq := rfl
@[simp] theorem Dev.setOp_laneWaits (n : Nat) (v : Option Op) : (s.setOp n v).laneWaits = s.laneWaits := rfl
@[simp] theorem Dev.setOp_reports (n : Nat) (v : Option Op) : (s.setOp n v).reports = s.reports := rfl
@[simp] theorem Dev.setOp_telq (n : Nat) (v : Option Op) : (s.setOp n v).telq = s.telq := rfl
@[simp] theorem Dev.setOp_out (n : Nat) (v : Option Op) : (s.setOp n v).out = s.out := rfl
theorem Dev.op_setOp (n : Nat) (v : Option Op) (j : Nat) : (s.setOp n v).op j = if j = n then v else s.op j :=
  Sparse.get_set _ _ _ _ _
@[simp] theorem Dev.op_setOp_same (n : Nat) (v : Option Op) : (s.setOp n v).op n = v := Sparse.get_set_same _ _ _ _
theorem Dev.op_setOp_ne (n : Nat) (v : Option Op) (j : Nat) (h : j ≠ n) : (s.setOp n v).op j = s.op j :=
  Sparse.get_set_ne _ _ _ _ _ h

/-! ### setReplica -/

@[simp] theorem Dev.setReplica_freeCount (g : Nat) (v : Replica) : (s.setReplica g v).freeCount = s.freeCount := rfl
@[simp] theorem Dev.setReplica_ticks (g : Nat) (v : Replica) : (s.setReplica g v).ticks = s.ticks := rfl
@[simp] theorem Dev.setReplica_tbTime (g : Nat) (v : Replica) : (s.setReplica g v).tbTime = s.tbTime := rfl
@[simp] theorem Dev.setReplica_tb (g : Nat) (v : Replica) : (s.setReplica g v).tb = s.tb := rfl
@[simp] theorem Dev.setReplica_linkA (g : Nat) (v : Replica) : (s.setReplica g v).linkA = s.linkA := rfl
@[simp] theorem Dev.setReplica_linkB (g : Nat) (v : Replica) : (s.setReplica g v).linkB = s.linkB := rfl
@[simp] theorem Dev.setReplica_ring (g : Nat) (v : Replica) : (s.setReplica g v).ring = s.ring := rfl
@[simp] theorem Dev.setReplica_lk (g : Nat) (v : Replica) : (s.setReplica g v).lk = s.lk := rfl
@[simp] theorem Dev.setReplica_cells (g : Nat) (v : Replica) : (s.setReplica g v).cells = s.cells := rfl
@[simp] theorem Dev.setReplica_blocks (g : Nat) (v : Replica) : (s.setReplica g v).blocks = s.blocks := rfl
@[simp] theorem Dev.setReplica_regions (g : Nat) (v : Replica) : (s.setReplica g v).regions = s.regions := rfl
@[simp] theorem Dev.setReplica_barges (g : Nat) (v : Replica) : (s.setReplica g v).barges = s.barges := rfl
@[simp] theorem Dev.setReplica_sram (g : Nat) (v : Replica) : (s.setReplica g v).sram = s.sram := rfl
@[simp] theorem Dev.setReplica_rram (g : Nat) (v : Replica) : (s.setReplica g v).rram = s.rram := rfl
@[simp] theorem Dev.setReplica_flash (g : Nat) (v : Replica) : (s.setReplica g v).flash = s.flash := rfl
@[simp] theorem Dev.setReplica_rtSlot (g : Nat) (v : Replica) : (s.setReplica g v).rtSlot = s.rtSlot := rfl
@[simp] theorem Dev.setReplica_custSlot (g : Nat) (v : Replica) : (s.setReplica g v).custSlot = s.custSlot := rfl
@[simp] theorem Dev.setReplica_dbg (g : Nat) (v : Replica) : (s.setReplica g v).dbg = s.dbg := rfl
@[simp] theorem Dev.setReplica_tap (g : Nat) (v : Replica) : (s.setReplica g v).tap = s.tap := rfl
@[simp] theorem Dev.setReplica_nodes (g : Nat) (v : Replica) : (s.setReplica g v).nodes = s.nodes := rfl
@[simp] theorem Dev.setReplica_lvDone (g : Nat) (v : Replica) : (s.setReplica g v).lvDone = s.lvDone := rfl
@[simp] theorem Dev.setReplica_rgnFail (g : Nat) (v : Replica) : (s.setReplica g v).rgnFail = s.rgnFail := rfl
@[simp] theorem Dev.setReplica_badSize (g : Nat) (v : Replica) : (s.setReplica g v).badSize = s.badSize := rfl
@[simp] theorem Dev.setReplica_rsvdWrites (g : Nat) (v : Replica) : (s.setReplica g v).rsvdWrites = s.rsvdWrites := rfl
@[simp] theorem Dev.setReplica_slices (g : Nat) (v : Replica) : (s.setReplica g v).slices = s.slices := rfl
@[simp] theorem Dev.setReplica_sliceQ (g : Nat) (v : Replica) : (s.setReplica g v).sliceQ = s.sliceQ := rfl
@[simp] theorem Dev.setReplica_lanes (g : Nat) (v : Replica) : (s.setReplica g v).lanes = s.lanes := rfl
@[simp] theorem Dev.setReplica_convs (g : Nat) (v : Replica) : (s.setReplica g v).convs = s.convs := rfl
@[simp] theorem Dev.setReplica_auxs (g : Nat) (v : Replica) : (s.setReplica g v).auxs = s.auxs := rfl
@[simp] theorem Dev.setReplica_calSlots (g : Nat) (v : Replica) : (s.setReplica g v).calSlots = s.calSlots := rfl
@[simp] theorem Dev.setReplica_regs (g : Nat) (v : Replica) : (s.setReplica g v).regs = s.regs := rfl
@[simp] theorem Dev.setReplica_regsPend (g : Nat) (v : Replica) : (s.setReplica g v).regsPend = s.regsPend := rfl
@[simp] theorem Dev.setReplica_prof (g : Nat) (v : Replica) : (s.setReplica g v).prof = s.prof := rfl
@[simp] theorem Dev.setReplica_profPend (g : Nat) (v : Replica) : (s.setReplica g v).profPend = s.profPend := rfl
@[simp] theorem Dev.setReplica_colls (g : Nat) (v : Replica) : (s.setReplica g v).colls = s.colls := rfl
@[simp] theorem Dev.setReplica_err (g : Nat) (v : Replica) : (s.setReplica g v).err = s.err := rfl
@[simp] theorem Dev.setReplica_sluice (g : Nat) (v : Replica) : (s.setReplica g v).sluice = s.sluice := rfl
@[simp] theorem Dev.setReplica_slMsgs (g : Nat) (v : Replica) : (s.setReplica g v).slMsgs = s.slMsgs := rfl
@[simp] theorem Dev.setReplica_grants (g : Nat) (v : Replica) : (s.setReplica g v).grants = s.grants := rfl
@[simp] theorem Dev.setReplica_mirror (g : Nat) (v : Replica) : (s.setReplica g v).mirror = s.mirror := rfl
@[simp] theorem Dev.setReplica_mirrorStale (g : Nat) (v : Replica) : (s.setReplica g v).mirrorStale = s.mirrorStale := rfl
@[simp] theorem Dev.setReplica_fwdMem (g : Nat) (v : Replica) : (s.setReplica g v).fwdMem = s.fwdMem := rfl
@[simp] theorem Dev.setReplica_tripSeq (g : Nat) (v : Replica) : (s.setReplica g v).tripSeq = s.tripSeq := rfl
@[simp] theorem Dev.setReplica_ringPos (g : Nat) (v : Replica) : (s.setReplica g v).ringPos = s.ringPos := rfl
@[simp] theorem Dev.setReplica_hp (g : Nat) (v : Replica) : (s.setReplica g v).hp = s.hp := rfl
@[simp] theorem Dev.setReplica_ops (g : Nat) (v : Replica) : (s.setReplica g v).ops = s.ops := rfl
@[simp] theorem Dev.setReplica_opGen (g : Nat) (v : Replica) : (s.setReplica g v).opGen = s.opGen := rfl
@[simp] theorem Dev.setReplica_bz (g : Nat) (v : Replica) : (s.setReplica g v).bz = s.bz := rfl
@[simp] theorem Dev.setReplica_rv (g : Nat) (v : Replica) : (s.setReplica g v).rv = s.rv := rfl
@[simp] theorem Dev.setReplica_tows (g : Nat) (v : Replica) : (s.setReplica g v).tows = s.tows := rfl
@[simp] theorem Dev.setReplica_mg (g : Nat) (v : Replica) : (s.setReplica g v).mg = s.mg := rfl
@[simp] theorem Dev.setReplica_sv (g : Nat) (v : Replica) : (s.setReplica g v).sv = s.sv := rfl
@[simp] theorem Dev.setReplica_pwr (g : Nat) (v : Replica) : (s.setReplica g v).pwr = s.pwr := rfl
@[simp] theorem Dev.setReplica_evq (g : Nat) (v : Replica) : (s.setReplica g v).evq = s.evq := rfl
@[simp] theorem Dev.setReplica_complq (g : Nat) (v : Replica) : (s.setReplica g v).complq = s.complq := rfl
@[simp] theorem Dev.setReplica_laneWaits (g : Nat) (v : Replica) : (s.setReplica g v).laneWaits = s.laneWaits := rfl
@[simp] theorem Dev.setReplica_reports (g : Nat) (v : Replica) : (s.setReplica g v).reports = s.reports := rfl
@[simp] theorem Dev.setReplica_telq (g : Nat) (v : Replica) : (s.setReplica g v).telq = s.telq := rfl
@[simp] theorem Dev.setReplica_out (g : Nat) (v : Replica) : (s.setReplica g v).out = s.out := rfl
theorem Dev.replica_setReplica (g : Nat) (v : Replica) (j : Nat) : (s.setReplica g v).replica j = if j = g then v else s.replica j :=
  Sparse.get_set _ _ _ _ _
@[simp] theorem Dev.replica_setReplica_same (g : Nat) (v : Replica) : (s.setReplica g v).replica g = v := Sparse.get_set_same _ _ _ _
theorem Dev.replica_setReplica_ne (g : Nat) (v : Replica) (j : Nat) (h : j ≠ g) : (s.setReplica g v).replica j = s.replica j :=
  Sparse.get_set_ne _ _ _ _ _ h

/-! ### modBz -/

@[simp] theorem Dev.modBz_freeCount (f : Basin → Basin) : (s.modBz f).freeCount = s.freeCount := rfl
@[simp] theorem Dev.modBz_ticks (f : Basin → Basin) : (s.modBz f).ticks = s.ticks := rfl
@[simp] theorem Dev.modBz_tbTime (f : Basin → Basin) : (s.modBz f).tbTime = s.tbTime := rfl
@[simp] theorem Dev.modBz_tb (f : Basin → Basin) : (s.modBz f).tb = s.tb := rfl
@[simp] theorem Dev.modBz_linkA (f : Basin → Basin) : (s.modBz f).linkA = s.linkA := rfl
@[simp] theorem Dev.modBz_linkB (f : Basin → Basin) : (s.modBz f).linkB = s.linkB := rfl
@[simp] theorem Dev.modBz_ring (f : Basin → Basin) : (s.modBz f).ring = s.ring := rfl
@[simp] theorem Dev.modBz_replicas (f : Basin → Basin) : (s.modBz f).replicas = s.replicas := rfl
@[simp] theorem Dev.modBz_lk (f : Basin → Basin) : (s.modBz f).lk = s.lk := rfl
@[simp] theorem Dev.modBz_cells (f : Basin → Basin) : (s.modBz f).cells = s.cells := rfl
@[simp] theorem Dev.modBz_blocks (f : Basin → Basin) : (s.modBz f).blocks = s.blocks := rfl
@[simp] theorem Dev.modBz_regions (f : Basin → Basin) : (s.modBz f).regions = s.regions := rfl
@[simp] theorem Dev.modBz_barges (f : Basin → Basin) : (s.modBz f).barges = s.barges := rfl
@[simp] theorem Dev.modBz_sram (f : Basin → Basin) : (s.modBz f).sram = s.sram := rfl
@[simp] theorem Dev.modBz_rram (f : Basin → Basin) : (s.modBz f).rram = s.rram := rfl
@[simp] theorem Dev.modBz_flash (f : Basin → Basin) : (s.modBz f).flash = s.flash := rfl
@[simp] theorem Dev.modBz_rtSlot (f : Basin → Basin) : (s.modBz f).rtSlot = s.rtSlot := rfl
@[simp] theorem Dev.modBz_custSlot (f : Basin → Basin) : (s.modBz f).custSlot = s.custSlot := rfl
@[simp] theorem Dev.modBz_dbg (f : Basin → Basin) : (s.modBz f).dbg = s.dbg := rfl
@[simp] theorem Dev.modBz_tap (f : Basin → Basin) : (s.modBz f).tap = s.tap := rfl
@[simp] theorem Dev.modBz_nodes (f : Basin → Basin) : (s.modBz f).nodes = s.nodes := rfl
@[simp] theorem Dev.modBz_lvDone (f : Basin → Basin) : (s.modBz f).lvDone = s.lvDone := rfl
@[simp] theorem Dev.modBz_rgnFail (f : Basin → Basin) : (s.modBz f).rgnFail = s.rgnFail := rfl
@[simp] theorem Dev.modBz_badSize (f : Basin → Basin) : (s.modBz f).badSize = s.badSize := rfl
@[simp] theorem Dev.modBz_rsvdWrites (f : Basin → Basin) : (s.modBz f).rsvdWrites = s.rsvdWrites := rfl
@[simp] theorem Dev.modBz_slices (f : Basin → Basin) : (s.modBz f).slices = s.slices := rfl
@[simp] theorem Dev.modBz_sliceQ (f : Basin → Basin) : (s.modBz f).sliceQ = s.sliceQ := rfl
@[simp] theorem Dev.modBz_lanes (f : Basin → Basin) : (s.modBz f).lanes = s.lanes := rfl
@[simp] theorem Dev.modBz_convs (f : Basin → Basin) : (s.modBz f).convs = s.convs := rfl
@[simp] theorem Dev.modBz_auxs (f : Basin → Basin) : (s.modBz f).auxs = s.auxs := rfl
@[simp] theorem Dev.modBz_calSlots (f : Basin → Basin) : (s.modBz f).calSlots = s.calSlots := rfl
@[simp] theorem Dev.modBz_regs (f : Basin → Basin) : (s.modBz f).regs = s.regs := rfl
@[simp] theorem Dev.modBz_regsPend (f : Basin → Basin) : (s.modBz f).regsPend = s.regsPend := rfl
@[simp] theorem Dev.modBz_prof (f : Basin → Basin) : (s.modBz f).prof = s.prof := rfl
@[simp] theorem Dev.modBz_profPend (f : Basin → Basin) : (s.modBz f).profPend = s.profPend := rfl
@[simp] theorem Dev.modBz_colls (f : Basin → Basin) : (s.modBz f).colls = s.colls := rfl
@[simp] theorem Dev.modBz_err (f : Basin → Basin) : (s.modBz f).err = s.err := rfl
@[simp] theorem Dev.modBz_sluice (f : Basin → Basin) : (s.modBz f).sluice = s.sluice := rfl
@[simp] theorem Dev.modBz_slMsgs (f : Basin → Basin) : (s.modBz f).slMsgs = s.slMsgs := rfl
@[simp] theorem Dev.modBz_grants (f : Basin → Basin) : (s.modBz f).grants = s.grants := rfl
@[simp] theorem Dev.modBz_mirror (f : Basin → Basin) : (s.modBz f).mirror = s.mirror := rfl
@[simp] theorem Dev.modBz_mirrorStale (f : Basin → Basin) : (s.modBz f).mirrorStale = s.mirrorStale := rfl
@[simp] theorem Dev.modBz_fwdMem (f : Basin → Basin) : (s.modBz f).fwdMem = s.fwdMem := rfl
@[simp] theorem Dev.modBz_tripSeq (f : Basin → Basin) : (s.modBz f).tripSeq = s.tripSeq := rfl
@[simp] theorem Dev.modBz_ringPos (f : Basin → Basin) : (s.modBz f).ringPos = s.ringPos := rfl
@[simp] theorem Dev.modBz_hp (f : Basin → Basin) : (s.modBz f).hp = s.hp := rfl
@[simp] theorem Dev.modBz_ops (f : Basin → Basin) : (s.modBz f).ops = s.ops := rfl
@[simp] theorem Dev.modBz_opGen (f : Basin → Basin) : (s.modBz f).opGen = s.opGen := rfl
@[simp] theorem Dev.modBz_bz (f : Basin → Basin) : (s.modBz f).bz = f s.bz := rfl
@[simp] theorem Dev.modBz_rv (f : Basin → Basin) : (s.modBz f).rv = s.rv := rfl
@[simp] theorem Dev.modBz_tows (f : Basin → Basin) : (s.modBz f).tows = s.tows := rfl
@[simp] theorem Dev.modBz_mg (f : Basin → Basin) : (s.modBz f).mg = s.mg := rfl
@[simp] theorem Dev.modBz_sv (f : Basin → Basin) : (s.modBz f).sv = s.sv := rfl
@[simp] theorem Dev.modBz_pwr (f : Basin → Basin) : (s.modBz f).pwr = s.pwr := rfl
@[simp] theorem Dev.modBz_evq (f : Basin → Basin) : (s.modBz f).evq = s.evq := rfl
@[simp] theorem Dev.modBz_complq (f : Basin → Basin) : (s.modBz f).complq = s.complq := rfl
@[simp] theorem Dev.modBz_laneWaits (f : Basin → Basin) : (s.modBz f).laneWaits = s.laneWaits := rfl
@[simp] theorem Dev.modBz_reports (f : Basin → Basin) : (s.modBz f).reports = s.reports := rfl
@[simp] theorem Dev.modBz_telq (f : Basin → Basin) : (s.modBz f).telq = s.telq := rfl
@[simp] theorem Dev.modBz_out (f : Basin → Basin) : (s.modBz f).out = s.out := rfl

/-! ### modRv -/

@[simp] theorem Dev.modRv_freeCount (f : Reserve → Reserve) : (s.modRv f).freeCount = s.freeCount := rfl
@[simp] theorem Dev.modRv_ticks (f : Reserve → Reserve) : (s.modRv f).ticks = s.ticks := rfl
@[simp] theorem Dev.modRv_tbTime (f : Reserve → Reserve) : (s.modRv f).tbTime = s.tbTime := rfl
@[simp] theorem Dev.modRv_tb (f : Reserve → Reserve) : (s.modRv f).tb = s.tb := rfl
@[simp] theorem Dev.modRv_linkA (f : Reserve → Reserve) : (s.modRv f).linkA = s.linkA := rfl
@[simp] theorem Dev.modRv_linkB (f : Reserve → Reserve) : (s.modRv f).linkB = s.linkB := rfl
@[simp] theorem Dev.modRv_ring (f : Reserve → Reserve) : (s.modRv f).ring = s.ring := rfl
@[simp] theorem Dev.modRv_replicas (f : Reserve → Reserve) : (s.modRv f).replicas = s.replicas := rfl
@[simp] theorem Dev.modRv_lk (f : Reserve → Reserve) : (s.modRv f).lk = s.lk := rfl
@[simp] theorem Dev.modRv_cells (f : Reserve → Reserve) : (s.modRv f).cells = s.cells := rfl
@[simp] theorem Dev.modRv_blocks (f : Reserve → Reserve) : (s.modRv f).blocks = s.blocks := rfl
@[simp] theorem Dev.modRv_regions (f : Reserve → Reserve) : (s.modRv f).regions = s.regions := rfl
@[simp] theorem Dev.modRv_barges (f : Reserve → Reserve) : (s.modRv f).barges = s.barges := rfl
@[simp] theorem Dev.modRv_sram (f : Reserve → Reserve) : (s.modRv f).sram = s.sram := rfl
@[simp] theorem Dev.modRv_rram (f : Reserve → Reserve) : (s.modRv f).rram = s.rram := rfl
@[simp] theorem Dev.modRv_flash (f : Reserve → Reserve) : (s.modRv f).flash = s.flash := rfl
@[simp] theorem Dev.modRv_rtSlot (f : Reserve → Reserve) : (s.modRv f).rtSlot = s.rtSlot := rfl
@[simp] theorem Dev.modRv_custSlot (f : Reserve → Reserve) : (s.modRv f).custSlot = s.custSlot := rfl
@[simp] theorem Dev.modRv_dbg (f : Reserve → Reserve) : (s.modRv f).dbg = s.dbg := rfl
@[simp] theorem Dev.modRv_tap (f : Reserve → Reserve) : (s.modRv f).tap = s.tap := rfl
@[simp] theorem Dev.modRv_nodes (f : Reserve → Reserve) : (s.modRv f).nodes = s.nodes := rfl
@[simp] theorem Dev.modRv_lvDone (f : Reserve → Reserve) : (s.modRv f).lvDone = s.lvDone := rfl
@[simp] theorem Dev.modRv_rgnFail (f : Reserve → Reserve) : (s.modRv f).rgnFail = s.rgnFail := rfl
@[simp] theorem Dev.modRv_badSize (f : Reserve → Reserve) : (s.modRv f).badSize = s.badSize := rfl
@[simp] theorem Dev.modRv_rsvdWrites (f : Reserve → Reserve) : (s.modRv f).rsvdWrites = s.rsvdWrites := rfl
@[simp] theorem Dev.modRv_slices (f : Reserve → Reserve) : (s.modRv f).slices = s.slices := rfl
@[simp] theorem Dev.modRv_sliceQ (f : Reserve → Reserve) : (s.modRv f).sliceQ = s.sliceQ := rfl
@[simp] theorem Dev.modRv_lanes (f : Reserve → Reserve) : (s.modRv f).lanes = s.lanes := rfl
@[simp] theorem Dev.modRv_convs (f : Reserve → Reserve) : (s.modRv f).convs = s.convs := rfl
@[simp] theorem Dev.modRv_auxs (f : Reserve → Reserve) : (s.modRv f).auxs = s.auxs := rfl
@[simp] theorem Dev.modRv_calSlots (f : Reserve → Reserve) : (s.modRv f).calSlots = s.calSlots := rfl
@[simp] theorem Dev.modRv_regs (f : Reserve → Reserve) : (s.modRv f).regs = s.regs := rfl
@[simp] theorem Dev.modRv_regsPend (f : Reserve → Reserve) : (s.modRv f).regsPend = s.regsPend := rfl
@[simp] theorem Dev.modRv_prof (f : Reserve → Reserve) : (s.modRv f).prof = s.prof := rfl
@[simp] theorem Dev.modRv_profPend (f : Reserve → Reserve) : (s.modRv f).profPend = s.profPend := rfl
@[simp] theorem Dev.modRv_colls (f : Reserve → Reserve) : (s.modRv f).colls = s.colls := rfl
@[simp] theorem Dev.modRv_err (f : Reserve → Reserve) : (s.modRv f).err = s.err := rfl
@[simp] theorem Dev.modRv_sluice (f : Reserve → Reserve) : (s.modRv f).sluice = s.sluice := rfl
@[simp] theorem Dev.modRv_slMsgs (f : Reserve → Reserve) : (s.modRv f).slMsgs = s.slMsgs := rfl
@[simp] theorem Dev.modRv_grants (f : Reserve → Reserve) : (s.modRv f).grants = s.grants := rfl
@[simp] theorem Dev.modRv_mirror (f : Reserve → Reserve) : (s.modRv f).mirror = s.mirror := rfl
@[simp] theorem Dev.modRv_mirrorStale (f : Reserve → Reserve) : (s.modRv f).mirrorStale = s.mirrorStale := rfl
@[simp] theorem Dev.modRv_fwdMem (f : Reserve → Reserve) : (s.modRv f).fwdMem = s.fwdMem := rfl
@[simp] theorem Dev.modRv_tripSeq (f : Reserve → Reserve) : (s.modRv f).tripSeq = s.tripSeq := rfl
@[simp] theorem Dev.modRv_ringPos (f : Reserve → Reserve) : (s.modRv f).ringPos = s.ringPos := rfl
@[simp] theorem Dev.modRv_hp (f : Reserve → Reserve) : (s.modRv f).hp = s.hp := rfl
@[simp] theorem Dev.modRv_ops (f : Reserve → Reserve) : (s.modRv f).ops = s.ops := rfl
@[simp] theorem Dev.modRv_opGen (f : Reserve → Reserve) : (s.modRv f).opGen = s.opGen := rfl
@[simp] theorem Dev.modRv_bz (f : Reserve → Reserve) : (s.modRv f).bz = s.bz := rfl
@[simp] theorem Dev.modRv_rv (f : Reserve → Reserve) : (s.modRv f).rv = f s.rv := rfl
@[simp] theorem Dev.modRv_tows (f : Reserve → Reserve) : (s.modRv f).tows = s.tows := rfl
@[simp] theorem Dev.modRv_mg (f : Reserve → Reserve) : (s.modRv f).mg = s.mg := rfl
@[simp] theorem Dev.modRv_sv (f : Reserve → Reserve) : (s.modRv f).sv = s.sv := rfl
@[simp] theorem Dev.modRv_pwr (f : Reserve → Reserve) : (s.modRv f).pwr = s.pwr := rfl
@[simp] theorem Dev.modRv_evq (f : Reserve → Reserve) : (s.modRv f).evq = s.evq := rfl
@[simp] theorem Dev.modRv_complq (f : Reserve → Reserve) : (s.modRv f).complq = s.complq := rfl
@[simp] theorem Dev.modRv_laneWaits (f : Reserve → Reserve) : (s.modRv f).laneWaits = s.laneWaits := rfl
@[simp] theorem Dev.modRv_reports (f : Reserve → Reserve) : (s.modRv f).reports = s.reports := rfl
@[simp] theorem Dev.modRv_telq (f : Reserve → Reserve) : (s.modRv f).telq = s.telq := rfl
@[simp] theorem Dev.modRv_out (f : Reserve → Reserve) : (s.modRv f).out = s.out := rfl

/-! ### modMg -/

@[simp] theorem Dev.modMg_freeCount (f : Mgmt → Mgmt) : (s.modMg f).freeCount = s.freeCount := rfl
@[simp] theorem Dev.modMg_ticks (f : Mgmt → Mgmt) : (s.modMg f).ticks = s.ticks := rfl
@[simp] theorem Dev.modMg_tbTime (f : Mgmt → Mgmt) : (s.modMg f).tbTime = s.tbTime := rfl
@[simp] theorem Dev.modMg_tb (f : Mgmt → Mgmt) : (s.modMg f).tb = s.tb := rfl
@[simp] theorem Dev.modMg_linkA (f : Mgmt → Mgmt) : (s.modMg f).linkA = s.linkA := rfl
@[simp] theorem Dev.modMg_linkB (f : Mgmt → Mgmt) : (s.modMg f).linkB = s.linkB := rfl
@[simp] theorem Dev.modMg_ring (f : Mgmt → Mgmt) : (s.modMg f).ring = s.ring := rfl
@[simp] theorem Dev.modMg_replicas (f : Mgmt → Mgmt) : (s.modMg f).replicas = s.replicas := rfl
@[simp] theorem Dev.modMg_lk (f : Mgmt → Mgmt) : (s.modMg f).lk = s.lk := rfl
@[simp] theorem Dev.modMg_cells (f : Mgmt → Mgmt) : (s.modMg f).cells = s.cells := rfl
@[simp] theorem Dev.modMg_blocks (f : Mgmt → Mgmt) : (s.modMg f).blocks = s.blocks := rfl
@[simp] theorem Dev.modMg_regions (f : Mgmt → Mgmt) : (s.modMg f).regions = s.regions := rfl
@[simp] theorem Dev.modMg_barges (f : Mgmt → Mgmt) : (s.modMg f).barges = s.barges := rfl
@[simp] theorem Dev.modMg_sram (f : Mgmt → Mgmt) : (s.modMg f).sram = s.sram := rfl
@[simp] theorem Dev.modMg_rram (f : Mgmt → Mgmt) : (s.modMg f).rram = s.rram := rfl
@[simp] theorem Dev.modMg_flash (f : Mgmt → Mgmt) : (s.modMg f).flash = s.flash := rfl
@[simp] theorem Dev.modMg_rtSlot (f : Mgmt → Mgmt) : (s.modMg f).rtSlot = s.rtSlot := rfl
@[simp] theorem Dev.modMg_custSlot (f : Mgmt → Mgmt) : (s.modMg f).custSlot = s.custSlot := rfl
@[simp] theorem Dev.modMg_dbg (f : Mgmt → Mgmt) : (s.modMg f).dbg = s.dbg := rfl
@[simp] theorem Dev.modMg_tap (f : Mgmt → Mgmt) : (s.modMg f).tap = s.tap := rfl
@[simp] theorem Dev.modMg_nodes (f : Mgmt → Mgmt) : (s.modMg f).nodes = s.nodes := rfl
@[simp] theorem Dev.modMg_lvDone (f : Mgmt → Mgmt) : (s.modMg f).lvDone = s.lvDone := rfl
@[simp] theorem Dev.modMg_rgnFail (f : Mgmt → Mgmt) : (s.modMg f).rgnFail = s.rgnFail := rfl
@[simp] theorem Dev.modMg_badSize (f : Mgmt → Mgmt) : (s.modMg f).badSize = s.badSize := rfl
@[simp] theorem Dev.modMg_rsvdWrites (f : Mgmt → Mgmt) : (s.modMg f).rsvdWrites = s.rsvdWrites := rfl
@[simp] theorem Dev.modMg_slices (f : Mgmt → Mgmt) : (s.modMg f).slices = s.slices := rfl
@[simp] theorem Dev.modMg_sliceQ (f : Mgmt → Mgmt) : (s.modMg f).sliceQ = s.sliceQ := rfl
@[simp] theorem Dev.modMg_lanes (f : Mgmt → Mgmt) : (s.modMg f).lanes = s.lanes := rfl
@[simp] theorem Dev.modMg_convs (f : Mgmt → Mgmt) : (s.modMg f).convs = s.convs := rfl
@[simp] theorem Dev.modMg_auxs (f : Mgmt → Mgmt) : (s.modMg f).auxs = s.auxs := rfl
@[simp] theorem Dev.modMg_calSlots (f : Mgmt → Mgmt) : (s.modMg f).calSlots = s.calSlots := rfl
@[simp] theorem Dev.modMg_regs (f : Mgmt → Mgmt) : (s.modMg f).regs = s.regs := rfl
@[simp] theorem Dev.modMg_regsPend (f : Mgmt → Mgmt) : (s.modMg f).regsPend = s.regsPend := rfl
@[simp] theorem Dev.modMg_prof (f : Mgmt → Mgmt) : (s.modMg f).prof = s.prof := rfl
@[simp] theorem Dev.modMg_profPend (f : Mgmt → Mgmt) : (s.modMg f).profPend = s.profPend := rfl
@[simp] theorem Dev.modMg_colls (f : Mgmt → Mgmt) : (s.modMg f).colls = s.colls := rfl
@[simp] theorem Dev.modMg_err (f : Mgmt → Mgmt) : (s.modMg f).err = s.err := rfl
@[simp] theorem Dev.modMg_sluice (f : Mgmt → Mgmt) : (s.modMg f).sluice = s.sluice := rfl
@[simp] theorem Dev.modMg_slMsgs (f : Mgmt → Mgmt) : (s.modMg f).slMsgs = s.slMsgs := rfl
@[simp] theorem Dev.modMg_grants (f : Mgmt → Mgmt) : (s.modMg f).grants = s.grants := rfl
@[simp] theorem Dev.modMg_mirror (f : Mgmt → Mgmt) : (s.modMg f).mirror = s.mirror := rfl
@[simp] theorem Dev.modMg_mirrorStale (f : Mgmt → Mgmt) : (s.modMg f).mirrorStale = s.mirrorStale := rfl
@[simp] theorem Dev.modMg_fwdMem (f : Mgmt → Mgmt) : (s.modMg f).fwdMem = s.fwdMem := rfl
@[simp] theorem Dev.modMg_tripSeq (f : Mgmt → Mgmt) : (s.modMg f).tripSeq = s.tripSeq := rfl
@[simp] theorem Dev.modMg_ringPos (f : Mgmt → Mgmt) : (s.modMg f).ringPos = s.ringPos := rfl
@[simp] theorem Dev.modMg_hp (f : Mgmt → Mgmt) : (s.modMg f).hp = s.hp := rfl
@[simp] theorem Dev.modMg_ops (f : Mgmt → Mgmt) : (s.modMg f).ops = s.ops := rfl
@[simp] theorem Dev.modMg_opGen (f : Mgmt → Mgmt) : (s.modMg f).opGen = s.opGen := rfl
@[simp] theorem Dev.modMg_bz (f : Mgmt → Mgmt) : (s.modMg f).bz = s.bz := rfl
@[simp] theorem Dev.modMg_rv (f : Mgmt → Mgmt) : (s.modMg f).rv = s.rv := rfl
@[simp] theorem Dev.modMg_tows (f : Mgmt → Mgmt) : (s.modMg f).tows = s.tows := rfl
@[simp] theorem Dev.modMg_mg (f : Mgmt → Mgmt) : (s.modMg f).mg = f s.mg := rfl
@[simp] theorem Dev.modMg_sv (f : Mgmt → Mgmt) : (s.modMg f).sv = s.sv := rfl
@[simp] theorem Dev.modMg_pwr (f : Mgmt → Mgmt) : (s.modMg f).pwr = s.pwr := rfl
@[simp] theorem Dev.modMg_evq (f : Mgmt → Mgmt) : (s.modMg f).evq = s.evq := rfl
@[simp] theorem Dev.modMg_complq (f : Mgmt → Mgmt) : (s.modMg f).complq = s.complq := rfl
@[simp] theorem Dev.modMg_laneWaits (f : Mgmt → Mgmt) : (s.modMg f).laneWaits = s.laneWaits := rfl
@[simp] theorem Dev.modMg_reports (f : Mgmt → Mgmt) : (s.modMg f).reports = s.reports := rfl
@[simp] theorem Dev.modMg_telq (f : Mgmt → Mgmt) : (s.modMg f).telq = s.telq := rfl
@[simp] theorem Dev.modMg_out (f : Mgmt → Mgmt) : (s.modMg f).out = s.out := rfl

/-! ### modSv -/

@[simp] theorem Dev.modSv_freeCount (f : Supervisor → Supervisor) : (s.modSv f).freeCount = s.freeCount := rfl
@[simp] theorem Dev.modSv_ticks (f : Supervisor → Supervisor) : (s.modSv f).ticks = s.ticks := rfl
@[simp] theorem Dev.modSv_tbTime (f : Supervisor → Supervisor) : (s.modSv f).tbTime = s.tbTime := rfl
@[simp] theorem Dev.modSv_tb (f : Supervisor → Supervisor) : (s.modSv f).tb = s.tb := rfl
@[simp] theorem Dev.modSv_linkA (f : Supervisor → Supervisor) : (s.modSv f).linkA = s.linkA := rfl
@[simp] theorem Dev.modSv_linkB (f : Supervisor → Supervisor) : (s.modSv f).linkB = s.linkB := rfl
@[simp] theorem Dev.modSv_ring (f : Supervisor → Supervisor) : (s.modSv f).ring = s.ring := rfl
@[simp] theorem Dev.modSv_replicas (f : Supervisor → Supervisor) : (s.modSv f).replicas = s.replicas := rfl
@[simp] theorem Dev.modSv_lk (f : Supervisor → Supervisor) : (s.modSv f).lk = s.lk := rfl
@[simp] theorem Dev.modSv_cells (f : Supervisor → Supervisor) : (s.modSv f).cells = s.cells := rfl
@[simp] theorem Dev.modSv_blocks (f : Supervisor → Supervisor) : (s.modSv f).blocks = s.blocks := rfl
@[simp] theorem Dev.modSv_regions (f : Supervisor → Supervisor) : (s.modSv f).regions = s.regions := rfl
@[simp] theorem Dev.modSv_barges (f : Supervisor → Supervisor) : (s.modSv f).barges = s.barges := rfl
@[simp] theorem Dev.modSv_sram (f : Supervisor → Supervisor) : (s.modSv f).sram = s.sram := rfl
@[simp] theorem Dev.modSv_rram (f : Supervisor → Supervisor) : (s.modSv f).rram = s.rram := rfl
@[simp] theorem Dev.modSv_flash (f : Supervisor → Supervisor) : (s.modSv f).flash = s.flash := rfl
@[simp] theorem Dev.modSv_rtSlot (f : Supervisor → Supervisor) : (s.modSv f).rtSlot = s.rtSlot := rfl
@[simp] theorem Dev.modSv_custSlot (f : Supervisor → Supervisor) : (s.modSv f).custSlot = s.custSlot := rfl
@[simp] theorem Dev.modSv_dbg (f : Supervisor → Supervisor) : (s.modSv f).dbg = s.dbg := rfl
@[simp] theorem Dev.modSv_tap (f : Supervisor → Supervisor) : (s.modSv f).tap = s.tap := rfl
@[simp] theorem Dev.modSv_nodes (f : Supervisor → Supervisor) : (s.modSv f).nodes = s.nodes := rfl
@[simp] theorem Dev.modSv_lvDone (f : Supervisor → Supervisor) : (s.modSv f).lvDone = s.lvDone := rfl
@[simp] theorem Dev.modSv_rgnFail (f : Supervisor → Supervisor) : (s.modSv f).rgnFail = s.rgnFail := rfl
@[simp] theorem Dev.modSv_badSize (f : Supervisor → Supervisor) : (s.modSv f).badSize = s.badSize := rfl
@[simp] theorem Dev.modSv_rsvdWrites (f : Supervisor → Supervisor) : (s.modSv f).rsvdWrites = s.rsvdWrites := rfl
@[simp] theorem Dev.modSv_slices (f : Supervisor → Supervisor) : (s.modSv f).slices = s.slices := rfl
@[simp] theorem Dev.modSv_sliceQ (f : Supervisor → Supervisor) : (s.modSv f).sliceQ = s.sliceQ := rfl
@[simp] theorem Dev.modSv_lanes (f : Supervisor → Supervisor) : (s.modSv f).lanes = s.lanes := rfl
@[simp] theorem Dev.modSv_convs (f : Supervisor → Supervisor) : (s.modSv f).convs = s.convs := rfl
@[simp] theorem Dev.modSv_auxs (f : Supervisor → Supervisor) : (s.modSv f).auxs = s.auxs := rfl
@[simp] theorem Dev.modSv_calSlots (f : Supervisor → Supervisor) : (s.modSv f).calSlots = s.calSlots := rfl
@[simp] theorem Dev.modSv_regs (f : Supervisor → Supervisor) : (s.modSv f).regs = s.regs := rfl
@[simp] theorem Dev.modSv_regsPend (f : Supervisor → Supervisor) : (s.modSv f).regsPend = s.regsPend := rfl
@[simp] theorem Dev.modSv_prof (f : Supervisor → Supervisor) : (s.modSv f).prof = s.prof := rfl
@[simp] theorem Dev.modSv_profPend (f : Supervisor → Supervisor) : (s.modSv f).profPend = s.profPend := rfl
@[simp] theorem Dev.modSv_colls (f : Supervisor → Supervisor) : (s.modSv f).colls = s.colls := rfl
@[simp] theorem Dev.modSv_err (f : Supervisor → Supervisor) : (s.modSv f).err = s.err := rfl
@[simp] theorem Dev.modSv_sluice (f : Supervisor → Supervisor) : (s.modSv f).sluice = s.sluice := rfl
@[simp] theorem Dev.modSv_slMsgs (f : Supervisor → Supervisor) : (s.modSv f).slMsgs = s.slMsgs := rfl
@[simp] theorem Dev.modSv_grants (f : Supervisor → Supervisor) : (s.modSv f).grants = s.grants := rfl
@[simp] theorem Dev.modSv_mirror (f : Supervisor → Supervisor) : (s.modSv f).mirror = s.mirror := rfl
@[simp] theorem Dev.modSv_mirrorStale (f : Supervisor → Supervisor) : (s.modSv f).mirrorStale = s.mirrorStale := rfl
@[simp] theorem Dev.modSv_fwdMem (f : Supervisor → Supervisor) : (s.modSv f).fwdMem = s.fwdMem := rfl
@[simp] theorem Dev.modSv_tripSeq (f : Supervisor → Supervisor) : (s.modSv f).tripSeq = s.tripSeq := rfl
@[simp] theorem Dev.modSv_ringPos (f : Supervisor → Supervisor) : (s.modSv f).ringPos = s.ringPos := rfl
@[simp] theorem Dev.modSv_hp (f : Supervisor → Supervisor) : (s.modSv f).hp = s.hp := rfl
@[simp] theorem Dev.modSv_ops (f : Supervisor → Supervisor) : (s.modSv f).ops = s.ops := rfl
@[simp] theorem Dev.modSv_opGen (f : Supervisor → Supervisor) : (s.modSv f).opGen = s.opGen := rfl
@[simp] theorem Dev.modSv_bz (f : Supervisor → Supervisor) : (s.modSv f).bz = s.bz := rfl
@[simp] theorem Dev.modSv_rv (f : Supervisor → Supervisor) : (s.modSv f).rv = s.rv := rfl
@[simp] theorem Dev.modSv_tows (f : Supervisor → Supervisor) : (s.modSv f).tows = s.tows := rfl
@[simp] theorem Dev.modSv_mg (f : Supervisor → Supervisor) : (s.modSv f).mg = s.mg := rfl
@[simp] theorem Dev.modSv_sv (f : Supervisor → Supervisor) : (s.modSv f).sv = f s.sv := rfl
@[simp] theorem Dev.modSv_pwr (f : Supervisor → Supervisor) : (s.modSv f).pwr = s.pwr := rfl
@[simp] theorem Dev.modSv_evq (f : Supervisor → Supervisor) : (s.modSv f).evq = s.evq := rfl
@[simp] theorem Dev.modSv_complq (f : Supervisor → Supervisor) : (s.modSv f).complq = s.complq := rfl
@[simp] theorem Dev.modSv_laneWaits (f : Supervisor → Supervisor) : (s.modSv f).laneWaits = s.laneWaits := rfl
@[simp] theorem Dev.modSv_reports (f : Supervisor → Supervisor) : (s.modSv f).reports = s.reports := rfl
@[simp] theorem Dev.modSv_telq (f : Supervisor → Supervisor) : (s.modSv f).telq = s.telq := rfl
@[simp] theorem Dev.modSv_out (f : Supervisor → Supervisor) : (s.modSv f).out = s.out := rfl

/-! ### modDbg -/

@[simp] theorem Dev.modDbg_freeCount (f : DebugPort → DebugPort) : (s.modDbg f).freeCount = s.freeCount := rfl
@[simp] theorem Dev.modDbg_ticks (f : DebugPort → DebugPort) : (s.modDbg f).ticks = s.ticks := rfl
@[simp] theorem Dev.modDbg_tbTime (f : DebugPort → DebugPort) : (s.modDbg f).tbTime = s.tbTime := rfl
@[simp] theorem Dev.modDbg_tb (f : DebugPort → DebugPort) : (s.modDbg f).tb = s.tb := rfl
@[simp] theorem Dev.modDbg_linkA (f : DebugPort → DebugPort) : (s.modDbg f).linkA = s.linkA := rfl
@[simp] theorem Dev.modDbg_linkB (f : DebugPort → DebugPort) : (s.modDbg f).linkB = s.linkB := rfl
@[simp] theorem Dev.modDbg_ring (f : DebugPort → DebugPort) : (s.modDbg f).ring = s.ring := rfl
@[simp] theorem Dev.modDbg_replicas (f : DebugPort → DebugPort) : (s.modDbg f).replicas = s.replicas := rfl
@[simp] theorem Dev.modDbg_lk (f : DebugPort → DebugPort) : (s.modDbg f).lk = s.lk := rfl
@[simp] theorem Dev.modDbg_cells (f : DebugPort → DebugPort) : (s.modDbg f).cells = s.cells := rfl
@[simp] theorem Dev.modDbg_blocks (f : DebugPort → DebugPort) : (s.modDbg f).blocks = s.blocks := rfl
@[simp] theorem Dev.modDbg_regions (f : DebugPort → DebugPort) : (s.modDbg f).regions = s.regions := rfl
@[simp] theorem Dev.modDbg_barges (f : DebugPort → DebugPort) : (s.modDbg f).barges = s.barges := rfl
@[simp] theorem Dev.modDbg_sram (f : DebugPort → DebugPort) : (s.modDbg f).sram = s.sram := rfl
@[simp] theorem Dev.modDbg_rram (f : DebugPort → DebugPort) : (s.modDbg f).rram = s.rram := rfl
@[simp] theorem Dev.modDbg_flash (f : DebugPort → DebugPort) : (s.modDbg f).flash = s.flash := rfl
@[simp] theorem Dev.modDbg_rtSlot (f : DebugPort → DebugPort) : (s.modDbg f).rtSlot = s.rtSlot := rfl
@[simp] theorem Dev.modDbg_custSlot (f : DebugPort → DebugPort) : (s.modDbg f).custSlot = s.custSlot := rfl
@[simp] theorem Dev.modDbg_dbg (f : DebugPort → DebugPort) : (s.modDbg f).dbg = f s.dbg := rfl
@[simp] theorem Dev.modDbg_tap (f : DebugPort → DebugPort) : (s.modDbg f).tap = s.tap := rfl
@[simp] theorem Dev.modDbg_nodes (f : DebugPort → DebugPort) : (s.modDbg f).nodes = s.nodes := rfl
@[simp] theorem Dev.modDbg_lvDone (f : DebugPort → DebugPort) : (s.modDbg f).lvDone = s.lvDone := rfl
@[simp] theorem Dev.modDbg_rgnFail (f : DebugPort → DebugPort) : (s.modDbg f).rgnFail = s.rgnFail := rfl
@[simp] theorem Dev.modDbg_badSize (f : DebugPort → DebugPort) : (s.modDbg f).badSize = s.badSize := rfl
@[simp] theorem Dev.modDbg_rsvdWrites (f : DebugPort → DebugPort) : (s.modDbg f).rsvdWrites = s.rsvdWrites := rfl
@[simp] theorem Dev.modDbg_slices (f : DebugPort → DebugPort) : (s.modDbg f).slices = s.slices := rfl
@[simp] theorem Dev.modDbg_sliceQ (f : DebugPort → DebugPort) : (s.modDbg f).sliceQ = s.sliceQ := rfl
@[simp] theorem Dev.modDbg_lanes (f : DebugPort → DebugPort) : (s.modDbg f).lanes = s.lanes := rfl
@[simp] theorem Dev.modDbg_convs (f : DebugPort → DebugPort) : (s.modDbg f).convs = s.convs := rfl
@[simp] theorem Dev.modDbg_auxs (f : DebugPort → DebugPort) : (s.modDbg f).auxs = s.auxs := rfl
@[simp] theorem Dev.modDbg_calSlots (f : DebugPort → DebugPort) : (s.modDbg f).calSlots = s.calSlots := rfl
@[simp] theorem Dev.modDbg_regs (f : DebugPort → DebugPort) : (s.modDbg f).regs = s.regs := rfl
@[simp] theorem Dev.modDbg_regsPend (f : DebugPort → DebugPort) : (s.modDbg f).regsPend = s.regsPend := rfl
@[simp] theorem Dev.modDbg_prof (f : DebugPort → DebugPort) : (s.modDbg f).prof = s.prof := rfl
@[simp] theorem Dev.modDbg_profPend (f : DebugPort → DebugPort) : (s.modDbg f).profPend = s.profPend := rfl
@[simp] theorem Dev.modDbg_colls (f : DebugPort → DebugPort) : (s.modDbg f).colls = s.colls := rfl
@[simp] theorem Dev.modDbg_err (f : DebugPort → DebugPort) : (s.modDbg f).err = s.err := rfl
@[simp] theorem Dev.modDbg_sluice (f : DebugPort → DebugPort) : (s.modDbg f).sluice = s.sluice := rfl
@[simp] theorem Dev.modDbg_slMsgs (f : DebugPort → DebugPort) : (s.modDbg f).slMsgs = s.slMsgs := rfl
@[simp] theorem Dev.modDbg_grants (f : DebugPort → DebugPort) : (s.modDbg f).grants = s.grants := rfl
@[simp] theorem Dev.modDbg_mirror (f : DebugPort → DebugPort) : (s.modDbg f).mirror = s.mirror := rfl
@[simp] theorem Dev.modDbg_mirrorStale (f : DebugPort → DebugPort) : (s.modDbg f).mirrorStale = s.mirrorStale := rfl
@[simp] theorem Dev.modDbg_fwdMem (f : DebugPort → DebugPort) : (s.modDbg f).fwdMem = s.fwdMem := rfl
@[simp] theorem Dev.modDbg_tripSeq (f : DebugPort → DebugPort) : (s.modDbg f).tripSeq = s.tripSeq := rfl
@[simp] theorem Dev.modDbg_ringPos (f : DebugPort → DebugPort) : (s.modDbg f).ringPos = s.ringPos := rfl
@[simp] theorem Dev.modDbg_hp (f : DebugPort → DebugPort) : (s.modDbg f).hp = s.hp := rfl
@[simp] theorem Dev.modDbg_ops (f : DebugPort → DebugPort) : (s.modDbg f).ops = s.ops := rfl
@[simp] theorem Dev.modDbg_opGen (f : DebugPort → DebugPort) : (s.modDbg f).opGen = s.opGen := rfl
@[simp] theorem Dev.modDbg_bz (f : DebugPort → DebugPort) : (s.modDbg f).bz = s.bz := rfl
@[simp] theorem Dev.modDbg_rv (f : DebugPort → DebugPort) : (s.modDbg f).rv = s.rv := rfl
@[simp] theorem Dev.modDbg_tows (f : DebugPort → DebugPort) : (s.modDbg f).tows = s.tows := rfl
@[simp] theorem Dev.modDbg_mg (f : DebugPort → DebugPort) : (s.modDbg f).mg = s.mg := rfl
@[simp] theorem Dev.modDbg_sv (f : DebugPort → DebugPort) : (s.modDbg f).sv = s.sv := rfl
@[simp] theorem Dev.modDbg_pwr (f : DebugPort → DebugPort) : (s.modDbg f).pwr = s.pwr := rfl
@[simp] theorem Dev.modDbg_evq (f : DebugPort → DebugPort) : (s.modDbg f).evq = s.evq := rfl
@[simp] theorem Dev.modDbg_complq (f : DebugPort → DebugPort) : (s.modDbg f).complq = s.complq := rfl
@[simp] theorem Dev.modDbg_laneWaits (f : DebugPort → DebugPort) : (s.modDbg f).laneWaits = s.laneWaits := rfl
@[simp] theorem Dev.modDbg_reports (f : DebugPort → DebugPort) : (s.modDbg f).reports = s.reports := rfl
@[simp] theorem Dev.modDbg_telq (f : DebugPort → DebugPort) : (s.modDbg f).telq = s.telq := rfl
@[simp] theorem Dev.modDbg_out (f : DebugPort → DebugPort) : (s.modDbg f).out = s.out := rfl

/-! ### emit -/

@[simp] theorem Dev.emit_freeCount (o : Out) : (s.emit o).freeCount = s.freeCount := rfl
@[simp] theorem Dev.emit_ticks (o : Out) : (s.emit o).ticks = s.ticks := rfl
@[simp] theorem Dev.emit_tbTime (o : Out) : (s.emit o).tbTime = s.tbTime := rfl
@[simp] theorem Dev.emit_tb (o : Out) : (s.emit o).tb = s.tb := rfl
@[simp] theorem Dev.emit_linkA (o : Out) : (s.emit o).linkA = s.linkA := rfl
@[simp] theorem Dev.emit_linkB (o : Out) : (s.emit o).linkB = s.linkB := rfl
@[simp] theorem Dev.emit_ring (o : Out) : (s.emit o).ring = s.ring := rfl
@[simp] theorem Dev.emit_replicas (o : Out) : (s.emit o).replicas = s.replicas := rfl
@[simp] theorem Dev.emit_lk (o : Out) : (s.emit o).lk = s.lk := rfl
@[simp] theorem Dev.emit_cells (o : Out) : (s.emit o).cells = s.cells := rfl
@[simp] theorem Dev.emit_blocks (o : Out) : (s.emit o).blocks = s.blocks := rfl
@[simp] theorem Dev.emit_regions (o : Out) : (s.emit o).regions = s.regions := rfl
@[simp] theorem Dev.emit_barges (o : Out) : (s.emit o).barges = s.barges := rfl
@[simp] theorem Dev.emit_sram (o : Out) : (s.emit o).sram = s.sram := rfl
@[simp] theorem Dev.emit_rram (o : Out) : (s.emit o).rram = s.rram := rfl
@[simp] theorem Dev.emit_flash (o : Out) : (s.emit o).flash = s.flash := rfl
@[simp] theorem Dev.emit_rtSlot (o : Out) : (s.emit o).rtSlot = s.rtSlot := rfl
@[simp] theorem Dev.emit_custSlot (o : Out) : (s.emit o).custSlot = s.custSlot := rfl
@[simp] theorem Dev.emit_dbg (o : Out) : (s.emit o).dbg = s.dbg := rfl
@[simp] theorem Dev.emit_tap (o : Out) : (s.emit o).tap = s.tap := rfl
@[simp] theorem Dev.emit_nodes (o : Out) : (s.emit o).nodes = s.nodes := rfl
@[simp] theorem Dev.emit_lvDone (o : Out) : (s.emit o).lvDone = s.lvDone := rfl
@[simp] theorem Dev.emit_rgnFail (o : Out) : (s.emit o).rgnFail = s.rgnFail := rfl
@[simp] theorem Dev.emit_badSize (o : Out) : (s.emit o).badSize = s.badSize := rfl
@[simp] theorem Dev.emit_rsvdWrites (o : Out) : (s.emit o).rsvdWrites = s.rsvdWrites := rfl
@[simp] theorem Dev.emit_slices (o : Out) : (s.emit o).slices = s.slices := rfl
@[simp] theorem Dev.emit_sliceQ (o : Out) : (s.emit o).sliceQ = s.sliceQ := rfl
@[simp] theorem Dev.emit_lanes (o : Out) : (s.emit o).lanes = s.lanes := rfl
@[simp] theorem Dev.emit_convs (o : Out) : (s.emit o).convs = s.convs := rfl
@[simp] theorem Dev.emit_auxs (o : Out) : (s.emit o).auxs = s.auxs := rfl
@[simp] theorem Dev.emit_calSlots (o : Out) : (s.emit o).calSlots = s.calSlots := rfl
@[simp] theorem Dev.emit_regs (o : Out) : (s.emit o).regs = s.regs := rfl
@[simp] theorem Dev.emit_regsPend (o : Out) : (s.emit o).regsPend = s.regsPend := rfl
@[simp] theorem Dev.emit_prof (o : Out) : (s.emit o).prof = s.prof := rfl
@[simp] theorem Dev.emit_profPend (o : Out) : (s.emit o).profPend = s.profPend := rfl
@[simp] theorem Dev.emit_colls (o : Out) : (s.emit o).colls = s.colls := rfl
@[simp] theorem Dev.emit_err (o : Out) : (s.emit o).err = s.err := rfl
@[simp] theorem Dev.emit_sluice (o : Out) : (s.emit o).sluice = s.sluice := rfl
@[simp] theorem Dev.emit_slMsgs (o : Out) : (s.emit o).slMsgs = s.slMsgs := rfl
@[simp] theorem Dev.emit_grants (o : Out) : (s.emit o).grants = s.grants := rfl
@[simp] theorem Dev.emit_mirror (o : Out) : (s.emit o).mirror = s.mirror := rfl
@[simp] theorem Dev.emit_mirrorStale (o : Out) : (s.emit o).mirrorStale = s.mirrorStale := rfl
@[simp] theorem Dev.emit_fwdMem (o : Out) : (s.emit o).fwdMem = s.fwdMem := rfl
@[simp] theorem Dev.emit_tripSeq (o : Out) : (s.emit o).tripSeq = s.tripSeq := rfl
@[simp] theorem Dev.emit_ringPos (o : Out) : (s.emit o).ringPos = s.ringPos := rfl
@[simp] theorem Dev.emit_hp (o : Out) : (s.emit o).hp = s.hp := rfl
@[simp] theorem Dev.emit_ops (o : Out) : (s.emit o).ops = s.ops := rfl
@[simp] theorem Dev.emit_opGen (o : Out) : (s.emit o).opGen = s.opGen := rfl
@[simp] theorem Dev.emit_bz (o : Out) : (s.emit o).bz = s.bz := rfl
@[simp] theorem Dev.emit_rv (o : Out) : (s.emit o).rv = s.rv := rfl
@[simp] theorem Dev.emit_tows (o : Out) : (s.emit o).tows = s.tows := rfl
@[simp] theorem Dev.emit_mg (o : Out) : (s.emit o).mg = s.mg := rfl
@[simp] theorem Dev.emit_sv (o : Out) : (s.emit o).sv = s.sv := rfl
@[simp] theorem Dev.emit_pwr (o : Out) : (s.emit o).pwr = s.pwr := rfl
@[simp] theorem Dev.emit_evq (o : Out) : (s.emit o).evq = s.evq := rfl
@[simp] theorem Dev.emit_complq (o : Out) : (s.emit o).complq = s.complq := rfl
@[simp] theorem Dev.emit_laneWaits (o : Out) : (s.emit o).laneWaits = s.laneWaits := rfl
@[simp] theorem Dev.emit_reports (o : Out) : (s.emit o).reports = s.reports := rfl
@[simp] theorem Dev.emit_telq (o : Out) : (s.emit o).telq = s.telq := rfl
@[simp] theorem Dev.emit_out (o : Out) : (s.emit o).out = s.out ++ [o] := rfl

/-! ### raise -/

@[simp] theorem Dev.raise_freeCount (v : Event) : (s.raise v).freeCount = s.freeCount := rfl
@[simp] theorem Dev.raise_ticks (v : Event) : (s.raise v).ticks = s.ticks := rfl
@[simp] theorem Dev.raise_tbTime (v : Event) : (s.raise v).tbTime = s.tbTime := rfl
@[simp] theorem Dev.raise_tb (v : Event) : (s.raise v).tb = s.tb := rfl
@[simp] theorem Dev.raise_linkA (v : Event) : (s.raise v).linkA = s.linkA := rfl
@[simp] theorem Dev.raise_linkB (v : Event) : (s.raise v).linkB = s.linkB := rfl
@[simp] theorem Dev.raise_ring (v : Event) : (s.raise v).ring = s.ring := rfl
@[simp] theorem Dev.raise_replicas (v : Event) : (s.raise v).replicas = s.replicas := rfl
@[simp] theorem Dev.raise_lk (v : Event) : (s.raise v).lk = s.lk := rfl
@[simp] theorem Dev.raise_cells (v : Event) : (s.raise v).cells = s.cells := rfl
@[simp] theorem Dev.raise_blocks (v : Event) : (s.raise v).blocks = s.blocks := rfl
@[simp] theorem Dev.raise_regions (v : Event) : (s.raise v).regions = s.regions := rfl
@[simp] theorem Dev.raise_barges (v : Event) : (s.raise v).barges = s.barges := rfl
@[simp] theorem Dev.raise_sram (v : Event) : (s.raise v).sram = s.sram := rfl
@[simp] theorem Dev.raise_rram (v : Event) : (s.raise v).rram = s.rram := rfl
@[simp] theorem Dev.raise_flash (v : Event) : (s.raise v).flash = s.flash := rfl
@[simp] theorem Dev.raise_rtSlot (v : Event) : (s.raise v).rtSlot = s.rtSlot := rfl
@[simp] theorem Dev.raise_custSlot (v : Event) : (s.raise v).custSlot = s.custSlot := rfl
@[simp] theorem Dev.raise_dbg (v : Event) : (s.raise v).dbg = s.dbg := rfl
@[simp] theorem Dev.raise_tap (v : Event) : (s.raise v).tap = s.tap := rfl
@[simp] theorem Dev.raise_nodes (v : Event) : (s.raise v).nodes = s.nodes := rfl
@[simp] theorem Dev.raise_lvDone (v : Event) : (s.raise v).lvDone = s.lvDone := rfl
@[simp] theorem Dev.raise_rgnFail (v : Event) : (s.raise v).rgnFail = s.rgnFail := rfl
@[simp] theorem Dev.raise_badSize (v : Event) : (s.raise v).badSize = s.badSize := rfl
@[simp] theorem Dev.raise_rsvdWrites (v : Event) : (s.raise v).rsvdWrites = s.rsvdWrites := rfl
@[simp] theorem Dev.raise_slices (v : Event) : (s.raise v).slices = s.slices := rfl
@[simp] theorem Dev.raise_sliceQ (v : Event) : (s.raise v).sliceQ = s.sliceQ := rfl
@[simp] theorem Dev.raise_lanes (v : Event) : (s.raise v).lanes = s.lanes := rfl
@[simp] theorem Dev.raise_convs (v : Event) : (s.raise v).convs = s.convs := rfl
@[simp] theorem Dev.raise_auxs (v : Event) : (s.raise v).auxs = s.auxs := rfl
@[simp] theorem Dev.raise_calSlots (v : Event) : (s.raise v).calSlots = s.calSlots := rfl
@[simp] theorem Dev.raise_regs (v : Event) : (s.raise v).regs = s.regs := rfl
@[simp] theorem Dev.raise_regsPend (v : Event) : (s.raise v).regsPend = s.regsPend := rfl
@[simp] theorem Dev.raise_prof (v : Event) : (s.raise v).prof = s.prof := rfl
@[simp] theorem Dev.raise_profPend (v : Event) : (s.raise v).profPend = s.profPend := rfl
@[simp] theorem Dev.raise_colls (v : Event) : (s.raise v).colls = s.colls := rfl
@[simp] theorem Dev.raise_err (v : Event) : (s.raise v).err = s.err := rfl
@[simp] theorem Dev.raise_sluice (v : Event) : (s.raise v).sluice = s.sluice := rfl
@[simp] theorem Dev.raise_slMsgs (v : Event) : (s.raise v).slMsgs = s.slMsgs := rfl
@[simp] theorem Dev.raise_grants (v : Event) : (s.raise v).grants = s.grants := rfl
@[simp] theorem Dev.raise_mirror (v : Event) : (s.raise v).mirror = s.mirror := rfl
@[simp] theorem Dev.raise_mirrorStale (v : Event) : (s.raise v).mirrorStale = s.mirrorStale := rfl
@[simp] theorem Dev.raise_fwdMem (v : Event) : (s.raise v).fwdMem = s.fwdMem := rfl
@[simp] theorem Dev.raise_tripSeq (v : Event) : (s.raise v).tripSeq = s.tripSeq := rfl
@[simp] theorem Dev.raise_ringPos (v : Event) : (s.raise v).ringPos = s.ringPos := rfl
@[simp] theorem Dev.raise_hp (v : Event) : (s.raise v).hp = s.hp := rfl
@[simp] theorem Dev.raise_ops (v : Event) : (s.raise v).ops = s.ops := rfl
@[simp] theorem Dev.raise_opGen (v : Event) : (s.raise v).opGen = s.opGen := rfl
@[simp] theorem Dev.raise_bz (v : Event) : (s.raise v).bz = s.bz := rfl
@[simp] theorem Dev.raise_rv (v : Event) : (s.raise v).rv = s.rv := rfl
@[simp] theorem Dev.raise_tows (v : Event) : (s.raise v).tows = s.tows := rfl
@[simp] theorem Dev.raise_mg (v : Event) : (s.raise v).mg = s.mg := rfl
@[simp] theorem Dev.raise_sv (v : Event) : (s.raise v).sv = s.sv := rfl
@[simp] theorem Dev.raise_pwr (v : Event) : (s.raise v).pwr = s.pwr := rfl
@[simp] theorem Dev.raise_evq (v : Event) : (s.raise v).evq = s.evq ++ [v] := rfl
@[simp] theorem Dev.raise_complq (v : Event) : (s.raise v).complq = s.complq := rfl
@[simp] theorem Dev.raise_laneWaits (v : Event) : (s.raise v).laneWaits = s.laneWaits := rfl
@[simp] theorem Dev.raise_reports (v : Event) : (s.raise v).reports = s.reports := rfl
@[simp] theorem Dev.raise_telq (v : Event) : (s.raise v).telq = s.telq := rfl
@[simp] theorem Dev.raise_out (v : Event) : (s.raise v).out = s.out := rfl

/-! ### complete -/

@[simp] theorem Dev.complete_freeCount (k : Completion) : (s.complete k).freeCount = s.freeCount := rfl
@[simp] theorem Dev.complete_ticks (k : Completion) : (s.complete k).ticks = s.ticks := rfl
@[simp] theorem Dev.complete_tbTime (k : Completion) : (s.complete k).tbTime = s.tbTime := rfl
@[simp] theorem Dev.complete_tb (k : Completion) : (s.complete k).tb = s.tb := rfl
@[simp] theorem Dev.complete_linkA (k : Completion) : (s.complete k).linkA = s.linkA := rfl
@[simp] theorem Dev.complete_linkB (k : Completion) : (s.complete k).linkB = s.linkB := rfl
@[simp] theorem Dev.complete_ring (k : Completion) : (s.complete k).ring = s.ring := rfl
@[simp] theorem Dev.complete_replicas (k : Completion) : (s.complete k).replicas = s.replicas := rfl
@[simp] theorem Dev.complete_lk (k : Completion) : (s.complete k).lk = s.lk := rfl
@[simp] theorem Dev.complete_cells (k : Completion) : (s.complete k).cells = s.cells := rfl
@[simp] theorem Dev.complete_blocks (k : Completion) : (s.complete k).blocks = s.blocks := rfl
@[simp] theorem Dev.complete_regions (k : Completion) : (s.complete k).regions = s.regions := rfl
@[simp] theorem Dev.complete_barges (k : Completion) : (s.complete k).barges = s.barges := rfl
@[simp] theorem Dev.complete_sram (k : Completion) : (s.complete k).sram = s.sram := rfl
@[simp] theorem Dev.complete_rram (k : Completion) : (s.complete k).rram = s.rram := rfl
@[simp] theorem Dev.complete_flash (k : Completion) : (s.complete k).flash = s.flash := rfl
@[simp] theorem Dev.complete_rtSlot (k : Completion) : (s.complete k).rtSlot = s.rtSlot := rfl
@[simp] theorem Dev.complete_custSlot (k : Completion) : (s.complete k).custSlot = s.custSlot := rfl
@[simp] theorem Dev.complete_dbg (k : Completion) : (s.complete k).dbg = s.dbg := rfl
@[simp] theorem Dev.complete_tap (k : Completion) : (s.complete k).tap = s.tap := rfl
@[simp] theorem Dev.complete_nodes (k : Completion) : (s.complete k).nodes = s.nodes := rfl
@[simp] theorem Dev.complete_lvDone (k : Completion) : (s.complete k).lvDone = s.lvDone := rfl
@[simp] theorem Dev.complete_rgnFail (k : Completion) : (s.complete k).rgnFail = s.rgnFail := rfl
@[simp] theorem Dev.complete_badSize (k : Completion) : (s.complete k).badSize = s.badSize := rfl
@[simp] theorem Dev.complete_rsvdWrites (k : Completion) : (s.complete k).rsvdWrites = s.rsvdWrites := rfl
@[simp] theorem Dev.complete_slices (k : Completion) : (s.complete k).slices = s.slices := rfl
@[simp] theorem Dev.complete_sliceQ (k : Completion) : (s.complete k).sliceQ = s.sliceQ := rfl
@[simp] theorem Dev.complete_lanes (k : Completion) : (s.complete k).lanes = s.lanes := rfl
@[simp] theorem Dev.complete_convs (k : Completion) : (s.complete k).convs = s.convs := rfl
@[simp] theorem Dev.complete_auxs (k : Completion) : (s.complete k).auxs = s.auxs := rfl
@[simp] theorem Dev.complete_calSlots (k : Completion) : (s.complete k).calSlots = s.calSlots := rfl
@[simp] theorem Dev.complete_regs (k : Completion) : (s.complete k).regs = s.regs := rfl
@[simp] theorem Dev.complete_regsPend (k : Completion) : (s.complete k).regsPend = s.regsPend := rfl
@[simp] theorem Dev.complete_prof (k : Completion) : (s.complete k).prof = s.prof := rfl
@[simp] theorem Dev.complete_profPend (k : Completion) : (s.complete k).profPend = s.profPend := rfl
@[simp] theorem Dev.complete_colls (k : Completion) : (s.complete k).colls = s.colls := rfl
@[simp] theorem Dev.complete_err (k : Completion) : (s.complete k).err = s.err := rfl
@[simp] theorem Dev.complete_sluice (k : Completion) : (s.complete k).sluice = s.sluice := rfl
@[simp] theorem Dev.complete_slMsgs (k : Completion) : (s.complete k).slMsgs = s.slMsgs := rfl
@[simp] theorem Dev.complete_grants (k : Completion) : (s.complete k).grants = s.grants := rfl
@[simp] theorem Dev.complete_mirror (k : Completion) : (s.complete k).mirror = s.mirror := rfl
@[simp] theorem Dev.complete_mirrorStale (k : Completion) : (s.complete k).mirrorStale = s.mirrorStale := rfl
@[simp] theorem Dev.complete_fwdMem (k : Completion) : (s.complete k).fwdMem = s.fwdMem := rfl
@[simp] theorem Dev.complete_tripSeq (k : Completion) : (s.complete k).tripSeq = s.tripSeq := rfl
@[simp] theorem Dev.complete_ringPos (k : Completion) : (s.complete k).ringPos = s.ringPos := rfl
@[simp] theorem Dev.complete_hp (k : Completion) : (s.complete k).hp = s.hp := rfl
@[simp] theorem Dev.complete_ops (k : Completion) : (s.complete k).ops = s.ops := rfl
@[simp] theorem Dev.complete_opGen (k : Completion) : (s.complete k).opGen = s.opGen := rfl
@[simp] theorem Dev.complete_bz (k : Completion) : (s.complete k).bz = s.bz := rfl
@[simp] theorem Dev.complete_rv (k : Completion) : (s.complete k).rv = s.rv := rfl
@[simp] theorem Dev.complete_tows (k : Completion) : (s.complete k).tows = s.tows := rfl
@[simp] theorem Dev.complete_mg (k : Completion) : (s.complete k).mg = s.mg := rfl
@[simp] theorem Dev.complete_sv (k : Completion) : (s.complete k).sv = s.sv := rfl
@[simp] theorem Dev.complete_pwr (k : Completion) : (s.complete k).pwr = s.pwr := rfl
@[simp] theorem Dev.complete_evq (k : Completion) : (s.complete k).evq = s.evq := rfl
@[simp] theorem Dev.complete_complq (k : Completion) : (s.complete k).complq = s.complq ++ [k] := rfl
@[simp] theorem Dev.complete_laneWaits (k : Completion) : (s.complete k).laneWaits = s.laneWaits := rfl
@[simp] theorem Dev.complete_reports (k : Completion) : (s.complete k).reports = s.reports := rfl
@[simp] theorem Dev.complete_telq (k : Completion) : (s.complete k).telq = s.telq := rfl
@[simp] theorem Dev.complete_out (k : Completion) : (s.complete k).out = s.out := rfl

/-! ### Readers of one object over updates of another -/

@[simp] theorem Dev.setCell_block (c : Nat) (v : Cell) (j : Nat) : (s.setCell c v).block j = s.block j := rfl
@[simp] theorem Dev.setCell_region (c : Nat) (v : Cell) (j : Nat) : (s.setCell c v).region j = s.region j := rfl
@[simp] theorem Dev.setCell_barge (c : Nat) (v : Cell) (j : Nat) : (s.setCell c v).barge j = s.barge j := rfl
@[simp] theorem Dev.setCell_coll (c : Nat) (v : Cell) (j : Nat) : (s.setCell c v).coll j = s.coll j := rfl
@[simp] theorem Dev.setCell_reg (c : Nat) (v : Cell) (j : Nat) : (s.setCell c v).reg j = s.reg j := rfl
@[simp] theorem Dev.setCell_lane (c : Nat) (v : Cell) (j : Nat) : (s.setCell c v).lane j = s.lane j := rfl
@[simp] theorem Dev.setCell_conv (c : Nat) (v : Cell) (j : Nat) : (s.setCell c v).conv j = s.conv j := rfl
@[simp] theorem Dev.setCell_aux (c : Nat) (v : Cell) (j : Nat) : (s.setCell c v).aux j = s.aux j := rfl
@[simp] theorem Dev.setCell_slice (c : Nat) (v : Cell) (j : Nat) : (s.setCell c v).slice j = s.slice j := rfl
@[simp] theorem Dev.setCell_tow (c : Nat) (v : Cell) (j : Nat) : (s.setCell c v).tow j = s.tow j := rfl
@[simp] theorem Dev.setCell_node (c : Nat) (v : Cell) (j : Nat) : (s.setCell c v).node j = s.node j := rfl
@[simp] theorem Dev.setCell_op (c : Nat) (v : Cell) (j : Nat) : (s.setCell c v).op j = s.op j := rfl
@[simp] theorem Dev.setCell_replica (c : Nat) (v : Cell) (j : Nat) : (s.setCell c v).replica j = s.replica j := rfl
@[simp] theorem Dev.setBlock_cell (b : Nat) (v : Block) (j : Nat) : (s.setBlock b v).cell j = s.cell j := rfl
@[simp] theorem Dev.setBlock_region (b : Nat) (v : Block) (j : Nat) : (s.setBlock b v).region j = s.region j := rfl
@[simp] theorem Dev.setBlock_barge (b : Nat) (v : Block) (j : Nat) : (s.setBlock b v).barge j = s.barge j := rfl
@[simp] theorem Dev.setBlock_coll (b : Nat) (v : Block) (j : Nat) : (s.setBlock b v).coll j = s.coll j := rfl
@[simp] theorem Dev.setBlock_reg (b : Nat) (v : Block) (j : Nat) : (s.setBlock b v).reg j = s.reg j := rfl
@[simp] theorem Dev.setBlock_lane (b : Nat) (v : Block) (j : Nat) : (s.setBlock b v).lane j = s.lane j := rfl
@[simp] theorem Dev.setBlock_conv (b : Nat) (v : Block) (j : Nat) : (s.setBlock b v).conv j = s.conv j := rfl
@[simp] theorem Dev.setBlock_aux (b : Nat) (v : Block) (j : Nat) : (s.setBlock b v).aux j = s.aux j := rfl
@[simp] theorem Dev.setBlock_slice (b : Nat) (v : Block) (j : Nat) : (s.setBlock b v).slice j = s.slice j := rfl
@[simp] theorem Dev.setBlock_tow (b : Nat) (v : Block) (j : Nat) : (s.setBlock b v).tow j = s.tow j := rfl
@[simp] theorem Dev.setBlock_node (b : Nat) (v : Block) (j : Nat) : (s.setBlock b v).node j = s.node j := rfl
@[simp] theorem Dev.setBlock_op (b : Nat) (v : Block) (j : Nat) : (s.setBlock b v).op j = s.op j := rfl
@[simp] theorem Dev.setBlock_replica (b : Nat) (v : Block) (j : Nat) : (s.setBlock b v).replica j = s.replica j := rfl
@[simp] theorem Dev.setRegion_cell (g : Nat) (v : Region) (j : Nat) : (s.setRegion g v).cell j = s.cell j := rfl
@[simp] theorem Dev.setRegion_block (g : Nat) (v : Region) (j : Nat) : (s.setRegion g v).block j = s.block j := rfl
@[simp] theorem Dev.setRegion_barge (g : Nat) (v : Region) (j : Nat) : (s.setRegion g v).barge j = s.barge j := rfl
@[simp] theorem Dev.setRegion_coll (g : Nat) (v : Region) (j : Nat) : (s.setRegion g v).coll j = s.coll j := rfl
@[simp] theorem Dev.setRegion_reg (g : Nat) (v : Region) (j : Nat) : (s.setRegion g v).reg j = s.reg j := rfl
@[simp] theorem Dev.setRegion_lane (g : Nat) (v : Region) (j : Nat) : (s.setRegion g v).lane j = s.lane j := rfl
@[simp] theorem Dev.setRegion_conv (g : Nat) (v : Region) (j : Nat) : (s.setRegion g v).conv j = s.conv j := rfl
@[simp] theorem Dev.setRegion_aux (g : Nat) (v : Region) (j : Nat) : (s.setRegion g v).aux j = s.aux j := rfl
@[simp] theorem Dev.setRegion_slice (g : Nat) (v : Region) (j : Nat) : (s.setRegion g v).slice j = s.slice j := rfl
@[simp] theorem Dev.setRegion_tow (g : Nat) (v : Region) (j : Nat) : (s.setRegion g v).tow j = s.tow j := rfl
@[simp] theorem Dev.setRegion_node (g : Nat) (v : Region) (j : Nat) : (s.setRegion g v).node j = s.node j := rfl
@[simp] theorem Dev.setRegion_op (g : Nat) (v : Region) (j : Nat) : (s.setRegion g v).op j = s.op j := rfl
@[simp] theorem Dev.setRegion_replica (g : Nat) (v : Region) (j : Nat) : (s.setRegion g v).replica j = s.replica j := rfl
@[simp] theorem Dev.setBarge_cell (e : Nat) (v : Barge) (j : Nat) : (s.setBarge e v).cell j = s.cell j := rfl
@[simp] theorem Dev.setBarge_block (e : Nat) (v : Barge) (j : Nat) : (s.setBarge e v).block j = s.block j := rfl
@[simp] theorem Dev.setBarge_region (e : Nat) (v : Barge) (j : Nat) : (s.setBarge e v).region j = s.region j := rfl
@[simp] theorem Dev.setBarge_coll (e : Nat) (v : Barge) (j : Nat) : (s.setBarge e v).coll j = s.coll j := rfl
@[simp] theorem Dev.setBarge_reg (e : Nat) (v : Barge) (j : Nat) : (s.setBarge e v).reg j = s.reg j := rfl
@[simp] theorem Dev.setBarge_lane (e : Nat) (v : Barge) (j : Nat) : (s.setBarge e v).lane j = s.lane j := rfl
@[simp] theorem Dev.setBarge_conv (e : Nat) (v : Barge) (j : Nat) : (s.setBarge e v).conv j = s.conv j := rfl
@[simp] theorem Dev.setBarge_aux (e : Nat) (v : Barge) (j : Nat) : (s.setBarge e v).aux j = s.aux j := rfl
@[simp] theorem Dev.setBarge_slice (e : Nat) (v : Barge) (j : Nat) : (s.setBarge e v).slice j = s.slice j := rfl
@[simp] theorem Dev.setBarge_tow (e : Nat) (v : Barge) (j : Nat) : (s.setBarge e v).tow j = s.tow j := rfl
@[simp] theorem Dev.setBarge_node (e : Nat) (v : Barge) (j : Nat) : (s.setBarge e v).node j = s.node j := rfl
@[simp] theorem Dev.setBarge_op (e : Nat) (v : Barge) (j : Nat) : (s.setBarge e v).op j = s.op j := rfl
@[simp] theorem Dev.setBarge_replica (e : Nat) (v : Barge) (j : Nat) : (s.setBarge e v).replica j = s.replica j := rfl
@[simp] theorem Dev.setColl_cell (k : Nat) (v : Coll) (j : Nat) : (s.setColl k v).cell j = s.cell j := rfl
@[simp] theorem Dev.setColl_block (k : Nat) (v : Coll) (j : Nat) : (s.setColl k v).block j = s.block j := rfl
@[simp] theorem Dev.setColl_region (k : Nat) (v : Coll) (j : Nat) : (s.setColl k v).region j = s.region j := rfl
@[simp] theorem Dev.setColl_barge (k : Nat) (v : Coll) (j : Nat) : (s.setColl k v).barge j = s.barge j := rfl
@[simp] theorem Dev.setColl_reg (k : Nat) (v : Coll) (j : Nat) : (s.setColl k v).reg j = s.reg j := rfl
@[simp] theorem Dev.setColl_lane (k : Nat) (v : Coll) (j : Nat) : (s.setColl k v).lane j = s.lane j := rfl
@[simp] theorem Dev.setColl_conv (k : Nat) (v : Coll) (j : Nat) : (s.setColl k v).conv j = s.conv j := rfl
@[simp] theorem Dev.setColl_aux (k : Nat) (v : Coll) (j : Nat) : (s.setColl k v).aux j = s.aux j := rfl
@[simp] theorem Dev.setColl_slice (k : Nat) (v : Coll) (j : Nat) : (s.setColl k v).slice j = s.slice j := rfl
@[simp] theorem Dev.setColl_tow (k : Nat) (v : Coll) (j : Nat) : (s.setColl k v).tow j = s.tow j := rfl
@[simp] theorem Dev.setColl_node (k : Nat) (v : Coll) (j : Nat) : (s.setColl k v).node j = s.node j := rfl
@[simp] theorem Dev.setColl_op (k : Nat) (v : Coll) (j : Nat) : (s.setColl k v).op j = s.op j := rfl
@[simp] theorem Dev.setColl_replica (k : Nat) (v : Coll) (j : Nat) : (s.setColl k v).replica j = s.replica j := rfl
@[simp] theorem Dev.setReg_cell (o : Nat) (v : Word) (j : Nat) : (s.setReg o v).cell j = s.cell j := rfl
@[simp] theorem Dev.setReg_block (o : Nat) (v : Word) (j : Nat) : (s.setReg o v).block j = s.block j := rfl
@[simp] theorem Dev.setReg_region (o : Nat) (v : Word) (j : Nat) : (s.setReg o v).region j = s.region j := rfl
@[simp] theorem Dev.setReg_barge (o : Nat) (v : Word) (j : Nat) : (s.setReg o v).barge j = s.barge j := rfl
@[simp] theorem Dev.setReg_coll (o : Nat) (v : Word) (j : Nat) : (s.setReg o v).coll j = s.coll j := rfl
@[simp] theorem Dev.setReg_lane (o : Nat) (v : Word) (j : Nat) : (s.setReg o v).lane j = s.lane j := rfl
@[simp] theorem Dev.setReg_conv (o : Nat) (v : Word) (j : Nat) : (s.setReg o v).conv j = s.conv j := rfl
@[simp] theorem Dev.setReg_aux (o : Nat) (v : Word) (j : Nat) : (s.setReg o v).aux j = s.aux j := rfl
@[simp] theorem Dev.setReg_slice (o : Nat) (v : Word) (j : Nat) : (s.setReg o v).slice j = s.slice j := rfl
@[simp] theorem Dev.setReg_tow (o : Nat) (v : Word) (j : Nat) : (s.setReg o v).tow j = s.tow j := rfl
@[simp] theorem Dev.setReg_node (o : Nat) (v : Word) (j : Nat) : (s.setReg o v).node j = s.node j := rfl
@[simp] theorem Dev.setReg_op (o : Nat) (v : Word) (j : Nat) : (s.setReg o v).op j = s.op j := rfl
@[simp] theorem Dev.setReg_replica (o : Nat) (v : Word) (j : Nat) : (s.setReg o v).replica j = s.replica j := rfl
@[simp] theorem Dev.setLane_cell (c : Nat) (v : Lane) (j : Nat) : (s.setLane c v).cell j = s.cell j := rfl
@[simp] theorem Dev.setLane_block (c : Nat) (v : Lane) (j : Nat) : (s.setLane c v).block j = s.block j := rfl
@[simp] theorem Dev.setLane_region (c : Nat) (v : Lane) (j : Nat) : (s.setLane c v).region j = s.region j := rfl
@[simp] theorem Dev.setLane_barge (c : Nat) (v : Lane) (j : Nat) : (s.setLane c v).barge j = s.barge j := rfl
@[simp] theorem Dev.setLane_coll (c : Nat) (v : Lane) (j : Nat) : (s.setLane c v).coll j = s.coll j := rfl
@[simp] theorem Dev.setLane_reg (c : Nat) (v : Lane) (j : Nat) : (s.setLane c v).reg j = s.reg j := rfl
@[simp] theorem Dev.setLane_conv (c : Nat) (v : Lane) (j : Nat) : (s.setLane c v).conv j = s.conv j := rfl
@[simp] theorem Dev.setLane_aux (c : Nat) (v : Lane) (j : Nat) : (s.setLane c v).aux j = s.aux j := rfl
@[simp] theorem Dev.setLane_slice (c : Nat) (v : Lane) (j : Nat) : (s.setLane c v).slice j = s.slice j := rfl
@[simp] theorem Dev.setLane_tow (c : Nat) (v : Lane) (j : Nat) : (s.setLane c v).tow j = s.tow j := rfl
@[simp] theorem Dev.setLane_node (c : Nat) (v : Lane) (j : Nat) : (s.setLane c v).node j = s.node j := rfl
@[simp] theorem Dev.setLane_op (c : Nat) (v : Lane) (j : Nat) : (s.setLane c v).op j = s.op j := rfl
@[simp] theorem Dev.setLane_replica (c : Nat) (v : Lane) (j : Nat) : (s.setLane c v).replica j = s.replica j := rfl
@[simp] theorem Dev.setConv_cell (b : Nat) (v : Conv) (j : Nat) : (s.setConv b v).cell j = s.cell j := rfl
@[simp] theorem Dev.setConv_block (b : Nat) (v : Conv) (j : Nat) : (s.setConv b v).block j = s.block j := rfl
@[simp] theorem Dev.setConv_region (b : Nat) (v : Conv) (j : Nat) : (s.setConv b v).region j = s.region j := rfl
@[simp] theorem Dev.setConv_barge (b : Nat) (v : Conv) (j : Nat) : (s.setConv b v).barge j = s.barge j := rfl
@[simp] theorem Dev.setConv_coll (b : Nat) (v : Conv) (j : Nat) : (s.setConv b v).coll j = s.coll j := rfl
@[simp] theorem Dev.setConv_reg (b : Nat) (v : Conv) (j : Nat) : (s.setConv b v).reg j = s.reg j := rfl
@[simp] theorem Dev.setConv_lane (b : Nat) (v : Conv) (j : Nat) : (s.setConv b v).lane j = s.lane j := rfl
@[simp] theorem Dev.setConv_aux (b : Nat) (v : Conv) (j : Nat) : (s.setConv b v).aux j = s.aux j := rfl
@[simp] theorem Dev.setConv_slice (b : Nat) (v : Conv) (j : Nat) : (s.setConv b v).slice j = s.slice j := rfl
@[simp] theorem Dev.setConv_tow (b : Nat) (v : Conv) (j : Nat) : (s.setConv b v).tow j = s.tow j := rfl
@[simp] theorem Dev.setConv_node (b : Nat) (v : Conv) (j : Nat) : (s.setConv b v).node j = s.node j := rfl
@[simp] theorem Dev.setConv_op (b : Nat) (v : Conv) (j : Nat) : (s.setConv b v).op j = s.op j := rfl
@[simp] theorem Dev.setConv_replica (b : Nat) (v : Conv) (j : Nat) : (s.setConv b v).replica j = s.replica j := rfl
@[simp] theorem Dev.setAux_cell (g : Nat) (v : Aux) (j : Nat) : (s.setAux g v).cell j = s.cell j := rfl
@[simp] theorem Dev.setAux_block (g : Nat) (v : Aux) (j : Nat) : (s.setAux g v).block j = s.block j := rfl
@[simp] theorem Dev.setAux_region (g : Nat) (v : Aux) (j : Nat) : (s.setAux g v).region j = s.region j := rfl
@[simp] theorem Dev.setAux_barge (g : Nat) (v : Aux) (j : Nat) : (s.setAux g v).barge j = s.barge j := rfl
@[simp] theorem Dev.setAux_coll (g : Nat) (v : Aux) (j : Nat) : (s.setAux g v).coll j = s.coll j := rfl
@[simp] theorem Dev.setAux_reg (g : Nat) (v : Aux) (j : Nat) : (s.setAux g v).reg j = s.reg j := rfl
@[simp] theorem Dev.setAux_lane (g : Nat) (v : Aux) (j : Nat) : (s.setAux g v).lane j = s.lane j := rfl
@[simp] theorem Dev.setAux_conv (g : Nat) (v : Aux) (j : Nat) : (s.setAux g v).conv j = s.conv j := rfl
@[simp] theorem Dev.setAux_slice (g : Nat) (v : Aux) (j : Nat) : (s.setAux g v).slice j = s.slice j := rfl
@[simp] theorem Dev.setAux_tow (g : Nat) (v : Aux) (j : Nat) : (s.setAux g v).tow j = s.tow j := rfl
@[simp] theorem Dev.setAux_node (g : Nat) (v : Aux) (j : Nat) : (s.setAux g v).node j = s.node j := rfl
@[simp] theorem Dev.setAux_op (g : Nat) (v : Aux) (j : Nat) : (s.setAux g v).op j = s.op j := rfl
@[simp] theorem Dev.setAux_replica (g : Nat) (v : Aux) (j : Nat) : (s.setAux g v).replica j = s.replica j := rfl
@[simp] theorem Dev.setSlice_cell (k : Nat) (v : Slice) (j : Nat) : (s.setSlice k v).cell j = s.cell j := rfl
@[simp] theorem Dev.setSlice_block (k : Nat) (v : Slice) (j : Nat) : (s.setSlice k v).block j = s.block j := rfl
@[simp] theorem Dev.setSlice_region (k : Nat) (v : Slice) (j : Nat) : (s.setSlice k v).region j = s.region j := rfl
@[simp] theorem Dev.setSlice_barge (k : Nat) (v : Slice) (j : Nat) : (s.setSlice k v).barge j = s.barge j := rfl
@[simp] theorem Dev.setSlice_coll (k : Nat) (v : Slice) (j : Nat) : (s.setSlice k v).coll j = s.coll j := rfl
@[simp] theorem Dev.setSlice_reg (k : Nat) (v : Slice) (j : Nat) : (s.setSlice k v).reg j = s.reg j := rfl
@[simp] theorem Dev.setSlice_lane (k : Nat) (v : Slice) (j : Nat) : (s.setSlice k v).lane j = s.lane j := rfl
@[simp] theorem Dev.setSlice_conv (k : Nat) (v : Slice) (j : Nat) : (s.setSlice k v).conv j = s.conv j := rfl
@[simp] theorem Dev.setSlice_aux (k : Nat) (v : Slice) (j : Nat) : (s.setSlice k v).aux j = s.aux j := rfl
@[simp] theorem Dev.setSlice_tow (k : Nat) (v : Slice) (j : Nat) : (s.setSlice k v).tow j = s.tow j := rfl
@[simp] theorem Dev.setSlice_node (k : Nat) (v : Slice) (j : Nat) : (s.setSlice k v).node j = s.node j := rfl
@[simp] theorem Dev.setSlice_op (k : Nat) (v : Slice) (j : Nat) : (s.setSlice k v).op j = s.op j := rfl
@[simp] theorem Dev.setSlice_replica (k : Nat) (v : Slice) (j : Nat) : (s.setSlice k v).replica j = s.replica j := rfl
@[simp] theorem Dev.setTow_cell (t : Nat) (v : Towpath) (j : Nat) : (s.setTow t v).cell j = s.cell j := rfl
@[simp] theorem Dev.setTow_block (t : Nat) (v : Towpath) (j : Nat) : (s.setTow t v).block j = s.block j := rfl
@[simp] theorem Dev.setTow_region (t : Nat) (v : Towpath) (j : Nat) : (s.setTow t v).region j = s.region j := rfl
@[simp] theorem Dev.setTow_barge (t : Nat) (v : Towpath) (j : Nat) : (s.setTow t v).barge j = s.barge j := rfl
@[simp] theorem Dev.setTow_coll (t : Nat) (v : Towpath) (j : Nat) : (s.setTow t v).coll j = s.coll j := rfl
@[simp] theorem Dev.setTow_reg (t : Nat) (v : Towpath) (j : Nat) : (s.setTow t v).reg j = s.reg j := rfl
@[simp] theorem Dev.setTow_lane (t : Nat) (v : Towpath) (j : Nat) : (s.setTow t v).lane j = s.lane j := rfl
@[simp] theorem Dev.setTow_conv (t : Nat) (v : Towpath) (j : Nat) : (s.setTow t v).conv j = s.conv j := rfl
@[simp] theorem Dev.setTow_aux (t : Nat) (v : Towpath) (j : Nat) : (s.setTow t v).aux j = s.aux j := rfl
@[simp] theorem Dev.setTow_slice (t : Nat) (v : Towpath) (j : Nat) : (s.setTow t v).slice j = s.slice j := rfl
@[simp] theorem Dev.setTow_node (t : Nat) (v : Towpath) (j : Nat) : (s.setTow t v).node j = s.node j := rfl
@[simp] theorem Dev.setTow_op (t : Nat) (v : Towpath) (j : Nat) : (s.setTow t v).op j = s.op j := rfl
@[simp] theorem Dev.setTow_replica (t : Nat) (v : Towpath) (j : Nat) : (s.setTow t v).replica j = s.replica j := rfl
@[simp] theorem Dev.setNode_cell (n : Nat) (v : Node) (j : Nat) : (s.setNode n v).cell j = s.cell j := rfl
@[simp] theorem Dev.setNode_block (n : Nat) (v : Node) (j : Nat) : (s.setNode n v).block j = s.block j := rfl
@[simp] theorem Dev.setNode_region (n : Nat) (v : Node) (j : Nat) : (s.setNode n v).region j = s.region j := rfl
@[simp] theorem Dev.setNode_barge (n : Nat) (v : Node) (j : Nat) : (s.setNode n v).barge j = s.barge j := rfl
@[simp] theorem Dev.setNode_coll (n : Nat) (v : Node) (j : Nat) : (s.setNode n v).coll j = s.coll j := rfl
@[simp] theorem Dev.setNode_reg (n : Nat) (v : Node) (j : Nat) : (s.setNode n v).reg j = s.reg j := rfl
@[simp] theorem Dev.setNode_lane (n : Nat) (v : Node) (j : Nat) : (s.setNode n v).lane j = s.lane j := rfl
@[simp] theorem Dev.setNode_conv (n : Nat) (v : Node) (j : Nat) : (s.setNode n v).conv j = s.conv j := rfl
@[simp] theorem Dev.setNode_aux (n : Nat) (v : Node) (j : Nat) : (s.setNode n v).aux j = s.aux j := rfl
@[simp] theorem Dev.setNode_slice (n : Nat) (v : Node) (j : Nat) : (s.setNode n v).slice j = s.slice j := rfl
@[simp] theorem Dev.setNode_tow (n : Nat) (v : Node) (j : Nat) : (s.setNode n v).tow j = s.tow j := rfl
@[simp] theorem Dev.setNode_op (n : Nat) (v : Node) (j : Nat) : (s.setNode n v).op j = s.op j := rfl
@[simp] theorem Dev.setNode_replica (n : Nat) (v : Node) (j : Nat) : (s.setNode n v).replica j = s.replica j := rfl
@[simp] theorem Dev.setOp_cell (n : Nat) (v : Option Op) (j : Nat) : (s.setOp n v).cell j = s.cell j := rfl
@[simp] theorem Dev.setOp_block (n : Nat) (v : Option Op) (j : Nat) : (s.setOp n v).block j = s.block j := rfl
@[simp] theorem Dev.setOp_region (n : Nat) (v : Option Op) (j : Nat) : (s.setOp n v).region j = s.region j := rfl
@[simp] theorem Dev.setOp_barge (n : Nat) (v : Option Op) (j : Nat) : (s.setOp n v).barge j = s.barge j := rfl
@[simp] theorem Dev.setOp_coll (n : Nat) (v : Option Op) (j : Nat) : (s.setOp n v).coll j = s.coll j := rfl
@[simp] theorem Dev.setOp_reg (n : Nat) (v : Option Op) (j : Nat) : (s.setOp n v).reg j = s.reg j := rfl
@[simp] theorem Dev.setOp_lane (n : Nat) (v : Option Op) (j : Nat) : (s.setOp n v).lane j = s.lane j := rfl
@[simp] theorem Dev.setOp_conv (n : Nat) (v : Option Op) (j : Nat) : (s.setOp n v).conv j = s.conv j := rfl
@[simp] theorem Dev.setOp_aux (n : Nat) (v : Option Op) (j : Nat) : (s.setOp n v).aux j = s.aux j := rfl
@[simp] theorem Dev.setOp_slice (n : Nat) (v : Option Op) (j : Nat) : (s.setOp n v).slice j = s.slice j := rfl
@[simp] theorem Dev.setOp_tow (n : Nat) (v : Option Op) (j : Nat) : (s.setOp n v).tow j = s.tow j := rfl
@[simp] theorem Dev.setOp_node (n : Nat) (v : Option Op) (j : Nat) : (s.setOp n v).node j = s.node j := rfl
@[simp] theorem Dev.setOp_replica (n : Nat) (v : Option Op) (j : Nat) : (s.setOp n v).replica j = s.replica j := rfl
@[simp] theorem Dev.setReplica_cell (g : Nat) (v : Replica) (j : Nat) : (s.setReplica g v).cell j = s.cell j := rfl
@[simp] theorem Dev.setReplica_block (g : Nat) (v : Replica) (j : Nat) : (s.setReplica g v).block j = s.block j := rfl
@[simp] theorem Dev.setReplica_region (g : Nat) (v : Replica) (j : Nat) : (s.setReplica g v).region j = s.region j := rfl
@[simp] theorem Dev.setReplica_barge (g : Nat) (v : Replica) (j : Nat) : (s.setReplica g v).barge j = s.barge j := rfl
@[simp] theorem Dev.setReplica_coll (g : Nat) (v : Replica) (j : Nat) : (s.setReplica g v).coll j = s.coll j := rfl
@[simp] theorem Dev.setReplica_reg (g : Nat) (v : Replica) (j : Nat) : (s.setReplica g v).reg j = s.reg j := rfl
@[simp] theorem Dev.setReplica_lane (g : Nat) (v : Replica) (j : Nat) : (s.setReplica g v).lane j = s.lane j := rfl
@[simp] theorem Dev.setReplica_conv (g : Nat) (v : Replica) (j : Nat) : (s.setReplica g v).conv j = s.conv j := rfl
@[simp] theorem Dev.setReplica_aux (g : Nat) (v : Replica) (j : Nat) : (s.setReplica g v).aux j = s.aux j := rfl
@[simp] theorem Dev.setReplica_slice (g : Nat) (v : Replica) (j : Nat) : (s.setReplica g v).slice j = s.slice j := rfl
@[simp] theorem Dev.setReplica_tow (g : Nat) (v : Replica) (j : Nat) : (s.setReplica g v).tow j = s.tow j := rfl
@[simp] theorem Dev.setReplica_node (g : Nat) (v : Replica) (j : Nat) : (s.setReplica g v).node j = s.node j := rfl
@[simp] theorem Dev.setReplica_op (g : Nat) (v : Replica) (j : Nat) : (s.setReplica g v).op j = s.op j := rfl
@[simp] theorem Dev.modBz_cell (f : Basin → Basin) (j : Nat) : (s.modBz f).cell j = s.cell j := rfl
@[simp] theorem Dev.modBz_block (f : Basin → Basin) (j : Nat) : (s.modBz f).block j = s.block j := rfl
@[simp] theorem Dev.modBz_region (f : Basin → Basin) (j : Nat) : (s.modBz f).region j = s.region j := rfl
@[simp] theorem Dev.modBz_barge (f : Basin → Basin) (j : Nat) : (s.modBz f).barge j = s.barge j := rfl
@[simp] theorem Dev.modBz_coll (f : Basin → Basin) (j : Nat) : (s.modBz f).coll j = s.coll j := rfl
@[simp] theorem Dev.modBz_reg (f : Basin → Basin) (j : Nat) : (s.modBz f).reg j = s.reg j := rfl
@[simp] theorem Dev.modBz_lane (f : Basin → Basin) (j : Nat) : (s.modBz f).lane j = s.lane j := rfl
@[simp] theorem Dev.modBz_conv (f : Basin → Basin) (j : Nat) : (s.modBz f).conv j = s.conv j := rfl
@[simp] theorem Dev.modBz_aux (f : Basin → Basin) (j : Nat) : (s.modBz f).aux j = s.aux j := rfl
@[simp] theorem Dev.modBz_slice (f : Basin → Basin) (j : Nat) : (s.modBz f).slice j = s.slice j := rfl
@[simp] theorem Dev.modBz_tow (f : Basin → Basin) (j : Nat) : (s.modBz f).tow j = s.tow j := rfl
@[simp] theorem Dev.modBz_node (f : Basin → Basin) (j : Nat) : (s.modBz f).node j = s.node j := rfl
@[simp] theorem Dev.modBz_op (f : Basin → Basin) (j : Nat) : (s.modBz f).op j = s.op j := rfl
@[simp] theorem Dev.modBz_replica (f : Basin → Basin) (j : Nat) : (s.modBz f).replica j = s.replica j := rfl
@[simp] theorem Dev.modRv_cell (f : Reserve → Reserve) (j : Nat) : (s.modRv f).cell j = s.cell j := rfl
@[simp] theorem Dev.modRv_block (f : Reserve → Reserve) (j : Nat) : (s.modRv f).block j = s.block j := rfl
@[simp] theorem Dev.modRv_region (f : Reserve → Reserve) (j : Nat) : (s.modRv f).region j = s.region j := rfl
@[simp] theorem Dev.modRv_barge (f : Reserve → Reserve) (j : Nat) : (s.modRv f).barge j = s.barge j := rfl
@[simp] theorem Dev.modRv_coll (f : Reserve → Reserve) (j : Nat) : (s.modRv f).coll j = s.coll j := rfl
@[simp] theorem Dev.modRv_reg (f : Reserve → Reserve) (j : Nat) : (s.modRv f).reg j = s.reg j := rfl
@[simp] theorem Dev.modRv_lane (f : Reserve → Reserve) (j : Nat) : (s.modRv f).lane j = s.lane j := rfl
@[simp] theorem Dev.modRv_conv (f : Reserve → Reserve) (j : Nat) : (s.modRv f).conv j = s.conv j := rfl
@[simp] theorem Dev.modRv_aux (f : Reserve → Reserve) (j : Nat) : (s.modRv f).aux j = s.aux j := rfl
@[simp] theorem Dev.modRv_slice (f : Reserve → Reserve) (j : Nat) : (s.modRv f).slice j = s.slice j := rfl
@[simp] theorem Dev.modRv_tow (f : Reserve → Reserve) (j : Nat) : (s.modRv f).tow j = s.tow j := rfl
@[simp] theorem Dev.modRv_node (f : Reserve → Reserve) (j : Nat) : (s.modRv f).node j = s.node j := rfl
@[simp] theorem Dev.modRv_op (f : Reserve → Reserve) (j : Nat) : (s.modRv f).op j = s.op j := rfl
@[simp] theorem Dev.modRv_replica (f : Reserve → Reserve) (j : Nat) : (s.modRv f).replica j = s.replica j := rfl
@[simp] theorem Dev.modMg_cell (f : Mgmt → Mgmt) (j : Nat) : (s.modMg f).cell j = s.cell j := rfl
@[simp] theorem Dev.modMg_block (f : Mgmt → Mgmt) (j : Nat) : (s.modMg f).block j = s.block j := rfl
@[simp] theorem Dev.modMg_region (f : Mgmt → Mgmt) (j : Nat) : (s.modMg f).region j = s.region j := rfl
@[simp] theorem Dev.modMg_barge (f : Mgmt → Mgmt) (j : Nat) : (s.modMg f).barge j = s.barge j := rfl
@[simp] theorem Dev.modMg_coll (f : Mgmt → Mgmt) (j : Nat) : (s.modMg f).coll j = s.coll j := rfl
@[simp] theorem Dev.modMg_reg (f : Mgmt → Mgmt) (j : Nat) : (s.modMg f).reg j = s.reg j := rfl
@[simp] theorem Dev.modMg_lane (f : Mgmt → Mgmt) (j : Nat) : (s.modMg f).lane j = s.lane j := rfl
@[simp] theorem Dev.modMg_conv (f : Mgmt → Mgmt) (j : Nat) : (s.modMg f).conv j = s.conv j := rfl
@[simp] theorem Dev.modMg_aux (f : Mgmt → Mgmt) (j : Nat) : (s.modMg f).aux j = s.aux j := rfl
@[simp] theorem Dev.modMg_slice (f : Mgmt → Mgmt) (j : Nat) : (s.modMg f).slice j = s.slice j := rfl
@[simp] theorem Dev.modMg_tow (f : Mgmt → Mgmt) (j : Nat) : (s.modMg f).tow j = s.tow j := rfl
@[simp] theorem Dev.modMg_node (f : Mgmt → Mgmt) (j : Nat) : (s.modMg f).node j = s.node j := rfl
@[simp] theorem Dev.modMg_op (f : Mgmt → Mgmt) (j : Nat) : (s.modMg f).op j = s.op j := rfl
@[simp] theorem Dev.modMg_replica (f : Mgmt → Mgmt) (j : Nat) : (s.modMg f).replica j = s.replica j := rfl
@[simp] theorem Dev.modSv_cell (f : Supervisor → Supervisor) (j : Nat) : (s.modSv f).cell j = s.cell j := rfl
@[simp] theorem Dev.modSv_block (f : Supervisor → Supervisor) (j : Nat) : (s.modSv f).block j = s.block j := rfl
@[simp] theorem Dev.modSv_region (f : Supervisor → Supervisor) (j : Nat) : (s.modSv f).region j = s.region j := rfl
@[simp] theorem Dev.modSv_barge (f : Supervisor → Supervisor) (j : Nat) : (s.modSv f).barge j = s.barge j := rfl
@[simp] theorem Dev.modSv_coll (f : Supervisor → Supervisor) (j : Nat) : (s.modSv f).coll j = s.coll j := rfl
@[simp] theorem Dev.modSv_reg (f : Supervisor → Supervisor) (j : Nat) : (s.modSv f).reg j = s.reg j := rfl
@[simp] theorem Dev.modSv_lane (f : Supervisor → Supervisor) (j : Nat) : (s.modSv f).lane j = s.lane j := rfl
@[simp] theorem Dev.modSv_conv (f : Supervisor → Supervisor) (j : Nat) : (s.modSv f).conv j = s.conv j := rfl
@[simp] theorem Dev.modSv_aux (f : Supervisor → Supervisor) (j : Nat) : (s.modSv f).aux j = s.aux j := rfl
@[simp] theorem Dev.modSv_slice (f : Supervisor → Supervisor) (j : Nat) : (s.modSv f).slice j = s.slice j := rfl
@[simp] theorem Dev.modSv_tow (f : Supervisor → Supervisor) (j : Nat) : (s.modSv f).tow j = s.tow j := rfl
@[simp] theorem Dev.modSv_node (f : Supervisor → Supervisor) (j : Nat) : (s.modSv f).node j = s.node j := rfl
@[simp] theorem Dev.modSv_op (f : Supervisor → Supervisor) (j : Nat) : (s.modSv f).op j = s.op j := rfl
@[simp] theorem Dev.modSv_replica (f : Supervisor → Supervisor) (j : Nat) : (s.modSv f).replica j = s.replica j := rfl
@[simp] theorem Dev.modDbg_cell (f : DebugPort → DebugPort) (j : Nat) : (s.modDbg f).cell j = s.cell j := rfl
@[simp] theorem Dev.modDbg_block (f : DebugPort → DebugPort) (j : Nat) : (s.modDbg f).block j = s.block j := rfl
@[simp] theorem Dev.modDbg_region (f : DebugPort → DebugPort) (j : Nat) : (s.modDbg f).region j = s.region j := rfl
@[simp] theorem Dev.modDbg_barge (f : DebugPort → DebugPort) (j : Nat) : (s.modDbg f).barge j = s.barge j := rfl
@[simp] theorem Dev.modDbg_coll (f : DebugPort → DebugPort) (j : Nat) : (s.modDbg f).coll j = s.coll j := rfl
@[simp] theorem Dev.modDbg_reg (f : DebugPort → DebugPort) (j : Nat) : (s.modDbg f).reg j = s.reg j := rfl
@[simp] theorem Dev.modDbg_lane (f : DebugPort → DebugPort) (j : Nat) : (s.modDbg f).lane j = s.lane j := rfl
@[simp] theorem Dev.modDbg_conv (f : DebugPort → DebugPort) (j : Nat) : (s.modDbg f).conv j = s.conv j := rfl
@[simp] theorem Dev.modDbg_aux (f : DebugPort → DebugPort) (j : Nat) : (s.modDbg f).aux j = s.aux j := rfl
@[simp] theorem Dev.modDbg_slice (f : DebugPort → DebugPort) (j : Nat) : (s.modDbg f).slice j = s.slice j := rfl
@[simp] theorem Dev.modDbg_tow (f : DebugPort → DebugPort) (j : Nat) : (s.modDbg f).tow j = s.tow j := rfl
@[simp] theorem Dev.modDbg_node (f : DebugPort → DebugPort) (j : Nat) : (s.modDbg f).node j = s.node j := rfl
@[simp] theorem Dev.modDbg_op (f : DebugPort → DebugPort) (j : Nat) : (s.modDbg f).op j = s.op j := rfl
@[simp] theorem Dev.modDbg_replica (f : DebugPort → DebugPort) (j : Nat) : (s.modDbg f).replica j = s.replica j := rfl
@[simp] theorem Dev.emit_cell (o : Out) (j : Nat) : (s.emit o).cell j = s.cell j := rfl
@[simp] theorem Dev.emit_block (o : Out) (j : Nat) : (s.emit o).block j = s.block j := rfl
@[simp] theorem Dev.emit_region (o : Out) (j : Nat) : (s.emit o).region j = s.region j := rfl
@[simp] theorem Dev.emit_barge (o : Out) (j : Nat) : (s.emit o).barge j = s.barge j := rfl
@[simp] theorem Dev.emit_coll (o : Out) (j : Nat) : (s.emit o).coll j = s.coll j := rfl
@[simp] theorem Dev.emit_reg (o : Out) (j : Nat) : (s.emit o).reg j = s.reg j := rfl
@[simp] theorem Dev.emit_lane (o : Out) (j : Nat) : (s.emit o).lane j = s.lane j := rfl
@[simp] theorem Dev.emit_conv (o : Out) (j : Nat) : (s.emit o).conv j = s.conv j := rfl
@[simp] theorem Dev.emit_aux (o : Out) (j : Nat) : (s.emit o).aux j = s.aux j := rfl
@[simp] theorem Dev.emit_slice (o : Out) (j : Nat) : (s.emit o).slice j = s.slice j := rfl
@[simp] theorem Dev.emit_tow (o : Out) (j : Nat) : (s.emit o).tow j = s.tow j := rfl
@[simp] theorem Dev.emit_node (o : Out) (j : Nat) : (s.emit o).node j = s.node j := rfl
@[simp] theorem Dev.emit_op (o : Out) (j : Nat) : (s.emit o).op j = s.op j := rfl
@[simp] theorem Dev.emit_replica (o : Out) (j : Nat) : (s.emit o).replica j = s.replica j := rfl
@[simp] theorem Dev.raise_cell (v : Event) (j : Nat) : (s.raise v).cell j = s.cell j := rfl
@[simp] theorem Dev.raise_block (v : Event) (j : Nat) : (s.raise v).block j = s.block j := rfl
@[simp] theorem Dev.raise_region (v : Event) (j : Nat) : (s.raise v).region j = s.region j := rfl
@[simp] theorem Dev.raise_barge (v : Event) (j : Nat) : (s.raise v).barge j = s.barge j := rfl
@[simp] theorem Dev.raise_coll (v : Event) (j : Nat) : (s.raise v).coll j = s.coll j := rfl
@[simp] theorem Dev.raise_reg (v : Event) (j : Nat) : (s.raise v).reg j = s.reg j := rfl
@[simp] theorem Dev.raise_lane (v : Event) (j : Nat) : (s.raise v).lane j = s.lane j := rfl
@[simp] theorem Dev.raise_conv (v : Event) (j : Nat) : (s.raise v).conv j = s.conv j := rfl
@[simp] theorem Dev.raise_aux (v : Event) (j : Nat) : (s.raise v).aux j = s.aux j := rfl
@[simp] theorem Dev.raise_slice (v : Event) (j : Nat) : (s.raise v).slice j = s.slice j := rfl
@[simp] theorem Dev.raise_tow (v : Event) (j : Nat) : (s.raise v).tow j = s.tow j := rfl
@[simp] theorem Dev.raise_node (v : Event) (j : Nat) : (s.raise v).node j = s.node j := rfl
@[simp] theorem Dev.raise_op (v : Event) (j : Nat) : (s.raise v).op j = s.op j := rfl
@[simp] theorem Dev.raise_replica (v : Event) (j : Nat) : (s.raise v).replica j = s.replica j := rfl
@[simp] theorem Dev.complete_cell (k : Completion) (j : Nat) : (s.complete k).cell j = s.cell j := rfl
@[simp] theorem Dev.complete_block (k : Completion) (j : Nat) : (s.complete k).block j = s.block j := rfl
@[simp] theorem Dev.complete_region (k : Completion) (j : Nat) : (s.complete k).region j = s.region j := rfl
@[simp] theorem Dev.complete_barge (k : Completion) (j : Nat) : (s.complete k).barge j = s.barge j := rfl
@[simp] theorem Dev.complete_coll (k : Completion) (j : Nat) : (s.complete k).coll j = s.coll j := rfl
@[simp] theorem Dev.complete_reg (k : Completion) (j : Nat) : (s.complete k).reg j = s.reg j := rfl
@[simp] theorem Dev.complete_lane (k : Completion) (j : Nat) : (s.complete k).lane j = s.lane j := rfl
@[simp] theorem Dev.complete_conv (k : Completion) (j : Nat) : (s.complete k).conv j = s.conv j := rfl
@[simp] theorem Dev.complete_aux (k : Completion) (j : Nat) : (s.complete k).aux j = s.aux j := rfl
@[simp] theorem Dev.complete_slice (k : Completion) (j : Nat) : (s.complete k).slice j = s.slice j := rfl
@[simp] theorem Dev.complete_tow (k : Completion) (j : Nat) : (s.complete k).tow j = s.tow j := rfl
@[simp] theorem Dev.complete_node (k : Completion) (j : Nat) : (s.complete k).node j = s.node j := rfl
@[simp] theorem Dev.complete_op (k : Completion) (j : Nat) : (s.complete k).op j = s.op j := rfl
@[simp] theorem Dev.complete_replica (k : Completion) (j : Nat) : (s.complete k).replica j = s.replica j := rfl

end Sys2Proof.Machine
end

