-- ==== Sys2Proof/WellFormed.lean ====
section
/-! DEFINITION. Which commands are well formed: the operand lists have the lengths the spec's records have. Every other operand
is in range by its type. A meaning is total, so an ill-formed command still has an effect; nothing sends one. -/

namespace Sys2Proof

/-- A descriptor holds thirteen parameter words from offset 0x0C on (Table 11-6). -/
def Desc.wf (d : Desc) : Bool := decide (d.params.length ≤ 13)

/-- A block has eight lanes (R1). -/
def BlockInputs.wf (x : BlockInputs) : Bool := decide (x.i.length = 8) && decide (x.v.length = 8)

/-- The mean of samples lies between the least and the greatest of them. -/
def VinSpan.wf (v : VinSpan) : Bool := decide (v.lo ≤ v.mean) && decide (v.mean ≤ v.hi)

/-- A basin entry is twelve words (Table 13-1). -/
def StepIn.wf : StepIn → Bool
  | .entries l _ => l.all (fun e => decide (e.length = 12))
  | _ => true

/-- A debug request carries 1 to 256 words (R431). -/
def ndlWords (l : List Word) : Bool := decide (1 ≤ l.length) && decide (l.length ≤ 256)

/-- The well-formed commands, constructor by constructor. -/
def Instr.wf : Instr → Bool
  | .straitWordReceive _ _ _ => true
  | .idleWordSend _ _ => true
  | .straitLossTimeout _ _ => true
  | .centralResetIndication _ => true
  | .autonomyTimerExpiry _ => true
  | .stopRankStep _ => true
  | .straitRestore _ => true
  | .rejoinRequest _ => true
  | .regionRejoin _ => true
  | .islandClockFail _ => true
  | .sampleMirrorWrite _ => true
  | .islandLoadReply _ _ => true
  | .strongPulldownEnd _ => true
  | .gateHeadroom _ _ => true
  | .cpFail _ _ => true
  | .passiveHoldRelease _ => true
  | .vinUvlo _ _ => true
  | .gateDriveEnable _ => true
  | .senseOpen _ _ => true
  | .probePulseStart _ _ => true
  | .clamped _ _ => true
  | .probePulseEnd _ _ _ => true
  | .debounceExpiry _ => true
  | .precheckWaitExpiry _ => true
  | .grantTimeout _ => true
  | .removal _ => true
  | .soaTick _ _ => true
  | .limitEntry _ => true
  | .limitRelease _ => true
  | .powerGood _ => true
  | .inrushTimeout _ _ => true
  | .limitTimeout _ _ => true
  | .outOv _ _ => true
  | .outUv _ _ => true
  | .shortCircuit _ _ _ => true
  | .ruleEvaluation _ => true
  | .retryRelease _ => true
  | .classWindowExpiry _ _ => true
  | .retryCountClear _ => true
  | .tripHoldExpiry _ => true
  | .tripForceWrite _ _ => true
  | .extTripLine _ _ _ => true
  | .tripMessageRepeat _ => true
  | .tripMessageReceive _ _ => true
  | .mirrorStale _ _ => true
  | .forwardMemoryExpiry _ _ => true
  | .linkTripClear _ _ => true
  | .grantRequest _ => true
  | .grantWithdraw _ => true
  | .grantRound => true
  | .grantReceive _ => true
  | .reservationRelease _ => true
  | .comparatorCrossing _ _ => true
  | .comparatorFilterSample _ => true
  | .evWindowHoldoffExpiry _ => true
  | .modeSettled _ => true
  | .comparatorWake _ => true
  | .edgeDataRead _ => true
  | .comparatorSelftestEnd _ _ => true
  | .decimationBoundary _ x => x.wf
  | .windowEnd _ iOnes vOnes clocks => decide (iOnes ≤ clocks) && decide (vOnes ≤ clocks)
  | .laneRestart _ => true
  | .laneStop _ _ => true
  | .auxConversionEnd _ _ vin => match vin with | none => true | some v => v.wf
  | .auxUrgentWrite _ _ => true
  | .auxMaskWrite _ _ => true
  | .trendLogAppend _ => true
  | .calLoad _ => true
  | .tbTimeRead => true
  | .tbRateWrite _ => true
  | .tbAdj _ => true
  | .tbSourceSelect _ => true
  | .disciplineMeasurement _ _ => true
  | .tbHoldover => true
  | .altSourceSwitch => true
  | .syncOutPps => true
  | .disciplineWord _ _ => true
  | .posFrame _ _ => true
  | .syncFrame _ _ => true
  | .syncFrameSend => true
  | .delayMeasurement _ _ => true
  | .linkFrameCrcError _ => true
  | .linkFaultExit _ => true
  | .lockFrameReceive _ _ => true
  | .lockFetch _ _ => true
  | .lockInsert _ => true
  | .lockFire _ => true
  | .tripAssertEnd _ _ => true
  | .syncPulseEnd => true
  | .releaseAnnounce _ _ _ => true
  | .addR _ _ _ _ => true
  | .subR _ _ _ _ => true
  | .andR _ _ _ _ => true
  | .orR _ _ _ _ => true
  | .xorR _ _ _ _ => true
  | .shl _ _ _ _ => true
  | .shr _ _ _ _ => true
  | .sra _ _ _ _ => true
  | .lt _ _ _ _ => true
  | .ltu _ _ _ _ => true
  | .minS _ _ _ _ => true
  | .maxS _ _ _ _ => true
  | .minu _ _ _ _ => true
  | .maxu _ _ _ _ => true
  | .clz _ _ _ => true
  | .adds _ _ _ _ => true
  | .subs _ _ _ _ => true
  | .addI _ _ _ _ => true
  | .andI _ _ _ _ => true
  | .orI _ _ _ _ => true
  | .xorI _ _ _ _ => true
  | .ltI _ _ _ _ => true
  | .ltuI _ _ _ _ => true
  | .shlI _ _ _ _ => true
  | .shrI _ _ _ _ => true
  | .sraI _ _ _ _ => true
  | .movh _ _ _ => true
  | .adrh _ _ _ => true
  | .mulR _ _ _ _ => true
  | .mulhS _ _ _ _ => true
  | .mulhU _ _ _ _ => true
  | .divS _ _ _ _ => true
  | .divU _ _ _ _ => true
  | .remS _ _ _ _ => true
  | .remU _ _ _ _ => true
  | .ldB _ _ _ _ => true
  | .ldBu _ _ _ _ => true
  | .ldH _ _ _ _ => true
  | .ldHu _ _ _ _ => true
  | .ldW _ _ _ _ => true
  | .ldD _ _ _ _ => true
  | .vldQ _ _ _ _ => true
  | .stB _ _ _ _ => true
  | .stH _ _ _ _ => true
  | .stW _ _ _ _ => true
  | .stD _ _ _ _ => true
  | .vstQ _ _ _ _ => true
  | .loadResult _ _ _ => true
  | .storeDrain _ => true
  | .fetchLineFill _ => true
  | .prefetchComplete _ => true
  | .dataLineFill _ => true
  | .bEq _ _ _ _ => true
  | .bNe _ _ _ _ => true
  | .bLt _ _ _ _ => true
  | .bGe _ _ _ _ => true
  | .bLtu _ _ _ _ => true
  | .bGeu _ _ _ _ => true
  | .jmp _ _ _ => true
  | .jmpr _ _ _ _ => true
  | .drain _ => true
  | .syncI _ => true
  | .waitI _ => true
  | .retX _ => true
  | .trap _ => true
  | .brk _ => true
  | .di _ => true
  | .ei _ => true
  | .illegal _ => true
  | .vadd _ _ _ _ _ => true
  | .vsub _ _ _ _ _ => true
  | .vadds _ _ _ _ _ => true
  | .vsubs _ _ _ _ _ => true
  | .vmin _ _ _ _ _ => true
  | .vmax _ _ _ _ _ => true
  | .vabs _ _ _ _ => true
  | .vand _ _ _ _ => true
  | .vor _ _ _ _ => true
  | .vxor _ _ _ _ => true
  | .vmov _ _ _ => true
  | .vsll _ _ _ _ _ => true
  | .vsrl _ _ _ _ _ => true
  | .vsra _ _ _ _ _ => true
  | .vcmpgt _ _ _ _ _ => true
  | .vcmpeq _ _ _ _ _ => true
  | .vsel _ _ _ _ _ _ => true
  | .vmulH8 _ _ _ _ => true
  | .vmulhH8 _ _ _ _ => true
  | .vmacH8 _ _ _ _ => true
  | .vmacsH8 _ _ _ _ => true
  | .vmulW4 _ _ _ _ => true
  | .vpackH8 _ _ _ _ => true
  | .vwidenH8 _ _ _ => true
  | .vextH _ _ _ _ => true
  | .vextW _ _ _ _ => true
  | .vinsH _ _ _ _ => true
  | .vinsW _ _ _ _ => true
  | .vbcastH _ _ _ => true
  | .vbcastW _ _ _ => true
  | .vredaddH8 _ _ _ => true
  | .interruptEntry _ _ => true
  | .timerCompare _ _ => true
  | .irqSet _ _ => true
  | .irqClr _ _ => true
  | .bgLowWordRead _ _ => true
  | .tqPush _ _ _ => true
  | .poke _ _ => true
  | .dispatch _ => true
  | .looseOverrun _ => true
  | .mooredOverrun _ => true
  | .doorbell _ _ _ => true
  | .contextFetch _ _ => true
  | .ctxFlush => true
  | .hpEnable => true
  | .descriptorFetch _ d => d.wf
  | .hostReadError _ _ => true
  | .commandAdmit _ => true
  | .backpressureWithdraw _ _ => true
  | .completionWrite _ => true
  | .eventWrite => true
  | .telemetryWrite => true
  | .moderationCheck _ _ => true
  | .msixUnmask _ => true
  | .heartbeatKick => true
  | .hostLoss => true
  | .linkDown => true
  | .functionLevelReset => true
  | .perstN => true
  | .ringCreate d _ => d.wf
  | .ringModify d => d.wf
  | .ringDestroy d => d.wf
  | .ringQuery d _ => d.wf
  | .devInfo d => d.wf
  | .chEnable d => d.wf
  | .chDisable d => d.wf
  | .chOn d => d.wf
  | .chOff d => d.wf
  | .chReset d => d.wf
  | .chStatus d _ => d.wf
  | .profileWrite d image => d.wf && (match image with | none => true | some l => decide (l.length = 64))
  | .profilePatch d => d.wf
  | .profileRead d _ => d.wf
  | .trendRead d _ => d.wf
  | .bankSequence d _ => d.wf
  | .survey d => d.wf
  | .calRun d => d.wf
  | .calStore d => d.wf
  | .lockCancel d => d.wf
  | .taskInstall d => d.wf
  | .taskRemove d => d.wf
  | .flashUpdate d => d.wf
  | .opSuspend d => d.wf
  | .opResume d => d.wf
  | .opCancel d => d.wf
  | .opQuery d => d.wf
  | .opStep _ x => x.wf
  | .basinEnable => true
  | .segTableLoad table => match table with | none => true | some l => decide (l.length ≤ 4096)
  | .basinDisable => true
  | .basinFrame => true
  | .basinEntryWrite => true
  | .gapRecord => true
  | .basinWriteback => true
  | .basinFrozen => true
  | .basinFreeze d => d.wf
  | .basinRelease d => d.wf
  | .basinMark d => d.wf
  | .captureExport d => d.wf
  | .periodEdge _ _ => true
  | .hsRise _ => true
  | .onIntervalEnd _ => true
  | .lsRise _ => true
  | .peakCrossing _ _ => true
  | .valleyCrossing _ _ _ => true
  | .perMaxEdge _ _ => true
  | .sliceFaultInput _ => true
  | .fbSample _ _ => true
  | .sliceSampleRelease _ _ => true
  | .controlWord _ _ => true
  | .softStart _ => true
  | .softStop _ => true
  | .kill _ => true
  | .controlWordWatchdog _ => true
  | .sliceLoopSet d => d.wf
  | .sliceStart d => d.wf
  | .sliceStop d => d.wf
  | .sliceStatus d => d.wf
  | .chargeEnable => true
  | .chargerPhaseChange _ => true
  | .chargeTermination => true
  | .topoffEnd => true
  | .rechargeStart _ => true
  | .safetyTimerStep _ _ _ => true
  | .operatingPointPause => true
  | .pauseEnd _ => true
  | .surplusStart => true
  | .surplusEnd => true
  | .ntcZoneChange _ => true
  | .packOv _ => true
  | .chgOc _ => true
  | .handover _ _ => true
  | .handoverComplete => true
  | .inPathFail _ => true
  | .dioFail _ => true
  | .sourcePresent => true
  | .bounce => true
  | .handback => true
  | .idealDiodeOff => true
  | .handbackComplete => true
  | .stopSequence => true
  | .packCutoff => true
  | .depletedDisconnect => true
  | .shipEntry => true
  | .shipWake => true
  | .sourceWake => true
  | .rvWdKick => true
  | .reserveWdExpiry => true
  | .rvSafeWrite _ => true
  | .rvFaultRead => true
  | .rsvStatus d _ => d.wf
  | .rsvCharge d => d.wf
  | .rsvKick d => d.wf
  | .rsvShip d => d.wf
  | .rsvStopLoad d table => d.wf && (match table with | none => true | some l => decide (l.length ≤ 32))
  | .towpathEnable _ _ => true
  | .recoveryEnd _ _ => true
  | .slotStart _ _ => true
  | .towpathAbort _ => true
  | .clrStuck _ _ => true
  | .tgtPop _ => true
  | .transactionStart _ => true
  | .transactionEnd _ x => match x with | .done rx _ => decide (rx.length ≤ 256) | .nack _ => true | .aborted rx => decide (rx.length ≤ 256)
  | .arbLost _ _ _ => true
  | .sclLowTimeout _ rx _ => decide (rx.length ≤ 256)
  | .sdaLowTimeout _ => true
  | .hostNotify _ _ _ _ => true
  | .targetWrite _ _ data _ => decide (data.length ≤ 255)
  | .notifyRead _ => true
  | .towpathWake _ => true
  | .wakeFail _ => true
  | .towpathPrepare d _ => d.wf
  | .towpathXfer d _ => d.wf
  | .towpathSlotRead d _ => d.wf
  | .towpathNotifyRead d _ => d.wf
  | .towpathTargetRead d _ => d.wf
  | .towpathRecover d _ => d.wf
  | .towpathScan d => d.wf
  | .mgmtReply d _ => d.wf
  | .mgmtMboxRead d _ => d.wf
  | .statusImageRefresh => true
  | .mgId => true
  | .mgSummary => true
  | .mgTemp => true
  | .mgReserve => true
  | .mgCellSel _ _ => true
  | .mgCell => true
  | .mgMboxWrite data _ => decide (data.length ≤ 255)
  | .mgMboxRead => true
  | .supervisorRead _ _ => true
  | .regionSafe _ _ _ => true
  | .chipSafe _ _ => true
  | .supervisorClear _ _ => true
  | .supervisorLoss => true
  | .faultEvent _ _ _ _ => true
  | .faultClear _ _ => true
  | .ruleWindowExpiry _ _ => true
  | .regionReport => true
  | .chipSafeRequest _ => true
  | .faultInject _ _ => true
  | .latchedClear _ _ => true
  | .historyRead _ => true
  | .firstErrorClear _ => true
  | .errClr => true
  | .errNPulseEnd => true
  | .errNToggle => true
  | .aliveMonitor => true
  | .fcStatus d _ => d.wf
  | .fcHistoryRead d _ => d.wf
  | .fcClear d => d.wf
  | .fcInject d => d.wf
  | .fcCountRead d _ => d.wf
  | .fcErrClear d => d.wf
  | .supplyGood _ => true
  | .supplyLoss _ => true
  | .powerOnResetRelease _ => true
  | .rstN => true
  | .chipRstCtrl _ => true
  | .islandBringup _ _ => true
  | .straitTraining _ => true
  | .straitTrainingTimeout _ => true
  | .boot _ => true
  | .chipBargeRst _ => true
  | .regionEnWrite _ _ => true
  | .islandReset _ => true
  | .powerModeWrite _ => true
  | .regionSleep _ => true
  | .wake _ => true
  | .tbclkLoss => true
  | .idRead => true
  | .dbgStatus => true
  | .chalRead => true
  | .dbgAuth _ => true
  | .memRead _ _ _ => true
  | .memWrite _ _ words => ndlWords words
  | .memPeek _ _ _ => true
  | .dbgHalt _ => true
  | .dbgResume _ => true
  | .dbgStep _ => true
  | .bargeReset _ => true
  | .chipReset _ => true
  | .flashErase _ _ => true
  | .flashProg _ _ words => ndlWords words
  | .ndlLinkReset => true
  | .bargeHalted _ => true
  | .breakpoint _ => true
  | .xtrigHalt _ => true
  | .dbgHaltReq _ => true
  | .dbgResumeReq _ => true
  | .hostGrant _ => true
  | .dbgDeny => true
  | .dbgKey _ _ _ _ => true
  | .bypass => true
  | .idcode => true
  | .samplePreload _ => true
  | .extest _ => true
  | .clamp => true
  | .highz => true
  | .trstN => true
  | .lvOn _ => true
  | .lvOff _ => true
  | .lvReset _ => true
  | .lvEnable _ => true
  | .lvDisable _ => true
  | .setIlim _ => true
  | .setFaultTime _ => true
  | .readEnergy _ => true
  | .clearFlags _ => true
  | .mailboxCompletion _ => true
  | .nodeImageRefresh _ => true
  | .nodeImageStale _ => true
  | .regionWindowWriteApply _ _ _ => true
  | .registerWrite _ _ _ => true
  | .pumpReservoirReady _ => true
  | .tbclkInReturn => true
  | .linkTrainingEnd _ => true
  | .cabinetLinkLoss _ => true
  | .perstNRelease => true
  | .busMasterEnable _ => true
  | .rstNRelease => true
  | .packHot _ => true
  | .battRemoval => true
  | .evHandoverBounceHoldoffExpiry => true
  | .supervisorFrameDiscard _ => true
  | .mgmtCommandNack _ => true

end Sys2Proof
end

