-- ==== Sys2Proof/Tests/Slice0.lean ====
section
/-! SUPPORT. The model's own tests: ill-formed terms that WellFormed refuses, states that meet the premises of the statements,
and single steps whose results come from the spec's examples and tables. -/

namespace Sys2Proof.Tests

open Sys2Proof Sys2Proof.Machine

/-! ### Small states -/

/-- Every supply good, the core running with its runtime. -/
def pwrOn : Power :=
  { vsys := true, vdda := true, vddi := true, vddc := true, vddio := true, vddpx := true, tbclk := true, aoUp := true,
    centralUp := true, hostUp := true, core := true, trimOk := true, rtUp := true }

/-- A region whose island runs and has rejoined. -/
def upRegion : Region :=
  { linkUp := true, rejoined := true, released := true, islandRun := true, islandUp := true, replica := .locked }

/-- A region whose strait is lost, in an episode of autonomy. -/
def lostRegion : Region :=
  { released := true, islandRun := true, islandUp := true, islandLost := true, autonomous := true
    episode := some { entry := 5, policy := 2, retryAuto := false, rejoinAuto := true, tAutoMs := 1000, ranks := [1, 3] } }

/-- A region ready to rejoin on its own, in an episode that retries by itself. -/
def autoRegion : Region :=
  { upRegion with rejoined := false, restored := true,
                  episode := some { entry := 5, policy := 0, retryAuto := true, rejoinAuto := true, tAutoMs := 10 } }

/-- The device up, with region 0 and the gate drive of block 0. -/
def up : Dev := { pwr := pwrOn, regions := [(0, upRegion)], blocks := [(0, { gateDrive := true, vinMv := 12000 })] }

/-- The device up, with one cell, number 0. -/
def upCell (x : Cell) : Dev := { up with cells := [(0, x)] }

/-- The profile word at a byte offset of cell 0. -/
def prof0 (s : Dev) (byte : Nat) (v : Word) : Dev := s.setPword 0 (byte / 4) v

/-- A barge that runs, in IRAM. -/
def runBarge : Barge := { run := true, pc := 0x100 }

/-- The device up, with one barge, number 0. -/
def upBarge (k : Barge) : Dev := { up with barges := [(0, k)] }

/-- A value of the device after one command. -/
def get1 {α : Type} (c : Instr) (d : Dev) (f : Dev → α) : Option α := (after [c] d).map f

/-- A descriptor on a ring. -/
def desc (ring : RingIx) (tkind : BitVec 3) (tindex : BitVec 16) (params : List Word) : Desc :=
  { ring := ring, fence := false, cmdId := 9, tkind := tkind, tindex := tindex, rsv := false, params := params }

/-- The device up with its host link, rings enabled, and these ring contexts. -/
def upHost (rings : List (Nat × RingCtx)) : Dev :=
  { up.setReg RegMap.hpCtrl 1 with hp := { linkUp := true, bme := true, msixEn := true, rings := rings } }


/-! ### Premises of the statements on straits, cells and trips: each is met -/

/-- The three clauses of StraitWords. -/
theorem test_straitWords_premises :
    (up.region 0).islandRun = true ∧ up.pwr.core = true ∧ WordQuality.corrected ≠ .uncorrectable ∧
    (up.region 0).badIsland < 3 ∧ (up.region 0).badCentral < 3 ∧ (up.region 0).asleep = false ∧
    (up.region 0).clkFail = false := by decide

/-- StraitLoss: the timeout, the reset indication with the core down, the fourth bad word. -/
theorem test_straitLoss_premises :
    (up.region 0).islandLost = false ∧ (up.region 0).clkFail = false ∧ (up.region 0).linkUp = true ∧
    ({ up with pwr := { pwrOn with core := false } } : Dev).pwr.core = false ∧
    3 ≤ (({ up with regions := [(0, { upRegion with badIsland := 3, badCentral := 3 })] } : Dev).region 0).badIsland := by decide

/-- AutonomyPolicy: a loss whose policy has not begun; a STOP with two ranks left and a cell of rank 1. -/
theorem test_autonomyPolicy_premises :
    (∃ ep, (({ up with regions := [(0, lostRegion)] } : Dev).region 0).episode = some ep ∧ ep.begun = false ∧
      ep.ranks = [1, 3]) ∧ lostRegion.islandLost = true ∧ lostRegion.clkFail = false ∧
    (let s := prof0 (upCell { state := .on }) 0 (0x00100000 : Word)
     (s.cell 0).state.policyActs = true ∧ s.pf 0 0 20 4 = 1) :=
  ⟨⟨_, rfl, by decide⟩, by decide⟩

/-- StraitRejoin: a strait that comes back; a region ready to rejoin by REJOIN_AUTO. -/
theorem test_straitRejoin_premises :
    lostRegion.islandLost = true ∧ lostRegion.asleep = false ∧
    (let r : Region := autoRegion
     let s : Dev := { up with regions := [(0, r)] }
     s.readyRejoin 0 = true ∧ (∃ ep, r.episode = some ep ∧ ep.ranks = [] ∧ ep.rejoinAuto = true)) ∧
    up.readyRejoin 0 = false :=
  ⟨rfl, rfl, ⟨by decide, _, rfl, rfl, rfl⟩, by decide⟩

/-- GateDriveEvents: INRUSH with the drive available. -/
theorem test_gateDrive_premises :
    (let s : Dev := { upCell { state := .inrush } with blocks := [(0, { gateDrive := true })] }
     (s.cell 0).state = .inrush ∧ s.driveAvail 0 = true) ∧ (up.cell 0).state ≠ .inrush := by decide

/-- CheckTrips: every row with its check armed, and not armed with no cause beside it. -/
theorem test_checkTrips_premises :
    let on := prof0 (upCell { state := .on }) 0x24 0
    let inr := upCell { state := .inrush }
    let lim := upCell { state := .limit }
    on.checkArmed 0 12 = true ∧ on.checkArmed 0 13 = true ∧ inr.checkArmed 0 6 = true ∧ lim.checkArmed 0 7 = true ∧
    up.armedCauses 0 (1 <<< 12) = [] ∧ up.auto 0 = false ∧ (up.cell 0).state ≠ .inrush ∧ (up.cell 0).state ≠ .limit := by decide

/-- FastTrips: the comparator on in an armed state and in TRIPPED, and off. -/
theorem test_fastTrips_premises :
    let on := upCell { state := .on }
    let tr := upCell { state := .tripped }
    let off := upCell { isc := { level := .below, mode := .off } }
    on.auto 0 = false ∧ (on.cell 0).isc.mode ≠ .off ∧ (on.cell 0).state.armed = true ∧ (tr.cell 0).isc.mode ≠ .off ∧
    (tr.cell 0).state = .tripped ∧ (off.cell 0).isc.mode = .off := by decide

/-- ProbePulse: a pulse wanted, at 3000 mV and above; a pulse that runs; PROBE. -/
theorem test_probePulse_premises :
    let s := prof0 (upCell { state := .probe, gate := .controlled }) 0 0x100
    s.pulseWanted 0 = true ∧ (3000 : BitVec 16).toNat ≤ 3000 ∧ 3000 < (3001 : BitVec 16).toNat ∧ up.pulseWanted 0 = false ∧
    ((upCell { pulse := some { v0 := 0, code := 1, tUs := 100 } }).cell 0).pulse = some { v0 := 0, code := 1, tUs := 100 } ∧
    (s.cell 0).state = .probe := by decide

/-- ChannelWaits and LimitEntry. -/
theorem test_channelWaits_premises :
    let pc := prof0 (upCell { state := .precheck }) 0x5C 4
    let wg := prof0 (prof0 (upCell { state := .waitGrant }) 0x48 5) 0x5C 8
    let on := prof0 (prof0 (upCell { state := .on }) 0x44 5) 0 1
    let lim : Dev := { upCell { state := .on, iSoa := some 10 } with blocks := [(0, { gateDrive := true })] }
    (pc.cell 0).state = .precheck ∧ (pc.cell 0).pcVin = false ∧ pc.pb 0 0x5C 2 = true ∧ (pc.profMine 0).length = 0 ∧
    (wg.cell 0).state = .waitGrant ∧ wg.pf 0 0x48 0 16 ≠ 0 ∧ (wg.cell 0).grantLate = false ∧ wg.pb 0 0x5C 3 = true ∧
    wg.auto 0 = false ∧ (on.cell 0).state = .on ∧ on.pf 0 0x44 0 16 ≠ 0 ∧ on.pf 0 0 0 2 ≠ 0 ∧
    up.levelMask 0 = 0 ∧ (lim.cell 0).iSoa.isSome = true ∧ lim.driveAvail 0 = true ∧ lim.levelMask 0 = 0 := by decide


/-! ### Retries, trip lines, the sluice and the comparators -/

/-- Rule set word A of set 0, with the words B and C it goes with. -/
def withRules (s : Dev) (a b c : Word) : Dev :=
  ((s.setReg (RegMap.ruleA 0 0) a).setReg (RegMap.ruleB 0 0) b).setReg (RegMap.ruleC 0 0) c

/-- RuleEvaluation: LATCH_N reached exactly; a retry left; none left, with and without EXHAUST_LATCH. -/
theorem test_ruleEvaluation_premises :
    let x : Cell := { state := .tripped, classes := [(0, { opened := true, count := 2 })], retryCount := 3 }
    let latch := withRules (upCell x) 0 0 2
    let retry := withRules (upCell x) 4 0 3
    let held := withRules (upCell { x with heldOn := true }) 4 0 3
    let stay := withRules (upCell x) 3 0 0
    (x.state = .tripped ∧ x.evaluated = false) ∧ latch.ruleSet 0 0 = 0 ∧
    latch.rf (RegMap.ruleC 0 0) 0 8 = 2 ∧ retry.rf (RegMap.ruleA 0 0) 0 8 = 4 ∧ retry.rf (RegMap.ruleC 0 0) 0 8 = 3 ∧
    (held.cell 0).heldOn = true ∧ stay.rf (RegMap.ruleA 0 0) 0 8 = 3 ∧ stay.rb (RegMap.ruleA 0 0) 9 = false ∧
    (withRules (upCell x) 0x203 0 0).rb (RegMap.ruleA 0 0) 9 = true ∧ stay.auto 0 = false ∧ retry.noAutoRetry 0 = false ∧
    (({ latch with colls := [(0, { live := 8 })] } : Dev).coll 0).live.getLsbD 3 = true := by decide

/-- RetryRelease: the conditions hold, outside and in autonomy; they do not. -/
theorem test_retryRelease_premises :
    let s := upCell { state := .cooldown }
    let a : Dev := { s with regions := [(0, autoRegion)], cells := [(0, { state := .cooldown }), (1, { state := .inrush })] }
    let w := upCell { state := .cooldown, tjEst := 5760 }
    s.retryOk 0 = true ∧ s.auto 0 = false ∧ (s.profMine 0).length = 0 ∧ a.auto 0 = true ∧ a.retryOk 0 = true ∧
    (a.cell 1).state = .inrush ∧ w.retryOk 0 = false := by decide

/-- TripLines and TripBroadcast. -/
theorem test_tripLines_premises :
    let p : TripSource := { lines := 1, slices := 0, holdUs := 5, early := false, bcast := true, start := 0 }
    let s := upCell { state := .tripped, src := some p }
    Sparse.wf (fun _ => ({} : Cell)) s.cells = true ∧ (s.cell 0).src = some p ∧ (s.cell 0).state.holds = true ∧
    s.bcastBit 0 = true ∧ s.straitUp 0 = true ∧ up.bcastBit 0 = false ∧
    (({ pos := 1, region := 0, bit := true, seq := 9, cell := 3, cause := 1, time := 0 } : TripMsg).pos.val ≠ up.ringPos) ∧
    (({ pos := 0, region := 0, bit := true, seq := 9, cell := 3, cause := 1, time := 0 } : TripMsg).pos.val = up.ringPos) := by
  decide

/-- SluiceMessages, GrantReceive and GrantRound: a message and a grant under way; a request that stands first. -/
theorem test_sluice_premises :
    let r : GrantReq := { cell := 0, group := 3, prio := 1, ma := 100, time := 4 }
    let s : Dev := { up with slMsgs := [.withdraw 1, .request r], grants := [{ cell := 0, ma := 100, group := 3, seq := 7 }] }
    (s.slMsgs = [.withdraw 1] ++ .request r :: [] ∧ ∀ m ∈ [SlMsg.withdraw 1], SlMsg.isRequest 0 m = false) ∧
    (∀ m ∈ [SlMsg.withdraw 1], SlMsg.isRelease 0 m = false) ∧ (∀ m ∈ up.slMsgs, SlMsg.isWithdraw 0 m = false) ∧
    s.grants = [] ++ ({ cell := 0, ma := 100, group := 3, seq := 7 } : Grant) :: [] ∧
    ((upCell { state := .waitGrant, lastGrant := some 6 }).cell 0).lastGrant ≠ some 7 ∧
    ((upCell { lastGrant := some 7 }).cell 0).lastGrant = some 7 ∧
    (let t : Dev := { up with sluice := { pend := [r] } }
     (t.sluice.pend.map GrantReq.cell).Nodup ∧ t.sluice.reserved 3 = 0 ∧ t.sluice.active 3 = 0 ∧
     (∀ q ∈ t.sluice.pend, q.group = 3 → q.frozen = false → q = r ∨ r.before q = true)) := by decide

/-- Comparators, their filters, edges, windows and self-tests. -/
theorem test_comparators_premises :
    let off := upCell { ilo := { level := .above, mode := .off, pendingMode := some .fast } }
    let ins := upCell { ilo := { level := .inside, mode := .off, pendingMode := some .fast } }
    let on := upCell { ilo := { level := .inside, mode := .medium, pendingMode := some .fast }, selftestRun := true,
                       win := { changes := 2 } }
    let x : CmpSel := .ilo 0
    (up.cmp x).mode ≠ .off ∧ (up.cmp x).pendingMode = none ∧ (off.cmp x).mode = .off ∧ (off.cmp x).level = .above ∧
    (ins.cmp x).level = .inside ∧ (ins.cmp x).pendingMode = some .fast ∧ (on.cmp x).mode ≠ .off ∧
    (up.cell 0).selftestRun = false ∧ (on.cell 0).selftestRun = true ∧ (up.block 0).vtestRun = false ∧
    (({ up with blocks := [(0, { vtestRun := true })] } : Dev).block 0).vtestRun = true ∧ (up.block 0).edges = [] ∧
    (up.winEv (.cell 0)).changes = 0 ∧ (on.winEv (.cell 0)).changes ≠ 0 ∧ on.auto (CmpGroup.block (.cell 0) / 8) = false := by
  decide


/-! ### Conversion, metering, calibration, the timebase and the locks -/

/-- DecimationBoundary, WindowEnd, LaneGating, SoaTick. -/
theorem test_conversion_premises :
    let run : Dev := { up with lanes := [(0, { settle := 0, eTime := some 4 })] }
    let stop : Dev := { up with lanes := [(0, { stopped := true, win := { running := false } })] }
    let gate : Dev := (upCell { state := .off }).setReg (RegMap.convCfg 0) 8
    up.regsPend = [] ∧ up.straitUp 0 = true ∧ (run.lane 0).settle = 0 ∧ (run.lane 0).stopped = false ∧
    (run.lane 0).eTime = some 4 ∧ (stop.lane 0).stopped = true ∧ (stop.lane 0).win.running = false ∧
    (run.lane 0).win.running = true ∧ 0 < (1 : BitVec 25).toNat ∧ (up.conv 0).vinWin.running = true ∧
    (up.setReg (RegMap.convCfg 0) 0).rf (RegMap.convCfg 0) 2 2 = 0 ∧ gate.rf (RegMap.convCfg 0) 2 2 = 2 ∧
    (gate.cell 0).state = .off ∧ (gate.lane 0).stopped = false := by decide

/-- Auxiliary: an input beyond the last, the three states of the converter; a conversion under way. -/
theorem test_auxiliary_premises :
    let cfg := up.setReg (RegMap.auxCfg 0) 4
    let u : Dev := { cfg with auxs := [(0, { inUrgent := true, current := some 3 })] }
    let q : Dev := { cfg with auxs := [(0, { inUrgent := true, current := some 3, queued := some 23 })] }
    24 ≤ Bits.fld (24 : Word) 0 5 ∧ Bits.fld (23 : Word) 0 5 < 24 ∧ cfg.rb (RegMap.auxCfg 0) 2 = true ∧
    (cfg.aux 0).inUrgent = false ∧ (u.aux 0).inUrgent = true ∧ (u.aux 0).queued = none ∧ (q.aux 0).queued ≠ none ∧
    (u.aux 0).current = some 3 ∧ (up.aux 0).current = none := by decide

/-- TrendAndCalibration: a span resistance known or not; a calibration load without and with a slot. -/
theorem test_trendCalibration_premises :
    let t : Dev := { up with lanes := [(0, { rPath := some 1200 })] }
    let c : Dev := { up with calSlots := [(0, { seq := 3, words := [(0x800000, 7)] })] }
    (up.lane 0).rPath = none ∧ (t.lane 0).rPath = some 1200 ∧ t.auto 0 = false ∧ (up.region 0).islandUp = true ∧
    (up.region 0).islandCal = false ∧ up.calNewest 0 = none ∧ (∃ p, c.calNewest 0 = some p ∧ (p.2.words.map Prod.fst).Nodup) :=
  ⟨rfl, rfl, rfl, rfl, rfl, by decide, _, rfl, by decide⟩

/-- TimebaseCount, TimebaseDiscipline and DisciplineWord. -/
theorem test_timebase_premises :
    let run : Dev := { up with tb := { running := true, frac := 2 ^ 32 - 1, rate := 2147484 } }
    let src : Dev := up.setReg RegMap.tbDiscCfg 0x41
    let alt : Dev := { up.setReg RegMap.tbDiscCfg 0x19 with tb := { state := .holdover, active := 1 } }
    let acq : Dev := { up.setReg RegMap.tbDiscCfg 0x01 with tb := { state := .acquire, active := 1, good := 7 } }
    let lock : Dev := { up.setReg RegMap.tbDiscCfg 0x01 with tb := { state := .locked, active := 1, bad := 3 } }
    let back : Dev := { up.setReg RegMap.tbDiscCfg 0x01 with tb := { state := .acquire, active := 3, srcGood := 7 } }
    run.tb.running = true ∧ run.tb.frac < 2 ^ 32 ∧ run.tb.rate.natAbs ≤ 2147484 ∧ run.tbTime + 8 < 2 ^ 64 ∧ up.tbSrc = 0 ∧
    src.tbSrc ≠ 0 ∧ src.rb RegMap.tbDiscCfg 6 = true ∧ up.rb RegMap.tbDiscCfg 6 = false ∧ (999999 : Word).toInt < 1000000 ∧
    1000000 ≤ (1000000 : Word).toInt ∧ alt.tb.state = .holdover ∧ alt.tbAlt ≠ 0 ∧ acq.tb.state = .acquire ∧
    acq.tb.active = (1 : BitVec 3).toNat ∧ (0 : DWord).toInt.natAbs < acq.lockNs ∧ lock.tb.bad = 3 ∧
    4 * lock.lockNs < (0x7FFFFFFF : DWord).toInt.natAbs ∧ back.tbSrc = (1 : BitVec 3).toNat ∧ back.tb.srcGood = 7 ∧
    (1 : BitVec 3).toNat ≠ back.tb.active ∧ (2 : BitVec 3).toNat ≠ back.tb.active ∧ (2 : BitVec 3).toNat ≠ back.tbSrc ∧
    up.rf RegMap.tbDiscCfg 0 6 ≠ Bits.fld (5 : Word) 0 6 := by decide

/-- DisciplineWord: the first word of ACQUIRE, the 63rd and the 64th mark, a step that is due. -/
theorem test_disciplineWord_premises :
    let acq : Dev := { up with regions := [(0, { upRegion with replica := .acquire })] }
    let m : Dev := { up with replicas := [(0, { marks := 63, sum := 0, fresh := false })] }
    let h : Dev := { up with regions := [(0, { upRegion with replica := .holdover })], replicas := [(0, { marks := 63, sum := 1280128 })] }
    let st : Dev := { up with replicas := [(0, { marks := 62, stepPend := 2000 })] }
    acq.straitUp 0 = true ∧ (acq.region 0).islandRun = true ∧ (acq.replica 0).stepPend = 0 ∧ (acq.replica 0).fresh = true ∧
    (m.region 0).replica ≠ .acquire ∧ (m.replica 0).marks = 63 ∧ (((m.replica 0).sum + (0 : Word).toInt).tdiv 64).natAbs < 10 ∧
    (h.region 0).replica = .holdover ∧ 20000 < (((h.replica 0).sum + (0 : Word).toInt).tdiv 64).natAbs ∧
    (st.replica 0).stepPend = 2000 ∧ (st.replica 0).marks < 63 ∧ up.tbTime < 2 ^ 64 ∧ State.reset.dev.straitUp 0 = false := by
  decide

/-- CabinetLinks. -/
theorem test_cabinetLinks_premises :
    let m := up.setReg RegMap.tbLinkCfg 4
    let s : Dev := { up with linkA := { state := .up, syncN := 99 }, linkB := { state := .up }
                             tb := { state := .locked, active := 2 } }
    let f : Dev := { up with linkA := { state := .up, errors := List.replicate 15 0 } }
    m.rb RegMap.tbLinkCfg 2 = true ∧ (up.setReg RegMap.tbLinkCfg 0).rb RegMap.tbLinkCfg 2 = false ∧ m.ring.conflict = false ∧
    (up.cabLink .a).syncN < 99 ∧ (s.cabLink .a).syncN = 99 ∧ s.tb.state = .locked ∧ s.tb.active = Tb.linkSrc .a ∧
    s.linkB.state = .up ∧ up.tb.state = .free ∧ (f.cabLink .a).state = .up ∧
    15 ≤ ((f.cabLink .a).errors.filter (fun t => decide (f.elapsed < t + 1000000))).length ∧
    (f.coll 8).live.getLsbD 39 = false ∧ ((({ up with linkA := { state := .fault } } : Dev).cabLink .a).state = .fault) := by
  decide

/-- A CH_OFF lock of cell 0, and a chip lock. -/
def lockOff : LockEntry :=
  { time := 8, action := 2, kind := 1, region := 0, lateDrop := false, notify := false, devMask := 0, further := 0
    tag := 0, period := 0, param := 0, target := 1 }

/-- LockEntries, LockInsert and LockFire. -/
theorem test_locks_premises :
    let r : RingCtx := { active := true, kind := 4, log2 := 3, host := 1 }
    let s : Dev := { (up.setReg RegMap.lkCfg 0x00010001).setReg (RegMap.lkRingId 0) 0x80000005 with
      hp := { linkUp := true, bme := true, rings := [(5, r)] } }
    let w : Dev := { up with lk := { waits := [{ table := 0, e := lockOff, ring := none }] } }
    let late : Dev := { w with tbTime := 8, lk := { waits := [{ table := 0, e := { lockOff with lateDrop := true }, ring := none }] } }
    let fire : Dev := { upCell { state := .on } with tbTime := 8, lk := { tables := [(0, { copies := [{ e := lockOff }] })] } }
    s.rb RegMap.lkCfg 0 = true ∧ s.rb (RegMap.lkRingId 0) 31 = true ∧ s.lk.waits = [] ∧ s.lockReason lockOff = 0 ∧
    s.lockReason { lockOff with action := 0 } ≠ 0 ∧ lockOff.devMask = 0 ∧ up.lockMine lockOff = true ∧
    up.lockMine { lockOff with devMask := 2 } = false ∧
    (w.lk.waits = [] ++ ({ table := 0, e := lockOff, ring := none } : LockWait) :: []) ∧ w.straitUp 0 = true ∧
    (w.lockTable 0).copies.length < Lock.capacity 0 ∧ w.lockClock 0 < Lock.time lockOff ∧ Lock.time lockOff ≤ late.lockClock 0 ∧
    (fire.lockTable 0).copies = [{ e := lockOff }] ∧ Lock.time lockOff ≤ fire.lockClock 0 ∧ (fire.cell 0).state = .on ∧
    lockOff.target = 1#64 <<< 0 ∧ (fire.region 0).islandRun = true ∧ (fire.region 0).clkFail = false ∧
    fire.lockClock 0 < 2 ^ 63 ∧ up.ring.posValid = false := by decide

/-- LockInsert: a full chip table. -/
theorem test_lockTable_full :
    Lock.capacity 8 ≤ (({ copies := List.replicate 256 { e := lockOff } } : LockTable).copies).length :=
  Nat.le_of_eq (List.length_replicate (n := 256)).symm

/-- LockFetch of a ready ring. -/
theorem test_lockRing_ready :
    let r : RingCtx := { active := true, kind := 4, log2 := 3, host := 1 }
    let s : Dev := { up.setReg RegMap.hpCtrl 1 with hp := { linkUp := true, bme := true, rings := [(5, r)] } }
    s.lockRingReady 5 = true := by decide


/-! ### Barges and tasks -/

/-- An instruction may issue. -/
theorem test_bargeReady : BargeReady (upBarge runBarge) 0 [0, 1, 31] [0, 15] := by unfold BargeReady; decide

/-- ScalarAlu, VectorPairs: a barge that may not issue; an odd register and a lane beyond the type. -/
theorem test_barge_premises :
    (up.barge 0).mayIssue = false ∧ (runBarge.xcpt = false) ∧ (3 : Fin 16).val % 2 = 1 ∧ VLane.count .h8 ≤ (8 : Fin 16).val ∧
    (7 : Fin 16).val < VLane.count .h8 ∧ VLane.count .w4 ≤ (4 : Fin 16).val := by decide

/-- Loads: no store in the way; a store that matches exactly, and one that overlaps; a full queue; a refused address. -/
theorem test_loads_premises :
    let x : StoreEnt := { addr := 0x10000, size := 4, data := 7 }
    let l : LoadEnt := { dest := .s 1, addr := 0x10000, size := 4, data := some 9 }
    let full := upBarge { runBarge with lq := List.replicate 4 l }
    Mem.check 0x10000 4 false = none ∧ (∃ c, Mem.check 0x10001 4 false = some c) ∧ (runBarge.watchAt 0x10000 false = none) ∧
    x.overlaps 0x10000 4 = true ∧ x.overlaps 0x10002 1 = true ∧ x.overlaps 0x10004 4 = false ∧
    Mem.classOf 0x10000 = some .dram ∧ Mem.ordered 0x10000 = false ∧ Mem.ordered 0x40000000 = true ∧
    4 ≤ (full.barge 0).lq.length ∧ (full.barge 0).lq[0]? = some l := by
  refine ⟨by decide, ⟨_, rfl⟩, ?_⟩
  decide

/-- LoadResults: a miss, an island load without its strait. -/
theorem test_loadResults_premises :
    let m : LoadEnt := { dest := .s 1, addr := 0x20000000, size := 4, miss := true }
    let w : LoadEnt := { dest := .s 1, addr := 0x40000000, size := 4 }
    m.miss = true ∧ Mem.classOf w.addr = some .island ∧ State.reset.dev.straitUp 0 = false ∧ up.straitUp 0 = true ∧
    runBarge.dbg.haltReq = none := by decide

/-- Stores: accepted, the ninth of IRAM, a full buffer; the memory classes of the head. -/
theorem test_stores_premises :
    Mem.check 0x10000 4 true = none ∧ Mem.check 0 4 true = none ∧ (∃ c, Mem.check 0x20000000 4 true = some c) ∧
    Mem.classOf 0x10000 = some .dram ∧ Mem.classOf 0xFFFC = some .iram ∧ Mem.classOf 0x10000000 = some .sram ∧
    Mem.classOf 0x01000000 = some .rram ∧ 8 ≤ ({ runBarge with patchCount := 8 } : Barge).patchCount ∧
    4 ≤ ({ runBarge with sb := List.replicate 4 { addr := 0, size := 1, data := 0 } } : Barge).sb.length := by
  refine ⟨by decide, by decide, ⟨_, rfl⟩, ?_⟩
  decide

/-- ControlFlow, SystemInstructions, Interrupts: an address that cannot be fetched; no source ready; a source eligible. -/
theorem test_control_premises :
    let irq : Barge := { runBarge with gie := true, pend := 1, en := 1, prio := [(0, 1)] }
    Barge.fetchable 0x100 = true ∧ (∃ a, Barge.fetchable a = false) ∧ runBarge.ready = [] ∧ irq.eligible = some 0 ∧
    runBarge.eligible = none ∧ irq.status < 512 ∧ Bits.nbit runBarge.tmrHit 1 = false ∧
    up.bgCycle 0 < runBarge.tmrCmp 1 ∧ ({ runBarge with tmr := [(1, 0)] } : Barge).tmrCmp 1 ≤ up.bgCycle 0 ∧
    up.debugOpen = false := by
  refine ⟨by decide, ⟨0x30000000, by decide⟩, ?_⟩
  decide

/-- Tasks: an idle barge with a token that fits; a running task; a moored handler; a full queue. -/
theorem test_tasks_premises :
    let idle : Barge := { runBarge with waiting := true, gie := true }
    let d := upBarge { idle with tq := { cfg := 9, queue := [0x100] } }
    let busy := upBarge { runBarge with tq := { running := some 0x100 } }
    let moor : Barge := { runBarge with depth := 1, level := 1, srcAt := [(1, 3)], tq := { moorCfg := [(3, 0x10)] } }
    (d.barge 0).idle = true ∧ (d.barge 0).eligible = none ∧ (d.barge 0).tq.running = none ∧ d.fits 0 0x100 = true ∧
    d.hp.slots = [] ∧ d.nodes = [] ∧ (busy.barge 0).idle = false ∧ (busy.barge 0).tq.running = some 0x100 ∧
    (busy.barge 0).tq.overrun = false ∧ Sparse.get (fun _ => 0) moor.srcAt moor.level = 3 ∧
    Bits.fld (moor.moorCfg 3) 4 16 ≠ 0 ∧ (3 : Fin 8).val ≠ 0 % 8 ∧ runBarge.bind 3 = 0 ∧
    ({ runBarge with tq := { moorCfg := [(3, 2)] } } : Barge).bind 3 ≠ 0 ∧
    32 ≤ ({ queue := List.replicate 32 (0 : Quad) } : TaskUnit).queue.length := by decide

/-- Table 9-3: add wraps, adds saturates, a shift takes five bits of its count, a signed division by zero and its overflow. -/
theorem test_alu :
    let d := upBarge { runBarge with s := [(2, 0x7FFFFFFF), (3, 1), (4, 0x80000000), (5, 0xFFFFFFFF), (6, 33)] }
    get1 (.addR 0 1 2 3) d (fun t => (t.barge 0).sreg 1) = some 0x80000000 ∧
    get1 (.adds 0 1 2 3) d (fun t => (t.barge 0).sreg 1) = some 0x7FFFFFFF ∧
    get1 (.shl 0 1 3 6) d (fun t => (t.barge 0).sreg 1) = some 2 ∧
    get1 (.sra 0 1 4 3) d (fun t => (t.barge 0).sreg 1) = some 0xC0000000 ∧
    get1 (.divS 0 1 4 0) d (fun t => (t.barge 0).sreg 1) = some 0x80000000 ∧
    get1 (.divS 0 1 4 5) d (fun t => (t.barge 0).sreg 1) = some 0x7FFFFFFF ∧
    get1 (.remU 0 1 2 0) d (fun t => (t.barge 0).sreg 1) = some 0x7FFFFFFF ∧
    get1 (.ltu 0 1 2 4) d (fun t => (t.barge 0).sreg 1) = some 1 ∧
    get1 (.lt 0 1 2 4) d (fun t => (t.barge 0).sreg 1) = some 0 := by decide

/-- A result to s0 is dropped; the program counter goes on; clz of 1 and of 0. -/
theorem test_alu_zero :
    let d := upBarge { runBarge with s := [(2, 1)] }
    get1 (.addI 0 0 2 5) d (fun t => ((t.barge 0).sreg 0, (t.barge 0).pc)) = some (0, 0x104) ∧
    get1 (.clz 0 1 2) d (fun t => (t.barge 0).sreg 1) = some 31 ∧
    get1 (.clz 0 1 0) d (fun t => (t.barge 0).sreg 1) = some 32 ∧
    get1 (.bEq 0 0 0 0x1FFF) d (fun t => (t.barge 0).pc) = some 0xFC ∧
    get1 (.jmp 0 1 2) d (fun t => ((t.barge 0).sreg 1, (t.barge 0).pc)) = some (0x104, 0x108) := by decide

/-- R218, R221: a store enters the buffer; its drain writes the byte; a store to IRAM becomes a patch. -/
theorem test_store_drain :
    let d := upBarge { runBarge with s := [(1, 0xAB), (2, 0x10010), (3, 0x200)] }
    (after [.stB 0 1 2 1, .storeDrain 0] d).map (fun t => (t.barge 0).dram) = some [(0x11, 0xAB)] ∧
    (after [.stB 0 1 3 0, .storeDrain 0] d).map (fun t => ((t.barge 0).iram, (t.barge 0).patches)) =
      some ([], [{ addr := 0x200, size := 1, data := 0xAB }]) := by decide


/-! ### Host port, commands and long operations -/

/-- DoorbellsAndContexts: a doorbell accepted and one past the ring; contexts missing; EN. -/
theorem test_doorbell_premises :
    let k : RingCtx := { active := true, kind := 0, log2 := 4, bound := 1 }
    let s := upHost [(5, k)]
    ¬ DoorbellBad k 15 true ∧ DoorbellBad k 16 true ∧ DoorbellBad k 15 false ∧ s.hp.loss = none ∧
    (5 : Nat) ∉ s.hp.cached ∧ (s.ringAt 5).active = true ∧ s.hostReach = true ∧ s.hp.cached.length < 4096 ∧
    s.hpEn = true ∧ up.hpEn = false ∧ up.hostReach = false := by unfold DoorbellBad; decide

/-- RingCommands: outside ring 0; refused by its bits; beyond the table; a context that fits; a ring that is active. -/
theorem test_ringCommands_premises :
    let x : CtxImage := { base := 0x1000, kind := 1, log2 := 4, pin := false, irqEn := true, bound := 0, vector := 3
                          credits := 0, coalCount := 0, coalTime := 0, wb := 0, user := 0, rsv := false }
    let s := upHost [(5, { active := true, kind := 1, log2 := 4 })]
    let d := desc 0 0 0 [2]
    (desc 1 0 0 [2]).ring ≠ 0 ∧ d.ring = 0 ∧ d.check [0] [0xFFFFF] = true ∧ (desc 0 1 0 [2]).check [0] [0xFFFFF] = false ∧
    d.pf 0 0 20 < RingTable s ∧ RingTable s ≤ (desc 0 0 0 [0xFFFFF]).pf 0 0 20 ∧ s.ctxOk 2 x = true ∧ s.ctxFits x = true ∧
    (s.ringAt 2).active = false ∧ (s.ringAt 5).active = true ∧ ({ x with log2 := 3 }).log2.toNat < 4 ∧
    (desc 0 0 0 [5, 1, 0, 0, 0, 0]).check [0] [0xFFFFF, 0x1F, 0x107FF, Cmd.all, Cmd.all, Cmd.all] = true ∧
    (desc 0 0 0 [5, 64, 0]).check [0] [0xFFFFF, Cmd.all, Cmd.all] = true ∧ (desc 0 0 0 [5, 64, 0]).par64 1 % 64 = 0 ∧
    (desc 0 0 0 [5, 64, 0]).par64 1 ≠ 0 ∧ (desc 0 0 0 [5, 0, 0]).par64 1 = 0 ∧ (desc 0 0 0 [5, 65, 0]).par64 1 % 64 ≠ 0 ∧
    s.ringHolds 5 = false := by unfold RingTable; decide

/-- EntriesAndAdmission: an entry to fetch; a command to admit, and one with an unknown opcode; credits used up. -/
theorem test_admission_premises :
    let k : RingCtx := { active := true, kind := 0, log2 := 4, host := 1, credits := 1 }
    let slot : CmdSlot := { ring := 5, cmdId := 9, opcode := 0x105, barge := 0, token := 7, held := false }
    let f : Fetched := { opcode := 0x105, d := desc 5 1 0 [] }
    let s := upHost [(5, k)]
    let busy : Dev := { s with hp := { s.hp with slots := [slot], fetched := [f] } }
    let q : Dev := { busy with barges := [(0, { tq := { queue := [7] } })] }
    k.dist k.host k.dev ≠ 0 ∧ s.hpEn = true ∧ s.hostReach = true ∧ f.d.headOk = true ∧ f.opcode ∈ Cmd.opcodes ∧
    0xFFFF ∉ Cmd.opcodes ∧ s.hp.slots.length < 4096 ∧ k.credits ≤ (busy.hp.slots.filter (fun x => x.ring == 5)).length ∧
    busy.hp.fetched = [] ++ f :: [] ∧ f.d.ring = 5 ∧ q.untaken slot = true ∧ slot.cmdId = (9 : Word).toNat ∧
    busy.hp.slots = [] ++ slot :: [] := by decide

/-- Completions, events, telemetry, moderation and MSI-X. -/
theorem test_entries_premises :
    let c : Completion := { cmdRing := 5, cmdId := 9, opcode := 0x105, status := 0 }
    let k : RingCtx := { active := true, kind := 1, log2 := 4 }
    let ev : RingCtx := { active := true, kind := 2, log2 := 4, armed := true, irqEn := true, n := 1 }
    let s : Dev := { (upHost [(1, k), (2, ev), (5, { active := true, kind := 0, log2 := 4, bound := 1 })]).setReg (RegMap.hpRoute 0x80) 0x00100002 with
      complq := [c], evq := [{ stream := 0x80, code := 1 }, { stream := 0x90, code := 1 }] }
    let full : RingCtx := { ev with dev := 15, host := 0 }
    (s.complq = [] ++ c :: []) ∧ (s.ringAt c.cmdRing).bound = 1 ∧ c.reserved = false ∧ s.reservedOn 1 < k.free ∧ full.free = 0 ∧
    ev.free ≠ 0 ∧ 2 ≤ ev.free ∧ Routed s 0x80 2 2 ∧ Unrouted s 0x90 2 ∧ ev.toDevice = false ∧ max 1 ev.coalCount ≤ ev.n ∧
    s.hp.msixEn = true ∧ s.hp.msixMask = false ∧ (s.msixWord 3).getLsbD 0 = true ∧
    (({ s with hp := { s.hp with msixTable := [(3, 0)] } } : Dev).msixWord 3).getLsbD 0 = false := by
  unfold Routed Unrouted; decide

/-- HostLiveness: a watchdog that runs, a loss, LINK_LOSS. -/
theorem test_liveness_premises :
    let s : Dev := { upHost [] with hp := { (upHost []).hp with hbRunning := true, loss := some (4, 1, true) } }
    let l := (upHost []).setReg RegMap.hpHbCfg 0x2001
    s.hp.hbRunning = true ∧ l.rf RegMap.hpHbCfg 0 10 ≠ 0 ∧ s.hp.loss = some (4, 1, true) ∧ l.rb RegMap.hpHbCfg 13 = true ∧
    l.hp.linkUp = true ∧ up.hp.linkUp = false ∧ (up.setReg RegMap.hpHbCfg 0).rb RegMap.hpHbCfg 13 = false ∧
    up.hp.hbRunning = false ∧ (up.coll 8).live.getLsbD 40 = false := by decide

/-- ChannelCommands: a descriptor of each kind accepted and refused; an autonomous region; every row of Table 3-3. -/
theorem test_channel_premises :
    let d := desc 5 1 0 []
    let rs := up.setReg (RegMap.rgnCtrl 0) 1
    d.check [1, 2] [] = true ∧ (desc 5 3 0 []).check [1, 2] [] = false ∧ State.reset.dev.cmdAuto d = true ∧
    Accepted d [1, 2] [] up ∧ Accepted (desc 5 2 0 []) [1, 2] [] up ∧ up.lvBlocked 0 = false ∧
    (up.setReg (RegMap.rgnCtrl 0) 1).rb (RegMap.rgnCtrl 0) 0 = true ∧ (rs.cell 0).state = .disabled ∧
    (up.region 0).woke = false ∧ (upCell { state := .tripped, evaluated := true }).cell 0 = { state := .tripped, evaluated := true } ∧
    (upCell { state := .safe }).safeStands 0 = false ∧
    (({ upCell { state := .safe } with colls := [(0, { standing := [{ source := 1, scope := .cell 0, fatal := false }] })] } : Dev).safeStands 0 = true) := by
  refine ⟨by decide, by decide, by decide, ⟨by decide, by decide, by decide, ?_⟩, ⟨by decide, by decide, by decide, ?_⟩, ?_⟩
  · intro g h; cases h; decide
  · intro g h; cases h; decide
  · decide

/-- ProfilesAndTasks: a patch that is legal and one that is not, a class H field of a running cell, an install, a removal. -/
theorem test_profile_premises :
    let a := Cmd.all
    (desc 5 1 0 [1, 0, 0xFFFFFFFF, 0]).check [1, 2] [7, 0x3F, a, a] = true ∧ (desc 5 1 0 [1, 0, 0, 0]).pf 0 0 3 = 1 ∧
    Prof.legal (up.candidate 0 []) = true ∧ Prof.legal (up.candidate 0 [(2, 0xFFFFFFFF, 0xFFFFFFFF)]) = false ∧
    up.profBusy 0 [] = false ∧ (desc 5 1 0 [64, 0, 3, 0]).par64 0 % 64 = 0 ∧ (desc 5 1 0 [1, 0, 3, 0]).par64 0 % 64 ≠ 0 ∧
    (desc 5 1 0 [64, 0]).check [1] [a, a] = true ∧ (desc 5 0 0 []).check [0] [] = true ∧
    (desc 5 0 0 [0x800, 1, 0x20800000, 0]).check [0] [0x7F3F, a, a, 0xFF] = true ∧
    (desc 5 0 0 [0x800, 1, 0x20800000, 0]).pf 0 8 4 = 8 ∧ Cmd.customerCode 0x20800000 = true ∧ Cmd.customerCode 0 = false ∧
    ((up.barge 0).moorCfg 8).getLsbD 0 = false ∧ (desc 5 0 0 [7]).check [0] [0xFFFF] = true := by decide

/-- LongOperations: a free handle, an operation that its handle names, an entry due and one that waits. -/
theorem test_operation_premises :
    let a := Cmd.all
    let b : BankSeq := { ents := [{ cell := 0, wait := 1, delay := 0 }], stopOnFail := false, maxInflight := 0, outAddr := 0 }
    let o : Op := { opcode := 0x180, ring := 5, cmdId := 9, body := .bank b }
    let s : Dev := { upCell { state := .off } with ops := [(1, some o)] }
    (up.op 63).isSome = false ∧ s.op 1 = some o ∧ s.op 0 = none ∧ s.handle 1 ≠ 0 ∧ s.handle 1 % 64 = 1 ∧ b.ents[b.k]? = some { cell := 0, wait := 1, delay := 0 } ∧
    s.auto 0 = false ∧ State.reset.dev.auto 0 = true ∧ (s.region 0).woke = false ∧
    (desc 5 3 0 [64, 0, 1, 0, 1, 0]).check [3] [a, a, a, a, a, 1] = true ∧ (desc 5 3 0 [64, 0, 1, 0, 86400, 0]).par 4 ≤ 86400 ∧
    (desc 5 0 0 [1, 0, 0, 8]).check [0] ([0x01FF0FFF, a, a] ++ List.replicate 1 0xFFFF07FF) = true ∧
    (desc 5 0 0 [64, 0, 4096, 0]).par 2 % 4096 = 0 ∧ (up.tow 0).inUse 7 = false ∧ up.calBusy 0 = false := by decide

/-- Table 3-3: CH_ON of a cell in OFF enters PRECHECK; CH_OFF of a cell in ON enters OFF with HOLD_OFF; DISABLED refuses CH_ON
with ST_BAD_STATE. -/
theorem test_channel_commands :
    (after [.chOn (desc 5 1 0 [])] (upCell { state := .off })).map (fun t => ((t.cell 0).state, t.complq.map (·.status))) =
      some (.precheck, [0]) ∧
    (after [.chOff (desc 5 1 0 [])] (upCell { state := .on })).map (fun t => ((t.cell 0).state, (t.cell 0).holdOff)) =
      some (.off, true) ∧
    (after [.chOn (desc 5 1 0 [])] (upCell { state := .disabled })).map (fun t => ((t.cell 0).state, t.complq.map (·.status))) =
      some (.disabled, [0x11]) := by decide



/-! ### Sample mirror and basin recorder -/

/-- A frame of block 0. -/
def frame0 (seq trip : Nat) : Frame :=
  { time := 80, valid := 1, settle := 0, trip := trip, block := 0, seq := seq, i := List.replicate 8 1, v := List.replicate 8 2 }

/-- The device up, with a basin, block 0 recorded at every frame. -/
def upBasin (z : Basin) : Dev := { (up.setReg (RegMap.bzBlockCfg 0) 1).setReg RegMap.bzTrigBlocks 1 with bz := z }

/-- BasinRecording: a frame for the mirror, EN 0 and 1, segment tables good and bad, entries taken and dropped, a gap closed. -/
theorem test_basinRecording_premises :
    let m : Dev := { up with convs := [(0, { frames := [frame0 0 0] })] }
    let on : Dev := up.setReg RegMap.bzCtrl 1
    let rec0 : Basin := { recording := true, inbox := [frame0 0 0], segs := [0x1000] }
    let dropping : Basin := { rec0 with drop := some { first := 1, last := 2, count := 1, blocks := 1 } }
    let s := upBasin rec0
    (m.conv 0).frames = frame0 0 0 :: [] ∧ m.straitUp (0 / 8) = true ∧ State.reset.dev.straitUp 0 = false ∧
    up.rb RegMap.bzCtrl 0 = false ∧ on.rb RegMap.bzCtrl 0 = true ∧ ({ loading := true } : Basin).loading = true ∧
    ([] : List DWord).length < on.bzNseg ∧ on.bzNseg ≤ [(0x1000 : DWord)].length ∧ (0x1000 : DWord).toNat % 4096 = 0 ∧
    (0x1004 : DWord).toNat % 4096 ≠ 0 ∧ s.bz.inbox = frame0 0 0 :: [] ∧ (frame0 0 0).trip = 0 ∧ BasinTakes rec0 ∧
    s.rb (RegMap.bzBlockCfg 0) 0 = true ∧ (frame0 0 0).seq % (s.rf (RegMap.bzBlockCfg 0) 1 6 + 1) = 0 ∧
    s.rb RegMap.bzCtrl 1 = false ∧ up.rb (RegMap.bzBlockCfg 0) 0 = false ∧
    dropping.drop ≠ none ∧ dropping.post ≠ some 0 ∧ 48 * dropping.staged.length + 65536 ≤ 524288 ∧
    (upHost []).hostReach = true ∧ up.hostReach = false := by unfold BasinTakes; decide

/-- BasinRecording: a staging buffer that is full. -/
theorem test_basinStaging_full :
    10922 ≤ (({ staged := List.replicate 10922 (0, []) } : Basin).staged).length ∧
    524288 < 48 * (({ staged := List.replicate 10922 (0, []) } : Basin).staged).length + 65536 := by
  rw [List.length_replicate (n := 10922)]; decide

/-- BasinFreeze: a trigger command and a frame that triggers, accepted and ignored; the count reached; releases and marks. -/
theorem test_basinFreeze_premises :
    let d := desc 5 0 0 [7]
    let z : Basin := { recording := true, inbox := [frame0 0 1] }
    let s := upBasin z
    let fz : Basin := { z with frozen := true }
    let exp : Dev := { up with ops := [(1, some { opcode := 0x480, ring := 5, cmdId := 9, body := .capture 0 0 1 1 4096 0 0 })] }
    d.check [0] [Cmd.all] = true ∧ (desc 5 0 0 []).check [0] [] = true ∧ up.bz.recording = false ∧ BasinTakes z ∧ z.post = none ∧
    s.bz.inbox = frame0 0 1 :: [] ∧ (frame0 0 1).trip ≠ 0 ∧ Bits.nbit (s.reg64 RegMap.bzTrigBlocks) 0 = true ∧
    Bits.nbit (up.reg64 RegMap.bzTrigBlocks) 0 = false ∧ fz.frozen = true ∧ up.bz.wbW = up.bz.w ∧
    ({ z with w := 3 } : Basin).wbW ≠ ({ z with w := 3 } : Basin).w ∧ ({ z with post := some 0 } : Basin).post = some 0 ∧
    exp.exporting = true ∧ up.exporting = false := by unfold BasinTakes; decide

/-- R302: a frame recorded advances W and is staged with its position. -/
theorem test_basin_frame :
    get1 .basinFrame (upBasin { recording := true, w := 5, inbox := [frame0 0 0] }) (fun t => (t.bz.w, t.bz.staged.map Prod.fst, t.bz.inbox)) =
      some (6, [5], []) := by decide


/-! ### Converter slices -/

/-- The device up, with slice 0 and its CS_CFG. -/
def upSlice (cfg : Word) (x : Slice) : Dev := { up.setReg (RegMap.cs 0 0x04) cfg with slices := [(0, x)] }

/-- SlicePeriods: every state and phase, COFF and PSM in both control kinds, edges asked for, cuts, skips and forced edges. -/
theorem test_slicePeriods_premises :
    let run : Slice := { state := .run, phase := .on, hs := true }
    let s := upSlice 2 run
    (up.slice 0).state = .off ∧ s.csCoff 0 = false ∧ s.csCurrent 0 = true ∧ (s.slice 0).edgeAsked = false ∧
    (s.slice 0).phase ≠ .rest ∧ (upSlice 1 run).csCoff 0 = true ∧ (upSlice 0 run).csCurrent 0 = false ∧
    (upSlice 3 run).csCoff 0 = true ∧ (upSlice 3 run).csCurrent 0 = true ∧ (upSlice 0 run).tonAsked 0 ≠ none ∧
    (upSlice 0x41 run).csCfg 0 6 = true ∧ (upSlice 0x20 run).csCfg 0 5 = true ∧ s.csCfg 0 5 = false ∧ run.cut = false ∧
    ({ run with cut := true, fault := true } : Slice).cutDue = true ∧ (0 : Word).toNat < ({ state := .softStart } : Slice).ssUs ∧
    ({ state := .softStart } : Slice).ssUs ≤ (1000 : Word).toNat ∧ ({ state := .softStop } : Slice).tonLim ≤ 103 ∧
    s.regsPend = [] ∧ s.slicePower 0 = true := by decide

/-- SliceControl: a fault line asserted and released, samples, a record in transit, control words, a loop, the commands. -/
theorem test_sliceControl_premises :
    let a := Cmd.all
    let run : Slice := { state := .run }
    let s := upSlice 0x05000000 run
    let f := s.setReg (RegMap.tripForce 0) 0x100
    let r : SliceRec := { slice := 0, fb := 100, flags := 3, time := 40 }
    let q : Dev := { s with sliceQ := [r] }
    let lp : Slice := { run with loop := some (1, 2, 5, 6, 0, 9) }
    Bits.nbit (f.sliceFaults (0 / 4)) (0 % 4) = true ∧ Bits.nbit (s.sliceFaults (0 / 4)) (0 % 4) = false ∧ run.state ≠ .off ∧
    run.fbOv = false ∧ run.cut = false ∧ (s.region 0).islandRun = true ∧ (State.reset.dev.region 0).islandRun = false ∧
    0 < run.fbSettle ∧ ({ run with fbSettle := 0 } : Slice).fbSettle = 0 ∧ s.straitUp 0 = true ∧
    (s.setReg (RegMap.cs 0 0x30) 1).rb (RegMap.cs 0 0x30) 0 = true ∧ s.rb (RegMap.cs 0 0x30) 0 = false ∧
    q.sliceQ = [] ++ r :: [] ∧ r.fb < 65536 ∧ r.flags / 2 ^ 19 % 2 = 0 ∧ up.csEn 0 = false ∧
    (s.setReg (RegMap.cs 0 0) 1).csEn 0 = true ∧ s.rf (RegMap.cs 0 0x04) 24 8 ≠ 0 ∧ (desc 5 4 0 []).check [4] [] = true ∧
    (desc 5 4 0 [1]).check [4] [1] = true ∧ (desc 5 4 0 [8, 0, 0, 0x00090001, 7]).check [4] [0xF, a, a, a, 0xFFFF] = true ∧
    (desc 5 4 0 [8, 0, 0, 0x00090001, 7]).pf 3 0 16 ≤ (desc 5 4 0 [8, 0, 0, 0x00090001, 7]).pf 3 16 16 ∧
    (desc 5 4 0 [8, 0, 0, 9, 7]).pf 3 16 16 < (desc 5 4 0 [8, 0, 0, 9, 7]).pf 3 0 16 ∧ lp.loop ≠ none ∧
    ((up.barge 0).moorCfg 0).getLsbD 0 = false ∧
    (({ tq := { moorCfg := (List.range 8).map (fun n => (n, 1)) } } : Barge).moorCfg 7).getLsbD 0 = true := by decide

/-- Accepted descriptors of a slice. -/
theorem test_slice_accepted : Accepted (desc 5 4 0 []) [4] [] up ∧ Accepted (desc 5 4 0 [1]) [4] [1] up := by
  refine ⟨⟨by decide, by decide, by decide, ?_⟩, ⟨by decide, by decide, by decide, ?_⟩⟩ <;> intro g h <;> cases h <;> decide

/-- R315: HS rises at the end of its dead time, and not while LS is high. -/
theorem test_slice_hsRise :
    get1 (.hsRise 0) (upSlice 0 { state := .run, phase := .deadHigh }) (fun t => ((t.slice 0).hs, (t.slice 0).ls)) = some (true, false) ∧
    get1 (.hsRise 0) (upSlice 0 { state := .run, phase := .deadHigh, ls := true }) (fun t => (t.slice 0).hs) = some false := by decide


/-! ### Reserve unit -/

/-- Legal settings: lithium ion, four cells. -/
def rvLegal : Dev :=
  [(0x04, 0x0FA00011), (0x08, 0x0FA01068), (0x0C, 0x0AF00BB8), (0x10, 0x00C803E8), (0x14, 0x001E0032), (0x18, 0x0000781E),
    (0x28, 0x3C2D0A00), (0x2C, 0x00000032), (0x20, 0x02800000)].foldl (fun d p => d.setReg (RegMap.rv p.1) p.2) up

/-- The same with the reserve unit in a state. -/
def upRv (r : Reserve) : Dev := { rvLegal with rv := r }

/-- A measurement of the pack and of VSYS. -/
def rvMeas0 (vsys pack : BitVec 16) : RvMeas := { bus := 48000, vsys := vsys, pack := pack, ma := 0, t := 0 }

/-- ReserveCharger: settings legal and not; every wait reason; every charger state with its thresholds. -/
theorem test_charger_premises :
    let s := upRv { zone := 2 }
    Bits.nbit s.rv.latched 0 = false ∧ Bits.nbit 1 0 = true ∧
    s.rf (RegMap.rv 0x04) 2 4 * (s.rf (RegMap.rv 0x0C) 0 16 + 50) ≤ 12200 ∧ PackTarget s ≤ 16800 ∧ PackPhase s 15000 = 3 ∧
    PackPhase s 10000 = 2 ∧ (12000 : Nat) < s.rf (RegMap.rv 0x04) 2 4 * s.rf (RegMap.rv 0x08) 16 16 := by
  decide

/-- Every wait reason (R340). -/
theorem test_charger_waits :
    WaitWhy (upRv { path := 1 }) (rvMeas0 48000 12000) 1 ∧ WaitWhy (upRv { zone := 0 }) (rvMeas0 48000 12000) 2 ∧
    WaitWhy (upRv { zone := 2, latched := 1 }) (rvMeas0 48000 12000) 3 ∧ WaitWhy (upRv { zone := 2 }) (rvMeas0 12000 12000) 4 ∧
    WaitWhy (upRv { zone := 2, pause := true }) (rvMeas0 48000 12000) 5 ∧ WaitWhy (upRv { zone := 2 }) (rvMeas0 48000 12000) 0 :=
  ⟨.inl ⟨rfl, by decide⟩, .inr (.inl ⟨rfl, by decide⟩), .inr (.inr (.inl ⟨rfl, by decide⟩)),
    .inr (.inr (.inr (.inl ⟨rfl, by decide⟩))), .inr (.inr (.inr (.inr (.inl ⟨rfl, by decide⟩)))),
    .inr (.inr (.inr (.inr (.inr ⟨rfl, by decide⟩))))⟩

theorem test_charger_legal : ChargerLegal (upRv { zone := 2 }) := by
  refine ⟨Or.inl (by decide), by decide, by decide, by decide, by decide, ?_⟩
  decide

theorem test_charger_illegal : ¬ ChargerLegal up := fun h => absurd h.1 (by decide)

/-- The safety timers: running, expiring, and safe values that end surplus absorption. -/
theorem test_safetyTimer_premises :
    let s := upRv { chg := 2, preMs := 1799900 }
    s.rf (RegMap.rv 0x18) 0 8 * 60000 ≤ s.rv.preMs + 100 ∧ ¬ (s.rf (RegMap.rv 0x18) 0 8 * 60000 ≤ 100) ∧
    (s.coll 8).live.getLsbD 42 = false ∧ (upRv { surplus := true, safe := true }).rv.surplus = true := by decide

/-- ReserveLoops: TRACK_EN, a pause, SURPLUS_EN, a ratio in the table and one outside. -/
theorem test_reserveLoops_premises :
    let s := ((upRv { chg := 3, zone := 2 }).setReg (RegMap.rv 0) 7).setReg (RegMap.rv 0x24) 48000
    s.rb (RegMap.rv 0) 2 = true ∧ 2 ≤ s.rv.chg ∧ s.rv.chg ≤ 5 ∧ s.rv.pause = false ∧ s.rb (RegMap.rv 0) 1 = true ∧
    s.rf (RegMap.rv 0x24) 0 16 ≠ 65535 ∧ (s.setReg (RegMap.rv 0x24) 0xFFFF).rf (RegMap.rv 0x24) 0 16 = 65535 ∧
    (up.setReg (RegMap.rv 0x80) 100).rvTemp (65535 : BitVec 16).toNat = none ∧ (∃ x, up.rvTemp (0 : BitVec 16).toNat = x) := by
  refine ⟨?_, ?_, ?_, ?_, ?_, ?_, ?_, by decide, _, rfl⟩ <;> decide

/-- ReservePath: every path state, presence, bounces, the stop sequence; ReserveFaults: each watched row of Table 15-5. -/
theorem test_reservePath_premises :
    let st : Dev := { (rvLegal.setReg (RegMap.rv 0x30) 0x00010000) with
      rv := { path := 1, stop := [lockOff] } }
    let l := (st.rv.stop.take (st.rf (RegMap.rv 0x30) 16 6)).map (fun (e : LockEntry) =>
      { e with time := BitVec.ofNat 64 (st.tbTime + e.time.toNat) })
    1 ≤ st.rv.path ∧ st.rv.path ≤ 3 ∧ st.rv.stopDone = false ∧ st.pwr.core = true ∧ l.length = 1 ∧
    (∀ e ∈ l, e.devMask = 0 ∧ st.lockReason e = 0) ∧ ({ present := true, path := 2 } : Reserve).present = true := by decide

theorem test_reserveFaults_premises :
    let a := Cmd.all
    let s := upRv { path := 2, dioArmed := true }
    Bits.nbit s.rv.live 1 = false ∧
    (s.coll 8).live.getLsbD 43 = false ∧ (s.setReg (RegMap.rv 0x38) 0).rf (RegMap.rv 0x38) 0 8 = 0 ∧
    (s.setReg (RegMap.rv 0x38) 5).rf (RegMap.rv 0x38) 0 8 ≠ 0 ∧ (desc 5 0 0 [64, 0]).check [0] [a, a] = true ∧
    (desc 5 0 0 [1]).check [0] [1] = true ∧ (desc 5 0 0 [0x15]).check [0] [0x7F] = true ∧
    (desc 5 0 0 [64, 0, 3]).check [0] [a, a, 0x3F] = true ∧ (desc 5 0 0 [64, 0, 33]).pf 2 0 6 = 33 := by
  decide

theorem test_reserveFaults_rows :
    let s := upRv { path := 2, dioArmed := true }
    RvFaultRow s (.packOv true) 1 true true ∧ RvFaultRow s (.chgOc false) 5 false true ∧
    RvFaultRow s (.packHot true) 4 true true ∧ RvFaultRow s (.inPathFail true) 6 true true ∧
    RvFaultRow s (.dioFail true) 7 true true ∧ RvFaultRow (upRv { path := 0 }) (.packHot true) 4 true false :=
  ⟨.inl ⟨rfl, rfl, rfl⟩, .inr (.inl ⟨rfl, rfl, rfl⟩), .inr (.inr (.inl ⟨rfl, rfl, rfl⟩)),
    .inr (.inr (.inr (.inl ⟨rfl, rfl, rfl⟩))), .inr (.inr (.inr (.inr ⟨rfl, rfl, rfl⟩))),
    .inr (.inr (.inl ⟨rfl, rfl, rfl⟩))⟩

/-- Table 15-3: with its settings accepted CHG_EN takes the charger to WAIT; R356: RV_SAFE takes one write. -/
theorem test_reserve_results :
    get1 .chargeEnable (upRv { zone := 2, meas := rvMeas0 48000 12000 }) (fun t => (t.rv.chg, t.rb (RegMap.rv 0) 0)) = some (1, true) ∧
    get1 (.rvSafeWrite 5) (upRv {}) (fun t => (t.reg (RegMap.rv 0x34), t.rv.safeWritten)) = some (5, true) ∧
    get1 (.rvSafeWrite 5) (upRv { safeWritten := true }) (fun t => t.reg (RegMap.rv 0x34)) = some (up.reg (RegMap.rv 0x34)) := by decide


/-! ### Towpaths, management port, supervisor port -/

/-- The device up, with towpath 0 enabled and in a state, and slot 0 set. -/
def upTow (slotA : Word) (w : Towpath) : Dev :=
  { (up.setReg (RegMap.twCfg 0) 0x012B0001).setReg (RegMap.slotA 0 0) slotA with tows := [(0, w)] }

/-- TowpathBus: EN, a recovery, the timeouts with and without a transaction, a wake and its failure. -/
theorem test_towpathBus_premises :
    let s := upTow 0 {}
    let z : Dev := { (upTow 0 {}).setReg (RegMap.twCfg 0) 0x00080001 with regions := [(0, { upRegion with asleep := true })] }
    let m : Dev := { (up.setReg RegMap.mgCfg 1).setReg RegMap.pwrWakeEn 4 with pwr := { pwrOn with mode := 2 } }
    s.rb (RegMap.twCfg 0) 0 = true ∧ up.rb (RegMap.twCfg 0) 0 = false ∧ ({ recovering := true } : Towpath).recovering = true ∧
    (s.coll 0).live.getLsbD 79 = false ∧ s.auto 0 = false ∧ (z.region 0).asleep = true ∧ (s.region 0).islandRun = true ∧
    (s.region 0).asleep = false ∧ (s.region 0).clkFail = false ∧ (s.tow 0).run = none ∧
    ({ run := some (3, false) } : Towpath).run = some (3, false) ∧ z.twEn 0 = true ∧ z.rb (RegMap.twCfg 0) 19 = true ∧
    (z.tow 0).oos = false ∧ ({ stretch := true } : Towpath).stretch = true ∧ s.rb (RegMap.twCfg 0) 19 = true ∧
    m.rb RegMap.mgCfg 0 = true ∧ m.pwr.mode = 2 ∧ m.rb RegMap.pwrWakeEn 2 = true ∧ (up.setReg RegMap.mgCfg 0).rb RegMap.mgCfg 0 = false := by decide

/-- TowpathSlots: slots free, in use and illegal; a head of the queue; arbitration lost with and without retries left; every end. -/
theorem test_towpathSlots_premises :
    let w : Towpath := { queue := [(0, false)], idle := true }
    let s := upTow 0x0000A350 w
    let run := upTow 0x00008750 { run := some (0, true), aborting := true }
    s.rf (RegMap.slotA 0 0) 8 4 = 3 ∧ (1 : Byte).toNat = 2 ^ 0 ∧ w.inUse 0 = true ∧ w.inUse 1 = false ∧
    10 ≤ (upTow 0xA00 {}).rf (RegMap.slotA 0 0) 8 4 ∧ (upTow 0xA00 { oos := true }).tow 0 = { oos := true } ∧
    (∀ q ∈ w.queue, w.running q.1 = false) ∧ s.twEn 0 = true ∧ s.islandClk 0 = true ∧ w.run = none ∧
    w.queue = (0, false) :: [] ∧ (w.stat 0).tries ≠ 15 ∧ ((w.setStat 0 { tries := 15 }).stat 0).tries = 15 ∧
    (run.tow 0).run = some (0, true) ∧ ((run.tow 0).stat 0).tries ≤ run.rf (RegMap.slotA 0 0) 14 4 ∧
    ((upTow 0 {}).rf (RegMap.slotA 0 0) 14 4 < 1) ∧ run.rf (RegMap.slotA 0 0) 8 4 = 7 ∧
    (1 : Byte).toNat ≤ 4 ∧ 0 + (1 : Byte).toNat ≤ 256 ∧ SecondAddress 7 1 = some 2 := by decide

/-- TowpathTarget: listening or not, queues full, a PEC that fits; the descriptors of Table 16-12. -/
theorem test_towpathTarget_premises :
    let a := Cmd.all
    let s := upTow 0 {}
    let q : Towpath := { notify := List.replicate 16 0, tgt := List.replicate 4 { time := 0, cmd := 0, pec := false, data := [] } }
    s.twEn 0 = true ∧ s.islandClk 0 = true ∧ s.rb (RegMap.twCfg 0) 17 = true ∧ s.rb (RegMap.twCfg 0) 16 = true ∧
    s.rf (RegMap.twCfg 0) 20 7 = 0x12 ∧ s.rb (RegMap.twCfg 0) 18 = false ∧ 16 ≤ q.notify.length ∧ 4 ≤ q.tgt.length ∧
    (s.tow 0).notify.length < 16 ∧ (s.tow 0).tgt.length < 4 ∧
    (desc 5 5 0 [0, 0x350, 1, 64, 0]).check [5] [7, Tow.maskA, 0xFFFF, a, a] = true ∧
    (desc 5 5 0 [0x350, 1, 64, 0]).check [5] [Tow.maskA, 0xFFFF, a, a] = true ∧
    (desc 5 5 0 [0, 0x350, 1, 64, 0]).par64 3 % 64 = 0 ∧ (desc 5 5 0 [6, 0x350, 1, 64, 0]).pf 0 0 3 = 6 ∧
    (desc 5 5 0 [0, 64, 0]).check [5] [7, a, a] = true ∧ (desc 5 5 0 [64, 0]).check [5] [a, a] = true ∧
    (desc 5 5 0 []).check [5] [] = true := by decide

/-- ManagementPort: enabled and not; a selection and a mailbox write with and without PEC; the descriptors. -/
theorem test_managementPort_premises :
    let a := Cmd.all
    let s := up.setReg RegMap.mgCfg 5
    s.rb RegMap.mgCfg 0 = true ∧ s.rb RegMap.mgCfg 1 = false ∧ s.rb RegMap.mgCfg 2 = true ∧
    (up.setReg RegMap.mgCfg 3).rb RegMap.mgCfg 1 = true ∧ s.mg.mbox = none ∧ (511 : BitVec 16).toNat < 512 ∧
    512 ≤ (512 : BitVec 16).toNat ∧ 1 ≤ [(1 : Byte)].length ∧ (desc 5 0 0 [1, 64, 0]).check [0] [0x3F, a, a] = true ∧
    (desc 5 0 0 [33, 64, 0]).pf 0 0 6 = 33 ∧ (desc 5 0 0 [64, 0]).check [0] [a, a] = true := by decide

/-- SupervisorPort: EN, the enabled and the disabled commands, a watchdog that runs. -/
theorem test_supervisorPort_premises :
    let s := up.setReg RegMap.svCfg 0x50D
    s.rb RegMap.svCfg 0 = true ∧ (up.setReg RegMap.svCfg 0).rb RegMap.svCfg 0 = false ∧ s.rb RegMap.svCfg 2 = true ∧ s.rb RegMap.svCfg 3 = true ∧
    (up.setReg RegMap.svCfg 1).rb RegMap.svCfg 2 = false ∧ s.rf RegMap.svCfg 8 8 ≠ 0 ∧
    (up.setReg RegMap.svCfg 0).rf RegMap.svCfg 8 8 = 0 ∧ s.straitUp 0 = true ∧ s.straitUp 1 = false ∧
    (s.coll 8).live.getLsbD 52 = false := by decide

theorem test_supervisor_rows :
    let s := up.setReg RegMap.svCfg 0x50D
    SvRow s (.supervisorRead 1 false) 0 1 0 false true ∧ SvRow s (.regionSafe 1 3 false) 1 1 3 false true ∧
    SvRow s (.chipSafe 1 true) 2 1 0 true true ∧ SvRow s (.supervisorClear 1 false) 3 1 0 false true :=
  ⟨.inl ⟨rfl, rfl, rfl, rfl⟩, .inr (.inl ⟨rfl, rfl, by decide⟩), .inr (.inr (.inl ⟨rfl, rfl, rfl, by decide⟩)),
    .inr (.inr (.inr ⟨rfl, rfl, rfl, rfl⟩))⟩

/-- R370: two slots are queued in ascending order; R363: the PEC is CRC-8 with polynomial 07h (check value F4h). -/
theorem test_towpath_results :
    get1 (.slotStart 0 0x12) (upTow 0 {}) (fun t => (t.tow 0).queue) = some [(1, false), (4, false)] ∧
    Pec.crc [0x31, 0x32, 0x33, 0x34, 0x35, 0x36, 0x37, 0x38, 0x39] = 0xF4 := by decide +kernel

/-- R383: the CRC-16 of a supervisor frame (check value 29B1h). -/
theorem test_supervisor_crc : Crc.crc16 [0x31, 0x32, 0x33, 0x34, 0x35, 0x36, 0x37, 0x38, 0x39] = 0x29B1 := by decide +kernel


/-! ### Fault collection and reaction -/

/-- A level source, a pulse source and an injected event: they reach the collector. -/
theorem test_faultEvents_reach :
    Reaches up 0 0 ∧ Reaches up 8 37 ∧ ¬ Reaches ({ up with colls := [(8, { live := 1#128 <<< 38 })] }) 8 38 := by
  unfold Reaches; decide

/-- Keyed: FATAL; an ordinary source without a rule. -/
theorem test_faultEvents_keyed :
    Keyed (up.setReg (RegMap.fcRSrc 0 0) 2) 0 0 2 none 0 73 ∧ Keyed (up.setReg (RegMap.fcRSrc 0 0) 1) 0 0 1 none 0 0 := by
  refine ⟨⟨.inl (by decide), by decide⟩, ⟨.inr (.inl ⟨by decide, ?_, by decide⟩), by decide⟩⟩
  rintro n ⟨h, _⟩
  exact absurd h (by decide)

/-- Keyed: a rule counts the source, below its limit and at it. -/
theorem test_faultEvents_rules :
    let w : Word := 0x00050001
    let s := (up.setReg (RegMap.fcRSrc 0 0) w).setReg (RegMap.fcRRule 0 2) 0x00000A02
    RuleOn s 0 0 2 ∧ (RuleNext s 0 2).ctr = 1 ∧ ¬ RuleOn (up.setReg (RegMap.fcRSrc 0 0) 1) 0 0 2 := by
  unfold RuleOn; decide

/-- SafeReactions: the scopes of the masks; a report; a standing chip request. -/
theorem test_safeReactions_premises :
    let r : Report := { region := 0, source := 5, key := 2, react := 0x60, time := 9 }
    let s : Dev := { up with reports := [r], colls := [(8, { standing := [{ source := 1, scope := .chip, fatal := false }] })] }
    NamedCell 0 0 3 3 ∧ NamedBlock 0 71 5 5 ∧ NamedBlock 0 0 3 0 ∧ s.reports = r :: [] ∧ r.region < 8 ∧
    Bits.nbit r.react 6 = true ∧ Bits.nbit r.react 5 = true ∧ (∃ q ∈ (s.coll 8).standing, q.scope = .chip) ∧
    s.straitUp 0 = true ∧ (s.coll 8).live.getLsbD 16 = false := by unfold NamedCell NamedBlock; decide

/-- FaultRecords: a live source, an open entry, a full history, an injected legal and a reserved source. -/
theorem test_faultRecords_premises :
    let e : HistEntry := { source := 3, opened := true, react := 3, seq := 4 }
    let s : Dev := { up with colls := [(0, { live := 8, last := [(3, e)], hist := [e] })] }
    (s.coll 0).live.getLsbD 3 = true ∧ (up.coll 0).live.getLsbD 3 = false ∧ (s.coll 0).hist = e :: [] ∧
    (∃ q ∈ (s.coll 0).hist, q.seq = e.seq ∧ q.source = 3 ∧ q.opened = true ∧ q.kindClear = false) ∧
    (0x80000003 : Word).getLsbD 31 = true ∧ (3 : Word).getLsbD 31 = false ∧ Fc.reserved 0 3 = false ∧
    (∃ n, n < 128 ∧ Fc.reserved 0 n = true) ∧ (up.coll 0).hist = [] := by
  refine ⟨?_, ?_, ?_, ?_, ?_, ?_, ?_, ⟨127, ?_⟩, ?_⟩ <;> decide

/-- ErrorPinAndCommands: the pin asserted with and without its pulse, FATAL_HOLD, both modes; the descriptors. -/
theorem test_errorPin_premises :
    let a := Cmd.all
    let s : Dev := { up.setReg RegMap.fcErr 0 with err := { asserted := true, pulse := true, clearWaits := true } }
    let alive := up.setReg RegMap.fcErr 1
    (s.coll 8).fatalReal = 0 ∧ s.err.asserted = true ∧ s.err.pulse = true ∧ s.rf RegMap.fcErr 0 1 = 0 ∧
    alive.rf RegMap.fcErr 0 1 ≠ 0 ∧ (({ up with colls := [(8, { fatalReal := 1 })] } : Dev).coll 8).fatalReal ≠ 0 ∧
    (desc 5 3 0 [64, 0]).check [0, 3] [a, a] = true ∧ (desc 5 0 0 [64, 0]).check [0, 3] [a, a] = true ∧
    (desc 5 3 0 [0, 0, 0, 0, 3]).check [0, 3] [a, a, a, a, 3] = true ∧ (desc 5 3 0 [7]).check [0, 3] [0x7F] = true ∧
    (desc 5 0 0 []).check [0] [] = true := by decide

/-- R395, R399: an injected event latches and counts in TEST_COUNT, and leaves the live bits. -/
theorem test_fault_inject :
    get1 (.faultInject 0 0x80000003) up (fun t => ((t.coll 0).latched, (t.coll 0).live, (t.coll 0).testCount)) =
      some (8, 0, 1) := by decide

/-- R387, R388: a central source whose strait is lost waits. -/
theorem test_fault_deferred :
    get1 (.faultEvent 0 71 1 false) { up with regions := [(0, lostRegion)] } (fun t => ((t.coll 0).latched,
      (t.coll 0).deferred.length)) = some (0, 1) := by decide


/-! ### Supplies, resets, boot and power modes -/

/-- PowerUp: domains ready and not; RST_N low; the core with and without its clock. -/
theorem test_powerUp_premises :
    let r : Power := { pwrOn with centralUp := false, core := false }
    State.reset.dev.pwr.core = false ∧ up.pwr.core = true ∧ up.pwr.centralUp = true ∧ up.pwr.vsys = true ∧
    (r.vsys = true ∧ r.vddc = true ∧ r.vddio = true ∧ r.tbclk = true ∧ r.centralUp = false) ∧ r.rstLow = false ∧
    ({ r with rstLow := true } : Power).rstLow = true ∧ ({ pwrOn with core := false } : Power).centralUp = true ∧
    Bits.bit (0xC4A50001 : Word) 0 = true ∧ Bits.fld (0xC4A50001 : Word) 16 16 = 0xC4A5 ∧
    (State.reset.dev.cell 0).gate = .passive ∧ ({ pwrOn with aoUp := false } : Power).aoUp = false ∧ up.pwr.aoUp = true := by decide

/-- A device with a runtime image without a body in slot 0: MAGIC, FORMAT and AREA, SEQ 3, LENGTH 0, ENTRY, SHA-256 of nothing
(known value), CRC-32 over the rest. -/
def imageDev : Dev := { flash := [
    (0, 0x41), (1, 0x45), (2, 0x44), (3, 0x4D), (4, 0x01), (5, 0x00), (6, 0x00), (7, 0x00), (12, 0x03), (13, 0x00), (14,
    0x00), (15, 0x00), (16, 0x00), (17, 0x00), (18, 0x00), (19, 0x00), (20, 0x00), (21, 0x10), (22, 0x00), (23, 0x00),
    (24, 0xE3), (25, 0xB0), (26, 0xC4), (27, 0x42), (28, 0x98), (29, 0xFC), (30, 0x1C), (31, 0x14), (32, 0x9A), (33,
    0xFB), (34, 0xF4), (35, 0xC8), (36, 0x99), (37, 0x6F), (38, 0xB9), (39, 0x24), (40, 0x27), (41, 0xAE), (42, 0x41),
    (43, 0xE4), (44, 0x64), (45, 0x9B), (46, 0x93), (47, 0x4C), (48, 0xA4), (49, 0x95), (50, 0x99), (51, 0x1B), (52,
    0x78), (53, 0x52), (54, 0xB8), (55, 0x55), (252, 0xC2), (253, 0x69), (254, 0x5C), (255, 0x13)] }

/-- Boots: slot 0 is valid, slot 1 is erased (R416). -/
theorem test_boots : Boots imageDev 0 0 := by unfold Boots SlotGood; decide +kernel

/-- IslandsAndBoot: an island to bring up, a strait to train, a boot that is due, EN. -/
theorem test_islandsAndBoot_premises :
    let r : Region := { released := true }
    let t : Region := { upRegion with linkUp := false }
    let b : Power := { pwrOn with rtUp := false }
    let s := up.setReg (RegMap.rgnCtrl 0) 1
    r.islandRun = false ∧ r.released = true ∧ (({} : Region).released = false) ∧ t.islandRun = true ∧ t.clkFail = false ∧
    t.asleep = false ∧ t.linkUp = false ∧ up.pwr.core = true ∧ upRegion.episode = none ∧ ({ t with rejoined := false } : Region).rejoined = false ∧
    lostRegion.episode ≠ none ∧ b.core = true ∧ b.rtUp = false ∧ b.rtFail = false ∧ pwrOn.rtUp = true ∧
    Bits.bit (s.reg (RegMap.rgnCtrl 0)) 0 = true ∧ Bits.bit ((up.setReg (RegMap.rgnCtrl 0) 0).reg (RegMap.rgnCtrl 0)) 0 = false ∧
    (∀ p ∈ up.cells, p.2.state = .disabled) ∧ ((upCell { state := .on }).cell 0).state ≠ .disabled := by decide

/-- Every cell and slice of the device without cells is DISABLED or OFF. -/
theorem test_region_idle : (∀ c, c / 64 = 0 → (up.cell c).state = .disabled) ∧ ∀ j, j / 4 = 0 → (up.slice j).state = .off :=
  ⟨fun _ _ => rfl, fun _ _ => rfl⟩

/-- PowerModes: each reason against STANDBY but sleep, a region that may sleep, each wake source, a comparator that wakes. -/
theorem test_powerModes_blocks :
    StandbyBlock up 1 ∧ StandbyBlock ({ up with lk := { tables := [(0, { copies := [{ e := lockOff }] })] } }) 2 ∧
    StandbyBlock (up.setReg RegMap.bzCtrl 1) 3 ∧ StandbyBlock (up.setReg RegMap.fcErr 1) 5 :=
  ⟨.inl ⟨rfl, 0, by decide, rfl⟩, .inr (.inl ⟨rfl, 0, by decide, by decide⟩), .inr (.inr (.inl ⟨rfl, by decide⟩)),
    .inr (.inr (.inr (.inr ⟨rfl, by decide⟩)))⟩

theorem test_powerModes_operation :
    StandbyBlock ({ up with hp := { slots := [{ ring := 5, cmdId := 9, opcode := 0x105, barge := 0, token := 7, held := false }] } }) 4 :=
  .inr (.inr (.inr (.inl ⟨rfl, .inr ⟨_, List.mem_singleton.mpr rfl, rfl⟩⟩)))

/-- R424: with every region asleep and nothing under way no reason stands. -/
theorem test_powerModes_free :
    let s : Dev := (({ up with regions := (List.range 8).map (fun g => (g, { upRegion with asleep := true })) } : Dev).setReg
      RegMap.bzCtrl 0).setReg RegMap.fcErr 0
    ∀ n, ¬ StandbyBlock s n := by
  intro s n h
  rcases h with ⟨_, g, hg, hs⟩ | ⟨_, k, _, hk⟩ | ⟨_, h⟩ | ⟨_, ⟨k, o, _, ho, _⟩ | ⟨x, hx, _⟩⟩ | ⟨_, h⟩
  · revert hs; revert hg; revert g; decide
  · exact hk rfl
  · revert h; decide
  · exact nomatch ho
  · exact nomatch hx
  · revert h; decide

theorem test_maySleep : MaySleep (up.setReg (RegMap.rgnCtrl 0) 5) 0 :=
  ⟨by decide, by decide, fun _ _ => .inl rfl, fun _ _ => rfl, fun _ _ => ⟨rfl, rfl, rfl⟩, rfl, rfl, rfl⟩

theorem test_wakes :
    let s := (up.setReg (RegMap.twCfg 0) 0x80000).setReg RegMap.pwrWakeEn 0xC
    WakesTo s (.comparator 0) 0 true (fun k => k = 0) ∧ WakesTo s (.towpath 0) 1 false (fun k => k = 0) ∧
    WakesTo s .mgmt 2 true (fun _ => False) ∧ WakesTo s .supervisor 3 true (fun _ => False) ∧
    WakesTo s (.bar 1) 4 true (fun k => k < 8 ∧ (1 : Byte).getLsbD k = true) ∧
    WakesTo (s.setReg (RegMap.linkTrip 0) 0x00010100) (.linkTrip 0) 5 false (fun k => k = 0) ∧
    WakesTo s .reserve 6 true (fun _ => False) ∧ WakesTo s .collector 7 true (fun _ => False) :=
  ⟨⟨rfl, rfl, fun _ => Iff.rfl⟩, ⟨by decide, rfl, rfl, fun _ => Iff.rfl⟩, ⟨by decide, rfl, rfl, fun _ h => h⟩,
    ⟨by decide, rfl, rfl, fun _ h => h⟩, ⟨rfl, rfl, fun _ => Iff.rfl⟩, ⟨by decide, rfl, rfl, fun _ => Iff.rfl⟩,
    ⟨rfl, rfl, fun _ h => h⟩, ⟨rfl, rfl, fun _ h => h⟩⟩

/-- PowerModes: the ship and depleted latches; HostLink: LINK_LOSS, both cabinet links. -/
theorem test_shipAndLinks_premises :
    let s : Dev := { (up.setReg RegMap.tbLinkCfg 1).setReg RegMap.hpHbCfg 0x2000 with hp := { linkUp := true } }
    ({ path := 2, shipArmed := true, shipLatch := true, depleted := true } : Reserve).shipLatch = true ∧
    s.hp.linkUp = true ∧ Bits.bit (s.reg RegMap.hpHbCfg) 13 = true ∧ Bits.bit (s.reg RegMap.tbLinkCfg) 0 = true ∧
    Bits.bit (s.reg RegMap.tbLinkCfg) 1 = false ∧ (({ state := .up } : CabLink).state = .up) ∧ up.hp.linkUp = false := by decide

/-- R410, R418: the central die leaves power-on reset; R414: a strait that trains is up and its region rejoins. -/
theorem test_power_results :
    get1 (.powerOnResetRelease .central) { up with pwr := { pwrOn with centralUp := false, core := false } } (fun t =>
      (t.pwr.core, t.tb.running)) = some (true, true) ∧
    get1 (.straitTraining 0) { up with regions := [(0, { upRegion with linkUp := false, rejoined := false, islandLost := true })] }
      (fun t => ((t.region 0).linkUp, (t.region 0).rejoined, (t.region 0).islandLost)) = some (true, true, false) := by decide +kernel


/-! ### Debug port -/

/-- The device up, with an OPEN debug port and a HALTED barge 0. -/
def upDebug : Dev := { upBarge { runBarge with dbg := { halted := true } } with dbg := { granted := true } }

/-- DebugAccess: LOCKED and OPEN, WAIT, DENY, a key; DebugBarges: halts that wait, breakpoints, cross-triggers. -/
theorem test_debug_premises :
    let s := upDebug
    let w : Dev := { up with dbg := { waitTo := 10, deny := false } }
    let bp : Barge := { runBarge with dbg := { bps := [(0, 0x101)] } }
    s.debugOpen = true ∧ up.debugOpen = false ∧ w.elapsed < w.dbg.waitTo ∧ up.dbg.waitTo ≤ up.elapsed ∧ up.dbg.key = none ∧
    ({ key := some [0, 0, 0, 0] } : DebugPort).key ≠ none ∧ (s.barge 0).dbg.halted = true ∧ (s.barge 0).seized = false ∧
    ({ runBarge with dbg := { haltReq := some 1 } } : Barge).dbg.haltReq = some 1 ∧ runBarge.lq = [] ∧ runBarge.sb = [] ∧
    bp.breakAt ≠ none ∧ bp.mayIssue = true ∧ (Sparse.get (fun _ => 0) bp.dbg.bps 0).getLsbD 0 = true ∧
    (Sparse.get (fun _ => 0) bp.dbg.bps 0).toNat / 4 * 4 = bp.pc ∧ bp.dbg.skipBp = false ∧
    ({ runBarge with dbg := { xreq := true } } : Barge).dbg.xreq = true ∧ up.pwr.core = true ∧ State.reset.dev.pwr.core = false ∧
    (∀ f, f < 64 → ((1 : DWord).getLsbD f = true ↔ f = 0)) ∧ Bits.bit ((s.setReg RegMap.dbgCtrl 8).reg RegMap.dbgCtrl) 3 = true ∧
    (s.setReg RegMap.dbgCtrl 0).reg RegMap.dbgCtrl = 0 := by decide

/-- DebugBarges: an `add.i` under a step. -/
theorem test_debugStep_premises :
    let k : Barge := { runBarge with iram := [(0x103, 0x01), (0x102, 0x20)], dbg := { halted := true } }
    k.run = true ∧ k.waiting = false ∧ k.dbg.haltReq = none ∧ k.lq = [] ∧ k.sb = [] ∧ up.pwr.mode ≠ 2 ∧ k.breakAt = none ∧
    Barge.fetchable k.pc = true := by decide

/-- DebugMemory: each reason of FAULT, and memory of each kind that may be read. -/
theorem test_debugMemory_faults :
    NdlBad upDebug 0 2 false 4 ∧ NdlBad upDebug 1 0 false 1 ∧ NdlBad upDebug 8 0x40000000 false 2 ∧
    NdlBad upDebug 0x40 0x1000001 false 4 ∧ NdlBad upDebug 0x42 0 true 4 ∧ NdlBad upDebug 0x41 0x504 false 1 ∧
    NdlBad upDebug 0x40 0x500000 false 2 := by
  refine ⟨.inl ⟨by decide, .inl ⟨rfl, .inl (by decide)⟩⟩, .inl ⟨by decide, .inr (.inl ⟨rfl, rfl, by decide, .inl (by decide)⟩)⟩,
    .inl ⟨by decide, .inr (.inr ⟨rfl, rfl, by decide, by decide, rfl⟩)⟩, .inr (.inl ⟨rfl, .inl ⟨rfl, .inl (by decide)⟩⟩),
    .inr (.inr (.inr ⟨rfl, rfl, .inr (.inr rfl)⟩)), .inr (.inr (.inl ⟨rfl, .inr ⟨rfl, by decide, rfl, by decide,
      .inl (by decide)⟩⟩)), .inr (.inl ⟨rfl, .inr ⟨rfl, by decide, by decide, by decide, .inr ⟨rfl, .inl rfl⟩⟩⟩)⟩

theorem test_debugMemory_ram :
    NdlRam upDebug 0 0x100 8 ∧ NdlRam upDebug 0 0x10000 4 ∧ NdlRam upDebug 5 0x01000000 4 ∧ NdlRam upDebug 5 0x10000000 4 ∧
    NdlRam upDebug 0x42 0xE00000 4 := by unfold NdlRam; decide

/-- AuthGood, OpenOnly, flash addresses within and without the protected area. -/
theorem test_debugFlash_premises :
    OpenOnly (.dbgHalt 1) ∧ (0xE00000 : Nat) % 0x1000 = 0 ∧ ¬ (0xE00000 : Nat) < 0xE00000 ∧
    (∀ b, 0x1000 ≤ b → b < 0x1008 → upDebug.flashByte b = 0xFF) ∧ imageDev.flashByte 0 ≠ 0xFF := by
  refine ⟨.inl ⟨1, .inl rfl⟩, by decide, by decide, fun _ _ _ => rfl, by decide⟩

/-- R432: FLASH_ERASE of the protected area is refused with PROTECTED; R428: a LOCKED port answers DENIED. -/
theorem test_debug_results :
    get1 (.flashErase 0x42 0xE00000) upDebug (fun t => (t.dbg.reason, t.out)) = some (3, [Out.serial 2 [4]]) ∧
    get1 (.flashErase 0x42 0) up (fun t => t.out) = some [Out.serial 2 [8]] ∧
    get1 (.memRead 0x42 0 0) { upDebug with flash := [(1, 7)] } (fun t => t.out) = some [Out.serial 2 [1, 0xFF, 7, 0xFF, 0xFF]] := by
  decide

/-- R440: IDCODE. -/
theorem test_idcode : get1 .idcode up (fun t => t.out) = some [Out.serial 3 [0x4B, 0x26, 0x51, 0x19]] := by decide


/-! ### Legacy node view -/

/-- The device up, with the node view of 16 nodes from block 0 and a mailbox command of node 0. -/
def upNode (cmd arg : Word) (x : Cell) : Dev :=
  { (upCell x).setReg RegMap.hpLvCfg 0x1001 with
    nodes := [(0, { mbox := .busy, flight := some { cmd := cmd, arg0 := arg, arg1 := 0, token := 7, held := false } })] }

/-- LegacyCommands: a command that waits, one that is malformed, a region that takes commands and one that does not. -/
theorem test_legacyCommands_premises :
    let m : MboxCmd := { cmd := 1, arg0 := 0, arg1 := 0, token := 7, held := false }
    let s := upNode 1 0 { state := .off }
    LvWaits s 0 1 m ∧ ¬ LvBad m ∧ LvBad { m with cmd := 0x1001 } ∧ LvOpen s 0 ∧ Bits.bit m.cmd 11 = false ∧
    Bits.bit (0x802 : Word) 11 = true ∧ s.auto (LvHome s 0 / 8) = false ∧ m.arg0.toNat < 2 ^ 24 ∧
    Prof.legal (s.candidate 0 []) = true ∧ s.profBusy 0 [(3, 0x00FFFFFF, 0)] = false ∧
    ({ state := .tripped } : Cell).evaluated = false := by unfold LvWaits LvServed LvBad LvOpen; decide

/-- LegacyCommands: the rows of Table 20-4. -/
theorem test_legacyCommands_rows :
    LvRow 0 (.lvOn 0) 1 ∧ LvRow 0 (.readEnergy 0) 0x20 ∧ LvNative 0 (desc 5 1 0 []) (.lvReset 0) (.chReset (desc 5 1 0 [])) 3 0x104 :=
  ⟨.inl ⟨rfl, rfl⟩, .inr (.inr (.inr (.inr (.inr (.inr (.inr (.inl ⟨rfl, rfl⟩))))))), .inr (.inr (.inl ⟨rfl, rfl, rfl, rfl⟩))⟩

/-- LegacyImages: a completion for the node, a flight that no barge took, a home barge that runs. -/
theorem test_legacyImages_premises :
    let s := upNode 1 0 {}
    let k : Completion := { cmdRing := 2 ^ 20, cmdId := 0, opcode := 0, status := 0 }
    let q : Dev := { s with complq := [k], barges := [(0, runBarge)] }
    q.complq = [] ++ k :: [] ∧ k.cmdRing = 2 ^ 20 + 0 ∧ (s.node 0).flight.isSome = true ∧ s.complq = [] ∧ LvServed q 0 ∧
    (q.barge 0).run = true ∧ (q.barge 0).seized = false ∧ (q.barge 0).dbg.halted = false ∧ q.auto 0 = false ∧
    ¬ LvServed up 0 ∧ ¬ LvServed q 16 := by unfold LvServed; decide

/-- Table 20-4: LV_ON of a cell in OFF. -/
theorem test_legacy_on : get1 (.lvOn 0) (upNode 1 0 { state := .off }) (fun t => (t.cell 0).state) = some .precheck := by decide


/-! ### Register writes -/

/-- RegisterWrites: plain and stopped words, windows that answer and not, halves, node windows. -/
theorem test_registerWrites_premises :
    let s := up.setReg (RegMap.rgnCtrl 0) 1
    let n := up.setReg RegMap.hpLvCfg 0x1001
    HostWrites up ∧ up.pwr.core = true ∧
    ({ pwrOn with mode := 2 } : Power).mode = 2 ∧ Bits.bit (up.reg 0x20000) 0 = false ∧
    Bits.bit ((up.setReg 0x20000 1).reg 0x20000) 0 = true ∧ WindowAnswers s 0 ∧ s.straitUp 1 = false ∧
    (RegMap.info 4).listed = true ∧ (RegMap.info 0xFC).listed = false ∧ LvServed n 0 ∧ ¬ LvServed n 16 ∧
    RegMap.window 0 ≤ RegMap.mtrCfg 0 ∧ RegMap.mtrCfg 0 < RegMap.window 1 ∧ RegMap.window 0 ≤ RegMap.cs 0 0x10 ∧
    RegMap.cs 0 0x10 < RegMap.window 1 ∧ (up.slice 0).state = .off ∧ up.hp.pba = [] := by
  unfold HostWrites WindowAnswers LvServed; decide

theorem test_registerWrites_words :
    PlainWord 0x10008 0xC ∧ PlainWord 0x21004 0x1FFFFF ∧ StoppedWord 0x20010 0x20000 0x1F ∧
    StoppedWord 0x40044 0x40000 0x800FFFFF :=
  ⟨.inl ⟨rfl, rfl⟩, .inr (.inl (by decide)), .inl ⟨rfl, rfl, rfl⟩, .inr (.inr (.inl (by decide)))⟩

/-- R3, R455: a write of 4 bytes at a multiple of 4 acts; another size is counted. -/
theorem test_register_results :
    get1 (.registerWrite (.bar0 0x10008) 4 0xFF) up (fun t => (t.reg 0x10008).toNat % 16) = some 0xC ∧
    get1 (.registerWrite (.bar0 0x10008) 2 0xFF) up (fun t => (t.badSize, t.rsvdWrites)) = some (true, 1) := by decide


/-! ### Worked examples of the spec -/

/-- The example after R150: one 20 ms window on the ±50 mV range with a 10 mOhm shunt, and the fast code of the same current. -/
theorem test_window_example :
    let s := prof0 up 0 4
    Conv.windowValue 248992 401600 = 2013265 ∧ s.valueUa 0 2013265 = 1199999 ∧ s.codeUa 0 7864 = 1199951 := by decide

/-- The example after R175: the gain of EXT_SPAN. -/
theorem test_gain_example : Cal.round (2 ^ 30 * 6710886) (6696000 - (-1200)) = 1075936059 := by decide

/-- The example after R311: C with N_SEG = 4096. -/
theorem test_basin_example : (up.setReg RegMap.bzSegCfg 4096).bzCap = 5726621696 := by decide

/-- R345 and its example: the charge timer advances at half rate while a loop holds the current below half of I_CHG. -/
theorem test_charge_timer :
    get1 (.safetyTimerStep true false true) (upRv { chg := 3 }) (fun t => t.rv.chgMs) = some 50 ∧
    get1 (.safetyTimerStep true false false) (upRv { chg := 3 }) (fun t => t.rv.chgMs) = some 100 := by decide


/-! ### The whole block -/

/-- The premises of the invariants hold at reset. -/
theorem test_imagesFit_reset : ImagesFit State.reset.dev := fun _ _ _ _ _ _ _ _ _ h => nomatch h
theorem test_bargesFit_reset : BargesFit State.reset.dev := fun _ =>
  ⟨Nat.zero_le _, Nat.zero_le _, Nat.zero_le _, Nat.zero_le _, Nat.zero_le _⟩
theorem test_sliceSafe_reset : SliceSafe State.reset.dev :=
  fun _ => ⟨fun ⟨h, _⟩ => (by cases h), fun _ => ⟨rfl, rfl⟩, fun _ => rfl⟩
theorem test_canonical_reset : Canonical State.reset.dev := ⟨State.reset_memWf, fun _ => ⟨rfl, rfl⟩, rfl⟩

/-- A step takes the command at the front; with nothing waiting one tick of 8 ns passes. -/
theorem test_step_front : runs 2 { pending := [.busMasterEnable true, .clamp] } =
    runs 1 { dev := { hp := { bme := true } }, pending := [.clamp] } := by rfl

/-- Commands that answer a next state and keep the rest of the queue, for PartWriters. -/
theorem test_partWriters_premises : ∃ t, exec .clamp State.reset = .next t ∧ t.pending = [] := ⟨_, rfl, rfl⟩

/-! ### Well-formedness: one ill-formed command for each check -/

/-- A descriptor with fourteen parameter words. -/
def longDesc : Desc := desc 0 0 0 (List.replicate 14 0)

theorem test_wf_desc :
    longDesc.wf = false ∧ (desc 0 0 0 (List.replicate 13 0)).wf = true ∧ (Instr.chOn longDesc).wf = false ∧
    (Instr.devInfo longDesc).wf = false ∧ (Instr.flashUpdate longDesc).wf = false ∧ (Instr.rsvKick longDesc).wf = false := by decide

theorem test_wf_lists :
    (Instr.decimationBoundary 0 { i := [], v := List.replicate 8 0, vin := 0, after16 := 0, osr16 := false }).wf = false ∧
    (Instr.windowEnd (.cell 0) 5 0 4).wf = false ∧ (Instr.windowEnd (.cell 0) 4 4 4).wf = true ∧
    (Instr.profileWrite (desc 0 0 0 []) (some [])).wf = false ∧ (Instr.opStep 0 (.entries [[]] true)).wf = false ∧
    (Instr.transactionEnd 0 (.done (List.replicate 257 0) none)).wf = false ∧
    (Instr.transactionEnd 0 (.aborted (List.replicate 257 0))).wf = false ∧
    (Instr.sclLowTimeout 0 (List.replicate 257 0) true).wf = false ∧
    (Instr.targetWrite 0 0 (List.replicate 256 0) none).wf = false ∧
    (Instr.mgMboxWrite (List.replicate 256 0) none).wf = false ∧ (Instr.memWrite 0 0 []).wf = false ∧
    (Instr.memWrite 0 0 (List.replicate 257 0)).wf = false ∧ (Instr.flashProg 0 0 []).wf = false ∧
    (Instr.rsvStopLoad (desc 0 0 0 []) (some (List.replicate 33 lockOff))).wf = false := by decide +kernel

theorem test_wf_vin :
    (Instr.auxConversionEnd 0 0 (some { mean := 3, lo := 4, hi := 5 })).wf = false ∧
    (Instr.auxConversionEnd 0 0 (some { mean := 6, lo := 4, hi := 5 })).wf = false ∧
    (Instr.auxConversionEnd 0 0 (some { mean := 4, lo := 4, hi := 5 })).wf = true := by decide

theorem test_wf_segTable : (Instr.segTableLoad (some (List.replicate 4097 0))).wf = false := by
  show decide ((List.replicate 4097 (0 : DWord)).length ≤ 4096) = false
  rw [List.length_replicate]; decide

end Sys2Proof.Tests
end

section
/-! SUPPORT. The straits: words, the declaration of a loss at each end, and the island clock failure (spec/01 R20 to R30),
with what an event of a fault source does to the latched bits (spec/17). -/

namespace Sys2Proof.Machine

/-! ### Showing an effect -/

/-- A command that answers the device `d`: its frame by a blanking mask, its effect by `q`. -/
theorem Does.of_next {i : Instr} {s : State} {ps : List Part} {q : Dev → Prop} {m : Nat} {d : Dev}
    (hi : exec i s = .next { s with dev := d }) (hd : Dev.hide m d = Dev.hide m s.dev)
    (hm : ∀ p, p ∉ ps → m.testBit p.ctorIdx = false) (hq : q d) : Does i s ps q :=
  ⟨_, hi, rfl, Keeps.of_hide hd hm, hq⟩

/-! ### Events of fault sources -/

theorem Dev.noteEvent_latched (s : Dev) (k src n : Nat) (inj : Bool) :
    ((s.noteEvent k src n inj).coll k).latched = (s.coll k).latched ||| (1#128 <<< src) := by
  simp [Dev.noteEvent]

theorem Dev.noteEvent_coll_ne (s : Dev) (k src n : Nat) (inj : Bool) (j : Nat) (h : j ≠ k) :
    (s.noteEvent k src n inj).coll j = s.coll j :=
  Dev.coll_setColl_ne _ _ _ _ h

theorem Dev.reactEvent_latched (s : Dev) (k src info t : Nat) (deferred inj : Bool) (j : Nat) :
    ((s.reactEvent k src info t deferred inj).coll j).latched = (s.coll j).latched :=
  congrFun (Dev.reactEvent_latch s k src info t deferred inj rfl) j

/-- No event clears a latched bit. -/
theorem Dev.occur_keeps_latched {s : Dev} {j i : Nat} (k src info : Nat) (h : (s.coll j).latched.getLsbD i = true) :
    ((s.occur k src info).coll j).latched.getLsbD i = true := by
  unfold Dev.occur Dev.occurAt
  split
  · exact h
  split
  · exact h
  rw [Dev.reactEvent_latched]
  by_cases hj : j = k
  · subst hj
    rw [Dev.noteEvent_latched, BitVec.getLsbD_or, h, Bool.true_or]
  · rwa [Dev.noteEvent_coll_ne _ _ _ _ _ _ hj]

/-- An event of a source that is no level source latches its bit. -/
theorem Dev.occur_latches (s : Dev) (k src info : Nat) (hres : Fc.reserved k src = false) (hlev : Fc.level k src = false)
    (hsrc : src < 128) : ((s.occur k src info).coll k).latched.getLsbD src = true := by
  unfold Dev.occur Dev.occurAt
  rw [hres, hlev]
  simp [Dev.reactEvent_latched, Dev.noteEvent_latched, hsrc]

/-- Two records of one fate agree in every field that the fate keeps. -/
theorem Region.eq_of_fate {α : Type} (f : Region → α) {r r' : Region} (h : r.fate = r'.fate)
    (hf : ∀ r : Region, f r.fate = f r := by exact fun _ => rfl) : f r = f r' := by
  rw [← hf r, h, hf r']

theorem Dev.occur_region_fate (s : Dev) (k src info g : Nat) :
    ((s.occur k src info).region g).fate = (s.region g).fate :=
  congrFun (Dev.occur_fate s k src info rfl) g

/-- The blanking mask of what an event of a fault source may touch. -/
def Dev.faultParts : Nat := 846685936644267521

theorem Dev.occur_hide_faultParts (s : Dev) (k src info : Nat) :
    Dev.hide Dev.faultParts (s.occur k src info) = Dev.hide Dev.faultParts s :=
  Dev.occur_hide rfl s k src info rfl

@[simp] theorem Dev.occur_tbTime (s : Dev) (k src info : Nat) : (s.occur k src info).tbTime = s.tbTime :=
  Dev.hide_keeps (s.occur_hide_faultParts k src info) .tbTime rfl

@[simp] theorem Dev.occur_sluice (s : Dev) (k src info : Nat) : (s.occur k src info).sluice = s.sluice :=
  Dev.hide_keeps (s.occur_hide_faultParts k src info) .sluice rfl

@[simp] theorem Dev.occur_grants (s : Dev) (k src info : Nat) : (s.occur k src info).grants = s.grants :=
  Dev.hide_keeps (s.occur_hide_faultParts k src info) .grants rfl

@[simp] theorem Dev.occur_rtime (s : Dev) (k src info g : Nat) : (s.occur k src info).rtime g = s.rtime g := by
  have hoff : ((s.occur k src info).region g).replicaOff = (s.region g).replicaOff :=
    Region.eq_of_fate (·.replicaOff) (s.occur_region_fate k src info g)
  rw [Dev.rtime, Dev.rtime, hoff, Dev.occur_tbTime]

/-! ### The loss at the island end (R22, R23, R26) -/

/-- A replica that does not become LOCKED releases no cell. -/
theorem Dev.replicaState_of_ne_locked (s : Dev) (g : Nat) {st : ReplicaState} (h : st ≠ .locked) :
    s.replicaState g st = s.modRegion g (fun r => { r with replica := st, holdover := decide (st = .holdover) }) := by
  simp [Dev.replicaState, h]

/-- The slices of a region touch no collector. -/
@[simp] theorem Dev.slicesLost_colls (s : Dev) (g : Nat) : (s.slicesLost g).colls = s.colls :=
  Dev.hide_keeps (Dev.slicesLost_hide (m := 18014404985493504) rfl s g rfl) .colls rfl

/-- What every step keeps, the whole run keeps. -/
theorem Dev.forEach_induct {α : Type} {P : Dev → Prop} {f : Dev → α → Dev} (hf : ∀ t a, P t → P (f t a)) (l : List α) :
    ∀ s : Dev, P s → P (s.forEach l f) := by
  induction l with
  | nil => exact fun _ h => h
  | cons a l ih => exact fun s h => ih _ (hf s a h)

theorem Dev.lossApplied_keeps_latched {s : Dev} {j i : Nat} (g : Nat) (h : (s.coll j).latched.getLsbD i = true) :
    ((s.lossApplied g).coll j).latched.getLsbD i = true := by
  have hs : ((s.slicesLost g).coll j).latched.getLsbD i = true := by
    rwa [Dev.coll, Dev.slicesLost_colls]
  exact Dev.forEach_induct (P := fun t => (t.coll j).latched.getLsbD i = true)
    (fun _ _ ht => Dev.occur_keeps_latched _ _ _ ht) _ _ hs

theorem Dev.lossApplied_region_fate (s : Dev) (g j : Nat) : ((s.lossApplied g).region j).fate = (s.region j).fate :=
  congrFun (Dev.lossApplied_fate s g rfl) j

/-- The record of region `g` when its island end declares the loss. -/
def Dev.lossRegion (s : Dev) (g : Nat) : Region :=
  let r := s.region g
  { r with
    islandLost := true, restored := false, rejoined := false, rejoinReq := false, badIsland := 0
    episode := if r.rejoined then some (Episode.start (s.rtime g) r.autoWord) else r.episode
    mirrorHeld := some (s.mirrorOf g), replica := .holdover, holdover := true }

/-- A first declaration: the region's record, then the event of STRAIT_LOSS, then the slices. -/
theorem Dev.islandLoss_eq (s : Dev) (g : Nat) (h : (s.region g).islandLost = false) :
    ∃ t : Dev, t.region g = s.lossRegion g ∧ t.colls = s.colls ∧
      s.islandLoss g = (t.occur g 65 0xFFFFFFFF).lossApplied g := by
  refine ⟨_, ?_, ?_, by simp only [Dev.islandLoss, h]; rfl⟩
  · simp [Dev.replicaState_of_ne_locked, Dev.modRegion_eq, Dev.lossRegion]
  · simp [Dev.replicaState_of_ne_locked, Dev.modRegion_eq]

theorem Dev.islandLoss_region_fate (s : Dev) (g : Nat) (h : (s.region g).islandLost = false) :
    ((s.islandLoss g).region g).fate = (s.lossRegion g).fate := by
  obtain ⟨t, hreg, -, heq⟩ := s.islandLoss_eq g h
  rw [heq, Dev.lossApplied_region_fate, Dev.occur_region_fate, hreg]

theorem Dev.islandLoss_keeps_latched {s : Dev} {j i : Nat} (g : Nat) (h : (s.coll j).latched.getLsbD i = true) :
    ((s.islandLoss g).coll j).latched.getLsbD i = true := by
  cases hl : (s.region g).islandLost
  case true => rwa [Dev.islandLoss, if_pos hl]
  case false =>
    obtain ⟨t, -, hcolls, heq⟩ := s.islandLoss_eq g hl
    rw [heq]
    refine Dev.lossApplied_keeps_latched g (Dev.occur_keeps_latched _ _ _ ?_)
    rwa [Dev.coll, hcolls]

/-- What the declaration at the island end leaves in `t`, from the device `s` before the command (R22, R23, R26). -/
def Dev.IslandDeclared (g : Nat) (s t : Dev) : Prop :=
  (t.region g).islandLost = true ∧ t.auto g = true ∧ (t.region g).replica = .holdover ∧
    (t.region g).episode = if (s.region g).rejoined = true then some (Episode.start (s.rtime g) (s.region g).autoWord)
      else (s.region g).episode

theorem Dev.islandLoss_declared (s : Dev) (g : Nat) (h : (s.region g).islandLost = false) :
    Dev.IslandDeclared g s (s.islandLoss g) := by
  have hr := s.islandLoss_region_fate g h
  have hjoin : ((s.islandLoss g).region g).rejoined = false := Region.eq_of_fate (·.rejoined) hr
  exact ⟨Region.eq_of_fate (·.islandLost) hr, by rw [Dev.auto, hjoin]; rfl, Region.eq_of_fate (·.replica) hr,
    Region.eq_of_fate (·.episode) hr⟩

/-! ### The loss at the central end (R22, R25) -/

/-- The record of region `g` when its central end declares the loss (Table 1-8). -/
def Dev.centralLossRegion (s : Dev) (g : Nat) : Region :=
  let r := s.region g
  { r with
    linkUp := false, autonomous := true, lossSeen := true, lossCount := Bits.satAdd 255 r.lossCount 1, badCentral := 0 }

/-- STRAIT_STATE reaches the barges only. -/
theorem Dev.straitIrq_hide_barges (s : Dev) (g : Nat) : Dev.hide 4096 (s.straitIrq g) = Dev.hide 4096 s :=
  Dev.straitIrq_hide rfl s g rfl

@[simp] theorem Dev.straitIrq_region (s : Dev) (g j : Nat) : (s.straitIrq g).region j = s.region j := by
  have h : (s.straitIrq g).regions = s.regions := Dev.hide_keeps (s.straitIrq_hide_barges g) .regions rfl
  rw [Dev.region, h]; rfl

@[simp] theorem Dev.straitIrq_coll (s : Dev) (g j : Nat) : (s.straitIrq g).coll j = s.coll j := by
  have h : (s.straitIrq g).colls = s.colls := Dev.hide_keeps (s.straitIrq_hide_barges g) .colls rfl
  rw [Dev.coll, h]; rfl

@[simp] theorem Dev.straitIrq_sluice (s : Dev) (g : Nat) : (s.straitIrq g).sluice = s.sluice :=
  Dev.hide_keeps (s.straitIrq_hide_barges g) .sluice rfl

@[simp] theorem Dev.straitIrq_grants (s : Dev) (g : Nat) : (s.straitIrq g).grants = s.grants :=
  Dev.hide_keeps (s.straitIrq_hide_barges g) .grants rfl

/-- The records on their way to the central die are dropped: the frames of the region's blocks and its slice records. -/
def Dev.dropRecords (s : Dev) (g : Nat) : Dev :=
  let s := s.forEach (List.range 8) (fun s i => s.modConv (8 * g + i) (fun k => { k with frames := [] }))
  { s with sliceQ := s.sliceQ.filter (fun r => r.slice / 4 != g) }

/-- It touches the slice records, part 26, and the conversion units, part 28. -/
theorem Dev.dropRecords_hide (s : Dev) (g : Nat) :
    Dev.hide (2 ^ 26 + 2 ^ 28) (s.dropRecords g) = Dev.hide (2 ^ 26 + 2 ^ 28) s :=
  Dev.hide_upd_26 rfl (Dev.forEach_hide rfl _ _ s (fun t i _ ht => Dev.modConv_hide rfl t (8 * g + i) _ ht) rfl)

/-- A first declaration at the central end, step by step. -/
theorem Dev.centralLoss_eq (s : Dev) (g src : Nat) (h : (s.region g).linkUp = true) :
    s.centralLoss g src =
      ((((s.setRegion g (s.centralLossRegion g)).freezeSluice g).dropRecords g).occur 8 src 0xFFFFFFFF).straitIrq g := by
  simp only [Dev.centralLoss, h]; rfl

theorem Dev.centralLoss_region_fate (s : Dev) (g src : Nat) (h : (s.region g).linkUp = true) :
    ((s.centralLoss g src).region g).fate = (s.centralLossRegion g).fate := by
  have hdrop : (((s.setRegion g (s.centralLossRegion g)).freezeSluice g).dropRecords g).regions =
      (s.setRegion g (s.centralLossRegion g)).regions := Dev.hide_keeps (Dev.dropRecords_hide _ g) .regions rfl
  rw [Dev.centralLoss_eq s g src h, Dev.straitIrq_region, Dev.occur_region_fate, Dev.region, hdrop]
  exact congrArg Region.fate (Dev.region_setRegion_same s g _)

theorem Dev.centralLoss_sluice (s : Dev) (g src : Nat) (h : (s.region g).linkUp = true) :
    (s.centralLoss g src).sluice = (s.freezeSluice g).sluice := by
  rw [Dev.centralLoss_eq s g src h, Dev.straitIrq_sluice, Dev.occur_sluice]
  exact Dev.hide_keeps (Dev.dropRecords_hide _ g) .sluice rfl

theorem Dev.centralLoss_grants (s : Dev) (g src : Nat) (h : (s.region g).linkUp = true) :
    (s.centralLoss g src).grants = (s.freezeSluice g).grants := by
  rw [Dev.centralLoss_eq s g src h, Dev.straitIrq_grants, Dev.occur_grants]
  exact Dev.hide_keeps (Dev.dropRecords_hide _ g) .grants rfl

theorem Dev.centralLoss_keeps_latched {s : Dev} {j i : Nat} (g src : Nat) (h : (s.coll j).latched.getLsbD i = true) :
    ((s.centralLoss g src).coll j).latched.getLsbD i = true := by
  cases hl : (s.region g).linkUp
  case false => rwa [Dev.centralLoss, if_pos (by rw [hl]; rfl)]
  case true =>
    have hdrop : (((s.setRegion g (s.centralLossRegion g)).freezeSluice g).dropRecords g).colls = s.colls :=
      Dev.hide_keeps (Dev.dropRecords_hide _ g) .colls rfl
    rw [Dev.centralLoss_eq s g src hl, Dev.straitIrq_coll]
    refine Dev.occur_keeps_latched _ _ _ ?_
    rwa [Dev.coll, hdrop]

/-- What the declaration at the central end leaves in `t`, from the device `s` before the command (R22, R25). -/
def Dev.CentralDeclared (g : Nat) (s t : Dev) : Prop :=
  (t.region g).linkUp = false ∧ (t.region g).autonomous = true ∧ (t.region g).lossSeen = true ∧
    (t.region g).lossCount = min 255 ((s.region g).lossCount + 1) ∧
    t.sluice = (s.freezeSluice g).sluice ∧ t.grants = (s.freezeSluice g).grants

theorem Dev.centralLoss_declared (s : Dev) (g src : Nat) (h : (s.region g).linkUp = true) :
    Dev.CentralDeclared g s (s.centralLoss g src) := by
  have hr := s.centralLoss_region_fate g src h
  exact ⟨Region.eq_of_fate (·.linkUp) hr, Region.eq_of_fate (·.autonomous) hr, Region.eq_of_fate (·.lossSeen) hr,
    Region.eq_of_fate (·.lossCount) hr, s.centralLoss_sluice g src h, s.centralLoss_grants g src h⟩

theorem Dev.straitLoss_central_declared (s : Dev) (g : Nat) (h : (s.region g).linkUp = true) :
    Dev.CentralDeclared g s (s.straitLoss g .central) :=
  s.centralLoss_declared g _ h

/-- A loss at the central end, declared already or not, leaves the island's side of the region. -/
theorem Dev.centralLoss_islandSide (s : Dev) (g src : Nat) :
    ((s.centralLoss g src).region g).clkFail = (s.region g).clkFail ∧
      ((s.centralLoss g src).region g).islandLost = (s.region g).islandLost := by
  cases hl : (s.region g).linkUp
  case false =>
    rw [Dev.centralLoss, if_pos (by rw [hl]; rfl)]
    exact ⟨rfl, rfl⟩
  case true =>
    have hr := s.centralLoss_region_fate g src hl
    exact ⟨(Region.eq_of_fate (·.clkFail) hr :), (Region.eq_of_fate (·.islandLost) hr :)⟩

/-! ### Words (R21, R22) -/

/-- An uncorrectable word is counted and recorded, at the island end, before a loss is declared. -/
def Dev.badIslandWord (s : Dev) (g : Nat) : Dev :=
  (s.setRegion g { s.region g with badIsland := (s.region g).badIsland + 1 }).occur g 64 0xFFFFFFFF

/-- An uncorrectable word is counted and recorded, at the central end, before a loss is declared. -/
def Dev.badCentralWord (s : Dev) (g : Nat) : Dev :=
  (s.setRegion g { s.region g with badCentral := (s.region g).badCentral + 1 }).occur 8 36 g

theorem Dev.badIslandWord_region_fate (s : Dev) (g : Nat) :
    ((s.badIslandWord g).region g).fate = { s.region g with badIsland := (s.region g).badIsland + 1 }.fate := by
  rw [Dev.badIslandWord, Dev.occur_region_fate, Dev.region_setRegion_same]

theorem Dev.badCentralWord_region_fate (s : Dev) (g : Nat) :
    ((s.badCentralWord g).region g).fate = { s.region g with badCentral := (s.region g).badCentral + 1 }.fate := by
  rw [Dev.badCentralWord, Dev.occur_region_fate, Dev.region_setRegion_same]

theorem Dev.badIslandWord_rtime (s : Dev) (g : Nat) : (s.badIslandWord g).rtime g = s.rtime g := by
  rw [Dev.badIslandWord, Dev.occur_rtime]
  simp [Dev.rtime]

/-- STRAIT_UNCORRECTED of a region, source 64, is an event source (Table 17-2). -/
theorem Dev.badIslandWord_latched (s : Dev) (g : RegionIx) : ((s.badIslandWord g).coll g).latched.getLsbD 64 = true :=
  Dev.occur_latches _ _ _ _ (by simp [Fc.reserved]) (by simp [Fc.level]) (by decide)

/-- STRAIT_UNCORRECTED of the chip, source 36, is an event source (Table 17-3). -/
theorem Dev.badCentralWord_latched (s : Dev) (g : Nat) : ((s.badCentralWord g).coll 8).latched.getLsbD 36 = true :=
  Dev.occur_latches _ _ _ _ rfl rfl (by decide)

/-- Below four in a row the word is only counted and recorded. -/
theorem Dev.straitWord_island_few (s : Dev) (g : Nat) (h : (s.region g).badIsland < 3) :
    s.straitWord g .island .uncorrectable = s.badIslandWord g := by
  have hn : ((s.badIslandWord g).region g).badIsland = (s.region g).badIsland + 1 :=
    Region.eq_of_fate (·.badIsland) (s.badIslandWord_region_fate g)
  exact if_neg (by change ¬ 4 ≤ ((s.badIslandWord g).region g).badIsland; omega)

theorem Dev.straitWord_central_few (s : Dev) (g : Nat) (h : (s.region g).badCentral < 3) :
    s.straitWord g .central .uncorrectable = s.badCentralWord g := by
  have hn : ((s.badCentralWord g).region g).badCentral = (s.region g).badCentral + 1 :=
    Region.eq_of_fate (·.badCentral) (s.badCentralWord_region_fate g)
  exact if_neg (by change ¬ 4 ≤ ((s.badCentralWord g).region g).badCentral; omega)

/-- The fourth in a row declares the loss. -/
theorem Dev.straitWord_island_fourth (s : Dev) (g : Nat) (h : 3 ≤ (s.region g).badIsland) :
    s.straitWord g .island .uncorrectable = (s.badIslandWord g).islandLoss g := by
  have hn : ((s.badIslandWord g).region g).badIsland = (s.region g).badIsland + 1 :=
    Region.eq_of_fate (·.badIsland) (s.badIslandWord_region_fate g)
  exact if_pos (by change 4 ≤ ((s.badIslandWord g).region g).badIsland; omega)

theorem Dev.straitWord_central_fourth (s : Dev) (g : Nat) (h : 3 ≤ (s.region g).badCentral) :
    s.straitWord g .central .uncorrectable = (s.badCentralWord g).straitLoss g .central := by
  have hn : ((s.badCentralWord g).region g).badCentral = (s.region g).badCentral + 1 :=
    Region.eq_of_fate (·.badCentral) (s.badCentralWord_region_fate g)
  exact if_pos (by change 4 ≤ ((s.badCentralWord g).region g).badCentral; omega)

theorem Dev.straitWord_island_latched (s : Dev) (g : RegionIx) :
    ((s.straitWord g .island .uncorrectable).coll g).latched.getLsbD 64 = true := by
  rcases Nat.lt_or_ge (s.region g).badIsland 3 with h | h
  · rw [Dev.straitWord_island_few s g h]
    exact s.badIslandWord_latched g
  · rw [Dev.straitWord_island_fourth s g h]
    exact Dev.islandLoss_keeps_latched g (s.badIslandWord_latched g)

theorem Dev.straitWord_central_latched (s : Dev) (g : Nat) :
    ((s.straitWord g .central .uncorrectable).coll 8).latched.getLsbD 36 = true := by
  rcases Nat.lt_or_ge (s.region g).badCentral 3 with h | h
  · rw [Dev.straitWord_central_few s g h]
    exact s.badCentralWord_latched g
  · rw [Dev.straitWord_central_fourth s g h]
    exact Dev.centralLoss_keeps_latched g _ (s.badCentralWord_latched g)

/-- The fourth uncorrectable word in a row is a loss at the island end, of the region as it was before the word. -/
theorem Dev.straitWord_island_declared (s : Dev) (g : Nat) (hbad : 3 ≤ (s.region g).badIsland)
    (hlost : (s.region g).islandLost = false) : Dev.IslandDeclared g s (s.straitWord g .island .uncorrectable) := by
  have hr := s.badIslandWord_region_fate g
  have hjoin : ((s.badIslandWord g).region g).rejoined = (s.region g).rejoined := (Region.eq_of_fate (·.rejoined) hr :)
  have hword : ((s.badIslandWord g).region g).autoWord = (s.region g).autoWord := (Region.eq_of_fate (·.autoWord) hr :)
  have hep : ((s.badIslandWord g).region g).episode = (s.region g).episode := (Region.eq_of_fate (·.episode) hr :)
  have hdecl := (s.badIslandWord g).islandLoss_declared g ((Region.eq_of_fate (·.islandLost) hr :).trans hlost)
  rw [Dev.straitWord_island_fourth s g hbad]
  rwa [Dev.IslandDeclared, hjoin, hword, hep, Dev.badIslandWord_rtime] at hdecl

/-- The fourth uncorrectable word in a row is a loss at the central end, of the device as it was before the word. -/
theorem Dev.straitWord_central_declared (s : Dev) (g : Nat) (hbad : 3 ≤ (s.region g).badCentral)
    (hup : (s.region g).linkUp = true) : Dev.CentralDeclared g s (s.straitWord g .central .uncorrectable) := by
  have hr := s.badCentralWord_region_fate g
  have hcount : ((s.badCentralWord g).region g).lossCount = (s.region g).lossCount := (Region.eq_of_fate (·.lossCount) hr :)
  have hsl : (s.badCentralWord g).sluice = s.sluice := Dev.occur_sluice _ _ _ _
  have hgr : (s.badCentralWord g).grants = s.grants := Dev.occur_grants _ _ _ _
  rw [Dev.straitWord_central_fourth s g hbad]
  have hdecl := (s.badCentralWord g).straitLoss_central_declared g ((Region.eq_of_fate (·.linkUp) hr :).trans hup)
  simpa only [Dev.CentralDeclared, Dev.freezeSluice, hcount, hsl, hgr] using hdecl

/-! ### The island analog watchdog (R30) -/

theorem Bits.nbit_eq_testBit (w i : Nat) : Bits.nbit w i = w.testBit i := by
  rw [Nat.testBit_eq_decide_div_mod_eq, Bits.nbit, Nat.shiftRight_eq_div_pow]
  rfl

/-- Every trip line of a region whose clock has failed is held. -/
theorem Dev.driven_of_clkFail (s : Dev) (g : Nat) (h : (s.region g).clkFail = true) (i : Nat) (hi : i < 8) :
    Bits.nbit (s.driven g) i = true := by
  have hall : Nat.testBit 255 i = true := (Nat.testBit_two_pow_sub_one 8 i).trans (decide_eq_true hi)
  simp [Bits.nbit_eq_testBit, Dev.driven, h, hall]

/-- The island's own part of a clock failure: the region's record, the gates, the slices and EXT_SEEN. -/
def Dev.clockFailIsland (s : Dev) (g : Nat) : Dev :=
  let s := s.modRegion g (fun r => { r with clkFail := true, islandLost := true, restored := false, rejoined := false })
  let s := s.forEach (cellsOf g) (fun s c => s.modCell c (fun x => { x with gate := .controlled, passiveHold := true }))
  let s := s.forEach (List.range 4) (fun s i => s.modSlice (4 * g + i) (fun x => { x with hs := false, ls := false }))
  s.extUpdate g

theorem Dev.islandClockFail_eq (s : Dev) (g : Nat) (h : (s.region g).clkFail = false) :
    s.islandClockFail g =
      let t := s.clockFailIsland g
      if (t.region g).linkUp then t.centralLoss g (8 + g)
      else if t.pwr.core then t.occur 8 (8 + g) 0xFFFFFFFF else t :=
  if_neg (by rw [h]; decide)

theorem Dev.clockFailIsland_region_fate (s : Dev) (g : Nat) :
    ((s.clockFailIsland g).region g).fate =
      { s.region g with clkFail := true, islandLost := true, restored := false, rejoined := false }.fate := by
  have hrest : (s.clockFailIsland g).fate =
      (s.modRegion g (fun r => { r with clkFail := true, islandLost := true, restored := false, rejoined := false })).fate :=
    Dev.extUpdate_fate _ g (Dev.forEach_fate _ _ _ (fun t _ _ ht => Dev.modSlice_fate t _ _ ht)
      (Dev.forEach_fate _ _ _ (fun t _ _ ht => Dev.modCell_fate t _ _ ht) rfl))
  exact (congrFun hrest g).trans (congrArg Region.fate (Dev.region_setRegion_same s g _))

theorem Dev.islandClockFail_region (s : Dev) (g : Nat) (h : (s.region g).clkFail = false) :
    ((s.islandClockFail g).region g).clkFail = true ∧ ((s.islandClockFail g).region g).islandLost = true := by
  have hr := s.clockFailIsland_region_fate g
  have hclk : ((s.clockFailIsland g).region g).clkFail = true := (Region.eq_of_fate (·.clkFail) hr :)
  have hlost : ((s.clockFailIsland g).region g).islandLost = true := (Region.eq_of_fate (·.islandLost) hr :)
  rw [Dev.islandClockFail_eq s g h]
  dsimp only
  split
  · obtain ⟨hclk', hlost'⟩ := (s.clockFailIsland g).centralLoss_islandSide g (8 + g)
    exact ⟨hclk'.trans hclk, hlost'.trans hlost⟩
  split
  · have ho := (s.clockFailIsland g).occur_region_fate 8 (8 + g) 0xFFFFFFFF g
    exact ⟨(Region.eq_of_fate (·.clkFail) ho).trans hclk, (Region.eq_of_fate (·.islandLost) ho).trans hlost⟩
  · exact ⟨hclk, hlost⟩

/-! ### What the commands answer -/

section
variable {s : State} {g : RegionIx}

theorem exec_straitWordReceive (hrun : (s.dev.region g).islandRun = true) (hcore : s.dev.pwr.core = true) (e : StraitEnd)
    (q : WordQuality) : exec (.straitWordReceive g e q) s = .next { s with dev := s.dev.straitWord g e q } := by
  change execStraitWordReceive g e q s = _
  simp [execStraitWordReceive, State.on, hrun, hcore]

theorem exec_straitLossTimeout_island (hwake : (s.dev.region g).asleep = false)
    (hrun : (s.dev.region g).islandRun = true) (hclk : (s.dev.region g).clkFail = false) :
    exec (.straitLossTimeout g .island) s = .next { s with dev := s.dev.islandLoss g } := by
  change execStraitLossTimeout g .island s = _
  simp [execStraitLossTimeout, State.on, hwake, hrun, hclk, Dev.straitLoss]

theorem exec_straitLossTimeout_central (hwake : (s.dev.region g).asleep = false) :
    exec (.straitLossTimeout g .central) s = .next { s with dev := s.dev.straitLoss g .central } := by
  change execStraitLossTimeout g .central s = _
  simp [execStraitLossTimeout, State.on, hwake]

theorem exec_centralResetIndication (hcore : s.dev.pwr.core = false) (hrun : (s.dev.region g).islandRun = true)
    (hclk : (s.dev.region g).clkFail = false) :
    exec (.centralResetIndication g) s = .next { s with dev := s.dev.islandLoss g } := by
  change execCentralResetIndication g s = _
  simp [execCentralResetIndication, State.on, hcore, hrun, hclk]

theorem exec_islandClockFail (hrun : (s.dev.region g).islandRun = true) :
    exec (.islandClockFail g) s = .next { s with dev := s.dev.islandClockFail g } := by
  change execIslandClockFail g s = _
  simp [execIslandClockFail, State.on, hrun]

theorem exec_idleWordSend_island (hwake : (s.dev.region g).asleep = false) (hrun : (s.dev.region g).islandRun = true)
    (hclk : (s.dev.region g).clkFail = false) :
    exec (.idleWordSend g .island) s = .next { s with dev := s.dev.emit (.idleWord g true) } := by
  change execIdleWordSend g .island s = _
  simp [execIdleWordSend, State.on, hwake, hrun, hclk]

theorem exec_idleWordSend_central (hwake : (s.dev.region g).asleep = false) (hcore : s.dev.pwr.core = true) :
    exec (.idleWordSend g .central) s = .next { s with dev := s.dev.emit (.idleWord g false) } := by
  change execIdleWordSend g .central s = _
  simp [execIdleWordSend, State.on, hwake, hcore]

end

/-! ### Frames -/

/-- The blanking mask of what a strait command may touch. -/
def Dev.straitParts : Nat := 846686623906143745

theorem Dev.straitParts_testBit (p : Part) (hp : p ∉ Parts.fault ++ [.sliceQ, .sluice, .grants]) :
    Dev.straitParts.testBit p.ctorIdx = false := by
  revert hp
  cases p <;> decide

/-- A strait command that answers the device `d`. -/
theorem Does.of_strait {i : Instr} {s : State} {q : Dev → Prop} {d : Dev} (hi : exec i s = .next { s with dev := d })
    (hd : Dev.hide Dev.straitParts d = Dev.hide Dev.straitParts s.dev) (hq : q d) :
    Does i s (Parts.fault ++ [.sliceQ, .sluice, .grants]) q :=
  Does.of_next hi hd Dev.straitParts_testBit hq

theorem Dev.straitWord_frame (s : Dev) (g : Nat) (e : StraitEnd) (q : WordQuality) :
    Dev.hide Dev.straitParts (s.straitWord g e q) = Dev.hide Dev.straitParts s :=
  Dev.straitWord_hide rfl s g e q rfl

theorem Dev.islandLoss_frame (s : Dev) (g : Nat) : Dev.hide Dev.straitParts (s.islandLoss g) = Dev.hide Dev.straitParts s :=
  Dev.islandLoss_hide rfl s g rfl

theorem Dev.straitLoss_frame (s : Dev) (g : Nat) (e : StraitEnd) :
    Dev.hide Dev.straitParts (s.straitLoss g e) = Dev.hide Dev.straitParts s :=
  Dev.straitLoss_hide rfl s g e rfl

theorem Dev.islandClockFail_frame (s : Dev) (g : Nat) :
    Dev.hide Dev.straitParts (s.islandClockFail g) = Dev.hide Dev.straitParts s :=
  Dev.islandClockFail_hide rfl s g rfl

end Sys2Proof.Machine

namespace Sys2Proof.Proofs
open Sys2Proof Sys2Proof.Machine

/-- R21: a usable word ends the run of its end, and a corrected one counts. -/
theorem straitWord_usable (g : RegionIx) (q : WordQuality) (s : State) (hrun : (s.dev.region g).islandRun = true)
    (hcore : s.dev.pwr.core = true) (hq : q ≠ .uncorrectable) :
    Becomes (.straitWordReceive g .island q) s (s.dev.setRegion g { s.dev.region g with
      badIsland := 0
      corrCount := if q = .corrected then min 65535 ((s.dev.region g).corrCount + 1) else (s.dev.region g).corrCount }) ∧
    Becomes (.straitWordReceive g .central q) s (s.dev.setRegion g { s.dev.region g with
      badCentral := 0
      corrCount := if q = .corrected then min 65535 ((s.dev.region g).corrCount + 1) else (s.dev.region g).corrCount }) := by
  refine ⟨(exec_straitWordReceive hrun hcore _ _).trans ?_, (exec_straitWordReceive hrun hcore _ _).trans ?_⟩
  all_goals
    cases q with
    | good => rfl
    | corrected => rfl
    | uncorrectable => exact absurd rfl hq

/-- The words: each end counts its own run, and what is not usable is recorded (R21, R22). -/
theorem straitWords : Rules.StraitWords := by
  refine ⟨fun g q s hrun hcore hq => straitWord_usable g q s hrun hcore hq, fun g s hrun hcore => ?_, fun g s hwake => ?_⟩
  · have hi := fun e => exec_straitWordReceive hrun hcore e .uncorrectable
    refine ⟨fun hbad => ?_, fun hbad => ?_, ?_, ?_⟩
    · refine Does.of_strait (hi .island) (Dev.straitWord_frame _ _ _ _) ?_
      have hr := s.dev.badIslandWord_region_fate g
      refine ⟨?_, ?_, s.dev.straitWord_island_latched g⟩
      all_goals rw [Dev.straitWord_island_few _ _ hbad]
      · exact (Region.eq_of_fate (·.badIsland) hr :)
      · exact (Region.eq_of_fate (·.corrCount) hr :)
    · refine Does.of_strait (hi .central) (Dev.straitWord_frame _ _ _ _) ?_
      have hr := s.dev.badCentralWord_region_fate g
      refine ⟨?_, ?_, s.dev.straitWord_central_latched g⟩
      all_goals rw [Dev.straitWord_central_few _ _ hbad]
      · exact (Region.eq_of_fate (·.badCentral) hr :)
      · exact (Region.eq_of_fate (·.corrCount) hr :)
    · exact Does.of_strait (hi .island) (Dev.straitWord_frame _ _ _ _) (s.dev.straitWord_island_latched g)
    · exact Does.of_strait (hi .central) (Dev.straitWord_frame _ _ _ _) (s.dev.straitWord_central_latched g)
  · exact ⟨fun hrun hclk => exec_idleWordSend_island hwake hrun hclk, fun hcore => exec_idleWordSend_central hwake hcore⟩

/-- The losses: whichever command declares one, what the end holds afterwards is the same (R22, R23, R25, R26, R30). -/
theorem straitLoss : Rules.StraitLoss := by
  refine ⟨fun g i s hi hrun hclk hlost => ?_, fun g i s hi hclk hup => ?_, fun g s hrun hclk => ?_⟩
  · have hdecl := s.dev.islandLoss_declared g hlost
    obtain ⟨rfl, hwake⟩ | ⟨rfl, hcore⟩ | ⟨rfl, hcore, hbad⟩ := hi
    · exact Does.of_strait (exec_straitLossTimeout_island hwake hrun hclk) (Dev.islandLoss_frame _ _) hdecl
    · exact Does.of_strait (exec_centralResetIndication hcore hrun hclk) (Dev.islandLoss_frame _ _) hdecl
    · exact Does.of_strait (exec_straitWordReceive hrun hcore _ _) (Dev.straitWord_frame _ _ _ _)
        (s.dev.straitWord_island_declared g hbad hlost)
  · obtain ⟨rfl, hwake⟩ | ⟨rfl, hcore, hrun, hbad⟩ := hi
    · exact Does.of_strait (exec_straitLossTimeout_central hwake) (Dev.straitLoss_frame _ _ _)
        (s.dev.straitLoss_central_declared g hup)
    · exact Does.of_strait (exec_straitWordReceive hrun hcore _ _) (Dev.straitWord_frame _ _ _ _)
        (s.dev.straitWord_central_declared g hbad hup)
  · obtain ⟨hclk', hlost'⟩ := s.dev.islandClockFail_region g hclk
    exact Does.of_strait (exec_islandClockFail hrun) (Dev.islandClockFail_frame _ _)
      ⟨hclk', hlost', Dev.driven_of_clkFail _ _ hclk'⟩

/-- Settles O1: what each end does with a word, and what each declaration of a loss leaves. -/
theorem straitLink : Obligations.StraitLink := ⟨straitWords, straitLoss⟩

end Sys2Proof.Proofs
end

section
/-! SUPPORT. Entry to TRIPPED (spec/03 R86, R87, spec/04 R96): what a trip leaves of its own cell and of every other, what the
search for the next ready cell of an autonomous region (R24) can find, and the rows VIN_UVLO (R52), SHORT_CIRCUIT (R123). -/

namespace Sys2Proof.Machine

/-! ### Entries of a sparse map -/

theorem Sparse.erase_erase {α : Type} (m : Sparse α) (k : Nat) :
    Sparse.erase (Sparse.erase m k) k = Sparse.erase m k := by
  simp [Sparse.erase_eq_filter]

theorem Sparse.erase_insert {α : Type} (m : Sparse α) (k : Nat) (v : α) :
    Sparse.erase (Sparse.insert m k v) k = Sparse.erase m k := by
  induction m with
  | nil => simp [Sparse.insert, Sparse.erase]
  | cons p m ih =>
    obtain ⟨j, w⟩ := p
    by_cases h : k < j
    · simp [Sparse.insert, Sparse.erase, h]
    · simp [Sparse.insert, Sparse.erase, h, ih]

/-- A write leaves the entries of every other key. -/
theorem Sparse.erase_set {α : Type} [DecidableEq α] (d : Nat → α) (m : Sparse α) (k : Nat) (v : α) :
    Sparse.erase (Sparse.set d m k v) k = Sparse.erase m k := by
  unfold Sparse.set
  split
  · exact Sparse.erase_erase m k
  · rw [Sparse.erase_insert, Sparse.erase_erase]

/-- After a write of a key, no entry of it differs from what was written. -/
theorem Sparse.eq_of_mem_set {α : Type} [DecidableEq α] (d : Nat → α) (m : Sparse α) (k : Nat) (v : α) {p : Nat × α}
    (hp : p ∈ Sparse.set d m k v) (hk : p.1 = k) : p.2 = v := by
  have hno : p ∉ Sparse.erase m k := fun h => (Sparse.erase_keys m k p h).1 hk
  unfold Sparse.set at hp
  split at hp
  · exact absurd hp hno
  · exact congrArg Prod.snd ((Sparse.insert_mem _ _ _ p hp).resolve_right hno)

/-! ### The list of cells -/

/-- The blanking mask of every part but the cells. -/
def Dev.allButCells : Nat := 2 ^ 60 - 1 - 2 ^ 9

theorem Dev.cells_of_hide {s t : Dev} (h : Dev.hide Dev.allButCells t = Dev.hide Dev.allButCells s) :
    t.cells = s.cells :=
  Dev.hide_keeps h .cells rfl

@[simp] theorem Dev.sendSl_cells (s : Dev) (g : Nat) (m : SlMsg) : (s.sendSl g m).cells = s.cells :=
  Dev.cells_of_hide (Dev.sendSl_hide rfl s g m rfl)

@[simp] theorem Dev.sendTrip_cells (s : Dev) (g : Nat) (bit : Bool) : (s.sendTrip g bit).cells = s.cells :=
  Dev.cells_of_hide (Dev.sendTrip_hide rfl s g bit rfl)

@[simp] theorem Dev.modConv_cells (s : Dev) (b : Nat) (f : Conv → Conv) : (s.modConv b f).cells = s.cells := rfl
@[simp] theorem Dev.modLane_cells (s : Dev) (c : Nat) (f : Lane → Lane) : (s.modLane c f).cells = s.cells := rfl

@[simp] theorem Dev.gateLane_cells (s : Dev) (c clocks : Nat) : (s.gateLane c clocks).cells = s.cells :=
  Dev.cells_of_hide (Dev.gateLane_hide rfl s c clocks rfl)

@[simp] theorem Dev.raiseIsland_cells (s : Dev) (g : Nat) (hold : Bool) (e : Event) :
    (s.raiseIsland g hold e).cells = s.cells :=
  Dev.cells_of_hide (Dev.raiseIsland_hide rfl s g hold e rfl)

@[simp] theorem Dev.cellEvent_cells (s : Dev) (c maskBit code : Nat) (flag : Bool) (payload : List Word) :
    (s.cellEvent c maskBit code flag payload).cells = s.cells :=
  Dev.cells_of_hide (Dev.cellEvent_hide rfl s c maskBit code flag payload rfl)

@[simp] theorem Dev.captureEdge_cells (s : Dev) (b lane src : Nat) (dir async trip : Bool) (time : Nat) :
    (s.captureEdge b lane src dir async trip time).cells = s.cells :=
  Dev.cells_of_hide (Dev.captureEdge_hide rfl s b lane src dir async trip time rfl)

/-- The message of a trip broadcast touches no cell: what the operation itself leaves in them stands. -/
@[simp] theorem Dev.withBcast_cells (s : Dev) (g : Nat) (f : Dev → Dev) : (s.withBcast g f).cells = (f s).cells := by
  unfold Dev.withBcast
  dsimp only
  split
  · rfl
  · exact Dev.sendTrip_cells _ _ _

theorem Dev.cell_congr {s t : Dev} (h : t.cells = s.cells) (c : Nat) : t.cell c = s.cell c := by
  rw [Dev.cell, h, Dev.cell]

/-- The entries of every cell but `c`. -/
def Dev.restCells (c : Nat) (s : Dev) : Sparse Cell := Sparse.erase s.cells c

theorem Dev.restCells_congr {s t : Dev} (h : t.cells = s.cells) (c : Nat) : t.restCells c = s.restCells c := by
  rw [Dev.restCells, h, Dev.restCells]

@[simp] theorem Dev.modCell_restCells (s : Dev) (c : Nat) (f : Cell → Cell) :
    (s.modCell c f).restCells c = s.restCells c :=
  Sparse.erase_set (fun _ => ({} : Cell)) s.cells c (f (s.cell c))

@[simp] theorem Dev.commitProf_restCells (s : Dev) (c : Nat) : (s.commitProf c).restCells c = s.restCells c := by
  unfold Dev.commitProf
  dsimp only
  split
  · exact Dev.modCell_restCells _ _ _
  · rfl

@[simp] theorem Dev.abortPulse_restCells (s : Dev) (c : Nat) : (s.abortPulse c).restCells c = s.restCells c := by
  unfold Dev.abortPulse
  split
  · rfl
  · exact Dev.modCell_restCells _ _ _

@[simp] theorem Dev.holdExit_restCells (s : Dev) (c : Nat) : (s.holdExit c).restCells c = s.restCells c := by
  unfold Dev.holdExit
  dsimp only
  split
  · split
    · exact Dev.modCell_restCells _ _ _
    · rfl
  · rfl

/-- Every listed entry of cell `c` is what the cell reads. The canonical form gives it for every cell, but no premise gives
the canonical form, and the search of R24 goes over the entries. -/
def Dev.ListsAsRead (c : Nat) (s : Dev) : Prop := ∀ p ∈ s.cells, p.1 = c → p.2 = s.cell c

theorem Dev.ListsAsRead.of_cells {s t : Dev} {c : Nat} (hs : s.ListsAsRead c) (h : t.cells = s.cells) :
    t.ListsAsRead c := by
  unfold Dev.ListsAsRead
  rw [h, Dev.cell_congr h]
  exact hs

theorem Dev.setCell_listsAsRead (s : Dev) (c : Nat) (v : Cell) : (s.setCell c v).ListsAsRead c := by
  intro p hp hc
  rw [Dev.cell_setCell_same]
  exact Sparse.eq_of_mem_set (fun _ => ({} : Cell)) s.cells c v hp hc

/-- What changes the entries of another cell only keeps it. -/
theorem Dev.ListsAsRead.of_restCells {s t : Dev} {c d : Nat} (hs : s.ListsAsRead c) (hd : c ≠ d)
    (h : t.restCells d = s.restCells d) : t.ListsAsRead c := by
  have hread : t.cell c = s.cell c := by
    have hg := congrArg (fun m => Sparse.get (fun _ => ({} : Cell)) m c) h
    simpa only [Dev.restCells, Sparse.get_erase, if_neg hd, Dev.cell] using hg
  intro p hp hc
  have hmem : p ∈ Sparse.erase t.cells d := by
    rw [Sparse.erase_eq_filter]
    exact List.mem_filter.2 ⟨hp, by simpa [hc] using hd⟩
  rw [show Sparse.erase t.cells d = Sparse.erase s.cells d from h] at hmem
  rw [hread]
  exact hs p (Sparse.erase_keys _ _ p hmem).2 hc

/-! ### A change of state, in three parts -/

/-- What cell `c` leaves behind on its way to state `st`: the commit point, the sluice, the pulse, the held commands. -/
def Dev.leaveState (s : Dev) (c : Nat) (st : CellState) : Dev :=
  let old := (s.cell c).state
  let g := c / 64
  let s := s.commitProf c
  let s := if old = .waitGrant ∧ st ≠ .inrush then s.sendSl g (.withdraw c) else s
  let s := if old = .inrush ∧ (s.cell c).reserved then
      (s.sendSl g (.release c)).modCell c (fun x => { x with reserved := false })
    else s
  let s := if st = .precheck ∨ old = .precheck ∨ st.probes = false then s.abortPulse c else s
  if old = .tripped then s.endHeldOn c false else s

/-- The entry itself: the entry fields at the replica time, and the end of a trip-line source (R98). -/
def Dev.enterState (s : Dev) (c : Nat) (st : CellState) : Dev :=
  s.withBcast (c / 64) (fun u => (u.modCell c (u.entryFields c st (s.rtime (c / 64)))).holdExit c)

/-- What follows the entry from state `old` at time `t`: the request, the self-tests, the lane, and EV_STATE. -/
def Dev.arriveState (s : Dev) (c : Nat) (old st : CellState) (t : Nat) : Dev :=
  let g := c / 64
  let s := if st = .waitGrant then
      s.sendSl g (.request { cell := c, group := s.pf c 0 12 4, prio := s.pf c 0 16 3,
                             ma := s.pf c 8 0 24, time := t / 1000 })
    else s
  let s := if st = .precheck then s.startTests c else s
  let s := if st = .tripped then s.modConv (c / 8) (fun k => { k with trip := k.trip ||| (1 <<< (c % 8)) }) else s
  let (clocks, s) := if s.gated c && !(s.lane c).stopped then s.drawNat else (0, s)
  let s := s.gateLane c clocks
  let s := s.modLane c (fun l => { l with span := { l.span with wOn := false } })
  s.cellEvent c 0 0x010 false (Bits.words2 t ++ [BitVec.ofNat 32 (st.code + old.code * 16)])

theorem Dev.goto_eq (s : Dev) (c : Nat) (st : CellState) (h : (s.cell c).state ≠ st) :
    s.goto c st = ((s.leaveState c st).enterState c st).arriveState c (s.cell c).state st
      ((s.leaveState c st).rtime (c / 64)) :=
  if_neg h

/-- A cell that comes from no trip has no held command to answer: what it leaves behind is of its own entries. -/
theorem Dev.leaveState_restCells (s : Dev) (c : Nat) (st : CellState) (h : (s.cell c).state ≠ .tripped) :
    (s.leaveState c st).restCells c = s.restCells c := by
  unfold Dev.leaveState
  extract_lets old g u v w z
  have hu : u.restCells c = s.restCells c := Dev.commitProf_restCells s c
  have hv : v.restCells c = u.restCells c := by
    unfold v; split
    · exact Dev.restCells_congr (Dev.sendSl_cells _ _ _) c
    · rfl
  have hw : w.restCells c = v.restCells c := by
    unfold w; split
    · exact (Dev.modCell_restCells _ _ _).trans (Dev.restCells_congr (Dev.sendSl_cells _ _ _) c)
    · rfl
  have hz : z.restCells c = w.restCells c := by
    unfold z; split
    · exact Dev.abortPulse_restCells _ _
    · rfl
  rw [if_neg h, hz, hw, hv, hu]

theorem Dev.enterState_cells (s : Dev) (c : Nat) (st : CellState) : (s.enterState c st).cells =
    ((s.modCell c (s.entryFields c st (s.rtime (c / 64)))).holdExit c).cells :=
  Dev.withBcast_cells _ _ _

theorem Dev.arriveState_cells (s : Dev) (c : Nat) (old st : CellState) (t : Nat) (h : st ≠ .precheck) :
    (s.arriveState c old st t).cells = s.cells := by
  unfold Dev.arriveState
  extract_lets g u v w
  have hu : u.cells = s.cells := by
    unfold u; split
    · exact Dev.sendSl_cells _ _ _
    · rfl
  have hv : v.cells = u.cells := by rw [show v = u from if_neg h]
  have hw : w.cells = v.cells := by
    unfold w; split <;> rfl
  rw [Dev.cellEvent_cells, Dev.modLane_cells, Dev.gateLane_cells]
  refine Eq.trans ?_ (hw.trans (hv.trans hu))
  split <;> rfl

/-- The end of a trip-line source changes nothing else of the cell. -/
theorem Dev.holdExit_cell (s : Dev) (c : Nat) :
    ∃ x, (s.holdExit c).cell c = { s.cell c with src := x } := by
  unfold Dev.holdExit
  dsimp only
  split
  · split
    · exact ⟨none, Dev.cell_setCell_same s c _⟩
    · exact ⟨_, rfl⟩
  · exact ⟨_, rfl⟩

/-! ### Entry to TRIPPED -/

theorem Dev.goto_tripped_cells (s : Dev) (c : Nat) (h : (s.cell c).state ≠ .tripped) :
    (s.goto c .tripped).cells = ((s.leaveState c .tripped).enterState c .tripped).cells := by
  rw [Dev.goto_eq s c _ h, Dev.arriveState_cells _ _ _ _ _ (by decide)]

theorem Dev.goto_tripped_restCells (s : Dev) (c : Nat) : (s.goto c .tripped).restCells c = s.restCells c := by
  by_cases h : (s.cell c).state = .tripped
  · rw [Dev.goto, if_pos h]
  · rw [Dev.restCells_congr (Dev.goto_tripped_cells s c h), Dev.restCells_congr (Dev.enterState_cells _ _ _),
      Dev.holdExit_restCells, Dev.modCell_restCells, Dev.leaveState_restCells s c _ h]

theorem Dev.goto_tripped_cell (s : Dev) (c : Nat) (h : (s.cell c).state ≠ .tripped) :
    ((s.goto c .tripped).cell c).state = .tripped ∧ ((s.goto c .tripped).cell c).gate = .strong := by
  rw [Dev.cell_congr (Dev.goto_tripped_cells s c h), Dev.cell_congr (Dev.enterState_cells _ _ _)]
  generalize s.leaveState c .tripped = u
  obtain ⟨x, hx⟩ := Dev.holdExit_cell (u.modCell c (u.entryFields c .tripped (u.rtime (c / 64)))) c
  rw [hx, Dev.modCell_eq, Dev.cell_setCell_same]
  exact ⟨rfl, rfl⟩

/-- A cell's trip at `time`, from the state `old` it left, with its armed causes (R87, Table 4-2). -/
structure Cell.TripsAs (x : Cell) (old : CellState) (time prim : Nat) (rest : List Nat) : Prop where
  state : x.state = .tripped
  gate : x.gate = .strong
  time : x.trip.time = time
  stateAt : x.trip.stateAt = old.code
  primary : x.trip.primary = prim
  cls : x.trip.cls = Trip.cls prim
  secondary : x.trip.secondary = rest.foldl (fun a n => a ||| (1 <<< n)) 0

theorem Dev.commitProf_cell_state (s : Dev) (c : Nat) : ((s.commitProf c).cell c).state = (s.cell c).state := by
  unfold Dev.commitProf
  dsimp only
  split
  · rw [Dev.modCell_eq, Dev.cell_setCell_same]; rfl
  · rfl

/-- The last that a trip writes in the cells is the cell's own record. -/
theorem Dev.tripAt_cells (s : Dev) (c mask time : Nat) {prim : Nat} {rest : List Nat}
    (hc : s.armedCauses c mask = prim :: rest) (hst : (s.cell c).state ≠ .tripped) :
    ∃ (u : Dev) (x : Cell), (s.tripAt c mask time).cells = (u.setCell c x).cells ∧ u.restCells c = s.restCells c ∧
      x.TripsAs (s.cell c).state time prim rest := by
  have hst' : ((s.commitProf c).cell c).state ≠ .tripped := by rwa [Dev.commitProf_cell_state]
  obtain ⟨hstate, hgate⟩ := Dev.goto_tripped_cell (s.commitProf c) c hst'
  have hrest := (Dev.goto_tripped_restCells (s.commitProf c) c).trans (Dev.commitProf_restCells s c)
  unfold Dev.tripAt
  split
  case h_1 hnil => rw [hc] at hnil; cases hnil
  case h_2 p l hcons =>
    obtain ⟨rfl, rfl⟩ := List.cons.inj (hcons.symm.trans hc)
    extract_lets g x _ _ t m set ctr r src u v w
    have hv : v.cell c = { u.cell c with
        trip := r, classes := Sparse.set (fun _ => {}) (u.cell c).classes m ctr, tripRule := set } :=
      Dev.cell_setCell_same u c _
    have hw : w.cells = v.cells := by
      unfold w; split <;> rfl
    refine ⟨w, { w.cell c with src := some src }, ?_, ?_, ?_⟩
    · rw [Dev.raiseIsland_cells, Dev.withBcast_cells, Dev.modCell_eq]
    · rw [Dev.restCells_congr hw, Dev.modCell_restCells, hrest]
    · rw [Dev.cell_congr hw, hv]
      exact ⟨hstate, hgate, rfl, rfl, rfl, rfl, rfl⟩

/-! ### Masks of causes -/

theorem Bits.testBit_foldl_or (l : List Nat) (a i : Nat) :
    (l.foldl (fun a n => a ||| (1 <<< n)) a).testBit i = (a.testBit i || decide (i ∈ l)) := by
  induction l generalizing a with
  | nil => simp
  | cons n l ih =>
    rw [List.foldl_cons, ih, Nat.testBit_or, Nat.one_shiftLeft, Nat.testBit_two_pow]
    simp [Bool.or_assoc, eq_comm]

theorem Bits.nbit_toNat_or {n : Nat} (w : BitVec n) (m i : Nat) :
    Bits.nbit (w.toNat ||| m) i = (w.getLsbD i || Bits.nbit m i) := by
  rw [Bits.nbit_eq_testBit, Bits.nbit_eq_testBit, Nat.testBit_or, BitVec.testBit_toNat]

/-! ### Armed causes (R86, R87) -/

theorem CellState.ne_of_armed {x y : CellState} (hx : x.armed = true) (hy : y.armed = false) : x ≠ y := by
  rintro rfl
  rw [hx] at hy
  cases hy

theorem Dev.mem_armedCauses {s : Dev} {c mask n : Nat} :
    n ∈ s.armedCauses c mask ↔ n ∈ Trip.order ∧ Bits.nbit mask n = true ∧ s.checkArmed c n = true := by
  rw [Dev.armedCauses, List.mem_filter, Bool.and_eq_true]

/-- No check is armed outside INRUSH, ON and LIMIT (Table 3-5). -/
theorem Dev.checkArmed_of_unarmed {s : Dev} {c : Nat} (h : (s.cell c).state.armed = false) (n : Nat) :
    s.checkArmed c n = false := by
  have hinr : (s.cell c).state ≠ .inrush := (CellState.ne_of_armed rfl h).symm
  have hon : (s.cell c).state ≠ .on := (CellState.ne_of_armed rfl h).symm
  have hlim : (s.cell c).state ≠ .limit := (CellState.ne_of_armed rfl h).symm
  unfold Dev.checkArmed
  dsimp only
  split <;> simp [h, hinr, hon, hlim]

theorem Dev.armedCauses_of_unarmed {s : Dev} {c : Nat} (h : (s.cell c).state.armed = false) (mask : Nat) :
    s.armedCauses c mask = [] :=
  List.filter_eq_nil_iff.2 fun n _ => by rw [Dev.checkArmed_of_unarmed h, Bool.and_false]; decide

/-- A cell that is not armed does not trip (R86). -/
theorem Dev.tripAt_of_unarmed {s : Dev} {c : Nat} (h : (s.cell c).state.armed = false) (mask time : Nat) :
    s.tripAt c mask time = s := by
  rw [Dev.tripAt, Dev.armedCauses_of_unarmed h]

/-- SHORT_CIRCUIT comes first in the order of R87. -/
theorem Dev.armedCauses_shortCircuit {s : Dev} {c mask : Nat} (h : (s.cell c).state.armed = true)
    (hbit : Bits.nbit mask 1 = true) : ∃ rest, s.armedCauses c mask = 1 :: rest :=
  ⟨_, List.filter_cons_of_pos (by rw [hbit]; exact h)⟩

/-- VIN_UVLO of an armed cell is the primary cause or one of the others, and the primary where neither of the two before it
in the order of R87, SHORT_CIRCUIT and SENSE_OPEN, comes in the same clock. -/
theorem Dev.armedCauses_vinUvlo {s : Dev} {c : Nat} (h : (s.cell c).state.armed = true) (also : BitVec 16) :
    ∃ prim rest, s.armedCauses c (also.toNat ||| 1 <<< 2) = prim :: rest ∧ (prim = 2 ∨ 2 ∈ rest) ∧
      (also.getLsbD 1 = false → also.getLsbD 13 = false → prim = 2) := by
  have hbit : ∀ i, Bits.nbit (also.toNat ||| 1 <<< 2) i = (also.getLsbD i || Bits.nbit (1 <<< 2) i) :=
    Bits.nbit_toNat_or also (1 <<< 2)
  have h2 : Bits.nbit (also.toNat ||| 1 <<< 2) 2 = true := (hbit 2).trans (Bool.or_true _)
  have hmem : 2 ∈ s.armedCauses c (also.toNat ||| 1 <<< 2) := Dev.mem_armedCauses.2 ⟨by decide, h2, h⟩
  obtain ⟨prim, rest, hc⟩ := List.exists_cons_of_ne_nil (List.ne_nil_of_mem hmem)
  rw [hc, List.mem_cons] at hmem
  refine ⟨prim, rest, hc, hmem.imp_left Eq.symm, fun h1 h13 => ?_⟩
  have hno1 : Bits.nbit (also.toNat ||| 1 <<< 2) 1 = false := (hbit 1).trans (by rw [h1]; rfl)
  have hno13 : Bits.nbit (also.toNat ||| 1 <<< 2) 13 = false := (hbit 13).trans (by rw [h13]; rfl)
  have hfirst : s.armedCauses c (also.toNat ||| 1 <<< 2) = 2 :: _ :=
    (List.filter_cons_of_neg (by rw [hno1]; exact Bool.false_ne_true)).trans
      ((List.filter_cons_of_neg (by rw [hno13]; exact Bool.false_ne_true)).trans
        (List.filter_cons_of_pos (by rw [h2]; exact h)))
  exact (List.cons.inj (hc.symm.trans hfirst)).1

/-! ### What a trip leaves -/

/-- A trip with an armed cause. -/
theorem Dev.tripAt_trips {s : Dev} {c mask : Nat} (time : Nat) {prim : Nat} {rest : List Nat}
    (hc : s.armedCauses c mask = prim :: rest) (hst : (s.cell c).state.armed = true) :
    ((s.tripAt c mask time).cell c).TripsAs (s.cell c).state time prim rest ∧
      (s.tripAt c mask time).ListsAsRead c := by
  obtain ⟨u, x, hcells, -, hx⟩ := Dev.tripAt_cells s c mask time hc (CellState.ne_of_armed hst rfl)
  refine ⟨?_, (Dev.setCell_listsAsRead u c x).of_cells hcells⟩
  rwa [Dev.cell_congr hcells, Dev.cell_setCell_same]

theorem Dev.tripAt_restCells (s : Dev) (c mask time : Nat) : (s.tripAt c mask time).restCells c = s.restCells c := by
  cases ha : (s.cell c).state.armed
  case false => rw [Dev.tripAt_of_unarmed ha]
  case true =>
    cases hc : s.armedCauses c mask
    case nil => rw [Dev.tripAt, hc]
    case cons prim rest =>
      obtain ⟨u, x, hcells, hu, -⟩ := Dev.tripAt_cells s c mask time hc (CellState.ne_of_armed ha rfl)
      exact (Dev.restCells_congr hcells c).trans ((Dev.modCell_restCells u c fun _ => x).trans hu)

theorem Dev.tripAt_cell_ne (s : Dev) {c d : Nat} (mask time : Nat) (h : d ≠ c) :
    (s.tripAt c mask time).cell d = s.cell d :=
  Dev.others_cell (Dev.tripAt_others s c mask time rfl) h

/-! ### The search of R24 -/

theorem Trip.earliest_mem {l : List (Nat × Nat)} {p : Nat × Nat} (h : Trip.earliest l = some p) : p ∈ l := by
  induction l generalizing p with
  | nil => cases h
  | cons q l ih =>
    rw [Trip.earliest] at h
    split at h
    · cases h; exact List.mem_cons_self
    next r hr =>
      split at h
      · cases h; exact List.mem_cons_of_mem _ (ih hr)
      · cases h; exact List.mem_cons_self

/-- What the search finds is listed in COOLDOWN. -/
theorem Dev.mem_readyCells {s : Dev} {g t c : Nat} (h : (t, c) ∈ s.readyCells g) :
    ∃ p ∈ s.cells, p.1 = c ∧ p.2.state = .cooldown := by
  obtain ⟨p, hp, hpc⟩ := List.mem_filterMap.1 h
  split at hpc
  case isFalse => cases hpc
  case isTrue hcool =>
    obtain ⟨a, -, hpair⟩ := Option.map_eq_some_iff.1 hpc
    exact ⟨p, hp, congrArg Prod.snd hpair, hcool.2⟩

/-- Nothing follows in a region that is not autonomous. -/
theorem Dev.autoNext_of_not_auto {s : Dev} {g : Nat} (h : s.auto g = false) : s.autoNext g = s := by
  simp [Dev.autoNext, h]

/-- A cell that reads as, and is listed as, in another state than COOLDOWN is never the next ready cell. -/
theorem Dev.autoNext_cell {s : Dev} {c : Nat} (g : Nat) (hl : s.ListsAsRead c) (hst : (s.cell c).state ≠ .cooldown) :
    (s.autoNext g).cell c = s.cell c := by
  unfold Dev.autoNext
  split
  case isFalse => rfl
  case isTrue =>
    split
    · rfl
    next t d hd =>
      obtain ⟨p, hp, hpd, hcool⟩ := Dev.mem_readyCells (Trip.earliest_mem hd)
      have hne : c ≠ d := fun hcd => hst (by rw [← hl p hp (hpd.trans hcd.symm), hcool])
      exact Dev.others_cell (Dev.levelTrips_others _ d (Dev.modCell_others _ d _ (Dev.goto_others s d _ rfl))) hne

theorem Dev.auto_of_calm {s t : Dev} (h : t.calm = s.calm) (g : Nat) : t.auto g = s.auto g := by
  have hr := congrArg Region.rejoined (Dev.calm_region h g)
  exact congrArg not hr

/-! ### A cell that has tripped -/

/-- Cell `c` has tripped from `old` with a primary and other causes of which `R` holds, and is listed as it reads. -/
def Dev.HasTripped (c : Nat) (old : CellState) (R : Nat → List Nat → Prop) (t : Dev) : Prop :=
  t.ListsAsRead c ∧ ∃ time prim rest, (t.cell c).TripsAs old time prim rest ∧ R prim rest

theorem Dev.tripAt_hasTripped {s : Dev} {c mask : Nat} (time : Nat) {prim : Nat} {rest : List Nat}
    {R : Nat → List Nat → Prop} (hc : s.armedCauses c mask = prim :: rest) (hst : (s.cell c).state.armed = true)
    (hr : R prim rest) : (s.tripAt c mask time).HasTripped c (s.cell c).state R := by
  obtain ⟨htrip, hlist⟩ := Dev.tripAt_trips time hc hst
  exact ⟨hlist, _, _, _, htrip, hr⟩

section
variable {t : Dev} {c : Nat} {old : CellState} {R : Nat → List Nat → Prop}

/-- The trip of another cell leaves it so. -/
theorem Dev.HasTripped.tripAt_ne (h : t.HasTripped c old R) {d : Nat} (mask time : Nat) (hd : c ≠ d) :
    (t.tripAt d mask time).HasTripped c old R := by
  obtain ⟨hlist, hcell⟩ := h
  refine ⟨hlist.of_restCells hd (Dev.tripAt_restCells _ _ _ _), ?_⟩
  rw [Dev.tripAt_cell_ne _ _ _ hd]
  exact hcell

/-- It is in TRIPPED, so the search of R24 does not find it. -/
theorem Dev.HasTripped.autoNext (h : t.HasTripped c old R) (g : Nat) :
    ∃ time prim rest, ((t.autoNext g).cell c).TripsAs old time prim rest ∧ R prim rest := by
  obtain ⟨hlist, time, prim, rest, htrip, hr⟩ := h
  rw [Dev.autoNext_cell g hlist (by rw [htrip.state]; decide)]
  exact ⟨time, prim, rest, htrip, hr⟩

end

/-! ### One trip after another -/

/-- The step of `a` takes `P` to `Q`; the other steps keep `P`, for those before it, and `Q`, for those after it. -/
theorem Dev.forEach_reaches {α : Type} {P Q : Dev → Prop} {f : Dev → α → Dev} {a : α}
    (hP : ∀ t b, b ≠ a → P t → P (f t b)) (ha : ∀ t, P t → Q (f t a)) (hQ : ∀ t b, b ≠ a → Q t → Q (f t b))
    {l : List α} (hl : l.Nodup) (hmem : a ∈ l) {s : Dev} (hs : P s) : Q (s.forEach l f) := by
  obtain ⟨l₁, l₂, rfl⟩ := List.append_of_mem hmem
  have hno : a ∉ l₁ ∧ a ∉ l₂ := by
    rw [List.nodup_middle, List.nodup_cons, List.mem_append, not_or] at hl
    exact hl.1
  have hbefore : P (s.forEach l₁ f) :=
    List.foldlRecOn l₁ f hs fun t ht b hb => hP t b (fun h => hno.1 (h ▸ hb)) ht
  rw [Dev.forEach, List.foldl_append, List.foldl_cons]
  exact List.foldlRecOn l₂ f (ha _ hbefore) fun t ht b hb => hQ t b (fun h => hno.2 (h ▸ hb)) ht

/-! ### VIN_UVLO (R52) -/

/-- The trips of the eight cells of a block. -/
def Dev.tripBlock (s : Dev) (b mask : Nat) : Dev := s.forEach (List.range 8) (fun s i => s.tripNow (8 * b + i) mask)

theorem Dev.tripBlock_calm (s : Dev) (b mask : Nat) : (s.tripBlock b mask).calm = s.calm :=
  Dev.forEach_calm _ _ _ (fun t i _ ht => Dev.tripNow_calm t (8 * b + i) mask ht) rfl

/-- A cell of the block with an armed cause trips, whatever the other seven do. -/
theorem Dev.tripBlock_hasTripped (s : Dev) (b : Nat) {mask l : Nat} (hl : l < 8)
    (ha : (s.cell (8 * b + l)).state.armed = true) {R : Nat → List Nat → Prop}
    (hR : ∀ t : Dev, t.cell (8 * b + l) = s.cell (8 * b + l) →
      ∃ prim rest, t.armedCauses (8 * b + l) mask = prim :: rest ∧ R prim rest) :
    (s.tripBlock b mask).HasTripped (8 * b + l) (s.cell (8 * b + l)).state R := by
  refine Dev.forEach_reaches (P := fun t => t.cell (8 * b + l) = s.cell (8 * b + l)) (a := l) ?_ ?_ ?_ List.nodup_range
    (List.mem_range.2 hl) rfl
  · intro t i hi ht
    exact (Dev.tripAt_cell_ne t _ _ (by omega)).trans ht
  · intro t ht
    obtain ⟨prim, rest, hc, hr⟩ := hR t ht
    rw [← ht] at ha ⊢
    exact Dev.tripAt_hasTripped _ hc ha hr
  · intro t i hi ht
    exact ht.tripAt_ne _ _ (by omega)

/-- A cell outside the block, or one that is not armed, stays as it is. -/
theorem Dev.tripBlock_cell (s : Dev) (b mask c : Nat) (h : c / 8 ≠ b ∨ (s.cell c).state.armed = false) :
    (s.tripBlock b mask).cell c = s.cell c := by
  have hstep : ∀ t : Dev, t.cell c = s.cell c → ∀ i ∈ List.range 8, (t.tripNow (8 * b + i) mask).cell c = s.cell c := by
    intro t ht i hi
    rw [← ht]
    by_cases hc : c = 8 * b + i
    · have hb : c / 8 = b := by
        have := List.mem_range.1 hi
        omega
      have ha : (t.cell (8 * b + i)).state.armed = false := by
        rw [← hc, ht]
        exact h.resolve_left (not_not.2 hb)
      rw [Dev.tripNow, Dev.tripAt_of_unarmed ha]
    · exact Dev.tripAt_cell_ne _ _ _ hc
  unfold Dev.tripBlock Dev.forEach
  exact List.foldlRecOn (motive := fun t : Dev => t.cell c = s.cell c) (List.range 8) _ rfl hstep

/-- The gate drive of block `b` is disabled, and its armed cells trip. -/
def Dev.vinUvloTrips (s : Dev) (b : Nat) (also : BitVec 16) : Dev :=
  (s.modBlock b (fun k => { k with gateDrive := false })).tripBlock b (also.toNat ||| 1 <<< 2)

/-- What VIN_UVLO of block `b` leaves: its trips, and in autonomy the next ready cell. -/
def Dev.vinUvlo (s : Dev) (b : Nat) (also : BitVec 16) : Dev := (s.vinUvloTrips b also).autoNext (b / 8)

theorem Dev.vinUvloTrips_calm (s : Dev) (b : Nat) (also : BitVec 16) :
    (s.vinUvloTrips b also).calm = (s.setBlock b { s.block b with gateDrive := false }).calm :=
  Dev.tripBlock_calm _ _ _

theorem Dev.vinUvlo_gateDrive (s : Dev) (b : Nat) (also : BitVec 16) :
    ((s.vinUvlo b also).block b).gateDrive = false := by
  have hcalm := Dev.calm_block (Dev.autoNext_calm _ (b / 8) (s.vinUvloTrips_calm b also)) b
  rw [Dev.block_setBlock_same] at hcalm
  exact congrArg Block.gateDrive hcalm

/-- An armed cell of the block leaves with VIN_UVLO among its causes. -/
theorem Dev.vinUvlo_trips (s : Dev) (b : Nat) (also : BitVec 16) {l : Nat} (hl : l < 8)
    (ha : (s.cell (8 * b + l)).state.armed = true) :
    ∃ time prim rest, ((s.vinUvlo b also).cell (8 * b + l)).TripsAs (s.cell (8 * b + l)).state time prim rest ∧
      (prim = 2 ∨ 2 ∈ rest) ∧ (also.getLsbD 1 = false → also.getLsbD 13 = false → prim = 2) := by
  have htrips := Dev.tripBlock_hasTripped (s.modBlock b (fun k => { k with gateDrive := false })) b hl ha
    fun t ht => Dev.armedCauses_vinUvlo (ht ▸ ha) also
  exact htrips.autoNext (b / 8)

theorem Dev.vinUvlo_cell (s : Dev) (b : Nat) (also : BitVec 16) (hg : s.auto (b / 8) = false) (c : Nat)
    (h : c / 8 ≠ b ∨ (s.cell c).state.armed = false) : (s.vinUvlo b also).cell c = s.cell c := by
  have hauto := Dev.auto_of_calm (s.vinUvloTrips_calm b also) (b / 8)
  rw [Dev.vinUvlo, Dev.autoNext_of_not_auto (hauto.trans hg)]
  exact Dev.tripBlock_cell _ _ _ _ h

/-! ### SHORT_CIRCUIT (R123) -/

/-- What the comparator edge itself leaves of cell `c`: the qualified output, and its capture (R123, R124). -/
def Dev.shortCircuitEdge (s : Dev) (c : CellIx) (t : Nat) : Dev :=
  let w := RegMap.cmpEdge (c / 8)
  let x := s.cell c
  let s := s.modCell c (fun y => { y with iscQual := true })
  if s.rb w 28 && s.edgeSel w (.isc c) true then s.captureEdge (c / 8) (c % 8) 2 true true x.state.armed t else s

theorem Dev.shortCircuitEdge_cells (s : Dev) (c : CellIx) (t : Nat) :
    (s.shortCircuitEdge c t).cells = (s.setCell c { s.cell c with iscQual := true }).cells := by
  unfold Dev.shortCircuitEdge
  dsimp only
  split
  · exact Dev.captureEdge_cells _ _ _ _ _ _ _ _
  · rfl

theorem Dev.shortCircuitEdge_cell (s : Dev) (c : CellIx) (t : Nat) :
    (s.shortCircuitEdge c t).cell c = { s.cell c with iscQual := true } := by
  rw [Dev.cell_congr (s.shortCircuitEdge_cells c t), Dev.cell_setCell_same]

theorem Dev.shortCircuitEdge_cell_ne (s : Dev) (c : CellIx) (t : Nat) {d : Nat} (h : d ≠ c) :
    (s.shortCircuitEdge c t).cell d = s.cell d := by
  rw [Dev.cell_congr (s.shortCircuitEdge_cells c t), Dev.cell_setCell_ne _ _ _ _ h]

theorem Dev.shortCircuitEdge_hide {m : Nat} (h9 : 512 &&& m = 512) (h10 : 1024 &&& m = 1024) (s : Dev) (c : CellIx)
    (t : Nat) : Dev.hide m (s.shortCircuitEdge c t) = Dev.hide m s := by
  have hq := Dev.modCell_hide h9 s c (fun y => { y with iscQual := true }) rfl
  unfold Dev.shortCircuitEdge
  dsimp only
  split
  · exact Dev.captureEdge_hide h10 _ _ _ _ _ _ _ _ hq
  · exact hq

/-- The blanking mask of the cells and the blocks. -/
def Dev.cellBlockParts : Nat := 2 ^ 9 + 2 ^ 10

theorem Dev.shortCircuitEdge_auto (s : Dev) (c : CellIx) (t g : Nat) : (s.shortCircuitEdge c t).auto g = s.auto g := by
  have h : (s.shortCircuitEdge c t).regions = s.regions :=
    Dev.hide_keeps (Dev.shortCircuitEdge_hide (m := Dev.cellBlockParts) rfl rfl s c t) .regions rfl
  rw [Dev.auto, Dev.region, h]
  rfl

/-- A SHORT_CIRCUIT of an armed cell: the edge, the trip at its time, and in autonomy the next ready cell. -/
def Dev.shortCircuitTrip (s : Dev) (c : CellIx) (mask t : Nat) : Dev :=
  ((s.shortCircuitEdge c t).tripAt c mask t).autoNext (c / 64)

theorem Dev.shortCircuitTrip_trips (s : Dev) (c : CellIx) (also : BitVec 16) (t : Nat)
    (ha : (s.cell c).state.armed = true) :
    ∃ rest, ((s.shortCircuitTrip c (also.toNat ||| 2) t).cell c).TripsAs (s.cell c).state t 1 rest := by
  have hst : ((s.shortCircuitEdge c t).cell c).state = (s.cell c).state := by rw [s.shortCircuitEdge_cell]
  obtain ⟨rest, hc⟩ := Dev.armedCauses_shortCircuit (s := s.shortCircuitEdge c t) (hst ▸ ha)
    ((Bits.nbit_toNat_or also 2 1).trans (Bool.or_true _))
  obtain ⟨htrip, hlist⟩ := Dev.tripAt_trips t hc (hst ▸ ha)
  refine ⟨rest, ?_⟩
  rw [Dev.shortCircuitTrip, Dev.autoNext_cell _ hlist (by rw [htrip.state]; decide), ← hst]
  exact htrip

theorem Dev.shortCircuitTrip_only (s : Dev) (c : CellIx) (mask t : Nat) (hg : s.auto (c / 64) = false) :
    Only Dev.cell c s (s.shortCircuitTrip c mask t) := by
  intro d hd
  have hauto := Dev.auto_of_calm (Dev.tripAt_calm (s.shortCircuitEdge c t) c mask t rfl) (c / 64)
  rw [Dev.shortCircuitTrip, Dev.autoNext_of_not_auto (hauto.trans ((s.shortCircuitEdge_auto c t _).trans hg)),
    Dev.tripAt_cell_ne _ _ _ hd, s.shortCircuitEdge_cell_ne c t hd]

/-- The strong pull-down that SHORT_CIRCUIT restarts in TRIPPED (R123). -/
def Dev.shortCircuitRestart (s : Dev) (c : CellIx) (t : Nat) : Dev :=
  (s.shortCircuitEdge c t).modCell c (fun y => { y with gate := .strong })

theorem Dev.shortCircuitRestart_cell (s : Dev) (c : CellIx) (t : Nat) :
    (s.shortCircuitRestart c t).cell c = { s.cell c with iscQual := true, gate := .strong } := by
  rw [Dev.shortCircuitRestart, Dev.modCell_eq, Dev.cell_setCell_same, s.shortCircuitEdge_cell]

theorem Dev.shortCircuitRestart_only (s : Dev) (c : CellIx) (t : Nat) : Only Dev.cell c s (s.shortCircuitRestart c t) :=
  fun _ hd => (Dev.cell_setCell_ne _ _ _ _ hd).trans (s.shortCircuitEdge_cell_ne c t hd)

/-! ### What the commands answer -/

section
variable {s : State}

theorem exec_vinUvlo (b : BlockIx) (also : BitVec 16) :
    exec (.vinUvlo b also) s = .next { s with dev := s.dev.vinUvlo b also } := rfl

theorem exec_shortCircuit_off {c : CellIx} (edge : DWord) (also : BitVec 16) (h : (s.dev.cell c).isc.mode = .off) :
    exec (.shortCircuit c edge also) s = .next s := by
  change execShortCircuit c edge also s = _
  simp [execShortCircuit, State.on, h]

theorem exec_shortCircuit_armed {c : CellIx} (edge : DWord) (also : BitVec 16) (hon : (s.dev.cell c).isc.mode ≠ .off)
    (ha : (s.dev.cell c).state.armed = true) : exec (.shortCircuit c edge also) s =
      .next { s with dev := s.dev.shortCircuitTrip c (also.toNat ||| 2) (edge.toNat / 4 * 4) } := by
  change execShortCircuit c edge also s = _
  simp [execShortCircuit, State.on, hon, ha, Dev.shortCircuitTrip, Dev.shortCircuitEdge]

theorem exec_shortCircuit_tripped {c : CellIx} (edge : DWord) (also : BitVec 16) (hon : (s.dev.cell c).isc.mode ≠ .off)
    (ht : (s.dev.cell c).state = .tripped) : exec (.shortCircuit c edge also) s =
      .next { s with dev := s.dev.shortCircuitRestart c (edge.toNat / 4 * 4) } := by
  change execShortCircuit c edge also s = _
  simp [execShortCircuit, State.on, hon, ht, CellState.armed, Dev.shortCircuitRestart, Dev.shortCircuitEdge]

end

/-! ### Frames -/

/-- The blanking mask of what a change of a cell's state may touch. -/
def Dev.cellParts : Nat := 702570639013187073

theorem Dev.cellParts_testBit (p : Part) (hp : p ∉ Parts.cell) : Dev.cellParts.testBit p.ctorIdx = false := by
  revert hp
  cases p <;> decide

theorem Dev.cellBlockParts_testBit (p : Part) (hp : p ∉ [Part.cells, .blocks]) :
    Dev.cellBlockParts.testBit p.ctorIdx = false := by
  revert hp
  cases p <;> decide

theorem Dev.vinUvlo_frame (s : Dev) (b : Nat) (also : BitVec 16) :
    Dev.hide Dev.cellParts (s.vinUvlo b also) = Dev.hide Dev.cellParts s :=
  Dev.autoNext_hide rfl _ _ (Dev.forEach_hide rfl _ _ _ (fun t i _ ht => Dev.tripNow_hide rfl t (8 * b + i) _ ht)
    (Dev.modBlock_hide rfl s b _ rfl))

theorem Dev.shortCircuitTrip_frame (s : Dev) (c : CellIx) (mask t : Nat) :
    Dev.hide Dev.cellParts (s.shortCircuitTrip c mask t) = Dev.hide Dev.cellParts s :=
  Dev.autoNext_hide rfl _ _ (Dev.tripAt_hide rfl _ _ _ _ (Dev.shortCircuitEdge_hide rfl rfl s c t))

theorem Dev.shortCircuitRestart_frame (s : Dev) (c : CellIx) (t : Nat) :
    Dev.hide Dev.cellBlockParts (s.shortCircuitRestart c t) = Dev.hide Dev.cellBlockParts s :=
  Dev.modCell_hide rfl _ _ _ (Dev.shortCircuitEdge_hide rfl rfl s c t)

end Sys2Proof.Machine

namespace Sys2Proof.Proofs
open Sys2Proof Sys2Proof.Machine

/-- R52: the gate drive of the block goes, and its armed cells trip with VIN_UVLO among their causes. -/
theorem vinUvlo_trips (b : BlockIx) (also : BitVec 16) (s : State) :
    Does (.vinUvlo b also) s Parts.cell fun t => (t.block b).gateDrive = false ∧
      ∀ l, l < 8 → (s.dev.cell (8 * b + l)).state.armed = true → let x := t.cell (8 * b + l)
        x.state = .tripped ∧ x.gate = .strong ∧ (x.trip.primary = 2 ∨ Bits.nbit x.trip.secondary 2 = true) ∧
        (also.getLsbD 1 = false → also.getLsbD 13 = false → x.trip.primary = 2 ∧ x.trip.cls = 5) := by
  refine Does.of_next (exec_vinUvlo b also) (s.dev.vinUvlo_frame b also) Dev.cellParts_testBit
    ⟨s.dev.vinUvlo_gateDrive b also, fun l hl ha => ?_⟩
  obtain ⟨time, prim, rest, htrip, hmem, hfirst⟩ := s.dev.vinUvlo_trips b also hl ha
  refine ⟨htrip.state, htrip.gate, hmem.imp htrip.primary.trans fun hrest => ?_, fun h1 h13 => ?_⟩
  · rw [Bits.nbit_eq_testBit, htrip.secondary, Bits.testBit_foldl_or, decide_eq_true hrest, Bool.or_true]
  · have hprim := hfirst h1 h13
    exact ⟨htrip.primary.trans hprim, htrip.cls.trans (congrArg Trip.cls hprim)⟩

/-- R123: in TRIPPED the strong pull-down starts again, and the record of the trip stays. -/
theorem shortCircuit_restarts (c : CellIx) (edge : DWord) (also : BitVec 16) (s : State)
    (hon : (s.dev.cell c).isc.mode ≠ .off) (ht : (s.dev.cell c).state = .tripped) :
    Does (.shortCircuit c edge also) s [.cells, .blocks] fun t =>
      Only Dev.cell c s.dev t ∧ (t.cell c).gate = .strong ∧ (t.cell c).state = .tripped ∧
      (t.cell c).trip = (s.dev.cell c).trip := by
  refine Does.of_next (exec_shortCircuit_tripped edge also hon ht) (s.dev.shortCircuitRestart_frame c _)
    Dev.cellBlockParts_testBit ⟨s.dev.shortCircuitRestart_only c _, ?_⟩
  rw [s.dev.shortCircuitRestart_cell]
  exact ⟨rfl, ht, rfl⟩

/-- Settles O3: the rows of R52 and R123, each from what it leaves of the cells it trips and of the others. -/
theorem fastTrips : Obligations.FastTrips := by
  refine ⟨vinUvlo_trips, fun b also s hg => ?_, fun c edge also s hon ha => ?_,
    fun c edge also s hon ht => shortCircuit_restarts c edge also s hon ht,
    fun c edge also s hoff => exec_shortCircuit_off edge also hoff⟩
  · exact Does.of_next (exec_vinUvlo b also) (s.dev.vinUvlo_frame b also) Dev.cellParts_testBit
      ⟨fun c hc => s.dev.vinUvlo_cell b also hg c (.inl hc), fun l _ ha => s.dev.vinUvlo_cell b also hg _ (.inr ha)⟩
  · obtain ⟨rest, htrip⟩ := s.dev.shortCircuitTrip_trips c also (edge.toNat / 4 * 4) ha
    exact Does.of_next (exec_shortCircuit_armed edge also hon ha) (s.dev.shortCircuitTrip_frame c _ _)
      Dev.cellParts_testBit ⟨htrip.state, htrip.gate, htrip.primary, htrip.cls, htrip.time, htrip.stateAt,
        s.dev.shortCircuitTrip_only c _ _⟩

end Sys2Proof.Proofs
end

section
/-! SUPPORT. A change of a cell's state that is no trip: what a transition leaves of the sluice's queue, of the host's and of
the readings of its cell, for the waits of a channel (spec/03 R75 to R78) and its power good and limits (R79 to R83). -/

namespace Sys2Proof.Machine

/-! ### What the checks and the limiters of a cell read -/

/-- Two records that agree in all but their events, held messages and trip origins agree in every other field. -/
theorem Region.eq_of_calm {α : Type} (f : Region → α) {r r' : Region} (h : r.calm = r'.calm)
    (hf : ∀ r : Region, f r.calm = f r := by exact fun _ => rfl) : f r = f r' := by
  rw [← hf r, h, hf r']

/-- Two blocks that agree in all but a running self-test agree in every other field. -/
theorem Block.eq_of_calm {α : Type} (f : Block → α) {k k' : Block} (h : k.calm = k'.calm)
    (hf : ∀ k : Block, f k.calm = f k := by exact fun _ => rfl) : f k = f k' := by
  rw [← hf k, h, hf k']

/-- The readings of a cell: its threshold detectors, its junction estimate and its limiter references. -/
def Cell.readings (x : Cell) : Cmp × Cmp × Int × Option Nat × Option Nat × Option Nat :=
  (x.ilo, x.ihi, x.tjEst, x.iPlim, x.iAlim, x.iSoa)

theorem Cell.readings_eq_iff {x y : Cell} : x.readings = y.readings ↔
    x.ilo = y.ilo ∧ x.ihi = y.ihi ∧ x.tjEst = y.tjEst ∧ x.iPlim = y.iPlim ∧ x.iAlim = y.iAlim ∧ x.iSoa = y.iSoa := by
  simp only [Cell.readings, Prod.mk.injEq]

/-- What the transition of a cell does not write and its level checks and limiters read: profile, clock, regions and blocks,
and the readings of the cell. -/
structure Dev.SameInputs (c : Nat) (s t : Dev) : Prop where
  prof : t.prof = s.prof
  tbTime : t.tbTime = s.tbTime
  calm : t.calm = s.calm
  readings : (t.cell c).readings = (s.cell c).readings

namespace Dev.SameInputs
variable {c : Nat} {s t u : Dev}

theorem refl (c : Nat) (s : Dev) : s.SameInputs c s := ⟨rfl, rfl, rfl, rfl⟩

theorem trans (hst : s.SameInputs c t) (htu : t.SameInputs c u) : s.SameInputs c u :=
  ⟨htu.prof.trans hst.prof, htu.tbTime.trans hst.tbTime, htu.calm.trans hst.calm, htu.readings.trans hst.readings⟩

theorem pf (h : s.SameInputs c t) (k byte lo len : Nat) : t.pf k byte lo len = s.pf k byte lo len := by
  rw [Dev.pf, Dev.pword, h.prof]; rfl

theorem pb (h : s.SameInputs c t) (k byte i : Nat) : t.pb k byte i = s.pb k byte i := by
  rw [Dev.pb, Dev.pword, h.prof]; rfl

theorem auto (h : s.SameInputs c t) (g : Nat) : t.auto g = s.auto g := Dev.auto_of_calm h.calm g

theorem rtime (h : s.SameInputs c t) (g : Nat) : t.rtime g = s.rtime g := by
  have hoff : (t.region g).replicaOff = (s.region g).replicaOff :=
    Region.eq_of_calm (·.replicaOff) (Dev.calm_region h.calm g)
  rw [Dev.rtime, Dev.rtime, h.tbTime, hoff]

theorem driveAvail (h : s.SameInputs c t) (k : Nat) : t.driveAvail k = s.driveAvail k := by
  have hdrive : (t.block (k / 8)).gateDrive = (s.block (k / 8)).gateDrive :=
    Block.eq_of_calm (·.gateDrive) (Dev.calm_block h.calm (k / 8))
  have hcp : (t.block (k / 8)).cpFail = (s.block (k / 8)).cpFail :=
    Block.eq_of_calm (·.cpFail) (Dev.calm_block h.calm (k / 8))
  have hclk : (t.region (k / 64)).clkFail = (s.region (k / 64)).clkFail :=
    Region.eq_of_calm (·.clkFail) (Dev.calm_region h.calm (k / 64))
  simp only [Dev.driveAvail, hdrive, hcp, hclk]

theorem levelMask (h : s.SameInputs c t) : t.levelMask c = s.levelMask c := by
  have hdrive : (t.block (c / 8)).gateDrive = (s.block (c / 8)).gateDrive :=
    Block.eq_of_calm (·.gateDrive) (Dev.calm_block h.calm (c / 8))
  have hlo : (t.block (c / 8)).vlo = (s.block (c / 8)).vlo := Block.eq_of_calm (·.vlo) (Dev.calm_block h.calm (c / 8))
  have hhi : (t.block (c / 8)).vhi = (s.block (c / 8)).vhi := Block.eq_of_calm (·.vhi) (Dev.calm_block h.calm (c / 8))
  obtain ⟨hilo, hihi, htj, -⟩ := Cell.readings_eq_iff.1 h.readings
  simp only [Dev.levelMask, hdrive, hlo, hhi, hilo, hihi, htj, h.pf]

/-- The limiter of R80 outside INRUSH is the one its references name. -/
theorem sinkHolder (h : s.SameInputs c t) (hs : (s.cell c).state ≠ .inrush) (ht : (t.cell c).state ≠ .inrush) :
    t.sinkHolder c = s.sinkHolder c := by
  obtain ⟨-, -, -, hplim, halim, hsoa⟩ := Cell.readings_eq_iff.1 h.readings
  -- `hs` and `ht` take the match on the state to its second row on both sides.
  simp only [Dev.sinkHolder, hsoa, halim, hplim, h.pf]

end Dev.SameInputs

/-- A change of the cell that keeps its readings. -/
theorem Dev.modCell_sameInputs (s : Dev) (c : Nat) (f : Cell → Cell)
    (hf : ∀ x : Cell, (f x).readings = x.readings) : s.SameInputs c (s.modCell c f) :=
  ⟨rfl, rfl, Dev.modCell_calm s c f rfl, (congrArg Cell.readings (Dev.cell_setCell_same s c _)).trans (hf _)⟩

/-! ### Events of a cell -/

theorem Dev.cellEvent_of_auto {s : Dev} {c : Nat} (h : s.auto (c / 64) = false) (maskBit code : Nat) (flag : Bool)
    (payload : List Word) : s.cellEvent c maskBit code flag payload =
      if s.pb c 0x5C maskBit = true then s.raise (Event.ofCell c code flag payload) else s := by
  simp [Dev.cellEvent, Dev.raiseIsland, h]

theorem Dev.cellEvent_evq {s : Dev} {c : Nat} (h : s.auto (c / 64) = false) (maskBit code : Nat) (flag : Bool)
    (payload : List Word) : (s.cellEvent c maskBit code flag payload).evq =
      s.evq ++ if s.pb c 0x5C maskBit = true then [Event.ofCell c code flag payload] else [] := by
  rw [Dev.cellEvent_of_auto h]
  split
  · rfl
  · exact (List.append_nil _).symm

theorem Dev.cellEvent_sameInputs (s : Dev) (c k maskBit code : Nat) (flag : Bool) (payload : List Word) :
    s.SameInputs k (s.cellEvent c maskBit code flag payload) := by
  have hcell := Dev.cell_congr (s.cellEvent_cells c maskBit code flag payload) k
  have hframe := Dev.cellEvent_hide (m := 2 ^ 11 + 2 ^ 54) rfl s c maskBit code flag payload rfl
  exact ⟨Dev.hide_keeps hframe .prof rfl, Dev.hide_keeps hframe .tbTime rfl,
    Dev.cellEvent_calm s c maskBit code flag payload rfl, congrArg Cell.readings hcell⟩

@[simp] theorem Dev.cellEvent_slMsgs (s : Dev) (c maskBit code : Nat) (flag : Bool) (payload : List Word) :
    (s.cellEvent c maskBit code flag payload).slMsgs = s.slMsgs :=
  Dev.hide_keeps (Dev.cellEvent_hide (m := 2 ^ 11 + 2 ^ 54) rfl s c maskBit code flag payload rfl) .slMsgs rfl

@[simp] theorem Dev.presenceEvent_cells (s : Dev) (c : Nat) (inserted : Bool) :
    (s.presenceEvent c inserted).cells = s.cells :=
  Dev.cellEvent_cells _ _ _ _ _ _

/-! ### What a cell leaves behind -/

/-- With nothing pending the commit point of a profile changes nothing. -/
theorem Dev.commitProf_of_none {s : Dev} {c : Nat} (h : (s.profMine c).length = 0) : s.commitProf c = s := by
  have hmine : s.profMine c = [] := List.length_eq_zero_iff.1 h
  have hrest : s.profPend.filter (fun p => p.1 / 64 != c) = s.profPend := by
    refine List.filter_eq_self.2 fun p hp => ?_
    have hne := List.filter_eq_nil_iff.1 hmine p hp
    simpa using hne
  simp [Dev.commitProf, hmine, hrest, Prof.apply]

theorem Dev.commitProf_cell_reserved (s : Dev) (c : Nat) : ((s.commitProf c).cell c).reserved = (s.cell c).reserved := by
  unfold Dev.commitProf
  dsimp only
  split
  · rw [Dev.modCell_eq, Dev.cell_setCell_same]; rfl
  · rfl

/-- An aborted pulse leaves the rest of its cell. -/
theorem Dev.abortPulse_cell (s : Dev) (c : Nat) :
    ∃ p r, (s.abortPulse c).cell c = { s.cell c with pulse := p, probe := r } := by
  unfold Dev.abortPulse
  split
  · exact ⟨_, _, rfl⟩
  · exact ⟨_, _, Dev.cell_setCell_same s c _⟩

/-- Outside autonomy a message goes to the sluice at once (R25). -/
theorem Dev.sendSl_of_auto {s : Dev} {g : Nat} (h : s.auto g = false) (m : SlMsg) :
    s.sendSl g m = { s with slMsgs := s.slMsgs ++ [m] } := by
  simp [Dev.sendSl, h]

/-- The blanking mask of what a cell touches as it leaves a state, its commit point aside: cells, regions, the sluice's
queue, completions. -/
def Dev.leaveParts : Nat := 2 ^ 9 + 2 ^ 11 + 2 ^ 38 + 2 ^ 55 + 2 ^ 56

theorem Dev.leaveState_hide (s : Dev) (c : Nat) (st : CellState) :
    Dev.hide Dev.leaveParts (s.leaveState c st) = Dev.hide Dev.leaveParts (s.commitProf c) := by
  unfold Dev.leaveState
  extract_lets old g u v w z
  have hv : Dev.hide Dev.leaveParts v = Dev.hide Dev.leaveParts u := hide_ite (Dev.sendSl_hide rfl _ _ _ rfl) rfl
  have hw : Dev.hide Dev.leaveParts w = Dev.hide Dev.leaveParts u :=
    hide_ite (Dev.modCell_hide rfl _ _ _ (Dev.sendSl_hide rfl _ _ _ hv)) hv
  have hz : Dev.hide Dev.leaveParts z = Dev.hide Dev.leaveParts u := hide_ite (Dev.abortPulse_hide rfl _ _ hw) hw
  exact hide_ite (Dev.endHeldOn_hide rfl _ _ _ hz) hz

theorem Dev.leaveState_calm (s : Dev) (c : Nat) (st : CellState) : (s.leaveState c st).calm = s.calm := by
  unfold Dev.leaveState
  extract_lets old g u v w z
  have hu : u.calm = s.calm := Dev.commitProf_calm s c rfl
  have hv : v.calm = s.calm := calm_ite (Dev.sendSl_calm _ _ _ hu) hu
  have hw : w.calm = s.calm := calm_ite (Dev.modCell_calm _ _ _ (Dev.sendSl_calm _ _ _ hv)) hv
  have hz : z.calm = s.calm := calm_ite (Dev.abortPulse_calm _ _ hw) hw
  exact calm_ite (Dev.endHeldOn_calm _ _ _ hz) hz

/-- The messages with which a cell leaves a state (R77): a pending request is withdrawn, a reservation is released. -/
def Cell.leaveMsgs (x : Cell) (c : Nat) (st : CellState) : List SlMsg :=
  (if x.state = .waitGrant ∧ st ≠ .inrush then [.withdraw c] else []) ++
    if x.state = .inrush ∧ x.reserved = true then [.release c] else []

theorem Dev.leaveState_slMsgs {s : Dev} {c : Nat} (st : CellState) (h : s.auto (c / 64) = false) :
    (s.leaveState c st).slMsgs = s.slMsgs ++ (s.cell c).leaveMsgs c st := by
  unfold Dev.leaveState
  extract_lets old g u v w z
  have hu : u.calm = s.calm := Dev.commitProf_calm s c rfl
  have hv : v.calm = s.calm := calm_ite (Dev.sendSl_calm _ _ _ hu) hu
  have hvcell : (v.cell c).reserved = (s.cell c).reserved := by
    refine (congrArg Cell.reserved (Dev.cell_congr ?_ c)).trans (s.commitProf_cell_reserved c)
    unfold v; split
    · exact Dev.sendSl_cells _ _ _
    · rfl
  have hvmsg : v.slMsgs = s.slMsgs ++ if old = .waitGrant ∧ st ≠ .inrush then [.withdraw c] else [] := by
    have hum : u.slMsgs = s.slMsgs :=
      Dev.hide_keeps (Dev.commitProf_hide (m := 2 ^ 9 + 2 ^ 33 + 2 ^ 34) rfl s c rfl) .slMsgs rfl
    unfold v; split
    · rw [Dev.sendSl_of_auto ((Dev.auto_of_calm hu g).trans h), hum]
    · rw [hum, List.append_nil]
  have hwmsg : w.slMsgs = v.slMsgs ++ if old = .inrush ∧ (s.cell c).reserved = true then [.release c] else [] := by
    unfold w
    rw [hvcell]; split
    · rw [Dev.sendSl_of_auto ((Dev.auto_of_calm hv g).trans h)]; rfl
    · rw [List.append_nil]
  have hz : z.slMsgs = w.slMsgs :=
    Dev.hide_keeps (m := 2 ^ 9) (hide_ite (Dev.abortPulse_hide rfl _ _ rfl) rfl) .slMsgs rfl
  have hend : (if old = .tripped then z.endHeldOn c false else z).slMsgs = z.slMsgs :=
    Dev.hide_keeps (m := 2 ^ 9 + 2 ^ 55 + 2 ^ 56) (hide_ite (Dev.endHeldOn_hide rfl _ _ _ rfl) rfl) .slMsgs rfl
  rw [hend, hz, hwmsg, hvmsg, List.append_assoc]; rfl

/-- A cell that comes from no trip leaves with its reservation released and its pulse ended, and is else as it was. -/
theorem Dev.leaveState_cell {s : Dev} {c : Nat} (st : CellState) (h : (s.cell c).state ≠ .tripped) :
    ∃ p r, (s.leaveState c st).cell c = { (s.commitProf c).cell c with
      reserved := (s.cell c).reserved && decide ((s.cell c).state ≠ .inrush), pulse := p, probe := r } := by
  unfold Dev.leaveState
  extract_lets old g u v w z
  have hv : v.cell c = u.cell c := by
    refine Dev.cell_congr ?_ c
    unfold v; split
    · exact Dev.sendSl_cells _ _ _
    · rfl
  have hures : (u.cell c).reserved = (s.cell c).reserved := s.commitProf_cell_reserved c
  have hw : w.cell c = { u.cell c with reserved := (s.cell c).reserved && decide (old ≠ .inrush) } := by
    unfold w
    rw [hv, hures]
    split
    next hrel =>
      rw [Dev.modCell_eq, Dev.cell_setCell_same, Dev.cell_congr (Dev.sendSl_cells _ _ _), hv, hrel.1]; simp
    next hkeep =>
      have hres : ((s.cell c).reserved && decide (old ≠ .inrush)) = (u.cell c).reserved := by
        rw [hures]
        by_cases ho : old = .inrush
        · simpa [ho] using hkeep
        · simp [ho]
      rw [hv, hres]
  have hz : ∃ p r, z.cell c = { w.cell c with pulse := p, probe := r } := by
    unfold z; split
    · exact Dev.abortPulse_cell w c
    · exact ⟨_, _, rfl⟩
  obtain ⟨p, r, hz⟩ := hz
  exact ⟨p, r, by rw [if_neg h, hz, hw]⟩

/-- With nothing pending, the readings of the cell are those it had. -/
theorem Dev.leaveState_sameInputs {s : Dev} {c : Nat} (st : CellState) (h : (s.cell c).state ≠ .tripped)
    (hnone : (s.profMine c).length = 0) : s.SameInputs c (s.leaveState c st) := by
  obtain ⟨p, r, hcell⟩ := Dev.leaveState_cell st h
  have hframe := s.leaveState_hide c st
  rw [Dev.commitProf_of_none hnone] at hcell hframe
  exact ⟨Dev.hide_keeps hframe .prof rfl, Dev.hide_keeps hframe .tbTime rfl, s.leaveState_calm c st,
    (congrArg Cell.readings hcell :)⟩

/-! ### The entry, and EV_STATE -/

/-- The blanking mask of what the entry to a state that asks for no grant touches, EV_STATE aside. -/
def Dev.enterParts : Nat := 2 ^ 0 + 2 ^ 9 + 2 ^ 10 + 2 ^ 27 + 2 ^ 28 + 2 ^ 43 + 2 ^ 59

theorem Dev.enterState_hide (s : Dev) (c : Nat) (st : CellState) :
    Dev.hide Dev.enterParts (s.enterState c st) = Dev.hide Dev.enterParts s :=
  Dev.withBcast_hide rfl s _ _ (fun _ _ hu => Dev.holdExit_hide rfl _ _ (Dev.modCell_hide rfl _ _ _ hu)) rfl

theorem Dev.arriveState_eq (s : Dev) (c : Nat) (old : CellState) {st : CellState} (t : Nat) (h : st ≠ .waitGrant) :
    ∃ u : Dev, Dev.hide Dev.enterParts u = Dev.hide Dev.enterParts s ∧ s.arriveState c old st t =
      u.cellEvent c 0 0x010 false (Bits.words2 t ++ [BitVec.ofNat 32 (st.code + old.code * 16)]) := by
  unfold Dev.arriveState
  extract_lets g u v w
  have hu : u = s := if_neg h
  have hv : Dev.hide Dev.enterParts v = Dev.hide Dev.enterParts s := by
    unfold v; rw [hu]; exact hide_ite (Dev.startTests_hide rfl _ _ rfl) rfl
  have hw : Dev.hide Dev.enterParts w = Dev.hide Dev.enterParts s := hide_ite (Dev.modConv_hide rfl _ _ _ hv) hv
  split
  next clocks r hd =>
  have hr : Dev.hide Dev.enterParts r = Dev.hide Dev.enterParts s := by
    rw [← show _ = r from congrArg Prod.snd hd]
    split
    · exact Dev.drawNat_hide rfl _ hw
    · exact hw
  exact ⟨_, Dev.modLane_hide rfl _ _ _ (Dev.gateLane_hide rfl _ _ _ hr), rfl⟩

/-- A transition to a state that asks for no grant: what the cell leaves behind, the entry `u`, and EV_STATE. -/
theorem Dev.goto_eq_event {s : Dev} {c : Nat} {st : CellState} (h : (s.cell c).state ≠ st) (hst : st ≠ .waitGrant) :
    ∃ (u : Dev) (payload : List Word), Dev.hide Dev.enterParts u = Dev.hide Dev.enterParts (s.leaveState c st) ∧
      u.calm = s.calm ∧ s.goto c st = u.cellEvent c 0 0x010 false payload := by
  obtain ⟨u, hu, harr⟩ := Dev.arriveState_eq ((s.leaveState c st).enterState c st) c (s.cell c).state
    ((s.leaveState c st).rtime (c / 64)) hst
  have hgoto := (Dev.goto_eq s c st h).trans harr
  refine ⟨u, _, hu.trans (Dev.enterState_hide _ c st), ?_, hgoto⟩
  rw [← Dev.goto_calm s c st rfl, hgoto]
  exact (Dev.cellEvent_calm u c 0 _ _ _ rfl).symm

theorem Dev.goto_slMsgs {s : Dev} {c : Nat} {st : CellState} (h : (s.cell c).state ≠ st) (hst : st ≠ .waitGrant)
    (hauto : s.auto (c / 64) = false) : (s.goto c st).slMsgs = s.slMsgs ++ (s.cell c).leaveMsgs c st := by
  obtain ⟨u, payload, hu, -, hgoto⟩ := Dev.goto_eq_event h hst
  rw [hgoto, Dev.cellEvent_slMsgs, ← Dev.leaveState_slMsgs st hauto]
  exact Dev.hide_keeps hu .slMsgs rfl

theorem Dev.goto_evq {s : Dev} {c : Nat} {st : CellState} (h : (s.cell c).state ≠ st) (hst : st ≠ .waitGrant)
    (hauto : s.auto (c / 64) = false) (hnone : (s.profMine c).length = 0) :
    ∃ e, (s.goto c st).evq = s.evq ++ if s.pb c 0x5C 0 = true then [e] else [] := by
  obtain ⟨u, payload, hu, hcalm, hgoto⟩ := Dev.goto_eq_event h hst
  have hleave := s.leaveState_hide c st
  rw [Dev.commitProf_of_none hnone] at hleave
  have hevq : u.evq = s.evq :=
    (Dev.hide_keeps hu .evq rfl : u.evq = (s.leaveState c st).evq).trans (Dev.hide_keeps hleave .evq rfl)
  have hprof : u.prof = s.prof :=
    (Dev.hide_keeps hu .prof rfl : u.prof = (s.leaveState c st).prof).trans (Dev.hide_keeps hleave .prof rfl)
  have hpb : u.pb c 0x5C 0 = s.pb c 0x5C 0 := by rw [Dev.pb, Dev.pword, hprof]; rfl
  refine ⟨Event.ofCell c 0x010 false payload, ?_⟩
  rw [hgoto, Dev.cellEvent_evq ((Dev.auto_of_calm hcalm _).trans hauto), hevq, hpb]

/-! ### The cell after its entry -/

theorem Dev.goto_cell {s : Dev} {c : Nat} {st : CellState} (h : (s.cell c).state ≠ st) (hst : st ≠ .precheck) :
    ∃ x, (s.goto c st).cell c = { (s.leaveState c st).entryFields c st ((s.leaveState c st).rtime (c / 64))
      ((s.leaveState c st).cell c) with src := x } := by
  rw [Dev.goto_eq s c st h, Dev.cell_congr (Dev.arriveState_cells _ _ _ _ _ hst),
    Dev.cell_congr (Dev.enterState_cells _ _ _)]
  obtain ⟨x, hx⟩ := Dev.holdExit_cell ((s.leaveState c st).modCell c
    ((s.leaveState c st).entryFields c st ((s.leaveState c st).rtime (c / 64)))) c
  exact ⟨x, by rw [hx, Dev.modCell_eq, Dev.cell_setCell_same]⟩

@[simp] theorem Dev.entryFields_state (s : Dev) (c : Nat) (st : CellState) (t : Nat) (x : Cell) :
    (s.entryFields c st t x).state = st := by
  cases st <;> rfl

@[simp] theorem Dev.entryFields_entered (s : Dev) (c : Nat) (st : CellState) (t : Nat) (x : Cell) :
    (s.entryFields c st t x).entered = t := by
  cases st <;> rfl

@[simp] theorem Dev.entryFields_reserved (s : Dev) (c : Nat) (st : CellState) (t : Nat) (x : Cell) :
    (s.entryFields c st t x).reserved = x.reserved := by
  cases st <;> rfl

theorem Dev.goto_state {s : Dev} {c : Nat} {st : CellState} (hst : st ≠ .precheck) :
    ((s.goto c st).cell c).state = st := by
  by_cases h : (s.cell c).state = st
  · rw [Dev.goto, if_pos h, h]
  · obtain ⟨x, hx⟩ := Dev.goto_cell h hst
    rw [hx, Dev.entryFields_state]

@[simp] theorem Dev.entryFields_readings (s : Dev) (c : Nat) (st : CellState) (t : Nat) (x : Cell) :
    (s.entryFields c st t x).readings = x.readings := by
  cases st <;> rfl

/-- A transition of a cell with nothing pending, from no trip to a state without a self-test or a grant request, keeps all
that its checks and limiters read. -/
theorem Dev.goto_sameInputs {s : Dev} {c : Nat} {st : CellState} (htrip : (s.cell c).state ≠ .tripped)
    (hnone : (s.profMine c).length = 0) (hpre : st ≠ .precheck) (hwait : st ≠ .waitGrant) :
    s.SameInputs c (s.goto c st) := by
  by_cases h : (s.cell c).state = st
  · rw [Dev.goto, if_pos h]
    exact .refl c s
  have hleave := Dev.leaveState_sameInputs st htrip hnone
  obtain ⟨u, payload, hu, hcalm, hgoto⟩ := Dev.goto_eq_event h hwait
  have hevent := u.cellEvent_sameInputs c c 0 0x010 false payload
  rw [← hgoto] at hevent
  obtain ⟨x, hcell⟩ := Dev.goto_cell h hpre
  have hcells : ((s.goto c st).cell c).readings = ((s.leaveState c st).cell c).readings :=
    (congrArg Cell.readings hcell).trans ((s.leaveState c st).entryFields_readings c st _ _)
  exact hleave.trans ⟨hevent.prof.trans (Dev.hide_keeps hu .prof rfl), hevent.tbTime.trans (Dev.hide_keeps hu .tbTime rfl),
    hevent.calm.trans (hcalm.trans hleave.calm.symm), hcells⟩

/-! ### Level checks at entry (R86) -/

theorem Dev.tripAt_zero (s : Dev) (c time : Nat) : s.tripAt c 0 time = s := by
  have hnone : s.armedCauses c 0 = [] :=
    List.filter_eq_nil_iff.2 fun n _ => by simp [Bits.nbit_eq_testBit]
  rw [Dev.tripAt, hnone]

/-- Outside autonomy, with no level active, an entry is followed by no trip and by no other cell's entry. -/
theorem Dev.SameInputs.levelTrips_autoNext {c : Nat} {s t : Dev} (h : s.SameInputs c t) (hauto : s.auto (c / 64) = false)
    (hlevel : s.levelMask c = 0) : (t.levelTrips c).autoNext (c / 64) = t := by
  rw [Dev.levelTrips, Dev.tripNow, h.levelMask, hlevel, Dev.tripAt_zero,
    Dev.autoNext_of_not_auto ((h.auto _).trans hauto)]

theorem Only.of_others {c : Nat} {s t : Dev} (h : t.others c = s.others c) : Only Dev.cell c s t :=
  fun _ hd => Dev.others_cell h hd

end Sys2Proof.Machine
end

section
/-! SUPPORT. The rows of the waits and the limits of a channel, from the transition each of them makes. -/

namespace Sys2Proof.Machine

/-! ### The limit and its holder (R79 to R81) -/

/-- What the entry to LIMIT leaves of its cell while the drive is available (Tables 2-3 and 3-4, R84). -/
theorem Dev.goto_limit_cell {s : Dev} {c : Nat} (hon : (s.cell c).state = .on) (hnone : (s.profMine c).length = 0)
    (hdrive : s.driveAvail c = true) : ((s.goto c .limit).cell c).gate = .regulated (s.pf c 0 4 4) ∧
      ((s.goto c .limit).cell c).faultUs = s.pf c 0x18 0 24 := by
  have hleave := Dev.leaveState_sameInputs .limit (hon.trans_ne (by decide)) hnone
  obtain ⟨x, hcell⟩ := Dev.goto_cell (s := s) (st := .limit) (hon.trans_ne (by decide)) (by decide)
  rw [hcell, ← hleave.pf, ← hleave.pf]
  have hgate : (s.leaveState c .limit).gateFor c .limit = .regulated ((s.leaveState c .limit).pf c 0 4 4) :=
    if_pos ((hleave.driveAvail c).trans hdrive)
  exact ⟨hgate, rfl⟩

/-- The holder that R80 names is recorded, and the amplifier sinks (R81). -/
def Cell.heldBy (h : Holder) (x : Cell) : Cell := { x with holder := h, sinking := true, soaHeld := decide (h = .soa) }

theorem Dev.heldBy_sameInputs (s : Dev) (c : Nat) (h : Holder) : s.SameInputs c (s.modCell c (Cell.heldBy h)) :=
  Dev.modCell_sameInputs s c _ fun _ => rfl

/-! ### A failed precheck (R75) -/

theorem Dev.precheckFail_eq (s : Dev) (c reason : Nat) : ∃ w, s.precheckFail c reason =
    ((s.goto c .off).modCell c (fun x => { x with holdOff := true })).cellEvent c 2 0x012 false
      (Bits.words2 (((s.goto c .off).modCell c (fun x => { x with holdOff := true })).rtime (c / 64)) ++
        [BitVec.ofNat 32 reason, w]) :=
  ⟨_, rfl⟩

theorem Dev.precheckFail_cell (s : Dev) (c reason : Nat) :
    (s.precheckFail c reason).cell c = { (s.goto c .off).cell c with holdOff := true } := by
  obtain ⟨w, hw⟩ := s.precheckFail_eq c reason
  rw [hw, Dev.cell_congr (Dev.cellEvent_cells _ _ _ _ _ _), Dev.modCell_eq, Dev.cell_setCell_same]

/-- The failure is reported after the change of state. -/
theorem Dev.precheckFail_evq {s : Dev} {c : Nat} (reason : Nat) (hst : (s.cell c).state = .precheck)
    (hauto : s.auto (c / 64) = false) (hpb : s.pb c 0x5C 2 = true) (hnone : (s.profMine c).length = 0) :
    ∃ e w, (s.precheckFail c reason).evq = s.evq ++ (if s.pb c 0x5C 0 = true then [e] else []) ++
      [Event.ofCell c 0x012 false (Bits.words2 (s.rtime (c / 64)) ++ [BitVec.ofNat 32 reason, w])] := by
  have hoff : (s.cell c).state ≠ .off := hst.trans_ne (by decide)
  have hgoto := Dev.goto_sameInputs (st := .off) (hst.trans_ne (by decide)) hnone (by decide) (by decide)
  have hsame := hgoto.trans (Dev.modCell_sameInputs _ c (fun x => { x with holdOff := true }) fun _ => rfl)
  obtain ⟨e, he⟩ := Dev.goto_evq hoff (by decide) hauto hnone
  obtain ⟨w, hw⟩ := s.precheckFail_eq c reason
  refine ⟨e, w, ?_⟩
  rw [hw, Dev.cellEvent_evq ((hsame.auto _).trans hauto), hsame.pb, if_pos hpb, hsame.rtime, Dev.modCell_eq,
    Dev.setCell_evq, he]

/-! ### What the commands answer -/

section
variable {c : CellIx} {s : State}

theorem exec_precheckWaitExpiry (hst : (s.dev.cell c).state = .precheck) (hvin : (s.dev.cell c).pcVin = false) :
    exec (.precheckWaitExpiry c) s = .next { s with dev := s.dev.precheckFail c 1 } := by
  change execPrecheckWaitExpiry c s = _
  exact State.on_next _ _ _ (congrArg Host.Outcome.next (if_pos ⟨hst, hvin⟩))

/-- The timeout of the wait is raised once (R78). -/
theorem exec_grantTimeout (hst : (s.dev.cell c).state = .waitGrant) (hlate : (s.dev.cell c).grantLate = false)
    (hpf : s.dev.pf c 0x48 0 16 ≠ 0) : exec (.grantTimeout c) s = .next { s with
      dev := (s.dev.setCell c { s.dev.cell c with grantLate := true }).cellEvent c 3 0x013 false
        (Bits.words2 (s.dev.rtime (c / 64)) ++ Bits.words2 (s.dev.cell c).entered ++
          [BitVec.ofNat 32 (s.dev.pf c 0 12 4 + s.dev.pf c 0 16 3 * 16)]) } := by
  change execGrantTimeout c s = _
  exact State.on_next _ _ _ (if_pos ⟨hst, hlate, hpf⟩)

theorem exec_grantTimeout_noEffect (h : (s.dev.cell c).state ≠ .waitGrant ∨ (s.dev.cell c).grantLate = true ∨
    s.dev.pf c 0x48 0 16 = 0) : NoEffect (.grantTimeout c) s := by
  change execGrantTimeout c s = _
  refine State.on_next s _ s.dev (if_neg ?_)
  rintro ⟨hst, hlate, hpf⟩
  rcases h with h | h | h
  · exact h hst
  · rw [hlate] at h; cases h
  · exact hpf h

theorem exec_removal (hst : (s.dev.cell c).state = .on) (hload : s.dev.pf c 0x44 0 16 ≠ 0)
    (hmode : s.dev.pf c 0 0 2 ≠ 0) : exec (.removal c) s = .next { s with
      dev := ((s.dev.goto c .off).modCell c (fun x => { x with present := false })).presenceEvent c false } := by
  change execRemoval c s = _
  exact State.on_next _ _ _ (if_pos ⟨hst, hload, hmode⟩)

/-- Power good outside autonomy with no level active: the cell is in ON, and the event of R82. -/
theorem exec_powerGood (hst : (s.dev.cell c).state = .inrush) (hauto : s.dev.auto (c / 64) = false)
    (hnone : (s.dev.profMine c).length = 0) (hlevel : s.dev.levelMask c = 0) :
    ∃ payload, exec (.powerGood c) s = .next { s with
      dev := (s.dev.goto c .on).cellEvent c 4 0x014 false payload } := by
  have hgoto := Dev.goto_sameInputs (st := .on) (hst.trans_ne (by decide)) hnone (by decide) (by decide)
  change ∃ payload, execPowerGood c s = _
  exact ⟨_, State.on_next _ _ _ ((if_pos hst).trans (congrArg Host.Outcome.next
    ((hgoto.trans (Dev.cellEvent_sameInputs _ c c 4 0x014 false _)).levelTrips_autoNext hauto hlevel)))⟩

theorem exec_limitRelease (hst : (s.dev.cell c).state = .limit) (hauto : s.dev.auto (c / 64) = false)
    (hnone : (s.dev.profMine c).length = 0) (hlevel : s.dev.levelMask c = 0) :
    exec (.limitRelease c) s = .next { s with dev := s.dev.goto c .on } := by
  have hgoto := Dev.goto_sameInputs (st := .on) (hst.trans_ne (by decide)) hnone (by decide) (by decide)
  change execLimitRelease c s = _
  exact State.on_next _ _ _ ((if_pos hst).trans (congrArg Host.Outcome.next (hgoto.levelTrips_autoNext hauto hlevel)))

/-- The entry to LIMIT outside autonomy with no level active: the holder of R80, and the event of R81. -/
theorem exec_limitEntry (hst : (s.dev.cell c).state = .on) (hauto : s.dev.auto (c / 64) = false)
    (hnone : (s.dev.profMine c).length = 0) (hlevel : s.dev.levelMask c = 0) (hdrive : s.dev.driveAvail c = true)
    (hheld : (s.dev.cell c).iSoa.isSome = true ∨ (s.dev.cell c).iAlim.isSome = true) :
    ∃ payload, exec (.limitEntry c) s = .next { s with
      dev := ((s.dev.goto c .limit).modCell c (Cell.heldBy (s.dev.sinkHolder c))).cellEvent c 5 0x015 false payload } := by
  have hgoto := Dev.goto_sameInputs (st := .limit) (hst.trans_ne (by decide)) hnone (by decide) (by decide)
  have hholder : (s.dev.goto c .limit).sinkHolder c = s.dev.sinkHolder c :=
    hgoto.sinkHolder (hst.trans_ne (by decide)) ((Dev.goto_state (by decide)).trans_ne (by decide))
  rw [← hholder]
  change ∃ payload, execLimitEntry c s = _
  have hheldBy := hgoto.trans (Dev.heldBy_sameInputs _ c ((s.dev.goto c .limit).sinkHolder c))
  exact ⟨_, State.on_next _ _ _ ((if_pos ⟨hst, hdrive, hheld⟩).trans (congrArg Host.Outcome.next
    ((hheldBy.trans (Dev.cellEvent_sameInputs _ c c 5 0x015 false _)).levelTrips_autoNext hauto hlevel)))⟩

end

end Sys2Proof.Machine

namespace Sys2Proof.Proofs
open Sys2Proof Sys2Proof.Machine

/-- R75: OFF with HOLD_OFF, and the event with reason 1 after that of the change of state. -/
theorem precheckWaitExpiry_fails (c : CellIx) (s : State) (hst : (s.dev.cell c).state = .precheck)
    (hvin : (s.dev.cell c).pcVin = false) :
    Does (.precheckWaitExpiry c) s Parts.cell fun t => Only Dev.cell c s.dev t ∧
      (t.cell c).state = .off ∧ (t.cell c).holdOff = true ∧
      (s.dev.auto (c / 64) = false → s.dev.pb c 0x5C 2 = true → (s.dev.profMine c).length = 0 →
        ∃ (e : Event) (w : Word), t.evq = s.dev.evq ++ (if s.dev.pb c 0x5C 0 = true then [e] else []) ++
          [Event.ofCell c 0x012 false (Bits.words2 (s.dev.rtime (c / 64)) ++ [1, w])]) := by
  refine Does.of_next (exec_precheckWaitExpiry hst hvin) (Dev.precheckFail_hide rfl _ _ _ rfl) Dev.cellParts_testBit
    ⟨Only.of_others (Dev.precheckFail_others _ _ _ rfl), ?_⟩
  rw [Dev.precheckFail_cell]
  exact ⟨Dev.goto_state (by decide), rfl, Dev.precheckFail_evq 1 hst⟩

/-- R78: the event of the timeout, and that it has been raised. -/
theorem grantTimeout_raises (c : CellIx) (s : State) (hst : (s.dev.cell c).state = .waitGrant)
    (hpf : s.dev.pf c 0x48 0 16 ≠ 0) (hlate : (s.dev.cell c).grantLate = false) (hpb : s.dev.pb c 0x5C 3 = true)
    (hauto : s.dev.auto (c / 64) = false) :
    Becomes (.grantTimeout c) s ((s.dev.setCell c { s.dev.cell c with grantLate := true }).raise
      (Event.ofCell c 0x013 false (Bits.words2 (s.dev.rtime (c / 64)) ++ Bits.words2 (s.dev.cell c).entered ++
        [BitVec.ofNat 32 (s.dev.pf c 0 12 4 + s.dev.pf c 0 16 3 * 16)]))) := by
  have hevent := Dev.cellEvent_of_auto (s := s.dev.setCell c { s.dev.cell c with grantLate := true }) hauto 3 0x013 false
  rw [Becomes, exec_grantTimeout hst hlate hpf, hevent, if_pos]
  exact hpb

/-- R76: OFF, and the cell absent. -/
theorem removal_off (c : CellIx) (s : State) (hst : (s.dev.cell c).state = .on) (hload : s.dev.pf c 0x44 0 16 ≠ 0)
    (hmode : s.dev.pf c 0 0 2 ≠ 0) :
    Does (.removal c) s Parts.cell fun t => Only Dev.cell c s.dev t ∧ (t.cell c).state = .off ∧
      (t.cell c).present = false := by
  refine Does.of_next (exec_removal hst hload hmode)
    (Dev.presenceEvent_hide rfl _ _ _ (Dev.modCell_hide rfl _ _ _ (Dev.goto_hide rfl _ _ _ rfl))) Dev.cellParts_testBit
    ⟨Only.of_others (Dev.presenceEvent_others _ _ _ (Dev.modCell_others _ _ _ (Dev.goto_others _ _ _ rfl))), ?_⟩
  rw [Dev.cell_congr (Dev.presenceEvent_cells _ _ _), Dev.modCell_eq, Dev.cell_setCell_same]
  exact ⟨Dev.goto_state (by decide), rfl⟩

/-- R82, R77: ON at the replica time, and the reservation given back. -/
theorem powerGood_on (c : CellIx) (s : State) (hauto : s.dev.auto (c / 64) = false)
    (hnone : (s.dev.profMine c).length = 0) (hlevel : s.dev.levelMask c = 0) (hst : (s.dev.cell c).state = .inrush) :
    Does (.powerGood c) s Parts.cell fun t => Only Dev.cell c s.dev t ∧
      (t.cell c).state = .on ∧ (t.cell c).entered = s.dev.rtime (c / 64) ∧ (t.cell c).reserved = false ∧
      t.slMsgs = s.dev.slMsgs ++ (if (s.dev.cell c).reserved = true then [.release c] else []) := by
  have hne : (s.dev.cell c).state ≠ .on := hst.trans_ne (by decide)
  have htrip : (s.dev.cell c).state ≠ .tripped := hst.trans_ne (by decide)
  obtain ⟨payload, hexec⟩ := exec_powerGood hst hauto hnone hlevel
  refine Does.of_next hexec
    (Dev.cellEvent_hide rfl _ _ _ _ _ _ (Dev.goto_hide rfl _ _ _ rfl)) Dev.cellParts_testBit
    ⟨Only.of_others (Dev.cellEvent_others _ _ _ _ _ _ (Dev.goto_others _ _ _ rfl)), ?_⟩
  rw [Dev.cell_congr (Dev.cellEvent_cells _ _ _ _ _ _), Dev.cellEvent_slMsgs, Dev.goto_slMsgs hne (by decide) hauto]
  obtain ⟨x, hcell⟩ := Dev.goto_cell hne (by decide)
  obtain ⟨p, r, hleave⟩ := Dev.leaveState_cell .on htrip
  refine ⟨Dev.goto_state (by decide), ?_, ?_, ?_⟩
  · rw [hcell, Dev.entryFields_entered, (Dev.leaveState_sameInputs .on htrip hnone).rtime]
  · rw [hcell, Dev.entryFields_reserved, hleave, hst]
    exact Bool.and_false _
  · simp [Cell.leaveMsgs, hst]

/-- R83: ON, with nothing for the sluice. -/
theorem limitRelease_on (c : CellIx) (s : State) (hauto : s.dev.auto (c / 64) = false)
    (hnone : (s.dev.profMine c).length = 0) (hlevel : s.dev.levelMask c = 0) (hst : (s.dev.cell c).state = .limit) :
    Does (.limitRelease c) s Parts.cell fun t => Only Dev.cell c s.dev t ∧ (t.cell c).state = .on ∧
      t.slMsgs = s.dev.slMsgs := by
  refine Does.of_next (exec_limitRelease hst hauto hnone hlevel) (Dev.goto_hide rfl _ _ _ rfl) Dev.cellParts_testBit
    ⟨Only.of_others (Dev.goto_others _ _ _ rfl), Dev.goto_state (by decide), ?_⟩
  rw [Dev.goto_slMsgs (hst.trans_ne (by decide)) (by decide) hauto]
  simp [Cell.leaveMsgs, hst]

/-- R75 to R78, R82, R83: each row from the transition it makes. -/
theorem channelWaits : Rules.ChannelWaits :=
  ⟨precheckWaitExpiry_fails,
    fun c s hst hpf => ⟨grantTimeout_raises c s hst hpf, fun hlate => exec_grantTimeout_noEffect (.inr (.inl hlate))⟩,
    fun _ _ h => exec_grantTimeout_noEffect (h.imp_right .inr),
    removal_off,
    fun c s hauto hnone hlevel => ⟨powerGood_on c s hauto hnone hlevel, limitRelease_on c s hauto hnone hlevel⟩⟩

/-- R79 to R81: the entry to LIMIT, then its holder. -/
theorem limitEntry : Rules.LimitEntry := by
  intro c s hauto hnone hlevel hst hdrive hheld
  obtain ⟨payload, hexec⟩ := exec_limitEntry hst hauto hnone hlevel hdrive hheld
  obtain ⟨hgate, hfault⟩ := Dev.goto_limit_cell hst hnone hdrive
  refine Does.of_next hexec
    (Dev.cellEvent_hide rfl _ _ _ _ _ _ (Dev.modCell_hide rfl _ _ _ (Dev.goto_hide rfl _ _ _ rfl))) Dev.cellParts_testBit
    ⟨Only.of_others (Dev.cellEvent_others _ _ _ _ _ _ (Dev.modCell_others _ _ _ (Dev.goto_others _ _ _ rfl))), ?_⟩
  rw [Dev.cell_congr (Dev.cellEvent_cells _ _ _ _ _ _), Dev.modCell_eq, Dev.cell_setCell_same]
  exact ⟨Dev.goto_state (by decide), rfl, rfl, hgate, hfault⟩

/-- Settles O6: the waits of a channel and its limits, with what each transition leaves of its cell and the queues. -/
theorem waitsAndLimits : Obligations.WaitsAndLimits := ⟨channelWaits, limitEntry⟩

end Sys2Proof.Proofs
end

section
/-! SUPPORT. The energy that a decimation boundary adds (spec/06 R137, spec/07 R162), and the frame whose time is before the
latest sample of its lane: a replica may step backward at a rejoin (R188). -/

namespace Sys2Proof.Machine

/-! ### Energy counters -/

/-- The energy counters of a lane with the fractions below one count (R162). -/
structure Energy where
  fwd : Nat
  accFwd : Nat
  rev : Nat
  accRev : Nat

def Lane.energy (l : Lane) : Energy := ⟨l.eFwd, l.accFwd, l.eRev, l.accRev⟩

/-- `e` added to the counter of its sign, and the whole counts of each fraction carried over (R162). -/
def Energy.add (a : Energy) (e : Int) : Energy :=
  let f := a.accFwd + (max 0 e).toNat
  let r := a.accRev + (max 0 (-e)).toNat
  { fwd := (a.fwd + f / 10 ^ 12) % 2 ^ 64, accFwd := f % 10 ^ 12
    rev := (a.rev + r / 10 ^ 12) % 2 ^ 64, accRev := r % 10 ^ 12 }

/-- The time from the latest sample of a lane to a frame of time `t`: negative where the replica has stepped backward between
them. -/
def Lane.interval (l : Lane) (t : Nat) : Int :=
  match l.eTime with
  | some p => (t : Int) - p
  | none => 0

theorem Lane.sample_energy (l : Lane) (t : Nat) (i ua : Int) (v : Nat) (bridged iSat vSat : Bool) :
    (l.sample t i ua v bridged iSat vSat).energy = l.energy.add ((v : Int) * ua * l.interval t) := rfl

/-! ### One lane (R137, R138, R162) -/

/-- The lane takes a valid sample: its filters have settled and it runs (R138, R152). -/
def Lane.valid (l : Lane) : Bool := decide (l.settle = 0) && !l.stopped

/-- The current code and the voltage code of a cell's raw values (R137, R161). -/
def Dev.iCode (s : Dev) (c : Nat) (xi : Int) : Int := (Conv.iCode (s.correctedI c xi)).1
def Dev.vCode (s : Dev) (c : Nat) (xv : Int) : Nat := (Conv.vCode (s.correctedV c xv)).1

/-- The energy of a valid sample of cell `c` in a frame of time `t`. -/
def Dev.sampleEnergy (s : Dev) (c t : Nat) (xi xv : Int) : Int :=
  (s.vCode c xv : Int) * s.codeUa c (s.iCode c xi) * (s.lane c).interval t

theorem Dev.codeUa_congr {s t : Dev} (h : t.prof = s.prof) (c : Nat) (i : Int) : t.codeUa c i = s.codeUa c i := by
  simp only [Dev.codeUa, Dev.fsUv, Dev.range, Dev.pf, Dev.pword, h]

/-- The energy of a sample reads the profile, the calibration and its lane. -/
theorem Dev.sampleEnergy_congr {s t : Dev} {c : Nat} (hp : t.prof = s.prof) (hr : t.regs = s.regs)
    (hl : t.lane c = s.lane c) (u : Nat) (xi xv : Int) : t.sampleEnergy c u xi xv = s.sampleEnergy c u xi xv := by
  simp only [Dev.sampleEnergy, Dev.vCode, Dev.iCode, Dev.correctedI, Dev.correctedV, Dev.corrected, Dev.range, Dev.pf,
    Dev.pword, Dev.reg, Dev.codeUa_congr hp, hp, hr, hl]

theorem Dev.laneSample_energy {s : Dev} {c : Nat} (t osr : Nat) (xi xv : Int) (after16 : Bool)
    (h : (s.lane c).valid = true) : ((s.laneSample c t osr xi xv after16).lane c).energy =
      (s.lane c).energy.add (s.sampleEnergy c t xi xv) := by
  obtain ⟨-, hrun⟩ := Bool.and_eq_true_iff.1 h
  unfold Dev.laneSample
  extract_lets l x i v valid sat u ui uv ua reset
  have hvalid : valid = true := h
  have hlane : u.lane c = s.lane c := by
    unfold u; split <;> rfl
  have hprof : u.prof = s.prof := by
    unfold u; split <;> rfl
  have hui : ui = i.1 := if_pos hvalid
  have huv : uv = v.1 := if_pos hvalid
  have hua : ua = s.codeUa c i.1 := by
    unfold ua
    rw [hui, Dev.codeUa_congr hprof]
  rw [Dev.modLane_eq, Dev.lane_setLane_same, hlane]
  refine (congrArg Lane.energy (if_neg ?_)).trans ?_
  · rw [hvalid]
    simpa using hrun
  · rw [Lane.sample_energy, huv, hua]
    rfl

theorem Dev.laneSample_state (s : Dev) (c t osr : Nat) (xi xv : Int) (after16 : Bool) :
    ((s.laneSample c t osr xi xv after16).cell c).state = (s.cell c).state := by
  unfold Dev.laneSample
  extract_lets l x i v valid sat u
  rw [Dev.cell_congr (Dev.modLane_cells _ _ _)]
  unfold u
  split <;> rw [Dev.modCell_eq, Dev.cell_setCell_same]

theorem Dev.laneSample_others (s : Dev) (c t osr : Nat) (xi xv : Int) (after16 : Bool) :
    (s.laneSample c t osr xi xv after16).others c = s.others c :=
  Dev.modLane_others _ c _ (others_ite (Dev.modCell_others s c _ rfl) (Dev.modCell_others s c _ rfl))

/-! ### The boundary of a block -/

/-- The samples of the eight lanes of block `b` in a frame of time `t`. -/
def Dev.sampleLanes (s : Dev) (b t osr : Nat) (x : BlockInputs) : Dev :=
  s.forEach (List.range 8) (fun s l =>
    s.laneSample (8 * b + l) t osr (x.i.getD l 0).toInt (x.v.getD l 0).toInt (x.after16.getLsbD l))

/-- The low bits of the frame number in the tags. -/
def Dev.tagLanes (s : Dev) (b seq : Nat) : Dev :=
  s.forEach (List.range 8) (fun s l => s.modLane (8 * b + l) (fun y => { y with tag := y.tag % 1024 + seq % 64 * 1024 }))

/-- The next frame number and ratio of block `b`, its frame `f` on the strait while that is up, and the commit of OSR. -/
def Dev.sendFrame (s : Dev) (b : Nat) (f : Frame) (switch : Bool) : Dev :=
  let s := s.modConv b (fun k => { k with
    seq := (k.seq + 1) % 2 ^ 32, trip := 0, osrPend := k.osrPend && !switch
    osr := if switch then s.rf (RegMap.convCfg b) 0 2 else k.osr })
  let s := if s.straitUp (b / 8) then s.modConv b (fun k => { k with frames := k.frames ++ [f] }) else s
  s.commitOsr b

/-- The prechecks of the eight cells on their new samples (R75). -/
def Dev.precheckLanes (s : Dev) (b : Nat) : Dev :=
  s.forEach (List.range 8) (fun t l => t.precheckStep (8 * b + l) (s.plausOk b))

/-- A boundary of block `b` that commits no calibration. -/
def Dev.boundary (s : Dev) (b : Nat) (x : BlockInputs) : Dev :=
  let t := s.rtime (b / 8) / 4 * 4
  let k := s.conv b
  ((((s.vinSample b k.osr x.vin.toInt (x.after16.getLsbD 8)).sampleLanes b t k.osr x).tagLanes b k.seq).sendFrame b
    (s.frameOf b t x) (k.osrPend && x.osr16)).precheckLanes b

theorem exec_decimationBoundary {s : State} (b : BlockIx) (x : BlockInputs) (h : s.dev.regsPend = []) :
    exec (.decimationBoundary b x) s = .next { s with dev := s.dev.boundary b x } := by
  have hcal : s.dev.commitCal b = s.dev := by
    rw [Dev.commitCal, h]
    rfl
  change execDecimationBoundary b x s = _
  refine State.on_next _ _ _ ?_
  dsimp only
  rw [hcal]
  rfl

/-- The energy counters of lane `c`, and the state of its cell. -/
def Dev.metered (c : Nat) (s : Dev) : Energy × CellState := ((s.lane c).energy, (s.cell c).state)

section
variable {c : Nat}

theorem Dev.metered_of_others {s t : Dev} {d : Nat} (h : t.others d = s.others d) (hd : c ≠ d) :
    t.metered c = s.metered c := by
  rw [Dev.metered, Dev.metered, Dev.others_lane h hd, Dev.others_cell h hd]

theorem Dev.metered_congr {s t : Dev} (hl : t.lanes = s.lanes) (hc : t.cells = s.cells) : t.metered c = s.metered c := by
  rw [Dev.metered, Dev.metered, Dev.cell_congr hc, Dev.lane, hl, Dev.lane]

/-- A change of a lane that keeps its energy. -/
theorem Dev.modLane_metered (s : Dev) (d : Nat) {f : Lane → Lane} (hf : ∀ y : Lane, (f y).energy = y.energy) :
    (s.modLane d f).metered c = s.metered c :=
  Prod.ext (calm_get_modify _ _ _ _ _ Lane.energy (hf _)) rfl

theorem Dev.forEach_metered {α : Type} {l : List α} {f : Dev → α → Dev} (s : Dev)
    (hf : ∀ t a, (f t a).metered c = t.metered c) : (s.forEach l f).metered c = s.metered c :=
  Dev.forEach_induct (P := fun t => t.metered c = s.metered c) (fun t a ht => (hf t a).trans ht) l s rfl

theorem Dev.tagLanes_metered (s : Dev) (b seq : Nat) : (s.tagLanes b seq).metered c = s.metered c :=
  Dev.forEach_metered s fun t _ => Dev.modLane_metered t _ fun _ => rfl

theorem Dev.modConv_metered (s : Dev) (b : Nat) (f : Conv → Conv) : (s.modConv b f).metered c = s.metered c := rfl

theorem Dev.commitBits_metered (s : Dev) (off : Nat) (mask : Word) : (s.commitBits off mask).metered c = s.metered c := by
  have hframe := Dev.commitBits_hide (m := 2 ^ 31 + 2 ^ 32) rfl s off mask rfl
  exact Dev.metered_congr (Dev.hide_keeps hframe .lanes rfl) (Dev.hide_keeps hframe .cells rfl)

theorem Dev.commitOsr_metered (s : Dev) (b : Nat) : (s.commitOsr b).metered c = s.metered c := by
  unfold Dev.commitOsr
  dsimp only
  split
  · exact s.commitBits_metered _ _
  · rw [Dev.forEach_metered _ fun t l => Dev.modLane_metered t _ fun y => by split <;> rfl, Dev.modConv_metered,
      Dev.commitBits_metered]

theorem Dev.sendFrame_metered (s : Dev) (b : Nat) (f : Frame) (switch : Bool) :
    (s.sendFrame b f switch).metered c = s.metered c := by
  unfold Dev.sendFrame
  extract_lets u v
  have hv : v.metered c = s.metered c := by
    unfold v; split <;> rfl
  rw [Dev.commitOsr_metered, hv]

/-- A precheck acts on a cell in PRECHECK only (R75). -/
theorem Dev.precheckStep_metered {s : Dev} (d : Nat) (plausOk : Bool) (h : (s.cell c).state ≠ .precheck) :
    (s.precheckStep d plausOk).metered c = s.metered c := by
  by_cases hd : c = d
  · subst hd
    rw [Dev.precheckStep, if_neg fun hpre => h hpre.1]
  · exact Dev.metered_of_others (Dev.precheckStep_others s d plausOk rfl) hd

theorem Dev.precheckLanes_metered {s : Dev} (b : Nat) (h : (s.cell c).state ≠ .precheck) :
    (s.precheckLanes b).metered c = s.metered c := by
  refine Dev.forEach_induct (P := fun t => t.metered c = s.metered c) (fun t l ht => ?_) _ s rfl
  have hstate : (t.cell c).state = (s.cell c).state := congrArg Prod.snd ht
  exact (Dev.precheckStep_metered _ _ (hstate.trans_ne h)).trans ht

end

/-- What the sample of lane `c` reads is in `t` as in `s`. -/
structure Dev.SampleInputs (c : Nat) (s t : Dev) : Prop where
  prof : t.prof = s.prof
  regs : t.regs = s.regs
  lane : t.lane c = s.lane c
  state : (t.cell c).state = (s.cell c).state

/-- The sample of another lane leaves them. -/
theorem Dev.SampleInputs.laneSample {s t : Dev} {c d : Nat} (h : s.SampleInputs c t) (hd : c ≠ d) (u osr : Nat)
    (xi xv : Int) (after16 : Bool) : s.SampleInputs c (t.laneSample d u osr xi xv after16) := by
  have hframe := Dev.laneSample_hide (m := 2 ^ 9 + 2 ^ 27) rfl t d u osr xi xv after16 rfl
  have hother := t.laneSample_others d u osr xi xv after16
  refine ⟨Eq.trans (Dev.hide_keeps hframe .prof rfl) h.prof, Eq.trans (Dev.hide_keeps hframe .regs rfl) h.regs,
    (Dev.others_lane hother hd).trans h.lane, ?_⟩
  rw [Dev.others_cell hother hd, h.state]

theorem Dev.vinSample_sampleInputs (s : Dev) (c b osr : Nat) (x : Int) (after16 : Bool) :
    s.SampleInputs c (s.vinSample b osr x after16) := by
  unfold Dev.vinSample
  dsimp only
  constructor <;> split <;> rfl

/-- Each settled lane that runs takes its own sample, whatever the other seven do. -/
theorem Dev.sampleLanes_metered {s r : Dev} {b l : Nat} (t osr : Nat) (x : BlockInputs) (hl : l < 8)
    (hr : r.SampleInputs (8 * b + l) s) (hvalid : (r.lane (8 * b + l)).valid = true) :
    (s.sampleLanes b t osr x).metered (8 * b + l) = ((r.lane (8 * b + l)).energy.add
      (r.sampleEnergy (8 * b + l) t (x.i.getD l 0).toInt (x.v.getD l 0).toInt), (r.cell (8 * b + l)).state) := by
  refine Dev.forEach_reaches (P := r.SampleInputs (8 * b + l)) (Q := fun u => u.metered (8 * b + l) = _) (a := l)
    ?_ ?_ ?_ List.nodup_range (List.mem_range.2 hl) hr
  · intro u j hj hu
    exact hu.laneSample (by omega) _ _ _ _ _
  · intro u hu
    refine Prod.ext ?_ ((u.laneSample_state _ _ _ _ _ _).trans hu.state)
    rw [← hu.lane] at hvalid
    refine (Dev.laneSample_energy _ _ _ _ _ hvalid).trans ?_
    rw [Dev.sampleEnergy_congr hu.prof hu.regs hu.lane, hu.lane]
  · intro u j hj hu
    exact (Dev.metered_of_others (u.laneSample_others _ _ _ _ _ _) (by omega)).trans hu

/-- A boundary adds to a settled lane that runs the energy of its sample over the interval from the latest one, with the sign
of that interval. -/
theorem Dev.boundary_energy {s : Dev} {b l : Nat} (x : BlockInputs) (hl : l < 8)
    (hvalid : (s.lane (8 * b + l)).valid = true) (hst : (s.cell (8 * b + l)).state ≠ .precheck) :
    ((s.boundary b x).lane (8 * b + l)).energy = (s.lane (8 * b + l)).energy.add
      (s.sampleEnergy (8 * b + l) (s.rtime (b / 8) / 4 * 4) (x.i.getD l 0).toInt (x.v.getD l 0).toInt) := by
  have hsample := Dev.sampleLanes_metered (s.rtime (b / 8) / 4 * 4) (s.conv b).osr x hl
    (s.vinSample_sampleInputs _ b (s.conv b).osr x.vin.toInt (x.after16.getLsbD 8)) hvalid
  unfold Dev.boundary
  extract_lets t k
  rw [← Dev.tagLanes_metered _ b k.seq, ← Dev.sendFrame_metered _ b (s.frameOf b t x) (k.osrPend && x.osr16)] at hsample
  have hstate := (congrArg Prod.snd hsample).trans_ne hst
  rw [← Dev.precheckLanes_metered b hstate] at hsample
  rw [Dev.metered, Prod.mk.injEq] at hsample
  exact hsample.1

/-! ### A sample at full scale, whatever the factory trim

The trim is a free constant (R173), so the calibration words of the counterexample fix the codes for every trim. -/

/-- Every factory trim leaves a value of 24 bits. -/
theorem Conv.neg_le_correct (x ofs : Int) (gain : Nat) : -8388607 ≤ (Conv.correct x ofs gain).1 := by
  unfold Conv.correct
  dsimp only
  split
  · decide
  split
  · decide
  · omega

/-- The greatest system coefficients take every such value to the limit (R161). -/
theorem Conv.correct_saturates {x : Int} (h : -8388607 ≤ x) : Conv.correct x (-2 ^ 31) (2 ^ 32 - 1) = (8388607, true) := by
  refine if_pos ?_
  push_cast
  omega

theorem Dev.corrected_saturates {s : Dev} (quantity ix : Nat) {off : Nat} (hofs : (s.reg off).toInt = -2 ^ 31)
    (hgain : (s.reg (off + 4)).toNat = 2 ^ 32 - 1) (x : Int) : s.corrected quantity ix off x = (8388607, true) := by
  unfold Dev.corrected
  dsimp only
  rw [hofs, hgain, Conv.correct_saturates (Conv.neg_le_correct _ _ _), Bool.or_true]

/-- The inputs of a boundary at which every raw value is 0 and no filter is reset. -/
def BlockInputs.zero : BlockInputs :=
  { i := List.replicate 8 0, v := List.replicate 8 0, vin := 0, after16 := 0, osr16 := false }

/-- Lane 0 has settled and its latest sample is of 4 ns, where the replica is at 0: it has stepped backward (R188). The
calibration of cell 0 takes its current and its voltage to full scale. -/
def Dev.steppedBack : Dev :=
  let ofs : Word := 0x80000000
  let gain : Word := 0xFFFFFFFF
  { lanes := [(0, { settle := 0, eTime := some 4 })]
    regs := [(RegMap.calCell 0 + 0x08, ofs), (RegMap.calCell 0 + 0x0C, gain),
             (RegMap.calCell 0 + 0x18, ofs), (RegMap.calCell 0 + 0x1C, gain)] }

/-- Its sample is of 65.535 V and of 4.99 A over -4 ns. -/
theorem Dev.steppedBack_sampleEnergy (xi xv : Int) : Dev.steppedBack.sampleEnergy 0 0 xi xv = -1310659892580 := by
  have hi : Dev.steppedBack.correctedI 0 xi = (8388607, true) := Dev.corrected_saturates _ _ rfl rfl xi
  have hv : Dev.steppedBack.correctedV 0 xv = 8388607 :=
    congrArg (fun y : Int × Bool => max 0 y.1) (Dev.corrected_saturates _ _ rfl rfl xv)
  rw [Dev.sampleEnergy, Dev.iCode, Dev.vCode, hi, hv]
  decide

/-- Its boundary takes that energy into E_REV. -/
theorem Dev.steppedBack_energy (x : BlockInputs) :
    ((Dev.steppedBack.boundary 0 x).lane 0).energy = ⟨0, 0, 1, 310659892580⟩ := by
  have hsum := Dev.boundary_energy (s := Dev.steppedBack) (b := 0) (l := 0) x (by decide) rfl (by decide)
  have htime : Dev.steppedBack.rtime 0 / 4 * 4 = 0 := by decide
  rw [htime, Dev.steppedBack_sampleEnergy] at hsum
  exact hsum

end Sys2Proof.Machine

namespace Sys2Proof.Proofs
open Sys2Proof Sys2Proof.Machine

/-- The statement's interval is a difference of natural numbers: it has a frame that is not after the latest sample of a lane
add nothing to E_REV. -/
theorem decimationBoundary_adds_nothing (h : Rules.DecimationBoundary) {d : Dev} {b : BlockIx} {l p : Nat} (x : BlockInputs)
    (hpend : d.regsPend = []) (hl : l < 8) (hsettle : (d.lane (8 * b + l)).settle = 0)
    (hrun : (d.lane (8 * b + l)).stopped = false) (htime : (d.lane (8 * b + l)).eTime = some p)
    (hback : d.rtime (b / 8) / 4 * 4 ≤ p) :
    (((d.boundary b x).lane (8 * b + l)).eRev * 10 ^ 12 + ((d.boundary b x).lane (8 * b + l)).accRev) % (2 ^ 64 * 10 ^ 12) =
      ((d.lane (8 * b + l)).eRev * 10 ^ 12 + (d.lane (8 * b + l)).accRev) % (2 ^ 64 * 10 ^ 12) := by
  obtain ⟨t, hexec, -, -, -, -, -, -, hlanes⟩ := h b x ⟨[], d⟩ hpend
  obtain rfl := Host.Outcome.next.inj ((exec_decimationBoundary b x hpend).symm.trans hexec)
  obtain ⟨-, -, hvalid⟩ := hlanes l hl
  obtain ⟨-, -, henergy⟩ := hvalid hsettle hrun
  obtain ⟨-, hrev⟩ := henergy p htime
  dsimp only at hrev
  rwa [Nat.sub_eq_zero_of_le hback, Nat.cast_zero, Int.mul_zero, Int.neg_zero, Int.toNat_zero, Nat.add_zero] at hrev

/-- The rule of the boundary fails in `Dev.steppedBack`, whatever the raw values of the frame: the interval of R162 is -4 ns
there, and the statement's is 0. -/
theorem not_decimationBoundary (x : BlockInputs) : ¬ Rules.DecimationBoundary := by
  intro h
  have hnone := decimationBoundary_adds_nothing h (d := Dev.steppedBack) (b := 0) (l := 0) (p := 4) x rfl (by decide) rfl
    rfl rfl (by decide)
  have hsum := Dev.steppedBack_energy x
  simp only [Lane.energy, Energy.mk.injEq] at hsum
  obtain ⟨-, -, hrev, haccRev⟩ := hsum
  rw [Fin.val_zero, Nat.mul_zero, Nat.add_zero, hrev, haccRev] at hnone
  exact absurd hnone (by decide)

/-- Refutes O12: at a frame 4 ns before the latest sample of its lane, as after a backward step of the replica (R188), the
boundary of `Dev.steppedBack` takes 1.31 uJ into E_REV, and the statement has nothing added. -/
theorem not_framesAndWindows : ¬ Obligations.FramesAndWindows :=
  fun h => not_decimationBoundary BlockInputs.zero h.1

end Sys2Proof.Proofs
end

section
/-! SUPPORT. Long operations (spec/12 R285 to R296): what an accepted command does, the start of an operation, the
commands that a handle names, and the steps of a bank sequence, with the entry of a cell to PRECHECK. -/

namespace Sys2Proof.Machine

/-! ### Frames by the list of parts -/

theorem Part.ctorIdx_injective : Function.Injective Part.ctorIdx := fun p q h => by
  have hp := Part.ofNat_ctorIdx p
  rwa [h, Part.ofNat_ctorIdx, eq_comm] at hp

/-- The blanking mask of the listed parts. -/
def Parts.mask (ps : List Part) : Nat := ps.foldr (fun p m => 2 ^ p.ctorIdx ||| m) 0

theorem Parts.mask_testBit {ps : List Part} {p : Part} (h : p ∉ ps) : (Parts.mask ps).testBit p.ctorIdx = false := by
  induction ps with
  | nil => exact Nat.zero_testBit _
  | cons q ps ih =>
    rw [List.mem_cons, not_or] at h
    have hne : q.ctorIdx ≠ p.ctorIdx := fun hq => h.1 (Part.ctorIdx_injective hq).symm
    exact (Nat.testBit_or _ _ _).trans (by rw [Nat.testBit_two_pow_of_ne hne, Bool.false_or]; exact ih h.2)

/-- A command that answers the device `d`: its frame by the mask of the parts that its statement lists. -/
theorem Does.of_parts {i : Instr} {s : State} {ps : List Part} {q : Dev → Prop} {d : Dev}
    (hi : exec i s = .next { s with dev := d }) (hd : Dev.hide (Parts.mask ps) d = Dev.hide (Parts.mask ps) s.dev)
    (hq : q d) : Does i s ps q :=
  Does.of_next hi hd (fun _ => Parts.mask_testBit) hq

/-! ### Accepted commands (R275 to R277) -/

theorem Dev.wakeAccess_of_awake {s : Dev} {r : Option Nat} (hmode : s.pwr.mode ≠ 2)
    (h : ∀ g, r = some g → (s.region g).asleep = false) : s.wakeAccess r = s := by
  cases r with
  | none => simp [Dev.wakeAccess, hmode]
  | some g => simp [Dev.wakeAccess, hmode, h g rfl]

theorem Dev.cmd_of_accepted {s : Dev} {d : Desc} {kinds masks : List Nat} (h : Accepted d kinds masks s) (op : Nat)
    (f : Dev → Dev) : s.cmd d op kinds masks f = .next (f s) := by
  obtain ⟨hcheck, hauto, hmode, hawake⟩ := h
  simp [Dev.cmd, hcheck, hauto, Dev.wakeAccess_of_awake hmode hawake]

/-- An accepted command has the effect of its own. -/
theorem State.on_accepted {s : State} {d : Desc} {op : Nat} {kinds masks : List Nat} {f : Dev → Dev} {t : Dev}
    (h : Accepted d kinds masks s.dev) (hf : f s.dev = t) :
    (s.on fun u => u.cmd d op kinds masks f) = .next { s with dev := t } :=
  State.on_next _ _ _ ((Dev.cmd_of_accepted h op f).trans (congrArg Host.Outcome.next hf))

/-! ### The start of an operation (R285) -/

theorem Dev.freeSlot_eq_none_iff {s : Dev} : s.freeSlot = none ↔ ∀ n, n < 64 → (s.op n).isSome = true := by
  simp [Dev.freeSlot, ← Option.isSome_iff_ne_none]

theorem Dev.freeSlot_free {s : Dev} {n : Nat} (h : s.freeSlot = some n) : n < 64 ∧ s.op n = none :=
  ⟨List.mem_range.1 (List.mem_of_find?_eq_some h),
    Option.isNone_iff_eq_none.1 (List.find?_some (p := fun k => (s.op k).isNone) h)⟩

theorem Dev.nextGen_lt (s : Dev) (n : Nat) : s.nextGen n < 2 ^ 26 := by
  unfold Dev.nextGen
  dsimp only
  split <;> omega

theorem Dev.nextGen_zero_ne (s : Dev) : s.nextGen 0 ≠ 0 := by
  unfold Dev.nextGen
  dsimp only
  split <;> omega

theorem Dev.opStart_of_full {s : Dev} (h : s.freeSlot = none) (d : Desc) (op : Nat) (body : OpBody) :
    s.opStart d op body = s.fail d op 0x14 := by
  rw [Dev.opStart, h]; rfl

/-- The operation that a descriptor starts. -/
def Op.ofDesc (d : Desc) (op : Nat) (body : OpBody) : Op :=
  { opcode := op, ring := d.ring.toNat, cmdId := d.cmdId.toNat, body := body }

/-- The device after an operation has taken the free slot `n`. -/
def Dev.opStarted (s : Dev) (n : Nat) (d : Desc) (op : Nat) (body : OpBody) : Dev :=
  let t := { s with opGen := Sparse.set (fun _ => 0) s.opGen n (s.nextGen n) }
  let t := t.setOp n (some (Op.ofDesc d op body))
  (t.answer d).complete { cmdRing := d.ring.toNat, cmdId := d.cmdId.toNat, opcode := op, status := 1
                          handle := t.handle n, final := false }

theorem Dev.opStart_of_free {s : Dev} {n : Nat} (h : s.freeSlot = some n) (d : Desc) (op : Nat) (body : OpBody) :
    s.opStart d op body = s.opStarted n d op body := by
  rw [Dev.opStart, h]; rfl

theorem Dev.opStarted_op (s : Dev) (n : Nat) (d : Desc) (op : Nat) (body : OpBody) (m : Nat) :
    (s.opStarted n d op body).op m =
      if m = n then some (Op.ofDesc d op body) else s.op m := by
  have hops : (s.opStarted n d op body).ops = (s.setOp n (some (Op.ofDesc d op body))).ops := rfl
  rw [Dev.op, hops]
  exact Dev.op_setOp s n (some (Op.ofDesc d op body)) m

theorem Dev.opStarted_handle (s : Dev) (n : Nat) (d : Desc) (op : Nat) (body : OpBody) :
    (s.opStarted n d op body).handle n = n + s.nextGen n * 64 := by
  have hgen : (s.opStarted n d op body).opGen = Sparse.set (fun _ => 0) s.opGen n (s.nextGen n) := rfl
  rw [Dev.handle, hgen, Sparse.get_set_same, Nat.mod_eq_of_lt (s.nextGen_lt n)]

/-- A handle names its slot and is never 0. -/
theorem Dev.opStarted_handle_names (s : Dev) {n : Nat} (hn : n < 64) (d : Desc) (op : Nat) (body : OpBody) :
    (s.opStarted n d op body).handle n % 64 = n ∧ (s.opStarted n d op body).handle n ≠ 0 := by
  rw [s.opStarted_handle]
  refine ⟨by omega, fun h => ?_⟩
  obtain rfl : n = 0 := by omega
  exact s.nextGen_zero_ne (by omega)

/-- A command whose effect is the start of an operation. -/
theorem Starts.of_exec {i : Instr} {s : State} {d : Desc} {op : Nat} {body : OpBody}
    (hi : exec i s = .next { s with dev := s.dev.opStart d op body }) : Starts i s d op body := by
  refine ⟨fun hfull => ?_, fun hfree => ?_⟩
  · rw [Dev.opStart_of_full (Dev.freeSlot_eq_none_iff.2 hfull)] at hi
    exact hi
  · cases hslot : s.dev.freeSlot with
    | none =>
      obtain ⟨n, hn, hop⟩ := hfree
      have hsome := Dev.freeSlot_eq_none_iff.1 hslot n hn
      rw [hop] at hsome
      cases hsome
    | some n =>
      have hframe := Dev.opStart_hide (m := Parts.mask [.hp, .ops, .opGen, .complq]) (by decide) s.dev d op body rfl
      rw [Dev.opStart_of_free hslot] at hi hframe
      obtain ⟨hn, hop⟩ := Dev.freeSlot_free hslot
      obtain ⟨hmod, hzero⟩ := s.dev.opStarted_handle_names hn d op body
      exact Does.of_parts hi hframe ⟨n, hn, hop, fun m hm => (s.dev.opStarted_op _ _ _ _ _).trans (if_neg hm),
        hmod, hzero, (s.dev.opStarted_op _ _ _ _ _).trans (if_pos rfl), rfl⟩

/-! ### The commands that start an operation (Table 12-2) -/

/-- Each row of the long commands has the start of its operation as its effect. -/
theorem exec_startRow {d : Desc} {i : Instr} {op : Nat} {kinds masks : List Nat} {body : OpBody} {s : State}
    (h : StartRow d s.dev i op kinds masks body) (hacc : Accepted d kinds masks s.dev) :
    exec i s = .next { s with dev := s.dev.opStart d op body } := by
  obtain ⟨rfl, rfl, rfl, rfl, haddr, hlo, hhi, hidle, rfl⟩ | ⟨rfl, rfl, rfl, rfl, hkind, hmode, hqty, hidle, hst, rfl⟩ |
    ⟨rfl, rfl, rfl, rfl, hidle, rfl⟩ | ⟨rfl, rfl, rfl, rfl, haddr, hcount, hfirst, hlast, hchunks, hidle, hfrozen, rfl⟩ |
    ⟨rfl, rfl, rfl, rfl, haddr, hpos, hpage, hlen, hidle, rfl⟩ |
    ⟨rfl, rfl, rfl, rfl, haddr, hrange, hidle, hslot, rfl⟩ := h
  · change execSurvey d s = _
    refine State.on_accepted hacc ?_
    dsimp only
    rw [if_neg (by omega)]
    exact if_neg (ne_true_of_eq_false hidle)
  · change execCalRun d s = _
    refine State.on_accepted hacc ?_
    have hregion : s.dev.calBusy (Cal.region 1 d.tindex.toNat) = false := hidle
    obtain hst | hst := hst <;> simp [hkind, hmode, hqty, hregion, hst]
  · change execCalStore d s = _
    refine State.on_accepted hacc ?_
    exact if_neg (ne_true_of_eq_false hidle)
  · change execCaptureExport d s = _
    refine State.on_accepted hacc ?_
    dsimp only
    rw [if_neg (by unfold Export.chunk; omega), hidle, hfrozen]
    rfl
  · change execFlashUpdate d s = _
    refine State.on_accepted hacc ?_
    dsimp only
    rw [if_neg (by unfold Flash.slotSize; omega)]
    exact if_neg (ne_true_of_eq_false hidle)
  · change execTowpathScan d s = _
    refine State.on_accepted hacc ?_
    dsimp only
    rw [if_neg (by omega)]
    exact if_neg (not_or.2 ⟨ne_true_of_eq_false hidle, ne_true_of_eq_false hslot⟩)

/-! ### BANK_SEQUENCE (R293) -/

theorem length_eraseDups_le (l : List Nat) : l.eraseDups.length ≤ l.length := by
  induction hn : l.length using Nat.strong_induction_on generalizing l with
  | _ n ih =>
    cases l with
    | nil => simp
    | cons a l =>
      have hlen : (l.filter fun b => !b == a).length ≤ l.length := List.length_filter_le _ _
      have hrest := ih _ (by rw [List.length_cons] at hn; omega) (l.filter fun b => !b == a) rfl
      rw [List.eraseDups_cons, ← hn, List.length_cons, List.length_cons]
      omega

/-- A list loses no entry to `eraseDups` exactly when it repeats none. -/
theorem length_eraseDups_eq_iff (l : List Nat) : l.length = l.eraseDups.length ↔ l.Nodup := by
  induction l with
  | nil => simp
  | cons a l ih =>
    rw [List.nodup_cons, ← ih, List.eraseDups_cons, List.length_cons, List.length_cons, Nat.succ_inj]
    have hfilter : a ∉ l → (l.filter fun b => !b == a) = l := fun hno =>
      List.filter_eq_self.2 fun b hb => by simpa using fun hba : b = a => hno (hba ▸ hb)
    constructor
    · intro h
      have hle := length_eraseDups_le (l.filter fun b => !b == a)
      have hall : (l.filter fun b => !b == a).length = l.length := by
        have := List.length_filter_le (fun b => !b == a) l
        omega
      have hno : a ∉ l := fun ha => by simpa using List.length_filter_eq_length_iff.1 hall a ha
      exact ⟨hno, by rwa [hfilter hno] at h⟩
    · rintro ⟨hno, h⟩
      rwa [hfilter hno]

/-- The entries that an immediate list gives (Table 12-5). -/
def Bank.ents (d : Desc) : List BankEnt :=
  (List.range (d.pf 0 0 10)).map fun i => Bank.entry (d.par (3 + i))

def Bank.cells (d : Desc) : List Nat := (Bank.ents d).map fun e => e.cell

/-- A cell of the list is in another bank sequence (R293). -/
def Dev.bankBusy (s : Dev) (cells : List Nat) : Bool :=
  s.anyOp fun b => match b with | .bank q => q.ents.any (fun e => cells.contains e.cell) | _ => false

/-- The operation that an accepted list starts. -/
def Bank.body (d : Desc) : OpBody :=
  .bank { ents := Bank.ents d, stopOnFail := Bits.nbit (d.par 0) 11, maxInflight := d.pf 0 16 9, outAddr := d.par64 1 }

/-- BANK_SEQUENCE with an immediate list: its checks in their order, then the start (R277, R293). -/
theorem exec_bankSequence_immediate {d : Desc} {s : State} (himm : Bits.nbit (d.par 0) 10 = false)
    (hacc : Accepted d [0] ([0x01FF0FFF, Cmd.all, Cmd.all] ++ List.replicate (min 10 (d.pf 0 0 10)) 0xFFFF07FF) s.dev) :
    exec (.bankSequence d none) s = .next { s with
      dev := if d.pf 0 0 10 < 1 ∨ 10 < d.pf 0 0 10 ∨ d.par64 1 % 64 ≠ 0 then s.dev.fail d 0x180 St.badParam
        else if ¬(Bank.cells d).Nodup ∨ (Bank.ents d).any (fun e => e.wait == 3) then s.dev.fail d 0x180 St.badParam
        else if s.dev.bankBusy (Bank.cells d) then s.dev.fail d 0x180 St.busy
        else s.dev.opStart d 0x180 (Bank.body d) } := by
  have hmasks : List.replicate (min 10 (d.pf 0 0 10)) 0xFFFF07FF =
      if Bits.nbit (d.par 0) 10 = true then [Cmd.all, Cmd.all] else List.replicate (min 10 (d.pf 0 0 10)) 0xFFFF07FF := by
    rw [himm]; rfl
  rw [hmasks] at hacc
  change execBankSequence d none s = _
  refine State.on_accepted hacc ?_
  simp only [himm, Bool.false_eq_true, if_false, false_and, or_false, Bool.not_false, true_and]
  by_cases hbad : d.pf 0 0 10 < 1 ∨ 10 < d.pf 0 0 10 ∨ d.par64 1 % 64 ≠ 0
  · rw [if_pos hbad, if_pos (by omega)]
  · have hents : (((List.range 10).map fun i => d.par (3 + i)).take (d.pf 0 0 10)).map Bank.entry = Bank.ents d := by
      rw [← List.map_take, List.take_range, Nat.min_eq_left (by omega), List.map_map]
      rfl
    rw [if_neg hbad, if_neg (by omega), hents]
    simp only [ne_eq, length_eraseDups_eq_iff]
    rfl

/-! ### The commands that a handle names (R287 to R290) -/

section
variable {s : State} {d : Desc} {op : Nat} {masks : List Nat} {f : Dev → Nat → Op → Dev}

/-- No operation, or another handle: ST_BAD_HANDLE. -/
theorem State.on_badHandle (hacc : Accepted d [6] masks s.dev)
    (hbad : s.dev.op (d.par 0 % 64) = none ∨ s.dev.handle (d.par 0 % 64) ≠ d.par 0) :
    (s.on fun u => u.opCmd d op masks f) = .next { s with dev := s.dev.fail d op St.badHandle } := by
  refine State.on_accepted hacc ?_
  dsimp only
  split
  next o ho =>
    refine if_neg (hbad.resolve_left ?_)
    rw [ho]
    exact Option.some_ne_none o
  next => rfl

theorem State.on_handle {o : Op} (hacc : Accepted d [6] masks s.dev) (ho : s.dev.op (d.par 0 % 64) = some o)
    (hh : s.dev.handle (d.par 0 % 64) = d.par 0) :
    (s.on fun u => u.opCmd d op masks f) = .next { s with dev := f s.dev (d.par 0 % 64) o } := by
  refine State.on_accepted hacc ?_
  dsimp only
  rw [ho]
  exact if_pos hh

end

/-- The four operation commands answer ST_BAD_HANDLE alike. -/
theorem exec_opCommand_badHandle {i : Instr} {d : Desc} {op : Nat} {masks : List Nat} {s : State}
    (hrow : (i = .opSuspend d ∧ op = 0xF00 ∧ masks = [Cmd.all]) ∨ (i = .opResume d ∧ op = 0xF01 ∧ masks = [Cmd.all]) ∨
      (i = .opCancel d ∧ op = 0xF02 ∧ masks = [Cmd.all, 1]) ∨ (i = .opQuery d ∧ op = 0xF03 ∧ masks = [Cmd.all]))
    (hacc : Accepted d [6] masks s.dev)
    (hbad : s.dev.op (d.par 0 % 64) = none ∨ s.dev.handle (d.par 0 % 64) ≠ d.par 0) : Refused i s d op 0x16 := by
  obtain ⟨rfl, rfl, rfl⟩ | ⟨rfl, rfl, rfl⟩ | ⟨rfl, rfl, rfl⟩ | ⟨rfl, rfl, rfl⟩ := hrow
  · change execOpSuspend d s = _
    exact State.on_badHandle hacc hbad
  · change execOpResume d s = _
    exact State.on_badHandle hacc hbad
  · change execOpCancel d s = _
    exact State.on_badHandle hacc hbad
  · change execOpQuery d s = _
    exact State.on_badHandle hacc hbad

@[simp] theorem Dev.opReply_op (s : Dev) (d : Desc) (op n m : Nat) : (s.opReply d op n).op m = s.op m := rfl

/-- `t` is `s` with `o` in slot `n` and with the events `es` raised. -/
structure Dev.OpPut (s : Dev) (n : Nat) (o : Op) (es : List Event) (t : Dev) : Prop where
  same : t.op n = some o
  others : ∀ m, m ≠ n → t.op m = s.op m
  evq : t.evq = s.evq ++ es
  complq : t.complq = s.complq

section
variable {s t : Dev} {n : Nat} {o : Op}

theorem Dev.OpPut.refl (h : s.op n = some o) : s.OpPut n o [] s :=
  ⟨h, fun _ _ => rfl, (List.append_nil _).symm, rfl⟩

theorem Dev.setOp_opPut (s : Dev) (n : Nat) (o : Op) : s.OpPut n o [] (s.setOp n (some o)) :=
  ⟨Dev.op_setOp_same _ _ _, fun _ hm => Dev.op_setOp_ne _ _ _ _ hm, (List.append_nil _).symm, rfl⟩

/-- A change of state raises EV_OP_STATE (R290). -/
theorem Dev.opGoto_opPut {st : OpState} (h : o.state ≠ st) (s : Dev) (n : Nat) :
    s.OpPut n { o with state := st } [OpEvent s n o st.code o.state.code] (s.opGoto n o st) := by
  obtain ⟨same, others, evq, complq⟩ := s.setOp_opPut n { o with state := st }
  have hgoto : s.opGoto n o st = (s.setOp n (some { o with state := st })).raise (OpEvent s n o st.code o.state.code) :=
    if_neg h
  rw [hgoto]
  exact ⟨same, others, rfl, complq⟩

/-- The reply to an operation command leaves the operations and the events, and its completion carries the state. -/
theorem Dev.OpPut.opReply {es : List Event} (h : s.OpPut n o es t) (d : Desc) (op : Nat) :
    let u := t.opReply d op n
    (∀ m, m ≠ n → u.op m = s.op m) ∧ u.op n = some o ∧ u.evq = s.evq ++ es ∧
      u.complq = (CmdDone s d op 0 o.state.code 0).complq := by
  obtain ⟨same, others, evq, complq⟩ := h
  have hreply : t.opReply d op n = CmdDone t d op 0 o.state.code 0 := by rw [Dev.opReply, same]; rfl
  rw [hreply]
  exact ⟨others, same, evq, congrArg (· ++ _) complq⟩

end

/-- What a suspend request leaves of operation `n` (R287). -/
def Dev.suspendAt (s : Dev) (n : Nat) (o : Op) : Dev :=
  if o.state = .running ∨ o.state = .suspendedBp then s.setOp n (some { o with suspendReq := true }) else s

/-- What a resume leaves of operation `n` (R288). -/
def Dev.resumeAt (s : Dev) (n : Nat) (o : Op) : Dev :=
  match o.state with
  | .suspended => s.opGoto n { o with body := o.body.resumed } .running
  | .suspendedBp => s.setOp n (some { o with suspendReq := false })
  | _ => s

/-- An operation on its way to CANCELLING (R289). -/
def Op.cancelled (o : Op) (rollback : Bool) : Op :=
  { o with rollback := rollback, suspendReq := false, bpWait := o.state == .suspendedBp, body := o.body.cancel rollback }

section
variable {d : Desc} {s : State} {o : Op} (ho : s.dev.op (d.par 0 % 64) = some o)
  (hh : s.dev.handle (d.par 0 % 64) = d.par 0)
include ho hh

theorem exec_opSuspend (hacc : Accepted d [6] [Cmd.all] s.dev) : exec (.opSuspend d) s =
    .next { s with dev := (s.dev.suspendAt (d.par 0 % 64) o).opReply d 0xF00 (d.par 0 % 64) } := by
  change execOpSuspend d s = _
  exact State.on_handle hacc ho hh

theorem exec_opResume (hacc : Accepted d [6] [Cmd.all] s.dev) : exec (.opResume d) s =
    .next { s with dev := (s.dev.resumeAt (d.par 0 % 64) o).opReply d 0xF01 (d.par 0 % 64) } := by
  change execOpResume d s = _
  exact State.on_handle hacc ho hh

theorem exec_opCancel_again (hacc : Accepted d [6] [Cmd.all, 1] s.dev) (hst : o.state = .cancelling) :
    Becomes (.opCancel d) s (CmdDone s.dev d 0xF02 0 3 0) := by
  change execOpCancel d s = _
  refine (State.on_handle hacc ho hh).trans ?_
  dsimp only
  rw [if_pos hst]
  rfl

theorem exec_opCancel (hacc : Accepted d [6] [Cmd.all, 1] s.dev) (hst : o.state ≠ .cancelling) :
    exec (.opCancel d) s = .next { s with
      dev := (s.dev.opGoto (d.par 0 % 64) (o.cancelled (Bits.nbit (d.par 1) 0)) .cancelling).opReply d 0xF02
        (d.par 0 % 64) } := by
  change execOpCancel d s = _
  refine (State.on_handle hacc ho hh).trans ?_
  dsimp only
  rw [if_neg hst]
  rfl

theorem exec_opQuery (hacc : Accepted d [6] [Cmd.all] s.dev) :
    Becomes (.opQuery d) s (CmdDone s.dev d 0xF03 0 (o.state.code + o.opcode * 65536) o.steps) := by
  change execOpQuery d s = _
  exact State.on_handle hacc ho hh

end

section
variable {s : Dev} {n : Nat} {o : Op}

theorem Dev.suspendAt_opPut (ho : s.op n = some o) : s.OpPut n
    { o with suspendReq := (o.suspendReq || o.state == .running || o.state == .suspendedBp) } [] (s.suspendAt n o) := by
  unfold Dev.suspendAt
  by_cases hst : o.state = .running ∨ o.state = .suspendedBp
  · have hreq : (o.suspendReq || o.state == .running || o.state == .suspendedBp) = true := by simp [or_assoc, hst]
    rw [if_pos hst, hreq]
    exact s.setOp_opPut n _
  · have hreq : (o.suspendReq || o.state == .running || o.state == .suspendedBp) = o.suspendReq := by
      obtain ⟨hrun, hbp⟩ := not_or.1 hst
      rw [beq_false_of_ne hrun, beq_false_of_ne hbp, Bool.or_false, Bool.or_false]
    rw [if_neg hst, hreq]
    exact .refl ho

theorem Dev.resumeAt_hide {m : Nat} (hm : (2 ^ 46 + 2 ^ 54) &&& m = 2 ^ 46 + 2 ^ 54) (s : Dev) (n : Nat) (o : Op) :
    Dev.hide m (s.resumeAt n o) = Dev.hide m s := by
  unfold Dev.resumeAt
  split
  · exact Dev.opGoto_hide hm _ _ _ _ rfl
  · exact Dev.setOp_hide (land_trans rfl hm) _ _ _ rfl
  · rfl

theorem Dev.resumeAt_opPut_suspended (h : o.state = .suspended) (s : Dev) (n : Nat) :
    s.OpPut n { o with state := .running, body := o.body.resumed } [OpEvent s n o 0 1] (s.resumeAt n o) := by
  have hput := Dev.opGoto_opPut (o := { o with body := o.body.resumed }) (st := .running) (h.trans_ne (by decide)) s n
  rw [Dev.resumeAt, h]
  rwa [h] at hput

theorem Dev.resumeAt_opPut_suspendedBp (h : o.state = .suspendedBp) (s : Dev) (n : Nat) :
    s.OpPut n { o with suspendReq := false } [] (s.resumeAt n o) := by
  rw [Dev.resumeAt, h]
  exact s.setOp_opPut n _

theorem Dev.resumeAt_opPut_of_ne (hsus : o.state ≠ .suspended) (hbp : o.state ≠ .suspendedBp) (ho : s.op n = some o) :
    s.OpPut n o [] (s.resumeAt n o) := by
  unfold Dev.resumeAt
  split
  next h => exact absurd h hsus
  next h => exact absurd h hbp
  next => exact .refl ho

theorem Dev.resumeAt_others (s : Dev) (n : Nat) (o : Op) (m : Nat) (hm : m ≠ n) : (s.resumeAt n o).op m = s.op m := by
  unfold Dev.resumeAt
  split
  next h => exact (Dev.opGoto_opPut (o := { o with body := o.body.resumed }) (h.trans_ne (by decide)) s n).others m hm
  next => exact (s.setOp_opPut n _).others m hm
  next => rfl

end

/-! ### Steps (R286) -/

section
variable {n : BitVec 6} {s : State} {o : Op}

/-- An operation that is not under way takes no step (R287, R291). -/
theorem exec_opStep_idle (ho : s.dev.op n.toNat = some o)
    (hidle : o.ended = true ∨ o.state = .suspended ∨ o.state = .suspendedBp) (x : StepIn) : NoEffect (.opStep n x) s := by
  change execOpStep n x s = _
  refine State.on_next s _ s.dev ?_
  simp only [ho]
  obtain hend | hst | hst := hidle
  · exact if_pos hend
  · simp only [hst, ite_self]
  · simp only [hst, ite_self]

theorem exec_opStep_none (ho : s.dev.op n.toNat = none) (x : StepIn) : NoEffect (.opStep n x) s := by
  change execOpStep n x s = _
  exact State.on_next s _ s.dev (by rw [ho])

theorem exec_opStep_running (ho : s.dev.op n.toNat = some o) (hend : o.ended = false) (hst : o.state = .running)
    (x : StepIn) : exec (.opStep n x) s = .next { s with dev := s.dev.opRun n.toNat o x } := by
  change execOpStep n x s = _
  refine State.on_next s _ _ ?_
  simp only [ho, hend, hst, Bool.false_eq_true, if_false]

theorem exec_opStep_cancelling (ho : s.dev.op n.toNat = some o) (hend : o.ended = false) (hst : o.state = .cancelling)
    (hbp : o.bpWait = false) (x : StepIn) : exec (.opStep n x) s = .next { s with dev := s.dev.opUndo n.toNat o } := by
  change execOpStep n x s = _
  refine State.on_next s _ _ ?_
  simp only [ho, hend, hst, hbp, Bool.false_eq_true, if_false]

end

/-- A boundary without a suspend request (R287). -/
theorem Dev.opBoundary_of_no_request {o : Op} (h : o.suspendReq = false) (s : Dev) (n : Nat) :
    s.opBoundary n o = s.setOp n (some { o with steps := o.steps + 1 }) :=
  if_neg (by rw [h]; exact Bool.false_ne_true)

/-! ### Steps of a bank sequence (R294) -/

/-- Outcomes are fixed of applied entries whose cells have settled only. -/
theorem Dev.bankFix_eq_self {s : Dev} {l : List BankEnt} (h : ∀ e ∈ l, e.applied = false ∨ s.unsettled e.cell = true) :
    s.bankFix l = l := by
  refine (List.map_congr_left fun e he => if_neg ?_).trans (List.map_id l)
  obtain happ | hun := h e he
  · rw [happ]; simp
  · rw [hun]; simp

/-- The milliseconds of delay that entry `e` has left after this step. -/
def BankSeq.left (b : BankSeq) (e : BankEnt) : Nat := match b.delay with | none => e.delay | some k => k - 1

/-- Entry `e` of the sequence is under way, not tried, and no entry of the sequence has been applied. -/
structure BankSeq.AtEntry (b : BankSeq) (e : BankEnt) : Prop where
  stopped : b.stopped = false
  tried : b.tried = false
  entry : b.ents[b.k]? = some e
  unapplied : ∀ q ∈ b.ents, q.applied = false
  inflight : b.maxInflight = 0

section
variable {b : BankSeq} {e : BankEnt} {s : Dev} {n : Nat} {o : Op}

theorem BankSeq.AtEntry.bankStep_eq (h : b.AtEntry e) (s : Dev) (n : Nat) (o : Op) : s.bankStep n o b =
    if 0 < b.left e then s.opBoundary n { o with body := .bank { b with delay := some (b.left e) } }
    else
      let p := s.bankApply { b with delay := some 0 } e
      let c := { p.1 with ents := p.2.bankFix p.1.ents }
      p.2.opBoundary n { o with body := .bank (if p.2.bankWaited (c.ents.getD c.k e) then c.advance else c) } := by
  obtain ⟨hstop, htried, hentry, hnone, hmax⟩ := h
  have hfix : s.bankFix b.ents = b.ents := Dev.bankFix_eq_self fun q hq => .inl (hnone q hq)
  have hk : b.k < b.ents.length := (List.getElem?_eq_some_iff.1 hentry).1
  have hget : b.ents.getD b.k { cell := 0, wait := 0, delay := 0 } = e := by
    rw [List.getD_eq_getElem?_getD, hentry]; rfl
  unfold Dev.bankStep
  simp only [hfix, hstop, htried, hget, hmax, Nat.not_le.2 hk, decide_false, Bool.or_self, Bool.false_eq_true, if_false,
    ne_eq, not_true_eq_false, false_and, or_false]
  rfl

theorem Dev.bankApply_of_auto (h : s.auto (e.cell / 64) = true) (b : BankSeq) :
    s.bankApply b e = ({ b with ents := b.ents.set b.k { e with outcome := some 5 }, tried := true }, s) :=
  if_pos h

theorem Dev.bankApply_of_bad (h : s.auto (e.cell / 64) = false)
    (hst : (s.cell e.cell).state = .disabled ∨ (s.cell e.cell).state = .latched ∨ (s.cell e.cell).state = .safe)
    (b : BankSeq) :
    s.bankApply b e = ({ b with ents := b.ents.set b.k { e with outcome := some 2 }, tried := true }, s) := by
  have hbad : s.chOn e.cell = (.bad, s) := by
    unfold Dev.chOn
    obtain hst | hst | hst := hst <;> rw [hst]
  simp [Dev.bankApply, h, hbad]

theorem Dev.bankApply_of_ok (h : s.auto (e.cell / 64) = false) {t : Dev} (hok : s.chOn e.cell = (.ok, t)) (b : BankSeq) :
    s.bankApply b e = ({ b with ents := b.ents.set b.k { e with applied := true }, tried := true }, t) := by
  simp [Dev.bankApply, h, hok]

/-- The entry of the sequence is the one just put. -/
theorem BankSeq.AtEntry.getD_set (h : b.AtEntry e) (v : BankEnt) : (b.ents.set b.k v).getD b.k e = v := by
  have hk : b.k < b.ents.length := (List.getElem?_eq_some_iff.1 h.entry).1
  rw [List.getD_eq_getElem?_getD, List.getElem?_set_self hk]; rfl

theorem BankSeq.AtEntry.applied_set (h : b.AtEntry e) (v : BankEnt) :
    ∀ q ∈ b.ents.set b.k v, q.applied = false ∨ q = v := fun _ hq =>
  (List.mem_or_eq_of_mem_set hq).imp_left (h.unapplied _)

/-- An application that is refused fixes the outcome of its entry, and the next entry is under way. -/
theorem BankSeq.AtEntry.bankStep_refused (h : b.AtEntry e) (hleft : b.left e = 0) (hstop : b.stopOnFail = false) {r : Nat}
    (happ : s.bankApply { b with delay := some 0 } e =
      ({ b with ents := b.ents.set b.k { e with outcome := some r }, delay := some 0, tried := true }, s)) :
    s.bankStep n o b = s.opBoundary n { o with body := .bank { b with
      ents := b.ents.set b.k { e with outcome := some r }, k := b.k + 1, delay := none, tried := false } } := by
  have he : e.applied = false := h.unapplied e (List.mem_of_getElem? h.entry)
  have hfix : s.bankFix (b.ents.set b.k { e with outcome := some r }) = b.ents.set b.k { e with outcome := some r } := by
    refine Dev.bankFix_eq_self fun q hq => .inl ?_
    obtain hq | rfl := h.applied_set _ q hq
    · exact hq
    · exact he
  have hwaited : s.bankWaited { e with outcome := some r } = true := by simp [Dev.bankWaited, he]
  rw [h.bankStep_eq, hleft, if_neg (Nat.lt_irrefl 0), happ]
  simp only [hfix, h.getD_set, hwaited, if_true, BankSeq.advance, hstop, h.stopped, Bool.false_and]

/-- An application with wait 1 that leaves its cell in PRECHECK waits for the cell. -/
theorem BankSeq.AtEntry.bankStep_applied (h : b.AtEntry e) (hleft : b.left e = 0) (hauto : s.auto (e.cell / 64) = false)
    (hwait : e.wait = 1) {t : Dev} (hok : s.chOn e.cell = (.ok, t))
    (ht : (t.cell e.cell).state = .precheck) :
    s.bankStep n o b = t.opBoundary n { o with body := .bank { b with
      ents := b.ents.set b.k { e with applied := true }, delay := some 0, tried := true } } := by
  have hfix : t.bankFix (b.ents.set b.k { e with applied := true }) = b.ents.set b.k { e with applied := true } := by
    refine Dev.bankFix_eq_self fun q hq => ?_
    obtain hq | rfl := h.applied_set _ q hq
    · exact .inl hq
    · exact .inr (by simp [Dev.unsettled, ht])
  have hwaited : t.bankWaited { e with applied := true } = false := by simp [Dev.bankWaited, hwait, ht]
  rw [h.bankStep_eq, hleft, if_neg (Nat.lt_irrefl 0), Dev.bankApply_of_ok hauto hok]
  simp only [hfix, h.getD_set, hwaited, Bool.false_eq_true, if_false]

end

/-! ### What CH_ON and CH_OFF leave of their cell (Table 3-3) -/

@[simp] theorem Dev.entryFields_holdOff (s : Dev) (c : Nat) (st : CellState) (t : Nat) (x : Cell) :
    (s.entryFields c st t x).holdOff = x.holdOff := by
  cases st <;> rfl

theorem Dev.commitProf_cell_holdOff (s : Dev) (c : Nat) : ((s.commitProf c).cell c).holdOff = (s.cell c).holdOff := by
  unfold Dev.commitProf
  dsimp only
  split
  · rw [Dev.modCell_eq, Dev.cell_setCell_same]; rfl
  · rfl

/-- The self-tests that entry to PRECHECK starts change nothing else of the cell (R129). -/
theorem Dev.startTests_cell (s : Dev) (c : Nat) : (s.startTests c).cell c = { s.cell c with selftestRun := true } := by
  have hcells : (s.startTests c).cells = (s.modCell c (fun x => { x with selftestRun := true })).cells := by
    unfold Dev.startTests
    exact (apply_ite Dev.cells _ _ _).trans (ite_self _)
  rw [Dev.cell_congr hcells, Dev.modCell_eq, Dev.cell_setCell_same]

theorem Dev.arriveState_precheck_cell (s : Dev) (c : Nat) (old : CellState) (t : Nat) :
    (s.arriveState c old .precheck t).cell c = { s.cell c with selftestRun := true } := by
  rw [← Dev.startTests_cell]
  refine Dev.cell_congr ?_ c
  unfold Dev.arriveState
  extract_lets g u v w
  have hw : w = s.startTests c := rfl
  rw [Dev.cellEvent_cells, Dev.modLane_cells, Dev.gateLane_cells, ← hw]
  split <;> rfl

/-- Entry to PRECHECK of a cell that comes from no trip. -/
theorem Dev.goto_precheck_cell {s : Dev} {c : Nat} (h : (s.cell c).state ≠ .precheck)
    (htrip : (s.cell c).state ≠ .tripped) :
    ((s.goto c .precheck).cell c).state = .precheck ∧ ((s.goto c .precheck).cell c).holdOff = (s.cell c).holdOff := by
  obtain ⟨x, hx⟩ := Dev.holdExit_cell ((s.leaveState c .precheck).modCell c
    ((s.leaveState c .precheck).entryFields c .precheck ((s.leaveState c .precheck).rtime (c / 64)))) c
  obtain ⟨p, r, hleave⟩ := Dev.leaveState_cell .precheck htrip
  rw [Dev.goto_eq s c _ h, Dev.arriveState_precheck_cell, Dev.cell_congr (Dev.enterState_cells _ _ _), hx, Dev.modCell_eq,
    Dev.cell_setCell_same, Dev.entryFields_state, Dev.entryFields_holdOff, hleave]
  exact ⟨rfl, s.commitProf_cell_holdOff c⟩

@[simp] theorem Dev.chOn_op (s : Dev) (c n : Nat) : (s.chOn c).2.op n = s.op n := by
  have hops : (s.chOn c).2.ops = s.ops := Dev.hide_keeps (Dev.chOn_hide (m := Dev.cellParts) rfl s c rfl) .ops rfl
  rw [Dev.op, hops, Dev.op]

/-- CH_ON of a cell that waits in OFF or PROBE, in a region whose replica does not wait for a wake. -/
theorem Dev.chOn_of_off {s : Dev} {c : Nat} (hst : (s.cell c).state = .off ∨ (s.cell c).state = .probe)
    (hwoke : (s.region (c / 64)).woke = false) :
    ∃ t, s.chOn c = (.ok, t) ∧ (t.cell c).state = .precheck ∧ (t.cell c).holdOff = false ∧ Only Dev.cell c s t := by
  have hcell : (s.modCell c (fun x => { x with holdOff := false })).cell c = { s.cell c with holdOff := false } :=
    Dev.cell_setCell_same _ _ _
  have hgoto := Dev.goto_precheck_cell (s := s.modCell c (fun x => { x with holdOff := false })) (c := c)
  have hne : (s.cell c).state ≠ .precheck ∧ (s.cell c).state ≠ .tripped := by
    obtain hst | hst := hst <;> rw [hst] <;> decide
  rw [hcell] at hgoto
  obtain ⟨hpre, hhold⟩ := hgoto hne.1 hne.2
  refine ⟨_, ?_, hpre, hhold, Only.of_others (Dev.goto_others _ _ _ (Dev.modCell_others _ _ _ rfl))⟩
  unfold Dev.chOn
  obtain hst | hst := hst <;> simp [hst, hwoke]

/-- CH_OFF of a cell in ON or INRUSH: OFF with HOLD_OFF, whichever cell is ready next in an autonomous region. -/
theorem Dev.chOff_of_on_cell {s : Dev} {c : Nat} (hst : (s.cell c).state = .on ∨ (s.cell c).state = .inrush) :
    ((s.chOff c).2.cell c).state = .off ∧ ((s.chOff c).2.cell c).holdOff = true := by
  have hoff : (s.chOff c).2 =
      ((s.goto c .off).setCell c { (s.goto c .off).cell c with holdOff := true }).autoNext (c / 64) := by
    unfold Dev.chOff
    obtain hst | hst := hst <;> rw [hst] <;> rfl
  have hstate : ((s.goto c .off).cell c).state = .off := Dev.goto_state (by decide)
  rw [hoff, Dev.autoNext_cell (c / 64) (Dev.setCell_listsAsRead _ c _), Dev.cell_setCell_same]
  · exact ⟨hstate, rfl⟩
  · rw [Dev.cell_setCell_same]
    exact hstate.trans_ne (by decide)

end Sys2Proof.Machine

namespace Sys2Proof.Proofs
open Sys2Proof Sys2Proof.Machine

section
variable {d : Desc} {s : State} {o : Op} (ho : s.dev.op (d.par 0 % 64) = some o)
  (hh : s.dev.handle (d.par 0 % 64) = d.par 0)
include ho hh

/-- R287: the request is noted in an operation that runs or waits, and the completion carries the state. -/
theorem opSuspend_does (hacc : Accepted d [6] [Cmd.all] s.dev) :
    Does (.opSuspend d) s [.ops, .complq, .hp] fun t => (∀ m, m ≠ d.par 0 % 64 → t.op m = s.dev.op m) ∧
      t.complq = (CmdDone s.dev d 0xF00 0 o.state.code 0).complq ∧ t.op (d.par 0 % 64) =
        some { o with suspendReq := (o.suspendReq || o.state == .running || o.state == .suspendedBp) } := by
  obtain ⟨hothers, hsame, -, hcomplq⟩ := (Dev.suspendAt_opPut ho).opReply d 0xF00
  exact Does.of_parts (exec_opSuspend ho hh hacc)
    (Dev.opReply_hide (by decide) _ _ _ _ (hide_ite (Dev.setOp_hide (by decide) _ _ _ rfl) rfl))
    ⟨hothers, hcomplq, hsame⟩

/-- R288: RUNNING at the boundary where it stopped, with the event; a suspend request that waits is withdrawn. -/
theorem opResume_does (hacc : Accepted d [6] [Cmd.all] s.dev) :
    Does (.opResume d) s [.ops, .evq, .complq, .hp] fun t => (∀ m, m ≠ d.par 0 % 64 → t.op m = s.dev.op m) ∧
      (o.state = .suspended → t.op (d.par 0 % 64) = some { o with state := .running, body := o.body.resumed } ∧
        t.complq = (CmdDone s.dev d 0xF01 0 0 0).complq ∧ t.evq = s.dev.evq ++ [OpEvent s.dev (d.par 0 % 64) o 0 1]) ∧
      (o.state = .suspendedBp → t.op (d.par 0 % 64) = some { o with suspendReq := false } ∧ t.evq = s.dev.evq ∧
        t.complq = (CmdDone s.dev d 0xF01 0 2 0).complq) ∧
      (o.state ≠ .suspended → o.state ≠ .suspendedBp → t.op (d.par 0 % 64) = some o ∧ t.evq = s.dev.evq ∧
        t.complq = (CmdDone s.dev d 0xF01 0 o.state.code 0).complq) := by
  have hframe := Dev.opReply_hide (m := Parts.mask [.ops, .evq, .complq, .hp]) (by decide) _ d 0xF01 (d.par 0 % 64)
    (Dev.resumeAt_hide (by decide) s.dev (d.par 0 % 64) o)
  refine Does.of_parts (exec_opResume ho hh hacc) hframe
    ⟨fun m hm => ?_, fun hst => ?_, fun hst => ?_, fun hsus hbp => ?_⟩
  · exact (Dev.opReply_op _ _ _ _ _).trans (Dev.resumeAt_others _ _ _ m hm)
  · obtain ⟨-, hsame, hevq, hcomplq⟩ := (Dev.resumeAt_opPut_suspended hst s.dev (d.par 0 % 64)).opReply d 0xF01
    exact ⟨hsame, hcomplq, hevq⟩
  · obtain ⟨-, hsame, hevq, hcomplq⟩ := (Dev.resumeAt_opPut_suspendedBp hst s.dev (d.par 0 % 64)).opReply d 0xF01
    rw [hst] at hcomplq
    exact ⟨hsame, hevq.trans (List.append_nil _), hcomplq⟩
  · obtain ⟨-, hsame, hevq, hcomplq⟩ := (Dev.resumeAt_opPut_of_ne hsus hbp ho).opReply d 0xF01
    exact ⟨hsame, hevq.trans (List.append_nil _), hcomplq⟩

/-- R289: CANCELLING, with the event. -/
theorem opCancel_does (hacc : Accepted d [6] [Cmd.all, 1] s.dev) (hst : o.state ≠ .cancelling) :
    Does (.opCancel d) s [.ops, .evq, .complq, .hp] fun t => (∀ m, m ≠ d.par 0 % 64 → t.op m = s.dev.op m) ∧
      t.complq = (CmdDone s.dev d 0xF02 0 3 0).complq ∧
      t.evq = s.dev.evq ++ [OpEvent s.dev (d.par 0 % 64) o 3 o.state.code] ∧
      ∃ o', t.op (d.par 0 % 64) = some o' ∧ o'.state = .cancelling ∧ o'.rollback = Bits.nbit (d.par 1) 0 ∧
        o'.steps = o.steps := by
  obtain ⟨hothers, hsame, hevq, hcomplq⟩ :=
    (Dev.opGoto_opPut (o := o.cancelled (Bits.nbit (d.par 1) 0)) hst s.dev (d.par 0 % 64)).opReply d 0xF02
  exact Does.of_parts (exec_opCancel ho hh hacc hst)
    (Dev.opReply_hide (by decide) _ _ _ _ (Dev.opGoto_hide (by decide) _ _ _ _ rfl))
    ⟨hothers, hcomplq, hevq, _, hsame, rfl, rfl, rfl⟩

end

/-- R285, Table 12-2: every long command starts its operation. -/
theorem startRow_starts (d : Desc) (i : Instr) (op : Nat) (kinds masks : List Nat) (body : OpBody) (s : State)
    (hrow : StartRow d s.dev i op kinds masks body) (hacc : Accepted d kinds masks s.dev) : Starts i s d op body :=
  Starts.of_exec (exec_startRow hrow hacc)

section
variable {d : Desc} {s : State} (himm : Bits.nbit (d.par 0) 10 = false)
  (hacc : Accepted d [0] ([0x01FF0FFF, Cmd.all, Cmd.all] ++ List.replicate (min 10 (d.pf 0 0 10)) 0xFFFF07FF) s.dev)
include himm hacc

/-- R293: a list without cells, or too long, is refused. -/
theorem bankSequence_badCount (hcount : d.pf 0 0 10 < 1 ∨ 10 < d.pf 0 0 10) :
    Refused (.bankSequence d none) s d 0x180 0x10 := by
  have hexec := exec_bankSequence_immediate himm hacc
  rw [if_pos (by omega)] at hexec
  exact hexec

/-- R293: a list that names a cell twice is refused. -/
theorem bankSequence_repeated (hrange : ¬(d.pf 0 0 10 < 1 ∨ 10 < d.pf 0 0 10 ∨ d.par64 1 % 64 ≠ 0))
    (hdup : ¬(Bank.cells d).Nodup) : Refused (.bankSequence d none) s d 0x180 0x10 := by
  have hexec := exec_bankSequence_immediate himm hacc
  rw [if_neg hrange, if_pos (.inl hdup)] at hexec
  exact hexec

/-- R285, R293: a good list whose cells no other sequence names starts its sequence. -/
theorem bankSequence_starts (hrange : ¬(d.pf 0 0 10 < 1 ∨ 10 < d.pf 0 0 10 ∨ d.par64 1 % 64 ≠ 0))
    (hdup : (Bank.cells d).Nodup) (hwait : ∀ e ∈ Bank.ents d, e.wait ≠ 3)
    (hidle : s.dev.bankBusy (Bank.cells d) = false) :
    Starts (.bankSequence d none) s d 0x180 (Bank.body d) := by
  have hexec := exec_bankSequence_immediate himm hacc
  rw [if_neg hrange, if_neg (by simpa [hdup] using hwait), hidle, if_neg Bool.false_ne_true] at hexec
  exact Starts.of_exec hexec

end

/-- R293: BANK_SEQUENCE with an immediate list. -/
theorem bankSequence_rules (d : Desc) (s : State) (himm : Bits.nbit (d.par 0) 10 = false)
    (hacc : Accepted d [0] ([0x01FF0FFF, Cmd.all, Cmd.all] ++ List.replicate (min 10 (d.pf 0 0 10)) 0xFFFF07FF) s.dev) :
    ((d.pf 0 0 10 < 1 ∨ 10 < d.pf 0 0 10) → Refused (.bankSequence d none) s d 0x180 0x10) ∧
    (1 ≤ d.pf 0 0 10 → d.pf 0 0 10 ≤ 10 → d.par64 1 % 64 = 0 →
      (¬(Bank.cells d).Nodup → Refused (.bankSequence d none) s d 0x180 0x10) ∧
      ((Bank.cells d).Nodup → (∀ e ∈ Bank.ents d, e.wait ≠ 3) → s.dev.bankBusy (Bank.cells d) = false →
        Starts (.bankSequence d none) s d 0x180 (Bank.body d))) := by
  refine ⟨bankSequence_badCount himm hacc, fun hlo hhi haddr => ?_⟩
  have hrange : ¬(d.pf 0 0 10 < 1 ∨ 10 < d.pf 0 0 10 ∨ d.par64 1 % 64 ≠ 0) := by omega
  exact ⟨bankSequence_repeated himm hacc hrange, bankSequence_starts himm hacc hrange⟩

section
variable {n : BitVec 6} {s : State} {o : Op} {b : BankSeq}

section
variable (ho : s.dev.op n.toNat = some o) (hend : o.ended = false) (hst : o.state = .running)
  (hreq : o.suspendReq = false) (hbody : o.body = .bank b)
include ho hend hst hreq hbody

/-- A step of a bank sequence that runs, with no suspend request: what it leaves of the sequence, and its boundary. -/
theorem bankStep_becomes {t : Dev} {c : BankSeq}
    (hstep : s.dev.bankStep n.toNat o b = t.opBoundary n.toNat { o with body := .bank c }) :
    Becomes (.opStep n .none) s (t.setOp n.toNat (some { o with steps := o.steps + 1, body := .bank c })) := by
  have hrun : s.dev.opRun n.toNat o .none = s.dev.bankStep n.toNat o b := by rw [Dev.opRun, hbody]; rfl
  have hexec := exec_opStep_running ho hend hst .none
  rwa [hrun, hstep, Dev.opBoundary_of_no_request (o := { o with body := .bank c }) hreq] at hexec

/-- R294, Table 3-3: CH_ON takes the cell from OFF or PROBE to PRECHECK, and the sequence waits for it. -/
theorem bankStep_applies {e : BankEnt} (hat : b.AtEntry e) (hleft : b.left e = 0)
    (hauto : s.dev.auto (e.cell / 64) = false) (hwoke : (s.dev.region (e.cell / 64)).woke = false) (hwait : e.wait = 1)
    (hcell : (s.dev.cell e.cell).state = .off ∨ (s.dev.cell e.cell).state = .probe) :
    Does (.opStep n .none) s (Parts.cell ++ [.ops]) fun t => (t.cell e.cell).state = .precheck ∧
      (t.cell e.cell).holdOff = false ∧ Only Dev.cell e.cell s.dev t ∧ (∀ m, m ≠ n.toNat → t.op m = s.dev.op m) ∧
      t.op n.toNat = some { o with steps := o.steps + 1, body := .bank { b with
        ents := b.ents.set b.k { e with applied := true }, delay := some 0, tried := true } } := by
  obtain ⟨t, hok, hpre, hhold, honly⟩ := Dev.chOn_of_off hcell hwoke
  have ht : (s.dev.chOn e.cell).2 = t := congrArg Prod.snd hok
  have hframe := Dev.chOn_hide (m := Parts.mask (Parts.cell ++ [.ops])) (by decide) s.dev e.cell rfl
  have hops := s.dev.chOn_op e.cell
  rw [ht] at hframe hops
  have hstep := hat.bankStep_applied (n := n.toNat) (o := o) hleft hauto hwait hok hpre
  exact Does.of_parts (bankStep_becomes ho hend hst hreq hbody hstep) (Dev.setOp_hide (by decide) _ _ _ hframe)
    ⟨hpre, hhold, honly, fun m hm => (Dev.op_setOp_ne _ _ _ _ hm).trans (hops m), Dev.op_setOp_same _ _ _⟩

end

/-- R289, Table 12-7: a step of a rollback switches the next cell off. -/
theorem bankUndo_does {c : Nat} {rest : List Nat} (ho : s.dev.op n.toNat = some o) (hend : o.ended = false)
    (hst : o.state = .cancelling) (hbp : o.bpWait = false) (hbody : o.body = .bank b) (hundo : b.undo = c :: rest)
    (hcell : (s.dev.cell c).state = .on ∨ (s.dev.cell c).state = .inrush) :
    Does (.opStep n .none) s (Parts.cell ++ [.ops]) fun t => (t.cell c).state = .off ∧ (t.cell c).holdOff = true ∧
      t.op n.toNat = some { o with steps := o.steps + 1, body := .bank { b with undo := rest } } := by
  have hstep : s.dev.opUndo n.toNat o = (s.dev.chOff c).2.setOp n.toNat
      (some { o with steps := o.steps + 1, body := .bank { b with undo := rest } }) := by
    simp only [Dev.opUndo, hbody, hundo]
  have hexec := exec_opStep_cancelling ho hend hst hbp .none
  rw [hstep] at hexec
  obtain ⟨hoff, hhold⟩ := Dev.chOff_of_on_cell hcell
  exact Does.of_parts hexec (Dev.setOp_hide (by decide) _ _ _ (Dev.chOff_hide (by decide) _ _ rfl))
    ⟨hoff, hhold, Dev.op_setOp_same _ _ _⟩

end

/-- Settles O33: the starts, the commands that a handle names, and the steps, each from what it leaves of the operations. -/
theorem longOperations : Obligations.LongOperations := by
  refine ⟨startRow_starts, fun d count s hcount himm hacc => by subst hcount; exact bankSequence_rules d s himm hacc,
    fun d i op masks s hrow hacc => ?_,
    fun n x s => ⟨fun ho => exec_opStep_none ho x, fun o ho hidle => exec_opStep_idle ho hidle x⟩,
    fun n s o b e ho hend hst hreq hbody hstop htried hentry _ _ hnone hmax => ?_,
    fun n s o b c rest ho hend hst hbp hbody hundo hcell => bankUndo_does ho hend hst hbp hbody hundo hcell⟩
  · refine ⟨exec_opCommand_badHandle hrow hacc, fun o ho hh => ⟨?_, ?_, ?_, ?_⟩⟩
    · rintro rfl
      obtain ⟨rfl, rfl⟩ : op = 0xF03 ∧ masks = [Cmd.all] := by simpa using hrow
      exact exec_opQuery ho hh hacc
    · rintro rfl
      obtain ⟨rfl, rfl⟩ : op = 0xF00 ∧ masks = [Cmd.all] := by simpa using hrow
      exact opSuspend_does ho hh hacc
    · rintro rfl
      obtain ⟨rfl, rfl⟩ : op = 0xF01 ∧ masks = [Cmd.all] := by simpa using hrow
      exact opResume_does ho hh hacc
    · rintro rfl
      obtain ⟨rfl, rfl⟩ : op = 0xF02 ∧ masks = [Cmd.all, 1] := by simpa using hrow
      exact ⟨exec_opCancel_again ho hh hacc, opCancel_does ho hh hacc⟩
  · have hat : b.AtEntry e := ⟨hstop, htried, hentry, hnone, hmax⟩
    refine ⟨fun hleft => bankStep_becomes ho hend hst hreq hbody ((hat.bankStep_eq _ _ _).trans (if_pos hleft)),
      fun hleft r hr hsof => bankStep_becomes ho hend hst hreq hbody (hat.bankStep_refused hleft hsof ?_),
      fun hleft hauto hwoke hwait hcell => bankStep_applies ho hend hst hreq hbody hat hleft hauto hwoke hwait hcell⟩
    obtain ⟨hauto, rfl⟩ | ⟨hauto, rfl, hcell⟩ := hr
    · exact Dev.bankApply_of_auto hauto _
    · exact Dev.bankApply_of_bad hauto hcell _

end Sys2Proof.Proofs
end

section
/-! SUPPORT. The safe reaction of a region (spec/17 R394): what it does to cells, slices and collectors, and what leaves the
device with it. The events of the chip sources that have no region (R387 to R394): what they leave alone. -/

namespace Sys2Proof.Machine

/-! ### What leaves the device with a change of a cell's state -/

/-- The blanking mask of every part but what has left the device. -/
def Dev.allButOut : Nat := 2 ^ 60 - 1 - 2 ^ 59

theorem Dev.out_of_hide {s t : Dev} (h : Dev.hide Dev.allButOut t = Dev.hide Dev.allButOut s) : t.out = s.out :=
  Dev.hide_keeps h .out rfl

theorem Dev.sendTrip_out_grows (s : Dev) (g : Nat) (bit : Bool) : s.out <+: (s.sendTrip g bit).out := by
  unfold Dev.sendTrip
  split
  · exact ⟨_, rfl⟩
  · exact ⟨[], List.append_nil _⟩

/-- The message of a trip broadcast leaves after what the operation itself sends. -/
theorem Dev.withBcast_out_grows (s : Dev) (g : Nat) (f : Dev → Dev) : (f s).out <+: (s.withBcast g f).out := by
  unfold Dev.withBcast
  dsimp only
  split
  · exact ⟨[], List.append_nil _⟩
  · exact Dev.sendTrip_out_grows _ _ _

theorem Dev.leaveState_out (s : Dev) (c : Nat) (st : CellState) : (s.leaveState c st).out = s.out :=
  (Dev.hide_keeps (s.leaveState_hide c st) .out rfl).trans (Dev.out_of_hide (Dev.commitProf_hide rfl s c rfl))

theorem Dev.enterState_out_grows (s : Dev) (c : Nat) (st : CellState) : s.out <+: (s.enterState c st).out := by
  have hf := Dev.out_of_hide (Dev.holdExit_hide rfl _ c
    (Dev.modCell_hide rfl s c (s.entryFields c st (s.rtime (c / 64))) rfl))
  rw [← hf]
  exact Dev.withBcast_out_grows s (c / 64) fun u => (u.modCell c (u.entryFields c st (s.rtime (c / 64)))).holdExit c

theorem Dev.arriveState_out (s : Dev) (c : Nat) (old st : CellState) (t : Nat) :
    (s.arriveState c old st t).out = s.out := by
  unfold Dev.arriveState
  extract_lets g u v w
  have hu : Dev.hide Dev.allButOut u = Dev.hide Dev.allButOut s := hide_ite (Dev.sendSl_hide rfl _ _ _ rfl) rfl
  have hv : Dev.hide Dev.allButOut v = Dev.hide Dev.allButOut s := hide_ite (Dev.startTests_hide rfl _ _ hu) hu
  have hw : Dev.hide Dev.allButOut w = Dev.hide Dev.allButOut s := hide_ite (Dev.modConv_hide rfl _ _ _ hv) hv
  split
  next clocks r hd =>
  have hr : Dev.hide Dev.allButOut r = Dev.hide Dev.allButOut s := by
    rw [← show _ = r from congrArg Prod.snd hd]
    split
    · exact Dev.drawNat_hide rfl _ hw
    · exact hw
  exact Dev.out_of_hide (Dev.cellEvent_hide rfl _ _ _ _ _ _ (Dev.modLane_hide rfl _ _ _ (Dev.gateLane_hide rfl _ _ _ hr)))

/-- A change of state sends at most a trip message, after all that has been sent before. -/
theorem Dev.goto_out_grows (s : Dev) (c : Nat) (st : CellState) : s.out <+: (s.goto c st).out := by
  by_cases h : (s.cell c).state = st
  · rw [Dev.goto, if_pos h]
  · rw [Dev.goto_eq s c st h, Dev.arriveState_out, ← s.leaveState_out c st]
    exact Dev.enterState_out_grows _ _ _

/-! ### One step for each of a list -/

/-- What every step for an element of the list keeps, the whole run keeps. -/
theorem Dev.forEach_keeps {α : Type} {P : Dev → Prop} {f : Dev → α → Dev} {l : List α} {s : Dev}
    (hf : ∀ t a, a ∈ l → P t → P (f t a)) (hs : P s) : P (s.forEach l f) :=
  List.foldlRecOn l f hs fun t ht a ha => hf t a ha ht

/-- What one step reaches and every later step keeps, the whole run reaches. -/
theorem Dev.forEach_attains {α : Type} {P : Dev → Prop} {f : Dev → α → Dev} {l : List α} {a : α}
    (hf : ∀ t b, b ∈ l → P t → P (f t b)) (ha : ∀ t, P (f t a)) (hmem : a ∈ l) (s : Dev) : P (s.forEach l f) := by
  obtain ⟨l₁, l₂, rfl⟩ := List.append_of_mem hmem
  rw [Dev.forEach, List.foldl_append, List.foldl_cons]
  exact Dev.forEach_keeps (fun t b hb => hf t b (List.mem_append_right _ (List.mem_cons_of_mem _ hb))) (ha _)

/-! ### Collectors: entries and the end of a level source -/

theorem Dev.coll_congr {s t : Dev} (h : t.colls = s.colls) (k : Nat) : t.coll k = s.coll k := by
  rw [Dev.coll, h, Dev.coll]

/-- The blanking mask of every part but the collectors. -/
def Dev.allButColls : Nat := 2 ^ 60 - 1 - 2 ^ 35

theorem Dev.colls_of_hide {s t : Dev} (h : Dev.hide Dev.allButColls t = Dev.hide Dev.allButColls s) :
    t.colls = s.colls :=
  Dev.hide_keeps h .colls rfl

@[simp] theorem Dev.collEvent_colls (s : Dev) (k code : Nat) (flag : Bool) (payload : List Word) :
    (s.collEvent k code flag payload).colls = s.colls :=
  Dev.colls_of_hide (Dev.collEvent_hide rfl s k code flag payload rfl)

@[simp] theorem Dev.faultEvent_colls (s : Dev) (k : Nat) (flag : Bool) (e : HistEntry) :
    (s.faultEvent k flag e).colls = s.colls :=
  Dev.colls_of_hide (Dev.faultEvent_hide rfl s k flag e rfl)

@[simp] theorem Dev.errAssert_colls (s : Dev) : s.errAssert.colls = s.colls :=
  Dev.colls_of_hide (Dev.errAssert_hide rfl s rfl)

/-- A history entry changes the history of its collector alone. -/
theorem Dev.history_coll (s : Dev) (k : Nat) (e : HistEntry) :
    ∃ x : Coll, x.live = (s.coll k).live ∧ (s.history k e).colls = (s.setColl k x).colls := by
  unfold Dev.history
  dsimp only
  split
  · exact ⟨{ s.coll k with hist := (s.coll k).hist ++ [e], seq := ((s.coll k).seq + 1) % 2 ^ 32 }, rfl, rfl⟩
  · refine ⟨{ s.coll k with
      historyLost := true, overflow := Bits.satAdd 255 (s.coll k).overflow 1, seq := ((s.coll k).seq + 1) % 2 ^ 32 }, rfl, ?_⟩
    split
    · exact Dev.collEvent_colls _ _ _ _ _
    · rfl

/-- The live bits of every collector. -/
def Dev.lives (s : Dev) : Nat → Quad := fun k => (s.coll k).live

theorem Dev.lives_congr {s t : Dev} (h : t.colls = s.colls) : t.lives = s.lives :=
  funext fun k => congrArg Coll.live (Dev.coll_congr h k)

theorem Dev.setColl_lives (s : Dev) (k : Nat) (x : Coll) (h : x.live = (s.coll k).live) :
    (s.setColl k x).lives = s.lives := by
  funext j
  rw [Dev.lives, Dev.lives, Dev.coll_setColl]
  split
  · next hj => rw [hj, h]
  · rfl

theorem Dev.history_lives (s : Dev) (k : Nat) (e : HistEntry) : (s.history k e).lives = s.lives := by
  obtain ⟨x, hx, hcolls⟩ := s.history_coll k e
  exact (Dev.lives_congr hcolls).trans (s.setColl_lives k x hx)

/-- The end of a level source concerns its own collector. -/
theorem Dev.unoccur_coll_ne (s : Dev) (k src : Nat) {j : Nat} (h : j ≠ k) : (s.unoccur k src).coll j = s.coll j := by
  unfold Dev.unoccur
  extract_lets x t e mine queued closed clearRec appends u v
  have hu : u.coll j = s.coll j := Dev.coll_setColl_ne s k _ j h
  have hv : v.coll j = s.coll j := by
    unfold v
    split
    · obtain ⟨y, -, hcolls⟩ := u.history_coll k clearRec
      rw [Dev.coll_congr hcolls, Dev.coll_setColl_ne u k y j h, hu]
    · exact hu
  split
  · rfl
  split
  · rw [Dev.coll_congr (Dev.faultEvent_colls _ _ _ _), hv]
  · exact hv

/-- A source that has become inactive is not live. -/
theorem Dev.unoccur_not_live (s : Dev) (k : Nat) {src : Nat} (hsrc : src < 128) :
    ((s.unoccur k src).coll k).live.getLsbD src = false := by
  unfold Dev.unoccur
  extract_lets x t e mine queued closed clearRec appends u v
  split
  next hdead => simpa [x] using hdead
  have hu : (u.lives k).getLsbD src = false := by
    rw [Dev.lives, show u.coll k = _ from Dev.coll_setColl_same s k _]
    simp [hsrc]
  have hv : v.lives = u.lives := by
    unfold v
    split
    · exact u.history_lives k clearRec
    · rfl
  rw [← hv] at hu
  split
  · rw [Dev.coll_congr (Dev.faultEvent_colls _ _ _ _)]
    exact hu
  · exact hu

/-! ### Events of the chip sources that have no region (R387 to R394) -/

/-- From source 32 on a chip source has no region: of the safe reactions CHIP_SAFE alone is left, and it stands. -/
theorem Dev.safeReact_chip {src : Nat} (hsrc : 32 ≤ src) (s : Dev) (info mask : Nat) (fatal : Bool) :
    s.safeReact 8 src info mask fatal = if Bits.nbit mask 5 = true then s.stand 8 src .chip fatal else s := by
  simp [Dev.safeReact, Fc.cellOf, Fc.blockOf, Nat.not_lt.2 hsrc]

/-- What each operation that such an event runs keeps, the event keeps: an update of the chip collector that leaves its live
bits alone, an entry, EV_FAULT, and ERR_N. -/
theorem Dev.reactEvent_chip_keeps {P : Dev → Prop} {src : Nat} (hsrc : 32 ≤ src)
    (hcoll : ∀ (t : Dev) (f : Coll → Coll), (∀ x, (f x).live = x.live) → P t → P (t.modColl 8 f))
    (hhist : ∀ (t : Dev) (e : HistEntry), P t → P (t.history 8 e))
    (hevent : ∀ (t : Dev) (e : HistEntry), P t → P (t.faultEvent 8 true e))
    (herr : ∀ t : Dev, P t → P t.errAssert) {s : Dev} (hs : P s) (info t : Nat) (deferred inj : Bool) :
    P (s.reactEvent 8 src info t deferred inj) := by
  have hkey : P (s.faultKey 8 src).2.2 := by
    unfold Dev.faultKey
    split
    · exact hs
    · split
      · exact hs
      · exact hcoll s (fun x => { x with rules := _ }) (fun _ => rfl) hs
  unfold Dev.reactEvent
  extract_lets bit lvl
  generalize s.faultKey 8 src = p at hkey ⊢
  obtain ⟨key, rc, w⟩ := p
  dsimp -zeta only at hkey ⊢
  extract_lets x mask fatal e a b c d r
  have ha : P a := hcoll w _ (fun _ => rfl) hkey
  have hb : P b := by unfold b; split; exacts [hhist _ _ ha, ha]
  have hc : P c := by unfold c; split; exacts [hevent _ _ hb, hb]
  have hd : P d := by unfold d; split; exacts [herr _ hc, hc]
  rw [show r = d from if_neg (by decide), Dev.safeReact_chip hsrc]
  split
  · unfold Dev.stand
    exact hcoll d _ (fun y => by split <;> rfl) hd
  · exact hd

theorem Dev.reactEvent_chip_lives {src : Nat} (hsrc : 32 ≤ src) (s : Dev) (info t : Nat) (deferred inj : Bool) :
    (s.reactEvent 8 src info t deferred inj).lives = s.lives :=
  Dev.reactEvent_chip_keeps (P := fun d => d.lives = s.lives) hsrc
    (fun d _ hf h => (d.setColl_lives 8 _ (hf _)).trans h) (fun d e h => (d.history_lives 8 e).trans h)
    (fun d e h => (Dev.lives_congr (d.faultEvent_colls 8 true e)).trans h)
    (fun d h => (Dev.lives_congr d.errAssert_colls).trans h) rfl info t deferred inj

/-- The blanking mask of what an event of such a source may touch. -/
def Dev.chipParts : Nat := Parts.mask [.regions, .barges, .colls, .err, .evq]

theorem Dev.occur_chip_hide {src : Nat} (hsrc : 32 ≤ src) (s : Dev) (info : Nat) :
    Dev.hide Dev.chipParts (s.occur 8 src info) = Dev.hide Dev.chipParts s := by
  unfold Dev.occur Dev.occurAt
  refine hide_ite rfl (hide_ite rfl ?_)
  exact Dev.reactEvent_chip_keeps (P := fun d => Dev.hide Dev.chipParts d = Dev.hide Dev.chipParts s) hsrc
    (fun d f _ h => Dev.modColl_hide (by decide) d 8 f h) (fun d e h => Dev.history_hide (by decide) d 8 e h)
    (fun d e h => Dev.faultEvent_hide (by decide) d 8 true e h) (fun d h => Dev.errAssert_hide (by decide) d h)
    (Dev.noteEvent_hide (by decide) s 8 src 1 false rfl) _ _ _ _

theorem Dev.noteEvent_lives (s : Dev) (k src n : Nat) (inj : Bool) (hlev : Fc.level k src = false) :
    (s.noteEvent k src n inj).lives = s.lives :=
  Dev.setColl_lives s k _ (by simp [hlev])

/-- An event of a source that is no level source changes no live bit. -/
theorem Dev.occur_chip_lives {src : Nat} (hsrc : 32 ≤ src) (hlev : Fc.level 8 src = false) (s : Dev) (info : Nat) :
    (s.occur 8 src info).lives = s.lives := by
  unfold Dev.occur Dev.occurAt
  split
  · rfl
  split
  · rfl
  exact (Dev.reactEvent_chip_lives hsrc _ _ _ _ _).trans (s.noteEvent_lives 8 src 1 false hlev)

/-- A level source that was not live is latched and live after its event. -/
theorem Dev.occur_chip_level {src : Nat} (hsrc : 32 ≤ src) (hlt : src < 128) (hres : Fc.reserved 8 src = false)
    (hlev : Fc.level 8 src = true) {s : Dev} (hdead : (s.coll 8).live.getLsbD src = false) (info : Nat) :
    ((s.occur 8 src info).coll 8).latched.getLsbD src = true ∧ ((s.occur 8 src info).coll 8).live.getLsbD src = true := by
  have hnote : (s.noteEvent 8 src 1 false).coll 8 = _ := Dev.coll_setColl_same s 8 _
  have hocc : s.occur 8 src info = (s.noteEvent 8 src 1 false).reactEvent 8 src info (s.ctime 8) false false := by
    simp [Dev.occur, Dev.occurAt, hres, hdead]
  refine ⟨?_, ?_⟩
  · rw [hocc, Dev.reactEvent_latched, Dev.noteEvent_latched]
    simp [hlt]
  · have hlive := congrFun (Dev.reactEvent_chip_lives hsrc (s.noteEvent 8 src 1 false) info (s.ctime 8) false false) 8
    rw [hocc]
    refine (congrArg (BitVec.getLsbD · src) hlive).trans ?_
    rw [Dev.lives, hnote]
    simp [hlev, hlt]

/-! ### The slices that a safe reaction stops (R327) -/

theorem Dev.slice_congr {s t : Dev} (h : t.slices = s.slices) (k : Nat) : t.slice k = s.slice k := by
  rw [Dev.slice, h, Dev.slice]

/-- The blanking mask of every part but the slices. -/
def Dev.allButSlices : Nat := 2 ^ 60 - 1 - 2 ^ 25

theorem Dev.slices_of_hide {s t : Dev} (h : Dev.hide Dev.allButSlices t = Dev.hide Dev.allButSlices s) :
    t.slices = s.slices :=
  Dev.hide_keeps h .slices rfl

@[simp] theorem Dev.sliceEvent_slices (s : Dev) (k code : Nat) (flag : Bool) (payload : List Word) :
    (s.sliceEvent k code flag payload).slices = s.slices :=
  Dev.slices_of_hide (Dev.sliceEvent_hide rfl s k code flag payload rfl)

/-- The state of every slice. -/
def Dev.sliceStates (s : Dev) : Nat → SliceState := fun k => (s.slice k).state

theorem Dev.sliceStates_congr {s t : Dev} (h : t.slices = s.slices) : t.sliceStates = s.sliceStates :=
  funext fun k => congrArg Slice.state (Dev.slice_congr h k)

theorem Dev.setSlice_sliceStates (s : Dev) (k : Nat) (x : Slice) :
    (s.setSlice k x).sliceStates = Function.update s.sliceStates k x.state := by
  funext j
  rw [Dev.sliceStates, Dev.slice_setSlice, Function.update_apply]
  split <;> rfl

/-- A record with the state that the slice has leaves the states as they are. -/
theorem Dev.setSlice_sliceStates_same (s : Dev) (k : Nat) (x : Slice) (h : x.state = (s.slice k).state) :
    (s.setSlice k x).sliceStates = s.sliceStates := by
  rw [Dev.setSlice_sliceStates, h]
  exact Function.update_eq_self k s.sliceStates

theorem Dev.modSlice_sliceStates (s : Dev) (k : Nat) {f : Slice → Slice} (hf : ∀ x, (f x).state = x.state) :
    (s.modSlice k f).sliceStates = s.sliceStates :=
  s.setSlice_sliceStates_same k _ (hf _)

theorem Dev.sliceGoto_sliceStates (s : Dev) (k : Nat) (st : SliceState) (cause : Nat) :
    (s.sliceGoto k st cause).sliceStates = Function.update s.sliceStates k st := by
  unfold Dev.sliceGoto
  dsimp only
  split
  next h => rw [← h]; exact (Function.update_eq_self k s.sliceStates).symm
  next => rw [Dev.sliceStates_congr (Dev.sliceEvent_slices _ _ _ _ _), Dev.setSlice_sliceStates]

theorem Dev.cutUpdate_sliceStates (s : Dev) (k : Nat) : (s.cutUpdate k).sliceStates = s.sliceStates := by
  unfold Dev.cutUpdate
  dsimp only
  split
  · exact (Dev.sliceStates_congr (Dev.sliceEvent_slices _ _ _ _ _)).trans (s.setSlice_sliceStates_same k _ rfl)
  split
  · exact (Dev.sliceStates_congr (Dev.sliceEvent_slices _ _ _ _ _)).trans (s.setSlice_sliceStates_same k _ rfl)
  · rfl

theorem Dev.putReg_sliceStates (s : Dev) (off lo len v : Nat) : (s.putReg off lo len v).sliceStates = s.sliceStates := rfl

theorem Dev.commitReg_sliceStates (s : Dev) (off : Nat) : (s.commitReg off).sliceStates = s.sliceStates := rfl

theorem Dev.commitCs_sliceStates (s : Dev) (k : Nat) : (s.commitCs k).sliceStates = s.sliceStates :=
  Dev.sliceStates_congr (Dev.slices_of_hide (Dev.commitCs_hide rfl s k rfl))

/-- A kill puts its slice to OFF, and no other slice to another state. -/
theorem Dev.killSlice_sliceStates (s : Dev) (k cause : Nat) :
    (s.killSlice k cause).sliceStates = Function.update s.sliceStates k .off := by
  unfold Dev.killSlice
  dsimp only
  rw [Dev.cutUpdate_sliceStates, Dev.commitReg_sliceStates, Dev.commitCs_sliceStates, Dev.sliceGoto_sliceStates,
    Dev.putReg_sliceStates, Dev.modSlice_sliceStates]
  exact fun _ => rfl

theorem Dev.killSlice_keeps_off {s : Dev} {j : Nat} (k cause : Nat) (h : (s.slice j).state = .off) :
    ((s.killSlice k cause).slice j).state = .off := by
  refine (congrFun (s.killSlice_sliceStates k cause) j).trans ?_
  rw [Function.update_apply]
  split
  · rfl
  · exact h

theorem Dev.killSlices_keeps_off {s : Dev} {j : Nat} (g : Nat) (h : (s.slice j).state = .off) :
    ((s.killSlices g).slice j).state = .off :=
  Dev.forEach_keeps (P := fun t => (t.slice j).state = .off) (fun _ _ _ ht => Dev.killSlice_keeps_off _ _ ht) h

theorem Dev.killSlices_off (s : Dev) {g j : Nat} (h : j / 4 = g) : ((s.killSlices g).slice j).state = .off := by
  have hj : 4 * g + j % 4 = j := by omega
  refine Dev.forEach_attains (P := fun t => (t.slice j).state = .off) (a := j % 4)
    (fun _ _ _ ht => Dev.killSlice_keeps_off _ _ ht) (fun t => ?_) (List.mem_range.2 (Nat.mod_lt _ (by decide))) s
  rw [hj]
  exact (congrFun (t.killSlice_sliceStates j 4) j).trans (Function.update_self ..)

/-! ### The cells that a safe reaction covers (R394) -/

/-- One cell of a safe reaction: SAFE, and the end of CELL_LATCHED when it was the last of its block. -/
def Dev.safeCell (s : Dev) (c : Nat) : Dev :=
  let was := decide ((s.cell c).state = .latched)
  let s := s.enterSafe c
  if was then s.latchedCheck (c / 8) else s

theorem Dev.safeCell_cells (s : Dev) (c : Nat) : (s.safeCell c).cells = (s.goto c .safe).cells :=
  Dev.cells_of_hide (hide_ite (Dev.latchedCheck_hide rfl _ _ rfl) rfl)

theorem Dev.safeCell_safe (s : Dev) (c : Nat) : ((s.safeCell c).cell c).state = .safe := by
  rw [Dev.cell_congr (s.safeCell_cells c)]
  exact Dev.goto_state (by decide)

theorem Dev.safeCell_keeps_safe {s : Dev} {d : Nat} (c : Nat) (h : (s.cell d).state = .safe) :
    ((s.safeCell c).cell d).state = .safe := by
  by_cases hd : d = c
  · rw [hd]
    exact s.safeCell_safe c
  · rwa [Dev.cell_congr (s.safeCell_cells c), Dev.others_cell (Dev.goto_others s c .safe rfl) hd]

theorem Dev.safeCell_out_grows (s : Dev) (c : Nat) : s.out <+: (s.safeCell c).out := by
  rw [Dev.out_of_hide (s := s.goto c .safe) (t := s.safeCell c) (hide_ite (Dev.latchedCheck_hide rfl _ _ rfl) rfl)]
  exact s.goto_out_grows c .safe

theorem Dev.latchedCheck_coll_ne (s : Dev) (b : Nat) {k : Nat} (h : k ≠ b / 8) : (s.latchedCheck b).coll k = s.coll k := by
  unfold Dev.latchedCheck
  split
  · rfl
  · exact s.unoccur_coll_ne _ _ h

/-- The cells of the regions report to the collectors of the regions. -/
theorem Dev.safeCell_coll_ne (s : Dev) (c : Nat) {k : Nat} (h : k ≠ c / 8 / 8) : (s.safeCell c).coll k = s.coll k := by
  have hgoto : (s.enterSafe c).coll k = s.coll k := Dev.coll_congr (Dev.colls_of_hide (Dev.enterSafe_hide rfl s c rfl)) k
  unfold Dev.safeCell
  dsimp only
  split
  · exact (Dev.latchedCheck_coll_ne _ _ h).trans hgoto
  · exact hgoto

/-! ### The safe reaction of a region -/

/-- The cells of a region. -/
def Dev.regionCells (g : Nat) : List Nat := (List.range 64).map (fun i => 64 * g + i)

theorem Dev.regionSafe_eq (s : Dev) (g : Nat) : s.regionSafe g = (s.forEach (Dev.regionCells g) Dev.safeCell).killSlices g :=
  rfl

theorem Dev.mem_regionCells {g c : Nat} : c ∈ Dev.regionCells g ↔ c / 64 = g := by
  rw [Dev.regionCells, List.mem_map]
  constructor
  · rintro ⟨i, hi, rfl⟩
    have := List.mem_range.1 hi
    omega
  · rintro rfl
    exact ⟨c % 64, List.mem_range.2 (Nat.mod_lt _ (by decide)), by omega⟩

theorem Dev.killSlices_cells (s : Dev) (g : Nat) : (s.killSlices g).cells = s.cells :=
  Dev.cells_of_hide (Dev.killSlices_hide rfl s g rfl)

theorem Dev.regionSafe_safe (s : Dev) {g c : Nat} (h : c / 64 = g) : ((s.regionSafe g).cell c).state = .safe := by
  rw [Dev.regionSafe_eq, Dev.cell_congr (Dev.killSlices_cells _ _)]
  refine Dev.forEach_attains (P := fun t => (t.cell c).state = .safe) (a := c) (fun t b hb ht => ?_) (fun t => ?_) ?_ s
  · exact Dev.safeCell_keeps_safe _ ht
  · exact t.safeCell_safe c
  · exact Dev.mem_regionCells.2 h

theorem Dev.regionSafe_keeps_safe {s : Dev} {c : Nat} (g : Nat) (h : (s.cell c).state = .safe) :
    ((s.regionSafe g).cell c).state = .safe := by
  rw [Dev.regionSafe_eq, Dev.cell_congr (Dev.killSlices_cells _ _)]
  exact Dev.forEach_keeps (P := fun t => (t.cell c).state = .safe) (fun _ _ _ ht => Dev.safeCell_keeps_safe _ ht) h

theorem Dev.regionSafe_off (s : Dev) {g k : Nat} (h : k / 4 = g) : ((s.regionSafe g).slice k).state = .off :=
  Dev.killSlices_off _ h

theorem Dev.regionSafe_keeps_off {s : Dev} {k : Nat} (g : Nat) (h : (s.slice k).state = .off) :
    ((s.regionSafe g).slice k).state = .off := by
  refine Dev.killSlices_keeps_off g ?_
  rwa [Dev.slice_congr (Dev.slices_of_hide (Dev.safeCells_hide rfl s _ rfl))]

theorem Dev.regionSafe_out_grows (s : Dev) (g : Nat) : s.out <+: (s.regionSafe g).out := by
  rw [Dev.regionSafe_eq, Dev.out_of_hide (Dev.killSlices_hide rfl _ g rfl)]
  exact Dev.forEach_keeps (P := fun t => s.out <+: t.out) (fun t c _ ht => ht.trans (t.safeCell_out_grows c))
    ⟨[], List.append_nil _⟩

/-- The safe reaction of a region leaves the chip collector alone. -/
theorem Dev.regionSafe_chip_coll (s : Dev) {g : Nat} (hg : g < 8) : (s.regionSafe g).coll 8 = s.coll 8 := by
  rw [Dev.regionSafe_eq, Dev.coll_congr (Dev.colls_of_hide (Dev.killSlices_hide rfl _ g rfl))]
  refine Dev.forEach_keeps (P := fun t => t.coll 8 = s.coll 8) (fun t c hc ht => ?_) rfl
  have hcell := Dev.mem_regionCells.1 hc
  exact (t.safeCell_coll_ne c (by omega)).trans ht

/-! ### SUPERVISOR_SAFE in the named regions (R384) -/

/-- A request that stands changes nothing else of its collector. -/
theorem Dev.stand_coll (s : Dev) (k src : Nat) (scope : SafeScope) (fatal : Bool) :
    ∃ l, (s.stand k src scope fatal).coll k = { s.coll k with standing := l } ∧
      { source := src, scope := scope, fatal := fatal } ∈ l ∧ ∀ r ∈ (s.coll k).standing, r ∈ l := by
  unfold Dev.stand
  dsimp only
  rw [Dev.modColl_eq, Dev.coll_setColl_same]
  split
  next h => exact ⟨(s.coll k).standing, rfl, by simpa using h, fun _ hr => hr⟩
  next => exact ⟨_, rfl, by simp, fun _ hr => List.mem_append_left _ hr⟩

/-- The safe request of SUPERVISOR_SAFE for one region, and its reaction. -/
def Dev.svRegion (s : Dev) (g : Nat) : Dev := (s.stand 8 51 (.region g) false).regionSafe g

/-- Region `g` is safe at the supervisor's request. -/
def Dev.SvSafe (g : Nat) (t : Dev) : Prop :=
  { source := 51, scope := .region g, fatal := false } ∈ (t.coll 8).standing ∧
    (∀ c, c / 64 = g → (t.cell c).state = .safe) ∧ ∀ k, k / 4 = g → (t.slice k).state = .off

theorem Dev.svRegion_chip_coll (s : Dev) {g : Nat} (hg : g < 8) :
    ∃ l, (s.svRegion g).coll 8 = { s.coll 8 with standing := l } ∧
      { source := 51, scope := .region g, fatal := false } ∈ l ∧ ∀ r ∈ (s.coll 8).standing, r ∈ l := by
  rw [Dev.svRegion, Dev.regionSafe_chip_coll _ hg]
  exact s.stand_coll 8 51 (.region g) false

theorem Dev.svRegion_safe (s : Dev) {g : Nat} (hg : g < 8) : (s.svRegion g).SvSafe g := by
  obtain ⟨l, hcoll, hmem, -⟩ := s.svRegion_chip_coll hg
  exact ⟨by rwa [hcoll], fun c hc => Dev.regionSafe_safe _ hc, fun k hk => Dev.regionSafe_off _ hk⟩

theorem Dev.svRegion_keeps_safe {s : Dev} {j g : Nat} (hg : g < 8) (h : s.SvSafe j) : (s.svRegion g).SvSafe j := by
  obtain ⟨l, hcoll, -, hkeep⟩ := s.svRegion_chip_coll hg
  obtain ⟨hstand, hcells, hslices⟩ := h
  exact ⟨by rw [hcoll]; exact hkeep _ hstand, fun c hc => Dev.regionSafe_keeps_safe g (hcells c hc),
    fun k hk => Dev.regionSafe_keeps_off g (hslices k hk)⟩

end Sys2Proof.Machine
end

section
/-! SUPPORT. The supervisor port (spec/16 R383 to R385): what a frame does by its command, and what every executed frame
leaves. -/

namespace Sys2Proof.Machine

/-! ### Numbers of the regions that a frame names (R384) -/

/-- The sum of the powers of two of the numbers below `n` that satisfy `p`. -/
theorem Bits.testBit_sum_filter (p : Nat → Bool) (n : Nat) :
    ((List.range n).filter p).foldl (fun a g => a + 2 ^ g) 0 < 2 ^ n ∧
      ∀ i, (((List.range n).filter p).foldl (fun a g => a + 2 ^ g) 0).testBit i = (decide (i < n) && p i) := by
  induction n with
  | zero => exact ⟨Nat.one_pos, fun i => by simp⟩
  | succ n ih =>
    obtain ⟨hlt, hbit⟩ := ih
    rw [List.range_succ, List.filter_append, List.foldl_append]
    generalize ((List.range n).filter p).foldl (fun a g => a + 2 ^ g) 0 = v at hlt hbit ⊢
    have hpow : 2 ^ (n + 1) = 2 ^ n + 2 ^ n := by rw [Nat.pow_succ]; omega
    have hsucc : ∀ i, (decide (i < n + 1) && p i) = ((decide (n = i) && p n) || (decide (i < n) && p i)) := fun i => by
      by_cases hi : n = i
      · simp [← hi]
      · simp [hi, show i < n + 1 ↔ i < n by omega]
    cases hp : p n
    · rw [List.filter_cons_of_neg (by simp [hp])]
      exact ⟨by simp only [List.filter_nil, List.foldl_nil]; omega, fun i => by rw [hsucc, hp]; simp [hbit]⟩
    · rw [List.filter_cons_of_pos hp]
      simp only [List.filter_nil, List.foldl_cons, List.foldl_nil, Nat.add_comm v]
      have hor : 2 ^ n + v = 2 ^ n ||| v := by simpa using Nat.two_pow_add_eq_or_of_lt hlt 1
      exact ⟨by omega, fun i => by rw [hsucc, hp, hor]; simp [Nat.testBit_two_pow, hbit]⟩

/-- The named regions whose strait is lost. -/
def Dev.svLost (s : Dev) (mask : Nat) : List Nat := (Bits.ones 8 mask).filter fun g => !s.straitUp g
/-- The named regions whose strait is up. -/
def Dev.svReached (s : Dev) (mask : Nat) : List Nat := (Bits.ones 8 mask).filter fun g => s.straitUp g

theorem Dev.mem_svLost {s : Dev} {mask : Byte} {g : Nat} :
    g ∈ s.svLost mask.toNat ↔ g < 8 ∧ mask.getLsbD g = true ∧ s.straitUp g = false := by
  simp [Dev.svLost, Bits.ones, Bits.nbit_eq_testBit, BitVec.testBit_toNat, and_comm]

theorem Dev.mem_svReached {s : Dev} {mask : Byte} {g : Nat} :
    g ∈ s.svReached mask.toNat ↔ g < 8 ∧ mask.getLsbD g = true ∧ s.straitUp g = true := by
  simp [Dev.svReached, Bits.ones, Bits.nbit_eq_testBit, BitVec.testBit_toNat, and_comm]

/-- The mask of the undelivered requests. -/
def Dev.svUndelivered (s : Dev) (mask : Nat) : Nat := (s.svLost mask).foldl (fun a g => a + 2 ^ g) 0

theorem Dev.svUndelivered_testBit (s : Dev) (mask : Byte) {g : Nat} (hg : g < 8) :
    (s.svUndelivered mask.toNat).testBit g = true ↔ mask.getLsbD g = true ∧ s.straitUp g = false := by
  rw [Dev.svUndelivered, Dev.svLost, Bits.ones, List.filter_filter, (Bits.testBit_sum_filter _ 8).2 g]
  simp [hg, Bits.nbit_eq_testBit, BitVec.testBit_toNat, and_comm]

theorem Dev.straitUp_of_fate {s t : Dev} (h : t.fate = s.fate) (g : Nat) : t.straitUp g = s.straitUp g := by
  have hg : (t.region g).fate = (s.region g).fate := congrFun h g
  rw [Dev.straitUp, Dev.straitUp, Region.eq_of_fate (·.linkUp) hg, Region.eq_of_fate (·.islandLost) hg]

/-! ### What a supervisor frame does (R383 to R385) -/

/-- The device after a fresh frame has been shifted out and SUPERVISOR_LOSS has ended. -/
def Dev.svKicked (s : Dev) : Dev := (s.emit (SvOut s false)).unoccur 8 52

/-- The device `s` after the report of an executed frame. -/
def Dev.svReported (s : Dev) (cmd : Nat) (seq : Byte) (mask result : Nat) : Dev :=
  (s.modSv fun v => { v with seq := seq.toNat, result := result }).raise
    { stream := 0x8E, code := 0x1D8, obj := 17, flag := cmd == 1 || cmd == 2
      payload := Bits.words2 s.tbTime ++ [BitVec.ofNat 32 (cmd + result * 256 + mask * 65536)] }

@[simp] theorem Dev.svReported_sv (s : Dev) (cmd : Nat) (seq : Byte) (mask result : Nat) :
    (s.svReported cmd seq mask result).sv = { s.sv with seq := seq.toNat, result := result } := rfl

@[simp] theorem Dev.svReported_coll (s : Dev) (cmd : Nat) (seq : Byte) (mask result k : Nat) :
    (s.svReported cmd seq mask result).coll k = s.coll k := rfl

/-- REGION_SAFE raises SUPERVISOR_SAFE, and notes the requests that are not delivered. -/
def Dev.svNoted (s : Dev) (mask : Nat) : Dev :=
  (s.occur 8 51 mask).modSv fun v => { v with safeSeen := true, undelivered := s.svUndelivered mask }

/-- REGION_SAFE: the requests reach the named regions whose strait is up. -/
def Dev.svRegions (s : Dev) (mask : Nat) : Dev :=
  (s.svNoted mask).forEach ((s.svNoted mask).svReached mask) Dev.svRegion

/-- CHIP_SAFE raises SUPERVISOR_SAFE, and its request stands. -/
def Dev.svChip (s : Dev) : Dev :=
  ((s.occur 8 51 0xFF).modSv fun v => { v with safeSeen := true }).stand 8 51 .chip false

/-- CLEAR ends the sticky bits and the counts of SV_STAT. -/
def Dev.svCleared (s : Dev) : Dev :=
  s.modSv fun v => { v with wdExpired := false, safeSeen := false, crcErrors := 0, lenErrors := 0 }

/-- The watchdog has expired (R385). -/
def Dev.svExpired (s : Dev) : Dev := s.modSv fun v => { v with wdExpired := true }

/-- The command of a frame (Table 16-14), with its RESULT: 4 where SV_CFG does not enable it, 5 where a strait is lost. -/
def Dev.svCommand (s : Dev) (cmd mask : Nat) (enabled : Bool) : Nat × Dev :=
  if enabled = false then (4, s)
  else if cmd = 1 then (if (s.svLost mask).isEmpty then 0 else 5, s.svRegions mask)
  else if cmd = 2 then (0, s.svChip)
  else if cmd = 3 then (0, s.svCleared)
  else (0, s)

theorem Dev.svCommand_regionSafe (s : Dev) (mask : Nat) :
    s.svCommand 1 mask true = (if (s.svLost mask).isEmpty then 0 else 5, s.svRegions mask) := rfl

theorem Dev.svCommand_chipSafe (s : Dev) (mask : Nat) : s.svCommand 2 mask true = (0, s.svChip) := rfl

theorem Dev.svFrame_stopped {s : Dev} (h : s.rb RegMap.svCfg 0 = false) (cmd : Nat) (seq : Byte) (mask : Nat) (stale : Bool)
    (f : Dev → Nat × Dev) : s.svFrame cmd seq mask stale f = .next s := by
  simp [Dev.svFrame, h]

theorem Dev.svFrame_stale {s : Dev} (h : s.rb RegMap.svCfg 0 = true) (cmd : Nat) (seq : Byte) (mask : Nat)
    (f : Dev → Nat × Dev) : s.svFrame cmd seq mask true f = .next (s.emit (SvOut s true)) := by
  simp [Dev.svFrame, h, SvOut]

theorem Dev.svFrame_fresh {s : Dev} (h : s.rb RegMap.svCfg 0 = true) (cmd : Nat) (seq : Byte) (mask : Nat)
    (f : Dev → Nat × Dev) : s.svFrame cmd seq mask false f =
      .next ((f s.svKicked).2.svReported cmd seq mask (f s.svKicked).1) := by
  simp [Dev.svFrame, h, Dev.svKicked, SvOut, Dev.svReported]

/-- The blanking mask of what the end of SUPERVISOR_LOSS touches, with the image that leaves. -/
def Dev.kickParts : Nat := Parts.mask [.regions, .barges, .colls, .evq, .out]

theorem Dev.svKicked_hide {m : Nat} (hm : Dev.kickParts &&& m = Dev.kickParts) (s : Dev) :
    Dev.hide m s.svKicked = Dev.hide m s :=
  Dev.unoccur_hide (land_trans (by decide) hm) _ _ _ (Dev.emit_hide (land_trans (by decide) hm) _ _ rfl)

theorem Dev.svKicked_rb (s : Dev) (off i : Nat) : s.svKicked.rb off i = s.rb off i := by
  have hregs : s.svKicked.regs = s.regs := Dev.hide_keeps (s.svKicked_hide (m := Dev.kickParts) rfl) .regs rfl
  rw [Dev.rb, Dev.reg, hregs]
  rfl

theorem Dev.svKicked_sv (s : Dev) : s.svKicked.sv = s.sv := Dev.hide_keeps (s.svKicked_hide (m := Dev.kickParts) rfl) .sv rfl

theorem Dev.svKicked_out (s : Dev) : s.svKicked.out = s.out ++ [SvOut s false] :=
  Dev.out_of_hide (Dev.unoccur_hide rfl _ 8 52 rfl)

theorem Dev.svKicked_straitUp (s : Dev) (g : Nat) : s.svKicked.straitUp g = s.straitUp g :=
  Dev.straitUp_of_fate (Dev.unoccur_fate _ 8 52 rfl) g

theorem Dev.svKicked_not_live (s : Dev) : (s.svKicked.coll 8).live.getLsbD 52 = false :=
  Dev.unoccur_not_live _ 8 (by decide)

/-- Each row is a frame, and its command acts on the device that the frame has kicked. -/
theorem exec_svRow {s : State} {i : Instr} {cmd : Nat} {seq mask : Byte} {stale enabled : Bool}
    (h : SvRow s.dev i cmd seq mask stale enabled) :
    ∃ f, exec i s = (s.on fun u => u.svFrame cmd seq mask.toNat stale f) ∧
      f s.dev.svKicked = s.dev.svKicked.svCommand cmd mask.toNat enabled := by
  obtain ⟨rfl, rfl, rfl, rfl⟩ | ⟨rfl, rfl, rfl⟩ | ⟨rfl, rfl, rfl, rfl⟩ | ⟨rfl, rfl, rfl, rfl⟩ := h
  · exact ⟨_, rfl, rfl⟩
  · refine ⟨_, rfl, ?_⟩
    rw [Dev.svCommand, ← Dev.svKicked_rb s.dev]
    cases s.dev.svKicked.rb RegMap.svCfg 2 <;> rfl
  · refine ⟨_, rfl, ?_⟩
    rw [Dev.svCommand, ← Dev.svKicked_rb s.dev]
    cases s.dev.svKicked.rb RegMap.svCfg 3 <;> rfl
  · exact ⟨_, rfl, rfl⟩

section
variable {s : State} {i : Instr} {cmd : Nat} {seq mask : Byte} {stale enabled : Bool}

/-- A read and CLEAR need no bit of SV_CFG. -/
theorem SvRow.enabled_of_ne (h : SvRow s.dev i cmd seq mask stale enabled) (hregion : cmd ≠ 1) (hchip : cmd ≠ 2) :
    enabled = true := by
  obtain ⟨-, -, -, hen⟩ | ⟨-, hcmd, -⟩ | ⟨-, hcmd, -⟩ | ⟨-, -, -, hen⟩ := h
  · exact hen
  · exact absurd hcmd hregion
  · exact absurd hcmd hchip
  · exact hen

theorem exec_svRow_stopped (h : SvRow s.dev i cmd seq mask stale enabled) (hen : s.dev.rb RegMap.svCfg 0 = false) :
    NoEffect i s := by
  obtain ⟨f, hexec, -⟩ := exec_svRow h
  exact hexec.trans (State.on_next _ _ _ (Dev.svFrame_stopped hen _ _ _ _ _))

theorem exec_svRow_stale (h : SvRow s.dev i cmd seq mask true enabled) (hen : s.dev.rb RegMap.svCfg 0 = true) :
    Becomes i s (s.dev.emit (SvOut s.dev true)) := by
  obtain ⟨f, hexec, -⟩ := exec_svRow h
  exact hexec.trans (State.on_next _ _ _ (Dev.svFrame_stale hen _ _ _ _))

theorem exec_svRow_fresh (h : SvRow s.dev i cmd seq mask false enabled) (hen : s.dev.rb RegMap.svCfg 0 = true)
    {result : Nat} {u : Dev} (hu : s.dev.svKicked.svCommand cmd mask.toNat enabled = (result, u)) :
    Becomes i s (u.svReported cmd seq mask.toNat result) := by
  obtain ⟨f, hexec, hf⟩ := exec_svRow h
  refine hexec.trans (State.on_next _ _ _ ((Dev.svFrame_fresh hen _ _ _ f).trans ?_))
  rw [hf, hu]

end

/-! ### What an executed frame leaves -/

/-- The blanking mask of what a frame may touch. -/
def Dev.svParts : Nat := Parts.mask (Parts.fault ++ [.sv, .out])

/-- The device `u` comes from `s` by a frame: nothing else is touched, the image left first, and SUPERVISOR_LOSS is over. -/
structure Dev.FrameFrom (s u : Dev) : Prop where
  frame : Dev.hide Dev.svParts u = Dev.hide Dev.svParts s
  out : s.out ++ [SvOut s false] <+: u.out
  ended : (u.coll 8).live.getLsbD 52 = false

theorem Dev.svKicked_frameFrom (s : Dev) : s.FrameFrom s.svKicked :=
  ⟨s.svKicked_hide (by decide), ⟨[], s.svKicked_out ▸ List.append_nil _⟩, s.svKicked_not_live⟩

theorem Dev.FrameFrom.modSv {s u : Dev} (h : s.FrameFrom u) (f : Supervisor → Supervisor) : s.FrameFrom (u.modSv f) :=
  ⟨Dev.modSv_hide (by decide) _ _ h.frame, h.out, h.ended⟩

/-- An event of SUPERVISOR_SAFE. -/
theorem Dev.FrameFrom.occur {s u : Dev} (h : s.FrameFrom u) (info : Nat) : s.FrameFrom (u.occur 8 51 info) := by
  have hframe := Dev.occur_chip_hide (src := 51) (by decide) u info
  refine ⟨(Dev.occur_hide (by decide) u 8 51 info rfl).trans h.frame, ?_, ?_⟩
  · rw [show (u.occur 8 51 info).out = u.out from Dev.hide_keeps hframe .out rfl]
    exact h.out
  · have hlive := congrFun (Dev.occur_chip_lives (src := 51) (by decide) rfl u info) 8
    exact (congrArg (BitVec.getLsbD · 52) hlive).trans h.ended

theorem Dev.FrameFrom.svRegion {s u : Dev} (h : s.FrameFrom u) {g : Nat} (hg : g < 8) : s.FrameFrom (u.svRegion g) := by
  obtain ⟨l, hcoll, -⟩ := u.svRegion_chip_coll hg
  refine ⟨Dev.regionSafe_hide (by decide) _ _ (Dev.stand_hide (by decide) _ _ _ _ _ h.frame), ?_, ?_⟩
  · exact h.out.trans (Dev.regionSafe_out_grows (u.stand 8 51 (.region g) false) g)
  · rw [hcoll]
    exact h.ended

theorem Dev.FrameFrom.svRegions {s u : Dev} (h : s.FrameFrom u) (mask : Byte) : s.FrameFrom (u.svRegions mask.toNat) :=
  Dev.forEach_keeps (P := s.FrameFrom) (fun _ _ hg ht => ht.svRegion (Dev.mem_svReached.1 hg).1)
    ((h.occur mask.toNat).modSv _)

theorem Dev.FrameFrom.svChip {s u : Dev} (h : s.FrameFrom u) : s.FrameFrom u.svChip := by
  have hsafe := (h.occur 0xFF).modSv fun v => { v with safeSeen := true }
  obtain ⟨l, hcoll, -⟩ := Dev.stand_coll ((u.occur 8 51 0xFF).modSv fun v => { v with safeSeen := true }) 8 51 .chip false
  refine ⟨Dev.stand_hide (by decide) _ _ _ _ _ hsafe.frame, hsafe.out, ?_⟩
  rw [Dev.svChip, hcoll]
  exact hsafe.ended

theorem Dev.FrameFrom.svCleared {s u : Dev} (h : s.FrameFrom u) : s.FrameFrom u.svCleared := h.modSv _

theorem Dev.FrameFrom.svCommand {s u : Dev} (h : s.FrameFrom u) (cmd : Nat) (mask : Byte) (enabled : Bool) :
    s.FrameFrom (u.svCommand cmd mask.toNat enabled).2 := by
  unfold Dev.svCommand
  split
  · exact h
  split
  · exact h.svRegions mask
  split
  · exact h.svChip
  split
  · exact h.svCleared
  · exact h

/-! ### REGION_SAFE and CHIP_SAFE -/

theorem Dev.svNoted_straitUp (s : Dev) (mask g : Nat) : (s.svNoted mask).straitUp g = s.straitUp g :=
  Dev.straitUp_of_fate (Dev.occur_fate s 8 51 mask rfl) g

theorem Dev.occur_chip_sv {src : Nat} (hsrc : 32 ≤ src) (s : Dev) (info : Nat) : (s.occur 8 src info).sv = s.sv :=
  Dev.hide_keeps (Dev.occur_chip_hide hsrc s info) .sv rfl

theorem Dev.svRegion_sv (s : Dev) (g : Nat) : (s.svRegion g).sv = s.sv :=
  Dev.hide_keeps (m := Parts.mask Parts.fault)
    (Dev.regionSafe_hide (by decide) _ _ (Dev.stand_hide (by decide) _ _ _ _ _ rfl)) .sv (by decide)

theorem Dev.svRegions_sv (s : Dev) (mask : Nat) :
    (s.svRegions mask).sv = { s.sv with safeSeen := true, undelivered := s.svUndelivered mask } := by
  refine Dev.forEach_keeps (P := fun t => t.sv = _) (fun t g _ ht => (t.svRegion_sv g).trans ht) ?_
  rw [Dev.svNoted, Dev.modSv_sv, Dev.occur_chip_sv (by decide)]

/-- The requests of the regions leave SUPERVISOR_SAFE latched. -/
theorem Dev.svRegions_latched (s : Dev) (mask : Byte) :
    ((s.svRegions mask.toNat).coll 8).latched.getLsbD 51 = true := by
  refine Dev.forEach_keeps (P := fun t => (t.coll 8).latched.getLsbD 51 = true) (fun t g hg ht => ?_) ?_
  · have hlatch : ((t.svRegion g).coll 8).latched = (t.coll 8).latched := by
      obtain ⟨l, hcoll, -⟩ := t.svRegion_chip_coll (Dev.mem_svReached.1 hg).1
      rw [hcoll]
    exact (congrArg (BitVec.getLsbD · 51) hlatch).trans ht
  · exact s.occur_latches 8 51 mask.toNat rfl rfl (by decide)

/-- A named region whose strait is up is safe. -/
theorem Dev.svRegions_safe (s : Dev) {mask : Byte} {g : Nat} (hg : g < 8) (hmask : mask.getLsbD g = true)
    (hup : s.straitUp g = true) : (s.svRegions mask.toNat).SvSafe g :=
  Dev.forEach_attains (P := Dev.SvSafe g) (fun _ _ hj ht => Dev.svRegion_keeps_safe (Dev.mem_svReached.1 hj).1 ht)
    (fun t => t.svRegion_safe hg) (Dev.mem_svReached.2 ⟨hg, hmask, (s.svNoted_straitUp _ g).trans hup⟩) _

theorem Dev.svChip_sv (s : Dev) : s.svChip.sv = { s.sv with safeSeen := true } := by
  have hstand := fun t : Dev => Dev.hide_keeps (Dev.stand_hide (m := 2 ^ 35) rfl t 8 51 .chip false rfl) .sv rfl
  rw [Dev.svChip]
  refine (hstand _).trans ?_
  rw [Dev.modSv_sv, Dev.occur_chip_sv (by decide)]

theorem Dev.svChip_chip_coll (s : Dev) : (s.svChip.coll 8).latched.getLsbD 51 = true ∧
    { source := 51, scope := .chip, fatal := false } ∈ (s.svChip.coll 8).standing := by
  obtain ⟨l, hcoll, hmem, -⟩ :=
    Dev.stand_coll ((s.occur 8 51 0xFF).modSv fun v => { v with safeSeen := true }) 8 51 .chip false
  rw [Dev.svChip, hcoll]
  exact ⟨s.occur_latches 8 51 0xFF rfl rfl (by decide), hmem⟩

end Sys2Proof.Machine
end

section
/-! SUPPORT. The management port (spec/16 R381, R382), and the statement about both ports. -/

namespace Sys2Proof.Machine

/-! ### The management port (R381, R382) -/

@[simp] theorem Bytes.le_length (n v : Nat) : (Bytes.le n v).length = n := by simp [Bytes.le]

theorem Dev.mgRead_of_enabled {s : Dev} (h : s.rb RegMap.mgCfg 0 = true) (l : List Byte) :
    s.mgRead l = .next (s.emit (.serial 0 (BitVec.ofNat 8 l.length :: l))) := by
  simp [Dev.mgRead, h]

theorem Dev.mgRead_of_disabled {s : Dev} (h : s.rb RegMap.mgCfg 0 = false) (l : List Byte) : s.mgRead l = .next s := by
  simp [Dev.mgRead, h]

theorem Dev.mgPec_iff (s : Dev) (l : List Nat) (pec : Option Byte) : s.mgPec l pec = true ↔
    (s.rb RegMap.mgCfg 1 = true → pec.map BitVec.toNat = some (Pec.crc ((0x80 + 2 * Config.mgStrap.toNat) :: l))) := by
  cases h : s.rb RegMap.mgCfg 1 <;> simp [Dev.mgPec, h]

theorem Dev.reply_eq (s : Dev) (d : Desc) (op st r0 r1 : Nat) : s.reply d op st r0 r1 = CmdDone s d op st r0 r1 := rfl

section
variable {s : State} {v : BitVec 16} {data : List Byte} {pec : Option Byte}

theorem exec_mgWrites_disabled (h : s.dev.rb RegMap.mgCfg 0 = false) :
    NoEffect (.mgCellSel v pec) s ∧ NoEffect (.mgMboxWrite data pec) s ∧ ∀ b, NoEffect (.mgmtCommandNack b) s := by
  refine ⟨?_, ?_, fun b => ?_⟩
  · change execMgCellSel v pec s = _
    simp [execMgCellSel, State.on, h]
  · change execMgMboxWrite data pec s = _
    simp [execMgMboxWrite, State.on, h]
  · change execMgmtCommandNack b s = _
    simp [execMgmtCommandNack, State.on, h]

section
variable (h : s.dev.rb RegMap.mgCfg 0 = true)
include h

theorem exec_mgmtCommandNack (b : Bool) :
    Becomes (.mgmtCommandNack b) s (if b = true then s.dev.mgPecBad else s.dev.mgNack) := by
  change execMgmtCommandNack b s = _
  cases b <;> simp [execMgmtCommandNack, State.on, h]

/-- MG_CELL_SEL: its PEC is looked at before its cell. -/
theorem exec_mgCellSel : Becomes (.mgCellSel v pec) s
    (if s.dev.mgPec [4, v.toNat % 256, v.toNat / 256] pec = true then
      if 512 ≤ v.toNat then s.dev.mgNack else s.dev.modMg fun m => { m with cell := v.toNat }
    else s.dev.mgPecBad) := by
  change execMgCellSel v pec s = _
  cases hpec : s.dev.mgPec [4, v.toNat % 256, v.toNat / 256] pec
  · simp [execMgCellSel, State.on, h, hpec]
  · by_cases hcell : 512 ≤ v.toNat <;> simp [execMgCellSel, State.on, h, hpec, hcell]

/-- MG_MBOX_WRITE: the mailbox takes no write while it holds one, whatever its PEC. -/
theorem exec_mgMboxWrite_refused
    (hbox : ¬(s.dev.rb RegMap.mgCfg 2 = true ∧ s.dev.mg.mbox = none ∧ 1 ≤ data.length ∧ data.length ≤ 32)) :
    Becomes (.mgMboxWrite data pec) s s.dev.mgNack := by
  have hcond : (!s.dev.rb RegMap.mgCfg 2 || s.dev.mg.mbox.isSome || decide (data.length < 1) ||
      decide (32 < data.length)) = true := by
    by_contra hfree
    refine hbox ?_
    simpa [and_assoc, Nat.one_le_iff_ne_zero] using hfree
  change execMgMboxWrite data pec s = _
  simp only [execMgMboxWrite, State.on, h, hcond]
  rfl

theorem exec_mgMboxWrite (hbox : s.dev.rb RegMap.mgCfg 2 = true ∧ s.dev.mg.mbox = none ∧ 1 ≤ data.length ∧
    data.length ≤ 32) : Becomes (.mgMboxWrite data pec) s
    (if s.dev.mgPec ([0x10, data.length] ++ data.map BitVec.toNat) pec = true then
      (s.dev.modMg fun m => { m with mbox := some data }).raise
        { stream := 0x8E, code := 0x1D0, obj := 16
          payload := Bits.words2 s.dev.tbTime ++ [BitVec.ofNat 32 data.length] }
    else s.dev.mgPecBad) := by
  obtain ⟨hen, hfree, hlo, hhi⟩ := hbox
  have hcond : (!s.dev.rb RegMap.mgCfg 2 || s.dev.mg.mbox.isSome || decide (data.length < 1) ||
      decide (32 < data.length)) = false := by
    simp [hen, hfree, Nat.not_lt.2 hlo, Nat.not_lt.2 hhi]
  change execMgMboxWrite data pec s = _
  simp only [execMgMboxWrite, State.on, h, hcond]
  cases s.dev.mgPec ([0x10, data.length] ++ data.map BitVec.toNat) pec <;> rfl

end
end

end Sys2Proof.Machine

namespace Sys2Proof.Proofs
open Sys2Proof Sys2Proof.Machine

/-! ### The management port -/

/-- R382: a Block Read answers with the count of its block. -/
theorem mgRead_answers {i : Instr} {l : List Byte} {s : State} (hi : exec i s = s.on fun _ => s.dev.mgRead l) :
    (s.dev.rb RegMap.mgCfg 0 = false → NoEffect i s) ∧
    (s.dev.rb RegMap.mgCfg 0 = true → Becomes i s { s.dev with
      out := s.dev.out ++ [Out.serial 0 (BitVec.ofNat 8 l.length :: l)] }) :=
  ⟨fun h => hi.trans (State.on_next _ _ _ (Dev.mgRead_of_disabled h l)),
    fun h => hi.trans (State.on_next _ _ _ (Dev.mgRead_of_enabled h l))⟩

/-- R382: MGMT_REPLY sets the reply that the port reads. -/
theorem mgmtReply_rules (d : Desc) (data : Option (List Byte)) (s : State)
    (hacc : Accepted d [0] [0x3F, Cmd.all, Cmd.all] s.dev) : let n := d.pf 0 0 6
    ((32 < n ∨ d.par64 1 % 64 ≠ 0) → Refused (.mgmtReply d data) s d 0x710 0x10) ∧
    (1 ≤ n → n ≤ 32 → d.par64 1 % 64 = 0 → data = none → Refused (.mgmtReply d data) s d 0x710 0x19) ∧
    (n ≤ 32 → d.par64 1 % 64 = 0 → ∀ l, (data = some l ∨ n = 0) → Becomes (.mgmtReply d data) s
      { CmdDone s.dev d 0x710 0 0 0 with mg := { s.dev.mg with reply := l.take n } }) := by
  have hbase : exec (.mgmtReply d data) s = execMgmtReply d data s := rfl
  refine ⟨fun hbad => hbase.trans (State.on_accepted hacc ?_), fun hone hle haddr hdata =>
    hbase.trans (State.on_accepted hacc ?_), fun hle haddr l hl => hbase.trans (State.on_accepted hacc ?_)⟩
  · exact if_pos hbad
  all_goals
    have hok : ¬(32 < d.pf 0 0 6 ∨ d.par64 1 % 64 ≠ 0) := by omega
    refine (if_neg hok).trans ?_
  · rw [if_neg (by omega), hdata]
    rfl
  · obtain rfl | hzero := hl
    · split
      next hzero => rw [hzero]; rfl
      next => rfl
    · rw [if_pos hzero, hzero]
      rfl

/-- R382: MGMT_MBOX_READ frees the mailbox. -/
theorem mgmtMboxRead_rules (d : Desc) (ok : Bool) (s : State) (hacc : Accepted d [0] [Cmd.all, Cmd.all] s.dev) :
    (d.par64 0 % 64 ≠ 0 → Refused (.mgmtMboxRead d ok) s d 0x711 0x10) ∧
    (d.par64 0 % 64 = 0 → Becomes (.mgmtMboxRead d true) s
      { CmdDone s.dev d 0x711 0 (s.dev.mg.mbox.getD []).length 0 with
        mg := { s.dev.mg with mbox := none }
        out := s.dev.out ++ [Out.hostWrite (d.par64 0)
          (Bytes.words ((s.dev.mg.mbox.getD [] ++ List.replicate 32 0).take 32))] }) := by
  have hbase : ∀ b, exec (.mgmtMboxRead d b) s = execMgmtMboxRead d b s := fun _ => rfl
  refine ⟨fun hbad => (hbase ok).trans (State.on_accepted hacc ?_),
    fun haddr => (hbase true).trans (State.on_accepted hacc ?_)⟩
  · exact if_pos hbad
  · refine (if_neg (not_not.2 haddr)).trans ?_
    rw [Dev.bufReply, if_pos rfl, Dev.reply_eq]
    rfl

/-- R381, R382: the images, the reads, the writes with their PEC, and the two commands of the mailbox. -/
theorem managementPort : Rules.ManagementPort := by
  refine ⟨fun s => ?_, fun i l s hrow => mgRead_answers ?_, fun v data pec s => ⟨exec_mgWrites_disabled, ?_⟩,
    fun d data ok s => ⟨mgmtReply_rules d data s, mgmtMboxRead_rules d ok s⟩⟩
  · refine Does.of_parts rfl (Dev.modMg_hide (by decide) _ _ rfl) ⟨?_, ?_, ?_, ?_, ?_, fun g _ hauto => if_pos hauto⟩
    · rw [← Nat.shiftRight_eq_div_pow]
      rfl
    all_goals simp [List.length_flatMap]
  · obtain ⟨rfl, rfl⟩ | ⟨rfl, rfl⟩ | ⟨rfl, rfl⟩ | ⟨rfl, rfl⟩ | ⟨rfl, rfl⟩ | ⟨rfl, hauto, rfl⟩ |
      ⟨rfl, hauto, rfl⟩ := hrow
    iterate 5 rfl
    all_goals
      change execMgCell s = _
      simp [execMgCell, State.on, hauto]
  · intro hen
    have hsel := exec_mgCellSel (v := v) (pec := pec) hen
    have hbox := exec_mgMboxWrite (data := data) (pec := pec) hen
    refine ⟨fun hpec => ?_, fun hpec hcell => ?_, fun hpec hcell => ?_, exec_mgMboxWrite_refused hen,
      fun hfree hpec => ?_, fun hfree hpec => ?_, exec_mgmtCommandNack hen true, exec_mgmtCommandNack hen false⟩
    · rwa [if_neg (mt (Dev.mgPec_iff _ _ _).1 hpec)] at hsel
    · rwa [if_pos ((Dev.mgPec_iff _ _ _).2 hpec), if_pos hcell] at hsel
    · rwa [if_pos ((Dev.mgPec_iff _ _ _).2 hpec), if_neg (Nat.not_le.2 hcell)] at hsel
    · have h := hbox hfree
      rwa [if_neg (mt (Dev.mgPec_iff _ _ _).1 hpec)] at h
    · have h := hbox hfree
      rwa [if_pos ((Dev.mgPec_iff _ _ _).2 hpec)] at h

/-! ### The supervisor port -/

/-- R383: where the image has its state, its sequence, its result and its mask of undelivered requests. -/
theorem svImage_bytes (s : Dev) (stale : Bool) : (s.svImage stale).length = 30 ∧
    (s.svImage stale)[0]? = some (if stale = true then 0x5A else 0xA5) ∧
    (s.svImage stale)[1]? = some (BitVec.ofNat 8 s.sv.seq) ∧ (s.svImage stale)[2]? = some (BitVec.ofNat 8 s.sv.result) ∧
    (s.svImage stale)[15]? = some (BitVec.ofNat 8 s.sv.undelivered) := by
  simp [Dev.svImage, Bytes.le, List.range_succ]

section
variable {s : State} {i : Instr} {cmd : Nat} {seq mask : Byte} {enabled : Bool}

/-- R384: every executed frame leaves the image, its sequence and its report, and ends SUPERVISOR_LOSS. -/
theorem svRow_executes (h : SvRow s.dev i cmd seq mask false enabled) (hen : s.dev.rb RegMap.svCfg 0 = true) :
    Does i s (Parts.fault ++ [.sv, .out]) fun t => s.dev.out ++ [SvOut s.dev false] <+: t.out ∧ t.sv.seq = seq.toNat ∧
      (t.coll 8).live.getLsbD 52 = false ∧
      ([{ stream := 0x8E, code := 0x1D8, obj := 17, flag := decide (cmd = 1) || decide (cmd = 2)
          payload := Bits.words2 s.dev.tbTime ++
            [BitVec.ofNat 32 (cmd + t.sv.result * 256 + mask.toNat * 65536)] }] : List Event) <:+ t.evq := by
  have hfrom := s.dev.svKicked_frameFrom.svCommand cmd mask enabled
  generalize hu : s.dev.svKicked.svCommand cmd mask.toNat enabled = r at hfrom
  obtain ⟨result, u⟩ := r
  have htime : u.tbTime = s.dev.tbTime := Dev.hide_keeps hfrom.frame .tbTime (by decide)
  refine Does.of_parts (exec_svRow_fresh h hen hu) (Dev.raise_hide (by decide) _ _ (hfrom.modSv _).frame)
    ⟨hfrom.out, rfl, hfrom.ended, ?_⟩
  rw [← htime]
  exact ⟨_, rfl⟩

/-- A command that touches no more than SV_STAT. -/
theorem svRow_quiet (h : SvRow s.dev i cmd seq mask false enabled) (hen : s.dev.rb RegMap.svCfg 0 = true) {result : Nat}
    {f : Supervisor → Supervisor}
    (hu : s.dev.svKicked.svCommand cmd mask.toNat enabled = (result, s.dev.svKicked.modSv f)) :
    Does i s [.regions, .barges, .colls, .sv, .evq, .out] fun t =>
      t.sv = { f s.dev.sv with seq := seq.toNat, result := result } := by
  refine Does.of_parts (exec_svRow_fresh h hen hu)
    (Dev.raise_hide (by decide) _ _ (Dev.modSv_hide (by decide) _ _ (Dev.modSv_hide (by decide) _ _
      (Dev.svKicked_hide (by decide) s.dev)))) ?_
  rw [← s.dev.svKicked_sv]
  rfl

end

section
variable {s : State} {i : Instr} {seq mask : Byte}

/-- R384: REGION_SAFE acts in the named regions whose strait is up, and notes the others. -/
theorem regionSafe_acts (h : SvRow s.dev i 1 seq mask false true) (hen : s.dev.rb RegMap.svCfg 0 = true) :
    Does i s (Parts.fault ++ [.sv, .out]) fun t => t.sv.safeSeen = true ∧ (t.coll 8).latched.getLsbD 51 = true ∧
      ((∀ g, g < 8 → mask.getLsbD g = true → s.dev.straitUp g = true) → t.sv.result = 0) ∧
      (∀ g, g < 8 → mask.getLsbD g = true → s.dev.straitUp g = false → t.sv.result = 5) ∧
      (∀ g, g < 8 → (t.sv.undelivered.testBit g = true ↔ (mask.getLsbD g = true ∧ s.dev.straitUp g = false))) ∧
      (∀ g, g < 8 → mask.getLsbD g = true → s.dev.straitUp g = true →
        { source := 51, scope := .region g, fatal := false } ∈ (t.coll 8).standing ∧
        (∀ c, c / 64 = g → (t.cell c).state = .safe) ∧ ∀ k, k / 4 = g → (t.slice k).state = .off) := by
  have hsv := s.dev.svKicked.svRegions_sv mask.toNat
  have hup := s.dev.svKicked_straitUp
  refine Does.of_parts (exec_svRow_fresh h hen (s.dev.svKicked.svCommand_regionSafe mask.toNat))
    (Dev.raise_hide (by decide) _ _ ((s.dev.svKicked_frameFrom.svRegions mask).modSv _).frame)
    ⟨?_, s.dev.svKicked.svRegions_latched mask, fun hall => ?_, fun g hg hmask hlost => ?_, fun g hg => ?_,
      fun g hg hmask hg' => s.dev.svKicked.svRegions_safe hg hmask ((hup g).trans hg')⟩
  · rw [Dev.svReported_sv, hsv]
  · have hnone : s.dev.svKicked.svLost mask.toNat = [] := List.eq_nil_iff_forall_not_mem.2 fun g hmem => by
      obtain ⟨hg, hmask, hlost⟩ := Dev.mem_svLost.1 hmem
      rw [hup, hall g hg hmask] at hlost
      cases hlost
    exact if_pos (by rw [hnone]; rfl)
  · have hmem : g ∈ s.dev.svKicked.svLost mask.toNat := Dev.mem_svLost.2 ⟨hg, hmask, (hup g).trans hlost⟩
    exact if_neg fun hnil => by rw [List.isEmpty_iff.1 hnil] at hmem; cases hmem
  · have hund := s.dev.svKicked.svUndelivered_testBit mask hg
    rw [hup] at hund
    rwa [Dev.svReported_sv, hsv]

/-- R384: CHIP_SAFE raises SUPERVISOR_SAFE, and its request stands. -/
theorem chipSafe_acts (h : SvRow s.dev i 2 seq mask false true) (hen : s.dev.rb RegMap.svCfg 0 = true) :
    Does i s (Parts.fault ++ [.sv, .out]) fun t =>
      t.sv = { s.dev.sv with seq := seq.toNat, result := 0, safeSeen := true } ∧
      (t.coll 8).latched.getLsbD 51 = true ∧ { source := 51, scope := .chip, fatal := false } ∈ (t.coll 8).standing := by
  have hsv : s.dev.svKicked.svChip.sv = { s.dev.sv with safeSeen := true } := by
    rw [Dev.svChip_sv, Dev.svKicked_sv]
  refine Does.of_parts (exec_svRow_fresh h hen (s.dev.svKicked.svCommand_chipSafe mask.toNat))
    (Dev.raise_hide (by decide) _ _ (s.dev.svKicked_frameFrom.svChip.modSv _).frame) ⟨?_, ?_⟩
  · rw [Dev.svReported_sv, hsv]
  · rw [Dev.svReported_coll]
    exact s.dev.svKicked.svChip_chip_coll

end

/-- R383: a discarded frame is counted, with its RESULT. -/
theorem exec_supervisorFrameDiscard {s : State} (hen : s.dev.rb RegMap.svCfg 0 = true) (e : FrameError) :
    Becomes (.supervisorFrameDiscard e) s { s.dev with sv := match e with
      | .crc => { s.dev.sv with result := 1, crcErrors := min 255 (s.dev.sv.crcErrors + 1) }
      | .length => { s.dev.sv with result := 2, lenErrors := min 255 (s.dev.sv.lenErrors + 1) }
      | .command => { s.dev.sv with result := 3 } } := by
  have hbase : exec (.supervisorFrameDiscard e) s = execSupervisorFrameDiscard e s := rfl
  refine hbase.trans (State.on_next _ _ _ ((if_neg (by simp [hen])).trans ?_))
  cases e <;> rfl

/-- R385: the silence of the supervisor is noted, and raises SUPERVISOR_LOSS where it is not live. -/
theorem supervisorLoss_raises (s : State) (hen : s.dev.rf RegMap.svCfg 8 8 ≠ 0) :
    Does .supervisorLoss s (Parts.fault ++ [.sv]) fun t => t.sv = { s.dev.sv with wdExpired := true } ∧
      ((s.dev.coll 8).live.getLsbD 52 = false → (t.coll 8).latched.getLsbD 52 = true ∧ (t.coll 8).live.getLsbD 52 = true) := by
  have hexec : exec .supervisorLoss s = .next { s with dev := s.dev.svExpired.occur 8 52 0xFFFFFFFF } := by
    change execSupervisorLoss s = _
    simp [execSupervisorLoss, State.on, hen, Dev.svExpired]
  refine Does.of_parts hexec (Dev.occur_hide (by decide) _ _ _ _ (Dev.modSv_hide (by decide) _ _ rfl)) ⟨?_, fun hdead => ?_⟩
  · rw [Dev.occur_chip_sv (by decide)]
    rfl
  · exact Dev.occur_chip_level (s := s.dev.svExpired) (by decide) (by decide) rfl rfl hdead _

/-- R383 to R385: the image, the frames by their rows, and the watchdog. -/
theorem supervisorPort : Rules.SupervisorPort := by
  refine ⟨svImage_bytes, fun i cmd seq mask stale enabled s hrow => ⟨exec_svRow_stopped hrow, fun hen hst => ?_,
    fun hen hst => ?_⟩, fun e s => ⟨fun hoff => ?_, fun hen => exec_supervisorFrameDiscard hen e, fun hoff => ?_,
    supervisorLoss_raises s⟩⟩
  · subst hst
    exact exec_svRow_stale hrow hen
  · subst hst
    refine ⟨svRow_executes hrow hen, fun hdis => ?_, ?_, ?_, ?_, ?_⟩
    · subst hdis
      exact svRow_quiet (f := id) hrow hen rfl
    · rintro rfl
      obtain rfl := hrow.enabled_of_ne (by decide) (by decide)
      exact svRow_quiet (f := id) hrow hen rfl
    · rintro rfl
      obtain rfl := hrow.enabled_of_ne (by decide) (by decide)
      exact svRow_quiet hrow hen rfl
    · rintro rfl rfl
      exact regionSafe_acts hrow hen
    · rintro rfl rfl
      exact chipSafe_acts hrow hen
  · change execSupervisorFrameDiscard e s = _
    simp [execSupervisorFrameDiscard, State.on, hoff]
  · change execSupervisorLoss s = _
    simp [execSupervisorLoss, State.on, hoff]

/-- Settles O40: the management port by its commands, the supervisor port by the rows of its frames. -/
theorem managementAndSupervisor : Obligations.ManagementAndSupervisor := ⟨managementPort, supervisorPort⟩

end Sys2Proof.Proofs
end
